-- ==== Sys2Proof/Word.lean ====
section
/-!
DEFINITION. The word types of the machine and their plainest arithmetic (spec 01 R12, 02 R43).
-/
namespace Sys2Proof

/-- A scalar register's contents (R12). -/
abbrev Word := BitVec 64

/-- One byte of memory. -/
abbrev Byte := BitVec 8

/-- One bundle slot (R62). -/
abbrev Slot := BitVec 32

/-- The contents of a vector register, 4 KiB, byte 0 in the low bits (R37). -/
abbrev VWord := BitVec 32768

/-- The contents of a mask register; bit `i` governs element `i` (R20). -/
abbrev Mask := BitVec 4096

/-- The name of a scalar register. -/
abbrev SReg := Fin 64

/-- The name of a vector register, before VBANK (R18). -/
abbrev VReg := Fin 64

/-- The name of a mask register. -/
abbrev KReg := Fin 16

/-- The name of a mask register in a 3-bit field (R21). -/
abbrev KLow := Fin 8

/-- The name of a flag. -/
abbrev FlagIx := Fin 64

/-- The name of a waybill register, a column group, an edge latch or a line. -/
abbrev Ix16 := Fin 16

/-- A mask name of a 3-bit field as a mask name. -/
def KLow.toK (k : KLow) : KReg := ⟨k.val, by omega⟩

/-- Which car an event is about: `CORE_ID * 2`, plus 1 for the secondary car of a merged core. -/
abbrev CarRef := Nat

end Sys2Proof
end

