-- ==== Sys2Proof/Syntax.lean ====
section
/-!
DEFINITION. The syntax of the machine: one constructor per row of spec/opcode_table.json. The first 203 are the
slot instructions of a bundle (spec 03 R62 to R84); `te` is the slot's TE bit (R69), and an immediate, offset or
count stands as its slot and its L slots form it (R74). The rest are the events of the device (spec 95), with what
the outside world says of them.
-/
namespace Sys2Proof

/-- The instructions and events of the BTN-9320. -/
inductive Instr where
  /-- NOP (R124): S-slot no-operation; changes nothing. -/
  | nop (te : Bool)
  /-- ADD (R125): sd := sa + sb, wrapping, at 64 or 32 bits by md. -/
  | add (te : Bool) (d a b : SReg) (w : Bool)
  /-- SUB (R125): sd := sa - sb, wrapping. -/
  | sub (te : Bool) (d a b : SReg) (w : Bool)
  /-- AND (R125): Bitwise AND of sa and sb into sd. -/
  | and (te : Bool) (d a b : SReg) (w : Bool)
  /-- OR (R125): Bitwise OR of sa and sb into sd. -/
  | or (te : Bool) (d a b : SReg) (w : Bool)
  /-- XOR (R125): Bitwise XOR of sa and sb into sd. -/
  | xor (te : Bool) (d a b : SReg) (w : Bool)
  /-- SHL (R125): sa shifted left by sb[5:0] into sd. -/
  | shl (te : Bool) (d a b : SReg) (w : Bool)
  /-- SHR (R125): sa shifted logically right into sd. -/
  | shr (te : Bool) (d a b : SReg) (w : Bool)
  /-- SAR (R125): sa shifted arithmetically right into sd. -/
  | sar (te : Bool) (d a b : SReg) (w : Bool)
  /-- MUL (R125): Low 64 bits of sa x sb into sd, latency 3. -/
  | mul (te : Bool) (d a b : SReg) (w : Bool)
  /-- MULH (R125): High half of the signed product into sd. -/
  | mulh (te : Bool) (d a b : SReg) (w : Bool)
  /-- MULHU (R125): High half of the unsigned product into sd. -/
  | mulhu (te : Bool) (d a b : SReg) (w : Bool)
  /-- DIV (R127): Signed truncating division, never trapping, latency 24. -/
  | div (te : Bool) (d a b : SReg) (w : Bool)
  /-- DIVU (R127): Unsigned division, never trapping. -/
  | divu (te : Bool) (d a b : SReg) (w : Bool)
  /-- REM (R127): Signed remainder, never trapping. -/
  | rem (te : Bool) (d a b : SReg) (w : Bool)
  /-- REMU (R127): Unsigned remainder, never trapping. -/
  | remu (te : Bool) (d a b : SReg) (w : Bool)
  /-- MIN (R125): Signed minimum into sd. -/
  | min (te : Bool) (d a b : SReg) (w : Bool)
  /-- MAX (R125): Signed maximum into sd. -/
  | max (te : Bool) (d a b : SReg) (w : Bool)
  /-- MINU (R125): Unsigned minimum into sd. -/
  | minu (te : Bool) (d a b : SReg) (w : Bool)
  /-- MAXU (R125): Unsigned maximum into sd. -/
  | maxu (te : Bool) (d a b : SReg) (w : Bool)
  /-- CEQ (R125): sd := 1 if sa = sb, else 0. -/
  | ceq (te : Bool) (d a b : SReg) (w : Bool)
  /-- CNE (R125): sd := 1 if sa differs from sb. -/
  | cne (te : Bool) (d a b : SReg) (w : Bool)
  /-- CLT (R125): Signed less-than compare into sd. -/
  | clt (te : Bool) (d a b : SReg) (w : Bool)
  /-- CLTU (R125): Unsigned less-than compare into sd. -/
  | cltu (te : Bool) (d a b : SReg) (w : Bool)
  /-- CLE (R125): Signed less-or-equal compare into sd. -/
  | cle (te : Bool) (d a b : SReg) (w : Bool)
  /-- CLEU (R125): Unsigned less-or-equal compare into sd. -/
  | cleu (te : Bool) (d a b : SReg) (w : Bool)
  /-- SEL (R125): sd := sa if sd is non-zero, otherwise sb. -/
  | sel (te : Bool) (d a b : SReg) (w : Bool)
  /-- CLZ (R125): Count of leading zero bits of sa. -/
  | clz (te : Bool) (d a : SReg) (w : Bool)
  /-- CTZ (R125): Count of trailing zero bits of sa. -/
  | ctz (te : Bool) (d a : SReg) (w : Bool)
  /-- POPC (R125): Count of one bits of sa. -/
  | popc (te : Bool) (d a : SReg) (w : Bool)
  /-- BFX (R125): Extract a bit field of sa given by sb. -/
  | bfx (te : Bool) (d a b : SReg) (w : Bool)
  /-- BFI (R125): Insert low bits of sa into a field of sd. -/
  | bfi (te : Bool) (d a b : SReg) (w : Bool)
  /-- ADDI (R128): sd := sa + sign-extended immediate. -/
  | addi (te : Bool) (d a : SReg) (imm : Word)
  /-- ANDI (R128): Bitwise AND with immediate. -/
  | andi (te : Bool) (d a : SReg) (imm : Word)
  /-- ORI (R128): Bitwise OR with immediate. -/
  | ori (te : Bool) (d a : SReg) (imm : Word)
  /-- XORI (R128): Bitwise XOR with immediate. -/
  | xori (te : Bool) (d a : SReg) (imm : Word)
  /-- SHLI (R129): Shift left by an immediate 0-63. -/
  | shli (te : Bool) (d a : SReg) (imm : Word)
  /-- SHRI (R129): Logical right shift by an immediate 0-63. -/
  | shri (te : Bool) (d a : SReg) (imm : Word)
  /-- SARI (R129): Arithmetic right shift by an immediate 0-63. -/
  | sari (te : Bool) (d a : SReg) (imm : Word)
  /-- MULI (R128): Multiply by immediate, latency 3. -/
  | muli (te : Bool) (d a : SReg) (imm : Word)
  /-- CEQI (R128): Compare equal with immediate. -/
  | ceqi (te : Bool) (d a : SReg) (imm : Word)
  /-- CNEI (R128): Compare not-equal with immediate. -/
  | cnei (te : Bool) (d a : SReg) (imm : Word)
  /-- CLTI (R128): Signed less-than with immediate. -/
  | clti (te : Bool) (d a : SReg) (imm : Word)
  /-- CLTUI (R129): Unsigned less-than with sign-extended immediate. -/
  | cltui (te : Bool) (d a : SReg) (imm : Word)
  /-- LI (R130): sd := immediate. -/
  | li (te : Bool) (d : SReg) (imm : Word)
  /-- HADR (R130): Form a handle address from handle index and sa[58:0]. -/
  | hadr (te : Bool) (d a : SReg) (h : Fin 32)
  /-- LDB (R132): Load a sign-extended byte. -/
  | ldb (te : Bool) (d a : SReg) (off : BitVec 36)
  /-- LDBU (R132): Load a zero-extended byte. -/
  | ldbu (te : Bool) (d a : SReg) (off : BitVec 36)
  /-- LDH (R132): Load a sign-extended half-word. -/
  | ldh (te : Bool) (d a : SReg) (off : BitVec 36)
  /-- LDHU (R132): Load a zero-extended half-word. -/
  | ldhu (te : Bool) (d a : SReg) (off : BitVec 36)
  /-- LDW (R132): Load a sign-extended word. -/
  | ldw (te : Bool) (d a : SReg) (off : BitVec 36)
  /-- LDWU (R132): Load a zero-extended word. -/
  | ldwu (te : Bool) (d a : SReg) (off : BitVec 36)
  /-- LDD (R132): Load a double-word. -/
  | ldd (te : Bool) (d a : SReg) (off : BitVec 36)
  /-- STB (R132): Store ss[7:0]. -/
  | stb (te : Bool) (v a : SReg) (off : BitVec 36)
  /-- STH (R132): Store ss[15:0]. -/
  | sth (te : Bool) (v a : SReg) (off : BitVec 36)
  /-- STW (R132): Store ss[31:0]. -/
  | stw (te : Bool) (v a : SReg) (off : BitVec 36)
  /-- STD (R132): Store all 64 bits of ss. -/
  | std (te : Bool) (v a : SReg) (off : BitVec 36)
  /-- PFS (R135): Start the fill of a stash granule early; never faults. -/
  | pfs (te : Bool) (a : SReg) (off : BitVec 36)
  /-- ALD (R137): Atomic load of 8 bytes at a scope. -/
  | ald (te : Bool) (scope : BitVec 2) (d a : SReg) (ord : BitVec 2)
  /-- AST (R137): Atomic store of sb at a scope. -/
  | ast (te : Bool) (scope : BitVec 2) (a b : SReg) (ord : BitVec 2)
  /-- AADD (R137): Atomic fetch-and-add. -/
  | aadd (te : Bool) (scope : BitVec 2) (d a b : SReg) (ord : BitVec 2)
  /-- AMAXU (R137): Atomic fetch-and-unsigned-maximum. -/
  | amaxu (te : Bool) (scope : BitVec 2) (d a b : SReg) (ord : BitVec 2)
  /-- AOR (R137): Atomic fetch-and-OR. -/
  | aor (te : Bool) (scope : BitVec 2) (d a b : SReg) (ord : BitVec 2)
  /-- AAND (R137): Atomic fetch-and-AND. -/
  | aand (te : Bool) (scope : BitVec 2) (d a b : SReg) (ord : BitVec 2)
  /-- ASWP (R137): Atomic swap. -/
  | aswp (te : Bool) (scope : BitVec 2) (d a b : SReg) (ord : BitVec 2)
  /-- ACAS (R137): Atomic compare-and-swap against sd. -/
  | acas (te : Bool) (scope : BitVec 2) (d a b : SReg) (ord : BitVec 2)
  /-- BR (R141): Unconditional relative branch. -/
  | br (te : Bool) (off : BitVec 42)
  /-- BNZ (R141): Branch if sa is non-zero. -/
  | bnz (te : Bool) (a : SReg) (off : BitVec 42)
  /-- BZ (R141): Branch if sa is zero. -/
  | bz (te : Bool) (a : SReg) (off : BitVec 42)
  /-- CALL (R141): Branch and write the return address to s63. -/
  | call (te : Bool) (off : BitVec 42)
  /-- JR (R141): Jump to the address in sa. -/
  | jr (te : Bool) (a : SReg)
  /-- TRAP (R145): Enter the handler after the bundle with cause TRAP and a code. -/
  | trap (te : Bool) (code : BitVec 14)
  /-- BRK (R146): Raise BRK precisely before the bundle. -/
  | brk (te : Bool)
  /-- HALT (R147): Stop issuing, leave the coupling domain and discard open windows. -/
  | halt (te : Bool)
  /-- DRAIN (R150): Wait until earlier non-local accesses have performed at the scope. -/
  | drain (te : Bool) (scope : BitVec 2)
  /-- DRAINW (R150): Wait until earlier non-local writes have performed at the scope. -/
  | drainw (te : Bool) (scope : BitVec 2)
  /-- XLT (R151): Translate a virtual address into a handle with requested rights. -/
  | xlt (te : Bool) (h : Fin 64) (a : SReg) (md : BitVec 2)
  /-- HINV (R154): Clear V in a handle. -/
  | hinv (te : Bool) (h : Fin 64)
  /-- HRD (R155): Read a handle record into sd. -/
  | hrd (te : Bool) (d : SReg) (h : Fin 64)
  /-- WADR (R156): Wait until a memory word differs from sb or a timeout. -/
  | wadr (te : Bool) (d a b : SReg)
  /-- SRD (R159): Read a named control register. -/
  | srd (te : Bool) (d : SReg) (idx : BitVec 14)
  /-- SWR (R159): Write a named control register. -/
  | swr (te : Bool) (v : SReg) (idx : BitVec 14)
  /-- TSR (R160): Read a word of the held snapshot. -/
  | tsr (te : Bool) (d : SReg) (idx : BitVec 14)
  /-- SNAPST (R162): Store the held snapshot to the scratchpad. -/
  | snapst (te : Bool) (a : SReg)
  /-- SNAPLD (R162): Load a snapshot image and mask traps. -/
  | snapld (te : Bool) (a : SReg)
  /-- SNAPR (R161): Release the snapshot and unmask traps. -/
  | snapr (te : Bool)
  /-- RFT (R163): Apply the held snapshot and return from the handler. -/
  | rft (te : Bool)
  /-- VADD (R172): Element-wise addition under a mask. -/
  | vadd (te : Bool) (d a b : VReg) (k : KLow)
  /-- VSUB (R172): Element-wise subtraction. -/
  | vsub (te : Bool) (d a b : VReg) (k : KLow)
  /-- VMUL (R172): Element-wise multiplication. -/
  | vmul (te : Bool) (d a b : VReg) (k : KLow)
  /-- VFMA (R172): Fused vd + va x vb, rounded once. -/
  | vfma (te : Bool) (d a b : VReg) (k : KLow)
  /-- VFMS (R172): Fused vd - va x vb, rounded once. -/
  | vfms (te : Bool) (d a b : VReg) (k : KLow)
  /-- VMAX (R172): Element-wise maximum. -/
  | vmax (te : Bool) (d a b : VReg) (k : KLow)
  /-- VMIN (R172): Element-wise minimum. -/
  | vmin (te : Bool) (d a b : VReg) (k : KLow)
  /-- VAND (R173): Bitwise AND of raw element bits. -/
  | vand (te : Bool) (d a b : VReg) (k : KLow)
  /-- VOR (R173): Bitwise OR of raw element bits. -/
  | vor (te : Bool) (d a b : VReg) (k : KLow)
  /-- VXOR (R173): Bitwise XOR of raw element bits. -/
  | vxor (te : Bool) (d a b : VReg) (k : KLow)
  /-- VSHL (R173): Element-wise left shift. -/
  | vshl (te : Bool) (d a b : VReg) (k : KLow)
  /-- VSHR (R173): Element-wise logical right shift. -/
  | vshr (te : Bool) (d a b : VReg) (k : KLow)
  /-- VSAR (R173): Element-wise arithmetic right shift. -/
  | vsar (te : Bool) (d a b : VReg) (k : KLow)
  /-- VCEQ (R174): Compare equal into a mask k0-k7. -/
  | vceq (te : Bool) (d : KLow) (a b : VReg) (k : KLow)
  /-- VCLT (R174): Compare less-than into a mask. -/
  | vclt (te : Bool) (d : KLow) (a b : VReg) (k : KLow)
  /-- VCLE (R174): Compare less-or-equal into a mask. -/
  | vcle (te : Bool) (d : KLow) (a b : VReg) (k : KLow)
  /-- VADDS (R175): Add a scalar element to every element. -/
  | vadds (te : Bool) (d a : VReg) (b : SReg) (k : KLow)
  /-- VMULS (R175): Multiply every element by a scalar. -/
  | vmuls (te : Bool) (d a : VReg) (b : SReg) (k : KLow)
  /-- VFMAS (R175): Fused multiply-add with a scalar. -/
  | vfmas (te : Bool) (d a : VReg) (b : SReg) (k : KLow)
  /-- VMAXS (R175): Maximum with a scalar. -/
  | vmaxs (te : Bool) (d a : VReg) (b : SReg) (k : KLow)
  /-- VMINS (R175): Minimum with a scalar. -/
  | vmins (te : Bool) (d a : VReg) (b : SReg) (k : KLow)
  /-- VSPLAT (R175): Set every active element to a scalar's raw bits. -/
  | vsplat (te : Bool) (d : VReg) (b : SReg) (k : KLow)
  /-- VSLD (R176): Slide elements down by a scalar count. -/
  | vsld (te : Bool) (d a : VReg) (b : SReg) (k : KLow)
  /-- VSLU (R176): Slide elements up by a scalar count. -/
  | vslu (te : Bool) (d a : VReg) (b : SReg) (k : KLow)
  /-- VLD (R179): Load a 4 KiB vector register. -/
  | vld (te : Bool) (d : VReg) (a : SReg) (off : BitVec 34) (k : KLow)
  /-- VST (R179): Store the active elements of a vector register. -/
  | vst (te : Bool) (d : VReg) (a : SReg) (off : BitVec 34) (k : KLow)
  /-- VGTH (R184): Gather elements by an index register. -/
  | vgth (te : Bool) (d : VReg) (a : SReg) (b : VReg) (k : KLow)
  /-- VSCT (R184): Scatter elements by an index register. -/
  | vsct (te : Bool) (d : VReg) (a : SReg) (b : VReg) (k : KLow)
  /-- VLDK (R182): Load a mask register from 512 bytes. -/
  | vldk (te : Bool) (d : KReg) (a : SReg) (off : BitVec 34)
  /-- VSTK (R182): Store a mask register to 512 bytes. -/
  | vstk (te : Bool) (d : KReg) (a : SReg) (off : BitVec 34)
  /-- VMOV (R177): Copy a register, possibly across banks. -/
  | vmov (te : Bool) (d b : VReg) (k : KLow)
  /-- VRSUM (R186): Grouped sum reduction by the fixed tree. -/
  | vrsum (te : Bool) (d a : VReg) (k : KLow)
  /-- VRMAX (R186): Grouped maximum reduction. -/
  | vrmax (te : Bool) (d a : VReg) (k : KLow)
  /-- VRMIN (R186): Grouped minimum reduction. -/
  | vrmin (te : Bool) (d a : VReg) (k : KLow)
  /-- VRCNT (R186): Grouped count of non-zero active elements. -/
  | vrcnt (te : Bool) (d a : VReg) (k : KLow)
  /-- VRSC (R188): Rescale elements by RCNT over the block's contributor count. -/
  | vrsc (te : Bool) (d a b : VReg) (k : KLow)
  /-- VRMEAN (R187): Grouped mean of active elements. -/
  | vrmean (te : Bool) (d a : VReg) (k : KLow)
  /-- VPERM (R189): Permute elements of va by indices in vb. -/
  | vperm (te : Bool) (d a b : VReg) (k : KLow)
  /-- VZIP (R190): Interleave the low halves of va and vb. -/
  | vzip (te : Bool) (d a b : VReg) (k : KLow)
  /-- VUZP (R190): De-interleave the even elements of va and vb. -/
  | vuzp (te : Bool) (d a b : VReg) (k : KLow)
  /-- VMRG (R191): Merge va and vb under mask ks. -/
  | vmrg (te : Bool) (d a b : VReg) (ks : KLow)
  /-- VCMPR (R191): Compress active elements to the front. -/
  | vcmpr (te : Bool) (d a : VReg) (k : KLow)
  /-- VIOTA (R191): Write the prefix count of active elements. -/
  | viota (te : Bool) (d : VReg) (k : KLow)
  /-- VEXT (R192): Extract one element into a scalar. -/
  | vext (te : Bool) (d : SReg) (a : VReg) (idx : BitVec 34)
  /-- VINS (R192): Insert a scalar into one element. -/
  | vins (te : Bool) (d : VReg) (a : SReg) (idx : BitVec 34)
  /-- VBEXP (R193): Compute block exponents of va. -/
  | vbexp (te : Bool) (d a : VReg) (k : KLow)
  /-- VBQ (R194): Quantise elements to L8 codes by block exponents. -/
  | vbq (te : Bool) (d a b : VReg) (k : KLow)
  /-- VBDQ (R195): Dequantise L8 codes by block exponents. -/
  | vbdq (te : Bool) (d a b : VReg) (k : KLow)
  /-- VKAND (R196): AND of two masks. -/
  | vkand (te : Bool) (d a b : KReg)
  /-- VKOR (R196): OR of two masks. -/
  | vkor (te : Bool) (d a b : KReg)
  /-- VKNOT (R196): Complement of a mask. -/
  | vknot (te : Bool) (d a : KReg)
  /-- VABS (R198): Absolute value of each element. -/
  | vabs (te : Bool) (d a : VReg) (k : KLow)
  /-- VNEG (R198): Negation of each element. -/
  | vneg (te : Bool) (d a : VReg) (k : KLow)
  /-- VRCP (R199): Reciprocal, correctly rounded. -/
  | vrcp (te : Bool) (d a : VReg) (k : KLow)
  /-- VRSQ (R199): Reciprocal square root. -/
  | vrsq (te : Bool) (d a : VReg) (k : KLow)
  /-- VSQRT (R199): Square root, correctly rounded. -/
  | vsqrt (te : Bool) (d a : VReg) (k : KLow)
  /-- VEXP2 (R199): Base-2 exponential. -/
  | vexp2 (te : Bool) (d a : VReg) (k : KLow)
  /-- VLOG2 (R199): Base-2 logarithm. -/
  | vlog2 (te : Bool) (d a : VReg) (k : KLow)
  /-- VTANH (R199): Hyperbolic tangent. -/
  | vtanh (te : Bool) (d a : VReg) (k : KLow)
  /-- VSIG (R199): Logistic sigmoid. -/
  | vsig (te : Bool) (d a : VReg) (k : KLow)
  /-- VGELU (R199): GELU activation. -/
  | vgelu (te : Bool) (d a : VReg) (k : KLow)
  /-- VFLR (R201): Floor to an integral value. -/
  | vflr (te : Bool) (d a : VReg) (k : KLow)
  /-- VRND (R201): Round to an integral value in FMT.RM. -/
  | vrnd (te : Bool) (d a : VReg) (k : KLow)
  /-- VCVT (R202): Convert elements from VT to VT2. -/
  | vcvt (te : Bool) (d a : VReg) (k : KLow)
  /-- VM8E (R203): Convert elements to M8. -/
  | vm8e (te : Bool) (d a : VReg) (k : KLow)
  /-- VM8D (R203): Convert M8 bytes to VT. -/
  | vm8d (te : Bool) (d a : VReg) (k : KLow)
  /-- VCLZ (R204): Count leading zeros of each element. -/
  | vclz (te : Bool) (d a : VReg) (k : KLow)
  /-- VPOPC (R204): Count one bits of each element. -/
  | vpopc (te : Bool) (d a : VReg) (k : KLow)
  /-- VK2V (R205): Expand a mask into all-ones or zero elements. -/
  | vk2v (te : Bool) (d : VReg) (a : KReg) (k : KLow)
  /-- VV2K (R205): Set mask bits where elements are non-zero. -/
  | vv2k (te : Bool) (d : KReg) (a : VReg) (k : KLow)
  /-- VCLR (R206): Write raw zero to active elements. -/
  | vclr (te : Bool) (d : VReg) (k : KLow)
  /-- MNOP (R209): Optical idle beat. -/
  | mnop (te : Bool)
  /-- MBT (R215): Integrate one weight beat against the line's activation beat, opening or closing windows. -/
  | mbt (te : Bool) (v : VReg) (seg : BitVec 4) (n a d : Bool)
  /-- MTUNE (R220): Retune the array to line L. -/
  | mtune (te : Bool) (l : Ix16)
  /-- MGAIN (R218): Write the converter gain of all or MGSEL groups. -/
  | mgain (te : Bool) (apply : Bool) (g : BitVec 5)
  /-- MSPLIT (R219): Set split-window enable and MGSEL. -/
  | msplit (te : Bool) (en : Bool) (mask : BitVec 16)
  /-- MRD (R221): Read converted codes of the last closed windows into vd. -/
  | mrd (te : Bool) (d : VReg) (part kind : BitVec 2)
  /-- MREP (R223): Remove the oldest readable window report into sd. -/
  | mrep (te : Bool) (d : SReg)
  /-- MCAL (R225): Request a skew and phase calibration. -/
  | mcal (te : Bool)
  /-- MUNC (R227): Remove the car from its coupling domain. -/
  | munc (te : Bool)
  /-- MSTAT (R224): Read the array status into sd. -/
  | mstat (te : Bool) (d : SReg)
  /-- MABT (R226): Discard open windows. -/
  | mabt (te : Bool)
  /-- CNOP (R82): C-slot no-operation. -/
  | cnop (te : Bool)
  /-- CCPY (R238): Start a strided copy between two waybills. -/
  | ccpy (te : Bool) (ws wd : Ix16) (f : FlagIx) (acq rel : Bool) (scope : BitVec 2) (lossy : Bool)
  /-- CRES (R241): Restart a faulted copy. -/
  | cres (te : Bool) (n : BitVec 6)
  /-- CPLD (R243): Drive 256 bytes of va onto the Platform bus. -/
  | cpld (te : Bool) (v : VReg) (part : Ix16)
  /-- CPLT (R243): Latch Platform bus data driven 4 steps earlier. -/
  | cplt (te : Bool) (v : VReg) (part : Ix16)
  /-- CLS (R245): Start a line stream of an activation frame from scratchpad. -/
  | cls (te : Bool) (l ws : Ix16) (b : SReg)
  /-- CLSF (R247): Drive a line from frames arriving on a multicast group. -/
  | clsf (te : Bool) (l : Ix16) (a b : SReg)
  /-- CWBR (R248): Write back dirty bytes of a range of SM lines. -/
  | cwbr (te : Bool) (a b : SReg) (f : FlagIx)
  /-- CINV (R248): Discard the die cache's lines of an SM range. -/
  | cinv (te : Bool) (a b : SReg) (f : FlagIx)
  /-- CWBI (R248): Write back and discard a range of SM lines. -/
  | cwbi (te : Bool) (a b : SReg) (f : FlagIx)
  /-- CRDX (R252): Start a scale-agreed reduction collective. -/
  | crdx (te : Bool) (ws wd : Ix16) (f : FlagIx) (acq rel : Bool) (scope : BitVec 2) (lossy : Bool)
  /-- CAGT (R253): Start an all-gather collective. -/
  | cagt (te : Bool) (ws wd : Ix16) (f : FlagIx) (acq rel : Bool) (scope : BitVec 2) (lossy : Bool)
  /-- CBCT (R253): Start a broadcast collective from the root. -/
  | cbct (te : Bool) (ws wd : Ix16) (f : FlagIx) (acq rel : Bool) (scope : BitVec 2) (lossy : Bool)
  /-- CMAP (R249): Map a scratchpad range as a stash of a global tile. -/
  | cmap (te : Bool) (ws : Ix16) (a : SReg)
  /-- CUNM (R250): Unmap a stash mapping and write back its dirty bytes. -/
  | cunm (te : Bool) (a : SReg) (f : FlagIx)
  /-- CABT (R242): Abort a running or faulted copy. -/
  | cabt (te : Bool) (n : BitVec 6)
  /-- YNOP (R83): Y-slot no-operation. -/
  | ynop (te : Bool)
  /-- YFMT (R256): Write one FMT field from an immediate. -/
  | yfmt (te : Bool) (field : Ix16) (imm : Byte)
  /-- YFMTS (R256): Write FMT from sa[19:0]. -/
  | yfmts (te : Bool) (a : SReg)
  /-- YSCL (R256): Write one edge scale latch. -/
  | yscl (te : Bool) (g : Ix16) (imm : Byte)
  /-- YSCLS (R30): Write all sixteen edge scale latches from two scalars. -/
  | yscls (te : Bool) (a b : SReg)
  /-- YWB (R257): Write one word of a waybill register. -/
  | ywb (te : Bool) (w word : Ix16) (b : SReg)
  /-- YLDW (R257): Load a waybill register from scratchpad. -/
  | yldw (te : Bool) (w : Ix16) (a : SReg)
  /-- YSTW (R257): Store a waybill register to scratchpad. -/
  | ystw (te : Bool) (w : Ix16) (a : SReg)
  /-- YBNK (R256): Write VBANK. -/
  | ybnk (te : Bool) (ba bb : BitVec 4)
  /-- YWAIT (R258): Wait until a flag holds at least n, then subtract n. -/
  | ywait (te : Bool) (f : FlagIx) (n : BitVec 16)
  /-- YPOST (R259): Post n to the car's own flag as a release. -/
  | ypost (te : Bool) (f : FlagIx) (n : BitVec 16)
  /-- YPOSTC (R259): Post n to a flag of another car of the consist. -/
  | ypostc (te : Bool) (car : BitVec 9) (f : FlagIx) (n : BitVec 16)
  /-- YBAR (R260): Arrive at one of eight consist barriers. -/
  | ybar (te : Bool) (b : Fin 8)
  /-- YLOOP (R261): Set up the hardware loop engine. -/
  | yloop (te : Bool) (a : SReg) (lend : BitVec 15) (pro epi : BitVec 14)
  /-- YPARK (R264): Park point; parks the consist when pre-emption is pending. -/
  | ypark (te : Bool)
  /-- YPRI (R265): Set the consist's priority class, bounded by the record. -/
  | ypri (te : Bool) (c : BitVec 2)
  /-- YFLR (R266): Sample a flag count into sd. -/
  | yflr (te : Bool) (d : SReg) (f : FlagIx)
  /-- YFLW (R266): Write a flag from sa; privileged. -/
  | yflw (te : Bool) (f : FlagIx) (a : SReg)
  /-- TAKE_TRAP (R322): Enter the handler at a bundle boundary: freeze domain, latch snapshot, write TCAUSE and TADDR. -/
  | takeTrap (c : CarRef)
  /-- FILL_DESTINATION (R90): A producer's result lands and its destination becomes full. -/
  | fillDestination (c : CarRef) (n : Nat) (err : Bool)
  /-- DELAYED_WRITE_LANDS (R93): A non-interlocked write becomes visible once its step delay is counted out. -/
  | delayedWriteLands (c : CarRef)
  /-- STORE_ERROR_RESPONSE (R134): A non-local store receives an error response and sets imprecise UNCORRECTABLE. -/
  | storeErrorResponse (c : CarRef) (ha : Word)
  /-- POSTED_WRITE_ARRIVAL (R309): A posted remote write performs in the target scratchpad and returns its WAL units. -/
  | postedWriteArrival (c : CarRef) (n : Nat)
  /-- FLAG_POST (R27): Posts reach a flag and are summed, saturating at 65,535. -/
  | flagPost (c : CarRef) (f : FlagIx) (n : List (BitVec 16))
  /-- WAIT_SATISFIED (R258): A pending YWAIT finds its count and subtracts it as an acquire. -/
  | waitSatisfied (c : CarRef)
  /-- BARRIER_RELEASE (R260): The last car arrives at a barrier and all waiting cars proceed. -/
  | barrierRelease (c : CarRef) (b : Fin 8)
  /-- WATCHDOG_EXPIRY (R287): A flag or barrier wait reaches WDOG and the consist is aborted. -/
  | watchdogExpiry (c : CarRef)
  /-- XLT_WALK_END (R152): A page-table walk ends; the XLT issues or raises XLT_FAULT. -/
  | xltWalkEnd (c : CarRef)
  /-- COPY_COMPLETE (R236): A copy or collective finishes its writes, performs its release and posts its flag. -/
  | copyComplete (c : CarRef) (n : Nat)
  /-- COPY_FAULT_DETECTED (R240): A running copy meets a fault and raises COPY_FAULT imprecisely. -/
  | copyFaultDetected (c : CarRef) (n row : Nat) (va : Word)
  /-- LINE_STREAM_READ (R246): A line stream reads the bytes of beat i at CCYC = B + i - 20. -/
  | lineStreamRead (id : Nat)
  /-- LINE_STREAM_BEAT (R246): A line stream drives beat i at CCYC = B + i, completing after its last beat. -/
  | lineStreamBeat (id : Nat)
  /-- REPORT_READABLE (R119): A window report becomes readable 16 cycles after its closing beat. -/
  | reportReadable (c : CarRef)
  /-- WINDOW_VOID (R115): An open window held over 2 µs without a beat becomes void. -/
  | windowVoid (c : CarRef) (g : Ix16)
  /-- CALIBRATION_START (R225): A requested calibration starts when no window is open. -/
  | calibrationStart (c : CarRef)
  /-- CALIBRATION_COMPLETE (R439): A calibration completes, applies trims and clears SKEW and CALB. -/
  | calibrationComplete (c : CarRef)
  /-- CAL_PERIODIC_DUE (R439): Calibration age reaches CALPER and a periodic calibration becomes pending. -/
  | calPeriodicDue (c : CarRef)
  /-- CAL_STALE (R440): Calibration age reaches STALEX x CALPER and SKEW is set. -/
  | calStale (c : CarRef)
  /-- CAL_FORCED (R440): Calibration age reaches FORCEX x CALPER and calibration is forced. -/
  | calForced (c : CarRef)
  /-- REMAP_PENDING (R441): A comb line falls below PWARN and a row remap becomes pending. -/
  | remapPending (l : Ix16) (row : Fin 32)
  /-- REMAP_START (R117): A row remap starts when no array on the line has an open window, pausing the line. -/
  | remapStart (l : Ix16)
  /-- REMAP_END (R117): The 20 µs remap pause ends and REMAP is flagged in the next reports. -/
  | remapEnd (l : Ix16)
  /-- LASER_REFRESH (R443): Laser module readings are refreshed every 100 ms. -/
  | laserRefresh (m : Fin 24) (bias drift temp : BitVec 16) (power : List (BitVec 16)) (hours : BitVec 32) (bias0 : BitVec 16)
  /-- LANE_FAIL (R447): A lane exceeds its error thresholds within one ms and fails. -/
  | laneFail (p : Fin 128) (l : Nat)
  /-- LANE_REMAP (R447): A failed lane is remapped to a spare or retired. -/
  | laneRemap (p : Fin 128) (l : Nat)
  /-- LNK_CLR (R446): Write of LNK_CTL.CLR zeroes the port's lane counters. -/
  | lnkClr (p : Fin 128)
  /-- LNK_RETRAIN (R448): Write of LNK_CTL.RETRAIN takes the port down to retrain every lane. -/
  | lnkRetrain (p : Fin 128)
  /-- RETRAIN_COMPLETE (R448): A 1 ms retrain ends, restoring lanes and spares. -/
  | retrainComplete (p : Fin 128) (pass : BitVec 34)
  /-- LNK_FORCE (R447): Write of LNK_CTL.FORCE fails lane FLANE now. -/
  | lnkForce (p : Fin 128) (l : BitVec 6)
  /-- FLIT_ARRIVAL (R407): A lossless flit arrives; a gap or uncorrectable flit requests replay. -/
  | flitArrival (p : Fin 128) (seq : BitVec 12) (good : Bool)
  /-- REPLAY_REQUEST (R407): The sender resends every flit from the first missing one. -/
  | replayRequest (p : Fin 128) (seq : BitVec 12)
  /-- FLIT_ACK (R407): An acknowledgement frees flits from the replay buffer. -/
  | flitAck (p : Fin 128) (seq : BitVec 12)
  /-- LOSSY_BLOCK_ARRIVAL (R412): A lossy 256-byte block arrives intact and is written. -/
  | lossyBlockArrival (c : CarRef) (n b : Nat)
  /-- END_MARKER_ARRIVAL (R412): A lossy transfer's end marker arrives and starts its LSLACK deadline. -/
  | endMarkerArrival (c : CarRef) (n : Nat)
  /-- LOSSY_CLOSE (R412): LSLACK expires; missing blocks are zero-filled and a completion notice returned. -/
  | lossyClose (c : CarRef) (n : Nat)
  /-- COMPLETION_NOTICE (R412): The issuing engine receives the arrival mask, writes AUX and posts its flag. -/
  | completionNotice (c : CarRef) (n : Nat)
  /-- NOTICE_OF_ISSUE (R422): A member's notice of issue arrives and releases data held for it. -/
  | noticeOfIssue (g : Nat) (k rank count : Nat) (lossy : Bool)
  /-- CRDX_BLOCK_CLOSE (R423): An owner closes a reduction block and sends result and count to every rank. -/
  | crdxBlockClose (c : CarRef) (n b : Nat) (present : List (Nat × List Word))
  /-- COLLECTIVE_DEADLINE (R254): LSLACK after a lossy collective's nominal end, missing blocks are zeroed and the flag posted. -/
  | collectiveDeadline (c : CarRef) (n : Nat)
  /-- REMOTE_REQUEST (R414): A remote load, store or atomic performs at its home package. -/
  | remoteRequest (n : Nat)
  /-- MOVED_RESPONSE (R417): A MOVED refusal makes the requester resend to the new home. -/
  | movedResponse (n : Nat) (new : BitVec 52)
  /-- INVALIDATE (R415): Write of INV_LEN enqueues an invalidation of a virtual range. -/
  | invalidate (len : BitVec 40)
  /-- INVALIDATION_COMPLETE (R415): An invalidation completes and INV_DONE advances. -/
  | invalidationComplete 
  /-- MIGRATE (R416): Write of MIG_LEN starts a page migration and records a FWD entry. -/
  | migrate (len : BitVec 31)
  /-- MIGRATION_LINE_COPY (R416): One 64-byte line is copied atomically to its new home; BUSY clears after the last. -/
  | migrationLineCopy 
  /-- GROUP_COMMIT (R419): Write of a group entry's word 7 commits all eight words. -/
  | groupCommit (g : Fin 4096)
  /-- GROUP_BUSY_CLEAR (R421): BUSY clears once packets of the old entry have drained. -/
  | groupBusyClear (g : Fin 4096)
  /-- MULTICAST_REPLICATE (R421): A multicast packet is replicated to PORTS and local subscribers. -/
  | multicastReplicate (g : Fin 4096) (payload : List Byte)
  /-- THROUGH_RUNNING_FRAME (R425): A through-running frame beat reaches a subscriber's line die. -/
  | throughRunningFrame (g : Fin 4096) (beat : Nat) (payload : List Byte)
  /-- TIMETABLE_LOAD (R404): A Timetable set's records take effect together at a frame boundary. -/
  | timetableLoad (n : BitVec 8)
  /-- ALTERNATE_SET_LOAD (R405): After a circuit link fails, the alternate set is loaded. -/
  | alternateSetLoad (n : BitVec 8)
  /-- TS_SYNC_LOST (R314): The package loses its hold on the pod time base. -/
  | tsSyncLost 
  /-- TS_RESYNC (R314): The package regains synchronisation by slewing. -/
  | tsResync 
  /-- QUEUE_DOORBELL (R353): A QDB write advances a queue's tail by the serial-maximum rule. -/
  | queueDoorbell (v : Word)
  /-- MAILBOX_WRITE (R358): An MBOX write applies serial-maximum and writes the mailbox word with a release. -/
  | mailboxWrite (m : Fin 1024) (v : BitVec 32)
  /-- BHT_WRITE (R364): A write to a buffer handle table entry, held while a consumed service names it. -/
  | bhtWrite (h : Fin 4096) (word : Fin 4) (v : Word)
  /-- BHT_WRITE_APPLY (R364): A held handle table write takes effect once no service names the entry. -/
  | bhtWriteApply (h : Fin 4096)
  /-- CONSUME_RECORD (R362): The Signal box consumes a published record, advances the head and checks it. -/
  | consumeRecord (q : BitVec 16)
  /-- RECORD_REREAD (R361): A record whose read failed is read again. -/
  | recordReread (q : BitVec 16)
  /-- SLOT_MAP (R354): A queue is mapped into a hardware slot. -/
  | slotMap (q : BitVec 16)
  /-- SLOT_UNMAP (R355): A queue is unmapped at its service boundary and its state saved. -/
  | slotUnmap (q : BitVec 16)
  /-- COUNT_READ (R368): The indirect consist count is read with an acquire. -/
  | countRead (q : BitVec 16) (seq : BitVec 32)
  /-- PLACE_CONSIST (R369): A consist is placed on cores and lines and its cars prepared. -/
  | placeConsist (q : BitVec 16) (seq : BitVec 32) (idx : BitVec 32)
  /-- CONSIST_RELEASE (R269): At the release cycle every car makes its first issue attempt. -/
  | consistRelease (q : BitVec 16) (seq : BitVec 32) (idx : BitVec 32)
  /-- CAR_FINISH (R147): A halted car finishes once its engines and stores have completed. -/
  | carFinish (c : CarRef)
  /-- SERVICE_COMPLETE (R374): A service's completion record is written in queue order after its release. -/
  | serviceComplete (q : BitVec 16) (seq : BitVec 32)
  /-- PREEMPT_REQUEST (R372): After PRE_WAIT, pre-emption of a lower-class consist is requested. -/
  | preemptRequest (q : BitVec 16) (seq : BitVec 32) (idx : BitVec 32)
  /-- CONSIST_PARK (R332): Every car stands at YPARK; engines drain and the consist is saved. -/
  | consistPark (q : BitVec 16) (seq : BitVec 32) (idx : BitVec 32)
  /-- FORCED_STOP (R333): PRDL expires and the consist is stopped by force with full state saved. -/
  | forcedStop (q : BitVec 16) (seq : BitVec 32) (idx : BitVec 32)
  /-- CONSIST_RESUME (R373): A parked or stopped consist is restored onto free cores. -/
  | consistResume (q : BitVec 16) (seq : BitVec 32) (idx : BitVec 32)
  /-- SPECULATION_START (R384): The Distant starts a predicted service on idle cores. -/
  | speculationStart (q : BitVec 16)
  /-- WATCH_DOOM (R388): A foreign write to a watched region dooms a speculation. -/
  | watchDoom (pa : Nat)
  /-- SPECULATION_DISCARD (R396): A speculation is ended silently and its shadow pages freed. -/
  | speculationDiscard (q : BitVec 16) (seq : BitVec 32)
  /-- SPEC_YIELD (R390): An unadopted speculation yields to a real consist that needs its resources. -/
  | specYield (q : BitVec 16) (seq : BitVec 32)
  /-- SPECULATION_COMMIT (R394): An adopted speculation commits its shadow pages as one release. -/
  | speculationCommit (q : BitVec 16) (seq : BitVec 32)
  /-- SIDING_COPY_BACK (R394): Committed shadow pages are copied back to their granules in the background. -/
  | sidingCopyBack (q : BitVec 16) (seq : BitVec 32)
  /-- SPEC_CTL_WRITE (R379): A SPEC_CTL write; clearing EN discards unadopted speculations. -/
  | specCtlWrite (v : Byte)
  /-- SPEC_CLR (R378): Writing 1 clears the five speculation counters. -/
  | specClr (v : Bool)
  /-- DBG_ATTACH (R397): Setting DBG in a context block discards and blocks speculation of the queue. -/
  | dbgAttach (q : BitVec 16)
  /-- REGISTER_WRITE (R350): A write to a device register without behaviour of its own. -/
  | registerWrite (host : Bool) (off : Nat) (v : Word)
  /-- DBG_HALT (R336): Write of DBG_CTL.HALT requests or ends a debug halt. -/
  | dbgHalt (core : Fin 336) (v : Bool)
  /-- DBG_STEP (R336): Write of DBG_CTL.STEP lets the halted domain issue one bundle. -/
  | dbgStep (core : Fin 336)
  /-- HALT_TAKEN (R336): A requested debug halt stops the car at a boundary with traps unmasked. -/
  | haltTaken (c : CarRef)
  /-- STASH_FILL (R306): A stash granule fill from its tile completes. -/
  | stashFill (c : CarRef) (addr : Nat)
  /-- STASH_WRITEBACK (R307): The engine writes dirty stash bytes back to the tile. -/
  | stashWriteback (c : CarRef) (addr : Nat)
  /-- STASH_FOREIGN_WRITE (R308): A foreign write to a coherent granule forces write-back and unfills it. -/
  | stashForeignWrite (c : CarRef) (addr : Nat) (bytes : List Byte)
  /-- DIE_CACHE_EVICT (R302): A die cache evicts a line, writing back dirty bytes by mask. -/
  | dieCacheEvict (die line : Nat)
  /-- REGION_TO_PRIVATE (R300): An F region held by one die for 1 ms returns to P(d). -/
  | regionToPrivate (r die : Nat)
  /-- SCRUB (R455): HBM controllers scrub every line once per 24 hours. -/
  | scrub 
  /-- POWER_SAMPLE (R464): The power manager samples power every 10 µs and adjusts pacing and throttling. -/
  | powerSample (watts : Nat)
  /-- DEVICE_START (R457): Power-on or reset runs the start-up steps. -/
  | deviceStart (failDies : List Nat) (failLines : List Ix16) (failPorts : List (Fin 128)) (steps : BitVec 18)
  /-- START_WARM (R458): START_CTL bit 0 requests a warm start. -/
  | startWarm 
  /-- START_FULL (R458): START_CTL bits 0 and 1 request a full start. -/
  | startFull 
  /-- ERR_CLEAR (R456): ERR_CTL bit 0 zeroes the error counters. -/
  | errClear (v : Bool)
  /-- REQUEST_UPDATE (R459): PLDM RequestUpdate opens an update session. -/
  | requestUpdate (overI3c : Bool)
  /-- PASS_COMPONENT_TABLE (R459): PLDM PassComponentTable. -/
  | passComponentTable (overI3c : Bool)
  /-- UPDATE_COMPONENT (R459): PLDM UpdateComponent. -/
  | updateComponent (overI3c : Bool)
  /-- REQUEST_FIRMWARE_DATA (R459): PLDM RequestFirmwareData in staged transfer. -/
  | requestFirmwareData (overI3c : Bool) (chunk : List Byte)
  /-- VERIFY_COMPLETE (R459): PLDM VerifyComplete after signature and version checks. -/
  | verifyComplete (overI3c : Bool) (signatureGood : Bool) (version : BitVec 16)
  /-- APPLY_COMPLETE (R459): PLDM ApplyComplete. -/
  | applyComplete (overI3c : Bool)
  /-- ACTIVATE_FIRMWARE (R460): PLDM ActivateFirmware stops new work until a quiescent point. -/
  | activateFirmware (overI3c : Bool)
  /-- CANCEL_UPDATE (R459): PLDM CancelUpdate. -/
  | cancelUpdate (overI3c : Bool)
  /-- FIRMWARE_RESTART (R460): At the quiescent point the Roundhouse and Signal box restart on the new image. -/
  | firmwareRestart 
  /-- GET_VERSION (R462): SPDM GET_VERSION. -/
  | getVersion (overI3c : Bool)
  /-- GET_CAPABILITIES (R462): SPDM GET_CAPABILITIES. -/
  | getCapabilities (overI3c : Bool)
  /-- NEGOTIATE_ALGORITHMS (R462): SPDM NEGOTIATE_ALGORITHMS. -/
  | negotiateAlgorithms (overI3c : Bool)
  /-- GET_DIGESTS (R462): SPDM GET_DIGESTS. -/
  | getDigests (overI3c : Bool)
  /-- GET_CERTIFICATE (R462): SPDM GET_CERTIFICATE. -/
  | getCertificate (overI3c : Bool) (slot : Nat)
  /-- CHALLENGE (R462): SPDM CHALLENGE. -/
  | challenge (overI3c : Bool) (nonce : List Byte)
  /-- GET_MEASUREMENTS (R462): SPDM GET_MEASUREMENTS returns SHA3-384 measurements. -/
  | getMeasurements (overI3c : Bool) (index : Nat)
  /-- MGMT_READ (R450): An in-band management packet reads 8 bytes of a package's registers. -/
  | mgmtRead (pkg : BitVec 10) (off : Nat)
  /-- HOST_LINK_DOWN (R463): The host link goes down and MST_CTL.HOLD is cleared. -/
  | hostLinkDown 
  /-- WADR_REREAD (R157): A write to a watched word triggers a fresh read that may end WADR. -/
  | wadrReread (c : CarRef)
  /-- WADR_TIMEOUT (R157): WADR_TMO expires and WADR ends with sd := 1. -/
  | wadrTimeout (c : CarRef)
  /-- RANGE_OP_COMPLETE (R248): A range operation's write-backs perform at PKG scope and its flag is posted. -/
  | rangeOpComplete (c : CarRef) (n : Nat)
  /-- CUNM_COMPLETE (R250): An unmapping's write-back performs, its copy number is freed and its flag posted. -/
  | cunmComplete (c : CarRef) (n : Nat)
  /-- ON_PACKAGE_LINK_DOWN (R410): An on-package Junction link goes down, its queued packets move to the escape channel and circuits on its path fall back to packet traffic. -/
  | onPackageLinkDown (junction : Fin 64) (port : Fin 8)
deriving DecidableEq, Repr

end Sys2Proof
end

