-- ==== Sys2Proof/WellFormed.lean ====
section
/-!
DEFINITION. Which slot instructions have an encoding: the operand values that spec 03 to 09 refuse with ILLEGAL_INSN
(R70). A term that fails a check here is refused by the decoder under the same name.
-/
namespace Sys2Proof

/-- Width in bits of the FMT field that YFMT selector `f` names, 0 for a reserved selector (R83). -/
def yfmtWidth (f : Nat) : Nat :=
  match f with
  | 0 => 4 | 1 => 4 | 2 => 2 | 3 => 1 | 4 => 3 | 5 => 4 | 6 => 2 | _ => 0

/-- A shift immediate lies in 0 to 63 (R129). -/
def wfShift (imm : Word) : Bool := decide (imm.toNat < 64)

/-- XLT and HINV name h2 to h31 (R75). -/
def wfHandle (h : Fin 64) : Bool := decide (2 ≤ h.val ∧ h.val < 32)

/-- A copy's scope is 00 when neither acq nor rel is set (R82). -/
def wfScope (acq rel : Bool) (scope : BitVec 2) : Bool := acq || rel || scope == 0#2

/-- YFMT names one of seven fields, with an immediate of that field's width (R83). -/
def wfYfmt (field : Ix16) (imm : Byte) : Bool :=
  decide (field.val < 7 ∧ imm.toNat < 2 ^ yfmtWidth field.val)

/-- An instruction whose operands the encoding admits. Events have no encoding and no check. -/
def Instr.wf (i : Instr) : Bool :=
  match i with
  | .shli _ _ _ imm => wfShift imm
  | .shri _ _ _ imm => wfShift imm
  | .sari _ _ _ imm => wfShift imm
  | .ald _ _ _ _ ord => ord == 0#2 || ord == 1#2
  | .ast _ _ _ _ ord => ord == 0#2 || ord == 2#2
  | .xlt _ h _ md => wfHandle h && md != 0#2
  | .hinv _ h => wfHandle h
  | .hrd _ _ h => decide (h.val < 32)
  | .mgain _ _ g => decide (g.toNat ≤ 20)
  | .mrd _ _ part kind => decide (part.toNat < 2 ∧ kind.toNat < 2)
  | .ccpy _ _ _ _ acq rel scope _ => wfScope acq rel scope
  | .crdx _ _ _ _ acq rel scope _ => wfScope acq rel scope
  | .cagt _ _ _ _ acq rel scope _ => wfScope acq rel scope
  | .cbct _ _ _ _ acq rel scope _ => wfScope acq rel scope
  | .cres _ n => decide (n.toNat < 48)
  | .cabt _ n => decide (n.toNat < 48)
  | .yfmt _ field imm => wfYfmt field imm
  | .ywb _ _ word _ => decide (word.val < 8)
  | _ => true

end Sys2Proof
end

