-- ==== Sys2Proof/Decode.lean ====
section
/-!
DEFINITION. Decoding and encoding of slots and bundles (spec 03 R62 to R84). The decoder is total: it answers the
instruction of a slot and the L slots that extend it, or the name of what is wrong with them. The encoder is written
from the same tables. Framing of a bundle (R62 to R66) stands after it.
-/
namespace Sys2Proof

/-- Why a slot is no instruction (R70), each an ILLEGAL_INSN. -/
inductive DecodeError where
  /-- The opcode or sub-opcode is reserved. -/
  | reservedOpcode
  /-- A reserved field is not zero. -/
  | reservedField
  /-- A field that the form does not use is not zero. -/
  | unusedField
  /-- An operand value lies outside its range. -/
  | badOperand
  /-- An L payload has a bit set that must be zero, or replaces a field that is not zero (R64). -/
  | badExtension
deriving DecidableEq, Repr

/-- The payload of an L slot (R69). -/
abbrev Payload := BitVec 28

/-- Answer `i` if the check holds, else the error. -/
def need (c : Bool) (e : DecodeError) (i : Instr) : Except DecodeError Instr :=
  if c then .ok i else .error e

/-- Bit `n` of a slot. -/
def bit (w : Slot) (n : Nat) : Bool := w.extractLsb' n 1 == 1#1

/-- The 6-bit name at bit `lo`. -/
def r6 (w : Slot) (lo : Nat) : Fin 64 := (w.extractLsb' lo 6).toFin

/-- The 4-bit name at bit `lo`. -/
def k4 (w : Slot) (lo : Nat) : Fin 16 := (w.extractLsb' lo 4).toFin

/-- The two bits at `lo` are zero (upper bits of a mask name, R78). -/
def hi2 (w : Slot) (lo : Nat) : Bool := w.extractLsb' lo 2 == 0#2

/-- Class code of a slot (R69). -/
def slotClass (w : Slot) : BitVec 3 := w.extractLsb' 28 3

/-- The TE bit (R69). -/
def slotTe (w : Slot) : Bool := bit w 27

/-- The END bit (R62). -/
def slotEnd (w : Slot) : Bool := bit w 31

/-- Payload of an L slot (R69). -/
def slotPayload (w : Slot) : Payload := w.extractLsb' 0 28

/-! The S formats (R72). -/

def fD (w : Slot) : BitVec 6 := w.extractLsb' 14 6
def fA (w : Slot) : BitVec 6 := w.extractLsb' 8 6
def fB (w : Slot) : BitVec 6 := w.extractLsb' 2 6
def fM (w : Slot) : BitVec 2 := w.extractLsb' 0 2
def fC (w : Slot) : BitVec 2 := w.extractLsb' 20 2
def rD (w : Slot) : SReg := (fD w).toFin
def rA (w : Slot) : SReg := (fA w).toFin
def rB (w : Slot) : SReg := (fB w).toFin

/-- md is 00 or 01 (R73). -/
def mdOk (w : Slot) : Bool := w.extractLsb' 1 1 == 0#1

/-- md = 01: the 32-bit form (R73). -/
def w32 (w : Slot) : Bool := bit w 0

/-! The V formats (R78). -/

def vD (w : Slot) : Fin 64 := r6 w 15
def vA (w : Slot) : Fin 64 := r6 w 9
def vB (w : Slot) : Fin 64 := r6 w 3
def vK (w : Slot) : KLow := (w.extractLsb' 0 3).toFin

/-! Immediates, offsets and counts with their L slots (R74). -/

/-- An SI immediate. -/
def immSI (w : Slot) (ls : List Payload) : Word :=
  let i8 : BitVec 8 := w.extractLsb' 0 8
  match ls with
  | [] => i8.signExtend 64
  | [l1] => (l1 ++ i8).signExtend 64
  | l1 :: l2 :: _ => l2 ++ l1 ++ i8

/-- An SM offset, in units of the access size. -/
def offSM (w : Slot) (ls : List Payload) : BitVec 36 :=
  let o8 : BitVec 8 := w.extractLsb' 0 8
  match ls with
  | [] => o8.signExtend 36
  | l1 :: _ => l1 ++ o8

/-- An SB offset, in words. -/
def offSB (w : Slot) (ls : List Payload) : BitVec 42 :=
  let o14 : BitVec 14 := w.extractLsb' 0 14
  match ls with
  | [] => o14.signExtend 42
  | l1 :: _ => l1 ++ o14

/-- A VM offset in units of 512 bytes, or a VE element index. -/
def offVM (w : Slot) (ls : List Payload) : BitVec 34 :=
  let o6 : BitVec 6 := w.extractLsb' 3 6
  match ls with
  | [] => o6.zeroExtend 34
  | l1 :: _ => l1 ++ o6

/-- The one payload of a YLOOP. -/
def lPay (ls : List Payload) : Payload :=
  match ls with
  | [] => 0#28
  | l1 :: _ => l1

/-- A Y count with an L slot: the slot's own field and payload bits 27:16 are zero (R64). -/
def countOk (ls : List Payload) (zero : Bool) : Bool :=
  match ls with
  | [] => true
  | l1 :: _ => zero && l1.extractLsb' 16 12 == 0#12

/-- A Y count: the L payload's, else the slot's. -/
def countOf (ls : List Payload) (own : BitVec 16) : BitVec 16 :=
  match ls with
  | [] => own
  | l1 :: _ => l1.extractLsb' 0 16

/-! The decoder, class by class (R75, R76, R79 to R83). -/

/-- Atomics: OP = 0b10 fff cc (R76). -/
def decodeAtomic (w : Slot) : Except DecodeError Instr :=
  let te := slotTe w
  match (w.extractLsb' 22 3).toNat with
  | 0 => if fB w == 0#6 then need (fM w == 0#2 || fM w == 1#2) .badOperand (.ald te (fC w) (rD w) (rA w) (fM w)) else .error .unusedField
  | 1 => if fD w == 0#6 then need (fM w == 0#2 || fM w == 2#2) .badOperand (.ast te (fC w) (rA w) (rB w) (fM w)) else .error .unusedField
  | 2 => .ok (.aadd te (fC w) (rD w) (rA w) (rB w) (fM w))
  | 3 => .ok (.amaxu te (fC w) (rD w) (rA w) (rB w) (fM w))
  | 4 => .ok (.aor te (fC w) (rD w) (rA w) (rB w) (fM w))
  | 5 => .ok (.aand te (fC w) (rD w) (rA w) (rB w) (fM w))
  | 6 => .ok (.aswp te (fC w) (rD w) (rA w) (rB w) (fM w))
  | _ => .ok (.acas te (fC w) (rD w) (rA w) (rB w) (fM w))

/-- S slots other than the atomics (R75). -/
def decodeS (w : Slot) (ls : List Payload) : Except DecodeError Instr :=
  let te := slotTe w
  match (w.extractLsb' 20 7).toNat with
  | 0x00 => need (w.extractLsb' 0 20 == 0#20) .unusedField (.nop te)
  | 0x01 => need (mdOk w) .badOperand (.add te (rD w) (rA w) (rB w) (w32 w))
  | 0x02 => need (mdOk w) .badOperand (.sub te (rD w) (rA w) (rB w) (w32 w))
  | 0x03 => need (mdOk w) .badOperand (.and te (rD w) (rA w) (rB w) (w32 w))
  | 0x04 => need (mdOk w) .badOperand (.or te (rD w) (rA w) (rB w) (w32 w))
  | 0x05 => need (mdOk w) .badOperand (.xor te (rD w) (rA w) (rB w) (w32 w))
  | 0x06 => need (mdOk w) .badOperand (.shl te (rD w) (rA w) (rB w) (w32 w))
  | 0x07 => need (mdOk w) .badOperand (.shr te (rD w) (rA w) (rB w) (w32 w))
  | 0x08 => need (mdOk w) .badOperand (.sar te (rD w) (rA w) (rB w) (w32 w))
  | 0x09 => need (mdOk w) .badOperand (.mul te (rD w) (rA w) (rB w) (w32 w))
  | 0x0A => need (mdOk w) .badOperand (.mulh te (rD w) (rA w) (rB w) (w32 w))
  | 0x0B => need (mdOk w) .badOperand (.mulhu te (rD w) (rA w) (rB w) (w32 w))
  | 0x0C => need (mdOk w) .badOperand (.div te (rD w) (rA w) (rB w) (w32 w))
  | 0x0D => need (mdOk w) .badOperand (.divu te (rD w) (rA w) (rB w) (w32 w))
  | 0x0E => need (mdOk w) .badOperand (.rem te (rD w) (rA w) (rB w) (w32 w))
  | 0x0F => need (mdOk w) .badOperand (.remu te (rD w) (rA w) (rB w) (w32 w))
  | 0x10 => need (mdOk w) .badOperand (.min te (rD w) (rA w) (rB w) (w32 w))
  | 0x11 => need (mdOk w) .badOperand (.max te (rD w) (rA w) (rB w) (w32 w))
  | 0x12 => need (mdOk w) .badOperand (.minu te (rD w) (rA w) (rB w) (w32 w))
  | 0x13 => need (mdOk w) .badOperand (.maxu te (rD w) (rA w) (rB w) (w32 w))
  | 0x14 => need (mdOk w) .badOperand (.ceq te (rD w) (rA w) (rB w) (w32 w))
  | 0x15 => need (mdOk w) .badOperand (.cne te (rD w) (rA w) (rB w) (w32 w))
  | 0x16 => need (mdOk w) .badOperand (.clt te (rD w) (rA w) (rB w) (w32 w))
  | 0x17 => need (mdOk w) .badOperand (.cltu te (rD w) (rA w) (rB w) (w32 w))
  | 0x18 => need (mdOk w) .badOperand (.cle te (rD w) (rA w) (rB w) (w32 w))
  | 0x19 => need (mdOk w) .badOperand (.cleu te (rD w) (rA w) (rB w) (w32 w))
  | 0x1A => need (mdOk w) .badOperand (.sel te (rD w) (rA w) (rB w) (w32 w))
  | 0x1B => if fB w == 0#6 then need (mdOk w) .badOperand (.clz te (rD w) (rA w) (w32 w)) else .error .unusedField
  | 0x1C => if fB w == 0#6 then need (mdOk w) .badOperand (.ctz te (rD w) (rA w) (w32 w)) else .error .unusedField
  | 0x1D => if fB w == 0#6 then need (mdOk w) .badOperand (.popc te (rD w) (rA w) (w32 w)) else .error .unusedField
  | 0x1E => need (mdOk w) .badOperand (.bfx te (rD w) (rA w) (rB w) (w32 w))
  | 0x1F => need (mdOk w) .badOperand (.bfi te (rD w) (rA w) (rB w) (w32 w))
  | 0x20 => .ok (.addi te (rD w) (rA w) (immSI w ls))
  | 0x21 => .ok (.andi te (rD w) (rA w) (immSI w ls))
  | 0x22 => .ok (.ori te (rD w) (rA w) (immSI w ls))
  | 0x23 => .ok (.xori te (rD w) (rA w) (immSI w ls))
  | 0x24 => need (wfShift (immSI w ls)) .badOperand (.shli te (rD w) (rA w) (immSI w ls))
  | 0x25 => need (wfShift (immSI w ls)) .badOperand (.shri te (rD w) (rA w) (immSI w ls))
  | 0x26 => need (wfShift (immSI w ls)) .badOperand (.sari te (rD w) (rA w) (immSI w ls))
  | 0x27 => .ok (.muli te (rD w) (rA w) (immSI w ls))
  | 0x28 => .ok (.ceqi te (rD w) (rA w) (immSI w ls))
  | 0x29 => .ok (.cnei te (rD w) (rA w) (immSI w ls))
  | 0x2A => .ok (.clti te (rD w) (rA w) (immSI w ls))
  | 0x2B => .ok (.cltui te (rD w) (rA w) (immSI w ls))
  | 0x2C => need (fA w == 0#6) .unusedField (.li te (rD w) (immSI w ls))
  | 0x2D => need (w.extractLsb' 5 3 == 0#3) .reservedField (.hadr te (rD w) (rA w) (w.extractLsb' 0 5).toFin)
  | 0x30 => .ok (.ldb te (rD w) (rA w) (offSM w ls))
  | 0x31 => .ok (.ldbu te (rD w) (rA w) (offSM w ls))
  | 0x32 => .ok (.ldh te (rD w) (rA w) (offSM w ls))
  | 0x33 => .ok (.ldhu te (rD w) (rA w) (offSM w ls))
  | 0x34 => .ok (.ldw te (rD w) (rA w) (offSM w ls))
  | 0x35 => .ok (.ldwu te (rD w) (rA w) (offSM w ls))
  | 0x36 => .ok (.ldd te (rD w) (rA w) (offSM w ls))
  | 0x37 => .ok (.stb te (rD w) (rA w) (offSM w ls))
  | 0x38 => .ok (.sth te (rD w) (rA w) (offSM w ls))
  | 0x39 => .ok (.stw te (rD w) (rA w) (offSM w ls))
  | 0x3A => .ok (.std te (rD w) (rA w) (offSM w ls))
  | 0x3B => need (fD w == 0#6) .unusedField (.pfs te (rA w) (offSM w ls))
  | 0x60 => need (fD w == 0#6) .unusedField (.br te (offSB w ls))
  | 0x61 => .ok (.bnz te (rD w) (offSB w ls))
  | 0x62 => .ok (.bz te (rD w) (offSB w ls))
  | 0x63 => need (fD w == 0#6) .unusedField (.call te (offSB w ls))
  | 0x64 => need (fD w == 0#6 && w.extractLsb' 0 8 == 0#8) .unusedField (.jr te (rA w))
  | 0x65 => need (fD w == 0#6) .unusedField (.trap te (w.extractLsb' 0 14))
  | 0x66 => need (w.extractLsb' 0 20 == 0#20) .unusedField (.brk te)
  | 0x67 => need (w.extractLsb' 0 20 == 0#20) .unusedField (.halt te)
  | 0x7B => need (w.extractLsb' 0 20 == 0#20) .unusedField (.snapr te)
  | 0x7C => need (w.extractLsb' 0 20 == 0#20) .unusedField (.rft te)
  | 0x70 => need (w.extractLsb' 2 18 == 0#18) .unusedField (.drain te (fM w))
  | 0x71 => need (w.extractLsb' 2 18 == 0#18) .unusedField (.drainw te (fM w))
  | 0x72 => if fB w == 0#6 then need (wfHandle (rD w) && fM w != 0#2) .badOperand (.xlt te (rD w) (rA w) (fM w)) else .error .unusedField
  | 0x73 => if w.extractLsb' 0 14 == 0#14 then need (wfHandle (rD w)) .badOperand (.hinv te (rD w)) else .error .unusedField
  | 0x74 => if w.extractLsb' 0 8 == 0#8 then need (decide ((rA w).val < 32)) .badOperand (.hrd te (rD w) (rA w)) else .error .unusedField
  | 0x75 => need (fM w == 0#2) .unusedField (.wadr te (rD w) (rA w) (rB w))
  | 0x76 => .ok (.srd te (rD w) (w.extractLsb' 0 14))
  | 0x77 => .ok (.swr te (rD w) (w.extractLsb' 0 14))
  | 0x78 => .ok (.tsr te (rD w) (w.extractLsb' 0 14))
  | 0x79 => need (fD w == 0#6 && w.extractLsb' 0 8 == 0#8) .unusedField (.snapst te (rA w))
  | 0x7A => need (fD w == 0#6 && w.extractLsb' 0 8 == 0#8) .unusedField (.snapld te (rA w))
  | _ => .error .reservedOpcode

/-- VX sub-operations (R80). -/
def decodeVX (w : Slot) : Except DecodeError Instr :=
  let te := slotTe w
  match (w.extractLsb' 3 6).toNat with
  | 0 => .ok (.vabs te (vD w) (vA w) (vK w))
  | 1 => .ok (.vneg te (vD w) (vA w) (vK w))
  | 2 => .ok (.vrcp te (vD w) (vA w) (vK w))
  | 3 => .ok (.vrsq te (vD w) (vA w) (vK w))
  | 4 => .ok (.vsqrt te (vD w) (vA w) (vK w))
  | 5 => .ok (.vexp2 te (vD w) (vA w) (vK w))
  | 6 => .ok (.vlog2 te (vD w) (vA w) (vK w))
  | 7 => .ok (.vtanh te (vD w) (vA w) (vK w))
  | 8 => .ok (.vsig te (vD w) (vA w) (vK w))
  | 9 => .ok (.vgelu te (vD w) (vA w) (vK w))
  | 10 => .ok (.vflr te (vD w) (vA w) (vK w))
  | 11 => .ok (.vrnd te (vD w) (vA w) (vK w))
  | 12 => .ok (.vcvt te (vD w) (vA w) (vK w))
  | 13 => .ok (.vm8e te (vD w) (vA w) (vK w))
  | 14 => .ok (.vm8d te (vD w) (vA w) (vK w))
  | 15 => .ok (.vclz te (vD w) (vA w) (vK w))
  | 16 => .ok (.vpopc te (vD w) (vA w) (vK w))
  | 17 => need (hi2 w 13) .reservedField (.vk2v te (vD w) (k4 w 9) (vK w))
  | 18 => need (hi2 w 19) .reservedField (.vv2k te (k4 w 15) (vA w) (vK w))
  | 19 => need (w.extractLsb' 9 6 == 0#6) .unusedField (.vclr te (vD w) (vK w))
  | _ => .error .reservedOpcode

/-- V slots (R79). -/
def decodeV (w : Slot) (ls : List Payload) : Except DecodeError Instr :=
  let te := slotTe w
  match (w.extractLsb' 21 6).toNat with
  | 0x00 => .ok (.vadd te (vD w) (vA w) (vB w) (vK w))
  | 0x01 => .ok (.vsub te (vD w) (vA w) (vB w) (vK w))
  | 0x02 => .ok (.vmul te (vD w) (vA w) (vB w) (vK w))
  | 0x03 => .ok (.vfma te (vD w) (vA w) (vB w) (vK w))
  | 0x04 => .ok (.vfms te (vD w) (vA w) (vB w) (vK w))
  | 0x05 => .ok (.vmax te (vD w) (vA w) (vB w) (vK w))
  | 0x06 => .ok (.vmin te (vD w) (vA w) (vB w) (vK w))
  | 0x07 => .ok (.vand te (vD w) (vA w) (vB w) (vK w))
  | 0x08 => .ok (.vor te (vD w) (vA w) (vB w) (vK w))
  | 0x09 => .ok (.vxor te (vD w) (vA w) (vB w) (vK w))
  | 0x0A => .ok (.vshl te (vD w) (vA w) (vB w) (vK w))
  | 0x0B => .ok (.vshr te (vD w) (vA w) (vB w) (vK w))
  | 0x0C => .ok (.vsar te (vD w) (vA w) (vB w) (vK w))
  | 0x0D => need (w.extractLsb' 18 3 == 0#3) .reservedField (.vceq te (w.extractLsb' 15 3).toFin (vA w) (vB w) (vK w))
  | 0x0E => need (w.extractLsb' 18 3 == 0#3) .reservedField (.vclt te (w.extractLsb' 15 3).toFin (vA w) (vB w) (vK w))
  | 0x0F => need (w.extractLsb' 18 3 == 0#3) .reservedField (.vcle te (w.extractLsb' 15 3).toFin (vA w) (vB w) (vK w))
  | 0x10 => .ok (.vadds te (vD w) (vA w) (vB w) (vK w))
  | 0x11 => .ok (.vmuls te (vD w) (vA w) (vB w) (vK w))
  | 0x12 => .ok (.vfmas te (vD w) (vA w) (vB w) (vK w))
  | 0x13 => .ok (.vmaxs te (vD w) (vA w) (vB w) (vK w))
  | 0x14 => .ok (.vmins te (vD w) (vA w) (vB w) (vK w))
  | 0x15 => need (w.extractLsb' 9 6 == 0#6) .unusedField (.vsplat te (vD w) (vB w) (vK w))
  | 0x16 => .ok (.vsld te (vD w) (vA w) (vB w) (vK w))
  | 0x17 => .ok (.vslu te (vD w) (vA w) (vB w) (vK w))
  | 0x18 => .ok (.vld te (vD w) (vA w) (offVM w ls) (vK w))
  | 0x19 => .ok (.vst te (vD w) (vA w) (offVM w ls) (vK w))
  | 0x1A => .ok (.vgth te (vD w) (vA w) (vB w) (vK w))
  | 0x1B => .ok (.vsct te (vD w) (vA w) (vB w) (vK w))
  | 0x1C => need (hi2 w 19 && w.extractLsb' 0 3 == 0#3) .unusedField (.vldk te (k4 w 15) (vA w) (offVM w ls))
  | 0x1D => need (hi2 w 19 && w.extractLsb' 0 3 == 0#3) .unusedField (.vstk te (k4 w 15) (vA w) (offVM w ls))
  | 0x1E => need (w.extractLsb' 9 6 == 0#6) .unusedField (.vmov te (vD w) (vB w) (vK w))
  | 0x20 => need (w.extractLsb' 3 6 == 0#6) .unusedField (.vrsum te (vD w) (vA w) (vK w))
  | 0x21 => need (w.extractLsb' 3 6 == 0#6) .unusedField (.vrmax te (vD w) (vA w) (vK w))
  | 0x22 => need (w.extractLsb' 3 6 == 0#6) .unusedField (.vrmin te (vD w) (vA w) (vK w))
  | 0x23 => need (w.extractLsb' 3 6 == 0#6) .unusedField (.vrcnt te (vD w) (vA w) (vK w))
  | 0x24 => .ok (.vrsc te (vD w) (vA w) (vB w) (vK w))
  | 0x25 => need (w.extractLsb' 3 6 == 0#6) .unusedField (.vrmean te (vD w) (vA w) (vK w))
  | 0x28 => .ok (.vperm te (vD w) (vA w) (vB w) (vK w))
  | 0x29 => .ok (.vzip te (vD w) (vA w) (vB w) (vK w))
  | 0x2A => .ok (.vuzp te (vD w) (vA w) (vB w) (vK w))
  | 0x2B => .ok (.vmrg te (vD w) (vA w) (vB w) (vK w))
  | 0x2C => need (w.extractLsb' 3 6 == 0#6) .unusedField (.vcmpr te (vD w) (vA w) (vK w))
  | 0x2D => need (w.extractLsb' 3 12 == 0#12) .unusedField (.viota te (vD w) (vK w))
  | 0x2E => need (w.extractLsb' 0 3 == 0#3) .reservedField (.vext te (vD w) (vA w) (offVM w ls))
  | 0x2F => need (w.extractLsb' 0 3 == 0#3) .reservedField (.vins te (vD w) (vA w) (offVM w ls))
  | 0x30 => need (w.extractLsb' 3 6 == 0#6) .unusedField (.vbexp te (vD w) (vA w) (vK w))
  | 0x31 => .ok (.vbq te (vD w) (vA w) (vB w) (vK w))
  | 0x32 => .ok (.vbdq te (vD w) (vA w) (vB w) (vK w))
  | 0x33 => need (hi2 w 19 && hi2 w 13 && hi2 w 7 && w.extractLsb' 0 3 == 0#3) .reservedField (.vkand te (k4 w 15) (k4 w 9) (k4 w 3))
  | 0x34 => need (hi2 w 19 && hi2 w 13 && hi2 w 7 && w.extractLsb' 0 3 == 0#3) .reservedField (.vkor te (k4 w 15) (k4 w 9) (k4 w 3))
  | 0x35 => need (hi2 w 19 && hi2 w 13 && w.extractLsb' 0 9 == 0#9) .reservedField (.vknot te (k4 w 15) (k4 w 9))
  | 0x3F => decodeVX w
  | _ => .error .reservedOpcode

/-- M slots (R81). -/
def decodeM (w : Slot) : Except DecodeError Instr :=
  let te := slotTe w
  match (w.extractLsb' 22 5).toNat with
  | 0x00 => need (w.extractLsb' 0 22 == 0#22) .reservedField (.mnop te)
  | 0x01 => need (w.extractLsb' 0 9 == 0#9) .reservedField (.mbt te (w.extractLsb' 16 6).toFin (w.extractLsb' 12 4) (bit w 11) (bit w 10) (bit w 9))
  | 0x02 => need (w.extractLsb' 4 18 == 0#18) .reservedField (.mtune te (k4 w 0))
  | 0x03 => if w.extractLsb' 6 16 == 0#16 then need (decide ((w.extractLsb' 0 5).toNat ≤ 20)) .badOperand (.mgain te (bit w 5) (w.extractLsb' 0 5)) else .error .reservedField
  | 0x04 => need (w.extractLsb' 17 5 == 0#5) .reservedField (.msplit te (bit w 16) (w.extractLsb' 0 16))
  | 0x05 => if w.extractLsb' 0 12 == 0#12 then need (decide ((w.extractLsb' 14 2).toNat < 2 ∧ (w.extractLsb' 12 2).toNat < 2)) .badOperand (.mrd te (w.extractLsb' 16 6).toFin (w.extractLsb' 14 2) (w.extractLsb' 12 2)) else .error .reservedField
  | 0x06 => need (w.extractLsb' 0 16 == 0#16) .reservedField (.mrep te (w.extractLsb' 16 6).toFin)
  | 0x07 => need (w.extractLsb' 0 22 == 0#22) .reservedField (.mcal te)
  | 0x09 => need (w.extractLsb' 0 22 == 0#22) .reservedField (.munc te)
  | 0x0A => need (w.extractLsb' 0 16 == 0#16) .reservedField (.mstat te (w.extractLsb' 16 6).toFin)
  | 0x0B => need (w.extractLsb' 0 22 == 0#22) .reservedField (.mabt te)
  | _ => .error .reservedOpcode

/-- C slots (R82). -/
def decodeC (w : Slot) : Except DecodeError Instr :=
  let te := slotTe w
  match (w.extractLsb' 21 6).toNat with
  | 0x00 => need (w.extractLsb' 0 21 == 0#21) .reservedField (.cnop te)
  | 0x01 => if w.extractLsb' 0 2 == 0#2 then need (wfScope (bit w 6) (bit w 5) (w.extractLsb' 3 2)) .badOperand (.ccpy te (k4 w 17) (k4 w 13) (r6 w 7) (bit w 6) (bit w 5) (w.extractLsb' 3 2) (bit w 2)) else .error .reservedField
  | 0x0A => if w.extractLsb' 0 2 == 0#2 then need (wfScope (bit w 6) (bit w 5) (w.extractLsb' 3 2)) .badOperand (.crdx te (k4 w 17) (k4 w 13) (r6 w 7) (bit w 6) (bit w 5) (w.extractLsb' 3 2) (bit w 2)) else .error .reservedField
  | 0x0B => if w.extractLsb' 0 2 == 0#2 then need (wfScope (bit w 6) (bit w 5) (w.extractLsb' 3 2)) .badOperand (.cagt te (k4 w 17) (k4 w 13) (r6 w 7) (bit w 6) (bit w 5) (w.extractLsb' 3 2) (bit w 2)) else .error .reservedField
  | 0x0C => if w.extractLsb' 0 2 == 0#2 then need (wfScope (bit w 6) (bit w 5) (w.extractLsb' 3 2)) .badOperand (.cbct te (k4 w 17) (k4 w 13) (r6 w 7) (bit w 6) (bit w 5) (w.extractLsb' 3 2) (bit w 2)) else .error .reservedField
  | 0x02 => if w.extractLsb' 0 15 == 0#15 then need (decide ((w.extractLsb' 15 6).toNat < 48)) .badOperand (.cres te (w.extractLsb' 15 6)) else .error .reservedField
  | 0x0F => if w.extractLsb' 0 15 == 0#15 then need (decide ((w.extractLsb' 15 6).toNat < 48)) .badOperand (.cabt te (w.extractLsb' 15 6)) else .error .reservedField
  | 0x03 => need (w.extractLsb' 0 11 == 0#11) .reservedField (.cpld te (r6 w 15) (k4 w 11))
  | 0x04 => need (w.extractLsb' 0 11 == 0#11) .reservedField (.cplt te (r6 w 15) (k4 w 11))
  | 0x05 => need (w.extractLsb' 0 7 == 0#7) .reservedField (.cls te (k4 w 17) (k4 w 13) (r6 w 7))
  | 0x06 => need (w.extractLsb' 0 5 == 0#5) .reservedField (.clsf te (k4 w 17) (r6 w 11) (r6 w 5))
  | 0x07 => need (w.extractLsb' 0 3 == 0#3) .reservedField (.cwbr te (r6 w 15) (r6 w 9) (r6 w 3))
  | 0x08 => need (w.extractLsb' 0 3 == 0#3) .reservedField (.cinv te (r6 w 15) (r6 w 9) (r6 w 3))
  | 0x09 => need (w.extractLsb' 0 3 == 0#3) .reservedField (.cwbi te (r6 w 15) (r6 w 9) (r6 w 3))
  | 0x0D => need (w.extractLsb' 0 11 == 0#11) .reservedField (.cmap te (k4 w 17) (r6 w 11))
  | 0x0E => need (w.extractLsb' 0 9 == 0#9) .reservedField (.cunm te (r6 w 15) (r6 w 9))
  | _ => .error .reservedOpcode

/-- Y slots (R83). -/
def decodeY (w : Slot) (ls : List Payload) : Except DecodeError Instr :=
  let te := slotTe w
  match (w.extractLsb' 21 6).toNat with
  | 0x00 => need (w.extractLsb' 0 21 == 0#21) .reservedField (.ynop te)
  | 0x01 => if w.extractLsb' 0 9 == 0#9 then need (wfYfmt (k4 w 17) (w.extractLsb' 9 8)) .badOperand (.yfmt te (k4 w 17) (w.extractLsb' 9 8)) else .error .reservedField
  | 0x02 => need (w.extractLsb' 0 15 == 0#15) .reservedField (.yfmts te (r6 w 15))
  | 0x03 => need (w.extractLsb' 0 9 == 0#9) .reservedField (.yscl te (k4 w 17) (w.extractLsb' 9 8))
  | 0x04 => need (w.extractLsb' 0 9 == 0#9) .reservedField (.yscls te (r6 w 15) (r6 w 9))
  | 0x05 => if w.extractLsb' 0 7 == 0#7 then need (decide ((k4 w 13).val < 8)) .badOperand (.ywb te (k4 w 17) (k4 w 13) (r6 w 7)) else .error .reservedField
  | 0x06 => need (w.extractLsb' 0 11 == 0#11) .reservedField (.yldw te (k4 w 17) (r6 w 11))
  | 0x07 => need (w.extractLsb' 0 11 == 0#11) .reservedField (.ystw te (k4 w 17) (r6 w 11))
  | 0x08 => need (w.extractLsb' 0 13 == 0#13) .reservedField (.ybnk te (w.extractLsb' 17 4) (w.extractLsb' 13 4))
  | 0x09 => need (countOk ls (w.extractLsb' 0 15 == 0#15)) .badExtension (.ywait te (r6 w 15) (countOf ls ((w.extractLsb' 0 15).zeroExtend 16)))
  | 0x0A => need (countOk ls (w.extractLsb' 0 15 == 0#15)) .badExtension (.ypost te (r6 w 15) (countOf ls ((w.extractLsb' 0 15).zeroExtend 16)))
  | 0x0B => need (countOk ls (w.extractLsb' 0 6 == 0#6)) .badExtension (.ypostc te (w.extractLsb' 12 9) (r6 w 6) (countOf ls ((w.extractLsb' 0 6).zeroExtend 16)))
  | 0x0C => need (w.extractLsb' 0 18 == 0#18) .reservedField (.ybar te (w.extractLsb' 18 3).toFin)
  | 0x0D => .ok (.yloop te (r6 w 15) (w.extractLsb' 0 15) ((lPay ls).extractLsb' 14 14) ((lPay ls).extractLsb' 0 14))
  | 0x0E => need (w.extractLsb' 0 21 == 0#21) .reservedField (.ypark te)
  | 0x0F => need (w.extractLsb' 0 19 == 0#19) .reservedField (.ypri te (w.extractLsb' 19 2))
  | 0x10 => need (w.extractLsb' 0 9 == 0#9) .reservedField (.yflr te (r6 w 15) (r6 w 9))
  | 0x11 => need (w.extractLsb' 0 9 == 0#9) .reservedField (.yflw te (r6 w 15) (r6 w 9))
  | _ => .error .reservedOpcode

/-- The instruction of a slot and the L payloads that stand after it. An L slot or a reserved class on its own is
no instruction; the framing check has refused those before (R66). -/
def decodeSlot (w : Slot) (ls : List Payload) : Except DecodeError Instr :=
  match (slotClass w).toNat with
  | 0 => if w.extractLsb' 25 2 == 2#2 then decodeAtomic w else decodeS w ls
  | 1 => decodeV w ls
  | 2 => decodeM w
  | 3 => decodeC w
  | 4 => decodeY w ls
  | _ => .error .reservedOpcode

/-! The encoder. -/

/-- A name as the bits of its field. -/
def o6 (a : Fin 64) : BitVec 6 := BitVec.ofFin a
def o5 (a : Fin 32) : BitVec 5 := BitVec.ofFin a
def o4 (a : Fin 16) : BitVec 4 := BitVec.ofFin a
def o3 (a : Fin 8) : BitVec 3 := BitVec.ofFin a

def fSR (te : Bool) (op : BitVec 7) (d a b : BitVec 6) (m : BitVec 2) : Slot :=
  0#1 ++ 0#3 ++ BitVec.ofBool te ++ op ++ d ++ a ++ b ++ m

def fSI (te : Bool) (op : BitVec 7) (d a : BitVec 6) (i : BitVec 8) : Slot :=
  0#1 ++ 0#3 ++ BitVec.ofBool te ++ op ++ d ++ a ++ i

def fSX (te : Bool) (op : BitVec 7) (d : BitVec 6) (x : BitVec 14) : Slot :=
  0#1 ++ 0#3 ++ BitVec.ofBool te ++ op ++ d ++ x

def fSA (te : Bool) (f : BitVec 3) (c : BitVec 2) (d a b : BitVec 6) (o : BitVec 2) : Slot :=
  0#1 ++ 0#3 ++ BitVec.ofBool te ++ 2#2 ++ f ++ c ++ d ++ a ++ b ++ o

def fV (te : Bool) (op : BitVec 6) (d a b : BitVec 6) (k : BitVec 3) : Slot :=
  0#1 ++ 1#3 ++ BitVec.ofBool te ++ op ++ d ++ a ++ b ++ k

def fMC (te : Bool) (op : BitVec 5) (x : BitVec 22) : Slot :=
  0#1 ++ 2#3 ++ BitVec.ofBool te ++ op ++ x

def fCY (cl : BitVec 3) (te : Bool) (op : BitVec 6) (x : BitVec 21) : Slot :=
  0#1 ++ cl ++ BitVec.ofBool te ++ op ++ x

/-- md of the 32-bit form (R73). -/
def mdOf (w : Bool) : BitVec 2 := 0#1 ++ BitVec.ofBool w

/-- The fewest L slots that hold an SI immediate (R74, R85). -/
def extSI (imm : Word) : List Payload :=
  if (imm.extractLsb' 0 8).signExtend 64 == imm then []
  else if (imm.extractLsb' 0 36).signExtend 64 == imm then [imm.extractLsb' 8 28]
  else [imm.extractLsb' 8 28, imm.extractLsb' 36 28]

def extSM (off : BitVec 36) : List Payload :=
  if (off.extractLsb' 0 8).signExtend 36 == off then [] else [off.extractLsb' 8 28]

def extSB (off : BitVec 42) : List Payload :=
  if (off.extractLsb' 0 14).signExtend 42 == off then [] else [off.extractLsb' 14 28]

def extVM (off : BitVec 34) : List Payload :=
  if (off.extractLsb' 0 6).zeroExtend 34 == off then [] else [off.extractLsb' 6 28]

/-- A count that the slot's field holds stands there; a wider one stands in an L slot and the field is 0 (R83). -/
def countLow (n : BitVec 16) : BitVec 15 := if n.toNat < 2 ^ 15 then n.extractLsb' 0 15 else 0#15

def countLow6 (n : BitVec 16) : BitVec 6 := if n.toNat < 2 ^ 6 then n.extractLsb' 0 6 else 0#6

def extCount (width : Nat) (n : BitVec 16) : List Payload :=
  if n.toNat < 2 ^ width then [] else [0#12 ++ n]

/-- The slot of an instruction with END = 0, and its L payloads. An event has no encoding and answers NOP's slot. -/
def encodeSlot (i : Instr) : Slot × List Payload :=
  match i with
  | .nop te => (fSR te 0x00#7 0#6 0#6 0#6 0#2, [])
  | .add te d a b w => (fSR te 0x01#7 (o6 d) (o6 a) (o6 b) (mdOf w), [])
  | .sub te d a b w => (fSR te 0x02#7 (o6 d) (o6 a) (o6 b) (mdOf w), [])
  | .and te d a b w => (fSR te 0x03#7 (o6 d) (o6 a) (o6 b) (mdOf w), [])
  | .or te d a b w => (fSR te 0x04#7 (o6 d) (o6 a) (o6 b) (mdOf w), [])
  | .xor te d a b w => (fSR te 0x05#7 (o6 d) (o6 a) (o6 b) (mdOf w), [])
  | .shl te d a b w => (fSR te 0x06#7 (o6 d) (o6 a) (o6 b) (mdOf w), [])
  | .shr te d a b w => (fSR te 0x07#7 (o6 d) (o6 a) (o6 b) (mdOf w), [])
  | .sar te d a b w => (fSR te 0x08#7 (o6 d) (o6 a) (o6 b) (mdOf w), [])
  | .mul te d a b w => (fSR te 0x09#7 (o6 d) (o6 a) (o6 b) (mdOf w), [])
  | .mulh te d a b w => (fSR te 0x0A#7 (o6 d) (o6 a) (o6 b) (mdOf w), [])
  | .mulhu te d a b w => (fSR te 0x0B#7 (o6 d) (o6 a) (o6 b) (mdOf w), [])
  | .div te d a b w => (fSR te 0x0C#7 (o6 d) (o6 a) (o6 b) (mdOf w), [])
  | .divu te d a b w => (fSR te 0x0D#7 (o6 d) (o6 a) (o6 b) (mdOf w), [])
  | .rem te d a b w => (fSR te 0x0E#7 (o6 d) (o6 a) (o6 b) (mdOf w), [])
  | .remu te d a b w => (fSR te 0x0F#7 (o6 d) (o6 a) (o6 b) (mdOf w), [])
  | .min te d a b w => (fSR te 0x10#7 (o6 d) (o6 a) (o6 b) (mdOf w), [])
  | .max te d a b w => (fSR te 0x11#7 (o6 d) (o6 a) (o6 b) (mdOf w), [])
  | .minu te d a b w => (fSR te 0x12#7 (o6 d) (o6 a) (o6 b) (mdOf w), [])
  | .maxu te d a b w => (fSR te 0x13#7 (o6 d) (o6 a) (o6 b) (mdOf w), [])
  | .ceq te d a b w => (fSR te 0x14#7 (o6 d) (o6 a) (o6 b) (mdOf w), [])
  | .cne te d a b w => (fSR te 0x15#7 (o6 d) (o6 a) (o6 b) (mdOf w), [])
  | .clt te d a b w => (fSR te 0x16#7 (o6 d) (o6 a) (o6 b) (mdOf w), [])
  | .cltu te d a b w => (fSR te 0x17#7 (o6 d) (o6 a) (o6 b) (mdOf w), [])
  | .cle te d a b w => (fSR te 0x18#7 (o6 d) (o6 a) (o6 b) (mdOf w), [])
  | .cleu te d a b w => (fSR te 0x19#7 (o6 d) (o6 a) (o6 b) (mdOf w), [])
  | .sel te d a b w => (fSR te 0x1A#7 (o6 d) (o6 a) (o6 b) (mdOf w), [])
  | .clz te d a w => (fSR te 0x1B#7 (o6 d) (o6 a) 0#6 (mdOf w), [])
  | .ctz te d a w => (fSR te 0x1C#7 (o6 d) (o6 a) 0#6 (mdOf w), [])
  | .popc te d a w => (fSR te 0x1D#7 (o6 d) (o6 a) 0#6 (mdOf w), [])
  | .bfx te d a b w => (fSR te 0x1E#7 (o6 d) (o6 a) (o6 b) (mdOf w), [])
  | .bfi te d a b w => (fSR te 0x1F#7 (o6 d) (o6 a) (o6 b) (mdOf w), [])
  | .addi te d a imm => (fSI te 0x20#7 (o6 d) (o6 a) (imm.extractLsb' 0 8), extSI imm)
  | .andi te d a imm => (fSI te 0x21#7 (o6 d) (o6 a) (imm.extractLsb' 0 8), extSI imm)
  | .ori te d a imm => (fSI te 0x22#7 (o6 d) (o6 a) (imm.extractLsb' 0 8), extSI imm)
  | .xori te d a imm => (fSI te 0x23#7 (o6 d) (o6 a) (imm.extractLsb' 0 8), extSI imm)
  | .shli te d a imm => (fSI te 0x24#7 (o6 d) (o6 a) (imm.extractLsb' 0 8), extSI imm)
  | .shri te d a imm => (fSI te 0x25#7 (o6 d) (o6 a) (imm.extractLsb' 0 8), extSI imm)
  | .sari te d a imm => (fSI te 0x26#7 (o6 d) (o6 a) (imm.extractLsb' 0 8), extSI imm)
  | .muli te d a imm => (fSI te 0x27#7 (o6 d) (o6 a) (imm.extractLsb' 0 8), extSI imm)
  | .ceqi te d a imm => (fSI te 0x28#7 (o6 d) (o6 a) (imm.extractLsb' 0 8), extSI imm)
  | .cnei te d a imm => (fSI te 0x29#7 (o6 d) (o6 a) (imm.extractLsb' 0 8), extSI imm)
  | .clti te d a imm => (fSI te 0x2A#7 (o6 d) (o6 a) (imm.extractLsb' 0 8), extSI imm)
  | .cltui te d a imm => (fSI te 0x2B#7 (o6 d) (o6 a) (imm.extractLsb' 0 8), extSI imm)
  | .li te d imm => (fSI te 0x2C#7 (o6 d) 0#6 (imm.extractLsb' 0 8), extSI imm)
  | .hadr te d a h => (fSI te 0x2D#7 (o6 d) (o6 a) (0#3 ++ o5 h), [])
  | .ldb te d a off => (fSI te 0x30#7 (o6 d) (o6 a) (off.extractLsb' 0 8), extSM off)
  | .ldbu te d a off => (fSI te 0x31#7 (o6 d) (o6 a) (off.extractLsb' 0 8), extSM off)
  | .ldh te d a off => (fSI te 0x32#7 (o6 d) (o6 a) (off.extractLsb' 0 8), extSM off)
  | .ldhu te d a off => (fSI te 0x33#7 (o6 d) (o6 a) (off.extractLsb' 0 8), extSM off)
  | .ldw te d a off => (fSI te 0x34#7 (o6 d) (o6 a) (off.extractLsb' 0 8), extSM off)
  | .ldwu te d a off => (fSI te 0x35#7 (o6 d) (o6 a) (off.extractLsb' 0 8), extSM off)
  | .ldd te d a off => (fSI te 0x36#7 (o6 d) (o6 a) (off.extractLsb' 0 8), extSM off)
  | .stb te d a off => (fSI te 0x37#7 (o6 d) (o6 a) (off.extractLsb' 0 8), extSM off)
  | .sth te d a off => (fSI te 0x38#7 (o6 d) (o6 a) (off.extractLsb' 0 8), extSM off)
  | .stw te d a off => (fSI te 0x39#7 (o6 d) (o6 a) (off.extractLsb' 0 8), extSM off)
  | .std te d a off => (fSI te 0x3A#7 (o6 d) (o6 a) (off.extractLsb' 0 8), extSM off)
  | .pfs te a off => (fSI te 0x3B#7 0#6 (o6 a) (off.extractLsb' 0 8), extSM off)
  | .br te off => (fSX te 0x60#7 0#6 (off.extractLsb' 0 14), extSB off)
  | .bnz te a off => (fSX te 0x61#7 (o6 a) (off.extractLsb' 0 14), extSB off)
  | .bz te a off => (fSX te 0x62#7 (o6 a) (off.extractLsb' 0 14), extSB off)
  | .call te off => (fSX te 0x63#7 0#6 (off.extractLsb' 0 14), extSB off)
  | .jr te a => (fSR te 0x64#7 0#6 (o6 a) 0#6 0#2, [])
  | .trap te code => (fSX te 0x65#7 0#6 code, [])
  | .brk te => (fSR te 0x66#7 0#6 0#6 0#6 0#2, [])
  | .halt te => (fSR te 0x67#7 0#6 0#6 0#6 0#2, [])
  | .snapr te => (fSR te 0x7B#7 0#6 0#6 0#6 0#2, [])
  | .rft te => (fSR te 0x7C#7 0#6 0#6 0#6 0#2, [])
  | .drain te sc => (fSR te 0x70#7 0#6 0#6 0#6 sc, [])
  | .drainw te sc => (fSR te 0x71#7 0#6 0#6 0#6 sc, [])
  | .xlt te h a md => (fSR te 0x72#7 (o6 h) (o6 a) 0#6 md, [])
  | .hinv te h => (fSR te 0x73#7 (o6 h) 0#6 0#6 0#2, [])
  | .hrd te d h => (fSR te 0x74#7 (o6 d) (o6 h) 0#6 0#2, [])
  | .wadr te d a b => (fSR te 0x75#7 (o6 d) (o6 a) (o6 b) 0#2, [])
  | .srd te d x => (fSX te 0x76#7 (o6 d) x, [])
  | .swr te d x => (fSX te 0x77#7 (o6 d) x, [])
  | .tsr te d x => (fSX te 0x78#7 (o6 d) x, [])
  | .snapst te a => (fSR te 0x79#7 0#6 (o6 a) 0#6 0#2, [])
  | .snapld te a => (fSR te 0x7A#7 0#6 (o6 a) 0#6 0#2, [])
  | .ald te sc d a o => (fSA te 0#3 sc (o6 d) (o6 a) 0#6 o, [])
  | .ast te sc a b o => (fSA te 1#3 sc 0#6 (o6 a) (o6 b) o, [])
  | .aadd te sc d a b o => (fSA te 2#3 sc (o6 d) (o6 a) (o6 b) o, [])
  | .amaxu te sc d a b o => (fSA te 3#3 sc (o6 d) (o6 a) (o6 b) o, [])
  | .aor te sc d a b o => (fSA te 4#3 sc (o6 d) (o6 a) (o6 b) o, [])
  | .aand te sc d a b o => (fSA te 5#3 sc (o6 d) (o6 a) (o6 b) o, [])
  | .aswp te sc d a b o => (fSA te 6#3 sc (o6 d) (o6 a) (o6 b) o, [])
  | .acas te sc d a b o => (fSA te 7#3 sc (o6 d) (o6 a) (o6 b) o, [])
  | .vceq te d a b k => (fV te 0x0D#6 (0#3 ++ o3 d) (o6 a) (o6 b) (o3 k), [])
  | .vclt te d a b k => (fV te 0x0E#6 (0#3 ++ o3 d) (o6 a) (o6 b) (o3 k), [])
  | .vcle te d a b k => (fV te 0x0F#6 (0#3 ++ o3 d) (o6 a) (o6 b) (o3 k), [])
  | .vsplat te d b k => (fV te 0x15#6 (o6 d) 0#6 (o6 b) (o3 k), [])
  | .vld te d a off k => (fV te 0x18#6 (o6 d) (o6 a) (off.extractLsb' 0 6) (o3 k), extVM off)
  | .vst te d a off k => (fV te 0x19#6 (o6 d) (o6 a) (off.extractLsb' 0 6) (o3 k), extVM off)
  | .vldk te d a off => (fV te 0x1C#6 (0#2 ++ o4 d) (o6 a) (off.extractLsb' 0 6) 0#3, extVM off)
  | .vstk te d a off => (fV te 0x1D#6 (0#2 ++ o4 d) (o6 a) (off.extractLsb' 0 6) 0#3, extVM off)
  | .vmov te d b k => (fV te 0x1E#6 (o6 d) 0#6 (o6 b) (o3 k), [])
  | .vrsum te d a k => (fV te 0x20#6 (o6 d) (o6 a) 0#6 (o3 k), [])
  | .vrmax te d a k => (fV te 0x21#6 (o6 d) (o6 a) 0#6 (o3 k), [])
  | .vrmin te d a k => (fV te 0x22#6 (o6 d) (o6 a) 0#6 (o3 k), [])
  | .vrcnt te d a k => (fV te 0x23#6 (o6 d) (o6 a) 0#6 (o3 k), [])
  | .vrmean te d a k => (fV te 0x25#6 (o6 d) (o6 a) 0#6 (o3 k), [])
  | .vcmpr te d a k => (fV te 0x2C#6 (o6 d) (o6 a) 0#6 (o3 k), [])
  | .viota te d k => (fV te 0x2D#6 (o6 d) 0#6 0#6 (o3 k), [])
  | .vext te d a x => (fV te 0x2E#6 (o6 d) (o6 a) (x.extractLsb' 0 6) 0#3, extVM x)
  | .vins te d a x => (fV te 0x2F#6 (o6 d) (o6 a) (x.extractLsb' 0 6) 0#3, extVM x)
  | .vbexp te d a k => (fV te 0x30#6 (o6 d) (o6 a) 0#6 (o3 k), [])
  | .vkand te d a b => (fV te 0x33#6 (0#2 ++ o4 d) (0#2 ++ o4 a) (0#2 ++ o4 b) 0#3, [])
  | .vkor te d a b => (fV te 0x34#6 (0#2 ++ o4 d) (0#2 ++ o4 a) (0#2 ++ o4 b) 0#3, [])
  | .vknot te d a => (fV te 0x35#6 (0#2 ++ o4 d) (0#2 ++ o4 a) 0#6 0#3, [])
  | .vadd te d a b k => (fV te 0x00#6 (o6 d) (o6 a) (o6 b) (o3 k), [])
  | .vsub te d a b k => (fV te 0x01#6 (o6 d) (o6 a) (o6 b) (o3 k), [])
  | .vmul te d a b k => (fV te 0x02#6 (o6 d) (o6 a) (o6 b) (o3 k), [])
  | .vfma te d a b k => (fV te 0x03#6 (o6 d) (o6 a) (o6 b) (o3 k), [])
  | .vfms te d a b k => (fV te 0x04#6 (o6 d) (o6 a) (o6 b) (o3 k), [])
  | .vmax te d a b k => (fV te 0x05#6 (o6 d) (o6 a) (o6 b) (o3 k), [])
  | .vmin te d a b k => (fV te 0x06#6 (o6 d) (o6 a) (o6 b) (o3 k), [])
  | .vand te d a b k => (fV te 0x07#6 (o6 d) (o6 a) (o6 b) (o3 k), [])
  | .vor te d a b k => (fV te 0x08#6 (o6 d) (o6 a) (o6 b) (o3 k), [])
  | .vxor te d a b k => (fV te 0x09#6 (o6 d) (o6 a) (o6 b) (o3 k), [])
  | .vshl te d a b k => (fV te 0x0A#6 (o6 d) (o6 a) (o6 b) (o3 k), [])
  | .vshr te d a b k => (fV te 0x0B#6 (o6 d) (o6 a) (o6 b) (o3 k), [])
  | .vsar te d a b k => (fV te 0x0C#6 (o6 d) (o6 a) (o6 b) (o3 k), [])
  | .vadds te d a b k => (fV te 0x10#6 (o6 d) (o6 a) (o6 b) (o3 k), [])
  | .vmuls te d a b k => (fV te 0x11#6 (o6 d) (o6 a) (o6 b) (o3 k), [])
  | .vfmas te d a b k => (fV te 0x12#6 (o6 d) (o6 a) (o6 b) (o3 k), [])
  | .vmaxs te d a b k => (fV te 0x13#6 (o6 d) (o6 a) (o6 b) (o3 k), [])
  | .vmins te d a b k => (fV te 0x14#6 (o6 d) (o6 a) (o6 b) (o3 k), [])
  | .vsld te d a b k => (fV te 0x16#6 (o6 d) (o6 a) (o6 b) (o3 k), [])
  | .vslu te d a b k => (fV te 0x17#6 (o6 d) (o6 a) (o6 b) (o3 k), [])
  | .vgth te d a b k => (fV te 0x1A#6 (o6 d) (o6 a) (o6 b) (o3 k), [])
  | .vsct te d a b k => (fV te 0x1B#6 (o6 d) (o6 a) (o6 b) (o3 k), [])
  | .vrsc te d a b k => (fV te 0x24#6 (o6 d) (o6 a) (o6 b) (o3 k), [])
  | .vperm te d a b k => (fV te 0x28#6 (o6 d) (o6 a) (o6 b) (o3 k), [])
  | .vzip te d a b k => (fV te 0x29#6 (o6 d) (o6 a) (o6 b) (o3 k), [])
  | .vuzp te d a b k => (fV te 0x2A#6 (o6 d) (o6 a) (o6 b) (o3 k), [])
  | .vmrg te d a b k => (fV te 0x2B#6 (o6 d) (o6 a) (o6 b) (o3 k), [])
  | .vbq te d a b k => (fV te 0x31#6 (o6 d) (o6 a) (o6 b) (o3 k), [])
  | .vbdq te d a b k => (fV te 0x32#6 (o6 d) (o6 a) (o6 b) (o3 k), [])
  | .vabs te d a k => (fV te 0x3F#6 (o6 d) (o6 a) 0#6 (o3 k), [])
  | .vneg te d a k => (fV te 0x3F#6 (o6 d) (o6 a) 1#6 (o3 k), [])
  | .vrcp te d a k => (fV te 0x3F#6 (o6 d) (o6 a) 2#6 (o3 k), [])
  | .vrsq te d a k => (fV te 0x3F#6 (o6 d) (o6 a) 3#6 (o3 k), [])
  | .vsqrt te d a k => (fV te 0x3F#6 (o6 d) (o6 a) 4#6 (o3 k), [])
  | .vexp2 te d a k => (fV te 0x3F#6 (o6 d) (o6 a) 5#6 (o3 k), [])
  | .vlog2 te d a k => (fV te 0x3F#6 (o6 d) (o6 a) 6#6 (o3 k), [])
  | .vtanh te d a k => (fV te 0x3F#6 (o6 d) (o6 a) 7#6 (o3 k), [])
  | .vsig te d a k => (fV te 0x3F#6 (o6 d) (o6 a) 8#6 (o3 k), [])
  | .vgelu te d a k => (fV te 0x3F#6 (o6 d) (o6 a) 9#6 (o3 k), [])
  | .vflr te d a k => (fV te 0x3F#6 (o6 d) (o6 a) 10#6 (o3 k), [])
  | .vrnd te d a k => (fV te 0x3F#6 (o6 d) (o6 a) 11#6 (o3 k), [])
  | .vcvt te d a k => (fV te 0x3F#6 (o6 d) (o6 a) 12#6 (o3 k), [])
  | .vm8e te d a k => (fV te 0x3F#6 (o6 d) (o6 a) 13#6 (o3 k), [])
  | .vm8d te d a k => (fV te 0x3F#6 (o6 d) (o6 a) 14#6 (o3 k), [])
  | .vclz te d a k => (fV te 0x3F#6 (o6 d) (o6 a) 15#6 (o3 k), [])
  | .vpopc te d a k => (fV te 0x3F#6 (o6 d) (o6 a) 16#6 (o3 k), [])
  | .vk2v te d a k => (fV te 0x3F#6 (o6 d) (0#2 ++ o4 a) 17#6 (o3 k), [])
  | .vv2k te d a k => (fV te 0x3F#6 (0#2 ++ o4 d) (o6 a) 18#6 (o3 k), [])
  | .vclr te d k => (fV te 0x3F#6 (o6 d) 0#6 19#6 (o3 k), [])
  | .mnop te => (fMC te 0#5 0#22, [])
  | .mcal te => (fMC te 7#5 0#22, [])
  | .munc te => (fMC te 9#5 0#22, [])
  | .mabt te => (fMC te 11#5 0#22, [])
  | .mbt te v seg n a d => (fMC te 1#5 (o6 v ++ seg ++ BitVec.ofBool n ++ BitVec.ofBool a ++ BitVec.ofBool d ++ 0#9), [])
  | .mtune te l => (fMC te 2#5 (0#18 ++ o4 l), [])
  | .mgain te p g => (fMC te 3#5 (0#16 ++ BitVec.ofBool p ++ g), [])
  | .msplit te en m => (fMC te 4#5 (0#5 ++ BitVec.ofBool en ++ m), [])
  | .mrd te d p k => (fMC te 5#5 (o6 d ++ p ++ k ++ 0#12), [])
  | .mrep te d => (fMC te 6#5 (o6 d ++ 0#16), [])
  | .mstat te d => (fMC te 10#5 (o6 d ++ 0#16), [])
  | .cnop te => (fCY 3#3 te 0#6 0#21, [])
  | .ccpy te s d f q r sc l => (fCY 3#3 te 1#6 (o4 s ++ o4 d ++ o6 f ++ BitVec.ofBool q ++ BitVec.ofBool r ++ sc ++ BitVec.ofBool l ++ 0#2), [])
  | .crdx te s d f q r sc l => (fCY 3#3 te 10#6 (o4 s ++ o4 d ++ o6 f ++ BitVec.ofBool q ++ BitVec.ofBool r ++ sc ++ BitVec.ofBool l ++ 0#2), [])
  | .cagt te s d f q r sc l => (fCY 3#3 te 11#6 (o4 s ++ o4 d ++ o6 f ++ BitVec.ofBool q ++ BitVec.ofBool r ++ sc ++ BitVec.ofBool l ++ 0#2), [])
  | .cbct te s d f q r sc l => (fCY 3#3 te 12#6 (o4 s ++ o4 d ++ o6 f ++ BitVec.ofBool q ++ BitVec.ofBool r ++ sc ++ BitVec.ofBool l ++ 0#2), [])
  | .cres te n => (fCY 3#3 te 2#6 (n ++ 0#15), [])
  | .cabt te n => (fCY 3#3 te 15#6 (n ++ 0#15), [])
  | .cpld te v p => (fCY 3#3 te 3#6 (o6 v ++ o4 p ++ 0#11), [])
  | .cplt te v p => (fCY 3#3 te 4#6 (o6 v ++ o4 p ++ 0#11), [])
  | .cls te l s b => (fCY 3#3 te 5#6 (o4 l ++ o4 s ++ o6 b ++ 0#7), [])
  | .clsf te l a b => (fCY 3#3 te 6#6 (o4 l ++ o6 a ++ o6 b ++ 0#5), [])
  | .cwbr te a b f => (fCY 3#3 te 7#6 (o6 a ++ o6 b ++ o6 f ++ 0#3), [])
  | .cinv te a b f => (fCY 3#3 te 8#6 (o6 a ++ o6 b ++ o6 f ++ 0#3), [])
  | .cwbi te a b f => (fCY 3#3 te 9#6 (o6 a ++ o6 b ++ o6 f ++ 0#3), [])
  | .cmap te s a => (fCY 3#3 te 13#6 (o4 s ++ o6 a ++ 0#11), [])
  | .cunm te a f => (fCY 3#3 te 14#6 (o6 a ++ o6 f ++ 0#9), [])
  | .ynop te => (fCY 4#3 te 0#6 (0#21), [])
  | .yfmt te f i => (fCY 4#3 te 1#6 (o4 f ++ i ++ 0#9), [])
  | .yfmts te a => (fCY 4#3 te 2#6 (o6 a ++ 0#15), [])
  | .yscl te g i => (fCY 4#3 te 3#6 (o4 g ++ i ++ 0#9), [])
  | .yscls te a b => (fCY 4#3 te 4#6 (o6 a ++ o6 b ++ 0#9), [])
  | .ywb te wn x b => (fCY 4#3 te 5#6 (o4 wn ++ o4 x ++ o6 b ++ 0#7), [])
  | .yldw te wn a => (fCY 4#3 te 6#6 (o4 wn ++ o6 a ++ 0#11), [])
  | .ystw te wn a => (fCY 4#3 te 7#6 (o4 wn ++ o6 a ++ 0#11), [])
  | .ybnk te ba bb => (fCY 4#3 te 8#6 (ba ++ bb ++ 0#13), [])
  | .ywait te f n => (fCY 4#3 te 9#6 (o6 f ++ countLow n), extCount 15 n)
  | .ypost te f n => (fCY 4#3 te 10#6 (o6 f ++ countLow n), extCount 15 n)
  | .ypostc te c f n => (fCY 4#3 te 11#6 (c ++ o6 f ++ countLow6 n), extCount 6 n)
  | .ybar te b => (fCY 4#3 te 12#6 (o3 b ++ 0#18), [])
  | .yloop te a l p q => (fCY 4#3 te 13#6 (o6 a ++ l), [p ++ q])
  | .ypark te => (fCY 4#3 te 14#6 (0#21), [])
  | .ypri te c => (fCY 4#3 te 15#6 (c ++ 0#19), [])
  | .yflr te d f => (fCY 4#3 te 16#6 (o6 d ++ o6 f ++ 0#9), [])
  | .yflw te f a => (fCY 4#3 te 17#6 (o6 f ++ o6 a ++ 0#9), [])
  | _ => (0#32, [])

/-- An L slot with END = 0 (R69). -/
def lSlot (p : Payload) : Slot := 0#1 ++ 5#3 ++ p

/-- Set END in the last slot of a bundle and clear it in the others (R62). -/
def markEnd : List Slot → List Slot
  | [] => []
  | [w] => [1#1 ++ w.extractLsb' 0 31]
  | w :: rest => (0#1 ++ w.extractLsb' 0 31) :: markEnd rest

/-- The words of the bundle that holds instruction `i` alone. -/
def encode (i : Instr) : List Slot :=
  markEnd ((encodeSlot i).1 :: (encodeSlot i).2.map lSlot)

/-! Framing of bundles (R62 to R66). -/

/-- How many L slots a form takes: least and most (R64). -/
def lRange (w : Slot) : Nat × Nat :=
  let sOp := (w.extractLsb' 20 7).toNat
  let vOp := (w.extractLsb' 21 6).toNat
  match (slotClass w).toNat with
  | 0 =>
    if 0x20 ≤ sOp ∧ sOp ≤ 0x2C then (0, 2)
    else if 0x30 ≤ sOp ∧ sOp ≤ 0x3B then (0, 1)
    else if 0x60 ≤ sOp ∧ sOp ≤ 0x63 then (0, 1)
    else (0, 0)
  | 1 =>
    if vOp = 0x18 ∨ vOp = 0x19 ∨ vOp = 0x1C ∨ vOp = 0x1D ∨ vOp = 0x2E ∨ vOp = 0x2F then (0, 1) else (0, 0)
  | 4 =>
    if vOp = 0x0D then (1, 1)
    else if vOp = 0x09 ∨ vOp = 0x0A ∨ vOp = 0x0B then (0, 1)
    else (0, 0)
  | _ => (0, 0)

/-- Is the slot a vector memory operation (R65)? -/
def isVMem (w : Slot) : Bool :=
  let vOp := (w.extractLsb' 21 6).toNat
  slotClass w == 1#3 && decide (0x18 ≤ vOp ∧ vOp ≤ 0x1D)

/-- SNAPR, which must stand alone (R77). -/
def isSnapr (w : Slot) : Bool := slotClass w == 0#3 && w.extractLsb' 20 7 == 0x7B#7

/-- A slot with the L payloads that extend it. -/
abbrev Framed := Slot × List Payload

/-- Cut the slots of a bundle up to the first END = 1; none when no slot has it. -/
def takeBundle : List Slot → Option (List Slot)
  | [] => none
  | w :: rest => if slotEnd w then some [w] else (takeBundle rest).map (w :: ·)

/-- The L payloads that a list of slots begins with, and the framed slots after them; none for a reserved class. -/
def extendedBy : List Slot → Option (List Payload × List Framed)
  | [] => some ([], [])
  | w :: rest =>
    match extendedBy rest with
    | none => none
    | some (ls, more) =>
      if slotClass w == 5#3 then some (slotPayload w :: ls, more)
      else if (slotClass w).toNat < 5 then some ([], (w, ls) :: more)
      else none

/-- Put each L slot with the slot it extends. None when an L slot stands first or a class is reserved. -/
def groupSlots : List Slot → Option (List Framed)
  | [] => some []
  | w :: rest =>
    match extendedBy rest with
    | none => none
    | some (ls, more) => if (slotClass w).toNat < 5 then some ((w, ls) :: more) else none

/-- Canonical order S, V, V, M, C, C, Y with at most the number of each class (R63): the place of class `c` after
`n` earlier slots of it, or none. -/
def orderOk : List Framed → Bool
  | [] => true
  | [_] => true
  | a :: b :: rest =>
    let ca := (slotClass a.1).toNat
    let cb := (slotClass b.1).toNat
    (decide (ca < cb) || (ca == cb && (ca == 1 || ca == 3))) && orderOk (b :: rest)

def countClass (c : Nat) (fs : List Framed) : Nat := (fs.filter fun f => (slotClass f.1).toNat == c).length

/-- The framing checks of R66 that need only the slots. -/
def frameOk (fs : List Framed) : Bool :=
  orderOk fs && decide (countClass 1 fs ≤ 2) && decide (countClass 3 fs ≤ 2)
    && fs.all (fun f => decide ((lRange f.1).1 ≤ f.2.length ∧ f.2.length ≤ (lRange f.1).2))
    && decide ((fs.filter fun f => isVMem f.1).length ≤ 1)
    && (!(fs.any fun f => isSnapr f.1) || fs.length == 1)

/-- The framed slots of the bundle that begins the list `ws` of at most eight slots, with the number of its slots;
none is ILLEGAL_BUNDLE (R66). -/
def frameBundle (ws : List Slot) : Option (List Framed × Nat) :=
  match takeBundle ws with
  | none => none
  | some b =>
    match groupSlots b with
    | none => none
    | some fs => if frameOk fs then some (fs, b.length) else none

/-- Every slot of a framed bundle decoded, or the first error in canonical order. -/
def decodeFramed : List Framed → Except DecodeError (List Instr)
  | [] => .ok []
  | (w, ls) :: rest =>
    match decodeSlot w ls with
    | .error e => .error e
    | .ok i =>
      match decodeFramed rest with
      | .error e => .error e
      | .ok is => .ok (i :: is)

/-- The slots of a list of bytes, little-endian (R62). -/
def slotsOfBytes : List Byte → List Slot
  | b0 :: b1 :: b2 :: b3 :: rest => (b3 ++ b2 ++ b1 ++ b0) :: slotsOfBytes rest
  | _ => []

/-- The bytes of a slot, little-endian (R62). -/
def bytesOfSlot (w : Slot) : List Byte :=
  [w.extractLsb' 0 8, w.extractLsb' 8 8, w.extractLsb' 16 8, w.extractLsb' 24 8]

/-- The words that stand for a row's slot `w` with operand words of zeros: the slot, after it the one L slot of payload
zero that YLOOP must have (R64), END in the last. -/
def tableWords (w : Slot) : List Slot :=
  markEnd (w :: List.replicate (lRange w).1 (lSlot 0#28))

/-- The instruction that the decoder reads from a table row's slot (framing and decoding of its words as a bundle). -/
def decodeTableWord (nbits w : Nat) : Option Instr :=
  if nbits = 32 then
    match frameBundle (slotsOfBytes ((tableWords (BitVec.ofNat 32 w)).flatMap bytesOfSlot)) with
    | none => none
    | some (fs, _) =>
      match decodeFramed fs with
      | .ok [i] => some i
      | _ => none
  else none

end Sys2Proof
end

