-- ==== Sys2Proof/Config.lean ====
section
/-!
DEFINITION. What is fixed for the machine (latencies, sizes) and the free values: constants with no body, which stand
where the spec leaves a value open (notes/assumptions 7, 8, 12, 16). Nothing can evaluate them.
-/
namespace Sys2Proof.Config

/-! Figures of the spec. -/

/-- Cycles of one µs: the core clock is 2.0 GHz (R5). -/
def usCycles : Nat := 2000

/-- Cycles of one ms (R5). -/
def msCycles : Nat := 2000000

/-- Cycles of 24 hours (R5, R455). -/
def dayCycles : Nat := 172800000000000

/-- Delay of FMT writes, in issue steps (R93). -/
def fmtDelay : Nat := 4

/-- Delay of waybill writes, in issue steps (R93). -/
def waybillDelay : Nat := 3

/-- Delay of edge scale latch writes, in issue steps (R93). -/
def latchDelay : Nat := 6

/-- Λ of R97, in steps. -/
def lambdaSteps : Nat := 20

/-- A scratchpad is 384 KiB (R6). -/
def spadSize : Nat := 0x60000

/-- Instruction memory is 128 KiB (R6). -/
def imemSize : Nat := 0x20000

/-- Lines of a die cache of 16 MiB (R6). -/
def dieLines : Nat := 262144

/-- First byte of the handler region of instruction memory (R67). -/
def handlerBase : Nat := 0x1E000

/-- HBM capacity, 768 GB (R468). -/
def hbmSize : Nat := 0xB2D05E0000

/-- An open window holds its charge for 4,000 cycles (R115). -/
def holdCycles : Nat := 4000

/-- A calibration takes 4,000 cycles (R225). -/
def calCycles : Nat := 4000

/-- A row remap pauses its line for 20 µs (R117). -/
def remapCycles : Nat := 40000

/-- Typical latency of a scalar access to a peer on the same die or a die-cache hit (R91). -/
def latNear : Nat := 40

/-- Typical latency of a scalar access to a peer on another die (R91). -/
def latFar : Nat := 120

/-- Typical latency of a scalar access to HBM (R91), also of one level of a walk (R152). -/
def latHbm : Nat := 900

/-- Bytes of the save area that one car's forced-stop image takes: its layout belongs to the device (R373). -/
opaque saveBytes : Nat

/-! Free values. -/

/-- Which of the admitted integers the analog converter delivers at the `n`th free choice (R110). -/
opaque converterChoice : Nat → Nat → Int

/-- The result of a VX function in F32 within the bound of R199, for the operation, the rounding mode and the operand bits. -/
opaque approxF32 : Nat → Nat → BitVec 32 → BitVec 32

/-- How far an engine has come, or whether it sees a write, at the `n`th free choice (R237). -/
opaque progress : Nat → Nat

/-- A byte left unspecified (R237, R240, R242, R250, R252, R162), for the free choice and its position. -/
opaque anyByte : Nat → Nat → BitVec 8

/-- A vector register's contents where they are unspecified (R12, R264), for the free choice and the register. -/
opaque anyVec : Nat → Nat → BitVec 32768

/-- Where the Signal box begins to look for cores and lines at the `n`th free choice (R271, R369). -/
opaque placeChoice : Nat → Nat

/-- Does the Signal box place a consist as primaries, beside which secondaries may stand (R283)? -/
opaque mergeChoice : Nat → Bool

/-- The line whose base circuit has a slot of a Junction's output port: by Junction, port and slot (R403). -/
opaque baseCircuit : Nat → Nat → Nat → Option (Fin 16)

/-- The SHA3-384 digest of a measured index (R462). -/
opaque digest : Nat → List Word → BitVec 384

/-- How far the power manager moves one of its means at the `n`th free choice (R464). -/
opaque powerStep : Nat → Nat

/-- The difference of die `d`'s counter from the package's lowest, in ns; taken modulo 3 (R312). -/
opaque dieSkew : Nat → Nat

end Sys2Proof.Config
end

