-- ==== Sys2Proof/Machine/Store.lean ====
section
/-!
DEFINITION. Byte memory in canonical form and sparse tables. A memory lists (address, byte) cells by strictly rising
address and lists no zero byte: an unlisted byte reads zero (notes/assumptions/3.md). Poison stands beside it, per
byte (spec 20 R455), as a strictly rising list of addresses.
-/
namespace Sys2Proof.Machine

/-- A memory's bytes. -/
abbrev Cells := List Host.Cell

/-- A memory: its bytes and its poisoned addresses (R455). -/
structure Mem where
  cells : Cells := []
  poison : List Nat := []
deriving DecidableEq, Repr

/-- The empty memory. -/
def Mem.empty : Mem := ⟨[], []⟩

/-- Strictly rising. -/
def rising : List Nat → Bool
  | a :: b :: rest => decide (a < b) && rising (b :: rest)
  | _ => true

/-- The canonical form: rising addresses, no zero byte listed, rising poison. -/
def Mem.wf (m : Mem) : Bool :=
  rising (m.cells.map Prod.fst) && m.cells.all (fun c => c.2 != 0#8) && rising m.poison

/-- The byte at an address among cells; zero when unlisted. -/
def Cells.read (cs : Cells) (a : Nat) : Byte :=
  match cs.find? (fun c => c.1 == a) with
  | some c => c.2
  | none => 0#8

/-- The byte at an address. -/
def Mem.read (m : Mem) (a : Nat) : Byte := Cells.read m.cells a

/-- Is the byte at an address poisoned? -/
def Mem.poisoned (m : Mem) (a : Nat) : Bool := m.poison.contains a

/-- The cells of bytes written from `a` up, without the zeros. -/
def cellsOf : Nat → List Byte → Cells
  | _, [] => []
  | a, b :: bs => if b == 0#8 then cellsOf (a + 1) bs else (a, b) :: cellsOf (a + 1) bs

/-- Write bytes from `a` up, clearing their poison (R134). -/
def Mem.write (m : Mem) (a : Nat) (bs : List Byte) : Mem :=
  { cells := m.cells.filter (fun c => decide (c.1 < a)) ++ cellsOf a bs
      ++ m.cells.filter (fun c => decide (a + bs.length ≤ c.1))
    poison := m.poison.filter (fun p => decide (p < a ∨ a + bs.length ≤ p)) }

/-- Read `n` bytes from `a` up. -/
def Mem.readBytes (m : Mem) (a n : Nat) : List Byte := (List.range n).map (fun i => m.read (a + i))

/-- Is any of `n` bytes from `a` up poisoned? -/
def Mem.anyPoison (m : Mem) (a n : Nat) : Bool := m.poison.any (fun p => decide (a ≤ p ∧ p < a + n))

/-- Mark `n` bytes from `a` up as poisoned (R455). -/
def Mem.setPoison (m : Mem) (a n : Nat) : Mem :=
  { m with poison := m.poison.filter (fun p => decide (p < a)) ++ (List.range n).map (fun i => a + i)
      ++ m.poison.filter (fun p => decide (a + n ≤ p)) }

/-- Write a byte where `keep` says so; used for masks and elements. -/
def Mem.writeAll (m : Mem) : List (Nat × Byte) → Mem
  | [] => m
  | (a, b) :: rest => (m.write a [b]).writeAll rest

/-- The bytes of a value of `n` bytes, little-endian (R37). -/
def bytesLE : Nat → Nat → List Byte
  | 0, _ => []
  | n + 1, x => BitVec.ofNat 8 x :: bytesLE n (x / 256)

/-- The value of bytes, little-endian (R37). -/
def natLE : List Byte → Nat
  | [] => 0
  | b :: bs => b.toNat + 256 * natLE bs

/-- The value of `n` bytes from `a` up, little-endian. -/
def Mem.readNat (m : Mem) (a n : Nat) : Nat := natLE (m.readBytes a n)

/-- The 8 bytes at `a` as a word. -/
def Mem.readWord (m : Mem) (a : Nat) : Word := BitVec.ofNat 64 (m.readNat a 8)

/-- Write a value of `n` bytes at `a`. -/
def Mem.writeNat (m : Mem) (a n x : Nat) : Mem := m.write a (bytesLE n x)

/-- A sparse table: entries by strictly rising key; a key not listed has the table's default. -/
abbrev Tab (α : Type) := List (Nat × α)

/-- The entry of a key. -/
def Tab.get {α : Type} (d : α) (t : Tab α) (i : Nat) : α :=
  match t.find? (fun c => c.1 == i) with
  | some c => c.2
  | none => d

/-- Replace the entry of a key. -/
def Tab.set {α : Type} (t : Tab α) (i : Nat) (x : α) : Tab α :=
  t.filter (fun c => decide (c.1 < i)) ++ (i, x) :: t.filter (fun c => decide (i < c.1))

/-- Drop the entry of a key. -/
def Tab.erase {α : Type} (t : Tab α) (i : Nat) : Tab α := t.filter (fun c => decide (c.1 ≠ i))

end Sys2Proof.Machine
end

