-- ==== Sys2Proof/Machine/CarState.lean ====
section
/-!
DEFINITION. What a car holds: registers (spec 01), producers and delayed writes (04), the optical array (05, 08),
engines (09, 11) and trap state (12). All of it is plain data.
-/
namespace Sys2Proof.Machine

/-- Capability class of a core (R3). -/
inductive CoreClass where
  | a | b | c
deriving DecidableEq, Repr

/-- Causes of a trap (R328), without the copy number. -/
inductive Cause where
  | illegalBundle | illegalInsn | priv | empty | xltFault | handleRevoked | access | shape | copyFault
  | uncorrectable | trap | brk | watch | step | preemptForced | windowClosed | align
deriving DecidableEq, Repr

/-- A trap to be taken: its cause and TADDR, the IMPRECISE bit and the copy number of TCAUSE (R33). -/
structure Trap where
  cause : Cause
  taddr : Word
  imprecise : Bool := false
  copy : BitVec 6 := 0#6
deriving DecidableEq, Repr

/-- A handle (R22), the virtual page it was made from (R320) and the cycle until which XLT keeps it busy (R152). -/
structure Handle where
  v : Bool := false
  rd : Bool := false
  wr : Bool := false
  sz : BitVec 2 := 0#2
  sm : Bool := false
  c : Bool := false
  rmt : Bool := false
  frame : BitVec 36 := 0#36
  vpage : Nat := 0
  busy : Nat := 0
deriving DecidableEq, Repr

/-- A waybill register: 8 words (R29). -/
abbrev Waybill := Vector Word 8

/-- The car's registers (R12). `s` holds s0 to s63 and then the handler bank of s56 to s63 (R16). -/
structure Regs where
  s : Vector Word 72 := Vector.replicate 72 0#64
  v : Tab VWord := []
  k : Vector Mask 16 := Vector.replicate 16 0#4096
  h : Vector Handle 32 := Vector.replicate 32 {}
  f : Vector (BitVec 16) 64 := Vector.replicate 64 0#16
  w : Vector Waybill 16 := Vector.replicate 16 (Vector.replicate 8 0#64)
  e : Vector Byte 16 := Vector.replicate 16 0#8
  fmt : BitVec 20 := 0#20
deriving DecidableEq, Repr

/-- Full/empty bits (1: empty) and poison marks (R12, R134, R180). -/
structure Marks where
  emptyS : BitVec 72 := 0#72
  emptyV : BitVec 1024 := 0#1024
  emptyK : BitVec 16 := 0#16
  poisonS : BitVec 72 := 0#72
  /-- Scalar registers whose parity fails at the next read, and those where it fails again at the second (R454). -/
  parityS : BitVec 72 := 0#72
  againS : BitVec 72 := 0#72
  poisonV : BitVec 1024 := 0#1024
  poisonK : BitVec 16 := 0#16
deriving DecidableEq, Repr

/-- The identity registers (R271, R282). -/
structure Ident where
  coreId : BitVec 9 := 0#9
  coreClass : CoreClass := .a
  carId : BitVec 9 := 0#9
  ncars : BitVec 9 := 1#9
  consistId : BitVec 32 := 0#32
  serviceId : Word := 0#64
  merge : BitVec 2 := 0#2
deriving DecidableEq, Repr

/-- The named control registers that instructions write (R33), and CCYC. -/
structure Ctl where
  ccyc : Word := 0#64
  tvec : BitVec 17 := 0x1E000#17
  tcause : BitVec 22 := 0#22
  taddr : Word := 0#64
  vbank : BitVec 8 := 0#8
  vflags : BitVec 8 := 0#8
  flagovf : Word := 0#64
  mgsel : BitVec 16 := 0xFFFF#16
  rcnt : BitVec 11 := 1#11
  lslack : BitVec 7 := 4#7
  wadrTmo : BitVec 32 := 0#32
  wdog : BitVec 32 := 0#32
  pri : BitVec 2 := 0#2
  wmap : Vector (BitVec 10) 16 := Vector.replicate 16 0#10
  wal : Vector (BitVec 8) 16 := Vector.replicate 16 0#8
deriving DecidableEq, Repr

/-- The loop engine (R261 to R264): its registers, the resumed state and whether it has sent a fetch to LEPI since the
last YLOOP. -/
structure Loop where
  start : BitVec 17 := 0#17
  lend : BitVec 17 := 0#17
  lpro : BitVec 17 := 0#17
  lepi : BitVec 17 := 0#17
  cnt : BitVec 32 := 0#32
  idx : BitVec 32 := 0#32
  resumed : Bool := false
  redirected : Bool := false
deriving DecidableEq, Repr

/-- A write that stands inside its delay (R93). -/
inductive Late where
  | fmt (x : BitVec 20)
  | latches (mask : BitVec 16) (x : Vector Byte 16)
  | waybill (w : Ix16) (mask : BitVec 8) (x : Waybill)
deriving DecidableEq, Repr

/-- A delayed write and how many steps after its writer the next bundle stands; 0 while the writer's bundle issues (R93,
R94). -/
structure LateWrite where
  age : Nat
  what : Late
deriving DecidableEq, Repr

/-- A destination and the value that will fill it. -/
inductive Dest where
  | s (r : Nat) (x : Word)
  | v (r : Nat) (x : VWord)
  | k (r : Nat) (x : Mask)
deriving DecidableEq, Repr

/-- A producer in flight (R90): number, destination, cycle at which it fills (none: when its data return, R91), whether
the value comes poisoned, whether it is a fixed-latency S-slot producer (R323), and when it issued. -/
structure Flight where
  id : Nat
  dest : Dest
  due : Option Nat
  poison : Bool := false
  /-- The handle address it reads, for an error response that comes later. -/
  ha : Word := 0#64
  fixedS : Bool := false
  issued : Nat := 0
  /-- Cycle at which data without a fixed latency come when nothing says otherwise (notes/assumptions/17.md). -/
  eta : Nat := 0
  /-- It is an atomic that writes: its write is known to have performed when its value comes (R150). -/
  writes : Bool := false
  /-- What an error response delivers: zero in the bytes that were to be read, the others as they are (R168, R180); none
  where all of the destination was. -/
  onError : Option VWord := none
deriving DecidableEq, Repr

/-- Cycle until which each unit is occupied (R92, R209). -/
structure Units where
  v0 : Nat := 0
  v1 : Nat := 0
  divider : Nat := 0
  array : Nat := 0
  /-- Units that the bundle of cycle `usedAt` took: S, V0, V1, M, C0, C1, Y (R99). -/
  used : BitVec 7 := 0#7
  usedAt : Nat := 0
  /-- Copy numbers that its bundle waited for in cycle `wantsAt`, and whether it waits behind the primary's, which waited for one
  in the same cycle (R100). -/
  wants : Nat := 0
  wantsAt : Nat := 0
  behind : Bool := false
  /-- Which of the two units of its class the slot that takes effect drives (R63). -/
  slot : Fin 2 := 0
deriving DecidableEq, Repr

/-- What a car waits for after its bundle has issued. -/
inductive Wait where
  | ywait (f : FlagIx) (n : BitVec 16) (since : Nat)
  | ybar (b : Fin 8) (since : Nat)
  | wadr (ha : Word) (d : Nat) (b : Word) (since : Nat) (limit : Option Nat)
  | drain (writes : Bool)
  | park
deriving DecidableEq, Repr

/-- The life of a car (R147, R264, R269). -/
inductive Life where
  | idle
  | held (release : Nat)
  | running
  | halted
  | finished
  | parked
deriving DecidableEq, Repr

/-- A pending asynchronous cause (R329), in the order in which they are taken. -/
inductive Async where
  | preemptForced
  | copyFault (n : BitVec 6) (va : Word)
  | uncorrectable (ha : Word)
  | watch (addr : Word) (copy : Option (BitVec 6))
  | step (addr : BitVec 17)
deriving DecidableEq, Repr

/-- Trap state (R161, R322): mode, masking, the held snapshot image of 128 words (R325), the cycle at which its last
diverted producer delivers (R326), pending asynchronous causes, and the address of the last bundle issued. -/
structure TrapState where
  handler : Bool := false
  masked : Bool := false
  snap : Option (Vector Word 128) := none
  snapReady : Nat := 0
  pending : List Async := []
  lastPc : BitVec 17 := 0#17
  /-- Waits that stand in a snapshot, by its WAIT word, and since when they last (R287, R324). -/
  waits : List (Word × Nat) := []
deriving DecidableEq, Repr

/-- Operation of an atomic (R137). -/
inductive AtomicOp where
  | ld | st | add | maxu | or | and | swp | cas
deriving DecidableEq, Repr

/-- Which engine operation holds a copy number (R235). -/
inductive EngineOp where
  | ccpy | crdx | cagt | cbct | cls | clsf | cmap
deriving DecidableEq, Repr

/-- State of a copy (R240). -/
inductive CopyState where
  | running
  | faulted (row : Nat) (va : Word)
deriving DecidableEq, Repr

/-- A stash mapping (R249, R306, R307): its copy number, first scratchpad byte and length, tile waybill, and the filled
granules and dirty bytes by their place in the range. -/
structure Stash where
  num : Nat
  /-- The stores that the car issued before the mapping are numbered below this (R249). -/
  id : Nat := 0
  base : Nat
  len : Nat
  ws : Waybill
  filled : List Nat := []
  dirty : List Nat := []
  /-- Granules whose fill has started (R135, R306). -/
  filling : List Nat := []
deriving DecidableEq, Repr

/-- An engine operation in flight, with its waybills, window map, LSLACK and the car's scratchpad with its
stash mappings as issued (R29, R235, R292, R412). `iter` counts the rows already moved (notes/assumptions/15.md). -/
structure Copy where
  num : Nat
  id : Nat := 0
  op : EngineOp
  /-- Its copy unit (R235, R319). -/
  unit : Fin 2 := 0
  /-- It is empty at this car (R234, R251). -/
  void : Bool := false
  /-- Rows that a COPY_FAULT has reported as performed (R240, R242). -/
  reported : Nat := 0
  ws : Waybill
  wd : Waybill
  flag : FlagIx := ⟨0, by omega⟩
  acq : Bool := false
  rel : Bool := false
  scope : BitVec 2 := 0#2
  lossy : Bool := false
  lslack : BitVec 7 := 4#7
  state : CopyState := .running
  iter : Nat := 0
  issued : Nat := 0
  /-- Stream or place in the group's order of collectives that the number belongs to (R246, R251). -/
  key : Nat := 0
  /-- The accesses that the car issued before the copy are numbered below these (R236). -/
  cid : Nat := 0
  rid : Nat := 0
  spad : Mem := Mem.empty
  stash : List Stash := []
  wmap : Vector (BitVec 10) 16 := Vector.replicate 16 0#10
deriving DecidableEq, Repr

/-- Kind of a range operation (R248). -/
inductive RangeKind where
  | wb | inv | wbinv
deriving DecidableEq, Repr

/-- A range operation in flight: the physical lines it covers (R248). -/
structure RangeOp where
  id : Nat
  kind : RangeKind
  lo : Nat
  hi : Nat
  flag : FlagIx
  issued : Nat
  /-- The acquires of earlier bundles are numbered below these (R296). -/
  cid : Nat := 0
  rid : Nat := 0
deriving DecidableEq, Repr

/-- An unmapping under way (R250): the dirty bytes still to be written to the tile. -/
structure Unmap where
  num : Nat
  id : Nat := 0
  flag : FlagIx
  ws : Waybill
  bytes : List (Nat × Byte)
  /-- Places of those that are poisoned (R455). -/
  poison : List Nat := []
  /-- An address of the tile that the engine could not write raised COPY_FAULT; CRES lets it go on (R241, R318). -/
  faulted : Bool := false
deriving DecidableEq, Repr

/-- A posted write on its way (R309, R310): window, units, target core, scratchpad bytes. `consist` and `since` name the
car that held the core at issue (R26): its consist and the cycle of that consist's release. `stamp` numbers the bundle.
A part that WALn keeps waiting has not been sent (R181). -/
structure Posted where
  id : Nat
  window : Nat
  units : Nat
  core : BitVec 9
  addr : Nat
  bytes : List (Nat × Byte)
  issued : Nat
  consist : BitVec 32 := 0#32
  since : Nat := 0
  stamp : Nat := 0
  sent : Bool := true
  /-- The allowance of its window as the store found it (R159, R309). -/
  wal : Nat := 0
deriving DecidableEq, Repr

/-- What a release of a car carries: a flag post or an arrival at a barrier (R259, R260). -/
inductive Sent where
  | flag (car : BitVec 9) (f : FlagIx) (n : Nat)
  | arrival (b : Fin 8)
deriving DecidableEq, Repr

/-- A release on its way: it reaches its flag or barrier once the car's earlier accesses have performed (R259), which are
those numbered below `cid` in the car and below `rid` in the fabric. -/
structure Release where
  sent : Sent
  cid : Nat
  rid : Nat
  issued : Nat
deriving DecidableEq, Repr

/-- Where an access goes (R290). -/
inductive Target where
  | spad (off : Nat)
  | imem (off : Nat)
  | peer (window : Nat) (core : BitVec 9) (off : Nat)
  | hbm (pa : Nat) (sm : Bool)
  | host (pa : Nat)
  | remote (pa : BitVec 52) (c : Bool)
  | nowhere
deriving DecidableEq, Repr

/-- A store, or the access of a release atomic, that the car's store queue holds (R291, R312): what it does at which place and handle
address, from which cycle on, the cycle of its bundle, the producer that it fills, and whether it is an acquire. -/
structure Queued where
  id : Nat
  target : Target
  ha : Word
  bytes : List Byte
  atomic : Option (AtomicOp × Word × Word) := none
  flight : Option Nat := none
  acquire : Bool := false
  stamp : Nat
  ready : Nat
  /-- The virtual page of the handle it used, and its size (R415). -/
  vpage : Nat := 0
  vsize : Nat := 0x10000
deriving DecidableEq, Repr

/-- A TLB entry: the page's first address, its size and its leaf (R317, R319). -/
structure TlbEntry where
  page : Nat
  size : Nat
  leaf : Word
deriving DecidableEq, Repr

/-- A walk that an XLT started (R152): address, rights wanted, the cycle of its start and how it ended. -/
inductive Walk where
  | none
  | running (va : Word) (since : Nat)
  | faulted (va : Word)
deriving DecidableEq, Repr

/-- The beat that opens a window: the coupling domain and the line over which light comes, if any does, its CCYC, and how many
streams drive it (R111). -/
structure Opener where
  src : Option (Nat × Ix16) := none
  ccyc : Nat := 0
  count : Nat := 0
deriving DecidableEq, Repr

/-- An open window of a column group (R106, R107): beats so far, the sums of its 128 receivers (row by row), the row
exponents, the cycle of its last beat, and what its report will say. -/
structure Window where
  beats : Nat := 0
  sums : List Int := []
  rowExp : List Int := []
  last : Nat := 0
  void : Bool := false
  line : Bool := false
  laser : Bool := false
  skew : Bool := false
  wsat : Bool := false
  remap : Bool := false
  /-- CCYCs of the beats that came over the line of its first, latest first (R97). -/
  ccycs : List Nat := []
  opener : Opener := {}
deriving DecidableEq, Repr

/-- A column group of the array (R113, R213): gain, open window, and the last closed window's codes, gain, exponents
and cycle of close. -/
structure Group where
  gain : Nat := 0
  win : Option Window := none
  codes : List Int := List.replicate 128 0
  cgain : Nat := 0
  rowExp : List Int := List.replicate 32 0
  groupExp : Int := 0
  closed : Option Nat := none
  /-- How the window of the last close had opened. -/
  opener : Opener := {}
deriving DecidableEq, Repr

/-- A report, the cycle from which MREP may read it (R119), and the CCYCs of the beats of its windows, with their coupling domain and
line (R97). -/
structure Report where
  word : Word
  ready : Nat
  ccycs : List Nat := []
  src : Option (Nat × Ix16) := none
deriving DecidableEq, Repr

/-- Calibration of the array (R225, R439, R440): requested by MCAL (until it ends) or forced, the cycle a running one ends, the cycle at
which the age was 0, progress of a pending periodic calibration, and staleness. -/
structure Cal where
  requested : Bool := false
  ends : Option Nat := none
  zero : Nat := 0
  periodic : Option Nat := none
  forced : Bool := false
  skew : Bool := false
deriving DecidableEq, Repr

/-- The optical array (R213). -/
structure Arr where
  line : Option Ix16 := none
  split : Bool := false
  groups : Vector Group 16 := Vector.replicate 16 {}
  queue : List Report := []
  seq : BitVec 16 := 0#16
  ovf : Bool := false
  remap : Bool := false
  /-- Cycle of the last MBT (R439). -/
  beat : Option Nat := none
  cal : Cal := {}
deriving DecidableEq, Repr

/-- The engines of a car. -/
structure Engines where
  copies : List Copy := []
  ranges : List RangeOp := []
  stash : List Stash := []
  unmaps : List Unmap := []
  posted : List Posted := []
  releases : List Release := []
  /-- The store queue (R291). -/
  queue : List Queued := []
  /-- The core's TLBs (R319): of XLT, and of its two copy units. The cars of a merged core hold the same. -/
  tlb : List TlbEntry := []
  copyTlb : Vector (List TlbEntry) 2 := Vector.replicate 2 []
  walk : Walk := .none
  /-- Collectives issued on each group so far (R251). -/
  colls : Tab Nat := []
  /-- Number of the next engine operation without a copy number, posted write or producer. -/
  nextId : Nat := 0
deriving DecidableEq, Repr

/-- Where the car stands (R271, R273): its coupling slots with the lines they have, the coupling domain, whether MUNC
has taken it out, and whether it belongs to a speculation (R385). -/
structure Place where
  couples : List (Fin 16 × Ix16) := []
  domain : Option Nat := none
  munc : Bool := false
  spec : Bool := false
  secondary : Bool := false
deriving DecidableEq, Repr

/-- One car. -/
structure Car where
  ident : Ident := {}
  regs : Regs := {}
  marks : Marks := {}
  ctl : Ctl := {}
  loop : Loop := {}
  late : List LateWrite := []
  flight : List Flight := []
  units : Units := {}
  pc : BitVec 17 := 0#17
  /-- Address right after the bundle being issued, or issued last (R141): up to 0x2_0000. It is 0 once the next fetch is
  another one. -/
  seqPc : Word := 0#64
  /-- The bundle being issued holds a taken branch (R262). -/
  taken : Bool := false
  tr : TrapState := {}
  /-- The count that a YWAIT of this cycle has taken at issue; the posts of the cycle come before it (R28). -/
  took : Option (FlagIx × BitVec 16) := none
  /-- Waits that hold the next bundle; a bundle can start one in its S slot and one in its Y slot. -/
  wait : List Wait := []
  /-- First cycle of the next issue attempt (R258, R322). -/
  ready : Nat := 0
  /-- Cycle of the last issue, and the cycle in which the bundle that waits first stood at issue (R322). -/
  lastIssue : Nat := 0
  stood : Option Nat := none
  life : Life := .idle
  spad : Mem := Mem.empty
  imem : Mem := Mem.empty
  eng : Engines := {}
  arr : Arr := {}
  place : Place := {}
  /-- A pre-emption request and its deadline (R331, R333). -/
  preempt : Option Nat := none
  /-- This car has issued, or has been passed over, in the present cycle. -/
  done : Bool := false
deriving DecidableEq, Repr

end Sys2Proof.Machine
end

