-- ==== Sys2Proof/Machine/DeviceState.lean ====
section
/-!
DEFINITION. What the package holds beside its cars: memory and coherence (spec 11), lines (05, 19), the Signal box
(14), the Distant (15), the fabric (16), and the long-lived state (19, 20). All of it is plain data.
-/
namespace Sys2Proof.Machine

/-- An image as the linker made it (R87, R363), keyed by the VA at which it stands; its file layout is not in the spec
(notes/assumptions/9.md). -/
structure Image where
  id : BitVec 32
  va : Word
  /-- Bytes that its table entry gives it (R363). -/
  size : Nat := 0
  entry : BitVec 17 := 0#17
  consist : Nat := 1
  classes : BitVec 3 := 7#3
  /-- `.couple first..last, slot`. -/
  couples : List (Nat × Nat × Fin 16) := []
  handles : Nat := 0
  flags : List (FlagIx × BitVec 16) := []
  /-- `.park`: address, live mask, bank. -/
  parks : List (BitVec 17 × Word × BitVec 8) := []
  specMask : Option Word := none
  background : Bool := false
  /-- The image holds an M slot (R283). -/
  optical : Bool := false
  code : List Byte := []
  data : List Byte := []
deriving DecidableEq, Repr

/-- A buffer handle table entry (R364). -/
structure Bht where
  base : Word := 0#64
  len : BitVec 40 := 0#40
  sm : Bool := false
  v : Bool := false
  lastw : Word := 0#64
deriving DecidableEq, Repr

/-- Predictor history of a queue (R380). `hist` has E, s[30:0] and the image id of the last 8 services. -/
structure History where
  lseq : BitVec 32 := 0#32
  valid : Bool := false
  conf : BitVec 2 := 0#2
  lrec : List Word := List.replicate 16 0#64
  larg : List Word := List.replicate 8 0#64
  strideA : List Word := List.replicate 8 0#64
  strideB : List Word := List.replicate 8 0#64
  hist : List Word := List.replicate 8 0#64
deriving DecidableEq, Repr

/-- A hardware slot that holds a queue (R352). -/
structure QSlot where
  q : BitVec 16
  head : BitVec 32
  tail : BitVec 32
  mapped : Nat := 0
  hist : History := {}
  /-- The handle list of LREC; none when it could not be read (notes/assumptions/28.md). -/
  lhs : Option (List (BitVec 12 × BitVec 2)) := some []
  /-- A failed read of the record at the head (R361). -/
  failed : Bool := false
  unmapping : Bool := false
  /-- The queue for which it is unmapped, which takes the slot (R354). -/
  heir : Option (BitVec 16) := none
  /-- The record of which a speculation was last started (R391, R437): none is started for it again. -/
  tried : Option (BitVec 32) := none
deriving DecidableEq, Repr

/-- A consumed service (R362) or a speculated one (R384). -/
structure Service where
  q : BitVec 16
  seq : BitVec 32
  /-- Place in the consumption order (R365). -/
  order : Nat
  record : List Word
  args : List Word := List.replicate 8 0#64
  handles : List (BitVec 12 × BitVec 2) := []
  image : Option Image := none
  /-- Error cause and CARID (R374). -/
  err : Option (BitVec 8 × BitVec 9) := none
  count : Option (BitVec 32) := none
  placed : Nat := 0
  finished : Nat := 0
  dies : List Nat := []
  tstart : Option Word := none
  since : Nat := 0
  /-- Its results are those of a claimed speculation (R395). -/
  claimed : Bool := false
  /-- It has completed, with the range operations of R366 (R374); its record may still wait its turn (R376). -/
  ended : Bool := false
  /-- TEND: global time when it completed (R374, R395). -/
  tend : Word := 0#64
  /-- Class of its record (R371). -/
  pri : BitVec 2 := 0#2
deriving DecidableEq, Repr

/-- The outcomes of a speculation that is not committed (R378). -/
inductive SpecEnd where
  | doomed | missed | yielded
deriving DecidableEq, Repr

/-- A speculation (R385 to R396): its service, watched regions, shadowed granules and their bytes, whether it is adopted,
and why and when its discard began. -/
structure Speculation where
  svc : Service
  watches : List Nat := []
  granules : List Nat := []
  shadow : Mem := Mem.empty
  adopted : Bool := false
  cause : Option (SpecEnd × Nat) := none
deriving DecidableEq, Repr

/-- A placed, parked or force-stopped consist (R269 to R289, R332). -/
structure Consist where
  q : BitVec 16
  seq : BitVec 32
  idx : BitVec 32
  spec : Bool := false
  secondary : Bool := false
  image : Image
  /-- Its cars by CARID. -/
  cars : List CarRef := []
  lines : List (Fin 16 × Ix16) := []
  release : Nat := 0
  released : Bool := false
  /-- CARIDs that have arrived at each barrier (R260). -/
  arrived : Vector (List Nat) 8 := Vector.replicate 8 []
  pri : BitVec 2 := 0#2
  ttset : BitVec 8 := 0#8
  preempt : Option Nat := none
  extended : Bool := false
  /-- Cars as saved by a park or a forced stop. -/
  saved : Option (List Car) := none
  /-- It was stopped by force (R333). -/
  forced : Bool := false
  /-- It was resumed after a park or a forced stop. -/
  resumed : Bool := false
  /-- Cycle of its last release, or of its saving since then (R372). -/
  since : Nat := 0
deriving DecidableEq, Repr

/-- State of a 2 MiB region in the directory (R300). -/
inductive RegionMode where
  | shared
  | private_ (die : Nat)
  | fine
deriving DecidableEq, Repr

/-- A 2 MiB region of the directory (R300): its state, the lines that dies hold of it (line, die, dirty), and the cycle since
which the dies that hold some are the same. -/
structure Region where
  mode : RegionMode := .shared
  lines : List (Nat × Nat × Bool) := []
  since : Nat := 0
deriving DecidableEq, Repr

/-- A die-cache line of an SM page (R303): bytes, dirty-byte mask, poisoned bytes (R455). -/
structure CacheLine where
  die : Nat
  line : Nat
  bytes : Vector Byte 64
  dirty : BitVec 64
  poison : BitVec 64 := 0#64
deriving DecidableEq, Repr

/-- A line stream (R245 to R247). `read` holds the beats read and not yet driven. -/
structure Stream where
  id : Nat
  car : CarRef
  num : Nat
  line : Ix16
  start : Nat
  beats : Nat
  ws : Waybill
  header : List Byte
  domain : Nat
  issuedAt : Nat
  group : Option Nat := none
  nextRead : Nat := 0
  nextBeat : Nat := 0
  read : List (Nat × List Byte) := []
deriving DecidableEq, Repr

/-- What a line carried at a CCYC of a coupling domain (R116): streams that drove it, header and bytes, whether it came
late. -/
structure Drive where
  domain : Nat
  line : Ix16
  ccyc : Nat
  count : Nat
  header : List Byte
  bytes : List Byte
  late : Bool := false
  /-- Late streams counted here whose slots have still to take effect in this cycle. -/
  awaits : Nat := 0
deriving DecidableEq, Repr

/-- What a line's Platform bus carried at a CCYC of a coupling domain (R244). -/
structure BusDrive where
  domain : Nat
  line : Ix16
  ccyc : Nat
  count : Nat
  bytes : List Byte
  car : CarRef := 0
deriving DecidableEq, Repr

/-- A line and its remaps (R441, R442). -/
structure LineState where
  sp0 : BitVec 6 := 0x3F#6
  sp1 : BitVec 6 := 0x3F#6
  pend : List Nat := []
  failed : List Nat := []
  remaps : BitVec 16 := 0#16
  /-- Row and end of the remap that runs. -/
  running : Option (Nat × Nat) := none
  /-- It came up with DEGRADED = 1, after step 5 of the start or after step 7 (R457). -/
  broken : Bool := false
  cut : Bool := false
  /-- Its base circuit is suspended (R405). -/
  suspended : Bool := false
deriving DecidableEq, Repr

/-- A laser module (R443). -/
structure Laser where
  hours : BitVec 32 := 0#32
  bias : BitVec 16 := 0#16
  bias0 : BitVec 16 := 0#16
  drift : BitVec 16 := 0#16
  temp : BitVec 16 := 0#16
  eol : BitVec 32 := 0xFFFFFFFF#32
  /-- Readings of the last 1,000 powered hours: hours and bias (R445). -/
  hist : List (Nat × Nat) := []
  ctl : Word := 0x40000000012C0096#64
  power : List (BitVec 16) := List.replicate 34 0x7FFF#16
deriving DecidableEq, Repr

/-- Counters of a lane (R446). -/
structure Lane where
  prefec : BitVec 48 := 0#48
  corrSym : BitVec 48 := 0#48
  uncorr : BitVec 48 := 0#48
  replay : BitVec 48 := 0#48
  remap : BitVec 48 := 0#48
  /-- Errors of the last ms: cycle, corrected symbols, uncorrectable codewords (R447). -/
  recent : List (Nat × Nat × Nat) := []
deriving DecidableEq, Repr

/-- A flit in a replay buffer (R407): its sequence number and the package that its packet goes to. -/
structure Flit where
  seq : BitVec 12
  pkg : Nat := 0
deriving DecidableEq, Repr

/-- A key slot of a port in one direction (R418): is a key installed, and the counter value that its next packet uses. -/
structure KeySlot where
  key : Bool := false
  counter : Word := 0#64
deriving DecidableEq, Repr

/-- A fabric port (R406 to R410, R418, R446 to R448). -/
structure Port where
  csymThr : BitVec 16 := 4096#16
  uncThr : BitVec 16 := 1#16
  flane : BitVec 6 := 0#6
  failed : BitVec 34 := 0#34
  active : Nat := 32
  /-- Spare lanes that carry nothing and have not failed. -/
  free : List Nat := [32, 33]
  /-- Lanes failed and not yet remapped or retired. -/
  failing : List Nat := []
  retrain : Option Nat := none
  down : Bool := false
  lanes : Tab Lane := []
  txSeq : BitVec 12 := 0#12
  replay : List Flit := []
  rxNext : BitVec 12 := 0#12
  awaiting : Bool := false
  /-- Uncorrectable codewords that have still to meet a flit, by lane, and failed tags, as lane 34 (R406, R418). -/
  spoiled : List Nat := []
  /-- The key slots toward the fibre and from it, and the slot that packets sent name (R418). -/
  tx : Vector KeySlot 2 := Vector.replicate 2 {}
  rx : Vector KeySlot 2 := Vector.replicate 2 {}
  txSlot : Fin 2 := 0
deriving DecidableEq, Repr

/-- A group table entry (R419). -/
structure GroupEntry where
  words : Vector Word 8 := Vector.replicate 8 0#64
  staged : Vector Word 8 := Vector.replicate 8 0#64
  plist : List Nat := []
  busy : Bool := false
  /-- A commit that waits for the collectives of the old entry: words and package list (R421). -/
  pending : Option (Vector Word 8 × List Nat) := none
deriving DecidableEq, Repr

/-- A forwarding entry (R416). -/
structure Fwd where
  new : BitVec 52 := 0#52
  v : Bool := false
  done : Bool := false
  old : BitVec 24 := 0#24
  len : BitVec 16 := 0#16
deriving DecidableEq, Repr

/-- A migration under way (R416): entry, lines copied. -/
structure Migration where
  entry : Nat
  src : Nat
  dst : Nat
  lines : Nat
  next : Nat
deriving DecidableEq, Repr

/-- What a request to another package does (R414). -/
inductive RemoteOp where
  | load (size : Nat) (signed : Bool)
  | store (bytes : List Byte)
  | atomic (op : AtomicOp) (b cmp : Word)
  /-- Parts of a vector register or mask (first byte there, displacement at the target, bytes), and how many bits a mask keeps. -/
  | vload (parts : List (Nat × Nat × Nat)) (bits : Nat)
deriving DecidableEq, Repr

/-- A request to another package (R414): issuing car, its producer, RMT address. -/
structure Remote where
  id : Nat
  car : CarRef
  flight : Option Nat
  ha : Word
  pa : BitVec 52
  op : RemoteOp
  confidential : Bool := false
  /-- The virtual page of the handle it used, and its size (R415). -/
  vpage : Nat := 0
  vsize : Nat := 0x10000
  /-- The bundle it is of (R184, R291); an acquire (R295); the first cycle at which it may perform (R312). -/
  stamp : Nat := 0
  acquire : Bool := false
  ready : Nat := 0
  /-- It stood behind a port that failed, and follows ESC routes from then on (R410). -/
  esc : Bool := false
deriving DecidableEq, Repr

/-- A lossy transfer (R411, R412): blocks, those that arrived, the end marker's cycle, its close. -/
structure Lossy where
  car : CarRef
  num : Nat
  blocks : Nat
  /-- The blocks with an off-package hop, and the package at its other end; no other block can be lost. -/
  crosses : List (Nat × Nat) := []
  arrived : List Nat := []
  /-- Blocks that the fabric has lost. -/
  lost : List Nat := []
  marker : Option Nat := none
  /-- The block count that the end marker carried (R411). -/
  count : Option Nat := none
  closed : Bool := false
deriving DecidableEq, Repr

/-- A lossy transfer that another package issues into this one's memory (R412): its name there, address and length of its blocks,
those that arrived, the end marker's cycle, LSLACK of the issuing car. -/
structure Foreign where
  pkg : Nat
  id : Nat
  blocks : List (Nat × Nat)
  arrived : List Nat := []
  marker : Option Nat := none
  lslack : BitVec 7 := 4#7
deriving DecidableEq, Repr

/-- One rank's part in a collective (R251): its car when it is of this package, count, type, class, the elements of its source
and the poisoned bytes of those that have some, by index (R455); is it present, and has its source been read? -/
structure Contribution where
  rank : Nat
  car : Option CarRef := none
  op : EngineOp
  count : Nat
  type : BitVec 4
  lossy : Bool
  data : List Word := []
  poison : List (Nat × BitVec 8) := []
  present : Bool := true
  ready : Bool := true
  /-- Its rank's collective has closed: the ranks that it was sent to, and no others get it (R423); none while it is open. -/
  reach : Option (List Nat) := none
deriving DecidableEq, Repr

/-- A block of CRDX that its owner has closed (R423, R455): the owner, the block, its result, how many contributions were present,
and which indices are poisoned. -/
structure Reduced where
  owner : Nat
  block : Nat
  vals : List Word
  count : Nat
  marks : List Nat := []
deriving DecidableEq, Repr

/-- What the ranks of a collective send to other packages (R422 to R424): a notice of issue, the part of one rank for another, the
result of a block that its owner has closed. -/
inductive CollMsg where
  | issue (rank count : Nat) (lossy : Bool)
  | part (rank to' block : Nat) (data : List Word)
  | result (to' block count : Nat) (vals : List Word)
deriving DecidableEq, Repr

/-- The k-th collective on a group (R251). -/
structure Coll where
  group : Nat
  k : Nat
  parts : List Contribution := []
  /-- The blocks of CRDX that are closed, and the ranks of this package that a closed block has reached, by rank and block (R423). -/
  closed : List Reduced := []
  blocks : List (Nat × Nat) := []
  /-- Arrival at a rank of the first end marker of a contribution (R423). -/
  markers : List (Nat × Nat) := []
  /-- Arrival at a rank of the first end marker of the final stage (R424). -/
  finals : List (Nat × Nat) := []
  /-- What has been sent to other packages. -/
  sent : List CollMsg := []
  /-- Notices of issue of ranks on other packages: rank, count, lossy (R422). -/
  notices : List (Nat × Nat × Bool) := []
deriving DecidableEq, Repr

/-- A multicast packet whose copy for this package's subscribers is still on its way (R421): group, bytes, and the beat that it
brings when this package drove it. -/
structure McPacket where
  group : Nat
  bytes : List Byte
  beat : Option Nat := none
deriving DecidableEq, Repr

/-- A frame that arrived for the subscribers of a group (R425): beat and bytes. -/
structure Frame where
  group : Nat
  beat : Nat
  bytes : List Byte
deriving DecidableEq, Repr

/-- The debug block of a core (R335). -/
structure Debug where
  ctl : BitVec 13 := 0#13
  stat : BitVec 10 := 0#10
  pc : BitVec 17 := 0#17
  ibp : Vector (BitVec 17) 4 := Vector.replicate 4 0#17
  wpa : Vector Word 2 := Vector.replicate 2 0#64
  wpc : Vector (BitVec 11) 2 := Vector.replicate 2 0#11
  /-- A breakpoint or watchpoint matched, and the halt waits for its boundary (R336, R338). -/
  hit : Bool := false
  /-- A bundle has issued or trapped since the step began (R336). -/
  stepped : Bool := false
  /-- The address of that bundle (R328). -/
  stepPc : BitVec 17 := 0#17
deriving DecidableEq, Repr

/-- Registers of the host link chapter (R350). -/
structure HostRegs where
  enable : Bool := false
  ptRoot : BitVec 52 := 0#52
  prdl : BitVec 32 := 200#32
  imgtabBase : Word := 0#64
  imgtabLen : BitVec 17 := 0#17
  qtabBase : Word := 0#64
  mboxBase : BitVec 52 := 0#52
  classMin : BitVec 32 := 0x10101010#32
  classAge : BitVec 32 := 10000#32
  saveBase : BitVec 52 := 0#52
  saveLen : BitVec 40 := 0#40
  preWait : BitVec 32 := 50#32
  devStat : BitVec 8 := 0#8
deriving DecidableEq, Repr

/-- Registers of the Distant and the Siding (R378). -/
structure SpecRegs where
  ctl : BitVec 8 := 0x80#8
  base : BitVec 52 := 0#52
  len : BitVec 35 := 0x100000000#35
  used : Nat := 0
  start : Word := 0#64
  hit : Word := 0#64
  miss : Word := 0#64
  doomed : Word := 0#64
  yield : Word := 0#64
deriving DecidableEq, Repr

/-- Registers of the fabric chapter (R400). -/
structure FabRegs where
  pkgId : BitVec 10 := 0#10
  fabStat : BitVec 8 := 0#8
  invAddr : Word := 0#64
  invIssued : BitVec 32 := 0#32
  invDone : BitVec 32 := 0#32
  migSrc : BitVec 40 := 0#40
  migDst : BitVec 52 := 0#52
  migErr : Bool := false
  ttBase : Word := 0#64
  ttLen : BitVec 8 := 0#8
deriving DecidableEq, Repr

/-- A Timetable record (R403). -/
structure TtRecord where
  junction : Nat
  port : Nat
  slot : Nat
  circuit : Nat
  input : Nat := 0
deriving DecidableEq, Repr

/-- A circuit descriptor (R403): source and destination socket, latency in cycles, slots per frame. -/
structure TtCircuit where
  src : Nat
  dst : Nat
  latency : Nat
  slots : Nat
deriving DecidableEq, Repr

/-- A Timetable set (R403): records, circuits by number, the alternate set's number. -/
structure TtSet where
  records : List TtRecord
  circuits : List TtCircuit := []
  alt : BitVec 8
deriving DecidableEq, Repr

/-- A loaded set (R404, R405): its number, the number by which consists name it, and what was loaded. -/
structure LoadedSet where
  n : BitVec 8
  serves : BitVec 8
  set : TtSet
deriving DecidableEq, Repr

/-- The fabric agent (spec 16). -/
structure Fabric where
  regs : FabRegs := {}
  route : Tab (BitVec 24) := []
  groups : Tab GroupEntry := []
  fwd : Tab Fwd := []
  ports : Tab Port := []
  invQ : List (Nat × Nat) := []
  mig : Option Migration := none
  /-- Addresses known to have moved: old line and new line (R417). -/
  moved : List (Nat × Nat) := []
  /-- Ranges of this package's HBM, first address and the one after the last, whose forwarding entry was cleared (R417). -/
  gone : List (Nat × Nat) := []
  sets : List LoadedSet := []
  suspended : List (BitVec 8) := []
  /-- On-package links that are down (R410). -/
  linksDown : List (Nat × Nat) := []
  remote : List Remote := []
  lossy : List Lossy := []
  foreign : List Foreign := []
  colls : List Coll := []
  packets : List McPacket := []
  frames : List Frame := []
  nextId : Nat := 0
deriving DecidableEq, Repr

/-- Stage of a firmware update session (R459). -/
inductive UpdateStage where
  | idle | learn | ready | download | verify | apply | activate
deriving DecidableEq, Repr

/-- Firmware images and the update agent (R459 to R461). -/
structure Firmware where
  active : Bool := false
  validA : Bool := true
  validB : Bool := true
  pending : Bool := false
  fellBack : Bool := false
  version : BitVec 16 := 0#16
  inactiveVersion : BitVec 16 := 0#16
  stage : UpdateStage := .idle
  /-- The bytes of the images (R459), which the measurements cover (R462). -/
  imageA : List Byte := []
  imageB : List Byte := []
deriving DecidableEq, Repr

/-- What the device sends to the outside. -/
inductive Output where
  | msix (v : BitVec 11)
  | mgmt (x : Option Word)
  | pldm (code : BitVec 8)
  | spdm (request : BitVec 8) (x : List Word)
  | packet (port : Nat) (bytes : List Byte)
  | flit (port : Nat) (seq : BitVec 12)
  | replay (port : Nat) (seq : BitVec 12)
  /-- A packet under a key leaves a port: the slot it names and the counter of its nonce (R418). -/
  | sealed (port : Nat) (slot : Fin 2) (counter : Word)
  /-- A message of the k-th collective of a group (R422 to R424). -/
  | coll (group k : Nat) (x : CollMsg)
  /-- The completion notice of a transfer of another package, with its mask (R412). -/
  | notice (pkg id : Nat) (mask : List Bool)
  /-- The answers to a request of another package: bytes, MOVED with the new address of the line, an error response (R414, R417). -/
  | reply (pkg id : Nat) (bytes : List Byte)
  | moved (pkg id : Nat) (line : Nat)
  | refused (pkg id : Nat)
  /-- The reading of a PLDM sensor (R450). -/
  | sensor (x : Word)
  | fatal (step : Nat)
deriving DecidableEq, Repr

/-- A PLDM sensor (R450): of a laser module its temperature, bias, the power of a comb line, its estimate of end of life, LAS_STAT; of
a port a counter of a lane, UP; of a line DEGRADED; the offset from the pod time base. -/
inductive Sensor where
  | temp (m : Fin 24)
  | bias (m : Fin 24)
  | power (m : Fin 24) (c : Fin 34)
  | eol (m : Fin 24)
  | lasStat (m : Fin 24)
  | lane (p : Fin 128) (l : Fin 34) (counter : Fin 5)
  | up (p : Fin 128)
  | degraded (l : Fin 16)
  | offset
deriving DecidableEq, Repr

/-- An uncorrectable error in storage beside HBM and the memories of a car (R454): bytes of a die-cache line, the directory's entry of a
line, bytes that a replay buffer holds for another package, the Siding's of a speculation, an entry that the Roundhouse reloads, the
parity of a scalar register, which fails once or again. -/
inductive Strike where
  | dieCache (die line : Nat) (mask : BitVec 64)
  | directory (pa : Nat)
  | replay (pa n : Nat)
  | siding (q : BitVec 16) (seq : BitVec 32) (pa n : Nat)
  | entry
  | parity (c : CarRef) (r : Fin 72) (again : Bool)
deriving DecidableEq, Repr

/-- The condition of the hardware that the start-up steps find (R457): the dies, lines, ports and base circuits that fail their tests, the
outcome of the steps as START_REC codes, and whether a die reports another serial number. It comes from outside
(notes/assumptions/13.md). -/
structure Condition where
  failDies : List Nat := []
  failLines : List (Fin 16) := []
  failPorts : List (Fin 128) := []
  failCircuits : List (Fin 16) := []
  steps : BitVec 18 := 0x15555#18
  newSerial : Bool := false
deriving DecidableEq, Repr

/-- The Roundhouse's long-lived state (spec 20). -/
structure House where
  harv : Vector Word 21 := (Vector.replicate 20 0xFFFF#64).push 0#64
  short : Bool := false
  startRec : BitVec 49 := 0x100015555#49
  recordsValid : Bool := true
  errCe : Word := 0#64
  errUe : Word := 0#64
  errAddr : BitVec 52 := 0#52
  hold : Bool := false
  denied : BitVec 16 := 0#16
  cap : BitVec 12 := 2600#12
  overCap : Bool := false
  pacex : Nat := 0
  thrp : Nat := 0
  power : BitVec 12 := 0#12
  calctl : BitVec 32 := 0x420032#32
  lostCnt : BitVec 16 := 0#16
  lost : Bool := false
  sync : Bool := false
  offset : BitVec 32 := 0#32
  fw : Firmware := {}
  /-- The least security version that the fuses allow (R457). -/
  fuse : BitVec 16 := 0#16
  spdm : Nat := 0
  cond : Condition := {}
deriving DecidableEq, Repr

/-- The Signal box (spec 14). -/
structure Signal where
  regs : HostRegs := {}
  slots : Tab QSlot := []
  /-- Queues that ask for a slot (R353, R354). -/
  wanted : List (BitVec 16) := []
  bht : Tab Bht := []
  /-- Handle table writes that are held (R364): entry, word, value. -/
  held : List (Nat × Nat × Word) := []
  services : List Service := []
  consists : List Consist := []
  /-- Services consumed so far (R365). -/
  order : Nat := 0
  /-- Queues in the order in which they were last served (R370). -/
  turn : List (BitVec 16) := []
  images : List Image := []
  /-- The image that the instruction memory of each car's core holds (R269). -/
  loaded : Tab (BitVec 32) := []
  spec : SpecRegs := {}
  specs : List Speculation := []
  /-- Committed services whose shadow pages are still being copied back, with their bytes (R394). -/
  backs : List (BitVec 16 × BitVec 32 × Nat) := []
deriving DecidableEq, Repr

/-- The package beside its cars. -/
structure Device where
  now : Nat := 0
  tbase : Nat := 0
  /-- Correction of the counter in ns (R314): done before, and the one that runs: from which cycle, by how much. -/
  slewed : Int := 0
  slewFrom : Nat := 0
  slewBy : Int := 0
  mem : Mem := Mem.empty
  remote : Mem := Mem.empty
  cache : List CacheLine := []
  regions : Tab Region := []
  lines : Vector LineState 16 := Vector.replicate 16 {}
  lasers : Vector Laser 24 := Vector.replicate 24 {}
  streams : List Stream := []
  drives : List Drive := []
  bus : List BusDrive := []
  sig : Signal := {}
  fab : Fabric := {}
  house : House := {}
  debug : Tab Debug := []
  outbox : List Output := []
  nextId : Nat := 0
  /-- Bytes of HBM with an uncorrectable error that no access and no scrubbing has met yet (R455). -/
  latent : List Nat := []
  /-- Cycle of the last scrubbing (R455). -/
  scrubbed : Nat := 0
  /-- The calibration of an array that idles since the start, as it stood at the last write of CAL_CTL, and when that was (R439). -/
  idle : Cal := {}
  idleAt : Nat := 0
  /-- Images that SNAPST has stored, with the class of the core (R162). -/
  snaps : List (CoreClass × Vector Word 128) := []
deriving DecidableEq, Repr

end Sys2Proof.Machine
end

