-- ==== Sys2Proof/Machine/State.lean ====
section
/-!
DEFINITION. The machine's state: a car in focus, its peers, the package beside them, and what is still to reach the
package from outside. While a bundle issues, `old` holds what its slots read (spec 04 R89, 11 R291).
-/
namespace Sys2Proof.Machine

/-- What the outside world does next (notes/assumptions/5.md). -/
inductive Input where
  /-- An event of the opcode table. -/
  | event (i : Instr)
  /-- An agent beside the cars writes bytes to physical memory (host or HBM), or another package to its own. -/
  | write (pa : Nat) (bytes : List Byte)
  | remoteWrite (pa : Nat) (bytes : List Byte)
  /-- Bytes of HBM or host memory are poisoned; bytes of HBM get an uncorrectable error that nobody has met yet. -/
  | poison (pa n : Nat)
  | latent (pa n : Nat)
  /-- An uncorrectable error in a car's scratchpad, instruction memory or registers (R454). -/
  | spadPoison (c : CarRef) (a n : Nat)
  | imemPoison (c : CarRef) (a n : Nat)
  | regPoison (c : CarRef) (d : Dest)
  /-- An uncorrectable error in other storage (R454). -/
  | strike (x : Strike)
  /-- The Soson controller reads a sensor (R450). -/
  | sensor (x : Sensor)
  /-- Correctable errors of a field of ERR_CE (R456). -/
  | corrected (field : Fin 4)
  /-- An image is put at a VA. -/
  | image (x : Image)
  /-- The part of a rank on another package in the k-th collective of a group, with the rank count and the queue that it
  names (R420, R422). -/
  | contribution (group k ranks : Nat) (queue : BitVec 16) (x : Contribution)
  /-- A key is installed in a slot of a port, toward the fibre or from it (R418). -/
  | key (port : Fin 128) (rx : Bool) (slot : Fin 2)
  /-- An encrypted packet arrives, which names a slot; its tag is good or not (R418). -/
  | sealed (port : Fin 128) (slot : Fin 2) (good : Bool)
  /-- The fabric loses a block of a lossy transfer of a car (R411). -/
  | lostBlock (c : CarRef) (n b : Nat)
  /-- Another package opens a lossy transfer into this one's memory; one of its blocks arrives intact; its end marker arrives (R412). -/
  | foreign (x : Foreign)
  | foreignBlock (pkg id b : Nat) (bytes : List Byte)
  | foreignMarker (pkg id : Nat)
  /-- Another package's request to this one's memory (R414, R417). -/
  | request (pkg id pa : Nat) (op : RemoteOp)
  /-- Errors that the receiver of a lane sees: bits before FEC, symbols, codewords, replay requests (R446). -/
  | laneErrors (port : Fin 128) (lane prefec corr unc replays : Nat)
  /-- TS_STAT.OFFSET (R449). -/
  | offset (x : BitVec 32)
  /-- What the tests of a start will find (R457). -/
  | condition (x : Condition)
deriving DecidableEq, Repr

/-- The machine. -/
structure State where
  /-- The car in focus: what a slot instruction acts on. -/
  car : Car := {}
  /-- The other resident cars. -/
  peers : List Car := []
  dev : Device := {}
  /-- The focused car and the package as they stood when the bundle in issue began; none outside a bundle. -/
  old : Option (Car × Device) := none
  inbox : List Input := []
  /-- Counter of free values (notes/assumptions/7.md). No statement rests on its value at reset. -/
  fresh : Nat := 0
deriving DecidableEq, Repr

/-- The machine stops with a fault. No instruction raises it: every cause of the spec is a trap, a doom or an error
response, which are next states. -/
inductive Fault where
  /-- Raised by nobody; kept so that the type says what a stop would be. Safe. -/
  | stuck
deriving DecidableEq, Repr

/-- No meaning. -/
inductive Refusal where
  /-- An arm of `exec` without a meaning. Safe: nothing can be proved about such a step. -/
  | notModelled (mnemonic : String)
deriving DecidableEq, Repr

/-- Core 0's car, before any service is placed on it (notes/assumptions/1.md): idle, with the values that R12, R33 and
R213 give at release where they give one. -/
def Car.reset : Car := { place := { couples := [] } }

/-- The package after a start in which every step passed (R457), with nothing placed. -/
def Device.reset : Device := {}

/-- The machine right after reset. -/
def State.reset : State := { car := Car.reset, dev := Device.reset }

end Sys2Proof.Machine
end

