-- ==== Sys2Proof/Machine/Access.lean ====
section
/-!
DEFINITION. Physical memory as cars and engines reach it: address decoding (spec 11 R468, 16 R399), page tables and
TLBs (12 R316 to R320), die caches of software-managed pages (11 R302 to R305), the coherence directory (R300), shadow
pages of speculations (15 R386) and stash granules (11 R306 to R308).
-/
namespace Sys2Proof.Machine

/-! Pages that have moved (16 R416, R417). -/

/-- First byte and length of the range of a forwarding entry. -/
def Fwd.lo (e : Fwd) : Nat := e.old.toNat * 0x10000
def Fwd.size (e : Fwd) : Nat := (e.len.toNat + 1) * 0x10000

/-- The entry's range holds an address. -/
def Fwd.covers (e : Fwd) (a : Nat) : Bool := decide (e.lo ≤ a ∧ a < e.lo + e.size)

/-- The line at an address of entry `i` has been copied. -/
def Device.copied (d : Device) (i : Nat) (e : Fwd) (a : Nat) : Bool :=
  e.done || (match d.fab.mig with
    | some m => m.entry == i && decide ((a - e.lo) / 64 < m.next)
    | none => false)

/-- Where the byte of an HBM address of this package is: here, in another package (true), or nowhere, when its entry was
cleared. -/
def Device.whereIs (d : Device) : Nat → Nat → Option (Bool × Nat)
  | 0, _ => none
  | n + 1, a =>
    match d.fab.fwd.find? (fun x => x.2.v && x.2.covers a) with
    | some x =>
      if d.copied x.1 x.2 a then
        let y := x.2.new.toNat + (a - x.2.lo)
        if y / 2 ^ 42 = d.fab.regs.pkgId.toNat then d.whereIs n (y % 2 ^ 42) else some (true, y)
      else some (false, a)
    | none => if d.fab.gone.any (fun g => decide (g.1 ≤ a ∧ a < g.2)) then none else some (false, a)

/-- A byte of this package's HBM. -/
def Device.hbmByte (d : Device) (a : Nat) : Byte :=
  if d.fab.fwd.isEmpty then d.mem.read a
  else match d.whereIs 257 a with
    | some (false, b) => d.mem.read b
    | some (true, b) => d.remote.read b
    | none => 0#8

/-- Is a byte of this package's HBM poisoned? -/
def Device.hbmPoison (d : Device) (a : Nat) : Bool :=
  if d.fab.fwd.isEmpty then d.mem.poisoned a || d.latent.contains a
  else match d.whereIs 257 a with
    | some (false, b) => d.mem.poisoned b || d.latent.contains b
    | some (true, b) => d.remote.poisoned b
    | none => false

/-- An address of this package's HBM whose entry was cleared answers with an error response. -/
def Device.hbmGone (d : Device) (a : Nat) : Bool := !d.fab.fwd.isEmpty && (d.whereIs 257 a).isNone

/-- Write one byte of this package's HBM, poisoned or not. -/
def Device.hbmPut (d : Device) (a : Nat) (b : Byte) : Device :=
  match d.whereIs 257 a with
  | some (false, x) => { d with mem := d.mem.write x [b], latent := d.latent.filter (· != x) }
  | some (true, x) => { d with remote := d.remote.write x [b] }
  | none => d

/-- Write bytes of this package's HBM. -/
def Device.hbmWrite (d : Device) (a : Nat) (bs : List Byte) : Device :=
  if d.fab.fwd.isEmpty then { d with
    mem := d.mem.write a bs
    latent := d.latent.filter (fun x => decide (x < a ∨ a + bs.length ≤ x)) }
  else bs.zipIdx.foldl (fun d p => d.hbmPut (a + p.2) p.1) d

/-- Mark one byte of this package's HBM poisoned. -/
def Device.hbmSpoil (d : Device) (a : Nat) : Device :=
  match (if d.fab.fwd.isEmpty then some (false, a) else d.whereIs 257 a) with
  | some (false, x) => { d with mem := d.mem.setPoison x 1 }
  | some (true, x) => { d with remote := d.remote.setPoison x 1 }
  | none => d

/-! Errors (R454 to R456). -/

/-- One more in field `k` of a counter of four fields, which saturate. -/
def bumpField (x : Word) (k : Nat) : Word :=
  if x.extractLsb' (16 * k) 16 = 0xFFFF#16 then x else x + (1#64 <<< (16 * k))

/-- Count an uncorrectable event in HBM (R456). -/
def Device.countUe (d : Device) (pa : Nat) : Device :=
  { d with house := { d.house with errUe := bumpField d.house.errUe 0, errAddr := BitVec.ofNat 52 pa } }

/-- Put a number into a rising list. -/
def insertNat (n : Nat) : List Nat → List Nat
  | [] => [n]
  | m :: ms => if n < m then n :: m :: ms else if n = m then m :: ms else m :: insertNat n ms

/-- An access or the scrubbing meets the uncorrectable errors of `n` bytes: they are poisoned in place, and each line that has some is
counted, in address order (R455, R456). -/
def Device.meetErrors (d : Device) (pa n : Nat) : Device :=
  let hit := d.latent.filter (fun a => decide (pa ≤ a ∧ a < pa + n))
  let lines := hit.foldl (fun ls a => insertNat (a / 64) ls) []
  if hit.isEmpty then d
  else lines.foldl (fun d l => d.countUe (hit.foldl (fun m a => if a / 64 = l then Nat.min m a else m) (64 * l + 63)))
    { d with
      mem := hit.foldl (fun m x => m.setPoison x 1) d.mem
      latent := d.latent.filter (fun x => !hit.contains x) }

/-- The address at which a line of another package is known to be (R417). -/
def Device.movedTo (d : Device) (pa : BitVec 52) : BitVec 52 :=
  match d.fab.moved.find? (fun x => x.1 == pa.toNat / 64) with
  | some x => BitVec.ofNat 52 (x.2 * 64 + pa.toNat % 64)
  | none => pa

/-- Decode a physical address (R468, R399). -/
def Device.decodePA (d : Device) (rmt sm c : Bool) (pa : BitVec 52) : Target :=
  let own := fun (a : Nat) => if a < Config.hbmSize ∧ !d.hbmGone a then Target.hbm a sm else .nowhere
  let x := d.movedTo pa
  if rmt then (if x.extractLsb' 42 10 = d.fab.regs.pkgId then own (x.extractLsb' 0 42).toNat else .remote x c)
  else if pa.msb then .host pa.toNat
  else own pa.toNat

/-! Ways to other packages (16 R401, R414, R418). -/

/-- A port. -/
def Fabric.port (f : Fabric) (p : Nat) : Port := Tab.get {} f.ports p

/-- The socket of the optical engine die that a port is of, and its number there (R406). -/
def portSocket (p : Nat) : Nat × Nat := (40 + p / 16, p % 16)

/-- The port carries traffic (R409, R448). -/
def Port.up (x : Port) : Bool := !x.down && x.retrain.isNone

/-- The egress port toward a package and whether it is the escape port; none without a valid one (R401). A packet that stood behind
a failed port takes the escape route where there is one (R410). -/
def Fabric.egress (f : Fabric) (pkg : Nat) (esc : Bool := false) : Option (Nat × Bool) :=
  let e := Tab.get 0#24 f.route pkg
  let p := (e.extractLsb' 0 7).toNat
  let a := (e.extractLsb' 8 7).toNat
  if esc && e.getLsbD 23 then some ((e.extractLsb' 16 7).toNat, true)
  else if e.getLsbD 7 && (f.port p).up then some (p, false)
  else if e.getLsbD 15 && (f.port a).up then some (a, false)
  else if e.getLsbD 23 then some ((e.extractLsb' 16 7).toNat, true)
  else none

/-- What becomes of a request to another package: an error response without a route or at an address its home does not
populate (R414), or for a confidential page without a key (R418); else its port, and whether it takes the escape channel. -/
inductive Way where
  | error
  | noKey
  | go (port : Nat) (escape : Bool)
deriving DecidableEq, Repr

/-- A Timetable set stands loaded for the consists that name a number (R404, R405). -/
def Fabric.hasSet (f : Fabric) (n : BitVec 8) : Bool := f.sets.any (fun y => y.serves == n)

/-- A port can encrypt what it sends: the slot that it names holds a key (R418). -/
def Port.keyed (x : Port) : Bool := x.tx[x.txSlot].key

/-- The way of a packet to a package (R401, R418). -/
def Device.wayTo (d : Device) (pkg : Nat) (c : Bool) (esc : Bool := false) : Way :=
  match d.fab.egress pkg esc with
  | none => .error
  | some (p, e) => if c && !(d.fab.port p).keyed then .noKey else .go p e

/-- The way of a request. -/
def Device.way (d : Device) (pa : BitVec 52) (c : Bool) (esc : Bool := false) : Way :=
  if Config.hbmSize ≤ (pa.extractLsb' 0 42).toNat then .error else d.wayTo (pa.extractLsb' 42 10).toNat c esc

/-- Bits of FAB_STAT that a request leaves (R400). -/
def Device.noteWay (d : Device) (w : Way) : Device :=
  let bit := match w with
    | .noKey => 4#8
    | .go _ true => 2#8
    | _ => 0#8
  { d with fab := { d.fab with regs := { d.fab.regs with fabStat := d.fab.regs.fabStat ||| bit } } }

/-- Send something out of the package. -/
def Device.emit (d : Device) (os : List Output) : Device := { d with outbox := d.outbox ++ os }

/-- Change a port. -/
def Device.mapPort (d : Device) (p : Nat) (f : Port → Port) : Device :=
  { d with fab := { d.fab with ports := Tab.set d.fab.ports p (f (d.fab.port p)) } }

/-- A packet under a key uses up a counter value of the slot that it names; with the last value the key is gone (R418). -/
def KeySlot.use (k : KeySlot) : KeySlot := { key := k.key && k.counter != BitVec.allOnes 64, counter := k.counter + 1#64 }

/-- Encrypt a packet that leaves a port (R418). -/
def Device.seal (d : Device) (p : Nat) : Device :=
  let x := d.fab.port p
  (d.mapPort p (fun x => { x with tx := x.tx.set x.txSlot.val x.tx[x.txSlot].use x.txSlot.isLt })).emit
    [.sealed p x.txSlot x.tx[x.txSlot].counter]

/-- One more flit that goes to a package stands in a replay buffer (R407). Of more than 2,048 the oldest has been acknowledged in
the meantime (notes/assumptions/26.md). -/
def Port.keepFlit (x : Port) (pkg : Nat) : Port :=
  { x with replay := (x.replay ++ [(⟨x.txSeq, pkg⟩ : Flit)]).drop (x.replay.length - 2047), txSeq := x.txSeq + 1#12 }

/-- Send `n` flits to a package at a port: each takes the next sequence number and stands in the replay buffer (R407). -/
def Device.sendFlits (d : Device) (p pkg : Nat) : Nat → Device
  | 0 => d
  | n + 1 => ((d.mapPort p (fun x => x.keepFlit pkg)).emit [.flit p (d.fab.port p).txSeq]).sendFlits p pkg n

/-- A packet goes its way to a package, in `n` lossless flits, encrypted for a page with C = 1 (R401, R407, R418). -/
def Device.sendOut (d : Device) (w : Way) (pkg n : Nat) (c : Bool) : Device :=
  match w with
  | .go p _ => (if c then (d.noteWay w).seal p else d.noteWay w).sendFlits p pkg n
  | w => d.noteWay w

/-! Page tables (R316 to R318). -/

/-- What a walk finds: the page's first address, its size in bytes, its leaf; or nothing, and whether poison was met. -/
structure Walked where
  page : Nat
  size : Nat
  leaf : Word
deriving DecidableEq, Repr

/-- The bytes of physical memory that hold a table entry, or none on an error response or poison (R318). -/
def Device.readEntry (d : Device) (pa : Nat) : Option Word :=
  match d.decodePA false false false (BitVec.ofNat 52 pa) with
  | .nowhere => none
  | .hbm a _ => if (List.range 8).any (fun i => d.hbmPoison (a + i)) then none
      else some (BitVec.ofNat 64 (natLE ((List.range 8).map (fun i => d.hbmByte (a + i)))))
  | _ => if d.mem.anyPoison pa 8 then none else some (d.mem.readWord pa)

/-- ADDR of an entry as a byte address (R317). -/
def entryAddr (e : Word) : Nat := (e.extractLsb' 8 44).toNat * 256

/-- One level of the walk: shift of the index, its width, bytes of the next table, whether a leaf may stand here. -/
structure Level where
  shift : Nat
  bits : Nat
  next : Nat
  leafOk : Bool

/-- The levels from the root down (R316). -/
def levels : List Level :=
  [⟨39, 17, 4096, false⟩, ⟨30, 9, 4096, true⟩, ⟨21, 9, 256, true⟩, ⟨16, 5, 0, true⟩]

/-- An entry that no walk uses: V = 0, a reserved field that is not zero, SM with RMT (R318). -/
def entryBad (e : Word) : Bool :=
  !e.getLsbD 0 || e.getLsbD 7 || e.extractLsb' 52 12 != 0#12 || (e.getLsbD 4 && e.getLsbD 6)

/-- An entry of a level names the next table, of the levels that follow. -/
def Level.goesOn (l : Level) (rest : List Level) (e : Word) : Bool :=
  !entryBad e && !e.getLsbD 1 && !rest.isEmpty && decide (entryAddr e % l.next = 0)

/-- Walk the levels from a table (R318). -/
def Device.walkFrom (d : Device) (va : Nat) : List Level → Nat → Option Walked
  | [], _ => none
  | l :: ls, table =>
    match d.readEntry (table + 8 * (va / 2 ^ l.shift % 2 ^ l.bits)) with
    | none => none
    | some e =>
      if l.goesOn ls e then d.walkFrom va ls (entryAddr e)
      else if !entryBad e && e.getLsbD 1 && l.leafOk && decide (entryAddr e % 2 ^ l.shift = 0)
      then some ⟨va / 2 ^ l.shift * 2 ^ l.shift, 2 ^ l.shift, e⟩ else none

/-- Where a walk meets a poisoned entry (R318). -/
def Device.walkPoison (d : Device) (va : Nat) : List Level → Nat → Option Nat
  | [], _ => none
  | l :: ls, table =>
    let pa := table + 8 * (va / 2 ^ l.shift % 2 ^ l.bits)
    if (if pa < Config.hbmSize then (List.range 8).any (fun i => d.hbmPoison (pa + i)) else d.mem.anyPoison pa 8) then some pa
    else match d.readEntry pa with
      | none => none
      | some e => if l.goesOn ls e then d.walkPoison va ls (entryAddr e) else none

/-- A walk that ended on a poisoned entry is counted in ERR_UE (R318, R456). -/
def Device.countWalk (d : Device) (va : Nat) : Device :=
  match (if va < 2 ^ 56 then d.walkPoison va levels d.sig.regs.ptRoot.toNat else none) with
  | some pa => d.countUe pa
  | none => d

/-- Translate a virtual address by the page table (R316). -/
def Device.walk (d : Device) (va : Nat) : Option Walked :=
  if va < 2 ^ 56 then d.walkFrom va levels d.sig.regs.ptRoot.toNat else none

/-- The page of a TLB entry holds an address. -/
def TlbEntry.holds (e : TlbEntry) (va : Nat) : Bool := decide (e.page ≤ va ∧ va < e.page + e.size)

/-- Look an address up in a TLB (R319). -/
def tlbFind (tlb : List TlbEntry) (va : Nat) : Option TlbEntry := tlb.find? (fun e => e.holds va)

/-- Put an entry first in a TLB of `n` entries; the oldest leaves (notes/assumptions/19.md). -/
def tlbAdd (n : Nat) (tlb : List TlbEntry) (w : Walked) : List TlbEntry :=
  (⟨w.page, w.size, w.leaf⟩ :: tlb.filter (fun e => decide (e.page ≠ w.page))).take n

/-- The leaf grants the rights wanted (R318). -/
def leafGrants (leaf : Word) (rd wr : Bool) : Bool := (!rd || leaf.getLsbD 2) && (!wr || leaf.getLsbD 3)

/-- Physical address bits of a leaf's page (R317). -/
def leafFrame (leaf : Word) : BitVec 36 := leaf.extractLsb' 16 36

/-- Where a virtual address of a page leads. -/
def Device.leafTarget (d : Device) (leaf : Word) (page va : Nat) : Target :=
  d.decodePA (leaf.getLsbD 6) (leaf.getLsbD 4) (leaf.getLsbD 5) (BitVec.ofNat 52 (entryAddr leaf + (va - page)))

/-- Translate for an agent of the device: the target of `va` when its page grants the rights (R466). -/
def Device.translate (d : Device) (rd wr : Bool) (va : Nat) : Option Target :=
  match d.walk va with
  | none => none
  | some w => if leafGrants w.leaf rd wr then some (d.leafTarget w.leaf w.page va) else none

/-! The coherence directory (R300). A state changes latency only (R301). -/

/-- A die holds a line of a region, or a dirty one. -/
def Region.holds (r : Region) (die : Nat) : Bool := r.lines.any (fun l => l.2.1 == die)
def Region.dirtyIn (r : Region) (die : Nat) : Bool := r.lines.any (fun l => l.2.1 == die && l.2.2)

/-- The lines after an access: a write leaves one copy of its line, a read leaves no dirty copy on another die. A die whose cache has
no room does not `keep` the line. -/
def Region.linesAfter (r : Region) (line die : Nat) (write keep : Bool) : List (Nat × Nat × Bool) :=
  if write then
    let ls := r.lines.filter (fun l => l.1 != line)
    if keep then (line, die, true) :: ls else ls
  else
    let ls := r.lines.map (fun l => if l.1 == line && l.2.1 != die then (l.1, l.2.1, false) else l)
    if !keep || ls.any (fun l => l.1 == line && l.2.1 == die) then ls else (line, die, false) :: ls

/-- The state after an access. -/
def Region.modeAfter (r : Region) (die : Nat) (write : Bool) : RegionMode :=
  match r.mode with
  | .shared => if r.lines.isEmpty then .private_ die else if write then .fine else .shared
  | .private_ e => if e = die then .private_ e else if write || r.dirtyIn e then .fine else .shared
  | .fine => .fine

/-- Put lines into a region: without one it is S with no holder, and `since` notes when the dies that hold some change. -/
def Region.setLines (r : Region) (ls : List (Nat × Nat × Bool)) (now : Nat) : Region :=
  let dies := fun (xs : List (Nat × Nat × Bool)) (d : Nat) => xs.any (fun l => l.2.1 == d)
  let same := ls.all (fun l => dies r.lines l.2.1) && r.lines.all (fun l => dies ls l.2.1)
  { mode := if ls.isEmpty then .shared else r.mode, lines := ls, since := if same then r.since else now }

/-- A region after an access from a die to one of its lines (R300). -/
def Region.access (r : Region) (line die : Nat) (write keep : Bool) (now : Nat) : Region :=
  let ls := r.linesAfter line die write keep
  { r.setLines ls now with mode := if ls.isEmpty then .shared else r.modeAfter die write }

/-- A die's line of a region has been evicted. -/
def Region.evict (r : Region) (line die : Nat) (now : Nat) : Region :=
  r.setLines (r.lines.filter (fun l => !(l.1 == line && l.2.1 == die))) now

/-- One die alone has held lines of an F region for 1 ms. -/
def Region.collapses (r : Region) (die now : Nat) : Bool :=
  r.mode == .fine && !r.lines.isEmpty && r.lines.all (fun l => l.2.1 == die) && decide (r.since + Config.msCycles ≤ now)

/-- The region of an address. -/
def Device.regionAt (d : Device) (pa : Nat) : Region := Tab.get {} d.regions (pa / 0x200000)

/-- The lines of software-managed pages of a die, newest first. -/
def Device.linesOf (d : Device) (die : Nat) : List CacheLine := d.cache.filter (fun l => l.die == die)

/-- The coherent lines that a die holds, by the directory. -/
def Device.coherentOf (d : Device) (die : Nat) : List Nat :=
  d.regions.flatMap (fun e => (e.2.lines.filter (fun l => l.2.1 == die)).map (·.1))

/-- Lines that a die's cache holds (R6). -/
def Device.linesHeld (d : Device) (die : Nat) : Nat := (d.linesOf die).length + (d.coherentOf die).length

/-- Record an access of a die to a line of HBM in the directory. A die that holds 16 MiB keeps no further coherent line (R6;
notes/assumptions/50.md). -/
def Device.touchLine (d : Device) (die : Nat) (write : Bool) (line : Nat) : Device :=
  let r := d.regionAt (line * 64)
  let keep := r.lines.any (fun l => l.1 == line && l.2.1 == die) || decide (d.linesHeld die < Config.dieLines)
  { d with regions := Tab.set d.regions (line / 0x8000) (r.access line die write keep d.now) }

/-- Record an access of a die to `n` bytes of HBM. -/
def Device.touch (d : Device) (die pa n : Nat) (write : Bool) : Device :=
  if n = 0 then d
  else (List.range ((pa + n - 1) / 64 - pa / 64 + 1)).foldl (fun d i => d.touchLine die write (pa / 64 + i)) d

/-- A die holds the line of an address: a software-managed one in its cache, or a coherent one by the directory. -/
def Device.dieHit (d : Device) (die pa : Nat) (sm : Bool) : Bool :=
  if sm then d.cache.any (fun l => l.die == die && l.line == pa / 64)
  else (d.regionAt pa).lines.any (fun l => l.1 == pa / 64 && l.2.1 == die)

/-! Speculations (R386 to R389). -/

/-- A speculation meets a cause that ends it (R378): the first one counts, but a doom outdoes another of the same moment. -/
def Speculation.ends (x : Speculation) (k : SpecEnd) (now : Nat) : Speculation :=
  { x with cause := match x.cause with
      | none => some (k, now)
      | some (k', t) => if k = .doomed ∧ t = now then some (.doomed, now) else some (k', t) }

/-- The speculation that a speculative car belongs to. -/
def Device.specOf (d : Device) (c : Car) : Option Speculation :=
  if c.place.spec then
    d.sig.specs.find? (fun x => x.svc.q == c.ident.serviceId.extractLsb' 32 16 && x.svc.seq == c.ident.serviceId.extractLsb' 0 32)
  else none

/-- Change the speculation of a queue's service. -/
def Device.mapSpec (d : Device) (q : BitVec 16) (seq : BitVec 32) (f : Speculation → Speculation) : Device :=
  { d with sig.specs := d.sig.specs.map (fun x => if x.svc.q == q && x.svc.seq == seq then f x else x) }

/-- Physical bytes of a declared handle lie at the page its BASE translates to; is `pa` inside one (R386, R389)? -/
def Device.inHandle (d : Device) (h : Bht) (pa : Nat) : Bool :=
  (List.range ((h.len.toNat + 0x1FFFF) / 0x10000)).any (fun i =>
    let va := (h.base.toNat / 0x10000 + i) * 0x10000
    match d.translate false false va with
    | some (.hbm p _) => decide (p / 0x10000 = pa / 0x10000 ∧ h.base.toNat ≤ va + pa % 0x10000
        ∧ va + pa % 0x10000 < h.base.toNat + h.len.toNat)
    | _ => false)

/-- The physical ranges that a handle's bytes have, a page at a time. -/
def Device.handleSpans (d : Device) (h : Bht) : List (Nat × Nat) :=
  (List.range ((h.len.toNat + 0x1FFFF) / 0x10000)).filterMap (fun i =>
    let va := (h.base.toNat / 0x10000 + i) * 0x10000
    match d.translate false false va with
    | some (.hbm p _) => some (p + (h.base.toNat - va), p + Nat.min 0x10000 (h.base.toNat + h.len.toNat - va))
    | _ => none)

/-- Ranges cover the addresses from `lo` up to `hi`. -/
def covers (xs : List (Nat × Nat)) : Nat → Nat → Nat → Bool
  | 0, lo, hi => decide (hi ≤ lo)
  | n + 1, lo, hi => decide (hi ≤ lo) ||
    (match xs.find? (fun x => decide (x.1 ≤ lo ∧ lo < x.2)) with
     | some x => covers xs n x.2 hi
     | none => false)

/-- Declared handles of the speculated service hold all of `n` bytes at `pa`, with write rights when `wr` (R389). -/
def Device.declared (d : Device) (x : Speculation) (wr : Bool) (pa n : Nat) : Bool :=
  let xs := ((x.svc.handles.filter (fun hm => !wr || hm.2.getLsbD 1)).flatMap (fun hm =>
    d.handleSpans (Tab.get {} d.sig.bht hm.1.toNat))).filter (fun r => decide (r.1 < pa + n ∧ pa < r.2))
  covers xs xs.length pa (pa + n)

/-- The bytes and poison of a granule of HBM. -/
def Device.granule (d : Device) (g : Nat) : Mem :=
  if d.fab.fwd.isEmpty then
    { cells := d.mem.cells.filter (fun c => decide (g * 0x10000 ≤ c.1 ∧ c.1 < (g + 1) * 0x10000))
      poison := (d.meetErrors (g * 0x10000) 0x10000).mem.poison.filter (fun a =>
        decide (g * 0x10000 ≤ a ∧ a < (g + 1) * 0x10000)) }
  else
    { cells := cellsOf (g * 0x10000) ((List.range 0x10000).map (fun i => d.hbmByte (g * 0x10000 + i)))
      poison := ((List.range 0x10000).map (fun i => g * 0x10000 + i)).filter d.hbmPoison }

/-- Put a granule's bytes into a memory. -/
def Mem.putGranule (m : Mem) (g : Nat) (x : Mem) : Mem :=
  { cells := m.cells.filter (fun c => decide (c.1 < g * 0x10000)) ++ x.cells
      ++ m.cells.filter (fun c => decide ((g + 1) * 0x10000 ≤ c.1))
    poison := m.poison.filter (fun a => decide (a < g * 0x10000)) ++ x.poison
      ++ m.poison.filter (fun a => decide ((g + 1) * 0x10000 ≤ a)) }

/-- Give a granule a shadow page with its current bytes (R386). -/
def Speculation.shadowGranule (x : Speculation) (d : Device) (g : Nat) : Speculation :=
  if x.granules.contains g then x
  else { x with
    granules := g :: x.granules
    shadow := x.shadow.putGranule g (d.granule g) }

/-- Give every granule that `n` bytes at `pa` touch a shadow page, and write the bytes there (R386). -/
def Speculation.write (x : Speculation) (d : Device) (pa : Nat) (bs : List Byte) : Speculation :=
  let x := x.shadowGranule d (pa / 0x10000)
  let x := if bs.isEmpty then x else x.shadowGranule d ((pa + bs.length - 1) / 0x10000)
  { x with shadow := x.shadow.write pa bs }

/-- The granules that `n` bytes at `pa` touch and that have no shadow page. -/
def Speculation.bare (x : Speculation) (pa n : Nat) : List Nat :=
  ((List.range (n / 0x10000 + 2)).map (fun i => pa / 0x10000 + i)).filter (fun g =>
    decide (g * 0x10000 < pa + n) && !x.granules.contains g)

/-- A write of the speculation of `n` bytes at `pa` needs shadow pages that it may not have (R387). -/
def Device.shadowFull (d : Device) (x : Speculation) (pa n : Nat) : Bool :=
  let k := (x.bare pa n).length
  decide (0 < k) &&
    (decide (8192 < x.granules.length + k) || decide (d.sig.spec.len.toNat < d.sig.spec.used + k * 0x10000))

/-- Every speculation that watches the region of `pa` dooms, but `me` (R388). -/
def Device.watched (d : Device) (me : Option (BitVec 16 × BitVec 32)) (pa n : Nat) : Device :=
  { d with sig.specs := d.sig.specs.map (fun x =>
      if me != some (x.svc.q, x.svc.seq) && x.watches.any (fun r => decide (pa / 0x200000 ≤ r ∧ r ≤ (pa + n - 1) / 0x200000))
      then x.ends .doomed d.now else x) }

/-! Die caches of software-managed pages (R302 to R304). -/

/-- The die-cache line of an address on a die. -/
def Device.cacheLine (d : Device) (die pa : Nat) : Option CacheLine :=
  d.cache.find? (fun l => l.die == die && l.line == pa / 64)

/-- The home's 64 bytes of a line. -/
def Device.homeLine (d : Device) (line : Nat) : Vector Byte 64 := Vector.ofFn (fun i => d.hbmByte (line * 64 + i.val))

/-- The poisoned bytes among the home's 64 bytes of a line. -/
def Device.homePoison (d : Device) (line : Nat) : BitVec 64 :=
  (List.range 64).foldl (fun (m : BitVec 64) i => if d.hbmPoison (line * 64 + i) then m ||| (1#64 <<< i) else m) 0#64

/-- The bytes of a line whose dirty bit is set, with their addresses. -/
def CacheLine.dirtyBytes (l : CacheLine) : List (Nat × Byte) :=
  (List.finRange 64).filterMap (fun i => if l.dirty.getLsbD i.val then some (l.line * 64 + i.val, l.bytes[i]) else none)

/-- Write a line's dirty bytes to the home by its mask (R303). -/
def Device.writeBack (d : Device) (die line : Nat) : Device :=
  match d.cache.find? (fun l => l.die == die && l.line == line) with
  | none => d
  | some l =>
    let d := l.dirtyBytes.foldl (fun d p => d.hbmWrite p.1 [p.2]) d
    let d := (List.range 64).foldl (fun d i =>
      if (l.dirty &&& l.poison).getLsbD i then d.hbmSpoil (line * 64 + i) else d) d
    { d with
      cache := d.cache.map (fun x => if x.die == die && x.line == line then { x with dirty := 0#64 } else x) }

/-- Drop a line from a die's cache (R248). -/
def Device.dropLine (d : Device) (die line : Nat) : Device :=
  { d with cache := d.cache.filter (fun l => !(l.die == die && l.line == line)) }

/-- Write a die-cache line back to its home (R303); a region that a speculation watches sees it (R388). -/
def Device.flushLine (d : Device) (die line : Nat) : Device :=
  match d.cache.find? (fun l => l.die == die && l.line == line) with
  | some l => if l.dirty = 0#64 then d else (d.writeBack die line).watched none (line * 64) 64
  | none => d

/-- Drop a coherent line from a die's cache (R300). -/
def Device.evictLine (d : Device) (die line : Nat) : Device :=
  { d with regions := Tab.set d.regions (line / 0x8000) ((d.regionAt (line * 64)).evict line die d.now) }

/-- A die that holds 16 MiB gives up a line: its oldest one of a software-managed page, else a coherent one (R6;
notes/assumptions/50.md). -/
def Device.makeRoom (d : Device) (die : Nat) : Device :=
  if d.linesHeld die < Config.dieLines then d
  else match (d.linesOf die).getLast?, d.coherentOf die with
    | some l, _ => (d.flushLine die l.line).dropLine die l.line
    | none, line :: _ => d.evictLine die line
    | none, [] => d

/-- Bring a line into a die's cache; another leaves one that holds 16 MiB (R6, R302). -/
def Device.cacheFill (d : Device) (die line : Nat) : Device :=
  if d.cache.any (fun l => l.die == die && l.line == line) then d
  else
    let d := d.makeRoom die
    { d with cache := ⟨die, line, d.homeLine line, 0#64, d.homePoison line⟩ :: d.cache }

/-- Store one byte of a software-managed page into the die's cache (R302). -/
def Device.cacheStore (d : Device) (die pa : Nat) (b : Byte) : Device :=
  let d := d.cacheFill die (pa / 64)
  { d with cache := d.cache.map (fun l =>
      if l.die == die && l.line == pa / 64
      then { l with
        bytes := l.bytes.setIfInBounds (pa % 64) b
        dirty := l.dirty ||| (1#64 <<< (pa % 64))
        poison := l.poison &&& ~~~(1#64 <<< (pa % 64)) } else l) }

/-- Store bytes of a software-managed page into the die's cache. -/
def Device.cacheStores (d : Device) (die pa : Nat) : List Byte → Device
  | [] => d
  | b :: bs => (d.cacheStore die pa b).cacheStores die (pa + 1) bs

/-! Bytes of physical memory. -/

/-- What a read delivers (R134): bytes, poison, error response. -/
structure Loaded where
  bytes : List Byte
  poison : Bool := false
  err : Bool := false
deriving DecidableEq, Repr

/-- The value that a load delivers; zero on an error response (R134). -/
def Loaded.nat (l : Loaded) : Nat := if l.err then 0 else natLE l.bytes

/-- One byte of HBM as a die sees it: shadow page, die cache of an SM page, home. -/
def Device.viewByte (d : Device) (spec : Option Speculation) (die : Option Nat) (sm : Bool) (pa : Nat) : Byte :=
  match spec with
  | some x => if x.granules.contains (pa / 0x10000) then x.shadow.read pa else d.hbmByte pa
  | none =>
    match (if sm then die.bind (fun k => d.cacheLine k pa) else none) with
    | some l => l.bytes.getD (pa % 64) 0#8
    | none => d.hbmByte pa

/-- Is a byte of HBM poisoned as a die sees it? -/
def Device.viewPoison (d : Device) (spec : Option Speculation) (die : Option Nat) (sm : Bool) (pa : Nat) : Bool :=
  match spec with
  | some x => if x.granules.contains (pa / 0x10000) then x.shadow.poisoned pa else d.hbmPoison pa
  | none =>
    match (if sm then die.bind (fun k => d.cacheLine k pa) else none) with
    | some l => l.poison.getLsbD (pa % 64)
    | none => d.hbmPoison pa

/-- A speculation as it stands now. -/
def Device.specNow (d : Device) (x : Speculation) : Speculation :=
  (d.sig.specs.find? (fun y => y.svc.q == x.svc.q && y.svc.seq == x.svc.seq)).getD x

/-- Read physical bytes for an agent of a die, or for one without a cache. -/
def Device.readPhys (d : Device) (spec : Option Speculation) (die : Option Nat) (t : Target) (n : Nat) : Loaded :=
  let spec := spec.map d.specNow
  match t with
  | .hbm pa sm =>
    { bytes := (List.range n).map (fun i => d.viewByte spec die sm (pa + i))
      poison := (List.range n).any (fun i => d.viewPoison spec die sm (pa + i)) }
  | .host pa => { bytes := d.mem.readBytes pa n, poison := d.mem.anyPoison pa n }
  | .remote pa _ => { bytes := d.remote.readBytes pa.toNat n, poison := d.remote.anyPoison pa.toNat n }
  | _ => { bytes := List.replicate n 0#8, err := true }

/-- The state a read leaves: errors in HBM are met, a line of an SM page is brought into the die's cache, the directory takes note. -/
def Device.afterRead (d : Device) (spec : Option Speculation) (die : Option Nat) (t : Target) (n : Nat) : Device :=
  match t, spec, die with
  | .hbm pa true, none, some k => ((d.cacheFill k (pa / 64)).cacheFill k ((pa + n - 1) / 64)).meetErrors pa n
  | .hbm pa false, _, some k => (d.meetErrors pa n).touch k pa n false
  | .hbm pa _, none, none => d.meetErrors pa n
  | _, _, _ => d

/-- Write physical bytes for an agent of a die or for one without a cache (R302, R386, R388). -/
def Device.writePhys (d : Device) (spec : Option Speculation) (die : Option Nat) (t : Target) (bs : List Byte) : Device :=
  match t with
  | .hbm pa sm =>
    let bs := bs.take (Config.hbmSize - pa)
    match spec.map d.specNow with
    | some x =>
      if d.shadowFull x pa bs.length then d.mapSpec x.svc.q x.svc.seq (fun y => y.ends .doomed d.now) else
      let pages := (x.write d pa bs).granules.length - x.granules.length
      let d := { d with sig.spec.used := d.sig.spec.used + pages * 0x10000 }
      (d.mapSpec x.svc.q x.svc.seq (fun y => y.write d pa bs)).watched (some (x.svc.q, x.svc.seq)) pa bs.length
    | none =>
      match sm, die with
      | true, some k => d.cacheStores k pa bs
      | _, some k => ((d.hbmWrite pa bs).touch k pa bs.length true).watched none pa bs.length
      | _, none => (d.hbmWrite pa bs).watched none pa bs.length
  | .host pa => { d with mem := d.mem.write pa bs }
  | .remote pa _ => { d with remote := d.remote.write pa.toNat bs }
  | _ => d

/-- Mark one byte of a place poisoned, as an agent of a die sees it (R455). -/
def Device.spoilAt (d : Device) (spec : Option Speculation) (die : Option Nat) (t : Target) : Device :=
  match t with
  | .hbm pa sm =>
    match spec with
    | some x => d.mapSpec x.svc.q x.svc.seq (fun y => { y with shadow := y.shadow.setPoison pa 1 })
    | none =>
      if sm && die.isSome then { d with cache := d.cache.map (fun l =>
        if some l.die == die && l.line == pa / 64 then { l with poison := l.poison ||| (1#64 <<< (pa % 64)) } else l) }
      else d.hbmSpoil pa
  | .host pa => { d with mem := d.mem.setPoison pa 1 }
  | .remote pa _ => { d with remote := d.remote.setPoison pa.toNat 1 }
  | _ => d

/-! Waybills as shapes (R230, R231). -/

/-- Extents X0 to X5. -/
def Waybill.extents (w : Waybill) : List Nat :=
  [(w[1].extractLsb' 0 16).toNat, (w[1].extractLsb' 16 16).toNat, (w[1].extractLsb' 32 16).toNat,
   (w[1].extractLsb' 48 16).toNat, (w[2].extractLsb' 0 16).toNat, (w[2].extractLsb' 16 16).toNat]

/-- Strides T0 to T5. -/
def Waybill.strides (w : Waybill) : List Int :=
  [(w[3].extractLsb' 0 32).toInt, (w[3].extractLsb' 32 32).toInt, (w[4].extractLsb' 0 32).toInt,
   (w[4].extractLsb' 32 32).toInt, (w[5].extractLsb' 0 32).toInt, (w[5].extractLsb' 32 32).toInt]

/-- Element size in bytes. -/
def Waybill.esz (w : Waybill) : Nat := 2 ^ (w[2].extractLsb' 32 2).toNat

/-- SP: BASE and AUX are h0 handle addresses. -/
def Waybill.sp (w : Waybill) : Bool := w[2].getLsbD 34

/-- TYPE, in the VT encoding. -/
def Waybill.type (w : Waybill) : BitVec 4 := w[2].extractLsb' 35 4

/-- AUX and AUXEN. -/
def Waybill.aux (w : Waybill) : Word := w[6]

/-- The engine writes the area at AUX. -/
def Waybill.auxen (w : Waybill) : Bool := w[7].getLsbD 22

/-- ROOT and GROUP. -/
def Waybill.root (w : Waybill) : Nat := (w[7].extractLsb' 12 10).toNat

/-- Collective or multicast group. -/
def Waybill.group (w : Waybill) : Nat := (w[7].extractLsb' 0 12).toNat

/-- Number of elements. -/
def Waybill.count (w : Waybill) : Nat := w.extents.foldl (· * ·) 1

/-- Offset of the element at linear index `m`, i0 varying fastest. -/
def elemOffset : List Nat → List Int → Nat → Int
  | x :: xs, t :: ts, m => (m % x : Nat) * (if x = 1 then 0 else t) + elemOffset xs ts (m / x)
  | _, _, _ => 0

/-- Address of the element at linear index `m`, modulo 2^64 (R231). -/
def Waybill.elem (w : Waybill) (m : Nat) : Word :=
  BitVec.ofInt 64 (w[0].toNat + elemOffset w.extents w.strides m)

/-- Destination rows: passes over level 0 (R231). -/
def Waybill.rowLen (w : Waybill) : Nat := (w[1].extractLsb' 0 16).toNat

/-! Stash granules (R306 to R308). -/

/-- The mapping that holds a scratchpad byte. -/
def Car.stashOf (c : Car) (off : Nat) : Option Stash :=
  c.eng.stash.find? (fun m => decide (m.base ≤ off ∧ off < m.base + m.len))

/-- The tile address of the byte at place `p` of a mapping's range; none past the tile (R249). -/
def Stash.va (m : Stash) (p : Nat) : Option Nat :=
  if p < m.ws.count * m.ws.esz then some ((m.ws.elem (p / m.ws.esz)).toNat + p % m.ws.esz) else none

/-- Where the byte at place `p` of a mapping's tile lives. -/
def Device.stashTarget (d : Device) (m : Stash) (p : Nat) : Option Target := (m.va p).bind (fun va => d.translate false false va)

/-- An access that a page's target answers with an error response: no memory, or no way to the other package (R414, R418). -/
def Device.shut (d : Device) (t : Target) : Bool :=
  match t with
  | .nowhere => true
  | .remote pa c => (match d.way pa c with
      | .go _ _ => false
      | _ => true)
  | _ => false

/-- The stash engine reaches a virtual address with the rights wanted (R318, R240). -/
def Device.reaches (d : Device) (rd wr : Bool) (va : Nat) : Bool :=
  match d.translate rd wr va with
  | some t => !d.shut t
  | none => false

/-- The first address of a granule's tile bytes that the stash engine does not reach. -/
def Device.tileFault (d : Device) (m : Stash) (rd wr : Bool) (ps : List Nat) : Option Nat :=
  (ps.filterMap m.va).find? (fun va => !d.reaches rd wr va)

/-- The places of a granule in its mapping's range. -/
def granulePlaces (g : Nat) : List Nat := (List.range 64).map (fun i => g * 64 + i)

/-- The die of a core (R2). -/
def dieOf (core : BitVec 9) : Nat := core.toNat / 16

/-- The byte at an offset of the car's own scratchpad as its accesses see it: an unfilled granule shows its tile. -/
def Device.spadByte (d : Device) (c : Car) (off : Nat) : Byte :=
  match c.stashOf off with
  | none => c.spad.read off
  | some m =>
    if m.filled.contains ((off - m.base) / 64) then c.spad.read off
    else match d.stashTarget m (off - m.base) with
      | some t => (d.readPhys (d.specOf c) (some (dieOf c.ident.coreId)) t 1).bytes.headD 0#8
      | none => c.spad.read off

/-- Is the byte at an offset of the car's own scratchpad poisoned, as its accesses see it? -/
def Device.spadPoison (d : Device) (c : Car) (off : Nat) : Bool :=
  match c.stashOf off with
  | none => c.spad.poisoned off
  | some m =>
    if m.filled.contains ((off - m.base) / 64) then c.spad.poisoned off
    else match d.stashTarget m (off - m.base) with
      | some t => (d.readPhys (d.specOf c) (some (dieOf c.ident.coreId)) t 1).poison
      | none => c.spad.poisoned off

/-- A granule of a mapping is filled. -/
def Stash.fill (m : Stash) (g : Nat) : Stash := { m with filled := g :: m.filled, filling := m.filling.filter (· != g) }

/-- The bytes of a granule, and the places of those that are poisoned, come into a scratchpad. -/
def Mem.putFill (m : Mem) (at' : Nat) (bytes : List Byte) (bad : List Nat) : Mem :=
  bad.foldl (fun sp i => sp.setPoison (at' + i) 1) (m.write at' bytes)

/-- A granule of a mapping receives its bytes. A copy that was issued before and has not the granule yet takes what comes now as the
tile's bytes: it sees no later store of the car (R292). -/
def Car.putFill (c : Car) (m : Stash) (g : Nat) (bytes : List Byte) (bad : List Nat) : Car :=
  let at' := m.base + g * 64
  { c with
    spad := c.spad.putFill at' bytes bad
    eng.stash := c.eng.stash.map (fun x => if x.num == m.num then x.fill g else x)
    eng.copies := c.eng.copies.map (fun k =>
      if k.stash.any (fun x => x.num == m.num && x.id == m.id && !x.filled.contains g) then
        { k with
          spad := k.spad.putFill at' bytes bad
          stash := k.stash.map (fun x => if x.num == m.num then x.fill g else x) }
      else k) }

/-- Fill the granule of a mapping at place `g` (R306); the tile's poison comes with its bytes (R455). -/
def Device.fillGranule (d : Device) (c : Car) (m : Stash) (g : Nat) : Car :=
  if m.filled.contains g then c
  else
    let at' := m.base + g * 64
    c.putFill m g ((List.range 64).map (fun i => d.spadByte c (at' + i))) ((List.range 64).filter (fun i => d.spadPoison c (at' + i)))

/-- Fill every granule that bytes `off` to `off + n - 1` of the own scratchpad touch (R306). -/
def Device.fillRange (d : Device) (c : Car) (off n : Nat) : Car :=
  ((List.range (n / 64 + 2)).map (fun i => (off / 64 + i) * 64)).foldl (fun c a =>
    if a < off + n then
      match c.stashOf a with
      | some m => d.fillGranule c m ((a - m.base) / 64)
      | none => c
    else c) c

/-- Record stores to filled granules in their dirty-byte masks (R307). -/
def Car.dirtyRange (c : Car) (off n : Nat) : Car :=
  { c with eng.stash := c.eng.stash.map (fun m =>
      { m with dirty := m.dirty ++ ((List.range n).filterMap (fun i =>
          if decide (m.base ≤ off + i ∧ off + i < m.base + m.len) && !m.dirty.contains (off + i - m.base)
          then some (off + i - m.base) else none)) }) }

/-- Write a car's own scratchpad, through the stash where it is mapped (R306, R307). -/
def Device.spadWrite (d : Device) (c : Car) (off : Nat) (bs : List Byte) : Car :=
  let c := if c.eng.stash.isEmpty then c else d.fillRange c off bs.length
  let c := { c with spad := c.spad.write off bs }
  if c.eng.stash.isEmpty then c else c.dirtyRange off bs.length

/-- Write the dirty bytes of the granules `gs` of a mapping back to its tile (R307). -/
def Device.stashBack (d : Device) (c : Car) (m : Stash) (gs : List Nat) : Device × Car :=
  let ps := m.dirty.filter (fun p => gs.contains (p / 64))
  let d := ps.foldl (fun d p =>
    match d.stashTarget m p with
    | some t =>
      let d := d.writePhys (d.specOf c) (some (dieOf c.ident.coreId)) t [c.spad.read (m.base + p)]
      if c.spad.poisoned (m.base + p) then d.spoilAt (d.specOf c) (some (dieOf c.ident.coreId)) t else d
    | none => d) d
  (d, { c with eng.stash := c.eng.stash.map (fun x => if x.num == m.num
        then { x with dirty := x.dirty.filter (fun p => !gs.contains (p / 64)) } else x) })

/-- Mark granules unfilled (R308). -/
def Car.unfill (c : Car) (m : Stash) (gs : List Nat) : Car :=
  { c with eng.stash := c.eng.stash.map (fun x => if x.num == m.num
      then { x with filled := x.filled.filter (fun g => !gs.contains g) } else x) }

/-- The coherent memory that a place names, and its address there (R308): this package's HBM and host memory have one map,
another package has its own. -/
def Target.coherent : Target → Option (Bool × Nat)
  | .hbm pa false => some (false, pa)
  | .host pa => some (false, pa)
  | .remote pa _ => some (true, pa.toNat)
  | _ => none

/-- The filled granules of a mapping that hold bytes of the lines of `n` bytes at a place in coherent memory (R308). -/
def Device.granulesAt (d : Device) (m : Stash) (t : Target) (n : Nat) : List Nat :=
  match t.coherent with
  | none => []
  | some (far, pa) => m.filled.filter (fun g => (List.range 64).any (fun i =>
      match (d.stashTarget m (g * 64 + i)).bind Target.coherent with
      | some (f, p) => f == far && decide (p / 64 * 64 < pa + n ∧ pa < p / 64 * 64 + 64)
      | none => false))

end Sys2Proof.Machine
end

