-- ==== Sys2Proof/Machine/Ops.lean ====
section
/-!
DEFINITION. The named operations over a car's registers, its flags, its consist, and the taking of and return from a
trap (spec 01, 04 R89 to R94, 12 R322 to R326).
-/
namespace Sys2Proof.Machine

/-- What a meaning answers. -/
abbrev Result := Host.Outcome State Fault Refusal

/-! The focused car, the package, and what the slots of the bundle in issue read (R89, R291). -/

/-- The car whose registers the slots of the bundle read. -/
def State.src (s : State) : Car :=
  match s.old with
  | some o => o.1
  | none => s.car

/-- The package that the slots of the bundle read. -/
def State.srcDev (s : State) : Device :=
  match s.old with
  | some o => o.2
  | none => s.dev

/-- Change the focused car. -/
def State.mapCar (s : State) (f : Car → Car) : State := { s with car := f s.car }

/-- Change the package. -/
def State.mapDev (s : State) (f : Device → Device) : State := { s with dev := f s.dev }

/-- The name of a car: its core, and whether it is the secondary of a merged core. -/
def Car.ref (c : Car) : CarRef := c.ident.coreId.toNat * 2 + (if c.place.secondary then 1 else 0)

/-- Every car, the focused one first. -/
def State.cars (s : State) : List Car := s.car :: s.peers

/-- A car by name. -/
def State.find (s : State) (r : CarRef) : Option Car := s.cars.find? (fun c => c.ref == r)

/-- Change every car. -/
def State.mapCars (s : State) (f : Car → Car) : State := { s with car := f s.car, peers := s.peers.map f }

/-- Change the car of a name. -/
def State.mapAt (s : State) (r : CarRef) (f : Car → Car) : State := s.mapCars (fun c => if c.ref = r then f c else c)

/-- The present cycle. -/
def State.now (s : State) : Nat := s.dev.now

/-- Take a free value's number. -/
def State.tick (s : State) : State := { s with fresh := s.fresh + 1 }

/-- What the running correction has come to: 1 ns per µs, in cycles in which the clock shows a new ns, so that no time comes twice
(R312, R314). -/
def Device.slewing (d : Device) : Int :=
  let k : Int := ((d.now / 2 - d.slewFrom / 2) / (Config.usCycles / 2) : Nat)
  if 0 ≤ d.slewBy then min k d.slewBy else max (-k) d.slewBy

/-- The offset from the pod time base that is left of the last estimate (R314, R449). -/
def Device.offBy (d : Device) : Int := d.house.offset.toInt + d.slewing

/-- Correct the counter by so many ns from now on, by slewing, in place of the correction that runs (R314). -/
def Device.slew (d : Device) (x : Int) : Device :=
  { d with slewed := d.slewed + d.slewing, slewFrom := d.now, slewBy := x }

/-- Global time on a die, in ns (R312): the core clock is 2.0 GHz. -/
def Device.tstamp (d : Device) (die : Nat) : Word :=
  BitVec.ofInt 64 ((d.tbase + d.now / 2 + Config.dieSkew die % 3 : Nat) + d.slewed + d.slewing)

/-! Scalar registers. -/

/-- The storage that a scalar name means: in handler mode s56 to s63 are the handler bank (R16). -/
def physS (handler : Bool) (r : SReg) : Fin 72 :=
  if handler && decide (56 ≤ r.val) then ⟨r.val + 8, by omega⟩ else ⟨r.val, by omega⟩

/-- The storage of a scalar name in a car. -/
def Car.physS (c : Car) (r : SReg) : Fin 72 := Machine.physS c.tr.handler r

/-- Read a scalar register; s0 is zero (R15). -/
def Car.rS (c : Car) (r : SReg) : Word := if r = 0 then 0#64 else c.regs.s[c.physS r]

/-- Drop the producers of a scalar register (R68). -/
def dropS (p : Nat) (fs : List Flight) : List Flight :=
  fs.filter (fun f => match f.dest with
    | .s q _ => q != p
    | _ => true)

/-- A WADR that waits no longer has scalar storage `p` as its destination: a later slot of its bundle writes it (R68). -/
def Wait.without (p : Nat) : Wait → Wait
  | .wadr ha q b since limit => .wadr ha (if q = p then 0 else q) b since limit
  | w => w

/-- Put a value in scalar storage: it becomes full and its poison mark is cleared (R90, R134). -/
def Car.putS (c : Car) (p : Fin 72) (x : Word) : Car :=
  { c with
    wait := c.wait.map (Wait.without p.val)
    regs.s := c.regs.s.set p.val x p.isLt
    marks.emptyS := c.marks.emptyS &&& ~~~(1#72 <<< p.val)
    marks.poisonS := c.marks.poisonS &&& ~~~(1#72 <<< p.val)
    marks.parityS := c.marks.parityS &&& ~~~(1#72 <<< p.val)
    marks.againS := c.marks.againS &&& ~~~(1#72 <<< p.val)
    flight := dropS p.val c.flight }

/-- Write a scalar register; a write to s0 is discarded (R15). -/
def Car.wS (c : Car) (r : SReg) (x : Word) : Car := if r = 0 then c else c.putS (c.physS r) x

/-- Is a scalar register empty, poisoned? s0 is always full (R15). -/
def Car.emptyS (c : Car) (r : SReg) : Bool := r != 0 && c.marks.emptyS.getLsbD (c.physS r).val

/-- Does a scalar register carry a poison mark (R134)? -/
def Car.poisonS (c : Car) (r : SReg) : Bool := r != 0 && c.marks.poisonS.getLsbD (c.physS r).val

/-- The parity of a scalar register fails at a read (R454). -/
def Car.parityFails (c : Car) (r : SReg) : Bool := r != 0 && c.marks.parityS.getLsbD (c.physS r).val

/-- A scalar register whose parity failed is read again (R454): a second failure marks it poisoned. -/
def Car.reread (c : Car) (r : SReg) : Car :=
  let m := 1#72 <<< (c.physS r).val
  { c with
    marks.parityS := c.marks.parityS &&& ~~~m
    marks.againS := c.marks.againS &&& ~~~m
    marks.poisonS := c.marks.poisonS ||| (c.marks.againS &&& m) }

/-- Start a producer of a scalar register (R90): the register is empty until it is filled. -/
def Car.startS (c : Car) (now : Nat) (r : SReg) (x : Word) (due : Option Nat) (fixedS : Bool) (poison : Bool) (ha : Word)
    (eta : Nat) : Car :=
  if r = 0 then c
  else
    let p := c.physS r
    { c with
      marks.emptyS := c.marks.emptyS ||| (1#72 <<< p.val)
      wait := c.wait.map (Wait.without p.val)
      flight := ⟨c.eng.nextId, .s p.val x, due, poison, ha, fixedS, now, eta, false, none⟩ :: dropS p.val c.flight
      eng.nextId := c.eng.nextId + 1 }

/-! Vector and mask registers. -/

/-- MERGE bit 1 or bit 0: how a bank field selects a physical bank (R14, R17). -/
def Car.bank (c : Car) (n : BitVec 4) : Nat :=
  if c.ident.merge.getLsbD 0 then (if c.ident.merge.getLsbD 1 then 8 else 0) + n.toNat % 8 else n.toNat

/-- The physical register of a name in the vd or va field (R18). -/
def Car.physA (c : Car) (r : VReg) : Nat := c.bank (c.ctl.vbank.extractLsb' 0 4) * 64 + r.val

/-- The physical register of a name in the vb field (R18). -/
def Car.physB (c : Car) (r : VReg) : Nat := c.bank (c.ctl.vbank.extractLsb' 4 4) * 64 + r.val

/-- Read a physical vector register. -/
def Car.rV (c : Car) (p : Nat) : VWord := Tab.get 0#32768 c.regs.v p

/-- Read a mask; k0 is all ones (R21). -/
def Car.rK (c : Car) (r : KReg) : Mask := if r = 0 then BitVec.allOnes 4096 else c.regs.k[r]

/-- Drop the producers of a vector register (R68). -/
def dropV (p : Nat) (fs : List Flight) : List Flight :=
  fs.filter (fun f => match f.dest with
    | .v q _ => q != p
    | _ => true)

/-- Drop the producers of a mask register (R68). -/
def dropK (p : Nat) (fs : List Flight) : List Flight :=
  fs.filter (fun f => match f.dest with
    | .k q _ => q != p
    | _ => true)

/-- Put a value in a physical vector register. -/
def Car.putV (c : Car) (p : Nat) (x : VWord) : Car :=
  { c with
    regs.v := Tab.set c.regs.v p x
    marks.emptyV := c.marks.emptyV &&& ~~~(1#1024 <<< p)
    marks.poisonV := c.marks.poisonV &&& ~~~(1#1024 <<< p)
    flight := dropV p c.flight }

/-- Put a value in a mask register; a write to k0 is discarded (R21). -/
def Car.putK (c : Car) (r : Nat) (x : Mask) : Car :=
  if r = 0 then c
  else
    { c with
      regs.k := c.regs.k.setIfInBounds r x
      marks.emptyK := c.marks.emptyK &&& ~~~(1#16 <<< r)
      marks.poisonK := c.marks.poisonK &&& ~~~(1#16 <<< r)
      flight := dropK r c.flight }

/-- Start a producer of a vector register (R90). -/
def Car.startV (c : Car) (now p : Nat) (x : VWord) (due : Option Nat) (poison : Bool) (ha : Word)
    (eta : Nat) : Car :=
  { c with
    marks.emptyV := c.marks.emptyV ||| (1#1024 <<< p)
    flight := ⟨c.eng.nextId, .v p x, due, poison, ha, false, now, eta, false, none⟩ :: dropV p c.flight
    eng.nextId := c.eng.nextId + 1 }

/-- Start a producer of a mask register (R90); one of k0 is discarded (R21). -/
def Car.startK (c : Car) (now : Nat) (r : KReg) (x : Mask) (due : Option Nat) (poison : Bool) (ha : Word)
    (eta : Nat) : Car :=
  if r = 0 then c
  else
    { c with
      marks.emptyK := c.marks.emptyK ||| (1#16 <<< r.val)
      flight := ⟨c.eng.nextId, .k r.val x, due, poison, ha, false, now, eta, false, none⟩ :: dropK r.val c.flight
      eng.nextId := c.eng.nextId + 1 }

/-- Mark a destination poisoned after its fill (R134, R180). -/
def Car.markPoison (c : Car) (d : Dest) : Car :=
  match d with
  | .s p _ => { c with marks.poisonS := c.marks.poisonS ||| (1#72 <<< p) }
  | .v p _ => { c with marks.poisonV := c.marks.poisonV ||| (1#1024 <<< p) }
  | .k p _ => { c with marks.poisonK := c.marks.poisonK ||| (1#16 <<< p) }

/-- Fill a producer's destination (R90). -/
def Car.fill (c : Car) (f : Flight) : Car :=
  let c := { c with flight := c.flight.filter (fun g => g.id != f.id) }
  let c := match f.dest with
    | .s p x => if h : p < 72 then c.putS ⟨p, h⟩ x else c
    | .v p x => c.putV p x
    | .k p x => c.putK p x
  if f.poison then c.markPoison f.dest else c

/-! Producers and reads through the state, as the slots of a bundle use them. -/

/-- A scalar operand of a slot (R89). -/
def State.rS (s : State) (r : SReg) : Word := s.src.rS r

/-- The physical va or vd register of a slot. -/
def State.physA (s : State) (r : VReg) : Nat := s.src.physA r

/-- The physical vb register of a slot. -/
def State.physB (s : State) (r : VReg) : Nat := s.src.physB r

/-- A vd or va operand of a slot. -/
def State.rVA (s : State) (r : VReg) : VWord := s.src.rV (s.physA r)

/-- A vb operand of a slot. -/
def State.rVB (s : State) (r : VReg) : VWord := s.src.rV (s.physB r)

/-- A mask operand of a slot. -/
def State.rK (s : State) (r : KReg) : Mask := s.src.rK r

/-- A result of latency 1: written in the cycle of issue, seen from the next (R90). -/
def State.wS (s : State) (r : SReg) (x : Word) : State := s.mapCar (fun c => c.wS r x)

/-- A scalar result of fixed latency `lat` above 1 (R90, R91, R323). -/
def State.produceS (s : State) (r : SReg) (lat : Nat) (x : Word) : State :=
  s.mapCar (fun c => c.startS s.now r x (some (s.now + lat)) true false 0#64 0)

/-- A vector result of fixed latency. -/
def State.produceV (s : State) (r : VReg) (lat : Nat) (x : VWord) : State :=
  s.mapCar (fun c => c.startV s.now (s.physA r) x (some (s.now + lat)) false 0#64 0)

/-- A mask result of fixed latency. -/
def State.produceK (s : State) (r : KReg) (lat : Nat) (x : Mask) : State :=
  s.mapCar (fun c => c.startK s.now r x (some (s.now + lat)) false 0#64 0)

/-! Handles. -/

/-- h0, hard-wired to the scratchpad map (R23). -/
def handle0 : Handle := { v := true, rd := true, wr := true, sz := 3#2 }

/-- h1, hard-wired to the car's own instruction memory (R23). -/
def handle1 : Handle := { v := true, rd := true }

/-- A handle's record. -/
def Car.handle (c : Car) (h : Fin 32) : Handle :=
  if h = 0 then handle0 else if h = 1 then handle1 else c.regs.h[h]

/-- The record as HRD reads it (R22). -/
def Handle.word (h : Handle) : Word :=
  BitVec.ofBool h.v ++ BitVec.ofBool h.rd ++ BitVec.ofBool h.wr ++ h.sz ++ BitVec.ofBool h.sm ++ BitVec.ofBool h.c
    ++ BitVec.ofBool h.rmt ++ 0#4 ++ h.frame ++ 0#16

/-! Flags (R27). -/

/-- What a YWAIT of this cycle has taken from a flag at issue (R28). -/
def Car.tookOf (c : Car) (f : FlagIx) : BitVec 16 :=
  match c.took with
  | some (g, n) => if g = f then n else 0#16
  | none => 0#16

/-- Add `n` to a flag: past 65,535 it saturates and its FLAGOVF bit is set. The posts of a cycle come before what a YWAIT takes in it
(R28). -/
def Car.post (c : Car) (f : FlagIx) (n : Nat) : Car :=
  let sum := c.regs.f[f].toNat + (c.tookOf f).toNat + n
  if sum < 65536 then { c with regs.f := c.regs.f.set f.val (BitVec.ofNat 16 sum - c.tookOf f) f.isLt }
  else { c with
    regs.f := c.regs.f.set f.val (0xFFFF#16 - c.tookOf f) f.isLt
    ctl.flagovf := c.ctl.flagovf ||| (1#64 <<< f.val) }

/-! Consists, services, speculations. -/

/-- The consist a car belongs to, if it has one. -/
def State.consistOf (s : State) (c : Car) : Option Consist :=
  s.dev.sig.consists.find? (fun x => x.q == c.ident.serviceId.extractLsb' 32 16 && x.seq == c.ident.serviceId.extractLsb' 0 32
    && x.idx == c.ident.consistId && x.spec == c.place.spec && x.saved.isNone)

/-- Two consists are one. -/
def Consist.same (x y : Consist) : Bool := x.q == y.q && x.seq == y.seq && x.idx == y.idx && x.spec == y.spec

/-- Change a consist. -/
def State.mapConsist (s : State) (x : Consist) (f : Consist → Consist) : State :=
  s.mapDev (fun d => { d with sig.consists := d.sig.consists.map (fun y => if y.same x then f y else y) })

/-- A car belongs to a consist. -/
def Consist.holds (x : Consist) (c : Car) : Bool :=
  c.ident.serviceId.extractLsb' 32 16 == x.q && c.ident.serviceId.extractLsb' 0 32 == x.seq && c.ident.consistId == x.idx
    && c.place.spec == x.spec && c.life != .idle

/-- Change a service. -/
def State.mapService (s : State) (q : BitVec 16) (seq : BitVec 32) (f : Service → Service) : State :=
  s.mapDev (fun d => { d with sig.services := d.sig.services.map (fun y => if y.q == q && y.seq == seq then f y else y) })

/-- Mark the speculation of a queue's service doomed (R389); its discard follows (R396). -/
def State.doomSpec (s : State) (q : BitVec 16) (seq : BitVec 32) : State :=
  s.mapDev (fun d => d.mapSpec q seq (fun x => x.ends .doomed d.now))

/-- A doom is taken before the bundle: no slot of it takes effect (R389). -/
def State.doom (s : State) : State :=
  let s : State := match s.old with
    | some o => { s with car := o.1, dev := o.2, old := none }
    | none => s
  s.doomSpec (s.car.ident.serviceId.extractLsb' 32 16) (s.car.ident.serviceId.extractLsb' 0 32)

/-! Windows and coupling. -/

/-- Discard the open windows of the groups in a set (R226). -/
def Arr.discard (a : Arr) (mask : BitVec 16) : Arr :=
  { a with groups := a.groups.mapFinIdx (fun i g _ => if mask.getLsbD i then { g with win := none } else g) }

/-- Leave the coupling domain (R227). -/
def Car.uncouple (c : Car) : Car :=
  { c with place := { c.place with munc := c.place.domain.isSome || c.place.munc, domain := none } }

/-- Is the car coupled to a line (R102)? -/
def Car.coupledTo (c : Car) (l : Ix16) : Bool := c.place.domain.isSome && c.place.couples.any (fun x => x.2 == l)

/-- Forget frames that no stream waits for (R425). -/
def Device.sweepFrames (d : Device) : Device :=
  { d with fab := { d.fab with frames := d.fab.frames.filter (fun f => d.streams.any (fun x => x.group == some f.group)) } }

/-- End the streams of domains that no car is left in (R246), and free their copy numbers; what such a domain's lines and buses
carried is gone (R97, R244). -/
def State.endStreams (s : State) : State :=
  let alive := fun (d : Nat) => s.cars.any (fun c => c.place.domain == some d)
  let dead := s.dev.streams.filter (fun x => !alive x.domain)
  (s.mapDev (fun d => { d with
      streams := d.streams.filter (fun x => alive x.domain)
      drives := d.drives.filter (fun x => alive x.domain)
      bus := d.bus.filter (fun x => alive x.domain) }.sweepFrames)).mapCars (fun c =>
    { c with eng.copies := c.eng.copies.filter (fun k => !(dead.any (fun x => x.car == c.ref && x.num == k.num)
        && (k.op == .cls || k.op == .clsf))) })

/-! Abort of a consist (R288). -/

/-- A car that a core holds: placed, and neither finished nor parked (R2, R147). -/
def Car.resident (c : Car) : Bool :=
  match c.life with
  | .held _ => true
  | .running => true
  | .halted => true
  | _ => false

/-- The primary car beside a secondary car. -/
def State.primaryOf (s : State) (c : Car) : Option Car :=
  if c.place.secondary then s.cars.find? (fun x => x.ident.coreId == c.ident.coreId && !x.place.secondary && x.resident)
  else none

/-- The halt or the step of a core's debug block is over. -/
def Debug.letGo (b : Debug) : Debug := { b with stat := b.stat &&& ~~~(0x101#10), hit := false, stepped := false }

/-- Cars leave their cores, or come to them: a car that one of their debug blocks held is gone from there (R336;
notes/assumptions/64.md). -/
def State.letGo (s : State) (f : Car → Bool) : State :=
  let cores := (s.cars.filter (fun c => f c && (s.primaryOf c).isNone)).map (fun c => c.ident.coreId.toNat)
  s.mapDev (fun d => { d with debug := List.map (fun e => if cores.contains e.1 then (e.1, e.2.letGo) else e) d.debug })

/-- What an aborted car leaves: it issues nothing more, its windows are gone, its core is free. Its copies are still to be
ended as CABT ends them, those of a speculation are dropped (R288, R396). -/
def Car.abort (c : Car) : Car :=
  { c with
    life := .idle
    wait := []
    flight := []
    late := []
    preempt := none
    arr := c.arr.discard (BitVec.allOnes 16)
    eng := { c.eng with copies := (if c.place.spec then [] else c.eng.copies), ranges := [], stash := [], unmaps := [], releases := [], queue := (if c.place.spec then [] else c.eng.queue) }
    place := { c.place with domain := none, couples := [] } }

/-- Timetable sets that no resident consist names are unloaded (R404). -/
def Device.sweepSets (d : Device) : Device :=
  { d with fab := { d.fab with sets := d.fab.sets.filter (fun y => d.sig.consists.any (fun c => c.ttset == y.serves && c.saved.isNone)) } }

/-- The consists of a service that have not started again are dropped, those that are saved and those that wait for their release;
their lines and cores are free (R288). -/
def State.dropWaiting (s : State) (q : BitVec 16) (seq : BitVec 32) : State :=
  let mine := fun (y : Consist) => y.q == q && y.seq == seq && !y.spec && (y.saved.isSome || !y.released)
  let xs := s.dev.sig.consists.filter (fun y => mine y && y.saved.isNone)
  let s := (s.letGo (fun c => xs.any (fun y => y.holds c))).mapCars (fun c => if xs.any (fun y => y.holds c) then c.abort else c)
  s.mapDev (fun d => { d with sig.consists := d.sig.consists.filter (fun y => !mine y) }.sweepSets)

/-- Abort a consist (R288): every car stops, windows, streams and copies end, lines and cores are freed, the service
ends with the cause and the CARID that raised it, and its consists that do not run are dropped. Stores already issued perform. -/
def State.abortConsist (s : State) (x : Consist) (cause : BitVec 8) (carId : BitVec 9) : State :=
  let s := (s.letGo x.holds).mapCars (fun c => if x.holds c then c.abort else c)
  let s := s.endStreams
  let s := s.mapService x.q x.seq (fun v => { v with
    err := some (v.err.getD (cause, carId)) })
  (s.mapDev (fun d => { d with sig.consists := d.sig.consists.filter (fun y => !(y.same x)) })).dropWaiting x.q x.seq

/-- Abort the consist of the focused car, raised by that car. In a speculation it dooms (R389). -/
def State.abortMine (s : State) (cause : BitVec 8) : State :=
  if s.car.place.spec then s.doom
  else match s.consistOf s.car with
    | some x => { s.abortConsist x cause s.car.ident.carId with old := none }
    | none => { (s.letGo (fun c => c.ref == s.car.ref)).mapCar Car.abort with old := none }

/-! The issue step (R89, R93, R262). -/

/-- The delay of a late write (R93). -/
def Late.delay : Late → Nat
  | .fmt _ => Config.fmtDelay
  | .latches .. => Config.latchDelay
  | .waybill .. => Config.waybillDelay

/-- A waybill with the words of a mask replaced. -/
def Waybill.put (w : Waybill) (mask : BitVec 8) (x : Waybill) : Waybill :=
  Vector.ofFn (fun i => if mask.getLsbD i.val then x[i] else w[i])

/-- A late write lands. -/
def Late.land (c : Car) : Late → Car
  | .fmt x => { c with regs.fmt := x }
  | .latches m x => { c with regs.e := Vector.ofFn (fun i => if m.getLsbD i.val then x[i] else c.regs.e[i]) }
  | .waybill w m x => { c with regs.w := c.regs.w.set w.val (Waybill.put c.regs.w[w] m x) w.isLt }

/-- Late writes that are due land, oldest first; the others stay. -/
def Car.landDue (c : Car) : Car :=
  let due := c.late.filter (fun l => decide (l.what.delay ≤ l.age))
  due.foldl (fun c l => l.what.land c) { c with late := c.late.filter (fun l => decide (l.age < l.what.delay)) }

/-- One issue step passes for the late writes (R93, R94). -/
def Car.ageLate (c : Car) : Car :=
  Car.landDue { c with late := c.late.map (fun l => { l with age := l.age + 1 }) }

/-- Slots of the bundle at an address; 8 when none of 8 has END. -/
def Mem.slotsFrom (m : Mem) (a : Nat) : Nat → Nat
  | 0 => 0
  | n + 1 => if (m.read (a + 3)).getLsbD 7 then 1 else 1 + m.slotsFrom (a + 4) n

/-- Where the bundle at an address ends: up to 0x2_0000 for one that can be fetched (R66, R141). -/
def Car.endOf (c : Car) (a : BitVec 17) : Word := BitVec.ofNat 64 (a.toNat + 4 * c.imem.slotsFrom a.toNat 8)

/-- Address of the bundle after the one at an address, as the pc holds it. -/
def Car.after (c : Car) (a : BitVec 17) : BitVec 17 := a + BitVec.ofNat 17 (4 * c.imem.slotsFrom a.toNat 8)

/-- The car has run past 0x1_FFFC: the next fetch is at 0x2_0000, outside instruction memory (R66). -/
def Car.past (c : Car) : Bool := c.pc == 0#17 && c.seqPc == 0x20000#64

/-- The address of the next fetch. -/
def Car.fetchAt (c : Car) : Word := if c.past then 0x20000#64 else c.pc.setWidth 64

/-- The bundle at the car's pc is the last of an active loop (R262). -/
def Car.atLend (c : Car) : Bool := c.loop.cnt != 0#32 && c.pc == c.loop.lend

/-- A bundle begins to issue: its slots read the car and the package as they stand. The loop engine counts it at LEND
(R262), and CCYC counts it in user mode (R95). -/
def State.openBundle (s : State) : State :=
  let c := s.car
  let next := c.after c.pc
  { s with
    old := some (c, s.dev)
    car := { c with
      tr := { c.tr with lastPc := c.pc }
      seqPc := c.endOf c.pc
      pc := next
      taken := false
      lastIssue := s.now
      stood := none
      units := { c.units with slot := 0 }
      ctl := if c.tr.handler then c.ctl else { c.ctl with ccyc := c.ctl.ccyc + 1#64 }
      loop := if c.atLend then { c.loop with cnt := c.loop.cnt - 1#32, idx := c.loop.idx + 1#32 } else c.loop } }

/-- A bundle has issued: late writes count the step, and at LEND the loop engine chooses the next fetch unless a taken
branch or a YLOOP of the bundle has (R144, R262, R263). -/
def State.closeBundle (s : State) : State :=
  match s.old with
  | none => s
  | some o =>
    let b := o.1
    let back := b.atLend && b.loop.cnt != 1#32 && !s.car.taken
    { s with
      old := none
      car :=
        let c := s.car.ageLate
        if back then
          if b.preempt.isSome && !b.tr.masked then { c with pc := b.loop.lepi, seqPc := 0#64, loop := { c.loop with redirected := true } }
          else { c with pc := b.loop.start, seqPc := 0#64 }
        else c }

/-! The trap table (R328) and the snapshot (R325). -/

/-- Code of a cause (R328). -/
def Cause.code : Cause → BitVec 8
  | .illegalBundle => 0x01#8
  | .illegalInsn => 0x02#8
  | .priv => 0x03#8
  | .empty => 0x04#8
  | .xltFault => 0x05#8
  | .handleRevoked => 0x06#8
  | .access => 0x07#8
  | .shape => 0x08#8
  | .copyFault => 0x09#8
  | .uncorrectable => 0x0A#8
  | .trap => 0x0B#8
  | .brk => 0x0C#8
  | .watch => 0x0D#8
  | .step => 0x0E#8
  | .preemptForced => 0x0F#8
  | .windowClosed => 0x10#8
  | .align => 0x11#8

/-- TCAUSE of a trap (R33). -/
def Trap.tcause (t : Trap) : BitVec 22 := t.copy ++ 0#7 ++ BitVec.ofBool t.imprecise ++ t.cause.code

/-- Steps that still see the old value (R325): D − 1 − k, where the next bundle stands k + 1 steps after the writer. -/
def stepsLeft (delay age : Nat) : Nat := delay - age

/-- The FMTP words (R325). -/
def fmtpWords (ls : List LateWrite) : List Word :=
  ls.filterMap (fun l => match l.what with
    | .fmt x => some (BitVec.ofNat 64 (2 ^ 63 + stepsLeft Config.fmtDelay l.age * 2 ^ 32 + x.toNat))
    | _ => none)

/-- The LATP words (R325). -/
def latpWords (ls : List LateWrite) : List Word :=
  ls.flatMap (fun l => match l.what with
    | .latches m x =>
      let x := (List.finRange 16).map (fun i => if m.getLsbD i.val then x[i] else 0#8)
      [BitVec.ofNat 64 (2 ^ 63 + stepsLeft Config.latchDelay l.age * 2 ^ 32 + m.toNat),
       BitVec.ofNat 64 (natLE (x.take 8)), BitVec.ofNat 64 (natLE (x.drop 8))]
    | _ => [])

/-- The WBP words (R325). -/
def wbpWords (ls : List LateWrite) : List Word :=
  ls.flatMap (fun l => match l.what with
    | .waybill w m x =>
      BitVec.ofNat 64 (2 ^ 63 + stepsLeft Config.waybillDelay l.age * 2 ^ 32 + w.val * 2 ^ 8 + m.toNat)  ::
        (List.finRange 8).map (fun i => if m.getLsbD i.val then x[i] else 0#64)
    | _ => [])

/-- A list cut or filled with zeros to `n` words. -/
def padTo (n : Nat) (ws : List Word) : List Word := (ws ++ List.replicate n 0#64).take n

/-- The WAIT word (R325). -/
def waitWord : List Wait → Word
  | .ywait f n _ :: _ => BitVec.ofNat 64 (2 ^ 63 + f.val * 2 ^ 16 + n.toNat)
  | .ybar b _ :: _ => BitVec.ofNat 64 (2 ^ 63 + 2 ^ 62 + b.val * 2 ^ 16)
  | _ :: ws => waitWord ws
  | [] => 0#64

/-- The name that scalar storage `p` has in a mode (R16); none where the mode has none for it. -/
def nameS (handler : Bool) (p : Nat) : Option Nat :=
  if p < 56 then some p
  else if handler then (if 64 ≤ p then some (p - 8) else none)
  else if p < 64 then some p else none

/-- A producer that a trap diverts (R323): fixed latency, a scalar destination that has a name in the mode of the trap. One of the
handler bank that user mode still waits for lands there, since the bank is no part of an image (R326). -/
def Flight.diverts (f : Flight) (handler : Bool) : Option (Nat × Word × Nat) :=
  if f.fixedS then
    match f.dest, f.due with
    | .s p x, some t => (nameS handler p).map (fun n => (n, x, t))
    | _, _ => none
  else none

/-- The producers that a trap diverts: name, value, cycle. -/
def Car.diverted (c : Car) : List (Nat × Word × Nat) := c.flight.filterMap (fun f => f.diverts c.tr.handler)

/-- The name's number of scalars that await a non-local value (R325). -/
def Car.awaiting (c : Car) : List Nat :=
  c.flight.filterMap (fun f =>
    match f.dest with
    | .s p _ => if f.fixedS || decide (64 ≤ p) then none else some p
    | _ => none)

/-- A word with the bits of a list set. -/
def bitsOf (ns : List Nat) : Word := ns.foldl (fun w n => w ||| (1#64 <<< n)) 0#64

/-- The snapshot image that a trap latches (R325). -/
def Car.image (c : Car) (t : Trap) (resume trappc : BitVec 17) : List Word :=
  let dv := c.diverted
  [BitVec.ofBool c.tr.handler ++ 0#46 ++ resume, trappc.setWidth 64, t.tcause.setWidth 64, t.taddr]
  ++ (c.regs.s.toList.drop 56).take 8
  ++ [bitsOf (dv.map (·.1)), bitsOf c.awaiting, c.regs.fmt.setWidth 64]
  ++ padTo 3 (fmtpWords c.late)
  ++ [BitVec.ofBool (decide (c.loop.cnt ≠ 0#32)) ++ BitVec.ofBool c.loop.resumed ++ 0#13 ++ c.loop.lend ++ 0#15 ++ c.loop.start,
      0#15 ++ c.loop.lepi ++ 0#15 ++ c.loop.lpro, c.loop.idx ++ c.loop.cnt, waitWord c.wait]
  ++ padTo 15 (latpWords c.late)
  ++ padTo 18 (wbpWords c.late)
  ++ List.replicate 9 0#64
  ++ (List.range 64).map (fun n => match dv.find? (fun x => x.1 == n) with
      | some x => x.2.1
      | none => 0#64)

/-- 128 words of a list, zero where it is short. -/
def toImage (ws : List Word) : Vector Word 128 := Vector.ofFn (fun i => ws.getD i.val 0#64)

/-- Is the wait recorded in a snapshot and set up again by RFT (R324)? -/
def Wait.recorded : Wait → Bool
  | .ywait .. => true
  | .ybar .. => true
  | _ => false

/-- A WADR that waits ends with sd := 1 when a trap, a debug halt or a forced pre-emption strikes (R158). -/
def Car.endWadr (c : Car) : Car :=
  let done : List Nat := c.wait.filterMap (fun w => match w with
    | .wadr _ p _ _ _ => some p
    | _ => none)
  let c := { c with wait := c.wait.filter (fun w => match w with
    | .wadr .. => false
    | _ => true) }
  done.foldl (fun c p => if h : p < 72 then (if p = 0 then c else c.putS ⟨p, h⟩ 1#64) else c) c

/-- The full/empty bits with the destinations of scalar producers full. -/
def clearEmpty : List Flight → BitVec 72 → BitVec 72
  | [], m => m
  | f :: fs, m =>
    match f.dest with
    | .s p _ => clearEmpty fs (m &&& ~~~(1#72 <<< p))
    | _ => clearEmpty fs m

/-- The waits of a car that a snapshot records, by its WAIT word, with their start (R287). -/
def Car.recordedWaits (c : Car) : List (Word × Nat) :=
  c.wait.filterMap (fun w => match w with
    | .ywait _ _ t => some (waitWord [w], t)
    | .ybar _ t => some (waitWord [w], t)
    | _ => none)

/-- Taking a trap (R322 to R324): the snapshot is latched with fixed-latency producers and pending writes diverted to it,
TCAUSE and TADDR written, traps masked, the handler bank named, the loop engine inactive, and the handler's first bundle
is fetched at TVEC in the second cycle after `since`, or the next cycle where that is later. TVEC stays as it is: R35 names
a hardware write of it and no rule gives a value (notes/assumptions/57.md). -/
def Car.enter (c : Car) (t : Trap) (resume trappc : BitVec 17) (now since : Nat) : Car :=
  let c := c.endWadr
  let img := c.image t resume trappc
  let dv := c.flight.filter (fun f => (f.diverts c.tr.handler).isSome)
  { c with
    tr := { c.tr with
      handler := true
      masked := true
      snap := some (toImage img)
      snapReady := c.diverted.foldl (fun m x => Nat.max m x.2.2) now
      waits := c.recordedWaits ++ c.tr.waits }
    stood := none
    marks := { c.marks with emptyS := clearEmpty dv c.marks.emptyS }
    flight := c.flight.filter (fun f => (f.diverts c.tr.handler).isNone)
    late := []
    loop := { c.loop with cnt := 0#32, resumed := false }
    wait := c.wait.filter (fun w => !w.recorded)
    ctl := { c.ctl with tcause := t.tcause, taddr := t.taddr }
    eng := { c.eng with walk := .none }
    pc := c.ctl.tvec
    seqPc := 0#64
    ready := Nat.max (since + 2) (now + 1) }

/-- A trap of the focused car. While traps are masked a synchronous cause is a double fault, which aborts the consist
(R165); in a speculation every cause dooms (R330). -/
def State.takeTrap (s : State) (t : Trap) (resume trappc : BitVec 17) (since : Nat) : State :=
  if s.car.place.spec then s.doom
  else if s.car.tr.masked then s.abortMine 0x07#8
  else { s.mapCar (fun c => c.enter t resume trappc s.now since) with old := none }

/-- Go back to the state before the bundle in issue. -/
def State.rollback (s : State) : State :=
  match s.old with
  | some o => { s with car := o.1, dev := o.2, old := none }
  | none => s

/-- A precise trap (R322): no slot of the bundle takes effect, and the bundle is the resume point. -/
def State.preciseTrap (s : State) (t : Trap) : State :=
  let s := s.rollback
  s.takeTrap t s.car.pc s.car.pc (s.car.stood.getD s.now)

/-- A cause whose TADDR is the bundle's address (R328). -/
def State.here (s : State) (c : Cause) : Trap := { cause := c, taddr := s.src.pc.setWidth 64 }

/-! Return from the handler (R163, R326). -/

/-- Is a bit of a word set? -/
def bitAt (w : Word) (n : Nat) : Bool := w.getLsbD n

/-- The pending writes of an image (R325), oldest first by kind. -/
def imageLate (img : Vector Word 128) : List LateWrite :=
  let w := fun i => img.toList.getD i 0#64
  let age := fun (delay : Nat) (x : Word) => delay - (x.extractLsb' 32 3).toNat
  let fm := [15, 16, 17].filterMap (fun i =>
    if bitAt (w i) 63 then some ⟨age Config.fmtDelay (w i), Late.fmt ((w i).extractLsb' 0 20)⟩ else none)
  let la := [22, 25, 28, 31, 34].filterMap (fun i =>
    if bitAt (w i) 63 then some ⟨age Config.latchDelay (w i), Late.latches ((w i).extractLsb' 0 16)
      (Vector.ofFn (fun n => if n.val < 8 then (w (i + 1)).extractLsb' (8 * n.val) 8 else (w (i + 2)).extractLsb' (8 * (n.val - 8)) 8))⟩
    else none)
  let wb := [37, 46].filterMap (fun i =>
    if bitAt (w i) 63 then some ⟨Config.waybillDelay - ((w i).extractLsb' 32 2).toNat,
      Late.waybill ((w i).extractLsb' 8 4).toFin ((w i).extractLsb' 0 8) (Vector.ofFn (fun n => w (i + 1 + n.val)))⟩
    else none)
  fm ++ la ++ wb

/-- The loop engine of an image (R325). -/
def imageLoop (img : Vector Word 128) (l : Loop) : Loop :=
  { l with
    resumed := bitAt img[18] 62
    lend := img[18].extractLsb' 32 17
    start := img[18].extractLsb' 0 17
    lepi := img[19].extractLsb' 32 17
    lpro := img[19].extractLsb' 0 17
    idx := img[20].extractLsb' 32 32
    cnt := img[20].extractLsb' 0 32 }

/-- The wait of an image (R324); it goes on where the same wait stood before, else it starts now (R287). -/
def imageWait (img : Vector Word 128) (waits : List (Word × Nat)) (now : Nat) : List Wait :=
  let since := match waits.find? (fun x => x.1 == img[21]) with
    | some x => x.2
    | none => now
  if bitAt img[21] 63 then
    if bitAt img[21] 62 then [.ybar (img[21].extractLsb' 16 3).toFin since]
    else [.ywait (img[21].extractLsb' 16 6).toFin (img[21].extractLsb' 0 16) since]
  else []

/-- Write the diverted values of an image (R326). -/
def Car.applyPval (c : Car) (img : Vector Word 128) : List Nat → Car
  | [] => c
  | n :: ns =>
    let c := if h : n < 64 then
        (if n ≠ 0 ∧ bitAt img[12] n then c.putS (c.physS ⟨n, h⟩) (img.toList.getD (64 + n) 0#64) else c)
      else c
    c.applyPval img ns

/-- A delayed write of FMT. -/
def LateWrite.isFmt (l : LateWrite) : Bool :=
  match l.what with
  | .fmt _ => true
  | _ => false

/-- RFT (R163, R326): the mode of the image, then PVAL, FMT and the loop words, the pending entries, the wait; the car
resumes with traps unmasked. Waybill and latch writes of the handler stay pending. -/
def Car.leave (c : Car) (img : Vector Word 128) (now : Nat) : Car :=
  let set := imageWait img c.tr.waits now
  let c := { c with tr := { c.tr with
    handler := bitAt img[0] 63
    masked := false
    snap := none
    waits := if bitAt img[0] 63 then c.tr.waits.filter (fun x => x.1 != img[21]) else [] } }
  let c := c.applyPval img (List.range 64)
  { c with
    regs := { c.regs with fmt := img[14].extractLsb' 0 20 }
    loop := imageLoop img c.loop
    late := c.late.filter (fun l => !l.isFmt) ++ imageLate img
    wait := c.wait ++ set
    pc := img[0].extractLsb' 0 17
    seqPc := 0#64
    taken := true }

end Sys2Proof.Machine
end

