-- ==== Sys2Proof/Machine/Flags.lean ====
section
/-!
DEFINITION. FMT and its fields, number formats, rounding, saturation and the VFLAGS bits they set (spec 01 R31, R32,
02 R37 to R60). Values are exact rationals; rounding happens once.
-/
namespace Sys2Proof.Machine

/-! FMT (R31, R32). -/

/-- Element types (R32). -/
inductive ETy where
  | f32 | f16 | bf16 | i32 | i16 | i8 | m8 | l8 | c10
deriving DecidableEq, Repr

/-- The type of a VT code; none for a reserved one (R32). -/
def ETy.ofCode (c : BitVec 4) : Option ETy :=
  match c.toNat with
  | 0 => some .f32
  | 1 => some .f16
  | 2 => some .bf16
  | 3 => some .i32
  | 4 => some .i16
  | 5 => some .i8
  | 6 => some .m8
  | 7 => some .l8
  | 8 => some .c10
  | _ => none

/-- Size in bytes (R167). -/
def ETy.size : ETy → Nat
  | .f32 => 4
  | .i32 => 4
  | .f16 => 2
  | .bf16 => 2
  | .i16 => 2
  | .c10 => 2
  | _ => 1

/-- Width in bits. -/
def ETy.bits (t : ETy) : Nat := 8 * t.size

/-- Element count (R167). -/
def ETy.count (t : ETy) : Nat := 4096 / t.size

/-- Float class (R167). -/
def ETy.isFloat : ETy → Bool
  | .f32 => true
  | .f16 => true
  | .bf16 => true
  | _ => false

/-- Integer class (R167). -/
def ETy.isInt : ETy → Bool
  | .i32 => true
  | .i16 => true
  | .i8 => true
  | _ => false

/-- Code class (R167). -/
def ETy.isCode : ETy → Bool
  | .l8 => true
  | .c10 => true
  | _ => false

/-- Computed in floating point: the float class and M8 (R48). -/
def ETy.isReal (t : ETy) : Bool := t.isFloat || t == .m8

/-- What FMT says. -/
structure Fmt where
  vt : BitVec 4
  vt2 : BitVec 4
  rm : BitVec 2
  fz : Bool
  bs : Nat
  rg : Nat
  wf : BitVec 2
deriving DecidableEq, Repr

/-- The fields of FMT (R31). -/
def fmtOf (x : BitVec 20) : Fmt :=
  { vt := x.extractLsb' 0 4, vt2 := x.extractLsb' 4 4, rm := x.extractLsb' 8 2, fz := x.getLsbD 10
    bs := (x.extractLsb' 11 3).toNat, rg := (x.extractLsb' 14 4).toNat, wf := x.extractLsb' 18 2 }

/-- FMT as the slots of the bundle see it (R93). -/
def State.fmt (s : State) : Fmt := fmtOf s.src.regs.fmt

/-! VFLAGS (R38). -/

/-- Bits of VFLAGS. -/
abbrev Fl := BitVec 8

/-- Invalid. -/
def NV : Fl := 0x01#8
/-- Division by zero. -/
def DZ : Fl := 0x02#8
/-- Overflow. -/
def OF : Fl := 0x04#8
/-- Underflow. -/
def UF : Fl := 0x08#8
/-- Inexact. -/
def NX : Fl := 0x10#8
/-- Saturation. -/
def SAT : Fl := 0x20#8
/-- NaR produced. -/
def NAR : Fl := 0x40#8
/-- Weight saturation. -/
def WSAT : Fl := 0x80#8

/-- `f` when the condition holds, else nothing. -/
def flIf (c : Bool) (f : Fl) : Fl := if c then f else 0#8

/-- Set sticky bits of VFLAGS (R38). -/
def Car.setFlags (c : Car) (f : Fl) : Car := { c with ctl.vflags := c.ctl.vflags ||| f }

/-- Set sticky bits of VFLAGS. -/
def State.setFlags (s : State) (f : Fl) : State := s.mapCar (fun c => c.setFlags f)

/-! Exact values. -/

/-- A rational: numerator and a positive denominator. -/
structure Q where
  num : Int
  den : Nat
deriving DecidableEq, Repr

/-- An integer. -/
def Q.ofInt (n : Int) : Q := ⟨n, 1⟩

/-- A number times a power of two. -/
def Q.scale (n : Int) (e : Int) : Q := if 0 ≤ e then ⟨n * 2 ^ e.toNat, 1⟩ else ⟨n, 2 ^ (-e).toNat⟩

def Q.add (a b : Q) : Q := ⟨a.num * b.den + b.num * a.den, a.den * b.den⟩
def Q.neg (a : Q) : Q := ⟨-a.num, a.den⟩
def Q.mul (a b : Q) : Q := ⟨a.num * b.num, a.den * b.den⟩
def Q.lt (a b : Q) : Bool := decide (a.num * b.den < b.num * a.den)
def Q.eq (a b : Q) : Bool := decide (a.num * b.den = b.num * a.den)
def Q.isZero (a : Q) : Bool := a.num == 0
def Q.isNeg (a : Q) : Bool := decide (a.num < 0)

/-- The quotient, for a divisor that is not zero. -/
def Q.div (a b : Q) : Q := if b.num < 0 then ⟨-(a.num * b.den), a.den * b.num.natAbs⟩ else ⟨a.num * b.den, a.den * b.num.natAbs⟩

/-- floor(log2) of a positive fraction (R53 ilogb). -/
def ilog2 (a b : Nat) : Int :=
  let k : Int := (Nat.log2 a : Int) - Nat.log2 b
  let ge := if 0 ≤ k then decide (b * 2 ^ k.toNat ≤ a) else decide (b ≤ a * 2 ^ (-k).toNat)
  if ge then k else k - 1

/-- ilogb of a value that is not zero. -/
def Q.ilogb (a : Q) : Int := ilog2 a.num.natAbs a.den

/-- A magnitude a/b rounded to an integer in a mode, for a value of the given sign (R31 RM). -/
def divRound (rm : BitVec 2) (neg : Bool) (a b : Nat) : Nat :=
  let q := a / b
  let r := a % b
  let up :=
    match rm.toNat with
    | 0 => decide (b < 2 * r) || (decide (b = 2 * r) && decide (q % 2 = 1))
    | 1 => false
    | 2 => !neg && decide (r ≠ 0)
    | _ => neg && decide (r ≠ 0)
  if up then q + 1 else q

/-- The value rounded to an integer in a mode. -/
def Q.round (rm : BitVec 2) (x : Q) : Int :=
  let m := divRound rm x.isNeg x.num.natAbs x.den
  if x.isNeg then -(m : Int) else m

/-- rne_int (R53). -/
def Q.rne (x : Q) : Int := x.round 0#2

/-- The value is an integer. -/
def Q.isInt (x : Q) : Bool := decide (x.num % x.den = 0)

/-- sat (R53): the clamped value and SAT. -/
def sat (lo hi v : Int) : Int × Fl := if v < lo then (lo, SAT) else if hi < v then (hi, SAT) else (v, 0#8)

/-! Floating point (R39 to R42). -/

/-- A binary format: exponent bits, fraction bits. -/
structure Flt where
  eb : Nat
  fb : Nat
deriving DecidableEq, Repr

def flt32 : Flt := ⟨8, 23⟩
def flt16 : Flt := ⟨5, 10⟩
def fltB : Flt := ⟨8, 7⟩

/-- The binary format of a float type. -/
def ETy.flt : ETy → Flt
  | .f16 => flt16
  | .bf16 => fltB
  | _ => flt32

/-- Exponent bias. -/
def Flt.bias (f : Flt) : Nat := 2 ^ (f.eb - 1) - 1

/-- Exponent of the smallest normal. -/
def Flt.emin (f : Flt) : Int := 1 - (f.bias : Int)

/-- Canonical NaN (R39). -/
def Flt.qnan (f : Flt) : Nat := (2 ^ f.eb - 1) * 2 ^ f.fb + 2 ^ (f.fb - 1)

/-- Infinity. -/
def Flt.inf (f : Flt) (neg : Bool) : Nat := (if neg then 2 ^ (f.eb + f.fb) else 0) + (2 ^ f.eb - 1) * 2 ^ f.fb

/-- Largest finite value. -/
def Flt.max (f : Flt) (neg : Bool) : Nat := (if neg then 2 ^ (f.eb + f.fb) else 0) + (2 ^ f.eb - 1) * 2 ^ f.fb - 1

/-- Zero. -/
def Flt.zero (f : Flt) (neg : Bool) : Nat := if neg then 2 ^ (f.eb + f.fb) else 0

/-- A floating-point value: NaN (signalling or not), infinity, or a number with the sign that a zero has. -/
inductive FVal where
  | nan (sig : Bool)
  | inf (neg : Bool)
  | num (q : Q) (neg : Bool)
deriving DecidableEq, Repr

/-- The value of a bit pattern, with fz_in (R39, R41). -/
def Flt.decode (f : Flt) (fz : Bool) (x : Nat) : FVal :=
  let neg := decide (x / 2 ^ (f.eb + f.fb) % 2 = 1)
  let e := x / 2 ^ f.fb % 2 ^ f.eb
  let m := x % 2 ^ f.fb
  let sg : Int := if neg then -1 else 1
  if e = 2 ^ f.eb - 1 then
    if m = 0 then .inf neg else .nan (decide (m < 2 ^ (f.fb - 1)))
  else if e = 0 then
    if m = 0 || fz then .num ⟨0, 1⟩ neg else .num (Q.scale (sg * m) (f.emin - f.fb)) neg
  else .num (Q.scale (sg * (m + 2 ^ f.fb : Nat)) ((e : Int) - f.bias - f.fb)) neg

/-- A fraction divided by 2^u. -/
def shiftFrac (a b : Nat) (u : Int) : Nat × Nat := if 0 ≤ u then (a, b * 2 ^ u.toNat) else (a * 2 ^ (-u).toNat, b)

/-- round (R40, R41, R53): a value rounded once; a zero takes the sign given. -/
def Flt.round (f : Flt) (rm : BitVec 2) (fz : Bool) (x : Q) (zneg : Bool) : Nat × Fl :=
  if x.isZero then (f.zero zneg, 0#8)
  else
    let neg := x.isNeg
    let a := x.num.natAbs
    let b := x.den
    let e := ilog2 a b
    let u0 := e - f.fb
    let (a0, b0) := shiftFrac a b u0
    let tiny := decide (e < f.emin) && !(decide (e = f.emin - 1) && decide (divRound rm neg a0 b0 = 2 ^ (f.fb + 1)))
    let u := if u0 < f.emin - f.fb then f.emin - f.fb else u0
    let (a1, b1) := shiftFrac a b u
    let n := divRound rm neg a1 b1
    let inexact := decide (n * b1 ≠ a1)
    let be := (u + f.fb + f.bias).toNat + (if n = 2 ^ (f.fb + 1) then 1 else 0)
    if 2 ^ f.fb ≤ n then
      if 2 ^ f.eb - 1 ≤ be then
        let toInf := match rm.toNat with
          | 0 => true
          | 1 => false
          | 2 => !neg
          | _ => neg
        ((if toInf then f.inf neg else f.max neg), OF ||| NX)
      else (f.zero neg + be * 2 ^ f.fb + n % 2 ^ f.fb, flIf inexact NX ||| flIf (tiny && inexact) UF)
    else if fz then (f.zero neg, UF ||| NX)
    else (f.zero neg + n, flIf inexact NX ||| flIf (tiny && inexact) UF)

/-- An exact result: NaN (and whether the operation is invalid), infinity, a value (and the sign of a zero). -/
inductive Ex where
  | nan (nv : Bool)
  | inf (neg : Bool)
  | val (q : Q) (zneg : Bool)
deriving DecidableEq, Repr

/-- An operand as an exact result; a signalling NaN is invalid (R42). -/
def FVal.ex : FVal → Ex
  | .nan s => .nan s
  | .inf n => .inf n
  | .num q n => .val q n

/-- NaN result of two operands when either is one. -/
def Ex.join (a b : Ex) : Option Ex :=
  match a, b with
  | .nan x, .nan y => some (.nan (x || y))
  | .nan x, _ => some (.nan x)
  | _, .nan y => some (.nan y)
  | _, _ => none

/-- Sum; an exact zero of operands of opposite sign is −0 only when rounding toward −∞. -/
def Ex.add (rm : BitVec 2) (a b : Ex) : Ex :=
  match a.join b with
  | some r => r
  | none =>
    match a, b with
    | .inf x, .inf y => if x == y then .inf x else .nan true
    | .inf x, _ => .inf x
    | _, .inf y => .inf y
    | .val p m, .val q n =>
      let z := p.add q
      .val z (if p.isZero && q.isZero && m == n then m else decide (rm = 3#2))
    | r, _ => r

/-- Product. -/
def Ex.mul (a b : Ex) : Ex :=
  match a.join b with
  | some r => r
  | none =>
    match a, b with
    | .inf x, .inf y => .inf (x != y)
    | .inf x, .val q n => if q.isZero then .nan true else .inf (x != n)
    | .val q n, .inf y => if q.isZero then .nan true else .inf (n != y)
    | .val p m, .val q n => .val (p.mul q) (m != n)
    | r, _ => r

/-- Negation. -/
def Ex.neg : Ex → Ex
  | .nan s => .nan s
  | .inf n => .inf (!n)
  | .val q n => .val q.neg (!n)

/-- The sign of an exact result that is no NaN. -/
def Ex.sign : Ex → Bool
  | .nan _ => false
  | .inf n => n
  | .val q n => if q.isZero then n else q.isNeg

/-- Less-than of two results that are no NaN, with −0 below +0 when `zeros`. -/
def Ex.lt (zeros : Bool) (a b : Ex) : Bool :=
  match a, b with
  | .inf x, .inf y => x && !y
  | .inf x, _ => x
  | _, .inf y => !y
  | .val p m, .val q n => p.lt q || (zeros && p.isZero && q.isZero && m && !n)
  | _, _ => false

/-- VMAX (`big`) and VMIN of R42. -/
def Ex.pick (big : Bool) (a b : Ex) : Ex × Fl :=
  match a, b with
  | .nan x, .nan y => (.nan false, flIf (x || y) NV)
  | .nan x, r => (r, flIf x NV)
  | r, .nan y => (r, flIf y NV)
  | _, _ => (if Ex.lt true a b == big then b else a, 0#8)

/-- Deliver an exact result in a format (R40, R42). -/
def Ex.round (f : Flt) (rm : BitVec 2) (fz : Bool) : Ex → Nat × Fl
  | .nan nv => (f.qnan, flIf nv NV)
  | .inf n => (f.inf n, 0#8)
  | .val q n => f.round rm fz q n

/-! M8 (R45 to R48). -/

/-- Magnitude of a body in units of 2^-18 (R45); 0 for body 0. -/
def m8Mag (b : Nat) : Nat :=
  if b = 0 then 0
  else
    let lz := 6 - Nat.log2 b
    if lz = 0 then (16 + b % 16) * 2 ^ (18 - 2 - 4 + b / 16 % 4)
    else if lz = 1 then
      let e := b / 4 % 4
      if b / 16 % 2 = 1 then (4 + b % 4) * 2 ^ (18 + 2 + e - 2) else (4 + b % 4) * 2 ^ (18 - 3 - e - 2)
    else if lz = 2 then
      let e := b / 2 % 4
      if b / 8 % 2 = 1 then (2 + b % 2) * 2 ^ (18 + 6 + e - 1) else (2 + b % 2) * 2 ^ (18 - 7 - e - 1)
    else if lz = 3 then
      if b / 4 % 2 = 1 then 2 ^ (18 + 10 + b % 4) else 2 ^ (18 - 11 - b % 4)
    else if lz = 4 then
      if b / 2 % 2 = 1 then 2 ^ (18 + 14 + b % 2) else 2 ^ (18 - 15 - b % 2)
    else if lz = 5 then
      if b % 2 = 1 then 2 ^ (18 + 16) else 2
    else 1

/-- m8_decode (R45, R48): NaR is a NaN that is not signalling. -/
def m8Decode (c : Nat) : FVal :=
  let neg := decide (c / 128 % 2 = 1)
  let b := c % 128
  if b = 0 then (if neg then .nan false else .num ⟨0, 1⟩ false)
  else .num ⟨(if neg then -1 else 1) * (m8Mag b : Int), 2 ^ 18⟩ neg

/-- The better of two bodies for a magnitude a/b in units of 2^-18 (R47). -/
def m8Better (a b : Nat) (x y : Nat) : Nat :=
  let dx := ((m8Mag x * b : Nat) - (a : Int)).natAbs
  let dy := ((m8Mag y * b : Nat) - (a : Int)).natAbs
  if dx < dy then x
  else if dy < dx then y
  else if x % 2 ≠ y % 2 then (if x % 2 = 0 then x else y)
  else if m8Mag x < m8Mag y then y else x

/-- m8_encode (R47). -/
def m8Encode (x : Ex) : Nat × Fl :=
  match x with
  | .nan _ => (0x80, NAR)
  | .inf n => (if n then 0x83 else 0x03, SAT)
  | .val q _ =>
    let neg := q.isNeg
    let a := q.num.natAbs * 2 ^ 18
    if q.den * 2 ^ 34 < a then (if neg then 0x83 else 0x03, SAT ||| NX)
    else
      let b := (List.range 128).foldl (fun best c => m8Better a q.den best c) 0
      (if b = 0 then 0 else if neg then 128 + b else b, flIf (decide (m8Mag b * q.den ≠ a)) NX)

/-! Integers and codes (R43, R49, R50). -/

/-- Range of an integer or code type. -/
def ETy.range : ETy → Int × Int
  | .i32 => (-2147483648, 2147483647)
  | .i16 => (-32768, 32767)
  | .i8 => (-128, 127)
  | .l8 => (-127, 127)
  | _ => (-511, 511)

/-- Two's complement of a bit pattern. -/
def signed (bits x : Nat) : Int := if 2 ^ (bits - 1) ≤ x then (x : Int) - 2 ^ bits else x

/-- The bit pattern of an integer. -/
def pattern (bits : Nat) (x : Int) : Nat := (x % 2 ^ bits).toNat

/-- Read an element of an integer or code type (R49 l8_read, R50 c10_read). -/
def ETy.readInt (t : ETy) (x : Nat) : Int × Fl :=
  match t with
  | .l8 => if x = 0x80 then (0, SAT) else (signed 8 x, 0#8)
  | .c10 => sat (-511) 511 (signed 16 x)
  | _ => (signed t.bits x, 0#8)

/-- Read an element of a float type or M8, with fz_in. -/
def ETy.readReal (t : ETy) (fz : Bool) (x : Nat) : Ex :=
  match t with
  | .m8 => (m8Decode x).ex
  | _ => (t.flt.decode fz x).ex

/-- Deliver an integer in an integer or code type: saturated once. -/
def ETy.putInt (t : ETy) (v : Int) : Nat × Fl :=
  let r := sat t.range.1 t.range.2 v
  (pattern t.bits r.1, r.2)

/-- Deliver an exact result in a float type, or in M8 through F32 (R48, R172). -/
def ETy.putReal (t : ETy) (fmt : Fmt) (x : Ex) : Nat × Fl :=
  match t with
  | .m8 =>
    let r := x.round flt32 fmt.rm fmt.fz
    let m := m8Encode (flt32.decode false r.1).ex
    (m.1, r.2 ||| m.2)
  | _ => x.round t.flt fmt.rm fmt.fz

/-! Vector registers as elements (R37). -/

/-- Cut a number into `n` elements of `bits` bits. -/
def cut (bits : Nat) : Nat → Nat → List Nat
  | 0, _ => []
  | n + 1, x => x % 2 ^ bits :: cut bits n (x / 2 ^ bits)

/-- Join elements of `bits` bits. -/
def join (bits : Nat) : List Nat → Nat
  | [] => 0
  | x :: xs => x % 2 ^ bits + 2 ^ bits * join bits xs

/-- The elements of a register. -/
def elems (t : ETy) (v : VWord) : List Nat := cut t.bits t.count v.toNat

/-- The register of elements. -/
def ofElems (t : ETy) (xs : List Nat) : VWord := BitVec.ofNat 32768 (join t.bits xs)

/-- The bytes of a register. -/
def vbytes (v : VWord) : List Nat := cut 8 4096 v.toNat

/-- The active bits of a mask for `n` elements (R20, R168). -/
def active (n : Nat) (k : Mask) : List Bool := (cut 1 n k.toNat).map (fun b => b == 1)

/-- A mask from its bits, those above cleared (R20). -/
def maskOf (bs : List Bool) : Mask := BitVec.ofNat 4096 (join 1 (bs.map (fun b => if b then 1 else 0)))

/-- Results and old elements merged under a mask (R168); only active elements set flags. -/
def merge : List Bool → List (Nat × Fl) → List Nat → List Nat × Fl
  | true :: bs, r :: rs, _ :: os =>
    let m := merge bs rs os
    (r.1 :: m.1, r.2 ||| m.2)
  | false :: bs, _ :: rs, o :: os =>
    let m := merge bs rs os
    (o :: m.1, m.2)
  | _, _, os => (os, 0#8)

/-- Raw results, without flags. -/
def raw (xs : List Nat) : List (Nat × Fl) := xs.map (fun x => (x, 0#8))

/-! Conversions (R52, R48). -/

/-- A float value to an integer or code type (R52). -/
def toIntTy (t : ETy) (rm : BitVec 2) : Ex → Nat × Fl
  | .nan _ => (0, NV)
  | .inf n => (pattern t.bits (if n then t.range.1 else t.range.2), NV)
  | .val q _ =>
    let r := t.putInt (q.round rm)
    (r.1, r.2 ||| flIf (!q.isInt) NX)

/-- Convert an element from one type to another (R52, R48); between equal float types NaNs are made canonical and FZ
applies. -/
def convert (fmt : Fmt) (ty dst : ETy) (x : Nat) : Nat × Fl :=
  if ty.isReal then
    let v := ty.readReal fmt.fz x
    let fl := match v with
      | .nan s => flIf s NV
      | _ => 0#8
    let r :=
      match dst with
      | .m8 => m8Encode v
      | .f32 => v.round flt32 fmt.rm fmt.fz
      | .f16 => v.round flt16 fmt.rm fmt.fz
      | .bf16 => v.round fltB fmt.rm fmt.fz
      | _ => toIntTy dst fmt.rm v
    (r.1, r.2 ||| fl)
  else
    let v := ty.readInt x
    let r :=
      match dst with
      | .m8 => m8Encode (.val (Q.ofInt v.1) false)
      | .f32 => flt32.round fmt.rm fmt.fz (Q.ofInt v.1) false
      | .f16 => flt16.round fmt.rm fmt.fz (Q.ofInt v.1) false
      | .bf16 => fltB.round fmt.rm fmt.fz (Q.ofInt v.1) false
      | _ => dst.putInt v.1
    (r.1, v.2 ||| r.2)

/-! Block exponents (R54). -/

/-- The exponent of a block: ilogb of the largest finite magnitude minus 6, or −128. -/
def blockExp (xs : List Ex) : Int :=
  let e := xs.foldl (fun (m : Option Int) x =>
    match x with
    | .val q _ => if q.isZero then m else
      (match m with
        | none => some q.ilogb
        | some k => some (max k q.ilogb))
    | _ => m) none
  match e with
  | none => -128
  | some k => (sat (-128) 127 (k - 6)).1

/-- Quantise against a block exponent (R54). -/
def quantise (e : Int) : Ex → Int × Fl
  | .nan _ => (0, NV)
  | .inf n => (if n then -127 else 127, SAT)
  | .val q _ =>
    let y := q.mul (Q.scale 1 (-e))
    let r := sat (-127) 127 y.rne
    (r.1, flIf (r.2 == SAT || !y.isInt) NX ||| r.2)

/-! The reduction tree (R55). -/

/-- One level: combine neighbours; an absent operand passes the other. -/
def treeLevel (op : Ex → Ex → Ex × Fl) : List (Option Ex) → List (Option Ex) × Fl
  | a :: b :: rest =>
    let m := treeLevel op rest
    match a, b with
    | some x, some y =>
      let r := op x y
      (some r.1 :: m.1, r.2 ||| m.2)
    | some x, none => (some x :: m.1, m.2)
    | none, y => (y :: m.1, m.2)
  | _ => ([], 0#8)

/-- The pairwise tree over `2^k` elements. -/
def tree (op : Ex → Ex → Ex × Fl) : Nat → List (Option Ex) → Option Ex × Fl
  | 0, xs => (xs.headD none, 0#8)
  | k + 1, xs =>
    let m := treeLevel op xs
    let r := tree op k m.1
    (r.1, m.2 ||| r.2)

/-- A combination of sums, rounded once in F32 (R55, R56). -/
def sumF32 (fmt : Fmt) (a b : Ex) : Ex × Fl :=
  let r := (Ex.add fmt.rm a b).round flt32 fmt.rm fmt.fz
  ((flt32.decode false r.1).ex, r.2)

/-! Scale-agreed sums (R59, R60). `xs` holds the 32 elements of each present rank. -/

/-- crdx_block for a float type (R59). -/
def crdxFloat (fmt : Fmt) (t : ETy) (n : Nat) (xs : List (List Nat)) : List Nat × Fl :=
  let vs := xs.map (fun r => r.map (fun x => t.readReal fmt.fz x))
  let fin : Ex → Bool := fun x => match x with
    | .val _ _ => true
    | _ => false
  let qof : Ex → Q := fun x => match x with
    | .val q _ => q
    | _ => ⟨0, 1⟩
  if vs.any (fun r => r.any (fun x => !fin x)) then (List.replicate n t.flt.qnan, NV)
  else
    let qs := vs.map (fun r => r.map qof)
    let nz := (qs.flatMap id).filter (fun q => !q.isZero)
    match nz with
    | [] => (List.replicate n 0, 0#8)
    | q0 :: rest =>
      let e := rest.foldl (fun m q => max m q.ilogb) q0.ilogb
      let us := qs.map (fun r => r.map (fun q => sat (-16383) 16383 (q.mul (Q.scale 1 (13 - e))).rne))
      let ms := us.map (fun r => r.map (·.1))
      let clamped := us.foldl (fun f r => r.foldl (fun f u => f ||| u.2) f) 0#8
      let sums := (List.range n).map (fun i => ms.foldl (fun a r => a + r.getD i 0) 0)
      let rs := sums.map (fun v => t.flt.round 0#2 fmt.fz (Q.scale v (e - 13)) false)
      (rs.map (·.1), rs.foldl (fun f r => f ||| r.2) clamped)

/-- The exact integer sum of a block (R60). -/
def crdxInt (t : ETy) (n : Nat) (xs : List (List Nat)) : List Nat × Fl :=
  let rs := (List.range n).map (fun i => t.putInt (xs.foldl (fun a r => a + signed t.bits (r.getD i 0)) 0))
  (rs.map (·.1), rs.foldl (fun f r => f ||| r.2) 0#8)

/-- A block of a reduction over the present ranks (R252). -/
def crdxBlock (fmt : Fmt) (t : ETy) (n : Nat) (xs : List (List Nat)) : List Nat × Fl :=
  if t.isFloat then crdxFloat fmt t n xs else crdxInt t n xs

end Sys2Proof.Machine
end

