-- ==== Sys2Proof/Machine/Operands.lean ====
section
/-!
DEFINITION. Operand forms: handle addresses and their checks (spec 01 R24 to R26, 06 R121, R122), translation by XLT
(R151 to R153), branch targets (R143), and waybills and their checks (09 R230 to R233, R245, R247, R249, R251).
-/
namespace Sys2Proof.Machine

/-! Handle addresses. -/

/-- Handle index of a handle address (R25). -/
def haIndex (ha : Word) : Fin 32 := (ha.extractLsb' 59 5).toFin

/-- Offset of a handle address (R25). -/
def haOffset (ha : Word) : Nat := (ha.extractLsb' 0 59).toNat

/-- Window of an h0 offset (R26). -/
def haWindow (ha : Word) : Fin 16 := (ha.extractLsb' 19 4).toFin

/-- Byte offset within the scratchpad of an h0 offset (R26). -/
def haByte (ha : Word) : Nat := (ha.extractLsb' 0 19).toNat

/-- HADR (R130): index and offset joined. -/
def hadr (h : Fin 32) (a : Word) : Word := BitVec.ofFin h ++ a.extractLsb' 0 59

/-- A car that R26 lets others reach: resident, and of the same service. -/
def Car.reachable (c x : Car) (core : BitVec 9) : Bool :=
  x.ident.coreId == core && x.ident.serviceId == c.ident.serviceId && x.place.spec == c.place.spec
    && (match x.life with
      | .held _ => true
      | .running => true
      | .halted => true
      | _ => false)

/-- The car that a window's core holds for the issuing car (R26). -/
def State.peerCar (s : State) (c : Car) (core : BitVec 9) : Option Car := s.cars.find? (fun x => c.reachable x core)

/-- WMAPn: EN and core; WMAP0 is the car's own core (R33). -/
def Car.wmap (c : Car) (n : Fin 16) : BitVec 10 := if n = 0 then 1#1 ++ c.ident.coreId else c.ctl.wmap[n]

/-- The span of a handle in bytes (R25, R122). -/
def Car.span (c : Car) (h : Fin 32) : Nat :=
  if h = 1 then (if c.tr.handler then Config.imemSize else Config.handlerBase)
  else match (c.handle h).sz.toNat with
    | 0 => 0x10000
    | 1 => 0x200000
    | _ => 0x40000000

/-- R26: `n` bytes at an h0 address lie in one scratchpad that the car may reach. -/
def State.windowOk (s : State) (c : Car) (ha : Word) (n : Nat) : Bool :=
  ha.extractLsb' 23 36 == 0#36 && decide (haByte ha + n ≤ Config.spadSize) &&
    (haWindow ha == 0 ||
      ((c.wmap (haWindow ha)).getLsbD 9 && (s.peerCar c ((c.wmap (haWindow ha)).extractLsb' 0 9)).isSome))

/-- What an access wants of its address: rights, bytes of the range whose places are checked (R178; 1 for the offset alone,
R25), alignment, whether it is an atomic or a scatter (which no window or h1 serves, R139, R184). -/
structure Want where
  rd : Bool := false
  wr : Bool := false
  len : Nat := 1
  align : Nat := 1
  alone : Bool := false

/-- Steps 2 to 4 of R121 for an address. -/
def State.haCause (s : State) (ha : Word) (w : Want) : Option Trap :=
  let c := s.src
  let h := haIndex ha
  let r := c.handle h
  let no := fun (k : Cause) => some ({ cause := k, taddr := ha } : Trap)
  if !r.v then no .handleRevoked
  else if h == 0 && !s.windowOk c ha w.len then no .access
  else if h == 0 && w.alone && haWindow ha != 0 then no .access
  else if h != 0 && !decide (haOffset ha + w.len ≤ c.span h) then no .access
  else if (w.rd && !r.rd) || (w.wr && !r.wr) || (w.alone && h == 1) then no .access
  else if w.wr && h == 0 && haWindow ha != 0 && c.ctl.wal[haWindow ha] == 0#8 then no .windowClosed
  else if haOffset ha % w.align ≠ 0 then no .align
  else none

/-- R121: the checks of an access at `sa + off`. -/
def State.addrCause (s : State) (sa ha : Word) (w : Want) : Option Trap :=
  if ha.extractLsb' 59 5 ≠ sa.extractLsb' 59 5 then some { cause := .access, taddr := ha } else s.haCause ha w

/-- Where an address that passed its checks leads. -/
def Car.target (c : Car) (d : Device) (ha : Word) : Target :=
  let h := haIndex ha
  if h = 0 then
    (if haWindow ha = 0 then .spad (haByte ha)
     else .peer (haWindow ha).val ((c.wmap (haWindow ha)).extractLsb' 0 9) (haByte ha))
  else if h = 1 then .imem (haOffset ha)
  else
    let r := c.handle h
    d.decodePA r.rmt r.sm r.c (BitVec.ofNat 52 (r.frame.toNat * 0x10000 + haOffset ha))

/-- Where an address leads, as the slots of the bundle see it. -/
def State.target (s : State) (ha : Word) : Target := s.src.target s.srcDev ha

/-- Local places (R290). -/
def Target.isLocal : Target → Bool
  | .spad _ => true
  | .imem _ => true
  | _ => false

/-- Byte displaced within a target. -/
def Target.plus (t : Target) (k : Nat) : Target :=
  match t with
  | .spad o => .spad (o + k)
  | .imem o => .imem (o + k)
  | .peer w c o => .peer w c (o + k)
  | .hbm p m => .hbm (p + k) m
  | .host p => .host (p + k)
  | .remote p c => .remote (p + BitVec.ofNat 52 k) c
  | .nowhere => .nowhere

/-- A load's address: sa plus the offset in units of the size (R74, R132). -/
def State.loadAddr (s : State) (a : SReg) (off : BitVec 36) (size : Nat) : Word :=
  s.rS a + off.signExtend 64 * BitVec.ofNat 64 size

/-- A vector memory address: sa plus the offset in units of 512 bytes (R178). -/
def State.vecAddr (s : State) (a : SReg) (off : BitVec 34) : Word :=
  s.rS a + off.zeroExtend 64 * 512#64

/-! What a speculation may not touch (R166, R208, R389). -/

/-- An access of a speculative car at a target dooms: outside its own scratchpad and instruction memory, every byte must lie in
a declared handle of an unmanaged page, for a store or an atomic in one of mode W or RW, whose granules the Siding shadows
(R386); a write also needs its shadow pages (R387; notes/assumptions/36.md). -/
def State.specForbids (s : State) (t : Target) (n : Nat) (wr atomic : Bool) : Bool :=
  match s.srcDev.specOf s.src with
  | none => false
  | some x =>
    match t with
    | .spad _ => false
    | .imem _ => false
    | .hbm pa false => !s.srcDev.declared x (wr || atomic) pa n || (wr && s.srcDev.shadowFull x pa n)
    | _ => true

/-- An access of a speculative car through a handle address dooms: a write to an RMT page does wherever it lies (R389). -/
def State.specBars (s : State) (ha : Word) (n : Nat) (wr atomic : Bool) : Bool :=
  s.specForbids (s.target ha) n wr atomic || (s.src.place.spec && wr && (s.src.handle (haIndex ha)).rmt)

/-! XLT (R151 to R153). -/

/-- What an XLT finds. -/
inductive XltSees where
  | hit (e : TlbEntry)
  | miss
  | fault
deriving DecidableEq, Repr

/-- XLT of an address for the rights in md (R152, R153, R319). -/
def Car.xltSees (c : Car) (va : Word) (md : BitVec 2) : XltSees :=
  if va.extractLsb' 56 8 ≠ 0#8 then .fault
  else if c.eng.walk = .faulted va then .fault
  else match tlbFind c.eng.tlb va.toNat with
    | none => .miss
    | some e => if leafGrants e.leaf (md.getLsbD 0) (md.getLsbD 1) then .hit e else .fault

/-- The handle that XLT writes (R151), busy until a cycle. -/
def TlbEntry.handle (e : TlbEntry) (md : BitVec 2) (busy : Nat) : Handle :=
  { v := true, rd := md.getLsbD 0, wr := md.getLsbD 1
    sz := if e.size = 0x10000 then 0#2 else if e.size = 0x200000 then 1#2 else 2#2
    sm := e.leaf.getLsbD 4, c := e.leaf.getLsbD 5, rmt := e.leaf.getLsbD 6
    frame := leafFrame e.leaf, vpage := e.page, busy := busy }

/-! Branch targets (R141, R143). -/

/-- Target of a relative branch: the bundle's address plus words. -/
def State.branchTarget (s : State) (off : BitVec 42) : Word := s.src.pc.setWidth 64 + (off.signExtend 64 <<< 2)

/-- R143: a taken target at or above 0x2_0000 raises ACCESS. -/
def targetCause (t : Word) : Option Trap :=
  if t.extractLsb' 17 47 ≠ 0#47 then some { cause := .access, taddr := t } else none

/-- R143 for JR. -/
def jumpCause (t : Word) : Option Trap :=
  match targetCause t with
  | some x => some x
  | none => if t.extractLsb' 0 2 ≠ 0#2 then some { cause := .align, taddr := t } else none

/-! Waybills (R232, R233). -/

/-- A waybill register as its consumers see it (R93). -/
def State.waybill (s : State) (w : Ix16) : Waybill := s.src.regs.w[w]

/-- SHAPE with a waybill register and a row (R232). -/
def shape (w : Ix16) (row : Nat) : Option Trap :=
  some { cause := .shape, taddr := BitVec.ofNat 64 (row * 256 + w.val) }

/-- ACCESS or another cause at an address. -/
def at_ (k : Cause) (a : Word) : Option Trap := some { cause := k, taddr := a }

/-- Row 1: reserved fields are zero. -/
def Waybill.reservedOk (w : Waybill) : Bool := w[2].extractLsb' 39 25 == 0#25 && w[7].extractLsb' 23 41 == 0#41

/-- Row 2: empty. -/
def Waybill.empty (w : Waybill) : Bool := w.count == 0

/-- Row 5: BASE is a multiple of the element size. -/
def Waybill.baseOk (w : Waybill) : Bool := w[0].toNat % w.esz == 0

/-- Row 6: strides of levels with extent above 1 are multiples of the element size. -/
def Waybill.stridesOk (w : Waybill) : Bool :=
  (w.extents.zip w.strides).all (fun p => decide (p.1 ≤ 1) || decide (p.2 % (w.esz : Int) = 0))

/-- Put a level where its |T| belongs, after those with the same |T|. -/
def insertLevel (l : Nat × Nat) : List (Nat × Nat) → List (Nat × Nat)
  | [] => [l]
  | m :: ms => if l.2 < m.2 then l :: m :: ms else m :: insertLevel l ms

/-- R233 over sorted levels. -/
def nested : Nat → List (Nat × Nat) → Bool
  | _, [] => true
  | span, (x, t) :: ls => decide (span ≤ t) && nested (t * (x - 1) + span) ls

/-- Row 7: the nested-extent test (R233). -/
def Waybill.nestedOk (w : Waybill) : Bool :=
  let ls := (w.extents.zip w.strides).filterMap (fun p => if 1 < p.1 then some (p.1, p.2.natAbs) else none)
  nested w.esz (ls.foldl (fun acc l => insertLevel l acc) [])

/-- Row 8: product of extents × element size is below 2^40. -/
def Waybill.sizeOk (w : Waybill) : Bool := decide (w.count * w.esz < 2 ^ 40)

/-- Row 9: AUX alignment. -/
def Waybill.auxOk (w : Waybill) : Bool := !w.auxen || w.aux.toNat % 64 == 0

/-- Blocks of 256 bytes of a destination stream (R239). -/
def Waybill.blocks (w : Waybill) : Nat := (w.count * w.esz + 255) / 256

/-- Bytes of the AUX area: a mask bit per block, or an I16 count per 32 elements for CRDX (R239, R252). -/
def Waybill.auxLen (w : Waybill) (op : EngineOp) : Nat :=
  match op with
  | .crdx => 2 * ((w.count + 31) / 32)
  | _ => (w.blocks + 7) / 8

/-- The first index below `n`, from `m` on, that fails. -/
def firstBad (f : Nat → Option Trap) : Nat → Nat → Option Trap
  | 0, _ => none
  | n + 1, m =>
    match f m with
    | some t => some t
    | none => firstBad f n (m + 1)

/-- Row 10 for one h0 address of a waybill with SP = 1. -/
def State.elemCause (s : State) (dst : Bool) (ha : Word) : Option Trap :=
  if haIndex ha ≠ 0 ∨ !s.windowOk s.src ha 1 then at_ .access ha
  else if haWindow ha = 0 then none
  else if !dst then at_ .access ha
  else if s.src.ctl.wal[haWindow ha] = 0#8 then at_ .windowClosed ha
  else none

/-- Row 10 of R232 for one waybill: its elements, then its AUX area. -/
def State.placeCause (s : State) (op : EngineOp) (dst : Bool) (w : Waybill) : Option Trap :=
  if w.sp then
    match firstBad (fun m => s.elemCause dst (w.elem m)) w.count 0 with
    | some t => some t
    | none => if w.auxen then firstBad (fun i => s.elemCause dst (w.aux + BitVec.ofNat 64 i)) (w.auxLen op) 0 else none
  else none

/-- Row 11 of R232 for one waybill. -/
def Waybill.highCause (w : Waybill) : Option Trap :=
  if w.sp then none
  else if w[0].extractLsb' 56 8 ≠ 0#8 then at_ .access w[0]
  else if w.auxen ∧ w.aux.extractLsb' 56 8 ≠ 0#8 then at_ .access w.aux
  else none

/-- Rows 1 to 11 for a pair of waybills; `agree` is row 4 of the instruction, `useSrc` whether the source is read. -/
def State.pairCause (s : State) (op : EngineOp) (rs rd : Ix16) (member : Option Trap) (agree useSrc : Bool) : Option Trap :=
  let ws := s.waybill rs
  let wd := s.waybill rd
  let bad := fun (f : Waybill → Bool) (row : Nat) => if useSrc && !f ws then shape rs row else if !f wd then shape rd row else none
  (bad Waybill.reservedOk 1).orElse fun _ =>
  member.orElse fun _ =>
  if (useSrc && ws.empty) || wd.empty then none
  else
    (if useSrc && ws.esz != wd.esz then shape rd 3 else none).orElse fun _ =>
    (if !agree then shape rd 4 else none).orElse fun _ =>
    (bad Waybill.baseOk 5).orElse fun _ =>
    (bad Waybill.stridesOk 6).orElse fun _ =>
    (if !wd.nestedOk then shape rd 7 else none).orElse fun _ =>
    (bad Waybill.sizeOk 8).orElse fun _ =>
    (bad Waybill.auxOk 9).orElse fun _ =>
    (if useSrc then s.placeCause op false ws else none).orElse fun _ =>
    (s.placeCause op true wd).orElse fun _ =>
    (if useSrc then ws.highCause else none).orElse fun _ => wd.highCause

/-- Checks of a CCPY (R232). -/
def State.copyCause (s : State) (rs rd : Ix16) : Option Trap :=
  s.pairCause .ccpy rs rd none ((s.waybill rs).count == (s.waybill rd).count) true

/-! Collective groups (R419, R420). -/

/-- The committed entry of a group. -/
def Device.group (d : Device) (g : Nat) : GroupEntry := Tab.get {} d.fab.groups g

/-- NPER and the number of ranks. -/
def GroupEntry.nper (e : GroupEntry) : Nat := (e.words[0].extractLsb' 0 9).toNat
def GroupEntry.npkg (e : GroupEntry) : Nat := (e.words[0].extractLsb' 16 10).toNat
def GroupEntry.ranks (e : GroupEntry) : Nat := (e.npkg + 1) * e.nper
def GroupEntry.kind (e : GroupEntry) : BitVec 2 := e.words[0].extractLsb' 62 2

/-- The rank of a car in a collective group; none when it is no member (R420). -/
def Device.rankOf (d : Device) (c : Car) (g : Nat) : Option Nat :=
  let e := d.group g
  if e.kind = 1#2 ∧ c.ident.carId.toNat < e.nper ∧ c.ident.serviceId.extractLsb' 32 16 = e.words[1].extractLsb' 32 16
      ∧ c.ident.consistId = e.words[1].extractLsb' 0 32 then
    match e.plist.findIdx? (fun p => p == d.fab.regs.pkgId.toNat) with
    | some i => some (i * e.nper + c.ident.carId.toNat)
    | none => none
  else none

/-- R251: a car that is no member raises ACCESS with the group number. -/
def State.memberCause (s : State) (rd : Ix16) : Option Trap :=
  let g := (s.waybill rd).group
  match s.srcDev.rankOf s.src g with
  | some _ => none
  | none => at_ .access (BitVec.ofNat 64 g)

/-- The element type and size of a collective agree (R252). -/
def Waybill.typeOk (w : Waybill) : Bool :=
  match ETy.ofCode w.type with
  | some t => (t.isFloat || t.isInt) && t.size == w.esz
  | none => false

/-- Checks of a CRDX (R252). -/
def State.reduceCause (s : State) (rs rd : Ix16) : Option Trap :=
  let ws := s.waybill rs
  let wd := s.waybill rd
  s.pairCause .crdx rs rd (s.memberCause rd) (ws.count == wd.count && ws.type == wd.type && wd.typeOk) true

/-- Checks of a CAGT (R253). -/
def State.gatherCause (s : State) (rs rd : Ix16) : Option Trap :=
  let ws := s.waybill rs
  let wd := s.waybill rd
  s.pairCause .cagt rs rd (s.memberCause rd) (wd.count == (s.srcDev.group wd.group).ranks * ws.count) true

/-- Is the car the root of a CBCT (R253)? -/
def State.isRoot (s : State) (rd : Ix16) : Bool :=
  s.srcDev.rankOf s.src (s.waybill rd).group == some (s.waybill rd).root

/-- Checks of a CBCT (R253): only the root's source is checked. -/
def State.broadcastCause (s : State) (rs rd : Ix16) : Option Trap :=
  let ws := s.waybill rs
  let wd := s.waybill rd
  s.pairCause .cbct rs rd (s.memberCause rd) (!s.isRoot rd || ws.count == wd.count) (s.isRoot rd)

/-! Line streams (R245, R247). -/

/-- The line belongs to the car's coupling (R245). -/
def State.lineCause (s : State) (l : Ix16) : Option Trap :=
  if s.src.coupledTo l then none else at_ .access (BitVec.ofNat 64 l.val)

/-- Beats of a stream of `n` bytes; none when the size is not of the form of R245. -/
def streamBeats (n : Nat) : Option Nat :=
  if 288 ≤ n ∧ (n - 32) % 256 = 0 ∧ (n - 32) / 256 ≤ 65535 then some ((n - 32) / 256) else none

/-- Checks of a CLS (R245). -/
def State.clsCause (s : State) (l rs : Ix16) : Option Trap :=
  let w := s.waybill rs
  (if !w.reservedOk then shape rs 1 else none).orElse fun _ =>
  (if w.empty then none else
    (if !w.baseOk then shape rs 5 else none).orElse fun _ =>
    (if !w.stridesOk then shape rs 6 else none).orElse fun _ =>
    (if !w.sizeOk then shape rs 8 else none).orElse fun _ =>
    (s.placeCause .cls false w).orElse fun _ =>
    (if (streamBeats (w.count * w.esz)).isNone then shape rs 12 else none).orElse fun _ =>
    (if !w.sp || (firstBad (fun m => if haWindow (w.elem m) = 0 then none else at_ .access w[0]) w.count 0).isSome
     then at_ .access w[0] else none)).orElse fun _ =>
  s.lineCause l

/-- Checks of a CLSF (R247): group in bits 11:0, beats in bits 47:32 of sa, every other bit zero. -/
def State.clsfCause (s : State) (l : Ix16) (a : SReg) : Option Trap :=
  let x := s.rS a
  if x.extractLsb' 12 20 ≠ 0#20 ∨ x.extractLsb' 48 16 ≠ 0#16 ∨ x.extractLsb' 32 16 = 0#16 then
    some { cause := .shape, taddr := 0#64 }
  else s.lineCause l

/-! Stash mappings (R249, R250). -/

/-- Bytes of a mapping's range. -/
def Waybill.stashLen (w : Waybill) : Nat := (w.count * w.esz + 63) / 64 * 64

/-- Checks of a CMAP (R249). -/
def State.mapCause (s : State) (rs : Ix16) (a : SReg) : Option Trap :=
  let w := s.waybill rs
  let ha := s.rS a
  let len := w.stashLen
  let lo := haByte ha
  if !w.reservedOk then shape rs 1
  else if !w.empty && !w.baseOk then shape rs 5
  else if !w.empty && !w.stridesOk then shape rs 6
  else if !w.empty && !w.nestedOk then shape rs 7
  else if !w.empty && !w.sizeOk then shape rs 8
  else if !w.empty && w.highCause.isSome then w.highCause
  else if w.sp || w.empty then at_ .access ha
  else if haIndex ha != 0 || haWindow ha != 0 || !s.windowOk s.src ha len || lo % 64 != 0 then at_ .access ha
  else if s.src.eng.stash.any (fun m => decide (lo < m.base + m.len ∧ m.base < lo + len)) then at_ .access ha
  else if 8 ≤ s.src.eng.stash.length then at_ .access ha
  else none

/-- The mapping that starts at an address. -/
def Car.stashAt (c : Car) (ha : Word) : Option Stash :=
  if haIndex ha = 0 ∧ haWindow ha = 0 ∧ ha.extractLsb' 23 36 = 0#36 then c.eng.stash.find? (fun m => m.base == haByte ha) else none

/-- Checks of a CUNM (R250). -/
def State.unmapCause (s : State) (a : SReg) : Option Trap :=
  match s.src.stashAt (s.rS a) with
  | some _ => none
  | none => at_ .access (s.rS a)

/-- Checks of a range operation over its widened range (R248): R121 steps 1 to 3 with RD; h0 and h1 raise ACCESS. -/
def State.rangeCause (s : State) (a b : SReg) : Option Trap :=
  let ha := s.rS a
  let n := (s.rS b).toNat
  let lo := haOffset ha / 64 * 64
  let hi := (haOffset ha + n + 63) / 64 * 64
  let h := haIndex ha
  if n = 0 then none
  else if !(s.src.handle h).v then at_ .handleRevoked ha
  else if h.val < 2 then at_ .access ha
  else if s.src.span h < hi ∨ !(s.src.handle h).rd ∨ hi ≤ lo then at_ .access ha
  else none

/-- Checks of YLDW and YSTW (R257): window 0 and a multiple of 64. -/
def State.spad64Cause (s : State) (ha : Word) : Option Trap :=
  if haIndex ha != 0 || haWindow ha != 0 || !s.windowOk s.src ha 1 then at_ .access ha
  else if haByte ha % 64 != 0 then at_ .align ha
  else none

/-- Checks of SNAPST and SNAPLD (R162): window 0, the whole image below 0x6_0000, 64-byte aligned. -/
def State.imageCause (s : State) (ha : Word) : Option Trap :=
  if haIndex ha != 0 || haWindow ha != 0 || !s.windowOk s.src ha 1024 then at_ .access ha
  else if haByte ha % 64 != 0 then at_ .align ha
  else none

end Sys2Proof.Machine
end

