-- ==== Sys2Proof/Machine/Plan.lean ====
section
/-!
DEFINITION. What a slot needs before its bundle may issue, and what becomes of a bundle whose slots have these needs
(spec 03 R70, R71, 04 R88 to R100). A slot is such a plan and the effect of issuing.
-/
namespace Sys2Proof.Machine

/-- A register operand. Vector registers stand by their physical number. -/
inductive Opnd where
  | s (r : SReg)
  | v (p : Nat)
  | k (r : KReg)
deriving DecidableEq, Repr

/-- A unit that can be occupied (R92, R209). -/
inductive UnitNeed where
  | none
  | vec
  | divider
  | array
  | copy
deriving DecidableEq, Repr

/-- The needs of one slot: TE, ILLEGAL_INSN and PRIV causes, its unit, a wait of step 3 of R88 that depends on its
operands' values, its source and destination registers, any other precise cause, whether a speculation dooms on it,
a virtual address whose translation it needs, a range that it maps. -/
structure Plan where
  te : Bool := false
  illegal : Bool := false
  priv : Bool := false
  unit : UnitNeed := .none
  wait : Bool := false
  srcs : List Opnd := []
  dsts : List Opnd := []
  cause : Option Trap := none
  dooms : Bool := false
  walk : Option Word := none
  /-- The scratchpad range that a CMAP maps (R249). -/
  maps : Option (Nat × Nat) := none
deriving DecidableEq, Repr

/-- Is an operand full (R13)? -/
def Car.isFull (c : Car) : Opnd → Bool
  | .s r => !c.emptyS r
  | .v p => !c.marks.emptyV.getLsbD p
  | .k r => r == 0 || !c.marks.emptyK.getLsbD r.val

/-- Does an operand carry a poison mark (R134, R180)? -/
def Car.isPoisoned (c : Car) : Opnd → Bool
  | .s r => c.poisonS r
  | .v p => c.marks.poisonV.getLsbD p
  | .k r => r != 0 && c.marks.poisonK.getLsbD r.val

/-- Every operand of a list is full. -/
def State.full (s : State) (os : List Opnd) : Bool := os.all (fun o => s.src.isFull o)

/-! Units (R92, R99, R100). -/

/-- The vector unit that the V slot in issue drives, and of a bundle that is judged its first one (R63). -/
def State.vecUnit (s : State) : Nat := s.car.units.slot.val

/-- Cycle until which a vector unit is occupied for the focused car: a secondary also finds the primary's work in it. -/
def State.vecBusy (s : State) (u : Nat) : Nat :=
  let own := if u = 0 then s.src.units.v0 else s.src.units.v1
  match s.primaryOf s.src with
  | some p => Nat.max own (if u = 0 then p.units.v0 else p.units.v1)
  | none => own

/-- Cycle until which the divider is occupied for the focused car. -/
def State.divBusy (s : State) : Nat :=
  match s.primaryOf s.src with
  | some p => Nat.max s.src.units.divider p.units.divider
  | none => s.src.units.divider

/-- Copy numbers in use on a core (R235). -/
def State.numbersInUse (s : State) (core : BitVec 9) : List Nat :=
  (s.cars.filter (fun c => c.ident.coreId == core)).flatMap (fun c =>
    c.eng.copies.map (fun k => k.num) ++ c.eng.unmaps.map (fun u => u.num) ++ c.eng.stash.map (fun m => m.num))

/-- The lowest free copy number of the focused car's core (R235). -/
def State.freeNumber (s : State) : Option Nat :=
  let used := s.numbersInUse s.car.ident.coreId
  (List.range 48).find? (fun n => !used.contains n)

/-- Free copy numbers of the focused car's core. -/
def State.freeNumbers (s : State) : Nat :=
  let used := s.numbersInUse s.car.ident.coreId
  ((List.range 48).filter (fun n => !used.contains n)).length

/-- The power manager throttles vector issue in this cycle (R464): in THRP of every 256 cycles (notes/assumptions/30.md). -/
def State.throttled (s : State) : Bool := decide (s.now % 256 < s.dev.house.thrp)

/-- Step 3 of R88 for the units that plans need: any of them is occupied. -/
def State.unitsBusy (s : State) (ps : List Plan) : Bool :=
  let vecs := (ps.filter (fun p => p.unit == .vec)).length
  let copies := (ps.filter (fun p => p.unit == .copy)).length
  (List.range vecs).any (fun i => s.throttled || decide (s.now < s.vecBusy (s.vecUnit + i)))
    || (ps.any (fun p => p.unit == .divider) && decide (s.now < s.divBusy))
    || (ps.any (fun p => p.unit == .array) && decide (s.now < s.src.units.array))
    || decide (s.freeNumbers < copies)

/-- A vector operation occupies its unit for some cycles (R92, R169). -/
def State.takeVec (s : State) (n : Nat) : State :=
  if s.vecUnit = 0 then s.mapCar (fun c => { c with units.v0 := s.now + n })
  else s.mapCar (fun c => { c with units.v1 := s.now + n })

/-! The decision (R71, R88). -/

/-- What becomes of a bundle at issue. -/
inductive Verdict where
  | go
  | wait
  | trap (t : Trap)
  | doom
  | walk (va : Word)
deriving DecidableEq, Repr

/-- The cause of a slot beside ILLEGAL_INSN, PRIV and EMPTY: a poisoned source first (R134), then its own checks. -/
def State.slotCause (s : State) (p : Plan) : Option Trap :=
  if p.srcs.any (fun o => s.src.isPoisoned o) then some (s.here .uncorrectable) else p.cause

/-- R88 over the slots of a bundle, with R71 for several causes. A wait that depends on a slot's operands is one of its plan
only when those operands are full. -/
def State.verdict (s : State) (ps : List Plan) : Verdict :=
  if ps.any (fun p => p.illegal) then .trap (s.here .illegalInsn)
  else if ps.any (fun p => p.priv) then .trap (s.here .priv)
  else if s.unitsBusy ps || ps.any (fun p => p.wait) then .wait
  else if ps.any (fun p => p.te && !s.full p.srcs) then .trap (s.here .empty)
  else if ps.any (fun p => !s.full p.srcs || !s.full p.dsts) then .wait
  else match ps.findSome? s.slotCause with
    | some t => .trap t
    | none =>
      if ps.any (fun p => p.dooms) then .doom
      else match ps.findSome? (fun p => p.walk) with
        | some va => .walk va
        | none => .go

/-- An XLT that misses freezes its car while the walk runs (R152). -/
def State.startWalk (s : State) (va : Word) : State := s.mapCar (fun c => { c with eng.walk := .running va s.now })

/-- The car's bundle stands at issue, since this cycle or an earlier one (R322). -/
def Car.stand (c : Car) (now : Nat) : Car := { c with stood := some (c.stood.getD now) }

/-- The bundle stays at issue: nothing of it has happened (R88). -/
def State.stays (s : State) : State := s.rollback.mapCar (fun c => c.stand s.now)

/-- A bundle that does not issue. -/
def State.settle (s : State) (v : Verdict) : State :=
  match v with
  | .go => s
  | .wait => s.stays
  | .trap t => s.preciseTrap t
  | .doom => s.doom
  | .walk va => s.stays.startWalk va

/-- The slot issues with its effect, or its bundle waits or traps. -/
def State.issue (s : State) (p : Plan) (eff : State → State) : State :=
  match s.verdict [p] with
  | .go => eff s
  | v => s.settle v

/-- What a slot needs and what it does: the two parts of a meaning. -/
structure SlotOp where
  plan : Plan
  eff : State → State

/-- The meaning of a slot. -/
def SlotOp.run (o : SlotOp) (s : State) : Result := .next (s.issue o.plan o.eff)

/-! Plans of operand forms. -/

/-- Sources and a destination in scalar registers. -/
def planS (te : Bool) (srcs : List SReg) (dsts : List SReg) : Plan :=
  { te := te, srcs := srcs.map Opnd.s, dsts := dsts.map Opnd.s }

/-- A busy handle (R152). -/
def Car.handleBusy (c : Car) (now : Nat) (h : Fin 32) : Bool := decide (2 ≤ h.val ∧ now < (c.handle h).busy)

/-- An acquire of an earlier bundle has not performed: no access of a later bundle comes before it (R295, R296). -/
def State.acquiring (s : State) : Bool :=
  s.srcDev.fab.remote.any (fun r => r.car == s.src.ref && r.acquire) || s.src.eng.queue.any (fun x => x.acquire)

/-- The wait of an access through an address in scalar register `a`: an acquire, or its busy handle once `a` tells which
(R152, R296). -/
def State.memWait (s : State) (a : SReg) (ha : Word) : Bool :=
  s.acquiring || (s.src.isFull (.s a) && s.src.handleBusy s.now (haIndex ha))

/-- An entry of the store queue holds bytes of a place. -/
def Queued.meets (x : Queued) (t : Target) (n : Nat) : Bool :=
  let k := if x.atomic.isSome then 8 else x.bytes.length
  match x.target, t with
  | .spad a, .spad b => decide (a < b + n ∧ b < a + k)
  | .hbm a _, .hbm b _ => decide (a < b + n ∧ b < a + k)
  | .host a, .host b => decide (a < b + n ∧ b < a + k)
  | _, _ => false

/-- An access of `n` bytes at a place comes behind an entry of the store queue there, unless it is a load that takes the bytes
of a store to the own scratchpad from the queue (R291). -/
def State.behind (s : State) (t : Target) (n : Nat) (load : Bool) : Bool :=
  s.src.eng.queue.any (fun x => x.meets t n && !(load && x.atomic.isNone && t.isLocal))

/-- The wait of an access to bytes of the own scratchpad whose address is in scalar register `a`. -/
def State.localWait (s : State) (a : SReg) (off n : Nat) (load : Bool) : Bool :=
  s.acquiring || (s.src.isFull (.s a) && s.behind (.spad off) n load)

/-- A memory access of a slot at an address formed from scalar register `a` (R121, R132, R166): its wait, its checks, its
doom. -/
def State.planMem (s : State) (p : Plan) (a : SReg) (ha : Word) (w : Want) (n : Nat) : Plan :=
  { p with
    wait := s.memWait a ha || (s.src.isFull (.s a) && s.behind (s.target ha) n (!w.wr))
    cause := s.addrCause (s.rS a) ha w
    dooms := s.specBars ha n w.wr w.alone }

/-! Watchpoints (R338). -/

/-- The debug block of a car's core. It serves the primary car of a merged core, and a secondary only where no primary is beside it
(notes/assumptions/64.md). -/
def State.debugOf (s : State) (c : Car) : Debug :=
  if (s.primaryOf c).isSome then {} else Tab.get {} s.dev.debug c.ident.coreId.toNat

/-- The watched range of watchpoint `i`, when it is enabled for the access. -/
def Debug.watchRange (b : Debug) (i : Fin 2) (rd wr : Bool) : Option (Bool × Nat × Nat) :=
  let k := b.wpc[i]
  let len := (k.extractLsb' 0 5).toNat
  if b.ctl.getLsbD (8 + i.val) && ((rd && k.getLsbD 8) || (wr && k.getLsbD 9)) && decide (3 ≤ len ∧ len ≤ 21) then
    let a := b.wpa[i]
    let own := a.getLsbD 63
    let ad := (a.extractLsb' 0 (if own then 19 else 52)).toNat
    some (own, ad / 2 ^ len * 2 ^ len, 2 ^ len)
  else none

/-- The address of a target as a watchpoint compares it: own scratchpad or physical. -/
def Target.watchAddr : Target → Option (Bool × Nat)
  | .spad o => some (true, o)
  | .hbm pa _ => some (false, pa)
  | .host pa => some (false, pa)
  | .remote pa _ => some (false, pa.toNat)
  | _ => none

/-- The lowest byte of an access that a watchpoint matches. -/
def Debug.matches (b : Debug) (t : Target) (n : Nat) (rd wr : Bool) : List (Fin 2 × Nat) :=
  [(0 : Fin 2), 1].filterMap (fun i =>
    match b.watchRange i rd wr, t.watchAddr with
    | some (own, lo, len), some (o, a) =>
      if o == own && decide (a < lo + len ∧ lo < a + n) then some (i, Nat.max a lo) else none
    | _, _ => none)

/-- Put an asynchronous cause in its place (R329). -/
def Async.rank : Async → Nat
  | .preemptForced => 0
  | .copyFault n _ => 1 + n.toNat
  | .uncorrectable _ => 100
  | .watch _ _ => 101
  | .step _ => 102

/-- Add a pending asynchronous cause, in the order in which they are taken (R329). -/
def insertAsync (a : Async) : List Async → List Async
  | [] => [a]
  | b :: bs => if a.rank < b.rank then a :: b :: bs else b :: insertAsync a bs

/-- Make an asynchronous cause pending. -/
def Car.pend (c : Car) (a : Async) : Car := { c with tr := { c.tr with pending := insertAsync a c.tr.pending } }

/-- A pending WATCH of a car's own access. -/
def Async.isWatch : Async → Bool
  | .watch _ none => true
  | _ => false

/-- WATCH of a bundle names the lowest matching address of its accesses (R328): one that the bundle has raised so far, beside
those that `old` had pending, takes the lower of both. -/
def Car.pendWatch (c old : Car) (a : Nat) : Car :=
  match (c.tr.pending.filter Async.isWatch).drop (old.tr.pending.filter Async.isWatch).length with
  | .watch b none :: _ =>
    let kept := (c.tr.pending.reverse.erase (.watch b none)).reverse
    { c with tr := { c.tr with pending := insertAsync (.watch (BitVec.ofNat 64 (Nat.min a b.toNat)) none) kept } }
  | _ => c.pend (.watch (BitVec.ofNat 64 a) none)

/-- A load or store of the car's own S or V slot passes its watchpoints (R338): the car halts before the next bundle, or
WATCH is raised there; in a speculation the match dooms (R389). -/
def State.watchAt (s : State) (t : Target) (n : Nat) (rd wr : Bool) : State :=
  let core := s.src.ident.coreId.toNat
  let b := s.debugOf s.src
  match b.matches t n rd wr with
  | [] => s
  | hits =>
    if s.car.place.spec then
      s.doomSpec (s.car.ident.serviceId.extractLsb' 32 16) (s.car.ident.serviceId.extractLsb' 0 32)
    else
      let low := hits.foldl (fun m x => Nat.min m x.2) (2 ^ 52)
      let stat := hits.foldl (fun (st : BitVec 10) x => st ||| (1#10 <<< (2 + x.1.val))) b.stat
      let trap := b.ctl.getLsbD 10
      let s := s.mapDev (fun d => { d with debug := Tab.set d.debug core { b with stat := stat, hit := b.hit || !trap } })
      if trap then s.mapCar (fun c => c.pendWatch s.src low) else s

/-- An access of `n` bytes at a handle address passes the watchpoints. -/
def State.watch (s : State) (ha : Word) (n : Nat) (rd wr : Bool) : State := s.watchAt (s.target ha) n rd wr

end Sys2Proof.Machine
end

