-- ==== Sys2Proof/Machine/Memory.lean ====
section
/-!
DEFINITION. Scalar loads, stores, prefetch and atomics (spec 06 R131 to R140; 11 R290 to R311).
-/
namespace Sys2Proof.Machine

/-! Reads and writes of memory by a car. -/

/-- Agents that read memory as a car does: its speculation, if any, and its die. -/
def Car.die (c : Car) : Option Nat := some (dieOf c.ident.coreId)

/-- A car sees memory as an agent does: both outside speculations, or in the same one (R386). -/
def Device.sameView (d : Device) (spec : Option Speculation) (c : Car) : Bool :=
  match spec, d.specOf c with
  | none, none => !c.place.spec
  | some x, some y => x.svc.q == y.svc.q && x.svc.seq == y.svc.seq
  | _, _ => false

/-- A foreign write that reaches watched granules of a core's car is reported (R339). -/
def Device.noteForeign (d : Device) (c : Car) (m : Stash) (gs : List Nat) : Device :=
  let b := Tab.get {} d.debug c.ident.coreId.toNat
  let seen := [(0 : Fin 2), 1].any (fun i =>
    match b.watchRange i true true with
    | some (true, lo, len) => gs.any (fun g => decide (lo < m.base + g * 64 + 64 ∧ m.base + g * 64 < lo + len))
    | _ => false)
  if seen then { d with debug := Tab.set d.debug c.ident.coreId.toNat { b with stat := b.stat ||| 0x200#10 } } else d

/-- The granules of a mapping are unfilled, and what was dirty in them is to be written back (R308). -/
def Car.emptyGranules (c : Car) (num : Nat) (gs : List Nat) : Car :=
  { c with eng := { c.eng with stash := c.eng.stash.map (fun x => if x.num == num
      then { x with filled := x.filled.filter (fun g => !gs.contains g), dirty := x.dirty.filter (fun p => !gs.contains (p / 64)) }
      else x) } }

/-- A foreign write of `n` bytes to coherent memory, by an agent that is car `me` or none, reaches the stash granules of other
cars before it performs (R308): their dirty bytes go to the tile, the granules are unfilled, and a watched one is reported
(R339). A write-back is such a write itself. The number bounds the chain. -/
def State.snoopN : Nat → Option CarRef → Option Speculation → Target → Nat → State → State
  | 0, _, _, _, _, s => s
  | k + 1, me, spec, t, n, s =>
    if s.cars.all (fun c => c.eng.stash.isEmpty) || t.coherent.isNone then s
    else (s.cars.filter (fun c => me != some c.ref && s.dev.sameView spec c)).foldl (fun s c0 =>
      c0.eng.stash.foldl (fun s m0 =>
        match s.find c0.ref with
        | none => s
        | some c =>
          match c.eng.stash.find? (fun m => m.num == m0.num) with
          | none => s
          | some m =>
            match s.dev.granulesAt m t n with
            | [] => s
            | gs =>
              let s := (s.mapDev (fun d => d.noteForeign c m gs)).mapAt c.ref (fun c => c.emptyGranules m.num gs)
              (m.dirty.filter (fun p => gs.contains (p / 64))).foldl (fun s p =>
                match s.dev.stashTarget m p with
                | none => s
                | some u =>
                  let s := State.snoopN k (some c.ref) spec u 1 s
                  s.mapDev (fun d =>
                    let d := d.writePhys spec c.die u [c.spad.read (m.base + p)]
                    if c.spad.poisoned (m.base + p) then d.spoilAt spec c.die u else d)) s) s) s

/-- A foreign write passes the stash mappings (R308). -/
def State.snoop (s : State) (me : Option CarRef) (spec : Option Speculation) (t : Target) (n : Nat) : State :=
  State.snoopN 64 me spec t n s

/-- Write bytes for an agent: a car when `me` names it (R302, R308, R386). -/
def State.storeAt (s : State) (me : Option CarRef) (spec : Option Speculation) (die : Option Nat) (t : Target)
    (bs : List Byte) : State :=
  (s.snoop me spec t bs.length).mapDev (fun d => d.writePhys spec die t bs)

/-- The focused car's engine writes a dirty byte of a mapping to its tile (R307). In a speculation a tile byte outside declared
handles of mode W or RW dooms (R386, R389). -/
def State.tileWrite (s : State) (t : Target) (b : Byte) (bad : Bool) : State :=
  let spec := s.dev.specOf s.car
  if (match spec, t with
      | some x, .hbm pa false => !s.dev.declared x true pa 1
      | some _, _ => true
      | none, _ => false) then
    s.doomSpec (s.car.ident.serviceId.extractLsb' 32 16) (s.car.ident.serviceId.extractLsb' 0 32)
  else (s.storeAt (some s.car.ref) spec s.car.die t [b]).mapDev (fun d => if bad then d.spoilAt spec s.car.die t else d)

/-- The focused car's engine writes the dirty bytes of granules `gs` of a mapping back to its tile (R307). Where other cars hold
these lines, what they had written is there now too, and the granules are unfilled (R308). -/
def State.backGranules (s : State) (m : Stash) (gs : List Nat) : State :=
  let me := s.car
  let spec := s.dev.specOf me
  let ps := m.dirty.filter (fun p => gs.contains (p / 64))
  let shared := (s.peers.filter (fun c => s.dev.sameView spec c)).any (fun c => c.eng.stash.any (fun x =>
    ps.any (fun p => match s.dev.stashTarget m p with
      | some t => !(s.dev.granulesAt x t 1).isEmpty
      | none => false)))
  let s := ps.foldl (fun s p =>
    match s.dev.stashTarget m p with
    | none => s
    | some t => s.tileWrite t (me.spad.read (m.base + p)) (me.spad.poisoned (m.base + p))) s
  s.mapCar (fun c => { c with eng := { c.eng with stash := c.eng.stash.map (fun x => if x.num == m.num
    then { x with
      dirty := x.dirty.filter (fun p => !gs.contains (p / 64))
      filled := if shared then x.filled.filter (fun g => !gs.contains g) else x.filled } else x) } })

/-- What a store that the queue holds writes in the car's own scratchpad: the newest byte for an offset (R291). -/
def Car.queuedByte (c : Car) (off : Nat) : Option Byte :=
  c.eng.queue.reverse.findSome? (fun x => match x.target, x.atomic with
    | .spad o, none => if o ≤ off then x.bytes[off - o]? else none
    | _, _ => none)

/-- A byte of the car's own scratchpad as its own loads see it (R133, R291). -/
def Device.ownByte (d : Device) (c : Car) (off : Nat) : Byte :=
  match c.queuedByte off with
  | some b => b
  | none => d.spadByte c off

/-- What a read of a slot delivers (R132, R134), as memory stood when the bundle began (R291). -/
def State.fetchBytes (s : State) (t : Target) (n : Nat) : Loaded :=
  match t with
  | .spad o =>
    { bytes := (List.range n).map (fun i => s.srcDev.ownByte s.src (o + i))
      poison := (List.range n).any (fun i => (s.src.queuedByte (o + i)).isNone && s.srcDev.spadPoison s.src (o + i)) }
  | .imem o => { bytes := s.src.imem.readBytes o n, poison := s.src.imem.anyPoison o n }
  | .peer _ core o =>
    match s.peerCar s.src core with
    | some p => { bytes := p.spad.readBytes o n, poison := p.spad.anyPoison o n }
    | none => { bytes := List.replicate n 0#8, err := true }
  | t => s.srcDev.readPhys (s.srcDev.specOf s.src) s.src.die t n

/-- The line of memory that a tile byte lies in. -/
def Target.line : Target → Target
  | .hbm pa m => .hbm (pa / 64 * 64) m
  | .host pa => .host (pa / 64 * 64)
  | t => t

/-- The lines that a granule's tile bytes lie in. -/
def Device.tileLines (d : Device) (m : Stash) (g : Nat) : List Target :=
  ((granulePlaces g).filterMap (fun p => (d.stashTarget m p).map Target.line)).eraseDups

/-- The engine of a mapping meets an address that it cannot reach: COPY_FAULT with its number (R240, R318). -/
def State.stashFault (s : State) (num va : Nat) : State :=
  (s.mapDev (fun d => d.countWalk va)).mapCar (fun c => c.pend (.copyFault (BitVec.ofNat 6 num) (BitVec.ofNat 64 va)))

/-- The engine fills a granule of the focused car (R306): the car's die holds the lines from now on (R300, R308), and errors in them are
met. An address that it does not reach raises COPY_FAULT with the mapping's number; the bytes are unspecified then (R318, R337;
notes/assumptions/65.md). -/
def State.fillOne (s : State) (m : Stash) (g : Nat) : State :=
  if m.filled.contains g then s
  else match s.dev.tileFault m true false (granulePlaces g) with
    | some va =>
      (s.stashFault m.num va).tick.mapCar (fun c => c.putFill m g ((List.range 64).map (fun i => Config.anyByte s.fresh i)) [])
    | none =>
      let t := s.mapCar (fun c => s.dev.fillGranule c m g)
      (s.dev.tileLines m g).foldl (fun s u => s.mapDev (fun d => d.afterRead (d.specOf s.car) s.car.die u 64)) t

/-- The granules of the focused car's mappings that bytes `off` to `off + n - 1` of its own scratchpad touch are filled (R306). -/
def State.fillRange (s : State) (off n : Nat) : State :=
  if s.car.eng.stash.isEmpty then s
  else ((List.range (n / 64 + 2)).map (fun i => (off / 64 + i) * 64)).foldl (fun s a =>
    if a < off + n then
      match s.car.stashOf a with
      | some m => s.fillOne m ((a - m.base) / 64)
      | none => s
    else s) s

/-- The focused car's own scratchpad is written, through the stash where it is mapped (R306, R307). -/
def State.spadWrite (s : State) (off : Nat) (bs : List Byte) : State :=
  let s := s.fillRange off bs.length
  s.mapCar (fun c => s.dev.spadWrite c off bs)

/-- The traces a read leaves: a stash granule is filled, a line is cached, the directory takes note. A fill on first touch takes no
time of its own (notes/assumptions/17.md). -/
def State.afterFetch (s : State) (t : Target) (n : Nat) : State :=
  match t with
  | .spad o => s.fillRange o n
  | t => s.mapDev (fun d => d.afterRead (d.specOf s.car) s.car.die t n)

/-- Typical latency of a target (R91), as the bundle finds the die caches. -/
def State.latency (s : State) (t : Target) : Nat :=
  match t with
  | .peer _ core _ => if s.car.die = some (dieOf core) then Config.latNear else Config.latFar
  | .hbm pa sm => if s.srcDev.dieHit (dieOf s.car.ident.coreId) pa sm then Config.latNear else Config.latHbm
  | _ => Config.latHbm

/-- Does an atomic return the old value? -/
def AtomicOp.returns (o : AtomicOp) : Bool := o != .st

/-- Does an atomic write? -/
def AtomicOp.writes (o : AtomicOp) : Bool := o != .ld

/-- Does a request read its place? -/
def RemoteOp.reads : RemoteOp → Bool
  | .load .. => true
  | .store _ => false
  | .atomic o _ _ => o.returns
  | .vload .. => true

/-- Bytes of the page that a handle was made from (R22). -/
def Handle.pageSize (h : Handle) : Nat :=
  match h.sz.toNat with
  | 0 => 0x10000
  | 1 => 0x200000
  | _ => 0x40000000

/-- Send a request to another package (R414). A release performs 300 ns later at the earliest (R312). -/
def State.sendRemote (s : State) (flight : Option Nat) (ha : Word) (pa : BitVec 52) (c : Bool) (op : RemoteOp)
    (ord : BitVec 2) : State :=
  s.mapDev (fun d => { d with
    fab := { d.fab with
      remote := d.fab.remote ++ [{
        id := d.fab.nextId, car := s.car.ref, flight := flight, ha := ha, pa := pa, op := op, confidential := c
        vpage := (s.src.handle (haIndex ha)).vpage, vsize := (s.src.handle (haIndex ha)).pageSize, stamp := s.now, acquire := ord.getLsbD 0
        ready := if ord.getLsbD 1 then s.now + 600 else s.now }]
      nextId := d.fab.nextId + 1 } })

/-- An error response to a store (R134). -/
def State.storeError (s : State) (ha : Word) : State :=
  if s.car.place.spec then s.doomSpec (s.car.ident.serviceId.extractLsb' 32 16) (s.car.ident.serviceId.extractLsb' 0 32)
  else s.mapCar (fun c => c.pend (.uncorrectable ha))

/-- The value that an error response delivers (R134). -/
def Dest.zeroed : Dest → Dest
  | .s p _ => .s p 0#64
  | .v p _ => .v p 0#32768
  | .k p _ => .k p 0#4096

/-- A producer that an error response answers: zero where it was to read, and poison (R134, R168, R180). -/
def Flight.failed (f : Flight) : Flight :=
  { f with
    poison := true
    dest := match f.onError, f.dest with
      | some x, .v p _ => .v p x
      | _, d => d.zeroed }

/-! Posted writes (R181, R309) and the store queue (R291). -/

/-- Units outstanding through a window (R309): those of writes that have been sent, or of all. -/
def Car.unitsOut (c : Car) (w : Nat) (sent : Bool) : Nat :=
  (c.eng.posted.filter (fun p => p.window == w && (!sent || p.sent))).foldl (fun n p => n + p.units) 0

/-- A read of another package by the bundle of a cycle has not obtained its value: the car holds that bundle's stores (R291). -/
def State.holds (s : State) (stamp : Nat) : Bool :=
  s.dev.fab.remote.any (fun r => r.car == s.car.ref && r.stamp == stamp && r.op.reads)

/-- The allowance that a posted write found lets it be sent, after those before it through its window (R159, R181, R309). -/
def State.maySend (s : State) (p : Posted) : Bool :=
  let out := s.car.unitsOut p.window true
  !s.holds p.stamp && (out == 0 || decide (out + p.units ≤ p.wal))
    && s.car.eng.posted.all (fun q => q.sent || q.window != p.window || decide (p.id ≤ q.id))

/-- A posted write to a peer's scratchpad (R309), for the car that holds that core now (R26). -/
def State.postWrite (s : State) (w units : Nat) (core : BitVec 9) (addr : Nat) (bytes : List (Nat × Byte)) : State :=
  let x := (s.peerCar s.src core).bind s.consistOf
  let p : Posted := {
    id := s.car.eng.nextId, window := w, units := units, core := core, addr := addr, bytes := bytes, issued := s.now
    consist := (x.map Consist.idx).getD 0#32, since := (x.map Consist.release).getD 0, stamp := s.now
    wal := (s.src.ctl.wal.toList.getD w 0#8).toNat }
  let p := { p with sent := s.maySend p }
  s.mapCar (fun c => { c with eng := { c.eng with posted := c.eng.posted ++ [p], nextId := c.eng.nextId + 1 } })

/-- A posted write that waited for its units is sent. -/
def State.sendPart (s : State) (n : Nat) : State :=
  match s.car.eng.posted.find? (fun p => p.id == n) with
  | some p =>
    if !p.sent && s.maySend p then s.mapCar (fun c => { c with eng := { c.eng with posted := c.eng.posted.map (fun q =>
        if q.id == n then { q with sent := true, issued := s.now } else q) } })
    else s
  | none => s

/-- A store performs at a place that is neither a peer nor another package. -/
def State.performStore (s : State) (ha : Word) (t : Target) (bs : List Byte) : State :=
  match t with
  | .spad o => s.spadWrite o bs
  | .nowhere => s.storeError ha
  | t => s.storeAt (some s.car.ref) (s.dev.specOf s.car) s.car.die t bs

/-- Put a store or an atomic into the store queue (R291, R312). -/
def State.enqueue (s : State) (x : Queued) : State :=
  s.mapCar (fun c => { c with eng := { c.eng with
    queue := c.eng.queue ++ [{ x with
      id := c.eng.nextId
      vpage := (s.src.handle (haIndex x.ha)).vpage
      vsize := (s.src.handle (haIndex x.ha)).pageSize }]
    nextId := c.eng.nextId + 1 } })

/-- A slot's store of bytes to a target. -/
def State.put (s : State) (ha : Word) (t : Target) (bs : List Byte) (units : Nat) : State :=
  match t with
  | .imem _ => s
  | .peer w core o => s.postWrite w units core o ((List.range bs.length).zip bs |>.map (fun p => (o + p.1, p.2)))
  | .remote pa c => s.sendRemote none ha pa c (.store bs) 0#2
  | t =>
    if s.holds s.now then s.enqueue { id := 0, target := t, ha := ha, bytes := bs, stamp := s.now, ready := s.now }
    else s.performStore ha t bs

/-- A store through a window waits for its units (R309). -/
def State.windowFull (s : State) (ha : Word) (units : Nat) : Bool :=
  haIndex ha == 0 && haWindow ha != 0 && s.src.ctl.wal[haWindow ha] != 0#8
    && decide (s.src.ctl.wal[haWindow ha].toNat < s.src.unitsOut (haWindow ha).val false + units)

/-- The store of a slot whose address comes from scalar register `a` waits for its units once `a` tells the window. -/
def State.postWait (s : State) (a : SReg) (full : Bool) : Bool := s.src.isFull (.s a) && full

/-- Does a request write? -/
def RemoteOp.writes : RemoteOp → Bool
  | .store _ => true
  | .atomic o _ _ => o.writes
  | _ => false

/-- Does an entry of the store queue write? -/
def Queued.writes (x : Queued) : Bool :=
  match x.atomic with
  | some (o, _, _) => o.writes
  | none => true

/-- A producer waits for an atomic on the own scratchpad that the store queue holds. -/
def Car.nearOwed (c : Car) (f : Flight) : Bool := c.eng.queue.any (fun x => x.flight == some f.id && x.target.isLocal)

/-- Non-local writes of a car that have not performed, the write parts of atomics among them (R150, R293). -/
def State.writesOut (s : State) (c : Car) : Bool :=
  !c.eng.posted.isEmpty || c.eng.queue.any (fun x => x.writes && !x.target.isLocal)
    || s.dev.fab.remote.any (fun r => r.car == c.ref && r.op.writes)
    || c.flight.any (fun f => f.writes && f.due.isNone && !c.nearOwed f)

/-- Non-local accesses of a car that have not performed: those writes, and loads whose data have not returned, into s0 too. -/
def State.accessesOut (s : State) (c : Car) : Bool :=
  s.writesOut c || c.eng.queue.any (fun x => !x.target.isLocal) || s.dev.fab.remote.any (fun r => r.car == c.ref)
    || c.flight.any (fun f => f.due.isNone && !c.nearOwed f)

/-- Is the operation a collective? -/
def EngineOp.isColl : EngineOp → Bool
  | .crdx => true
  | .cagt => true
  | .cbct => true
  | _ => false

/-- An engine operation that a release covers (R295): a copy, a collective or a line stream. A mapping, which lasts until the car
ends it, is not (notes/assumptions/37.md). -/
def Copy.covered (k : Copy) : Bool := k.op != .cmap

/-- An acquire of a bundle before the one whose accesses are numbered from `cid` and `rid` on has not performed (R296). -/
def State.acquiresBefore (s : State) (cid rid : Nat) : Bool :=
  s.car.eng.queue.any (fun x => x.acquire && decide (x.id < cid))
    || s.dev.fab.remote.any (fun r => r.car == s.car.ref && r.acquire && decide (r.id < rid))

/-- An engine operation has started but reads nothing yet: a store of its car to its own scratchpad from its bundle or an earlier one is
in the store queue (R292), or an acquire has not performed (R296). It never holds the car (R267). -/
def State.engineHeld (s : State) (k : Copy) : Bool :=
  s.car.eng.queue.any (fun x => x.target.isLocal && decide (x.id < k.id)) || s.acquiresBefore k.cid k.rid

/-- An engine operation of a car numbered below `cid` that a release covers has not ended (R295). -/
def Car.enginesOut (c : Car) (cid : Nat) : Bool :=
  c.eng.copies.any (fun k => k.covered && decide (k.id < cid)) || c.eng.ranges.any (fun x => decide (x.id < cid))
    || c.eng.unmaps.any (fun u => decide (u.id < cid))

/-! Loads, stores, prefetch (R131 to R135). -/

/-- A loaded value as it lands in sd. -/
def extend (sgn : Bool) (size n : Nat) : Word :=
  if sgn then (BitVec.ofNat (8 * size) n).signExtend 64 else BitVec.ofNat 64 n

/-- The effect of a load. A load through h1 has the latency of the own scratchpad (notes/assumptions/17.md). -/
def State.loadNow (s : State) (d : SReg) (ha : Word) (size : Nat) (sgn : Bool) : State :=
  let t := s.target ha
  let l := s.fetchBytes t size
  let x := extend sgn size l.nat
  let s := (s.watch ha size true false).afterFetch t size
  match t with
  | .remote pa c =>
    let id := s.car.eng.nextId
    let s := s.mapCar (fun k => { k.startS s.now d x none false false ha 0 with eng.nextId := id + 1 })
    s.sendRemote (some id) ha pa c (.load size sgn) 0#2
  | t =>
    if t.isLocal then s.mapCar (fun k => k.startS s.now d x (some (s.now + 4)) true l.poison 0#64 0)
    else s.mapCar (fun k => k.startS s.now d x none false (l.poison || l.err) ha (s.now + s.latency t))

/-- LDB to LDD (R132). -/
def State.load (s : State) (te : Bool) (d a : SReg) (off : BitVec 36) (size : Nat) (sgn : Bool) : SlotOp :=
  let ha := s.loadAddr a off size
  SlotOp.mk (s.planMem (planS te [a] [d]) a ha { rd := true, align := size } size)
    (fun s => s.loadNow d ha size sgn)

/-- STB to STD (R132). -/
def State.store (s : State) (te : Bool) (v a : SReg) (off : BitVec 36) (size : Nat) : SlotOp :=
  let ha := s.loadAddr a off size
  let p := s.planMem (planS te [v, a] []) a ha { wr := true, align := size } size
  let bs := bytesLE size (s.rS v).toNat
  SlotOp.mk { p with wait := p.wait || s.postWait a (s.windowFull ha 1) }
    (fun s => (s.watch ha size false true).put ha (s.target ha) bs 1)

/-- The granule that a PFS starts to fill (R135): its mapping and place, when the address passes every check. PFS has no access
size: the granule that holds the address is meant, whatever its low bits (notes/assumptions/62.md). -/
def State.prefetchOf (s : State) (sa ha : Word) : Option (Stash × Nat) :=
  if (s.addrCause sa ha { rd := true }).isSome then none
  else match s.target ha with
    | .spad o =>
      match s.src.stashOf o with
      | some m =>
        let g := (o - m.base) / 64
        if m.filled.contains g || m.filling.contains g then none else some (m, g)
      | none => none
    | _ => none

/-- PFS (R135). -/
def slotPfs (te : Bool) (a : SReg) (off : BitVec 36) (s : State) : SlotOp :=
  SlotOp.mk { planS te [a] [] with wait := s.memWait a (s.loadAddr a off 64) } (fun s =>
    match s.prefetchOf (s.rS a) (s.loadAddr a off 64) with
    | some (m, g) => s.mapCar (fun c => { c with
        eng.stash := c.eng.stash.map (fun x => if x.num == m.num then { x with filling := g :: x.filling } else x) })
    | none => s)

/-- LDB (R132). -/
def slotLdb (te : Bool) (d a : SReg) (off : BitVec 36) (s : State) : SlotOp := s.load te d a off 1 true

/-- LDBU (R132). -/
def slotLdbu (te : Bool) (d a : SReg) (off : BitVec 36) (s : State) : SlotOp := s.load te d a off 1 false

/-- LDH (R132). -/
def slotLdh (te : Bool) (d a : SReg) (off : BitVec 36) (s : State) : SlotOp := s.load te d a off 2 true

/-- LDHU (R132). -/
def slotLdhu (te : Bool) (d a : SReg) (off : BitVec 36) (s : State) : SlotOp := s.load te d a off 2 false

/-- LDW (R132). -/
def slotLdw (te : Bool) (d a : SReg) (off : BitVec 36) (s : State) : SlotOp := s.load te d a off 4 true

/-- LDWU (R132). -/
def slotLdwu (te : Bool) (d a : SReg) (off : BitVec 36) (s : State) : SlotOp := s.load te d a off 4 false

/-- LDD (R132). -/
def slotLdd (te : Bool) (d a : SReg) (off : BitVec 36) (s : State) : SlotOp := s.load te d a off 8 false

/-- STB (R132). -/
def slotStb (te : Bool) (v a : SReg) (off : BitVec 36) (s : State) : SlotOp := s.store te v a off 1

/-- STH (R132). -/
def slotSth (te : Bool) (v a : SReg) (off : BitVec 36) (s : State) : SlotOp := s.store te v a off 2

/-- STW (R132). -/
def slotStw (te : Bool) (v a : SReg) (off : BitVec 36) (s : State) : SlotOp := s.store te v a off 4

/-- STD (R132). -/
def slotStd (te : Bool) (v a : SReg) (off : BitVec 36) (s : State) : SlotOp := s.store te v a off 8

/-! Atomics (R136 to R140). -/

/-- The value an atomic writes; none when it writes nothing (R137). -/
def AtomicOp.result (o : AtomicOp) (old b cmp : Word) : Option Word :=
  match o with
  | .ld => none
  | .st => some b
  | .add => some (old + b)
  | .maxu => some (if old < b then b else old)
  | .or => some (old ||| b)
  | .and => some (old &&& b)
  | .swp => some b
  | .cas => if old = cmp then some b else none

/-- The producer of a number is an atomic's that writes. -/
def Car.noteWrite (c : Car) (o : AtomicOp) (id : Nat) : Car :=
  { c with flight := c.flight.map (fun f => if f.id == id then { f with writes := o.writes } else f) }

/-- Where an atomic performs (R139), and for the cache of which die: an SM line is written back and dropped first, and the home is read
for none. -/
def State.atomicHome (s : State) (t : Target) : State × Target × Option Nat :=
  match t with
  | .hbm pa true => (s.mapDev (fun d => (d.flushLine (dieOf s.car.ident.coreId) (pa / 64)).dropLine (dieOf s.car.ident.coreId) (pa / 64)),
      .hbm pa false, none)
  | t => (s, t, s.car.die)

/-- The indivisible access of an atomic (R137, R140) at a place that is neither a scratchpad nor a peer: stash granules of other
cars are written back first (R308), then the old value is read and the new one written. -/
def State.performAtomic (s : State) (me : Option CarRef) (spec : Option Speculation) (die : Option Nat) (ha : Word)
    (o : AtomicOp) (t : Target) (b cmp : Word) : State × Loaded :=
  let s := if o.writes then s.snoop me spec t 8 else s
  let l := s.dev.readPhys spec die t 8
  let s := s.mapDev (fun d => d.afterRead spec die t 8)
  (match o.result (BitVec.ofNat 64 l.nat) b cmp with
   | some x =>
     if (l.poison || l.err) && o.returns then s
     else if l.err then s.storeError ha
     else s.mapDev (fun d => d.writePhys spec die t (bytesLE 8 x.toNat))
   | none => s, l)

/-- An atomic outside the own scratchpad (R137, R139, R140). -/
def State.atomicFar (s : State) (o : AtomicOp) (d : SReg) (ha : Word) (b cmp : Word) : State :=
  let lat := s.latency (s.target ha)
  let r := s.atomicHome (s.target ha)
  let r := r.1.performAtomic (some s.car.ref) (s.dev.specOf s.car) r.2.2 ha o r.2.1 b cmp
  if o.returns then r.1.mapCar (fun k => (k.startS s.now d (BitVec.ofNat 64 r.2.nat) none false (r.2.poison || r.2.err) ha
    (s.now + lat)).noteWrite o k.eng.nextId) else r.1

/-- An atomic of a page of another package (R139, R414). -/
def State.atomicRemote (s : State) (o : AtomicOp) (d : SReg) (ha : Word) (pa : BitVec 52) (c : Bool) (b cmp : Word)
    (ord : BitVec 2) : State :=
  if o.returns then
    let id := s.car.eng.nextId
    let s := s.mapCar (fun k => { k.startS s.now d 0#64 none false false ha 0 with eng.nextId := id + 1 })
    s.sendRemote (some id) ha pa c (.atomic o b cmp) ord
  else s.sendRemote none ha pa c (.atomic o b cmp) ord

/-- The access of an atomic on the own scratchpad (R139): the value read and its poison. -/
def State.performNear (s : State) (o : AtomicOp) (off : Nat) (l : Loaded) (b cmp : Word) : State :=
  let s := s.afterFetch (.spad off) 8
  match o.result (BitVec.ofNat 64 l.nat) b cmp with
  | some x => if l.poison && o.returns then s else s.spadWrite off (bytesLE 8 x.toNat)
  | none => s

/-- An atomic on the own scratchpad (R139). It has the latency of a load from there (notes/assumptions/17.md). -/
def State.atomicNear (s : State) (o : AtomicOp) (d : SReg) (off : Nat) (b cmp : Word) : State :=
  let l := s.fetchBytes (.spad off) 8
  let s := s.performNear o off l b cmp
  if o.returns then s.mapCar (fun k => k.startS s.now d (BitVec.ofNat 64 l.nat) (some (s.now + 4)) true (l.poison && o.returns) 0#64 0)
  else s

/-- An atomic goes to the store queue, behind its bundle's reads or for the 20 ns of a release (R291, R312). -/
def State.atomicLater (s : State) (o : AtomicOp) (d : SReg) (ha : Word) (b cmp : Word) (ord : BitVec 2) : State :=
  let id := s.car.eng.nextId
  let s := if o.returns then
      s.mapCar (fun k => { (k.startS s.now d 0#64 none false false ha 0).noteWrite o id with eng.nextId := id + 1 }) else s
  s.enqueue { id := 0, target := s.target ha, ha := ha, bytes := [], atomic := some (o, b, cmp)
              flight := if o.returns then some id else none, acquire := ord.getLsbD 0, stamp := s.now
              ready := if ord.getLsbD 1 then s.now + 40 else s.now }

/-- The effect of an atomic. -/
def State.atomicNow (s : State) (o : AtomicOp) (d : SReg) (ha b cmp : Word) (ord : BitVec 2) : State :=
  let s := s.watch ha 8 true true
  match s.target ha with
  | .remote pa c => s.atomicRemote o d ha pa c b cmp ord
  | .spad off => if s.holds s.now then s.atomicLater o d ha b cmp (ord &&& 1#2) else s.atomicNear o d off b cmp
  | _ => if s.holds s.now || ord.getLsbD 1 then s.atomicLater o d ha b cmp ord else s.atomicFar o d ha b cmp

/-- The first entry of the store queue may perform: its bundle's reads have their values, and its time has come. -/
def State.mayDrain (s : State) : Bool :=
  match s.car.eng.queue with
  | [] => false
  | x :: _ => decide (x.ready ≤ s.now) && !s.holds x.stamp

/-- The result of a queued atomic is on its way back. -/
def Car.settleFlight (c : Car) (id : Option Nat) (l : Loaded) (eta : Nat) : Car :=
  { c with flight := c.flight.map (fun f =>
      if some f.id == id then
        { f with
          dest := match f.dest with
            | .s p _ => .s p (BitVec.ofNat 64 l.nat)
            | d => d
          poison := l.poison || l.err
          eta := eta }
      else f) }

/-- Bytes of a car's own scratchpad that an entry of the store queue wrote are seen by the copies that the car issued after it, which
have read nothing yet (R292). -/
def Car.showCopies (c : Car) (id off n : Nat) : Car :=
  { c with eng.copies := c.eng.copies.map (fun k =>
      if id < k.id then { k with spad := k.spad.write off (c.spad.readBytes off n) } else k) }

/-- A mapping has taken some of `n` bytes at `off` after the store numbered `id` had issued (R249). -/
def Car.mappedSince (c : Car) (id off n : Nat) : Bool :=
  c.eng.stash.any (fun m => decide (id < m.id ∧ m.base < off + n ∧ off < m.base + m.len))

/-- An entry of the store queue writes bytes of the own scratchpad. Those that a mapping has taken since then lie under it and are
left alone. -/
def State.drainLocal (s : State) (id off : Nat) (bs : List Byte) : State :=
  let s := if s.car.mappedSince id off bs.length then
      bs.zipIdx.foldl (fun s p => if s.car.mappedSince id (off + p.2) 1 then s else s.spadWrite (off + p.2) [p.1]) s
    else s.spadWrite off bs
  s.mapCar (fun c => c.showCopies id off bs.length)

/-- The first entry of the focused car's store queue performs (R291). -/
def State.drainOne (s : State) : State :=
  if !s.mayDrain then s
  else match s.car.eng.queue with
    | [] => s
    | x :: rest =>
      let s := s.mapCar (fun c => { c with eng := { c.eng with queue := rest } })
      match x.atomic with
      | none =>
        (match x.target with
         | .spad off => s.drainLocal x.id off x.bytes
         | t => s.performStore x.ha t x.bytes)
      | some (o, b, cmp) =>
        match x.target with
        | .spad off =>
          let l := s.fetchBytes (.spad off) 8
          let s := if s.car.mappedSince x.id off 8 then s else s.performNear o off l b cmp
          s.mapCar (fun c => (c.showCopies x.id off 8).settleFlight x.flight l (s.now + 4))
        | t =>
          let lat := s.latency t
          let r := s.atomicHome t
          let r := r.1.performAtomic (some s.car.ref) (s.dev.specOf s.car) r.2.2 x.ha o r.2.1 b cmp
          r.1.mapCar (fun c => c.settleFlight x.flight r.2 (s.now + lat))

/-- An atomic (R137): its rights, its order, its wait before a release, which covers engine operations too unless the atomic is
on the own scratchpad (R293, R295). -/
def State.atomic (s : State) (te : Bool) (o : AtomicOp) (d a : SReg) (b : Word) (srcs : List SReg) (ord : BitVec 2)
    (ok : Bool) : SlotOp :=
  let ha := s.rS a
  let w : Want := { rd := o != .st, wr := o != .ld, align := 8, alone := true }
  let p := s.planMem (planS te srcs (if o.returns then [d] else [])) a ha w 8
  SlotOp.mk { p with
      illegal := !ok
      wait := p.wait || (ord.getLsbD 1 && (s.accessesOut s.src
        || (s.src.isFull (.s a) && !(s.target ha).isLocal && s.src.enginesOut s.src.eng.nextId))) }
    (fun s => s.atomicNow o d ha b (s.rS d) ord)

/-- ALD (R137). -/
def slotAld (te : Bool) (_scope : BitVec 2) (d a : SReg) (ord : BitVec 2) (s : State) : SlotOp :=
  s.atomic te .ld d a 0#64 [a] ord (ord == 0#2 || ord == 1#2)

/-- AST (R137). -/
def slotAst (te : Bool) (_scope : BitVec 2) (a b : SReg) (ord : BitVec 2) (s : State) : SlotOp :=
  s.atomic te .st 0 a (s.rS b) [a, b] ord (ord == 0#2 || ord == 2#2)

/-- AADD (R137). -/
def slotAadd (te : Bool) (_scope : BitVec 2) (d a b : SReg) (ord : BitVec 2) (s : State) : SlotOp :=
  s.atomic te .add d a (s.rS b) [a, b] ord true

/-- AMAXU (R137). -/
def slotAmaxu (te : Bool) (_scope : BitVec 2) (d a b : SReg) (ord : BitVec 2) (s : State) : SlotOp :=
  s.atomic te .maxu d a (s.rS b) [a, b] ord true

/-- AOR (R137). -/
def slotAor (te : Bool) (_scope : BitVec 2) (d a b : SReg) (ord : BitVec 2) (s : State) : SlotOp :=
  s.atomic te .or d a (s.rS b) [a, b] ord true

/-- AAND (R137). -/
def slotAand (te : Bool) (_scope : BitVec 2) (d a b : SReg) (ord : BitVec 2) (s : State) : SlotOp :=
  s.atomic te .and d a (s.rS b) [a, b] ord true

/-- ASWP (R137). -/
def slotAswp (te : Bool) (_scope : BitVec 2) (d a b : SReg) (ord : BitVec 2) (s : State) : SlotOp :=
  s.atomic te .swp d a (s.rS b) [a, b] ord true

/-- ACAS (R137, R140): sd is the expected value and the destination. -/
def slotAcas (te : Bool) (_scope : BitVec 2) (d a b : SReg) (ord : BitVec 2) (s : State) : SlotOp :=
  s.atomic te .cas d a (s.rS b) [d, a, b] ord true

/-! The meanings: a slot issues, or its bundle waits or traps (R88). -/

/-- PFS. -/
def execPfs (te : Bool) (a : SReg) (off : BitVec 36) (s : State) : Result := (slotPfs te a off s).run s

/-- LDB. -/
def execLdb (te : Bool) (d a : SReg) (off : BitVec 36) (s : State) : Result := (slotLdb te d a off s).run s

/-- LDBU. -/
def execLdbu (te : Bool) (d a : SReg) (off : BitVec 36) (s : State) : Result := (slotLdbu te d a off s).run s

/-- LDH. -/
def execLdh (te : Bool) (d a : SReg) (off : BitVec 36) (s : State) : Result := (slotLdh te d a off s).run s

/-- LDHU. -/
def execLdhu (te : Bool) (d a : SReg) (off : BitVec 36) (s : State) : Result := (slotLdhu te d a off s).run s

/-- LDW. -/
def execLdw (te : Bool) (d a : SReg) (off : BitVec 36) (s : State) : Result := (slotLdw te d a off s).run s

/-- LDWU. -/
def execLdwu (te : Bool) (d a : SReg) (off : BitVec 36) (s : State) : Result := (slotLdwu te d a off s).run s

/-- LDD. -/
def execLdd (te : Bool) (d a : SReg) (off : BitVec 36) (s : State) : Result := (slotLdd te d a off s).run s

/-- STB. -/
def execStb (te : Bool) (v a : SReg) (off : BitVec 36) (s : State) : Result := (slotStb te v a off s).run s

/-- STH. -/
def execSth (te : Bool) (v a : SReg) (off : BitVec 36) (s : State) : Result := (slotSth te v a off s).run s

/-- STW. -/
def execStw (te : Bool) (v a : SReg) (off : BitVec 36) (s : State) : Result := (slotStw te v a off s).run s

/-- STD. -/
def execStd (te : Bool) (v a : SReg) (off : BitVec 36) (s : State) : Result := (slotStd te v a off s).run s

/-- ALD. -/
def execAld (te : Bool) (_scope : BitVec 2) (d a : SReg) (ord : BitVec 2) (s : State) : Result := (slotAld te _scope d a ord s).run s

/-- AST. -/
def execAst (te : Bool) (_scope : BitVec 2) (a b : SReg) (ord : BitVec 2) (s : State) : Result := (slotAst te _scope a b ord s).run s

/-- AADD. -/
def execAadd (te : Bool) (_scope : BitVec 2) (d a b : SReg) (ord : BitVec 2) (s : State) : Result := (slotAadd te _scope d a b ord s).run s

/-- AMAXU. -/
def execAmaxu (te : Bool) (_scope : BitVec 2) (d a b : SReg) (ord : BitVec 2) (s : State) : Result := (slotAmaxu te _scope d a b ord s).run s

/-- AOR. -/
def execAor (te : Bool) (_scope : BitVec 2) (d a b : SReg) (ord : BitVec 2) (s : State) : Result := (slotAor te _scope d a b ord s).run s

/-- AAND. -/
def execAand (te : Bool) (_scope : BitVec 2) (d a b : SReg) (ord : BitVec 2) (s : State) : Result := (slotAand te _scope d a b ord s).run s

/-- ASWP. -/
def execAswp (te : Bool) (_scope : BitVec 2) (d a b : SReg) (ord : BitVec 2) (s : State) : Result := (slotAswp te _scope d a b ord s).run s

/-- ACAS. -/
def execAcas (te : Bool) (_scope : BitVec 2) (d a b : SReg) (ord : BitVec 2) (s : State) : Result := (slotAcas te _scope d a b ord s).run s

end Sys2Proof.Machine
end

