-- ==== Sys2Proof/Machine/Control.lean ====
section
/-!
DEFINITION. Branches, calls, traps raised on purpose, HALT, drains and WADR (spec 06 R141 to R150, R156 to R158).
-/
namespace Sys2Proof.Machine

/-- A taken branch: its target is the next bundle that the car fetches (R142). -/
def Car.jump (c : Car) (t : Word) : Car := { c with pc := t.extractLsb' 0 17, seqPc := 0#64, taken := true }

/-- A relative branch that is taken when `c` holds (R141, R143). -/
def State.branch (s : State) (te : Bool) (srcs : List SReg) (off : BitVec 42) (c : Bool) (eff : State → State) : SlotOp :=
  let t := s.branchTarget off
  SlotOp.mk { planS te srcs [] with cause := if c then targetCause t else none }
    (fun s => if c then (eff s).mapCar (fun k => k.jump t) else s)

/-- BR (R141). -/
def slotBr (te : Bool) (off : BitVec 42) (s : State) : SlotOp := s.branch te [] off true id

/-- BNZ (R141). -/
def slotBnz (te : Bool) (a : SReg) (off : BitVec 42) (s : State) : SlotOp := s.branch te [a] off (s.rS a != 0#64) id

/-- BZ (R141). -/
def slotBz (te : Bool) (a : SReg) (off : BitVec 42) (s : State) : SlotOp := s.branch te [a] off (s.rS a == 0#64) id

/-- CALL (R141): s63 takes the address of the next bundle, and is a destination of the slot. -/
def slotCall (te : Bool) (off : BitVec 42) (s : State) : SlotOp :=
  let t := s.branchTarget off
  SlotOp.mk { planS te [] [63] with cause := targetCause t }
    (fun s => (s.wS 63 s.car.seqPc).mapCar (fun k => k.jump t))

/-- JR (R141, R143). -/
def slotJr (te : Bool) (a : SReg) (s : State) : SlotOp :=
  let t := s.rS a
  SlotOp.mk { planS te [a] [] with cause := jumpCause t } (fun s => s.mapCar (fun k => k.jump t))

/-- TRAP (R145): the handler is entered after the bundle; RFT goes on with the next one. In a speculation it dooms
(R166). -/
def slotTrap (te : Bool) (code : BitVec 14) (s : State) : SlotOp :=
  SlotOp.mk { te := te, dooms := s.src.place.spec } (fun s =>
    let s := s.closeBundle
    s.takeTrap { cause := .trap, taddr := code.setWidth 64 } s.car.pc s.car.tr.lastPc s.car.lastIssue)

/-- BRK (R146): precise, before any slot of its bundle takes effect. -/
def slotBrk (te : Bool) (s : State) : SlotOp :=
  SlotOp.mk { te := te, cause := some (s.here .brk) } id

/-- A car halts (R147): it issues nothing more, leaves its coupling domain, its open windows go, and loads in flight are
discarded. -/
def Car.halt (c : Car) : Car :=
  let c := c.uncouple
  { c with life := .halted, arr := c.arr.discard (BitVec.allOnes 16), flight := c.flight.filter (fun f => f.due.isSome) }

/-- HALT (R147). In handler mode it also aborts the consist with cause HANDLER_HALT (R148, R375). -/
def slotHalt (te : Bool) (s : State) : SlotOp :=
  SlotOp.mk { te := te } (fun s =>
    if s.src.tr.handler then
      let s := s.closeBundle
      if s.car.place.spec then s.doom else (s.mapCar Car.halt).abortMine 0x08#8
    else (s.mapCar Car.halt).endStreams)

/-- DRAIN and DRAINW (R150): no further bundle issues until what is outstanding has performed. -/
def State.drain (s : State) (te writes : Bool) : SlotOp :=
  SlotOp.mk { te := te } (fun s =>
    if (if writes then s.writesOut s.src else s.accessesOut s.src) then
      s.mapCar (fun c => { c with wait := c.wait ++ [.drain writes] })
    else s)

/-- DRAIN (R150). -/
def slotDrain (te : Bool) (_scope : BitVec 2) (s : State) : SlotOp := s.drain te false

/-- DRAINW (R150). -/
def slotDrainw (te : Bool) (_scope : BitVec 2) (s : State) : SlotOp := s.drain te true

/-- The home of a word that WADR watches: the die cache is bypassed (R156, R305). -/
def Target.home : Target → Target
  | .hbm pa _ => .hbm pa false
  | t => t

/-- The word at a WADR's address, read at its home. -/
def State.wadrWord (s : State) (ha : Word) : Word :=
  BitVec.ofNat 64 (match (s.car.target s.dev ha).home with
    | .spad o => natLE ((List.range 8).map (fun i => s.dev.ownByte s.car (o + i)))
    | .imem o => natLE (s.car.imem.readBytes o 8)
    | .peer _ core o =>
      match s.peerCar s.car core with
      | some p => natLE (p.spad.readBytes o 8)
      | none => 0
    | t => (s.dev.readPhys (s.dev.specOf s.car) none t 8).nat)

/-- A scalar register is empty until something fills it. -/
def Car.markEmptyS (c : Car) (r : SReg) : Car :=
  if r = 0 then c else { c with marks.emptyS := c.marks.emptyS ||| (1#72 <<< (c.physS r).val) }

/-- WADR (R156 to R158): sd := 0 when the word already differs from sb, else the car waits. In a speculation it dooms
(R166). -/
def slotWadr (te : Bool) (d a b : SReg) (s : State) : SlotOp :=
  let ha := s.rS a
  let p := s.planMem (planS te [a, b] [d]) a ha { rd := true, align := 8 } 8
  SlotOp.mk { p with dooms := s.src.place.spec } (fun s =>
    let s := s.watch ha 8 true false
    let t := s.target ha
    if s.wadrWord ha ≠ s.rS b then
      if t.isLocal then s.mapCar (fun c => c.startS s.now d 0#64 (some (s.now + 4)) false false 0#64 0)
      else s.mapCar (fun c => c.startS s.now d 0#64 none false false ha (s.now + s.latency t.home))
    else
      let tmo := s.src.ctl.wadrTmo.toNat
      let limit := if tmo = 0 then none else some (s.now + tmo * Config.usCycles)
      s.mapCar (fun c =>
        let c := c.markEmptyS d
        { c with wait := c.wait ++ [.wadr ha (if d = 0 then 0 else (c.physS d).val) (s.rS b) s.now limit] }))

/-! The meanings: a slot issues, or its bundle waits or traps (R88). -/

/-- BR. -/
def execBr (te : Bool) (off : BitVec 42) (s : State) : Result := (slotBr te off s).run s

/-- BNZ. -/
def execBnz (te : Bool) (a : SReg) (off : BitVec 42) (s : State) : Result := (slotBnz te a off s).run s

/-- BZ. -/
def execBz (te : Bool) (a : SReg) (off : BitVec 42) (s : State) : Result := (slotBz te a off s).run s

/-- CALL. -/
def execCall (te : Bool) (off : BitVec 42) (s : State) : Result := (slotCall te off s).run s

/-- JR. -/
def execJr (te : Bool) (a : SReg) (s : State) : Result := (slotJr te a s).run s

/-- TRAP. -/
def execTrap (te : Bool) (code : BitVec 14) (s : State) : Result := (slotTrap te code s).run s

/-- BRK. -/
def execBrk (te : Bool) (s : State) : Result := (slotBrk te s).run s

/-- HALT. -/
def execHalt (te : Bool) (s : State) : Result := (slotHalt te s).run s

/-- DRAIN. -/
def execDrain (te : Bool) (_scope : BitVec 2) (s : State) : Result := (slotDrain te _scope s).run s

/-- DRAINW. -/
def execDrainw (te : Bool) (_scope : BitVec 2) (s : State) : Result := (slotDrainw te _scope s).run s

/-- WADR. -/
def execWadr (te : Bool) (d a b : SReg) (s : State) : Result := (slotWadr te d a b s).run s

end Sys2Proof.Machine
end

