-- ==== Sys2Proof/Machine/Engine.lean ====
section
/-!
DEFINITION. What the engines of a car do: translating, reading and writing elements, and how a copy ends (spec 09 R231 to
R242; 12 R319; 20 R455).
-/
namespace Sys2Proof.Machine

/-! Cars by name. -/

/-- Act on the state with the car of a name in focus. A name that no car has changes nothing. -/
def State.atCar (s : State) (r : CarRef) (f : State → State) : State :=
  if s.car.ref = r then f s
  else match s.peers.findIdx? (fun c => c.ref == r) with
    | none => s
    | some i =>
      let t := f { s with car := s.peers.getD i s.car, peers := s.peers.set i s.car }
      { t with car := t.peers.getD i t.car, peers := t.peers.set i t.car }

/-! Elements (R231, R240, R319). -/

/-- A translation enters the TLB of a copy unit of the focused car's core. -/
def State.addCopyTlb (s : State) (u : Fin 2) (w : Walked) : State :=
  s.mapCars (fun c => if c.ident.coreId = s.car.ident.coreId then
    { c with eng := { c.eng with copyTlb := c.eng.copyTlb.set u.val (tlbAdd 128 c.eng.copyTlb[u] w) u.isLt } } else c)

/-- Translate a virtual address for a copy unit of the focused car's core through its TLB (R319). An entry without the right is
not used: the unit walks (R241). A walk that ends on poison is counted (R318). -/
def State.engTarget (s : State) (u : Fin 2) (rd wr : Bool) (va : Word) : State × Option Target :=
  if va.extractLsb' 56 8 ≠ 0#8 then (s, none)
  else match (tlbFind s.car.eng.copyTlb[u] va.toNat).filter (fun e => leafGrants e.leaf rd wr) with
    | some e => (s, some (s.dev.leafTarget e.leaf e.page va.toNat))
    | none =>
      match s.dev.walk va.toNat with
      | none => (s.mapDev (fun d => d.countWalk va.toNat), none)
      | some w => (s.addCopyTlb u w, if leafGrants w.leaf rd wr then some (s.dev.leafTarget w.leaf w.page va.toNat) else none)

/-- The bytes at a target with the poison of each; none on an error response. -/
def State.readMarked (s : State) (t : Target) (n : Nat) : Option (List (Byte × Bool)) :=
  (List.range n).mapM (fun i =>
    let l := match t with
      | .peer _ core o =>
        match s.peerCar s.car core with
        | some p => ({ bytes := [p.spad.read (o + i)], poison := p.spad.poisoned (o + i) } : Loaded)
        | none => { bytes := [0#8], err := true }
      | t => s.dev.readPhys (s.dev.specOf s.car) s.car.die (t.plus i) 1
    if l.err then none else some (l.bytes.headD 0#8, l.poison))

/-- Mark one byte of a target poisoned (R455). -/
def State.poisonByte (s : State) (t : Target) : State :=
  match t with
  | .spad o => s.mapCar (fun c => { c with spad := c.spad.setPoison o 1 })
  | t => s.mapDev (fun d => d.spoilAt (d.specOf s.car) s.car.die t)

/-- Write bytes, some poisoned, to a target for an engine of the car. -/
def State.writeMarked (s : State) (t : Target) (bs : List (Byte × Bool)) : State :=
  let raw := bs.map (·.1)
  let s := match t with
    | .spad o => s.spadWrite o raw
    | t => s.storeAt (some s.car.ref) (s.dev.specOf s.car) s.car.die t raw
  bs.zipIdx.foldl (fun s p => if p.1.2 then s.poisonByte (t.plus p.2) else s) s

/-- Write bytes, some poisoned, into the scratchpad of the core that a window maps; nothing when no such car is there. -/
def State.writePeer (s : State) (core : BitVec 9) (o : Nat) (bs : List (Byte × Bool)) : State :=
  match s.peerCar s.car core with
  | none => s
  | some p => s.mapAt p.ref (fun x => { x with
      spad := bs.zipIdx.foldl (fun m q => if q.1.2 then m.setPoison (o + q.2) 1 else m) (x.spad.write o (bs.map (·.1))) })

/-- An engine's access to another package gets an error response (R401, R414, R418). -/
def State.wayShut (s : State) (t : Target) : Bool :=
  match t with
  | .remote .. => s.dev.shut t
  | _ => false

/-- An engine's access to another package goes out: a flit for an element in the lossless class (R407, notes/assumptions/26.md), none in
the lossy class (R411). -/
def State.takeWay (s : State) (k : Copy) (t : Target) : State :=
  match t with
  | .remote pa c => s.mapDev (fun d => d.sendOut (d.way pa c) (pa.extractLsb' 42 10).toNat (if k.lossy then 0 else 1) c)
  | _ => s

/-- The bytes of the source element `m` of a copy; none on a fault (R240). A scratchpad source is read as it stood, with its stash
mappings, when the copy issued (R292). -/
def State.sourceElem (s : State) (k : Copy) (m : Nat) : State × Option (List (Byte × Bool)) :=
  let a := k.ws.elem m
  let n := k.ws.esz
  if k.ws.sp then
    let c := { s.car with spad := k.spad, eng := { s.car.eng with stash := k.stash } }
    (s, some ((List.range n).map (fun i => (s.dev.spadByte c (haByte a + i), s.dev.spadPoison c (haByte a + i)))))
  else
    let r := s.engTarget k.unit true false a
    let s := r.1
    match r.2 with
    | none => (s, none)
    | some t =>
      let s := s.takeWay k t
      match if s.wayShut t then none else s.readMarked t n with
      | none => (s, none)
      | some bs => (s.mapDev (fun d => d.afterRead (d.specOf s.car) s.car.die t n), some bs)

/-- Write bytes at an address of a destination waybill; false on a fault (R240). -/
def State.putAt (s : State) (k : Copy) (sp : Bool) (a : Word) (bs : List (Byte × Bool)) : State × Bool :=
  if sp then
    if haWindow a = 0 then (s.writeMarked (.spad (haByte a)) bs, true)
    else (s.writePeer (k.wmap[haWindow a].extractLsb' 0 9) (haByte a) bs, true)
  else
    let r := s.engTarget k.unit false true a
    let s := r.1
    match r.2 with
    | none => (s, false)
    | some .nowhere => (s, false)
    | some t => if s.wayShut t then (s.takeWay k t, false) else ((s.takeWay k t).writeMarked t bs, true)

/-- Write the destination element `m` of a copy. -/
def State.putElem (s : State) (k : Copy) (m : Nat) (bs : List (Byte × Bool)) : State × Bool :=
  s.putAt k k.wd.sp (k.wd.elem m) bs

/-- Move `n` elements from the one at index `m`, until a fault: the index and the virtual address where it was met. -/
def State.moveElems (s : State) (k : Copy) : Nat → Nat → State × Option (Nat × Word)
  | 0, _ => (s, none)
  | n + 1, m =>
    let r := s.sourceElem k m
    match r.2 with
    | none => (r.1, some (m, k.ws.elem m))
    | some bs =>
      let w := r.1.putElem k m bs
      if w.2 then w.1.moveElems k n (m + 1) else (w.1, some (m, k.wd.elem m))

/-- Rows of a copy (R231). -/
def Copy.rows (k : Copy) : Nat := if k.wd.rowLen = 0 then 0 else k.wd.count / k.wd.rowLen

/-- A transfer with a zero extent on either side (R234). -/
def Copy.isEmpty (k : Copy) : Bool := k.ws.empty || k.wd.empty

/-- Put a copy's record back. -/
def Car.setCopy (c : Car) (k : Copy) : Car :=
  { c with eng.copies := c.eng.copies.map (fun x => if x.num == k.num then k else x) }

/-- Free a copy number. -/
def Car.dropCopy (c : Car) (n : Nat) : Car := { c with eng.copies := c.eng.copies.filter (fun x => x.num != n) }

/-- The copy of a number. -/
def Car.copyOf (c : Car) (n : Nat) : Option Copy := c.eng.copies.find? (fun x => x.num == n)

/-- May an engine write at an address (R240)? -/
def State.mayPut (s : State) (k : Copy) (sp : Bool) (a : Word) : Bool :=
  sp || (match (s.engTarget k.unit false true a).2 with
    | none => false
    | some .nowhere => false
    | some t => !s.wayShut t)

/-- Rows `i` to `i + n - 1` of a copy's destination are unspecified (R240, R242): free bytes where the engine may write. -/
def State.smear (s : State) (k : Copy) (i n : Nat) : State :=
  let lo := i * k.wd.rowLen
  let hi := Nat.min k.wd.count ((i + n) * k.wd.rowLen)
  let s := (List.range (hi - lo)).foldl (fun s j =>
    if s.mayPut k k.wd.sp (k.wd.elem (lo + j)) then
      (s.putElem k (lo + j) ((List.range k.wd.esz).map (fun b => (Config.anyByte s.fresh (j * 8 + b), false)))).1
    else s) s
  s.tick

/-- The AUX area of a copy is unspecified (R242): free bytes. -/
def State.smearAux (s : State) (k : Copy) : State :=
  if k.wd.auxen then
    ((List.range (k.wd.auxLen k.op)).foldl (fun s j =>
      if s.mayPut k k.wd.sp (k.wd.aux + BitVec.ofNat 64 j) then
        (s.putAt k k.wd.sp (k.wd.aux + BitVec.ofNat 64 j) [(Config.anyByte s.fresh j, false)]).1
      else s) s).tick
  else s

/-- A copy meets a fault in row `i` (R240): rows before it have been moved, 64 rows are unspecified, COPY_FAULT is
pending. -/
def State.faultCopy (s : State) (k : Copy) (i : Nat) (va : Word) : State :=
  (s.smear k i 64).mapCar (fun c =>
    (c.setCopy { k with state := .faulted i va, iter := i, reported := Nat.max k.reported i }).pend
      (.copyFault (BitVec.ofNat 6 k.num) va))

/-- Write a list of bytes at AUX (R239, R252), or none of them: then the first address that faults (R240). -/
def State.putAux (s : State) (k : Copy) (bs : List Byte) : State × Option Word :=
  let at' := fun (i : Nat) => k.wd.aux + BitVec.ofNat 64 i
  match (List.range bs.length).find? (fun i => !s.mayPut k k.wd.sp (at' i)) with
  | some i => ((s.putAt k k.wd.sp (at' i) []).1, some (at' i))
  | none => (bs.zipIdx.foldl (fun s p => (s.putAt k k.wd.sp (at' p.2) [(p.1, false)]).1) s, none)

/-- Bytes of a mask with bits set where the list holds (R239). -/
def maskBytes (bs : List Bool) : List Byte := bytesLE ((bs.length + 7) / 8) (join 1 (bs.map (fun b => if b then 1 else 0)))

/-- An enabled watchpoint with ENG meets a write of a copy (R338): the lowest byte matched, and the WPHIT bits. -/
def Debug.engineHit (b : Debug) (ts : List (Target × Nat)) : Option (Nat × BitVec 10) :=
  let hits := ts.flatMap (fun p => (b.matches p.1 p.2 false true).filter (fun h => b.wpc[h.1].getLsbD 10))
  match hits with
  | [] => none
  | h :: hs => some (hs.foldl (fun m x => Nat.min m x.2) h.2, hits.foldl (fun m x => m ||| (1#10 <<< (2 + x.1.val))) 0#10)

/-- The places a copy writes, for its watchpoints: its elements and its AUX area. -/
def State.copyTargets (s : State) (k : Copy) : List (Target × Nat) :=
  let place := fun (a : Word) (n : Nat) =>
    if k.wd.sp then (if haWindow a = 0 then some (Target.spad (haByte a), n) else none)
    else (s.engTarget k.unit false true a).2.map (fun t => (t, n))
  (List.range k.wd.count).filterMap (fun m => place (k.wd.elem m) k.wd.esz)
    ++ (if k.wd.auxen && (k.op == .crdx || k.lossy) then
      (List.range (k.wd.auxLen k.op)).filterMap (fun i => place (k.wd.aux + BitVec.ofNat 64 i) 1) else [])

/-- The writes of a copy pass the watchpoints with ENG (R338); in a speculation a match dooms (R389). -/
def State.watchEngine (s : State) (k : Copy) : State :=
  let core := s.car.ident.coreId.toNat
  let b := s.debugOf s.car
  match (if b.ctl.extractLsb' 8 2 = 0#2 || k.void then none else b.engineHit (s.copyTargets k)) with
  | none => s
  | some (a, m) =>
    if s.car.place.spec then
      s.doomSpec (s.car.ident.serviceId.extractLsb' 32 16) (s.car.ident.serviceId.extractLsb' 0 32)
    else
      let trap := b.ctl.getLsbD 10
      let s := s.mapDev (fun d => { d with debug := Tab.set d.debug core { b with stat := b.stat ||| m, hit := b.hit || !trap } })
      if trap then s.mapCar (fun c => c.pend (.watch (BitVec.ofNat 64 a) (some (BitVec.ofNat 6 k.num)))) else s

/-- The ranks of a collective that have issued it, as far as this package knows (R422). -/
def Coll.issued (x : Coll) : List Nat := x.parts.map Contribution.rank ++ x.notices.map (fun n => n.1)

/-- The collective of a rank closes: what it has not sent by now is dropped (R423). -/
def Device.closeRank (d : Device) (k : Copy) (c : CarRef) : Device :=
  if k.op.isColl then { d with fab := { d.fab with colls := d.fab.colls.map (fun x =>
    if x.group == k.wd.group && x.k == k.key then
      { x with parts := x.parts.map (fun p => if p.car == some c && p.reach.isNone then { p with reach := some x.issued } else p) }
    else x) } }
  else d

/-- The package on which a rank of a group runs (R420). -/
def GroupEntry.pkgOf (e : GroupEntry) (r : Nat) : Option Nat := e.plist[r / e.nper]?

/-- The other packages of a group. -/
def Device.othersOf (d : Device) (e : GroupEntry) : List Nat := e.plist.filter (fun p => p != d.fab.regs.pkgId.toNat)

/-- A part that is there to be used: present, and read. -/
def Contribution.given (p : Contribution) : Bool := p.present && p.ready

/-- A part comes to a rank: one whose collective has closed reaches only those that it was sent to (R423). -/
def Contribution.comesTo (p : Contribution) (r : Nat) : Bool := p.given && p.reach.all (fun l => l.contains r)

/-- The collective of a rank of this package is open (R423). -/
def Coll.open' (x : Coll) (r : Nat) : Bool := x.parts.any (fun p => p.rank == r && p.car.isSome && p.reach.isNone && p.present)

/-- What the ranks of this package have for ranks of other packages that have issued (R422, R423): the package and the message. The
blocks of a reduction go to their owners and come back from them; a gather's or broadcast's source goes to every rank. -/
def Device.collOut (d : Device) (x : Coll) : List (Nat × CollMsg) :=
  let e := d.group x.group
  let far := (x.notices.map (fun n => n.1) ++ (x.parts.filter (fun p => p.car.isNone)).map Contribution.rank).eraseDups
  let to' := fun (r : Nat) (m : CollMsg) => (e.pkgOf r).map (fun p => (p, m))
  (x.parts.filter (fun p => p.car.isSome)).flatMap (fun p =>
    (d.othersOf e).map (fun q => (q, .issue p.rank p.count p.lossy))
    ++ (if !p.given || p.reach.isSome then [] else if p.op = .crdx then
          (List.range ((p.count + 31) / 32)).filterMap (fun b =>
            if far.contains (b % e.ranks) then to' (b % e.ranks) (.part p.rank (b % e.ranks) b ((p.data.drop (32 * b)).take 32)) else none)
        else if p.data.isEmpty then [] else far.filterMap (fun r => to' r (.part p.rank r 0 p.data))))
  ++ (x.closed.filter (fun y => x.open' y.owner)).flatMap (fun y => far.filterMap (fun r => to' r (.result r y.block y.count y.vals)))

/-- Lossless flits of a message (R407, R411; notes/assumptions/26.md): a notice travels lossless, data in the class of the collective. -/
def CollMsg.flits (m : CollMsg) (lossy : Bool) : Nat :=
  let data := fun (l : List Word) => if lossy then 0 else Nat.max 1 ((8 * l.length + 63) / 64)
  match m with
  | .issue .. => 1
  | .part _ _ _ l => data l
  | .result _ _ _ l => data l

/-- Everything that may leave for other packages and has not yet is sent (R422, R423). -/
def Device.flushColl (d : Device) (g k : Nat) : Device :=
  match d.fab.colls.find? (fun x => x.group == g && x.k == k) with
  | none => d
  | some x =>
    let new := (d.collOut x).filter (fun m => !x.sent.contains m.2)
    let d := { d with fab := { d.fab with colls := d.fab.colls.map (fun y =>
      if y.group == g && y.k == k then { y with sent := y.sent ++ new.map (fun m => m.2) } else y) } }
    new.foldl (fun d m => (d.sendOut (d.wayTo m.1 false) m.1 (m.2.flits (x.parts.any (fun p => p.lossy))) false).emit [.coll g k m.2]) d

/-- A copy or collective has written everything: its watchpoints, its flag, its number (R236, R338). -/
def State.endCopy (s : State) (k : Copy) : State :=
  ((s.watchEngine k).mapCar (fun c => (c.dropCopy k.num).post k.flag 1)).mapDev (fun d => d.closeRank k s.car.ref)

/-- The row of an element. -/
def Copy.rowOf (k : Copy) (m : Nat) : Nat := if k.wd.rowLen = 0 then 0 else m / k.wd.rowLen

/-- Finish a CCPY: the rows that remain, the mask of a lossy one, then its flag; or its fault (R238 to R240). -/
def State.finishCopy (s : State) (k : Copy) : State :=
  if k.void then s.endCopy k
  else
    let m := k.iter * k.wd.rowLen
    let r := s.moveElems k (k.wd.count - m) m
    match r.2 with
    | some (m, va) => r.1.faultCopy k (k.rowOf m) va
    | none =>
      if k.lossy && k.wd.auxen then
        let w := r.1.putAux k (maskBytes (List.replicate k.wd.blocks true))
        match w.2 with
        | none => w.1.endCopy k
        | some va => w.1.faultCopy k k.rows va
      else r.1.endCopy k

/-- The package to which the element of a copy crosses, if it does. -/
def State.elemHop (s : State) (k : Copy) (m : Nat) : Option Nat :=
  let far := fun (sp rd : Bool) (a : Word) => if sp then none else match (s.engTarget k.unit rd (!rd) a).2 with
    | some (.remote pa _) => some (pa.extractLsb' 42 10).toNat
    | _ => none
  (far k.wd.sp false (k.wd.elem m)).or (far k.ws.sp true (k.ws.elem m))

/-- Elements of 256-byte block `b` of a destination: the first and how many. -/
def Copy.blockElems (k : Copy) (b : Nat) : Nat × Nat :=
  let per := 256 / k.wd.esz
  (b * per, Nat.min per (k.wd.count - b * per))

/-- The blocks of a transfer for which `f` gives some element a package, and that package. -/
def Copy.hopsOf (k : Copy) (f : Nat → Option Nat) : List (Nat × Nat) :=
  (List.range k.wd.blocks).filterMap (fun b =>
    ((List.range (k.blockElems b).2).findSome? (fun i => f ((k.blockElems b).1 + i))).map (fun p => (b, p)))

/-- The blocks of a copy that have an off-package hop, and the package at its other end (R239, R411). -/
def State.blockHops (s : State) (k : Copy) : List (Nat × Nat) := k.hopsOf (s.elemHop k)

/-! Circuits (R405). -/

/-- The circuit between two sockets of the set that serves a number, unless it is suspended. -/
def Fabric.circuit (f : Fabric) (n : BitVec 8) (src dst : Nat) : Option TtCircuit :=
  (f.sets.filter (fun y => y.serves == n && n != 0#8 && !f.suspended.contains y.n)).findSome?
    (fun y => y.set.circuits.find? (fun x => x.src == src && x.dst == dst))

/-- The circuit on which transfers of the focused car to another car of its consist ride. -/
def State.circuitTo (s : State) (x : Car) : Option TtCircuit :=
  match s.consistOf s.car, s.consistOf x with
  | some y, some z =>
    if y.q = z.q ∧ y.seq = z.seq ∧ y.idx = z.idx ∧ y.spec = z.spec then
      s.dev.fab.circuit y.ttset (dieOf s.car.ident.coreId) (dieOf x.ident.coreId)
    else none
  | _, _ => none

/-- The circuit that a copy between scratchpads rides. -/
def State.copyCircuit (s : State) (k : Copy) : Option TtCircuit :=
  let w := haWindow (k.wd.elem 0)
  if k.op = .ccpy ∧ !k.void ∧ k.ws.sp ∧ k.wd.sp ∧ w ≠ 0 then
    (s.peerCar s.car (k.wmap[w].extractLsb' 0 9)).bind s.circuitTo
  else none

/-- The first cycle at which what entered a circuit at a cycle is at its destination; without one, that cycle. -/
def TtCircuit.after (x : Option TtCircuit) (t : Nat) : Nat := t + (x.map TtCircuit.latency).getD 0

/-- The car with every access to its own scratchpad done that its store queue holds, as a line stream sees it (R246, R292). -/
def Device.drained (d : Device) (c : Car) : Car :=
  c.eng.queue.foldl (fun c x => match x.target, x.atomic with
    | .spad o, none => d.spadWrite c o x.bytes
    | .spad o, some (op, b, cmp) =>
      (match op.result (BitVec.ofNat 64 (natLE ((List.range 8).map (fun i => d.spadByte c (o + i))))) b cmp with
       | some y => d.spadWrite c o (bytesLE 8 y.toNat)
       | none => c)
    | _, _ => c) c

/-- Start an engine operation: it takes the lowest free number (R235), on the copy unit of its slot (R63). It sees the own scratchpad as
it stands, and what the store queue still writes for bundles up to its own (R292). -/
def State.takeNumber (s : State) (k : Copy) : State :=
  let n := s.freeNumber.getD 0
  s.mapCar (fun c => { c with eng := { c.eng with
    copies := c.eng.copies ++ [{ k with
      num := n, id := c.eng.nextId, unit := c.units.slot
      issued := s.now, cid := s.src.eng.nextId, rid := s.srcDev.fab.nextId
      spad := c.spad, stash := c.eng.stash, wmap := s.src.ctl.wmap, lslack := s.src.ctl.lslack }]
    nextId := c.eng.nextId + 1 } })

/-- Rows that a copy moves before its car's next bundle: any prefix (R237), as far as no fault is met; none on a circuit, whose latency
it has before it (R405). -/
def State.moveEarly (s : State) (k : Copy) : State :=
  if (s.copyCircuit k).isSome then s else
  let n := Config.progress s.fresh % (k.rows + 1) * k.wd.rowLen
  let r := s.moveElems k n 0
  let got := match r.2 with
    | some (m, _) => k.rowOf m
    | none => k.rowOf n
  (r.1.mapCar (fun c => c.setCopy { k with iter := got })).tick

end Sys2Proof.Machine
end

