-- ==== Sys2Proof/Machine/Transcend.lean ====
section
/-!
DEFINITION. The functions of VX sub-operations 2 to 9 (spec 07 R199, R200). They are evaluated in fixed point with
`prec` fraction bits and a sticky bit below them, then rounded once; where the spec admits an error in F32 the result
is a free value within it (notes/assumptions/8.md).
-/
namespace Sys2Proof.Machine

/-- Fraction bits of the fixed-point evaluation. -/
def prec : Nat := 640

/-- One in fixed point. -/
def fxOne : Int := 2 ^ prec

/-- Product in fixed point. -/
def fxMul (a b : Int) : Int := a * b / fxOne

/-- A rational in fixed point. -/
def fxOf (q : Q) : Int := q.num * fxOne / q.den

/-- The rational of a fixed-point number that is not exact: a sticky half unit marks what was cut. -/
def fxQ (a : Int) : Q := ⟨2 * a + 1, 2 ^ (prec + 1)⟩

/-- Integer square root, bit by bit from bit `n` down. -/
def isqrtFrom (x : Nat) : Nat → Nat → Nat
  | 0, r => r
  | n + 1, r => if (r + 2 ^ n) * (r + 2 ^ n) ≤ x then isqrtFrom x n (r + 2 ^ n) else isqrtFrom x n r

/-- Integer square root. -/
def isqrt (x : Nat) : Nat := isqrtFrom x (Nat.log2 x / 2 + 1) 0

/-- Sum of `term k` for a running power: ln 2 = Σ 1/(k 2^k). -/
def ln2Sum : Nat → Int
  | 0 => 0
  | k + 1 => ln2Sum k + fxOne / ((k + 1 : Nat) * 2 ^ (k + 1))

/-- ln 2. -/
def fxLn2 : Int := ln2Sum prec

/-- Taylor series of e^y from term `k` on; `t` is the term. -/
def expSeries (y : Int) : Nat → Nat → Int → Int
  | 0, _, _ => 0
  | fuel + 1, k, t => t + expSeries y fuel (k + 1) (fxMul t y / (k + 1 : Nat))

/-- e^y for 0 ≤ y < 1. -/
def fxExp (y : Int) : Int := expSeries y 160 0 fxOne

/-- 2^x as an exponent and a fixed-point factor in [1, 2). -/
def exp2Parts (x : Q) : Int × Int :=
  let n := x.num / x.den
  let f : Q := ⟨x.num % x.den, x.den⟩
  (n, fxExp (fxMul (fxOf f) fxLn2))

/-- 2^x. -/
def qExp2 (x : Q) : Q :=
  if x.isInt then
    let n := x.num / x.den
    if 2000 < n then Q.scale 1 2000 else if n < -2000 then Q.scale 1 (-2000) else Q.scale 1 n
  else if Q.lt (Q.ofInt 2000) x then Q.scale 3 2000
  else if Q.lt x (Q.ofInt (-2000)) then Q.scale 3 (-2000)
  else
    let p := exp2Parts x
    (fxQ p.2).mul (Q.scale 1 p.1)

/-- Series of atanh z from power `2k + 1` on. -/
def atanhSeries (z2 : Int) : Nat → Nat → Int → Int
  | 0, _, _ => 0
  | fuel + 1, k, t => t / (2 * k + 1 : Nat) + atanhSeries z2 fuel (k + 1) (fxMul t z2)

/-- ln m for 1 ≤ m < 2. -/
def fxLn (m : Int) : Int :=
  let z := (m - fxOne) * fxOne / (m + fxOne)
  2 * atanhSeries (fxMul z z) 220 0 z

/-- log2 x for x > 0. -/
def qLog2 (x : Q) : Q :=
  let e := x.ilogb
  let m := x.mul (Q.scale 1 (-e))
  if m.eq (Q.ofInt 1) then Q.ofInt e
  else fxQ (e * fxOne + fxLn (fxOf m) * fxOne / fxLn2)

/-- e^x in fixed point for |x| ≤ 200, as a rational. -/
def qExp (x : Q) : Q :=
  let y : Int := fxOf x * fxOne / fxLn2
  let n := y / fxOne
  let f := y - n * fxOne
  (fxQ (fxExp (fxMul f fxLn2))).mul (Q.scale 1 n)

/-- A positive value far below every format. -/
def qTiny : Q := Q.scale 1 (-600)

/-- tanh x for x that is not zero. -/
def qTanh (x : Q) : Q :=
  let a : Q := ⟨x.num.natAbs, x.den⟩
  let r :=
    if Q.lt (Q.ofInt 200) a then (Q.ofInt 1).add qTiny.neg
    else if Q.lt a (Q.scale 1 (-100)) then a.add (a.mul (a.mul a)).neg
    else
      let e := qExp (a.add a)
      (e.add (Q.ofInt (-1))).div (e.add (Q.ofInt 1))
  if x.isNeg then r.neg else r

/-- 1 / (1 + e^-x). -/
def qSig (x : Q) : Q :=
  if Q.lt (Q.ofInt 200) x then (Q.ofInt 1).add qTiny.neg
  else if Q.lt x (Q.ofInt (-200)) then qTiny
  else (Q.ofInt 1).div ((Q.ofInt 1).add (qExp x.neg))

/-- Σ (−1)^k x^(2k+1) / (2^k k! (2k+1)). -/
def phiSeries (x2 : Int) : Nat → Nat → Int → Int
  | 0, _, _ => 0
  | fuel + 1, k, t => t / (2 * k + 1 : Nat) + phiSeries x2 fuel (k + 1) (-(fxMul t x2) / (2 * (k + 1) : Nat))

/-- Series of arctan(1/n). -/
def atanInv (n2 : Int) : Nat → Nat → Int → Int
  | 0, _, _ => 0
  | fuel + 1, k, t => t / (2 * k + 1 : Nat) + atanInv n2 fuel (k + 1) (-(t / n2))

/-- π by Machin's formula. -/
def fxPi : Int := 4 * (4 * atanInv 25 300 0 (fxOne / 5) - atanInv 57121 100 0 (fxOne / 239))

/-- √(2π) in fixed point. -/
def fxRoot2Pi : Int := (isqrt ((2 * fxPi * fxOne).toNat) : Nat)

/-- x × ½ (1 + erf(x / √2)) for x that is not zero. -/
def qGelu (x : Q) : Q :=
  if Q.lt (Q.ofInt 16) x then x.add qTiny.neg
  else if Q.lt x (Q.ofInt (-16)) then qTiny.neg
  else
    let f := fxOf x
    let phi := fxOne / 2 + phiSeries (fxMul f f) 900 0 f * fxOne / fxRoot2Pi
    x.mul (fxQ phi)

/-- √x for x ≥ 0, exact where it is. -/
def qSqrt (x : Q) : Q :=
  let n := x.num.natAbs * x.den
  let r := isqrt n
  if r * r = n then ⟨r, x.den⟩
  else
    let s := isqrt (n * 2 ^ (2 * prec))
    ⟨2 * s + 1, x.den * 2 ^ (prec + 1)⟩

/-- 1 / √x for x > 0. -/
def qRsq (x : Q) : Q := (Q.ofInt 1).div (qSqrt x)

/-- The functions of sub-ops 2 to 9 (R199). -/
inductive VxFn where
  | rcp | rsq | sqrt | exp2 | log2 | tanh | sig | gelu
deriving DecidableEq, Repr

/-- Number of a function among the sub-operations (R80). -/
def VxFn.code : VxFn → Nat
  | .rcp => 2
  | .rsq => 3
  | .sqrt => 4
  | .exp2 => 5
  | .log2 => 6
  | .tanh => 7
  | .sig => 8
  | .gelu => 9

/-- Exact result of a function, special operands by R200; the flag is DZ or NV of the table. -/
def VxFn.exact (f : VxFn) (x : Ex) : Ex × Fl :=
  match x with
  | .nan s => (.nan s, 0#8)
  | .inf n =>
    match f with
    | .rcp => (.val ⟨0, 1⟩ n, 0#8)
    | .rsq => if n then (.nan true, 0#8) else (.val ⟨0, 1⟩ false, 0#8)
    | .sqrt => if n then (.nan true, 0#8) else (.inf false, 0#8)
    | .exp2 => if n then (.val ⟨0, 1⟩ false, 0#8) else (.inf false, 0#8)
    | .log2 => if n then (.nan true, 0#8) else (.inf false, 0#8)
    | .tanh => (.val (Q.ofInt (if n then -1 else 1)) false, 0#8)
    | .sig => if n then (.val ⟨0, 1⟩ false, 0#8) else (.val (Q.ofInt 1) false, 0#8)
    | .gelu => if n then (.val ⟨0, 1⟩ true, 0#8) else (.inf false, 0#8)
  | .val q z =>
    if q.isZero then
      match f with
      | .rcp => (.inf z, DZ)
      | .rsq => (.inf z, DZ)
      | .sqrt => (.val q z, 0#8)
      | .exp2 => (.val (Q.ofInt 1) false, 0#8)
      | .log2 => (.inf true, DZ)
      | .tanh => (.val q z, 0#8)
      | .sig => (.val ⟨1, 2⟩ false, 0#8)
      | .gelu => (.val q z, 0#8)
    else
      match f with
      | .rcp => (.val ((Q.ofInt 1).div q) false, 0#8)
      | .rsq => if q.isNeg then (.nan true, 0#8) else (.val (qRsq q) false, 0#8)
      | .sqrt => if q.isNeg then (.nan true, 0#8) else (.val (qSqrt q) false, 0#8)
      | .exp2 => (.val (qExp2 q) false, 0#8)
      | .log2 => if q.isNeg then (.nan true, 0#8) else (.val (qLog2 q) false, 0#8)
      | .tanh => (.val (qTanh q) false, 0#8)
      | .sig => (.val (qSig q) false, 0#8)
      | .gelu => (.val (qGelu q) false, 0#8)

/-- Units in the last place that F32 admits (R199); 0 is correctly rounded. -/
def VxFn.ulps : VxFn → Nat
  | .rcp => 0
  | .sqrt => 0
  | .rsq => 1
  | .exp2 => 1
  | .log2 => 1
  | _ => 2

/-- Operands on which R199 and R200 give the F32 result exactly. -/
def VxFn.fixed (f : VxFn) (x r : Q) : Bool :=
  match f with
  | .exp2 => x.isInt
  | .log2 => r.isInt
  | _ => false

/-- The F32 result of a function: correctly rounded, or the free value when it lies within the units admitted. -/
def VxFn.f32 (f : VxFn) (fmt : Fmt) (bits : Nat) (x : Ex) : Nat × Fl :=
  let e := f.exact x
  let c := e.1.round flt32 fmt.rm fmt.fz
  let c := (c.1, c.2 ||| e.2)
  match x, e.1 with
  | .val q _, .val r _ =>
    if f.ulps = 0 || q.isZero || f.fixed q r || c.2 &&& (OF ||| UF) != 0#8 then c
    else
      let cand := (Config.approxF32 f.code fmt.rm.toNat (BitVec.ofNat 32 bits)).toNat
      match flt32.decode false cand with
      | .num y _ =>
        let d := y.add r.neg
        let ulp := Q.scale f.ulps (r.ilogb - 23)
        let near := Q.lt ⟨d.num.natAbs, d.den⟩ ulp
        let normal := decide (y.num ≠ 0) && decide (-126 ≤ y.ilogb)
        if near && normal then (cand, flIf (!y.eq r) NX ||| e.2) else c
      | _ => c
  | _, _ => c

/-- An element of a function of sub-ops 2 to 9 (R199). -/
def VxFn.elem (f : VxFn) (t : ETy) (fmt : Fmt) (bits : Nat) : Nat × Fl :=
  let x := t.readReal fmt.fz bits
  match t with
  | .f32 => f.f32 fmt bits x
  | .m8 =>
    let b := (x.round flt32 fmt.rm fmt.fz).1
    let r := f.f32 fmt b x
    let m := m8Encode (flt32.decode false r.1).ex
    (m.1, r.2 ||| m.2)
  | _ =>
    let e := f.exact x
    let r := e.1.round t.flt fmt.rm fmt.fz
    (r.1, r.2 ||| e.2)

end Sys2Proof.Machine
end

