-- ==== Sys2Proof/Machine/VecOps.lean ====
section
/-!
DEFINITION. What the V instructions compute on the elements of their operands (spec 07). Each function answers the
result of every element and its VFLAGS bits; the mask is applied by `merge` (R168) unless the rule says otherwise.
-/
namespace Sys2Proof.Machine

/-- Element-wise arithmetic operations (R172). -/
inductive VArith where
  | add | sub | mul | fma | fms | max | min
deriving DecidableEq, Repr

/-- The exact real result (R172). -/
def VArith.real (o : VArith) (fmt : Fmt) (a b d : Ex) : Ex × Fl :=
  match o with
  | .add => (Ex.add fmt.rm a b, 0#8)
  | .sub => (Ex.add fmt.rm a b.neg, 0#8)
  | .mul => (a.mul b, 0#8)
  | .fma => (Ex.add fmt.rm d (a.mul b), 0#8)
  | .fms => (Ex.add fmt.rm d (a.mul b).neg, 0#8)
  | .max => Ex.pick true a b
  | .min => Ex.pick false a b

/-- The exact integer result (R172). -/
def VArith.int (o : VArith) (a b d : Int) : Int :=
  match o with
  | .add => a + b
  | .sub => a - b
  | .mul => a * b
  | .fma => d + a * b
  | .fms => d - a * b
  | .max => Max.max a b
  | .min => Min.min a b

/-- VFMA and VFMS read vd (R172). -/
def VArith.reads (o : VArith) : Bool := o == .fma || o == .fms

/-- One element (R172). -/
def VArith.elem (o : VArith) (t : ETy) (fmt : Fmt) (a b d : Nat) : Nat × Fl :=
  if t.isReal then
    let r := o.real fmt (t.readReal fmt.fz a) (t.readReal fmt.fz b) (t.readReal fmt.fz d)
    let p := t.putReal fmt r.1
    (p.1, p.2 ||| r.2)
  else
    let x := t.readInt a
    let y := t.readInt b
    let z := t.readInt d
    let p := t.putInt (o.int x.1 y.1 z.1)
    (p.1, p.2 ||| x.2 ||| y.2 ||| (if o.reads then z.2 else 0#8))

/-- A function of three lists, element by element. -/
def zip3 (f : Nat → Nat → Nat → Nat × Fl) : List Nat → List Nat → List Nat → List (Nat × Fl)
  | a :: as, b :: bs, c :: cs => f a b c :: zip3 f as bs cs
  | _, _, _ => []

/-- Bitwise operations and shifts on raw elements (R173). -/
inductive VBit where
  | and | or | xor | shl | shr | sar
deriving DecidableEq, Repr

/-- One raw element of `w` bits (R173). -/
def VBit.elem (o : VBit) (w a b : Nat) : Nat :=
  let c := b % 256
  match o with
  | .and => a &&& b
  | .or => a ||| b
  | .xor => a ^^^ b
  | .shl => if w ≤ c then 0 else a * 2 ^ c % 2 ^ w
  | .shr => if w ≤ c then 0 else a / 2 ^ c
  | .sar => pattern w (signed w a / 2 ^ (min c w))

/-- Compares (R174). -/
inductive VCmp where
  | eq | lt | le
deriving DecidableEq, Repr

/-- One compare (R174). -/
def VCmp.elem (o : VCmp) (t : ETy) (fmt : Fmt) (a b : Nat) : Bool × Fl :=
  if t.isReal then
    let x := t.readReal fmt.fz a
    let y := t.readReal fmt.fz b
    match x.join y with
    | some (.nan s) => (false, flIf (s || o != .eq) NV)
    | _ =>
      let lt := Ex.lt false x y
      let gt := Ex.lt false y x
      match o with
      | .eq => (!lt && !gt, 0#8)
      | .lt => (lt, 0#8)
      | .le => (!gt, 0#8)
  else
    let x := t.readInt a
    let y := t.readInt b
    let r := match o with
      | .eq => decide (x.1 = y.1)
      | .lt => decide (x.1 < y.1)
      | .le => decide (x.1 ≤ y.1)
    (r, x.2 ||| y.2)

/-- The mask a compare writes (R174): inactive bits are 0. -/
def cmpBits (o : VCmp) (t : ETy) (fmt : Fmt) : List Bool → List Nat → List Nat → List Bool × Fl
  | k :: ks, a :: as, b :: bs =>
    let m := cmpBits o t fmt ks as bs
    if k then
      let r := o.elem t fmt a b
      (r.1 :: m.1, r.2 ||| m.2)
    else (false :: m.1, m.2)
  | _, _, _ => ([], 0#8)

/-- VSLD (R176). -/
def slideDown (a : List Nat) (c : Nat) : List Nat := a.drop c ++ List.replicate (min c a.length) 0

/-- VSLU (R176). -/
def slideUp (a : List Nat) (c : Nat) : List Nat := (List.replicate (min c a.length) 0 ++ a).take a.length

/-- Cut a list into groups of `g`. -/
def groupsOf {α : Type} (g : Nat) : Nat → List α → List (List α)
  | 0, _ => []
  | n + 1, xs => xs.take g :: groupsOf g n (xs.drop g)

/-- Elements in a reduction group (R185). -/
def groupSize (fmt : Fmt) (n : Nat) : Nat := if 1 ≤ fmt.rg ∧ 2 ^ fmt.rg < n then 2 ^ fmt.rg else n

/-- Reductions (R186, R187). -/
inductive VRed where
  | sum | max | min | cnt | mean
deriving DecidableEq, Repr

/-- The active elements of a group as reals, absent ones marked. -/
def presentReal (t : ETy) (fmt : Fmt) (ks : List Bool) (xs : List Nat) : List (Option Ex) :=
  (ks.zip xs).map (fun p => if p.1 then some (t.readReal fmt.fz p.2) else none)

/-- The active elements of a group as integers, with the flags of reading them. -/
def presentInt (t : ETy) (ks : List Bool) (xs : List Nat) : List (Int × Fl) :=
  (ks.zip xs).filterMap (fun p => if p.1 then some (t.readInt p.2) else none)

/-- One group of a reduction in the float class and M8 (R186, R187). -/
def VRed.real (o : VRed) (t : ETy) (fmt : Fmt) (ks : List Bool) (xs : List Nat) : Nat × Fl :=
  let es := presentReal t fmt ks xs
  let k := Nat.log2 es.length
  let c := (ks.filter id).length
  match o with
  | .sum =>
    let r := tree (sumF32 fmt) k es
    let p := t.putReal fmt (r.1.getD (.val ⟨0, 1⟩ false))
    (p.1, p.2 ||| r.2)
  | .max =>
    let r := tree (Ex.pick true) k es
    let p := t.putReal fmt (r.1.getD (.inf true))
    (p.1, p.2 ||| r.2)
  | .min =>
    let r := tree (Ex.pick false) k es
    let p := t.putReal fmt (r.1.getD (.inf false))
    (p.1, p.2 ||| r.2)
  | .cnt =>
    let nz := (es.filter (fun e => match e with
      | none => false
      | some (.val q _) => !q.isZero
      | some _ => true)).length
    let p := t.putReal fmt (.val (Q.ofInt nz) false)
    (p.1, p.2 ||| flIf (es.any (fun e => match e with
      | some (.nan s) => s
      | _ => false)) NV)
  | .mean =>
    if c = 0 then (0, 0#8)
    else
      let r := tree (sumF32 fmt) k es
      let e := r.1.getD (.val ⟨0, 1⟩ false)
      let m := match e with
        | .val q z => Ex.val (q.div (Q.ofInt c)) z
        | x => x
      let p := t.putReal fmt m
      (p.1, p.2 ||| r.2)

/-- One group of a reduction in the integer and code classes (R57, R186, R187). DEDUCED (log 31):
rounding the mean to an integer sets no flag of its own; R43 and R51 name only SAT. -/
def VRed.int (o : VRed) (t : ETy) (fmt : Fmt) (ks : List Bool) (xs : List Nat) : Nat × Fl :=
  let es := presentInt t ks xs
  let fl := es.foldl (fun f e => f ||| e.2) 0#8
  let vs := es.map (·.1)
  let s := vs.foldl (· + ·) 0
  let r :=
    match o with
    | .sum => t.putInt s
    | .max => t.putInt (vs.foldl Max.max t.range.1)
    | .min => t.putInt (vs.foldl Min.min t.range.2)
    | .cnt => t.putInt (vs.filter (· ≠ 0)).length
    | .mean =>
      if vs.isEmpty then (0, 0#8)
      else
        let q := (Q.ofInt s).div (Q.ofInt vs.length)
        t.putInt (q.round fmt.rm)
  (r.1, r.2 ||| fl)

/-- A reduction: the result of group g in element g, zeros after (R185). -/
def reduce (o : VRed) (t : ETy) (fmt : Fmt) (ks : List Bool) (a : List Nat) : List Nat × Fl :=
  let n := t.count
  let g := groupSize fmt n
  let rs := ((groupsOf g (n / g) ks).zip (groupsOf g (n / g) a)).map (fun p =>
    if t.isReal then o.real t fmt p.1 p.2 else o.int t fmt p.1 p.2)
  (rs.map (·.1) ++ List.replicate (n - rs.length) 0, rs.foldl (fun f r => f ||| r.2) 0#8)

/-- Elements in a block (R31 BS). -/
def blockSize (fmt : Fmt) : Nat := 2 ^ (fmt.bs + 3)

/-- VRSC of one element with the count of its block (R188). DEDUCED (log 31): in the integer and code
classes the rounding to an integer sets no flag. -/
def rescale (t : ETy) (fmt : Fmt) (rcnt cnt x : Nat) : Nat × Fl :=
  if cnt = 0 then (0, 0#8)
  else
    let f : Q := ⟨rcnt, cnt⟩
    if t.isReal then
      t.putReal fmt (match t.readReal fmt.fz x with
        | .val q z => .val (q.mul f) z
        | e => e)
    else
      let v := t.readInt x
      let q := (Q.ofInt v.1).mul f
      let p := t.putInt (q.round fmt.rm)
      (p.1, p.2 ||| v.2)

/-- VPERM (R189). -/
def permute (a b : List Nat) : List Nat :=
  let arr := a.toArray
  b.map (fun i => arr.getD i 0)

/-- Interleave (R190). -/
def interleave : List Nat → List Nat → List Nat
  | a :: as, b :: bs => a :: b :: interleave as bs
  | _, _ => []

/-- The even elements. -/
def evens : List Nat → List Nat
  | a :: _ :: rest => a :: evens rest
  | [a] => [a]
  | [] => []

/-- VMRG (R191). -/
def pick2 : List Bool → List Nat → List Nat → List Nat
  | k :: ks, a :: as, b :: bs => (if k then a else b) :: pick2 ks as bs
  | _, _, _ => []

/-- VCMPR (R191). -/
def compress (ks : List Bool) (a : List Nat) : List Nat :=
  let xs := ((ks.zip a).filter (·.1)).map (·.2)
  xs ++ List.replicate (a.length - xs.length) 0

/-- The prefix counts of VIOTA (R191). -/
def prefixCounts : Nat → List Bool → List Nat
  | _, [] => []
  | c, k :: ks => c :: prefixCounts (if k then c + 1 else c) ks

/-- A count delivered in a type (R191). -/
def putCount (t : ETy) (fmt : Fmt) (c : Nat) : Nat × Fl :=
  match t with
  | .m8 => m8Encode (.val (Q.ofInt c) false)
  | _ => if t.isReal then t.putReal fmt (.val (Q.ofInt c) false) else t.putInt c

/-- An element as a real for the block operations (R193). -/
def readAny (t : ETy) (fmt : Fmt) (x : Nat) : Ex :=
  if t.isReal then t.readReal fmt.fz x else .val (Q.ofInt (t.readInt x).1) false

/-- VBEXP: the exponent byte of each block (R193). -/
def blockExps (t : ETy) (fmt : Fmt) (ks : List Bool) (a : List Nat) : List Nat :=
  let es := (ks.zip a).map (fun p => if p.1 then readAny t fmt p.2 else .val ⟨0, 1⟩ false)
  let b := blockSize fmt
  (groupsOf b (t.count / b) es).map (fun g => pattern 8 (blockExp g))

/-- The exponent of the block of element `i` from the bytes of vb. -/
def expOf (fmt : Fmt) (bytes : Array Nat) (i : Nat) : Int := signed 8 (bytes.getD (i / blockSize fmt) 0)

/-- VBQ of one element (R194). -/
def quantElem (t : ETy) (fmt : Fmt) (e : Int) (x : Nat) : Nat × Fl :=
  let r := quantise e (readAny t fmt x)
  (pattern 8 r.1, r.2)

/-- VBDQ of one code (R195), delivered in an integer type as R52 converts (notes/assumptions/32.md). -/
def dequantElem (t : ETy) (fmt : Fmt) (e : Int) (code : Nat) : Nat × Fl :=
  let c := ETy.l8.readInt code
  let x : Ex := .val (Q.scale c.1 e) false
  let r := match t with
    | .m8 => m8Encode x
    | _ => if t.isReal then t.putReal fmt x else toIntTy t fmt.rm x
  (r.1, r.2 ||| c.2)

/-- VABS and VNEG of one element (R198). -/
def signElem (abs : Bool) (t : ETy) (fmt : Fmt) (x : Nat) : Nat × Fl :=
  if t.isReal then
    let e := t.readReal fmt.fz x
    let r := if abs then (if e.sign then e.neg else e) else e.neg
    match t with
    | .m8 => m8Encode r
    | _ => r.round t.flt fmt.rm fmt.fz
  else
    let v := t.readInt x
    let p := t.putInt (if abs then v.1.natAbs else -v.1)
    (p.1, p.2 ||| v.2)

/-- VFLR (toward −∞) and VRND of one element (R201). DESIGN CHOICE (notes/assumptions/58.md): in the integer and code classes
the element is copied bit for bit and sets no flag, an L8 0x80 or a C10 lane out of range too. -/
def integralElem (rm : BitVec 2) (t : ETy) (fmt : Fmt) (x : Nat) : Nat × Fl :=
  if t.isReal then
    let r := match t.readReal fmt.fz x with
      | .val q z => Ex.val (Q.ofInt (q.round rm)) (if q.isZero then z else q.isNeg)
      | e => e
    match t with
    | .m8 => m8Encode r
    | _ => r.round t.flt fmt.rm fmt.fz
  else (x, 0#8)

/-- Leading zeros of a pattern of `w` bits (R204). -/
def clzNat (w x : Nat) : Nat := if x = 0 then w else w - 1 - Nat.log2 x

/-- One bits of a number. -/
def popNat : Nat → Nat → Nat
  | 0, _ => 0
  | n + 1, x => x % 2 + popNat n (x / 2)

/-- VCVT from `t` to `u` (R202): elements of vd in `u`. -/
def convertAll (fmt : Fmt) (t u : ETy) (ks : List Bool) (a old : List Nat) : List Nat × Fl :=
  let c := min t.count u.count
  let m := merge (ks.take c) ((a.take c).map (convert fmt t u)) (old.take c)
  (m.1 ++ List.replicate (u.count - c) 0, m.2)

end Sys2Proof.Machine
end

