-- ==== Sys2Proof/Machine/Vector.lean ====
section
/-!
DEFINITION. The V slots (spec 07 R167 to R208): operands, masks and destinations; what is computed on elements stands in
VecOps and Transcend.
-/
namespace Sys2Proof.Machine

/-! Element type, operands and destinations (R167 to R171, R180). -/

/-- The element type of FMT.VT; `vtBad` says when it has none. -/
def Fmt.ety (f : Fmt) : ETy := (ETy.ofCode f.vt).getD .f32

/-- FMT.VT is reserved (R32). -/
def Fmt.vtBad (f : Fmt) : Bool := (ETy.ofCode f.vt).isNone

/-- The type of FMT.VT2. -/
def Fmt.ety2 (f : Fmt) : ETy := (ETy.ofCode f.vt2).getD .f32

/-- The elements of a vd or va operand. -/
def State.eA (s : State) (r : VReg) : List Nat := elems s.fmt.ety (s.rVA r)

/-- The elements of a vb operand. -/
def State.eB (s : State) (r : VReg) : List Nat := elems s.fmt.ety (s.rVB r)

/-- The scalar element of a VS form (R175). -/
def State.eS (s : State) (r : SReg) : Nat := (s.rS r).toNat % 2 ^ s.fmt.ety.bits

/-- The active elements under a governing mask (R168). -/
def State.act (s : State) (k : KLow) : List Bool := active s.fmt.ety.count (s.rK k.toK)

/-- Start the producer of vd. A write with some elements inactive leaves a poison mark in place (R180). -/
def State.writeV (s : State) (d : VReg) (whole : Bool) (lat : Nat) (x : VWord) : State :=
  s.mapCar (fun c => c.startV s.now (s.physA d) x (some (s.now + lat)) (!whole && s.src.isPoisoned (.v (s.physA d))) 0#64 0)

/-- Start the producer of kd. Only a compare, a load of a mask and a write with every element active clear a poison mark (R180). -/
def State.writeK (s : State) (d : KReg) (whole : Bool) (lat : Nat) (x : Mask) : State :=
  s.mapCar (fun c => c.startK s.now d x (some (s.now + lat)) (!whole && s.src.isPoisoned (.k d)) 0#64 0)

/-- A V slot: VT must be a type, the vector unit free, the mask and the sources full (R167, R168). -/
def State.vslot (s : State) (te : Bool) (k : KLow) (srcs dsts : List Opnd) (ok : Bool) (busy : Nat) (eff : State → State) : SlotOp :=
  SlotOp.mk { te := te, illegal := s.fmt.vtBad || !ok, unit := .vec, srcs := srcs ++ [.k k.toK], dsts := dsts }
    (fun s => (eff s).takeVec busy)

/-- An instruction that changes the active elements of vd (R168): the results of every element, merged. -/
def State.vmerge (s : State) (te : Bool) (d : VReg) (k : KLow) (lat : Nat) (srcs : List Opnd) (ok : Bool)
    (rs : List (Nat × Fl)) : SlotOp :=
  s.vslot te k srcs [.v (s.physA d)] ok 8 (fun s =>
    let m := merge (s.act k) rs (s.eA d)
    (s.writeV d (k == 0) lat (ofElems s.fmt.ety m.1)).setFlags m.2)

/-- An instruction that writes every element of vd (R168). -/
def State.vwhole (s : State) (te : Bool) (d : VReg) (k : KLow) (lat : Nat) (srcs : List Opnd) (ok : Bool) (x : VWord) (fl : Fl) : SlotOp :=
  s.vslot te k srcs [.v (s.physA d)] ok 8 (fun s => (s.writeV d (k == 0) lat x).setFlags fl)

/-- An instruction that writes a whole mask. -/
def State.vmask (s : State) (te : Bool) (d : KReg) (k : KLow) (whole : Bool) (srcs : List Opnd) (busy : Nat) (bs : List Bool)
    (fl : Fl) : SlotOp :=
  s.vslot te k srcs [.k d] true busy (fun s => (s.writeK d whole 12 (maskOf bs)).setFlags fl)

/-- The va operand. -/
def State.oA (s : State) (r : VReg) : Opnd := .v (s.physA r)

/-- The vb operand. -/
def State.oB (s : State) (r : VReg) : Opnd := .v (s.physB r)

/-! Arithmetic, bits, compares (R172 to R175). -/

/-- VADD to VMIN. -/
def State.varith (s : State) (o : VArith) (te : Bool) (d a b : VReg) (k : KLow) : SlotOp :=
  s.vmerge te d k 12 ([s.oA a, s.oB b] ++ (if o.reads then [s.oA d] else [])) true
    (zip3 (fun x y z => o.elem s.fmt.ety s.fmt x y z) (s.eA a) (s.eB b) (s.eA d))

/-- VADDS to VMINS. -/
def State.varithS (s : State) (o : VArith) (te : Bool) (d a : VReg) (b : SReg) (k : KLow) : SlotOp :=
  s.vmerge te d k 12 ([s.oA a, .s b] ++ (if o.reads then [s.oA d] else [])) true
    (((s.eA a).zip (s.eA d)).map (fun p => o.elem s.fmt.ety s.fmt p.1 (s.eS b) p.2))

/-- VAND to VSAR. -/
def State.vbits (s : State) (o : VBit) (te : Bool) (d a b : VReg) (k : KLow) : SlotOp :=
  s.vmerge te d k 12 [s.oA a, s.oB b] true
    (raw (((s.eA a).zip (s.eB b)).map (fun p => o.elem s.fmt.ety.bits p.1 p.2)))

/-- VCEQ, VCLT, VCLE. -/
def State.vcmp (s : State) (o : VCmp) (te : Bool) (d : KLow) (a b : VReg) (k : KLow) : SlotOp :=
  let r := cmpBits o s.fmt.ety s.fmt (s.act k) (s.eA a) (s.eB b)
  s.vmask te d.toK k true [s.oA a, s.oB b] 8 r.1 r.2

/-- VADD (R172). -/
def slotVadd (te : Bool) (d a b : VReg) (k : KLow) (s : State) : SlotOp :=
  s.varith .add te d a b k

/-- VSUB (R172). -/
def slotVsub (te : Bool) (d a b : VReg) (k : KLow) (s : State) : SlotOp :=
  s.varith .sub te d a b k

/-- VMUL (R172). -/
def slotVmul (te : Bool) (d a b : VReg) (k : KLow) (s : State) : SlotOp :=
  s.varith .mul te d a b k

/-- VFMA (R172). -/
def slotVfma (te : Bool) (d a b : VReg) (k : KLow) (s : State) : SlotOp :=
  s.varith .fma te d a b k

/-- VFMS (R172). -/
def slotVfms (te : Bool) (d a b : VReg) (k : KLow) (s : State) : SlotOp :=
  s.varith .fms te d a b k

/-- VMAX (R172). -/
def slotVmax (te : Bool) (d a b : VReg) (k : KLow) (s : State) : SlotOp :=
  s.varith .max te d a b k

/-- VMIN (R172). -/
def slotVmin (te : Bool) (d a b : VReg) (k : KLow) (s : State) : SlotOp :=
  s.varith .min te d a b k

/-- VAND (R173). -/
def slotVand (te : Bool) (d a b : VReg) (k : KLow) (s : State) : SlotOp :=
  s.vbits .and te d a b k

/-- VOR (R173). -/
def slotVor (te : Bool) (d a b : VReg) (k : KLow) (s : State) : SlotOp :=
  s.vbits .or te d a b k

/-- VXOR (R173). -/
def slotVxor (te : Bool) (d a b : VReg) (k : KLow) (s : State) : SlotOp :=
  s.vbits .xor te d a b k

/-- VSHL (R173). -/
def slotVshl (te : Bool) (d a b : VReg) (k : KLow) (s : State) : SlotOp :=
  s.vbits .shl te d a b k

/-- VSHR (R173). -/
def slotVshr (te : Bool) (d a b : VReg) (k : KLow) (s : State) : SlotOp :=
  s.vbits .shr te d a b k

/-- VSAR (R173). -/
def slotVsar (te : Bool) (d a b : VReg) (k : KLow) (s : State) : SlotOp :=
  s.vbits .sar te d a b k

/-- VCEQ (R174). -/
def slotVceq (te : Bool) (d : KLow) (a b : VReg) (k : KLow) (s : State) : SlotOp :=
  s.vcmp .eq te d a b k

/-- VCLT (R174). -/
def slotVclt (te : Bool) (d : KLow) (a b : VReg) (k : KLow) (s : State) : SlotOp :=
  s.vcmp .lt te d a b k

/-- VCLE (R174). -/
def slotVcle (te : Bool) (d : KLow) (a b : VReg) (k : KLow) (s : State) : SlotOp :=
  s.vcmp .le te d a b k

/-- VADDS (R175). -/
def slotVadds (te : Bool) (d a : VReg) (b : SReg) (k : KLow) (s : State) : SlotOp :=
  s.varithS .add te d a b k

/-- VMULS (R175). -/
def slotVmuls (te : Bool) (d a : VReg) (b : SReg) (k : KLow) (s : State) : SlotOp :=
  s.varithS .mul te d a b k

/-- VFMAS (R175). -/
def slotVfmas (te : Bool) (d a : VReg) (b : SReg) (k : KLow) (s : State) : SlotOp :=
  s.varithS .fma te d a b k

/-- VMAXS (R175). -/
def slotVmaxs (te : Bool) (d a : VReg) (b : SReg) (k : KLow) (s : State) : SlotOp :=
  s.varithS .max te d a b k

/-- VMINS (R175). -/
def slotVmins (te : Bool) (d a : VReg) (b : SReg) (k : KLow) (s : State) : SlotOp :=
  s.varithS .min te d a b k

/-! Splats, slides, moves (R175 to R177). -/

/-- VSPLAT (R175). -/
def slotVsplat (te : Bool) (d : VReg) (b : SReg) (k : KLow) (s : State) : SlotOp :=
  s.vmerge te d k 12 [.s b] true (raw (List.replicate s.fmt.ety.count (s.eS b)))

/-- VSLD (R176). -/
def slotVsld (te : Bool) (d a : VReg) (b : SReg) (k : KLow) (s : State) : SlotOp :=
  s.vmerge te d k 12 [s.oA a, .s b] true (raw (slideDown (s.eA a) (Nat.min (s.rS b).toNat s.fmt.ety.count)))

/-- VSLU (R176). -/
def slotVslu (te : Bool) (d a : VReg) (b : SReg) (k : KLow) (s : State) : SlotOp :=
  s.vmerge te d k 12 [s.oA a, .s b] true (raw (slideUp (s.eA a) (Nat.min (s.rS b).toNat s.fmt.ety.count)))

/-- VMOV (R177): vd through BA, vb through BB. -/
def slotVmov (te : Bool) (d b : VReg) (k : KLow) (s : State) : SlotOp :=
  s.vmerge te d k 12 [s.oB b] true (raw (s.eB b))

/-! Loads, stores, gathers, scatters (R178 to R184). -/

/-- A range leaves HBM at its top, or names nothing (R468). -/
def Target.beyond (t : Target) (n : Nat) : Bool :=
  match t with
  | .hbm pa _ => decide (Config.hbmSize < pa + n)
  | .nowhere => true
  | _ => false

/-- Do `n` bytes come poisoned or with an error response (R134, R180)? Those of another package bring their poison with them (R414). -/
def State.spoiled (s : State) (t : Target) (n : Nat) : Bool :=
  match t with
  | .remote .. => false
  | t => (s.fetchBytes t n).poison || (s.fetchBytes t n).err || t.beyond n

/-- What an error response will put in the destination of the producer of a number. -/
def Car.noteError (c : Car) (id : Nat) (x : VWord) : Car :=
  { c with flight := c.flight.map (fun f => if f.id == id then { f with onError := some x } else f) }

/-- Start the producer of a vector load: 12 cycles from the own scratchpad or instruction memory, else when the data come (R91,
R414). `bad` stands in vd after an error response; a request to another package reads `parts`. -/
def State.landV (s : State) (d : VReg) (t : Target) (x bad : VWord) (parts : List (Nat × Nat × Nat)) (poison : Bool)
    (ha : Word) : State :=
  let id := s.car.eng.nextId
  let start := fun (due : Option Nat) (eta : Nat) => s.mapCar (fun c => c.startV s.now (s.physA d) x due poison ha eta)
  match t with
  | .remote pa c => ((start none 0).mapCar (fun k => k.noteError id bad)).sendRemote (some id) ha pa c (.vload parts 0) 0#2
  | t =>
    if t.isLocal then start (some (s.now + 12)) 0
    else (start none (s.now + s.latency t + 8)).mapCar (fun k => k.noteError id bad)

/-- The same for a mask that keeps `n` bits. -/
def State.landK (s : State) (d : KReg) (t : Target) (x : Mask) (n : Nat) (poison : Bool) (ha : Word) : State :=
  let id := s.car.eng.nextId
  let start := fun (due : Option Nat) (eta : Nat) =>
    s.mapCar (fun c => { c.startK s.now d x due poison ha eta with eng.nextId := id + 1 })
  match t with
  | .remote pa c => (start none 0).sendRemote (some id) ha pa c (.vload [(0, 0, 512)] n) 0#2
  | t => if t.isLocal then start (some (s.now + 12)) 0 else start none (s.now + s.latency t + 8)

/-- Values of elements of a type from bytes. -/
def elemsOf (t : ETy) (bs : List Byte) : List Nat := (groupsOf t.size (bs.length / t.size) bs).map natLE

/-- Bytes of elements of a type. -/
def bytesOf (t : ETy) (xs : List Nat) : List Byte := xs.flatMap (fun x => bytesLE t.size x)

/-- Runs of neighbouring active elements: byte offset and bytes. -/
def runs (size : Nat) : Nat → List (Bool × Nat) → List (Nat × List Byte)
  | _, [] => []
  | i, (false, _) :: rest => runs size (i + 1) rest
  | i, (true, x) :: rest =>
    match runs size (i + 1) rest with
    | (o, bs) :: more =>
      if o = (i + 1) * size then (i * size, bytesLE size x ++ bs) :: more else (i * size, bytesLE size x) :: (o, bs) :: more
    | [] => [(i * size, bytesLE size x)]

/-- The bytes that active elements have: first byte and length of each run. -/
def State.spans (s : State) (k : KLow) : List (Nat × Nat) :=
  (runs s.fmt.ety.size 0 ((s.act k).map (fun b => (b, 0)))).map (fun r => (r.1, r.2.length))

/-- The active bytes of a vector access pass the watchpoints (R338). -/
def State.watchSpans (s : State) (t : Target) (spans : List (Nat × Nat)) (rd wr : Bool) : State :=
  spans.foldl (fun s p => s.watchAt (t.plus p.1) p.2 rd wr) s

/-- VLD (R179, R180): the bytes of inactive elements are not read. -/
def slotVld (te : Bool) (d : VReg) (a : SReg) (off : BitVec 34) (k : KLow) (s : State) : SlotOp :=
  let ha := s.vecAddr a off
  let p := s.planMem { te := te, illegal := s.fmt.vtBad, unit := .vec, srcs := [.s a, .k k.toK], dsts := [s.oA d] }
    a ha { rd := true, len := 4096, align := 64 } 4096
  SlotOp.mk p (fun s =>
    let t := s.target ha
    let ty := s.fmt.ety
    let spans := s.spans k
    let l := s.fetchBytes t 4096
    let m := merge (s.act k) (raw (elemsOf ty l.bytes)) (s.eA d)
    let zero := merge (s.act k) (raw (List.replicate ty.count 0)) (s.eA d)
    let bad := spans.any (fun p => s.spoiled (t.plus p.1) p.2)
    let keep := k != 0 && s.src.isPoisoned (s.oA d)
    let s := spans.foldl (fun s p => s.afterFetch (t.plus p.1) p.2) (s.watchSpans t spans true false)
    (s.landV d t (ofElems ty m.1) (ofElems ty zero.1) (spans.map (fun p => (p.1, p.1, p.2))) (bad || keep) ha).takeVec 8)

/-- Units of one part of a posted vector store (R181). -/
def partUnits (wal units : Nat) : Nat := if units ≤ wal then units else wal

/-- Post bytes to a peer, in parts of up to WALn units of 64 bytes (R181); `left` units remain. -/
def State.postParts (s : State) (w : Nat) (core : BitVec 9) (bytes : List (Nat × Byte)) (base part left : Nat) : Nat → State
  | 0 => s
  | n + 1 =>
    let k := Nat.min part left
    let mine := bytes.filter (fun b => decide (base ≤ b.1 ∧ b.1 < base + 64 * k))
    (s.postWrite w k core base mine).postParts w core bytes (base + 64 * k) part (left - k) n

/-- A vector store of runs of bytes at an address whose range takes some units of 64 bytes. -/
def State.putRuns (s : State) (ha : Word) (rs : List (Nat × List Byte)) (units : Nat) : State :=
  match s.target ha with
  | .peer w core o =>
    let part := partUnits (s.src.ctl.wal[haWindow ha]).toNat units
    let bytes := rs.flatMap (fun r => (List.range r.2.length).zip r.2 |>.map (fun p => (o + r.1 + p.1, p.2)))
    s.postParts w core bytes o part units ((units + part - 1) / part)
  | t =>
    let s := if t.beyond 4096 && rs.any (fun r => (t.plus r.1).beyond r.2.length) then s.storeError ha else s
    match t with
    | .nowhere => s
    | _ => rs.foldl (fun s r => s.put ha (t.plus r.1) r.2 0) s

/-- A posted vector store waits for its units, or for every unit when it goes in parts (R309, R181). -/
def State.vecWindowFull (s : State) (ha : Word) (units : Nat) : Bool :=
  let wal := (s.src.ctl.wal[haWindow ha]).toNat
  if units ≤ wal then s.windowFull ha units
  else haIndex ha == 0 && haWindow ha != 0 && decide (0 < wal ∧ 0 < s.src.unitsOut (haWindow ha).val false)

/-- VST (R179, R181). -/
def slotVst (te : Bool) (d : VReg) (a : SReg) (off : BitVec 34) (k : KLow) (s : State) : SlotOp :=
  let ha := s.vecAddr a off
  let p := s.planMem { te := te, illegal := s.fmt.vtBad, unit := .vec, srcs := [s.oA d, .s a, .k k.toK] }
    a ha { wr := true, len := 4096, align := 64 } 4096
  SlotOp.mk { p with wait := p.wait || s.postWait a (s.vecWindowFull ha 64) } (fun s =>
    ((s.watchSpans (s.target ha) (s.spans k) false true).putRuns ha (runs s.fmt.ety.size 0 ((s.act k).zip (s.eA d))) 64).takeVec 8)

/-- VLDK (R182): bits at and above n are cleared. -/
def slotVldk (te : Bool) (d : KReg) (a : SReg) (off : BitVec 34) (s : State) : SlotOp :=
  let ha := s.vecAddr a off
  let p := s.planMem { te := te, illegal := s.fmt.vtBad, unit := .vec, srcs := [.s a], dsts := [.k d] }
    a ha { rd := true, len := 512, align := 64 } 512
  SlotOp.mk p (fun s =>
    let t := s.target ha
    let x := maskOf (active s.fmt.ety.count (BitVec.ofNat 4096 (natLE (s.fetchBytes t 512).bytes)))
    (((s.watch ha 512 true false).afterFetch t 512).landK d t x s.fmt.ety.count (s.spoiled t 512) ha).takeVec 1)

/-- VSTK (R182): bits at and above n are stored as zero. -/
def slotVstk (te : Bool) (d : KReg) (a : SReg) (off : BitVec 34) (s : State) : SlotOp :=
  let ha := s.vecAddr a off
  let p := s.planMem { te := te, illegal := s.fmt.vtBad, unit := .vec, srcs := [.k d, .s a] }
    a ha { wr := true, len := 512, align := 64 } 512
  SlotOp.mk { p with wait := p.wait || s.postWait a (s.vecWindowFull ha 8) } (fun s =>
    ((s.watch ha 512 false true).putRuns ha [(0, bytesLE 512 (maskOf (active s.fmt.ety.count (s.rK d))).toNat)] 8).takeVec 1)

/-- The address of each active element of a gather or scatter, with its index (R183). -/
def State.elemAddrs (s : State) (a : SReg) (b : VReg) (k : KLow) : List (Nat × Word) :=
  ((s.act k).zip (s.eB b)).zipIdx.filterMap (fun p =>
    if p.1.1 then some (p.2, s.rS a + BitVec.ofNat 64 (p.1.2 * s.fmt.ety.size)) else none)

/-- The first failing check of a gather or scatter (R183): the alignment of sa, then the active elements in order. -/
def State.elemsCause (s : State) (a : SReg) (as : List (Nat × Word)) (w : Want) : Option Trap :=
  if haOffset (s.rS a) % 64 ≠ 0 then some { cause := .align, taddr := s.rS a }
  else as.findSome? (fun p => s.addrCause (s.rS a) p.2 w)

/-- The wait of a gather or scatter: an acquire, its busy handle, or the store queue once its operands are there (R152, R291,
R296). -/
def State.elemsWait (s : State) (a : SReg) (srcs : List Opnd) (as : List (Nat × Word)) (load : Bool) : Bool :=
  s.memWait a (s.rS a) || (s.full srcs && as.any (fun p => s.behind (s.target p.2) s.fmt.ety.size load))

/-- VGTH (R184). -/
def slotVgth (te : Bool) (d : VReg) (a : SReg) (b : VReg) (k : KLow) (s : State) : SlotOp :=
  let ty := s.fmt.ety
  let as := s.elemAddrs a b k
  let srcs := [Opnd.s a, s.oB b, .k k.toK]
  SlotOp.mk { te := te, illegal := s.fmt.vtBad, unit := .vec, srcs := srcs, dsts := [s.oA d]
              wait := s.elemsWait a srcs as true
              cause := s.elemsCause a as { rd := true }
              dooms := as.any (fun p => s.specBars p.2 ty.size false false) } (fun s =>
    let old := (s.eA d).toArray
    let put := fun (f : Nat × Word → Nat) => ofElems ty (as.foldl (fun (xs : Array Nat) p => xs.setIfInBounds p.1 (f p)) old).toList
    let bad := as.any (fun p => s.spoiled (s.target p.2) ty.size)
    let keep := k != 0 && s.src.isPoisoned (s.oA d)
    let far := ((as.map (fun p => s.target p.2)).find? (fun t => !t.isLocal)).getD (s.target (s.rS a))
    let far := match far with
      | .remote .. => s.target (s.rS a)
      | t => t
    let s' := as.foldl (fun s p => (s.watch p.2 ty.size true false).afterFetch (s.target p.2) ty.size) s
    (s'.landV d far (put (fun p => (s.fetchBytes (s.target p.2) ty.size).nat)) (put (fun _ => 0))
      (as.map (fun p => (p.1 * ty.size, haOffset p.2 - haOffset (s.rS a), ty.size))) (bad || keep) (s.rS a)).takeVec 8)

/-- VSCT (R184): of two elements at one address the higher lands. -/
def slotVsct (te : Bool) (d : VReg) (a : SReg) (b : VReg) (k : KLow) (s : State) : SlotOp :=
  let ty := s.fmt.ety
  let as := s.elemAddrs a b k
  let srcs := [s.oA d, Opnd.s a, s.oB b, .k k.toK]
  SlotOp.mk { te := te, illegal := s.fmt.vtBad, unit := .vec, srcs := srcs
              wait := s.elemsWait a srcs as false
              cause := s.elemsCause a as { wr := true, alone := true }
              dooms := as.any (fun p => s.specBars p.2 ty.size true false) } (fun s =>
    let xs := (s.eA d).toArray
    (as.foldl (fun s p =>
      (s.watch p.2 ty.size false true).put p.2 (s.target p.2) (bytesLE ty.size (xs.getD p.1 0)) 0) s).takeVec 8)

/-! Reductions and rescaling (R185 to R188). -/

/-- VRSUM to VRMEAN. -/
def State.vreduce (s : State) (o : VRed) (te : Bool) (d a : VReg) (k : KLow) : SlotOp :=
  let r := reduce o s.fmt.ety s.fmt (s.act k) (s.eA a)
  s.vwhole te d k 16 [s.oA a] true (ofElems s.fmt.ety r.1) r.2

/-- VRSUM (R186). -/
def slotVrsum (te : Bool) (d a : VReg) (k : KLow) (s : State) : SlotOp :=
  s.vreduce .sum te d a k

/-- VRMAX (R186). -/
def slotVrmax (te : Bool) (d a : VReg) (k : KLow) (s : State) : SlotOp :=
  s.vreduce .max te d a k

/-- VRMIN (R186). -/
def slotVrmin (te : Bool) (d a : VReg) (k : KLow) (s : State) : SlotOp :=
  s.vreduce .min te d a k

/-- VRCNT (R186). -/
def slotVrcnt (te : Bool) (d a : VReg) (k : KLow) (s : State) : SlotOp :=
  s.vreduce .cnt te d a k

/-- VRMEAN (R187). -/
def slotVrmean (te : Bool) (d a : VReg) (k : KLow) (s : State) : SlotOp :=
  s.vreduce .mean te d a k

/-- VRSC (R188): a mask other than k0 is a second destination, in which the blocks without contributors are cleared. -/
def slotVrsc (te : Bool) (d a b : VReg) (k : KLow) (s : State) : SlotOp :=
  let n := s.fmt.ety.count
  let counts := (cut 16 2048 (s.rVB b).toNat).toArray
  let cnt := fun i => counts.getD (i / blockSize s.fmt) 0
  s.vslot te k [s.oA a, s.oB b] ([s.oA d] ++ (if k = 0 then [] else [.k k.toK])) true 8 (fun s =>
    let rs := (s.eA a).zipIdx.map (fun p => rescale s.fmt.ety s.fmt s.src.ctl.rcnt.toNat (cnt p.2) p.1)
    let m := merge (s.act k) rs (s.eA d)
    let dead := maskOf ((List.range n).map (fun i => cnt i == 0))
    let s := (s.writeV d (k == 0) 16 (ofElems s.fmt.ety m.1)).setFlags m.2
    if k = 0 then s else s.produceK k.toK 16 (maskOf (active n (s.rK k.toK &&& ~~~dead))))

/-! Rearranging elements (R189 to R192). -/

/-- VPERM (R189). -/
def slotVperm (te : Bool) (d a b : VReg) (k : KLow) (s : State) : SlotOp :=
  s.vmerge te d k 12 [s.oA a, s.oB b] true (raw (permute (s.eA a) (s.eB b)))

/-- VZIP (R190). -/
def slotVzip (te : Bool) (d a b : VReg) (k : KLow) (s : State) : SlotOp :=
  s.vmerge te d k 12 [s.oA a, s.oB b] true (raw ((interleave (s.eA a) (s.eB b)).take s.fmt.ety.count))

/-- VUZP (R190). -/
def slotVuzp (te : Bool) (d a b : VReg) (k : KLow) (s : State) : SlotOp :=
  s.vmerge te d k 12 [s.oA a, s.oB b] true (raw (evens (s.eA a) ++ evens (s.eB b)))

/-- VMRG (R191): every element is written. -/
def slotVmrg (te : Bool) (d a b : VReg) (ks : KLow) (s : State) : SlotOp :=
  s.vslot te ks [s.oA a, s.oB b] [s.oA d] true 8 (fun s =>
    s.writeV d true 12 (ofElems s.fmt.ety (pick2 (s.act ks) (s.eA a) (s.eB b))))

/-- VCMPR (R191). -/
def slotVcmpr (te : Bool) (d a : VReg) (k : KLow) (s : State) : SlotOp :=
  s.vwhole te d k 12 [s.oA a] true (ofElems s.fmt.ety (compress (s.act k) (s.eA a))) 0#8

/-- VIOTA (R191): every element is written, and the active ones set flags (R168). -/
def slotViota (te : Bool) (d : VReg) (k : KLow) (s : State) : SlotOp :=
  let rs := (prefixCounts 0 (s.act k)).map (putCount s.fmt.ety s.fmt)
  s.vwhole te d k 12 [] true (ofElems s.fmt.ety (rs.map (·.1)))
    (((s.act k).zip rs).foldl (fun f p => if p.1 then f ||| p.2.2 else f) 0#8)

/-- VEXT (R192): an S-slot producer of fixed latency (R323). -/
def slotVext (te : Bool) (d : SReg) (a : VReg) (idx : BitVec 34) (s : State) : SlotOp :=
  let t := s.fmt.ety
  s.vslot te 0 [s.oA a] [.s d] (decide (idx.toNat < t.count)) 1 (fun s =>
    let x := (s.rVA a).toNat / 2 ^ (t.bits * idx.toNat) % 2 ^ t.bits
    s.produceS d 4 (if t.isReal then BitVec.ofNat 64 x else BitVec.ofInt 64 (signed t.bits x)))

/-- VINS (R192): the other elements of vd stay. -/
def slotVins (te : Bool) (d : VReg) (a : SReg) (idx : BitVec 34) (s : State) : SlotOp :=
  let t := s.fmt.ety
  s.vslot te 0 [.s a] [s.oA d] (decide (idx.toNat < t.count)) 1 (fun s =>
    s.writeV d false 12 (ofElems t ((s.eA d).set idx.toNat (s.eS a))))

/-! Block exponents (R193 to R195). -/

/-- VBEXP, VBQ and VBDQ take no code type. -/
def Fmt.blockOk (f : Fmt) : Bool := !f.ety.isCode

/-- VBEXP (R193). -/
def slotVbexp (te : Bool) (d a : VReg) (k : KLow) (s : State) : SlotOp :=
  s.vwhole te d k 16 [s.oA a] s.fmt.blockOk (BitVec.ofNat 32768 (join 8 (blockExps s.fmt.ety s.fmt (s.act k) (s.eA a)))) 0#8

/-- VBQ (R194). -/
def slotVbq (te : Bool) (d a b : VReg) (k : KLow) (s : State) : SlotOp :=
  let es := (vbytes (s.rVB b)).toArray
  let rs := ((s.act k).zip (s.eA a)).zipIdx.map (fun p =>
    if p.1.1 then quantElem s.fmt.ety s.fmt (expOf s.fmt es p.2) p.1.2 else (0, 0#8))
  s.vwhole te d k 12 [s.oA a, s.oB b] s.fmt.blockOk (BitVec.ofNat 32768 (join 8 (rs.map (·.1)))) (rs.foldl (fun f r => f ||| r.2) 0#8)

/-- VBDQ (R195). -/
def slotVbdq (te : Bool) (d a b : VReg) (k : KLow) (s : State) : SlotOp :=
  let es := (vbytes (s.rVB b)).toArray
  s.vmerge te d k 12 [s.oA a, s.oB b] s.fmt.blockOk
    (((vbytes (s.rVA a)).take s.fmt.ety.count).zipIdx.map (fun p => dequantElem s.fmt.ety s.fmt (expOf s.fmt es p.2) p.1))

/-! Mask logic (R196). -/

/-- A mask of masks, bits at and above n cleared (R20). -/
def State.vlogic (s : State) (te : Bool) (d : KReg) (srcs : List KReg) (x : Mask) : SlotOp :=
  s.vmask te d 0 true (srcs.map Opnd.k) 1 (active s.fmt.ety.count x) 0#8

/-- VKAND (R196). -/
def slotVkand (te : Bool) (d a b : KReg) (s : State) : SlotOp := s.vlogic te d [a, b] (s.rK a &&& s.rK b)

/-- VKOR (R196). -/
def slotVkor (te : Bool) (d a b : KReg) (s : State) : SlotOp := s.vlogic te d [a, b] (s.rK a ||| s.rK b)

/-- VKNOT (R196). -/
def slotVknot (te : Bool) (d a : KReg) (s : State) : SlotOp := s.vlogic te d [a] (~~~(s.rK a))

/-! The VX operations (R197 to R206). -/

/-- A VX operation on each element of va. -/
def State.vx (s : State) (te : Bool) (d a : VReg) (k : KLow) (f : ETy → Fmt → Nat → Nat × Fl) : SlotOp :=
  s.vmerge te d k 12 [s.oA a] true ((s.eA a).map (fun x => f s.fmt.ety s.fmt x))

/-- A function of sub-ops 2 to 9: float and M8 only, latency 16 (R197). -/
def State.vfun (s : State) (f : VxFn) (te : Bool) (d a : VReg) (k : KLow) : SlotOp :=
  s.vmerge te d k 16 [s.oA a] s.fmt.ety.isReal ((s.eA a).map (fun x => f.elem s.fmt.ety s.fmt x))

/-- VABS (R198). -/
def slotVabs (te : Bool) (d a : VReg) (k : KLow) (s : State) : SlotOp :=
  s.vx te d a k (signElem true)

/-- VNEG (R198). -/
def slotVneg (te : Bool) (d a : VReg) (k : KLow) (s : State) : SlotOp :=
  s.vx te d a k (signElem false)

/-- VRCP (R199, R200). -/
def slotVrcp (te : Bool) (d a : VReg) (k : KLow) (s : State) : SlotOp :=
  s.vfun .rcp te d a k

/-- VRSQ (R199, R200). -/
def slotVrsq (te : Bool) (d a : VReg) (k : KLow) (s : State) : SlotOp :=
  s.vfun .rsq te d a k

/-- VSQRT (R199, R200). -/
def slotVsqrt (te : Bool) (d a : VReg) (k : KLow) (s : State) : SlotOp :=
  s.vfun .sqrt te d a k

/-- VEXP2 (R199, R200). -/
def slotVexp2 (te : Bool) (d a : VReg) (k : KLow) (s : State) : SlotOp :=
  s.vfun .exp2 te d a k

/-- VLOG2 (R199, R200). -/
def slotVlog2 (te : Bool) (d a : VReg) (k : KLow) (s : State) : SlotOp :=
  s.vfun .log2 te d a k

/-- VTANH (R199, R200). -/
def slotVtanh (te : Bool) (d a : VReg) (k : KLow) (s : State) : SlotOp :=
  s.vfun .tanh te d a k

/-- VSIG (R199, R200). -/
def slotVsig (te : Bool) (d a : VReg) (k : KLow) (s : State) : SlotOp :=
  s.vfun .sig te d a k

/-- VGELU (R199, R200). -/
def slotVgelu (te : Bool) (d a : VReg) (k : KLow) (s : State) : SlotOp :=
  s.vfun .gelu te d a k

/-- VFLR (R201). -/
def slotVflr (te : Bool) (d a : VReg) (k : KLow) (s : State) : SlotOp :=
  s.vx te d a k (integralElem 3#2)

/-- VRND (R201). -/
def slotVrnd (te : Bool) (d a : VReg) (k : KLow) (s : State) : SlotOp :=
  s.vx te d a k (integralElem s.fmt.rm)

/-- A conversion from one type to another (R202): elements past the source's are written as zero. -/
def State.vconvert (s : State) (te : Bool) (d a : VReg) (k : KLow) (t u : ETy) (ok : Bool) : SlotOp :=
  s.vslot te k [s.oA a] [s.oA d] ok 8 (fun s =>
    let m := convertAll s.fmt t u (active (Nat.min t.count u.count) (s.rK k.toK)) (elems t (s.rVA a)) (elems u (s.rVA d))
    (s.writeV d (k == 0) 12 (ofElems u m.1)).setFlags m.2)

/-- VCVT (R202). -/
def slotVcvt (te : Bool) (d a : VReg) (k : KLow) (s : State) : SlotOp :=
  s.vconvert te d a k s.fmt.ety s.fmt.ety2 (ETy.ofCode s.fmt.vt2).isSome

/-- VM8E (R203). -/
def slotVm8e (te : Bool) (d a : VReg) (k : KLow) (s : State) : SlotOp :=
  s.vconvert te d a k s.fmt.ety .m8 true

/-- VM8D (R203). -/
def slotVm8d (te : Bool) (d a : VReg) (k : KLow) (s : State) : SlotOp :=
  s.vconvert te d a k .m8 s.fmt.ety true

/-- VCLZ (R204). -/
def slotVclz (te : Bool) (d a : VReg) (k : KLow) (s : State) : SlotOp :=
  s.vx te d a k (fun t _ x => (clzNat t.bits x, 0#8))

/-- VPOPC (R204). -/
def slotVpopc (te : Bool) (d a : VReg) (k : KLow) (s : State) : SlotOp :=
  s.vx te d a k (fun t _ x => (popNat t.bits x, 0#8))

/-- VK2V (R205). -/
def slotVk2v (te : Bool) (d : VReg) (a : KReg) (k : KLow) (s : State) : SlotOp :=
  s.vmerge te d k 12 [.k a] true
    (raw ((active s.fmt.ety.count (s.rK a)).map (fun b => if b then 2 ^ s.fmt.ety.bits - 1 else 0)))

/-- VV2K (R205). -/
def slotVv2k (te : Bool) (d : KReg) (a : VReg) (k : KLow) (s : State) : SlotOp :=
  s.vmask te d k (k == 0) [s.oA a] 8 (((s.act k).zip (s.eA a)).map (fun p => p.1 && p.2 != 0)) 0#8

/-- VCLR (R206). -/
def slotVclr (te : Bool) (d : VReg) (k : KLow) (s : State) : SlotOp :=
  s.vmerge te d k 12 [] true (raw (List.replicate s.fmt.ety.count 0))

/-! The meanings: a slot issues, or its bundle waits or traps (R88). -/

/-- VADD. -/
def execVadd (te : Bool) (d a b : VReg) (k : KLow) (s : State) : Result := (slotVadd te d a b k s).run s

/-- VSUB. -/
def execVsub (te : Bool) (d a b : VReg) (k : KLow) (s : State) : Result := (slotVsub te d a b k s).run s

/-- VMUL. -/
def execVmul (te : Bool) (d a b : VReg) (k : KLow) (s : State) : Result := (slotVmul te d a b k s).run s

/-- VFMA. -/
def execVfma (te : Bool) (d a b : VReg) (k : KLow) (s : State) : Result := (slotVfma te d a b k s).run s

/-- VFMS. -/
def execVfms (te : Bool) (d a b : VReg) (k : KLow) (s : State) : Result := (slotVfms te d a b k s).run s

/-- VMAX. -/
def execVmax (te : Bool) (d a b : VReg) (k : KLow) (s : State) : Result := (slotVmax te d a b k s).run s

/-- VMIN. -/
def execVmin (te : Bool) (d a b : VReg) (k : KLow) (s : State) : Result := (slotVmin te d a b k s).run s

/-- VAND. -/
def execVand (te : Bool) (d a b : VReg) (k : KLow) (s : State) : Result := (slotVand te d a b k s).run s

/-- VOR. -/
def execVor (te : Bool) (d a b : VReg) (k : KLow) (s : State) : Result := (slotVor te d a b k s).run s

/-- VXOR. -/
def execVxor (te : Bool) (d a b : VReg) (k : KLow) (s : State) : Result := (slotVxor te d a b k s).run s

/-- VSHL. -/
def execVshl (te : Bool) (d a b : VReg) (k : KLow) (s : State) : Result := (slotVshl te d a b k s).run s

/-- VSHR. -/
def execVshr (te : Bool) (d a b : VReg) (k : KLow) (s : State) : Result := (slotVshr te d a b k s).run s

/-- VSAR. -/
def execVsar (te : Bool) (d a b : VReg) (k : KLow) (s : State) : Result := (slotVsar te d a b k s).run s

/-- VCEQ. -/
def execVceq (te : Bool) (d : KLow) (a b : VReg) (k : KLow) (s : State) : Result := (slotVceq te d a b k s).run s

/-- VCLT. -/
def execVclt (te : Bool) (d : KLow) (a b : VReg) (k : KLow) (s : State) : Result := (slotVclt te d a b k s).run s

/-- VCLE. -/
def execVcle (te : Bool) (d : KLow) (a b : VReg) (k : KLow) (s : State) : Result := (slotVcle te d a b k s).run s

/-- VADDS. -/
def execVadds (te : Bool) (d a : VReg) (b : SReg) (k : KLow) (s : State) : Result := (slotVadds te d a b k s).run s

/-- VMULS. -/
def execVmuls (te : Bool) (d a : VReg) (b : SReg) (k : KLow) (s : State) : Result := (slotVmuls te d a b k s).run s

/-- VFMAS. -/
def execVfmas (te : Bool) (d a : VReg) (b : SReg) (k : KLow) (s : State) : Result := (slotVfmas te d a b k s).run s

/-- VMAXS. -/
def execVmaxs (te : Bool) (d a : VReg) (b : SReg) (k : KLow) (s : State) : Result := (slotVmaxs te d a b k s).run s

/-- VMINS. -/
def execVmins (te : Bool) (d a : VReg) (b : SReg) (k : KLow) (s : State) : Result := (slotVmins te d a b k s).run s

/-- VSPLAT. -/
def execVsplat (te : Bool) (d : VReg) (b : SReg) (k : KLow) (s : State) : Result := (slotVsplat te d b k s).run s

/-- VSLD. -/
def execVsld (te : Bool) (d a : VReg) (b : SReg) (k : KLow) (s : State) : Result := (slotVsld te d a b k s).run s

/-- VSLU. -/
def execVslu (te : Bool) (d a : VReg) (b : SReg) (k : KLow) (s : State) : Result := (slotVslu te d a b k s).run s

/-- VMOV. -/
def execVmov (te : Bool) (d b : VReg) (k : KLow) (s : State) : Result := (slotVmov te d b k s).run s

/-- VLD. -/
def execVld (te : Bool) (d : VReg) (a : SReg) (off : BitVec 34) (k : KLow) (s : State) : Result := (slotVld te d a off k s).run s

/-- VST. -/
def execVst (te : Bool) (d : VReg) (a : SReg) (off : BitVec 34) (k : KLow) (s : State) : Result := (slotVst te d a off k s).run s

/-- VLDK. -/
def execVldk (te : Bool) (d : KReg) (a : SReg) (off : BitVec 34) (s : State) : Result := (slotVldk te d a off s).run s

/-- VSTK. -/
def execVstk (te : Bool) (d : KReg) (a : SReg) (off : BitVec 34) (s : State) : Result := (slotVstk te d a off s).run s

/-- VGTH. -/
def execVgth (te : Bool) (d : VReg) (a : SReg) (b : VReg) (k : KLow) (s : State) : Result := (slotVgth te d a b k s).run s

/-- VSCT. -/
def execVsct (te : Bool) (d : VReg) (a : SReg) (b : VReg) (k : KLow) (s : State) : Result := (slotVsct te d a b k s).run s

/-- VRSUM. -/
def execVrsum (te : Bool) (d a : VReg) (k : KLow) (s : State) : Result := (slotVrsum te d a k s).run s

/-- VRMAX. -/
def execVrmax (te : Bool) (d a : VReg) (k : KLow) (s : State) : Result := (slotVrmax te d a k s).run s

/-- VRMIN. -/
def execVrmin (te : Bool) (d a : VReg) (k : KLow) (s : State) : Result := (slotVrmin te d a k s).run s

/-- VRCNT. -/
def execVrcnt (te : Bool) (d a : VReg) (k : KLow) (s : State) : Result := (slotVrcnt te d a k s).run s

/-- VRMEAN. -/
def execVrmean (te : Bool) (d a : VReg) (k : KLow) (s : State) : Result := (slotVrmean te d a k s).run s

/-- VRSC. -/
def execVrsc (te : Bool) (d a b : VReg) (k : KLow) (s : State) : Result := (slotVrsc te d a b k s).run s

/-- VPERM. -/
def execVperm (te : Bool) (d a b : VReg) (k : KLow) (s : State) : Result := (slotVperm te d a b k s).run s

/-- VZIP. -/
def execVzip (te : Bool) (d a b : VReg) (k : KLow) (s : State) : Result := (slotVzip te d a b k s).run s

/-- VUZP. -/
def execVuzp (te : Bool) (d a b : VReg) (k : KLow) (s : State) : Result := (slotVuzp te d a b k s).run s

/-- VMRG. -/
def execVmrg (te : Bool) (d a b : VReg) (ks : KLow) (s : State) : Result := (slotVmrg te d a b ks s).run s

/-- VCMPR. -/
def execVcmpr (te : Bool) (d a : VReg) (k : KLow) (s : State) : Result := (slotVcmpr te d a k s).run s

/-- VIOTA. -/
def execViota (te : Bool) (d : VReg) (k : KLow) (s : State) : Result := (slotViota te d k s).run s

/-- VEXT. -/
def execVext (te : Bool) (d : SReg) (a : VReg) (idx : BitVec 34) (s : State) : Result := (slotVext te d a idx s).run s

/-- VINS. -/
def execVins (te : Bool) (d : VReg) (a : SReg) (idx : BitVec 34) (s : State) : Result := (slotVins te d a idx s).run s

/-- VBEXP. -/
def execVbexp (te : Bool) (d a : VReg) (k : KLow) (s : State) : Result := (slotVbexp te d a k s).run s

/-- VBQ. -/
def execVbq (te : Bool) (d a b : VReg) (k : KLow) (s : State) : Result := (slotVbq te d a b k s).run s

/-- VBDQ. -/
def execVbdq (te : Bool) (d a b : VReg) (k : KLow) (s : State) : Result := (slotVbdq te d a b k s).run s

/-- VKAND. -/
def execVkand (te : Bool) (d a b : KReg) (s : State) : Result := (slotVkand te d a b s).run s

/-- VKOR. -/
def execVkor (te : Bool) (d a b : KReg) (s : State) : Result := (slotVkor te d a b s).run s

/-- VKNOT. -/
def execVknot (te : Bool) (d a : KReg) (s : State) : Result := (slotVknot te d a s).run s

/-- VABS. -/
def execVabs (te : Bool) (d a : VReg) (k : KLow) (s : State) : Result := (slotVabs te d a k s).run s

/-- VNEG. -/
def execVneg (te : Bool) (d a : VReg) (k : KLow) (s : State) : Result := (slotVneg te d a k s).run s

/-- VRCP. -/
def execVrcp (te : Bool) (d a : VReg) (k : KLow) (s : State) : Result := (slotVrcp te d a k s).run s

/-- VRSQ. -/
def execVrsq (te : Bool) (d a : VReg) (k : KLow) (s : State) : Result := (slotVrsq te d a k s).run s

/-- VSQRT. -/
def execVsqrt (te : Bool) (d a : VReg) (k : KLow) (s : State) : Result := (slotVsqrt te d a k s).run s

/-- VEXP2. -/
def execVexp2 (te : Bool) (d a : VReg) (k : KLow) (s : State) : Result := (slotVexp2 te d a k s).run s

/-- VLOG2. -/
def execVlog2 (te : Bool) (d a : VReg) (k : KLow) (s : State) : Result := (slotVlog2 te d a k s).run s

/-- VTANH. -/
def execVtanh (te : Bool) (d a : VReg) (k : KLow) (s : State) : Result := (slotVtanh te d a k s).run s

/-- VSIG. -/
def execVsig (te : Bool) (d a : VReg) (k : KLow) (s : State) : Result := (slotVsig te d a k s).run s

/-- VGELU. -/
def execVgelu (te : Bool) (d a : VReg) (k : KLow) (s : State) : Result := (slotVgelu te d a k s).run s

/-- VFLR. -/
def execVflr (te : Bool) (d a : VReg) (k : KLow) (s : State) : Result := (slotVflr te d a k s).run s

/-- VRND. -/
def execVrnd (te : Bool) (d a : VReg) (k : KLow) (s : State) : Result := (slotVrnd te d a k s).run s

/-- VCVT. -/
def execVcvt (te : Bool) (d a : VReg) (k : KLow) (s : State) : Result := (slotVcvt te d a k s).run s

/-- VM8E. -/
def execVm8e (te : Bool) (d a : VReg) (k : KLow) (s : State) : Result := (slotVm8e te d a k s).run s

/-- VM8D. -/
def execVm8d (te : Bool) (d a : VReg) (k : KLow) (s : State) : Result := (slotVm8d te d a k s).run s

/-- VCLZ. -/
def execVclz (te : Bool) (d a : VReg) (k : KLow) (s : State) : Result := (slotVclz te d a k s).run s

/-- VPOPC. -/
def execVpopc (te : Bool) (d a : VReg) (k : KLow) (s : State) : Result := (slotVpopc te d a k s).run s

/-- VK2V. -/
def execVk2v (te : Bool) (d : VReg) (a : KReg) (k : KLow) (s : State) : Result := (slotVk2v te d a k s).run s

/-- VV2K. -/
def execVv2k (te : Bool) (d : KReg) (a : VReg) (k : KLow) (s : State) : Result := (slotVv2k te d a k s).run s

/-- VCLR. -/
def execVclr (te : Bool) (d : VReg) (k : KLow) (s : State) : Result := (slotVclr te d k s).run s

end Sys2Proof.Machine
end

