-- ==== Sys2Proof/Machine/Optical.lean ====
section
/-!
DEFINITION. The M slots and the optical array (spec 08, 05).
-/
namespace Sys2Proof.Machine

/-! Weights and activations (R102 to R105, R116). -/

/-- A weight as a modulator code under a latch exponent, and whether WSAT is set (R105). -/
def modulate (wf : BitVec 2) (e : Int) (w : Nat) : Int × Bool :=
  match wf.toNat with
  | 0 =>
    match m8Decode w with
    | .num q _ =>
      let x := (q.mul (Q.scale 1 (-e))).rne
      if x < -127 then (-127, true) else if 127 < x then (127, true) else (x, false)
    | _ => (0, true)
  | 1 =>
    let q := signed 4 w
    if q = -8 then (-112, true) else (16 * q, false)
  | _ =>
    let c := signed 8 w
    if c = -128 then (0, true) else (c, false)

/-- The elements of a weight beat, symbol by symbol (R104). -/
def weightBeat (wf : BitVec 2) (v : VWord) (seg : Nat) : List Nat :=
  if wf = 1#2 then cut 4 512 (v.toNat / 2 ^ (2048 * seg)) else cut 8 512 (v.toNat / 2 ^ (4096 * seg))

/-- An activation code (R49): 0x80 is read as 0. -/
def actCode (b : Byte) : Int := if b = 0x80#8 then 0 else b.toInt

/-- What a line brings at an MBT: row exponents, codes by symbol and row, whether LINE is set, and over which line of which coupling
domain, from how many streams (R102, R111, R116). -/
structure Light where
  rows : List Int := List.replicate 32 0
  codes : List Int := List.replicate 256 0
  fault : Bool := false
  src : Option (Nat × Ix16) := none
  count : Nat := 0

/-- The laser of a line is out of tolerance (R444). -/
def Device.laserBad (d : Device) (l : Ix16) : Bool :=
  let m := d.lasers.toList.getD l.val {}
  let ln := d.lines[l]
  let pmin := (m.ctl.extractLsb' 0 16).toInt
  m.ctl.getLsbD 63 || (List.range 32).any (fun k =>
    let comb := if ln.sp0.toNat = k then 32 else if ln.sp1.toNat = k then 33 else k
    decide ((m.power.getD comb 0#16).toInt < pmin))

/-- The light at an array for the MBT of the bundle. -/
def State.light (s : State) : Light :=
  let c := s.src
  match c.arr.line with
  | none => { fault := true }
  | some l =>
    if !c.coupledTo l then { fault := true }
    else if (s.srcDev.lines[l]).running.isSome || (s.srcDev.lines[l]).suspended then {}
    else
      let src := c.place.domain.map (fun m => (m, l))
      match s.srcDev.drives.find? (fun x => c.place.domain == some x.domain && x.line == l && x.ccyc == c.ctl.ccyc.toNat) with
      | none => { src := src }
      | some x =>
        let lt : Light := { src := src, count := x.count }
        if 1 < x.count then { lt with fault := true }
        else
          let rows := x.header.map (fun b => b.toInt)
          if x.late then { lt with rows := rows, fault := true } else { lt with rows := rows, codes := x.bytes.map actCode }

/-! Windows (R106, R107, R115, R467). -/

/-- A beat as a column group meets it: products summed by receiver, row exponents, flags, cycle. -/
structure Beat where
  sums : List Int
  rows : List Int
  line : Bool
  laser : Bool
  wsat : Bool
  remap : Bool
  now : Nat
  opener : Opener

/-- The products of one group's 128 receivers over 8 symbols (R106): row by row. -/
def groupSums (neg : Bool) (codes : Array Int) (ds : Array (Int × Bool)) (g : Nat) : List Int :=
  (List.range 128).map (fun r =>
    let k := r / 4
    let j := 4 * g + r % 4
    let x := (List.range 8).foldl (fun (acc : Int) t => acc + codes.getD (t * 32 + k) 0 * (ds.getD (t * 64 + j) (0, false)).1) 0
    if neg then -x else x)

/-- The hold of an open window has run out (R115). -/
def Window.lost (w : Window) (now : Nat) : Bool := w.void || decide (w.last + Config.holdCycles < now)

/-- A window that a beat opens. -/
def Beat.opens (b : Beat) : Window :=
  { beats := 1, sums := b.sums, rowExp := b.rows, last := b.now, line := b.line, laser := b.laser, wsat := b.wsat
    remap := b.remap, ccycs := [b.opener.ccyc], opener := b.opener }

/-- A window that a beat enters; a void one integrates nothing and is not extended, but counts it and keeps its flags (R118,
R217). -/
def Window.enter (w : Window) (b : Beat) : Window :=
  let w := { w with
    beats := w.beats + 1, line := w.line || b.line, laser := w.laser || b.laser, wsat := w.wsat || b.wsat
    ccycs := if b.opener.src = w.opener.src then b.opener.ccyc :: w.ccycs else w.ccycs }
  if w.lost b.now then { w with void := true }
  else { w with sums := List.zipWith (· + ·) w.sums b.sums, last := b.now }

/-- What a beat makes of a group: the window open after it, an old window it closes, a one-beat window it closes. -/
structure Turn where
  win : Option Window := none
  old : Option Window := none
  one : Option Window := none

/-- R107 for one group. -/
def turn (win : Option Window) (a d : Bool) (b : Beat) : Turn :=
  match win with
  | none => if d then { one := some b.opens } else { win := some b.opens }
  | some w =>
    let w := { w with void := w.lost b.now }
    if a then (if d then { old := some w, one := some b.opens } else { old := some w, win := some b.opens })
    else
      let x := w.enter b
      if d || decide (512 ≤ x.beats) then { old := some x } else { win := some x }

/-- A and D as group `g` sees them; none when it ignores the beat (R113, R215). -/
def Car.groupAct (c : Car) (g : Fin 16) (a d : Bool) : Option (Bool × Bool) :=
  if !c.arr.split || c.ctl.mgsel.getLsbD g.val then some (a, d)
  else if c.arr.groups[g].win.isSome then some (false, false)
  else none

/-- Would an MBT close a window of the group (R107)? -/
def Car.closes (c : Car) (g : Fin 16) (a d : Bool) : Bool :=
  match c.groupAct g a d with
  | none => false
  | some (x, y) =>
    match c.arr.groups[g].win with
    | none => y
    | some w => x || y || decide (511 ≤ w.beats)

/-- An MBT waits for close pacing (R114, R464). -/
def State.paced (s : State) (a d : Bool) : Bool :=
  (List.finRange 16).any (fun g => s.src.closes g a d &&
    (match s.src.arr.groups[g].closed with
     | some t => decide (s.now < t + 2 + s.srcDev.house.pacex)
     | none => false))

/-- Some group of the array has an open window. -/
def Arr.anyOpen (a : Arr) : Bool := a.groups.toList.any (fun g => g.win.isSome)

/-- A calibration runs, or is requested and no window is open: MBTs wait (R225, R440). -/
def Arr.calWaits (a : Arr) : Bool := a.cal.ends.isSome || ((a.cal.requested || a.cal.forced) && !a.anyOpen)

/-! Conversion (R109 to R112). -/

/-- Hold a code to the range of C10. -/
def clamp511 (x : Int) : Int := if x < -511 then -511 else if 511 < x then 511 else x

/-- The delivered code of a receiver, with the free value `r` where R110 admits several. -/
def deliver (skew laser : Bool) (g : Nat) (sum : Int) (r : Int) : Int :=
  let q : Q := ⟨sum, 2 ^ g⟩
  let n := q.rne
  if laser then r % 1023 - 511
  else if skew then clamp511 (clamp511 n + (r % 5 - 2))
  else if (sum - n * 2 ^ g).natAbs * 10 ≤ 3 * 2 ^ g then clamp511 n
  else clamp511 (sum / 2 ^ g + r % 2)

/-- A closed window: its codes, and whether its group saturated (R110, R115). -/
def Window.convert (w : Window) (skew laser : Bool) (g n base : Nat) : List Int :=
  if w.void then List.replicate 128 0
  else w.sums.zipIdx.map (fun p => deliver skew laser g p.1 (Config.converterChoice n (base + p.2)))

/-- A group that closes a window. -/
structure Closed where
  group : Nat
  gain : Nat
  win : Window
  codes : List Int

/-- A bit of a report. -/
def repBit (c : Bool) (n : Nat) : Nat := if c then 2 ^ n else 0

/-- The report of groups that close together (R118). -/
def reportWord (cs : List Closed) (line : Option Ix16) (skew laser remap ovf : Bool) (seq : BitVec 16) : Word :=
  match cs with
  | [] => 0#64
  | c :: _ =>
    let sat := cs.filter (fun x => x.codes.any (fun k => k.natAbs == 511))
    let any := fun (f : Closed → Bool) => cs.any f
    BitVec.ofNat 64 (seq.toNat + (match line with
        | some l => l.val * 2 ^ 16
        | none => 0)
      + (c.win.beats - 1) * 2 ^ 20 + c.gain * 2 ^ 29
      + (sat.map (fun x => 2 ^ (34 + x.group))).foldl (· + ·) 0
      + repBit (!sat.isEmpty) 50 + repBit skew 51 + repBit (laser || any (fun x => x.win.laser)) 52
      + repBit (any (fun x => x.win.line)) 53 + repBit (any (fun x => x.win.void)) 54
      + repBit (any (fun x => x.win.wsat)) 55 + repBit (remap || any (fun x => x.win.remap)) 56 + repBit ovf 57
      + repBit (any (fun x => x.gain != c.gain)) 58)

/-- A report enters the queue, or is lost when it is full (R118, R119). -/
def Arr.report (a : Arr) (cs : List Closed) (skew laser : Bool) (ready : Nat) : Arr :=
  if cs.isEmpty then a
  else
    let seq := a.seq + 1#16
    let a := { a with seq := seq }
    if 16 ≤ a.queue.length then { a with ovf := true, remap := false }
    else { a with
      queue := a.queue ++ [⟨reportWord cs a.line skew laser a.remap a.ovf seq, ready, (cs.flatMap (fun x => x.win.ccycs)).eraseDups,
        (cs.head?.bind (fun x => x.win.opener.src))⟩]
      ovf := false
      remap := false }

/-- The effect of an MBT (R215). Codes of windows that share a report follow its LASER (R110). Of an MBT that closes twice, both
reports find or miss their room in the queue at issue (R467; notes/assumptions/61.md). -/
def State.integrate (s : State) (v : VReg) (seg : Nat) (n a d : Bool) : State :=
  let c := s.src
  let wf := s.fmt.wf
  let lt := s.light
  let ds := ((weightBeat wf (s.rVA v) seg).zipIdx.map (fun p => modulate wf (c.regs.e.toList.getD (p.2 % 64 / 4) 0#8).toInt p.1)).toArray
  let codes := lt.codes.toArray
  let laser := match c.arr.line with
    | some l => s.srcDev.laserBad l
    | none => false
  let skew := c.arr.cal.skew
  let pause := match c.arr.line with
    | some l => (s.srcDev.lines[l]).running.isSome
    | none => false
  let gw := fun (g : Nat) => (List.range 32).any (fun i => (ds.getD (i / 4 * 64 + 4 * g + i % 4) (0, false)).2)
  let turns := (List.finRange 16).map (fun g =>
    match c.groupAct g a d with
    | none => ({ win := c.arr.groups[g].win } : Turn)
    | some (x, y) => turn c.arr.groups[g].win x y
        ⟨groupSums n codes ds g.val, lt.rows, lt.fault, laser, gw g.val, pause, s.now, ⟨lt.src, c.ctl.ccyc.toNat, lt.count⟩⟩)
  let twice := turns.any (fun t => t.old.isSome && t.one.isSome)
  let weak := fun (one : Bool) => laser || turns.any (fun t => ((if one && twice then none else t.old).any Window.laser)
    || ((if !one && twice then none else t.one).any Window.laser))
  let shut := fun (i base : Nat) (weak : Bool) (w : Option Window) => w.map (fun w =>
    let gain := (c.arr.groups.toList.getD i {}).gain
    (⟨i, gain, w, w.convert skew weak gain s.fresh (base + 128 * i)⟩ : Closed))
  let olds := turns.zipIdx.filterMap (fun p => shut p.2 0 (weak false) p.1.old)
  let ones := turns.zipIdx.filterMap (fun p => shut p.2 2048 (weak true) p.1.one)
  let groups := (turns.zip c.arr.groups.toList).zipIdx.map (fun p =>
    let t := p.1.1
    let g := { p.1.2 with win := t.win }
    let last := match ones.find? (fun x => x.group == p.2) with
      | some x => some x
      | none => olds.find? (fun x => x.group == p.2)
    match last with
    | none => g
    | some x => { g with
        codes := x.codes
        cgain := x.gain
        rowExp := x.win.rowExp
        opener := x.win.opener
        groupExp := (c.regs.e.toList.getD p.2 0#8).toInt
        closed := some (if t.old.isSome && t.one.isSome then s.now + 2 else s.now) })
  let arr := { s.car.arr with groups := Vector.ofFn (fun (i : Fin 16) => groups.getD i.val {}), beat := some s.now }
  let arr := if twice then (arr.report olds skew laser (s.now + 16)).report ones skew laser (s.now + 18)
    else arr.report ((List.range 16).filterMap (fun i => (olds ++ ones).find? (fun x => x.group == i))) skew laser (s.now + 16)
  let s := s.mapCar (fun k => { k with arr := arr, units := { k.units with array := Nat.max k.units.array (s.now + 1) } })
  (s.setFlags (flIf (ds.any (fun x => x.2)) WSAT)).tick

/-- LINE of a report word (R118). -/
def lineBit : Word := 1#64 <<< 53

/-- A stream that is issued too late at CCYC `now` missed the beats from CCYC `lo` to `hi` of a line of a coupling domain. -/
structure Missed where
  src : Nat × Ix16
  lo : Nat
  hi : Nat
  now : Nat
  /-- No other stream drives the beat of `now`. -/
  alone : Bool
  header : List Byte

/-- The stream missed the beat of a CCYC over a line. -/
def Missed.hits (m : Missed) (src : Option (Nat × Ix16)) (c : Nat) : Bool := src == some m.src && decide (m.lo ≤ c ∧ c ≤ m.hi)

/-- The row exponents of a window that opened at a beat the stream missed are its header's, where it alone drives that beat (R111). -/
def Missed.rows (m : Missed) (o : Opener) (rows : List Int) : List Int :=
  if m.hits o.src o.ccyc then
    if (if o.ccyc = m.now then m.alone else o.count == 0) then m.header.map (fun b => b.toInt) else List.replicate 32 0
  else rows

/-- The opening beat, with the stream that missed it among its drivers. -/
def Missed.counted (m : Missed) (o : Opener) : Opener :=
  if m.hits o.src o.ccyc && o.ccyc != m.now then { o with count := o.count + 1 } else o

/-- A window takes note of missed beats. -/
def Window.missed (w : Window) (m : Missed) : Window :=
  { w with
    line := w.line || w.ccycs.any (m.hits w.opener.src)
    rowExp := m.rows w.opener w.rowExp
    opener := m.counted w.opener }

/-- A group takes note of missed beats, in its open window and in the one whose codes it keeps. -/
def Group.missed (g : Group) (m : Missed) : Group :=
  { g with
    win := g.win.map (fun w => w.missed m)
    rowExp := m.rows g.opener g.rowExp
    opener := m.counted g.opener }

/-- An array takes note of beats that a stream missed: LINE is set in the report of every window that they entered, as far as MREP has
not read it, and a window that opened at one has the row exponents of the stream's header (R97, R111, R116, R246). -/
def Arr.missed (a : Arr) (m : Missed) : Arr :=
  { a with
    groups := a.groups.map (fun g => g.missed m)
    queue := a.queue.map (fun r => if r.ccycs.any (m.hits r.src) then { r with word := r.word ||| lineBit } else r) }

/-- The arrays take note of beats that a stream missed. -/
def State.missedBeats (s : State) (m : Missed) : State := s.mapCars (fun c => { c with arr := c.arr.missed m })

/-! M slots. -/

/-- A speculation dooms on an array that receives a line its service does not hold (R229). -/
def State.foreignLine (s : State) (l : Option Ix16) : Bool :=
  s.src.place.spec && (match l with
    | some l => !s.srcDev.sig.consists.any (fun x => x.spec && x.q == s.src.ident.serviceId.extractLsb' 32 16
        && x.seq == s.src.ident.serviceId.extractLsb' 0 32 && x.lines.any (fun y => y.2 == l))
    | none => false)

/-- An M slot that reads no register; TE has no effect (R210). In handler mode it acts as MNOP when `user` (R212). -/
def State.mslot (s : State) (user : Bool) (p : Plan) (eff : State → State) : SlotOp :=
  if user && s.src.tr.handler then SlotOp.mk { illegal := p.illegal, unit := .array } id
  else SlotOp.mk { p with unit := .array } (fun s =>
    (eff s).mapCar (fun c => { c with units := { c.units with array := Nat.max c.units.array (s.now + 1) } }))

/-- MNOP (R209): an idle beat; it waits while the array accepts no M operation. -/
def slotMnop (_te : Bool) (_s : State) : SlotOp := SlotOp.mk { unit := .array } id

/-- MBT (R214 to R217). -/
def slotMbt (te : Bool) (v : VReg) (seg : BitVec 4) (n a d : Bool) (s : State) : SlotOp :=
  let bad := s.fmt.wf == 3#2 || (s.fmt.wf != 1#2 && decide (8 ≤ seg.toNat))
  s.mslot true { te := te, illegal := bad, srcs := [s.oA v]
                 wait := s.paced a d || s.src.arr.calWaits, dooms := s.foreignLine s.src.arr.line }
    (fun s => s.integrate v seg.toNat n a d)

/-- MTUNE (R220). -/
def slotMtune (_te : Bool) (l : Ix16) (s : State) : SlotOp :=
  s.mslot true { dooms := s.foreignLine (some l) } (fun s =>
    if s.src.arr.line = some l then s
    else s.mapCar (fun c => { c with
      arr := { c.arr.discard (BitVec.allOnes 16) with line := some l }
      units := { c.units with array := s.now + 16 } }))

/-- MGAIN (R218). -/
def slotMgain (_te : Bool) (apply : Bool) (g : BitVec 5) (s : State) : SlotOp :=
  s.mslot true { illegal := !decide (g.toNat ≤ 20) } (fun s =>
    s.mapCar (fun c => { c with
      arr := { c.arr with groups := c.arr.groups.mapFinIdx (fun i x _ =>
        if !apply || s.src.ctl.mgsel.getLsbD i then { x with gain := g.toNat } else x) } }))

/-- MSPLIT (R219). -/
def slotMsplit (_te : Bool) (en : Bool) (mask : BitVec 16) (s : State) : SlotOp :=
  s.mslot true {} (fun s =>
    s.mapCar (fun c =>
      let arr := if c.arr.split && !en then c.arr.discard (BitVec.allOnes 16) else c.arr
      { c with
        arr := { arr with split := en }
        ctl := { c.ctl with mgsel := mask } }))

/-- The elements that MRD delivers, with their flags (R112, R221). -/
def Car.readout (c : Car) (fmt : Fmt) (part kind : Nat) : List (Nat × Fl) :=
  let gs := c.arr.groups.toList.toArray
  (List.range 1024).map (fun i =>
    let r := i / 64 + 16 * part
    let j := i % 64
    let g := gs.getD (j / 4) {}
    let x := g.codes.getD (r * 4 + j % 4) 0
    if kind = 1 then (pattern 16 x, 0#8)
    else flt32.round fmt.rm fmt.fz (Q.scale x (g.cgain + g.rowExp.getD r 0 + g.groupExp)) false)

/-- MRD (R221, R222): every element of vd is written. -/
def slotMrd (_te : Bool) (d : VReg) (part kind : BitVec 2) (s : State) : SlotOp :=
  s.mslot false { illegal := !decide (part.toNat < 2 ∧ kind.toNat < 2), dsts := [s.oA d] } (fun s =>
    let xs := s.src.readout s.fmt part.toNat kind.toNat
    let at' := s.src.arr.groups.toList.foldl (fun m g => match g.closed with
      | some t => Nat.max m (t + 16)
      | none => m) (s.now + 2)
    let x := BitVec.ofNat 32768 (join (if kind = 1#2 then 16 else 32) (xs.map (·.1)))
    (s.writeV d true (at' - s.now) x).setFlags (xs.foldl (fun f r => f ||| r.2) 0#8))

/-- A report that MREP may read now (R119). -/
def Report.readable (r : Report) (now : Nat) : Bool := decide (r.ready ≤ now)

/-- MREP (R223): the oldest readable report. -/
def slotMrep (_te : Bool) (d : SReg) (s : State) : SlotOp :=
  let q := s.src.arr.queue
  s.mslot false { wait := !q.any (fun r => r.readable s.now) && !q.isEmpty, dsts := [.s d] } (fun s =>
    match q.find? (fun r => r.readable s.now) with
    | some r => (s.produceS d 2 r.word).mapCar (fun c => { c with arr := { c.arr with queue := q.erase r } })
    | none => s.produceS d 2 0#64)

/-- The groups of an array that have an open window, as a mask. -/
def Arr.openMask (a : Arr) : BitVec 16 :=
  (List.finRange 16).foldl (fun m g => if a.groups[g].win.isSome then m ||| (1#16 <<< g.val) else m) 0#16

/-- The status that MSTAT reads (R224). -/
def Device.arrStatus (d : Device) (c : Car) (now : Nat) : Word :=
  let a := c.arr
  let wins := a.groups.toList.filterMap Group.win
  let readable := (a.queue.filter (fun r => r.readable now)).length
  a.seq ++ BitVec.ofBool (wins.any (fun w => w.lost now)) ++ 0#5 ++ BitVec.ofNat 9 ((wins.head?.map (fun w => w.beats - 1)).getD 0)
    ++ BitVec.ofBool (decide (0 < d.house.pacex)) ++ BitVec.ofBool (a.line.any d.laserBad) ++ BitVec.ofBool a.cal.skew
    ++ BitVec.ofBool a.cal.requested ++ BitVec.ofBool (a.line.any c.coupledTo) ++ BitVec.ofBool a.line.isNone
    ++ BitVec.ofNat 4 ((a.line.map Fin.val).getD 0) ++ BitVec.ofBool a.split ++ a.openMask
    ++ BitVec.ofBool (decide (readable < a.queue.length)) ++ BitVec.ofNat 5 readable

/-- MSTAT (R224). -/
def slotMstat (_te : Bool) (d : SReg) (s : State) : SlotOp :=
  s.mslot false { dsts := [.s d] } (fun s => s.produceS d 2 (s.srcDev.arrStatus s.src s.now))

/-- MCAL (R225): while a calibration runs it adds nothing. -/
def slotMcal (_te : Bool) (s : State) : SlotOp :=
  s.mslot true {} (fun s => s.mapCar (fun c => { c with arr := { c.arr with cal := { c.arr.cal with requested := c.arr.cal.requested || c.arr.cal.ends.isNone } } }))

/-- MUNC (R227). -/
def slotMunc (_te : Bool) (s : State) : SlotOp :=
  s.mslot true {} (fun s => (s.mapCar Car.uncouple).endStreams)

/-- MABT (R226). -/
def slotMabt (_te : Bool) (s : State) : SlotOp :=
  s.mslot true {} (fun s => s.mapCar (fun c => { c with
    arr := c.arr.discard (if c.arr.split then s.src.ctl.mgsel else BitVec.allOnes 16) }))

/-! The meanings: a slot issues, or its bundle waits or traps (R88). -/

/-- MNOP. -/
def execMnop (_te : Bool) (s : State) : Result := (slotMnop _te s).run s

/-- MBT. -/
def execMbt (te : Bool) (v : VReg) (seg : BitVec 4) (n a d : Bool) (s : State) : Result := (slotMbt te v seg n a d s).run s

/-- MTUNE. -/
def execMtune (_te : Bool) (l : Ix16) (s : State) : Result := (slotMtune _te l s).run s

/-- MGAIN. -/
def execMgain (_te : Bool) (apply : Bool) (g : BitVec 5) (s : State) : Result := (slotMgain _te apply g s).run s

/-- MSPLIT. -/
def execMsplit (_te : Bool) (en : Bool) (mask : BitVec 16) (s : State) : Result := (slotMsplit _te en mask s).run s

/-- MRD. -/
def execMrd (_te : Bool) (d : VReg) (part kind : BitVec 2) (s : State) : Result := (slotMrd _te d part kind s).run s

/-- MREP. -/
def execMrep (_te : Bool) (d : SReg) (s : State) : Result := (slotMrep _te d s).run s

/-- MSTAT. -/
def execMstat (_te : Bool) (d : SReg) (s : State) : Result := (slotMstat _te d s).run s

/-- MCAL. -/
def execMcal (_te : Bool) (s : State) : Result := (slotMcal _te s).run s

/-- MUNC. -/
def execMunc (_te : Bool) (s : State) : Result := (slotMunc _te s).run s

/-- MABT. -/
def execMabt (_te : Bool) (s : State) : Result := (slotMabt _te s).run s

end Sys2Proof.Machine
end

