-- ==== Sys2Proof/Machine/Copy.lean ====
section
/-!
DEFINITION. The C slots at issue (spec 09 R230 to R254): copies, collectives, the Platform bus, line streams, range
operations and stash mappings. What the engines do later stands in EventsCar and EventsFabric.
-/
namespace Sys2Proof.Machine

/-! Speculation (R268). -/

/-- Bytes of a waybill that a speculation may not touch; it writes to no RMT page, even one of its own package (R389). -/
def State.elemForbidden (s : State) (w : Waybill) (wr : Bool) (a : Word) (n : Nat) : Bool :=
  if w.sp then haWindow a != 0
  else match (s.engTarget 0 (!wr) wr a).2 with
    | some t => s.specForbids t n wr false || (wr && (s.dev.walk a.toNat).any (fun x => x.leaf.getLsbD 6))
    | none => true

/-- A copy of a speculative consist dooms on an address outside what it may touch (R268). -/
def State.copyDooms (s : State) (ws wd : Waybill) : Bool :=
  s.src.place.spec && !(ws.empty || wd.empty) &&
    ((List.range ws.count).any (fun m => s.elemForbidden ws false (ws.elem m) ws.esz)
      || (List.range wd.count).any (fun m => s.elemForbidden wd true (wd.elem m) wd.esz)
      || (wd.auxen && (List.range (wd.auxLen .ccpy)).any (fun i => s.elemForbidden wd true (wd.aux + BitVec.ofNat 64 i) 1)))

/-! CNOP, CCPY, CRES, CABT (R235 to R242). -/

/-- CNOP (R82). -/
def slotCnop (te : Bool) (s : State) : SlotOp := SlotOp.mk { te := te } id

/-- Note a lossy transfer with an off-package hop at its destination (R411, R412): its blocks, and those that cross to another package. -/
def State.openLossy (s : State) (num blocks : Nat) (hops : List (Nat × Nat)) : State :=
  s.mapDev (fun d => { d with fab := { d.fab with
    lossy := d.fab.lossy ++ [{ car := s.car.ref, num := num, blocks := blocks, crosses := hops }] } })

/-- Start a CCPY (R238): it takes a number; some of its rows may move before the next bundle. -/
def State.startCopy (s : State) (ws wd : Ix16) (f : FlagIx) (acq rel : Bool) (scope : BitVec 2) (lossy : Bool) : State :=
  let num := s.freeNumber.getD 0
  let s := s.takeNumber
    { num := 0, op := .ccpy, ws := s.waybill ws, wd := s.waybill wd, flag := f, acq := acq, rel := rel, scope := scope, lossy := lossy
      void := (s.waybill ws).empty || (s.waybill wd).empty }
  match s.car.copyOf num with
  | none => s
  | some k =>
    if k.void then s
    else if lossy && !(s.blockHops k).isEmpty then s.openLossy num k.wd.blocks (s.blockHops k)
    else if s.engineHeld k || (acq && s.accessesOut s.car) then s
    else s.moveEarly k

/-- CCPY (R238). -/
def slotCcpy (te : Bool) (ws wd : Ix16) (f : FlagIx) (acq rel : Bool) (scope : BitVec 2) (lossy : Bool) (s : State) : SlotOp :=
  SlotOp.mk { te := te, illegal := !wfScope acq rel scope, unit := .copy, cause := s.copyCause ws wd
              dooms := s.copyDooms (s.waybill ws) (s.waybill wd) }
    (fun s => s.startCopy ws wd f acq rel scope lossy)

/-- The blocks of a lossy transfer that have bytes of rows from `i` on have still to arrive (R241), unless it has closed. -/
def State.resumeLossy (s : State) (k : Copy) (i : Nat) : State :=
  s.mapDev (fun d => { d with fab := { d.fab with lossy := d.fab.lossy.map (fun x =>
    if x.car == s.car.ref && x.num == k.num && !x.closed
    then { x with arrived := x.arrived.filter (fun b => decide ((b + 1) * 256 ≤ i * k.wd.rowLen * k.wd.esz)) } else x) } })

/-- CRES (R241): a faulted copy of this car runs again, and so does an unmapping that met a fault; anything else is left alone. -/
def slotCres (te : Bool) (n : BitVec 6) (s : State) : SlotOp :=
  SlotOp.mk { te := te, illegal := !decide (n.toNat < 48) } (fun s =>
    match s.src.copyOf n.toNat with
    | some k =>
      (match k.state with
       | .faulted i _ => (s.mapCar (fun c => c.setCopy { k with state := .running, iter := i })).resumeLossy k i
       | .running => s)
    | none => s.mapCar (fun c => { c with eng.unmaps := c.eng.unmaps.map (fun u =>
        if u.num = n.toNat then { u with faulted := false } else u) }))

/-- A rank's part in its k-th collective counts as absent (R242). -/
def State.absent (s : State) (k : Copy) : State :=
  s.mapDev (fun d => { d with fab := { d.fab with colls := d.fab.colls.map (fun x =>
    if x.group == k.wd.group && x.k == k.key then
      { x with parts := x.parts.map (fun p => if p.car == some s.car.ref then { p with
        present := false
        ready := true
        reach := some (p.reach.getD x.issued) } else p) } else x) } })

/-- End a copy as CABT does (R242): its destination from row `i` on and its mask are unspecified. -/
def State.cutCopy (s : State) (k : Copy) (i : Nat) : State :=
  let s := (s.smear k i (k.rows + 1 - i)).smearAux k
  let s := (s.mapCar (fun c => c.dropCopy k.num)).mapDev (fun d => { d with
    fab := { d.fab with lossy := d.fab.lossy.filter (fun x => !(x.car == s.car.ref && x.num == k.num)) } })
  match k.op with
  | .crdx => s.absent k
  | .cagt => s.absent k
  | .cbct => s.absent k
  | _ => s

/-- CABT (R242): a CCPY stops at once, a collective only when it has faulted. -/
def slotCabt (te : Bool) (n : BitVec 6) (s : State) : SlotOp :=
  SlotOp.mk { te := te, illegal := !decide (n.toNat < 48) } (fun s =>
    match s.src.copyOf n.toNat with
    | none => s
    | some k =>
      match k.op, k.state with
      | .ccpy, _ => s.cutCopy k k.reported
      | .crdx, .faulted _ _ => s.cutCopy k k.reported
      | .cagt, .faulted _ _ => s.cutCopy k k.reported
      | .cbct, .faulted _ _ => s.cutCopy k k.reported
      | _, _ => s)

/-! The Platform bus (R243, R244). -/

/-- The line of the lowest coupling slot of the car. -/
def Car.lowestLine (c : Car) : Option Ix16 :=
  match c.place.domain with
  | none => none
  | some _ => (c.place.couples.foldl (fun m x => match m with
      | none => some x
      | some y => if x.1 < y.1 then some x else some y) (none : Option (Fin 16 × Ix16))).map (·.2)

/-- The car's bus line (R243). -/
def Car.busLine (c : Car) : Option Ix16 :=
  match c.ident.coreClass, c.arr.line with
  | .c, _ => c.lowestLine
  | _, some l => if c.coupledTo l then some l else c.lowestLine
  | _, none => c.lowestLine

/-- A drive of the bus at a CCYC of a domain. -/
def BusDrive.is (b : BusDrive) (dom : Nat) (l : Ix16) (ccyc : Nat) : Bool := b.domain == dom && b.line == l && b.ccyc == ccyc

/-- Drive the bus of a line; two cars at one CCYC collide, and of two slots of one car the later one drives (R244;
notes/assumptions/68.md). -/
def Device.driveBus (d : Device) (dom : Nat) (l : Ix16) (ccyc : Nat) (car : CarRef) (bytes : List Byte) : Device :=
  if d.bus.any (fun b => b.is dom l ccyc) then
    { d with bus := d.bus.map (fun b => if b.is dom l ccyc then
        (if b.car = car then { b with bytes := bytes } else { b with count := b.count + 1 }) else b) }
  else { d with bus := ⟨dom, l, ccyc, 1, bytes, car⟩ :: d.bus.filter (fun b => !(b.domain == dom && b.line == l && decide (b.ccyc + 4 < ccyc))) }

/-- What the bus of a line carried at a CCYC of a domain. -/
def Device.busAt (d : Device) (dom : Option Nat) (l : Option Ix16) (ccyc : Nat) : List Byte :=
  match dom, l with
  | some k, some l =>
    (match d.bus.find? (fun b => b.is k l ccyc) with
     | some b => if b.count = 1 then b.bytes else List.replicate 256 0#8
     | none => List.replicate 256 0#8)
  | _, _ => List.replicate 256 0#8

/-- CPLD (R243). -/
def slotCpld (te : Bool) (v : VReg) (part : Ix16) (s : State) : SlotOp :=
  SlotOp.mk { te := te, srcs := [s.oA v] } (fun s =>
    match s.src.place.domain, s.src.busLine with
    | some k, some l =>
      s.mapDev (fun d => d.driveBus k l s.src.ctl.ccyc.toNat s.src.ref (bytesLE 256 ((s.rVA v).toNat / 2 ^ (2048 * part.val))))
    | _, _ => s)

/-- CPLT (R243): the other bytes of vd stay, and all of it is empty for 2 cycles. -/
def slotCplt (te : Bool) (v : VReg) (part : Ix16) (s : State) : SlotOp :=
  SlotOp.mk { te := te, dsts := [s.oA v] } (fun s =>
    let c := s.src.ctl.ccyc.toNat
    let bytes := if c < 4 then List.replicate 256 0#8 else s.srcDev.busAt s.src.place.domain s.src.busLine (c - 4)
    let old := s.rVA v
    let x := BitVec.ofNat 32768 (natLE bytes * 2 ^ (2048 * part.val))
    let m := BitVec.ofNat 32768 ((2 ^ 2048 - 1) * 2 ^ (2048 * part.val))
    s.writeV v false 2 ((old &&& ~~~m) ||| x))

/-! Line streams (R245 to R247). -/

/-- The bytes of a waybill in linear order, from byte `i`, read from the own scratchpad. -/
def Device.streamBytes (d : Device) (c : Car) (w : Waybill) (i n : Nat) : List Byte :=
  (List.range n).map (fun j => d.spadByte c (haByte (w.elem ((i + j) / w.esz)) + (i + j) % w.esz))

/-- Start a stream: its number is taken until it ends. -/
def State.startStream (s : State) (op : EngineOp) (x : Stream) (ws : Waybill) : State :=
  let num := s.freeNumber.getD 0
  let id := s.dev.nextId
  let s := s.takeNumber { num := 0, op := op, ws := ws, wd := ws, key := id }
  s.mapDev (fun d => { d with
    streams := d.streams ++ [{ x with id := id, num := num }]
    nextId := id + 1 })

/-- A drive of a line at a CCYC of a domain. -/
def Drive.is (y : Drive) (dom : Nat) (l : Ix16) (ccyc : Nat) : Bool := y.domain == dom && y.line == l && y.ccyc == ccyc

/-- Drive a line at a CCYC; a second driver of one beat collides (R116). -/
def Device.driveLine (d : Device) (x : Drive) : Device :=
  if d.drives.any (fun y => y.is x.domain x.line x.ccyc) then
    { d with drives := d.drives.map (fun y => if y.is x.domain x.line x.ccyc then { y with count := y.count + 1 } else y) }
  else { d with drives := x :: d.drives.filter (fun y => !(y.domain == x.domain && y.line == x.line)) }

/-- A late stream drives the beat of a CCYC as zeros with LINE, unless the start of the domain's step counted it there already. -/
def Device.driveLate (d : Device) (x : Drive) : Device :=
  if d.drives.any (fun y => y.is x.domain x.line x.ccyc && y.awaits != 0) then
    { d with drives := d.drives.map (fun y => if y.is x.domain x.line x.ccyc then
        { y with awaits := y.awaits - 1, header := if y.count = 1 then x.header else y.header } else y) }
  else d.driveLine x

/-- One stream alone drives a line at a CCYC of a domain. -/
def Device.drivenAlone (d : Device) (dom : Nat) (l : Ix16) (c : Nat) : Bool :=
  d.drives.any (fun y => y.is dom l c && y.count == 1)

/-- A stream of `beats` beats from `start` was issued at CCYC `c` (R97, R246): of the beats up to `c`, which come too late, the arrays
take note, and that of `c` itself is driven as zeros with LINE. -/
def State.lateBeats (s : State) (dom : Nat) (l : Ix16) (start beats c : Nat) (header : List Byte) : State :=
  if c < start || beats = 0 then s
  else
    let s := if c < start + beats then s.mapDev (fun d => d.driveLate ⟨dom, l, c, 1, header, List.replicate 256 0#8, true, 0⟩) else s
    s.missedBeats ⟨(dom, l), start, Nat.min c (start + beats - 1), c, s.dev.drivenAlone dom l c, header⟩

/-- CLS (R245, R246): the header is read at issue. A stream that is empty or whose beats are all past drives nothing. -/
def slotCls (te : Bool) (l ws : Ix16) (b : SReg) (s : State) : SlotOp :=
  let w := s.waybill ws
  let start := (s.rS b).toNat
  SlotOp.mk { te := te, unit := .copy, wait := s.acquiring, srcs := [.s b], cause := s.clsCause l ws } (fun s =>
    let beats := (streamBeats (w.count * w.esz)).getD 0
    let c := s.src.ctl.ccyc.toNat
    if w.empty then s
    else match s.src.place.domain with
      | none => s
      | some dom =>
        let header := s.dev.streamBytes (s.dev.drained s.car) w 0 32
        let s := s.lateBeats dom l start beats c header
        if start + beats ≤ c then s
        else s.startStream .cls
          { id := 0, car := s.car.ref, num := 0, line := l, start := start, beats := beats, ws := w
            header := header, domain := dom, issuedAt := c } w)

/-- CLSF (R247). In a speculation it dooms (R268). -/
def slotClsf (te : Bool) (l : Ix16) (a b : SReg) (s : State) : SlotOp :=
  let x := s.rS a
  let start := (s.rS b).toNat
  SlotOp.mk { te := te, unit := .copy, wait := s.acquiring, srcs := [.s a, .s b], cause := s.clsfCause l a, dooms := s.src.place.spec } (fun s =>
    let beats := (x.extractLsb' 32 16).toNat
    let c := s.src.ctl.ccyc.toNat
    match s.src.place.domain with
    | none => s
    | some dom =>
      let s := s.lateBeats dom l start beats c (List.replicate 32 0#8)
      if start + beats ≤ c then s
      else s.startStream .clsf
        { id := 0, car := s.car.ref, num := 0, line := l, start := start, beats := beats, ws := Vector.replicate 8 0#64
          header := [], domain := dom, issuedAt := c, group := some (x.extractLsb' 0 12).toNat } (Vector.replicate 8 0#64))

/-- The late drive with which a CLS or CLSF of the focused car's bundle meets the MBTs of its coupling domain in the same cycle
(R116). -/
def State.lateDrive (s : State) (i : Instr) : Option Drive :=
  let c := s.src.ctl.ccyc.toNat
  let at' := fun (l : Ix16) (start beats : Nat) (header : List Byte) => s.src.place.domain.bind (fun m =>
    if start ≤ c ∧ c < start + beats then some (⟨m, l, c, 1, header, List.replicate 256 0#8, true, 1⟩ : Drive) else none)
  match i with
  | .cls _ l ws b =>
    let w := s.waybill ws
    if w.empty then none
    else at' l (s.rS b).toNat ((streamBeats (w.count * w.esz)).getD 0) (s.dev.streamBytes (s.dev.drained s.car) w 0 32)
  | .clsf _ l a b => at' l (s.rS b).toNat ((s.rS a).extractLsb' 32 16).toNat (List.replicate 32 0#8)
  | _ => none

/-- Count a late drive before the bundles of a domain issue. -/
def Device.awaitLate (d : Device) (x : Drive) : Device :=
  if d.drives.any (fun y => y.is x.domain x.line x.ccyc) then
    { d with drives := d.drives.map (fun y => if y.is x.domain x.line x.ccyc then
        { y with count := y.count + 1, awaits := y.awaits + 1 } else y) }
  else d.driveLine x

/-! Range operations (R248). -/

/-- Start a range operation on the lines of an SM range; lines of other pages are left alone. -/
def State.startRange (s : State) (kind : RangeKind) (a b : SReg) (f : FlagIx) : State :=
  let ha := s.rS a
  let n := (s.rS b).toNat
  if n = 0 then s.mapCar (fun c => c.post f 1)
  else
    let lines := match s.target ha with
      | .hbm pa true => (pa / 64, (pa + n + 63) / 64)
      | _ => (0, 0)
    s.mapCar (fun c => { c with eng := { c.eng with
      ranges := c.eng.ranges ++ [⟨c.eng.nextId, kind, lines.1, lines.2, f, s.now, s.src.eng.nextId, s.srcDev.fab.nextId⟩]
      nextId := c.eng.nextId + 1 } })

/-- CWBR, CINV, CWBI: a busy handle holds the bundle as soon as sa names it (R152). -/
def State.range (s : State) (te : Bool) (kind : RangeKind) (a b : SReg) (f : FlagIx) : SlotOp :=
  let ha := s.rS a
  let n := (s.rS b).toNat
  SlotOp.mk { te := te, srcs := [.s a, .s b], cause := s.rangeCause a b
              wait := s.src.isFull (.s a) && s.src.handleBusy s.now (haIndex ha)
              dooms := n != 0 && s.specForbids (s.target ha) n false false }
    (fun s => s.startRange kind a b f)

/-- CWBR (R248). -/
def slotCwbr (te : Bool) (a b : SReg) (f : FlagIx) (s : State) : SlotOp := s.range te .wb a b f

/-- CINV (R248): through a handle without WR it acts as CWBI. -/
def slotCinv (te : Bool) (a b : SReg) (f : FlagIx) (s : State) : SlotOp :=
  s.range te (if (s.src.handle (haIndex (s.rS a))).wr then .inv else .wbinv) a b f

/-- CWBI (R248). -/
def slotCwbi (te : Bool) (a b : SReg) (f : FlagIx) (s : State) : SlotOp := s.range te .wbinv a b f

/-! Collectives (R251 to R253). -/

/-- One more element of a part, with its poisoned bytes (R455). -/
def Contribution.give (p : Contribution) (m : Nat) (bs : List (Byte × Bool)) : Contribution :=
  { p with
    data := p.data ++ [BitVec.ofNat 64 (natLE (bs.map (·.1)))]
    poison := if bs.any (·.2) then p.poison ++ [(m, BitVec.ofNat 8 (join 1 (bs.map (fun b => if b.2 then 1 else 0))))] else p.poison }

/-- Read `n` elements of a rank's source waybill into its part, from the one at index `m`. At a fault nothing is given: the index
and the virtual address where it was met (R240). -/
def State.gatherSource (s : State) (k : Copy) : Nat → Nat → Contribution → State × Contribution × Option (Nat × Word)
  | 0, _, p => (s, p, none)
  | n + 1, m, p =>
    let e := s.sourceElem k m
    match e.2 with
    | none => (e.1, { p with
        data := []
        poison := []
        ready := false }, some (m, k.ws.elem m))
    | some bs => e.1.gatherSource k n (m + 1) (p.give m bs)

/-- The part of a rank in a collective; one that it had stands there no more. -/
def Coll.take (x : Coll) (p : Contribution) : Coll :=
  { x with parts := if x.parts.any (fun q => q.rank == p.rank) then x.parts.map (fun q => if q.rank == p.rank then p else q)
      else x.parts ++ [p] }

/-- The closed blocks whose owners' collectives are open reach a rank of this package that issues now (R422, R423). -/
def Coll.catchUp (x : Coll) (r : Nat) : Coll :=
  { x with blocks := x.blocks ++ (x.closed.filter (fun y => x.open' y.owner)).map (fun y => (r, y.block)) }

/-- Put a rank's part into the k-th collective of a group. -/
def Fabric.contribute (f : Fabric) (g k : Nat) (p : Contribution) : Fabric :=
  if f.colls.any (fun x => x.group == g && x.k == k) then
    { f with colls := f.colls.map (fun x => if x.group == g && x.k == k then x.take p else x) }
  else { f with colls := f.colls ++ [{ group := g, k := k, parts := [p] }] }

/-- A source that a fault kept from being read is read again: the part is given, or COPY_FAULT is pending (R240, R241). -/
def State.gatherLate (s : State) (k : Copy) (p : Contribution) : State :=
  let r := s.gatherSource k k.ws.count 0 { p with
    data := []
    poison := []
    ready := true }
  match r.2.2 with
  | some (m, va) => r.1.faultCopy k (k.rowOf m) va
  | none => r.1.mapDev (fun d => { d with fab := d.fab.contribute k.wd.group k.key r.2.1 }.flushColl k.wd.group k.key)

/-- Change the collective of a copy. -/
def Device.mapColl (d : Device) (k : Copy) (f : Coll → Coll) : Device :=
  { d with fab := { d.fab with colls := d.fab.colls.map (fun x => if x.group == k.wd.group && x.k == k.key then f x else x) } }

/-- Start a collective (R251): it is this member's next one on its group. An empty one gives notice with a count of 0, and posts
its flag a cycle later (R234). A source that faults leaves the part unread, and so does an acquire that waits for the car's
accesses (R236). -/
def State.startColl (s : State) (op : EngineOp) (ws wd : Ix16) (f : FlagIx) (acq rel : Bool) (scope : BitVec 2) (lossy : Bool) : State :=
  let wb := s.waybill wd
  let g := wb.group
  let kth := Tab.get 0 s.car.eng.colls g
  let rank := (s.srcDev.rankOf s.src g).getD 0
  let root := op == .cbct && rank != wb.root
  let num := s.freeNumber.getD 0
  let s := s.takeNumber
    { num := 0, op := op, ws := s.waybill ws, wd := wb, flag := f, acq := acq, rel := rel, scope := scope, lossy := lossy, key := kth
      void := wb.empty || (!root && (s.waybill ws).empty) }
  let s := s.mapCar (fun c => { c with eng.colls := Tab.set c.eng.colls g (kth + 1) })
  match s.car.copyOf num with
  | none => s
  | some k =>
    let count := if k.void then 0 else if op == .cbct then k.wd.count else k.ws.count
    let p : Contribution := { rank := rank, car := some s.car.ref, op := op, count := count, type := k.wd.type, lossy := lossy }
    let r := if k.void || root then (s, p, none)
      else if s.engineHeld k || (acq && s.accessesOut s.car) then (s, { p with ready := false }, none)
      else s.gatherSource k k.ws.count 0 p
    r.1.mapDev (fun d => ({ d with fab := d.fab.contribute g kth r.2.1 }.mapColl k (fun x => x.catchUp rank)).flushColl g kth)

/-- A collective slot; in a speculation it dooms (R268). -/
def State.coll (s : State) (te : Bool) (op : EngineOp) (ws wd : Ix16) (f : FlagIx) (acq rel : Bool) (scope : BitVec 2)
    (lossy : Bool) (cause : Option Trap) : SlotOp :=
  SlotOp.mk { te := te, illegal := !wfScope acq rel scope, unit := .copy, cause := cause, dooms := s.src.place.spec }
    (fun s => s.startColl op ws wd f acq rel scope lossy)

/-- CRDX (R252). -/
def slotCrdx (te : Bool) (ws wd : Ix16) (f : FlagIx) (acq rel : Bool) (scope : BitVec 2) (lossy : Bool) (s : State) : SlotOp :=
  s.coll te .crdx ws wd f acq rel scope lossy (s.reduceCause ws wd)

/-- CAGT (R253). -/
def slotCagt (te : Bool) (ws wd : Ix16) (f : FlagIx) (acq rel : Bool) (scope : BitVec 2) (lossy : Bool) (s : State) : SlotOp :=
  s.coll te .cagt ws wd f acq rel scope lossy (s.gatherCause ws wd)

/-- CBCT (R253). -/
def slotCbct (te : Bool) (ws wd : Ix16) (f : FlagIx) (acq rel : Bool) (scope : BitVec 2) (lossy : Bool) (s : State) : SlotOp :=
  s.coll te .cbct ws wd f acq rel scope lossy (s.broadcastCause ws wd)

/-! Stash mappings (R249, R250). -/

/-- CMAP (R249): it holds a copy number until CUNM, and moves no data. -/
def slotCmap (te : Bool) (ws : Ix16) (a : SReg) (s : State) : SlotOp :=
  let w := s.waybill ws
  SlotOp.mk { te := te, unit := .copy
              srcs := [.s a], cause := s.mapCause ws a, maps := some (haByte (s.rS a), w.stashLen)
              dooms := s.src.place.spec && (List.range w.count).any (fun m => s.elemForbidden w false (w.elem m) w.esz) } (fun s =>
    let num := s.freeNumber.getD 0
    s.mapCar (fun c => { c with
      eng := { c.eng with
        stash := c.eng.stash ++ [{ num := num, id := c.eng.nextId, base := haByte (s.rS a), len := w.stashLen, ws := w }]
        nextId := c.eng.nextId + 1 } }))

/-- The unmapping of a stash (R250): granules never filled are left unspecified, dirty bytes go to the engine. -/
def State.unmap (s : State) (m : Stash) (f : FlagIx) : State :=
  let dirty := (m.dirty.filter (fun p => m.filled.contains (p / 64))).map (fun p => (p, s.car.spad.read (m.base + p)))
  let bare := (List.range (m.len / 64)).filter (fun g => !m.filled.contains g)
  (s.mapCar (fun c => { c with
    spad := bare.foldl (fun sp g => sp.write (m.base + g * 64)
      ((List.range 64).map (fun i => Config.anyByte s.fresh (g * 64 + i)))) c.spad
    eng := { c.eng with
      stash := c.eng.stash.filter (fun x => x.num != m.num)
      unmaps := c.eng.unmaps ++ [{ num := m.num, id := c.eng.nextId, flag := f, ws := m.ws, bytes := dirty,
                                     poison := (dirty.map (·.1)).filter (fun p => s.car.spad.poisoned (m.base + p)) }]
      nextId := c.eng.nextId + 1 } })).tick

/-- CUNM (R250). -/
def slotCunm (te : Bool) (a : SReg) (f : FlagIx) (s : State) : SlotOp :=
  SlotOp.mk { te := te, wait := s.acquiring || !s.src.eng.queue.isEmpty, srcs := [.s a], cause := s.unmapCause a } (fun s =>
    match s.src.stashAt (s.rS a) with
    | some m =>
      (match s.car.eng.stash.find? (fun x => x.num == m.num) with
       | some m => s.unmap m f
       | none => s)
    | none => s)

/-! The meanings: a slot issues, or its bundle waits or traps (R88). -/

/-- CNOP. -/
def execCnop (te : Bool) (s : State) : Result := (slotCnop te s).run s

/-- CCPY. -/
def execCcpy (te : Bool) (ws wd : Ix16) (f : FlagIx) (acq rel : Bool) (scope : BitVec 2) (lossy : Bool) (s : State) : Result := (slotCcpy te ws wd f acq rel scope lossy s).run s

/-- CRES. -/
def execCres (te : Bool) (n : BitVec 6) (s : State) : Result := (slotCres te n s).run s

/-- CABT. -/
def execCabt (te : Bool) (n : BitVec 6) (s : State) : Result := (slotCabt te n s).run s

/-- CPLD. -/
def execCpld (te : Bool) (v : VReg) (part : Ix16) (s : State) : Result := (slotCpld te v part s).run s

/-- CPLT. -/
def execCplt (te : Bool) (v : VReg) (part : Ix16) (s : State) : Result := (slotCplt te v part s).run s

/-- CLS. -/
def execCls (te : Bool) (l ws : Ix16) (b : SReg) (s : State) : Result := (slotCls te l ws b s).run s

/-- CLSF. -/
def execClsf (te : Bool) (l : Ix16) (a b : SReg) (s : State) : Result := (slotClsf te l a b s).run s

/-- CWBR. -/
def execCwbr (te : Bool) (a b : SReg) (f : FlagIx) (s : State) : Result := (slotCwbr te a b f s).run s

/-- CINV. -/
def execCinv (te : Bool) (a b : SReg) (f : FlagIx) (s : State) : Result := (slotCinv te a b f s).run s

/-- CWBI. -/
def execCwbi (te : Bool) (a b : SReg) (f : FlagIx) (s : State) : Result := (slotCwbi te a b f s).run s

/-- CRDX. -/
def execCrdx (te : Bool) (ws wd : Ix16) (f : FlagIx) (acq rel : Bool) (scope : BitVec 2) (lossy : Bool) (s : State) : Result := (slotCrdx te ws wd f acq rel scope lossy s).run s

/-- CAGT. -/
def execCagt (te : Bool) (ws wd : Ix16) (f : FlagIx) (acq rel : Bool) (scope : BitVec 2) (lossy : Bool) (s : State) : Result := (slotCagt te ws wd f acq rel scope lossy s).run s

/-- CBCT. -/
def execCbct (te : Bool) (ws wd : Ix16) (f : FlagIx) (acq rel : Bool) (scope : BitVec 2) (lossy : Bool) (s : State) : Result := (slotCbct te ws wd f acq rel scope lossy s).run s

/-- CMAP. -/
def execCmap (te : Bool) (ws : Ix16) (a : SReg) (s : State) : Result := (slotCmap te ws a s).run s

/-- CUNM. -/
def execCunm (te : Bool) (a : SReg) (f : FlagIx) (s : State) : Result := (slotCunm te a f s).run s

end Sys2Proof.Machine
end

