-- ==== Sys2Proof/Machine/System.lean ====
section
/-!
DEFINITION. Handles, named control registers and the snapshot instructions (spec 06 R151 to R163; 01 R33 to R36; 12 R322
to R327).
-/
namespace Sys2Proof.Machine

/-! Handles (R151 to R155). -/

/-- A handle operand of 6 bits as an index. -/
def hIndex (h : Fin 64) : Fin 32 := ⟨h.val % 32, by omega⟩

/-- XLT (R151 to R153, R319): a hit writes the handle, which is busy for 12 cycles; a miss walks; a fault is precise. -/
def slotXlt (te : Bool) (h : Fin 64) (a : SReg) (md : BitVec 2) (s : State) : SlotOp :=
  let va := s.rS a
  let sees := s.src.xltSees va md
  SlotOp.mk { planS te [a] [] with
      illegal := !(wfHandle h && md != 0#2)
      wait := s.src.handleBusy s.now (hIndex h)
      cause := if sees = .fault then some { cause := .xltFault, taddr := va } else none
      walk := if sees = .miss then some va else none }
    (fun s => match sees with
      | .hit e => s.mapCar (fun c => { c with regs.h := c.regs.h.set (hIndex h).val (e.handle md (s.now + 12)) (hIndex h).isLt })
      | _ => s)

/-- HINV (R154): V is cleared, the other fields stay. -/
def slotHinv (te : Bool) (h : Fin 64) (s : State) : SlotOp :=
  SlotOp.mk { planS te [] [] with illegal := !wfHandle h, wait := s.src.handleBusy s.now (hIndex h) }
    (fun s => s.mapCar (fun c => { c with
      regs.h := c.regs.h.set (hIndex h).val { c.regs.h[hIndex h] with v := false } (hIndex h).isLt }))

/-- HRD (R155). -/
def slotHrd (te : Bool) (d : SReg) (h : Fin 64) (s : State) : SlotOp :=
  SlotOp.mk { planS te [] [d] with illegal := !decide (h.val < 32), wait := s.src.handleBusy s.now (hIndex h) }
    (fun s => s.wS d (s.src.handle (hIndex h)).word)

/-! Named control registers (R33 to R36, R93). -/

/-- FMT as most recently written by an earlier step (R93). -/
def Car.fmtLatest (c : Car) : BitVec 20 :=
  c.late.foldl (fun x l => match l.what with
    | .fmt y => y
    | _ => x) c.regs.fmt

/-- ROWMAP of the line the array receives (R101, R441). -/
def Device.rowmap (d : Device) (c : Car) : BitVec 14 :=
  match c.arr.line with
  | some l => d.lines[l].sp1 ++ 0#2 ++ d.lines[l].sp0
  | none => 0x3F3F#14

/-- Code of a core's class (R33). -/
def CoreClass.code : CoreClass → BitVec 2
  | .a => 0#2
  | .b => 1#2
  | .c => 2#2

/-- A named control register as SRD reads it; none for an index that R33 does not list. -/
def Car.readCtl (c : Car) (d : Device) (i : BitVec 14) : Option Word :=
  match i.toNat with
  | 0x000 => some (c.ident.coreId.setWidth 64)
  | 0x001 => some (c.ident.coreClass.code.setWidth 64)
  | 0x002 => some (c.ident.carId.setWidth 64)
  | 0x003 => some (c.ident.ncars.setWidth 64)
  | 0x004 => some (c.ident.consistId.setWidth 64)
  | 0x005 => some c.ident.serviceId
  | 0x008 => some c.ctl.ccyc
  | 0x009 => some (d.tstamp (dieOf c.ident.coreId))
  | 0x010 => some (c.ctl.tvec.setWidth 64)
  | 0x011 => some (c.ctl.tcause.setWidth 64)
  | 0x012 => some c.ctl.taddr
  | 0x020 => some (c.loop.start.setWidth 64)
  | 0x021 => some (c.loop.lend.setWidth 64)
  | 0x022 => some (c.loop.lpro.setWidth 64)
  | 0x023 => some (c.loop.lepi.setWidth 64)
  | 0x024 => some (c.loop.cnt.setWidth 64)
  | 0x025 => some (c.loop.idx.setWidth 64)
  | 0x030 => some (c.fmtLatest.setWidth 64)
  | 0x031 => some (c.ctl.vbank.setWidth 64)
  | 0x032 => some (c.ctl.vflags.setWidth 64)
  | 0x033 => some c.ctl.flagovf
  | 0x040 => some (c.ctl.mgsel.setWidth 64)
  | 0x041 => some ((d.rowmap c).setWidth 64)
  | 0x050 => some (c.ctl.rcnt.setWidth 64)
  | 0x051 => some (c.ctl.lslack.setWidth 64)
  | 0x052 => some (c.ctl.wadrTmo.setWidth 64)
  | 0x053 => some (c.ctl.wdog.setWidth 64)
  | 0x054 => some (c.ctl.pri.setWidth 64)
  | 0x055 => some (c.ident.merge.setWidth 64)
  | n =>
    if n / 16 = 0x10 then some ((c.wmap ⟨n % 16, by omega⟩).setWidth 64)
    else if n / 16 = 0x11 then some (c.ctl.wal[n % 16].setWidth 64)
    else none

/-- Who may write a register (R33): everybody, the handler only, nobody. -/
inductive CtlAccess where
  | user
  | handler
  | none
deriving DecidableEq, Repr

/-- The write access of an index (R33). -/
def ctlAccess (i : BitVec 14) : CtlAccess :=
  let n := i.toNat
  if (0x020 ≤ n ∧ n ≤ 0x025) ∨ (0x030 ≤ n ∧ n ≤ 0x033) ∨ n = 0x040 ∨ (0x050 ≤ n ∧ n ≤ 0x052) then .user
  else if (0x010 ≤ n ∧ n ≤ 0x012) ∨ n = 0x053 ∨ n = 0x054 ∨ (0x100 ≤ n ∧ n ≤ 0x11F) then .handler
  else .none

/-- A value held to a range (R33). -/
def saturate (lo hi : Nat) (x : Word) : Nat := Nat.max lo (Nat.min hi x.toNat)

/-- A write of FMT that is due after its delay; of two in one bundle the later slot's stands (R36, R93, R94). -/
def Car.lateFmt (c : Car) (x : BitVec 20) : Car :=
  { c with late := c.late.filter (fun l => !(l.age == 0 && l.isFmt)) ++ [⟨0, .fmt x⟩] }

/-- SWR of an index that may be written (R33). -/
def Car.writeCtl (c : Car) (i : BitVec 14) (x : Word) : Car :=
  match i.toNat with
  | 0x010 => { c with ctl.tvec := 0xF#4 ++ x.extractLsb' 2 11 ++ 0#2 }
  | 0x011 => { c with ctl.tcause := x.extractLsb' 16 6 ++ 0#7 ++ x.extractLsb' 0 9 }
  | 0x012 => { c with ctl.taddr := x }
  | 0x020 => { c with loop := { c.loop with start := x.extractLsb' 0 17 } }
  | 0x021 => { c with loop := { c.loop with lend := x.extractLsb' 0 17 } }
  | 0x022 => { c with loop := { c.loop with lpro := x.extractLsb' 0 17 } }
  | 0x023 => { c with loop := { c.loop with lepi := x.extractLsb' 0 17 } }
  | 0x024 => { c with loop := { c.loop with cnt := x.extractLsb' 0 32 } }
  | 0x025 => { c with loop := { c.loop with idx := x.extractLsb' 0 32 } }
  | 0x030 => c.lateFmt (x.extractLsb' 0 20)
  | 0x031 => { c with ctl.vbank := x.extractLsb' 0 8 }
  | 0x032 => { c with ctl.vflags := c.ctl.vflags &&& ~~~(x.extractLsb' 0 8) }
  | 0x033 => { c with ctl.flagovf := c.ctl.flagovf &&& ~~~x }
  | 0x040 => { c with ctl.mgsel := x.extractLsb' 0 16 }
  | 0x050 => { c with ctl.rcnt := BitVec.ofNat 11 (saturate 1 1024 x) }
  | 0x051 => { c with ctl.lslack := BitVec.ofNat 7 (saturate 1 64 x) }
  | 0x052 => { c with ctl.wadrTmo := x.extractLsb' 0 32 }
  | 0x053 => { c with ctl.wdog := x.extractLsb' 0 32 }
  | 0x054 => { c with ctl.pri := x.extractLsb' 0 2 }
  | n =>
    if n / 16 = 0x10 then
      (if n % 16 = 0 then c else { c with ctl.wmap := c.ctl.wmap.set (n % 16) (x.extractLsb' 0 10) })
    else if n / 16 = 0x11 then { c with ctl.wal := c.ctl.wal.set (n % 16) (x.extractLsb' 0 8) }
    else c

/-- SRD (R159, R36). -/
def slotSrd (te : Bool) (d : SReg) (idx : BitVec 14) (s : State) : SlotOp :=
  let x := s.src.readCtl s.srcDev idx
  SlotOp.mk { planS te [] [d] with illegal := x.isNone, wait := idx == 0x009#14 && s.acquiring } (fun s => s.wS d (x.getD 0#64))

/-- SWR (R33, R159). -/
def slotSwr (te : Bool) (v : SReg) (idx : BitVec 14) (s : State) : SlotOp :=
  SlotOp.mk { planS te [v] [] with
      illegal := ctlAccess idx == .none
      priv := ctlAccess idx == .handler && !s.src.tr.handler }
    (fun s => s.mapCar (fun c => c.writeCtl idx (s.rS v)))

/-! The snapshot (R160 to R163, R325, R326). -/

/-- A slot that only the handler may issue (R77), in one of its two states (R161). -/
def State.planSnap (s : State) (te held : Bool) : Plan :=
  { te := te
    priv := !s.src.tr.handler
    illegal := s.src.tr.handler && (held != s.src.tr.snap.isSome) }

/-- The held snapshot. -/
def State.snapshot (s : State) : Vector Word 128 := s.src.tr.snap.getD (Vector.replicate 128 0#64)

/-- TSR (R160, R326). Its result has latency 1, as R91 lists none for it (notes/assumptions/17.md). -/
def slotTsr (te : Bool) (d : SReg) (idx : BitVec 14) (s : State) : SlotOp :=
  let n := idx.toNat
  SlotOp.mk { s.planSnap te true with
      dsts := [.s d]
      wait := (n == 12 || decide (64 ≤ n ∧ n < 128)) && decide (s.now < s.src.tr.snapReady) }
    (fun s => s.wS d (s.snapshot.toList.getD n 0#64))

/-- The bytes of an image. -/
def imageBytes (x : Vector Word 128) : List Byte := x.toList.flatMap (fun w => bytesLE 8 w.toNat)

/-- SNAPST (R162, R326). The device notes which image a car of this class has stored. -/
def slotSnapst (te : Bool) (a : SReg) (s : State) : SlotOp :=
  let ha := s.rS a
  SlotOp.mk { s.planSnap te true with
      srcs := [.s a]
      cause := s.imageCause ha
      wait := decide (s.now < s.src.tr.snapReady) || s.localWait a (haByte ha) 1024 false }
    (fun s => ((s.watch ha 1024 false true).put ha (.spad (haByte ha)) (imageBytes s.snapshot) 0).mapDev
      (fun d => { d with snaps := (s.car.ident.coreClass, s.snapshot) :: d.snaps }))

/-- A free word (notes/assumptions/7.md). -/
def freeWord (n i : Nat) : Word :=
  BitVec.ofNat 64 (natLE ((List.range 8).map (fun k => Config.anyByte n (8 * i + k))))

/-- Words of an image that only steer the resumption; the others are register contents (R325). -/
def imageControl (i : Nat) : Bool := decide (i < 4 ∨ (18 ≤ i ∧ i ≤ 21))

/-- Two images have the same register contents. -/
def sameContents (x y : Vector Word 128) : Bool := (List.finRange 128).all (fun i => imageControl i.val || x[i] == y[i])

/-- An image as SNAPLD takes it: one whose register contents no SNAPST of the same core class wrote has unspecified ones
(R162). -/
def State.takeImage (s : State) (x : Vector Word 128) : Vector Word 128 :=
  if s.srcDev.snaps.any (fun p => p.1 == s.src.ident.coreClass && sameContents p.2 x) then x
  else Vector.ofFn (fun i => if imageControl i.val then x[i] else freeWord s.fresh i.val)

/-- SNAPLD (R161, R162). Poisoned bytes of the image are taken as they are: an image has no poison marks
(notes/assumptions/63.md). -/
def slotSnapld (te : Bool) (a : SReg) (s : State) : SlotOp :=
  let ha := s.rS a
  SlotOp.mk { s.planSnap te false with srcs := [.s a], cause := s.imageCause ha, wait := s.localWait a (haByte ha) 1024 true }
    (fun s =>
      let l := s.fetchBytes (.spad (haByte ha)) 1024
      let x := toImage ((List.range 128).map (fun i => BitVec.ofNat 64 (natLE ((l.bytes.drop (8 * i)).take 8))))
      let y := s.takeImage x
      (((s.watch ha 1024 true false).afterFetch (.spad (haByte ha)) 1024).mapCar (fun c =>
        { c with tr := { c.tr with snap := some y, masked := true, snapReady := s.now } })).tick)

/-- SNAPR (R161): the snapshot is released and traps are unmasked. -/
def slotSnapr (te : Bool) (s : State) : SlotOp :=
  SlotOp.mk (s.planSnap te true) (fun s => s.mapCar (fun c => { c with tr := { c.tr with snap := none, masked := false } }))

/-- RFT (R163, R326). It stands alone in its bundle, and its bundle ends before the image is applied. -/
def slotRft (te : Bool) (s : State) : SlotOp :=
  SlotOp.mk (s.planSnap te true) (fun s => s.closeBundle.mapCar (fun c => c.leave s.snapshot s.now))

/-! The meanings: a slot issues, or its bundle waits or traps (R88). -/

/-- XLT. -/
def execXlt (te : Bool) (h : Fin 64) (a : SReg) (md : BitVec 2) (s : State) : Result := (slotXlt te h a md s).run s

/-- HINV. -/
def execHinv (te : Bool) (h : Fin 64) (s : State) : Result := (slotHinv te h s).run s

/-- HRD. -/
def execHrd (te : Bool) (d : SReg) (h : Fin 64) (s : State) : Result := (slotHrd te d h s).run s

/-- SRD. -/
def execSrd (te : Bool) (d : SReg) (idx : BitVec 14) (s : State) : Result := (slotSrd te d idx s).run s

/-- SWR. -/
def execSwr (te : Bool) (v : SReg) (idx : BitVec 14) (s : State) : Result := (slotSwr te v idx s).run s

/-- TSR. -/
def execTsr (te : Bool) (d : SReg) (idx : BitVec 14) (s : State) : Result := (slotTsr te d idx s).run s

/-- SNAPST. -/
def execSnapst (te : Bool) (a : SReg) (s : State) : Result := (slotSnapst te a s).run s

/-- SNAPLD. -/
def execSnapld (te : Bool) (a : SReg) (s : State) : Result := (slotSnapld te a s).run s

/-- SNAPR. -/
def execSnapr (te : Bool) (s : State) : Result := (slotSnapr te s).run s

/-- RFT. -/
def execRft (te : Bool) (s : State) : Result := (slotRft te s).run s

end Sys2Proof.Machine
end

