-- ==== Sys2Proof/Machine/Collect.lean ====
section
/-!
DEFINITION. What a collective and a lossy transfer write, and how they end (spec 09 R239, R251 to R254; 16 R411 to R424).
-/
namespace Sys2Proof.Machine

/-! The k-th collective of a group (R251). -/

/-- The collective of a copy number. -/
def Device.collOf (d : Device) (k : Copy) : Option Coll :=
  d.fab.colls.find? (fun x => x.group == k.wd.group && x.k == k.key)

/-- A part agrees with the first contribution in instruction, count, type and class (R251). -/
def Coll.agrees (x : Coll) (p : Contribution) : Bool :=
  match x.parts.head? with
  | some f => p.op == f.op && p.count == f.count && p.type == f.type && p.lossy == f.lossy
  | none => true

/-- Some member disagrees. -/
def Coll.discord (x : Coll) : Bool :=
  !x.parts.all x.agrees || (match x.parts.head? with
    | some f => x.notices.any (fun n => n.2.1 != f.count || n.2.2 != f.lossy)
    | none => false)

/-- Every rank has given its part, or been cut off. -/
def Coll.complete (x : Coll) (ranks : Nat) : Bool :=
  (List.range ranks).all (fun r => x.parts.any (fun p => p.rank == r && p.ready))

/-- The part of a rank that is there, and comes to rank `to'` (R423). -/
def Coll.part (x : Coll) (r to' : Nat) : Option Contribution := x.parts.find? (fun p => p.rank == r && p.comesTo to')

/-- The rank of the focused car in the group of a copy. -/
def State.myRank (s : State) (k : Copy) : Nat := (s.dev.rankOf s.car k.wd.group).getD 0

/-- The poisoned bytes of an element of a part. -/
def Contribution.mark (p : Contribution) (m : Nat) : BitVec 8 := ((p.poison.find? (fun e => e.1 == m)).map (·.2)).getD 0#8

/-- The ranks of a collective that run in this package, and have issued it or not. -/
def State.ranksHere (s : State) (x : Coll) : List Nat := s.cars.filterMap (fun c => s.dev.rankOf c x.group)

/-- Forget collectives that no member holds any more, and that every rank of this package has issued (R251). -/
def State.sweepColls (s : State) : State :=
  let used := fun (x : Coll) => s.cars.any (fun c => c.eng.copies.any (fun k => k.op.isColl && k.wd.group == x.group && k.key == x.k))
  s.mapDev (fun d => { d with fab := { d.fab with
    colls := d.fab.colls.filter (fun x => x.parts.all (fun p => p.car.isNone) || used x
      || (s.ranksHere x).any (fun r => !x.parts.any (fun p => p.rank == r))) } })

/-! What is written. -/

/-- A result: elements with their poisoned bytes, the bytes at AUX when it has any, and flags. -/
structure Outcome where
  vals : List (Nat × BitVec 8)
  aux : Option (List Byte)
  flags : Fl

/-- The contributions to a block of 32 elements (R252). -/
def Coll.slices (x : Coll) (b n : Nat) : List (List Nat) :=
  (x.parts.filter Contribution.given).map (fun p => ((p.data.drop (32 * b)).take n).map (fun w => w.toNat))

/-- The poisoned bytes of the result at index `m` of a reduction over the parts that `f` lets in (R455): all, when one of them has one
in its element. -/
def Coll.tainted (x : Coll) (f : Contribution → Bool) (m : Nat) : BitVec 8 :=
  if x.parts.any (fun p => f p && p.mark m != 0#8) then 0xFF#8 else 0#8

/-- A reduction over the parts that are present: each block's result and count (R252, R423). -/
def Coll.reduction (x : Coll) (fmt : Fmt) (t : ETy) (count : Nat) : Outcome :=
  let present := (x.parts.filter Contribution.given).length
  let rs := (List.range ((count + 31) / 32)).map (fun b =>
    let n := Nat.min 32 (count - 32 * b)
    crdxBlock fmt t n (x.slices b n))
  { vals := (rs.flatMap (fun r => r.1)).zipIdx.map (fun v => (v.1, x.tainted Contribution.given v.2))
    aux := some (rs.flatMap (fun _ => bytesLE 2 present))
    flags := rs.foldl (fun f r => f ||| r.2) 0#8 }

/-- Where the element of index `m` of a gather or broadcast comes from (R253): the rank, and its index there. -/
def Copy.origin (k : Copy) (m : Nat) : Nat × Nat :=
  match k.op with
  | .cagt => (m / k.ws.count, m % k.ws.count)
  | _ => (k.wd.root, m)

/-- The element that a gather or broadcast brings to index `m` at rank `to'`; none from a rank that is absent (R253). -/
def Coll.moved (x : Coll) (k : Copy) (to' m : Nat) : Option Nat :=
  (x.part (k.origin m).1 to').map (fun p => (p.data.getD (k.origin m).2 0#64).toNat)

/-- That element and its poisoned bytes; zeros from a rank that is absent (R253, R455). -/
def Coll.carried (x : Coll) (k : Copy) (to' m : Nat) : Nat × BitVec 8 :=
  ((x.moved k to' m).getD 0, ((x.part (k.origin m).1 to').map (fun p => p.mark (k.origin m).2)).getD 0#8)

/-- A mask with a bit for each 256-byte block of the destination whose elements all satisfy `f` (R239). -/
def Copy.blockMask (k : Copy) (f : Nat → Bool) : List Bool :=
  (List.range k.wd.blocks).map (fun b =>
    (List.range (256 / k.wd.esz)).all (fun i =>
      let m := b * (256 / k.wd.esz) + i
      decide (k.wd.count ≤ m) || f m))

/-- A gather or broadcast at rank `to'`. -/
def Coll.motion (x : Coll) (k : Copy) (to' : Nat) : Outcome :=
  let got := k.blockMask (fun m => (x.moved k to' m).isSome)
  { vals := (List.range k.wd.count).map (fun m => if got.getD (m * k.wd.esz / 256) false then x.carried k to' m else (0, 0#8))
    aux := if k.lossy then some (maskBytes got) else none
    flags := 0#8 }

/-- Write elements from index `m` on; the first that faults and its address. -/
def State.putVals (s : State) (k : Copy) : Nat → List (Nat × BitVec 8) → State × Option (Nat × Word)
  | _, [] => (s, none)
  | m, x :: xs =>
    let r := s.putElem k m ((bytesLE k.wd.esz x.1).zipIdx.map (fun b => (b.1, x.2.getLsbD b.2)))
    if r.2 then r.1.putVals k (m + 1) xs else (r.1, some (m, k.wd.elem m))

/-- A collective writes its result at one rank and posts its flag (R252, R253). -/
def State.writeOutcome (s : State) (k : Copy) (o : Outcome) : State :=
  let r := s.putVals k 0 o.vals
  match r.2 with
  | some (m, va) => r.1.faultCopy k (k.rowOf m) va
  | none =>
    let s := r.1.mapCar (fun c => c.setFlags o.flags)
    match (if k.wd.auxen then o.aux else none) with
    | none => s.endCopy k
    | some bs =>
      let w := s.putAux k bs
      match w.2 with
      | none => w.1.endCopy k
      | some va => w.1.faultCopy k k.rows va

/-- COPY_FAULT of a collective for a reason that has no address: TADDR is free (R242, R251). -/
def State.collFault (s : State) (k : Copy) : State := (s.faultCopy k 0 (freeWord s.fresh 0)).tick

/-- What disagreement makes of a collective at one rank (R251): COPY_FAULT at a member that disagrees with the first contribution,
an unspecified result at every other; none when all agree. -/
def State.disagrees (s : State) (k : Copy) (x : Coll) : Option State :=
  let mine := x.parts.filter (fun p => p.car == some s.car.ref)
  if !mine.all x.agrees then some (s.collFault k)
  else if x.discord then some (((s.smear k 0 (k.rows + 1)).smearAux k).endCopy k)
  else none

/-- A collective whose members all have given their parts ends at one rank. -/
def State.finishColl (s : State) (k : Copy) (x : Coll) : State :=
  (s.disagrees k x).getD <|
  if !k.lossy && x.parts.any (fun p => !p.present) then s.collFault k
  else match k.op with
    | .crdx => s.writeOutcome k (x.reduction (fmtOf s.car.regs.fmt) ((ETy.ofCode k.wd.type).getD .f32) k.wd.count)
    | _ => s.writeOutcome k (x.motion k (s.myRank k))

/-! Lossy transfers (R411 to R413). -/

/-- The record of a lossy transfer. -/
def Device.lossyOf (d : Device) (c : CarRef) (n : Nat) : Option Lossy := d.fab.lossy.find? (fun x => x.car == c && x.num == n)

/-- Change the record of a lossy transfer. -/
def Device.setLossy (d : Device) (y : Lossy) : Device :=
  { d with fab := { d.fab with lossy := d.fab.lossy.map (fun x => if x.car == y.car && x.num == y.num then y else x) } }

/-- Forget a lossy transfer. -/
def Device.dropLossy (d : Device) (c : CarRef) (n : Nat) : Device :=
  { d with fab := { d.fab with lossy := d.fab.lossy.filter (fun x => !(x.car == c && x.num == n)) } }

/-- The bytes of block `b` have been sent: a collective's come from ranks that have given their part. -/
def State.blockSent (s : State) (k : Copy) (b : Nat) : Bool :=
  k.op == .ccpy || (match s.dev.collOf k with
    | some x => (List.range (k.blockElems b).2).all (fun i => (x.moved k (s.myRank k) ((k.blockElems b).1 + i)).isSome)
    | none => false)

/-- Block `b` arrives intact: a copy moves its elements, a collective writes those that its ranks gave. -/
def State.blockArrives (s : State) (k : Copy) (b : Nat) : State × Option (Nat × Word) :=
  let e := k.blockElems b
  if k.op = .ccpy then s.moveElems k e.2 e.1
  else match s.dev.collOf k with
    | none => (s, none)
    | some x => s.putVals k e.1 ((List.range e.2).map (fun i => x.carried k (s.myRank k) (e.1 + i)))

/-- The blocks that have not arrived are written as zeros (R412), until a fault: the element and its address (R240). -/
def State.zeroBlocks (s : State) (k : Copy) : List Nat → State × Option (Nat × Word)
  | [] => (s, none)
  | b :: bs =>
    let r := s.putVals k (k.blockElems b).1 (List.replicate (k.blockElems b).2 (0, 0#8))
    match r.2 with
    | some x => (r.1, some x)
    | none => r.1.zeroBlocks k bs

/-- The blocks of a transfer that have not arrived. -/
def Lossy.missing (x : Lossy) : List Nat := (List.range x.blocks).filter (fun b => !x.arrived.contains b)

/-- The deadline of a transfer whose end marker came at a cycle (R412). -/
def Copy.deadline (k : Copy) (marker : Nat) : Nat := marker + k.lslack.toNat * Config.usCycles

/-- The arrival mask of a transfer (R412, R413). -/
def Lossy.mask (x : Lossy) : List Bool := (List.range x.blocks).map (fun b => x.arrived.contains b)

/-- The mask, then the flag of a lossy transfer (R239, R412). Its record stays until the mask is written. -/
def State.endLossy (s : State) (k : Copy) (x : Lossy) : State :=
  let fin := fun (s : State) => (s.mapDev (fun d => d.dropLossy x.car x.num)).endCopy k
  if k.wd.auxen then
    let w := s.putAux k (maskBytes x.mask)
    match w.2 with
    | none => fin w.1
    | some va => w.1.faultCopy k k.rows va
  else fin s

end Sys2Proof.Machine
end

