-- ==== Sys2Proof/Machine/Consists.lean ====
section
/-!
DEFINITION. What the cars of a consist share: the fields of their service record (spec 14 R359), releases to flags and
barriers (09 R258 to R260), waits, and requests for pre-emption (12 R331, 14 R372).
-/
namespace Sys2Proof.Machine

/-! The service record (R359). -/

/-- Word `i` of a record. -/
def recWord (r : List Word) (i : Nat) : Word := r.getD i 0#64

/-- Fields of a record. -/
def recImage (r : List Word) : BitVec 32 := (recWord r 0).extractLsb' 0 32
def recWaitq (r : List Word) : BitVec 16 := (recWord r 0).extractLsb' 32 16
def recNcars (r : List Word) : Nat := ((recWord r 1).extractLsb' 0 9).toNat
def recClasses (r : List Word) : BitVec 3 := (recWord r 1).extractLsb' 9 3
def recNslots (r : List Word) : Nat := ((recWord r 1).extractLsb' 12 5).toNat
def recPri (r : List Word) : BitVec 2 := (recWord r 1).extractLsb' 17 2
def recSpec (r : List Word) : Bool := (recWord r 1).getLsbD 19
def recBg (r : List Word) : Bool := (recWord r 1).getLsbD 20
def recInd (r : List Word) : Bool := (recWord r 1).getLsbD 21
def recWaits (r : List Word) : Bool := (recWord r 1).getLsbD 22
def recMsixEn (r : List Word) : Bool := (recWord r 1).getLsbD 23
def recNhandles (r : List Word) : Nat := ((recWord r 1).extractLsb' 24 5).toNat
def recTtset (r : List Word) : BitVec 8 := (recWord r 1).extractLsb' 32 8
def recMsix (r : List Word) : BitVec 11 := (recWord r 1).extractLsb' 40 11
def recCount (r : List Word) : Word := recWord r 2
def recArgblk (r : List Word) : Word := recWord r 3
def recHlist (r : List Word) : Word := recWord r 4
def recCompAddr (r : List Word) : Word := recWord r 13
def recCompValue (r : List Word) : Word := recWord r 14
def recSeq (r : List Word) : BitVec 32 := (recWord r 15).extractLsb' 0 32

/-- The service of a car. -/
def State.serviceOf (s : State) (c : Car) : Option Service :=
  match s.dev.specOf c with
  | some x => some x.svc
  | none => s.dev.sig.services.find? (fun v => v.q == c.ident.serviceId.extractLsb' 32 16 && v.seq == c.ident.serviceId.extractLsb' 0 32)

/-! Fellow cars. -/

/-- Two cars belong to one consist. -/
def Car.fellow (c x : Car) : Bool :=
  x.ident.serviceId == c.ident.serviceId && x.ident.consistId == c.ident.consistId && x.place.spec == c.place.spec
    && x.life != .idle

/-- Change the fellow car of a CARID, unless it has finished (R259). -/
def State.mapFellow (s : State) (me : Car) (carId : BitVec 9) (f : Car → Car) : State :=
  s.mapCars (fun x => if me.fellow x && x.ident.carId == carId && x.life != .finished then f x else x)

/-! Releases (R259, R260, R293, R295). -/

/-- A car sends a release after the accesses of its earlier bundles. -/
def State.release (s : State) (x : Sent) : State :=
  s.mapCar (fun c => { c with eng := { c.eng with
    releases := c.eng.releases ++ [⟨x, s.src.eng.nextId, s.srcDev.fab.nextId, s.now⟩] } })

/-- The accesses of a car numbered below `cid` and `rid` have performed (R236, R293). -/
def State.performed (s : State) (c : Car) (cid rid : Nat) : Bool :=
  c.eng.posted.all (fun p => decide (cid ≤ p.id)) && c.eng.queue.all (fun x => decide (cid ≤ x.id))
    && c.flight.all (fun f => f.due.isSome || decide (cid ≤ f.id))
    && s.dev.fab.remote.all (fun q => q.car != c.ref || decide (rid ≤ q.id))

/-- Cycles that a release takes at least: 20 ns to another die (R312). -/
def State.lag (s : State) (c : Car) (x : Sent) : Nat :=
  let far := fun (y : Car) => dieOf y.ident.coreId != dieOf c.ident.coreId
  match x with
  | .flag car _ _ => if s.cars.any (fun y => c.fellow y && y.ident.carId == car && far y) then 40 else 1
  | .arrival _ => if s.cars.any (fun y => c.fellow y && far y) then 40 else 1

/-- Everything before a release has performed, accesses and engine operations of earlier bundles (R295), and its time is over. -/
def State.released (s : State) (c : Car) (r : Release) : Bool :=
  decide (r.issued + s.lag c r.sent ≤ s.now) && s.performed c r.cid r.rid && !c.enginesOut r.cid

/-- A car arrives at a barrier of its consist (R260). -/
def State.arrive (s : State) (me : Car) (b : Fin 8) : State :=
  match s.consistOf me with
  | none => s
  | some x => s.mapConsist x (fun y => { y with
      arrived := y.arrived.set b.val (if y.arrived[b].contains me.ident.carId.toNat then y.arrived[b]
        else me.ident.carId.toNat :: y.arrived[b]) b.isLt })

/-- A release reaches its flag or barrier. -/
def State.deliver (s : State) (me : Car) (x : Sent) : State :=
  match x with
  | .flag car f n => s.mapFellow me car (fun c => c.post f n)
  | .arrival b => s.arrive me b

/-- The releases of the focused car that have performed reach their flags and barriers, in issue order. -/
def State.deliverMine (s : State) : State :=
  let me := s.car
  let go := me.eng.releases.filter (s.released me)
  go.foldl (fun s r => s.deliver me r.sent)
    (s.mapCar (fun c => { c with eng := { c.eng with releases := c.eng.releases.filter (fun r => !s.released me r) } }))

/-- Every car of a consist has arrived at a barrier or finished (R260). -/
def State.barrierFull (s : State) (x : Consist) (b : Fin 8) : Bool :=
  !x.arrived[b].isEmpty && (s.cars.filter x.holds).all (fun c => c.life == .finished || x.arrived[b].contains c.ident.carId.toNat)
    && decide (((s.cars.filter x.holds).length) = x.image.consist)

/-- The cars that wait at a barrier proceed (R258, R260). -/
def State.barrierOpen (s : State) (x : Consist) (b : Fin 8) : State :=
  let out := x.arrived[b]
  (s.mapConsist x (fun y => { y with arrived := y.arrived.set b.val [] b.isLt })).mapCars (fun c =>
    if x.holds c && out.contains c.ident.carId.toNat then
      { c with
        wait := c.wait.filter (fun w => match w with
          | .ybar k _ => k != b
          | _ => true)
        ready := Nat.max c.ready (s.now + 1) }
    else c)

/-! Waits (R150, R258, R260). -/

/-- A car still stands at a barrier: its arrival is on its way, or counted and not yet released. -/
def State.atBarrier (s : State) (c : Car) (b : Fin 8) : Bool :=
  c.eng.releases.any (fun r => r.sent == .arrival b) ||
    (match s.consistOf c with
     | some x => x.arrived[b].contains c.ident.carId.toNat
     | none => false)

/-- Is a wait of the focused car over? WADR and a park end by events of their own. -/
def State.waitOver (s : State) (w : Wait) : Bool :=
  match w with
  | .ywait f n _ => decide (n.toNat ≤ s.car.regs.f[f].toNat)
  | .ybar b _ => !s.atBarrier s.car b
  | .drain writes => !(if writes then s.writesOut s.car else s.accessesOut s.car)
  | .wadr .. => false
  | .park => false

/-- Take the count of a satisfied YWAIT (R28). -/
def Car.takeCount (c : Car) (f : FlagIx) (n : BitVec 16) : Car :=
  { c with regs := { c.regs with f := c.regs.f.set f.val (c.regs.f[f] - n) f.isLt } }

/-- A wait of the focused car ends in this cycle (R258). -/
def State.endWait (s : State) (w : Wait) : State :=
  s.mapCar (fun c =>
    let c := match w with
      | .ywait f n _ => c.takeCount f n
      | _ => c
    { c with
      wait := c.wait.erase w
      ready := Nat.max c.ready (s.now + 1) })

/-! Pre-emption requests (R331, R372, R373). -/

/-- Bytes of the save area that parked and stopped consists take. -/
def Device.saveUsed (d : Device) : Nat :=
  (d.sig.consists.filter (fun x => x.saved.isSome)).foldl (fun n x => n + x.image.consist * Config.saveBytes) 0

/-- The save area has room for the forced-stop image of a consist (R372). -/
def Device.saveRoom (d : Device) (x : Consist) : Bool :=
  decide (0 < d.sig.regs.saveLen.toNat ∧ d.saveUsed + x.image.consist * Config.saveBytes ≤ d.sig.regs.saveLen.toNat)

/-- The Signal box asks a consist to give way (R331): a WADR that waits ends with sd := 1, and PRDL begins to run. Without
room for its image DEV_STAT bit 2 is set and nothing is asked (R372). -/
def State.requestPreempt (s : State) (x : Consist) : State :=
  if x.preempt.isSome then s
  else if !s.dev.saveRoom x then
    s.mapDev (fun d => { d with sig := { d.sig with regs := { d.sig.regs with devStat := d.sig.regs.devStat ||| 4#8 } } })
  else
    let due := s.now + s.dev.sig.regs.prdl.toNat * Config.usCycles
    (s.mapConsist x (fun y => { y with preempt := some due })).mapCars (fun c =>
      if x.holds c then { (if c.tr.masked then c else c.endWadr) with preempt := some due } else c)

end Sys2Proof.Machine
end

