-- ==== Sys2Proof/Machine/Yslot.lean ====
section
/-!
DEFINITION. The Y slots (spec 09 R255 to R266): FMT, latches, waybills, banks, flags, barriers, the loop engine, parking.
-/
namespace Sys2Proof.Machine

/-- YNOP (R83). -/
def slotYnop (te : Bool) (_s : State) : SlotOp := SlotOp.mk { te := te } id

/-! FMT, edge scale latches, waybills, VBANK (R256, R257, R93). -/

/-- Lowest bit of the FMT field of a YFMT selector (R31, R83). -/
def yfmtLow (f : Nat) : Nat :=
  match f with
  | 0 => 0 | 1 => 4 | 2 => 8 | 3 => 10 | 4 => 11 | 5 => 14 | _ => 18

/-- FMT with one field replaced. -/
def putField (x : BitVec 20) (lo width : Nat) (imm : Byte) : BitVec 20 :=
  let m := BitVec.ofNat 20 ((2 ^ width - 1) * 2 ^ lo)
  (x &&& ~~~m) ||| ((imm.setWidth 20 <<< lo) &&& m)

/-- YFMT (R256, R94): the new value is formed from the value most recently written. -/
def slotYfmt (te : Bool) (field : Ix16) (imm : Byte) (s : State) : SlotOp :=
  SlotOp.mk { te := te, illegal := !wfYfmt field imm } (fun s' =>
    s'.mapCar (fun c => c.lateFmt (putField s.src.fmtLatest (yfmtLow field.val) (yfmtWidth field.val) imm)))

/-- YFMTS (R256). -/
def slotYfmts (te : Bool) (a : SReg) (s : State) : SlotOp :=
  SlotOp.mk (planS te [a] []) (fun s' => s'.mapCar (fun c => c.lateFmt ((s.rS a).extractLsb' 0 20)))

/-- A write that is due after its delay (R93). -/
def Car.later (c : Car) (l : Late) : Car := { c with late := c.late ++ [⟨0, l⟩] }

/-- YSCL (R256). -/
def slotYscl (te : Bool) (g : Ix16) (imm : Byte) (_s : State) : SlotOp :=
  SlotOp.mk { te := te } (fun s' => s'.mapCar (fun c => c.later (.latches (1#16 <<< g.val) (Vector.replicate 16 imm))))

/-- YSCLS (R30). -/
def slotYscls (te : Bool) (a b : SReg) (s : State) : SlotOp :=
  SlotOp.mk (planS te [a, b] []) (fun s' => s'.mapCar (fun c => c.later (.latches (BitVec.allOnes 16)
    (Vector.ofFn (fun n => if n.val < 8 then (s.rS a).extractLsb' (8 * n.val) 8 else (s.rS b).extractLsb' (8 * (n.val - 8)) 8)))))

/-- YWB (R257). -/
def slotYwb (te : Bool) (w word : Ix16) (b : SReg) (s : State) : SlotOp :=
  SlotOp.mk { planS te [b] [] with illegal := !decide (word.val < 8) } (fun s' =>
    s'.mapCar (fun c => c.later (.waybill w (1#8 <<< word.val) (Vector.replicate 8 (s.rS b)))))

/-- YLDW (R257): the 64 bytes are read at issue. -/
def slotYldw (te : Bool) (w : Ix16) (a : SReg) (s : State) : SlotOp :=
  let ha := s.rS a
  SlotOp.mk { planS te [a] [] with cause := s.spad64Cause ha, wait := s.localWait a (haByte ha) 64 true } (fun s' =>
    let l := s'.fetchBytes (.spad (haByte ha)) 64
    (s'.afterFetch (.spad (haByte ha)) 64).mapCar (fun c => c.later (.waybill w (BitVec.allOnes 8)
      (Vector.ofFn (fun i => BitVec.ofNat 64 (natLE ((l.bytes.drop (8 * i.val)).take 8)))))))

/-- YSTW (R257): the register as R93 shows it. -/
def slotYstw (te : Bool) (w : Ix16) (a : SReg) (s : State) : SlotOp :=
  let ha := s.rS a
  SlotOp.mk { planS te [a] [] with cause := s.spad64Cause ha, wait := s.localWait a (haByte ha) 64 false } (fun s' =>
    s'.put ha (.spad (haByte ha)) ((s.waybill w).toList.flatMap (fun x => bytesLE 8 x.toNat)) 0)

/-- YBNK (R256): seen from the next bundle on. -/
def slotYbnk (te : Bool) (ba bb : BitVec 4) (_s : State) : SlotOp :=
  SlotOp.mk { te := te } (fun s' => s'.mapCar (fun c => { c with ctl := { c.ctl with vbank := bb ++ ba } }))

/-! Flags and barriers (R258 to R260, R266). -/

/-- YWAIT (R258, R28): satisfied in its cycle, where the posts of the cycle still come before it, or the car waits. -/
def slotYwait (te : Bool) (f : FlagIx) (n : BitVec 16) (_s : State) : SlotOp :=
  SlotOp.mk { te := te } (fun s' =>
    if n.toNat ≤ s'.car.regs.f[f].toNat then s'.mapCar (fun c => { c.takeCount f n with took := some (f, n) })
    else s'.mapCar (fun c => { c with wait := c.wait ++ [.ywait f n s'.now] }))

/-- YPOST (R259). -/
def slotYpost (te : Bool) (f : FlagIx) (n : BitVec 16) (s : State) : SlotOp :=
  SlotOp.mk { te := te } (fun s' => s'.release (.flag s.src.ident.carId f n.toNat))

/-- YPOSTC (R259). -/
def slotYpostc (te : Bool) (car : BitVec 9) (f : FlagIx) (n : BitVec 16) (s : State) : SlotOp :=
  SlotOp.mk { te := te, illegal := decide (s.src.ident.ncars.toNat ≤ car.toNat) } (fun s' => s'.release (.flag car f n.toNat))

/-- YBAR (R260). -/
def slotYbar (te : Bool) (b : Fin 8) (_s : State) : SlotOp :=
  SlotOp.mk { te := te } (fun s' =>
    (s'.release (.arrival b)).mapCar (fun c => { c with wait := c.wait ++ [.ybar b s'.now] }))

/-- YFLR (R266). -/
def slotYflr (te : Bool) (d : SReg) (f : FlagIx) (s : State) : SlotOp :=
  SlotOp.mk (planS te [] [d]) (fun s' => s'.wS d (s.src.regs.f[f].setWidth 64))

/-- YFLW (R266, R84). -/
def slotYflw (te : Bool) (f : FlagIx) (a : SReg) (s : State) : SlotOp :=
  SlotOp.mk { planS te [a] [] with priv := !s.src.tr.handler } (fun s' =>
    s'.mapCar (fun c => { c with regs := { c.regs with f := c.regs.f.set f.val ((s.rS a).extractLsb' 0 16) f.isLt } }))

/-! The loop engine, parking, priority (R261 to R265). -/

/-- LEND of a YLOOP as its register holds it (R33, R261). -/
def loopEnd (pc : BitVec 17) (lend : BitVec 15) : BitVec 17 := pc + (lend.setWidth 17 <<< 2)

/-- YLOOP (R261): with LCNT = 0 the bundle after LEND is next, unless a taken branch wins (R144). -/
def slotYloop (te : Bool) (a : SReg) (lend : BitVec 15) (pro epi : BitVec 14) (s : State) : SlotOp :=
  let pc := s.src.pc
  let last := loopEnd pc lend
  let start := pc.toNat + 4 * s.src.imem.slotsFrom pc.toNat 8
  SlotOp.mk { planS te [a] [] with illegal := decide (last.toNat < start) } (fun s' =>
    let old := s.src.loop
    let cnt := if old.resumed then old.cnt else (s.rS a).extractLsb' 0 32
    s'.mapCar (fun c =>
      { c with
        loop := { start := BitVec.ofNat 17 start, lend := last, lpro := pc + (pro.signExtend 17 <<< 2)
                  lepi := pc + (epi.signExtend 17 <<< 2), cnt := cnt, idx := if old.resumed then old.idx else 0#32 }
        pc := if cnt = 0#32 && !c.taken then c.after last else c.pc
        seqPc := if cnt = 0#32 && !c.taken then c.endOf last else c.seqPc
        taken := true }))

/-- YPARK (R264): with a request pending the car stands here. -/
def slotYpark (te : Bool) (s : State) : SlotOp :=
  let known := match s.consistOf s.src with
    | some x => x.image.parks.any (fun p => p.1 == s.src.pc)
    | none => false
  SlotOp.mk { te := te, illegal := !known } (fun s' =>
    if s.src.preempt.isSome && !s.src.tr.handler then s'.mapCar (fun c => { c with wait := c.wait ++ [.park] }) else s')

/-- YPRI (R265): never above the record's class; every car of the consist and the scheduler see it at once. What the Signal box makes
of it is the event PREEMPT_REQUEST (R284, R372). -/
def slotYpri (te : Bool) (k : BitVec 2) (_s : State) : SlotOp :=
  SlotOp.mk { te := te } (fun s' =>
    let top := match s'.serviceOf s'.car with
      | some v => recPri v.record
      | none => 0#2
    let k := if k < top then top else k
    let me := s'.car
    match s'.consistOf me with
    | none => s'.mapCar (fun c => { c with ctl := { c.ctl with pri := k } })
    | some x =>
      (s'.mapConsist x (fun y => { y with pri := k })).mapCars (fun c =>
        if x.holds c then { c with ctl := { c.ctl with pri := k } } else c))

/-! The meanings: a slot issues, or its bundle waits or traps (R88). -/

/-- YNOP. -/
def execYnop (te : Bool) (s : State) : Result := (slotYnop te s).run s

/-- YFMT. -/
def execYfmt (te : Bool) (field : Ix16) (imm : Byte) (s : State) : Result := (slotYfmt te field imm s).run s

/-- YFMTS. -/
def execYfmts (te : Bool) (a : SReg) (s : State) : Result := (slotYfmts te a s).run s

/-- YSCL. -/
def execYscl (te : Bool) (g : Ix16) (imm : Byte) (s : State) : Result := (slotYscl te g imm s).run s

/-- YSCLS. -/
def execYscls (te : Bool) (a b : SReg) (s : State) : Result := (slotYscls te a b s).run s

/-- YWB. -/
def execYwb (te : Bool) (w word : Ix16) (b : SReg) (s : State) : Result := (slotYwb te w word b s).run s

/-- YLDW. -/
def execYldw (te : Bool) (w : Ix16) (a : SReg) (s : State) : Result := (slotYldw te w a s).run s

/-- YSTW. -/
def execYstw (te : Bool) (w : Ix16) (a : SReg) (s : State) : Result := (slotYstw te w a s).run s

/-- YBNK. -/
def execYbnk (te : Bool) (ba bb : BitVec 4) (s : State) : Result := (slotYbnk te ba bb s).run s

/-- YWAIT. -/
def execYwait (te : Bool) (f : FlagIx) (n : BitVec 16) (s : State) : Result := (slotYwait te f n s).run s

/-- YPOST. -/
def execYpost (te : Bool) (f : FlagIx) (n : BitVec 16) (s : State) : Result := (slotYpost te f n s).run s

/-- YPOSTC. -/
def execYpostc (te : Bool) (car : BitVec 9) (f : FlagIx) (n : BitVec 16) (s : State) : Result := (slotYpostc te car f n s).run s

/-- YBAR. -/
def execYbar (te : Bool) (b : Fin 8) (s : State) : Result := (slotYbar te b s).run s

/-- YFLR. -/
def execYflr (te : Bool) (d : SReg) (f : FlagIx) (s : State) : Result := (slotYflr te d f s).run s

/-- YFLW. -/
def execYflw (te : Bool) (f : FlagIx) (a : SReg) (s : State) : Result := (slotYflw te f a s).run s

/-- YLOOP. -/
def execYloop (te : Bool) (a : SReg) (lend : BitVec 15) (pro epi : BitVec 14) (s : State) : Result := (slotYloop te a lend pro epi s).run s

/-- YPARK. -/
def execYpark (te : Bool) (s : State) : Result := (slotYpark te s).run s

/-- YPRI. -/
def execYpri (te : Bool) (k : BitVec 2) (s : State) : Result := (slotYpri te k s).run s

end Sys2Proof.Machine
end

