-- ==== Sys2Proof/Machine/EventsCar.lean ====
section
/-!
DEFINITION. What happens to a car between its bundles: traps, producers, posted writes, waits, walks, engines, streams,
the stash and the debugger (spec 04, 06, 09, 11, 12, as 95 lists the steps). An event that does not apply leaves the
state as it is.
-/
namespace Sys2Proof.Machine

/-- A car that is resident and has not finished. -/
def Car.live (c : Car) : Bool :=
  match c.life with
  | .running => true
  | .halted => true
  | _ => false

/-- An event at a car. -/
def State.at (s : State) (c : CarRef) (f : State → State) : Result := .next (s.atCar c f)

/-! TAKE_TRAP (R322, R329). -/

/-- The trap of an asynchronous cause (R328). -/
def Async.trap (a : Async) (pc : BitVec 17) : Trap :=
  match a with
  | .preemptForced => { cause := .preemptForced, taddr := pc.setWidth 64 }
  | .copyFault n va => { cause := .copyFault, taddr := va, imprecise := true, copy := n }
  | .uncorrectable ha => { cause := .uncorrectable, taddr := ha, imprecise := true }
  | .watch a none => { cause := .watch, taddr := a }
  | .watch a (some n) => { cause := .watch, taddr := a, imprecise := true, copy := n }
  | .step a => { cause := .step, taddr := a.setWidth 64 }

/-- Does a car stand at its park point? -/
def Car.parkedHere (c : Car) : Bool := c.wait.any (fun w => w == .park)

/-- Does a walk hold the car (R152)? -/
def Car.walking (c : Car) : Bool :=
  match c.eng.walk with
  | .running .. => true
  | _ => false

/-- Change the debug block of the focused car's core. -/
def State.mapDebug (s : State) (f : Debug → Debug) : State :=
  s.mapDev (fun d => { d with debug := Tab.set d.debug s.car.ident.coreId.toNat (f (Tab.get {} d.debug s.car.ident.coreId.toNat)) })

/-- HALTED and STEPPING of DBG_STAT (R335). -/
def Debug.halted (b : Debug) : Bool := b.stat.getLsbD 0
def Debug.stepping (b : Debug) : Bool := b.stat.getLsbD 8

/-- May the focused car take an asynchronous cause at its boundary? -/
def State.mayTrap (s : State) : Bool :=
  s.car.life == .running && !s.car.tr.masked && !s.car.walking && !s.car.parkedHere && !s.car.tr.pending.isEmpty
    && (!(s.debugOf s.car).halted || (s.debugOf s.car).stepping)

/-- Take the first pending cause (R329): the resume point is the next bundle. -/
def State.trapNow (s : State) : State :=
  if s.mayTrap then
    match s.car.tr.pending with
    | [] => s
    | a :: rest =>
      let s := s.mapCar (fun c => { c with tr := { c.tr with pending := rest } })
      s.takeTrap (a.trap s.car.pc) s.car.pc s.car.tr.lastPc s.car.lastIssue
  else s

/-- TAKE_TRAP (R322). -/
def execTakeTrap (c : CarRef) (s : State) : Result := s.at c State.trapNow

/-! FILL_DESTINATION, DELAYED_WRITE_LANDS, STORE_ERROR_RESPONSE (R90, R93, R134). -/

/-- A request to another package, or an atomic in the store queue, still owes this producer its value (R291, R414). -/
def State.owed (s : State) (f : Flight) : Bool :=
  s.dev.fab.remote.any (fun r => r.car == s.car.ref && r.flight == some f.id) || s.car.eng.queue.any (fun x => x.flight == some f.id)

/-- A producer's result lands: a fixed latency has run out, or its data have come. -/
def State.land (s : State) (n : Nat) (err : Bool) : State :=
  match s.car.flight.find? (fun f => f.id == n) with
  | none => s
  | some f =>
    match f.due with
    | some t => if t ≤ s.now then s.mapCar (fun c => c.fill f) else s
    | none =>
      if s.owed f then s
      else s.mapCar (fun c => c.fill (if err then f.failed else f))

/-- FILL_DESTINATION (R90, R134). -/
def execFillDestination (c : CarRef) (n : Nat) (err : Bool) (s : State) : Result := s.at c (fun s => s.land n err)

/-- DELAYED_WRITE_LANDS (R93): writes whose steps are counted out become visible. -/
def execDelayedWriteLands (c : CarRef) (s : State) : Result := s.at c (fun s => s.mapCar Car.landDue)

/-- STORE_ERROR_RESPONSE (R134). -/
def execStoreErrorResponse (c : CarRef) (ha : Word) (s : State) : Result :=
  s.at c (fun s => if s.car.live then s.storeError ha else s)

/-! POSTED_WRITE_ARRIVAL (R309 to R311). -/

/-- No earlier posted write through the same window to the same 256-byte block is still on its way (R310). -/
def Car.inOrder (c : Car) (p : Posted) : Bool :=
  c.eng.posted.all (fun q => decide (p.id ≤ q.id) || q.window != p.window
    || q.bytes.all (fun b => p.bytes.all (fun e => b.1 / 256 != e.1 / 256)))

/-- Bytes arrive in a car's scratchpad. A running copy may or may not still see the old ones (R237). -/
def Car.receive (c : Car) (n : Nat) (bs : List (Nat × Byte)) : Car :=
  { c with
    spad := c.spad.writeAll bs
    eng := { c.eng with copies := c.eng.copies.map (fun k =>
      if Config.progress (n + k.num) % 2 = 1 then { k with spad := k.spad.writeAll bs } else k) } }

/-- A car is the one that held the core of a posted write when it issued (R26): of that consist since that release. -/
def State.stillThere (s : State) (p : Posted) (x : Car) : Bool :=
  match s.consistOf x with
  | some y => y.idx == p.consist && y.release == p.since
  | none => true

/-- The circuit that a posted write rides (R405). -/
def State.postedCircuit (s : State) (p : Posted) : Option TtCircuit := (s.peerCar s.car p.core).bind s.circuitTo

/-- May a posted write arrive? It was sent, R310 lets it, and on a circuit its latency has run out, in the order of entering (R405). -/
def State.mayArrive (s : State) (p : Posted) : Bool :=
  p.sent && s.car.inOrder p && ((s.postedCircuit p).isNone ||
    (decide (TtCircuit.after (s.postedCircuit p) p.issued ≤ s.now)
      && s.car.eng.posted.all (fun q => !q.sent || decide (p.id ≤ q.id) || dieOf q.core != dieOf p.core)))

/-- A posted write performs in the scratchpad of the core it names; nothing is written when its car has gone (R26). -/
def State.postedLands (s : State) (n : Nat) : State :=
  match s.car.eng.posted.find? (fun p => p.id == n) with
  | none => s
  | some p =>
    if !s.mayArrive p then s
    else
      let s' := match (s.peerCar s.car p.core).filter (s.stillThere p) with
        | none => s
        | some x => s.mapAt x.ref (fun y => y.receive s.fresh p.bytes)
      (s'.mapCar (fun c => { c with eng := { c.eng with posted := c.eng.posted.filter (fun q => q.id != n) } })).tick

/-- POSTED_WRITE_ARRIVAL (R309). -/
def execPostedWriteArrival (c : CarRef) (n : Nat) (s : State) : Result := s.at c (fun s => s.postedLands n)

/-! FLAG_POST, WAIT_SATISFIED, BARRIER_RELEASE, WATCHDOG_EXPIRY (R27, R28, R258, R260, R287). -/

/-- FLAG_POST (R27): the posts of one cycle are one sum. A post to a car that has finished is discarded (R259). -/
def execFlagPost (c : CarRef) (f : FlagIx) (n : List (BitVec 16)) (s : State) : Result :=
  s.at c (fun s => if s.car.life == .finished || s.car.life == .idle then s
    else s.mapCar (fun k => k.post f (n.foldl (fun m x => m + x.toNat) 0)))

/-- WAIT_SATISFIED (R258, R28). -/
def execWaitSatisfied (c : CarRef) (s : State) : Result :=
  s.at c (fun s => match s.car.wait.find? (fun w => s.waitOver w) with
    | some w => s.endWait w
    | none => s)

/-- BARRIER_RELEASE (R260). -/
def execBarrierRelease (c : CarRef) (b : Fin 8) (s : State) : Result :=
  s.at c (fun s => match s.consistOf s.car with
    | some x => if s.barrierFull x b then s.barrierOpen x b else s
    | none => s)

/-- A YWAIT or YBAR of the car has waited WDOG µs, one that a trap has put into a snapshot among them (R287). -/
def Car.watchdog (c : Car) (now : Nat) : Bool :=
  let out := fun (t : Nat) => decide (t + c.ctl.wdog.toNat * Config.usCycles ≤ now)
  c.ctl.wdog != 0#32 && c.live && (c.tr.waits.any (fun w => out w.2) || c.wait.any (fun w => match w with
    | .ywait _ _ t => out t
    | .ybar _ t => out t
    | _ => false))

/-- WATCHDOG_EXPIRY (R287, R288). -/
def execWatchdogExpiry (c : CarRef) (s : State) : Result :=
  s.at c (fun s => if s.car.watchdog s.now then s.abortMine 0x06#8 else s)

/-! XLT_WALK_END (R152, R153, R318). -/

/-- A translation enters the XLT TLB of the focused car's core (R319). -/
def State.addTlb (s : State) (w : Walked) : State :=
  s.mapCars (fun c => if c.ident.coreId = s.car.ident.coreId then
    { c with eng := { c.eng with tlb := tlbAdd 256 c.eng.tlb w } } else c)

/-- A walk ends: its translation enters the TLB, or the XLT will fault. -/
def State.walkEnds (s : State) : State :=
  match s.car.eng.walk with
  | .running va _ =>
    (match s.dev.walk va.toNat with
     | some w => (s.addTlb w).mapCar (fun c => { c with eng := { c.eng with walk := .none } })
     | none => (s.mapDev (fun d => d.countWalk va.toNat)).mapCar (fun c => { c with eng := { c.eng with walk := .faulted va } }))
  | _ => s

/-- XLT_WALK_END (R152). -/
def execXltWalkEnd (c : CarRef) (s : State) : Result := s.at c State.walkEnds

/-! Copies and collectives (R236 to R240, R337). -/

/-- The engines of a halted car pause (R335); they run in a step (R337). -/
def State.enginesPaused (s : State) : Bool :=
  (s.debugOf s.car).halted && !(s.debugOf s.car).stepping && (s.debugOf s.car).ctl.getLsbD 11

/-- The release of a copy may perform: accesses and engine operations of earlier bundles have (R236, R295). -/
def State.relReady (s : State) (k : Copy) : Bool := !k.rel || (s.performed s.car k.cid k.rid && !s.car.enginesOut k.cid)

/-- A copy may read: its acquire is done, and nothing of an earlier bundle holds it (R236, R292, R296). -/
def State.acqReady (s : State) (k : Copy) : Bool := !s.engineHeld k && (!k.acq || s.performed s.car k.cid k.rid)

/-- May the copy of a number end now? A lossless collective needs every rank, a lossy one ends by its blocks or its deadline (R254), a
lossy copy with an off-package hop by its close (R412), and acq and rel wait for what the car did earlier (R236). What rides a circuit
has its latency before it (R405). -/
def State.copyMayEnd (s : State) (k : Copy) : Bool :=
  k.state == .running && !s.enginesPaused && s.acqReady k && s.relReady k &&
    (if k.void then true
     else if k.op.isColl then
      (match s.dev.collOf k with
       | some x => x.complete (s.dev.group k.wd.group).ranks && !k.lossy
       | none => false)
     else k.op == .ccpy && (s.dev.lossyOf s.car.ref k.num).isNone && decide (TtCircuit.after (s.copyCircuit k) k.issued ≤ s.now))

/-- An empty copy or collective ends: its flag, at once. A member whose count of 0 disagrees with the first contribution receives
COPY_FAULT then (R251). -/
def State.endVoid (s : State) (k : Copy) : State :=
  let wrong := k.op.isColl && (match s.dev.collOf k with
    | some x => !(x.parts.filter (fun p => p.car == some s.car.ref)).all x.agrees
    | none => false)
  if wrong then
    ((if k.iter = 0 then s.mapCar (fun c => c.post k.flag 1) else s).faultCopy k 1 (freeWord s.fresh 0)).tick
  else (s.endCopy k).sweepColls

/-- COPY_COMPLETE (R236); a copy of an aborted car ends as by CABT (R288). -/
def State.copyEnds (s : State) (n : Nat) : State :=
  match s.car.copyOf n with
  | none => s
  | some k =>
    if s.car.life == .idle then s.cutCopy k k.reported
    else if !s.copyMayEnd k then s
    else if k.void then s.endVoid k
    else if k.op.isColl then
      (match s.dev.collOf k with
       | some x => (s.finishColl k x).sweepColls
       | none => s)
    else s.finishCopy k

/-- COPY_COMPLETE (R236). -/
def execCopyComplete (c : CarRef) (n : Nat) (s : State) : Result := s.at c (fun s => s.copyEnds n)

/-- A running copy meets a fault in iteration `i` (R240): the iterations before it have performed. -/
def State.copyFaults (s : State) (n i : Nat) (va : Word) : State :=
  match s.car.copyOf n with
  | none => s
  | some k =>
    if k.state != .running || s.enginesPaused || k.void || !(k.op == .ccpy || k.op.isColl) then s
    else if k.op.isColl then s.faultCopy k i va
    else
      let i := Nat.min (Nat.max i k.iter) (k.rows - 1)
      let r := s.moveElems k ((i - k.iter) * k.wd.rowLen) (k.iter * k.wd.rowLen)
      match r.2 with
      | some (m, a) => r.1.faultCopy k (k.rowOf m) a
      | none => r.1.faultCopy k i va

/-- COPY_FAULT_DETECTED (R240). -/
def execCopyFaultDetected (c : CarRef) (n i : Nat) (va : Word) (s : State) : Result := s.at c (fun s => s.copyFaults n i va)

/-! Line streams (R246, R247, R97, R49). -/

/-- CCYC of a coupling domain (R95). -/
def State.domainCcyc (s : State) (d : Nat) : Option Nat :=
  (s.cars.find? (fun c => c.place.domain == some d)).map (fun c => c.ctl.ccyc.toNat)

/-- The bytes of beat `i` of a stream; none for a frame that has not come (R247). Beat 0 of a frame stream brings the
header before its 256 bytes. -/
def State.beatBytes (s : State) (x : Stream) (i : Nat) : Option (List Byte) :=
  match x.group with
  | none => (s.find x.car).map (fun c => s.dev.streamBytes (s.dev.drained c) x.ws (32 + 256 * i) 256)
  | some g => (s.dev.fab.frames.find? (fun f => f.group == g && f.beat == i)).map (fun f => f.bytes)

/-- Change a stream. -/
def State.mapStream (s : State) (id : Nat) (f : Stream → Stream) : State :=
  s.mapDev (fun d => { d with streams := d.streams.map (fun x => if x.id == id then f x else x) })

/-- May a stream read its next beat: CCYC has come to B + i − 20 (R246)? -/
def State.mayRead (s : State) (x : Stream) : Bool :=
  decide (x.nextRead < x.beats) &&
    (match s.domainCcyc x.domain with
     | some c => decide (x.start + x.nextRead ≤ c + Config.lambdaSteps)
     | none => false)

/-- The step in which a stream was to read its next beat is over: its line stream came too late for it (R97). -/
def State.lateRead (s : State) (x : Stream) : Bool :=
  decide (x.nextRead < x.beats) &&
    (match s.domainCcyc x.domain with
     | some c => decide (x.start + x.nextRead < c + Config.lambdaSteps)
     | none => false)

/-- A stream reads its next beat. -/
def State.readBeat (s : State) (id : Nat) : State :=
  match s.dev.streams.find? (fun x => x.id == id) with
    | none => s
    | some x =>
      if !s.mayRead x then s
      else
        let i := x.nextRead
        let got := s.beatBytes x i
        s.mapStream id (fun y => { y with
          nextRead := i + 1
          header := match got with
            | some bs => if x.group.isSome && i == 0 then bs.take 32 else y.header
            | none => y.header
          read := match got with
            | some bs => y.read ++ [(i, if x.group.isSome && i == 0 then (bs.drop 32).take 256 else bs)]
            | none => y.read })

/-- The streams of a domain read what they are to read in the step that is about to issue: the stores of its bundles come after
(R246, R247). -/
def State.readStreams (s : State) (dom : Option Nat) : State :=
  (s.dev.streams.filter (fun x => some x.domain == dom)).foldl (fun s x => s.readBeat x.id) s

/-- LINE_STREAM_READ (R246). -/
def execLineStreamRead (id : Nat) (s : State) : Result := .next (s.readBeat id)

/-- May a stream drive its next beat: CCYC has come to B + i? -/
def State.mayDrive (s : State) (x : Stream) : Bool :=
  decide (x.nextBeat < x.nextRead) &&
    (match s.domainCcyc x.domain with
     | some c => decide (x.start + x.nextBeat ≤ c)
     | none => false)

/-- End a stream: its copy number is free (R246). -/
def State.endStream (s : State) (x : Stream) : State :=
  (s.mapDev (fun d => { d with streams := d.streams.filter (fun y => y.id != x.id) }.sweepFrames)).mapAt x.car (fun c =>
    { c with eng := { c.eng with copies := c.eng.copies.filter (fun k => !(k.key == x.id && (k.op == .cls || k.op == .clsf))) } })

/-- PORTS of an entry (R419). -/
def GroupEntry.ports (e : GroupEntry) : List Nat :=
  (List.range 128).filter (fun p => if p < 64 then e.words[4].getLsbD p else e.words[5].getLsbD (p - 64))

/-- A multicast packet is replicated to the ports of its group's entry and, with LOCAL, toward this package's subscribers (R421). -/
def Device.replicate (d : Device) (g : Nat) (payload : List Byte) (beat : Option Nat) : Device :=
  let e := d.group g
  if e.kind ≠ 2#2 then d
  else
    let d := d.emit ((e.ports.filter (fun p => (d.fab.port p).up)).map (fun p => Output.packet p payload))
    if e.words[0].getLsbD 61 then { d with fab := { d.fab with packets := d.fab.packets ++ [⟨g, payload, beat⟩] } } else d

/-- What a line stream sends to the groups that its line feeds (R425): a beat's bytes; with the first go the header before them and
the global time after them (notes/assumptions/60.md). -/
def Device.frameOf (d : Device) (x : Stream) (die i : Nat) (bytes : List Byte) : List Byte :=
  if i = 0 then x.header ++ bytes ++ bytesLE 8 (d.tstamp die).toNat else bytes

/-- The multicast groups that a line's frames feed (R425). -/
def Device.fedBy (d : Device) (l : Ix16) : List Nat :=
  d.fab.groups.filterMap (fun g =>
    if g.2.kind = 2#2 ∧ g.2.words[0].getLsbD 60 ∧ (g.2.words[0].extractLsb' 56 4).toNat = l.val then some g.1 else none)

/-- LINE_STREAM_BEAT (R246, R97, R49, R425): a beat that its CLS came too late for, or whose frame has not come, is zeros with LINE,
and sets no SAT (notes/assumptions/60.md). -/
def execLineStreamBeat (id : Nat) (s : State) : Result :=
  .next (match s.dev.streams.find? (fun x => x.id == id) with
    | none => s
    | some x =>
      if !s.mayDrive x then s
      else
        let i := x.nextBeat
        let at' := x.start + i
        let got := (x.read.find? (fun r => r.1 == i)).map (·.2)
        let late := (x.group.isNone && decide (x.start + i < x.issuedAt + 28)) || got.isNone
        let bytes := if late then List.replicate 256 0#8 else got.getD []
        let past := match s.domainCcyc x.domain with
          | some c => decide (at' < c)
          | none => true
        let s := if past then s else s.mapDev (fun d => d.driveLine ⟨x.domain, x.line, at', 1, x.header, bytes, late, 0⟩)
        let s := if !past && !late && bytes.any (fun b => b == 0x80#8) then s.mapAt x.car (fun c => c.setFlags SAT) else s
        let die := ((s.find x.car).map (fun c => dieOf c.ident.coreId)).getD 0
        let s := if past || x.group.isSome then s else s.mapDev (fun d =>
          (d.fedBy x.line).foldl (fun d g => d.replicate g (d.frameOf x die i bytes) (some i)) d)
        let s := s.mapStream id (fun y => { y with nextBeat := i + 1, read := y.read.filter (fun r => r.1 != i) })
        if i + 1 = x.beats then s.endStream x else s)

/-! WADR (R156 to R158). -/

/-- End the focused car's WADR with a value. -/
def State.endWadrWith (s : State) (w : Wait) (x : Word) : State :=
  match w with
  | .wadr _ p _ _ _ =>
    s.mapCar (fun c =>
      let c := { c with
        wait := c.wait.erase w
        ready := Nat.max c.ready (s.now + 1) }
      if h : p < 72 then (if p = 0 then c else c.putS ⟨p, h⟩ x) else c)
  | _ => s

/-- The word that a WADR watches now differs from sb. -/
def State.wadrDiffers (s : State) (w : Wait) : Bool :=
  match w with
  | .wadr ha _ b _ _ => s.wadrWord ha != b
  | _ => false

/-- A WADR's time has run out. -/
def Wait.timedOut (w : Wait) (now : Nat) : Bool :=
  match w with
  | .wadr _ _ _ _ (some t) => decide (t ≤ now)
  | _ => false

/-- WADR_REREAD (R157): sd := 0 when the word differs. -/
def execWadrReread (c : CarRef) (s : State) : Result :=
  s.at c (fun s => match s.car.wait.find? (fun w => s.wadrDiffers w) with
    | some w => s.endWadrWith w 0#64
    | none => s)

/-- WADR_TIMEOUT (R157): sd := 1. -/
def execWadrTimeout (c : CarRef) (s : State) : Result :=
  s.at c (fun s => match s.car.wait.find? (fun w => w.timedOut s.now) with
    | some w => s.endWadrWith w 1#64
    | none => s)

/-! Range operations, unmappings, the stash (R248, R250, R306 to R308). -/

/-- A range operation on the lines that a die's cache holds of a range (R248). -/
def Device.rangeOp (d : Device) (kind : RangeKind) (die lo hi : Nat) : Device :=
  (d.cache.filter (fun l => l.die == die && decide (lo ≤ l.line ∧ l.line < hi))).foldl (fun d l =>
    match kind with
    | .wb => d.flushLine die l.line
    | .inv => d.dropLine die l.line
    | .wbinv => (d.flushLine die l.line).dropLine die l.line) d

/-- A range operation has not started: a store of the car is on its way to the die cache, or an acquire has not performed (R248,
R296). -/
def State.rangeHeld (s : State) (r : RangeOp) : Bool :=
  s.car.eng.queue.any (fun x => decide (x.id < r.id)) || s.acquiresBefore r.cid r.rid

/-- RANGE_OP_COMPLETE (R248). -/
def execRangeOpComplete (c : CarRef) (n : Nat) (s : State) : Result :=
  s.at c (fun s => match s.car.eng.ranges.find? (fun r => r.id == n) with
    | none => s
    | some r =>
      if s.enginesPaused || s.rangeHeld r then s
      else (s.mapDev (fun d => d.rangeOp r.kind (dieOf s.car.ident.coreId) r.lo r.hi)).mapCar (fun k =>
        { k with eng := { k.eng with ranges := k.eng.ranges.filter (fun x => x.id != n) } }.post r.flag 1))

/-- CUNM_COMPLETE (R250). -/
def execCunmComplete (c : CarRef) (n : Nat) (s : State) : Result :=
  s.at c (fun s => match s.car.eng.unmaps.find? (fun u => u.num == n) with
    | none => s
    | some u =>
      if s.enginesPaused || u.faulted then s
      else
        let m : Stash := { num := u.num, base := 0, len := u.ws.stashLen, ws := u.ws }
        match s.dev.tileFault m false true (u.bytes.map (·.1)) with
        | some va => (s.stashFault n va).mapCar (fun k => { k with eng := { k.eng with unmaps := k.eng.unmaps.map (fun x =>
            if x.num == n then { x with faulted := true } else x) } })
        | none =>
          let s := u.bytes.foldl (fun s b =>
            match s.dev.stashTarget m b.1 with
            | some t => s.tileWrite t b.2 (u.poison.contains b.1)
            | none => s) s
          s.mapCar (fun k => { k with eng := { k.eng with unmaps := k.eng.unmaps.filter (fun x => x.num != n) } }.post u.flag 1))

/-- STASH_FILL (R306, R135, R337): the granule of a scratchpad address is filled, unless the engines are paused. -/
def execStashFill (c : CarRef) (addr : Nat) (s : State) : Result :=
  s.at c (fun s => match s.car.stashOf addr with
    | some m => if s.enginesPaused then s else s.fillOne m ((addr - m.base) / 64)
    | none => s)

/-- STASH_WRITEBACK (R307): the dirty bytes of a granule go to the tile; one that cannot be written faults (R318). -/
def execStashWriteback (c : CarRef) (addr : Nat) (s : State) : Result :=
  s.at c (fun s => match s.car.stashOf addr with
    | some m =>
      let g := (addr - m.base) / 64
      (match s.dev.tileFault m false true (m.dirty.filter (fun p => p / 64 == g)) with
       | some va => s.stashFault m.num va
       | none => s.backGranules m [g])
    | none => s)

/-- STASH_FOREIGN_WRITE (R308): an agent without a stash writes to the tile bytes behind a scratchpad address. -/
def execStashForeignWrite (c : CarRef) (addr : Nat) (bytes : List Byte) (s : State) : Result :=
  s.at c (fun s => match s.car.stashOf addr with
    | some m =>
      (match s.dev.stashTarget m (addr - m.base) with
       | some t => if t.coherent.isSome then s.storeAt none none none t bytes else s
       | none => s)
    | none => s)

/-! Debug (R335 to R338). -/

/-- Change the debug block of a core. -/
def Device.mapDebug (d : Device) (core : Nat) (f : Debug → Debug) : Device :=
  { d with debug := Tab.set d.debug core (f (Tab.get {} d.debug core)) }

/-- Every speculation with a car on a core dooms (R389). -/
def State.doomCore (s : State) (core : Nat) : State :=
  (s.cars.filter (fun c => c.ident.coreId.toNat == core && c.place.spec && c.life != .idle)).foldl (fun s c =>
    s.doomSpec (c.ident.serviceId.extractLsb' 32 16) (c.ident.serviceId.extractLsb' 0 32)) s

/-- DBG_CTL.HALT takes a value. -/
def Debug.setHalt (b : Debug) (v : Bool) : Debug :=
  if v then { b with ctl := b.ctl ||| 1#13 }
  else { b.letGo with ctl := b.ctl &&& ~~~(1#13) }

/-- DBG_HALT (R336, R389): request and hold a halt, or run. -/
def execDbgHalt (core : Fin 336) (v : Bool) (s : State) : Result :=
  let s := s.mapDev (fun d => d.mapDebug core.val (fun b => b.setHalt v))
  .next (if v then s.doomCore core.val else s)

/-- The cores whose cars one step moves together: the domain of the core's car (R336). -/
def State.stepCores (s : State) (core : Nat) : List Nat :=
  match s.cars.find? (fun c => c.ident.coreId.toNat == core && c.life == .running && (s.primaryOf c).isNone) with
  | some c =>
    (match c.place.domain with
     | some d => (s.cars.filter (fun x => x.place.domain == some d)).map (fun x => x.ident.coreId.toNat)
     | none => [core])
  | none => [core]

/-- DBG_STEP (R336): ignored unless the car is halted and no step is in progress. -/
def execDbgStep (core : Fin 336) (s : State) : Result :=
  let b := Tab.get {} s.dev.debug core.val
  .next (if b.halted && !b.stepping then
      s.mapDev (fun d => (s.stepCores core.val).foldl (fun d c => d.mapDebug c (fun b =>
        { b with stat := b.stat ||| 0x100#10, stepped := false })) d)
    else s)

/-- A debug halt is asked for, by DBG_CTL.HALT or by a breakpoint or watchpoint that matched (R336, R338). -/
def Debug.wanted (b : Debug) : Bool := b.ctl.getLsbD 0 || b.hit

/-- May the focused car halt for the debugger at this boundary (R329, R336)? -/
def State.mayHalt (s : State) : Bool :=
  s.car.life == .running && !s.car.tr.masked && !s.car.walking && (s.debugOf s.car).wanted && !(s.debugOf s.car).halted

/-- The car stands still for the debugger: DBG_PC is its next bundle, and a WADR that waits ends (R158). A speculation dooms
instead (R389). -/
def State.haltNow (s : State) : State :=
  if s.mayHalt && s.car.place.spec then s.doom
  else if s.mayHalt then
    let pc := s.car.pc
    (s.mapDebug (fun b => { b with stat := b.stat ||| 1#10, pc := pc, hit := false })).mapCar Car.endWadr
  else s

/-- HALT_TAKEN (R336). -/
def execHaltTaken (c : CarRef) (s : State) : Result := s.at c State.haltNow

end Sys2Proof.Machine
end

