-- ==== Sys2Proof/Machine/EventsOptics.lean ====
section
/-!
DEFINITION. What drifts over hours: windows and calibrations of arrays, row remaps, lasers, lanes and time (spec 19, 05
R115 to R119, 08 R225). An event whose condition does not hold leaves the state as it is.
-/
namespace Sys2Proof.Machine

/-- Change the focused car's array. -/
def State.mapArr (s : State) (f : Arr → Arr) : State := s.mapCar (fun c => { c with arr := f c.arr })

/-! Reports and windows (R115, R119). -/

/-- REPORT_READABLE (R119): the reports whose 16 cycles are over are readable. -/
def execReportReadable (c : CarRef) (s : State) : Result :=
  s.at c (fun s => s.mapArr (fun a => { a with
    queue := a.queue.map (fun r => if r.ready ≤ s.now then { r with ready := 0 } else r) }))

/-- WINDOW_VOID (R115). -/
def execWindowVoid (c : CarRef) (g : Ix16) (s : State) : Result :=
  s.at c (fun s => s.mapArr (fun a => { a with
    groups := a.groups.set g.val { a.groups[g] with
      win := a.groups[g].win.map (fun w => { w with void := w.lost s.now }) } g.isLt }))

/-! Calibration (R225, R438 to R440). -/

/-- CALPER, STALEX, FORCEX of CAL_CTL (R438). -/
def House.calper (h : House) : Nat := (h.calctl.extractLsb' 0 10).toNat
def House.stalex (h : House) : Nat := (h.calctl.extractLsb' 16 4).toNat
def House.forcex (h : House) : Nat := (h.calctl.extractLsb' 20 4).toNat

/-- The age of an array's calibration has reached `k` periods (R439). -/
def Device.aged (d : Device) (a : Arr) (k : Nat) : Bool := decide (a.cal.zero + k * d.house.calper * Config.msCycles ≤ d.now)

/-- May a requested or forced calibration start (R225)? -/
def Arr.calStarts (a : Arr) : Bool := (a.cal.requested || a.cal.forced) && a.cal.ends.isNone && !a.anyOpen

/-- CALIBRATION_START (R225, R440). -/
def execCalibrationStart (c : CarRef) (s : State) : Result :=
  s.at c (fun s => if s.car.arr.calStarts then
      s.mapArr (fun a => { a with cal := { a.cal with ends := some (s.now + Config.calCycles) } }) else s)

/-- A calibration has come to its end: one that runs, or a periodic one with all its idle cycles (R225, R439). -/
def Arr.calEnds (a : Arr) (now : Nat) : Bool :=
  (match a.cal.ends with
   | some t => decide (t ≤ now)
   | none => false) ||
  (match a.cal.periodic with
   | some n => decide (Config.calCycles ≤ n) && !a.anyOpen
   | none => false)

/-- CALIBRATION_COMPLETE (R225, R439, R440): the age starts at 0, SKEW and CALB clear, and no request is left. -/
def execCalibrationComplete (c : CarRef) (s : State) : Result :=
  s.at c (fun s => if s.car.arr.calEnds s.now then s.mapArr (fun a => { a with cal := { zero := s.now } }) else s)

/-- CAL_PERIODIC_DUE (R439). -/
def execCalPeriodicDue (c : CarRef) (s : State) : Result :=
  s.at c (fun s => if s.dev.aged s.car.arr 1 && s.car.arr.cal.periodic.isNone then
      s.mapArr (fun a => { a with cal := { a.cal with periodic := some 0 } }) else s)

/-- CAL_STALE (R440). -/
def execCalStale (c : CarRef) (s : State) : Result :=
  s.at c (fun s => if s.dev.aged s.car.arr s.dev.house.stalex then
      s.mapArr (fun a => { a with cal := { a.cal with skew := true } }) else s)

/-- CAL_FORCED (R440). -/
def execCalForced (c : CarRef) (s : State) : Result :=
  s.at c (fun s => if s.dev.aged s.car.arr s.dev.house.forcex then
      s.mapArr (fun a => { a with cal := { a.cal with forced := true } }) else s)

/-- A cycle passes over an array: a periodic calibration progresses when no window is open and no MBT came (R439), beside one that runs
by request. -/
def Arr.idleCycle (a : Arr) (now : Nat) : Arr :=
  match a.cal.periodic with
  | none => a
  | some n => if a.anyOpen || a.beat == some now then a
      else { a with cal := { a.cal with periodic := some (n + 1) } }

/-! Row remaps (R117, R441, R442). -/

/-- Change a line. -/
def Device.mapLine (d : Device) (l : Ix16) (f : LineState → LineState) : Device :=
  { d with lines := d.lines.set l.val (f d.lines[l]) l.isLt }

/-- Free spares of a line. -/
def LineState.spares (x : LineState) : Nat := (if x.sp0 = 0x3F#6 then 1 else 0) + (if x.sp1 = 0x3F#6 then 1 else 0)

/-- The comb line that carries a row (R441). -/
def LineState.comb (x : LineState) (row : Nat) : Nat :=
  if x.sp0.toNat = row then 32 else if x.sp1.toNat = row then 33 else row

/-- Power of the comb line that carries a row. -/
def Device.rowPower (d : Device) (l : Ix16) (row : Nat) : Int :=
  (((d.lasers.toList.getD l.val {}).power).getD ((d.lines[l]).comb row) 0#16).toInt

/-- PWARN of a module (R443). -/
def Laser.pwarn (m : Laser) : Int := (m.ctl.extractLsb' 16 16).toInt

/-- The row is below the remap level and neither failed, pending nor in remap (R441). -/
def Device.rowWeak (d : Device) (l : Ix16) (row : Nat) : Bool :=
  let x := d.lines[l]
  decide (d.rowPower l row < (d.lasers.toList.getD l.val {}).pwarn) && !x.failed.contains row && !x.pend.contains row
    && (match x.running with
        | some r => r.1 != row
        | none => true)

/-- REMAP_PENDING (R441): with no free spare and none to come the row is failed. -/
def execRemapPending (l : Ix16) (row : Fin 32) (s : State) : Result :=
  .next (if s.dev.rowWeak l row.val then
      s.mapDev (fun d => d.mapLine l (fun x => if x.spares = 0 then { x with failed := insertNat row.val x.failed }
        else { x with pend := insertNat row.val x.pend })) else s)

/-- An array that receives a line has an open window (R117). -/
def State.lineOpen (s : State) (l : Ix16) : Bool := s.cars.any (fun c => c.arr.line == some l && c.arr.anyOpen)

/-- May a remap of the line start (R117, R441)? -/
def State.remapStarts (s : State) (l : Ix16) : Bool :=
  (s.dev.lines[l]).running.isNone && !(s.dev.lines[l]).pend.isEmpty && !s.lineOpen l

/-- A row moves to a free spare, or fails (R441). -/
def LineState.move (x : LineState) (row ends : Nat) : LineState :=
  let x := { x with pend := x.pend.filter (· != row) }
  if x.sp0 = 0x3F#6 then
    { x with
      sp0 := BitVec.ofNat 6 row
      sp1 := if x.sp1.toNat = row then 0x3F#6 else x.sp1
      running := some (row, ends) }
  else if x.sp1 = 0x3F#6 then
    { x with
      sp1 := BitVec.ofNat 6 row
      sp0 := if x.sp0.toNat = row then 0x3F#6 else x.sp0
      running := some (row, ends) }
  else { x with failed := insertNat row x.failed }

/-- REMAP_START (R117, R441): pending remaps are served in row order. -/
def execRemapStart (l : Ix16) (s : State) : Result :=
  .next (if s.remapStarts l then
      match (s.dev.lines[l]).pend with
      | row :: _ => s.mapDev (fun d => d.mapLine l (fun x => x.move row (s.now + Config.remapCycles)))
      | [] => s
    else s)

/-- The pause of a line's remap is over. -/
def State.remapEnds (s : State) (l : Ix16) : Bool :=
  match (s.dev.lines[l]).running with
  | some x => decide (x.2 ≤ s.now)
  | none => false

/-- REMAP_END (R117, R442): REMAP stands in the next report of every array that receives the line. -/
def execRemapEnd (l : Ix16) (s : State) : Result :=
  .next (if s.remapEnds l then
      (s.mapDev (fun d => d.mapLine l (fun x => { x with
        running := none
        remaps := if x.remaps = 0xFFFF#16 then x.remaps else x.remaps + 1#16 }))).mapCars (fun c =>
          if c.arr.line = some l then { c with arr := { c.arr with remap := true } } else c)
    else s)

/-- A line is DEGRADED (R442, R457): a row is failed, its module is shut, or it came up so. -/
def Device.degraded (d : Device) (l : Ix16) : Bool :=
  (d.lines[l]).broken || (d.lines[l]).cut || !(d.lines[l]).failed.isEmpty || (d.lasers.toList.getD l.val {}).ctl.getLsbD 63

/-! Lasers (R443 to R445). -/

/-- The straight line through readings of hours and bias (R445): its slope, as a numerator and a denominator that is not negative. -/
def trend (xs : List (Nat × Nat)) : Int × Int :=
  let sum := fun (f : Nat × Nat → Int) => (xs.map f).foldl (fun a b => a + b) 0
  let n : Int := xs.length
  let h := sum (fun x => x.1)
  let b := sum (fun x => x.2)
  (n * sum (fun x => x.1 * x.2) - h * b, n * sum (fun x => x.1 * x.1) - h * h)

/-- Hours to end of life (R445), by the readings of the last 1,000 powered hours. -/
def eolEstimate (bias bias0 : BitVec 16) (hours : BitVec 32) (hist : List (Nat × Nat)) : BitVec 32 :=
  let t := trend hist
  if 3 * bias0.toNat ≤ 2 * bias.toNat then 0#32
  else if hours.toNat < 1000 ∨ t.1 ≤ 0 then 0xFFFFFFFF#32
  else BitVec.ofNat 32 (Nat.min 0xFFFFFFFE ((3 * bias0.toNat - 2 * bias.toNat) * t.2.toNat / (2 * t.1.toNat)))

/-- The readings of a module with a new one: the first of each powered hour counts, for 1,000 hours (R445; notes/assumptions/41.md). -/
def noteBias (hist : List (Nat × Nat)) (hours bias : Nat) : List (Nat × Nat) :=
  let old := hist.filter (fun x => decide (hours ≤ x.1 + 1000))
  if old.any (fun x => x.1 == hours) then old else (hours, bias) :: old

/-- Every window open on a line whose laser is out of tolerance will report LASER (R444). -/
def State.markLaser (s : State) (l : Ix16) : State :=
  if s.dev.laserBad l then
    s.mapCars (fun c => if c.arr.line = some l then
      { c with arr := { c.arr with groups := c.arr.groups.map (fun g =>
          { g with win := g.win.map (fun w => { w with laser := true }) }) } } else c)
  else s

/-- A module with new readings, of what it stores (hours and its first bias) too. -/
def Laser.refresh (m : Laser) (bias drift temp : BitVec 16) (power : List (BitVec 16)) (hours : BitVec 32) (bias0 : BitVec 16) : Laser :=
  let hist := noteBias m.hist hours.toNat bias.toNat
  { m with
    bias := bias
    bias0 := bias0
    drift := drift
    temp := temp
    power := (List.range 34).map (fun i => power.getD i (m.power.getD i 0#16))
    hours := hours
    hist := hist
    eol := eolEstimate bias bias0 hours hist }

/-- LASER_REFRESH (R443): the readings are those the module gives. -/
def execLaserRefresh (m : Fin 24) (bias drift temp : BitVec 16) (power : List (BitVec 16)) (hours : BitVec 32) (bias0 : BitVec 16)
    (s : State) : Result :=
  let s := s.mapDev (fun d => { d with lasers := d.lasers.set m.val (d.lasers[m].refresh bias drift temp power hours bias0) m.isLt })
  .next (if h : m.val < 16 then s.markLaser ⟨m.val, h⟩ else s)

/-! Link repair (R409, R410, R446 to R448). -/

/-- Add to a counter of 48 bits, which saturates (R446). -/
def satAdd48 (x : BitVec 48) (n : Nat) : BitVec 48 := BitVec.ofNat 48 (Nat.min (2 ^ 48 - 1) (x.toNat + n))

/-- Corrected symbols and uncorrectable codewords of a lane within the last ms. -/
def Lane.lastMs (x : Lane) (now : Nat) : Nat × Nat :=
  (x.recent.filter (fun e => decide (now < e.1 + Config.msCycles))).foldl (fun a e => (a.1 + e.2.1, a.2 + e.2.2)) (0, 0)

/-- Errors seen by the receiver of a lane (R406, R446). -/
def Lane.errors (x : Lane) (now prefec corr unc : Nat) : Lane :=
  { x with
    prefec := satAdd48 x.prefec prefec
    corrSym := satAdd48 x.corrSym corr
    uncorr := satAdd48 x.uncorr unc
    recent := (now, corr, unc) :: x.recent.filter (fun e => decide (now < e.1 + Config.msCycles)) }

/-- Has a lane reached a threshold within one ms (R447)? -/
def Port.laneBad (x : Port) (now l : Nat) : Bool :=
  let n := (Tab.get {} x.lanes l).lastMs now
  decide (x.csymThr.toNat ≤ n.1) || (x.uncThr != 0#16 && decide (x.uncThr.toNat ≤ n.2))

/-- Lane `l` fails; while a retrain runs, and for a lane that is out of service, nothing happens (R447, R448). -/
def Port.failLane (x : Port) (l : Nat) : Port :=
  if x.retrain.isSome || decide (34 ≤ l) || x.failed.getLsbD l then x
  else { x with failed := x.failed ||| (1#34 <<< l), failing := x.failing ++ [l] }

/-- LANE_FAIL (R447). -/
def execLaneFail (p : Fin 128) (l : Nat) (s : State) : Result :=
  .next (s.mapDev (fun d => d.mapPort p.val (fun x => if x.laneBad d.now l then x.failLane l else x)))

/-- LNK_FORCE (R446, R447): FLANE is written and the lane fails; a spare is ignored. -/
def execLnkForce (p : Fin 128) (l : BitVec 6) (s : State) : Result :=
  .next (s.mapDev (fun d => d.mapPort p.val (fun x =>
    let x := { x with flane := l }
    if l.toNat < 32 then x.failLane l.toNat else x)))

/-- A lane in failure is remapped to a free spare or retired (R447); a spare that carries nothing is only lost. With fewer
than 16 lanes the port is down (R409). -/
def Port.remapLane (x : Port) (l : Nat) : Port :=
  if !x.failing.contains l then x
  else
    let x := { x with failing := x.failing.filter (· != l) }
    if x.free.contains l then { x with free := x.free.filter (· != l) }
    else match x.free with
      | _ :: rest =>
        let k : Lane := Tab.get {} x.lanes l
        { x with free := rest, lanes := Tab.set x.lanes l { k with remap := satAdd48 k.remap 1 } }
      | [] => { x with active := x.active - 1, down := x.down || decide (x.active - 1 < 16) }

/-- A packet to a package goes out at a port. -/
def Fabric.uses (f : Fabric) (p pkg : Nat) (esc : Bool := false) : Bool := (f.egress pkg esc).any (fun e => e.1 == p)

/-- What a port that failed leaves (R410), seen from the fabric before: the requests behind it follow ESC routes from then on, and the
lossy blocks behind it are lost. -/
def Fabric.strand (f before : Fabric) (p : Nat) : Fabric :=
  { f with
    remote := f.remote.map (fun r => { r with esc := r.esc || before.uses p (r.pa.extractLsb' 42 10).toNat r.esc })
    lossy := f.lossy.map (fun x => { x with lost := x.lost ++
      (x.crosses.filter (fun b => before.uses p b.2 && !x.arrived.contains b.1 && !x.lost.contains b.1)).map (·.1) }) }

/-- The packets behind a port that goes down move to the escape channel (R410): the flits of its replay buffer are sent again on their
new routes, in order. -/
def Device.escape (d : Device) (before : Fabric) (p : Nat) : Device :=
  let flits := (before.port p).replay
  let moved := !flits.isEmpty || before.remote.any (fun r => before.uses p (r.pa.extractLsb' 42 10).toNat r.esc)
  let d := { d with fab := d.fab.strand before p }.mapPort p (fun x => { x with replay := [] })
  let d := flits.foldl (fun d f => match d.fab.egress f.pkg true with
    | some (q, _) => d.sendFlits q f.pkg 1
    | none => d) d
  if moved then { d with fab := { d.fab with regs := { d.fab.regs with fabStat := d.fab.regs.fabStat ||| 2#8 } } } else d

/-- LANE_REMAP (R447, R409, R410). -/
def execLaneRemap (p : Fin 128) (l : Nat) (s : State) : Result :=
  .next (s.mapDev (fun d =>
    let before := d.fab
    let d := d.mapPort p.val (fun x => x.remapLane l)
    if (before.port p.val).up && !(d.fab.port p.val).up then d.escape before p.val else d))

/-- LNK_CLR (R446). -/
def execLnkClr (p : Fin 128) (s : State) : Result :=
  .next (s.mapDev (fun d => d.mapPort p.val (fun x => { x with
    lanes := x.lanes.map (fun k => (k.1, ({ recent := k.2.recent } : Lane))) })))

/-- LNK_RETRAIN (R448): the port is down for 1 ms. -/
def execLnkRetrain (p : Fin 128) (s : State) : Result :=
  .next (s.mapDev (fun d =>
    if (d.fab.port p.val).retrain.isSome then d
    else (d.mapPort p.val (fun x => { x with retrain := some (d.now + Config.msCycles) })).escape d.fab p.val))

/-- What a retrain leaves (R448): the lanes that pass fill the 32 active places, then the spares. Errors met while it ran fail no lane. -/
def Port.retrained (x : Port) (pass : BitVec 34) : Port :=
  let ok := (List.range 34).filter (fun l => pass.getLsbD l)
  let active := Nat.min 32 ok.length
  { x with
    retrain := none
    failing := []
    failed := ~~~pass
    active := active
    free := ok.drop 32
    lanes := x.lanes.map (fun l => (l.1, { l.2 with recent := [] }))
    down := decide (active < 16) }

/-- RETRAIN_COMPLETE (R448): `pass` says which lanes pass the test. -/
def execRetrainComplete (p : Fin 128) (pass : BitVec 34) (s : State) : Result :=
  .next (s.mapDev (fun d => d.mapPort p.val (fun x =>
    match x.retrain with
    | some t => if t ≤ d.now then x.retrained pass else x
    | none => x)))

/-! Time (R314, R449). -/

/-- TS_SYNC_LOST (R314, R449). -/
def execTsSyncLost (s : State) : Result :=
  .next (s.mapDev (fun d => if d.house.sync then
    { d with house := { d.house with
        sync := false
        lost := true
        lostCnt := if d.house.lostCnt = 0xFFFF#16 then d.house.lostCnt else d.house.lostCnt + 1#16 } } else d))

/-- TS_RESYNC (R314, R449): the counter is within ±40 ns again; slewing never steps it back. -/
def execTsResync (s : State) : Result :=
  .next (if s.dev.offBy.natAbs ≤ 40 then s.mapDev (fun d => { d with house := { d.house with sync := true } }) else s)

end Sys2Proof.Machine
end

