-- ==== Sys2Proof/Machine/EventsFabric.lean ====
section
/-!
DEFINITION. The fabric: flits, lossy transfers, collectives, requests to other packages, invalidations, migrations, groups
and Timetables (spec 16). An event whose condition does not hold leaves the state as it is.
-/
namespace Sys2Proof.Machine

/-! Flits (R407). -/

/-- How far a sequence number is ahead of the one expected. -/
def Port.ahead (x : Port) (seq : BitVec 12) : Nat := (seq - x.rxNext).toNat

/-- Lane `l` has caused a replay request (R446). -/
def Port.countReplay (x : Port) (l : Nat) : Port :=
  if l < 34 then
    let k : Lane := Tab.get {} x.lanes l
    { x with lanes := Tab.set x.lanes l { k with replay := satAdd48 k.replay 1 } }
  else x

/-- A port asks for a replay from the first flit missing, on account of the lane that spoiled the flit, if one did (R407, R446). -/
def Device.askReplay (d : Device) (p : Nat) (cause : Option Nat) : Device :=
  (d.mapPort p (fun x => { (match cause with
    | some l => x.countReplay l
    | none => x) with awaiting := true })).emit [.replay p (d.fab.port p).rxNext]

/-- FLIT_ARRIVAL (R407): the flit expected is delivered; a flit that is bad, or that an uncorrectable codeword or a failed tag spoils
(R406, R418), and a gap ask for a replay from the first flit missing, once, and again when that flit is bad in its replay; what follows
a gap, and what has been delivered before, is discarded. -/
def execFlitArrival (p : Fin 128) (seq : BitVec 12) (good : Bool) (s : State) : Result :=
  .next (s.mapDev (fun d =>
    let x := d.fab.port p.val
    if !x.up then d
    else
      let fine := good && x.spoiled.isEmpty
      let d := d.mapPort p.val (fun x => { x with spoiled := x.spoiled.tail })
      if fine && seq == x.rxNext then d.mapPort p.val (fun x => { x with rxNext := x.rxNext + 1#12, awaiting := false })
      else if fine && decide (2048 ≤ x.ahead seq) then d
      else if x.awaiting && (fine || seq != x.rxNext) then d
      else d.askReplay p.val x.spoiled.head?))

/-- The flits of a replay buffer from one on. -/
def fromFlit (seq : BitVec 12) : List Flit → List Flit
  | [] => []
  | f :: fs => if f.seq = seq then f :: fs else fromFlit seq fs

/-- The flits of a replay buffer after one; all of them when it is not there. -/
def afterFlit (seq : BitVec 12) (fs : List Flit) : List Flit :=
  match fromFlit seq fs with
  | [] => fs
  | _ :: rest => rest

/-- REPLAY_REQUEST (R407): every flit from that one on is sent again, in order. -/
def execReplayRequest (p : Fin 128) (seq : BitVec 12) (s : State) : Result :=
  .next (s.mapDev (fun d => d.emit ((fromFlit seq (d.fab.port p.val).replay).map (fun f => Output.flit p.val f.seq))))

/-- FLIT_ACK (R407): the flits up to the one acknowledged leave the replay buffer. -/
def execFlitAck (p : Fin 128) (seq : BitVec 12) (s : State) : Result :=
  .next (s.mapDev (fun d => d.mapPort p.val (fun x => { x with replay := afterFlit seq x.replay })))

/-! Lossy transfers (R411 to R413, R424). -/

/-- A gather or broadcast in the lossy class. -/
def Copy.lossyMove (k : Copy) : Bool := k.lossy && (k.op == .cagt || k.op == .cbct)

/-- The blocks of a gather or broadcast that come from ranks on other packages, and those packages (R411). -/
def State.collHops (s : State) (k : Copy) : List (Nat × Nat) :=
  k.hopsOf (fun m => ((s.dev.group k.wd.group).pkgOf (k.origin m).1).filter (fun p => p != s.dev.fab.regs.pkgId.toNat))

/-- The transfer of a copy, opened for a collective when its first block or marker comes. -/
def State.lossyOpen (s : State) (k : Copy) : State :=
  if (s.dev.lossyOf s.car.ref k.num).isNone && k.lossyMove then s.openLossy k.num k.wd.blocks (s.collHops k) else s

/-- Blocks of a transfer arrive, until a fault. -/
def State.blocksArrive (s : State) (k : Copy) : List Nat → State × Option (Nat × Word)
  | [] => (s, none)
  | b :: bs =>
    let r := s.blockArrives k b
    match r.2 with
    | some x => (r.1, some x)
    | none => r.1.blocksArrive k bs

/-- LOSSY_BLOCK_ARRIVAL (R412): a block that arrives intact before the close is written. Where it faults, the blocks before it have
arrived too (R240). -/
def execLossyBlockArrival (c : CarRef) (n b : Nat) (s : State) : Result :=
  s.at c (fun s => match s.car.copyOf n with
    | none => s
    | some k =>
      let s := s.lossyOpen k
      match s.dev.lossyOf s.car.ref n with
      | none => s
      | some x =>
        if x.closed || x.arrived.contains b || x.lost.contains b || decide (x.blocks ≤ b) || !s.blockSent k b || k.state != .running
            || k.void || s.enginesPaused || !s.acqReady k then s
        else
          let r := s.blockArrives k b
          match r.2 with
          | none => r.1.mapDev (fun d => d.setLossy { x with arrived := x.arrived ++ [b] })
          | some f =>
            let before := x.missing.filter (fun c => decide (c < b))
            let q := r.1.blocksArrive k before
            let f := q.2.getD f
            (q.1.mapDev (fun d => d.setLossy { x with arrived := x.arrived ++ before })).faultCopy k (k.rowOf f.1) f.2)

/-- A rank owns a block of a reduction (R423). -/
def Copy.owns (k : Copy) (rank : Nat) : Bool := decide (32 * rank < k.wd.count)

/-- An end marker may come to a rank (R423, R424): of the contributions, or of a gather or broadcast, once some rank has given its part
or has issued elsewhere; of the results, once an owner here has closed a block, or one elsewhere has issued. -/
def Coll.markerFor (x : Coll) (k : Copy) (me : Nat) : Bool :=
  let parts := x.parts.any (fun p => p.comesTo me) || !x.notices.isEmpty
  if k.op = .crdx && (!k.owns me || x.markers.any (fun m => m.1 == me)) then
    x.closed.any (fun y => x.blocks.contains (me, y.block)) || x.notices.any (fun n => k.owns n.1)
      || x.parts.any (fun p => p.car.isNone && k.owns p.rank)
  else parts

/-- Note the first end marker of a stage at a rank: at an owner of CRDX the contributions' comes before the results' (R423, R424). -/
def Coll.mark (x : Coll) (k : Copy) (me now : Nat) : Coll :=
  if !x.markerFor k me then x
  else if k.op = .crdx && k.owns me && !x.markers.any (fun m => m.1 == me) then { x with markers := (me, now) :: x.markers }
  else if x.finals.any (fun m => m.1 == me) then x
  else { x with finals := (me, now) :: x.finals }

/-- END_MARKER_ARRIVAL (R411, R412, R423, R424): it carries the block count. It comes after the sender's acquire. -/
def execEndMarkerArrival (c : CarRef) (n : Nat) (s : State) : Result :=
  s.at c (fun s => match s.car.copyOf n with
    | none => s
    | some k =>
      if !k.lossy || k.state != .running || !s.acqReady k then s
      else
        let here := match s.dev.collOf k with
          | some x => x.markerFor k (s.myRank k)
          | none => false
        if k.op.isColl && !here then s
        else
          let s := (s.lossyOpen k).mapDev (fun d => if k.op.isColl then d.mapColl k (fun x => x.mark k (s.myRank k) d.now) else d)
          match s.dev.lossyOf s.car.ref n with
          | none => s
          | some x => if x.marker.isSome then s else s.mapDev (fun d => d.setLossy { x with
              marker := some d.now
              count := some x.blocks }))

/-- Every block has arrived, or LSLACK µs have passed since the end marker and only blocks with an off-package hop are missing (R411,
R412). -/
def Copy.closes (k : Copy) (x : Lossy) (now : Nat) : Bool :=
  x.missing.isEmpty || (x.missing.all (fun b => x.crosses.any (fun e => e.1 == b)) && (match x.marker with
    | some t => decide (k.deadline t ≤ now)
    | none => false))

/-- LOSSY_CLOSE (R412): the blocks that have not arrived are zeros; one that cannot be written faults (R240). -/
def execLossyClose (c : CarRef) (n : Nat) (s : State) : Result :=
  s.at c (fun s => match s.car.copyOf n with
    | none => s
    | some k =>
      match s.dev.lossyOf s.car.ref n with
      | none => s
      | some x =>
        if x.closed || !k.closes x s.now || k.state != .running || k.void || s.enginesPaused then s
        else
          let r := s.zeroBlocks k x.missing
          match r.2 with
          | some f => r.1.faultCopy k (k.rowOf f.1) f.2
          | none => r.1.mapDev (fun d => d.setLossy { x with closed := true }))

/-- COMPLETION_NOTICE (R412, R236): the mask, the release, the flag. -/
def execCompletionNotice (c : CarRef) (n : Nat) (s : State) : Result :=
  s.at c (fun s => match s.car.copyOf n with
    | none => s
    | some k =>
      match s.dev.lossyOf s.car.ref n with
      | none => s
      | some x =>
        if !x.closed || k.op != .ccpy || k.state != .running || s.enginesPaused || !s.relReady k then s
        else s.endLossy k x)

/-! Collectives (R254, R422 to R424). -/

/-- NOTICE_OF_ISSUE (R422, R251): what was held back for that rank goes to it. -/
def execNoticeOfIssue (g : Nat) (k rank count : Nat) (lossy : Bool) (s : State) : Result :=
  .next (s.mapDev (fun d =>
    let f := d.fab
    let f := if f.colls.any (fun x => x.group == g && x.k == k) then f else { f with colls := f.colls ++ [{ group := g, k := k }] }
    let f := { f with colls := f.colls.map (fun (x : Coll) => if x.group == g && x.k == k then
      { x with notices := x.notices.filter (fun n => n.1 != rank) ++ [(rank, count, lossy)] } else x) }
    { d with fab := f }.flushColl g k))

/-- Ranks of this package: those whose part names a car. -/
def Coll.localRanks (x : Coll) : List Nat := x.parts.filterMap (fun p => if p.car.isSome then some p.rank else none)

/-- The elements that rank `r` gives to block `b` at its owner (R423): `came` says from which ranks the block arrived there, with its
elements where this package has not got them. What a rank of this package gives to an owner beside it always arrives. -/
def Coll.given (x : Coll) (here : Nat → Bool) (owner b n : Nat) (came : List (Nat × List Word)) (r : Nat) : Option (List Nat) :=
  match x.part r owner with
  | some p => if (p.car.isSome && here owner) || came.any (fun c => c.1 == r)
      then some (((p.data.drop (32 * b)).take n).map (fun w => w.toNat)) else none
  | none => if here r || x.parts.any (fun p => p.rank == r) then none
      else (came.find? (fun c => c.1 == r)).map (fun c => (c.2.take n).map (fun w => w.toNat))

/-- May the owner close a block that holds `held` contributions (R423)? Lossless it waits for all; lossy, LSLACK after the first end
marker that reached it. An owner on another package goes by its own clock, once it has issued, and holds its own contribution. -/
def State.ownerCloses (s : State) (k : Copy) (x : Coll) (ranks owner held : Nat) (here ownIn : Bool) : Bool :=
  if ranks = 0 then false
  else if here then decide (s.myRank k = owner) && (decide (held = ranks) || (k.lossy && x.markers.any (fun m =>
    m.1 == owner && decide (k.deadline m.2 ≤ s.now))))
  else x.issued.contains owner && ownIn && (k.lossy || decide (held = ranks))

/-- The owner's result and count for a block (R423, R252, R455), and its flags: the ranks that `f` lets in. -/
def Coll.closeBlock (x : Coll) (fmt : Fmt) (t : ETy) (owner b len : Nat) (f : Nat → Option (List Nat)) (ranks : Nat) : Reduced × Fl :=
  let rs := (List.range ranks).filter (fun r => (f r).isSome)
  let got := rs.filterMap f
  let r := crdxBlock fmt t len got
  ({ owner := owner
     block := b
     vals := r.1.map (fun v => BitVec.ofNat 64 v)
     count := got.length
     marks := (List.range len).filter (fun i => x.tainted (fun p => rs.contains p.rank && p.given) (32 * b + i) != 0#8) }, r.2)

/-- CRDX_BLOCK_CLOSE (R423, R252): an owner of this package closes a block, and its one result goes to every rank that has issued; or
the result of an owner elsewhere arrives at this rank. -/
def execCrdxBlockClose (c : CarRef) (n b : Nat) (present : List (Nat × List Word)) (s : State) : Result :=
  s.at c (fun s => match s.car.copyOf n with
    | none => s
    | some k =>
      match s.dev.collOf k with
      | none => s
      | some x =>
        let e := s.dev.group k.wd.group
        let owner := b % e.ranks
        let len := Nat.min 32 (k.wd.count - 32 * b)
        let here := fun (r : Nat) => e.pkgOf r == some s.dev.fab.regs.pkgId.toNat
        let f := x.given here owner b len present
        let held := ((List.range e.ranks).filter (fun r => (f r).isSome)).length
        let me := s.myRank k
        if k.op != .crdx || k.state != .running || decide (k.wd.count ≤ 32 * b) || k.void || s.enginesPaused || !s.acqReady k
            || x.blocks.contains (me, b) then s
        else if x.closed.any (fun y => y.block == b) then
          (if here owner then s else s.mapDev (fun d => d.mapColl k (fun x => { x with blocks := x.blocks ++ [(me, b)] })))
        else if !s.ownerCloses k x e.ranks owner held (here owner) ((f owner).isSome) then s
        else
          let r := x.closeBlock (fmtOf s.car.regs.fmt) ((ETy.ofCode k.wd.type).getD .f32) owner b len f e.ranks
          let to' := if here owner then x.localRanks else [me]
          (s.mapCar (fun c => if here owner then c.setFlags r.2 else c)).mapDev (fun d => (d.mapColl k (fun x => { x with
            closed := x.closed ++ [r.1]
            blocks := x.blocks ++ to'.map (fun q => (q, b)) })).flushColl k.wd.group k.key))

/-- The blocks of a reduction that have reached a rank, with zeros and count 0 for the others (R252, R423). -/
def Coll.closedBlocks (x : Coll) (rank count : Nat) : Outcome :=
  let bs := (List.range ((count + 31) / 32)).map (fun b =>
    match (if x.blocks.contains (rank, b) then x.closed.find? (fun y => y.block == b) else none) with
    | some y => (y.vals.zipIdx.map (fun (w : Word × Nat) => (w.1.toNat, if y.marks.contains w.2 then 0xFF#8 else 0#8)), y.count)
    | none => (List.replicate (Nat.min 32 (count - 32 * b)) (0, 0#8), 0))
  { vals := bs.flatMap (fun p => p.1)
    aux := some (bs.flatMap (fun p => bytesLE 2 p.2))
    flags := 0#8 }

/-- A lossy collective has everything, or LSLACK µs have passed since its nominal end at this rank (R254, R424). -/
def State.collDue (s : State) (k : Copy) (x : Coll) (rank : Nat) : Bool :=
  (match k.op with
   | .crdx => (List.range ((k.wd.count + 31) / 32)).all (fun b => x.blocks.contains (rank, b))
   | _ => false) || x.finals.any (fun m => m.1 == rank && decide (k.deadline m.2 ≤ s.now))

/-- A lossy gather or broadcast ends at a rank: the blocks that have not come are zeros, then the mask and the flag (R254, R239). -/
def State.closeMotion (s : State) (k : Copy) (y : Lossy) : State :=
  let r := s.zeroBlocks k (if y.closed then [] else y.missing)
  match r.2 with
  | some f => r.1.faultCopy k (k.rowOf f.1) f.2
  | none => (r.1.mapDev (fun d => d.setLossy { y with closed := true })).endLossy k y

/-- COLLECTIVE_DEADLINE (R252 to R254, R424): once acq and rel allow it (R236), and where no member disagrees (R251). -/
def execCollectiveDeadline (c : CarRef) (n : Nat) (s : State) : Result :=
  s.at c (fun s => match s.car.copyOf n with
    | none => s
    | some k =>
      match s.dev.collOf k with
      | none => s
      | some x =>
        let l := s.dev.lossyOf s.car.ref n
        let closed := match l with
          | some y => y.closed
          | none => false
        if !k.op.isColl || !k.lossy || k.void || k.state != .running || s.enginesPaused || !(s.collDue k x (s.myRank k) || closed)
            || !s.acqReady k || !s.relReady k then s
        else ((s.disagrees k x).getD (match k.op, l with
          | .crdx, _ => s.writeOutcome k (x.closedBlocks (s.myRank k) k.wd.count)
          | _, some y => s.closeMotion k y
          | _, none => s.writeOutcome k (x.motion k (s.myRank k)))).sweepColls)

/-! Transfers of other packages into this one's memory (R412). -/

/-- The transfer of a name. -/
def Fabric.foreignOf (f : Fabric) (pkg id : Nat) : Option Foreign := f.foreign.find? (fun x => x.pkg == pkg && x.id == id)

/-- Put the record of a transfer of another package back. -/
def Device.setForeign (d : Device) (x : Foreign) : Device :=
  { d with fab := { d.fab with foreign := d.fab.foreign.map (fun y => if y.pkg == x.pkg && y.id == x.id then x else y) } }

/-- Write bytes of a transfer of another package. -/
def State.foreignWrite (s : State) (pa : Nat) (bs : List Byte) : State :=
  s.storeAt none none none (s.dev.decodePA false false false (BitVec.ofNat 52 pa)) bs

/-- A block of a transfer of another package arrives intact; one of a transfer that has closed is discarded. -/
def State.foreignBlock (s : State) (pkg id b : Nat) (bytes : List Byte) : State :=
  match s.dev.fab.foreignOf pkg id with
  | none => s
  | some x =>
    match x.blocks[b]? with
    | none => s
    | some e => if x.arrived.contains b then s
        else (s.foreignWrite e.1 (bytes.take e.2)).mapDev (fun d => d.setForeign { x with arrived := x.arrived ++ [b] })

/-- The blocks of a transfer that have not arrived. -/
def Foreign.missing (x : Foreign) : List Nat := (List.range x.blocks.length).filter (fun b => !x.arrived.contains b)

/-- The transfer closes: every block has arrived, or LSLACK µs have passed since its end marker. -/
def Foreign.closes (x : Foreign) (now : Nat) : Bool :=
  x.missing.isEmpty || (match x.marker with
    | some t => decide (t + x.lslack.toNat * Config.usCycles ≤ now)
    | none => false)

/-- A transfer of another package closes: zeros for what has not arrived, and the completion notice with the mask. -/
def State.closeForeign (s : State) (x : Foreign) : State :=
  if !x.closes s.now then s
  else
    (x.missing.foldl (fun s b => match x.blocks[b]? with
      | some e => s.foreignWrite e.1 (List.replicate e.2 0#8)
      | none => s) s).mapDev (fun d =>
        ({ d with fab := { d.fab with foreign := d.fab.foreign.filter (fun y => !(y.pkg == x.pkg && y.id == x.id)) } }.sendOut
          (d.wayTo x.pkg false) x.pkg 1 false).emit
            [.notice x.pkg x.id ((List.range x.blocks.length).map (fun b => x.arrived.contains b))])

/-! Requests to other packages (R399, R401, R414, R417, R418). -/

/-- Drop a request. -/
def State.dropRemote (s : State) (n : Nat) : State :=
  s.mapDev (fun d => { d with fab := { d.fab with remote := d.fab.remote.filter (fun r => r.id != n) } })

/-- The answer to a request reaches its producer in the focused car, which may fill from now on. -/
def Car.answer (c : Car) (n now : Nat) (f : Flight → Flight) : Car :=
  { c with flight := c.flight.map (fun g => if g.id == n then { f g with eta := now } else g) }

/-- A scalar value comes. -/
def Flight.withWord (x : Word) (poison : Bool) (f : Flight) : Flight :=
  { f with
    poison := f.poison || poison
    dest := match f.dest with
      | .s p _ => .s p x
      | d => d }

/-- A number with the bytes of a list in place of those from byte `i` on. -/
def patchBytes (i : Nat) (bs : List Byte) (x : Nat) : Nat :=
  x % 2 ^ (8 * i) + natLE bs * 2 ^ (8 * i) + x / 2 ^ (8 * (i + bs.length)) * 2 ^ (8 * (i + bs.length))

/-- Bytes of a vector or mask come; a mask keeps `bits` bits (R182). -/
def Flight.withBytes (parts : List (Nat × List Byte)) (bits : Nat) (poison : Bool) (f : Flight) : Flight :=
  let put := fun (x : Nat) => parts.foldl (fun x p => patchBytes p.1 p.2 x) x
  { f with
    poison := f.poison || poison
    dest := match f.dest with
      | .v p x => .v p (BitVec.ofNat 32768 (put x.toNat))
      | .k p x => .k p (BitVec.ofNat 4096 (put x.toNat % 2 ^ bits))
      | d => d }

/-- An error response to a request (R134, R401, R414). -/
def State.remoteError (s : State) (r : Remote) : State :=
  (match r.flight with
   | some n => s.mapCar (fun c => c.answer n s.now Flight.failed)
   | none => s.storeError r.ha)

/-- Where a request performs at its home: a package's memory beside this one, or this package's HBM. -/
def Device.homeTarget (d : Device) (pa : BitVec 52) : Target := d.decodePA true false false pa

/-- The bytes that a request touches: displacement and length of each part. -/
def RemoteOp.spans : RemoteOp → List (Nat × Nat)
  | .load n _ => [(0, n)]
  | .store bs => [(0, bs.length)]
  | .atomic .. => [(0, 8)]
  | .vload parts _ => parts.map (·.2)

/-- The request performs at its home, and its result returns (R414). -/
def State.performRemote (s : State) (r : Remote) : State :=
  let t := s.dev.homeTarget r.pa
  let answer := fun (s : State) (f : Flight → Flight) => match r.flight with
    | some n => s.mapCar (fun c => c.answer n s.now f)
    | none => s
  match r.op with
  | .load size sgn =>
    let l := s.dev.readPhys none none t size
    if l.err then s.remoteError r else answer s (Flight.withWord (extend sgn size l.nat) l.poison)
  | .store bs => if (s.dev.readPhys none none t bs.length).err then s.storeError r.ha else s.storeAt (some s.car.ref) none none t bs
  | .atomic o b cmp =>
    let p := s.performAtomic (some s.car.ref) none none r.ha o t b cmp
    if p.2.err && o.returns then p.1.remoteError r
    else answer p.1 (Flight.withWord (BitVec.ofNat 64 p.2.nat) p.2.poison)
  | .vload parts bits =>
    let ls := parts.map (fun p => (p.1, s.dev.readPhys none none (t.plus p.2.1) p.2.2))
    if ls.any (fun l => l.2.err) then s.remoteError r
    else answer s (Flight.withBytes (ls.map (fun l => (l.1, l.2.bytes))) bits (ls.any (fun l => l.2.poison)))

/-- Where the parts of a request are, as far as its package knows (R417): address and length of each. -/
def Device.spansOf (d : Device) (r : Remote) : List (Nat × Nat) :=
  r.op.spans.map (fun x => ((d.movedTo (r.pa + BitVec.ofNat 52 x.1)).toNat, x.2))

/-- Two requests touch a byte in common, whichever of a line's addresses they name. -/
def Device.meets (d : Device) (r q : Remote) : Bool :=
  (d.spansOf r).any (fun x => (d.spansOf q).any (fun y => decide (x.1 < y.1 + y.2 ∧ y.1 < x.1 + x.2)))

/-- A request waits for another of its car (R184, R291, R298): one of an earlier bundle to the same bytes; a read of its own bundle,
where it writes; an earlier slot's request of the same kind to the same bytes. -/
def Device.follows (d : Device) (r q : Remote) : Bool :=
  q.car == r.car && q.id != r.id &&
    ((decide (q.stamp < r.stamp) && d.meets r q)
      || (q.stamp == r.stamp && r.op.writes && q.op.reads && !(q.op.writes && decide (r.id < q.id)))
      || (q.stamp == r.stamp && decide (q.id < r.id) && r.op.writes == q.op.writes && d.meets r q))

/-- May a request perform now? -/
def Device.mayPerform (d : Device) (r : Remote) : Bool :=
  decide (r.ready ≤ d.now) && !d.fab.remote.any (fun q => d.follows r q)

/-- Flits of a request: one for each 64 bytes it carries, at least one (notes/assumptions/26.md). -/
def RemoteOp.flits : RemoteOp → Nat
  | .store bs => Nat.max 1 ((bs.length + 63) / 64)
  | _ => 1

/-- REMOTE_REQUEST (R414): a request of an abandoned car performs all the same. It does not pass those it follows. -/
def execRemoteRequest (n : Nat) (s : State) : Result :=
  .next (match s.dev.fab.remote.find? (fun r => r.id == n) with
    | none => s
    | some r =>
      if !s.dev.mayPerform r then s
      else
      let r := { r with pa := s.dev.movedTo r.pa }
      let run := fun (s : State) (f : State → State) => (s.atCar r.car f).dropRemote n
      if r.pa.extractLsb' 42 10 = s.dev.fab.regs.pkgId then run s (fun s => s.performRemote r)
      else
        let w := s.dev.way r.pa r.confidential r.esc
        let out := fun (s : State) => s.mapDev (fun d => d.sendOut w (r.pa.extractLsb' 42 10).toNat r.op.flits r.confidential)
        match w with
        | .go p _ =>
          if 2048 < (s.dev.fab.port p).replay.length + r.op.flits then s
          else run (out s) (fun s => s.performRemote r)
        | _ => run (out s) (fun s => s.remoteError r))

/-- MOVED_RESPONSE (R417): the request did not perform; the line's new address is kept, and the request is sent there. -/
def execMovedResponse (n : Nat) (new : BitVec 52) (s : State) : Result :=
  .next (match s.dev.fab.remote.find? (fun r => r.id == n) with
    | none => s
    | some r => s.mapDev (fun d => { d with fab := { d.fab with
        moved := ((r.pa.toNat / 64, new.toNat / 64) :: d.fab.moved.filter (fun x => x.1 != r.pa.toNat / 64)).take 256
        remote := d.fab.remote.map (fun x => if x.id == n then
          { x with pa := BitVec.ofNat 52 (new.toNat / 64 * 64 + x.pa.toNat % 64) } else x) } }))

/-- The new address of a line of this package that a migration in force has copied (R417). -/
def Device.movedLine (d : Device) (a : Nat) : Option Nat :=
  match d.fab.fwd.find? (fun x => x.2.v && x.2.covers a) with
  | some x => if d.copied x.1 x.2 a then some ((x.2.new.toNat + (a - x.2.lo)) / 64) else none
  | none => none

/-- Serve a request of another package (R414, R417): a copied line answers MOVED and an address that is not here an error response,
and the request does not perform; else it performs at the home, and its bytes return. -/
def State.serve (s : State) (pkg id pa : Nat) (op : RemoteOp) : State :=
  let a := pa % 2 ^ 42
  let t := s.dev.decodePA false false false (BitVec.ofNat 52 a)
  let back := fun (s : State) (o : Output) => s.mapDev (fun d => (d.sendOut (d.wayTo pkg false) pkg 1 false).emit [o])
  match s.dev.movedLine a with
  | some l => back s (.moved pkg id l)
  | none =>
    if t = .nowhere then back s (.refused pkg id)
    else match op with
      | .load n _ => back (s.mapDev (fun d => d.afterRead none none t n)) (.reply pkg id (s.dev.readPhys none none t n).bytes)
      | .store bs => back (s.storeAt none none none t bs) (.reply pkg id [])
      | .atomic o b cmp =>
        let r := s.performAtomic none none none 0#64 o t b cmp
        back r.1 (.reply pkg id r.2.bytes)
      | .vload parts _ => back s (.reply pkg id (parts.flatMap (fun p => (s.dev.readPhys none none (t.plus p.2.1) p.2.2).bytes)))

/-! Invalidations (R415, R320). -/

/-- Set bits of FAB_STAT. -/
def Device.setFabStat (d : Device) (b : BitVec 8) : Device :=
  { d with fab := { d.fab with regs := { d.fab.regs with fabStat := d.fab.regs.fabStat ||| b } } }

/-- Round up to a multiple of 64 KiB. -/
def up64k (n : Nat) : Nat := (n + 0xFFFF) / 0x10000 * 0x10000

/-- INVALIDATE (R400, R415). -/
def execInvalidate (len : BitVec 40) (s : State) : Result :=
  .next (s.mapDev (fun d =>
    if 16 ≤ d.fab.invQ.length then d.setFabStat 1#8
    else
      let lo := d.fab.regs.invAddr.toNat / 0x10000 * 0x10000
      { d with fab := { d.fab with
          invQ := d.fab.invQ ++ [(lo, lo + up64k len.toNat)]
          regs := { d.fab.regs with invIssued := d.fab.regs.invIssued + 1#32 } } }))

/-- A page overlaps a range of virtual addresses. -/
def meets (lo hi page size : Nat) : Bool := decide (page < hi ∧ lo < page + size)

/-- The effects of an invalidation on a car (R320). -/
def Car.invalidate (c : Car) (lo hi : Nat) : Car :=
  { c with
    regs := { c.regs with h := c.regs.h.map (fun h => if meets lo hi h.vpage h.pageSize then { h with v := false } else h) }
    eng := { c.eng with
      tlb := c.eng.tlb.filter (fun e => !meets lo hi e.page e.size)
      copyTlb := c.eng.copyTlb.map (fun t => t.filter (fun e => !meets lo hi e.page e.size)) } }

/-- INVALIDATION_COMPLETE (R415, R320): once no request made through the range is on its way or in a store queue. A walk under way
reads the tables when it ends. -/
def execInvalidationComplete (s : State) : Result :=
  .next (match s.dev.fab.invQ with
    | [] => s
    | (lo, hi) :: rest =>
      if s.dev.fab.remote.any (fun r => meets lo hi r.vpage r.vsize)
          || s.cars.any (fun c => c.eng.queue.any (fun x => !x.target.isLocal && meets lo hi x.vpage x.vsize)) then s
      else
        (s.mapCars (fun c => c.invalidate lo hi)).mapDev (fun d => { d with
          sig := { d.sig with consists := d.sig.consists.map (fun x =>
            { x with saved := x.saved.map (fun cs => cs.map (fun c => c.invalidate lo hi)) }) }
          fab := { d.fab with
            invQ := rest
            regs := { d.fab.regs with invDone := d.fab.regs.invDone + 1#32 } } }))

/-! Migration (R416, R417). -/

/-- A free forwarding entry: one that is not in force. -/
def Fabric.freeFwd (f : Fabric) : Option Nat := (List.range 256).find? (fun i => !(Tab.get ({} : Fwd) f.fwd i).v)

/-- Ranges without the addresses from `lo` to before `hi`. -/
def cutRange (rs : List (Nat × Nat)) (lo hi : Nat) : List (Nat × Nat) :=
  (rs.flatMap (fun r => [(r.1, Nat.min r.2 lo), (Nat.max r.1 hi, r.2)])).filter (fun r => decide (r.1 < r.2))

/-- MIGRATE (R416): a refused request sets ERR. Ranges that the destination takes over answer again (R417). -/
def execMigrate (len : BitVec 31) (s : State) : Result :=
  .next (s.mapDev (fun d =>
    let src := d.fab.regs.migSrc.toNat
    let dst := d.fab.regs.migDst
    let n := len.toNat
    let own := dst.extractLsb' 42 10 == d.fab.regs.pkgId
    let a := (dst.extractLsb' 0 42).toNat
    if d.fab.mig.isSome then d
    else match (if n % 0x10000 != 0 || n == 0 || decide (0x40000000 < n) || src % 0x10000 != 0 || a % 0x10000 != 0
        || (own && decide (a < src + n ∧ src < a + n)) then none else d.fab.freeFwd) with
      | none => { d with fab := { d.fab with regs := { d.fab.regs with migErr := true } } }
      | some i =>
        let e : Fwd := { new := dst, v := true, old := BitVec.ofNat 24 (src / 0x10000), len := BitVec.ofNat 16 (n / 0x10000 - 1) }
        { d with fab := { d.fab with
            fwd := Tab.set d.fab.fwd i e
            gone := if own then cutRange d.fab.gone a (a + n) else d.fab.gone
            mig := some { entry := i, src := src, dst := dst.toNat, lines := n / 64, next := 0 }
            regs := { d.fab.regs with migErr := false } } }))

/-- Every die cache writes a line back and discards it (R416), one of a coherent page too: the directory takes note (R300). -/
def Device.purgeLine (d : Device) (line : Nat) : Device :=
  let d := (d.cache.filter (fun l => l.line == line)).foldl (fun d l => (d.flushLine l.die line).dropLine l.die line) d
  ((d.regionAt (line * 64)).lines.filter (fun x => x.1 == line)).foldl (fun d x => d.evictLine x.2.1 line) d

/-- A speculation with a shadow of a granule dooms (notes/assumptions/27.md). -/
def Device.doomShadows (d : Device) (g : Nat) : Device :=
  { d with sig := { d.sig with specs := d.sig.specs.map (fun x => if x.granules.contains g then x.ends .doomed d.now else x) } }

/-- Copy the next line of a migration to its new home; a destination in this package is written (R388). Where the entry has been
cleared meanwhile, nobody reaches the range, and what stands in it is copied on. -/
def Device.copyLine (d : Device) (m : Migration) : Device :=
  let a := m.src + 64 * m.next
  let d := (d.purgeLine (a / 64)).doomShadows (a / 0x10000)
  let here := d.hbmGone a
  let bytes := (List.range 64).map (fun i => if here then d.mem.read (a + i) else d.hbmByte (a + i))
  let bad := (List.range 64).filter (fun i => if here then d.mem.poisoned (a + i) || d.latent.contains (a + i) else d.hbmPoison (a + i))
  let y := m.dst + 64 * m.next
  let d := if y / 2 ^ 42 = d.fab.regs.pkgId.toNat then
      (bad.foldl (fun d i => d.hbmSpoil (y % 2 ^ 42 + i)) (d.hbmWrite (y % 2 ^ 42) bytes)).watched none (y % 2 ^ 42) 64
    else { d with remote := bad.foldl (fun r i => r.setPoison (y + i) 1) (d.remote.write y bytes) }
  if m.next + 1 = m.lines then
    { d with fab := { d.fab with
        mig := none
        fwd := d.fab.fwd.map (fun x => if x.1 == m.entry then (x.1, { x.2 with done := true }) else x) } }
  else { d with fab := { d.fab with mig := some { m with next := m.next + 1 } } }

/-- MIGRATION_LINE_COPY (R416). -/
def execMigrationLineCopy (s : State) : Result :=
  .next (match s.dev.fab.mig with
    | none => s
    | some m => s.mapDev (fun d => d.copyLine m))

/-! Groups (R419 to R421, R425). -/

/-- Bytes at virtual addresses, read by the package itself (R466); none on a fault. -/
def Device.readVa (d : Device) (va n : Nat) : Option (List Byte) :=
  (List.range n).mapM (fun i => match d.translate true false (va + i) with
    | none => none
    | some t =>
      let l := d.readPhys none none t 1
      if d.shut t || l.err || l.poison then none else l.bytes.head?)

/-- A word at a virtual address. -/
def Device.wordVa (d : Device) (va : Nat) : Option Nat := (d.readVa va 8).map natLE

/-- A package list (R419): NPKG + 1 numbers of 16 bits; none on a translation or rights fault, an error response or poison. -/
def Device.readList (d : Device) (va n : Nat) : Option (List Nat) :=
  (d.readVa va (2 * n)).map (fun bs => (List.range n).map (fun i => natLE ((bs.drop (2 * i)).take 2)))

/-- A collective is in flight on a group. -/
def State.groupInFlight (s : State) (g : Nat) : Bool :=
  s.cars.any (fun c => c.eng.copies.any (fun k => k.op.isColl && k.wd.group == g))

/-- GROUP_COMMIT (R419 to R421). -/
def execGroupCommit (g : Fin 4096) (s : State) : Result :=
  let e := s.dev.group g.val
  let x : GroupEntry := { e with words := e.staged }
  let put := fun (e : GroupEntry) => s.mapDev (fun d => { d with fab := { d.fab with groups := Tab.set d.fab.groups g.val e } })
  let commit := fun (l : List Nat) =>
    if s.groupInFlight g.val then put { e with busy := true, pending := some (e.staged, l) }
    else put { e with words := e.staged, plist := l, busy := true, pending := none }
  .next (match x.kind.toNat with
    | 3 => s
    | 1 =>
      if 1024 < x.ranks then s
      else (match s.dev.readList (x.words[2]).toNat (x.npkg + 1) with
        | none => s.mapDev (fun d => d.setFabStat 16#8)
        | some l => commit l)
    | _ => commit [])

/-- GROUP_BUSY_CLEAR (R421). -/
def execGroupBusyClear (g : Fin 4096) (s : State) : Result :=
  .next (s.mapDev (fun d =>
    let e := d.group g.val
    if !e.busy || d.fab.packets.any (fun p => p.group == g.val) || (e.pending.isSome && s.groupInFlight g.val) then d
    else
      let e := match e.pending with
        | some p => { e with words := p.1, plist := p.2 }
        | none => e
      { d with fab := { d.fab with groups := Tab.set d.fab.groups g.val { e with busy := false, pending := none } } }))

/-- MULTICAST_REPLICATE (R421): every copy is made by the entry as the packet's head finds it. -/
def execMulticastReplicate (g : Fin 4096) (payload : List Byte) (s : State) : Result :=
  .next (s.mapDev (fun d => d.replicate g.val payload none))

/-- THROUGH_RUNNING_FRAME (R425, R247): a beat that replication let through reaches the line of a CLSF that names the group. -/
def execThroughRunningFrame (g : Fin 4096) (beat : Nat) (payload : List Byte) (s : State) : Result :=
  .next (s.mapDev (fun d =>
    match d.fab.packets.find? (fun p => p.group == g.val && p.bytes == payload) with
    | none => d
    | some p =>
      let wanted := d.streams.any (fun x => x.group == some g.val)
      { d with fab := { d.fab with
          packets := d.fab.packets.erase p
          frames := if wanted then ⟨g.val, beat, payload⟩ :: d.fab.frames.filter (fun f => !(f.group == g.val && f.beat == beat))
            else d.fab.frames } }))

/-! Timetables and on-package links (R403 to R405, R410). -/

/-- A record of 4 bytes (R403). -/
def TtRecord.ofNat (w : Nat) : TtRecord := ⟨w / 2 ^ 26 % 64, w / 2 ^ 23 % 8, w / 2 ^ 15 % 256, w % 4096, w / 2 ^ 12 % 8⟩

/-- A circuit descriptor of 8 bytes (R403). -/
def TtCircuit.ofNat (w : Nat) : TtCircuit := ⟨w % 64, w / 2 ^ 8 % 64, w / 2 ^ 16 % 65536, w / 2 ^ 32 % 256⟩

/-- Two records name one slot of one output port. -/
def TtRecord.clash (x y : TtRecord) : Bool := x.junction == y.junction && x.port == y.port && x.slot == y.slot

/-- Read set `n` from the table at TT_BASE (R403): records, then circuit descriptors; none when it cannot be read or a record is
malformed. -/
def Device.ttSet (d : Device) (n : BitVec 8) : Option TtSet :=
  if d.fab.regs.ttLen < n then none
  else match d.wordVa (d.fab.regs.ttBase.toNat + 16 * n.toNat), d.wordVa (d.fab.regs.ttBase.toNat + 16 * n.toNat + 8) with
    | some va, some w =>
      let nr := w % 65536
      let nc := w / 65536 % 256
      (match d.readVa va (4 * nr + 8 * nc) with
       | none => none
       | some bs =>
         let rs := (List.range nr).map (fun i => TtRecord.ofNat (natLE ((bs.drop (4 * i)).take 4)))
         let cs := (List.range nc).map (fun i => TtCircuit.ofNat (natLE ((bs.drop (4 * nr + 8 * i)).take 8)))
         if rs.any (fun r => decide (nc ≤ r.circuit)) || rs.any (fun r => decide (2 ≤ rs.countP r.clash)) then none
         else some ⟨rs, cs, BitVec.ofNat 8 (w / 2 ^ 24)⟩)
    | _, _ => none

/-- The base set assigns a record's slot of its output port (R403): it is always loaded. -/
def TtRecord.inBase (r : TtRecord) : Bool := (Config.baseCircuit r.junction r.port r.slot).isSome

/-- A set is loadable as number `n` when neither the base set nor a set loaded under another number assigns a slot of its records
(R404). -/
def Fabric.loadable (f : Fabric) (n : BitVec 8) (x : TtSet) : Bool :=
  x.records.all (fun r => !r.inBase) && f.sets.all (fun y => y.n == n || x.records.all (fun r => y.set.records.all (fun q => !r.clash q)))

/-- A path of a set passes a link. -/
def TtSet.passes (x : TtSet) (link : Nat × Nat) : Bool := x.records.any (fun r => (r.junction, r.port) == link)

/-- Load a set for the consists that name `serves` (R404, R405), in the place of the set loaded as `old`: suspended while a link of its
paths is down. -/
def Fabric.load (f : Fabric) (old serves n : BitVec 8) (x : TtSet) : Fabric :=
  { f with
    sets := f.sets.filter (fun y => !(y.n == old && y.serves == serves)) ++ [⟨n, serves, x⟩]
    suspended := f.suspended.filter (fun m => m != old && m != n) ++ (if f.linksDown.any x.passes then [n] else []) }

/-- TIMETABLE_LOAD (R404): at a frame boundary, for a consist that names the set. -/
def execTimetableLoad (n : BitVec 8) (s : State) : Result :=
  .next (s.mapDev (fun d =>
    match d.ttSet n with
    | some x =>
      if n = 0#8 || d.fab.hasSet n || !(d.sig.consists.any (fun c => c.ttset == n && c.saved.isNone)) || !d.fab.loadable n x
          || d.now % 256 ≠ 0 then d
      else { d with fab := d.fab.load n n n x }
    | none => d))

/-- The alternate of a set, loaded in its place for the consists that name it (R405); without one, or while it is not loadable, the
set stays as it is, and its circuits stay suspended. -/
def Device.loadAlternate (d : Device) (y : LoadedSet) : Device :=
  match d.ttSet y.set.alt with
  | some x =>
    let f := { d.fab with sets := d.fab.sets.filter (fun z => z.n != y.n) }
    if y.set.alt = 0#8 || !f.loadable y.set.alt x then d else { d with fab := d.fab.load y.n y.serves y.set.alt x }
  | none => d

/-- ALTERNATE_SET_LOAD (R405): for set 0 the base circuits run again (notes/assumptions/43.md). -/
def execAlternateSetLoad (n : BitVec 8) (s : State) : Result :=
  .next (s.mapDev (fun d =>
    if !d.fab.suspended.contains n then d
    else if n = 0#8 then { d with
      fab := { d.fab with suspended := d.fab.suspended.filter (· != 0#8) }
      lines := d.lines.map (fun x => { x with suspended := false }) }
    else (d.fab.sets.filter (fun y => y.n == n)).foldl Device.loadAlternate d))

/-- The base circuit of a line passes a link (R403). -/
def basePasses (junction port line : Nat) : Bool :=
  (List.range 256).any (fun k => (Config.baseCircuit junction port k).any (fun l => l.val == line))

/-- ON_PACKAGE_LINK_DOWN (R405, R410): queued packets take the escape channel, and the circuits of the path are suspended. -/
def execOnPackageLinkDown (junction : Fin 64) (port : Fin 8) (s : State) : Result :=
  let link := (junction.val, port.val)
  let queued := !s.dev.fab.remote.isEmpty || s.cars.any (fun c => !c.eng.posted.isEmpty)
  let base := (List.range 16).any (fun l => basePasses junction.val port.val l)
  .next (s.mapDev (fun d =>
    let hit := (d.fab.sets.filter (fun y => y.set.passes link && !d.fab.suspended.contains y.n)).map (fun y => y.n)
    let d := if queued then d.setFabStat 2#8 else d
    { d with
      fab := { d.fab with
        linksDown := if d.fab.linksDown.contains link then d.fab.linksDown else d.fab.linksDown ++ [link]
        suspended := d.fab.suspended ++ hit ++ (if base && !d.fab.suspended.contains 0#8 then [0#8] else []) }
      lines := d.lines.mapFinIdx (fun i x _ => if basePasses junction.val port.val i then { x with suspended := true } else x) }))

end Sys2Proof.Machine
end

