-- ==== Sys2Proof/Machine/Queues.lean ====
section
/-!
DEFINITION. What the Signal box reads and decides: queues and contexts, records and their checks, the order between
services, and where a consist fits (spec 14; 10 R269 to R283; 15 R380 to R383, R391).
-/
namespace Sys2Proof.Machine

/-! The Signal box as an agent (R466). -/

/-- Change the Signal box. -/
def Device.mapSig (d : Device) (f : Signal → Signal) : Device := { d with sig := f d.sig }

/-- Change its registers. -/
def Device.mapHost (d : Device) (f : HostRegs → HostRegs) : Device := d.mapSig (fun x => { x with regs := f x.regs })

/-- Set bits of DEV_STAT. -/
def Device.setDevStat (d : Device) (b : BitVec 8) : Device := d.mapHost (fun r => { r with devStat := r.devStat ||| b })

/-- Write bytes at a virtual address as a device agent; none on a translation or rights fault or an error response. -/
def State.writeVa (s : State) (va : Nat) (bs : List Byte) : Option State :=
  match s.dev.translate false true va with
  | none => none
  | some .nowhere => none
  | some t => if s.wayShut t then none else some (s.storeAt none none none t bs)

/-! Queues (R351 to R358). -/

/-- The software's words of a context block (R351). -/
structure Ctx where
  va : Nat
  ring : Nat
  dbg : Bool
  en : Bool
  cls : BitVec 2
  log2n : Nat
deriving DecidableEq, Repr

/-- What a look at a queue's context finds: no such queue, a failed read, its words. -/
inductive CtxRead where
  | absent
  | failed
  | ok (c : Ctx)
deriving DecidableEq, Repr

/-- Read the queue table entry and the context block of a queue (R351, R353). -/
def Device.ctx (d : Device) (q : BitVec 16) : CtxRead :=
  match d.wordVa (d.sig.regs.qtabBase.toNat + 8 * q.toNat) with
  | none => .failed
  | some 0 => .absent
  | some va =>
    match d.wordVa va, d.wordVa (va + 8) with
    | some r, some w =>
      let w := BitVec.ofNat 64 w
      .ok ⟨va, r, w.getLsbD 17, w.getLsbD 16, w.extractLsb' 8 2, (w.extractLsb' 0 5).toNat⟩
    | _, _ => .failed

/-- Records in the ring of a context; LOG2N is 1 to 16. -/
def Ctx.size (c : Ctx) : Nat := 2 ^ c.log2n

/-- LOG2N is one that a queue may have (R351). -/
def Ctx.sane (c : Ctx) : Bool := decide (1 ≤ c.log2n ∧ c.log2n ≤ 16)

/-- The serial-maximum rule (R356). -/
def serialAfter (v c : BitVec 32) : Bool := decide (1 ≤ (v - c).toNat ∧ (v - c).toNat < 2 ^ 31)

/-- The slot of a queue. -/
def Signal.slotOf (x : Signal) (q : BitVec 16) : Option (Nat × QSlot) := x.slots.find? (fun s => s.2.q == q)

/-- Change a queue's slot. -/
def Device.mapSlot (d : Device) (q : BitVec 16) (f : QSlot → QSlot) : Device :=
  d.mapSig (fun x => { x with slots := x.slots.map (fun s => if s.2.q == q then (s.1, f s.2) else s) })

/-- A queue asks for a slot (R353). -/
def Device.want (d : Device) (q : BitVec 16) : Device :=
  if d.sig.wanted.contains q || (d.sig.slotOf q).isSome then d else d.mapSig (fun x => { x with wanted := x.wanted ++ [q] })

/-- Words 4 to 52 of a context block (R380). -/
def History.words (h : History) : List Word :=
  (h.lseq ++ 0#29 ++ BitVec.ofBool h.valid ++ h.conf) :: padTo 16 h.lrec ++ padTo 8 h.larg ++ padTo 8 h.strideA ++ padTo 8 h.strideB
    ++ padTo 8 h.hist

/-- A history from those words. -/
def History.ofWords (ws : List Word) : History :=
  let w := ws.getD 0 0#64
  { lseq := w.extractLsb' 32 32
    valid := w.getLsbD 2
    conf := w.extractLsb' 0 2
    lrec := padTo 16 (ws.drop 1)
    larg := padTo 8 (ws.drop 17)
    strideA := padTo 8 (ws.drop 25)
    strideB := padTo 8 (ws.drop 33)
    hist := padTo 8 (ws.drop 41) }

/-- Words at a virtual address. -/
def Device.wordsVa (d : Device) (va n : Nat) : Option (List Word) :=
  (d.readVa va (8 * n)).map (fun bs => (List.range n).map (fun i => BitVec.ofNat 64 (natLE ((bs.drop (8 * i)).take 8))))

/-- Bytes of words. -/
def wordBytes (ws : List Word) : List Byte := ws.flatMap (fun w => bytesLE 8 w.toNat)

/-! Cores (R4, R451). -/

/-- The class of a core that is enabled; none for another. -/
def House.coreClass (h : House) (core : Nat) : Option CoreClass :=
  let w := h.harv.toList.getD (core / 16) 0#64
  if 336 ≤ core ∨ w.getLsbD 63 ∨ !w.getLsbD (core % 16) then none
  else match (w.extractLsb' (16 + 2 * (core % 16)) 2).toNat with
    | 0 => some .a
    | 1 => some .b
    | 2 => some .c
    | _ => none

/-- A set of classes, bit 0 for A, holds a class (R359). -/
def CoreClass.among (k : CoreClass) (cs : BitVec 3) : Bool := cs.getLsbD k.code.toNat

/-- Enabled cores of permitted classes. -/
def Device.coresOf (d : Device) (cs : BitVec 3) : List Nat :=
  (List.range 336).filter (fun k => match d.house.coreClass k with
    | some c => c.among cs
    | none => false)

/-! Records (R359 to R364). -/

/-- The package can read every byte of a range (R466). -/
def Device.readable (d : Device) (va n : Nat) : Bool := (d.readVa va n).isSome

/-- Bytes of an image's header: what stands before its code and `.data` (R363). -/
def Image.header (x : Image) : Nat := x.size - (x.code.length + x.data.length)

/-- The image that a table entry names: the one that stands at its address, with the entry's id and size. -/
def Device.imageOf (d : Device) (id : BitVec 32) (size : Nat) (va : Nat) : Option Image :=
  (d.sig.images.find? (fun x => x.va.toNat == va)).map (fun x => { x with id := id, size := size })

/-- The entry of an image table that names an image (R363): the lowest of `n` from `i` on. Its header must be readable (R466). -/
def Device.imageAt (d : Device) (id : BitVec 32) : Nat → Nat → Option Image
  | 0, _ => none
  | n + 1, i =>
    match d.wordVa (d.sig.regs.imgtabBase.toNat + 16 * i), d.wordVa (d.sig.regs.imgtabBase.toNat + 16 * i + 8) with
    | some w, some va =>
      if w % 2 ^ 32 = id.toNat then
        (d.imageOf id (w / 2 ^ 32) va).filter (fun x => (d.translate true false va).isSome && d.readable va x.header)
      else d.imageAt id n (i + 1)
    | _, _ => none

/-- The image of an id; none when it is absent or cannot be read. -/
def Device.image (d : Device) (id : BitVec 32) : Option Image := d.imageAt id d.sig.regs.imgtabLen.toNat 0

/-- Cars that an image couples to a slot. -/
def Image.coupled (x : Image) (slot : Fin 16) : List Nat :=
  (List.range x.consist).filter (fun i => x.couples.any (fun c => c.2.2 == slot && decide (c.1 ≤ i ∧ i ≤ c.2.1)))

/-- Check 1 of R362: the record itself. -/
def recordBad (r : List Word) : Bool :=
  (recWord r 0).extractLsb' 48 16 != 0#16 || (recWord r 1).extractLsb' 51 13 != 0#13 || (recWord r 1).extractLsb' 29 3 != 0#3
    || (recWord r 15).extractLsb' 32 32 != 0#32 || decide (16 < recNhandles r) || decide (16 < recNslots r)
    || decide (recNcars r = 0 ∨ 320 < recNcars r) || recClasses r == 0#3
    || (if recInd r then (recCount r).toNat % 4 != 0 else (recCount r).extractLsb' 32 32 != 0#32)
    || (recArgblk r).toNat % 64 != 0 || (recNhandles r != 0 && (recHlist r).toNat % 32 != 0) || (recCompAddr r).toNat % 32 != 0

/-- Check 3 of R362: the layout. -/
def Device.layoutBad (d : Device) (r : List Word) (x : Image) : Bool :=
  recNcars r != x.consist || recNhandles r != x.handles || recClasses r &&& ~~~x.classes != 0#3
    || x.couples.any (fun c => decide (recNslots r ≤ c.2.2.val))
    || (List.finRange 16).any (fun i => decide (64 < (x.coupled i).length))
    || decide ((d.coresOf (recClasses r)).length < recNcars r)
    || (recBg r && !x.background) || (recSpec r && x.specMask.isNone)

/-- The handle list of a record: index and mode; none when it cannot be read. -/
def Device.handleList (d : Device) (r : List Word) : Option (List (BitVec 16)) :=
  if recNhandles r = 0 then some []
  else (d.readVa (recHlist r).toNat (2 * recNhandles r)).map (fun bs =>
    (List.range (recNhandles r)).map (fun i => BitVec.ofNat 16 (natLE ((bs.drop (2 * i)).take 2))))

/-- A handle list entry that check 4 refuses. -/
def Device.handleBad (d : Device) (e : BitVec 16) : Bool :=
  e.extractLsb' 12 2 == 0#2 || e.extractLsb' 14 2 != 0#2 || !(Tab.get {} d.sig.bht (e.extractLsb' 0 12).toNat).v

/-- The argument block of a record: zeros when its address is 0; none when it cannot be read. -/
def Device.argBlock (d : Device) (r : List Word) : Option (List Word) :=
  if recArgblk r = 0#64 then some (List.replicate 8 0#64) else d.wordsVa (recArgblk r).toNat 8

/-- What the checks of R362 find: the image, the handles, the arguments, and the cause of the first that fails. -/
structure Checked where
  image : Option Image := none
  entries : List (BitVec 16) := []
  args : List Word := List.replicate 8 0#64
  err : Option (BitVec 8) := none

/-- The checks of R362, in order. -/
def Device.check (d : Device) (r : List Word) : Checked :=
  let args := (d.argBlock r).getD (List.replicate 8 0#64)
  if recordBad r then { err := some 1#8 }
  else match d.image (recImage r) with
    | none => { err := some 2#8 }
    | some x =>
      if d.layoutBad r x then { image := some x, args := args, err := some 3#8 }
      else match d.handleList r with
        | none => { image := some x, args := args, err := some 4#8 }
        | some es =>
          { image := some x
            entries := es
            args := args
            err := if es.any d.handleBad then some 4#8 else if (d.argBlock r).isNone then some 10#8 else none }

/-- A list entry as index and mode. -/
def handleOf (e : BitVec 16) : BitVec 12 × BitVec 2 := (e.extractLsb' 0 12, e.extractLsb' 12 2)

/-! Order between services (R365 to R368). -/

/-- Two services name one handle, and one of them writes it. -/
def Service.clash (x y : Service) : Bool :=
  x.handles.any (fun h => y.handles.any (fun k => h.1 == k.1 && (h.2.getLsbD 1 || k.2.getLsbD 1)))

/-- An earlier service holds this one back (R365). -/
def Signal.heldBack (x : Signal) (v : Service) : Bool :=
  x.services.any (fun u => decide (u.order < v.order) && !u.ended && u.clash v)

/-- Earlier services of the queue have released every consist, or have ended (R367). -/
def Signal.atHead (x : Signal) (v : Service) : Bool :=
  x.services.all (fun u => u.q != v.q || decide (v.order ≤ u.order) || u.ended || u.err.isSome ||
    ((match u.count with
      | some n => decide (n.toNat ≤ u.placed) || x.specs.any (fun p => p.adopted && p.svc.q == u.q && p.svc.seq == u.seq
          && p.cause.isNone && decide (n.toNat ≤ p.svc.placed))
      | none => false) && !x.consists.any (fun c => c.q == u.q && c.seq == u.seq && !c.released && !c.resumed)))

/-- A speculation of a service that can still be its run: not in discard. -/
def Signal.specOf (x : Signal) (q : BitVec 16) (seq : BitVec 32) : Option Speculation :=
  x.specs.find? (fun s => s.svc.q == q && s.svc.seq == seq && s.cause.isNone)

/-- A real service may start its next consist, as far as order goes (R362, R365, R367, R391, R460). -/
def Device.startable (d : Device) (v : Service) : Bool :=
  !v.ended && v.err.isNone && v.image.isSome && !d.house.fw.pending && (d.sig.specOf v.q v.seq).isNone
    && (match v.count with
        | some n => decide (v.placed < n.toNat)
        | none => false)
    && d.sig.atHead v && !d.sig.heldBack v

/-! Classes (R370, R371). -/

/-- A car of a service is blocked in YWAIT, YBAR or WADR. -/
def State.blocked (s : State) (v : Service) : Bool :=
  s.cars.any (fun c => !c.place.spec && c.ident.serviceId == v.q.setWidth 32 ++ v.seq && c.life == .running && c.wait.any (fun w =>
    match w with
    | .ywait .. => true
    | .ybar .. => true
    | .wadr .. => true
    | _ => false))

/-- The class of a blocked service's consists (R265, R371). -/
def State.blockedClass (s : State) (v : Service) : Nat :=
  (s.dev.sig.consists.filter (fun x => x.q == v.q && x.seq == v.seq && !x.spec && x.saved.isNone)).foldl
    (fun m x => Nat.min m x.pri.toNat) 3

/-- A class of a service's, or that of a blocked service that waits on its queue where that is lower, along chains (R371). -/
def State.inherit (s : State) : Nat → Service → Nat → Nat
  | 0, _, own => own
  | n + 1, v, own =>
    (s.dev.sig.services.filter (fun w => recWaits w.record && recWaitq w.record == v.q && decide (v.order < w.order) && !w.ended
        && !v.ended && s.blocked w)).foldl (fun m w => Nat.min m (s.inherit n w (s.blockedClass w))) own

/-- The effective class of a service for the consists that it has still to place (R370, R371). -/
def State.classOf (s : State) (v : Service) : Nat := s.inherit s.dev.sig.services.length v v.pri.toNat

/-- The effective class of a consist: as YPRI left it, and by inheritance, which does not reach speculations (R370, R371, R385). -/
def State.consistClass (s : State) (x : Consist) : Nat :=
  match (if x.spec then none else s.dev.sig.services.find? (fun v => v.q == x.q && v.seq == x.seq)) with
  | some v => s.inherit s.dev.sig.services.length v x.pri.toNat
  | none => x.pri.toNat

/-- The effective class of a car's consist (R283, R284). -/
def State.carClass (s : State) (c : Car) : Nat :=
  match s.consistOf c with
  | some x => s.consistClass x
  | none => c.ctl.pri.toNat

/-- A service's next consist has waited CLASS_AGE µs; 0 sets no age (R370). -/
def State.aged (s : State) (v : Service) : Bool :=
  let age := s.dev.sig.regs.classAge.toNat
  decide (age ≠ 0 ∧ v.since + age * Config.usCycles ≤ s.now)

/-- The class that counts for the choice of the next consist (R370). -/
def State.rankOf (s : State) (v : Service) : Nat := if s.aged v then 0 else s.classOf v

/-- That of an adopted speculation: the real record's class, which no inheritance reaches (R385, R392). -/
def State.specRank (s : State) (p : Speculation) : Nat := if s.aged p.svc then 0 else p.svc.pri.toNat

/-! Where a consist fits (R277, R283, R369). -/

/-- A list, from the `n`th element on, round to it. -/
def rotate {α : Type} (n : Nat) (xs : List α) : List α := xs.drop (n % (xs.length + 1)) ++ xs.take (n % (xs.length + 1))

/-- A car that holds its core: it is resident, or something of it is still to end. -/
def State.holdsCore (s : State) (c : Car) : Bool :=
  c.life != .idle || !c.eng.posted.isEmpty || !c.eng.queue.isEmpty || !c.eng.copies.isEmpty || s.dev.fab.remote.any (fun r => r.car == c.ref)

/-- Free cores of permitted classes: no car holds them. -/
def State.freeCores (s : State) (cs : BitVec 3) : List Nat :=
  (s.dev.coresOf cs).filter (fun k => !s.cars.any (fun c => c.ident.coreId.toNat == k && s.holdsCore c))

/-- Cores on which a secondary of class `pri` may stand beside a primary of a real consist (R283, R385), as though the cars that
are `gone` were not there. -/
def State.secondaryCores (s : State) (cs : BitVec 3) (pri : Nat) (spec : Bool) (gone : Car → Bool) : List Nat :=
  (s.dev.coresOf cs).filter (fun k =>
    s.cars.any (fun c => c.ident.coreId.toNat == k && c.ident.merge == 1#2 && c.life != .idle && decide (s.carClass c ≤ pri)
      && (spec || !c.place.spec) && !gone c)
    && !s.cars.any (fun c => c.ident.coreId.toNat == k && c.place.secondary && s.holdsCore c && !gone c))

/-- Lines that no resident consist holds and that are not degraded (R277, R442). -/
def State.freeLines (s : State) : List Ix16 :=
  (List.finRange 16).filter (fun l => !s.dev.degraded l
    && !s.dev.sig.consists.any (fun x => x.saved.isNone && x.lines.any (fun y => y.2 == l)))

/-- A place for a consist. -/
structure Spot where
  secondary : Bool
  cores : List Nat
  lines : List Ix16
deriving DecidableEq, Repr

/-- The image that a car's instruction memory holds. -/
def Signal.holdsImage (x : Signal) (ref : Nat) (id : BitVec 32) : Bool := x.loaded.any (fun p => p.1 == ref && p.2 == id)

/-- A Timetable set is loaded or loadable; 0 names none (R404). -/
def Device.ttOk (d : Device) (n : BitVec 8) : Bool :=
  n == 0#8 || d.fab.hasSet n || (match d.ttSet n with
    | some x => d.fab.loadable n x
    | none => false)

/-- Where a consist of a service fits, with cores and lines that `free` says are free (R369): cores that hold the image
first; as secondaries only when it fits no other way (R283). -/
def State.spotIn (s : State) (r : List Word) (x : Image) (pri : Nat) (spec : Bool) (cores : List Nat) (lines : List Ix16)
    (gone : Car → Bool) : Option Spot :=
  let n := recNcars r
  let pick := fun (sec : Bool) (ks : List Nat) =>
    let ks := rotate (Config.placeChoice s.fresh) ks
    let has := fun (k : Nat) => s.dev.sig.holdsImage (2 * k + (if sec then 1 else 0)) x.id
    (ks.filter has ++ ks.filter (fun k => !has k)).take n
  let ls := (rotate (Config.placeChoice (s.fresh + 1)) lines).take (recNslots r)
  if lines.length < recNslots r ∨ !s.dev.ttOk (recTtset r) then none
  else if n ≤ cores.length then some ⟨false, pick false cores, ls⟩
  else
    let sec := s.secondaryCores (recClasses r) pri spec gone
    if recBg r && x.couples.isEmpty && !x.optical && decide (n ≤ sec.length) then some ⟨true, pick true sec, ls⟩ else none

/-- Where a consist of a record fits now. -/
def State.spot (s : State) (r : List Word) (x : Image) (pri : Nat) (spec : Bool) : Option Spot :=
  s.spotIn r x pri spec (s.freeCores (recClasses r)) s.freeLines (fun _ => false)

/-- Where a consist of a record would fit if a set of consists were gone (R372, R390). -/
def State.spotWithout (s : State) (r : List Word) (x : Image) (pri : Nat) (gone : Consist → Bool) : Option Spot :=
  let xs := s.dev.sig.consists.filter (fun c => gone c && c.saved.isNone)
  let cars := s.cars.filter (fun c => xs.any (fun y => y.holds c))
  let cores := s.freeCores (recClasses r) ++ (s.dev.coresOf (recClasses r)).filter (fun k =>
    cars.any (fun c => c.ident.coreId.toNat == k)
      && !s.cars.any (fun c => c.ident.coreId.toNat == k && s.holdsCore c && !xs.any (fun y => y.holds c)))
  let lines := s.freeLines ++ (xs.flatMap (fun y => y.lines.map (fun l => l.2))).filter (fun l => !s.dev.degraded l)
  s.spotIn r x pri false cores lines (fun c => xs.any (fun y => y.holds c))

/-! Turns (R370). -/

/-- Place of a service's queue in the rotation: one whose service has started keeps its turn, then come those that were never
served (R370). -/
def Signal.turnOf (x : Signal) (v : Service) : Nat :=
  (match x.turn.findIdx? (fun p => p == v.q) with
   | some i => i + 1
   | none => 0) + (if v.placed = 0 then 0x20000 else 0)

/-- The next consist of a real service could be placed now. -/
def State.placeable (s : State) (v : Service) : Bool :=
  s.dev.startable v && (match v.image with
    | some x => (s.spot v.record x (s.classOf v) false).isSome
    | none => false)

/-- A parked or stopped consist's cars as a service record asks for them. -/
def State.recordOf (s : State) (x : Consist) : List Word :=
  match s.dev.sig.services.find? (fun v => v.q == x.q && v.seq == x.seq) with
  | some v => v.record
  | none => []

/-- A saved consist could be resumed now (R373). -/
def State.resumable (s : State) (x : Consist) : Bool :=
  x.saved.isSome && !x.spec && !s.dev.house.fw.pending && (s.spot (s.recordOf x) x.image (s.consistClass x) false).isSome

/-- The image of a speculation's next consist, once it is adopted and while one remains to be placed (R392). -/
def Speculation.toPlace (p : Speculation) : Option Image :=
  match p.svc.image, p.svc.count with
  | some x, some n => if p.adopted && p.cause.isNone && decide (p.svc.placed < n.toNat) then some x else none
  | _, _ => none

/-- The record by which a speculation's consists are placed: the real one, once it is adopted (R392). -/
def State.specRecord (s : State) (p : Speculation) : List Word :=
  match (if p.adopted then s.dev.sig.services.find? (fun v => v.q == p.svc.q && v.seq == p.svc.seq) else none) with
  | some v => v.record
  | none => p.svc.record

/-- The next consist of an adopted speculation could be placed now: it is real for placement (R392, R460). -/
def State.specPlaceable (s : State) (p : Speculation) : Bool :=
  match p.toPlace with
  | some x => !s.dev.house.fw.pending && (s.spot (s.specRecord p) x p.svc.pri.toNat true).isSome
  | none => false

/-- The next consist of a service of class `k` is the one to place (R370, R392): lowest class, parked consists of the class first,
then the turn. -/
def State.before (s : State) (v : Service) (k : Nat) : Bool :=
  let first := fun (w : Service) (j : Nat) => (w.q == v.q && w.seq == v.seq) || decide (k < j)
    || (decide (k = j) && decide (s.dev.sig.turnOf v ≤ s.dev.sig.turnOf w))
  s.dev.sig.services.all (fun w => !s.placeable w || first w (s.rankOf w))
    && s.dev.sig.specs.all (fun p => !s.specPlaceable p || first p.svc (s.specRank p))
    && s.dev.sig.consists.all (fun x => !s.resumable x || decide (k < s.consistClass x))

/-- A real service's next consist is the one to place (R370). -/
def State.itsTurn (s : State) (v : Service) : Bool := s.before v (s.rankOf v)

/-- Some real consist could be placed now, one of an adopted speculation among them: a speculation stands back (R385, R392). -/
def State.realWaits (s : State) : Bool :=
  s.dev.sig.services.any s.placeable || s.dev.sig.specs.any s.specPlaceable || s.dev.sig.consists.any s.resumable

/-! The cars of a new consist (R12, R13, R101, R269 to R273, R282). -/

/-- The line of each coupling slot of a car. -/
def Image.slotsOf (x : Image) (lines : List (Fin 16 × Ix16)) (i : Nat) : List (Fin 16 × Ix16) :=
  lines.filter (fun l => (x.coupled l.1).contains i)

/-- One round of joining cars that share a slot: each takes the lowest label among them. Cars that are `gone` join none. -/
def joinRound (x : Image) (gone : List Nat) (labels : List Nat) : List Nat :=
  (List.finRange 16).foldl (fun ls slot =>
    match (x.coupled slot).filter (fun i => !gone.contains i) with
    | [] => ls
    | i :: is =>
      let low := (i :: is).foldl (fun m j => Nat.min m (ls.getD j 0)) (ls.getD i 0)
      ls.mapIdx (fun j l => if (i :: is).contains j then low else l)) labels

/-- The lowest car of each car's coupling domain (R273), when cars have left it (R276). -/
def Image.domains (x : Image) (gone : List Nat) : List Nat :=
  (List.range 16).foldl (fun ls _ => joinRound x gone ls) (List.range x.consist)

/-- The line of the lowest of a car's coupling slots (R101). -/
def lowestSlot (cs : List (Fin 16 × Ix16)) : Option Ix16 :=
  (cs.foldl (fun m x => match m with
    | none => some x
    | some y => if x.1 < y.1 then some x else some y) (none : Option (Fin 16 × Ix16))).map (·.2)

/-- The calibration of an array survives its cars; a request does not (R213, R439). -/
def Cal.kept (c : Cal) : Cal := { c with requested := false }

/-- The calibration of an array that has held no car since the start: it idles, so each period brings one (R439). It goes on from where
it stood at the last write of CAL_CTL. -/
def Device.idleCal (d : Device) : Cal :=
  let per := d.house.calper * Config.msCycles
  let due := Nat.max d.idleAt (d.idle.zero + per)
  let start := match d.idle.periodic with
    | some n => d.idleAt - n
    | none => due
  if d.now < start then d.idle
  else if d.now < start + Config.calCycles then { d.idle with periodic := some (d.now - start) }
  else
    let first := start + Config.calCycles
    let z := first + (d.now - first) / (per + Config.calCycles) * (per + Config.calCycles)
    { zero := z, periodic := if z + per ≤ d.now then some (d.now - (z + per)) else none }

/-- The calibration of a core's array. -/
def State.calOf (s : State) (core : Nat) : Cal :=
  match s.cars.find? (fun c => c.ident.coreId.toNat == core && !c.place.secondary) with
  | some c => c.arr.cal.kept
  | none => s.dev.idleCal

/-- s1 to s8 and s9 at release (R12, R269). -/
def presets (r : List Word) : Vector Word 72 :=
  Vector.ofFn (fun i => if 1 ≤ i.val ∧ i.val ≤ 8 then recWord r (4 + i.val) else if i.val = 9 then 0x5FFC0#64 else 0#64)

/-- Unspecified vector and mask contents at release (R12). -/
def freeVecs (n : Nat) : Tab VWord := (List.range 1024).map (fun i => (i, Config.anyVec n i))
def freeMasks (n : Nat) : Vector Mask 16 := Vector.ofFn (fun i => (Config.anyVec n (1024 + i.val)).extractLsb' 0 4096)

/-- The flags that an image presets (R269). -/
def Image.presetFlags (x : Image) : Vector (BitVec 16) 64 :=
  x.flags.foldl (fun f p => f.set p.1.val p.2 p.1.isLt) (Vector.replicate 64 0#16)

/-- The scratchpad at release (R269). -/
def Image.spad (x : Image) (args : List Word) : Mem :=
  (Mem.empty.write 0 (x.data.take Config.spadSize)).write 0x5FFC0 (wordBytes (padTo 8 args))

/-- What every car of a placed consist has in common. -/
structure Placement where
  svc : Service
  image : Image
  idx : BitVec 32
  spec : Bool
  secondary : Bool
  merge : BitVec 2
  lines : List (Fin 16 × Ix16)
  base : Nat
  release : Nat

/-- Instruction memory of a core that loads an image (R269). -/
def Image.imem (x : Image) : Mem := Mem.empty.write 0 (x.code.take Config.imemSize)

/-- The engines of a core that a car comes to: its TLBs hold what they held (R319). -/
def State.tlbsOf (s : State) (core : Nat) : Engines :=
  match s.cars.find? (fun c => c.ident.coreId.toNat == core) with
  | some c => { tlb := c.eng.tlb, copyTlb := c.eng.copyTlb }
  | none => {}

/-- Instruction memory of a core for an image: what it holds, if that is the image's id, else the image's code (R269, R363). -/
def State.imemFor (s : State) (ref : CarRef) (x : Image) : Mem :=
  match (if s.dev.sig.holdsImage ref x.id then s.find ref else none) with
  | some c => c.imem
  | none => x.imem

/-- A car as it stands before its release. Its class is that of the record (R271). -/
def State.newCar (s : State) (p : Placement) (i core : Nat) : Car :=
  let cs := p.image.slotsOf p.lines i
  let dom := (p.image.domains []).getD i i
  let ref := 2 * core + (if p.secondary then 1 else 0)
  { ident :=
      { coreId := BitVec.ofNat 9 core
        coreClass := (s.dev.house.coreClass core).getD .a
        carId := BitVec.ofNat 9 i
        ncars := BitVec.ofNat 9 p.image.consist
        consistId := p.idx
        serviceId := p.svc.q.setWidth 32 ++ p.svc.seq
        merge := p.merge }
    regs := { s := presets p.svc.record, v := freeVecs (s.fresh + i), k := freeMasks (s.fresh + i), f := p.image.presetFlags }
    ctl := { pri := p.svc.pri }
    eng := s.tlbsOf core
    pc := p.image.entry
    life := .held p.release
    spad := p.image.spad p.svc.args
    imem := s.imemFor ref p.image
    arr := { line := lowestSlot cs, cal := s.calOf core }
    place :=
      { couples := cs
        domain := if cs.isEmpty then none else some (p.base + dom)
        spec := p.spec
        secondary := p.secondary } }

/-- Put a car on its core. -/
def State.putCar (s : State) (c : Car) : State :=
  if s.cars.any (fun x => x.ref == c.ref) then s.mapAt c.ref (fun _ => c) else { s with peers := s.peers ++ [c] }

/-- Put the cars of a placement on cores. -/
def State.putCars (s : State) (p : Placement) (cores : List Nat) : State :=
  let s' := cores.zipIdx.foldl (fun t k => t.putCar (s.newCar p k.2 k.1)) s
  { s' with fresh := s.fresh + cores.length + 2 }

/-- CINV over the SM handles of a service on dies where it first places a car (R366). -/
def Device.cleanHandles (d : Device) (v : Service) (dies : List Nat) : Device :=
  let hs := (v.handles.map (fun h => Tab.get {} d.sig.bht h.1.toNat)).filter (fun h => h.sm)
  { d with cache := d.cache.filter (fun l => !(dies.contains l.die && hs.any (fun h =>
      (List.range 64).any (fun i => d.inHandle h (l.line * 64 + i))))) }

/-- CWBR over the SM handles that a service writes, on the dies that ran its cars (R366). -/
def Device.flushHandles (d : Device) (v : Service) : Device :=
  let hs := ((v.handles.filter (fun h => h.2.getLsbD 1)).map (fun h => Tab.get {} d.sig.bht h.1.toNat)).filter (fun h => h.sm)
  (d.cache.filter (fun l => v.dies.contains l.die && hs.any (fun h =>
    (List.range 64).any (fun i => d.inHandle h (l.line * 64 + i))))).foldl (fun d l => d.flushLine l.die l.line) d

/-- Cycles from placement to the release cycle (notes/assumptions/17.md). -/
def placeCycles : Nat := 256

/-- Place a consist on a spot (R269 to R273, R277, R283). -/
def State.placeOn (s : State) (v : Service) (x : Image) (idx : BitVec 32) (spec : Bool) (sp : Spot) : State :=
  let lines := (List.finRange 16).zip sp.lines
  let p : Placement :=
    { svc := v, image := x, idx := idx, spec := spec, secondary := sp.secondary
      merge := if sp.secondary then 3#2 else if Config.mergeChoice s.fresh then 1#2 else 0#2
      lines := lines, base := s.dev.nextId, release := s.now + placeCycles }
  let refs := sp.cores.map (fun k => 2 * k + (if sp.secondary then 1 else 0))
  let dies := (sp.cores.map (fun k => k / 16)).filter (fun d => !v.dies.contains d)
  let c : Consist :=
    { q := v.q, seq := v.seq, idx := idx, spec := spec, secondary := sp.secondary, image := x, cars := refs, lines := lines
      release := p.release, pri := v.pri, ttset := recTtset v.record }
  ((s.putCars p sp.cores).letGo (fun k => refs.contains k.ref && !sp.secondary)).mapDev (fun d =>
    let d := d.cleanHandles v dies
    { d with
      nextId := d.nextId + x.consist
      sig := { d.sig with
        consists := d.sig.consists ++ [c]
        loaded := refs.foldl (fun t r => Tab.set t r x.id) d.sig.loaded } })

/-- Note the cars that a service has placed. -/
def Service.nowPlaced (v : Service) (sp : Spot) (now : Nat) : Service :=
  { v with
    placed := v.placed + 1
    since := now
    dies := v.dies ++ ((sp.cores.map (fun k => k / 16)).filter (fun d => !v.dies.contains d)).eraseDups }

/-! Prediction (R380 to R383, R391). -/

/-- ARG1 to ARG8 of a record. -/
def recArgs (r : List Word) : List Word := (List.range 8).map (fun i => recWord r (5 + i))

/-- Words advanced by strides. -/
def advance (xs ss : List Word) : List Word := (List.range 8).map (fun i => xs.getD i 0#64 + ss.getD i 0#64)

/-- The predicted record and argument block (R381). -/
def History.predicted (h : History) : List Word × List Word :=
  let r := (List.range 16).map (fun i =>
    if 5 ≤ i ∧ i ≤ 12 then recWord h.lrec i + h.strideA.getD (i - 5) 0#64
    else if i = 15 then 0#32 ++ (h.lseq + 1#32) else recWord h.lrec i)
  (r, advance h.larg h.strideB)

/-- Fields that a claim and step 4 of R382 compare. -/
def sameShape (r t : List Word) : Bool :=
  recImage r == recImage t && recNcars r == recNcars t && recClasses r == recClasses t && recNslots r == recNslots t
    && recTtset r == recTtset t && recInd r == recInd t && recCount r == recCount t

/-- The argument words under a match mask are equal (R383). -/
def sameArgs (mask : Word) (xs ys : List Word) : Bool :=
  (List.range 16).all (fun i => !mask.getLsbD i || xs.getD i 0#64 == ys.getD i 0#64)

/-- The claim rule of R391: the real record against the predicted one. -/
def claims (mask : Word) (r : List Word) (args : List Word) (hs : List (BitVec 12 × BitVec 2)) (t : List Word) (targs : List Word)
    (ths : List (BitVec 12 × BitVec 2)) : Bool :=
  recSpec r && sameShape r t && hs == ths && sameArgs mask (recArgs r ++ args) (recArgs t ++ targs)

/-- The HIST entry of a service (R380). -/
def histWord (e : Bool) (seq image : BitVec 32) : Word := BitVec.ofBool e ++ seq.extractLsb' 0 31 ++ image

/-- Put an entry into HIST. -/
def History.note (h : History) (seq image : BitVec 32) (e : Bool) : History :=
  { h with hist := (padTo 8 h.hist).set (seq.toNat % 8) (histWord e seq image) }

/-- The history after the consumption of a record (R382). `lhs` is the handle list of LREC as it stands. -/
def History.learn (h : History) (v : Service) (lhs : Option (List (BitVec 12 × BitVec 2))) : History :=
  let h' := h.note v.seq (recImage v.record) false
  if v.err.isSome then { h' with conf := 0#2 }
  else
    let p := h.predicted
    let mask := (v.image.bind (fun x => x.specMask)).getD 0#64
    let hit := h.lseq + 1#32 == v.seq && (match lhs with
      | some l => claims mask v.record v.args v.handles p.1 p.2 l
      | none => false)
    let near := sameShape v.record h.lrec && lhs == some v.handles
    { h' with
      conf := if !h.valid then 0#2 else if hit then (if h.conf = 3#2 then 3#2 else h.conf + 1#2) else if near then 1#2 else 0#2
      strideA := if h.valid then (List.range 8).map (fun i => recWord v.record (5 + i) - recWord h.lrec (5 + i))
        else List.replicate 8 0#64
      strideB := if h.valid then (List.range 8).map (fun i => v.args.getD i 0#64 - h.larg.getD i 0#64) else List.replicate 8 0#64
      lrec := v.record
      larg := v.args
      lseq := v.seq
      valid := true }

end Sys2Proof.Machine
end

