-- ==== Sys2Proof/Machine/EventsQueue.lean ====
section
/-!
DEFINITION. The Signal box at work: doorbells, mailboxes, handle tables, slots, consumption, placement, release, the end of
cars, consists and services, and pre-emption (spec 14; 10 R269 to R289; 12 R331 to R334). An event whose condition does not
hold leaves the state as it is.
-/
namespace Sys2Proof.Machine

/-! Doorbells and mailboxes (R353, R356 to R358). -/

/-- Note an overrun (R357). -/
def Device.noteTail (d : Device) (c : Ctx) (tail head : BitVec 32) : Device :=
  if c.size < (tail - head).toNat then d.setDevStat 1#8 else d

/-- A doorbell of a queue whose context could be read. -/
def State.ring (s : State) (q : BitVec 16) (c : Ctx) (tail : BitVec 32) : State :=
  if !c.sane then s.mapDev (fun d => d.setDevStat 8#8)
  else if !c.en then s
  else match s.dev.sig.slotOf q with
    | some (_, x) =>
      if serialAfter tail x.tail then s.mapDev (fun d => (d.mapSlot q (fun x => { x with tail := tail })).noteTail c tail x.head) else s
    | none =>
      match s.dev.wordVa (c.va + 16) with
      | none => s.mapDev (fun d => d.setDevStat 8#8)
      | some w =>
        let w := BitVec.ofNat 64 w
        if serialAfter tail (w.extractLsb' 32 32) then
          match s.writeVa (c.va + 20) (bytesLE 4 tail.toNat) with
          | some t => t.mapDev (fun d => (d.noteTail c tail (w.extractLsb' 0 32)).want q)
          | none => s.mapDev (fun d => d.setDevStat 8#8)
        else s

/-- Step `k` of START_REC (R458). -/
def House.stepCode (h : House) (k : Nat) : Nat := (h.startRec.extractLsb' (2 * (k - 1)) 2).toNat

/-- The device answers over a path (R457): always to the Soson controller on the side-band; to the host and the fabric once the host link
has been trained, which no start in recovery and none that failed before it reaches. -/
def House.served (h : House) (sideBand : Bool) : Bool := sideBand || h.stepCode 8 == 1

/-- What a command over a path does; none that the device does not serve does anything (R457). -/
def State.over (s : State) (sideBand : Bool) (f : State → State) : State := if s.dev.house.served sideBand then f s else s

/-- A write of QDB (R350, R353, R356). -/
def State.doorbell (s : State) (v : Word) : State :=
  let q := v.extractLsb' 32 16
  if v.extractLsb' 48 16 ≠ 0#16 then s
  else match s.dev.ctx q with
    | .absent => s
    | .failed => s.mapDev (fun d => d.setDevStat 8#8)
    | .ok c => s.ring q c (v.extractLsb' 0 32)

/-- QUEUE_DOORBELL (R353): the host's; a device that serves only the side-band does not answer it (R457). -/
def execQueueDoorbell (v : Word) (s : State) : Result := .next (s.over false (fun s => s.doorbell v))

/-- Where a mailbox word stands: MBOX_BASE is a physical address (R358, R468). -/
def Device.mboxTarget (d : Device) (m : Nat) : Target :=
  d.decodePA false false false (d.sig.regs.mboxBase + BitVec.ofNat 52 (8 * m))

/-- Value of a mailbox: it stands in memory (R358); 0 where nothing does (R134). -/
def Device.mbox (d : Device) (m : Nat) : BitVec 32 := BitVec.ofNat 32 (d.readPhys none none (d.mboxTarget m) 4).nat

/-- A write of a mailbox (R356, R358). -/
def State.mailbox (s : State) (m : Fin 1024) (v : BitVec 32) : State :=
  if serialAfter v (s.dev.mbox m.val) then s.storeAt none none none (s.dev.mboxTarget m.val) (bytesLE 8 v.toNat) else s

/-- MAILBOX_WRITE (R358): the host's; a device that serves only the side-band does not answer it (R457). -/
def execMailboxWrite (m : Fin 1024) (v : BitVec 32) (s : State) : Result := .next (s.over false (fun s => s.mailbox m v))

/-! The buffer handle table (R364, R388). -/

/-- A consumed service that has not completed names a handle. -/
def Signal.named (x : Signal) (h : Nat) : Bool := x.services.any (fun v => !v.ended && v.handles.any (fun k => k.1.toNat == h))

/-- A word of an entry takes a value. -/
def Bht.put (b : Bht) (word : Nat) (v : Word) : Bht :=
  match word with
  | 0 => { b with base := v }
  | 1 => { b with len := v.extractLsb' 0 40 }
  | 2 => { b with sm := v.getLsbD 1, v := v.getLsbD 0 }
  | _ => b

/-- A write takes effect: a speculation that names the entry and is not adopted dooms (R388). -/
def Device.putBht (d : Device) (h word : Nat) (v : Word) : Device :=
  d.mapSig (fun x => { x with
    bht := Tab.set x.bht h ((Tab.get {} x.bht h).put word v)
    specs := x.specs.map (fun p => if p.svc.handles.any (fun k => k.1.toNat == h) then p.ends .doomed d.now else p) })

/-- BHT_WRITE (R364, R388): held while a consumed service names the entry, and behind writes that are held. -/
def execBhtWrite (h : Fin 4096) (word : Fin 4) (v : Word) (s : State) : Result :=
  .next (s.mapDev (fun d =>
    if word.val = 3 then d
    else if d.sig.named h.val || d.sig.held.any (fun x => x.1 == h.val) then
      (d.mapSig (fun x => { x with held := x.held ++ [(h.val, word.val, v)] })).setDevStat 2#8
    else d.putBht h.val word.val v))

/-- BHT_WRITE_APPLY (R364). -/
def execBhtWriteApply (h : Fin 4096) (s : State) : Result :=
  .next (s.mapDev (fun d =>
    if d.sig.named h.val then d
    else
      let mine := d.sig.held.filter (fun x => x.1 == h.val)
      (mine.foldl (fun d x => d.putBht x.1 x.2.1 x.2.2) d).mapSig (fun x => { x with held := x.held.filter (fun y => y.1 != h.val) })))

/-! Slots (R352 to R355, R380). -/

/-- A speculation that is not adopted ends for a reason that counts as a miss (R379, R397, R460). -/
def Device.missSpec (d : Device) (f : Speculation → Bool) : Device :=
  d.mapSig (fun x => { x with specs := x.specs.map (fun p => if !p.adopted && f p then p.ends .missed d.now else p) })

/-- A free hardware slot. -/
def Signal.freeSlot (x : Signal) : Option Nat := (List.range 128).find? (fun i => !x.slots.any (fun s => s.1 == i))

/-- CLASS_MIN of a class. -/
def HostRegs.classMinOf (r : HostRegs) (c : Nat) : Nat := (r.classMin.extractLsb' (8 * c) 8).toNat

/-- QCLASS of a mapped queue, from its context. -/
def Device.qclass (d : Device) (q : BitVec 16) : Nat :=
  match d.ctx q with
  | .ok c => c.cls.toNat
  | _ => 0

/-- Slots that a class holds. -/
def Device.slotsHeld (d : Device) (c : Nat) : Nat := (d.sig.slots.filter (fun x => d.qclass x.2.q == c)).length

/-- The borrower to unmap (R354): from the numerically highest class with one, the queue mapped longest ago. -/
def Device.borrower (d : Device) : Option (BitVec 16) :=
  match [3, 2, 1, 0].find? (fun c => decide (d.sig.regs.classMinOf c < d.slotsHeld c)) with
  | none => none
  | some c =>
    ((d.sig.slots.filter (fun x => d.qclass x.2.q == c)).foldl (fun m x => match m with
      | none => some x.2
      | some y => if x.2.mapped < y.mapped then some x.2 else some y) (none : Option QSlot)).map (·.q)

/-- A queue that asks for a slot takes a free one (R352, R354, R380), unless its context cannot be read. -/
def Device.mapInto (d : Device) (q : BitVec 16) (i : Nat) : Device :=
  let gone := d.mapSig (fun x => { x with wanted := x.wanted.filter (· != q) })
  match d.ctx q with
  | .absent => gone
  | .failed => gone.setDevStat 8#8
  | .ok c =>
    match d.wordsVa (c.va + 16) 51 with
    | none => gone.setDevStat 8#8
    | some ws =>
      let w := ws.getD 0 0#64
      let h := History.ofWords (ws.drop 2)
      let slot : QSlot :=
        { q := q, head := w.extractLsb' 0 32, tail := w.extractLsb' 32 32, mapped := d.now, hist := h
          lhs := (d.handleList h.lrec).map (fun es => es.map handleOf) }
      gone.mapSig (fun x => { x with slots := Tab.set x.slots i slot })

/-- SLOT_MAP (R354): a queue that asks for a slot takes a free one, or a borrower is chosen, which gives its slot to it. -/
def execSlotMap (q : BitVec 16) (s : State) : Result :=
  .next (s.mapDev (fun d =>
    if !d.sig.wanted.contains q || (d.sig.slotOf q).isSome then d
    else match d.sig.freeSlot, d.ctx q with
      | none, .ok c =>
        if d.sig.slots.any (fun x => x.2.unmapping) || decide (d.sig.regs.classMinOf c.cls.toNat ≤ d.slotsHeld c.cls.toNat) then d
        else (match d.borrower with
          | some b => d.mapSlot b (fun x => { x with unmapping := true, heir := some q })
          | none => d)
      | i, _ => d.mapInto q (i.getD 0)))

/-- SLOT_UNMAP (R355, R380, R397): head, tail and history go to the context block, then the queue for which the slot was freed takes
it (R354). -/
def execSlotUnmap (q : BitVec 16) (s : State) : Result :=
  .next (match s.dev.sig.slotOf q with
    | none => s
    | some (i, x) =>
      if !x.unmapping then s
      else
        let s := match s.dev.ctx q with
          | .ok c =>
            let s := (s.writeVa (c.va + 16) (wordBytes [x.tail ++ x.head])).getD s
            (s.writeVa (c.va + 32) (wordBytes (x.hist.words ++ List.replicate 75 0#64))).getD s
          | _ => s
        s.mapDev (fun d =>
          let d := (d.mapSig (fun y => { y with slots := Tab.erase y.slots i })).missSpec (fun p => p.svc.q == q)
          let d := match x.heir with
            | some w => if d.sig.wanted.contains w && (d.sig.slotOf w).isNone then d.mapInto w i else d
            | none => d
          if x.tail = x.head then d else d.want q))

/-! Consumption (R357, R361, R362, R382, R391). -/

/-- The real record meets the speculation of its sequence number (R391): claimed, or a miss. -/
def Device.meet (d : Device) (v : Service) : Device :=
  d.mapSig (fun x => { x with specs := x.specs.map (fun p =>
    if p.svc.q != v.q || p.svc.seq != v.seq || p.cause.isSome then p
    else
      let mask := (p.svc.image.bind (fun i => i.specMask)).getD 0#64
      if v.err.isNone && claims mask v.record v.args v.handles p.svc.record p.svc.args p.svc.handles then
        { p with adopted := true, svc := { p.svc with pri := recPri v.record } }
      else p.ends .missed d.now) })

/-- The consists of an adopted speculation take the real record's class (R392). -/
def State.adopt (s : State) (v : Service) : State :=
  match s.dev.sig.specOf v.q v.seq with
  | none => s
  | some p =>
    if !p.adopted then s
    else
      let mine := fun (x : Consist) => x.spec && x.q == v.q && x.seq == v.seq
      let s := s.mapCars (fun c => if s.dev.sig.consists.any (fun x => mine x && x.holds c)
        then { c with ctl := { c.ctl with pri := recPri v.record } } else c)
      s.mapDev (fun d => d.mapSig (fun y => { y with consists := y.consists.map (fun x =>
        if mine x then { x with pri := recPri v.record } else x) }))

/-- A published record is consumed (R362): the head advances, HEADRPT is written, the checks are made, the speculation of
the record is claimed or missed, and the history learns. -/
def State.consume (s : State) (x : QSlot) (c : Ctx) (r : List Word) : State :=
  let k := s.dev.check r
  let v : Service :=
    { q := x.q, seq := x.head, order := s.dev.sig.order, record := r, args := k.args, handles := k.entries.map handleOf
      image := k.image, err := k.err.map (fun e => (e, 0#9))
      count := if recInd r then none else some ((recCount r).extractLsb' 0 32)
      since := s.now, pri := recPri r }
  let v := if v.err.isSome then { v with handles := [] } else v
  let s := (s.writeVa (c.va + 24) (bytesLE 4 (x.head + 1#32).toNat)).getD s
  let s := s.mapDev (fun d =>
    let d := d.meet v
    let d := d.mapSlot x.q (fun y => { y with
      head := y.head + 1#32
      failed := false
      hist := y.hist.learn v y.lhs
      lhs := if v.err.isSome then y.lhs else some v.handles })
    d.mapSig (fun y => { y with
      order := y.order + 1
      services := y.services ++ [v]
      bht := v.handles.foldl (fun t h => if h.2.getLsbD 1 then
        Tab.set t h.1.toNat { Tab.get {} t h.1.toNat with lastw := x.q.setWidth 32 ++ x.head } else t) y.bht }))
  s.adopt v

/-- Look at the record at the head of a mapped queue (R357, R361). -/
def State.consider (s : State) (q : BitVec 16) : State :=
  match s.dev.sig.slotOf q with
  | none => s
  | some (_, x) =>
    if !s.dev.sig.regs.enable || s.dev.house.fw.pending || x.unmapping || x.head == x.tail then s
    else
      let fail := s.mapDev (fun d => (d.mapSlot q (fun y => { y with failed := true })).setDevStat 8#8)
      match s.dev.ctx q with
      | .ok c =>
        if !c.sane then fail
        else match s.dev.wordsVa (c.ring + 128 * (x.head.toNat % c.size)) 16 with
          | none => fail
          | some r => if recSeq r = x.head then s.consume x c r else s.mapDev (fun d => d.mapSlot q (fun y => { y with failed := false }))
      | _ => fail

/-- CONSUME_RECORD (R361, R362). -/
def execConsumeRecord (q : BitVec 16) (s : State) : Result :=
  .next (match s.dev.sig.slotOf q with
    | some (_, x) => if x.failed then s else s.consider q
    | none => s)

/-- RECORD_REREAD (R361). -/
def execRecordReread (q : BitVec 16) (s : State) : Result :=
  .next (match s.dev.sig.slotOf q with
    | some (_, x) => if x.failed then s.consider q else s
    | none => s)

/-- The address of an indirect count lies inside a handle that the service names (R368). -/
def Device.countInHandle (d : Device) (v : Service) : Bool :=
  v.handles.any (fun h =>
    let b := Tab.get {} d.sig.bht h.1.toNat
    decide (b.base.toNat ≤ (recCount v.record).toNat ∧ (recCount v.record).toNat + 4 ≤ b.base.toNat + b.len.toNat))

/-- COUNT_READ (R368). -/
def execCountRead (q : BitVec 16) (seq : BitVec 32) (s : State) : Result :=
  .next (match s.dev.sig.services.find? (fun v => v.q == q && v.seq == seq) with
    | none => s
    | some v =>
      let earlier := s.dev.sig.services.all (fun u => u.q != q || decide (v.order ≤ u.order) || u.ended)
      if v.count.isSome || v.err.isSome || !s.dev.sig.atHead v || s.dev.sig.heldBack v || !(s.dev.countInHandle v || earlier) then s
      else match s.dev.readVa (recCount v.record).toNat 4 with
        | some bs => s.mapService q seq (fun v => { v with count := some (BitVec.ofNat 32 (natLE bs)), since := s.now })
        | none => s.mapService q seq (fun v => { v with err := some (5#8, 0#9) }))

/-! Placement and release (R269, R369, R370, R385, R466). -/

/-- Put a served queue at the end of the rotation once its service is placed (R370). -/
def Signal.served (x : Signal) (v : Service) : Signal :=
  match v.count with
  | some n => if v.placed + 1 < n.toNat then x else { x with turn := x.turn.filter (· != v.q) ++ [v.q] }
  | none => x

/-- The image as it stands when cores load it; none when its code, which a core that does not hold the image loads, or its `.data`,
which every new car takes, cannot be read (R269, R363, R466). -/
def Device.imageNow (d : Device) (x : Image) (code data : Bool) : Option Image :=
  (d.imageOf x.id x.size x.va.toNat).filter (fun y =>
    let a := x.va.toNat + y.header
    (!code || d.readable a y.code.length) && (!data || d.readable (a + y.code.length) y.data.length))

/-- Some core of a spot does not hold an image. -/
def Signal.loads (x : Signal) (sp : Spot) (id : BitVec 32) : Bool :=
  sp.cores.any (fun k => !x.holdsImage (2 * k + (if sp.secondary then 1 else 0)) id)

/-- An image with code and `.data` as they stand. -/
def Image.reread (x y : Image) : Image := { x with code := y.code, data := y.data }

/-- A set that a service names and that cannot be read or is malformed (R404). -/
def Device.ttBad (d : Device) (n : BitVec 8) : Bool := n != 0#8 && (d.ttSet n).isNone

/-- A service ends with an error before a consist of it starts: none that has not started starts (R288, R375). -/
def State.failService (s : State) (v : Service) (cause : BitVec 8) : State :=
  (s.mapService v.q v.seq (fun v => { v with err := some (cause, 0#9) })).dropWaiting v.q v.seq

/-- Place the next consist of a real service. -/
def State.placeReal (s : State) (v : Service) (idx : BitVec 32) : State :=
  match v.image with
  | none => s
  | some x =>
    if !s.dev.startable v || idx.toNat != v.placed then s
    else if s.dev.ttBad (recTtset v.record) then s.failService v 3#8
    else match s.spot v.record x (s.classOf v) false with
      | none => s
      | some sp =>
        if !s.itsTurn v then s
        else match s.dev.imageNow x (s.dev.sig.loads sp x.id) true with
          | none => s.failService v 2#8
          | some img => ((s.placeOn v (x.reread img) idx false sp).mapService v.q v.seq
              (fun v => v.nowPlaced sp s.now)).mapDev (fun d => d.mapSig (fun y => y.served v))

/-- Place the next consist of a speculation, where no real consist would be (R385); one of an adopted speculation is placed in the
order of the real ones (R392). -/
def State.placeSpec (s : State) (p : Speculation) (idx : BitVec 32) : State :=
  let v := p.svc
  match v.image, v.count with
  | some x, some n =>
    if s.dev.house.fw.pending || idx.toNat != v.placed || decide (n.toNat ≤ v.placed)
        || (if p.adopted then !s.before v (s.specRank p) else s.realWaits) then s
    else match s.spot (s.specRecord p) x v.pri.toNat true with
      | none => s
      | some sp =>
      match s.dev.imageNow x (s.dev.sig.loads sp x.id) true with
      | some img =>
        (s.placeOn v (x.reread img) idx true sp).mapDev (fun d =>
          (d.mapSpec v.q v.seq (fun p => { p with svc := p.svc.nowPlaced sp s.now })).mapSig (fun y =>
            if p.adopted then y.served v else y))
      | none => s.doomSpec v.q v.seq
  | _, _ => s

/-- PLACE_CONSIST (R269, R369). -/
def execPlaceConsist (q : BitVec 16) (seq idx : BitVec 32) (s : State) : Result :=
  .next (match s.dev.sig.specOf q seq with
    | some p => s.placeSpec p idx
    | none =>
      match s.dev.sig.services.find? (fun v => v.q == q && v.seq == seq) with
      | some v => s.placeReal v idx
      | none => s)

/-- A consist of the same service with a lower CONSIST_ID still waits for its first release (R367). -/
def Signal.earlierWaits (x : Signal) (c : Consist) : Bool :=
  !c.resumed && x.consists.any (fun y => y.q == c.q && y.seq == c.seq && y.spec == c.spec && decide (y.idx < c.idx) && !y.released
    && !y.resumed && y.saved.isNone)

/-- The service of a consist has ended with an error: what has not started does not start (R288, R375). -/
def Signal.failedFor (x : Signal) (c : Consist) : Bool :=
  !c.spec && x.services.any (fun v => v.q == c.q && v.seq == c.seq && v.err.isSome)

/-- The consist of a name whose release is due: its cycle has come, its Timetable set is loaded, those before it have been released
(R269, R367, R404), and no firmware activation holds back a new one (R460). -/
def State.toRelease (s : State) (q : BitVec 16) (seq idx : BitVec 32) : Option Consist :=
  s.dev.sig.consists.find? (fun x => x.q == q && x.seq == seq && x.idx == idx && !x.released && x.saved.isNone
    && decide (x.release ≤ s.now) && (x.ttset == 0#8 || s.dev.fab.hasSet x.ttset)
    && !s.dev.sig.earlierWaits x && !s.dev.sig.failedFor x && (!s.dev.house.fw.pending || x.resumed))

/-- The first release of a service's consist sets TSTART (R374). -/
def Service.started (v : Service) (t : Word) : Service := { v with tstart := some (v.tstart.getD t) }

/-- Global time as the Signal box reads it, on the I/O die in socket 57. -/
def Device.boxTime (d : Device) : Word := d.tstamp 57

/-- CONSIST_RELEASE (R269, R270): every car makes its first issue attempt in this cycle. -/
def execConsistRelease (q : BitVec 16) (seq idx : BitVec 32) (s : State) : Result :=
  .next (match s.toRelease q seq idx with
    | none => s
    | some x =>
      let s := s.mapCars (fun c => if x.holds c then (match c.life with
        | .held _ => { c with life := .running, ready := s.now, done := false }
        | _ => c) else c)
      let s := s.mapConsist x (fun y => { y with released := true, since := s.now })
      if x.spec then s.mapDev (fun d => d.mapSpec q seq (fun p => { p with svc := p.svc.started d.boxTime }))
      else s.mapService q seq (fun v => v.started s.dev.boxTime))

/-! The end of cars, consists and services (R147, R289, R374 to R377). -/

/-- Everything that a halted car issued has completed (R147). -/
def State.spent (s : State) (c : Car) : Bool :=
  c.life == .halted && c.eng.copies.isEmpty && c.eng.ranges.isEmpty && c.eng.unmaps.isEmpty && c.eng.releases.isEmpty
    && !s.writesOut c && !s.dev.streams.any (fun x => x.car == c.ref)

/-- What a car leaves on its core when its consist ends or parks: instruction memory and the state of its array, with no window open
(R213, R332). -/
def Car.leaveCore (c : Car) : Car :=
  { c with
    life := .idle
    wait := []
    flight := []
    preempt := none
    arr := { c.arr.discard (BitVec.allOnes 16) with cal := c.arr.cal.kept }
    eng := { c.eng with stash := [], releases := [] }
    place := { c.place with domain := none, couples := [] } }

/-- A consist whose cars have all finished completes: its lines and cores are free (R289). -/
def State.consistEnds (s : State) (x : Consist) : State :=
  let mine := s.cars.filter x.holds
  if !x.released || mine.length != x.image.consist || !mine.all (fun c => c.life == .finished) then s
  else
    let s := ((s.letGo x.holds).mapCars (fun c => if x.holds c then c.leaveCore else c)).mapDev (fun d =>
      (d.mapSig (fun y => { y with consists := y.consists.filter (fun z => !z.same x) })).sweepSets)
    if x.spec then s.mapDev (fun d => d.mapSpec x.q x.seq (fun p => { p with svc := { p.svc with finished := p.svc.finished + 1 } }))
    else s.mapService x.q x.seq (fun v => { v with finished := v.finished + 1 })

/-- CAR_FINISH (R147, R289). -/
def execCarFinish (c : CarRef) (s : State) : Result :=
  let t := s.atCar c (fun s => if s.spent s.car then s.mapCar (fun k => { k with life := .finished }) else s)
  .next (match (t.find c).bind t.consistOf with
    | some x => t.consistEnds x
    | none => t)

/-- A service has completed (R374): every consist, or with an error and no consist of it left running. -/
def Signal.over (x : Signal) (v : Service) : Bool :=
  (v.err.isSome && !x.consists.any (fun c => c.q == v.q && c.seq == v.seq && !c.spec))
    || (match v.count with
        | some n => decide (n.toNat ≤ v.finished)
        | none => false)

/-- Set E in the HIST entry of a service that ended with an error (R382). -/
def History.fault (h : History) (v : Service) : History :=
  let old := (padTo 8 h.hist).getD (v.seq.toNat % 8) 0#64
  if v.err.isSome && old.extractLsb' 32 31 == v.seq.extractLsb' 0 31 then h.note v.seq (recImage v.record) true else h

/-- Word 0 of a completion record (R374). -/
def Service.compWord (v : Service) : Word :=
  let e := v.err.getD (0#8, 0#9)
  BitVec.ofBool v.claimed ++ BitVec.ofBool v.err.isSome ++ 0#6 ++ e.1 ++ 0#7 ++ e.2 ++ v.seq

/-- The completion record (R374): words 0 to 2, then word 3; a failed write sets DEV_STAT bit 4 (R377). -/
def State.writeCompletion (s : State) (v : Service) : State :=
  if recCompAddr v.record = 0#64 then s
  else
    let a := (recCompAddr v.record).toNat
    let failed := fun (s : State) => s.mapDev (fun d => d.setDevStat 16#8)
    match s.writeVa a (wordBytes [v.compWord, v.tstart.getD 0#64, v.tend]) with
    | none => failed s
    | some t =>
      match t.writeVa (a + 24) (wordBytes [recCompValue v.record]) with
      | none => failed t
      | some u => u

/-- HIST of a queue that holds no slot stands in its context block (R382). -/
def State.faultContext (s : State) (v : Service) : State :=
  match s.dev.sig.slotOf v.q, s.dev.ctx v.q with
  | none, .ok c =>
    (match s.dev.wordsVa (c.va + 32) 49 with
     | some ws => (s.writeVa (c.va + 32) (wordBytes ((History.ofWords ws).fault v).words)).getD s
     | none => s)
  | _, _ => s

/-- Something that the aborted cars of a service issued has still to perform or to end: its release waits for it (R288, R366). -/
def State.leftover (s : State) (v : Service) : Bool :=
  s.cars.any (fun c => !c.place.spec && c.ident.serviceId == v.q.setWidth 32 ++ v.seq && c.life == .idle && s.holdsCore c)

/-- A service completes with its range operations and its release (R366, R374). -/
def State.serviceEnds (s : State) (v : Service) : State :=
  if v.ended || !s.dev.sig.over v || s.leftover v then s
  else
    let s := s.mapDev (fun d => (d.flushHandles v).mapSlot v.q (fun x => { x with hist := x.hist.fault v }))
    let s := if v.err.isSome then s.faultContext v else s
    s.mapService v.q v.seq (fun u => { u with ended := true, tend := s.dev.boxTime })

/-- The records of earlier services of the queue have been written (R376). -/
def Signal.mayReport (x : Signal) (v : Service) : Bool :=
  v.ended && x.services.all (fun u => u.q != v.q || decide (v.order ≤ u.order))

/-- SERVICE_COMPLETE (R374 to R377). -/
def execServiceComplete (q : BitVec 16) (seq : BitVec 32) (s : State) : Result :=
  let find := fun (s : State) => s.dev.sig.services.find? (fun v => v.q == q && v.seq == seq)
  let s := match find s with
    | some v => s.serviceEnds v
    | none => s
  .next (match find s with
    | none => s
    | some v =>
      if !s.dev.sig.mayReport v then s
      else
        (s.writeCompletion v).mapDev (fun d =>
          let d := d.mapSig (fun x => { x with services := x.services.filter (fun u => !(u.q == q && u.seq == seq)) })
          if recMsixEn v.record then d.emit [.msix (recMsix v.record)] else d))

/-! Pre-emption (R331 to R334, R372, R373). -/

/-- A service waits that a consist's cores would let in (R372): one with a new consist, an adopted one (R392), or one with a saved
consist. -/
def State.wouldHelp (s : State) (x : Consist) : Bool :=
  let late := fun (since : Nat) => decide (since + s.dev.sig.regs.preWait.toNat * Config.usCycles ≤ s.now)
  s.dev.sig.services.any (fun v => s.dev.startable v && !s.placeable v && decide (s.classOf v < s.consistClass x) && late v.since
    && (match v.image with
        | some i => (s.spotWithout v.record i (s.classOf v) (fun y => y.same x)).isSome
        | none => false))
  || s.dev.sig.specs.any (fun p => !s.specPlaceable p && decide (p.svc.pri.toNat < s.consistClass x) && late p.svc.since
    && (match p.toPlace with
        | some i => (s.spotWithout (s.specRecord p) i p.svc.pri.toNat (fun y => y.same x)).isSome
        | none => false))
  || s.dev.sig.consists.any (fun y => y.saved.isSome && !y.spec && !s.resumable y && decide (s.consistClass y < s.consistClass x)
    && late y.since && (s.spotWithout (s.recordOf y) y.image (s.consistClass y) (fun z => z.same x)).isSome)

/-- A consist is one that pre-emption may choose: it runs, is not asked yet, and would help. -/
def State.candidate (s : State) (x : Consist) : Bool :=
  x.saved.isNone && x.released && x.preempt.isNone && !x.forced && s.wouldHelp x

/-- A candidate stands before another: numerically highest class, then most recently released (R372). -/
def State.ahead (s : State) (x y : Consist) : Bool :=
  decide (s.consistClass y < s.consistClass x) || (s.consistClass y == s.consistClass x && decide (y.since ≤ x.since))

/-- The one that pre-emption chooses (R372), among those for whose images the save area has room; none while a speculation that is
not adopted could be discarded first. -/
def State.chosen (s : State) (x : Consist) : Bool :=
  s.candidate x && s.dev.saveRoom x && s.dev.sig.specs.all (fun p => p.adopted)
    && s.dev.sig.consists.all (fun y => y.same x || !s.candidate y || !s.dev.saveRoom y || s.ahead x y)

/-- Pre-emption would choose a consist, and the save area has no room for any candidate's image (R372). -/
def State.noRoom (s : State) (x : Consist) : Bool :=
  s.candidate x && s.dev.sig.specs.all (fun p => p.adopted) && s.dev.sig.consists.all (fun y => !s.candidate y || !s.dev.saveRoom y)

/-- The consist of a name. -/
def Signal.consist (x : Signal) (q : BitVec 16) (seq idx : BitVec 32) : Option Consist :=
  x.consists.find? (fun c => c.q == q && c.seq == seq && c.idx == idx)

/-- A secondary consist's class has come to lie numerically below a primary's, by YPRI or inheritance (R284). -/
def State.lowSecondary (s : State) (x : Consist) : Bool :=
  x.secondary && (s.cars.filter x.holds).any (fun c => match s.primaryOf c with
    | some p => decide (s.consistClass x < s.carClass p)
    | none => false)

/-- PREEMPT_REQUEST (R372, R284, R392): a consist of an adopted speculation is not asked, its service is discarded. -/
def execPreemptRequest (q : BitVec 16) (seq idx : BitVec 32) (s : State) : Result :=
  .next (match s.dev.sig.consist q seq idx with
    | none => s
    | some x =>
      if x.spec then (if s.chosen x then s.doomSpec q seq else s)
      else if s.chosen x || s.noRoom x || (x.released && x.saved.isNone && s.lowSecondary x) then s.requestPreempt x else s)

/-- Everything of a car that a park waits for has come to rest (R332). -/
def State.quiet (s : State) (c : Car) : Bool :=
  c.eng.copies.all (fun k => k.state != .running || k.op == .cls || k.op == .clsf) && c.eng.ranges.isEmpty && c.eng.unmaps.isEmpty
    && c.eng.posted.isEmpty && c.eng.queue.isEmpty && c.eng.releases.isEmpty && c.flight.isEmpty && !s.dev.fab.remote.any (fun r => r.car == c.ref)

/-- The vector registers of a park point survive; the others are unspecified (R264). -/
def Car.parkVecs (c : Car) (x : Image) (n : Nat) : Tab VWord :=
  match x.parks.find? (fun p => p.1 == c.tr.lastPc) with
  | none => freeVecs n
  | some p =>
    (List.range 1024).map (fun i =>
      if (List.range 64).any (fun v => p.2.1.getLsbD v && c.bank (p.2.2.extractLsb' 0 4) * 64 + v == i) then (i, c.rV i)
      else (i, Config.anyVec n i))

/-- A car's array across a park (R213). -/
def Arr.parked (a : Arr) : Arr :=
  { a with
    groups := a.groups.map (fun g => { gain := g.gain })
    queue := []
    ovf := false
    remap := false
    cal := a.cal.kept }

/-- The focused car's dirty stash bytes go to their tiles, and its mappings stand unfilled (R332). -/
def State.parkStash (s : State) : State :=
  (s.car.eng.stash.foldl (fun s m => s.backGranules m (List.range (m.len / 64))) s).mapCar (fun c => { c with
    eng := { c.eng with stash := c.eng.stash.map (fun m => { m with filled := [], dirty := [], filling := [] }) } })

/-- A car as it is saved. -/
def Car.saved (c : Car) (x : Consist) (n : Nat) : Car :=
  { c with
    regs := if x.forced then c.regs else { c.regs with v := c.parkVecs x.image n }
    arr := c.arr.parked
    preempt := none
    life := if c.life = .finished then .finished else .parked
    done := false }

/-- Save a consist's cars: their cores and lines are free (R264, R332, R333). One of a service that has been aborted is dropped (R288). -/
def State.save (s : State) (x : Consist) : State :=
  let s := s.mapCars (fun c => if x.holds c then { c with place := { c.place with domain := none } } else c)
  let s := s.endStreams
  let s := (s.cars.filter x.holds).foldl (fun s c => s.atCar c.ref State.parkStash) s
  let cs := (s.cars.filter x.holds).zipIdx.map (fun p => p.1.saved x (s.fresh + p.2))
  let s := (({ s with fresh := s.fresh + cs.length }).letGo x.holds).mapCars (fun c => if x.holds c then c.leaveCore else c)
  let s := (s.mapConsist x (fun y => { y with saved := some cs, cars := [], since := s.now })).mapDev Device.sweepSets
  if s.dev.sig.failedFor x then s.dropWaiting x.q x.seq else s

/-- CONSIST_PARK (R264, R332): every car stands at a YPARK or has finished, or all were stopped by force, and nothing is
under way. A forced stop that has begun is carried through (R333). -/
def execConsistPark (q : BitVec 16) (seq idx : BitVec 32) (s : State) : Result :=
  .next (match s.dev.sig.consist q seq idx with
    | none => s
    | some x =>
      let mine := s.cars.filter x.holds
      if x.saved.isSome || x.spec || mine.isEmpty || (x.extended && !x.forced)
          || !mine.all (fun c => s.quiet c && (c.life == .finished || c.life == .parked || (c.life == .running && c.parkedHere))) then s
      else s.save x)

/-- A car with traps unmasked is stopped by force at its next boundary: its snapshot is latched (R333). -/
def Car.forceStop (c : Car) (now : Nat) : Car :=
  if c.life = .running ∧ !c.tr.masked then
    { c.enter { cause := .preemptForced, taddr := c.pc.setWidth 64 } c.pc c.tr.lastPc now now with life := .parked }
  else c

/-- FORCED_STOP (R333): every car with traps unmasked stops; one with traps masked is given one further PRDL, in which it stops when
it unmasks them; then the consist is aborted. -/
def execForcedStop (q : BitVec 16) (seq idx : BitVec 32) (s : State) : Result :=
  .next (match s.dev.sig.consist q seq idx with
    | none => s
    | some x =>
      match x.preempt with
      | none => s
      | some t =>
        if (s.now < t ∧ !x.extended) ∨ x.forced ∨ x.saved.isSome then s
        else if x.spec then s.doomSpec q seq
        else
          let r := s.mapCars (fun c => if x.holds c then c.forceStop s.now else c)
          match (r.cars.filter x.holds).find? (fun c => c.life == .running) with
          | none => r.mapConsist x (fun y => { y with forced := true })
          | some c =>
            if !x.extended then r.mapConsist x (fun y =>
              { y with preempt := some (t + s.dev.sig.regs.prdl.toNat * Config.usCycles), extended := true })
            else if s.now < t then r
            else s.abortConsist x 9#8 c.ident.carId)

/-- The windows of a car that is resumed: those to cars of its consist name their new cores, the others are off (R272). -/
def Car.rewire (c : Car) (old new : List (BitVec 9)) : Car :=
  { c with ctl := { c.ctl with wmap := c.ctl.wmap.map (fun w =>
      if !w.getLsbD 9 then w
      else match old.findIdx? (fun k => k == w.extractLsb' 0 9) with
        | some i => 1#1 ++ new.getD i 0#9
        | none => 0#1 ++ w.extractLsb' 0 9) } }

/-- The name by which a car of a MERGE role selects a physical bank, and the bank that it selects by a name (R14, R282). -/
def bankName (m : BitVec 2) (p : Nat) : Option Nat :=
  if !m.getLsbD 0 then some p else if p / 8 = (if m.getLsbD 1 then 1 else 0) then some (p % 8) else none
def bankNamed (m : BitVec 2) (n : Nat) : Option Nat :=
  if !m.getLsbD 0 then some n else if n < 8 then some ((if m.getLsbD 1 then 8 else 0) + n) else none

/-- The vector registers of a saved car in the banks that its names select in a new MERGE role (R13); what it cannot name there is
unspecified. -/
def Car.vecsFor (c : Car) (m : BitVec 2) (n : Nat) : Tab VWord :=
  if m = c.ident.merge then c.regs.v
  else (List.range 1024).map (fun i => match (bankName m (i / 64)).bind (bankNamed c.ident.merge) with
    | some b => (i, c.rV (64 * b + i % 64))
    | none => (i, Config.anyVec n i))

/-- Cars of a consist that left their coupling domain before it was saved (R276). -/
def departed (cars : List Car) : List Nat :=
  (cars.filter (fun c => c.place.munc || c.life == .finished)).map (fun c => c.ident.carId.toNat)

/-- A saved car on its new core (R264, R272, R334). Copies that had faulted hold their numbers, and their faults are pending
again (R332). -/
def State.revive (s : State) (x : Consist) (p : Placement) (gone : List Nat) (olds : List (BitVec 9)) (news : List Nat) (c : Car)
    (core : Nat) : Car :=
  let cs := p.image.slotsOf p.lines c.ident.carId.toNat
  let slot := fun (l : Ix16) => (x.lines.find? (fun y => y.2 == l)).map (·.1)
  let line := match c.arr.line with
    | none => none
    | some l => (match slot l with
        | some k => ((p.lines.find? (fun y => y.1 == k)).map (·.2))
        | none => some l)
  let faults := c.eng.copies.filterMap (fun k => match k.state with
    | .faulted _ va => some (Async.copyFault (BitVec.ofNat 6 k.num) va)
    | .running => none)
  let lepi := !x.forced && c.loop.redirected
  let c := c.rewire olds (news.map (fun k => BitVec.ofNat 9 k))
  let core' := s.tlbsOf core
  { c with
    eng := { c.eng with tlb := core'.tlb, copyTlb := core'.copyTlb }
    regs := { c.regs with v := c.vecsFor p.merge (s.fresh + c.ident.carId.toNat) }
    stood := none
    seqPc := if lepi then 0#64 else c.seqPc
    ident := { c.ident with
      coreId := BitVec.ofNat 9 core
      coreClass := (s.dev.house.coreClass core).getD .a
      merge := p.merge }
    ctl := { c.ctl with ccyc := 0#64 }
    pc := if lepi then c.loop.lpro else c.pc
    loop := { c.loop with resumed := c.loop.resumed || lepi, redirected := c.loop.redirected }
    wait := c.wait.filter (fun w => w != .park)
    tr := { c.tr with pending := faults.foldl (fun l a => if l.contains a then l else insertAsync a l) c.tr.pending }
    life := if c.life = .finished then .finished else .held p.release
    units := {}
    imem := s.imemFor (2 * core + (if p.secondary then 1 else 0)) p.image
    arr := { c.arr with line := line, cal := s.calOf core }
    place :=
      { couples := cs
        domain := if cs.isEmpty || c.place.munc then none else some (p.base + (p.image.domains gone).getD c.ident.carId.toNat 0)
        munc := c.place.munc
        secondary := p.secondary } }

/-- A saved consist as it is placed again. -/
def Consist.again (y : Consist) (p : Placement) (refs : List CarRef) : Consist :=
  { y with
    saved := none
    cars := refs
    lines := p.lines
    release := p.release
    released := false
    resumed := true
    forced := false
    extended := false
    preempt := none
    secondary := p.secondary }

/-- Restore a saved consist on a spot (R373, R272), with the range operations of dies that are new to its service (R366). -/
def State.restore (s : State) (x : Consist) (img : Image) (cars : List Car) (sp : Spot) : State :=
  let lines := (List.finRange 16).zip sp.lines
  let svc : Service := (s.dev.sig.services.find? (fun v => v.q == x.q && v.seq == x.seq)).getD
    { q := x.q, seq := x.seq, order := 0, record := s.recordOf x }
  let dies := ((sp.cores.map (fun k => k / 16)).filter (fun d => !svc.dies.contains d)).eraseDups
  let p : Placement :=
    { svc := svc, image := x.image.reread img, idx := x.idx, spec := false, secondary := sp.secondary
      merge := if sp.secondary then 3#2 else if Config.mergeChoice s.fresh then 1#2 else 0#2
      lines := lines, base := s.dev.nextId, release := s.now + placeCycles }
  let refs := sp.cores.map (fun k => 2 * k + (if sp.secondary then 1 else 0))
  let olds := cars.map (fun c => c.ident.coreId)
  let s' := (cars.zip sp.cores).foldl (fun t k => t.putCar (s.revive x p (departed cars) olds sp.cores k.1 k.2)) s
  let s' := s'.letGo (fun k => refs.contains k.ref && !sp.secondary)
  (({ s' with fresh := s.fresh + 2 + cars.length }).mapService x.q x.seq (fun v => { v with dies := v.dies ++ dies })).mapDev (fun d =>
    let d := d.cleanHandles svc dies
    { d with
      nextId := d.nextId + x.image.consist
      sig := { d.sig with
        consists := d.sig.consists.map (fun (y : Consist) => if y.same x then y.again p refs else y)
        loaded := refs.foldl (fun t r => Tab.set t r x.image.id) d.sig.loaded } })

/-- CONSIST_RESUME (R370, R373): before new consists of its class, lowest class first. Where the image's code must be loaded and cannot
be read, its service ends with IMAGE (R466). -/
def execConsistResume (q : BitVec 16) (seq idx : BitVec 32) (s : State) : Result :=
  .next (match s.dev.sig.consist q seq idx with
    | none => s
    | some x =>
      match x.saved, s.spot (s.recordOf x) x.image (s.consistClass x) false with
      | some cars, some sp =>
        if !s.resumable x || s.dev.sig.services.any (fun v => s.placeable v && decide (s.rankOf v < s.consistClass x))
            || s.dev.sig.specs.any (fun p => s.specPlaceable p && decide (s.specRank p < s.consistClass x))
            || s.dev.sig.consists.any (fun y => s.resumable y && decide (s.consistClass y < s.consistClass x)) then s
        else match s.dev.imageNow x.image (s.dev.sig.loads sp x.image.id) false, s.dev.sig.services.find? (fun v => v.q == q && v.seq == seq) with
          | some img, _ => s.restore x img cars sp
          | none, some v => s.failService v 2#8
          | none, none => s
      | _, _ => s)

end Sys2Proof.Machine
end

