-- ==== Sys2Proof/Machine/EventsSpec.lean ====
section
/-!
DEFINITION. The Distant and the Siding: how a speculation starts, yields, ends and commits (spec 15 R378 to R397). An event
whose condition does not hold leaves the state as it is.
-/
namespace Sys2Proof.Machine

/-- Change the registers of the Distant. -/
def Device.mapSpecRegs (d : Device) (f : SpecRegs → SpecRegs) : Device := d.mapSig (fun x => { x with spec := f x.spec })

/-- MAXSVC of SPEC_CTL (R378). -/
def SpecRegs.maxSvc (r : SpecRegs) : Nat := (r.ctl.extractLsb' 4 4).toNat

/-! Starting (R384, R385, R388). -/

/-- The physical pages of a handle's range when all of them lie in this package's HBM with SM = 0 and RMT = 0 (R384). -/
def Device.plainPages (d : Device) (h : Bht) : Option (List Nat) :=
  let lo := h.base.toNat / 0x10000
  let n := (h.base.toNat + h.len.toNat + 0xFFFF) / 0x10000 - lo
  if !h.v then none
  else (List.range n).mapM (fun i => match d.walk ((lo + i) * 0x10000) with
    | some w => (match d.leafTarget w.leaf w.page ((lo + i) * 0x10000) with
        | .hbm pa false => if w.leaf.getLsbD 6 then none else some pa
        | _ => none)
    | none => none)

/-- The 2 MiB regions that the declared handles of a service overlap (R388); none when a handle fails R384. -/
def Device.regionsOf (d : Device) (hs : List (BitVec 12 × BitVec 2)) : Option (List Nat) :=
  (hs.mapM (fun h => d.plainPages (Tab.get {} d.sig.bht h.1.toNat))).map (fun ps => (ps.flatten.map (fun a => a / 0x200000)).eraseDups)

/-- The predicted service of a queue (R381), when the queue's record and history allow a speculation (R384). -/
def Device.predictedService (d : Device) (q : BitVec 16) : Option Service :=
  match d.sig.slotOf q, d.ctx q with
  | some (_, x), .ok c =>
    let h := x.hist
    let p := h.predicted
    match x.lhs, d.image (recImage h.lrec) with
    | some hs, some i =>
      if c.dbg || x.unmapping || !h.valid || decide (h.conf.toNat < 2) || !recSpec h.lrec || recInd h.lrec || i.specMask.isNone
          || (padTo 8 h.hist).any (fun w => w.getLsbD 63) || x.tail != x.head
          || d.sig.services.any (fun v => v.q == q) || x.tried == some (h.lseq + 1#32) then none
      else some
        { q := q, seq := h.lseq + 1#32, order := 0, record := p.1, args := p.2, handles := hs, image := some i
          count := some ((recCount p.1).extractLsb' 0 32), since := d.now, pri := recPri p.1 }
    | _, _ => none
  | _, _ => none

/-- The Distant may start one more speculation (R384, R460). -/
def Device.distantReady (d : Device) (q : BitVec 16) : Bool :=
  d.sig.spec.ctl.getLsbD 0 && d.sig.spec.len != 0#35 && !d.house.fw.pending && decide (d.sig.specs.length < d.sig.spec.maxSvc)
    && decide (d.sig.spec.used + 0x4000000 ≤ d.sig.spec.len.toNat) && !d.sig.specs.any (fun p => p.svc.q == q)

/-- SPECULATION_START (R384): at most once for a record (R391, R437). A record of no consists has no first one to place. -/
def execSpeculationStart (q : BitVec 16) (s : State) : Result :=
  .next (match (if s.dev.distantReady q then s.dev.predictedService q else none) with
    | none => s
    | some v =>
      match s.dev.regionsOf v.handles, v.image.bind (fun x => s.spot v.record x v.pri.toNat true) with
      | some ws, some _ =>
        if s.realWaits || v.count == some 0#32 then s
        else s.mapDev (fun d => ((d.mapSig (fun x => { x with specs := x.specs ++ [{ svc := v, watches := ws }] })).mapSpecRegs
          (fun r => { r with start := r.start + 1#64 })).mapSlot q (fun x => { x with tried := some v.seq }))
      | _, _ => s)

/-- WATCH_DOOM (R388): an agent beside the speculation writes to a physical address. -/
def execWatchDoom (pa : Nat) (s : State) : Result := .next (s.mapDev (fun d => d.watched none pa 1))

/-! Ending (R390, R393, R396). -/

/-- Count how a speculation ended (R378). -/
def SpecRegs.count (r : SpecRegs) (k : SpecEnd) : SpecRegs :=
  match k with
  | .doomed => { r with doomed := r.doomed + 1#64 }
  | .missed => { r with miss := r.miss + 1#64 }
  | .yielded => { r with yield := r.yield + 1#64 }

/-- A consist of a speculation. -/
def Speculation.owns (p : Speculation) (x : Consist) : Bool := x.spec && x.q == p.svc.q && x.seq == p.svc.seq

/-- A discard: cars stop, engines and streams end, cores, lines, watches and shadow pages are freed, silently. -/
def State.discard (s : State) (p : Speculation) (k : SpecEnd) : State :=
  let xs := s.dev.sig.consists.filter p.owns
  let s := ((s.letGo (fun c => xs.any (fun x => x.holds c))).mapCars (fun c => if xs.any (fun x => x.holds c) then c.abort else c)).endStreams
  s.mapDev (fun d => ((d.mapSig (fun x => { x with
    consists := x.consists.filter (fun c => !p.owns c)
    specs := x.specs.filter (fun y => !(y.svc.q == p.svc.q && y.svc.seq == p.svc.seq)) })).mapSpecRegs (fun r =>
      ({ r with used := r.used - p.granules.length * 0x10000 }).count k)).sweepSets)

/-- SPECULATION_DISCARD (R396): for the cause that ended it first. -/
def execSpeculationDiscard (q : BitVec 16) (seq : BitVec 32) (s : State) : Result :=
  .next (match s.dev.sig.specs.find? (fun p => p.svc.q == q && p.svc.seq == seq) with
    | none => s
    | some p =>
      match p.cause with
      | some (k, _) => s.discard p k
      | none => s)

/-- Some real consist, which does not fit now, would fit if a set of consists were gone (R390). -/
def State.roomWithout (s : State) (gone : Consist → Bool) : Bool :=
  s.dev.sig.services.any (fun v => s.dev.startable v && !s.placeable v && (match v.image with
      | some i => (s.spotWithout v.record i (s.classOf v) gone).isSome
      | none => false))
    || s.dev.sig.specs.any (fun a => !s.dev.house.fw.pending && !s.specPlaceable a && (match a.toPlace with
      | some i => (s.spotWithout (s.specRecord a) i a.svc.pri.toNat gone).isSome
      | none => false))
    || s.dev.sig.consists.any (fun x => x.saved.isSome && !x.spec && !s.dev.house.fw.pending && !s.resumable x
        && (s.spotWithout (s.recordOf x) x.image (s.consistClass x) gone).isSome)

/-- A speculation yields (R390): some real consist would fit without it and those that started before it, but not without these
alone (notes/assumptions/35.md); or pre-emption would be requested. -/
def State.mustYield (s : State) (p : Speculation) : Bool :=
  let before := (s.dev.sig.specs.filter (fun x => !x.adopted)).takeWhile (fun x => !(x.svc.q == p.svc.q && x.svc.seq == p.svc.seq))
  (!s.roomWithout (fun c => before.any (fun x => x.owns c)) && s.roomWithout (fun c => (before ++ [p]).any (fun x => x.owns c)))
    || s.dev.sig.consists.any s.candidate

/-- SPEC_YIELD (R390): it is discarded, and counted as yielded. -/
def execSpecYield (q : BitVec 16) (seq : BitVec 32) (s : State) : Result :=
  .next (match s.dev.sig.specOf q seq with
    | none => s
    | some p =>
      if p.adopted || !s.mustYield p then s
      else s.mapDev (fun d => d.mapSpec q seq (fun x => x.ends .yielded d.now)))

/-! Commit (R394, R395). -/

/-- A shadow page is written over its granule (R394). -/
def State.commitGranule (s : State) (p : Speculation) (g : Nat) : State :=
  let s := s.snoop none none (.hbm (g * 0x10000) false) 0x10000
  s.mapDev (fun d =>
    let page : Mem :=
      { cells := p.shadow.cells.filter (fun c => decide (g * 0x10000 ≤ c.1 ∧ c.1 < (g + 1) * 0x10000))
        poison := p.shadow.poison.filter (fun a => decide (g * 0x10000 ≤ a ∧ a < (g + 1) * 0x10000)) }
    let d := if d.fab.fwd.isEmpty then { d with
          mem := d.mem.putGranule g page
          latent := d.latent.filter (fun a => decide (a / 0x10000 ≠ g)) }
      else page.poison.foldl (fun d a => d.hbmSpoil a)
        (d.hbmWrite (g * 0x10000) ((List.range 0x10000).map (fun i => page.read (g * 0x10000 + i))))
    d.watched (some (p.svc.q, p.svc.seq)) (g * 0x10000) 0x10000)

/-- May a speculation commit (R394)? -/
def Signal.commits (x : Signal) (p : Speculation) (v : Service) : Bool :=
  p.adopted && p.cause.isNone && (match p.svc.count with
    | some n => decide (n.toNat ≤ p.svc.finished)
    | none => false)
    && !x.heldBack v && x.services.all (fun u => u.q != v.q || decide (v.order ≤ u.order))

/-- SPECULATION_COMMIT (R394, R395). -/
def execSpeculationCommit (q : BitVec 16) (seq : BitVec 32) (s : State) : Result :=
  .next (match s.dev.sig.specOf q seq, s.dev.sig.services.find? (fun v => v.q == q && v.seq == seq) with
    | some p, some v =>
      if !s.dev.sig.commits p v then s
      else
        let s := p.granules.foldl (fun s g => s.commitGranule p g) s
        let s := s.mapDev (fun d => (d.mapSig (fun x => { x with
          specs := x.specs.filter (fun y => !(y.svc.q == q && y.svc.seq == seq))
          backs := x.backs ++ [(q, seq, p.granules.length * 0x10000)] })).mapSpecRegs (fun r => { r with hit := r.hit + 1#64 }))
        s.mapService q seq (fun u => { u with
          claimed := true
          tstart := p.svc.tstart
          placed := p.svc.placed
          finished := p.svc.finished
          ended := true
          tend := s.dev.boxTime })
    | _, _ => s)

/-- SIDING_COPY_BACK (R394): no agent sees it; SIDING_USED falls. -/
def execSidingCopyBack (q : BitVec 16) (seq : BitVec 32) (s : State) : Result :=
  .next (s.mapDev (fun d =>
    match d.sig.backs.find? (fun b => b.1 == q && b.2.1 == seq) with
    | none => d
    | some b => (d.mapSig (fun x => { x with backs := x.backs.erase b })).mapSpecRegs (fun r => { r with used := r.used - b.2.2 })))

/-! Control (R378, R379, R397). -/

/-- SPEC_CTL as it stores a byte (R378): MAXSVC is at most 8, bits 3:1 are zero. -/
def specCtl (v : Byte) : BitVec 8 := (if 8 < (v.extractLsb' 4 4).toNat then 8#4 else v.extractLsb' 4 4) ++ 0#3 ++ v.extractLsb' 0 1

/-- SPEC_CTL_WRITE (R378, R379). -/
def execSpecCtlWrite (v : Byte) (s : State) : Result :=
  .next (s.mapDev (fun d =>
    let off := d.sig.spec.ctl.getLsbD 0 && !v.getLsbD 0
    let d := d.mapSpecRegs (fun r => { r with ctl := specCtl v })
    if off then d.missSpec (fun _ => true) else d))

/-- SPEC_CLR (R378). -/
def execSpecClr (v : Bool) (s : State) : Result :=
  .next (if v then s.mapDev (fun d => d.mapSpecRegs (fun r =>
    { r with start := 0#64, hit := 0#64, miss := 0#64, doomed := 0#64, yield := 0#64 })) else s)

/-- The device sees DBG in the context block of a mapped queue (R397). -/
def Device.seeDbg (d : Device) (q : BitVec 16) : Device :=
  match d.sig.slotOf q, d.ctx q with
  | some _, .ok c => if c.dbg then d.missSpec (fun p => p.svc.q == q) else d
  | _, _ => d

/-- DBG_ATTACH (R351, R397): software sets DBG in the context block; the device sees it while the queue is mapped. -/
def execDbgAttach (q : BitVec 16) (s : State) : Result :=
  .next (match s.dev.ctx q with
    | .ok c =>
      let w := BitVec.ofNat 64 ((s.dev.wordVa (c.va + 8)).getD 0) ||| (1#64 <<< 17)
      ((s.writeVa (c.va + 8) (wordBytes [w])).getD s).mapDev (fun d => d.seeDbg q)
    | _ => s)

end Sys2Proof.Machine
end

