-- ==== Sys2Proof/Machine/Registers.lean ====
section
/-!
DEFINITION. The registers of BAR0 as a read finds them, and what a write without behaviour of its own does (spec 14 R350,
15 R378, 16 R400, 12 R335, 19, 20). Registers are read and written as aligned words of 8 bytes
(notes/assumptions/29.md).
-/
namespace Sys2Proof.Machine

/-! Reads. -/

/-- Change the long-lived state. -/
def Device.mapHouse (d : Device) (f : House → House) : Device := { d with house := f d.house }

/-- Change the fabric registers. -/
def Device.mapFab (d : Device) (f : FabRegs → FabRegs) : Device := { d with fab := { d.fab with regs := f d.fab.regs } }

/-- Enabled cores whose class satisfies a test. -/
def House.enabled (h : House) (ok : CoreClass → Bool) : Nat :=
  ((List.range 336).filter (fun k => match h.coreClass k with
    | some c => ok c
    | none => false)).length

/-- BIN_STAT (R453). -/
def House.binStat (h : House) : Word :=
  let n := fun (ok : CoreClass → Bool) => BitVec.ofNat 9 (h.enabled ok)
  BitVec.ofBool h.short ++ 0#22 ++ n (fun c => c != .b) ++ 0#7 ++ n (fun c => c != .c) ++ 0#7 ++ n (fun _ => true)

/-- FW_STAT (R461). -/
def Firmware.stat (f : Firmware) : Word :=
  0#32 ++ f.version ++ 0#11 ++ BitVec.ofBool f.fellBack ++ BitVec.ofBool f.pending ++ BitVec.ofBool f.validB
    ++ BitVec.ofBool f.validA ++ BitVec.ofBool f.active

/-- PWR_STATUS (R465). -/
def House.pwrStatus (h : House) : Word :=
  BitVec.ofBool (decide (0 < h.pacex)) ++ BitVec.ofBool (decide (0 < h.thrp)) ++ BitVec.ofBool h.overCap ++ 0#9
    ++ BitVec.ofNat 4 h.pacex ++ 0#8 ++ BitVec.ofNat 8 h.thrp ++ 0#20 ++ h.power

/-- TS_STAT (R449). -/
def House.tsStat (h : House) : Word :=
  h.lostCnt ++ 0#14 ++ BitVec.ofBool h.lost ++ BitVec.ofBool h.sync ++ h.offset

/-- LINE_STAT of a line (R442). -/
def Device.lineStat (d : Device) (l : Ix16) : Word :=
  let x := d.lines[l]
  let first := fun (xs : List Nat) => match xs with
    | n :: _ => BitVec.ofNat 6 n
    | [] => 0x3F#6
  x.remaps ++ x.sp1 ++ x.sp0 ++ 0#20 ++ BitVec.ofNat 2 x.spares ++ BitVec.ofBool (d.degraded l)
    ++ BitVec.ofBool (!x.pend.isEmpty) ++ first x.failed ++ first x.pend

/-- PMIN of a module (R443). -/
def Laser.pmin (m : Laser) : Int := (m.ctl.extractLsb' 0 16).toInt

/-- LAS_STAT (R443). -/
def Laser.stat (m : Laser) : Word :=
  (List.range 34).foldl (fun w c => if (m.power.getD c 0#16).toInt < m.pmin then w ||| (1#64 <<< c) else w) 0#64

/-- A word of a module's block (R443): LAS_POWER stands four to a word. -/
def Laser.word (m : Laser) (off : Nat) : Word :=
  match off with
  | 0x000 => m.hours.setWidth 64
  | 0x008 => m.bias.setWidth 64
  | 0x010 => m.bias0.setWidth 64
  | 0x018 => m.drift.setWidth 64
  | 0x020 => m.temp.setWidth 64
  | 0x028 => m.eol.setWidth 64
  | 0x030 => m.ctl
  | 0x038 => m.stat
  | _ =>
    let c := (off - 0x100) / 2
    let p := fun (i : Nat) => if c + i < 34 then m.power.getD (c + i) 0#16 else 0#16
    if off < 0x100 ∨ 0x144 ≤ off then 0#64 else p 3 ++ p 2 ++ p 1 ++ p 0

/-- LNK_CTL as it reads (R446): its commands read zero. -/
def Port.ctl (x : Port) : Word := 0#26 ++ x.flane ++ x.csymThr ++ x.uncThr

/-- LNK_STAT (R446). -/
def Port.stat (x : Port) : Word :=
  x.failed ++ 0#6 ++ BitVec.ofNat 6 x.active ++ BitVec.ofNat 2 x.free.length ++ 0#14 ++ BitVec.ofBool x.retrain.isSome
    ++ BitVec.ofBool x.up

/-- A word of a port's block (R446). -/
def Port.word (x : Port) (off : Nat) : Word :=
  match off with
  | 0x000 => x.ctl
  | 0x008 => x.stat
  | _ =>
    let l : Lane := Tab.get {} x.lanes ((off - 0x100) / 0x40)
    if off < 0x100 ∨ 0x100 + 0x40 * 34 ≤ off then 0#64
    else match (off - 0x100) % 0x40 with
      | 0x00 => l.prefec.setWidth 64
      | 0x08 => l.corrSym.setWidth 64
      | 0x10 => l.uncorr.setWidth 64
      | 0x18 => l.replay.setWidth 64
      | 0x20 => l.remap.setWidth 64
      | _ => 0#64

/-- A word of a debug block (R335). -/
def Debug.word (b : Debug) (off : Nat) : Word :=
  match off with
  | 0x00 => b.ctl.setWidth 64
  | 0x08 => b.stat.setWidth 64
  | 0x10 => b.pc.setWidth 64
  | 0x20 => b.ibp[0].setWidth 64
  | 0x28 => b.ibp[1].setWidth 64
  | 0x30 => b.ibp[2].setWidth 64
  | 0x38 => b.ibp[3].setWidth 64
  | 0x40 => b.wpa[0]
  | 0x48 => b.wpa[1]
  | 0x50 => b.wpc[0].setWidth 64
  | 0x58 => b.wpc[1].setWidth 64
  | _ => 0#64

/-- A word of a group table entry as it stands (R419). -/
def GroupEntry.word (e : GroupEntry) (i : Nat) : Word :=
  if i = 7 then (e.words[7] &&& ~~~1#64) ||| (if e.busy then 1#64 else 0#64) else e.words.toList.getD i 0#64

/-- Word 0 of a forwarding entry (R416). -/
def Fwd.word0 (e : Fwd) : Word := BitVec.ofBool e.v ++ BitVec.ofBool e.done ++ 0#22 ++ e.old ++ e.len

/-- A word of a handle table entry (R364). -/
def Bht.word (b : Bht) (i : Nat) : Word :=
  match i with
  | 0 => b.base
  | 1 => b.len.setWidth 64
  | 2 => 0#62 ++ BitVec.ofBool b.sm ++ BitVec.ofBool b.v
  | _ => b.lastw

/-- The registers below 0x300, one by one (R350, R378, R400). -/
def Device.lowReg (d : Device) (off : Nat) : Word :=
  let r := d.sig.regs
  let p := d.sig.spec
  let f := d.fab.regs
  match off with
  | 0x0000 => 0x00019320#64
  | 0x0008 => BitVec.ofBool r.enable |>.setWidth 64
  | 0x0010 => r.ptRoot.setWidth 64
  | 0x0018 => r.prdl.setWidth 64
  | 0x0020 => r.imgtabBase
  | 0x0028 => r.imgtabLen.setWidth 64
  | 0x0030 => r.qtabBase
  | 0x0038 => r.mboxBase.setWidth 64
  | 0x0040 => r.classMin.setWidth 64
  | 0x0048 => r.classAge.setWidth 64
  | 0x0050 => r.saveBase.setWidth 64
  | 0x0058 => r.saveLen.setWidth 64
  | 0x0060 => r.preWait.setWidth 64
  | 0x0068 => r.devStat.setWidth 64
  | 0x0100 => p.ctl.setWidth 64
  | 0x0108 => p.base.setWidth 64
  | 0x0110 => p.len.setWidth 64
  | 0x0118 => BitVec.ofNat 64 p.used
  | 0x0120 => BitVec.ofNat 64 d.sig.specs.length
  | 0x0128 => p.start
  | 0x0130 => p.hit
  | 0x0138 => p.miss
  | 0x0140 => p.doomed
  | 0x0148 => p.yield
  | 0x0200 => f.pkgId.setWidth 64
  | 0x0208 => f.fabStat.setWidth 64
  | 0x0210 => f.invAddr
  | 0x0220 => f.invIssued.setWidth 64
  | 0x0228 => f.invDone.setWidth 64
  | 0x0230 => f.migSrc.setWidth 64
  | 0x0238 => f.migDst.setWidth 64
  | 0x0248 => 0#62 ++ BitVec.ofBool f.migErr ++ BitVec.ofBool d.fab.mig.isSome
  | 0x0250 => f.ttBase
  | 0x0258 => f.ttLen.setWidth 64
  | _ => 0#64

/-- The registers from 0x21_0000 to 0x22_FFFF (R438, R442, R449, R451 to R465). -/
def Device.midReg (d : Device) (off : Nat) : Word :=
  let h := d.house
  if off = 0x210000 then h.calctl.setWidth 64
  else if 0x210100 ≤ off ∧ off < 0x210180 then d.lineStat ⟨(off - 0x210100) / 8 % 16, by omega⟩
  else if off = 0x210200 then h.tsStat
  else if 0x220000 ≤ off ∧ off < 0x2200A8 then h.harv.toList.getD ((off - 0x220000) / 8) 0#64
  else if off = 0x220100 then h.binStat
  else if off = 0x220200 then h.startRec.setWidth 64
  else if off = 0x220300 then h.errCe
  else if off = 0x220308 then h.errUe
  else if off = 0x220318 then h.errAddr.setWidth 64
  else if off = 0x220400 then h.fw.stat
  else if off = 0x220500 then BitVec.ofBool h.hold |>.setWidth 64
  else if off = 0x220508 then h.denied.setWidth 64
  else if off = 0x220600 then h.cap.setWidth 64
  else if off = 0x220608 then h.pwrStatus
  else 0#64

/-- A slot's registers (R350). -/
def Device.slotReg (d : Device) (n off : Nat) : Word :=
  match d.sig.slots.find? (fun x => x.1 == n) with
  | none => 0#64
  | some (_, x) =>
    match off with
    | 0x00 => 0#47 ++ 1#1 ++ x.q
    | 0x08 => x.head.setWidth 64
    | 0x10 => x.tail.setWidth 64
    | _ => 0#64

/-- The word at an offset of BAR0, a multiple of 8. -/
def Device.readReg (d : Device) (off : Nat) : Word :=
  if off < 0x300 then d.lowReg off
  else if 0x10000 ≤ off ∧ off < 0x12000 then d.slotReg ((off - 0x10000) / 0x40) (off % 0x40)
  else if 0x21000 ≤ off ∧ off < 0x23000 then (d.mbox ((off - 0x21000) / 8)).setWidth 64
  else if 0x40000 ≤ off ∧ off < 0x80000 then (d.group ((off - 0x40000) / 64)).word (off / 8 % 8)
  else if 0x80000 ≤ off ∧ off < 0x82000 then (Tab.get 0#24 d.fab.route ((off - 0x80000) / 8)).setWidth 64
  else if 0x82000 ≤ off ∧ off < 0x83000 then
    let e : Fwd := Tab.get {} d.fab.fwd ((off - 0x82000) / 16)
    if off % 16 = 0 then e.word0 else e.new.setWidth 64
  else if 0xC0000 ≤ off ∧ off < 0xE0000 then (Tab.get ({} : Bht) d.sig.bht ((off - 0xC0000) / 32)).word (off / 8 % 4)
  else if 0x100000 ≤ off ∧ off < 0x100000 + 0x100 * 336 then
    (Tab.get ({} : Debug) d.debug ((off - 0x100000) / 0x100)).word (off % 0x100)
  else if 0x200000 ≤ off ∧ off < 0x203000 then (d.lasers.toList.getD ((off - 0x200000) / 0x200) {}).word (off % 0x200)
  else if 0x210000 ≤ off ∧ off < 0x230000 then d.midReg off
  else if 0x300000 ≤ off ∧ off < 0x380000 then (d.fab.port ((off - 0x300000) / 0x1000)).word (off % 0x1000)
  else 0#64

/-- The byte at an offset of BAR0. -/
def Device.regByte (d : Device) (off : Nat) : Byte := (d.readReg (off / 8 * 8)).extractLsb' (8 * (off % 8)) 8

/-- 8 bytes of BAR0. -/
def Device.readReg8 (d : Device) (off : Nat) : Word := BitVec.ofNat 64 (natLE ((List.range 8).map (fun i => d.regByte (off + i))))

/-! Writes. -/

/-- The bytes of CLASS_MIN (R350). -/
def classSum (v : BitVec 32) : Nat :=
  (v.extractLsb' 0 8).toNat + (v.extractLsb' 8 8).toNat + (v.extractLsb' 16 8).toNat + (v.extractLsb' 24 8).toNat

/-- Registers of the host link chapter that a write stores (R350). -/
def HostRegs.write (r : HostRegs) (ready : Bool) (off : Nat) (v : Word) : HostRegs :=
  match off with
  | 0x0008 => if ready then { r with enable := v.getLsbD 0 } else r
  | 0x0010 => if r.enable then r else { r with ptRoot := v.extractLsb' 20 32 ++ 0#20 }
  | 0x0018 => { r with prdl := if v.extractLsb' 0 32 = 0#32 then 1#32 else v.extractLsb' 0 32 }
  | 0x0020 => { r with imgtabBase := v }
  | 0x0028 => { r with imgtabLen := v.extractLsb' 0 17 }
  | 0x0030 => { r with qtabBase := v }
  | 0x0038 => { r with mboxBase := v.extractLsb' 13 39 ++ 0#13 }
  | 0x0040 => if 128 < classSum (v.extractLsb' 0 32) then r else { r with classMin := v.extractLsb' 0 32 }
  | 0x0048 => { r with classAge := v.extractLsb' 0 32 }
  | 0x0050 => { r with saveBase := v.extractLsb' 16 36 ++ 0#16 }
  | 0x0058 => { r with saveLen := v.extractLsb' 0 40 }
  | 0x0060 => { r with preWait := v.extractLsb' 0 32 }
  | 0x0068 => { r with devStat := r.devStat &&& ~~~(v.extractLsb' 0 8) }
  | _ => r

/-- Registers of the Siding that a write stores (R378). -/
def SpecRegs.write (r : SpecRegs) (off : Nat) (v : Word) : SpecRegs :=
  let n := v.extractLsb' 0 35
  match off with
  | 0x0108 => if r.ctl.getLsbD 0 then r else { r with base := v.extractLsb' 30 22 ++ 0#30 }
  | 0x0110 => if r.ctl.getLsbD 0 || decide (n.toNat % 2 ^ 30 ≠ 0 ∨ 2 ^ 34 < n.toNat) then r else { r with len := n }
  | _ => r

/-- Registers of the fabric that a write stores (R400). -/
def FabRegs.write (r : FabRegs) (enable : Bool) (off : Nat) (v : Word) : FabRegs :=
  match off with
  | 0x0200 => if enable then r else { r with pkgId := v.extractLsb' 0 10 }
  | 0x0208 => { r with fabStat := r.fabStat &&& ~~~(v.extractLsb' 0 8) }
  | 0x0210 => { r with invAddr := v }
  | 0x0230 => { r with migSrc := v.extractLsb' 0 40 }
  | 0x0238 => { r with migDst := v.extractLsb' 0 52 }
  | 0x0250 => if enable then r else { r with ttBase := v }
  | 0x0258 => if enable then r else { r with ttLen := v.extractLsb' 0 8 }
  | _ => r

/-- A debug register takes a value; DBG_CTL's HALT and STEP act besides (R335). -/
def Debug.write (b : Debug) (off : Nat) (v : Word) : Debug :=
  match off with
  | 0x00 => { b with ctl := (v.extractLsb' 0 13 &&& 0x1FF0#13) ||| (b.ctl &&& 1#13) }
  | 0x08 => { b with stat := b.stat &&& ~~~(v.extractLsb' 0 10 &&& 0x2FC#10) }
  | 0x20 => { b with ibp := b.ibp.set 0 (v.extractLsb' 0 17 &&& 0x1FFFC#17) }
  | 0x28 => { b with ibp := b.ibp.set 1 (v.extractLsb' 0 17 &&& 0x1FFFC#17) }
  | 0x30 => { b with ibp := b.ibp.set 2 (v.extractLsb' 0 17 &&& 0x1FFFC#17) }
  | 0x38 => { b with ibp := b.ibp.set 3 (v.extractLsb' 0 17 &&& 0x1FFFC#17) }
  | 0x40 => { b with wpa := b.wpa.set 0 (v &&& 0x800FFFFFFFFFFFFF#64) }
  | 0x48 => { b with wpa := b.wpa.set 1 (v &&& 0x800FFFFFFFFFFFFF#64) }
  | 0x50 => { b with wpc := b.wpc.set 0 (v.extractLsb' 0 11 &&& 0x71F#11) }
  | 0x58 => { b with wpc := b.wpc.set 1 (v.extractLsb' 0 11 &&& 0x71F#11) }
  | _ => b

/-- LAS_CTL (R443): ignored with PMIN ≥ PWARN. -/
def Laser.setCtl (m : Laser) (v : Word) : Laser :=
  if (v.extractLsb' 16 16).toInt ≤ (v.extractLsb' 0 16).toInt then m else { m with ctl := v &&& 0xC0000000FFFFFFFF#64 }

/-- CAL_CTL (R438). -/
def House.setCal (h : House) (v : Word) : House :=
  let per := Nat.min 1000 (Nat.max 1 (v.extractLsb' 0 10).toNat)
  let stale := v.extractLsb' 16 4
  let force := v.extractLsb' 20 4
  if force ≤ stale ∨ stale < 2#4 then h else { h with calctl := 0#8 ++ force ++ stale ++ 0#6 ++ BitVec.ofNat 10 per }

/-- Registers of the long-lived state that a write stores (R449, R463 to R465); only the host writes MST_CTL. -/
def House.write (h : House) (host : Bool) (off : Nat) (v : Word) : House :=
  match off with
  | 0x210000 => h.setCal v
  | 0x210200 => { h with lost := h.lost && !v.getLsbD 33 }
  | 0x220500 => if host then { h with hold := v.getLsbD 0 } else h
  | 0x220600 => { h with cap := BitVec.ofNat 12 (Nat.min 2600 (Nat.max 1000 (v.extractLsb' 0 12).toNat)) }
  | 0x220608 => { h with overCap := h.overCap && !v.getLsbD 61 }
  | _ => h

/-- The fields of a word of a group entry (R419); what the layout does not name is reserved (R11), and BUSY ignores writes. -/
def groupFields (i : Nat) : Word :=
  match i with
  | 0 => 0xFF00000003FF01FF#64
  | 1 => 0x0000FFFFFFFFFFFF#64
  | 2 => BitVec.allOnes 64
  | 4 => BitVec.allOnes 64
  | 5 => BitVec.allOnes 64
  | _ => 0#64

/-- A word of a group entry is staged (R419). -/
def GroupEntry.stage (e : GroupEntry) (i : Nat) (v : Word) : GroupEntry :=
  { e with staged := e.staged.setIfInBounds i (v &&& groupFields i) }

/-- V of a forwarding entry is cleared: its range answers with error responses from then on (R417). -/
def Fabric.clearFwd (f : Fabric) (i : Nat) : Fabric :=
  let e : Fwd := Tab.get {} f.fwd i
  { f with
    fwd := f.fwd.map (fun x => if x.1 = i then (x.1, { x.2 with v := false }) else x)
    gone := if e.v then f.gone ++ [(e.lo, e.lo + e.size)] else f.gone }

/-- The device's registers that a write stores without further behaviour. -/
def Device.storeReg (d : Device) (host : Bool) (off : Nat) (v : Word) : Device :=
  if off < 0x100 then d.mapHost (fun r => r.write (decide (d.house.stepCode 9 = 1)) off v)
  else if off < 0x200 then d.mapSpecRegs (fun r => r.write off v)
  else if off < 0x300 then d.mapFab (fun r => r.write d.sig.regs.enable off v)
  else if 0x40000 ≤ off ∧ off < 0x80000 then
    let g := (off - 0x40000) / 64
    { d with fab := { d.fab with groups := Tab.set d.fab.groups g ((d.group g).stage (off / 8 % 8) v) } }
  else if 0x80000 ≤ off ∧ off < 0x82000 then
    { d with fab := { d.fab with route := Tab.set d.fab.route ((off - 0x80000) / 8) (v.extractLsb' 0 24) } }
  else if 0x82000 ≤ off ∧ off < 0x83000 then
    (if off % 16 = 0 ∧ v.getLsbD 63 = false then
      { d with fab := d.fab.clearFwd ((off - 0x82000) / 16) }
    else d)
  else if 0x100000 ≤ off ∧ off < 0x100000 + 0x100 * 336 then
    d.mapDebug ((off - 0x100000) / 0x100) (fun b => b.write (off % 0x100) v)
  else if 0x200000 ≤ off ∧ off < 0x203000 then
    (if off % 0x200 = 0x30 then
      { d with lasers := d.lasers.mapFinIdx (fun i m _ => if i = (off - 0x200000) / 0x200 then m.setCtl v else m) }
    else d)
  else if 0x210000 ≤ off ∧ off < 0x230000 then
    (if off = 0x210000 then { d with idle := d.idleCal, idleAt := d.now } else d).mapHouse (fun h => h.write host off v)
  else if 0x300000 ≤ off ∧ off < 0x380000 then
    (if off % 0x1000 = 0 then d.mapPort ((off - 0x300000) / 0x1000) (fun x => { x with
      csymThr := v.extractLsb' 16 16
      uncThr := v.extractLsb' 0 16
      flane := v.extractLsb' 32 6 })
    else d)
  else d

end Sys2Proof.Machine
end

