-- ==== Sys2Proof/Machine/EventsDevice.lean ====
section
/-!
DEFINITION. The package across hours: register writes and their masters, caches and the directory, power, start-up, firmware
and attestation (spec 20; 11 R300 to R303; 14 R350; 19 R450). An event whose condition does not hold leaves the state as
it is.
-/
namespace Sys2Proof.Machine

/-! Caches, the directory, scrubbing (R300 to R303, R455). -/

/-- DIE_CACHE_EVICT (R302, R303, R300): the line's dirty bytes go home, and the directory takes note. -/
def execDieCacheEvict (die line : Nat) (s : State) : Result :=
  .next (s.mapDev (fun d =>
    let d := (d.flushLine die line).dropLine die line
    { d with regions := d.regions.map (fun e => if e.1 = line / 0x8000 then (e.1, e.2.evict line die d.now) else e) }))

/-- REGION_TO_PRIVATE (R300): for 1 ms the die alone held lines of the region. -/
def execRegionToPrivate (r die : Nat) (s : State) : Result :=
  .next (if (Tab.get {} s.dev.regions r : Region).collapses die s.now then
      s.mapDev (fun d => { d with regions := d.regions.map (fun e => if e.1 = r then (e.1, { e.2 with mode := .private_ die }) else e) })
    else s)

/-- SCRUB (R455): every line with an uncorrectable error is poisoned in place. Lines that are corrected keep their bytes. -/
def execScrub (s : State) : Result := .next (s.mapDev (fun d => { d.meetErrors 0 Config.hbmSize with scrubbed := d.now }))

/-- An uncorrectable error in other storage (R454, R456). Its bytes are poisoned; an entry that the Roundhouse reloads from its copy
stays as it was; a scalar register is read again first. -/
def State.strike (s : State) (x : Strike) : State :=
  let count := fun (s : State) (k : Nat) => s.mapDev (fun d => d.mapHouse (fun h => { h with errUe := bumpField h.errUe k }))
  match x with
  | .dieCache die line mask => count (s.mapDev (fun d => { d with cache := d.cache.map (fun l =>
      if l.die == die && l.line == line then { l with poison := l.poison ||| mask } else l) })) 1
  | .directory pa => count (s.mapDev (fun d => { d with mem := d.mem.setPoison (pa / 64 * 64) 64 })) 2
  | .replay pa n => count (s.mapDev (fun d => { d with remote := d.remote.setPoison pa n })) 2
  | .siding q seq pa n => count (s.mapDev (fun d => d.mapSpec q seq (fun p => { p with shadow := p.shadow.setPoison pa n }))) 2
  | .entry => count s 2
  | .parity c r again => s.atCar c (fun s => s.mapCar (fun k => { k with
      marks.parityS := k.marks.parityS ||| (1#72 <<< r.val)
      marks.againS := if again then k.marks.againS ||| (1#72 <<< r.val) else k.marks.againS }))

/-! Power (R464, R465). -/

/-- The means of the power manager move (R464): above CAP pacing is lengthened, then issue is throttled; otherwise they are
released in the reverse order. How far each moves is a free value `n`. At a CAP of 2,600 W the means hold any workload (R465). -/
def House.regulate (h : House) (watts n : Nat) : House :=
  let h := { h with power := BitVec.ofNat 12 (Nat.min watts 4095) }
  if h.cap.toNat < watts then
    if h.pacex < 14 then { h with pacex := h.pacex + 1 + n % (14 - h.pacex) }
    else if h.thrp < 192 then { h with thrp := h.thrp + 1 + n % (192 - h.thrp) }
    else { h with overCap := h.overCap || decide (h.cap.toNat < 2600) }
  else if 0 < h.thrp then { h with thrp := h.thrp - n % (h.thrp + 1) }
  else { h with pacex := h.pacex - n % (h.pacex + 1) }

/-- POWER_SAMPLE (R464): `watts` is the 1 ms average. -/
def execPowerSample (watts : Nat) (s : State) : Result :=
  .next (s.mapDev (fun d => d.mapHouse (fun h => h.regulate watts (Config.powerStep s.fresh)))).tick

/-- ERR_CLEAR (R456). -/
def execErrClear (v : Bool) (s : State) : Result :=
  .next (if v then s.mapDev (fun d => d.mapHouse (fun h => { h with errCe := 0#64, errUe := 0#64 })) else s)

/-- HOST_LINK_DOWN (R463). -/
def execHostLinkDown (s : State) : Result := .next (s.mapDev (fun d => d.mapHouse (fun h => { h with hold := false })))

/-! Binning (R4, R451, R452). -/

/-- CLASS of a core in a HARV word (R451). -/
def harvClass (w : Word) (c : Nat) : Nat := (w.extractLsb' (16 + 2 * c) 2).toNat

/-- The cores that binning may choose from: not defective, on no failed die. -/
def House.usable (h : House) : List Nat :=
  (List.range 336).filter (fun k =>
    let w := h.harv.toList.getD (k / 16) 0#64
    !w.getLsbD 63 && harvClass w (k % 16) != 3)

/-- Class of a physical core. -/
def House.fusedClass (h : House) (k : Nat) : Nat := harvClass (h.harv.toList.getD (k / 16) 0#64) (k % 16)

/-- Fill up with cores of classes B and C in order, within what R4 leaves for each class. -/
def fillCores (h : House) : List Nat → Nat → Nat → Nat → List Nat
  | [], _, _, _ => []
  | k :: ks, n, b, c =>
    if n = 0 then []
    else match h.fusedClass k with
      | 1 => if 0 < b then k :: fillCores h ks (n - 1) (b - 1) c else fillCores h ks n b c
      | 2 => if 0 < c then k :: fillCores h ks (n - 1) b (c - 1) else fillCores h ks n b c
      | _ => fillCores h ks n b c

/-- The choice of 320 cores with most of class A, the smallest by CORE_ID (R452): at most 24 of class B and 16 of class C
satisfy R4. None when no choice does. -/
def House.choice (h : House) : Option (List Nat) :=
  let us := h.usable
  let as := (us.filter (fun k => h.fusedClass k == 0)).take 320
  let rest := fillCores h us (320 - as.length) 24 16
  if as.length + rest.length = 320 then some (as ++ rest) else none

/-- A HARV word with FAIL and EN of its die. -/
def harvWord (w : Word) (fail : Bool) (die : Nat) (on : List Nat) : Word :=
  BitVec.ofBool fail ++ 0#15 ++ w.extractLsb' 16 32
    ++ (List.range 16).foldl (fun (e : BitVec 16) c => if on.contains (16 * die + c) then e ||| (1#16 <<< c) else e) 0#16

/-- Binning (R452): every usable core when no choice satisfies R4. -/
def House.bin (h : House) (failDies : List Nat) : House :=
  let h := { h with harv := h.harv.mapFinIdx (fun i w _ => harvWord w (w.getLsbD 63 || failDies.contains i) i []) }
  let on := h.choice.getD h.usable
  { h with
    short := h.choice.isNone
    harv := h.harv.mapFinIdx (fun i w _ => harvWord w (w.getLsbD 63) i on) }

/-! Start-up (R457, R458). -/

/-- An image may boot (R457): it is valid, and its security version is one that the fuses allow. -/
def House.bootable (h : House) (b : Bool) : Bool :=
  (if b then h.fw.validB else h.fw.validA) && decide (h.fuse ≤ (if b = h.fw.active then h.fw.version else h.fw.inactiveVersion))

/-- Step 1 (R457): the active image, or the other one, or recovery. The outcome and the image. -/
def House.rootStep (h : House) : Nat × Bool :=
  let f := h.fw
  let ok := h.bootable
  match (h.cond.steps.extractLsb' 0 2).toNat with
  | 3 => (3, f.active)
  | 2 => if ok (!f.active) then (2, !f.active) else (3, f.active)
  | _ => if ok f.active then (1, f.active) else if ok (!f.active) then (2, !f.active) else (3, f.active)

/-- The code that a step has at a start: what the record says when it is valid and has one (R457: a step recorded as passed is
skipped, a failed one takes its alternate path at once), else what the hardware gives. -/
def House.outcome (h : House) (k : Nat) : Nat :=
  let old := h.stepCode k
  let c := h.cond
  if k = 1 then h.rootStep.1
  else if h.recordsValid && old != 0 then old
  else
    let failed := match k with
      | 4 => !c.failDies.isEmpty
      | 5 => !c.failLines.isEmpty
      | 6 => !c.failPorts.isEmpty
      | 7 => !c.failCircuits.isEmpty
      | _ => false
    if failed then 2 else match (c.steps.extractLsb' (2 * (k - 1)) 2).toNat with
      | 0 => 1
      | n => if k = 9 then 1 else if n = 2 ∧ k = 2 then 3 else if n = 3 ∧ 4 ≤ k then 2 else n

/-- The codes of the steps from `k` on; a fatal failure stops the start. -/
def House.outcomes (h : House) : Nat → Nat → List Nat
  | 0, _ => []
  | n + 1, k => let c := h.outcome k; if c = 3 then [3] else c :: h.outcomes n (k + 1)

/-- The step bits of START_REC. -/
def recBits : List Nat → Nat
  | [] => 0
  | c :: cs => c + 4 * recBits cs

/-- The firmware with an image in force: the version of the other one stands beside it (R461). -/
def Firmware.boot (f : Firmware) (image : Bool) : Firmware :=
  if image = f.active then f
  else { f with
    active := image
    version := f.inactiveVersion
    inactiveVersion := f.version }

/-- Steps 4 to 6 on the long-lived state: at a start with valid records they are skipped or take the recorded path. -/
def House.afterSteps (h : House) (codes : List Nat) (count : Nat) (image : Bool) : House :=
  { h with
    startRec := BitVec.ofBool image ++ BitVec.ofNat 16 (Nat.min 65535 count) ++ 0#14 ++ BitVec.ofNat 18 (recBits codes)
    recordsValid := true
    fw := { h.fw.boot image with pending := false, stage := .idle }
    cond := { h.cond with newSerial := false } }

/-- What a start keeps of the package: the fuses, what the modules and images store, the outside's memories, time. -/
def Device.startFrom (d : Device) (house : House) : Device :=
  { Device.reset with
    tbase := d.tbase + d.now / 2
    slewed := d.slewed + d.slewing
    mem := d.mem
    remote := d.remote
    latent := d.latent
    outbox := d.outbox
    lasers := d.lasers.map (fun m => ({ hours := m.hours, bias := m.bias, bias0 := m.bias0, drift := m.drift, temp := m.temp
                                        power := m.power } : Laser))
    snaps := d.snaps
    nextId := d.nextId
    sig := { ({} : Signal) with images := d.sig.images }
    house := house }

/-- The lines, circuits and ports that fail at a start (R457). -/
def Device.broken (d : Device) (lines circuits : List Ix16) (ports : List (Fin 128)) : Device :=
  let d := lines.foldl (fun d l => d.mapLine l (fun x => { x with broken := true })) d
  let d := circuits.foldl (fun d l => d.mapLine l (fun x => { x with cut := true })) d
  ports.foldl (fun d p => d.mapPort p.val (fun x => { x with down := true })) d

/-- A start (R457). `powerOn`: after a loss of power, which empties HBM and starts the count anew. -/
def State.start (s : State) (powerOn : Bool) : State :=
  let d := s.dev
  let h := { d.house with recordsValid := d.house.recordsValid && !powerOn && !d.house.cond.newSerial }
  let codes := h.outcomes 9 1
  let count := if powerOn then 1 else (h.startRec.extractLsb' 32 16).toNat + 1
  let reran := fun (k : Nat) => !(h.recordsValid && h.stepCode k != 0) && decide (k ≤ codes.length)
  let base : House :=
    { harv := h.harv, short := h.short, fw := h.fw, cond := h.cond, startRec := h.startRec, spdm := 0, fuse := h.fuse }
  let base := base.afterSteps codes count h.rootStep.2
  let base := if reran 4 then
      ({ base with harv := base.harv.map (fun w => harvWord w false 0 []) }).bin h.cond.failDies else base
  let lines := if reran 5 then h.cond.failLines else (List.finRange 16).filter (fun l => (d.lines[l]).broken)
  let circuits := if reran 7 then h.cond.failCircuits else (List.finRange 16).filter (fun l => (d.lines[l]).cut)
  let ports := (if reran 6 then h.cond.failPorts
    else (List.finRange 128).filter (fun p => (d.fab.port p.val).down))
  let d' := (d.startFrom base).broken lines circuits ports
  let d' := if powerOn then { d' with
      mem := { cells := d.mem.cells.filter (fun c => decide (2 ^ 51 ≤ c.1)), poison := d.mem.poison.filter (fun a => decide (2 ^ 51 ≤ a)) }
      latent := [] } else d'
  let d' := if codes.contains 3 then d'.emit [.fatal codes.length] else d'
  { car := Car.reset, peers := [], dev := d', old := none, inbox := s.inbox, fresh := s.fresh }

/-- DEVICE_START (R457): power-on, with what the tests of the hardware give. The lines that fail do so in step 5, and their circuits in
step 7, as the codes say. -/
def execDeviceStart (failDies : List Nat) (failLines : List Ix16) (failPorts : List (Fin 128)) (steps : BitVec 18) (s : State) :
    Result :=
  let seven := steps.extractLsb' 12 2 == 2#2
  .next ((s.mapDev (fun d => d.mapHouse (fun h => { h with cond :=
    { failDies := failDies, failLines := if seven && steps.extractLsb' 8 2 == 1#2 then [] else failLines, failPorts := failPorts
      failCircuits := if seven then failLines else [], steps := steps } }))).start true)

/-- The device accepts a request for a start (R458). -/
def Device.mayStart (d : Device) : Bool := !d.sig.regs.enable && d.sig.consists.all (fun x => x.saved.isSome)

/-- START_WARM (R458). -/
def execStartWarm (s : State) : Result := .next (if s.dev.mayStart then s.start false else s)

/-- The records become invalid (R457). -/
def Device.forget (d : Device) : Device := d.mapHouse (fun h => { h with recordsValid := false })

/-- START_FULL (R458). -/
def execStartFull (s : State) : Result := .next (if s.dev.mayStart then (s.mapDev Device.forget).start false else s)

/-! Firmware update (R459 to R461). The completion codes are those of DSP0267 (notes/assumptions/14.md). -/

/-- Change the firmware state. -/
def Device.mapFw (d : Device) (f : Firmware → Firmware) : Device := d.mapHouse (fun h => { h with fw := f h.fw })

/-- The validity of an image; the inactive one is marked. -/
def Firmware.mark (f : Firmware) (ok : Bool) : Firmware := if f.active then { f with validA := ok } else { f with validB := ok }

/-- The bytes of the inactive image, and of the active one (R459). -/
def Firmware.spare (f : Firmware) : List Byte := if f.active then f.imageA else f.imageB
def Firmware.inForce (f : Firmware) : List Byte := if f.active then f.imageB else f.imageA

/-- The inactive image takes bytes: it is no valid image until it is verified (R459). -/
def Firmware.write (f : Firmware) (bs : List Byte) : Firmware :=
  if f.active then { f.mark false with imageA := bs } else { f.mark false with imageB := bs }

/-- A PLDM command that is right in a stage; another stage answers with an error code. -/
def State.pldm (s : State) (ok : Bool) (f : Firmware → Firmware) : State :=
  s.mapDev (fun d =>
    if ok then (d.mapFw f).emit [.pldm 0x00#8]
    else d.emit [.pldm (if d.house.fw.stage = .idle then 0x80#8 else 0x84#8)])

/-- REQUEST_UPDATE (R459): one session at a time. -/
def execRequestUpdate (overI3c : Bool) (s : State) : Result :=
  .next (s.over overI3c (fun s => s.mapDev (fun d =>
    if d.house.fw.stage = .idle then (d.mapFw (fun f => { f with stage := .learn })).emit [.pldm 0x00#8]
    else d.emit [.pldm 0x81#8])))

/-- PASS_COMPONENT_TABLE (R459). -/
def execPassComponentTable (overI3c : Bool) (s : State) : Result :=
  .next (s.over overI3c (fun s => s.pldm (decide (s.dev.house.fw.stage = .learn)) (fun f => { f with stage := .ready })))

/-- UPDATE_COMPONENT (R459). -/
def execUpdateComponent (overI3c : Bool) (s : State) : Result :=
  .next (s.over overI3c (fun s => s.pldm (decide (s.dev.house.fw.stage = .ready ∨ s.dev.house.fw.stage = .activate))
    (fun f => { f.write [] with stage := .download })))

/-- REQUEST_FIRMWARE_DATA (R459): the bytes go to the inactive image. -/
def execRequestFirmwareData (overI3c : Bool) (chunk : List Byte) (s : State) : Result :=
  .next (s.over overI3c (fun s => s.pldm (decide (s.dev.house.fw.stage = .download))
    (fun f => f.write (f.spare ++ chunk))))

/-- VERIFY_COMPLETE (R459): the signature, and the security version against the fuses; it reports success or what failed. -/
def execVerifyComplete (overI3c : Bool) (signatureGood : Bool) (version : BitVec 16) (s : State) : Result :=
  let good := signatureGood && decide (s.dev.house.fuse ≤ version)
  .next (s.over overI3c (fun s =>
    if s.dev.house.fw.stage = .download && !good then
      s.mapDev (fun d => (d.mapFw (fun f => { f.mark false with stage := .ready })).emit [.pldm (if signatureGood then 0x02#8 else 0x03#8)])
    else s.pldm (decide (s.dev.house.fw.stage = .download)) (fun f =>
      { f.mark true with stage := .apply, inactiveVersion := version })))

/-- APPLY_COMPLETE (R459). -/
def execApplyComplete (overI3c : Bool) (s : State) : Result :=
  .next (s.over overI3c (fun s => s.pldm (decide (s.dev.house.fw.stage = .apply)) (fun f => { f with stage := .activate })))

/-- ACTIVATE_FIRMWARE (R460): nothing new starts, and speculations that are not adopted are discarded and missed. -/
def execActivateFirmware (overI3c : Bool) (s : State) : Result :=
  .next (s.over overI3c (fun s =>
    let ok := decide (s.dev.house.fw.stage = .activate)
    let s := s.pldm ok (fun f => { f with stage := .idle, pending := true })
    if ok then s.mapDev (fun d => d.missSpec (fun _ => true)) else s))

/-- CANCEL_UPDATE (R459). -/
def execCancelUpdate (overI3c : Bool) (s : State) : Result :=
  .next (s.over overI3c (fun s => s.pldm (decide (s.dev.house.fw.stage ≠ .idle)) (fun f => { f with stage := .idle })))

/-- Step 1 with the new image, or with the previous one (R460). -/
def House.reboot (h : House) : House :=
  let f := h.fw
  let ok := h.bootable (!f.active) && (h.cond.steps.extractLsb' 0 2 != 2#2 && h.cond.steps.extractLsb' 0 2 != 3#2)
  let image := if ok then !f.active else f.active
  let codes := h.startRec.extractLsb' 2 16
  let n := (h.startRec.extractLsb' 32 16).toNat + 1
  { h with
    fw := { f.boot image with
      pending := false
      fellBack := !ok }
    startRec := BitVec.ofBool image ++ BitVec.ofNat 16 (Nat.min 65535 n) ++ 0#14 ++ codes ++ (if ok then 1#2 else 2#2)
    recordsValid := false }

/-- FIRMWARE_RESTART (R460): at the quiescent point. A consist that has been placed and waits for its first release is not counted:
it is released after the restart (notes/assumptions/14.md). -/
def execFirmwareRestart (s : State) : Result :=
  .next (if s.dev.house.fw.pending && s.dev.sig.consists.all (fun x => x.saved.isSome || (!x.released && !x.resumed)) then s.mapDev (fun d => d.mapHouse House.reboot)
    else s)

/-! Attestation (R462). Message codes and the order of requests are those of SPDM 1.3 (notes/assumptions/14.md). -/

/-- Words of a digest. -/
def digestWords (x : BitVec 384) : List Word := (List.range 6).map (fun i => x.extractLsb' (64 * i) 64)

/-- What an index measures (R462): the boot ROM never changes; the firmware of the active image, of which the Signal box microcode and
the packet-core firmware are parts (notes/assumptions/14.md); what binning and the start gave; the security version and the fuses. -/
def House.measured (h : House) (i : Nat) : List Word :=
  let image := h.fw.inForce.map (fun b => b.setWidth 64)
  match i with
  | 2 => image
  | 3 => image
  | 4 => image
  | 5 => h.harv.toList ++ [h.binStat, h.startRec.setWidth 64]
  | 6 => h.fw.version.setWidth 64 :: h.fuse.setWidth 64 :: h.harv.toList.map (fun w => w &&& 0x0000FFFFFFFF0000#64)
  | _ => []

/-- An answer once the requests before it have been made; else an error. -/
def State.spdm (s : State) (need : Nat) (code : BitVec 8) (x : List Word) (next : Nat) : State :=
  s.mapDev (fun d =>
    if d.house.spdm < need then d.emit [.spdm 0x7F#8 []]
    else (d.mapHouse (fun h => { h with spdm := next })).emit [.spdm code x])

/-- GET_VERSION (R462). -/
def execGetVersion (overI3c : Bool) (s : State) : Result := .next (s.over overI3c (fun s => s.spdm 0 0x04#8 [0x1300#64] 1))

/-- GET_CAPABILITIES (R462). -/
def execGetCapabilities (overI3c : Bool) (s : State) : Result := .next (s.over overI3c (fun s => s.spdm 1 0x61#8 [] 2))

/-- NEGOTIATE_ALGORITHMS (R462). -/
def execNegotiateAlgorithms (overI3c : Bool) (s : State) : Result := .next (s.over overI3c (fun s => s.spdm 2 0x63#8 [] 3))

/-- GET_DIGESTS (R462): of the certificate chain in slot 0. -/
def execGetDigests (overI3c : Bool) (s : State) : Result :=
  .next (s.over overI3c (fun s => s.spdm 3 0x01#8 (digestWords (Config.digest 0 [])) 3))

/-- GET_CERTIFICATE (R462): the key is certified in slot 0. -/
def execGetCertificate (overI3c : Bool) (slot : Nat) (s : State) : Result :=
  .next (s.over overI3c (fun s =>
    if slot = 0 then s.spdm 3 0x02#8 (digestWords (Config.digest 0 [])) 3 else s.mapDev (fun d => d.emit [.spdm 0x7F#8 []])))

/-- CHALLENGE (R462): the answer is signed over the measurements and the nonce. -/
def execChallenge (overI3c : Bool) (nonce : List Byte) (s : State) : Result :=
  let all := (List.range 6).flatMap (fun i => digestWords (Config.digest (i + 1) (s.dev.house.measured (i + 1))))
  .next (s.over overI3c (fun s => s.spdm 3 0x03#8 (digestWords (Config.digest 7 (nonce.map (fun b => b.setWidth 64) ++ all))) 3))

/-- GET_MEASUREMENTS (R462): one index, or all of them with 0xFF. -/
def execGetMeasurements (overI3c : Bool) (index : Nat) (s : State) : Result :=
  let m := fun (i : Nat) => digestWords (Config.digest i (s.dev.house.measured i))
  .next (s.over overI3c (fun s =>
    if index = 0 then s.spdm 3 0x60#8 [6#64] 3
    else if 1 ≤ index ∧ index ≤ 6 then s.spdm 3 0x60#8 (m index) 3
    else if index = 0xFF then s.spdm 3 0x60#8 ((List.range 6).flatMap (fun i => m (i + 1))) 3
    else s.mapDev (fun d => d.emit [.spdm 0x7F#8 []])))

/-! Management (R450, R463). -/

/-- MGMT_READ (R450): a request for another package passes by. -/
def execMgmtRead (pkg : BitVec 10) (off : Nat) (s : State) : Result :=
  .next (if pkg ≠ s.dev.fab.regs.pkgId then s
    else s.over false (fun s => s.mapDev (fun d => d.emit [.mgmt (if 0x200000 ≤ off ∧ off ≤ 0x3FFFF8 then some (d.readReg8 off) else none)])))

/-- The reading of a sensor (R450): the register's at its last refresh. -/
def Device.sensor (d : Device) (x : Sensor) : Word :=
  let m := fun (i : Fin 24) => d.lasers[i]
  match x with
  | .temp i => (m i).temp.setWidth 64
  | .bias i => (m i).bias.setWidth 64
  | .power i c => ((m i).power.getD c.val 0#16).setWidth 64
  | .eol i => (m i).eol.setWidth 64
  | .lasStat i => (m i).stat
  | .lane p l k => (d.fab.port p.val).word (0x100 + 0x40 * l.val + 8 * k.val)
  | .up p => (BitVec.ofBool (d.fab.port p.val).up).setWidth 64
  | .degraded l => (BitVec.ofBool (d.degraded l)).setWidth 64
  | .offset => d.house.offset.setWidth 64

/-- Registers that both masters write whatever HOLD says (R463): LAS_CTL, LNK_CTL, CAL_CTL, ERR_CTL, PWR_CTL. -/
def sharedReg (off : Nat) : Bool :=
  (decide (0x200000 ≤ off ∧ off < 0x203000) && off % 0x200 == 0x30)
    || (decide (0x300000 ≤ off ∧ off < 0x380000) && off % 0x1000 == 0)
    || off == 0x210000 || off == 0x220310 || off == 0x220600

/-- A debug block (R335). -/
def debugReg (off : Nat) : Bool := decide (0x100000 ≤ off ∧ off < 0x100000 + 0x100 * 336)

/-- May the master write the register (R463)? -/
def House.allows (h : House) (host : Bool) (off : Nat) : Bool := host || sharedReg off || (!debugReg off && !h.hold)

/-- One more write refused (R463). -/
def House.deny (h : House) : House := { h with denied := if h.denied = 0xFFFF#16 then h.denied else h.denied + 1#16 }

/-- The registers below 0x10_0000 whose writes act: QDB, MBOX, BHT, SPEC_CTL, SPEC_CLR, INV_LEN, MIG_LEN, word 7 of a group. -/
def State.actLow (s : State) (off : Nat) (v : Word) : Result :=
  if off = 0x20000 then .next (s.doorbell v)
  else if 0x21000 ≤ off ∧ off < 0x23000 then .next (s.mailbox ⟨(off - 0x21000) / 8 % 1024, by omega⟩ (v.extractLsb' 0 32))
  else if 0xC0000 ≤ off ∧ off < 0xE0000 then
    execBhtWrite ⟨(off - 0xC0000) / 32 % 4096, by omega⟩ ⟨off / 8 % 4, by omega⟩ v s
  else if off = 0x100 then execSpecCtlWrite (v.extractLsb' 0 8) s
  else if off = 0x150 then execSpecClr (v.getLsbD 0) s
  else if off = 0x218 then execInvalidate (v.extractLsb' 0 40) s
  else if off = 0x240 then execMigrate (v.extractLsb' 0 31) s
  else if decide (0x40000 ≤ off ∧ off < 0x80000) && off % 64 == 56 then
    execGroupCommit ⟨(off - 0x40000) / 64 % 4096, by omega⟩ (s.mapDev (fun d => d.storeReg true off v))
  else .next (s.mapDev (fun d => d.storeReg true off v))

/-- A write of DBG_CTL (R335, R336). -/
def State.actDebug (s : State) (off : Nat) (v : Word) : Result :=
  let s := s.mapDev (fun d => d.storeReg true off v)
  let core : Fin 336 := ⟨(off - 0x100000) / 0x100 % 336, by omega⟩
  if off % 0x100 ≠ 0 then .next s
  else match execDbgHalt core (v.getLsbD 0) s with
    | .next t => if v.getLsbD 1 then execDbgStep core t else .next t
    | r => r

/-- A write of LNK_CTL (R446 to R448): the thresholds are stored, then its commands act. -/
def State.actLink (s : State) (off : Nat) (v : Word) : Result :=
  let s := s.mapDev (fun d => d.storeReg true off v)
  let p : Fin 128 := ⟨(off - 0x300000) / 0x1000 % 128, by omega⟩
  if off % 0x1000 ≠ 0 then .next s
  else match (if v.getLsbD 63 then execLnkClr p s else .next s) with
    | .next t =>
      (match (if v.getLsbD 62 then execLnkRetrain p t else .next t) with
       | .next u => if v.getLsbD 61 then execLnkForce p (v.extractLsb' 32 6) u else .next u
       | r => r)
    | r => r

/-- The registers from 0x10_0000 on. -/
def State.actHigh (s : State) (host : Bool) (off : Nat) (v : Word) : Result :=
  let stored := s.mapDev (fun d => d.storeReg host off v)
  if debugReg off then s.actDebug off v
  else if 0x300000 ≤ off ∧ off < 0x380000 then s.actLink off v
  else if off = 0x220208 then
    (if v.extractLsb' 0 2 = 3#2 then execStartFull s
     else if v.extractLsb' 0 2 = 1#2 then execStartWarm s
     else if v.extractLsb' 0 2 = 2#2 ∧ s.dev.mayStart then .next (s.mapDev Device.forget)
     else .next s)
  else if off = 0x220310 then execErrClear (v.getLsbD 0) s
  else if 0x200000 ≤ off ∧ off < 0x202000 then .next (stored.markLaser ⟨(off - 0x200000) / 0x200 % 16, by omega⟩)
  else .next stored

/-- REGISTER_WRITE (R350, R457, R463): an aligned word, by the host or by the Soson controller. -/
def execRegisterWrite (host : Bool) (off : Nat) (v : Word) (s : State) : Result :=
  if off % 8 ≠ 0 ∨ 0x400000 ≤ off ∨ !s.dev.house.served (!host) then .next s
  else if !s.dev.house.allows host off then .next (s.mapDev (fun d => d.mapHouse House.deny))
  else if off < 0x100000 then s.actLow off v
  else s.actHigh host off v

end Sys2Proof.Machine
end

