-- ==== Sys2Proof/Machine/Scalar.lean ====
section
/-!
DEFINITION. Integer register and immediate operations (spec 06 R124 to R130).
-/
namespace Sys2Proof.Machine

/-- An operation at 64 bits, or on the low 32 bits with bit 31 of the result copied up (R125, R126). -/
def atWidth (w : Bool) (f : (n : Nat) → BitVec n → BitVec n → BitVec n) (x y : Word) : Word :=
  if w then (f 32 (x.setWidth 32) (y.setWidth 32)).signExtend 64 else f 64 x y

/-- 1 when a compare holds, else 0. -/
def flag (n : Nat) (c : Bool) : BitVec n := if c then 1#n else 0#n

/-- Left shift by sb modulo the width. -/
def opShl (n : Nat) (x y : BitVec n) : BitVec n := x <<< (y.toNat % n)

/-- Logical right shift. -/
def opShr (n : Nat) (x y : BitVec n) : BitVec n := x >>> (y.toNat % n)

/-- Arithmetic right shift. -/
def opSar (n : Nat) (x y : BitVec n) : BitVec n := x.sshiftRight (y.toNat % n)

/-- High half of the signed product. -/
def opMulh (n : Nat) (x y : BitVec n) : BitVec n := BitVec.ofInt n (x.toInt * y.toInt / 2 ^ n)

/-- High half of the unsigned product. -/
def opMulhu (n : Nat) (x y : BitVec n) : BitVec n := BitVec.ofNat n (x.toNat * y.toNat / 2 ^ n)

/-- Signed quotient; all ones for a zero divisor (R127). -/
def opDiv (n : Nat) (x y : BitVec n) : BitVec n := if y = 0#n then BitVec.allOnes n else x.sdiv y

/-- Unsigned quotient (R127). -/
def opDivu (n : Nat) (x y : BitVec n) : BitVec n := if y = 0#n then BitVec.allOnes n else x / y

/-- Signed remainder; the dividend for a zero divisor (R127). -/
def opRem (n : Nat) (x y : BitVec n) : BitVec n := if y = 0#n then x else x.srem y

/-- Unsigned remainder (R127). -/
def opRemu (n : Nat) (x y : BitVec n) : BitVec n := if y = 0#n then x else x % y

/-- Trailing zeros among `n` bits. -/
def ctzNat : Nat → Nat → Nat
  | 0, _ => 0
  | n + 1, x => if x % 2 = 1 then 0 else 1 + ctzNat n (x / 2)

/-- Leading zeros. -/
def opClz (n : Nat) (x : BitVec n) : BitVec n := BitVec.ofNat n (clzNat n x.toNat)

/-- Trailing zeros. -/
def opCtz (n : Nat) (x : BitVec n) : BitVec n := BitVec.ofNat n (ctzNat n x.toNat)

/-- One bits. -/
def opPopc (n : Nat) (x : BitVec n) : BitVec n := BitVec.ofNat n (popNat n x.toNat)

/-- Place and width of a bit field (R125, R126): a width of 0 means all `n` bits. -/
def fieldOf (n : Nat) (y : BitVec n) : Nat × Nat :=
  let w := y.toNat / 256 % n
  (y.toNat % n, if w = 0 then n else w)

/-- BFX. -/
def opBfx (n : Nat) (x y : BitVec n) : BitVec n :=
  let (p, w) := fieldOf n y
  (x >>> p) &&& BitVec.ofNat n (2 ^ w - 1)

/-- BFI: bits p to p + w - 1 of `old` become bits w - 1 to 0 of `x`; what would lie above the width is dropped. -/
def opBfi (n : Nat) (old x y : BitVec n) : BitVec n :=
  let (p, w) := fieldOf n y
  let m := BitVec.ofNat n (2 ^ w - 1) <<< p
  (old &&& ~~~m) ||| ((x <<< p) &&& m)

/-- An S instruction that computes a value from registers into sd after a latency (R120, R90). -/
def State.compute (s : State) (te : Bool) (d : SReg) (srcs : List SReg) (lat : Nat) (x : Word) : SlotOp :=
  SlotOp.mk (planS te srcs [d]) (fun s => if lat = 1 then s.wS d x else s.produceS d lat x)

/-- A division: 24 cycles, in which it holds the divider (R127). -/
def State.divide (s : State) (te : Bool) (d a b : SReg) (x : Word) : SlotOp :=
  SlotOp.mk { planS te [a, b] [d] with unit := .divider } (fun s =>
    (s.produceS d 24 x).mapCar (fun c => { c with units.divider := s.now + 24 }))

/-- A shift by an immediate, which must lie in 0 to 63 (R129). -/
def State.shiftImm (s : State) (te : Bool) (d a : SReg) (imm x : Word) : SlotOp :=
  SlotOp.mk { planS te [a] [d] with illegal := !wfShift imm } (fun s => s.wS d x)

/-- NOP (R124). -/
def slotNop (te : Bool) (s : State) : SlotOp := SlotOp.mk { te := te } id

/-- ADD (R125, R126). -/
def slotAdd (te : Bool) (d a b : SReg) (w : Bool) (s : State) : SlotOp :=
  s.compute te d [a, b] 1 (atWidth w (fun _ x y => x + y) (s.rS a) (s.rS b))

/-- SUB (R125, R126). -/
def slotSub (te : Bool) (d a b : SReg) (w : Bool) (s : State) : SlotOp :=
  s.compute te d [a, b] 1 (atWidth w (fun _ x y => x - y) (s.rS a) (s.rS b))

/-- AND (R125, R126). -/
def slotAnd (te : Bool) (d a b : SReg) (w : Bool) (s : State) : SlotOp :=
  s.compute te d [a, b] 1 (atWidth w (fun _ x y => x &&& y) (s.rS a) (s.rS b))

/-- OR (R125, R126). -/
def slotOr (te : Bool) (d a b : SReg) (w : Bool) (s : State) : SlotOp :=
  s.compute te d [a, b] 1 (atWidth w (fun _ x y => x ||| y) (s.rS a) (s.rS b))

/-- XOR (R125, R126). -/
def slotXor (te : Bool) (d a b : SReg) (w : Bool) (s : State) : SlotOp :=
  s.compute te d [a, b] 1 (atWidth w (fun _ x y => x ^^^ y) (s.rS a) (s.rS b))

/-- SHL (R125, R126). -/
def slotShl (te : Bool) (d a b : SReg) (w : Bool) (s : State) : SlotOp :=
  s.compute te d [a, b] 1 (atWidth w (opShl) (s.rS a) (s.rS b))

/-- SHR (R125, R126). -/
def slotShr (te : Bool) (d a b : SReg) (w : Bool) (s : State) : SlotOp :=
  s.compute te d [a, b] 1 (atWidth w (opShr) (s.rS a) (s.rS b))

/-- SAR (R125, R126). -/
def slotSar (te : Bool) (d a b : SReg) (w : Bool) (s : State) : SlotOp :=
  s.compute te d [a, b] 1 (atWidth w (opSar) (s.rS a) (s.rS b))

/-- MUL (R125, R126). -/
def slotMul (te : Bool) (d a b : SReg) (w : Bool) (s : State) : SlotOp :=
  s.compute te d [a, b] 3 (atWidth w (fun _ x y => x * y) (s.rS a) (s.rS b))

/-- MULH (R125, R126). -/
def slotMulh (te : Bool) (d a b : SReg) (w : Bool) (s : State) : SlotOp :=
  s.compute te d [a, b] 3 (atWidth w (opMulh) (s.rS a) (s.rS b))

/-- MULHU (R125, R126). -/
def slotMulhu (te : Bool) (d a b : SReg) (w : Bool) (s : State) : SlotOp :=
  s.compute te d [a, b] 3 (atWidth w (opMulhu) (s.rS a) (s.rS b))

/-- DIV (R127). -/
def slotDiv (te : Bool) (d a b : SReg) (w : Bool) (s : State) : SlotOp :=
  s.divide te d a b (atWidth w opDiv (s.rS a) (s.rS b))

/-- DIVU (R127). -/
def slotDivu (te : Bool) (d a b : SReg) (w : Bool) (s : State) : SlotOp :=
  s.divide te d a b (atWidth w opDivu (s.rS a) (s.rS b))

/-- REM (R127). -/
def slotRem (te : Bool) (d a b : SReg) (w : Bool) (s : State) : SlotOp :=
  s.divide te d a b (atWidth w opRem (s.rS a) (s.rS b))

/-- REMU (R127). -/
def slotRemu (te : Bool) (d a b : SReg) (w : Bool) (s : State) : SlotOp :=
  s.divide te d a b (atWidth w opRemu (s.rS a) (s.rS b))

/-- MIN (R125, R126). -/
def slotMin (te : Bool) (d a b : SReg) (w : Bool) (s : State) : SlotOp :=
  s.compute te d [a, b] 1 (atWidth w (fun _ x y => if x.slt y then x else y) (s.rS a) (s.rS b))

/-- MAX (R125, R126). -/
def slotMax (te : Bool) (d a b : SReg) (w : Bool) (s : State) : SlotOp :=
  s.compute te d [a, b] 1 (atWidth w (fun _ x y => if x.slt y then y else x) (s.rS a) (s.rS b))

/-- MINU (R125, R126). -/
def slotMinu (te : Bool) (d a b : SReg) (w : Bool) (s : State) : SlotOp :=
  s.compute te d [a, b] 1 (atWidth w (fun _ x y => if x < y then x else y) (s.rS a) (s.rS b))

/-- MAXU (R125, R126). -/
def slotMaxu (te : Bool) (d a b : SReg) (w : Bool) (s : State) : SlotOp :=
  s.compute te d [a, b] 1 (atWidth w (fun _ x y => if x < y then y else x) (s.rS a) (s.rS b))

/-- CEQ (R125, R126). -/
def slotCeq (te : Bool) (d a b : SReg) (w : Bool) (s : State) : SlotOp :=
  s.compute te d [a, b] 1 (atWidth w (fun n x y => flag n (x == y)) (s.rS a) (s.rS b))

/-- CNE (R125, R126). -/
def slotCne (te : Bool) (d a b : SReg) (w : Bool) (s : State) : SlotOp :=
  s.compute te d [a, b] 1 (atWidth w (fun n x y => flag n (x != y)) (s.rS a) (s.rS b))

/-- CLT (R125, R126). -/
def slotClt (te : Bool) (d a b : SReg) (w : Bool) (s : State) : SlotOp :=
  s.compute te d [a, b] 1 (atWidth w (fun n x y => flag n (x.slt y)) (s.rS a) (s.rS b))

/-- CLTU (R125, R126). -/
def slotCltu (te : Bool) (d a b : SReg) (w : Bool) (s : State) : SlotOp :=
  s.compute te d [a, b] 1 (atWidth w (fun n x y => flag n (x.ult y)) (s.rS a) (s.rS b))

/-- CLE (R125, R126). -/
def slotCle (te : Bool) (d a b : SReg) (w : Bool) (s : State) : SlotOp :=
  s.compute te d [a, b] 1 (atWidth w (fun n x y => flag n (x.sle y)) (s.rS a) (s.rS b))

/-- CLEU (R125, R126). -/
def slotCleu (te : Bool) (d a b : SReg) (w : Bool) (s : State) : SlotOp :=
  s.compute te d [a, b] 1 (atWidth w (fun n x y => flag n (x.ule y)) (s.rS a) (s.rS b))

/-- SEL (R125): sa when all of sd is non-zero in some bit, else sb. -/
def slotSel (te : Bool) (d a b : SReg) (w : Bool) (s : State) : SlotOp :=
  s.compute te d [d, a, b] 1 (atWidth w (fun _ x _ => x) (if s.rS d = 0#64 then s.rS b else s.rS a) 0#64)

/-- CLZ (R125, R126). -/
def slotClz (te : Bool) (d a : SReg) (w : Bool) (s : State) : SlotOp :=
  s.compute te d [a] 1 (atWidth w (fun n x _ => opClz n x) (s.rS a) 0#64)

/-- CTZ (R125, R126). -/
def slotCtz (te : Bool) (d a : SReg) (w : Bool) (s : State) : SlotOp :=
  s.compute te d [a] 1 (atWidth w (fun n x _ => opCtz n x) (s.rS a) 0#64)

/-- POPC (R125, R126). -/
def slotPopc (te : Bool) (d a : SReg) (w : Bool) (s : State) : SlotOp :=
  s.compute te d [a] 1 (atWidth w (fun n x _ => opPopc n x) (s.rS a) 0#64)

/-- BFX (R125, R126). -/
def slotBfx (te : Bool) (d a b : SReg) (w : Bool) (s : State) : SlotOp :=
  s.compute te d [a, b] 1 (atWidth w (opBfx) (s.rS a) (s.rS b))

/-- BFI (R125, R126). -/
def slotBfi (te : Bool) (d a b : SReg) (w : Bool) (s : State) : SlotOp :=
  s.compute te d [d, a, b] 1 (atWidth w (fun n x y => opBfi n ((s.rS d).setWidth n) x y) (s.rS a) (s.rS b))

/-- ADDI (R128). -/
def slotAddi (te : Bool) (d a : SReg) (imm : Word) (s : State) : SlotOp :=
  s.compute te d [a] 1 (s.rS a + imm)

/-- ANDI (R128). -/
def slotAndi (te : Bool) (d a : SReg) (imm : Word) (s : State) : SlotOp :=
  s.compute te d [a] 1 (s.rS a &&& imm)

/-- ORI (R128). -/
def slotOri (te : Bool) (d a : SReg) (imm : Word) (s : State) : SlotOp :=
  s.compute te d [a] 1 (s.rS a ||| imm)

/-- XORI (R128). -/
def slotXori (te : Bool) (d a : SReg) (imm : Word) (s : State) : SlotOp :=
  s.compute te d [a] 1 (s.rS a ^^^ imm)

/-- SHLI (R129). -/
def slotShli (te : Bool) (d a : SReg) (imm : Word) (s : State) : SlotOp :=
  s.shiftImm te d a imm (opShl 64 (s.rS a) imm)

/-- SHRI (R129). -/
def slotShri (te : Bool) (d a : SReg) (imm : Word) (s : State) : SlotOp :=
  s.shiftImm te d a imm (opShr 64 (s.rS a) imm)

/-- SARI (R129). -/
def slotSari (te : Bool) (d a : SReg) (imm : Word) (s : State) : SlotOp :=
  s.shiftImm te d a imm (opSar 64 (s.rS a) imm)

/-- MULI (R128). -/
def slotMuli (te : Bool) (d a : SReg) (imm : Word) (s : State) : SlotOp :=
  s.compute te d [a] 3 (s.rS a * imm)

/-- CEQI (R128). -/
def slotCeqi (te : Bool) (d a : SReg) (imm : Word) (s : State) : SlotOp :=
  s.compute te d [a] 1 (flag 64 (s.rS a == imm))

/-- CNEI (R128). -/
def slotCnei (te : Bool) (d a : SReg) (imm : Word) (s : State) : SlotOp :=
  s.compute te d [a] 1 (flag 64 (s.rS a != imm))

/-- CLTI (R128). -/
def slotClti (te : Bool) (d a : SReg) (imm : Word) (s : State) : SlotOp :=
  s.compute te d [a] 1 (flag 64 ((s.rS a).slt imm))

/-- CLTUI (R128). -/
def slotCltui (te : Bool) (d a : SReg) (imm : Word) (s : State) : SlotOp :=
  s.compute te d [a] 1 (flag 64 ((s.rS a).ult imm))

/-- LI (R130). -/
def slotLi (te : Bool) (d : SReg) (imm : Word) (s : State) : SlotOp := s.compute te d [] 1 imm

/-- HADR (R130): no check of the handle. -/
def slotHadr (te : Bool) (d a : SReg) (h : Fin 32) (s : State) : SlotOp := s.compute te d [a] 1 (hadr h (s.rS a))

/-! The meanings: a slot issues, or its bundle waits or traps (R88). -/

/-- NOP. -/
def execNop (te : Bool) (s : State) : Result := (slotNop te s).run s

/-- ADD. -/
def execAdd (te : Bool) (d a b : SReg) (w : Bool) (s : State) : Result := (slotAdd te d a b w s).run s

/-- SUB. -/
def execSub (te : Bool) (d a b : SReg) (w : Bool) (s : State) : Result := (slotSub te d a b w s).run s

/-- AND. -/
def execAnd (te : Bool) (d a b : SReg) (w : Bool) (s : State) : Result := (slotAnd te d a b w s).run s

/-- OR. -/
def execOr (te : Bool) (d a b : SReg) (w : Bool) (s : State) : Result := (slotOr te d a b w s).run s

/-- XOR. -/
def execXor (te : Bool) (d a b : SReg) (w : Bool) (s : State) : Result := (slotXor te d a b w s).run s

/-- SHL. -/
def execShl (te : Bool) (d a b : SReg) (w : Bool) (s : State) : Result := (slotShl te d a b w s).run s

/-- SHR. -/
def execShr (te : Bool) (d a b : SReg) (w : Bool) (s : State) : Result := (slotShr te d a b w s).run s

/-- SAR. -/
def execSar (te : Bool) (d a b : SReg) (w : Bool) (s : State) : Result := (slotSar te d a b w s).run s

/-- MUL. -/
def execMul (te : Bool) (d a b : SReg) (w : Bool) (s : State) : Result := (slotMul te d a b w s).run s

/-- MULH. -/
def execMulh (te : Bool) (d a b : SReg) (w : Bool) (s : State) : Result := (slotMulh te d a b w s).run s

/-- MULHU. -/
def execMulhu (te : Bool) (d a b : SReg) (w : Bool) (s : State) : Result := (slotMulhu te d a b w s).run s

/-- DIV. -/
def execDiv (te : Bool) (d a b : SReg) (w : Bool) (s : State) : Result := (slotDiv te d a b w s).run s

/-- DIVU. -/
def execDivu (te : Bool) (d a b : SReg) (w : Bool) (s : State) : Result := (slotDivu te d a b w s).run s

/-- REM. -/
def execRem (te : Bool) (d a b : SReg) (w : Bool) (s : State) : Result := (slotRem te d a b w s).run s

/-- REMU. -/
def execRemu (te : Bool) (d a b : SReg) (w : Bool) (s : State) : Result := (slotRemu te d a b w s).run s

/-- MIN. -/
def execMin (te : Bool) (d a b : SReg) (w : Bool) (s : State) : Result := (slotMin te d a b w s).run s

/-- MAX. -/
def execMax (te : Bool) (d a b : SReg) (w : Bool) (s : State) : Result := (slotMax te d a b w s).run s

/-- MINU. -/
def execMinu (te : Bool) (d a b : SReg) (w : Bool) (s : State) : Result := (slotMinu te d a b w s).run s

/-- MAXU. -/
def execMaxu (te : Bool) (d a b : SReg) (w : Bool) (s : State) : Result := (slotMaxu te d a b w s).run s

/-- CEQ. -/
def execCeq (te : Bool) (d a b : SReg) (w : Bool) (s : State) : Result := (slotCeq te d a b w s).run s

/-- CNE. -/
def execCne (te : Bool) (d a b : SReg) (w : Bool) (s : State) : Result := (slotCne te d a b w s).run s

/-- CLT. -/
def execClt (te : Bool) (d a b : SReg) (w : Bool) (s : State) : Result := (slotClt te d a b w s).run s

/-- CLTU. -/
def execCltu (te : Bool) (d a b : SReg) (w : Bool) (s : State) : Result := (slotCltu te d a b w s).run s

/-- CLE. -/
def execCle (te : Bool) (d a b : SReg) (w : Bool) (s : State) : Result := (slotCle te d a b w s).run s

/-- CLEU. -/
def execCleu (te : Bool) (d a b : SReg) (w : Bool) (s : State) : Result := (slotCleu te d a b w s).run s

/-- SEL. -/
def execSel (te : Bool) (d a b : SReg) (w : Bool) (s : State) : Result := (slotSel te d a b w s).run s

/-- CLZ. -/
def execClz (te : Bool) (d a : SReg) (w : Bool) (s : State) : Result := (slotClz te d a w s).run s

/-- CTZ. -/
def execCtz (te : Bool) (d a : SReg) (w : Bool) (s : State) : Result := (slotCtz te d a w s).run s

/-- POPC. -/
def execPopc (te : Bool) (d a : SReg) (w : Bool) (s : State) : Result := (slotPopc te d a w s).run s

/-- BFX. -/
def execBfx (te : Bool) (d a b : SReg) (w : Bool) (s : State) : Result := (slotBfx te d a b w s).run s

/-- BFI. -/
def execBfi (te : Bool) (d a b : SReg) (w : Bool) (s : State) : Result := (slotBfi te d a b w s).run s

/-- ADDI. -/
def execAddi (te : Bool) (d a : SReg) (imm : Word) (s : State) : Result := (slotAddi te d a imm s).run s

/-- ANDI. -/
def execAndi (te : Bool) (d a : SReg) (imm : Word) (s : State) : Result := (slotAndi te d a imm s).run s

/-- ORI. -/
def execOri (te : Bool) (d a : SReg) (imm : Word) (s : State) : Result := (slotOri te d a imm s).run s

/-- XORI. -/
def execXori (te : Bool) (d a : SReg) (imm : Word) (s : State) : Result := (slotXori te d a imm s).run s

/-- SHLI. -/
def execShli (te : Bool) (d a : SReg) (imm : Word) (s : State) : Result := (slotShli te d a imm s).run s

/-- SHRI. -/
def execShri (te : Bool) (d a : SReg) (imm : Word) (s : State) : Result := (slotShri te d a imm s).run s

/-- SARI. -/
def execSari (te : Bool) (d a : SReg) (imm : Word) (s : State) : Result := (slotSari te d a imm s).run s

/-- MULI. -/
def execMuli (te : Bool) (d a : SReg) (imm : Word) (s : State) : Result := (slotMuli te d a imm s).run s

/-- CEQI. -/
def execCeqi (te : Bool) (d a : SReg) (imm : Word) (s : State) : Result := (slotCeqi te d a imm s).run s

/-- CNEI. -/
def execCnei (te : Bool) (d a : SReg) (imm : Word) (s : State) : Result := (slotCnei te d a imm s).run s

/-- CLTI. -/
def execClti (te : Bool) (d a : SReg) (imm : Word) (s : State) : Result := (slotClti te d a imm s).run s

/-- CLTUI. -/
def execCltui (te : Bool) (d a : SReg) (imm : Word) (s : State) : Result := (slotCltui te d a imm s).run s

/-- LI. -/
def execLi (te : Bool) (d : SReg) (imm : Word) (s : State) : Result := (slotLi te d imm s).run s

/-- HADR. -/
def execHadr (te : Bool) (d a : SReg) (h : Fin 32) (s : State) : Result := (slotHadr te d a h s).run s

end Sys2Proof.Machine
end

