-- ==== Sys2Proof/Machine/Dispatch.lean ====
section
/-!
DEFINITION. One arm per instruction or event: a direct call of its meaning.
-/
namespace Sys2Proof.Machine

/-- The meaning of every instruction and event. -/
def exec (i : Instr) (s : State) : Host.Outcome State Fault Refusal :=
  match i with
  | .nop te => Sys2Proof.Machine.execNop te s
  | .add te d a b w => Sys2Proof.Machine.execAdd te d a b w s
  | .sub te d a b w => Sys2Proof.Machine.execSub te d a b w s
  | .and te d a b w => Sys2Proof.Machine.execAnd te d a b w s
  | .or te d a b w => Sys2Proof.Machine.execOr te d a b w s
  | .xor te d a b w => Sys2Proof.Machine.execXor te d a b w s
  | .shl te d a b w => Sys2Proof.Machine.execShl te d a b w s
  | .shr te d a b w => Sys2Proof.Machine.execShr te d a b w s
  | .sar te d a b w => Sys2Proof.Machine.execSar te d a b w s
  | .mul te d a b w => Sys2Proof.Machine.execMul te d a b w s
  | .mulh te d a b w => Sys2Proof.Machine.execMulh te d a b w s
  | .mulhu te d a b w => Sys2Proof.Machine.execMulhu te d a b w s
  | .div te d a b w => Sys2Proof.Machine.execDiv te d a b w s
  | .divu te d a b w => Sys2Proof.Machine.execDivu te d a b w s
  | .rem te d a b w => Sys2Proof.Machine.execRem te d a b w s
  | .remu te d a b w => Sys2Proof.Machine.execRemu te d a b w s
  | .min te d a b w => Sys2Proof.Machine.execMin te d a b w s
  | .max te d a b w => Sys2Proof.Machine.execMax te d a b w s
  | .minu te d a b w => Sys2Proof.Machine.execMinu te d a b w s
  | .maxu te d a b w => Sys2Proof.Machine.execMaxu te d a b w s
  | .ceq te d a b w => Sys2Proof.Machine.execCeq te d a b w s
  | .cne te d a b w => Sys2Proof.Machine.execCne te d a b w s
  | .clt te d a b w => Sys2Proof.Machine.execClt te d a b w s
  | .cltu te d a b w => Sys2Proof.Machine.execCltu te d a b w s
  | .cle te d a b w => Sys2Proof.Machine.execCle te d a b w s
  | .cleu te d a b w => Sys2Proof.Machine.execCleu te d a b w s
  | .sel te d a b w => Sys2Proof.Machine.execSel te d a b w s
  | .clz te d a w => Sys2Proof.Machine.execClz te d a w s
  | .ctz te d a w => Sys2Proof.Machine.execCtz te d a w s
  | .popc te d a w => Sys2Proof.Machine.execPopc te d a w s
  | .bfx te d a b w => Sys2Proof.Machine.execBfx te d a b w s
  | .bfi te d a b w => Sys2Proof.Machine.execBfi te d a b w s
  | .addi te d a imm => Sys2Proof.Machine.execAddi te d a imm s
  | .andi te d a imm => Sys2Proof.Machine.execAndi te d a imm s
  | .ori te d a imm => Sys2Proof.Machine.execOri te d a imm s
  | .xori te d a imm => Sys2Proof.Machine.execXori te d a imm s
  | .shli te d a imm => Sys2Proof.Machine.execShli te d a imm s
  | .shri te d a imm => Sys2Proof.Machine.execShri te d a imm s
  | .sari te d a imm => Sys2Proof.Machine.execSari te d a imm s
  | .muli te d a imm => Sys2Proof.Machine.execMuli te d a imm s
  | .ceqi te d a imm => Sys2Proof.Machine.execCeqi te d a imm s
  | .cnei te d a imm => Sys2Proof.Machine.execCnei te d a imm s
  | .clti te d a imm => Sys2Proof.Machine.execClti te d a imm s
  | .cltui te d a imm => Sys2Proof.Machine.execCltui te d a imm s
  | .li te d imm => Sys2Proof.Machine.execLi te d imm s
  | .hadr te d a h => Sys2Proof.Machine.execHadr te d a h s
  | .ldb te d a off => Sys2Proof.Machine.execLdb te d a off s
  | .ldbu te d a off => Sys2Proof.Machine.execLdbu te d a off s
  | .ldh te d a off => Sys2Proof.Machine.execLdh te d a off s
  | .ldhu te d a off => Sys2Proof.Machine.execLdhu te d a off s
  | .ldw te d a off => Sys2Proof.Machine.execLdw te d a off s
  | .ldwu te d a off => Sys2Proof.Machine.execLdwu te d a off s
  | .ldd te d a off => Sys2Proof.Machine.execLdd te d a off s
  | .stb te v a off => Sys2Proof.Machine.execStb te v a off s
  | .sth te v a off => Sys2Proof.Machine.execSth te v a off s
  | .stw te v a off => Sys2Proof.Machine.execStw te v a off s
  | .std te v a off => Sys2Proof.Machine.execStd te v a off s
  | .pfs te a off => Sys2Proof.Machine.execPfs te a off s
  | .ald te scope d a ord => Sys2Proof.Machine.execAld te scope d a ord s
  | .ast te scope a b ord => Sys2Proof.Machine.execAst te scope a b ord s
  | .aadd te scope d a b ord => Sys2Proof.Machine.execAadd te scope d a b ord s
  | .amaxu te scope d a b ord => Sys2Proof.Machine.execAmaxu te scope d a b ord s
  | .aor te scope d a b ord => Sys2Proof.Machine.execAor te scope d a b ord s
  | .aand te scope d a b ord => Sys2Proof.Machine.execAand te scope d a b ord s
  | .aswp te scope d a b ord => Sys2Proof.Machine.execAswp te scope d a b ord s
  | .acas te scope d a b ord => Sys2Proof.Machine.execAcas te scope d a b ord s
  | .br te off => Sys2Proof.Machine.execBr te off s
  | .bnz te a off => Sys2Proof.Machine.execBnz te a off s
  | .bz te a off => Sys2Proof.Machine.execBz te a off s
  | .call te off => Sys2Proof.Machine.execCall te off s
  | .jr te a => Sys2Proof.Machine.execJr te a s
  | .trap te code => Sys2Proof.Machine.execTrap te code s
  | .brk te => Sys2Proof.Machine.execBrk te s
  | .halt te => Sys2Proof.Machine.execHalt te s
  | .drain te scope => Sys2Proof.Machine.execDrain te scope s
  | .drainw te scope => Sys2Proof.Machine.execDrainw te scope s
  | .xlt te h a md => Sys2Proof.Machine.execXlt te h a md s
  | .hinv te h => Sys2Proof.Machine.execHinv te h s
  | .hrd te d h => Sys2Proof.Machine.execHrd te d h s
  | .wadr te d a b => Sys2Proof.Machine.execWadr te d a b s
  | .srd te d idx => Sys2Proof.Machine.execSrd te d idx s
  | .swr te v idx => Sys2Proof.Machine.execSwr te v idx s
  | .tsr te d idx => Sys2Proof.Machine.execTsr te d idx s
  | .snapst te a => Sys2Proof.Machine.execSnapst te a s
  | .snapld te a => Sys2Proof.Machine.execSnapld te a s
  | .snapr te => Sys2Proof.Machine.execSnapr te s
  | .rft te => Sys2Proof.Machine.execRft te s
  | .vadd te d a b k => Sys2Proof.Machine.execVadd te d a b k s
  | .vsub te d a b k => Sys2Proof.Machine.execVsub te d a b k s
  | .vmul te d a b k => Sys2Proof.Machine.execVmul te d a b k s
  | .vfma te d a b k => Sys2Proof.Machine.execVfma te d a b k s
  | .vfms te d a b k => Sys2Proof.Machine.execVfms te d a b k s
  | .vmax te d a b k => Sys2Proof.Machine.execVmax te d a b k s
  | .vmin te d a b k => Sys2Proof.Machine.execVmin te d a b k s
  | .vand te d a b k => Sys2Proof.Machine.execVand te d a b k s
  | .vor te d a b k => Sys2Proof.Machine.execVor te d a b k s
  | .vxor te d a b k => Sys2Proof.Machine.execVxor te d a b k s
  | .vshl te d a b k => Sys2Proof.Machine.execVshl te d a b k s
  | .vshr te d a b k => Sys2Proof.Machine.execVshr te d a b k s
  | .vsar te d a b k => Sys2Proof.Machine.execVsar te d a b k s
  | .vceq te d a b k => Sys2Proof.Machine.execVceq te d a b k s
  | .vclt te d a b k => Sys2Proof.Machine.execVclt te d a b k s
  | .vcle te d a b k => Sys2Proof.Machine.execVcle te d a b k s
  | .vadds te d a b k => Sys2Proof.Machine.execVadds te d a b k s
  | .vmuls te d a b k => Sys2Proof.Machine.execVmuls te d a b k s
  | .vfmas te d a b k => Sys2Proof.Machine.execVfmas te d a b k s
  | .vmaxs te d a b k => Sys2Proof.Machine.execVmaxs te d a b k s
  | .vmins te d a b k => Sys2Proof.Machine.execVmins te d a b k s
  | .vsplat te d b k => Sys2Proof.Machine.execVsplat te d b k s
  | .vsld te d a b k => Sys2Proof.Machine.execVsld te d a b k s
  | .vslu te d a b k => Sys2Proof.Machine.execVslu te d a b k s
  | .vld te d a off k => Sys2Proof.Machine.execVld te d a off k s
  | .vst te d a off k => Sys2Proof.Machine.execVst te d a off k s
  | .vgth te d a b k => Sys2Proof.Machine.execVgth te d a b k s
  | .vsct te d a b k => Sys2Proof.Machine.execVsct te d a b k s
  | .vldk te d a off => Sys2Proof.Machine.execVldk te d a off s
  | .vstk te d a off => Sys2Proof.Machine.execVstk te d a off s
  | .vmov te d b k => Sys2Proof.Machine.execVmov te d b k s
  | .vrsum te d a k => Sys2Proof.Machine.execVrsum te d a k s
  | .vrmax te d a k => Sys2Proof.Machine.execVrmax te d a k s
  | .vrmin te d a k => Sys2Proof.Machine.execVrmin te d a k s
  | .vrcnt te d a k => Sys2Proof.Machine.execVrcnt te d a k s
  | .vrsc te d a b k => Sys2Proof.Machine.execVrsc te d a b k s
  | .vrmean te d a k => Sys2Proof.Machine.execVrmean te d a k s
  | .vperm te d a b k => Sys2Proof.Machine.execVperm te d a b k s
  | .vzip te d a b k => Sys2Proof.Machine.execVzip te d a b k s
  | .vuzp te d a b k => Sys2Proof.Machine.execVuzp te d a b k s
  | .vmrg te d a b ks => Sys2Proof.Machine.execVmrg te d a b ks s
  | .vcmpr te d a k => Sys2Proof.Machine.execVcmpr te d a k s
  | .viota te d k => Sys2Proof.Machine.execViota te d k s
  | .vext te d a idx => Sys2Proof.Machine.execVext te d a idx s
  | .vins te d a idx => Sys2Proof.Machine.execVins te d a idx s
  | .vbexp te d a k => Sys2Proof.Machine.execVbexp te d a k s
  | .vbq te d a b k => Sys2Proof.Machine.execVbq te d a b k s
  | .vbdq te d a b k => Sys2Proof.Machine.execVbdq te d a b k s
  | .vkand te d a b => Sys2Proof.Machine.execVkand te d a b s
  | .vkor te d a b => Sys2Proof.Machine.execVkor te d a b s
  | .vknot te d a => Sys2Proof.Machine.execVknot te d a s
  | .vabs te d a k => Sys2Proof.Machine.execVabs te d a k s
  | .vneg te d a k => Sys2Proof.Machine.execVneg te d a k s
  | .vrcp te d a k => Sys2Proof.Machine.execVrcp te d a k s
  | .vrsq te d a k => Sys2Proof.Machine.execVrsq te d a k s
  | .vsqrt te d a k => Sys2Proof.Machine.execVsqrt te d a k s
  | .vexp2 te d a k => Sys2Proof.Machine.execVexp2 te d a k s
  | .vlog2 te d a k => Sys2Proof.Machine.execVlog2 te d a k s
  | .vtanh te d a k => Sys2Proof.Machine.execVtanh te d a k s
  | .vsig te d a k => Sys2Proof.Machine.execVsig te d a k s
  | .vgelu te d a k => Sys2Proof.Machine.execVgelu te d a k s
  | .vflr te d a k => Sys2Proof.Machine.execVflr te d a k s
  | .vrnd te d a k => Sys2Proof.Machine.execVrnd te d a k s
  | .vcvt te d a k => Sys2Proof.Machine.execVcvt te d a k s
  | .vm8e te d a k => Sys2Proof.Machine.execVm8e te d a k s
  | .vm8d te d a k => Sys2Proof.Machine.execVm8d te d a k s
  | .vclz te d a k => Sys2Proof.Machine.execVclz te d a k s
  | .vpopc te d a k => Sys2Proof.Machine.execVpopc te d a k s
  | .vk2v te d a k => Sys2Proof.Machine.execVk2v te d a k s
  | .vv2k te d a k => Sys2Proof.Machine.execVv2k te d a k s
  | .vclr te d k => Sys2Proof.Machine.execVclr te d k s
  | .mnop te => Sys2Proof.Machine.execMnop te s
  | .mbt te v seg n a d => Sys2Proof.Machine.execMbt te v seg n a d s
  | .mtune te l => Sys2Proof.Machine.execMtune te l s
  | .mgain te apply g => Sys2Proof.Machine.execMgain te apply g s
  | .msplit te en mask => Sys2Proof.Machine.execMsplit te en mask s
  | .mrd te d part kind => Sys2Proof.Machine.execMrd te d part kind s
  | .mrep te d => Sys2Proof.Machine.execMrep te d s
  | .mcal te => Sys2Proof.Machine.execMcal te s
  | .munc te => Sys2Proof.Machine.execMunc te s
  | .mstat te d => Sys2Proof.Machine.execMstat te d s
  | .mabt te => Sys2Proof.Machine.execMabt te s
  | .cnop te => Sys2Proof.Machine.execCnop te s
  | .ccpy te ws wd f acq rel scope lossy => Sys2Proof.Machine.execCcpy te ws wd f acq rel scope lossy s
  | .cres te n => Sys2Proof.Machine.execCres te n s
  | .cpld te v part => Sys2Proof.Machine.execCpld te v part s
  | .cplt te v part => Sys2Proof.Machine.execCplt te v part s
  | .cls te l ws b => Sys2Proof.Machine.execCls te l ws b s
  | .clsf te l a b => Sys2Proof.Machine.execClsf te l a b s
  | .cwbr te a b f => Sys2Proof.Machine.execCwbr te a b f s
  | .cinv te a b f => Sys2Proof.Machine.execCinv te a b f s
  | .cwbi te a b f => Sys2Proof.Machine.execCwbi te a b f s
  | .crdx te ws wd f acq rel scope lossy => Sys2Proof.Machine.execCrdx te ws wd f acq rel scope lossy s
  | .cagt te ws wd f acq rel scope lossy => Sys2Proof.Machine.execCagt te ws wd f acq rel scope lossy s
  | .cbct te ws wd f acq rel scope lossy => Sys2Proof.Machine.execCbct te ws wd f acq rel scope lossy s
  | .cmap te ws a => Sys2Proof.Machine.execCmap te ws a s
  | .cunm te a f => Sys2Proof.Machine.execCunm te a f s
  | .cabt te n => Sys2Proof.Machine.execCabt te n s
  | .ynop te => Sys2Proof.Machine.execYnop te s
  | .yfmt te field imm => Sys2Proof.Machine.execYfmt te field imm s
  | .yfmts te a => Sys2Proof.Machine.execYfmts te a s
  | .yscl te g imm => Sys2Proof.Machine.execYscl te g imm s
  | .yscls te a b => Sys2Proof.Machine.execYscls te a b s
  | .ywb te w word b => Sys2Proof.Machine.execYwb te w word b s
  | .yldw te w a => Sys2Proof.Machine.execYldw te w a s
  | .ystw te w a => Sys2Proof.Machine.execYstw te w a s
  | .ybnk te ba bb => Sys2Proof.Machine.execYbnk te ba bb s
  | .ywait te f n => Sys2Proof.Machine.execYwait te f n s
  | .ypost te f n => Sys2Proof.Machine.execYpost te f n s
  | .ypostc te car f n => Sys2Proof.Machine.execYpostc te car f n s
  | .ybar te b => Sys2Proof.Machine.execYbar te b s
  | .yloop te a lend pro epi => Sys2Proof.Machine.execYloop te a lend pro epi s
  | .ypark te => Sys2Proof.Machine.execYpark te s
  | .ypri te c => Sys2Proof.Machine.execYpri te c s
  | .yflr te d f => Sys2Proof.Machine.execYflr te d f s
  | .yflw te f a => Sys2Proof.Machine.execYflw te f a s
  | .takeTrap c => Sys2Proof.Machine.execTakeTrap c s
  | .fillDestination c n err => Sys2Proof.Machine.execFillDestination c n err s
  | .delayedWriteLands c => Sys2Proof.Machine.execDelayedWriteLands c s
  | .storeErrorResponse c ha => Sys2Proof.Machine.execStoreErrorResponse c ha s
  | .postedWriteArrival c n => Sys2Proof.Machine.execPostedWriteArrival c n s
  | .flagPost c f n => Sys2Proof.Machine.execFlagPost c f n s
  | .waitSatisfied c => Sys2Proof.Machine.execWaitSatisfied c s
  | .barrierRelease c b => Sys2Proof.Machine.execBarrierRelease c b s
  | .watchdogExpiry c => Sys2Proof.Machine.execWatchdogExpiry c s
  | .xltWalkEnd c => Sys2Proof.Machine.execXltWalkEnd c s
  | .copyComplete c n => Sys2Proof.Machine.execCopyComplete c n s
  | .copyFaultDetected c n row va => Sys2Proof.Machine.execCopyFaultDetected c n row va s
  | .lineStreamRead id => Sys2Proof.Machine.execLineStreamRead id s
  | .lineStreamBeat id => Sys2Proof.Machine.execLineStreamBeat id s
  | .reportReadable c => Sys2Proof.Machine.execReportReadable c s
  | .windowVoid c g => Sys2Proof.Machine.execWindowVoid c g s
  | .calibrationStart c => Sys2Proof.Machine.execCalibrationStart c s
  | .calibrationComplete c => Sys2Proof.Machine.execCalibrationComplete c s
  | .calPeriodicDue c => Sys2Proof.Machine.execCalPeriodicDue c s
  | .calStale c => Sys2Proof.Machine.execCalStale c s
  | .calForced c => Sys2Proof.Machine.execCalForced c s
  | .remapPending l row => Sys2Proof.Machine.execRemapPending l row s
  | .remapStart l => Sys2Proof.Machine.execRemapStart l s
  | .remapEnd l => Sys2Proof.Machine.execRemapEnd l s
  | .laserRefresh m bias drift temp power hours bias0 => Sys2Proof.Machine.execLaserRefresh m bias drift temp power hours bias0 s
  | .laneFail p l => Sys2Proof.Machine.execLaneFail p l s
  | .laneRemap p l => Sys2Proof.Machine.execLaneRemap p l s
  | .lnkClr p => Sys2Proof.Machine.execLnkClr p s
  | .lnkRetrain p => Sys2Proof.Machine.execLnkRetrain p s
  | .retrainComplete p pass => Sys2Proof.Machine.execRetrainComplete p pass s
  | .lnkForce p l => Sys2Proof.Machine.execLnkForce p l s
  | .flitArrival p seq good => Sys2Proof.Machine.execFlitArrival p seq good s
  | .replayRequest p seq => Sys2Proof.Machine.execReplayRequest p seq s
  | .flitAck p seq => Sys2Proof.Machine.execFlitAck p seq s
  | .lossyBlockArrival c n b => Sys2Proof.Machine.execLossyBlockArrival c n b s
  | .endMarkerArrival c n => Sys2Proof.Machine.execEndMarkerArrival c n s
  | .lossyClose c n => Sys2Proof.Machine.execLossyClose c n s
  | .completionNotice c n => Sys2Proof.Machine.execCompletionNotice c n s
  | .noticeOfIssue g k rank count lossy => Sys2Proof.Machine.execNoticeOfIssue g k rank count lossy s
  | .crdxBlockClose c n b present => Sys2Proof.Machine.execCrdxBlockClose c n b present s
  | .collectiveDeadline c n => Sys2Proof.Machine.execCollectiveDeadline c n s
  | .remoteRequest n => Sys2Proof.Machine.execRemoteRequest n s
  | .movedResponse n new => Sys2Proof.Machine.execMovedResponse n new s
  | .invalidate len => Sys2Proof.Machine.execInvalidate len s
  | .invalidationComplete => Sys2Proof.Machine.execInvalidationComplete s
  | .migrate len => Sys2Proof.Machine.execMigrate len s
  | .migrationLineCopy => Sys2Proof.Machine.execMigrationLineCopy s
  | .groupCommit g => Sys2Proof.Machine.execGroupCommit g s
  | .groupBusyClear g => Sys2Proof.Machine.execGroupBusyClear g s
  | .multicastReplicate g payload => Sys2Proof.Machine.execMulticastReplicate g payload s
  | .throughRunningFrame g beat payload => Sys2Proof.Machine.execThroughRunningFrame g beat payload s
  | .timetableLoad n => Sys2Proof.Machine.execTimetableLoad n s
  | .alternateSetLoad n => Sys2Proof.Machine.execAlternateSetLoad n s
  | .tsSyncLost => Sys2Proof.Machine.execTsSyncLost s
  | .tsResync => Sys2Proof.Machine.execTsResync s
  | .queueDoorbell v => Sys2Proof.Machine.execQueueDoorbell v s
  | .mailboxWrite m v => Sys2Proof.Machine.execMailboxWrite m v s
  | .bhtWrite h word v => Sys2Proof.Machine.execBhtWrite h word v s
  | .bhtWriteApply h => Sys2Proof.Machine.execBhtWriteApply h s
  | .consumeRecord q => Sys2Proof.Machine.execConsumeRecord q s
  | .recordReread q => Sys2Proof.Machine.execRecordReread q s
  | .slotMap q => Sys2Proof.Machine.execSlotMap q s
  | .slotUnmap q => Sys2Proof.Machine.execSlotUnmap q s
  | .countRead q seq => Sys2Proof.Machine.execCountRead q seq s
  | .placeConsist q seq idx => Sys2Proof.Machine.execPlaceConsist q seq idx s
  | .consistRelease q seq idx => Sys2Proof.Machine.execConsistRelease q seq idx s
  | .carFinish c => Sys2Proof.Machine.execCarFinish c s
  | .serviceComplete q seq => Sys2Proof.Machine.execServiceComplete q seq s
  | .preemptRequest q seq idx => Sys2Proof.Machine.execPreemptRequest q seq idx s
  | .consistPark q seq idx => Sys2Proof.Machine.execConsistPark q seq idx s
  | .forcedStop q seq idx => Sys2Proof.Machine.execForcedStop q seq idx s
  | .consistResume q seq idx => Sys2Proof.Machine.execConsistResume q seq idx s
  | .speculationStart q => Sys2Proof.Machine.execSpeculationStart q s
  | .watchDoom pa => Sys2Proof.Machine.execWatchDoom pa s
  | .speculationDiscard q seq => Sys2Proof.Machine.execSpeculationDiscard q seq s
  | .specYield q seq => Sys2Proof.Machine.execSpecYield q seq s
  | .speculationCommit q seq => Sys2Proof.Machine.execSpeculationCommit q seq s
  | .sidingCopyBack q seq => Sys2Proof.Machine.execSidingCopyBack q seq s
  | .specCtlWrite v => Sys2Proof.Machine.execSpecCtlWrite v s
  | .specClr v => Sys2Proof.Machine.execSpecClr v s
  | .dbgAttach q => Sys2Proof.Machine.execDbgAttach q s
  | .registerWrite host off v => Sys2Proof.Machine.execRegisterWrite host off v s
  | .dbgHalt core v => Sys2Proof.Machine.execDbgHalt core v s
  | .dbgStep core => Sys2Proof.Machine.execDbgStep core s
  | .haltTaken c => Sys2Proof.Machine.execHaltTaken c s
  | .stashFill c addr => Sys2Proof.Machine.execStashFill c addr s
  | .stashWriteback c addr => Sys2Proof.Machine.execStashWriteback c addr s
  | .stashForeignWrite c addr bytes => Sys2Proof.Machine.execStashForeignWrite c addr bytes s
  | .dieCacheEvict die line => Sys2Proof.Machine.execDieCacheEvict die line s
  | .regionToPrivate r die => Sys2Proof.Machine.execRegionToPrivate r die s
  | .scrub => Sys2Proof.Machine.execScrub s
  | .powerSample watts => Sys2Proof.Machine.execPowerSample watts s
  | .deviceStart failDies failLines failPorts steps => Sys2Proof.Machine.execDeviceStart failDies failLines failPorts steps s
  | .startWarm => Sys2Proof.Machine.execStartWarm s
  | .startFull => Sys2Proof.Machine.execStartFull s
  | .errClear v => Sys2Proof.Machine.execErrClear v s
  | .requestUpdate overI3c => Sys2Proof.Machine.execRequestUpdate overI3c s
  | .passComponentTable overI3c => Sys2Proof.Machine.execPassComponentTable overI3c s
  | .updateComponent overI3c => Sys2Proof.Machine.execUpdateComponent overI3c s
  | .requestFirmwareData overI3c chunk => Sys2Proof.Machine.execRequestFirmwareData overI3c chunk s
  | .verifyComplete overI3c signatureGood version => Sys2Proof.Machine.execVerifyComplete overI3c signatureGood version s
  | .applyComplete overI3c => Sys2Proof.Machine.execApplyComplete overI3c s
  | .activateFirmware overI3c => Sys2Proof.Machine.execActivateFirmware overI3c s
  | .cancelUpdate overI3c => Sys2Proof.Machine.execCancelUpdate overI3c s
  | .firmwareRestart => Sys2Proof.Machine.execFirmwareRestart s
  | .getVersion overI3c => Sys2Proof.Machine.execGetVersion overI3c s
  | .getCapabilities overI3c => Sys2Proof.Machine.execGetCapabilities overI3c s
  | .negotiateAlgorithms overI3c => Sys2Proof.Machine.execNegotiateAlgorithms overI3c s
  | .getDigests overI3c => Sys2Proof.Machine.execGetDigests overI3c s
  | .getCertificate overI3c slot => Sys2Proof.Machine.execGetCertificate overI3c slot s
  | .challenge overI3c nonce => Sys2Proof.Machine.execChallenge overI3c nonce s
  | .getMeasurements overI3c index => Sys2Proof.Machine.execGetMeasurements overI3c index s
  | .mgmtRead pkg off => Sys2Proof.Machine.execMgmtRead pkg off s
  | .hostLinkDown => Sys2Proof.Machine.execHostLinkDown s
  | .wadrReread c => Sys2Proof.Machine.execWadrReread c s
  | .wadrTimeout c => Sys2Proof.Machine.execWadrTimeout c s
  | .rangeOpComplete c n => Sys2Proof.Machine.execRangeOpComplete c n s
  | .cunmComplete c n => Sys2Proof.Machine.execCunmComplete c n s
  | .onPackageLinkDown junction port => Sys2Proof.Machine.execOnPackageLinkDown junction port s

end Sys2Proof.Machine
end

