-- ==== Sys2Proof/Machine/Slots.lean ====
section
/-!
DEFINITION. The needs and the effect of every slot instruction, as its meaning uses them: a bundle is judged by the needs
of all its slots together (spec 03 R71, 04 R88). An event is no slot.
-/
namespace Sys2Proof.Machine

/-- The slot of an instruction; none for an event. -/
def slotOf (i : Instr) (s : State) : Option SlotOp :=
  match i with
  | .nop te => some (slotNop te s)
  | .add te d a b w => some (slotAdd te d a b w s)
  | .sub te d a b w => some (slotSub te d a b w s)
  | .and te d a b w => some (slotAnd te d a b w s)
  | .or te d a b w => some (slotOr te d a b w s)
  | .xor te d a b w => some (slotXor te d a b w s)
  | .shl te d a b w => some (slotShl te d a b w s)
  | .shr te d a b w => some (slotShr te d a b w s)
  | .sar te d a b w => some (slotSar te d a b w s)
  | .mul te d a b w => some (slotMul te d a b w s)
  | .mulh te d a b w => some (slotMulh te d a b w s)
  | .mulhu te d a b w => some (slotMulhu te d a b w s)
  | .div te d a b w => some (slotDiv te d a b w s)
  | .divu te d a b w => some (slotDivu te d a b w s)
  | .rem te d a b w => some (slotRem te d a b w s)
  | .remu te d a b w => some (slotRemu te d a b w s)
  | .min te d a b w => some (slotMin te d a b w s)
  | .max te d a b w => some (slotMax te d a b w s)
  | .minu te d a b w => some (slotMinu te d a b w s)
  | .maxu te d a b w => some (slotMaxu te d a b w s)
  | .ceq te d a b w => some (slotCeq te d a b w s)
  | .cne te d a b w => some (slotCne te d a b w s)
  | .clt te d a b w => some (slotClt te d a b w s)
  | .cltu te d a b w => some (slotCltu te d a b w s)
  | .cle te d a b w => some (slotCle te d a b w s)
  | .cleu te d a b w => some (slotCleu te d a b w s)
  | .sel te d a b w => some (slotSel te d a b w s)
  | .clz te d a w => some (slotClz te d a w s)
  | .ctz te d a w => some (slotCtz te d a w s)
  | .popc te d a w => some (slotPopc te d a w s)
  | .bfx te d a b w => some (slotBfx te d a b w s)
  | .bfi te d a b w => some (slotBfi te d a b w s)
  | .addi te d a imm => some (slotAddi te d a imm s)
  | .andi te d a imm => some (slotAndi te d a imm s)
  | .ori te d a imm => some (slotOri te d a imm s)
  | .xori te d a imm => some (slotXori te d a imm s)
  | .shli te d a imm => some (slotShli te d a imm s)
  | .shri te d a imm => some (slotShri te d a imm s)
  | .sari te d a imm => some (slotSari te d a imm s)
  | .muli te d a imm => some (slotMuli te d a imm s)
  | .ceqi te d a imm => some (slotCeqi te d a imm s)
  | .cnei te d a imm => some (slotCnei te d a imm s)
  | .clti te d a imm => some (slotClti te d a imm s)
  | .cltui te d a imm => some (slotCltui te d a imm s)
  | .li te d imm => some (slotLi te d imm s)
  | .hadr te d a h => some (slotHadr te d a h s)
  | .ldb te d a off => some (slotLdb te d a off s)
  | .ldbu te d a off => some (slotLdbu te d a off s)
  | .ldh te d a off => some (slotLdh te d a off s)
  | .ldhu te d a off => some (slotLdhu te d a off s)
  | .ldw te d a off => some (slotLdw te d a off s)
  | .ldwu te d a off => some (slotLdwu te d a off s)
  | .ldd te d a off => some (slotLdd te d a off s)
  | .stb te v a off => some (slotStb te v a off s)
  | .sth te v a off => some (slotSth te v a off s)
  | .stw te v a off => some (slotStw te v a off s)
  | .std te v a off => some (slotStd te v a off s)
  | .pfs te a off => some (slotPfs te a off s)
  | .ald te scope d a ord => some (slotAld te scope d a ord s)
  | .ast te scope a b ord => some (slotAst te scope a b ord s)
  | .aadd te scope d a b ord => some (slotAadd te scope d a b ord s)
  | .amaxu te scope d a b ord => some (slotAmaxu te scope d a b ord s)
  | .aor te scope d a b ord => some (slotAor te scope d a b ord s)
  | .aand te scope d a b ord => some (slotAand te scope d a b ord s)
  | .aswp te scope d a b ord => some (slotAswp te scope d a b ord s)
  | .acas te scope d a b ord => some (slotAcas te scope d a b ord s)
  | .br te off => some (slotBr te off s)
  | .bnz te a off => some (slotBnz te a off s)
  | .bz te a off => some (slotBz te a off s)
  | .call te off => some (slotCall te off s)
  | .jr te a => some (slotJr te a s)
  | .trap te code => some (slotTrap te code s)
  | .brk te => some (slotBrk te s)
  | .halt te => some (slotHalt te s)
  | .drain te scope => some (slotDrain te scope s)
  | .drainw te scope => some (slotDrainw te scope s)
  | .xlt te h a md => some (slotXlt te h a md s)
  | .hinv te h => some (slotHinv te h s)
  | .hrd te d h => some (slotHrd te d h s)
  | .wadr te d a b => some (slotWadr te d a b s)
  | .srd te d idx => some (slotSrd te d idx s)
  | .swr te v idx => some (slotSwr te v idx s)
  | .tsr te d idx => some (slotTsr te d idx s)
  | .snapst te a => some (slotSnapst te a s)
  | .snapld te a => some (slotSnapld te a s)
  | .snapr te => some (slotSnapr te s)
  | .rft te => some (slotRft te s)
  | .vadd te d a b k => some (slotVadd te d a b k s)
  | .vsub te d a b k => some (slotVsub te d a b k s)
  | .vmul te d a b k => some (slotVmul te d a b k s)
  | .vfma te d a b k => some (slotVfma te d a b k s)
  | .vfms te d a b k => some (slotVfms te d a b k s)
  | .vmax te d a b k => some (slotVmax te d a b k s)
  | .vmin te d a b k => some (slotVmin te d a b k s)
  | .vand te d a b k => some (slotVand te d a b k s)
  | .vor te d a b k => some (slotVor te d a b k s)
  | .vxor te d a b k => some (slotVxor te d a b k s)
  | .vshl te d a b k => some (slotVshl te d a b k s)
  | .vshr te d a b k => some (slotVshr te d a b k s)
  | .vsar te d a b k => some (slotVsar te d a b k s)
  | .vceq te d a b k => some (slotVceq te d a b k s)
  | .vclt te d a b k => some (slotVclt te d a b k s)
  | .vcle te d a b k => some (slotVcle te d a b k s)
  | .vadds te d a b k => some (slotVadds te d a b k s)
  | .vmuls te d a b k => some (slotVmuls te d a b k s)
  | .vfmas te d a b k => some (slotVfmas te d a b k s)
  | .vmaxs te d a b k => some (slotVmaxs te d a b k s)
  | .vmins te d a b k => some (slotVmins te d a b k s)
  | .vsplat te d b k => some (slotVsplat te d b k s)
  | .vsld te d a b k => some (slotVsld te d a b k s)
  | .vslu te d a b k => some (slotVslu te d a b k s)
  | .vld te d a off k => some (slotVld te d a off k s)
  | .vst te d a off k => some (slotVst te d a off k s)
  | .vgth te d a b k => some (slotVgth te d a b k s)
  | .vsct te d a b k => some (slotVsct te d a b k s)
  | .vldk te d a off => some (slotVldk te d a off s)
  | .vstk te d a off => some (slotVstk te d a off s)
  | .vmov te d b k => some (slotVmov te d b k s)
  | .vrsum te d a k => some (slotVrsum te d a k s)
  | .vrmax te d a k => some (slotVrmax te d a k s)
  | .vrmin te d a k => some (slotVrmin te d a k s)
  | .vrcnt te d a k => some (slotVrcnt te d a k s)
  | .vrsc te d a b k => some (slotVrsc te d a b k s)
  | .vrmean te d a k => some (slotVrmean te d a k s)
  | .vperm te d a b k => some (slotVperm te d a b k s)
  | .vzip te d a b k => some (slotVzip te d a b k s)
  | .vuzp te d a b k => some (slotVuzp te d a b k s)
  | .vmrg te d a b ks => some (slotVmrg te d a b ks s)
  | .vcmpr te d a k => some (slotVcmpr te d a k s)
  | .viota te d k => some (slotViota te d k s)
  | .vext te d a idx => some (slotVext te d a idx s)
  | .vins te d a idx => some (slotVins te d a idx s)
  | .vbexp te d a k => some (slotVbexp te d a k s)
  | .vbq te d a b k => some (slotVbq te d a b k s)
  | .vbdq te d a b k => some (slotVbdq te d a b k s)
  | .vkand te d a b => some (slotVkand te d a b s)
  | .vkor te d a b => some (slotVkor te d a b s)
  | .vknot te d a => some (slotVknot te d a s)
  | .vabs te d a k => some (slotVabs te d a k s)
  | .vneg te d a k => some (slotVneg te d a k s)
  | .vrcp te d a k => some (slotVrcp te d a k s)
  | .vrsq te d a k => some (slotVrsq te d a k s)
  | .vsqrt te d a k => some (slotVsqrt te d a k s)
  | .vexp2 te d a k => some (slotVexp2 te d a k s)
  | .vlog2 te d a k => some (slotVlog2 te d a k s)
  | .vtanh te d a k => some (slotVtanh te d a k s)
  | .vsig te d a k => some (slotVsig te d a k s)
  | .vgelu te d a k => some (slotVgelu te d a k s)
  | .vflr te d a k => some (slotVflr te d a k s)
  | .vrnd te d a k => some (slotVrnd te d a k s)
  | .vcvt te d a k => some (slotVcvt te d a k s)
  | .vm8e te d a k => some (slotVm8e te d a k s)
  | .vm8d te d a k => some (slotVm8d te d a k s)
  | .vclz te d a k => some (slotVclz te d a k s)
  | .vpopc te d a k => some (slotVpopc te d a k s)
  | .vk2v te d a k => some (slotVk2v te d a k s)
  | .vv2k te d a k => some (slotVv2k te d a k s)
  | .vclr te d k => some (slotVclr te d k s)
  | .mnop te => some (slotMnop te s)
  | .mbt te v seg n a d => some (slotMbt te v seg n a d s)
  | .mtune te l => some (slotMtune te l s)
  | .mgain te apply g => some (slotMgain te apply g s)
  | .msplit te en mask => some (slotMsplit te en mask s)
  | .mrd te d part kind => some (slotMrd te d part kind s)
  | .mrep te d => some (slotMrep te d s)
  | .mcal te => some (slotMcal te s)
  | .munc te => some (slotMunc te s)
  | .mstat te d => some (slotMstat te d s)
  | .mabt te => some (slotMabt te s)
  | .cnop te => some (slotCnop te s)
  | .ccpy te ws wd f acq rel scope lossy => some (slotCcpy te ws wd f acq rel scope lossy s)
  | .cres te n => some (slotCres te n s)
  | .cpld te v part => some (slotCpld te v part s)
  | .cplt te v part => some (slotCplt te v part s)
  | .cls te l ws b => some (slotCls te l ws b s)
  | .clsf te l a b => some (slotClsf te l a b s)
  | .cwbr te a b f => some (slotCwbr te a b f s)
  | .cinv te a b f => some (slotCinv te a b f s)
  | .cwbi te a b f => some (slotCwbi te a b f s)
  | .crdx te ws wd f acq rel scope lossy => some (slotCrdx te ws wd f acq rel scope lossy s)
  | .cagt te ws wd f acq rel scope lossy => some (slotCagt te ws wd f acq rel scope lossy s)
  | .cbct te ws wd f acq rel scope lossy => some (slotCbct te ws wd f acq rel scope lossy s)
  | .cmap te ws a => some (slotCmap te ws a s)
  | .cunm te a f => some (slotCunm te a f s)
  | .cabt te n => some (slotCabt te n s)
  | .ynop te => some (slotYnop te s)
  | .yfmt te field imm => some (slotYfmt te field imm s)
  | .yfmts te a => some (slotYfmts te a s)
  | .yscl te g imm => some (slotYscl te g imm s)
  | .yscls te a b => some (slotYscls te a b s)
  | .ywb te w word b => some (slotYwb te w word b s)
  | .yldw te w a => some (slotYldw te w a s)
  | .ystw te w a => some (slotYstw te w a s)
  | .ybnk te ba bb => some (slotYbnk te ba bb s)
  | .ywait te f n => some (slotYwait te f n s)
  | .ypost te f n => some (slotYpost te f n s)
  | .ypostc te car f n => some (slotYpostc te car f n s)
  | .ybar te b => some (slotYbar te b s)
  | .yloop te a lend pro epi => some (slotYloop te a lend pro epi s)
  | .ypark te => some (slotYpark te s)
  | .ypri te c => some (slotYpri te c s)
  | .yflr te d f => some (slotYflr te d f s)
  | .yflw te f a => some (slotYflw te f a s)
  | .takeTrap _ => none
  | .fillDestination _ _ _ => none
  | .delayedWriteLands _ => none
  | .storeErrorResponse _ _ => none
  | .postedWriteArrival _ _ => none
  | .flagPost _ _ _ => none
  | .waitSatisfied _ => none
  | .barrierRelease _ _ => none
  | .watchdogExpiry _ => none
  | .xltWalkEnd _ => none
  | .copyComplete _ _ => none
  | .copyFaultDetected _ _ _ _ => none
  | .lineStreamRead _ => none
  | .lineStreamBeat _ => none
  | .reportReadable _ => none
  | .windowVoid _ _ => none
  | .calibrationStart _ => none
  | .calibrationComplete _ => none
  | .calPeriodicDue _ => none
  | .calStale _ => none
  | .calForced _ => none
  | .remapPending _ _ => none
  | .remapStart _ => none
  | .remapEnd _ => none
  | .laserRefresh _ _ _ _ _ _ _ => none
  | .laneFail _ _ => none
  | .laneRemap _ _ => none
  | .lnkClr _ => none
  | .lnkRetrain _ => none
  | .retrainComplete _ _ => none
  | .lnkForce _ _ => none
  | .flitArrival _ _ _ => none
  | .replayRequest _ _ => none
  | .flitAck _ _ => none
  | .lossyBlockArrival _ _ _ => none
  | .endMarkerArrival _ _ => none
  | .lossyClose _ _ => none
  | .completionNotice _ _ => none
  | .noticeOfIssue _ _ _ _ _ => none
  | .crdxBlockClose _ _ _ _ => none
  | .collectiveDeadline _ _ => none
  | .remoteRequest _ => none
  | .movedResponse _ _ => none
  | .invalidate _ => none
  | .invalidationComplete => none
  | .migrate _ => none
  | .migrationLineCopy => none
  | .groupCommit _ => none
  | .groupBusyClear _ => none
  | .multicastReplicate _ _ => none
  | .throughRunningFrame _ _ _ => none
  | .timetableLoad _ => none
  | .alternateSetLoad _ => none
  | .tsSyncLost => none
  | .tsResync => none
  | .queueDoorbell _ => none
  | .mailboxWrite _ _ => none
  | .bhtWrite _ _ _ => none
  | .bhtWriteApply _ => none
  | .consumeRecord _ => none
  | .recordReread _ => none
  | .slotMap _ => none
  | .slotUnmap _ => none
  | .countRead _ _ => none
  | .placeConsist _ _ _ => none
  | .consistRelease _ _ _ => none
  | .carFinish _ => none
  | .serviceComplete _ _ => none
  | .preemptRequest _ _ _ => none
  | .consistPark _ _ _ => none
  | .forcedStop _ _ _ => none
  | .consistResume _ _ _ => none
  | .speculationStart _ => none
  | .watchDoom _ => none
  | .speculationDiscard _ _ => none
  | .specYield _ _ => none
  | .speculationCommit _ _ => none
  | .sidingCopyBack _ _ => none
  | .specCtlWrite _ => none
  | .specClr _ => none
  | .dbgAttach _ => none
  | .registerWrite _ _ _ => none
  | .dbgHalt _ _ => none
  | .dbgStep _ => none
  | .haltTaken _ => none
  | .stashFill _ _ => none
  | .stashWriteback _ _ => none
  | .stashForeignWrite _ _ _ => none
  | .dieCacheEvict _ _ => none
  | .regionToPrivate _ _ => none
  | .scrub => none
  | .powerSample _ => none
  | .deviceStart _ _ _ _ => none
  | .startWarm => none
  | .startFull => none
  | .errClear _ => none
  | .requestUpdate _ => none
  | .passComponentTable _ => none
  | .updateComponent _ => none
  | .requestFirmwareData _ _ => none
  | .verifyComplete _ _ _ => none
  | .applyComplete _ => none
  | .activateFirmware _ => none
  | .cancelUpdate _ => none
  | .firmwareRestart => none
  | .getVersion _ => none
  | .getCapabilities _ => none
  | .negotiateAlgorithms _ => none
  | .getDigests _ => none
  | .getCertificate _ _ => none
  | .challenge _ _ => none
  | .getMeasurements _ _ => none
  | .mgmtRead _ _ => none
  | .hostLinkDown => none
  | .wadrReread _ => none
  | .wadrTimeout _ => none
  | .rangeOpComplete _ _ => none
  | .cunmComplete _ _ => none
  | .onPackageLinkDown _ _ => none

end Sys2Proof.Machine
end

