-- ==== Sys2Proof/Machine/Issue.lean ====
section
/-!
DEFINITION. Fetching, judging and issuing a bundle (spec 03 R62 to R71, 04 R88, R89, R95, R99).
-/
namespace Sys2Proof.Machine

/-! Fetch. -/

/-- The slots at a car's fetch address, at most eight, that lie in instruction memory (R62). -/
def Car.fetchWords (c : Car) : List Slot :=
  slotsOfBytes (c.imem.readBytes c.pc.toNat (4 * Nat.min 8 ((Config.imemSize - c.pc.toNat) / 4)))

/-- A bundle: its slots by class, its instructions, whether user mode may not fetch it (R67), and whether it is poisoned (R454). -/
structure Bundle where
  frames : List Framed
  instrs : List Instr
  priv : Bool
  poison : Bool := false

/-- The fetch checks that need the core (R66): two V slots in a class B core, an M slot in a class C core or a secondary
car. -/
def Car.refuses (c : Car) (fs : List Framed) : Bool :=
  (c.ident.coreClass == .b && decide (2 ≤ countClass 1 fs))
    || ((c.ident.coreClass == .c || c.place.secondary) && decide (0 < countClass 2 fs))

/-- Fetch the bundle at the car's address, or the cause it raises (R66, R67, R70). A fetch past 0x1_FFFC lies outside instruction
memory; one from an address that is no multiple of 4 takes the bytes from there (notes/assumptions/24.md). -/
def Car.fetch (c : Car) : Except Cause Bundle :=
  match (if c.past then none else frameBundle c.fetchWords) with
  | none => .error .illegalBundle
  | some (fs, n) =>
    if c.refuses fs then .error .illegalBundle
    else match decodeFramed fs with
      | .error _ => .error .illegalInsn
      | .ok is => .ok ⟨fs, is, !c.tr.handler && decide (Config.handlerBase < c.pc.toNat + 4 * n), c.imem.anyPoison c.pc.toNat (4 * n)⟩

/-! Issue. -/

/-- The needs of slots, where a CMAP fails that maps what an earlier slot's maps, or one mapping too many (R249). -/
def State.withClash (s : State) : List Plan → List (Nat × Nat) → List Plan
  | [], _ => []
  | p :: ps, seen =>
    match p.maps with
    | none => p :: s.withClash ps seen
    | some (lo, len) =>
      let bad := seen.any (fun m => decide (lo < m.1 + m.2 ∧ m.1 < lo + len)) || decide (8 ≤ s.src.eng.stash.length + seen.length)
      { p with cause := if p.cause.isNone && bad then some { cause := .access, taddr := BitVec.ofNat 64 lo } else p.cause }
        :: s.withClash ps (seen ++ [(lo, len)])

/-- The needs of a bundle on an opened state: those of its slots, and the causes of its place (R67, R71) and of poison in its words
(R454). RFT stands alone (R163). -/
def State.plans (s : State) (b : Bundle) : List Plan :=
  { priv := b.priv
    cause := if b.poison then some (s.here .uncorrectable) else none
    illegal := b.instrs.any (fun i => match i with
      | .rft _ => decide (1 < b.instrs.length)
      | _ => false) }
    :: s.withClash ((b.instrs.filterMap (fun i => slotOf i s)).map (fun o => o.plan)) []

/-- The slots that leave the bundle, or end the car's issue: they take effect after the others (R145, R147). -/
def ends (i : Instr) : Bool :=
  match i with
  | .trap .. => true
  | .halt .. => true
  | _ => false

/-- The vector slots that load from memory. -/
def vectorLoad (i : Instr) : Bool :=
  match i with
  | .vld .. => true
  | .vldk .. => true
  | .vgth .. => true
  | _ => false

/-- The scalar slots that write memory and no register. -/
def scalarStore (i : Instr) : Bool :=
  match i with
  | .stb .. => true
  | .sth .. => true
  | .stw .. => true
  | .std .. => true
  | .ast .. => true
  | .snapst .. => true
  | _ => false

/-- The atomics that write memory and a register. -/
def atomicBoth (i : Instr) : Bool :=
  match i with
  | .aadd .. => true
  | .amaxu .. => true
  | .aor .. => true
  | .aand .. => true
  | .aswp .. => true
  | .acas .. => true
  | _ => false

/-- The scalar slot comes after the vector loads: it writes memory from which one of them may read (R291). -/
def Bundle.lateScalar (b : Bundle) (i : Instr) : Bool := b.instrs.any vectorLoad && (scalarStore i || atomicBoth i)

/-- The slot writes a scalar register from a vector unit: it comes after the scalar slot, whose register it may write too (R68). -/
def vectorToScalar (i : Instr) : Bool :=
  match i with
  | .vext .. => true
  | _ => false

/-- The order in which slots take effect (R291, R292), each with which unit of its class it drives (R63): canonical, but a scalar
write of memory after vector loads, the Y slot before the C slots, whose engines see the bundle's stores, and TRAP and HALT last. -/
def Bundle.order (b : Bundle) : List (Fin 2 × Instr) :=
  let ps := b.frames.zip b.instrs
  let of := fun (k : Nat) => ((ps.filter (fun p => (slotClass p.1.1).toNat == k)).zipIdx.map (fun p =>
    ((if p.2 = 0 then 0 else 1 : Fin 2), p.1.2)))
  let pick := fun (k : Nat) (f : Instr → Bool) => (of k).filter (fun p => f p.2)
  pick 0 (fun i => !ends i && !b.lateScalar i) ++ pick 1 (fun i => !vectorToScalar i) ++ pick 0 b.lateScalar
    ++ pick 1 vectorToScalar ++ of 2 ++ of 4 ++ of 3 ++ pick 0 ends

/-- The slot that takes effect drives one of the two units of its class. -/
def State.atUnit (s : State) (u : Fin 2) : State := s.mapCar (fun c => { c with units := { c.units with slot := u } })

/-- Run the slots of a bundle, one after the other. -/
def runSlots : List (Fin 2 × Instr) → State → Result
  | [], s => .next s
  | i :: is, s =>
    match exec i.2 (s.atUnit i.1) with
    | .next t => runSlots is t
    | .fault r => .fault r
    | .refused r => .refused r

/-- Units a bundle takes: S, V0, V1, M, C0, C1, Y (R63, R99). -/
def unitsOf (fs : List Framed) : BitVec 7 :=
  let n := fun (k : Nat) => countClass k fs
  BitVec.ofBool (decide (0 < n 4)) ++ BitVec.ofBool (decide (2 ≤ n 3)) ++ BitVec.ofBool (decide (0 < n 3))
    ++ BitVec.ofBool (decide (0 < n 2)) ++ BitVec.ofBool (decide (2 ≤ n 1)) ++ BitVec.ofBool (decide (0 < n 1))
    ++ BitVec.ofBool (decide (0 < n 0))

/-- Copy numbers that slots need. -/
def copiesOf (ps : List Plan) : Nat := (ps.filter (fun p => p.unit == .copy)).length

/-- The primary's bundle waits for copy numbers in this cycle. -/
def State.primaryWants (s : State) (c : Car) : Option Nat :=
  match s.primaryOf c with
  | some p => if p.units.wants ≠ 0 ∧ p.units.wantsAt = s.now then some p.units.wants else none
  | none => none

/-- A secondary car's bundle needs a unit that its primary has taken in this cycle (R99), or a copy number that has been freed since
it and the primary's bundle both waited for one (R100). -/
def State.unitTaken (s : State) (c : Car) (b : Bundle) (copies : Nat) : Bool :=
  (match s.primaryOf c with
   | some p => p.units.usedAt == s.now && p.units.used &&& unitsOf b.frames != 0#7
   | none => false)
  || (copies != 0 && c.units.behind && (match s.primaryWants c with
      | some n => decide (s.freeNumbers < copies + n)
      | none => false))

/-- Note the units that the focused car's bundle takes. -/
def State.takeUnits (s : State) (b : Bundle) : State :=
  s.mapCar (fun c => { c with units := { c.units with used := unitsOf b.frames, usedAt := s.now, behind := false, slot := 0 } })

/-- The full scalar sources of a bundle whose parity fails (R454). -/
def State.struck (s : State) (ps : List Plan) : List SReg :=
  (ps.flatMap (fun p => p.srcs)).filterMap (fun o => match o with
    | .s r => if s.src.isFull o && s.src.parityFails r then some r else none
    | _ => none)

/-- What becomes of the focused car's bundle in this cycle (R88): waits of a secondary, and for a register to be read again, come with
step 3. -/
def State.judge (s : State) (b : Bundle) : Verdict :=
  let ps := s.plans b
  let hold := s.unitTaken s.src b (copiesOf ps) || !(s.struck ps).isEmpty
  s.verdict (ps.map (fun p => { p with wait := p.wait || hold }))

/-- The bundle issues: every slot takes effect on the opened state, and the bundle closes. -/
def State.issueBundle (s : State) (b : Bundle) : Result :=
  match runSlots b.order (s.openBundle.takeUnits b) with
  | .next t => .next t.closeBundle
  | .fault r => .fault r
  | .refused r => .refused r

/-- Note that the focused car's bundle waits for copy numbers in this cycle, a secondary's behind its primary's (R100). -/
def State.noteWants (s : State) (b : Bundle) : State :=
  let n := copiesOf (s.openBundle.plans b)
  if s.freeNumbers < n ∧ s.openBundle.judge b = .wait then
    s.mapCar (fun c => { c with units := { c.units with
      wants := n, wantsAt := s.now, behind := c.units.behind || (s.primaryWants c).isSome } })
  else s

/-- A bundle that waits reads the registers again whose parity failed (R454); one that fails again is counted (R456). -/
def State.rereads (s : State) (b : Bundle) : State :=
  let rs := s.openBundle.struck (s.openBundle.plans b)
  let again := rs.any (fun r => s.car.marks.againS.getLsbD (s.car.physS r).val)
  if rs.isEmpty || s.openBundle.judge b != .wait then s
  else
    let s := s.mapCar (fun c => rs.foldl Car.reread c)
    if again then s.mapDev (fun d => { d with house := { d.house with errUe := bumpField d.house.errUe 3 } })
    else s.mapDev (fun d => { d with house := { d.house with errCe := bumpField d.house.errCe 3 } })

/-- What the focused car's next bundle would do now: its fetch and its verdict. -/
def State.outlook (s : State) : Except Cause (Bundle × Verdict) :=
  match s.car.fetch with
  | .error k => .error k
  | .ok b => .ok (b, s.openBundle.judge b)

/-- Would the focused car issue now? -/
def State.wouldIssue (s : State) : Bool :=
  match s.outlook with
  | .ok (_, .go) => true
  | _ => false

/-- An issue attempt of the focused car (R88). `may` says whether its domain lets it issue (R95). -/
def State.attempt (s : State) (may : Bool) : Result :=
  match s.outlook with
  | .error k => .next (s.preciseTrap { cause := k, taddr := s.car.fetchAt })
  | .ok (b, .go) => if may then s.issueBundle b else .next s.stays
  | .ok (b, v) => .next (((s.noteWants b).rereads b).openBundle.settle v)

end Sys2Proof.Machine
end

