-- ==== Sys2Proof/Machine/Turn.lean ====
section
/-!
DEFINITION. How the machine moves: what comes from outside, what is due by itself, a car's turn in a cycle, a coupling
domain's turn, and the end of a cycle (spec 04 R88, R95, R96; 09 R258; 12 R329, R336 to R338; notes/assumptions/5.md).
-/
namespace Sys2Proof.Machine

/-! The car in focus. -/

/-- Put the car of a name in focus. -/
def State.turnTo (s : State) (r : CarRef) : State :=
  if s.car.ref = r then s
  else match s.peers.findIdx? (fun c => c.ref == r) with
    | none => s
    | some i => { s with car := s.peers.getD i s.car, peers := s.peers.set i s.car }

/-- Do something with a car of a name in focus, and look back to the car that was. -/
def State.atCarR (s : State) (r : CarRef) (f : State → Result) : Result :=
  match f (s.turnTo r) with
  | .next t => .next (t.turnTo s.car.ref)
  | x => x

/-- Do something with each of a list of cars in turn. -/
def eachCar (f : State → Result) : List CarRef → State → Result
  | [], s => .next s
  | r :: rs, s =>
    match s.atCarR r f with
    | .next t => eachCar f rs t
    | x => x

/-! What comes from outside. -/

/-- A contribution of another package that names another rank count or queue is refused: the members here take COPY_FAULT
(R420). -/
def State.refuseContribution (s : State) (g k : Nat) : State :=
  let at' := s.cars.filter (fun c => c.eng.copies.any (fun x => x.op.isColl && x.wd.group == g && x.key == k))
  (at'.foldl (fun s c => s.atCar c.ref (fun s =>
    match s.car.eng.copies.find? (fun x => x.op.isColl && x.wd.group == g && x.key == k) with
    | some x => s.collFault x
    | none => s)) s).mapDev (fun d => d.setFabStat 8#8)

/-- Errors of a lane are counted; each uncorrectable codeword spoils a flit (R406). -/
def Port.see (x : Port) (now lane prefec corr unc replays : Nat) : Port :=
  let l := (Tab.get {} x.lanes lane : Lane).errors now prefec corr unc
  { x with
    lanes := Tab.set x.lanes lane { l with replay := satAdd48 l.replay replays }
    spoiled := x.spoiled ++ List.replicate unc lane }

/-- A key is installed in a slot: its counter starts again, and packets name that slot (R418). -/
def Port.install (x : Port) (rx : Bool) (slot : Fin 2) : Port :=
  if rx then { x with rx := x.rx.set slot.val { key := true } slot.isLt }
  else { x with
    tx := x.tx.set slot.val { key := true } slot.isLt
    txSlot := slot }

/-- An encrypted packet arrives: without a key for it, or with a tag that fails, it spoils its flit (R418). -/
def Port.unseal (x : Port) (slot : Fin 2) (good : Bool) : Port :=
  if good && x.rx[slot].key then { x with rx := x.rx.set slot.val x.rx[slot].use slot.isLt }
  else { x with spoiled := x.spoiled ++ [34] }

/-- The fabric loses a block of a lossy transfer of the focused car that has an off-package hop (R411). -/
def State.loseBlock (s : State) (n b : Nat) : State :=
  match s.car.copyOf n with
  | none => s
  | some k =>
    let s := if k.lossy then s.lossyOpen k else s
    match s.dev.lossyOf s.car.ref n with
    | none => s
    | some x => if x.closed || x.arrived.contains b || x.lost.contains b || !x.crosses.any (fun e => e.1 == b) then s
        else s.mapDev (fun d => d.setLossy { x with lost := x.lost ++ [b] })

/-- An input takes effect. -/
def State.receive (s : State) (x : Input) : Result :=
  match x with
  | .event i => exec i s
  | .write pa bs =>
    .next (s.storeAt none none none (s.dev.decodePA false false false (BitVec.ofNat 52 pa)) bs)
  | .remoteWrite pa bs => .next (s.storeAt none none none (.remote (BitVec.ofNat 52 pa) false) bs)
  | .poison pa n => .next (s.mapDev (fun d =>
      let d := { d with mem := d.mem.setPoison pa n }
      if pa < Config.hbmSize then d.countUe pa else d))
  | .latent pa n => .next (s.mapDev (fun d => { d with latent := d.latent ++ (List.range n).map (fun i => pa + i) }))
  | .spadPoison c a n => .next ((s.atCar c (fun s => s.mapCar (fun k => { k with spad := k.spad.setPoison a n }))).mapDev (fun d =>
      d.mapHouse (fun h => { h with errUe := bumpField h.errUe 1 })))
  | .imemPoison c a n => .next ((s.atCar c (fun s => s.mapCar (fun k => { k with imem := k.imem.setPoison a n }))).mapDev (fun d =>
      d.mapHouse (fun h => { h with errUe := bumpField h.errUe 1 })))
  | .regPoison c r => .next ((s.atCar c (fun s => s.mapCar (fun k => k.markPoison r))).mapDev (fun d =>
      d.mapHouse (fun h => { h with errUe := bumpField h.errUe (match r with
        | .s _ _ => 3
        | _ => 1) })))
  | .strike x => .next (s.strike x)
  | .sensor x => .next (s.mapDev (fun d => d.emit [.sensor (d.sensor x)]))
  | .corrected f => .next (s.mapDev (fun d => d.mapHouse (fun h => { h with errCe := bumpField h.errCe f.val })))
  | .image x => .next (s.mapDev (fun d => d.mapSig (fun y => { y with images := x :: y.images.filter (fun z => z.va != x.va) })))
  | .contribution g k ranks q x =>
    let e := s.dev.group g
    .next (if ranks = e.ranks ∧ q = e.words[1].extractLsb' 32 16 then s.mapDev (fun d => { d with fab := d.fab.contribute g k x }.flushColl g k)
      else s.refuseContribution g k)
  | .key p rx slot => .next (s.mapDev (fun d => d.mapPort p.val (fun x => x.install rx slot)))
  | .sealed p slot good => .next (s.mapDev (fun d => d.mapPort p.val (fun x => x.unseal slot good)))
  | .lostBlock c n b => s.at c (fun s => s.loseBlock n b)
  | .foreign x => .next (s.mapDev (fun d => { d with fab := { d.fab with
      foreign := if (d.fab.foreignOf x.pkg x.id).isSome then d.fab.foreign else d.fab.foreign ++ [x] } }))
  | .foreignBlock pkg id b bs => .next (s.foreignBlock pkg id b bs)
  | .foreignMarker pkg id => .next (match s.dev.fab.foreignOf pkg id with
      | some x => if x.marker.isSome then s else s.mapDev (fun d => d.setForeign { x with marker := some d.now })
      | none => s)
  | .request pkg id pa op => .next (s.serve pkg id pa op)
  | .laneErrors p l a b c r => .next (s.mapDev (fun d => d.mapPort p.val (fun x => x.see d.now l a b c r)))
  | .offset x => .next (s.mapDev (fun d => (d.mapHouse (fun h => { h with offset := x })).slew (-x.toInt)))
  | .condition x => .next (s.mapDev (fun d => d.mapHouse (fun h => { h with cond := x })))

/-! What is due by itself. The spec fixes few of these moments; this schedule is one that it allows
(notes/assumptions/17.md). -/

/-- Cycles after which a copy, a range operation or a collective that may end does so. -/
def engineCycles : Nat := 100

/-- An event of the opcode table, as a move of the machine. -/
abbrev Move := State → Result

/-- An event would change the state. -/
def State.acts (s : State) (i : Move) : Bool :=
  match i s with
  | .next t => t != s
  | _ => true

/-- A walk that the focused car waits for is one of the eight that its die serves, in the order of arrival (R319). -/
def State.walkServed (s : State) (since : Nat) : Bool :=
  decide ((s.peers.filter (fun c => dieOf c.ident.coreId == dieOf s.car.ident.coreId && (match c.eng.walk with
    | .running _ t => decide (t < since) || (t == since && decide (c.ref < s.car.ref))
    | _ => false))).length < 8)

/-- The events that are due at the registers, the stores and the walks of a car, seen with the car in focus. -/
def State.dueRegs (s : State) (r : CarRef) : List Move :=
  let c := s.car
  (c.flight.filter (fun f => match f.due with
    | some t => decide (t ≤ s.now)
    | none => decide (f.eta ≤ s.now) && !s.owed f)).map (fun f => execFillDestination r f.id false)
  ++ (if s.mayDrain then [fun (s : State) => s.at r State.drainOne] else [])
  ++ (c.eng.posted.filter (fun p => !p.sent && s.maySend p)).map (fun p => fun (s : State) => s.at r (fun s => s.sendPart p.id))
  ++ (c.eng.posted.filter (fun p => s.mayArrive p && ((s.postedCircuit p).isSome || decide (p.issued + Config.latFar ≤ s.now)))).map
      (fun p => execPostedWriteArrival r p.id)
  ++ (match c.eng.walk with
      | .running _ t => if t + Config.latHbm ≤ s.now ∧ s.walkServed t then [execXltWalkEnd r] else []
      | _ => [])

/-- The events that are due at the waits of a car. -/
def State.dueWaits (s : State) (r : CarRef) : List Move :=
  let c := s.car
  (if c.watchdog s.now then [execWatchdogExpiry r] else []) ++ (if c.wait.isEmpty then [] else
    (if c.wait.any s.wadrDiffers then [execWadrReread r] else if c.wait.any (fun w => w.timedOut s.now) then [execWadrTimeout r] else [])
    ++ (match s.consistOf c with
        | some x => ((List.finRange 8).filter (fun b => s.barrierFull x b)).map (fun b => execBarrierRelease r b)
        | none => []))

/-- The parts that come to the owner of block `b`, as CRDX_BLOCK_CLOSE names them. -/
def Coll.came (x : Coll) (owner b : Nat) : List (Nat × List Word) :=
  (x.parts.filter (fun p => p.comesTo owner)).map (fun p => (p.rank, (p.data.drop (32 * b)).take 32))

/-- The end markers of a lossy collective that come by themselves: a contribution's once a rank has given its part, a
result's once a closed block has reached the rank (R423, R424). -/
def Coll.markerComes (x : Coll) (k : Copy) (me : Nat) : Bool :=
  match k.op with
  | .crdx => if k.owns me && !x.markers.any (fun m => m.1 == me) then x.parts.any (fun p => p.comesTo me)
      else x.blocks.any (fun y => y.1 == me)
  | _ => x.parts.any (fun p => p.rank != me && p.comesTo me)

/-- An owner of another package that has given its own part closes its blocks when it has every part, or LSLACK after this rank has
issued (R423). -/
def State.farCloses (s : State) (k : Copy) (x : Coll) (owner ranks : Nat) : Bool :=
  (x.part owner owner).isSome && ((List.range ranks).all (fun r => (x.part r owner).isSome) || decide (k.deadline k.issued ≤ s.now))

/-- The events that are due at a lossy collective of a car. -/
def State.dueColl (s : State) (r : CarRef) (k : Copy) (x : Coll) : List Move :=
  let me := s.myRank k
  let ranks := (s.dev.group k.wd.group).ranks
  ((if x.markerComes k me then [execEndMarkerArrival r k.num] else [])
    ++ (if k.op = .crdx then
          ((List.range ((k.wd.count + 31) / 32)).filter (fun b => x.localRanks.contains (b % ranks) || s.farCloses k x (b % ranks) ranks)).map
            (fun b => execCrdxBlockClose r k.num b (x.came (b % ranks) b))
        else (List.range k.wd.blocks).map (fun b => execLossyBlockArrival r k.num b))
    ++ [execLossyClose r k.num, execCollectiveDeadline r k.num]).filter s.acts

/-- The part of the focused car in a collective whose source has still to be read, and may be now (R236, R240, R241). -/
def State.unread (s : State) (k : Copy) : Option Contribution :=
  if k.op.isColl && k.state == .running && !s.enginesPaused then
    match s.dev.collOf k with
    | some x => if !s.acqReady k then none
        else x.parts.find? (fun p => p.car == some s.car.ref && !p.ready)
    | none => none
  else none

/-- Read the source of a collective of a car again. -/
def readLate (r : CarRef) (n : Nat) (s : State) : Result :=
  s.at r (fun s => match s.car.copyOf n with
    | none => s
    | some k =>
      match s.unread k with
      | some p => s.gatherLate k p
      | none => s)

/-- The events that are due at one copy or collective of a car. -/
def State.dueCopy (s : State) (r : CarRef) (k : Copy) : List Move :=
  if s.car.life = .idle then [execCopyComplete r k.num]
  else if k.void then (if k.issued < s.now ∧ s.copyMayEnd k then [execCopyComplete r k.num] else [])
  else if s.now < k.issued + engineCycles then []
  else if (s.unread k).isSome then [readLate r k.num]
  else if s.copyMayEnd k then [execCopyComplete r k.num]
  else if k.op.isColl then
    (match s.dev.collOf k with
     | some x => if k.lossy then s.dueColl r k x else []
     | none => [])
  else match s.dev.lossyOf s.car.ref k.num with
    | some x =>
      ((x.missing.map (fun b => execLossyBlockArrival r k.num b))
        ++ [execEndMarkerArrival r k.num, execLossyClose r k.num, execCompletionNotice r k.num]).filter s.acts
    | none => []

/-- The events that are due at the engines of a car. -/
def State.dueEngines (s : State) (r : CarRef) : List Move :=
  let c := s.car
  (c.eng.copies.flatMap (fun k => s.dueCopy r k))
  ++ (if s.enginesPaused then [] else
      ((c.eng.ranges.filter (fun x => decide (x.issued + engineCycles ≤ s.now) && !s.rangeHeld x)).map (fun x => execRangeOpComplete r x.id))
      ++ (c.eng.unmaps.filter (fun u => !u.faulted)).map (fun u => execCunmComplete r u.num)
      ++ c.eng.stash.flatMap (fun m => m.filling.map (fun g => execStashFill r (m.base + 64 * g))))
  ++ (if s.spent c then [execCarFinish r] else [])

/-- The events that are due at the array of a car's core. -/
def State.dueArray (s : State) (r : CarRef) : List Move :=
  let a := s.car.arr
  let cal := a.cal
  if s.car.place.secondary then []
  else
    (if a.queue.any (fun x => decide (x.ready ≠ 0 ∧ x.ready ≤ s.now)) then [execReportReadable r] else [])
    ++ ((List.finRange 16).filter (fun g => match a.groups[g].win with
        | some w => !w.void && w.lost s.now
        | none => false)).map (fun g => execWindowVoid r g)
    ++ (if a.calStarts then [execCalibrationStart r] else [])
    ++ (if a.calEnds s.now then [execCalibrationComplete r] else [])
    ++ (if cal.periodic.isNone && s.dev.aged a 1 then [execCalPeriodicDue r] else [])
    ++ (if !cal.skew && s.dev.aged a s.dev.house.stalex then [execCalStale r] else [])
    ++ (if !cal.forced && s.dev.aged a s.dev.house.forcex then [execCalForced r] else [])

/-- The events that are due at a car before the cars issue: its registers, its waits, its array. -/
def State.dueCar (s : State) (r : CarRef) : List Move :=
  let s := s.turnTo r
  s.dueRegs r ++ s.dueWaits r ++ s.dueArray r

/-- The events that are due at a car's engines, after the cars of the cycle have issued: their posts come after its YFLR and YFLW
(R266). -/
def State.dueLate (s : State) (r : CarRef) : List Move := (s.turnTo r).dueEngines r

/-- The events that are due at lines and ports. -/
def State.dueOptics (s : State) : List Move :=
  let d := s.dev
  d.streams.flatMap (fun x => (if s.lateRead x then [execLineStreamRead x.id] else []) ++ (if s.mayDrive x then [execLineStreamBeat x.id] else []))
  ++ (List.finRange 16).flatMap (fun l =>
    (if (d.lasers.toList.getD l.val {}).power.any (fun p => decide (p.toInt < (d.lasers.toList.getD l.val {}).pwarn)) then
      ((List.finRange 32).filter (fun k => d.rowWeak l k.val)).map (fun k => execRemapPending l k) else [])
    ++ (if s.remapStarts l then [execRemapStart l] else []) ++ (if s.remapEnds l then [execRemapEnd l] else []))
  ++ d.fab.ports.flatMap (fun e =>
    if h : e.1 < 128 then
      let p : Fin 128 := ⟨e.1, h⟩
      let x := e.2
      (match x.retrain with
       | some t => if t ≤ d.now then [execRetrainComplete p (BitVec.allOnes 34)] else []
       | none => [])
      ++ (if x.retrain.isSome then [] else
          ((if x.csymThr = 0#16 then List.range 34 else x.lanes.map (fun l => l.1)).filter (fun l =>
            decide (l < 34) && x.laneBad d.now l && !x.failed.getLsbD l)).map (fun l => execLaneFail p l))
      ++ x.failing.map (fun l => execLaneRemap p l)
      ++ (match x.replay.getLast? with
          | some f => [execFlitAck p f.seq]
          | none => [])
    else [])

/-- The events that are due in the fabric. -/
def State.dueFabric (s : State) : List Move :=
  let f := s.dev.fab
  let all : List Move := (f.remote.map (fun r => execRemoteRequest r.id))
  ++ (if f.invQ.isEmpty then [] else [execInvalidationComplete])
  ++ (if f.mig.isSome then [execMigrationLineCopy] else [])
  ++ f.groups.filterMap (fun (g : Nat × GroupEntry) => if h : g.1 < 4096 then (if g.2.busy then some (execGroupBusyClear ⟨g.1, h⟩) else none) else none)
  ++ f.packets.filterMap (fun (p : McPacket) => if h : p.group < 4096 then
      some (execThroughRunningFrame ⟨p.group, h⟩ (p.beat.getD (f.frames.filter (fun x => x.group == p.group)).length) p.bytes) else none)
  ++ (s.dev.sig.consists.filter (fun x => x.ttset != 0#8 && x.saved.isNone && !f.hasSet x.ttset)).map (fun x => execTimetableLoad x.ttset)
  ++ f.suspended.map (fun n => execAlternateSetLoad n)
  ++ f.foreign.map (fun x => fun (s : State) => .next (s.closeForeign x))
  all.filter s.acts

/-- The events that are due in the Signal box. -/
def State.dueQueues (s : State) : List Move :=
  let x := s.dev.sig
  let all : List Move := (x.wanted.map (fun q => execSlotMap q))
  ++ x.slots.flatMap (fun e => if e.2.unmapping then [execSlotUnmap e.2.q]
      else if e.2.failed then [execRecordReread e.2.q] else if e.2.head != e.2.tail then [execConsumeRecord e.2.q] else [])
  ++ x.services.flatMap (fun v => [execCountRead v.q v.seq, execServiceComplete v.q v.seq, execPlaceConsist v.q v.seq (BitVec.ofNat 32 v.placed)])
  ++ x.consists.flatMap (fun c => [execConsistRelease c.q c.seq c.idx, execConsistPark c.q c.seq c.idx, execForcedStop c.q c.seq c.idx,
      execConsistResume c.q c.seq c.idx, execPreemptRequest c.q c.seq c.idx])
  ++ x.held.filterMap (fun h => if k : h.1 < 4096 then some (execBhtWriteApply ⟨h.1, k⟩) else none)
  all.filter s.acts

/-- The events that are due in the Distant, and a firmware restart. -/
def State.dueSpecs (s : State) : List Move :=
  let x := s.dev.sig
  let all : List Move := (x.specs.flatMap (fun p => [execSpeculationDiscard p.svc.q p.svc.seq, execSpecYield p.svc.q p.svc.seq,
      execSpeculationCommit p.svc.q p.svc.seq, execPlaceConsist p.svc.q p.svc.seq (BitVec.ofNat 32 p.svc.placed)]))
  ++ x.backs.map (fun b => execSidingCopyBack b.1 b.2.1)
  ++ (if x.specs.isEmpty then [] else x.slots.map (fun e => fun (s : State) => .next (s.mapDev (fun d => d.seeDbg e.2.q))))
  ++ (if x.spec.ctl.getLsbD 0 then x.slots.map (fun e => execSpeculationStart e.2.q) else [])
  ++ (if s.dev.house.fw.pending then [execFirmwareRestart] else [])
  all.filter s.acts

/-- The regions whose lines one die alone has held for 1 ms (R300). -/
def State.dueRegions (s : State) : List Move :=
  s.dev.regions.flatMap (fun e => match e.2.lines with
    | (_, die, _) :: _ => if e.2.mode = .fine ∧ e.2.collapses die s.now then [execRegionToPrivate e.1 die] else []
    | [] => [])

/-- The first event that is due before the cars of the cycle issue. -/
def State.due (s : State) : Option Move :=
  match s.cars.flatMap (fun c => s.dueCar c.ref) with
  | i :: _ => some i
  | [] => s.dueOptics.head?

/-- The first event that is due after the cars of the cycle have issued. -/
def State.dueAfter (s : State) : Option Move :=
  match s.cars.flatMap (fun c => s.dueLate c.ref) with
  | i :: _ => some i
  | [] =>
    match s.dueFabric with
    | i :: _ => some i
    | [] =>
      match s.dueQueues with
      | i :: _ => some i
      | [] =>
        match s.dueSpecs with
        | i :: _ => some i
        | [] => match s.dueRegions with
          | i :: _ => some i
          | [] => if s.dev.scrubbed + Config.dayCycles ≤ s.now then some execScrub else none

/-- The first car with a release that has performed. -/
def State.delivers (s : State) : Option CarRef :=
  (s.cars.find? (fun c => c.eng.releases.any (fun r => s.released c r))).map Car.ref

/-- The first car with a wait that is over, once the posts of the cycle have reached its flags (R28). -/
def State.ended (s : State) : Option CarRef :=
  (s.cars.find? (fun c => c.wait.any (s.turnTo c.ref).waitOver)).map Car.ref

/-! A car's turn (R88, R329, R336, R338). -/

/-- DBG_STAT loses STEPPING, and with `run` HALTED. -/
def Debug.stepOver (b : Debug) (run : Bool) : Debug :=
  { b with stat := b.stat &&& ~~~(if run then 0x101#10 else 0x100#10), stepped := false }

/-- A step ends (R336): the car halts again, or with STEPTRAP takes the STEP trap instead. -/
def State.endStep (s : State) : State :=
  let b := s.debugOf s.car
  if b.ctl.getLsbD 12 && b.halted && s.car.life == .running then
    let s := s.mapDebug (fun b => b.stepOver true)
    (s.mapCar (fun c => c.pend (.step b.stepPc))).trapNow
  else
    let pc := s.car.pc
    s.mapDebug (fun b => { b.stepOver false with pc := if b.halted then pc else b.pc })

/-- The step that is in progress has come to its boundary: the bundle has issued, or trapped and its handler is over. -/
def State.stepDone (s : State) : Bool :=
  let b := s.debugOf s.car
  b.stepping && b.stepped && !s.car.tr.masked

/-- The bundle at an address has issued or trapped: a step in progress ends, unless a handler runs. -/
def State.afterBundle (s : State) (pc : BitVec 17) : State :=
  if (s.debugOf s.car).stepping then
    let s := s.mapDebug (fun b => { b with stepped := true, stepPc := if b.stepped then b.stepPc else pc })
    if s.stepDone || s.car.life != .running then s.endStep else s
  else s

/-- The car stands still for the debugger. -/
def State.stopped (s : State) (c : Car) : Bool := (s.debugOf c).halted && !(s.debugOf c).stepping

/-- The waits of the focused car that are over end (R258). -/
def State.endWaits (s : State) : State := (s.car.wait.filter s.waitOver).foldl (fun s w => s.endWait w) s

/-- What comes at the boundary before the next bundle, if anything does: the end of a step, a debug halt, an asynchronous
trap. -/
def State.boundary (s : State) : Option State :=
  if s.stepDone then some s.endStep
  else if s.mayHalt then some s.haltNow
  else if s.mayTrap then some s.trapNow
  else none

/-- The car could issue its next bundle in this cycle: it runs, nothing holds it. -/
def State.clear (s : State) (c : Car) : Bool :=
  c.life == .running && c.wait.isEmpty && decide (c.ready ≤ s.now) && !c.walking && !s.stopped c

/-- An instruction breakpoint matches the focused car's next bundle (R338): its bits; never that of a step. -/
def State.breakBits (s : State) : BitVec 10 :=
  let b := s.debugOf s.car
  if b.stepping || b.ctl.extractLsb' 4 4 == 0#4 || s.car.past then 0#10
  else (List.finRange 4).foldl (fun (m : BitVec 10) n =>
    if b.ctl.getLsbD (4 + n.val) && b.ibp[n] == s.car.pc then m ||| (1#10 <<< (4 + n.val)) else m) 0#10

/-- A breakpoint that matches halts the car or raises BRK; none otherwise (R338). While traps are masked the halt waits. In a
speculation the match dooms (R389). -/
def State.breakpoint (s : State) : Option State :=
  let m := s.breakBits
  if m = 0#10 then none
  else if s.car.place.spec then some s.doom
  else
    let s := s.mapDebug (fun b => { b with stat := b.stat ||| m })
    if (s.debugOf s.car).ctl.getLsbD 10 then some (s.preciseTrap (s.here .brk))
    else
      let s := s.mapDebug (fun b => { b with hit := true })
      if s.mayHalt then some s.haltNow else none

/-- The breakpoint bits that stand while the halt waits. -/
def State.noteBreak (s : State) : State :=
  let m := s.breakBits
  if m = 0#10 then s else s.mapDebug (fun b => { b with stat := b.stat ||| m, hit := true })

/-- The next bundle leaves: it issues, traps or dooms. -/
def State.leaves (s : State) : Bool :=
  match s.outlook with
  | .ok (_, .wait) => false
  | .ok (_, .walk _) => false
  | _ => true

/-- An issue attempt, and the step that it may end. -/
def State.tryIssue (s : State) : Result :=
  match s.attempt true with
  | .next t => .next (if s.leaves then t.afterBundle s.car.pc else t)
  | r => r

/-- The turn of a car that issues by itself: one without a domain, or in handler mode (R95, R96). -/
def State.soloTurn (s : State) : Result :=
  match s.boundary with
  | some t => .next t
  | none =>
    if !s.clear s.car then .next s
    else match s.breakpoint with
      | some t => .next t
      | none => s.noteBreak.tryIssue

/-! A domain's turn (R95, R96). -/

/-- The cars of the focused car's domain, by name. -/
def State.domainRefs (s : State) : List CarRef :=
  (s.cars.filter (fun c => c.place.domain == s.car.place.domain)).map Car.ref

/-- The boundary events of a domain's cars; none when there is not one. -/
def State.domainBoundary (s : State) (rs : List CarRef) : Option State :=
  let rs := rs.filter (fun r => !(s.turnTo r).car.tr.handler)
  if rs.any (fun r => (s.turnTo r).boundary.isSome) then
    some (rs.foldl (fun s r => s.atCar r (fun s => s.boundary.getD s)) s)
  else none

/-- A car of the domain is not able to issue: it is in the handler, waits, walks, or is halted. The bundles of the others are not
examined in such a cycle (notes/assumptions/59.md). -/
def State.frozen (s : State) (rs : List CarRef) : Bool :=
  rs.any (fun r => let t := s.turnTo r; t.car.tr.handler || !t.clear t.car)

/-- The streams that the bundles of a domain start too late drive the beat of this CCYC before any of its MBTs meets it (R116). -/
def State.lateDrives (s : State) (rs : List CarRef) : State :=
  let xs := rs.flatMap (fun r =>
    let t := (s.turnTo r).openBundle
    match t.car.fetch with
    | .ok b => b.instrs.filterMap t.lateDrive
    | .error _ => [])
  s.mapDev (fun d => xs.foldl Device.awaitLate d)

/-- Issue with a domain: every car or none. What its streams read in the step comes before the stores of its bundles (R246). -/
def State.domainIssue (s : State) (rs : List CarRef) : Result :=
  if rs.all (fun r => (s.turnTo r).wouldIssue) then eachCar State.tryIssue rs ((s.readStreams s.car.place.domain).lateDrives rs)
  else eachCar (fun s => match s.attempt false with
    | .next t => .next (if s.leaves && !s.wouldIssue then t.afterBundle s.car.pc else t)
    | r => r) rs s

/-- The turn of a domain: `moved` of its cars have had a turn of their own in this cycle, in the handler, so that the domain does not
issue before the next (R95). -/
def State.domainTurn (s : State) (rs moved : List CarRef) : Result :=
  match s.domainBoundary (rs.filter (fun r => !moved.contains r)) with
  | some t => .next t
  | none =>
    if !moved.isEmpty || s.frozen rs then .next s
    else if rs.any (fun r => (s.turnTo r).breakpoint.isSome) then
      .next (rs.foldl (fun s r => s.atCar r (fun s => s.breakpoint.getD s)) s)
    else s.domainIssue rs

/-! The cycle. -/

/-- A car that has still to move in this cycle; a secondary car comes after its primary (R99). -/
def State.toMove (s : State) (c : Car) : Bool :=
  c.life == .running && !c.done && (!c.place.secondary || !s.cars.any (fun p =>
    p.ident.coreId == c.ident.coreId && !p.place.secondary && p.life == .running && !p.done))

/-- The focused car's turn, alone or with its domain. -/
def State.carTurn (s : State) : Result :=
  if s.car.place.domain.isNone || s.car.tr.handler then (s.mapCar (fun c => { c with done := true })).soloTurn
  else
    let rs := s.domainRefs
    let moved := rs.filter (fun r => (s.turnTo r).car.done)
    let solo := rs.filter (fun r => (s.turnTo r).car.tr.handler)
    let s := s.mapCars (fun c => if rs.contains c.ref && !solo.contains c.ref then { c with done := true } else c)
    s.domainTurn rs moved

/-- A cycle ends: idle arrays take note, and every car may move again. -/
def State.nextCycle (s : State) : State :=
  (s.mapCars (fun c => { c with done := false, took := none, arr := c.arr.idleCycle s.now })).mapDev (fun d => { d with now := d.now + 1 })

/-- What follows the cars of a cycle: what is due then, the releases that have performed, the waits that are over, the next cycle. -/
def State.closing (s : State) : Result :=
  match s.dueAfter with
  | some i => i s
  | none =>
    match s.delivers, s.ended with
    | some r, _ => .next (s.atCar r State.deliverMine)
    | none, some r => .next (s.atCar r State.endWaits)
    | none, none => .next s.nextCycle

/-- One step: what comes from outside first, then what is due, then a car's turn, then what closes the cycle. -/
def State.advance (s : State) : Result :=
  match s.inbox with
  | x :: rest => ({ s with inbox := rest }).receive x
  | [] =>
    match s.due with
    | some i => i s
    | none =>
      if s.toMove s.car then s.carTurn
      else match s.cars.find? (fun c => s.toMove c) with
        | some c => .next (s.turnTo c.ref)
        | none => s.closing

/-! A program that is put in place (notes/assumptions/1.md). -/

/-- The bytes of a row of the opcode table, as instruction memory holds them: nothing for an event. -/
def tableBytes (nbits w : Nat) : List Byte := if nbits = 32 then (tableWords (BitVec.ofNat 32 w)).flatMap bytesOfSlot else []

/-- The focused car runs from its pc, with the bytes of an instruction there. -/
def State.place (s : State) (bs : List Byte) : State :=
  { s with
    inbox := []
    old := none
    car := { s.car with
      life := .running
      wait := []
      done := false
      ready := 0
      imem := s.car.imem.write s.car.pc.toNat bs } }

end Sys2Proof.Machine
end

