-- ==== Sys2Proof/Machine/Step.lean ====
section
/-!
DEFINITION. One step of the machine, and how a program is put in place for it.
-/
namespace Sys2Proof.Machine

/-- One step: what comes from outside, what is due, a car's turn, or the next cycle (notes/assumptions/5.md). -/
def step (s : State) : Host.Outcome State Fault Refusal := s.advance

/-- The state with an instruction of the opcode table where the focused car fetches its next bundle, and that car running
(notes/assumptions/1.md). -/
def State.withFetchWord (s : State) (nbits w : Nat) : State := s.place (tableBytes nbits w)

end Sys2Proof.Machine
end

