-- ==== Sys2Proof/Safety.lean ====
section
/-!
DEFINITION. The terms in which claims about the machine are stated: operands that can be read and written, a slot that
issues, what stands between two steps, and memory in its canonical form.
-/
namespace Sys2Proof.Machine

/-! A slot that issues (R88). -/

/-- Every operand of a list is full and carries no poison mark (R13, R134). -/
def State.Readable (s : State) (os : List Opnd) : Prop :=
  ∀ o ∈ os, s.src.isFull o = true ∧ s.src.isPoisoned o = false

/-- Every operand of a list is full, so that a producer of it may start (R88). -/
def State.Room (s : State) (os : List Opnd) : Prop := ∀ o ∈ os, s.src.isFull o = true

/-- A vector unit takes an operation in this cycle (R88, R92), and FMT.VT names a type (R32). -/
def State.VecReady (s : State) : Prop :=
  s.throttled = false ∧ s.vecBusy s.vecUnit ≤ s.now ∧ s.fmt.vtBad = false

/-- Nothing keeps a slot with these needs from issuing (R70, R71, R88). -/
structure Plan.Passes (p : Plan) (s : State) : Prop where
  legal : p.illegal = false
  allowed : p.priv = false
  units : s.unitsBusy [p] = false
  still : p.wait = false
  reads : s.Readable p.srcs
  room : s.Room p.dsts
  cause : p.cause = none
  spec : p.dooms = false
  mapped : p.walk = none

/-- The instruction is a slot, and nothing keeps it from issuing. -/
def State.Issues (s : State) (i : Instr) : Prop := ∃ o, slotOf i s = some o ∧ o.plan.Passes s

/-! Between two steps. -/

/-- No bundle is in issue: a bundle issues whole within a step, or not at all (R62, R89). -/
def State.Between (s : State) : Prop := s.old = none

/-- The focused car is about to attempt its next bundle in this step: nothing comes from outside, nothing is due, no
boundary event or breakpoint stands before the bundle, and the car is in no coupling domain (R88, R95, R329, R338). -/
structure State.AboutToIssue (s : State) : Prop where
  outside : s.inbox = []
  idle : s.due = none
  mine : s.toMove s.car = true
  solo : s.car.place.domain = none
  calm : (s.mapCar (fun c => { c with done := true })).boundary = none
  clear : (s.mapCar (fun c => { c with done := true })).clear { s.car with done := true } = true
  unbroken : (s.mapCar (fun c => { c with done := true })).breakBits = 0#10

/-! Memory in its canonical form. -/

/-- The memories of a car: its scratchpad, its instruction memory, the scratchpads its copies hold. -/
def Car.memOk (c : Car) : Bool := c.spad.wf && c.imem.wf && c.eng.copies.all (fun k => k.spad.wf)

/-- The memories of the package: its own, that of other packages, the shadow pages, and those of saved cars. -/
def Device.memOk (d : Device) : Bool :=
  d.mem.wf && d.remote.wf && d.sig.specs.all (fun x => x.shadow.wf)
    && d.sig.consists.all (fun x => (x.saved.getD []).all Car.memOk)

/-- Every memory is in its canonical form, those that a bundle in issue reads included. -/
def State.memOk (s : State) : Bool :=
  s.cars.all Car.memOk && s.dev.memOk && (match s.old with
    | some o => o.1.memOk && o.2.memOk
    | none => true)

/-! Elements of a vector register. -/

/-- Element `i` of a vector register at a type (R37, R168). -/
def lane (t : ETy) (x : VWord) (i : Nat) : Nat := x.toNat / 2 ^ (t.bits * i) % 2 ^ t.bits

end Sys2Proof.Machine
end

