-- ==== Sys2Proof/Certificates/Slice0/Obligations.lean ====
section
/-!
DEFINITION. The statements for the provers. Each follows numbered rules of the spec, or says in its docstring what of the
model it rests on.
-/

open Sys2Proof Sys2Proof.Machine

/-! Words in which the statements are written. -/

namespace Sys2Proof.Claims

/-- A result at the width that md names: 64 bits, or 32 bits with bit 31 copied into bits 63 to 32 (R126). -/
def atMd (w : Bool) (x64 : Word) (x32 : BitVec 32) : Word := if w then x32.signExtend 64 else x64

/-- 1 when a compare holds, else 0 (R125). -/
def truth (n : Nat) (p : Prop) [Decidable p] : BitVec n := if p then 1#n else 0#n

/-- The high half of a product of `n` bits taken at `2 * n` bits. -/
def highHalf (n : Nat) (x y : BitVec (n + n)) : BitVec n := (x * y).extractLsb' n n

/-- `c` counts the zero bits above the highest one bit of `x`; the width when there is none. -/
def CountsLeading (n c : Nat) (x : BitVec n) : Prop :=
  c ≤ n ∧ (∀ j, n - c ≤ j → j < n → x.getLsbD j = false) ∧ (c < n → x.getLsbD (n - 1 - c) = true)

/-- `c` counts the zero bits below the lowest one bit of `x`; the width when there is none. -/
def CountsTrailing (n c : Nat) (x : BitVec n) : Prop :=
  c ≤ n ∧ (∀ j, j < c → x.getLsbD j = false) ∧ (c < n → x.getLsbD c = true)

/-- The one bits of `x`. -/
def ones (n : Nat) (x : BitVec n) : Nat := ((List.range n).filter (fun j => x.getLsbD j)).length

/-- Place and width of a bit field at `n` bits: p in the low bits of sb, w in the bits from 8 up, 0 meaning `n` (R125,
R126). -/
def fieldPlace (w : Bool) (y : Word) : Nat × Nat :=
  if w then ((y.extractLsb' 0 5).toNat, if y.extractLsb' 8 5 = 0#5 then 32 else (y.extractLsb' 8 5).toNat)
  else ((y.extractLsb' 0 6).toNat, if y.extractLsb' 8 6 = 0#6 then 64 else (y.extractLsb' 8 6).toNat)

/-- The quotient and the remainder of R127 at `n` bits. -/
def quotS (n : Nat) (x y : BitVec n) : BitVec n := if y = 0#n then BitVec.allOnes n else BitVec.ofInt n (x.toInt.tdiv y.toInt)
def quotU (n : Nat) (x y : BitVec n) : BitVec n := if y = 0#n then BitVec.allOnes n else BitVec.ofNat n (x.toNat / y.toNat)
def remS (n : Nat) (x y : BitVec n) : BitVec n := if y = 0#n then x else BitVec.ofInt n (x.toInt.tmod y.toInt)
def remU (n : Nat) (x y : BitVec n) : BitVec n := if y = 0#n then x else BitVec.ofNat n (x.toNat % y.toNat)

/-! Memory. -/

/-- Every byte that the focused car and the package hold reads as before. The own scratchpad is compared where no stash
mapping stands in it. -/
def SameBytes (s t : State) : Prop :=
  (∀ a, t.dev.mem.read a = s.dev.mem.read a) ∧ (∀ a, t.dev.remote.read a = s.dev.remote.read a) ∧
  (∀ a, t.car.imem.read a = s.car.imem.read a) ∧ (s.car.eng.stash = [] → ∀ a, t.car.spad.read a = s.car.spad.read a)

/-- A byte of the own scratchpad as the car's own loads see it where no stash mapping stands: the newest byte that its store queue
holds for it, else what stands there (R291). -/
def own (c : Car) (a : Nat) : Byte := (c.queuedByte a).getD (c.spad.read a)

/-- Eight such bytes as a word, little-endian (R37). -/
def ownWord (c : Car) (a : Nat) : Word := BitVec.ofNat 64 (natLE ((List.range 8).map (fun i => own c (a + i))))

/-- What a read leaves of memory: a read of a software-managed page brings lines into the die's cache, and a dirty line that leaves it
goes to its home; every other byte reads as before (R302, R303). -/
def SameButEvicted (s t : State) : Prop :=
  let mine := fun (l : CacheLine) => l.die = dieOf s.car.ident.coreId
  (∀ a, t.car.imem.read a = s.car.imem.read a) ∧ (s.car.eng.stash = [] → ∀ a, t.car.spad.read a = s.car.spad.read a) ∧
  ((∀ l ∈ s.dev.cache, mine l → l.dirty = 0#64) →
    (∀ a, t.dev.mem.read a = s.dev.mem.read a) ∧ ∀ a, t.dev.remote.read a = s.dev.remote.read a) ∧
  (s.dev.fab.fwd = [] → (∀ a, t.dev.remote.read a = s.dev.remote.read a) ∧
    ∀ a, t.dev.mem.read a = s.dev.mem.read a ∨ ∃ l ∈ s.dev.cache, mine l ∧ l.line = a / 64 ∧ l.dirty.getLsbD (a % 64) = true)

/-- The registers, the control registers, the loop engine and the array of the focused car, and its peers' registers, are as
before. -/
def SameRegs (s t : State) : Prop :=
  t.car.regs = s.car.regs ∧ t.car.ctl = s.car.ctl ∧ t.car.loop = s.car.loop ∧ t.car.late = s.car.late ∧
  t.car.arr = s.car.arr ∧ t.car.ident = s.car.ident ∧ t.car.pc = s.car.pc ∧ t.car.tr.handler = s.car.tr.handler ∧
  t.car.tr.masked = s.car.tr.masked ∧ t.car.tr.snap = s.car.tr.snap ∧ t.peers.map Car.regs = s.peers.map Car.regs

/-- A scalar register is empty and will be filled with a value at a cycle, or when its data come (R90, R91). For s0 nothing
is said: its value is discarded (R15). -/
def Awaits (t : State) (d : SReg) (x : Word) (due : Option Nat) : Prop :=
  d ≠ 0 → t.car.emptyS d = true ∧ ∃ f ∈ t.car.flight, f.dest = .s (t.car.physS d).val x ∧ f.due = due

/-- Byte `i` of a word, little-endian (R37). -/
def byteAt (x : Word) (i : Nat) : Byte := x.extractLsb' (8 * i) 8

/-- Bytes `lo` to `lo + n - 1` read as the bytes of a word, and every other as before. -/
def Stored (old new : Mem) (lo n : Nat) (x : Word) : Prop :=
  ∀ a, new.read a = if lo ≤ a ∧ a < lo + n then byteAt x (a - lo) else old.read a

/-- The value that `n` bytes stand for, little-endian, zero- or sign-extended (R37, R132). -/
def loadedValue (sgn : Bool) (n : Nat) (bs : List Byte) : Word :=
  if sgn then (BitVec.ofNat (8 * n) (natLE bs)).signExtend 64 else BitVec.ofNat 64 (natLE bs)

/-- The scalar loads with their sizes and whether they extend the sign (R132). -/
def loads (te : Bool) (d a : SReg) (off : BitVec 36) : List (Instr × Nat × Bool) :=
  [(.ldb te d a off, 1, true), (.ldbu te d a off, 1, false), (.ldh te d a off, 2, true), (.ldhu te d a off, 2, false),
   (.ldw te d a off, 4, true), (.ldwu te d a off, 4, false), (.ldd te d a off, 8, false)]

/-- The scalar stores with their sizes (R132). -/
def stores (te : Bool) (v a : SReg) (off : BitVec 36) : List (Instr × Nat) :=
  [(.stb te v a off, 1), (.sth te v a off, 2), (.stw te v a off, 4), (.std te v a off, 8)]

/-- The atomics with the value that each writes, and whether each returns the old one (R137); `y` is sb, `z` is sd. -/
def atomics (te : Bool) (sc : BitVec 2) (d a b : SReg) (ord : BitVec 2) : List (Instr × (Word → Word → Word → Option Word) × Bool) :=
  [(.ald te sc d a ord, fun _ _ _ => none, true), (.ast te sc a b ord, fun _ y _ => some y, false),
   (.aadd te sc d a b ord, fun x y _ => some (x + y), true),
   (.amaxu te sc d a b ord, fun x y _ => some (if x.toNat < y.toNat then y else x), true),
   (.aor te sc d a b ord, fun x y _ => some (x ||| y), true), (.aand te sc d a b ord, fun x y _ => some (x &&& y), true),
   (.aswp te sc d a b ord, fun _ y _ => some y, true),
   (.acas te sc d a b ord, fun x y z => if x = z then some y else none, true)]

/-- No car has a stash mapping, so that a write reaches no other scratchpad. -/
def NoStash (s : State) : Prop := s.src.eng.stash = [] ∧ ∀ c ∈ s.cars, c.eng.stash = []

/-- No forwarding entry stands, and the focused car does not speculate: an HBM address means this package's byte. -/
def PlainHbm (s : State) : Prop := s.dev.fab.fwd = [] ∧ s.car.place.spec = false

/-! Vectors. -/

/-- The lanes of va and vd, and of vb, as the slot reads them. -/
def laneA (s : State) (r : VReg) (i : Nat) : Nat := lane s.fmt.ety (s.rVA r) i
def laneB (s : State) (r : VReg) (i : Nat) : Nat := lane s.fmt.ety (s.rVB r) i

/-- Bit `i` of a governing mask (R168). -/
def on (s : State) (k : KLow) (i : Nat) : Bool := (s.rK k.toK).getLsbD i

/-- The flags of the active lanes together. -/
def laneFlags (s : State) (k : KLow) (f : Nat → Fl) : Fl :=
  (List.range s.fmt.ety.count).foldl (fun g i => if on s k i then g ||| f i else g) 0#8

/-- The next state of an element-wise instruction: after `lat` cycles vd holds `f i` in every active lane and its old element in
the others; VFLAGS takes the active lanes' flags; the vector unit is held for 8 cycles; nothing else changes (R168, R169, R38). -/
def LanesBecome (s t : State) (d : VReg) (k : KLow) (lat : Nat) (f : Nat → Nat × Fl) : Prop :=
  ∃ x : VWord, t = ((s.writeV d (k == 0) lat x).setFlags (laneFlags s k (fun i => (f i).2))).takeVec 8 ∧
    ∀ i < s.fmt.ety.count, lane s.fmt.ety x i = if on s k i then (f i).1 % 2 ^ s.fmt.ety.bits else laneA s d i

/-- The next state of an instruction that writes every byte of vd, with its flags. -/
def WholeBecomes (s t : State) (d : VReg) (k : KLow) (lat : Nat) (t' : ETy) (f : Nat → Nat) (fl : Fl) : Prop :=
  ∃ x : VWord, t = ((s.writeV d (k == 0) lat x).setFlags fl).takeVec 8 ∧
    ∀ i < t'.count, lane t' x i = f i % 2 ^ t'.bits

/-- The next state of an instruction that writes a whole mask: bit `i` is `f i` below the element count, 0 from it on. -/
def MaskBecomes (s t : State) (d : KReg) (busy : Nat) (f : Nat → Bool) (fl : Fl) : Prop :=
  ∃ x : Mask, t = ((s.produceK d 12 x).setFlags fl).takeVec busy ∧
    ∀ i < 4096, x.getLsbD i = (decide (i < s.fmt.ety.count) && f i)

/-- The integer classes: two's complement, and the type's ends (R43). -/
def intLow (t : ETy) : Int := -(2 ^ (t.bits - 1) : Nat)
def intHigh (t : ETy) : Int := (2 ^ (t.bits - 1) : Nat) - 1

/-- An exact integer delivered in an integer type: saturated once, which sets SAT (R43). -/
def delivered (t : ETy) (v : Int) : Nat × Fl :=
  if v < intLow t then (((intLow t) % 2 ^ t.bits).toNat, SAT)
  else if intHigh t < v then (((intHigh t) % 2 ^ t.bits).toNat, SAT)
  else ((v % 2 ^ t.bits).toNat, 0#8)

/-- The element-wise operations of one operand, each with its latency, whether it takes the type, and its function (R197 to
R204). -/
def vxForms (te : Bool) (d a : VReg) (k : KLow) (s : State) : List (Instr × Nat × Bool × (Nat → Nat × Fl)) :=
  let t := s.fmt.ety
  let m := s.fmt
  [(.vabs te d a k, 12, true, signElem true t m), (.vneg te d a k, 12, true, signElem false t m),
   (.vrcp te d a k, 16, t.isReal, VxFn.rcp.elem t m), (.vrsq te d a k, 16, t.isReal, VxFn.rsq.elem t m),
   (.vsqrt te d a k, 16, t.isReal, VxFn.sqrt.elem t m), (.vexp2 te d a k, 16, t.isReal, VxFn.exp2.elem t m),
   (.vlog2 te d a k, 16, t.isReal, VxFn.log2.elem t m), (.vtanh te d a k, 16, t.isReal, VxFn.tanh.elem t m),
   (.vsig te d a k, 16, t.isReal, VxFn.sig.elem t m), (.vgelu te d a k, 16, t.isReal, VxFn.gelu.elem t m),
   (.vflr te d a k, 12, true, integralElem 3#2 t m), (.vrnd te d a k, 12, true, integralElem m.rm t m)]

/-- What a vector slot of these sources and destinations needs. -/
def VecGoes (s : State) (srcs dsts : List Opnd) : Prop := s.VecReady ∧ s.Readable srcs ∧ s.Room dsts

/-! Values of lanes, from the tables of the formats (R39 to R52, R58). -/

/-- A pattern of a binary format of `eb` exponent and `fb` fraction bits is finite, a NaN, a signalling NaN (R39). -/
def fin (eb fb x : Nat) : Prop := x / 2 ^ fb % 2 ^ eb ≠ 2 ^ eb - 1
def isNan (eb fb x : Nat) : Prop := x / 2 ^ fb % 2 ^ eb = 2 ^ eb - 1 ∧ x % 2 ^ fb ≠ 0
def isSig (eb fb x : Nat) : Prop := isNan eb fb x ∧ x % 2 ^ fb < 2 ^ (fb - 1)

/-- The sign bit, an infinity, the canonical NaN (R39). -/
def signBit (eb fb : Nat) (neg : Prop) [Decidable neg] : Nat := if neg then 2 ^ (eb + fb) else 0
def infinity (eb fb : Nat) (neg : Prop) [Decidable neg] : Nat := signBit eb fb neg + (2 ^ eb - 1) * 2 ^ fb
def quiet (eb fb : Nat) : Nat := (2 ^ eb - 1) * 2 ^ fb + 2 ^ (fb - 1)

/-- The value of a finite pattern; with `fz` a subnormal one is 0 (R39, R41). -/
def fval (eb fb : Nat) (fz : Bool) (x : Nat) : ℚ :=
  let e := x / 2 ^ fb % 2 ^ eb
  let m := x % 2 ^ fb
  let bias : ℤ := 2 ^ (eb - 1) - 1
  (if x / 2 ^ (eb + fb) % 2 = 1 then -1 else 1) *
    (if e = 0 then (if fz then 0 else (m : ℚ) * 2 ^ (1 - bias - fb)) else ((m : ℚ) + 2 ^ fb) * 2 ^ ((e : ℤ) - bias - fb))

/-- An integer that a value is rounded to in a mode (R31): the nearest, a tie to the even one; toward 0; up; down. -/
def RoundsInt (rm : BitVec 2) (v : ℚ) (n : ℤ) : Prop :=
  (rm = 0#2 → 2 * |n - v| ≤ 1 ∧ (2 * |n - v| = 1 → n % 2 = 0)) ∧
  (rm = 1#2 → |(n : ℚ)| ≤ |v| ∧ |v| < |(n : ℚ)| + 1 ∧ (n < 0 → v < 0) ∧ (0 < n → 0 < v)) ∧
  (rm = 2#2 → v ≤ n ∧ n < v + 1) ∧ (rm = 3#2 → n ≤ v ∧ v < n + 1)

/-- A pattern and its flags are an exact value, not 0, rounded once to a binary format (R40, R41): to a multiple `n` of the unit of its
binade, or of the subnormal unit; too large a one overflows; one that is subnormal is 0 with `fz`. -/
def RoundsTo (eb fb : Nat) (rm : BitVec 2) (fz : Bool) (v : ℚ) (y : Nat) (fl : Fl) : Prop :=
  ∃ (e n : ℤ),
    let bias : ℤ := 2 ^ (eb - 1) - 1
    let unit : ℚ := 2 ^ (max e (1 - bias) - fb)
    let r : ℚ := |n * unit|
    let least : ℚ := 2 ^ (1 - bias)
    (2 : ℚ) ^ e ≤ |v| ∧ |v| < 2 ^ (e + 1) ∧ RoundsInt rm (v / unit) n ∧
    ((2 : ℚ) ^ (bias + 1) ≤ r → fl = OF ||| NX ∧
      y = infinity eb fb (v < 0) - (if rm = 0#2 ∨ (rm = 2#2 ∧ 0 < v) ∨ (rm = 3#2 ∧ v < 0) then 0 else 1)) ∧
    (r < least → fz = true → y = signBit eb fb (v < 0) ∧ fl = UF ||| NX) ∧
    (r < 2 ^ (bias + 1) → (least ≤ r ∨ fz = false) → fin eb fb y ∧ y < 2 ^ (eb + fb + 1) ∧ fval eb fb false y = n * unit ∧
      (y / 2 ^ (eb + fb) = 1 ↔ v < 0) ∧ fl &&& ~~~(NX ||| UF) = 0#8 ∧ (fl &&& NX = NX ↔ n * unit ≠ v) ∧
      (r < least → n * unit ≠ v → fl &&& UF = UF) ∧ (least ≤ |v| → fl &&& UF = 0#8))

/-- The magnitudes of the bodies of M8 (R46). -/
def m8Table : List ℚ :=
  let p := fun (k : ℤ) => (2 : ℚ) ^ k
  [0, p (-18), p (-17), p 16, p (-15), p (-16), p 14, p 15, p (-11), p (-12), p (-13), p (-14), p 10, p 11, p 12, p 13] ++
  [p (-7), 3 / 2 * p (-7), p (-8), 3 / 2 * p (-8), p (-9), 3 / 2 * p (-9), p (-10), 3 / 2 * p (-10), 64, 96, 128, 192, 256, 384, 512, 768] ++
  [32, 40, 48, 56, 16, 20, 24, 28, 8, 10, 12, 14, 4, 5, 6, 7].map (fun x => x * p (-8)) ++
  [4, 5, 6, 7, 8, 10, 12, 14, 16, 20, 24, 28, 32, 40, 48, 56] ++
  ((List.range 16).map (fun i => (16 + i : ℚ)) ++ (List.range 16).map (fun i => (32 + 2 * i : ℚ)) ++ (List.range 16).map (fun i => (64 + 4 * i : ℚ)) ++
    (List.range 16).map (fun i => (128 + 8 * i : ℚ))).map (fun x => x * p (-6))

/-- The value of an M8 code other than NaR. -/
def m8Value (c : Nat) : ℚ := (if c / 128 % 2 = 1 then -1 else 1) * m8Table.getD (c % 128) 0

/-- A code and its flags are a value put into M8 (R47): the nearest, a tie to the body with bit 0 clear but for two. -/
def EncodesM8 (v : ℚ) (c : Nat) (fl : Fl) : Prop :=
  let far := fun (b : Nat) => abs (m8Table.getD b 0 - abs v)
  let b := c % 128
  (65536 < |v| → c = (if v < 0 then 0x83 else 0x03) ∧ fl = SAT ||| NX) ∧
  (|v| ≤ 65536 → c < 256 ∧ (128 ≤ c ↔ v < 0 ∧ b ≠ 0) ∧ fl = (if m8Table.getD b 0 = |v| then 0#8 else NX) ∧
    ∀ d < 128, far b ≤ far d ∧ (d ≠ b → far d = far b → (b % 2 = 0 ∧ d % 2 = 1) ∨ (b = 0x03 ∧ d = 0x07) ∨ (b = 0x16 ∧ d = 0x08)))

/-- The least and the greatest value of an integer or code type (R43, R49, R50). -/
def ends (t : ETy) : Int × Int :=
  if t = .l8 then (-127, 127) else if t = .c10 then (-511, 511) else (intLow t, intHigh t)

/-- A value held to a type's range, as a pattern, with SAT when it changed. -/
def held (t : ETy) (v : Int) : Nat × Fl :=
  ((max (ends t).1 (min (ends t).2 v) % 2 ^ t.bits).toNat, if v < (ends t).1 ∨ (ends t).2 < v then SAT else 0#8)

/-- An element of an integer or code type as it is read: an L8 0x80 as 0 and a C10 lane beyond ±511 as the nearest limit, with SAT (R49, R50). -/
def readCode (t : ETy) (x : Nat) : Int × Fl :=
  if t = .l8 then (if x = 0x80 then (0, SAT) else (signed 8 x, 0#8))
  else if t = .c10 then (max (-511) (min 511 (signed 16 x)), if signed 16 x < -511 ∨ 511 < signed 16 x then SAT else 0#8)
  else (signed t.bits x, 0#8)

/-- The binary formats of the float types (R39). -/
def formats : List (ETy × Nat × Nat) := [(.f32, 8, 23), (.f16, 5, 10), (.bf16, 8, 7)]

/-! Traps. -/

/-- The focused car stands in the handler after a trap of a car `c` (R322 to R325): its cause is in TCAUSE and TADDR, traps are
masked, the handler's bank is named, the next bundle is at TVEC, in the second cycle after `since` or the next one where that is
later, the loop engine is inactive, and the snapshot holds the resume point, TRAPPC, TCAUSE, TADDR, the user's s56 to s63 and FMT. -/
def InHandler (t : State) (c : Car) (since now : Nat) (k : Trap) (resume trappc : BitVec 17) : Prop :=
  t.old = none ∧ t.car.tr.handler = true ∧ t.car.tr.masked = true ∧ t.car.pc = c.ctl.tvec ∧ t.car.ready = max (since + 2) (now + 1) ∧
  t.car.ctl = { c.ctl with tcause := k.tcause, taddr := k.taddr } ∧ t.car.loop.cnt = 0#32 ∧ t.car.late = [] ∧
  (∃ img, t.car.tr.snap = some img ∧ img[0] = BitVec.ofBool c.tr.handler ++ 0#46 ++ resume ∧ img[1] = trappc.setWidth 64 ∧
    img[2] = k.tcause.setWidth 64 ∧ img[3] = k.taddr ∧ img[14] = c.regs.fmt.setWidth 64 ∧
    ∀ (n : Nat) (h : n < 8), img[4 + n] = c.regs.s[56 + n])

/-- A division's next state: sd will be filled after 24 cycles, in which the divider is held (R127). -/
def divided (s : State) (d : SReg) (x : Word) : State :=
  (s.produceS d 24 x).mapCar (fun c => { c with units.divider := s.now + 24 })

end Sys2Proof.Claims

open Sys2Proof.Claims

/-! Integer instructions (spec 06 R124 to R130). -/

/-- NOP changes nothing; the two-operand integer instructions of latency 1 write sd with the value of R125, or of R126 at 32
bits, and nothing else. -/
def Sys2Proof.Claims.IntegerRegisterResults : Prop :=
  ∀ (te w : Bool) (d a b : SReg) (s : State), s.Readable [.s a, .s b] → s.Room [.s d] →
    let x := s.rS a
    let y := s.rS b
    let p := x.setWidth 32
    let q := y.setWidth 32
    let l := (y.extractLsb' 0 6).toNat
    let k := (y.extractLsb' 0 5).toNat
    exec (.nop te) s = .next s ∧
    exec (.add te d a b w) s = .next (s.wS d (atMd w (x + y) (p + q))) ∧
    exec (.sub te d a b w) s = .next (s.wS d (atMd w (x - y) (p - q))) ∧
    exec (.and te d a b w) s = .next (s.wS d (atMd w (x &&& y) (p &&& q))) ∧
    exec (.or te d a b w) s = .next (s.wS d (atMd w (x ||| y) (p ||| q))) ∧
    exec (.xor te d a b w) s = .next (s.wS d (atMd w (x ^^^ y) (p ^^^ q))) ∧
    exec (.shl te d a b w) s = .next (s.wS d (atMd w (x <<< l) (p <<< k))) ∧
    exec (.shr te d a b w) s = .next (s.wS d (atMd w (x >>> l) (p >>> k))) ∧
    exec (.sar te d a b w) s = .next (s.wS d (atMd w (x.sshiftRight l) (p.sshiftRight k))) ∧
    exec (.min te d a b w) s = .next (s.wS d (atMd w (if x.toInt ≤ y.toInt then x else y) (if p.toInt ≤ q.toInt then p else q))) ∧
    exec (.max te d a b w) s = .next (s.wS d (atMd w (if x.toInt ≤ y.toInt then y else x) (if p.toInt ≤ q.toInt then q else p))) ∧
    exec (.minu te d a b w) s = .next (s.wS d (atMd w (if x.toNat ≤ y.toNat then x else y) (if p.toNat ≤ q.toNat then p else q))) ∧
    exec (.maxu te d a b w) s = .next (s.wS d (atMd w (if x.toNat ≤ y.toNat then y else x) (if p.toNat ≤ q.toNat then q else p))) ∧
    exec (.ceq te d a b w) s = .next (s.wS d (atMd w (truth 64 (x = y)) (truth 32 (p = q)))) ∧
    exec (.cne te d a b w) s = .next (s.wS d (atMd w (truth 64 (x ≠ y)) (truth 32 (p ≠ q)))) ∧
    exec (.clt te d a b w) s = .next (s.wS d (atMd w (truth 64 (x.toInt < y.toInt)) (truth 32 (p.toInt < q.toInt)))) ∧
    exec (.cltu te d a b w) s = .next (s.wS d (atMd w (truth 64 (x.toNat < y.toNat)) (truth 32 (p.toNat < q.toNat)))) ∧
    exec (.cle te d a b w) s = .next (s.wS d (atMd w (truth 64 (x.toInt ≤ y.toInt)) (truth 32 (p.toInt ≤ q.toInt)))) ∧
    exec (.cleu te d a b w) s = .next (s.wS d (atMd w (truth 64 (x.toNat ≤ y.toNat)) (truth 32 (p.toNat ≤ q.toNat))))

/-- SEL, the counts and the bit fields write sd with the value of R125 and R126, told bit by bit. SEL tests all of sd. -/
def Sys2Proof.Claims.SelectCountAndFieldResults : Prop :=
  ∀ (te w : Bool) (d a b : SReg) (s : State), s.Readable [.s d, .s a, .s b] →
    let x := s.rS a
    let y := s.rS b
    let p := x.setWidth 32
    let n := if w then 32 else 64
    let f := fieldPlace w y
    let chosen := if s.rS d ≠ 0#64 then x else y
    exec (.sel te d a b w) s = .next (s.wS d (atMd w chosen (chosen.setWidth 32))) ∧
    (∃ c, CountsLeading n c (if w then (p.setWidth n) else x.setWidth n) ∧ exec (.clz te d a w) s = .next (s.wS d (BitVec.ofNat 64 c))) ∧
    (∃ c, CountsTrailing n c (if w then (p.setWidth n) else x.setWidth n) ∧ exec (.ctz te d a w) s = .next (s.wS d (BitVec.ofNat 64 c))) ∧
    exec (.popc te d a w) s = .next (s.wS d (BitVec.ofNat 64 (if w then ones 32 p else ones 64 x))) ∧
    (∃ r : BitVec n, (∀ j < n, r.getLsbD j = (decide (j < f.2 ∧ f.1 + j < n) && x.getLsbD (f.1 + j))) ∧
      exec (.bfx te d a b w) s = .next (s.wS d (r.signExtend 64))) ∧
    (∃ r : BitVec n, (∀ j < n, r.getLsbD j = if f.1 ≤ j ∧ j < f.1 + f.2 then x.getLsbD (j - f.1) else (s.rS d).getLsbD j) ∧
      exec (.bfi te d a b w) s = .next (s.wS d (r.signExtend 64)))

/-- Integer instructions of latency 1 on registers (R125, R126). -/
def Obligations.IntegerRegisterResults : Prop := Sys2Proof.Claims.IntegerRegisterResults ∧ Sys2Proof.Claims.SelectCountAndFieldResults

/-- The products take 3 cycles; the divisions take 24, never trap, and give the edges of R127. -/
def Sys2Proof.Claims.MultiplyAndDivideResults : Prop :=
  ∀ (te w : Bool) (d a b : SReg) (s : State), s.Readable [.s a, .s b] → s.Room [.s d] →
    let x := s.rS a
    let y := s.rS b
    let p := x.setWidth 32
    let q := y.setWidth 32
    exec (.mul te d a b w) s = .next (s.produceS d 3 (atMd w (x * y) (p * q))) ∧
    exec (.mulh te d a b w) s = .next (s.produceS d 3
      (atMd w (highHalf 64 (x.signExtend 128) (y.signExtend 128)) (highHalf 32 (p.signExtend 64) (q.signExtend 64)))) ∧
    exec (.mulhu te d a b w) s = .next (s.produceS d 3
      (atMd w (highHalf 64 (x.zeroExtend 128) (y.zeroExtend 128)) (highHalf 32 (p.zeroExtend 64) (q.zeroExtend 64)))) ∧
    (s.divBusy ≤ s.now →
      exec (.div te d a b w) s = .next (divided s d (atMd w (quotS 64 x y) (quotS 32 p q))) ∧
      exec (.divu te d a b w) s = .next (divided s d (atMd w (quotU 64 x y) (quotU 32 p q))) ∧
      exec (.rem te d a b w) s = .next (divided s d (atMd w (remS 64 x y) (remS 32 p q))) ∧
      exec (.remu te d a b w) s = .next (divided s d (atMd w (remU 64 x y) (remU 32 p q)))) ∧
    (s.now < s.divBusy →
      exec (.div te d a b w) s = .next s.stays ∧ exec (.divu te d a b w) s = .next s.stays ∧
      exec (.rem te d a b w) s = .next s.stays ∧ exec (.remu te d a b w) s = .next s.stays)

/-- The immediate operations compute the value of their counterparts with the sign-extended immediate in place of sb, at 64
bits (R128, R130); a shift immediate outside 0 to 63 raises ILLEGAL_INSN (R129). -/
def Sys2Proof.Claims.ImmediateResults : Prop :=
  ∀ (te : Bool) (d a : SReg) (imm : Word) (h : Fin 32) (s : State), s.Readable [.s a] → s.Room [.s d] →
    let x := s.rS a
    exec (.addi te d a imm) s = .next (s.wS d (x + imm)) ∧
    exec (.andi te d a imm) s = .next (s.wS d (x &&& imm)) ∧
    exec (.ori te d a imm) s = .next (s.wS d (x ||| imm)) ∧
    exec (.xori te d a imm) s = .next (s.wS d (x ^^^ imm)) ∧
    exec (.muli te d a imm) s = .next (s.produceS d 3 (x * imm)) ∧
    exec (.ceqi te d a imm) s = .next (s.wS d (truth 64 (x = imm))) ∧
    exec (.cnei te d a imm) s = .next (s.wS d (truth 64 (x ≠ imm))) ∧
    exec (.clti te d a imm) s = .next (s.wS d (truth 64 (x.toInt < imm.toInt))) ∧
    exec (.cltui te d a imm) s = .next (s.wS d (truth 64 (x.toNat < imm.toNat))) ∧
    exec (.li te d imm) s = .next (s.wS d imm) ∧
    exec (.hadr te d a h) s = .next (s.wS d (BitVec.ofNat 64 (h.val * 2 ^ 59 + x.toNat % 2 ^ 59))) ∧
    (imm.toNat < 64 →
      exec (.shli te d a imm) s = .next (s.wS d (x <<< imm.toNat)) ∧
      exec (.shri te d a imm) s = .next (s.wS d (x >>> imm.toNat)) ∧
      exec (.sari te d a imm) s = .next (s.wS d (x.sshiftRight imm.toNat))) ∧
    (64 ≤ imm.toNat →
      exec (.shli te d a imm) s = .next (s.preciseTrap (s.here .illegalInsn)) ∧
      exec (.shri te d a imm) s = .next (s.preciseTrap (s.here .illegalInsn)) ∧
      exec (.sari te d a imm) s = .next (s.preciseTrap (s.here .illegalInsn)))

/-- Multiplication, division and the immediate forms (R125 to R130). -/
def Obligations.MultiplyDivideAndImmediates : Prop := Sys2Proof.Claims.MultiplyAndDivideResults ∧ Sys2Proof.Claims.ImmediateResults

/-! Memory (spec 06 R131 to R140). -/

/-- A load that issues leaves every register, control register and byte as they were, but that a die-cache line may leave for its
home, and marks sd empty; the value that comes is that of the bytes at sa + off, from the own scratchpad and instruction memory after 4 cycles, else when the data
come (R91, R132). -/
def Sys2Proof.Claims.LoadResults : Prop :=
  ∀ (te : Bool) (d a : SReg) (off : BitVec 36) (s : State), ∀ l ∈ loads te d a off, s.Issues l.1 →
    let ha := s.rS a + off.signExtend 64 * BitVec.ofNat 64 l.2.1
    let got := s.fetchBytes (s.target ha) l.2.1
    ∃ t, exec l.1 s = .next t ∧ SameRegs s t ∧ SameButEvicted s t ∧
      (match s.target ha with
       | .remote pa _ => (d ≠ 0 → t.car.emptyS d = true) ∧
           ∃ r ∈ t.dev.fab.remote, r.car = s.car.ref ∧ r.pa = pa ∧ r.op = .load l.2.1 l.2.2
       | x => got.err = false → Awaits t d (loadedValue l.2.2 l.2.1 got.bytes) (if x.isLocal then some (s.now + 4) else none))

/-- What a load reads: the bytes that stand there when the bundle begins, of the own scratchpad with the stores that the car's queue
still holds (R132, R291). -/
def Sys2Proof.Claims.LoadedBytes : Prop :=
  ∀ (s : State) (n pa : Nat),
    (s.src.eng.stash = [] → (s.fetchBytes (.spad pa) n).bytes = (List.range n).map (fun i => own s.src (pa + i)) ∧
      (s.fetchBytes (.spad pa) n).err = false) ∧
    ((s.fetchBytes (.imem pa) n).bytes = (List.range n).map (fun i => s.src.imem.read (pa + i)) ∧
      (s.fetchBytes (.imem pa) n).err = false) ∧
    (s.srcDev.fab.fwd = [] → s.src.place.spec = false →
      (s.fetchBytes (.hbm pa false) n).bytes = (List.range n).map (fun i => s.srcDev.mem.read (pa + i)) ∧
      (s.fetchBytes (.hbm pa false) n).err = false) ∧
    ((s.fetchBytes (.host pa) n).bytes = (List.range n).map (fun i => s.srcDev.mem.read (pa + i)) ∧
      (s.fetchBytes (.host pa) n).err = false)

/-- Loads of every width in every space, and the bytes that a load's value is made of (R91, R132, R291). -/
def Obligations.LoadResults : Prop := Sys2Proof.Claims.LoadResults ∧ Sys2Proof.Claims.LoadedBytes

/-- A store that issues writes the low bytes of ss at sa + off, little-endian, and no other byte and no register: in the own
scratchpad, in HBM, in the die's cache line of a software-managed page, in host memory; through a window it leaves as a posted
write, to another package as a request. Beside a read of another package that its bundle waits for it stands in the store queue
(R132, R291, R302, R309, R414). -/
def Obligations.StoreResults : Prop :=
  ∀ (te : Bool) (v a : SReg) (off : BitVec 36) (s : State), ∀ l ∈ stores te v a off, s.Issues l.1 → NoStash s → PlainHbm s →
    let ha := s.rS a + off.signExtend 64 * BitVec.ofNat 64 l.2
    let x := s.rS v
    let queued := fun (t : State) => SameBytes s t ∧ ∃ q ∈ t.car.eng.queue, q.target = s.target ha ∧ q.atomic = none ∧
      q.bytes = (List.range l.2).map (byteAt x)
    ∃ t, exec l.1 s = .next t ∧ SameRegs s t ∧
      (match s.target ha with
       | .spad o => (∀ a, own t.car a = if o ≤ a ∧ a < o + l.2 then byteAt x (a - o) else own s.car a) ∧
           t.dev.mem = s.dev.mem ∧ t.dev.remote = s.dev.remote ∧ t.car.imem = s.car.imem ∧
           (s.holds s.now = false → Stored s.car.spad t.car.spad o l.2 x)
       | .imem _ => SameBytes s t
       | .hbm pa false => if s.holds s.now then queued t else pa + l.2 ≤ Config.hbmSize →
           Stored s.dev.mem t.dev.mem pa l.2 x ∧ t.dev.remote = s.dev.remote ∧ t.car.spad = s.car.spad ∧ t.car.imem = s.car.imem
       | .hbm pa true => if s.holds s.now then queued t else SameButEvicted s t ∧ (pa + l.2 ≤ Config.hbmSize →
           ∀ i < l.2, t.dev.viewByte none t.car.die true (pa + i) = byteAt x i)
       | .host pa => if s.holds s.now then queued t else
           Stored s.dev.mem t.dev.mem pa l.2 x ∧ t.dev.remote = s.dev.remote ∧ t.car.spad = s.car.spad ∧ t.car.imem = s.car.imem
       | .peer w core o => SameBytes s t ∧ ∃ p ∈ t.car.eng.posted, p.window = w ∧ p.units = 1 ∧ p.core = core ∧ p.addr = o ∧
           p.bytes = (List.range l.2).map (fun i => (o + i, byteAt x i))
       | .remote pa _ => SameBytes s t ∧ ∃ r ∈ t.dev.fab.remote, r.car = s.car.ref ∧ r.pa = pa ∧
           r.op = .store ((List.range l.2).map (byteAt x))
       | .nowhere => if s.holds s.now then queued t else SameBytes s t ∧ .uncorrectable ha ∈ t.car.tr.pending)

/-- An atomic that issues reads 8 bytes and writes them in one access: the old value comes to sd, the new one is in memory, and
nothing else changes. A release outside the own scratchpad, and an atomic beside a read of another package that its bundle waits
for, stand in the store queue first (R137, R139, R291, R312). -/
def Obligations.AtomicResults : Prop :=
  ∀ (te : Bool) (sc : BitVec 2) (d a b : SReg) (ord : BitVec 2) (s : State), ∀ l ∈ atomics te sc d a b ord, s.Issues l.1 →
    NoStash s → PlainHbm s →
    let ha := s.rS a
    let coherent := fun (t : State) (pa : Nat) =>
      let old := s.dev.mem.readWord pa
      (match l.2.1 old (s.rS b) (s.rS d) with
       | some x => Stored s.dev.mem t.dev.mem pa 8 x
       | none => ∀ i, t.dev.mem.read i = s.dev.mem.read i) ∧
      t.dev.remote = s.dev.remote ∧ t.car.spad = s.car.spad ∧ (l.2.2 = true → Awaits t d old none)
    let queued := fun (t : State) => SameBytes s t ∧
      (∃ q ∈ t.car.eng.queue, q.target = s.target ha ∧ q.atomic.isSome = true ∧ q.acquire = ord.getLsbD 0 ∧ q.ready ≤ s.now + 40) ∧
      (l.2.2 = true → d ≠ 0 → t.car.emptyS d = true)
    ∃ t, exec l.1 s = .next t ∧ SameRegs s t ∧
      (match s.target ha with
       | .spad o => if s.holds s.now then queued t else s.src.spad.anyPoison o 8 = false →
           let old := ownWord s.src o
           (match l.2.1 old (s.rS b) (s.rS d) with
            | some x => Stored s.car.spad t.car.spad o 8 x
            | none => t.car.spad = s.car.spad) ∧
           t.dev.mem = s.dev.mem ∧ t.dev.remote = s.dev.remote ∧ (l.2.2 = true → Awaits t d old (some (s.now + 4)))
       | .hbm pa false => if s.holds s.now || ord.getLsbD 1 then queued t else
           (∀ i < 8, s.dev.hbmPoison (pa + i) = false) → pa + 8 ≤ Config.hbmSize → coherent t pa
       | .host pa => if s.holds s.now || ord.getLsbD 1 then queued t else s.dev.mem.anyPoison pa 8 = false → coherent t pa
       | .remote pa _ => SameBytes s t ∧ (l.2.2 = true → d ≠ 0 → t.car.emptyS d = true) ∧
           ∃ r ∈ t.dev.fab.remote, r.car = s.car.ref ∧ r.pa = pa ∧ r.acquire = ord.getLsbD 0
       | _ => True)

/-- PFS starts the fill of the granule at its address when a mapping holds it and the fill has not begun; in every other case
it changes nothing. It never traps (R135). -/
def Sys2Proof.Claims.PrefetchResults : Prop :=
  ∀ (te : Bool) (a : SReg) (off : BitVec 36) (s : State), s.Issues (.pfs te a off) →
    ∃ t, exec (.pfs te a off) s = .next t ∧ SameRegs s t ∧ SameBytes s t ∧ t.dev = s.dev ∧ t.peers = s.peers ∧
      (match s.prefetchOf (s.rS a) (s.rS a + off.signExtend 64 * 64#64) with
       | none => t = s
       | some (m, g) => t.car.eng.stash = s.car.eng.stash.map (fun x => if x.num = m.num then { x with filling := g :: x.filling } else x))

/-! Control (spec 06 R141 to R150, R156 to R158). -/

/-- A taken branch makes its target the next fetch, one not taken changes nothing; a target at or above 0x2_0000 raises ACCESS,
one of JR that is not a multiple of 4 ALIGN; CALL leaves the address after its bundle in s63 (R141, R143). -/
def Sys2Proof.Claims.BranchResults : Prop :=
  ∀ (te : Bool) (a : SReg) (off : BitVec 42) (s : State), s.Readable [.s a] → s.Room [.s 63] →
    let t : Word := s.src.pc.setWidth 64 + off.signExtend 64 * 4#64
    let go := fun (u : State) (x : Word) => u.mapCar (fun c => { c with pc := x.extractLsb' 0 17, seqPc := 0#64, taken := true })
    let no := fun (k : Cause) (x : Word) => s.preciseTrap { cause := k, taddr := x }
    (t.toNat < 0x20000 → exec (.br te off) s = .next (go s t) ∧
      exec (.call te off) s = .next (go (s.wS 63 s.car.seqPc) t)) ∧
    (0x20000 ≤ t.toNat → exec (.br te off) s = .next (no .access t) ∧ exec (.call te off) s = .next (no .access t)) ∧
    exec (.bnz te a off) s = .next (if s.rS a = 0#64 then s else if t.toNat < 0x20000 then go s t else no .access t) ∧
    exec (.bz te a off) s = .next (if s.rS a ≠ 0#64 then s else if t.toNat < 0x20000 then go s t else no .access t) ∧
    exec (.jr te a) s = .next (if 0x20000 ≤ (s.rS a).toNat then no .access (s.rS a)
      else if (s.rS a).toNat % 4 ≠ 0 then no .align (s.rS a) else go s (s.rS a))

/-- TRAP enters the handler after its bundle with its code in TADDR, and the next bundle is the resume point; BRK enters it
before its bundle, which is the resume point (R145, R146, R322). -/
def Sys2Proof.Claims.TrapAndBreakEnterTheHandler : Prop :=
  ∀ (te : Bool) (code : BitVec 14) (s : State),
    (s.src.place.spec = false → s.car.place.spec = false → s.car.tr.masked = false → s.car.wait = [] →
      let c := s.closeBundle.car
      ∃ t, exec (.trap te code) s = .next t ∧
        InHandler t c s.car.lastIssue s.now { cause := .trap, taddr := code.setWidth 64 } c.pc c.tr.lastPc) ∧
    (s.src.place.spec = false → s.src.tr.masked = false → s.src.wait = [] →
      ∃ t, exec (.brk te) s = .next t ∧ t.dev = s.srcDev ∧
        InHandler t s.src (s.src.stood.getD s.srcDev.now) s.srcDev.now { cause := .brk, taddr := s.src.pc.setWidth 64 } s.src.pc s.src.pc)

/-- HALT in user mode ends the car's issue: it leaves its coupling domain, its open windows are gone, loads in flight are
discarded, and its registers and its memory stand (R147). -/
def Sys2Proof.Claims.HaltEndsTheCar : Prop :=
  ∀ (te : Bool) (s : State), s.src.tr.handler = false →
    ∃ t, exec (.halt te) s = .next t ∧ t.car.life = .halted ∧ t.car.place.domain = none ∧
      (∀ g : Fin 16, t.car.arr.groups[g].win = none) ∧ (∀ f ∈ t.car.flight, f.due ≠ none) ∧
      t.car.regs = s.car.regs ∧ t.car.ctl = s.car.ctl ∧ t.car.spad = s.car.spad ∧ t.dev.mem = s.dev.mem ∧
      t.car.eng.posted = s.car.eng.posted

/-- TRAP, BRK and HALT (R145 to R147). -/
def Sys2Proof.Claims.TrapBreakAndHalt : Prop := Sys2Proof.Claims.TrapAndBreakEnterTheHandler ∧ Sys2Proof.Claims.HaltEndsTheCar

/-- Branches, calls, TRAP, BRK and HALT (R141 to R147). -/
def Obligations.BranchesTrapsAndHalt : Prop := Sys2Proof.Claims.BranchResults ∧ Sys2Proof.Claims.TrapBreakAndHalt

/-- DRAIN and DRAINW take one step when nothing is outstanding, and else keep the next bundle until it has performed (R150).
WADR gives 0 when the word differs from sb, and else waits for it (R156). -/
def Sys2Proof.Claims.DrainAndWatchWaits : Prop :=
  ∀ (te : Bool) (sc : BitVec 2) (d a b : SReg) (s : State),
    exec (.drain te sc) s = .next (if s.accessesOut s.src then s.mapCar (fun c => { c with wait := c.wait ++ [.drain false] }) else s) ∧
    exec (.drainw te sc) s = .next (if s.writesOut s.src then s.mapCar (fun c => { c with wait := c.wait ++ [.drain true] }) else s) ∧
    (s.Issues (.wadr te d a b) →
      ∃ t, exec (.wadr te d a b) s = .next t ∧ SameRegs s t ∧ SameBytes s t ∧
        let u := s.watch (s.rS a) 8 true false
        (u.wadrWord (s.rS a) ≠ s.rS b →
          t.car.wait = (if d = 0 then s.car.wait else s.car.wait.map (Wait.without (s.car.physS d).val)) ∧
          Awaits t d 0#64 (if (s.target (s.rS a)).isLocal then some (s.now + 4) else none)) ∧
        (u.wadrWord (s.rS a) = s.rS b → (d ≠ 0 → t.car.emptyS d = true) ∧
          ∃ p, t.car.wait = s.car.wait ++ [.wadr (s.rS a) p (s.rS b) s.now
            (if s.src.ctl.wadrTmo = 0#32 then none else some (s.now + s.src.ctl.wadrTmo.toNat * 2000))]))

/-- The prefetch, the drains and the watch of a word (R135, R150, R156). -/
def Obligations.HintsDrainsAndWatches : Prop := Sys2Proof.Claims.PrefetchResults ∧ Sys2Proof.Claims.DrainAndWatchWaits

/-! Handles and control registers (spec 06 R151 to R155, R159; 01 R33 to R36). -/

/-- XLT of an address in the TLB writes the handle's record for the page, valid, with the rights asked for, and busy for 12
cycles; a miss freezes the car for a walk; an address above bit 55 or a right not granted raises XLT_FAULT and leaves the handle
as it was (R151 to R153). -/
def Sys2Proof.Claims.TranslateResults : Prop :=
  ∀ (te : Bool) (h : Fin 64) (a : SReg) (md : BitVec 2) (s : State), 2 ≤ h.val → h.val < 32 → md ≠ 0#2 → s.Readable [.s a] →
    s.src.handleBusy s.now (hIndex h) = false → s.src.eng.walk = .none →
    let va := s.rS a
    let look := tlbFind s.src.eng.tlb va.toNat
    (va.extractLsb' 56 8 ≠ 0#8 → exec (.xlt te h a md) s = .next (s.preciseTrap { cause := .xltFault, taddr := va })) ∧
    (va.extractLsb' 56 8 = 0#8 → look = none → exec (.xlt te h a md) s = .next (s.stays.startWalk va)) ∧
    (∀ e, va.extractLsb' 56 8 = 0#8 → look = some e →
      let ok := (md.getLsbD 0 → e.leaf.getLsbD 2) ∧ (md.getLsbD 1 → e.leaf.getLsbD 3)
      (¬ ok → exec (.xlt te h a md) s = .next (s.preciseTrap { cause := .xltFault, taddr := va })) ∧
      (ok → ∃ r : Handle, r.v = true ∧ r.rd = md.getLsbD 0 ∧ r.wr = md.getLsbD 1 ∧ r.sm = e.leaf.getLsbD 4 ∧ r.c = e.leaf.getLsbD 5 ∧
        r.rmt = e.leaf.getLsbD 6 ∧ r.frame = e.leaf.extractLsb' 16 36 ∧ r.busy = s.now + 12 ∧
        (e.size = 0x10000 → r.sz = 0#2) ∧ (e.size = 0x200000 → r.sz = 1#2) ∧ (e.size = 0x40000000 → r.sz = 2#2) ∧
        exec (.xlt te h a md) s = .next (s.mapCar (fun c => { c with regs.h := c.regs.h.set (hIndex h).val r (hIndex h).isLt }))))

/-- HINV clears V of its handle and nothing else; HRD reads a handle's record, the hard-wired ones of h0 and h1 included (R22,
R23, R154, R155). -/
def Sys2Proof.Claims.HandleReadAndInvalidate : Prop :=
  ∀ (te : Bool) (h : Fin 64) (d : SReg) (s : State), h.val < 32 → s.src.handleBusy s.now (hIndex h) = false → s.Room [.s d] →
    (2 ≤ h.val → exec (.hinv te h) s = .next (s.mapCar (fun c => { c with
      regs.h := c.regs.h.set (hIndex h).val { c.regs.h[hIndex h] with v := false } (hIndex h).isLt }))) ∧
    (∃ r : Word, exec (.hrd te d h) s = .next (s.wS d r) ∧
      (h.val = 0 → r = 0xF800000000000000#64) ∧ (h.val = 1 → r = 0xC000000000000000#64) ∧
      (2 ≤ h.val → let x := s.src.regs.h[hIndex h]
        r.getLsbD 63 = x.v ∧ r.getLsbD 62 = x.rd ∧ r.getLsbD 61 = x.wr ∧ r.extractLsb' 59 2 = x.sz ∧ r.getLsbD 58 = x.sm ∧
        r.getLsbD 57 = x.c ∧ r.getLsbD 56 = x.rmt ∧ r.extractLsb' 52 4 = 0#4 ∧ r.extractLsb' 16 36 = x.frame ∧ r.extractLsb' 0 16 = 0#16))

/-- Handles: XLT, HINV and HRD (R151 to R155). -/
def Obligations.TranslationAndHandles : Prop := Sys2Proof.Claims.TranslateResults ∧ Sys2Proof.Claims.HandleReadAndInvalidate

/-- What SRD reads at each index of R33, from the car and the package. -/
def Sys2Proof.Claims.ctlReads (c : Car) (d : Device) : List (Nat × Word) :=
  [(0x000, c.ident.coreId.setWidth 64),
   (0x001, match c.ident.coreClass with
     | .a => 0#64
     | .b => 1#64
     | .c => 2#64),
   (0x002, c.ident.carId.setWidth 64), (0x003, c.ident.ncars.setWidth 64), (0x004, c.ident.consistId.setWidth 64),
   (0x005, c.ident.serviceId), (0x008, c.ctl.ccyc), (0x009, d.tstamp (c.ident.coreId.toNat / 16)), (0x010, c.ctl.tvec.setWidth 64),
   (0x011, c.ctl.tcause.setWidth 64), (0x012, c.ctl.taddr), (0x020, c.loop.start.setWidth 64), (0x021, c.loop.lend.setWidth 64),
   (0x022, c.loop.lpro.setWidth 64), (0x023, c.loop.lepi.setWidth 64), (0x024, c.loop.cnt.setWidth 64), (0x025, c.loop.idx.setWidth 64),
   (0x030, c.fmtLatest.setWidth 64), (0x031, c.ctl.vbank.setWidth 64), (0x032, c.ctl.vflags.setWidth 64), (0x033, c.ctl.flagovf),
   (0x040, c.ctl.mgsel.setWidth 64), (0x041, (d.rowmap c).setWidth 64), (0x050, c.ctl.rcnt.setWidth 64), (0x051, c.ctl.lslack.setWidth 64),
   (0x052, c.ctl.wadrTmo.setWidth 64), (0x053, c.ctl.wdog.setWidth 64), (0x054, c.ctl.pri.setWidth 64), (0x055, c.ident.merge.setWidth 64),
   (0x100, c.ident.coreId.setWidth 64 + 512#64)]
  ++ (List.finRange 15).map (fun n => (0x101 + n.val, c.ctl.wmap[n.val + 1].setWidth 64))
  ++ (List.finRange 16).map (fun n => (0x110 + n.val, c.ctl.wal[n.val].setWidth 64))

/-- The indexes that SWR writes, whether the handler only may, and what SRD reads there afterwards (R33). -/
def Sys2Proof.Claims.ctlWrites (c : Car) (x : Word) : List (Nat × Bool × Word) :=
  let low := fun (n : Nat) => x &&& BitVec.ofNat 64 (2 ^ n - 1)
  let within := fun (lo hi : Nat) => BitVec.ofNat 64 (if x.toNat < lo then lo else if hi < x.toNat then hi else x.toNat)
  [(0x010, true, (x &&& 0x1FFC#64) ||| 0x1E000#64), (0x011, true, x &&& 0x3F01FF#64), (0x012, true, x),
   (0x020, false, low 17), (0x021, false, low 17), (0x022, false, low 17), (0x023, false, low 17), (0x024, false, low 32),
   (0x025, false, low 32), (0x030, false, low 20), (0x031, false, low 8), (0x032, false, c.ctl.vflags.setWidth 64 &&& ~~~x),
   (0x033, false, c.ctl.flagovf &&& ~~~x), (0x040, false, low 16), (0x050, false, within 1 1024), (0x051, false, within 1 64),
   (0x052, false, low 32), (0x053, true, low 32), (0x054, true, low 2), (0x100, true, c.ident.coreId.setWidth 64 + 512#64)]
  ++ (List.range 15).map (fun n => (0x101 + n, true, low 10)) ++ (List.range 16).map (fun n => (0x110 + n, true, low 8))

/-- SRD reads every register of R33 in one cycle; a read of TSTAMP waits while an acquire of the car has not performed; any other index
raises ILLEGAL_INSN (R33, R36, R159, R313). -/
def Sys2Proof.Claims.SrdReadsEveryRegister : Prop :=
  ∀ (te : Bool) (d : SReg) (i : BitVec 14) (s : State), s.Room [.s d] →
    (i = 0x009#14 → s.acquiring = true → exec (.srd te d i) s = .next s.stays) ∧
    (∀ e ∈ ctlReads s.src s.srcDev, i.toNat = e.1 → i ≠ 0x009#14 ∨ s.acquiring = false → exec (.srd te d i) s = .next (s.wS d e.2)) ∧
    ((∀ e ∈ ctlReads s.src s.srcDev, i.toNat ≠ e.1) → exec (.srd te d i) s = .next (s.preciseTrap (s.here .illegalInsn)))

/-- SWR writes each writable register of R33, after which SRD reads the value that its fields, its saturation or its clear-by-one
bits give; in user mode a register of the handler raises PRIV, and any other index raises ILLEGAL_INSN (R33 to R36, R159). -/
def Sys2Proof.Claims.SwrWritesThenReadsBack : Prop :=
  ∀ (te : Bool) (v : SReg) (i : BitVec 14) (s : State), s.Readable [.s v] →
    (∀ e ∈ ctlWrites s.car (s.rS v), i.toNat = e.1 →
      (s.src.tr.handler = true ∨ e.2.1 = false →
        ∃ c : Car, exec (.swr te v i) s = .next { s with car := c } ∧ c.readCtl s.dev i = some e.2.2 ∧
          c.regs = s.car.regs ∧ c.pc = s.car.pc ∧ c.spad = s.car.spad) ∧
      (s.src.tr.handler = false → e.2.1 = true → exec (.swr te v i) s = .next (s.preciseTrap (s.here .priv)))) ∧
    ((∀ e ∈ ctlWrites s.car (s.rS v), i.toNat ≠ e.1) → exec (.swr te v i) s = .next (s.preciseTrap (s.here .illegalInsn)))

/-- SRD and SWR over the registers of R33 (R33 to R36, R159). -/
def Obligations.SpecialRegisterResults : Prop := Sys2Proof.Claims.SrdReadsEveryRegister ∧ Sys2Proof.Claims.SwrWritesThenReadsBack

/-- The snapshot instructions in handler mode: TSR reads a word of the held image, SNAPST stores its 128 words and keeps it,
SNAPR lets it go and unmasks traps, SNAPLD takes an image and masks traps (R160 to R162). In user mode each raises PRIV (R77). -/
def Sys2Proof.Claims.SnapshotInstructions : Prop :=
  ∀ (te : Bool) (d a : SReg) (i : BitVec 14) (s : State),
    (s.src.tr.handler = false →
      exec (.tsr te d i) s = .next (s.preciseTrap (s.here .priv)) ∧ exec (.snapst te a) s = .next (s.preciseTrap (s.here .priv)) ∧
      exec (.snapld te a) s = .next (s.preciseTrap (s.here .priv)) ∧ exec (.snapr te) s = .next (s.preciseTrap (s.here .priv)) ∧
      exec (.rft te) s = .next (s.preciseTrap (s.here .priv))) ∧
    (∀ img, s.src.tr.handler = true → s.src.tr.snap = some img →
      (s.Room [.s d] → s.src.tr.snapReady ≤ s.now →
        exec (.tsr te d i) s = .next (s.wS d (if h : i.toNat < 128 then img[i.toNat] else 0#64))) ∧
      (s.Issues (.snapst te a) → s.car.eng.stash = [] →
        ∃ t, exec (.snapst te a) s = .next t ∧ SameRegs s t ∧ t.dev.mem = s.dev.mem ∧
          ∀ (n : Nat) (h : n < 128), ownWord t.car ((s.rS a).toNat % 2 ^ 19 + 8 * n) = img[n]) ∧
      exec (.snapr te) s = .next (s.mapCar (fun c => { c with tr := { c.tr with snap := none, masked := false } }))) ∧
    (s.Issues (.snapld te a) → s.car.eng.stash = [] → s.src.eng.stash = [] →
      ∃ t img, exec (.snapld te a) s = .next t ∧ t.car.tr.snap = some img ∧ t.car.tr.masked = true ∧ t.car.regs = s.car.regs ∧
        SameBytes s t ∧ ∀ (n : Nat) (h : n < 128), imageControl n = true → img[n] = ownWord s.src ((s.rS a).toNat % 2 ^ 19 + 8 * n))

/-- RFT returns from the handler: the mode and the resume point of the image's word 0, FMT of word 14, the loop engine of words 18
to 20, every diverted value in its register, traps unmasked, the snapshot gone (R163, R326). -/
def Sys2Proof.Claims.ReturnFromTrap : Prop :=
  ∀ (te : Bool) (img : Vector Word 128) (s : State), s.src.tr.handler = true → s.src.tr.snap = some img →
    ∃ t, exec (.rft te) s = .next t ∧ t.old = none ∧ t.car.tr.handler = img[0].getLsbD 63 ∧ t.car.tr.masked = false ∧
      t.car.tr.snap = none ∧ t.car.pc = img[0].extractLsb' 0 17 ∧ t.car.regs.fmt = img[14].extractLsb' 0 20 ∧
      t.car.loop.lend = img[18].extractLsb' 32 17 ∧ t.car.loop.start = img[18].extractLsb' 0 17 ∧
      t.car.loop.lepi = img[19].extractLsb' 32 17 ∧ t.car.loop.lpro = img[19].extractLsb' 0 17 ∧
      t.car.loop.idx = img[20].extractLsb' 32 32 ∧ t.car.loop.cnt = img[20].extractLsb' 0 32 ∧
      (∀ (n : Nat) (h : n < 64), n ≠ 0 → img[12].getLsbD n = true → t.car.rS ⟨n, h⟩ = img[64 + n]) ∧
      t.car.spad = s.car.spad ∧ t.dev = s.dev ∧ t.peers = s.peers

/-- What the handler has: TSR, SNAPST, SNAPR, SNAPLD and RFT (R160 to R163). -/
def Obligations.HandlerInstructions : Prop := Sys2Proof.Claims.SnapshotInstructions ∧ Sys2Proof.Claims.ReturnFromTrap

/-! Vector instructions (spec 07). -/

/-- The bitwise operations and shifts act on raw elements and set no flag; a shift by the width or more gives zeros, or copies of
the sign (R173). -/
def Sys2Proof.Claims.VectorBitResults : Prop :=
  ∀ (te : Bool) (d a b : VReg) (k : KLow) (s : State), VecGoes s [s.oA a, s.oB b, .k k.toK] [s.oA d] →
    let w := s.fmt.ety.bits
    let A := laneA s a
    let B := laneB s b
    let c := fun i => B i % 256
    let Next := fun (i : Instr) (f : Nat → Nat) => ∃ t, exec i s = .next t ∧ LanesBecome s t d k 12 (fun i => (f i, 0#8))
    Next (.vand te d a b k) (fun i => A i &&& B i) ∧
    Next (.vor te d a b k) (fun i => A i ||| B i) ∧
    Next (.vxor te d a b k) (fun i => A i ^^^ B i) ∧
    Next (.vshl te d a b k) (fun i => if w ≤ c i then 0 else A i * 2 ^ c i) ∧
    Next (.vshr te d a b k) (fun i => A i / 2 ^ c i) ∧
    Next (.vsar te d a b k) (fun i => ((signed w (A i) / 2 ^ c i) % 2 ^ w).toNat)

/-- Splats, slides, moves, permutations, zips, merges and clears move raw elements and set no flag (R175 to R177, R189 to R191,
R205, R206). -/
def Sys2Proof.Claims.VectorMoveResults : Prop :=
  ∀ (te : Bool) (d a b : VReg) (k : KLow) (x : SReg) (y : KReg) (s : State),
    VecGoes s [s.oA a, s.oB b, .s x, .k y, .k k.toK] [s.oA d] →
    let n := s.fmt.ety.count
    let w := s.fmt.ety.bits
    let A := laneA s a
    let B := laneB s b
    let c := (s.rS x).toNat
    let Next := fun (i : Instr) (f : Nat → Nat) => ∃ t, exec i s = .next t ∧ LanesBecome s t d k 12 (fun i => (f i, 0#8))
    Next (.vsplat te d x k) (fun _ => c) ∧
    Next (.vsld te d a x k) (fun i => if i + c < n then A (i + c) else 0) ∧
    Next (.vslu te d a x k) (fun i => if c ≤ i then A (i - c) else 0) ∧
    Next (.vmov te d b k) B ∧
    Next (.vperm te d a b k) (fun i => if B i < n then A (B i) else 0) ∧
    Next (.vzip te d a b k) (fun i => if i % 2 = 0 then A (i / 2) else B (i / 2)) ∧
    Next (.vuzp te d a b k) (fun i => if i < n / 2 then A (2 * i) else B (2 * (i - n / 2))) ∧
    Next (.vk2v te d y k) (fun i => if (s.rK y).getLsbD i then 2 ^ w - 1 else 0) ∧
    Next (.vclr te d k) (fun _ => 0) ∧
    (∃ v : VWord, exec (.vmrg te d a b k) s = .next ((s.writeV d true 12 v).takeVec 8) ∧
      ∀ i < n, lane s.fmt.ety v i = if on s k i then A i else B i)

/-- Vector instructions on raw elements (R173, R175 to R177, R189 to R191, R205, R206). -/
def Obligations.VectorRawResults : Prop := Sys2Proof.Claims.VectorBitResults ∧ Sys2Proof.Claims.VectorMoveResults

/-- Vector arithmetic, with a vector or a scalar second operand: every active lane takes the operation on the lanes read at issue,
and the flags of the active lanes are set; the fused forms read vd (R172, R175). -/
def Sys2Proof.Claims.VectorArithmeticResults : Prop :=
  ∀ (te : Bool) (d a b : VReg) (k : KLow) (x : SReg) (s : State),
    VecGoes s [s.oA a, s.oB b, .s x, s.oA d, .k k.toK] [s.oA d] →
    let t := s.fmt.ety
    let e := (s.rS x).toNat % 2 ^ t.bits
    let Next := fun (i : Instr) (o : VArith) (y : Nat → Nat) => ∃ u, exec i s = .next u ∧
      LanesBecome s u d k 12 (fun i => o.elem t s.fmt (laneA s a i) (y i) (laneA s d i))
    Next (.vadd te d a b k) .add (laneB s b) ∧ Next (.vsub te d a b k) .sub (laneB s b) ∧ Next (.vmul te d a b k) .mul (laneB s b) ∧
    Next (.vfma te d a b k) .fma (laneB s b) ∧ Next (.vfms te d a b k) .fms (laneB s b) ∧ Next (.vmax te d a b k) .max (laneB s b) ∧
    Next (.vmin te d a b k) .min (laneB s b) ∧
    Next (.vadds te d a x k) .add (fun _ => e) ∧ Next (.vmuls te d a x k) .mul (fun _ => e) ∧ Next (.vfmas te d a x k) .fma (fun _ => e) ∧
    Next (.vmaxs te d a x k) .max (fun _ => e) ∧ Next (.vmins te d a x k) .min (fun _ => e)

/-- In the integer class the operation is exact and saturates once, which sets SAT and nothing else; the fused forms saturate only
after the exact sum (R43, R172). -/
def Sys2Proof.Claims.IntegerLanesSaturateOnce : Prop :=
  ∀ (t : ETy) (fmt : Fmt) (a b d : Nat), t.isInt = true →
    let x := signed t.bits a
    let y := signed t.bits b
    let z := signed t.bits d
    VArith.add.elem t fmt a b d = delivered t (x + y) ∧ VArith.sub.elem t fmt a b d = delivered t (x - y) ∧
    VArith.mul.elem t fmt a b d = delivered t (x * y) ∧ VArith.fma.elem t fmt a b d = delivered t (z + x * y) ∧
    VArith.fms.elem t fmt a b d = delivered t (z - x * y)

/-- In a float type an operation on finite lanes is exact and rounded once, a fused one too; a maximum and a minimum are exact; a NaN gives
the canonical NaN, and NV when it is signalling; ∞ − ∞ and 0 × ∞ are invalid. The sign operations change the sign bit alone (R40 to R42, R58, R172,
R198). -/
def Sys2Proof.Claims.FloatLanesRoundOnce : Prop :=
  ∀ (t : ETy) (eb fb : Nat) (fmt : Fmt) (a b d : Nat), (t, eb, fb) ∈ formats → a < 2 ^ t.bits → b < 2 ^ t.bits → d < 2 ^ t.bits →
    let V := fval eb fb fmt.fz
    let neg := fun (x : Nat) => x / 2 ^ (eb + fb) = 1
    let isInf := fun (x : Nat) => ¬ fin eb fb x ∧ ¬ isNan eb fb x
    let gives := fun (p : Nat × Fl) (v : ℚ) => (v = 0 → p.1 % 2 ^ (eb + fb) = 0 ∧ p.1 < 2 ^ t.bits ∧ p.2 = 0#8) ∧
      (v ≠ 0 → RoundsTo eb fb fmt.rm fmt.fz v p.1 p.2)
    let nanOf := fun (xs : List Nat) => (quiet eb fb, if xs.any (fun x => decide (x / 2 ^ fb % 2 ^ eb = 2 ^ eb - 1 ∧ x % 2 ^ fb ≠ 0 ∧ x % 2 ^ fb < 2 ^ (fb - 1)))
      then NV else (0#8 : Fl))
    let plain := fin eb fb a ∧ fin eb fb b
    (plain → gives (VArith.add.elem t fmt a b d) (V a + V b) ∧ gives (VArith.sub.elem t fmt a b d) (V a - V b) ∧
      gives (VArith.mul.elem t fmt a b d) (V a * V b)) ∧
    (plain → fin eb fb d → gives (VArith.fma.elem t fmt a b d) (V d + V a * V b) ∧ gives (VArith.fms.elem t fmt a b d) (V d - V a * V b)) ∧
    (plain → fval eb fb false (VArith.max.elem t fmt a b d).1 = max (V a) (V b) ∧ (VArith.max.elem t fmt a b d).2 = 0#8 ∧
      fval eb fb false (VArith.min.elem t fmt a b d).1 = min (V a) (V b) ∧ (VArith.min.elem t fmt a b d).2 = 0#8 ∧
      (V a = 0 → V b = 0 → (neg (VArith.max.elem t fmt a b d).1 ↔ neg a ∧ neg b) ∧ (neg (VArith.min.elem t fmt a b d).1 ↔ neg a ∨ neg b))) ∧
    (isNan eb fb a ∨ isNan eb fb b → ∀ o ∈ [VArith.add, .sub, .mul], o.elem t fmt a b d = nanOf [a, b]) ∧
    (∀ o ∈ [VArith.max, .min], (isNan eb fb a → isNan eb fb b → o.elem t fmt a b d = nanOf [a, b]) ∧
      (isNan eb fb a → fin eb fb b → fval eb fb false (o.elem t fmt a b d).1 = V b ∧ (o.elem t fmt a b d).2 = (nanOf [a]).2) ∧
      (fin eb fb a → isNan eb fb b → fval eb fb false (o.elem t fmt a b d).1 = V a ∧ (o.elem t fmt a b d).2 = (nanOf [b]).2)) ∧
    (isInf a → fin eb fb b → VArith.add.elem t fmt a b d = (a, 0#8) ∧
      VArith.mul.elem t fmt a b d = (if V b = 0 then (quiet eb fb, NV) else (infinity eb fb (¬ (neg a ↔ neg b)), 0#8))) ∧
    (isInf a → isInf b → VArith.add.elem t fmt a b d = (if a = b then (a, 0#8) else (quiet eb fb, NV)) ∧
      VArith.mul.elem t fmt a b d = (infinity eb fb (¬ (neg a ↔ neg b)), 0#8)) ∧
    (isNan eb fb a → ∀ s, signElem s t fmt a = nanOf [a]) ∧
    (¬ isNan eb fb a → let z := if fmt.fz = true ∧ a / 2 ^ fb % 2 ^ eb = 0 then a / 2 ^ (eb + fb) * 2 ^ (eb + fb) else a
      signElem true t fmt a = (z % 2 ^ (eb + fb), 0#8) ∧ signElem false t fmt a = ((z + 2 ^ (eb + fb)) % 2 ^ t.bits, 0#8))

/-- M8 lanes are their table's values, taken through F32 and put back once; NaR gives NaR with NAR. L8 and C10 lanes are codes, read
with SAT where they have no code, and saturate once to ±127 or ±511 (R45 to R51, R172). -/
def Sys2Proof.Claims.CodeLanesSaturate : Prop :=
  ∀ (fmt : Fmt) (a b d : Nat),
    (a < 256 → b < 256 → d < 256 →
      let through := fun (p : Nat × Fl) (v : ℚ) => (v = 0 → p = (0, 0#8)) ∧
        (v ≠ 0 → ∃ y f g, RoundsTo 8 23 fmt.rm fmt.fz v y f ∧ fin 8 23 y ∧ EncodesM8 (fval 8 23 false y) p.1 g ∧ p.2 = f ||| g)
      let V := m8Value
      (a ≠ 0x80 → b ≠ 0x80 → through (VArith.add.elem .m8 fmt a b d) (V a + V b) ∧ through (VArith.sub.elem .m8 fmt a b d) (V a - V b) ∧
        through (VArith.mul.elem .m8 fmt a b d) (V a * V b) ∧
        (d ≠ 0x80 → through (VArith.fma.elem .m8 fmt a b d) (V d + V a * V b) ∧ through (VArith.fms.elem .m8 fmt a b d) (V d - V a * V b)) ∧
        m8Value (VArith.max.elem .m8 fmt a b d).1 = max (V a) (V b) ∧ m8Value (VArith.min.elem .m8 fmt a b d).1 = min (V a) (V b)) ∧
      (a = 0x80 ∨ b = 0x80 → ∀ o ∈ [VArith.add, .sub, .mul], o.elem .m8 fmt a b d = (0x80, NAR)) ∧
      (a ≠ 0x80 → m8Value (signElem true .m8 fmt a).1 = |V a| ∧ m8Value (signElem false .m8 fmt a).1 = -V a) ∧
      (∀ s, signElem s .m8 fmt 0x80 = (0x80, NAR))) ∧
    (∀ t ∈ [ETy.l8, .c10], a < 2 ^ t.bits → b < 2 ^ t.bits → d < 2 ^ t.bits →
      let x := readCode t a
      let y := readCode t b
      let z := readCode t d
      let gives := fun (p : Nat × Fl) (v : Int) (f : Fl) => p = ((held t v).1, (held t v).2 ||| f)
      gives (VArith.add.elem t fmt a b d) (x.1 + y.1) (x.2 ||| y.2) ∧ gives (VArith.sub.elem t fmt a b d) (x.1 - y.1) (x.2 ||| y.2) ∧
      gives (VArith.mul.elem t fmt a b d) (x.1 * y.1) (x.2 ||| y.2) ∧ gives (VArith.max.elem t fmt a b d) (max x.1 y.1) (x.2 ||| y.2) ∧
      gives (VArith.min.elem t fmt a b d) (min x.1 y.1) (x.2 ||| y.2) ∧
      gives (VArith.fma.elem t fmt a b d) (z.1 + x.1 * y.1) (x.2 ||| y.2 ||| z.2) ∧
      gives (VArith.fms.elem t fmt a b d) (z.1 - x.1 * y.1) (x.2 ||| y.2 ||| z.2) ∧
      gives (signElem true t fmt a) |x.1| x.2 ∧ gives (signElem false t fmt a) (-x.1) x.2)

/-- Vector arithmetic, lane by lane, and what its lanes deliver in every class (R40 to R51, R58, R172, R175). -/
def Obligations.VectorArithmeticResults : Prop :=
  Sys2Proof.Claims.VectorArithmeticResults ∧ Sys2Proof.Claims.IntegerLanesSaturateOnce ∧ Sys2Proof.Claims.FloatLanesRoundOnce ∧
  Sys2Proof.Claims.CodeLanesSaturate

/-- Compares, VV2K and the mask logic write a whole mask, its bits at and above the element count cleared; VV2K under a mask that is not all
ones keeps a poison mark (R20, R174, R180, R196, R205). -/
def Sys2Proof.Claims.VectorMaskResults : Prop :=
  ∀ (te : Bool) (c : KLow) (d p q : KReg) (a b : VReg) (k : KLow) (s : State),
    VecGoes s [s.oA a, s.oB b, .k p, .k q, .k k.toK] [.k c.toK, .k d] →
    let t := s.fmt.ety
    let Cmp := fun (i : Instr) (o : VCmp) => ∃ u, exec i s = .next u ∧
      MaskBecomes s u c.toK 8 (fun i => on s k i && (o.elem t s.fmt (laneA s a i) (laneB s b i)).1)
        (laneFlags s k (fun i => (o.elem t s.fmt (laneA s a i) (laneB s b i)).2))
    Cmp (.vceq te c a b k) .eq ∧ Cmp (.vclt te c a b k) .lt ∧ Cmp (.vcle te c a b k) .le ∧
    (t.isInt = true → ∀ x y, VCmp.eq.elem t s.fmt x y = (decide (signed t.bits x = signed t.bits y), 0#8) ∧
      VCmp.lt.elem t s.fmt x y = (decide (signed t.bits x < signed t.bits y), 0#8) ∧
      VCmp.le.elem t s.fmt x y = (decide (signed t.bits x ≤ signed t.bits y), 0#8)) ∧
    (∃ x : Mask, exec (.vv2k te d a k) s = .next (((s.writeK d (k == 0) 12 x).setFlags 0#8).takeVec 8) ∧
      ∀ i < 4096, x.getLsbD i = (decide (i < t.count) && on s k i && laneA s a i != 0)) ∧
    (∀ x, (k = 0 ∨ s.src.isPoisoned (.k d) = false) → s.writeK d (k == 0) 12 x = s.produceK d 12 x) ∧
    (∃ u, exec (.vkand te d p q) s = .next u ∧ MaskBecomes s u d 1 (fun i => (s.rK p).getLsbD i && (s.rK q).getLsbD i) 0#8) ∧
    (∃ u, exec (.vkor te d p q) s = .next u ∧ MaskBecomes s u d 1 (fun i => (s.rK p).getLsbD i || (s.rK q).getLsbD i) 0#8) ∧
    (∃ u, exec (.vknot te d p) s = .next u ∧ MaskBecomes s u d 1 (fun i => !(s.rK p).getLsbD i) 0#8)

/-- Sign operations, functions, roundings, conversions and counts of one operand, lane by lane; the functions take float types and
M8 only, and raise ILLEGAL_INSN on others (R197 to R204). -/
def Sys2Proof.Claims.VectorFunctionResults : Prop :=
  ∀ (te : Bool) (d a : VReg) (k : KLow) (s : State), VecGoes s [s.oA a, .k k.toK] [s.oA d] →
    (∀ l ∈ vxForms te d a k s,
      (l.2.2.1 = true → ∃ t, exec l.1 s = .next t ∧ LanesBecome s t d k l.2.1 (fun i => l.2.2.2 (laneA s a i))) ∧
      (l.2.2.1 = false → exec l.1 s = .next (s.preciseTrap (s.here .illegalInsn)))) ∧
    (∃ t, exec (.vclz te d a k) s = .next t ∧ ∃ c : Nat → Nat, LanesBecome s t d k 12 (fun i => (c i, 0#8)) ∧
      ∀ i, CountsLeading s.fmt.ety.bits (c i) (BitVec.ofNat _ (laneA s a i))) ∧
    (∃ t, exec (.vpopc te d a k) s = .next t ∧
      LanesBecome s t d k 12 (fun i => (ones s.fmt.ety.bits (BitVec.ofNat _ (laneA s a i)), 0#8))) ∧
    (let conv := fun (i : Instr) (t u : ETy) => ∃ (x : VWord) (fl : Fl), exec i s = .next (((s.writeV d (k == 0) 12 x).setFlags fl).takeVec 8) ∧
        fl = (List.range (Nat.min t.count u.count)).foldl (fun g j => if on s k j then g ||| (convert s.fmt t u (lane t (s.rVA a) j)).2 else g) 0#8 ∧
        (∀ j, Nat.min t.count u.count ≤ j → j < u.count → lane u x j = 0) ∧
        ∀ j < Nat.min t.count u.count, lane u x j =
          if on s k j then (convert s.fmt t u (lane t (s.rVA a) j)).1 % 2 ^ u.bits else lane u (s.rVA d) j
     ((ETy.ofCode s.fmt.vt2).isSome = true → conv (.vcvt te d a k) s.fmt.ety s.fmt.ety2) ∧
     ((ETy.ofCode s.fmt.vt2).isSome = false → exec (.vcvt te d a k) s = .next (s.preciseTrap (s.here .illegalInsn))) ∧
     conv (.vm8e te d a k) s.fmt.ety .m8 ∧ conv (.vm8d te d a k) .m8 s.fmt.ety)

/-- A conversion takes the exact value of an element: to a float type it is rounded once; to an integer or code type rounded to an
integer in RM and held to the target's range; to M8 the nearest. NaN, NaR and ∞ are as the table says (R45 to R52). -/
def Sys2Proof.Claims.ConvertedLanes : Prop :=
  ∀ (t : ETy) (eb fb : Nat) (u : ETy) (fmt : Fmt) (a : Nat), a < 2 ^ u.bits →
    let toFloat := fun (p : Nat × Fl) (v : ℚ) (f : Fl) => ∃ g, p.2 = f ||| g ∧ (v = 0 → p.1 % 2 ^ (eb + fb) = 0 ∧ g = 0#8) ∧
      (v ≠ 0 → RoundsTo eb fb fmt.rm fmt.fz v p.1 g)
    let toInt := fun (p : Nat × Fl) (v : ℚ) => ∃ n : ℤ, RoundsInt fmt.rm v n ∧ p.1 = (held t n).1 ∧ p.2 &&& (SAT ||| NV) = (held t n).2
    let V := fval eb fb fmt.fz
    let nv := if a / 2 ^ fb % 2 ^ eb = 2 ^ eb - 1 ∧ a % 2 ^ fb ≠ 0 ∧ a % 2 ^ fb < 2 ^ (fb - 1) then NV else 0#8
    let neg := a / 2 ^ (eb + fb) = 1
    let inf := ¬ fin eb fb a ∧ ¬ isNan eb fb a
    ((t, eb, fb) ∈ formats →
      (∀ ub uf, (u, ub, uf) ∈ formats → fin ub uf a → toFloat (convert fmt u t a) (fval ub uf fmt.fz a) 0#8) ∧
      (∀ ub uf, (u, ub, uf) ∈ formats → isNan ub uf a → (convert fmt u t a).1 = quiet eb fb) ∧
      (u = .m8 → (a ≠ 0x80 → toFloat (convert fmt u t a) (m8Value a) 0#8) ∧ (a = 0x80 → convert fmt u t a = (quiet eb fb, 0#8))) ∧
      (u.isInt ∨ u.isCode → toFloat (convert fmt u t a) (readCode u a).1 (readCode u a).2)) ∧
    (t.isInt ∨ t.isCode →
      ((u, eb, fb) ∈ formats → (fin eb fb a → toInt (convert fmt u t a) (V a)) ∧ (isNan eb fb a → convert fmt u t a = (0, NV)) ∧
        (inf → convert fmt u t a = ((held t (if neg then (ends t).1 else (ends t).2)).1, NV))) ∧
      (u = .m8 → (a ≠ 0x80 → toInt (convert fmt u t a) (m8Value a)) ∧ (a = 0x80 → convert fmt u t a = (0, NV))) ∧
      (u.isInt ∨ u.isCode → convert fmt u t a = ((held t (readCode u a).1).1, (held t (readCode u a).1).2 ||| (readCode u a).2))) ∧
    (t = .m8 →
      ((u, eb, fb) ∈ formats → (fin eb fb a → EncodesM8 (V a) (convert fmt u t a).1 (convert fmt u t a).2) ∧
        (isNan eb fb a → convert fmt u t a = (0x80, NAR ||| nv)) ∧
        (inf → convert fmt u t a = ((if neg then 0x83 else 0x03), SAT))) ∧
      (u.isInt ∨ u.isCode → ∃ g, EncodesM8 (readCode u a).1 (convert fmt u t a).1 g ∧ (convert fmt u t a).2 = g ||| (readCode u a).2))

/-- Compares go by value: zeros are equal, a NaN compares false, and is invalid when it is signalling or the compare orders; codes are
compared as they are read (R49, R50, R174). -/
def Sys2Proof.Claims.ComparedLanes : Prop :=
  ∀ (t : ETy) (eb fb : Nat) (fmt : Fmt) (a b : Nat), a < 2 ^ t.bits → b < 2 ^ t.bits →
    let V := fval eb fb fmt.fz
    let by' := fun (x y : ℚ) (f : Fl) => VCmp.eq.elem t fmt a b = (decide (x = y), f) ∧ VCmp.lt.elem t fmt a b = (decide (x < y), f) ∧
      VCmp.le.elem t fmt a b = (decide (x ≤ y), f)
    ((t, eb, fb) ∈ formats →
      (fin eb fb a → fin eb fb b → by' (V a) (V b) 0#8) ∧
      (isNan eb fb a ∨ isNan eb fb b → (∃ f, VCmp.eq.elem t fmt a b = (false, f) ∧ (f = NV ↔ isSig eb fb a ∨ isSig eb fb b) ∧ (f ≠ NV → f = 0#8)) ∧
        VCmp.lt.elem t fmt a b = (false, NV) ∧ VCmp.le.elem t fmt a b = (false, NV))) ∧
    (t = .m8 → (a ≠ 0x80 → b ≠ 0x80 → by' (m8Value a) (m8Value b) 0#8) ∧
      (a = 0x80 ∨ b = 0x80 → VCmp.eq.elem t fmt a b = (false, 0#8) ∧ VCmp.lt.elem t fmt a b = (false, NV) ∧ VCmp.le.elem t fmt a b = (false, NV))) ∧
    (t.isCode = true → by' (readCode t a).1 (readCode t b).1 ((readCode t a).2 ||| (readCode t b).2))

/-- Compares, mask logic and the functions of one operand, and what compared and converted lanes are (R40 to R52, R174, R196 to R205). -/
def Obligations.VectorMaskAndFunctionResults : Prop :=
  Sys2Proof.Claims.VectorMaskResults ∧ Sys2Proof.Claims.VectorFunctionResults ∧ Sys2Proof.Claims.ComparedLanes ∧ Sys2Proof.Claims.ConvertedLanes

/-- Reductions deliver the result of group g in element g and zeros after the last group; in the integer class the sum is exact and
saturated once, and the count is that of the active elements that are not zero (R57, R185 to R187). -/
def Sys2Proof.Claims.ReductionGroups : Prop :=
  ∀ (te : Bool) (d a : VReg) (k : KLow) (s : State), VecGoes s [s.oA a, .k k.toK] [s.oA d] →
    let t := s.fmt.ety
    let n := t.count
    let z := if 1 ≤ s.fmt.rg ∧ 2 ^ s.fmt.rg < n then 2 ^ s.fmt.rg else n
    let mine := fun (g : Nat) => ((List.range z).map (fun j => g * z + j)).filter (fun i => on s k i)
    let Next := fun (i : Instr) (f : Nat → Nat) => ∃ u fl, exec i s = .next u ∧
      WholeBecomes s u d k 16 t (fun g => if g < n / z then f g else 0) fl
    (∃ f, Next (.vrsum te d a k) f ∧ (t.isInt = true → ∀ g < n / z, f g = (delivered t ((mine g).map (fun i => signed t.bits (laneA s a i))).sum).1)) ∧
    (∃ f, Next (.vrcnt te d a k) f ∧ (t.isInt = true → ∀ g < n / z,
      f g = (delivered t (((mine g).filter (fun i => laneA s a i != 0)).length)).1)) ∧
    (∃ f, Next (.vrmax te d a k) f ∧ (t.isInt = true → ∀ g < n / z, f g = (delivered t ((mine g).foldl (fun m i => max m (signed t.bits (laneA s a i))) (intLow t))).1)) ∧
    (∃ f, Next (.vrmin te d a k) f ∧ (t.isInt = true → ∀ g < n / z, f g = (delivered t ((mine g).foldl (fun m i => min m (signed t.bits (laneA s a i))) (intHigh t))).1)) ∧
    (∃ f, Next (.vrmean te d a k) f ∧ (∀ g < n / z, mine g = [] → f g = 0))

/-- Element g of a reduction is what the lanes of group g and their mask bits give (R185). -/
def Sys2Proof.Claims.ReducedElements : Prop :=
  ∀ (te : Bool) (d a : VReg) (k : KLow) (s : State), VecGoes s [s.oA a, .k k.toK] [s.oA d] →
    let t := s.fmt.ety
    let n := t.count
    let z := if 1 ≤ s.fmt.rg ∧ 2 ^ s.fmt.rg < n then 2 ^ s.fmt.rg else n
    let part := fun (o : VRed) (g : Nat) =>
      let ks := (List.range z).map (fun j => on s k (g * z + j))
      let xs := (List.range z).map (fun j => laneA s a (g * z + j))
      if t.isReal then o.real t s.fmt ks xs else o.int t s.fmt ks xs
    let Next := fun (i : Instr) (o : VRed) => ∃ u, exec i s = .next u ∧
      WholeBecomes s u d k 16 t (fun g => if g < n / z then (part o g).1 else 0) ((List.range (n / z)).foldl (fun f g => f ||| (part o g).2) 0#8)
    Next (.vrsum te d a k) .sum ∧ Next (.vrmax te d a k) .max ∧ Next (.vrmin te d a k) .min ∧ Next (.vrcnt te d a k) .cnt ∧
    Next (.vrmean te d a k) .mean

/-- Neighbours are combined, and where one is absent the other stays (R55). -/
def Sys2Proof.Claims.pairs (op : Nat → Nat → Nat) : List (Option Nat) → List (Option Nat)
  | some x :: some y :: rest => some (op x y) :: Sys2Proof.Claims.pairs op rest
  | some x :: none :: rest => some x :: Sys2Proof.Claims.pairs op rest
  | none :: y :: rest => y :: Sys2Proof.Claims.pairs op rest
  | _ => []

/-- The root of the pairwise tree of `2^k` elements (R55). -/
def Sys2Proof.Claims.pairwise (op : Nat → Nat → Nat) : Nat → List (Option Nat) → Option Nat
  | 0, xs => xs.headD none
  | k + 1, xs => Sys2Proof.Claims.pairwise op k (Sys2Proof.Claims.pairs op xs)

/-- What a group gives. Float types and M8: the elements are widened to F32, those masked off are absent, the pairwise tree rounds at
every level, and its root is put into the type once; a mean divides the root by the number of elements first; the count is of the values
that are not 0. Codes and integers: all is exact and held to the range once, a mean rounded to an integer in RM (R55 to R57, R186, R187). -/
def Sys2Proof.Claims.ReducedLanes : Prop :=
  ∀ (t : ETy) (eb fb k : Nat) (fmt : Fmt) (ks : List Bool) (xs : List Nat), ks.length = 2 ^ k → xs.length = 2 ^ k → (∀ x ∈ xs, x < 2 ^ t.bits) →
    let mine := ((ks.zip xs).filter (fun p => p.1)).map (fun p => p.2)
    let wide := (ks.zip xs).map (fun p => if p.1 then some (convert fmt t .f32 p.2).1 else none)
    let root := fun (o : VArith) => pairwise (fun x y => (o.elem .f32 fmt x y 0).1) k wide
    let put := fun (o : VArith) (absent : Nat) => ((root o).map (fun y => (convert fmt .f32 t y).1)).getD absent
    let inf := fun (neg : Bool) => if t = .m8 then (if neg then 0x83 else 0x03) else infinity eb fb (neg = true)
    let V := fval 8 23 fmt.fz
    ((t, eb, fb) ∈ formats ∨ t = .m8 →
      (VRed.sum.real t fmt ks xs).1 = put .add 0 ∧ (VRed.max.real t fmt ks xs).1 = put .max (inf true) ∧
      (VRed.min.real t fmt ks xs).1 = put .min (inf false) ∧ (mine = [] → VRed.mean.real t fmt ks xs = (0, 0#8))) ∧
    ((t, eb, fb) ∈ formats →
      (let c : ℕ := (mine.filter (fun x => decide (¬ (x / 2 ^ fb % 2 ^ eb ≠ 2 ^ eb - 1 ∧ fval eb fb fmt.fz x = 0)))).length
       (c = 0 → (VRed.cnt.real t fmt ks xs).1 = 0) ∧ (c ≠ 0 → ∃ g, RoundsTo eb fb fmt.rm fmt.fz c (VRed.cnt.real t fmt ks xs).1 g)) ∧
      (∀ y, root .add = some y → fin 8 23 y → V y ≠ 0 → ∃ g, RoundsTo eb fb fmt.rm fmt.fz (V y / mine.length) (VRed.mean.real t fmt ks xs).1 g)) ∧
    (t = .m8 →
      (∃ g, EncodesM8 ((mine.filter (fun x => decide (x ≠ 0))).length : ℕ) (VRed.cnt.real t fmt ks xs).1 g) ∧
      (∀ y, root .add = some y → fin 8 23 y → V y ≠ 0 → ∃ w f g, RoundsTo 8 23 fmt.rm fmt.fz (V y / mine.length) w f ∧ fin 8 23 w ∧
        EncodesM8 (fval 8 23 false w) (VRed.mean.real t fmt ks xs).1 g)) ∧
    (t.isInt = true ∨ t.isCode = true →
      let vs := mine.map (fun x => (readCode t x).1)
      let read := mine.foldl (fun f x => f ||| (readCode t x).2) 0#8
      let gives := fun (p : Nat × Fl) (v : Int) => p = ((held t v).1, (held t v).2 ||| read)
      gives (VRed.sum.int t fmt ks xs) vs.sum ∧ gives (VRed.cnt.int t fmt ks xs) (vs.filter (fun v => v != 0)).length ∧
      gives (VRed.max.int t fmt ks xs) (vs.foldl max (ends t).1) ∧ gives (VRed.min.int t fmt ks xs) (vs.foldl min (ends t).2) ∧
      (vs = [] → VRed.mean.int t fmt ks xs = (0, 0#8)) ∧
      (vs ≠ [] → ∃ m, RoundsInt fmt.rm ((vs.sum : ℚ) / vs.length) m ∧ gives (VRed.mean.int t fmt ks xs) m))

/-- Reductions: the result of group g in element g, zeros after the last group, and what a group gives in every class (R55 to R57, R185 to
R187). -/
def Obligations.VectorReductionResults : Prop :=
  Sys2Proof.Claims.ReductionGroups ∧ Sys2Proof.Claims.ReducedElements ∧ Sys2Proof.Claims.ReducedLanes

/-- VRSC, VCMPR, VIOTA, VEXT and VINS (R188, R191, R192). -/
def Sys2Proof.Claims.VectorRearrangeResults : Prop :=
  ∀ (te : Bool) (d a b : VReg) (k : KLow) (x : SReg) (idx : BitVec 34) (s : State),
    VecGoes s [s.oA a, s.oB b, .s x, .k k.toK] [s.oA d, .s x, .k k.toK] →
    let t := s.fmt.ety
    let n := t.count
    let w := t.bits
    let A := laneA s a
    let active := (List.range n).filter (fun i => on s k i)
    (∃ u, exec (.vcmpr te d a k) s = .next u ∧ WholeBecomes s u d k 12 t (fun i => if h : i < active.length then A active[i] else 0) 0#8) ∧
    (∃ u fl, exec (.viota te d k) s = .next u ∧ ∃ f, WholeBecomes s u d k 12 t f fl ∧
      (t.isInt = true → ∀ i < n, f i = (delivered t (((List.range i).filter (fun j => on s k j)).length)).1)) ∧
    (idx.toNat < n → exec (.vext te x a idx) s = .next ((s.produceS x 4
      (if t.isReal then BitVec.ofNat 64 (A idx.toNat) else BitVec.ofInt 64 (signed w (A idx.toNat)))).takeVec 1)) ∧
    (idx.toNat < n → ∃ v : VWord, exec (.vins te d x idx) s = .next ((s.writeV d false 12 v).takeVec 1) ∧
      ∀ i < n, lane t v i = if i = idx.toNat then (s.rS x).toNat % 2 ^ w else laneA s d i) ∧
    (n ≤ idx.toNat → exec (.vext te x a idx) s = .next (s.preciseTrap (s.here .illegalInsn)) ∧
      exec (.vins te d x idx) s = .next (s.preciseTrap (s.here .illegalInsn))) ∧
    (let cnt := fun i => lane .i16 (s.rVB b) (i / 2 ^ (s.fmt.bs + 3))
     ∃ (v : VWord) (fl : Fl), (∀ i < n, lane t v i = if !on s k i then laneA s d i else if cnt i = 0 then 0
         else (rescale t s.fmt s.src.ctl.rcnt.toNat (cnt i) (A i)).1 % 2 ^ w) ∧
       (k = 0 → exec (.vrsc te d a b k) s = .next (((s.writeV d true 16 v).setFlags fl).takeVec 8)) ∧
       (k ≠ 0 → ∃ m : Mask, exec (.vrsc te d a b k) s = .next ((((s.writeV d false 16 v).setFlags fl).produceK k.toK 16 m).takeVec 8) ∧
         ∀ i < 4096, m.getLsbD i = (decide (i < n) && on s k i && cnt i != 0)))

/-- VBEXP, VBQ and VBDQ work on blocks of 2^(BS + 3) elements with a byte per block; a code type raises ILLEGAL_INSN (R193 to
R195). -/
def Sys2Proof.Claims.VectorBlockResults : Prop :=
  ∀ (te : Bool) (d a b : VReg) (k : KLow) (s : State), VecGoes s [s.oA a, s.oB b, .k k.toK] [s.oA d] →
    let t := s.fmt.ety
    let B := 2 ^ (s.fmt.bs + 3)
    let e := fun i => signed 8 (lane .i8 (s.rVB b) (i / B))
    (t.isCode = true → exec (.vbexp te d a k) s = .next (s.preciseTrap (s.here .illegalInsn)) ∧
      exec (.vbq te d a b k) s = .next (s.preciseTrap (s.here .illegalInsn)) ∧
      exec (.vbdq te d a b k) s = .next (s.preciseTrap (s.here .illegalInsn))) ∧
    (t.isCode = false →
      (∃ u, exec (.vbexp te d a k) s = .next u ∧ WholeBecomes s u d k 16 .i8 (fun g => if g < t.count / B then
        pattern 8 (blockExp ((List.range B).map (fun j => if on s k (g * B + j) then readAny t s.fmt (laneA s a (g * B + j)) else .val ⟨0, 1⟩ false)))
        else 0) 0#8) ∧
      (∃ u, exec (.vbq te d a b k) s = .next u ∧ WholeBecomes s u d k 12 .i8
        (fun i => if i < t.count ∧ on s k i = true then (quantElem t s.fmt (e i) (laneA s a i)).1 else 0)
        (laneFlags s k (fun i => (quantElem t s.fmt (e i) (laneA s a i)).2))) ∧
      (∃ u, exec (.vbdq te d a b k) s = .next u ∧ LanesBecome s u d k 12 (fun i => dequantElem t s.fmt (e i) (lane .i8 (s.rVA a) i))))

/-- What a block's codes and a rescaled element are. VBQ: the integer nearest to the value over 2^e, held to ±127. VBDQ: the code times 2^e,
put into the type. VRSC: the value times RCNT over the count, put into the type once; an integer or a code takes it in the mode RM, which
is the model's choice (notes/assumptions/31.md) (R49, R52, R54, R188, R194, R195). -/
def Sys2Proof.Claims.BlockLanes : Prop :=
  ∀ (t : ETy) (eb fb : Nat) (fmt : Fmt) (e : Int) (a c rcnt cnt : Nat), -128 ≤ e → e ≤ 127 → a < 2 ^ t.bits → c < 256 → 0 < rcnt → 0 < cnt →
    let V := fval eb fb fmt.fz
    let neg := a / 2 ^ (eb + fb) = 1
    let quant := fun (v : ℚ) => ∃ n, RoundsInt 0#2 (v * 2 ^ (-e)) n ∧ quantElem t fmt e a = ((max (-127) (min 127 n) % 256).toNat,
      if n < -127 ∨ 127 < n then SAT ||| NX else if (n : ℚ) = v * 2 ^ (-e) then 0#8 else NX)
    let toFloat := fun (p : Nat × Fl) (v : ℚ) (f : Fl) => ∃ g, p.2 = g ||| f ∧ (v = 0 → p.1 % 2 ^ (eb + fb) = 0 ∧ g = 0#8) ∧
      (v ≠ 0 → RoundsTo eb fb fmt.rm fmt.fz v p.1 g)
    let code := readCode .l8 c
    let d : ℚ := code.1 * 2 ^ e
    ((t, eb, fb) ∈ formats →
      (fin eb fb a → quant (V a) ∧ toFloat (rescale t fmt rcnt cnt a) (V a * rcnt / cnt) 0#8) ∧
      (isNan eb fb a → quantElem t fmt e a = (0, NV) ∧ (rescale t fmt rcnt cnt a).1 = quiet eb fb) ∧
      (¬ fin eb fb a ∧ ¬ isNan eb fb a → quantElem t fmt e a = (if neg then 0x81 else 0x7F, SAT) ∧ rescale t fmt rcnt cnt a = (a, 0#8)) ∧
      toFloat (dequantElem t fmt e c) d code.2) ∧
    (t = .m8 →
      (a ≠ 0x80 → quant (m8Value a) ∧ (a ≠ 0 → ∃ w f g, RoundsTo 8 23 fmt.rm fmt.fz (m8Value a * rcnt / cnt) w f ∧ fin 8 23 w ∧
        EncodesM8 (fval 8 23 false w) (rescale t fmt rcnt cnt a).1 g ∧ (rescale t fmt rcnt cnt a).2 = f ||| g)) ∧
      (a = 0x80 → quantElem t fmt e a = (0, NV) ∧ rescale t fmt rcnt cnt a = (0x80, NAR)) ∧
      ∃ g, EncodesM8 d (dequantElem t fmt e c).1 g ∧ (dequantElem t fmt e c).2 = g ||| code.2) ∧
    (t.isInt = true →
      quant (signed t.bits a) ∧
      ∃ n, RoundsInt fmt.rm d n ∧ (dequantElem t fmt e c).1 = (held t n).1 ∧ (dequantElem t fmt e c).2 &&& ~~~NX = (held t n).2 ||| code.2) ∧
    (t.isInt = true ∨ t.isCode = true → ∃ n, RoundsInt fmt.rm ((readCode t a).1 * rcnt / cnt) n ∧
      rescale t fmt rcnt cnt a = ((held t n).1, (held t n).2 ||| (readCode t a).2)) ∧
    rescale t fmt rcnt 0 a = (0, 0#8)

/-- Rescaling, compaction, counting, extraction, insertion and blocks (R49, R52, R54, R188, R191 to R195). -/
def Obligations.VectorRearrangeAndBlocks : Prop :=
  Sys2Proof.Claims.VectorRearrangeResults ∧ Sys2Proof.Claims.VectorBlockResults ∧ Sys2Proof.Claims.BlockLanes

/-- Vector and mask loads and gathers leave every byte and register as they were, but that lines of the die's cache may leave for
their home; after 12 cycles from local memory, else when the
data come, the active lanes of vd hold the elements at their addresses, little-endian, and the others their old ones (R178 to R184,
R91). -/
def Sys2Proof.Claims.VectorLoadResults : Prop :=
  ∀ (te : Bool) (d b : VReg) (m : KReg) (a : SReg) (off : BitVec 34) (k : KLow) (s : State), PlainHbm s →
    let t := s.fmt.ety
    let ha := s.rS a + off.zeroExtend 64 * 512#64
    let due := if (s.target ha).isLocal then some (s.now + 12) else none
    let far := match s.target ha with
      | .remote _ _ => true
      | _ => false
    (s.Issues (.vld te d a off k) → ∃ u, exec (.vld te d a off k) s = .next u ∧ SameRegs s u ∧ SameButEvicted s u ∧
      u.car.marks.emptyV.getLsbD (s.physA d) = true ∧ (far = false → ∃ f ∈ u.car.flight, ∃ x, f.dest = .v (s.physA d) x ∧ f.due = due ∧
        ∀ i < t.count, lane t x i = if on s k i then natLE (((s.fetchBytes (s.target ha) 4096).bytes.drop (i * t.size)).take t.size)
          else laneA s d i)) ∧
    (m ≠ 0 → s.Issues (.vldk te m a off) → ∃ u, exec (.vldk te m a off) s = .next u ∧ SameRegs s u ∧ SameButEvicted s u ∧
      u.car.marks.emptyK.getLsbD m.val = true ∧ (far = false → ∃ f ∈ u.car.flight, ∃ x, f.dest = .k m.val x ∧ f.due = due ∧
        ∀ i < 4096, x.getLsbD i = (decide (i < t.count) && (natLE (s.fetchBytes (s.target ha) 512).bytes).testBit i))) ∧
    (s.Issues (.vgth te d a b k) → ∃ u, exec (.vgth te d a b k) s = .next u ∧ SameRegs s u ∧ SameButEvicted s u ∧
      u.car.marks.emptyV.getLsbD (s.physA d) = true ∧
      ((∀ i < t.count, on s k i = true → (s.target (s.rS a + BitVec.ofNat 64 (laneB s b i * t.size))).isLocal = true) →
        (s.target (s.rS a)).isLocal = true →
        ∃ f ∈ u.car.flight, ∃ x, f.dest = .v (s.physA d) x ∧ f.due = some (s.now + 12) ∧
        ∀ i < t.count, lane t x i = if on s k i
          then (s.fetchBytes (s.target (s.rS a + BitVec.ofNat 64 (laneB s b i * t.size))) t.size).nat % 2 ^ t.bits else laneA s d i))

/-- A vector store of `n` bytes to a place: byte `p` is written where `w p` holds, with `b p`, and no other byte. Beside a read of
another package that its bundle waits for it stands in the store queue (R179, R291). -/
def Sys2Proof.Claims.VecStored (s u : State) (x : Target) (n : Nat) (w : Nat → Bool) (b : Nat → Byte) : Prop :=
  let put := fun (old new : Nat → Byte) (lo : Nat) =>
    ∀ p, new p = if lo ≤ p ∧ p < lo + n ∧ w (p - lo) = true then b (p - lo) else old p
  let queued := SameBytes s u ∧ ∀ p < n, w p = true → ∃ q ∈ u.car.eng.queue, ∃ lo, lo ≤ p ∧ q.target = x.plus lo ∧
    q.bytes[p - lo]? = some (b p)
  match x with
  | .spad o => put (own s.car) (own u.car) o ∧ u.dev.mem = s.dev.mem
  | .hbm pa false => if s.holds s.now then queued else pa + n ≤ Config.hbmSize →
      put s.dev.mem.read u.dev.mem.read pa ∧ u.car.spad = s.car.spad
  | .host pa => if s.holds s.now then queued else put s.dev.mem.read u.dev.mem.read pa ∧ u.car.spad = s.car.spad
  | .hbm pa true => u.car.spad = s.car.spad ∧ (s.dev.linesHeld (dieOf s.car.ident.coreId) + 65 ≤ Config.dieLines →
      SameBytes s u ∧ (s.holds s.now = false → pa + n ≤ Config.hbmSize → ∀ p < n, w p = true →
        u.dev.viewByte none u.car.die true (pa + p) = b p))
  | _ => SameBytes s u

/-- Vector and mask stores write the bytes of the active lanes, little-endian, and no other byte; a scatter writes each active lane
at its own address, and of two lanes that meet the higher stands (R179, R182, R184). -/
def Sys2Proof.Claims.VectorStoreResults : Prop :=
  ∀ (te : Bool) (d b : VReg) (m : KReg) (a : SReg) (off : BitVec 34) (k : KLow) (s : State), PlainHbm s → NoStash s →
    let t := s.fmt.ety
    let ha := s.rS a + off.zeroExtend 64 * 512#64
    let laneByte := fun (p : Nat) => BitVec.ofNat 8 (laneA s d (p / t.size) / 256 ^ (p % t.size))
    (s.Issues (.vst te d a off k) → ∃ u, exec (.vst te d a off k) s = .next u ∧ SameRegs s u ∧
      VecStored s u (s.target ha) 4096 (fun p => on s k (p / t.size)) laneByte) ∧
    (s.Issues (.vstk te m a off) → ∃ u, exec (.vstk te m a off) s = .next u ∧ SameRegs s u ∧
      VecStored s u (s.target ha) 512 (fun _ => true) (fun p => BitVec.ofNat 8 (((s.rK m).toNat % 2 ^ t.count) / 256 ^ p))) ∧
    (s.Issues (.vsct te d a b k) → ∃ u, exec (.vsct te d a b k) s = .next u ∧ SameRegs s u ∧
      (let place := fun i => haByte (s.rS a + BitVec.ofNat 64 (laneB s b i * t.size))
       (∀ i < t.count, on s k i = true → s.target (s.rS a + BitVec.ofNat 64 (laneB s b i * t.size)) = .spad (place i)) →
       u.dev.mem = s.dev.mem ∧
       (∀ p, (∀ i < t.count, on s k i = true → p < place i ∨ place i + t.size ≤ p) → own u.car p = own s.car p) ∧
       (∀ i < t.count, on s k i = true →
         (∀ j < t.count, i < j → on s k j = true → place j + t.size ≤ place i ∨ place i + t.size ≤ place j) →
         ∀ q < t.size, own u.car (place i + q) = BitVec.ofNat 8 (laneA s d i / 256 ^ q))))

/-- Vector and mask loads and stores, gathers and scatters (R178 to R184). -/
def Obligations.VectorMemoryResults : Prop := Sys2Proof.Claims.VectorLoadResults ∧ Sys2Proof.Claims.VectorStoreResults

/-! The optical array (spec 08). -/

/-- An M slot that the array takes holds it for one cycle (R209). -/
def Sys2Proof.Claims.beatTaken (s : State) : State :=
  s.mapCar (fun c => { c with units := { c.units with array := Nat.max c.units.array (s.now + 1) } })

/-- The M slots in user mode: tuning discards the windows and holds the array 16 cycles, gain and split take effect at once, a
calibration is requested, MUNC leaves the domain, MABT discards windows (R209, R218 to R220, R225 to R227). In handler mode they
act as MNOP (R212). -/
def Obligations.ArrayControlResults : Prop :=
  ∀ (te ap en : Bool) (l : Ix16) (g : BitVec 5) (mask : BitVec 16) (s : State), s.src.units.array ≤ s.now → s.src.place.spec = false →
    exec (.mnop te) s = .next s ∧
    (s.src.tr.handler = true → g.toNat ≤ 20 → ∀ i ∈ [Instr.mtune te l, .mgain te ap g, .msplit te en mask, .mcal te, .munc te, .mabt te],
      exec i s = .next s) ∧
    (20 < g.toNat → exec (.mgain te ap g) s = .next (s.preciseTrap (s.here .illegalInsn))) ∧
    (s.src.tr.handler = false →
      (s.src.arr.line = some l → exec (.mtune te l) s = .next (beatTaken s)) ∧
      (s.src.arr.line ≠ some l → ∃ t, exec (.mtune te l) s = .next t ∧ t.car.arr.line = some l ∧
        (∀ i : Fin 16, t.car.arr.groups[i].win = none ∧ t.car.arr.groups[i].codes = s.car.arr.groups[i].codes) ∧
        t.car.units.array = s.now + 16 ∧ t.car.regs = s.car.regs ∧ t.dev = s.dev ∧ t.peers = s.peers) ∧
      (g.toNat ≤ 20 → ∃ t, exec (.mgain te ap g) s = .next t ∧ t.dev = s.dev ∧ t.car.regs = s.car.regs ∧
        ∀ i : Fin 16, t.car.arr.groups[i] = if !ap || s.src.ctl.mgsel.getLsbD i.val then { s.car.arr.groups[i] with gain := g.toNat }
          else s.car.arr.groups[i]) ∧
      (∃ t, exec (.msplit te en mask) s = .next t ∧ t.dev = s.dev ∧ t.car.regs = s.car.regs ∧ t.car.arr.split = en ∧ t.car.ctl.mgsel = mask ∧
        ∀ i : Fin 16, t.car.arr.groups[i].win = if s.car.arr.split && !en then none else s.car.arr.groups[i].win) ∧
      (∃ t, exec (.mcal te) s = .next t ∧ t.dev = s.dev ∧ t.car.arr = { s.car.arr with cal := { s.car.arr.cal with
          requested := s.car.arr.cal.requested || s.car.arr.cal.ends.isNone } }) ∧
      (∃ t, exec (.munc te) s = .next t ∧ t.car.place.domain = none ∧ t.car.regs = s.car.regs ∧ t.car.arr = s.car.arr ∧
        ∀ x ∈ t.dev.streams, ∃ c ∈ t.cars, c.place.domain = some x.domain) ∧
      (∃ t, exec (.mabt te) s = .next t ∧ t.dev = s.dev ∧ t.car.regs = s.car.regs ∧
        ∀ i : Fin 16, t.car.arr.groups[i].win = if s.car.arr.split && !s.src.ctl.mgsel.getLsbD i.val then s.car.arr.groups[i].win else none))

/-- A beat in a group that takes it: with A, or without an open window, it opens one of one beat; else the open window counts it.
D, or the 512th beat, closes the window; the groups that ignore the beat keep theirs (R106, R107, R113, R214, R215). -/
def Sys2Proof.Claims.BeatsCountWindows : Prop :=
  ∀ (te n a d : Bool) (v : VReg) (seg : BitVec 4) (s : State), s.src.tr.handler = false → s.Issues (.mbt te v seg n a d) →
    ∃ t, exec (.mbt te v seg n a d) s = .next t ∧ t.car.regs = s.car.regs ∧ SameBytes s t ∧ t.peers = s.peers ∧ t.dev = s.dev ∧
      t.car.arr.beat = some s.now ∧
      ∀ g : Fin 16,
        (s.src.groupAct g a d = none → t.car.arr.groups[g].win = s.src.arr.groups[g].win) ∧
        (∀ x y, s.src.groupAct g a d = some (x, y) →
          (y = true → t.car.arr.groups[g].win = none ∧ t.car.arr.groups[g].cgain = s.src.arr.groups[g].gain) ∧
          (y = false → s.src.arr.groups[g].win = none → ∃ w, t.car.arr.groups[g].win = some w ∧ w.beats = 1 ∧ w.last = s.now) ∧
          (y = false → ∀ w, s.src.arr.groups[g].win = some w →
            (x = true → ∃ w', t.car.arr.groups[g].win = some w' ∧ w'.beats = 1) ∧
            (x = false → 511 ≤ w.beats → t.car.arr.groups[g].win = none) ∧
            (x = false → w.beats < 511 → ∃ w', t.car.arr.groups[g].win = some w' ∧ w'.beats = w.beats + 1)))

/-- What an array meets at an MBT: the row exponents, the code of row k at symbol t as number t × 32 + k, and whether LINE is set. Without a
line, or on one that the car is not coupled to, zeros with LINE; in a remap or on a line that nothing drives, zeros; from two streams,
zeros with LINE; from a late one, its header over zeros, with LINE; else the header and the bytes of the frame, where 0x80 reads
as 0 (R49, R97, R102, R103, R111, R116, R117). -/
def Sys2Proof.Claims.Meets (s : State) (rows codes : Nat → Int) (fault : Bool) : Prop :=
  let dark := fun (f : Bool) => (∀ k, rows k = 0) ∧ (∀ i, codes i = 0) ∧ fault = f
  (s.src.arr.line = none → dark true) ∧
  ∀ l, s.src.arr.line = some l →
    (s.src.coupledTo l = false → dark true) ∧
    ∀ m, s.src.coupledTo l = true → s.src.place.domain = some m →
      let x := s.srcDev.lines[l]
      let drive := s.srcDev.drives.find? (fun y => y.is m l s.src.ctl.ccyc.toNat)
      (x.running ≠ none ∨ x.suspended = true ∨ drive = none → dark false) ∧
      (x.running = none → x.suspended = false → ∀ y, drive = some y →
        (1 < y.count → dark true) ∧
        (y.count ≤ 1 → fault = y.late ∧ (∀ k, rows k = (y.header.getD k 0#8).toInt) ∧
          ∀ i, codes i = if y.late = true ∨ y.bytes.getD i 0#8 = 0x80#8 then 0 else (y.bytes.getD i 0#8).toInt))

/-- A weight `w` under a latch `e` is the modulator code `d`, with WSAT when it was clamped or stands for another code (R105). -/
def Sys2Proof.Claims.Modulates (wf : BitVec 2) (e : Int) (w : Nat) (d : Int) (wsat : Bool) : Prop :=
  (wf = 0#2 → (w = 0x80 → d = 0 ∧ wsat = true) ∧
    (w ≠ 0x80 → ∃ n, RoundsInt 0#2 (m8Value w * 2 ^ (-e)) n ∧ d = max (-127) (min 127 n) ∧ (wsat = true ↔ n < -127 ∨ 127 < n))) ∧
  (wf = 1#2 → (w = 8 → d = -112 ∧ wsat = true) ∧ (w ≠ 8 → d = 16 * (if w < 8 then (w : Int) else w - 16) ∧ wsat = false)) ∧
  (wf = 2#2 → (w = 0x80 → d = 0 ∧ wsat = true) ∧ (w ≠ 0x80 → d = (if w < 128 then (w : Int) else w - 256) ∧ wsat = false))

/-- The code that the converter delivers for a sum: with a laser out of tolerance any of the range; with SKEW one within 2 of the nearest
integer; else that of an integer within 0.30, or one of the two beside it (R109, R110). -/
def Sys2Proof.Claims.Delivers (gain : Nat) (skew weak : Bool) (sum c : Int) : Prop :=
  let x : ℚ := sum / 2 ^ gain
  let hold := fun (n : Int) => max (-511) (min 511 n)
  c.natAbs ≤ 511 ∧
  (weak = false → skew = false → (∀ n : ℤ, |x - n| ≤ 3 / 10 → c = hold n) ∧ (c = hold ⌊x⌋ ∨ c = hold ⌈x⌉)) ∧
  (weak = false → skew = true → ∃ n, RoundsInt 0#2 x n ∧ (c - hold n).natAbs ≤ 2)

/-- A beat gives each receiver the products of its row's codes and its column's weight codes over 8 symbols, subtracted with N. A window that opens
has these sums and the row exponents; one that goes on adds them, but for a void one, and keeps its exponents. A closing window leaves
its codes at the group's gain, its row exponents and the group's latch; a void one leaves zeros. VFLAGS takes WSAT (R102 to R107, R109
to R111, R115). A window has 128 sums from its opening on. -/
def Sys2Proof.Claims.BeatSumsAndCodes : Prop :=
  ∀ (te n a d : Bool) (v : VReg) (seg : BitVec 4) (s : State) (rows codes w : Nat → Int) (fault : Bool) (z : Nat → Bool),
    s.src.tr.handler = false → s.Issues (.mbt te v seg n a d) → Meets s rows codes fault →
    let e := fun (j : Nat) => (s.src.regs.e.toList.getD (j / 4) 0#8).toInt
    let weight := fun (i : Nat) =>
      let k := 512 * seg.toNat + i
      if s.fmt.wf = 1#2 then (s.rVA v).toNat / 2 ^ (4 * k) % 16 else lane .i8 (s.rVA v) k
    (∀ i < 512, Modulates s.fmt.wf (e (i % 64)) (weight i) (w i) (z i)) →
    ∃ t, exec (.mbt te v seg n a d) s = .next t ∧
      t.car.ctl.vflags = s.car.ctl.vflags ||| (if (List.range 512).any z then WSAT else 0#8) ∧
      ∀ (g : Fin 16) (x y : Bool), s.src.groupAct g a d = some (x, y) →
        let old := s.src.arr.groups[g]
        let new := t.car.arr.groups[g]
        let lost := fun (u : Window) => u.void || decide (u.last + 4000 < s.now)
        let adds := fun (r : Nat) => (if n then -1 else 1) *
          ((List.range 8).map (fun i => codes (i * 32 + r / 4) * w (i * 64 + 4 * g.val + r % 4))).sum
        let wsat := (List.range 8).any (fun i => (List.range 4).any (fun j => z (i * 64 + 4 * g.val + j)))
        let weak := s.src.arr.line.any s.srcDev.laserBad || s.src.arr.groups.toList.any (fun h => h.win.any Window.laser)
        let leaves := fun (sum row : Nat → Int) (void : Bool) =>
          (∀ k < 32, new.rowExp.getD k 0 = row k) ∧ new.groupExp = e (4 * g.val) ∧ new.cgain = old.gain ∧
          (void = true → ∀ r < 128, new.codes.getD r 0 = 0) ∧
          (void = false → ∀ r < 128, Delivers old.gain s.src.arr.cal.skew weak (sum r) (new.codes.getD r 0))
        (old.win = none ∨ x = true →
          (y = false → ∃ u, new.win = some u ∧ u.sums.length = 128 ∧ (∀ r < 128, u.sums.getD r 0 = adds r) ∧
            (∀ k < 32, u.rowExp.getD k 0 = rows k) ∧ u.line = fault ∧ u.wsat = wsat ∧ u.void = false) ∧
          (y = true → leaves adds rows false)) ∧
        ∀ u, old.win = some u → u.sums.length = 128 →
          let row := fun (k : Nat) => u.rowExp.getD k 0
          (x = true → y = false → leaves (fun r => u.sums.getD r 0) row (lost u)) ∧
          (x = false → y = true ∨ 511 ≤ u.beats → leaves (fun r => u.sums.getD r 0 + adds r) row (lost u)) ∧
          (x = false → y = false → u.beats < 511 → ∃ q, new.win = some q ∧ q.rowExp = u.rowExp ∧ q.line = (u.line || fault) ∧
            q.wsat = (u.wsat || wsat) ∧ q.void = lost u ∧ q.sums.length = 128 ∧
            ∀ r < 128, q.sums.getD r 0 = u.sums.getD r 0 + if lost u then 0 else adds r)

/-- The beats of the optical array: the windows that they open, fill and close, and the codes of the closed ones (R102 to R107, R109 to
R111, R113, R115, R215). -/
def Obligations.BeatOpensAndClosesWindows : Prop := Sys2Proof.Claims.BeatsCountWindows ∧ Sys2Proof.Claims.BeatSumsAndCodes

/-- The status word of MSTAT, field by field (R224). -/
def Sys2Proof.Claims.ArrayStatus (s : State) (x : Word) : Prop :=
  let a := s.src.arr
  let ready := (a.queue.filter (fun r => decide (r.ready ≤ s.now))).length
  (x.extractLsb' 0 5).toNat = ready % 32 ∧ x.getLsbD 5 = decide (ready < a.queue.length) ∧
  (∀ g : Fin 16, x.getLsbD (6 + g.val) = a.groups[g].win.isSome) ∧ x.getLsbD 22 = a.split ∧
  x.extractLsb' 23 4 = BitVec.ofNat 4 ((a.line.map Fin.val).getD 0) ∧ x.getLsbD 27 = a.line.isNone ∧
  x.getLsbD 28 = a.line.any s.src.coupledTo ∧ x.getLsbD 29 = a.cal.requested ∧ x.getLsbD 30 = a.cal.skew ∧
  x.getLsbD 31 = a.line.any s.srcDev.laserBad ∧ x.getLsbD 32 = decide (0 < s.srcDev.house.pacex) ∧
  (∀ (g : Fin 16) w, a.groups[g].win = some w → (∀ h : Fin 16, h < g → a.groups[h].win = none) →
    (x.extractLsb' 33 9).toNat = (w.beats - 1) % 512) ∧
  ((∀ g : Fin 16, a.groups[g].win = none) → x.extractLsb' 33 9 = 0#9) ∧ x.extractLsb' 42 5 = 0#5 ∧
  (x.getLsbD 47 = true ↔ ∃ (g : Fin 16) (w : Window), a.groups[g].win = some w ∧ w.lost s.now = true) ∧ x.extractLsb' 48 16 = a.seq

/-- MRD fills every element of vd, at the later of 2 cycles after it and 16 after the newest closing beat, with the codes of the last
closed windows of 16 rows: raw as I16 above which zeros stand, or times two to the window's gain and exponents, rounded to F32, with the flags of that. MREP
takes the oldest readable report to sd after 2 cycles; it gives 0 when there is none, and waits for one on its way. MSTAT reads the
status. Each holds the array for a cycle and changes nothing else (R112, R209, R221 to R224). -/
def Obligations.ArrayReadResults : Prop :=
  ∀ (te : Bool) (v : VReg) (d : SReg) (part kind : BitVec 2) (s : State), s.src.units.array ≤ s.now → s.Room [s.oA v, .s d] →
    let a := s.src.arr
    let group := fun (i : Nat) => a.groups.toList.getD (i % 64 / 4) {}
    let row := fun (i : Nat) => i / 64 + 16 * part.toNat
    let code := fun (i : Nat) => (group i).codes.getD (row i * 4 + i % 4) 0
    let value := fun (i : Nat) => flt32.round s.fmt.rm s.fmt.fz
      (Q.scale (code i) ((group i).cgain + (group i).rowExp.getD (row i) 0 + (group i).groupExp)) false
    let lat := (List.finRange 16).foldl (fun m g => match a.groups[g].closed with
      | some t => max m (t + 16)
      | none => m) (s.now + 2) - s.now
    (part.toNat < 2 → kind = 1#2 → ∃ x, exec (.mrd te v part kind) s = .next (beatTaken ((s.writeV v true lat x).setFlags 0#8)) ∧
      ∀ i < 2048, lane .i16 x i = if i < 1024 then (code i % 65536).toNat else 0) ∧
    (part.toNat < 2 → kind = 0#2 → ∃ x, exec (.mrd te v part kind) s = .next (beatTaken ((s.writeV v true lat x).setFlags
        ((List.range 1024).foldl (fun f i => f ||| (value i).2) 0#8))) ∧
      ∀ i < 1024, lane .f32 x i = (value i).1 % 2 ^ 32) ∧
    (2 ≤ part.toNat ∨ 2 ≤ kind.toNat → exec (.mrd te v part kind) s = .next (s.preciseTrap (s.here .illegalInsn))) ∧
    (a.queue = [] → exec (.mrep te d) s = .next (beatTaken (s.produceS d 2 0#64))) ∧
    (∀ before r after, a.queue = before ++ r :: after → (∀ x ∈ before, s.now < x.ready) → r.ready ≤ s.now →
      exec (.mrep te d) s = .next (beatTaken ((s.produceS d 2 r.word).mapCar (fun c =>
        { c with arr := { c.arr with queue := before ++ after } })))) ∧
    (a.queue ≠ [] → (∀ r ∈ a.queue, s.now < r.ready) → exec (.mrep te d) s = .next s.stays) ∧
    (∃ x, exec (.mstat te d) s = .next (beatTaken (s.produceS d 2 x)) ∧ ArrayStatus s x)

/-! The engines of a car (spec 09 R230 to R254). -/

/-- The registers of the focused car stand, flags among them. -/
def Sys2Proof.Claims.KeepsRegs (s t : State) : Prop := t.car.regs = s.car.regs ∧ t.car.ctl = s.car.ctl ∧ t.car.pc = s.car.pc ∧ t.car.loop = s.car.loop

/-- A copy takes the lowest free number with its waybills, its flag and its order as they stand at issue, and every other copy
keeps its record; no flag is posted yet (R235, R236, R238). CNOP changes nothing. A scope without acq or rel raises ILLEGAL_INSN
(R82). -/
def Sys2Proof.Claims.CopyStarts : Prop :=
  ∀ (te acq rel lossy : Bool) (ws wd : Ix16) (f : FlagIx) (scope : BitVec 2) (s : State),
    exec (.cnop te) s = .next s ∧
    (acq = false → rel = false → scope ≠ 0#2 →
      exec (.ccpy te ws wd f acq rel scope lossy) s = .next (s.preciseTrap (s.here .illegalInsn))) ∧
    (s.Issues (.ccpy te ws wd f acq rel scope lossy) →
      ∃ t n, exec (.ccpy te ws wd f acq rel scope lossy) s = .next t ∧ KeepsRegs s t ∧ s.freeNumber = some n ∧ n < 48 ∧
        (∀ k ∈ s.car.eng.copies, k.num ≠ n ∧ k ∈ t.car.eng.copies) ∧
        ∃ k, t.car.copyOf n = some k ∧ k.num = n ∧ k.op = .ccpy ∧ k.ws = s.waybill ws ∧ k.wd = s.waybill wd ∧ k.flag = f ∧ k.acq = acq ∧
          k.rel = rel ∧ k.scope = scope ∧ k.lossy = lossy ∧ k.state = .running ∧ k.issued = s.now ∧
          k.spad = s.car.spad ∧ k.lslack = s.src.ctl.lslack)

/-- CRES lets a faulted copy run again from the row of its fault, and an unmapping that a fault stopped; CABT drops a copy, or a collective that has faulted, and frees
its number without a flag post. Both leave anything else alone, and a number above 47 raises ILLEGAL_INSN (R241, R242, R82). -/
def Sys2Proof.Claims.FaultedCopiesResumeOrEnd : Prop :=
  ∀ (te : Bool) (n : BitVec 6) (s : State),
    (48 ≤ n.toNat → exec (.cres te n) s = .next (s.preciseTrap (s.here .illegalInsn)) ∧
      exec (.cabt te n) s = .next (s.preciseTrap (s.here .illegalInsn))) ∧
    (n.toNat < 48 →
      (s.src.copyOf n.toNat = none → exec (.cabt te n) s = .next s ∧ ∃ t, exec (.cres te n) s = .next t ∧ KeepsRegs s t ∧ t.dev = s.dev ∧
        t.peers = s.peers ∧ t.car.eng.copies = s.car.eng.copies ∧ t.car.spad = s.car.spad ∧ t.car.eng.unmaps = s.car.eng.unmaps.map (fun u =>
          { u with faulted := u.faulted && u.num != n.toNat })) ∧
      (∀ k i va, s.src.copyOf n.toNat = some k → k.state = .faulted i va →
        ∃ t, exec (.cres te n) s = .next t ∧ t.car = s.car.setCopy { k with
          state := .running
          iter := i } ∧ t.peers = s.peers ∧ t.dev.mem = s.dev.mem ∧
          ∀ x ∈ t.dev.fab.lossy, x.car = s.car.ref → x.num = k.num → x.closed = false → ∀ b ∈ x.arrived, (b + 1) * 256 ≤ i * k.wd.rowLen * k.wd.esz) ∧
      (∀ k, s.src.copyOf n.toNat = some k → k.state = .running → exec (.cres te n) s = .next s) ∧
      (∀ k, s.src.copyOf n.toNat = some k → k.op ≠ .ccpy → k.state = .running → exec (.cabt te n) s = .next s) ∧
      (∀ k, s.src.copyOf n.toNat = some k → k.op = .ccpy ∨ (k.op ∈ [EngineOp.crdx, .cagt, .cbct] ∧ k.state ≠ .running) →
        ∃ t, exec (.cabt te n) s = .next t ∧ KeepsRegs s t ∧ t.car.copyOf n.toNat = none ∧
          ∀ x ∈ s.car.eng.copies, x.num ≠ n.toNat → x ∈ t.car.eng.copies))

/-- The slots of the copy engine: a copy starts, resumes and ends (R235 to R238, R241, R242). -/
def Obligations.CopySlots : Prop := Sys2Proof.Claims.CopyStarts ∧ Sys2Proof.Claims.FaultedCopiesResumeOrEnd

/-- CPLD drives 256 bytes of va on the car's bus line, where a drive of another car at the same CCYC leaves zeros, and one of its own
bundle gives way (notes/assumptions/68.md); CPLT gives the
256 bytes that the bus carried 4 CCYCs before to one part of vd, and keeps the others (R243, R244). -/
def Sys2Proof.Claims.PlatformBusResults : Prop :=
  ∀ (te : Bool) (v : VReg) (part : Ix16) (s : State),
    let now := s.src.ctl.ccyc.toNat
    (s.Readable [s.oA v] →
      (s.src.busLine = none → exec (.cpld te v part) s = .next s) ∧
      (∀ l m, s.src.busLine = some l → s.src.place.domain = some m → (∀ b ∈ s.dev.bus, 1 ≤ b.count) →
        ∃ t, exec (.cpld te v part) s = .next t ∧ t.car = s.car ∧
        t.peers = s.peers ∧ t.dev.mem = s.dev.mem ∧ ∀ j < 256, (t.dev.busAt (some m) (some l) now).getD j 0#8 =
          (match s.dev.bus.find? (fun b => b.domain == m && b.line == l && b.ccyc == now) with
           | some b => if b.car = s.src.ref ∧ b.count = 1 then BitVec.ofNat 8 (lane .i8 (s.rVA v) (256 * part.val + j)) else 0#8
           | none => BitVec.ofNat 8 (lane .i8 (s.rVA v) (256 * part.val + j))))) ∧
    (s.Room [s.oA v] → (∀ b ∈ s.srcDev.bus, b.bytes.length = 256) →
      ∃ x : VWord, exec (.cplt te v part) s = .next (s.writeV v false 2 x) ∧
        ∀ i < 4096, lane .i8 x i = if i / 256 = part.val then
            (if now < 4 then 0 else ((s.srcDev.busAt s.src.place.domain s.src.busLine (now - 4)).getD (i % 256) 0#8).toNat)
          else lane .i8 (s.rVA v) i)

/-- A window or report `src`, opened by a beat of a line of a domain, has received a beat that a stream from `start` to `last` missed. -/
def Sys2Proof.Claims.received (m : Nat) (l : Ix16) (start last : Nat) (src : Option (Nat × Ix16)) (beats : List Nat) : Bool :=
  src == some (m, l) && beats.any (fun c => decide (start ≤ c ∧ c ≤ last))

/-- A stream of `n` beats from `start` issued at CCYC `now`: every report that MREP has not read and every open window that received a beat
up to `now` of its line in its domain, all of which come too late, reports LINE, and a window that opened at one of them that the stream
alone drives has the row exponents of the header; the beat of `now` is driven late or collides (R97, R111, R116, R246). -/
def Sys2Proof.Claims.LateBeatsNoted (s t : State) (l : Ix16) (start n now : Nat) (header : List Byte) : Prop :=
  start ≤ now → 0 < n → ∀ m, s.src.place.domain = some m →
    let last := min now (start + n - 1)
    (∀ (g : Fin 16) w, s.car.arr.groups[g].win = some w → ∃ u, t.car.arr.groups[g].win = some u ∧ u.sums = w.sums ∧ u.beats = w.beats ∧
      u.line = (w.line || received m l start last w.opener.src w.ccycs) ∧
      (received m l start last w.opener.src [w.opener.ccyc] = false → u.rowExp = w.rowExp) ∧
      (received m l start last w.opener.src [w.opener.ccyc] = true → w.opener.ccyc < now → w.opener.count = 0 →
        u.rowExp = header.map (fun b => b.toInt))) ∧
    t.car.arr.queue = s.car.arr.queue.map (fun r => if received m l start last r.src r.ccycs then { r with word := r.word ||| (1#64 <<< 53) }
      else r) ∧
    (now < start + n → (∀ y ∈ s.dev.drives, 1 ≤ y.count ∧ (y.awaits ≠ 0 → y.late = true ∨ 1 < y.count)) →
      ∃ y ∈ t.dev.drives, y.is m l now = true ∧ (y.late = true ∨ 1 < y.count))

/-- CLS and CLSF enter a stream on their line in the car's coupling domain, with the first beat and the number of beats that they
name, and take a copy number; a stream that has nothing left to drive enters none; beats that come too late are noted (R97, R245 to
R247). -/
def Sys2Proof.Claims.LineStreamsStart : Prop :=
  ∀ (te : Bool) (l ws : Ix16) (a b : SReg) (s : State),
    let w := s.waybill ws
    let now := s.src.ctl.ccyc.toNat
    let start := (s.rS b).toNat
    let n := (w.count * w.esz - 32) / 256
    let m := ((s.rS a).extractLsb' 32 16).toNat
    (s.Issues (.cls te l ws b) →
      (w.empty = true → exec (.cls te l ws b) s = .next s) ∧
      (w.empty = false → ∃ t, exec (.cls te l ws b) s = .next t ∧ KeepsRegs s t ∧ SameBytes s t ∧
        LateBeatsNoted s t l start n now (s.dev.streamBytes (s.dev.drained s.car) w 0 32) ∧
        (start + n ≤ now → t.dev.streams = s.dev.streams ∧ t.car.eng = s.car.eng) ∧
        (now < start + n → ∃ x, t.dev.streams = s.dev.streams ++ [x] ∧ x.line = l ∧ x.start = start ∧ x.beats = n ∧ x.ws = w ∧
          x.group = none ∧ some x.domain = s.src.place.domain ∧ some x.num = s.freeNumber ∧ x.car = s.car.ref ∧
          x.header = s.dev.streamBytes (s.dev.drained s.car) w 0 32 ∧
          ∃ k, t.car.eng.copies = s.car.eng.copies ++ [k] ∧ k.num = x.num ∧ k.op = .cls))) ∧
    (s.Issues (.clsf te l a b) →
      ∃ t, exec (.clsf te l a b) s = .next t ∧ KeepsRegs s t ∧ SameBytes s t ∧
        LateBeatsNoted s t l start m now (List.replicate 32 0#8) ∧
        (start + m ≤ now → t.dev.streams = s.dev.streams ∧ t.car.eng = s.car.eng) ∧
        (now < start + m → ∃ x, t.dev.streams = s.dev.streams ++ [x] ∧ x.line = l ∧ x.start = start ∧ x.beats = m ∧
          x.group = some ((s.rS a).extractLsb' 0 12).toNat ∧ some x.domain = s.src.place.domain ∧ some x.num = s.freeNumber ∧
          x.car = s.car.ref ∧ ∃ k, t.car.eng.copies = s.car.eng.copies ++ [k] ∧ k.num = x.num ∧ k.op = .clsf))

/-- The slots of the platform bus and of the line streams (R243 to R247). -/
def Obligations.BusAndLineSlots : Prop := Sys2Proof.Claims.PlatformBusResults ∧ Sys2Proof.Claims.LineStreamsStart

/-- CWBR, CINV and CWBI start a range operation over the lines that the range touches, with their flag, and change nothing else; in a
page that is not software-managed they touch no line. A range of 0 bytes posts the flag at once. CINV without write rights acts as
CWBI. A busy handle holds the bundle, whatever sb holds (R152, R248). -/
def Sys2Proof.Claims.RangeOperationsStart : Prop :=
  ∀ (te : Bool) (a b : SReg) (f : FlagIx) (s : State),
    let n := (s.rS b).toNat
    let inv := if (s.src.handle (haIndex (s.rS a))).wr then RangeKind.inv else .wbinv
    ∀ i ∈ [(Instr.cwbr te a b f, RangeKind.wb), (.cinv te a b f, inv), (.cwbi te a b f, .wbinv)],
      (s.src.isFull (.s a) = true → s.src.handleBusy s.now (haIndex (s.rS a)) = true → exec i.1 s = .next s.stays) ∧
      (n = 0 → s.src.handleBusy s.now (haIndex (s.rS a)) = false → s.Readable [.s a, .s b] →
        exec i.1 s = .next (s.mapCar (fun c => c.post f 1))) ∧
      (n ≠ 0 → s.Issues i.1 → ∃ r, exec i.1 s = .next (s.mapCar (fun c => { c with
          eng := { c.eng with ranges := c.eng.ranges ++ [r], nextId := c.eng.nextId + 1 } })) ∧
        r.kind = i.2 ∧ r.flag = f ∧ r.issued = s.now ∧ r.cid = s.src.eng.nextId ∧ r.rid = s.srcDev.fab.nextId ∧
        (∀ pa, s.target (s.rS a) = .hbm pa true → ∀ l, (r.lo ≤ l ∧ l < r.hi) ↔ ∃ x, pa ≤ x ∧ x < pa + n ∧ x / 64 = l) ∧
        ((∀ pa, s.target (s.rS a) ≠ .hbm pa true) → r.hi = r.lo))

/-- A collective is this car's next one on its group: it takes a copy number, counts the group's collectives on, and its part stands
in the collective of that number under its rank. An empty one gives a part of no elements and moves nothing (R234, R251 to R253). -/
def Obligations.CollectivesContribute : Prop :=
  ∀ (te acq rel lossy : Bool) (ws wd : Ix16) (f : FlagIx) (scope : BitVec 2) (s : State),
    let w := s.waybill wd
    let g := w.group
    let k := Tab.get 0 s.car.eng.colls g
    ∀ i ∈ [(Instr.crdx te ws wd f acq rel scope lossy, EngineOp.crdx), (.cagt te ws wd f acq rel scope lossy, .cagt),
           (.cbct te ws wd f acq rel scope lossy, .cbct)],
      (acq = false → rel = false → scope ≠ 0#2 → exec i.1 s = .next (s.preciseTrap (s.here .illegalInsn))) ∧
      (s.Issues i.1 → ∃ t r n, exec i.1 s = .next t ∧ SameButEvicted s t ∧ t.car.ctl.ccyc = s.car.ctl.ccyc ∧ s.srcDev.rankOf s.src g = some r ∧
        s.freeNumber = some n ∧ Tab.get 0 t.car.eng.colls g = k + 1 ∧
        (∃ x ∈ t.dev.fab.colls, x.group = g ∧ x.k = k ∧ ∃ p ∈ x.parts, p.rank = r ∧ p.car = some s.car.ref ∧ p.op = i.2 ∧ p.type = w.type ∧
          p.lossy = lossy) ∧
        (let source := i.2 ≠ .cbct ∨ r = w.root
         let empty := w.empty || (decide source && (s.waybill ws).empty)
         t.car.regs = s.car.regs ∧ ∃ y, t.car.copyOf n = some y ∧ y.op = i.2 ∧ y.ws = s.waybill ws ∧ y.wd = w ∧ y.flag = f ∧ y.key = k ∧
           y.state = .running ∧ y.void = empty ∧ (empty = true → ∃ x ∈ t.dev.fab.colls, x.group = g ∧ x.k = k ∧
             ∃ p ∈ x.parts, p.rank = r ∧ p.count = 0 ∧ p.data = [])))

/-- CMAP binds a scratchpad range to a tile under a copy number, with no granule filled, and moves no data; CUNM takes the mapping
that begins at its address away, leaves bytes outside it and in its filled granules as they are, and hands the dirty bytes to the
engine with its flag. Neither changes anything else (R249, R250). -/
def Sys2Proof.Claims.StashMappingsStartAndEnd : Prop :=
  ∀ (te : Bool) (ws : Ix16) (a : SReg) (f : FlagIx) (s : State),
    let w := s.waybill ws
    (s.Issues (.cmap te ws a) → ∃ m, exec (.cmap te ws a) s = .next (s.mapCar (fun c => { c with
        eng := { c.eng with
          stash := c.eng.stash ++ [m]
          nextId := c.eng.nextId + 1 } })) ∧ m.id = s.car.eng.nextId ∧
      some m.num = s.freeNumber ∧ m.base = haByte (s.rS a) ∧ m.len = (w.count * w.esz + 63) / 64 * 64 ∧ m.ws = w ∧ m.filled = [] ∧
      m.dirty = [] ∧ m.filling = []) ∧
    (s.Issues (.cunm te a f) → s.car.eng.stash = s.src.eng.stash → ∃ t, ∃ m ∈ s.car.eng.stash, ∃ u, exec (.cunm te a f) s = .next t ∧
      (∃ k ∈ s.car.eng.stash, k.base = haByte (s.rS a) ∧ k.num = m.num) ∧
      t.car = { s.car with
        spad := t.car.spad
        eng := { s.car.eng with
          stash := s.car.eng.stash.filter (fun x => x.num != m.num)
          unmaps := s.car.eng.unmaps ++ [u]
          nextId := s.car.eng.nextId + 1 } } ∧ t.dev = s.dev ∧ t.peers = s.peers ∧
      (∀ p, (p < m.base ∨ m.base + m.len ≤ p ∨ (p - m.base) / 64 ∈ m.filled) → t.car.spad.read p = s.car.spad.read p) ∧
      u.num = m.num ∧ u.flag = f ∧ u.ws = m.ws ∧
      u.bytes = (m.dirty.filter (fun p => m.filled.contains (p / 64))).map (fun p => (p, s.car.spad.read (m.base + p))))

/-- The slots of range operations and stash mappings (R248 to R250). -/
def Obligations.RangeAndStashSlots : Prop := Sys2Proof.Claims.RangeOperationsStart ∧ Sys2Proof.Claims.StashMappingsStartAndEnd

/-! The Y slots (spec 09 R255 to R266). -/

/-- A write that the bundles to come see after its delay joins those that stand (R93). -/
def Sys2Proof.Claims.joins (s : State) (l : Late) : State := s.mapCar (fun c => { c with late := c.late ++ [⟨0, l⟩] })

/-- The fields of FMT that YFMT selects: selector, lowest bit, width (R31, R83). -/
def Sys2Proof.Claims.fmtFields : List (Nat × Nat × Nat) :=
  [(0, 0, 4), (1, 4, 4), (2, 8, 2), (3, 10, 1), (4, 11, 3), (5, 14, 4), (6, 18, 2)]

/-- YFMT replaces one field of the FMT most recently written and YFMTS all of it; a selector or an immediate without a meaning raises
ILLEGAL_INSN. The latches and waybills change in the bytes and words that the slot names; YSTW stores the waybill and YLDW reads
64 bytes of the scratchpad (R256, R257). -/
def Sys2Proof.Claims.FormatLatchAndWaybillWrites : Prop :=
  ∀ (te : Bool) (field g w word : Ix16) (imm : Byte) (a b : SReg) (s : State),
    exec (.ynop te) s = .next s ∧
    (∀ e ∈ fmtFields, field.val = e.1 → imm.toNat < 2 ^ e.2.2 → ∃ x : BitVec 20,
      exec (.yfmt te field imm) s = .next (s.mapCar (fun c => c.lateFmt x)) ∧
      ∀ j < 20, x.getLsbD j = if e.2.1 ≤ j ∧ j < e.2.1 + e.2.2 then imm.getLsbD (j - e.2.1) else s.src.fmtLatest.getLsbD j) ∧
    ((∀ e ∈ fmtFields, field.val = e.1 → 2 ^ e.2.2 ≤ imm.toNat) →
      exec (.yfmt te field imm) s = .next (s.preciseTrap (s.here .illegalInsn))) ∧
    (s.Readable [.s a, .s b] →
      exec (.yfmts te a) s = .next (s.mapCar (fun c => c.lateFmt ((s.rS a).setWidth 20))) ∧
      (∃ x, exec (.yscls te a b) s = .next (joins s (.latches (BitVec.allOnes 16) x)) ∧
        ∀ n : Fin 16, x[n] = byteAt (if n.val < 8 then s.rS a else s.rS b) (n.val % 8)) ∧
      (word.val < 8 → exec (.ywb te w word b) s = .next (joins s (.waybill w (1#8 <<< word.val) (Vector.replicate 8 (s.rS b))))) ∧
      (8 ≤ word.val → exec (.ywb te w word b) s = .next (s.preciseTrap (s.here .illegalInsn)))) ∧
    exec (.yscl te g imm) s = .next (joins s (.latches (1#16 <<< g.val) (Vector.replicate 16 imm))) ∧
    (s.Issues (.yldw te w a) → ∃ t x, exec (.yldw te w a) s = .next t ∧ t.car.late = s.car.late ++ [⟨0, .waybill w (BitVec.allOnes 8) x⟩] ∧
      t.car.regs = s.car.regs ∧ t.car.ctl = s.car.ctl ∧ SameButEvicted s t ∧ t.peers = s.peers ∧
      (s.car.eng.stash = [] → t = joins s (.waybill w (BitVec.allOnes 8) x)) ∧
      (∀ n : Fin 8, x[n] = BitVec.ofNat 64 (natLE (((s.fetchBytes (.spad (haByte (s.rS a))) 64).bytes.drop (8 * n.val)).take 8))) ∧
      (s.src.eng.stash = [] → ∀ n : Fin 8, x[n] = ownWord s.src ((s.rS a).toNat % 2 ^ 19 + 8 * n.val))) ∧
    (s.Issues (.ystw te w a) → ∃ t, exec (.ystw te w a) s = .next t ∧ SameRegs s t ∧ t.peers = s.peers ∧
      (s.car.eng.stash = [] → t.dev = s.dev ∧
      ∀ p, own t.car p = if (s.rS a).toNat % 2 ^ 19 ≤ p ∧ p < (s.rS a).toNat % 2 ^ 19 + 64
        then byteAt ((s.waybill w).toList.getD ((p - (s.rS a).toNat % 2 ^ 19) / 8) 0#64) ((p - (s.rS a).toNat % 2 ^ 19) % 8)
        else own s.car p))

/-- A write of FMT, of a latch or of a waybill is seen 4, 6 and 3 steps after its bundle: the issue of a bundle counts one step for
each write that stands, lands those that are due, oldest first, and leaves the others (R93, R94). -/
def Sys2Proof.Claims.DelayedWritesLandInOrder : Prop :=
  ∀ (c : Car),
    (∀ l : Late, l.delay = match l with
      | .fmt _ => 4
      | .latches _ _ => 6
      | .waybill _ _ _ => 3) ∧
    c.ageLate.late = (c.late.map (fun l => { l with age := l.age + 1 })).filter (fun l => decide (l.age < l.what.delay)) ∧
    c.ageLate.regs.fmt = ((c.late.filterMap (fun l => match l.what with
      | .fmt x => if l.what.delay ≤ l.age + 1 then some x else none
      | _ => none)).getLast?).getD c.regs.fmt ∧
    (∀ n : Fin 16, c.ageLate.regs.e[n] = ((c.late.filterMap (fun l => match l.what with
      | .latches m x => if l.what.delay ≤ l.age + 1 ∧ m.getLsbD n.val = true then some x[n] else none
      | _ => none)).getLast?).getD c.regs.e[n]) ∧
    (∀ (w : Fin 16) (n : Fin 8), (c.ageLate.regs.w[w])[n] = ((c.late.filterMap (fun l => match l.what with
      | .waybill v m x => if l.what.delay ≤ l.age + 1 ∧ v = w ∧ m.getLsbD n.val = true then some x[n] else none
      | _ => none)).getLast?).getD (c.regs.w[w])[n]) ∧
    c.ageLate.regs.s = c.regs.s ∧ c.ageLate.regs.f = c.regs.f ∧ c.ageLate.pc = c.pc ∧ c.ageLate.spad = c.spad

/-- FMT, the latches and the waybills change some steps after their slot (R93, R94, R256, R257). -/
def Obligations.LateWrites : Prop := Sys2Proof.Claims.FormatLatchAndWaybillWrites ∧ Sys2Proof.Claims.DelayedWritesLandInOrder

/-- YWAIT takes its count at once when the flag has it, and else holds the next bundle; YPOST and YPOSTC send n to the own car's flag
or to another's, and raise ILLEGAL_INSN for a car that the consist has not; YBAR sends the arrival and waits; YFLR reads a flag,
YFLW writes one in handler mode and raises PRIV in user mode; YBNK sets the banks (R28, R256, R258 to R260, R266). -/
def Sys2Proof.Claims.FlagAndBarrierSlots : Prop :=
  ∀ (te : Bool) (f : FlagIx) (n : BitVec 16) (b : Fin 8) (d a : SReg) (car : BitVec 9) (ba bb : BitVec 4) (s : State),
    let sent := fun (x : Sent) => s.mapCar (fun c => { c with
      eng := { c.eng with releases := c.eng.releases ++ [⟨x, s.src.eng.nextId, s.srcDev.fab.nextId, s.now⟩] } })
    (n.toNat ≤ s.car.regs.f[f].toNat → exec (.ywait te f n) s = .next (s.mapCar (fun c => { c with
      regs := { c.regs with f := c.regs.f.set f.val (c.regs.f[f] - n) f.isLt }
      took := some (f, n) }))) ∧
    (s.car.regs.f[f].toNat < n.toNat →
      exec (.ywait te f n) s = .next (s.mapCar (fun c => { c with wait := c.wait ++ [.ywait f n s.now] }))) ∧
    exec (.ypost te f n) s = .next (sent (.flag s.src.ident.carId f n.toNat)) ∧
    (car.toNat < s.src.ident.ncars.toNat → exec (.ypostc te car f n) s = .next (sent (.flag car f n.toNat))) ∧
    (s.src.ident.ncars.toNat ≤ car.toNat → exec (.ypostc te car f n) s = .next (s.preciseTrap (s.here .illegalInsn))) ∧
    exec (.ybar te b) s = .next ((sent (.arrival b)).mapCar (fun c => { c with wait := c.wait ++ [.ybar b s.now] })) ∧
    (s.Room [.s d] → exec (.yflr te d f) s = .next (s.wS d (s.src.regs.f[f].setWidth 64))) ∧
    (s.src.tr.handler = false → exec (.yflw te f a) s = .next (s.preciseTrap (s.here .priv))) ∧
    (s.src.tr.handler = true → s.Readable [.s a] → exec (.yflw te f a) s = .next (s.mapCar (fun c => { c with
      regs := { c.regs with f := c.regs.f.set f.val ((s.rS a).setWidth 16) f.isLt } }))) ∧
    exec (.ybnk te ba bb) s = .next (s.mapCar (fun c => { c with ctl := { c.ctl with vbank := bb ++ ba } }))

/-- YLOOP sets the loop engine for the bundles up to LEND with the count in sa, or keeps count and index on a resumed pass; a count of 0
leaves for the bundle after LEND unless a branch is taken, and a LEND before the next bundle raises ILLEGAL_INSN. YPARK stands still
at a declared park point with a request pending; anywhere else it raises ILLEGAL_INSN. YPRI lowers the class of every car of the
consist, never above that of its record (R261, R264, R265). -/
def Sys2Proof.Claims.LoopParkAndPrioritySlots : Prop :=
  ∀ (te : Bool) (a : SReg) (lend : BitVec 15) (pro epi : BitVec 14) (k : BitVec 2) (s : State),
    let pc := s.src.pc
    let last := pc + BitVec.ofNat 17 (4 * lend.toNat)
    let first := pc.toNat + 4 * s.src.imem.slotsFrom pc.toNat 8
    let parks := match s.consistOf s.src with
      | some x => x.image.parks.any (fun p => p.1 == pc)
      | none => false
    let own := match s.serviceOf s.car with
      | some v => recPri v.record
      | none => 0#2
    let new := if k.toNat < own.toNat then own else k
    (s.Readable [.s a] → last.toNat < first → exec (.yloop te a lend pro epi) s = .next (s.preciseTrap (s.here .illegalInsn))) ∧
    (s.Readable [.s a] → first ≤ last.toNat → ∃ t, exec (.yloop te a lend pro epi) s = .next t ∧
      t = s.mapCar (fun c => { c with loop := t.car.loop, pc := t.car.pc, seqPc := t.car.seqPc, taken := true }) ∧
      t.car.loop.start.toNat = first ∧ t.car.loop.lend = last ∧ t.car.loop.resumed = false ∧
      t.car.loop.lpro = pc + (pro.signExtend 17 <<< 2) ∧ t.car.loop.lepi = pc + (epi.signExtend 17 <<< 2) ∧
      (s.src.loop.resumed = false → t.car.loop.cnt = (s.rS a).setWidth 32 ∧ t.car.loop.idx = 0#32) ∧
      (s.src.loop.resumed = true → t.car.loop.cnt = s.src.loop.cnt ∧ t.car.loop.idx = s.src.loop.idx) ∧
      t.car.pc = (if t.car.loop.cnt = 0#32 ∧ s.car.taken = false then s.car.after last else s.car.pc)) ∧
    (parks = false → exec (.ypark te) s = .next (s.preciseTrap (s.here .illegalInsn))) ∧
    (parks = true → exec (.ypark te) s = .next (if s.src.preempt.isSome ∧ s.src.tr.handler = false
      then s.mapCar (fun c => { c with wait := c.wait ++ [.park] }) else s)) ∧
    (s.car.life ≠ .idle → ∃ t, exec (.ypri te k) s = .next t ∧ t.car.ctl = { s.car.ctl with pri := new } ∧ SameBytes s t ∧
      t.car.pc = s.car.pc ∧ t.car.loop = s.car.loop ∧ t.cars.map Car.ref = s.cars.map Car.ref ∧ t.cars.map Car.spad = s.cars.map Car.spad ∧
      t.cars.map (fun c => (c.regs.f, c.regs.v, c.regs.k, c.regs.h, c.regs.w, c.pc)) =
        s.cars.map (fun c => (c.regs.f, c.regs.v, c.regs.k, c.regs.h, c.regs.w, c.pc)) ∧
      (s.consistOf s.car = none → t = s.mapCar (fun c => { c with ctl := { c.ctl with pri := new } })) ∧
      ∀ x, s.consistOf s.car = some x →
        (x.secondary = false ∨ x.spec = true → t.car.regs = s.car.regs ∧ t.cars = s.cars.map (fun c =>
          if x.holds c then { c with ctl := { c.ctl with pri := new } } else c)) ∧
        (∀ c ∈ t.cars, x.holds c = true → c.ctl.pri = new) ∧ ∀ y ∈ t.dev.sig.consists, y.same x = true → y.pri = new)

/-- The Y slots of flags, barriers, loops, parking and priority (R256 to R266). -/
def Obligations.FlagLoopAndParkSlots : Prop := Sys2Proof.Claims.FlagAndBarrierSlots ∧ Sys2Proof.Claims.LoopParkAndPrioritySlots

/-! What happens at a car between its bundles (spec 04, 06, 09, 11, 12). The events are told at the car in focus;
`CarEventsActAtTheNamedCar` says that they act so at any other. -/

/-- The state with the `i`th peer in focus and the focused car in its place. -/
def Sys2Proof.Claims.swapped (s : State) (i : Nat) : State := { s with
  car := s.peers.getD i s.car
  peers := s.peers.set i s.car }

/-- An event that names a car acts on it as if it stood in focus, and the focus comes back; a name that no car has changes nothing. -/
def Obligations.CarEventsActAtTheNamedCar : Prop :=
  ∀ (r : CarRef) (n : Nat) (err : Bool) (ha : Word) (f : FlagIx) (b : Fin 8) (ns : List (BitVec 16)) (g : Ix16) (x : List Byte)
    (ps : List (Nat × List Word)) (s : State), s.car.ref ≠ r →
    ∀ i ∈ [Instr.takeTrap r, .fillDestination r n err, .delayedWriteLands r, .storeErrorResponse r ha, .postedWriteArrival r n,
           .flagPost r f ns, .waitSatisfied r, .barrierRelease r b, .watchdogExpiry r, .xltWalkEnd r, .copyComplete r n,
           .copyFaultDetected r n n ha, .reportReadable r, .windowVoid r g, .calibrationStart r, .calibrationComplete r,
           .calPeriodicDue r, .calStale r, .calForced r, .haltTaken r, .stashFill r n, .stashWriteback r n, .stashForeignWrite r n x,
           .wadrReread r, .wadrTimeout r, .rangeOpComplete r n, .cunmComplete r n, .lossyBlockArrival r n n, .endMarkerArrival r n,
           .lossyClose r n, .completionNotice r n, .crdxBlockClose r n n ps, .collectiveDeadline r n],
      ((∀ c ∈ s.peers, c.ref ≠ r) → exec i s = .next s) ∧
      (∀ k t, (∀ j < k, ∀ c, s.peers[j]? = some c → c.ref ≠ r) → (∃ c, s.peers[k]? = some c ∧ c.ref = r) →
        exec i (swapped s k) = .next t → exec i s = .next (swapped t k))

/-- A pending cause is taken before the next bundle, which is the resume point; a debug halt stands there with DBG_PC, and ends a WADR;
an error response to a store is pending; an expired watchdog aborts the consist with cause 6 (R134, R287, R288, R322, R329, R336). -/
def Obligations.AsynchronousCausesAndHalts : Prop :=
  ∀ (ha : Word) (s : State),
    let r := s.car.ref
    (s.mayTrap = false → exec (.takeTrap r) s = .next s) ∧
    (∀ a rest, s.mayTrap = true → s.car.place.spec = false → s.car.tr.pending = a :: rest → ∃ t, exec (.takeTrap r) s = .next t ∧
      InHandler t s.car.endWadr s.car.lastIssue s.now (a.trap s.car.pc) s.car.pc s.car.tr.lastPc ∧ t.car.tr.pending = rest ∧ t.dev = s.dev ∧
      t.car.spad = s.car.spad ∧ t.peers = s.peers) ∧
    (s.mayHalt = false → exec (.haltTaken r) s = .next s) ∧
    (s.mayHalt = true → s.car.place.spec = false → ∃ t, exec (.haltTaken r) s = .next t ∧ (t.debugOf t.car).halted = true ∧
      (t.debugOf t.car).pc = s.car.pc ∧ t.car.pc = s.car.pc ∧ t.car.spad = s.car.spad ∧ t.dev.mem = s.dev.mem ∧
      ∀ w ∈ t.car.wait, ∀ a p b since limit, w ≠ .wadr a p b since limit) ∧
    (s.car.live = false → exec (.storeErrorResponse r ha) s = .next s) ∧
    (s.car.live = true → s.car.place.spec = false → ∃ t, exec (.storeErrorResponse r ha) s = .next t ∧ SameRegs s t ∧ SameBytes s t ∧
      .uncorrectable ha ∈ t.car.tr.pending ∧ ∀ a ∈ s.car.tr.pending, a ∈ t.car.tr.pending) ∧
    (s.car.watchdog s.now = false → exec (.watchdogExpiry r) s = .next s) ∧
    (∀ x, s.car.watchdog s.now = true → s.car.place.spec = false → s.consistOf s.car = some x → ∃ t, exec (.watchdogExpiry r) s = .next t ∧
      (∀ c ∈ t.cars, x.holds c = false) ∧ (∀ y ∈ t.dev.sig.consists, y.same x = false) ∧
      ∀ v ∈ t.dev.sig.services, v.q = x.q → v.seq = x.seq → ∃ u ∈ s.dev.sig.services, u.order = v.order ∧
        v.err = some (u.err.getD (6#8, s.car.ident.carId)))

/-- A producer fills its register when its latency has run out or its data have come: the register is full, with the value of its
producer, or with zeros in what it was to read and a poison mark after an error response; nothing else changes. Delayed writes that are due land. A walk
ends with its translation in the TLB, or for a fault (R90, R93, R134, R152). -/
def Obligations.ProducersLand : Prop :=
  ∀ (n : Nat) (err : Bool) (f : Flight) (s : State),
    let r := s.car.ref
    let bad := f.due.isNone && err
    (s.car.flight.find? (fun g => g.id == n) = some f →
      ((∃ d, f.due = some d ∧ s.now < d) ∨ (f.due = none ∧ s.owed f = true) → exec (.fillDestination r n err) s = .next s) ∧
      ((∃ d, f.due = some d ∧ d ≤ s.now) ∨ (f.due = none ∧ s.owed f = false) → ∃ t, exec (.fillDestination r n err) s = .next t ∧
        t.dev = s.dev ∧ t.peers = s.peers ∧ t.car.spad = s.car.spad ∧ t.car.pc = s.car.pc ∧ t.car.ctl = s.car.ctl ∧
        (∀ g ∈ t.car.flight, g.id ≠ n) ∧
        (match f.dest with
         | .s p x => ∀ h : p < 72, t.car.regs.s[p] = (if bad then 0#64 else x) ∧ t.car.marks.emptyS.getLsbD p = false ∧
             t.car.marks.poisonS.getLsbD p = (f.poison || bad) ∧ ∀ q (k : q < 72), q ≠ p → t.car.regs.s[q] = s.car.regs.s[q]
         | .v p x => t.car.rV p = (if bad then f.onError.getD 0#32768 else x) ∧ (p < 1024 → t.car.marks.emptyV.getLsbD p = false ∧
             t.car.marks.poisonV.getLsbD p = (f.poison || bad)) ∧ t.car.regs.s = s.car.regs.s ∧
             ∀ q, q ≠ p → t.car.rV q = s.car.rV q
         | .k p x => ∀ h : p < 16, p ≠ 0 → t.car.regs.k[p] = (if bad then 0#4096 else x) ∧ t.car.marks.emptyK.getLsbD p = false ∧
             t.car.marks.poisonK.getLsbD p = (f.poison || bad) ∧ t.car.regs.s = s.car.regs.s))) ∧
    (∃ t, exec (.delayedWriteLands r) s = .next t ∧ t.car.late = s.car.late.filter (fun l => decide (l.age < l.what.delay)) ∧
      t.car.regs.s = s.car.regs.s ∧ t.car.ctl = s.car.ctl ∧ t.dev = s.dev ∧ t.peers = s.peers) ∧
    (∀ va since, s.car.eng.walk = .running va since → ∃ t, exec (.xltWalkEnd r) s = .next t ∧ t.car.regs = s.car.regs ∧
      t.dev.mem = s.dev.mem ∧
      (∀ w, s.dev.walk va.toNat = some w → t.car.eng.walk = .none ∧ ∃ e ∈ t.car.eng.tlb, e.page = w.page ∧ e.size = w.size ∧ e.leaf = w.leaf) ∧
      (s.dev.walk va.toNat = none → t.car.eng.walk = .faulted va ∧ t.car.eng.tlb = s.car.eng.tlb))

/-- The posts that reach a flag in one cycle are one sum, which saturates at 65,535 and then sets the flag's FLAGOVF bit; a wait that is
over takes its count and lets the next bundle be attempted from the next cycle; a barrier at which every car stands is released; a
posted write that has been sent is in the scratchpad of the core it names, once the earlier ones of its block are and the latency of its
circuit, if it rides one, is over, unless the car it was meant for has gone; WADR ends with 0 or 1 (R26 to R28, R157, R258, R260, R309, R310). -/
def Obligations.FlagsWaitsAndArrivals : Prop :=
  ∀ (f : FlagIx) (ns : List (BitVec 16)) (b : Fin 8) (n : Nat) (s : State),
    let r := s.car.ref
    let sum := s.car.regs.f[f].toNat + (ns.map (fun x => x.toNat)).sum
    (s.car.life ∈ [Life.finished, .idle] → exec (.flagPost r f ns) s = .next s) ∧
    (s.car.life ∉ [Life.finished, .idle] → ∃ t, exec (.flagPost r f ns) s = .next t ∧ t.dev = s.dev ∧ t.car.regs.s = s.car.regs.s ∧
      t.car.regs.f[f].toNat = min 65535 sum ∧ (∀ g : FlagIx, g ≠ f → t.car.regs.f[g] = s.car.regs.f[g]) ∧
      (∀ g : FlagIx, t.car.ctl.flagovf.getLsbD g.val = (s.car.ctl.flagovf.getLsbD g.val || (g == f && decide (65535 < sum))))) ∧
    (s.car.wait.any s.waitOver = false → exec (.waitSatisfied r) s = .next s) ∧
    (∀ w, s.car.wait = [w] → s.waitOver w = true → ∃ t, exec (.waitSatisfied r) s = .next t ∧ t.car.wait = [] ∧
      t.car.ready = max s.car.ready (s.now + 1) ∧ t.dev = s.dev ∧ t.car.regs.s = s.car.regs.s ∧
      (∀ g k since, w = .ywait g k since → t.car.regs.f[g] = s.car.regs.f[g] - k ∧ ∀ h : FlagIx, h ≠ g → t.car.regs.f[h] = s.car.regs.f[h])) ∧
    (∀ x, s.consistOf s.car = some x →
      (s.barrierFull x b = false → exec (.barrierRelease r b) s = .next s) ∧
      (s.barrierFull x b = true → ∃ t, exec (.barrierRelease r b) s = .next t ∧ t.dev.mem = s.dev.mem ∧ t.car.regs = s.car.regs ∧
        (∀ y ∈ t.dev.sig.consists, y.same x = true → y.arrived[b] = []) ∧
        ∀ c ∈ t.cars, x.holds c = true → c.ident.carId.toNat ∈ x.arrived[b] → ∀ w ∈ c.wait, ∀ since, w ≠ .ybar b since)) ∧
    (∀ p, s.car.eng.posted.find? (fun q => q.id == n) = some p →
      (s.mayArrive p = false → exec (.postedWriteArrival r n) s = .next s) ∧
      (s.mayArrive p = true → p.sent = true ∧ s.car.inOrder p = true) ∧
      (p.sent = true → s.car.inOrder p = true → s.postedCircuit p = none → s.mayArrive p = true) ∧
      (∀ x, s.mayArrive p = true → s.peerCar s.car p.core = some x → s.stillThere p x = true → ∃ t, exec (.postedWriteArrival r n) s = .next t ∧ t.dev = s.dev ∧
        (∀ q ∈ t.car.eng.posted, q.id ≠ n) ∧ t.car.regs = s.car.regs ∧
        t.cars.map Car.spad = s.cars.map (fun c => if c.ref = x.ref then c.spad.writeAll p.bytes else c.spad)) ∧
      (s.mayArrive p = true → (∀ x, s.peerCar s.car p.core = some x → s.stillThere p x = false) → ∃ t, exec (.postedWriteArrival r n) s = .next t ∧ t.dev = s.dev ∧
        (∀ q ∈ t.car.eng.posted, q.id ≠ n) ∧ t.cars.map Car.spad = s.cars.map Car.spad)) ∧
    (∀ a p since limit x, p ≠ 0 → (h : p < 72) → s.car.wait = [.wadr a p x since limit] →
      (s.wadrWord a ≠ x → ∃ t, exec (.wadrReread r) s = .next t ∧ t.car.wait = [] ∧ t.car.regs.s[p] = 0#64 ∧
        t.car.marks.emptyS.getLsbD p = false ∧ t.dev = s.dev) ∧
      (s.wadrWord a = x → exec (.wadrReread r) s = .next s) ∧
      (∀ d, limit = some d → d ≤ s.now → ∃ t, exec (.wadrTimeout r) s = .next t ∧ t.car.wait = [] ∧ t.car.regs.s[p] = 1#64 ∧
        t.car.marks.emptyS.getLsbD p = false ∧ t.dev = s.dev) ∧
      (∀ d, limit = some d → s.now < d → exec (.wadrTimeout r) s = .next s))

/-- A copy between places of the own scratchpad ends with its destination holding what the source held at issue, its flag posted once and
its number free; an empty one moves nothing; a copy that meets a fault keeps its number, posts nothing and has COPY_FAULT pending (R236 to R240, R292). -/
def Obligations.CopiesEndOrFault : Prop :=
  ∀ (n i : Nat) (va : Word) (k : Copy) (s : State), s.car.copyOf n = some k → k.op = .ccpy →
    let r := s.car.ref
    let src := fun (m : Nat) => haByte (k.ws.elem m)
    let dst := fun (m : Nat) => haByte (k.wd.elem m)
    let z := k.wd.esz
    (s.copyMayEnd k = false → s.car.life ≠ .idle → exec (.copyComplete r n) s = .next s) ∧
    (s.copyMayEnd k = true → k.void = true → s.car.life ≠ .idle → ∃ t, exec (.copyComplete r n) s = .next t ∧ t.car.copyOf n = none ∧
      t.car.regs = (s.car.post k.flag 1).regs ∧ t.car.spad = s.car.spad ∧ t.dev.mem = s.dev.mem) ∧
    (s.copyMayEnd k = true → k.void = false → s.car.life ≠ .idle → s.car.eng.stash = [] → k.stash = [] → k.ws.sp = true → k.wd.sp = true → k.ws.esz = z →
      k.ws.count = k.wd.count → k.iter = 0 → k.lossy = false → (∀ m < k.wd.count, haWindow (k.wd.elem m) = 0) →
      (∀ m < k.wd.count, ∀ j < k.wd.count, m ≠ j → dst m + z ≤ dst j ∨ dst j + z ≤ dst m) →
      ∃ t, exec (.copyComplete r n) s = .next t ∧ t.car.copyOf n = none ∧ t.car.regs = (s.car.post k.flag 1).regs ∧ t.dev.mem = s.dev.mem ∧
        (∀ m < k.wd.count, ∀ j < z, t.car.spad.read (dst m + j) = k.spad.read (src m + j)) ∧
        (∀ a, (∀ m < k.wd.count, a < dst m ∨ dst m + z ≤ a) → t.car.spad.read a = s.car.spad.read a)) ∧
    (k.state = .running → k.void = false → s.enginesPaused = false → ∃ t row a, exec (.copyFaultDetected r n i va) s = .next t ∧ t.car.regs = s.car.regs ∧
      t.car.ctl = s.car.ctl ∧ (t.car.copyOf n).map Copy.state = some (.faulted row a) ∧
      .copyFault (BitVec.ofNat 6 n) a ∈ t.car.tr.pending) ∧
    (k.state ≠ .running ∨ k.void = true → exec (.copyFaultDetected r n i va) s = .next s)

/-- A range operation posts its flag once when it ends; after CWBR the die's cache holds no dirty byte of the range and the home holds
what was dirty, after CINV and CWBI it holds none of its lines; it does not start while a store of its car is on its way to the cache or an
acquire has not performed. An unmapping ends with its flag. A fill gives a granule its tile's bytes; a write-back leaves no dirty byte of
the granule; an address that the engine does not reach raises COPY_FAULT in their place; a foreign write to a tile is in HBM (R248, R250,
R296, R303, R306 to R308, R318). -/
def Obligations.RangesAndStashesComplete : Prop :=
  ∀ (n addr : Nat) (bytes : List Byte) (s : State), s.dev.fab.fwd = [] →
    let r := s.car.ref
    let die := dieOf s.car.ident.coreId
    let faulted := fun (t : State) (num va : Nat) => t.car.regs = s.car.regs ∧ t.dev.mem = s.dev.mem ∧
      .copyFault (BitVec.ofNat 6 num) (BitVec.ofNat 64 va) ∈ t.car.tr.pending
    (∀ x, s.car.eng.ranges.find? (fun y => y.id == n) = some x → s.enginesPaused = true ∨ s.rangeHeld x = true →
      exec (.rangeOpComplete r n) s = .next s) ∧
    (s.enginesPaused = false → ∀ x, s.car.eng.ranges.find? (fun y => y.id == n) = some x → s.rangeHeld x = false →
      ((s.dev.cache.map (fun l => (l.die, l.line))).Nodup) →
      ∃ t, exec (.rangeOpComplete r n) s = .next t ∧ t.car.regs = (s.car.post x.flag 1).regs ∧ t.car.spad = s.car.spad ∧
        (∀ y ∈ t.car.eng.ranges, y.id ≠ n) ∧
        (∀ l ∈ t.dev.cache, l.die = die → x.lo ≤ l.line → l.line < x.hi → x.kind = .wb ∧ l.dirty = 0#64) ∧
        (x.kind ≠ .inv → ∀ l ∈ s.dev.cache, l.die = die → x.lo ≤ l.line → l.line < x.hi → ∀ j : Fin 64, l.dirty.getLsbD j.val = true →
          t.dev.mem.read (l.line * 64 + j.val) = l.bytes[j]) ∧
        (x.kind = .inv → t.dev.mem = s.dev.mem)) ∧
    (∀ u, s.car.eng.unmaps.find? (fun y => y.num == n) = some u →
      let m : Stash := { num := u.num, base := 0, len := u.ws.stashLen, ws := u.ws }
      let bad := s.dev.tileFault m false true (u.bytes.map (fun b => b.1))
      (s.enginesPaused = true ∨ u.faulted = true → exec (.cunmComplete r n) s = .next s) ∧
      (s.enginesPaused = false → u.faulted = false → bad = none → ∃ t, exec (.cunmComplete r n) s = .next t ∧
        t.car.regs = (s.car.post u.flag 1).regs ∧ (∀ y ∈ t.car.eng.unmaps, y.num ≠ n) ∧ (u.bytes = [] → t.dev = s.dev)) ∧
      (∀ va, s.enginesPaused = false → u.faulted = false → bad = some va → ∃ t, exec (.cunmComplete r n) s = .next t ∧ faulted t n va ∧
        { u with faulted := true } ∈ t.car.eng.unmaps)) ∧
    (s.car.stashOf addr = none → exec (.stashFill r addr) s = .next s ∧ exec (.stashWriteback r addr) s = .next s ∧
      exec (.stashForeignWrite r addr bytes) s = .next s) ∧
    (∀ m, s.car.stashOf addr = some m →
      let g := (addr - m.base) / 64
      let unread := s.dev.tileFault m true false ((List.range 64).map (fun i => g * 64 + i))
      let unwritten := s.dev.tileFault m false true (m.dirty.filter (fun p => p / 64 == g))
      let filled := fun (t : State) => (∃ y ∈ t.car.eng.stash, y.num = m.num ∧ g ∈ y.filled) ∧
        ∀ a, a < m.base + g * 64 ∨ m.base + g * 64 + 64 ≤ a → t.car.spad.read a = s.car.spad.read a
      (g ∈ m.filled → exec (.stashFill r addr) s = .next s) ∧
      (s.enginesPaused = true → exec (.stashFill r addr) s = .next s) ∧
      (g ∉ m.filled → s.enginesPaused = false → unread = none → ∃ t, exec (.stashFill r addr) s = .next t ∧ t.peers = s.peers ∧
        t.car.regs = s.car.regs ∧ filled t ∧
        ∀ j < 64, t.car.spad.read (m.base + g * 64 + j) = s.dev.spadByte s.car (m.base + g * 64 + j)) ∧
      (∀ va, g ∉ m.filled → s.enginesPaused = false → unread = some va → ∃ t, exec (.stashFill r addr) s = .next t ∧ faulted t m.num va ∧ filled t) ∧
      (unwritten = none → ∃ t, exec (.stashWriteback r addr) s = .next t ∧ t.car.regs = s.car.regs ∧ t.car.spad = s.car.spad ∧
        ∀ y ∈ t.car.eng.stash, y.num = m.num → ∀ p ∈ y.dirty, p / 64 ≠ g) ∧
      (∀ va, unwritten = some va → ∃ t, exec (.stashWriteback r addr) s = .next t ∧ faulted t m.num va ∧ t.car.eng.stash = s.car.eng.stash) ∧
      (∀ pa, s.dev.stashTarget m (addr - m.base) = some (.hbm pa false) → pa + bytes.length ≤ Config.hbmSize →
        ∃ t, exec (.stashForeignWrite r addr bytes) s = .next t ∧ t.car.regs = s.car.regs ∧
          ∀ (j : Nat) (h : j < bytes.length), t.dev.mem.read (pa + j) = bytes[j]))

/-! Arrays, lines, lasers (spec 05, 08, 19). -/

/-- A report is readable once its 16 cycles are over; a window whose hold has run out is void; a calibration starts when it is asked for
and no window is open, and its end sets the age to 0 and clears SKEW; at 1, STALEX and FORCEX periods of age one is due, SKEW is set,
and one is forced. Each changes the array of its car and nothing else, and nothing before its time (R115, R119, R225, R438 to R440). -/
def Obligations.CalibrationAndWindowEvents : Prop :=
  ∀ (g : Ix16) (s : State),
    let r := s.car.ref
    let a := s.car.arr
    let age := fun (k : Nat) => decide (a.cal.zero + k * s.dev.house.calper * 2000000 ≤ s.now)
    let gives := fun (i : Instr) (b : Arr) => exec i s = .next (s.mapCar (fun c => { c with arr := b }))
    gives (.reportReadable r) { a with queue := a.queue.map (fun q => if q.ready ≤ s.now then { q with ready := 0 } else q) } ∧
    (∃ b, gives (.windowVoid r g) b ∧ (∀ h : Fin 16, h ≠ g → b.groups[h] = a.groups[h]) ∧
      b.groups[g].win = a.groups[g].win.map (fun w => { w with void := w.void || decide (w.last + Config.holdCycles < s.now) })) ∧
    ((a.cal.requested = true ∨ a.cal.forced = true) → a.cal.ends = none → (∀ h : Fin 16, a.groups[h].win = none) →
      gives (.calibrationStart r) { a with cal := { a.cal with ends := some (s.now + Config.calCycles) } }) ∧
    ((∃ h : Fin 16, a.groups[h].win ≠ none) ∨ (a.cal.requested = false ∧ a.cal.forced = false) →
      exec (.calibrationStart r) s = .next s) ∧
    (∀ t, a.cal.ends = some t → t ≤ s.now → ∃ b, gives (.calibrationComplete r) b ∧ b.cal.zero = s.now ∧ b.cal.skew = false ∧
      b.cal.requested = false ∧ b.cal.forced = false ∧ b.cal.ends = none ∧ b.groups = a.groups ∧ b.queue = a.queue) ∧
    (age 1 = true → a.cal.periodic = none → gives (.calPeriodicDue r) { a with cal := { a.cal with periodic := some 0 } }) ∧
    (age s.dev.house.stalex = true → gives (.calStale r) { a with cal := { a.cal with skew := true } }) ∧
    (age s.dev.house.forcex = true → gives (.calForced r) { a with cal := { a.cal with forced := true } }) ∧
    (age 1 = false → exec (.calPeriodicDue r) s = .next s) ∧ (age s.dev.house.stalex = false → exec (.calStale r) s = .next s) ∧
    (age s.dev.house.forcex = false → exec (.calForced r) s = .next s)

/-- A weak row is pending, or failed when the line has no spare; the lowest pending row starts to move to a free spare when no array has a
window open on the line; at the end of the pause the line counts the remap and its arrays report REMAP (R117, R441, R442). -/
def Sys2Proof.Claims.RowRemaps : Prop :=
  ∀ (l : Ix16) (row : Fin 32) (s : State),
    let x := s.dev.lines[l]
    let lineOf := fun (t : State) => t.dev.lines[l]
    (s.dev.rowWeak l row.val = false → exec (.remapPending l row) s = .next s) ∧
    (s.dev.rowWeak l row.val = true → ∃ t, exec (.remapPending l row) s = .next t ∧ t.car = s.car ∧ t.peers = s.peers ∧
      (x.spares = 0 → row.val ∈ (lineOf t).failed ∧ (lineOf t).pend = x.pend) ∧ (x.spares ≠ 0 → row.val ∈ (lineOf t).pend ∧ (lineOf t).failed = x.failed) ∧
      ∀ k : Ix16, k ≠ l → t.dev.lines[k] = s.dev.lines[k]) ∧
    (x.running = none → s.lineOpen l = false → ∀ p rest, x.pend = p :: rest → p < 32 → ∃ t, exec (.remapStart l) s = .next t ∧ t.car = s.car ∧
      t.peers = s.peers ∧ (∀ k : Ix16, k ≠ l → t.dev.lines[k] = s.dev.lines[k]) ∧ p ∉ (lineOf t).pend ∧
      (x.sp0 = 0x3F#6 → (lineOf t).sp0.toNat = p ∧ (lineOf t).running = some (p, s.now + Config.remapCycles)) ∧
      (x.sp0 ≠ 0x3F#6 → x.sp1 = 0x3F#6 → (lineOf t).sp1.toNat = p ∧ (lineOf t).running = some (p, s.now + Config.remapCycles)) ∧
      (x.sp0 ≠ 0x3F#6 → x.sp1 ≠ 0x3F#6 → p ∈ (lineOf t).failed ∧ (lineOf t).running = none)) ∧
    (s.lineOpen l = true ∨ x.pend = [] ∨ x.running ≠ none → exec (.remapStart l) s = .next s) ∧
    (∀ p e, x.running = some (p, e) →
      (s.now < e → exec (.remapEnd l) s = .next s) ∧
      (e ≤ s.now → ∃ t, exec (.remapEnd l) s = .next t ∧ (lineOf t).running = none ∧
        (lineOf t).remaps.toNat = min 65535 (x.remaps.toNat + 1) ∧ (lineOf t).sp0 = x.sp0 ∧ (lineOf t).sp1 = x.sp1 ∧
        (∀ c ∈ t.cars, c.arr.line = some l → c.arr.remap = true) ∧ t.cars.map Car.regs = s.cars.map Car.regs))

/-- A laser module takes its new readings and its estimate of the hours to end of life: none left at 1.5 times its first bias; no estimate
before 1,000 powered hours or without a rise; else the hours until it gets there at the slope of the straight line fitted to the readings of
the last 1,000 powered hours, the first of each hour. Windows that are open on a line whose laser is out of tolerance will report LASER (R443 to R445;
that one reading an hour counts is the model's: notes/assumptions/41.md). -/
def Sys2Proof.Claims.LaserReadings : Prop :=
  ∀ (m : Fin 24) (bias drift temp : BitVec 16) (power : List (BitVec 16)) (hours : BitVec 32) (bias0 : BitVec 16) (s : State), power.length = 34 →
    let old := s.dev.lasers[m]
    ∃ t, exec (.laserRefresh m bias drift temp power hours bias0) s = .next t ∧
      (let new := t.dev.lasers[m]
       let xs := new.hist
       let sum := fun (f : Nat × Nat → Int) => (xs.map f).sum
       let n : Int := xs.length
       let rise := n * sum (fun x => x.1 * x.2) - sum (fun x => x.1) * sum (fun x => x.2)
       let run := n * sum (fun x => x.1 * x.1) - sum (fun x => x.1) * sum (fun x => x.1)
       new.bias = bias ∧ new.drift = drift ∧ new.temp = temp ∧ new.power = power ∧ new.hours = hours ∧ new.ctl = old.ctl ∧ new.bias0 = bias0 ∧
       (∀ x ∈ xs, hours.toNat ≤ x.1 + 1000 ∧ (x ∈ old.hist ∨ x = (hours.toNat, bias.toNat))) ∧
       (∀ x ∈ old.hist, hours.toNat ≤ x.1 + 1000 → x ∈ xs) ∧ (∃ x ∈ xs, x.1 = hours.toNat) ∧
       (3 * bias0.toNat ≤ 2 * bias.toNat → new.eol = 0#32) ∧
       (2 * bias.toNat < 3 * bias0.toNat → hours.toNat < 1000 ∨ rise ≤ 0 → new.eol = 0xFFFFFFFF#32) ∧
       (2 * bias.toNat < 3 * bias0.toNat → 1000 ≤ hours.toNat → 0 < rise → new.eol.toNat =
         min 0xFFFFFFFE ((3 * bias0.toNat - 2 * bias.toNat) * run.toNat / (2 * rise.toNat)))) ∧
      (∀ k : Fin 24, k ≠ m → t.dev.lasers[k] = s.dev.lasers[k]) ∧
      t.cars.map Car.regs = s.cars.map Car.regs ∧ t.dev.mem = s.dev.mem ∧
      ∀ h : m.val < 16, t.dev.laserBad ⟨m.val, h⟩ = true → ∀ c ∈ t.cars, c.arr.line = some ⟨m.val, h⟩ →
        ∀ g : Fin 16, ∀ w, c.arr.groups[g].win = some w → w.laser = true

/-- Rows of an array and lasers of a line (R117, R441 to R445). -/
def Obligations.RemapsAndLasers : Prop := Sys2Proof.Claims.RowRemaps ∧ Sys2Proof.Claims.LaserReadings

/-! Links and the fabric (spec 16, 19). -/

/-- What a port event leaves alone: every car, memory, and the other ports. -/
def Sys2Proof.Claims.OnlyPort (s t : State) (p : Nat) : Prop :=
  t.car = s.car ∧ t.peers = s.peers ∧ t.dev.mem = s.dev.mem ∧ ∀ q, q ≠ p → t.dev.fab.port q = s.dev.fab.port q

/-- What a port that goes down leaves: the flits of its replay buffer stand again, in order, in the buffers of the ports that the escape
channel takes them to; a port that takes none of them is as before; no car and no byte of memory changes (R410). -/
def Sys2Proof.Claims.Escapes (s t : State) (p : Nat) : Prop :=
  t.car = s.car ∧ t.peers = s.peers ∧ t.dev.mem = s.dev.mem ∧ ∀ q, q ≠ p →
    let old := s.dev.fab.port q
    let mine := (s.dev.fab.port p).replay.filter (fun f => (t.dev.fab.egress f.pkg true).map Prod.fst == some q)
    (mine = [] → t.dev.fab.port q = old) ∧
    (∃ r n, t.dev.fab.port q = { old with
      replay := r
      txSeq := n }) ∧
    (old.replay.length + mine.length ≤ 2048 → (t.dev.fab.port q).replay.map Flit.pkg = (old.replay ++ mine).map Flit.pkg ∧
      (t.dev.fab.port q).txSeq = old.txSeq + BitVec.ofNat 12 mine.length)

/-- A lane at a threshold fails, a forced lane fails and stands in FLANE, a failed lane moves to a spare or is retired, and a port with fewer
than 16 lanes is down; LNK_CLR zeroes the counters; a retrain takes the port down for 1 ms, after which the lanes that pass are in
service (R409, R446 to R448). The flits of a port that goes down take the escape channel (R410). -/
def Sys2Proof.Claims.LaneRepair : Prop :=
  ∀ (p : Fin 128) (l : Nat) (k : BitVec 6) (pass : BitVec 34) (s : State),
    let x := s.dev.fab.port p.val
    let good := ((List.range 34).filter (fun i => pass.getLsbD i)).length
    (∃ t, exec (.laneFail p l) s = .next t ∧ OnlyPort s t p.val ∧
      t.dev.fab.port p.val = if x.laneBad s.now l = true ∧ x.retrain = none ∧ l < 34 ∧ x.failed.getLsbD l = false
        then { x with
          failed := x.failed ||| (1#34 <<< l)
          failing := x.failing ++ [l] } else x) ∧
    (∃ t, exec (.lnkForce p k) s = .next t ∧ OnlyPort s t p.val ∧ (t.dev.fab.port p.val).flane = k ∧
      (k.toNat < 32 → x.retrain = none → (t.dev.fab.port p.val).failed.getLsbD k.toNat = true) ∧
      (32 ≤ k.toNat → (t.dev.fab.port p.val).failed = x.failed)) ∧
    (∃ t, exec (.laneRemap p l) s = .next t ∧ (x.up = true → (t.dev.fab.port p.val).up = false → Escapes s t p.val) ∧
      (x.up = false ∨ (t.dev.fab.port p.val).up = true → OnlyPort s t p.val) ∧
      (l ∉ x.failing → (t.dev.fab.port p.val).active = x.active) ∧
      (l ∈ x.failing → l ∉ (t.dev.fab.port p.val).failing) ∧
      (l ∈ x.failing → l ∉ x.free → ∀ a rest, x.free = a :: rest → (t.dev.fab.port p.val).free = rest ∧
        (t.dev.fab.port p.val).active = x.active) ∧
      (l ∈ x.failing → x.free = [] → (t.dev.fab.port p.val).active = x.active - 1 ∧
        (x.active - 1 < 16 → (t.dev.fab.port p.val).down = true))) ∧
    (∃ t, exec (.lnkClr p) s = .next t ∧ OnlyPort s t p.val ∧
      ∀ e ∈ (t.dev.fab.port p.val).lanes, e.2.prefec = 0#48 ∧ e.2.corrSym = 0#48 ∧ e.2.uncorr = 0#48 ∧ e.2.replay = 0#48 ∧ e.2.remap = 0#48) ∧
    (x.retrain ≠ none → exec (.lnkRetrain p) s = .next s) ∧
    (∃ t, exec (.lnkRetrain p) s = .next t ∧ (t.dev.fab.port p.val).up = false ∧
      (x.retrain = none → Escapes s t p.val ∧ (t.dev.fab.port p.val).retrain = some (s.now + 2000000))) ∧
    (∀ e, x.retrain = some e → e ≤ s.now → ∃ t, exec (.retrainComplete p pass) s = .next t ∧ OnlyPort s t p.val ∧
      (t.dev.fab.port p.val).retrain = none ∧ (t.dev.fab.port p.val).active = min 32 good ∧
      (∀ i < 34, (t.dev.fab.port p.val).failed.getLsbD i = !pass.getLsbD i) ∧ ((t.dev.fab.port p.val).down = true ↔ good < 16)) ∧
    (∀ e, x.retrain = some e → s.now < e → ∃ t, exec (.retrainComplete p pass) s = .next t ∧ t.dev.fab.port p.val = x ∧ OnlyPort s t p.val)

/-- Flits: the one expected is delivered once and in order; a bad one, one that an uncorrectable codeword or a failed tag spoils, and one after
a gap ask for one replay from the first that is missing, and again when that one is bad in its replay, which counts for the lane that spoiled it;
a replay sends again everything from the flit asked for, and an acknowledgement takes the flits up to its own from the buffer (R406, R407, R418, R446). -/
def Sys2Proof.Claims.FlitsAreDeliveredInOrder : Prop :=
  ∀ (p : Fin 128) (seq : BitVec 12) (good : Bool) (s : State), (s.dev.fab.port p.val).up = true →
    let x := s.dev.fab.port p.val
    let now := fun (t : State) => t.dev.fab.port p.val
    let fine := good && x.spoiled.isEmpty
    let next := ∃ t, exec (.flitArrival p seq good) s = .next t ∧ OnlyPort s t p.val ∧ (now t).spoiled = x.spoiled.tail
    next ∧
    (fine = true → seq = x.rxNext → ∃ t, exec (.flitArrival p seq good) s = .next t ∧ OnlyPort s t p.val ∧ (now t).rxNext = x.rxNext + 1#12 ∧
      (now t).awaiting = false ∧ t.dev.outbox = s.dev.outbox) ∧
    (fine = true → seq ≠ x.rxNext → 2048 ≤ (seq - x.rxNext).toNat → ∃ t, exec (.flitArrival p seq good) s = .next t ∧ OnlyPort s t p.val ∧
      now t = x ∧ t.dev.outbox = s.dev.outbox) ∧
    (fine = false ∨ (seq ≠ x.rxNext ∧ (seq - x.rxNext).toNat < 2048) → ∃ t, exec (.flitArrival p seq good) s = .next t ∧
      OnlyPort s t p.val ∧ (now t).rxNext = x.rxNext ∧ (now t).awaiting = true ∧
      (let quiet := x.awaiting = true ∧ (fine = true ∨ seq ≠ x.rxNext)
       (quiet → t.dev.outbox = s.dev.outbox ∧ (now t).lanes = x.lanes) ∧
       (¬ quiet → t.dev.outbox = s.dev.outbox ++ [.replay p.val x.rxNext] ∧
         (∀ l rest, x.spoiled = l :: rest → l < 34 → (Tab.get ({} : Lane) (now t).lanes l).replay.toNat =
           min (2 ^ 48 - 1) ((Tab.get ({} : Lane) x.lanes l).replay.toNat + 1)) ∧
         (x.spoiled = [] → (now t).lanes = x.lanes)))) ∧
    (∀ a f b, x.replay = a ++ f :: b → f.seq = seq → (∀ y ∈ a, y.seq ≠ seq) →
      (∃ t, exec (.replayRequest p seq) s = .next t ∧ t.dev.fab = s.dev.fab ∧ t.car = s.car ∧ t.peers = s.peers ∧
        t.dev.outbox = s.dev.outbox ++ (f :: b).map (fun f => Output.flit p.val f.seq)) ∧
      (∃ t, exec (.flitAck p seq) s = .next t ∧ OnlyPort s t p.val ∧ (now t).replay = b ∧ t.dev.outbox = s.dev.outbox))

/-- The ports of the fabric: lanes and flits (R407, R409, R446 to R448). -/
def Obligations.PortsLanesAndFlits : Prop := Sys2Proof.Claims.LaneRepair ∧ Sys2Proof.Claims.FlitsAreDeliveredInOrder

/-- A lossy transfer: a block that comes before the close, and that the fabric has not lost, is written and noted; the first end marker, which
carries the block count, starts the clock; the close zeros the blocks that have not come once every block is there, or LSLACK µs have passed and only
blocks with an off-package hop are missing; and the end writes the mask and posts the flag once. Nothing arrives before the acquire, and no flag is posted
before the release (R236, R239, R411 to R413). Told for transfers between scratchpad places, which meet no fault. -/
def Sys2Proof.Claims.LossyTransfersClose : Prop :=
  ∀ (n b : Nat) (k : Copy) (x : Lossy) (s : State), s.car.copyOf n = some k → s.dev.lossyOf s.car.ref n = some x → k.op = .ccpy → k.lossy = true →
    k.state = .running → k.void = false → s.enginesPaused = false → k.ws.sp = true → k.wd.sp = true →
    let r := s.car.ref
    let z := k.wd.esz
    let per := 256 / z
    let src := fun (m : Nat) => haByte (k.ws.elem m)
    let dst := fun (m : Nat) => haByte (k.wd.elem m)
    let inside := s.car.eng.stash = [] ∧ ∀ m < k.wd.count, haWindow (k.wd.elem m) = 0
    let ripe := (∀ i < x.blocks, i ∈ x.arrived) ∨ ((∃ m, x.marker = some m ∧ m + k.lslack.toNat * 2000 ≤ s.now) ∧
      ∀ i < x.blocks, i ∉ x.arrived → ∃ e ∈ x.crosses, e.1 = i)
    (s.acqReady k = true → x.closed = false → b ∉ x.arrived → b ∉ x.lost → b < x.blocks → ∃ t, exec (.lossyBlockArrival r n b) s = .next t ∧
      t.car.regs = s.car.regs ∧ t.dev.lossyOf r n = some { x with arrived := x.arrived ++ [b] } ∧
      (inside → k.stash = [] → k.ws.esz = z →
        (∀ m < k.wd.count, ∀ j < k.wd.count, m ≠ j → dst m + z ≤ dst j ∨ dst j + z ≤ dst m) →
        (∀ m < k.wd.count, m / per = b → ∀ j < z, t.car.spad.read (dst m + j) = k.spad.read (src m + j)) ∧
        ∀ a, (∀ m < k.wd.count, m / per = b → a < dst m ∨ dst m + z ≤ a) → t.car.spad.read a = s.car.spad.read a)) ∧
    (s.acqReady k = false ∨ x.closed = true ∨ b ∈ x.arrived ∨ b ∈ x.lost ∨ x.blocks ≤ b → exec (.lossyBlockArrival r n b) s = .next s) ∧
    (s.acqReady k = true → x.marker = none → ∃ t, exec (.endMarkerArrival r n) s = .next t ∧ t.car = s.car ∧ t.peers = s.peers ∧ t.dev.mem = s.dev.mem ∧
      t.dev.lossyOf r n = some { x with
        marker := some s.now
        count := some x.blocks }) ∧
    (s.acqReady k = false ∨ x.marker ≠ none → exec (.endMarkerArrival r n) s = .next s) ∧
    (x.closed = false → ripe → ∃ t, exec (.lossyClose r n) s = .next t ∧ t.car.regs = s.car.regs ∧
      t.dev.lossyOf r n = some { x with closed := true } ∧
      (inside → ∀ i < x.blocks, i ∉ x.arrived → ∀ m < k.wd.count, m / per = i → ∀ j < z, t.car.spad.read (dst m + j) = 0#8)) ∧
    (x.closed = true ∨ ¬ ripe → exec (.lossyClose r n) s = .next s) ∧
    (x.closed = true → s.relReady k = true → ∃ t, exec (.completionNotice r n) s = .next t ∧
      t.car.regs = (s.car.post k.flag 1).regs ∧ t.car.copyOf n = none ∧ t.dev.lossyOf r n = none ∧
      (k.wd.auxen = true → s.car.eng.stash = [] → haWindow k.wd.aux = 0 → haByte k.wd.aux + (x.blocks + 7) / 8 ≤ 2 ^ 19 → ∀ i < x.blocks,
        (t.car.spad.read (haByte k.wd.aux + i / 8)).getLsbD (i % 8) = decide (i ∈ x.arrived))) ∧
    (x.closed = false ∨ s.relReady k = false → exec (.completionNotice r n) s = .next s)

/-- A notice of issue is kept, and what a rank of this package held back for the rank that has issued is sent to it: its source, of a gather or
broadcast, and of a reduction its elements of the blocks that the rank owns (R251, R422, R423). -/
def Sys2Proof.Claims.NoticesOfIssueRelease : Prop :=
  ∀ (g kth rank count : Nat) (lossy : Bool) (s : State), ∃ t, exec (.noticeOfIssue g kth rank count lossy) s = .next t ∧
    t.car = s.car ∧ t.peers = s.peers ∧ t.dev.mem = s.dev.mem ∧
    (∃ y ∈ t.dev.fab.colls, y.group = g ∧ y.k = kth ∧ (rank, count, lossy) ∈ y.notices) ∧
    (∀ y ∈ t.dev.fab.colls, ¬ (y.group = g ∧ y.k = kth) → y ∈ s.dev.fab.colls) ∧
    (∀ o ∈ s.dev.outbox, o ∈ t.dev.outbox) ∧
    ∀ x p, s.dev.fab.colls.find? (fun y => y.group == g && y.k == kth) = some x → p ∈ x.parts → p.car.isSome = true → p.present = true → p.ready = true →
      p.reach = none → ((s.dev.group g).pkgOf rank).isSome = true →
      (p.op ≠ .crdx → p.data ≠ [] → CollMsg.part p.rank rank 0 p.data ∉ x.sent → Output.coll g kth (.part p.rank rank 0 p.data) ∈ t.dev.outbox) ∧
      (p.op = .crdx → ∀ b, 32 * b < p.count → b % (s.dev.group g).ranks = rank →
        CollMsg.part p.rank rank b ((p.data.drop (32 * b)).take 32) ∉ x.sent →
        Output.coll g kth (.part p.rank rank b ((p.data.drop (32 * b)).take 32)) ∈ t.dev.outbox)

/-- A block of a reduction closes at its owner with the result and the count of the parts that are present, which are every rank's result and count;
a block that its owner has closed comes to another rank as it is; before that, and a second time, nothing happens (R252, R423). -/
def Sys2Proof.Claims.ReductionBlocksClose : Prop :=
  ∀ (n b : Nat) (ps : List (Nat × List Word)) (k : Copy) (x : Coll) (me : Nat) (s : State), s.car.copyOf n = some k → s.dev.collOf k = some x →
    k.state = .running → k.op = .crdx → k.void = false → s.enginesPaused = false → s.acqReady k = true → s.dev.rankOf s.car k.wd.group = some me →
    me ∈ x.localRanks → 32 * b < k.wd.count →
    let r := s.car.ref
    let e := s.dev.group k.wd.group
    let owner := b % e.ranks
    let here := fun (q : Nat) => e.pkgOf q == some s.dev.fab.regs.pkgId.toNat
    let len := min 32 (k.wd.count - 32 * b)
    let given := x.given here owner b len ps
    let got := (List.range e.ranks).filterMap given
    let res := crdxBlock (fmtOf s.car.regs.fmt) ((ETy.ofCode k.wd.type).getD .f32) len got
    let closes := s.ownerCloses k x e.ranks owner got.length (here owner) ((given owner).isSome)
    ((me, b) ∈ x.blocks → exec (.crdxBlockClose r n b ps) s = .next s) ∧
    ((me, b) ∉ x.blocks → (∃ y ∈ x.closed, y.block = b) → here owner = false → ∃ t, exec (.crdxBlockClose r n b ps) s = .next t ∧ t.car = s.car ∧
      t.peers = s.peers ∧ t.dev.mem = s.dev.mem ∧ ∃ y, t.dev.collOf k = some y ∧ y.closed = x.closed ∧ y.blocks = x.blocks ++ [(me, b)]) ∧
    ((me, b) ∉ x.blocks → (∀ y ∈ x.closed, y.block ≠ b) → closes = true → ∃ t, exec (.crdxBlockClose r n b ps) s = .next t ∧
      t.car.regs = s.car.regs ∧ t.peers = s.peers ∧ t.dev.mem = s.dev.mem ∧
      t.car.ctl.vflags = (if here owner then s.car.ctl.vflags ||| res.2 else s.car.ctl.vflags) ∧
      ∃ y z, t.dev.collOf k = some y ∧ y.parts = x.parts ∧ y.closed = x.closed ++ [z] ∧ z.owner = owner ∧ z.block = b ∧
        z.vals = res.1.map (fun v => BitVec.ofNat 64 v) ∧ z.count = got.length ∧ (me, b) ∈ y.blocks ∧
        (here owner = true → ∀ q ∈ x.localRanks, (q, b) ∈ y.blocks)) ∧
    ((∀ y ∈ x.closed, y.block ≠ b) → closes = false → exec (.crdxBlockClose r n b ps) s = .next s) ∧
    (here owner = true → (∀ q < e.ranks, ∃ p, x.part q owner = some p ∧ p.car.isSome = true) → 0 < e.ranks → me = owner → closes = true ∧
      got.length = e.ranks)

/-- A collective of one mind, with every part present, ends with its flag posted once, a strict gather with every element of every rank written; a
member that disagrees with the first has COPY_FAULT pending, one that gives nothing beside its flag; a lossy one ends by its deadline: a reduction with
the blocks that closed, a gather or broadcast with zeros in the blocks that have not come (R236, R239, R251 to R254, R424). -/
def Sys2Proof.Claims.CollectivesComplete : Prop :=
  ∀ (n : Nat) (k : Copy) (x : Coll) (me : Nat) (s : State), s.car.copyOf n = some k → s.dev.collOf k = some x → k.state = .running → k.wd.sp = true →
    k.op.isColl = true → s.dev.rankOf s.car k.wd.group = some me →
    let r := s.car.ref
    let agreed := (∀ p ∈ x.parts, x.agrees p = true) ∧ x.discord = false
    let ended := fun (t : State) => t.car.regs = (s.car.post k.flag 1).regs ∧ t.car.copyOf n = none
    let inside := s.car.eng.stash = [] ∧ ∀ m < k.wd.count, haWindow (k.wd.elem m) = 0
    let apart := ∀ m < k.wd.count, ∀ j < k.wd.count, m ≠ j → haByte (k.wd.elem m) + k.wd.esz ≤ haByte (k.wd.elem j) ∨
      haByte (k.wd.elem j) + k.wd.esz ≤ haByte (k.wd.elem m)
    let faulted := fun (t : State) => ∃ row a, (t.car.copyOf n).map Copy.state = some (.faulted row a) ∧
      .copyFault (BitVec.ofNat 6 n) a ∈ t.car.tr.pending
    (s.car.life ≠ .idle → s.copyMayEnd k = true → agreed → (∀ p ∈ x.parts, p.present = true) → ∃ t, exec (.copyComplete r n) s = .next t ∧ ended t ∧
      (k.op = .cagt → k.void = false → k.wd.auxen = false → inside → apart → (∀ m < k.wd.count, (x.moved k me m).isSome = true) →
        ∀ m < k.wd.count, ∀ p, x.part (m / k.ws.count) me = some p → ∀ j < k.wd.esz,
          t.car.spad.read (haByte (k.wd.elem m) + j) = byteAt (p.data.getD (m % k.ws.count) 0#64) j)) ∧
    (s.car.life ≠ .idle → s.copyMayEnd k = true → (∃ p ∈ x.parts, p.car = some r ∧ x.agrees p = false) → ∃ t,
      exec (.copyComplete r n) s = .next t ∧ faulted t ∧
      t.car.regs = if k.void = true ∧ k.iter = 0 then (s.car.post k.flag 1).regs else s.car.regs) ∧
    (k.lossy = true → k.void = false → s.enginesPaused = false → s.collDue k x me = true → s.acqReady k = true → s.relReady k = true → agreed →
      (k.op = .crdx → ∃ t, exec (.collectiveDeadline r n) s = .next t ∧ ended t ∧
        (k.wd.auxen = false → inside → apart → (∀ y ∈ x.closed, y.vals.length = min 32 (k.wd.count - 32 * y.block)) →
          ∀ b j, 32 * b + j < k.wd.count → j < 32 → ∀ i < k.wd.esz,
          t.car.spad.read (haByte (k.wd.elem (32 * b + j)) + i) =
            match (if (me, b) ∈ x.blocks then x.closed.find? (fun y => y.block == b) else none) with
            | some y => byteAt (y.vals.getD j 0#64) i
            | none => 0#8)) ∧
      (∀ y, k.op ≠ .crdx → s.dev.lossyOf r n = some y → ∃ t, exec (.collectiveDeadline r n) s = .next t ∧ ended t ∧ t.dev.lossyOf r n = none ∧
        (k.wd.auxen = false → y.closed = false → inside → apart → ∀ m < k.wd.count, m / (256 / k.wd.esz) < y.blocks →
          m / (256 / k.wd.esz) ∉ y.arrived → ∀ j < k.wd.esz, t.car.spad.read (haByte (k.wd.elem m) + j) = 0#8))) ∧
    (s.collDue k x me = false → s.dev.lossyOf r n = none → exec (.collectiveDeadline r n) s = .next s) ∧
    (s.collDue k x me = true ↔ (k.op = .crdx ∧ ∀ b, 32 * b < k.wd.count → (me, b) ∈ x.blocks) ∨
      ∃ m ∈ x.finals, m.1 = me ∧ m.2 + k.lslack.toNat * 2000 ≤ s.now)

/-- Lossy transfers and collectives (R239, R251 to R254, R411 to R413, R422 to R424). -/
def Obligations.TransfersClose : Prop :=
  Sys2Proof.Claims.LossyTransfersClose ∧ Sys2Proof.Claims.NoticesOfIssueRelease ∧ Sys2Proof.Claims.ReductionBlocksClose ∧
    Sys2Proof.Claims.CollectivesComplete

/-- A scalar destination with its value. -/
def Sys2Proof.Claims.wordCame (x : Word) (d : Dest) : Dest :=
  match d with
  | .s p _ => .s p x
  | d => d

/-- Every producer of number `f` of the focused car has become `g` of what it was. -/
def Sys2Proof.Claims.Answered (s t : State) (flight : Option Nat) (g : Flight → Flight → Prop) : Prop :=
  ∀ f, flight = some f → ∀ x ∈ s.car.flight, x.id = f → ∃ y ∈ t.car.flight, y.id = f ∧ y.eta = s.now ∧ g x y

/-- A request to another package performs there once its port takes it and those that it follows have performed: a load's producer gets
the bytes at its address, extended, a store's bytes are in that package's memory; without a way a load gets zeros with a poison mark
and a store an error response. A moved line is asked for at its new address (R184, R291, R298, R401, R414, R417). -/
def Obligations.RemoteRequestsPerform : Prop :=
  ∀ (n : Nat) (new : BitVec 52) (q : Remote) (s : State), s.dev.fab.remote.find? (fun x => x.id == n) = some q → q.car = s.car.ref →
    NoStash s →
    let a := q.pa.toNat
    (∃ t, exec (.movedResponse n new) s = .next t ∧ t.car = s.car ∧ t.peers = s.peers ∧ t.dev.mem = s.dev.mem ∧
      t.dev.fab.moved.head? = some (a / 64, new.toNat / 64) ∧
      ∀ x ∈ t.dev.fab.remote, x.id = n → ∃ y ∈ s.dev.fab.remote, y.id = n ∧ x.op = y.op ∧ x.pa.toNat = new.toNat / 64 * 64 + y.pa.toNat % 64) ∧
    (s.dev.mayPerform q = false → exec (.remoteRequest n) s = .next s) ∧
    (s.dev.mayPerform q = true → s.dev.fab.moved = [] → q.pa.extractLsb' 42 10 ≠ s.dev.fab.regs.pkgId →
      (∀ p e, s.dev.way q.pa q.confidential q.esc = .go p e →
        (2048 < (s.dev.fab.port p).replay.length + q.op.flits → exec (.remoteRequest n) s = .next s) ∧
        ((s.dev.fab.port p).replay.length + q.op.flits ≤ 2048 → ∃ t, exec (.remoteRequest n) s = .next t ∧
          t.dev.mem = s.dev.mem ∧ t.car.regs = s.car.regs ∧ (∀ x ∈ t.dev.fab.remote, x.id ≠ n) ∧
          (match q.op with
           | .load size sgn => t.dev.remote = s.dev.remote ∧ Answered s t q.flight (fun f g => g.dest =
               wordCame (loadedValue sgn size (s.dev.remote.readBytes a size)) f.dest ∧ g.poison = (f.poison || s.dev.remote.anyPoison a size))
           | .store bs => ∀ p, t.dev.remote.read p = if h : a ≤ p ∧ p < a + bs.length then bs[p - a]'(by omega) else s.dev.remote.read p
           | .atomic op y c => s.dev.remote.anyPoison a 8 = false →
               let old := s.dev.remote.readWord a
               (match op.result old y c with
                | some v => Stored s.dev.remote t.dev.remote a 8 v
                | none => t.dev.remote = s.dev.remote) ∧ Answered s t q.flight (fun f g => g.dest = wordCame old f.dest)
           | .vload parts _ => t.dev.remote = s.dev.remote ∧ Answered s t q.flight (fun f g => ∀ p x i o m, f.dest = .v p x →
               parts = [(i, o, m)] → i + m ≤ 4096 → ∃ y, g.dest = .v p y ∧ ∀ j < 4096, lane .i8 y j =
                 if i ≤ j ∧ j < i + m then (s.dev.remote.read ((q.pa + BitVec.ofNat 52 o).toNat + (j - i))).toNat else lane .i8 x j)))) ∧
      ((s.dev.way q.pa q.confidential q.esc = .error ∨ s.dev.way q.pa q.confidential q.esc = .noKey) → s.car.place.spec = false →
        ∃ t, exec (.remoteRequest n) s = .next t ∧ t.dev.mem = s.dev.mem ∧ t.dev.remote = s.dev.remote ∧ (∀ x ∈ t.dev.fab.remote, x.id ≠ n) ∧
          (q.flight = none → .uncorrectable q.ha ∈ t.car.tr.pending) ∧
          Answered s t q.flight (fun f g => g.poison = true ∧ (f.onError = none → g.dest = f.dest.zeroed) ∧
            ∀ x p y, f.onError = some x → f.dest = .v p y → g.dest = .v p x)))

/-- INV_LEN takes a place in the queue of 16, or sets FAB_STAT bit 0; its completion waits for the accesses through the range, and leaves no TLB entry and no valid handle of a page in the
range in any car. MIG_LEN starts a migration with a free entry or sets ERR; a line's copy has the line's bytes at its new home, and the
last makes the entry done (R320, R415, R416). -/
def Obligations.InvalidationsAndMigrations : Prop :=
  ∀ (len : BitVec 40) (size : BitVec 31) (s : State),
    let f := s.dev.fab
    let lo := f.regs.invAddr.toNat / 0x10000 * 0x10000
    (f.invQ.length < 16 → ∃ t, exec (.invalidate len) s = .next t ∧ t.car = s.car ∧ t.dev.mem = s.dev.mem ∧
      t.dev.fab.invQ = f.invQ ++ [(lo, lo + (len.toNat + 0xFFFF) / 0x10000 * 0x10000)] ∧ t.dev.fab.regs.invIssued = f.regs.invIssued + 1#32) ∧
    (16 ≤ f.invQ.length → ∃ t, exec (.invalidate len) s = .next t ∧ t.car = s.car ∧ t.dev.fab.invQ = f.invQ ∧
      t.dev.fab.regs.invIssued = f.regs.invIssued ∧ t.dev.fab.regs.fabStat = f.regs.fabStat ||| 1#8) ∧
    (f.invQ = [] → exec .invalidationComplete s = .next s) ∧
    (∀ a b rest, f.invQ = (a, b) :: rest → ((∃ x ∈ f.remote, meets a b x.vpage x.vsize = true) ∨
        ∃ c ∈ s.cars, ∃ x ∈ c.eng.queue, x.target.isLocal = false ∧ meets a b x.vpage x.vsize = true) → exec .invalidationComplete s = .next s) ∧
    (∀ a b rest, f.invQ = (a, b) :: rest → (∀ x ∈ f.remote, meets a b x.vpage x.vsize = false) →
      (∀ c ∈ s.cars, ∀ x ∈ c.eng.queue, x.target.isLocal = false → meets a b x.vpage x.vsize = false) →
      ∃ t, exec .invalidationComplete s = .next t ∧ t.dev.fab.invQ = rest ∧ t.dev.fab.regs.invDone = f.regs.invDone + 1#32 ∧
        t.dev.mem = s.dev.mem ∧ t.cars.map (fun c => c.regs.s) = s.cars.map (fun c => c.regs.s) ∧
        ∀ c ∈ t.cars, (∀ e ∈ c.eng.tlb, meets a b e.page e.size = false) ∧ (∀ u : Fin 2, ∀ e ∈ c.eng.copyTlb[u], meets a b e.page e.size = false) ∧
          ∀ h : Fin 32, c.regs.h[h].v = true → meets a b c.regs.h[h].vpage c.regs.h[h].pageSize = false) ∧
    (f.mig.isSome = true → exec (.migrate size) s = .next s) ∧
    (f.mig = none → size.toNat % 0x10000 ≠ 0 ∨ size.toNat = 0 ∨ 0x40000000 < size.toNat ∨ f.freeFwd = none → ∃ t,
      exec (.migrate size) s = .next t ∧ t.dev.fab.regs.migErr = true ∧ t.dev.fab.mig = none ∧ t.dev.fab.fwd = f.fwd ∧ t.car = s.car) ∧
    (∀ i, f.mig = none → f.freeFwd = some i → size.toNat % 0x10000 = 0 → 0 < size.toNat → size.toNat ≤ 0x40000000 →
      f.regs.migSrc.toNat % 0x10000 = 0 → f.regs.migDst.toNat % 0x10000 = 0 → f.regs.migDst.extractLsb' 42 10 ≠ f.regs.pkgId →
      ∃ t e, exec (.migrate size) s = .next t ∧ t.dev.fab.regs.migErr = false ∧ t.dev.mem = s.dev.mem ∧
        t.dev.fab.mig = some { entry := i, src := f.regs.migSrc.toNat, dst := f.regs.migDst.toNat, lines := size.toNat / 64, next := 0 } ∧
        Tab.get {} t.dev.fab.fwd i = e ∧ e.v = true ∧ e.done = false ∧ e.new = f.regs.migDst ∧
        e.old.toNat = f.regs.migSrc.toNat / 0x10000 % 2 ^ 24 ∧ e.len.toNat + 1 = size.toNat / 0x10000) ∧
    (f.mig = none → exec .migrationLineCopy s = .next s) ∧
    (∀ m, f.mig = some m → (m.dst + 64 * m.next) / 2 ^ 42 ≠ f.regs.pkgId.toNat → s.dev.hbmGone (m.src + 64 * m.next) = false →
      (∀ i < 64, s.dev.hbmGone (m.src + 64 * m.next + i) = s.dev.hbmGone (m.src + 64 * m.next)) →
      (∀ l ∈ s.dev.cache, l.line ≠ (m.src + 64 * m.next) / 64) →
      ∃ t, exec .migrationLineCopy s = .next t ∧ t.dev.mem = s.dev.mem ∧ t.car = s.car ∧ t.peers = s.peers ∧
        (∀ i < 64, t.dev.remote.read (m.dst + 64 * m.next + i) = s.dev.hbmByte (m.src + 64 * m.next + i)) ∧
        (∀ a, a < m.dst + 64 * m.next ∨ m.dst + 64 * m.next + 64 ≤ a → t.dev.remote.read a = s.dev.remote.read a) ∧
        (m.next + 1 ≠ m.lines → t.dev.fab.mig = some { m with next := m.next + 1 }) ∧
        (m.next + 1 = m.lines → t.dev.fab.mig = none ∧ ∀ x ∈ t.dev.fab.fwd, x.1 = m.entry → x.2.done = true))

/-- A write of a group's word 7 commits the staged words with the package list read from memory, and leaves BUSY set, or commits nothing: for
a reserved kind, for more than 1,024 ranks, or, with FAB_STAT bit 4, for a list that cannot be read; while collectives are in flight the old entry
stands. A multicast packet leaves once by every listed port that is up and stays once for subscribers of this package; its frame then reaches
the line stream of the group (R419 to R421, R425). -/
def Obligations.GroupsAndMulticast : Prop :=
  ∀ (g : Fin 4096) (payload : List Byte) (beat : Nat) (s : State),
    let e := s.dev.group g.val
    let x : GroupEntry := { e with words := e.staged }
    let list := s.dev.readList (x.words[2]).toNat (x.npkg + 1)
    let now := fun (t : State) => t.dev.group g.val
    (x.kind = 3#2 ∨ (x.kind = 1#2 ∧ 1024 < x.ranks) → exec (.groupCommit g) s = .next s) ∧
    (x.kind = 1#2 → x.ranks ≤ 1024 → list = none → ∃ t, exec (.groupCommit g) s = .next t ∧ now t = e ∧ t.car = s.car ∧
      t.dev.fab.regs.fabStat = s.dev.fab.regs.fabStat ||| 16#8) ∧
    (∀ l, (x.kind = 1#2 ∧ x.ranks ≤ 1024 ∧ list = some l) ∨ ((x.kind = 0#2 ∨ x.kind = 2#2) ∧ l = []) →
      ∃ t, exec (.groupCommit g) s = .next t ∧ t.car = s.car ∧ t.peers = s.peers ∧ t.dev.mem = s.dev.mem ∧ (now t).busy = true ∧
        (s.groupInFlight g.val = false → (now t).words = e.staged ∧ (now t).plist = l ∧ (now t).pending = none) ∧
        (s.groupInFlight g.val = true → (now t).words = e.words ∧ (now t).plist = e.plist ∧ (now t).pending = some (e.staged, l)) ∧
        ∀ h, h ≠ g.val → t.dev.group h = s.dev.group h) ∧
    (e.busy = true → (∀ p ∈ s.dev.fab.packets, p.group ≠ g.val) → s.groupInFlight g.val = false → ∃ t, exec (.groupBusyClear g) s = .next t ∧
      t.car = s.car ∧ (now t).busy = false ∧ (now t).pending = none ∧
      (e.pending = none → (now t).words = e.words) ∧ ∀ w l, e.pending = some (w, l) → (now t).words = w ∧ (now t).plist = l) ∧
    (e.busy = false → exec (.groupBusyClear g) s = .next s) ∧
    (e.kind ≠ 2#2 → exec (.multicastReplicate g payload) s = .next s) ∧
    (e.kind = 2#2 → ∃ t, exec (.multicastReplicate g payload) s = .next t ∧ t.car = s.car ∧ t.peers = s.peers ∧ t.dev.mem = s.dev.mem ∧
      t.dev.outbox = s.dev.outbox ++ (e.ports.filter (fun p => (s.dev.fab.port p).up)).map (fun p => Output.packet p payload) ∧
      t.dev.fab.packets = s.dev.fab.packets ++ (if e.words[0].getLsbD 61 then [⟨g.val, payload, none⟩] else [])) ∧
    ((∀ p ∈ s.dev.fab.packets, ¬ (p.group = g.val ∧ p.bytes = payload)) → exec (.throughRunningFrame g beat payload) s = .next s) ∧
    (∀ a p b, s.dev.fab.packets = a ++ p :: b → p.group = g.val → p.bytes = payload → (∀ q ∈ a, ¬ (q.group = g.val ∧ q.bytes = payload)) →
      ∃ t, exec (.throughRunningFrame g beat payload) s = .next t ∧ t.car = s.car ∧ t.dev.fab.packets = a ++ b ∧
      ((∃ y ∈ s.dev.streams, y.group = some g.val) → t.dev.fab.frames.head? = some ⟨g.val, beat, payload⟩))

/-- A Timetable set is loaded at a frame boundary for a resident consist that names it, when it can be read and assigns no slot that the base
set or a set loaded under another number assigns; a link that goes down suspends the circuits through it; the alternate set is then loaded in
the place of the failed one for the consists that name it, where it is loadable, or the base circuits run again; losing synchronisation is
counted once until the counter is within 40 ns again (R314, R403 to R405, R410, R449; the base circuits: notes/assumptions/43.md). -/
def Obligations.TimetablesLinksAndTime : Prop :=
  ∀ (n : BitVec 8) (j : Fin 64) (p : Fin 8) (s : State),
    let f := s.dev.fab
    let passes := fun (y : TtSet) => ∃ r ∈ y.records, r.junction = j.val ∧ r.port = p.val
    let free := fun (m : BitVec 8) (y : TtSet) (others : List LoadedSet) => ∀ r ∈ y.records, Config.baseCircuit r.junction r.port r.slot = none ∧
      ∀ z ∈ others, z.n ≠ m → ∀ q ∈ z.set.records, ¬ (q.junction = r.junction ∧ q.port = r.port ∧ q.slot = r.slot)
    let down := fun (y : TtSet) => ∃ r ∈ y.records, (r.junction, r.port) ∈ f.linksDown
    (∀ y, s.dev.ttSet n = some y → n ≠ 0#8 → (∀ z ∈ f.sets, z.serves ≠ n) → (∃ c ∈ s.dev.sig.consists, c.ttset = n ∧ c.saved = none) →
      s.now % 256 = 0 →
      (free n y f.sets → ∃ t, exec (.timetableLoad n) s = .next t ∧ t.car = s.car ∧ t.peers = s.peers ∧ t.dev.mem = s.dev.mem ∧
        t.dev.fab.sets = f.sets ++ [⟨n, n, y⟩] ∧ (n ∈ t.dev.fab.suspended ↔ down y)) ∧
      (¬ free n y f.sets → exec (.timetableLoad n) s = .next s)) ∧
    (s.dev.ttSet n = none ∨ n = 0#8 ∨ (∃ z ∈ f.sets, z.serves = n) ∨ s.now % 256 ≠ 0 ∨
        (∀ c ∈ s.dev.sig.consists, c.ttset ≠ n ∨ c.saved ≠ none) → exec (.timetableLoad n) s = .next s) ∧
    (n ∉ f.suspended → exec (.alternateSetLoad n) s = .next s) ∧
    (∀ z, n ∈ f.suspended → n ≠ 0#8 → f.sets.filter (fun y => y.n == n) = [z] →
      let others := f.sets.filter (fun y => y.n != n)
      (s.dev.ttSet z.set.alt = none ∨ z.set.alt = 0#8 → exec (.alternateSetLoad n) s = .next s) ∧
      (∀ y, s.dev.ttSet z.set.alt = some y → z.set.alt ≠ 0#8 →
        (¬ free z.set.alt y others → exec (.alternateSetLoad n) s = .next s) ∧
        (free z.set.alt y others → ∃ t, exec (.alternateSetLoad n) s = .next t ∧ t.car = s.car ∧ t.peers = s.peers ∧
          t.dev.fab.sets = others ++ [⟨z.set.alt, z.serves, y⟩] ∧ (z.set.alt ≠ n → n ∉ t.dev.fab.suspended) ∧
          (z.set.alt ∈ t.dev.fab.suspended ↔ down y)))) ∧
    (0#8 ∈ f.suspended → ∃ t, exec (.alternateSetLoad 0#8) s = .next t ∧ 0#8 ∉ t.dev.fab.suspended ∧
      ∀ l : Ix16, t.dev.lines[l] = { s.dev.lines[l] with suspended := false }) ∧
    (∃ t, exec (.onPackageLinkDown j p) s = .next t ∧ t.car = s.car ∧ t.peers = s.peers ∧ t.dev.mem = s.dev.mem ∧
      (j.val, p.val) ∈ t.dev.fab.linksDown ∧ (∀ m ∈ f.sets, passes m.set → m.n ∈ t.dev.fab.suspended) ∧
      (∀ m ∈ f.suspended, m ∈ t.dev.fab.suspended) ∧
      (∀ l : Ix16, (∃ k < 256, Config.baseCircuit j.val p.val k = some l) → t.dev.lines[l].suspended = true ∧ 0#8 ∈ t.dev.fab.suspended) ∧
      (∀ l : Ix16, (∀ k < 256, Config.baseCircuit j.val p.val k ≠ some l) → t.dev.lines[l] = s.dev.lines[l]) ∧
      (f.remote ≠ [] ∨ (∃ c ∈ s.cars, c.eng.posted ≠ []) → t.dev.fab.regs.fabStat = f.regs.fabStat ||| 2#8)) ∧
    (s.dev.house.sync = false → exec .tsSyncLost s = .next s) ∧
    (s.dev.house.sync = true → ∃ t, exec .tsSyncLost s = .next t ∧ t.car = s.car ∧ t.dev.mem = s.dev.mem ∧ t.dev.house.sync = false ∧
      t.dev.house.lost = true ∧ t.dev.house.lostCnt.toNat = min 65535 (s.dev.house.lostCnt.toNat + 1)) ∧
    (40 < s.dev.offBy.natAbs → exec .tsResync s = .next s) ∧
    (s.dev.offBy.natAbs ≤ 40 → ∃ t, exec .tsResync s = .next t ∧ t.car = s.car ∧ t.dev.house.sync = true ∧
      ∀ die, t.dev.tstamp die = s.dev.tstamp die)

/-! The Signal box at work (spec 10, 12, 14). -/

/-- Registers of the cars and memory stand. -/
def Sys2Proof.Claims.Untouched (s t : State) : Prop := t.car = s.car ∧ t.peers = s.peers ∧ t.dev.mem = s.dev.mem

/-- The serial order of tails and mailbox values (R356). -/
def Sys2Proof.Claims.follows (v c : BitVec 32) : Prop := 1 ≤ (v - c).toNat ∧ (v - c).toNat < 2 ^ 31

/-- A handle table entry with a word written (R364): BASE, LEN, SM and V; LASTW ignores a write. -/
def Sys2Proof.Claims.bhtTakes (b : Bht) (word : Nat) (v : Word) : Bht :=
  if word = 0 then { b with base := v } else if word = 1 then { b with len := v.extractLsb' 0 40 }
  else if word = 2 then { b with sm := v.getLsbD 1, v := v.getLsbD 0 } else b

/-- A line stream reads a beat once CCYC is within 20 of it, and drives it when CCYC is there: alone on the line, or as one more driver of
the beat of its domain; zeros and LINE when the beat comes less than 28 cycles after its CLS or has not been read; the last beat ends the stream. A code
of 0x80 sets SAT (R49, R97, R116, R246). -/
def Obligations.LineStreamsDriveTheirLine : Prop :=
  ∀ (id : Nat) (x : Stream) (s : State),
    let i := x.nextRead
    let j := x.nextBeat
    let got := (x.read.find? (fun r => r.1 == j)).map (fun r => r.2)
    let late := (x.group.isNone && decide (x.start + j < x.issuedAt + 28)) || got.isNone
    let bytes := if late then List.replicate 256 0#8 else got.getD []
    (s.dev.streams.find? (fun y => y.id == id) = none → exec (.lineStreamRead id) s = .next s ∧ exec (.lineStreamBeat id) s = .next s) ∧
    (s.dev.streams.find? (fun y => y.id == id) = some x →
      (x.beats ≤ i ∨ s.domainCcyc x.domain = none ∨ (∃ c, s.domainCcyc x.domain = some c ∧ c + 20 < x.start + i) →
        exec (.lineStreamRead id) s = .next s) ∧
      (∀ c k, i < x.beats → s.domainCcyc x.domain = some c → x.start + i ≤ c + 20 → x.group = none → s.find x.car = some k → ∃ t,
        exec (.lineStreamRead id) s = .next t ∧ Untouched s t ∧ ∃ y, t.dev.streams.find? (fun y => y.id == id) = some y ∧ y.nextRead = i + 1 ∧
          y.nextBeat = j ∧ y.read = x.read ++ [(i, s.dev.streamBytes (s.dev.drained k) x.ws (32 + 256 * i) 256)] ∧ y.header = x.header) ∧
      (i ≤ j ∨ s.domainCcyc x.domain = none ∨ (∃ c, s.domainCcyc x.domain = some c ∧ c < x.start + j) → exec (.lineStreamBeat id) s = .next s) ∧
      (∀ c, j < i → s.domainCcyc x.domain = some c → x.start + j ≤ c → ∃ t, exec (.lineStreamBeat id) s = .next t ∧ t.dev.mem = s.dev.mem ∧
        t.cars.map (fun k => k.regs) = s.cars.map (fun k => k.regs) ∧
        (x.start + j < c → t.dev.drives = s.dev.drives) ∧
        (x.start + j = c → (∀ y ∈ s.dev.drives, y.is x.domain x.line c = false) →
          t.dev.drives.head? = some ⟨x.domain, x.line, c, 1, x.header, bytes, late, 0⟩ ∧
          ∀ y, ¬ (y.domain = x.domain ∧ y.line = x.line) → (y ∈ t.dev.drives ↔ y ∈ s.dev.drives)) ∧
        (x.start + j = c → ∀ y ∈ s.dev.drives, y.is x.domain x.line c = true → { y with count := y.count + 1 } ∈ t.dev.drives) ∧
        (x.start + j = c → late = false → 0x80#8 ∈ bytes → s.car.ref = x.car → t.car.ctl.vflags = s.car.ctl.vflags ||| 0x20#8) ∧
        (j + 1 = x.beats → ∀ y ∈ t.dev.streams, y.id ≠ id) ∧
        (j + 1 ≠ x.beats → ∃ y, t.dev.streams.find? (fun y => y.id == id) = some y ∧ y.nextBeat = j + 1)))

/-- A doorbell advances the tail of a mapped queue, or writes the tail of one that is not and asks for a slot; a value that does not follow
the old one, a queue that is absent or disabled, or bits above 47 change nothing; a context that cannot be read or has no size sets
DEV_STAT bit 3, more records than the ring holds bit 0 (R350, R353, R356, R357). A device whose start has not trained the host link answers
no doorbell of the host's (R457). -/
def Sys2Proof.Claims.DoorbellsAdvanceTails : Prop :=
  ∀ (v : Word) (i : Nat) (c : Ctx) (x : QSlot) (s : State),
    let q := v.extractLsb' 32 16
    let tail := v.extractLsb' 0 32
    let stat := fun (t : State) => t.dev.sig.regs.devStat
    let served := s.dev.house.startRec.extractLsb' 14 2 = 1#2
    (¬ served → exec (.queueDoorbell v) s = .next s) ∧
    (v.extractLsb' 48 16 ≠ 0#16 ∨ s.dev.ctx q = .absent → exec (.queueDoorbell v) s = .next s) ∧
    (served → v.extractLsb' 48 16 = 0#16 → s.dev.ctx q = .failed → ∃ t, exec (.queueDoorbell v) s = .next t ∧ Untouched s t ∧
      stat t = stat s ||| 8#8 ∧ t.dev.sig.slots = s.dev.sig.slots) ∧
    (served → v.extractLsb' 48 16 = 0#16 → s.dev.ctx q = .ok c →
      (c.log2n < 1 ∨ 16 < c.log2n → ∃ t, exec (.queueDoorbell v) s = .next t ∧ Untouched s t ∧ stat t = stat s ||| 8#8 ∧
        t.dev.sig.slots = s.dev.sig.slots) ∧
      (1 ≤ c.log2n → c.log2n ≤ 16 → c.en = false → exec (.queueDoorbell v) s = .next s) ∧
      (1 ≤ c.log2n → c.log2n ≤ 16 → c.en = true → s.dev.sig.slotOf q = some (i, x) → ¬ follows tail x.tail → exec (.queueDoorbell v) s = .next s) ∧
      (1 ≤ c.log2n → c.log2n ≤ 16 → c.en = true → s.dev.sig.slotOf q = some (i, x) → follows tail x.tail → ∃ t,
        exec (.queueDoorbell v) s = .next t ∧ Untouched s t ∧ t.dev.sig.slotOf q = some (i, { x with tail := tail }) ∧
        stat t = if 2 ^ c.log2n < (tail - x.head).toNat then stat s ||| 1#8 else stat s) ∧
      (∀ pa w, 1 ≤ c.log2n → c.log2n ≤ 16 → c.en = true → s.dev.sig.slotOf q = none → s.dev.wordVa (c.va + 16) = some w → s.dev.fab.fwd = [] →
        NoStash s → s.dev.translate false true (c.va + 20) = some (.hbm pa false) → pa + 4 ≤ Config.hbmSize →
        let old := BitVec.ofNat 64 w
        (¬ follows tail (old.extractLsb' 32 32) → exec (.queueDoorbell v) s = .next s) ∧
        (follows tail (old.extractLsb' 32 32) → ∃ t, exec (.queueDoorbell v) s = .next t ∧ t.car = s.car ∧ t.peers = s.peers ∧
          t.dev.mem = s.dev.mem.write pa (bytesLE 4 tail.toNat) ∧ q ∈ t.dev.sig.wanted ∧
          stat t = if 2 ^ c.log2n < (tail - old.extractLsb' 0 32).toNat then stat s ||| 1#8 else stat s)))

/-- A mailbox takes a value that follows its old one, as 8 bytes of memory at the place that its physical address decodes to, in HBM or at
the host; any other value changes nothing, nor does one of the host's before its link is trained (R457). A handle table write takes
effect at once, or is held, with DEV_STAT bit 1, while a consumed service names the entry or a write of it is held, and is applied when none
does; word 3 ignores it. A change dooms the speculations that name the entry (R356, R358, R364, R388, R468). -/
def Sys2Proof.Claims.MailboxesAndHandleTable : Prop :=
  ∀ (m : Fin 1024) (v : BitVec 32) (h : Fin 4096) (word : Fin 4) (x : Word) (s : State),
    let old := s.dev.mbox m.val
    let entry := fun (t : State) (k : Nat) => Tab.get ({} : Bht) t.dev.sig.bht k
    let named := ∃ u ∈ s.dev.sig.services, u.ended = false ∧ ∃ k ∈ u.handles, k.1.toNat = h.val
    let served := s.dev.house.startRec.extractLsb' 14 2 = 1#2
    (¬ served ∨ ¬ follows v old → exec (.mailboxWrite m v) s = .next s) ∧
    (∀ pa, served → follows v old → NoStash s → (s.dev.mboxTarget m.val = .hbm pa false ∧ s.dev.fab.fwd = [] ∧ pa + 8 ≤ Config.hbmSize) ∨
        s.dev.mboxTarget m.val = .host pa → ∃ t, exec (.mailboxWrite m v) s = .next t ∧
      t.car = s.car ∧ t.peers = s.peers ∧ t.dev.mem = s.dev.mem.write pa (bytesLE 8 v.toNat) ∧ t.dev.mbox m.val = v) ∧
    (follows v old → NoStash s → s.dev.mboxTarget m.val = .nowhere → exec (.mailboxWrite m v) s = .next s) ∧
    (word.val = 3 → exec (.bhtWrite h word x) s = .next s) ∧
    (word.val ≠ 3 → (named ∨ ∃ y ∈ s.dev.sig.held, y.1 = h.val) → ∃ t, exec (.bhtWrite h word x) s = .next t ∧ Untouched s t ∧
      t.dev.sig.bht = s.dev.sig.bht ∧ t.dev.sig.held = s.dev.sig.held ++ [(h.val, word.val, x)] ∧
      t.dev.sig.regs.devStat = s.dev.sig.regs.devStat ||| 2#8) ∧
    (word.val ≠ 3 → ¬ named → (∀ y ∈ s.dev.sig.held, y.1 ≠ h.val) → ∃ t, exec (.bhtWrite h word x) s = .next t ∧ Untouched s t ∧
      entry t h.val = bhtTakes (entry s h.val) word.val x ∧ (∀ k, k ≠ h.val → entry t k = entry s k) ∧ t.dev.sig.held = s.dev.sig.held ∧
      ∀ p ∈ t.dev.sig.specs, (∃ k ∈ p.svc.handles, k.1.toNat = h.val) → p.cause.isSome = true) ∧
    (named → exec (.bhtWriteApply h) s = .next s) ∧
    (¬ named → ∃ t, exec (.bhtWriteApply h) s = .next t ∧ Untouched s t ∧
      entry t h.val = (s.dev.sig.held.filter (fun y => y.1 == h.val)).foldl (fun b y => bhtTakes b y.2.1 y.2.2) (entry s h.val) ∧
      (∀ k, k ≠ h.val → entry t k = entry s k) ∧ t.dev.sig.held = s.dev.sig.held.filter (fun y => y.1 != h.val))

/-- A queue that asks for a slot gets a free one, with the head, tail and history of its context block; without a free one, and with fewer
slots than its class may have, the queue mapped longest ago of the highest class that borrows begins to be unmapped, for it. An unmapped
queue's head, tail and history go back to its block, the queue for which it was unmapped takes the slot, and it asks again while records
wait (R352 to R355, R380, R397). -/
def Sys2Proof.Claims.SlotsComeAndGo : Prop :=
  ∀ (q : BitVec 16) (i : Nat) (c : Ctx) (x : QSlot) (s : State),
    let held := fun (k : Nat) => (s.dev.sig.slots.filter (fun y => s.dev.qclass y.2.q == k)).length
    let least := fun (k : Nat) => (s.dev.sig.regs.classMin.extractLsb' (8 * k) 8).toNat
    (q ∉ s.dev.sig.wanted ∨ s.dev.sig.slotOf q ≠ none → exec (.slotMap q) s = .next s) ∧
    (q ∈ s.dev.sig.wanted → s.dev.sig.slotOf q = none →
      (s.dev.ctx q = .absent ∨ s.dev.ctx q = .failed → ∃ t, exec (.slotMap q) s = .next t ∧ Untouched s t ∧ q ∉ t.dev.sig.wanted ∧
        t.dev.sig.slots = s.dev.sig.slots ∧ (s.dev.ctx q = .failed → t.dev.sig.regs.devStat = s.dev.sig.regs.devStat ||| 8#8)) ∧
      (s.dev.ctx q = .ok c → i < 128 → (∀ y ∈ s.dev.sig.slots, y.1 ≠ i) → (∀ j < i, ∃ y ∈ s.dev.sig.slots, y.1 = j) →
        (s.dev.wordsVa (c.va + 16) 51 = none → ∃ t, exec (.slotMap q) s = .next t ∧ Untouched s t ∧ q ∉ t.dev.sig.wanted ∧
          t.dev.sig.regs.devStat = s.dev.sig.regs.devStat ||| 8#8) ∧
        (∀ ws, s.dev.wordsVa (c.va + 16) 51 = some ws → ∃ t y, exec (.slotMap q) s = .next t ∧ Untouched s t ∧ q ∉ t.dev.sig.wanted ∧
          t.dev.sig.slotOf q = some (i, y) ∧ y.q = q ∧ y.head = (ws.getD 0 0#64).extractLsb' 0 32 ∧ y.tail = (ws.getD 0 0#64).extractLsb' 32 32 ∧
          y.mapped = s.now ∧ y.unmapping = false ∧ y.failed = false ∧ y.hist.lseq = (ws.getD 2 0#64).extractLsb' 32 32 ∧
          y.hist.valid = (ws.getD 2 0#64).getLsbD 2 ∧ y.hist.conf = (ws.getD 2 0#64).extractLsb' 0 2 ∧
          ∀ j < 16, y.hist.lrec.getD j 0#64 = ws.getD (3 + j) 0#64)) ∧
      (s.dev.ctx q = .ok c → (∀ j < 128, ∃ y ∈ s.dev.sig.slots, y.1 = j) →
        ((∃ y ∈ s.dev.sig.slots, y.2.unmapping = true) ∨ least c.cls.toNat ≤ held c.cls.toNat ∨ (∀ k < 4, held k ≤ least k) →
          exec (.slotMap q) s = .next s) ∧
        ((∀ y ∈ s.dev.sig.slots, y.2.unmapping = false) → held c.cls.toNat < least c.cls.toNat → (∃ k < 4, least k < held k) →
          ∃ t, ∃ y ∈ s.dev.sig.slots, exec (.slotMap q) s = .next t ∧ Untouched s t ∧
            least (s.dev.qclass y.2.q) < held (s.dev.qclass y.2.q) ∧ (∀ k < 4, s.dev.qclass y.2.q < k → held k ≤ least k) ∧
            (∀ z ∈ s.dev.sig.slots, s.dev.qclass z.2.q = s.dev.qclass y.2.q → y.2.mapped ≤ z.2.mapped) ∧
            t.dev.sig.slots = s.dev.sig.slots.map (fun z => if z.2.q = y.2.q then (z.1, { z.2 with unmapping := true, heir := some q }) else z)))) ∧
    (s.dev.sig.slotOf q = none ∨ (s.dev.sig.slotOf q = some (i, x) ∧ x.unmapping = false) → exec (.slotUnmap q) s = .next s) ∧
    (∀ u w, s.dev.sig.slotOf q = some (i, x) → x.unmapping = true → s.dev.ctx q = .ok c → NoStash s →
      (∀ y ∈ s.dev.sig.slots, y.2.q = q → y.1 = i) → s.writeVa (c.va + 16) (wordBytes [x.tail ++ x.head]) = some u →
      u.writeVa (c.va + 32) (wordBytes (x.hist.words ++ List.replicate 75 0#64)) = some w → x.heir ≠ some q → ∃ t, exec (.slotUnmap q) s = .next t ∧
        t.car = s.car ∧ t.peers = s.peers ∧ t.dev.mem = w.dev.mem ∧
        (∀ y, y.1 ≠ i → (y ∈ t.dev.sig.slots ↔ y ∈ s.dev.sig.slots)) ∧ t.dev.sig.slotOf q = none ∧
        (x.heir = none → ∀ y ∈ t.dev.sig.slots, y.1 ≠ i) ∧
        (∀ r a ws, x.heir = some r → r ∈ s.dev.sig.wanted → s.dev.sig.slotOf r = none → w.dev.ctx r = .ok a →
          w.dev.wordsVa (a.va + 16) 51 = some ws → r ∉ t.dev.sig.wanted ∧ ∃ y, t.dev.sig.slotOf r = some (i, y) ∧ y.q = r ∧
            y.head = (ws.getD 0 0#64).extractLsb' 0 32 ∧ y.tail = (ws.getD 0 0#64).extractLsb' 32 32 ∧ y.mapped = s.now ∧ y.unmapping = false) ∧
        (x.tail ≠ x.head → q ∈ t.dev.sig.wanted) ∧ ∀ p ∈ t.dev.sig.specs, p.svc.q = q → p.adopted = false → p.cause.isSome = true)

/-- The record at the head of a mapped queue: while nothing may be consumed, nothing changes; a context or record that cannot be read sets
DEV_STAT bit 3 and is read again; one that is not published waits; a published one is consumed in order, with what its checks find, and the
head advances. An indirect count is read when the service is at the head of its queue (R357, R361, R362, R365, R368, R382). -/
def Obligations.RecordsAreConsumedInOrder : Prop :=
  ∀ (q : BitVec 16) (k : Nat) (c : Ctx) (x : QSlot) (seq : BitVec 32) (v : Service) (s : State),
    let r := s.dev.sig.regs
    let bad := fun (t : State) => Untouched s t ∧ t.dev.sig.services = s.dev.sig.services ∧ t.dev.sig.regs.devStat = r.devStat ||| 8#8 ∧
      t.dev.sig.slotOf q = some (k, { x with failed := true })
    (∀ i ∈ [(Instr.consumeRecord q, false), (.recordReread q, true)],
      (s.dev.sig.slotOf q = none → exec i.1 s = .next s) ∧
      (s.dev.sig.slotOf q = some (k, x) → x.failed ≠ i.2 → exec i.1 s = .next s) ∧
      (s.dev.sig.slotOf q = some (k, x) → r.enable = false ∨ s.dev.house.fw.pending = true ∨ x.unmapping = true ∨ x.head = x.tail →
        exec i.1 s = .next s) ∧
      (s.dev.sig.slotOf q = some (k, x) → x.failed = i.2 → r.enable = true → s.dev.house.fw.pending = false → x.unmapping = false →
        x.head ≠ x.tail →
        (s.dev.ctx q = .absent ∨ s.dev.ctx q = .failed → ∃ t, exec i.1 s = .next t ∧ bad t) ∧
        (s.dev.ctx q = .ok c → c.log2n < 1 ∨ 16 < c.log2n ∨ s.dev.wordsVa (c.ring + 128 * (x.head.toNat % 2 ^ c.log2n)) 16 = none →
          ∃ t, exec i.1 s = .next t ∧ bad t) ∧
        (∀ w, s.dev.ctx q = .ok c → 1 ≤ c.log2n → c.log2n ≤ 16 → s.dev.wordsVa (c.ring + 128 * (x.head.toNat % 2 ^ c.log2n)) 16 = some w →
          (recSeq w ≠ x.head → ∃ t, exec i.1 s = .next t ∧ Untouched s t ∧ t.dev.sig.services = s.dev.sig.services ∧
            t.dev.sig.slotOf q = some (k, { x with failed := false })) ∧
          (∀ u, recSeq w = x.head → NoStash s → s.writeVa (c.va + 24) (bytesLE 4 (x.head + 1#32).toNat) = some u → ∃ t y n,
            exec i.1 s = .next t ∧ t.dev.mem = u.dev.mem ∧ t.cars.map (fun a => a.regs) = s.cars.map (fun a => a.regs) ∧
            t.dev.sig.services = s.dev.sig.services ++ [n] ∧ t.dev.sig.order = s.dev.sig.order + 1 ∧ n.q = q ∧ n.seq = x.head ∧
            n.order = s.dev.sig.order ∧ n.record = w ∧ n.pri = recPri w ∧ n.placed = 0 ∧ n.finished = 0 ∧ n.ended = false ∧
            n.err = (s.dev.check w).err.map (fun e => (e, 0#9)) ∧
            n.count = (if recInd w then none else some ((recCount w).extractLsb' 0 32)) ∧
            (n.err ≠ none → n.handles = []) ∧
            (n.err = none → n.handles = (s.dev.check w).entries.map (fun e => (e.extractLsb' 0 12, e.extractLsb' 12 2)) ∧
              ∀ h ∈ n.handles, h.2.getLsbD 1 = true → (Tab.get ({} : Bht) t.dev.sig.bht h.1.toNat).lastw = q.setWidth 32 ++ x.head) ∧
            t.dev.sig.slotOf q = some (k, y) ∧ y.head = x.head + 1#32 ∧ y.tail = x.tail ∧ y.failed = false ∧
            (n.err = none → y.hist.lrec = w ∧ y.hist.lseq = x.head ∧ y.hist.valid = true) ∧
            (n.err ≠ none → y.hist.conf = 0#2 ∧ y.hist.lrec = x.hist.lrec))))) ∧
    (s.dev.sig.services.find? (fun u => u.q == q && u.seq == seq) = none → exec (.countRead q seq) s = .next s) ∧
    (s.dev.sig.services.find? (fun u => u.q == q && u.seq == seq) = some v →
      let early := ∀ u ∈ s.dev.sig.services, u.q = q → u.order < v.order → u.ended = true
      let inside := ∃ h ∈ v.handles, (Tab.get ({} : Bht) s.dev.sig.bht h.1.toNat).base.toNat ≤ (recCount v.record).toNat ∧
        (recCount v.record).toNat + 4 ≤ (Tab.get ({} : Bht) s.dev.sig.bht h.1.toNat).base.toNat + (Tab.get ({} : Bht) s.dev.sig.bht h.1.toNat).len.toNat
      (v.count ≠ none ∨ v.err ≠ none ∨ s.dev.sig.atHead v = false ∨ s.dev.sig.heldBack v = true ∨ (¬ inside ∧ ¬ early) →
        exec (.countRead q seq) s = .next s) ∧
      (v.count = none → v.err = none → s.dev.sig.atHead v = true → s.dev.sig.heldBack v = false → (inside ∨ early) → ∃ t,
        exec (.countRead q seq) s = .next t ∧ Untouched s t ∧ ∃ u, t.dev.sig.services.find? (fun u => u.q == q && u.seq == seq) = some u ∧
          (s.dev.readVa (recCount v.record).toNat 4 = none → u.err = some (5#8, 0#9) ∧ u.count = none) ∧
          ∀ bs, s.dev.readVa (recCount v.record).toNat 4 = some bs → u.err = none ∧ u.count = some (BitVec.ofNat 32 (natLE bs))))

/-- The Signal box: doorbells, mailboxes, the handle table and hardware slots (R350 to R358, R364). -/
def Obligations.DoorbellsMailboxesAndSlots : Prop :=
  Sys2Proof.Claims.DoorbellsAdvanceTails ∧ Sys2Proof.Claims.MailboxesAndHandleTable ∧ Sys2Proof.Claims.SlotsComeAndGo

/-- What stands once a consist of a service has been placed on a spot (R12, R13, R269 to R272, R277, R282): the consist, its cars by CARID, held
until the release cycle, with the image's bytes and flags, the arguments in s1 to s8 and in the scratchpad at s9, and every other register of
s, h and FMT zero and full. -/
def Sys2Proof.Claims.Placed (s t : State) (v : Service) (x : Image) (idx : BitVec 32) (spec : Bool) (sp : Spot) : Prop :=
  let two := if sp.secondary then 1 else 0
  t.dev.mem = s.dev.mem ∧
  (∃ c, t.dev.sig.consists = s.dev.sig.consists ++ [c] ∧ c.q = v.q ∧ c.seq = v.seq ∧ c.idx = idx ∧ c.spec = spec ∧
    c.secondary = sp.secondary ∧ c.image = x ∧ c.cars = sp.cores.map (fun k => 2 * k + two) ∧ c.lines = (List.finRange 16).zip sp.lines ∧
    c.release = s.now + 256 ∧ c.released = false ∧ c.pri = v.pri ∧ c.ttset = recTtset v.record ∧ c.saved = none) ∧
  (∀ k core, sp.cores[k]? = some core → ∃ c ∈ t.cars, c.ref = 2 * core + two ∧
    c.ident.carId = BitVec.ofNat 9 k ∧ c.ident.ncars = BitVec.ofNat 9 x.consist ∧ c.ident.consistId = idx ∧
    c.ident.serviceId = v.q.setWidth 32 ++ v.seq ∧ c.place.spec = spec ∧ c.pc = x.entry ∧ c.life = .held (s.now + 256) ∧
    (∀ (i : Nat) (h : i < 72), c.regs.s[i] = if 1 ≤ i ∧ i ≤ 8 then recWord v.record (4 + i) else if i = 9 then 0x5FFC0#64 else 0#64) ∧
    (∀ (i : Nat) (h : i < 32), c.regs.h[i] = {}) ∧ c.regs.fmt = 0#20 ∧ c.marks = {} ∧ c.flight = [] ∧ c.late = [] ∧ c.tr = {} ∧
    c.ctl = { pri := v.pri } ∧
    (∀ f : FlagIx, (∀ p ∈ x.flags, p.1 ≠ f) → c.regs.f[f] = 0#16) ∧
    (∀ p ∈ x.flags, (∀ q ∈ x.flags, q.1 = p.1 → q = p) → c.regs.f[p.1] = p.2) ∧
    (∀ a < 0x5FFC0, c.spad.read a = x.data.getD a 0#8) ∧
    (∀ i < 64, c.spad.read (0x5FFC0 + i) = byteAt (v.args.getD (i / 8) 0#64) (i % 8)) ∧
    (s.dev.sig.holdsImage (2 * core + two) x.id = false → ∀ a < Config.imemSize, c.imem.read a = x.code.getD a 0#8) ∧
    (∀ k, s.dev.sig.holdsImage (2 * core + two) x.id = true → s.find (2 * core + two) = some k → c.imem = k.imem))

/-- A consist is placed when its service may start it, it is the next, there is a spot and it is its turn, or, of a speculation, when no
real consist waits, once adopted when it is its turn among the real ones; an image or set that cannot be read ends the service with cause 2 or 3, and no consist of it that has not started starts.
At its release cycle every car of it makes its first attempt at once, unless one before it has still to be released or the service has ended
with an error, and the service's TSTART is set once (R269, R270, R288, R367, R369, R370, R374, R385, R392, R404). -/
def Obligations.ConsistsArePlacedAndReleased : Prop :=
  ∀ (q : BitVec 16) (seq idx : BitVec 32) (v : Service) (x img : Image) (sp : Spot) (p : Speculation) (y : Consist) (s : State),
    let svc := fun (t : State) => t.dev.sig.services.find? (fun u => u.q == q && u.seq == seq)
    let now := { x with code := img.code, data := img.data }
    let waits := fun (y : Consist) => y.q = q ∧ y.seq = seq ∧ y.spec = false ∧ (y.saved ≠ none ∨ y.released = false)
    let failed := fun (t : State) (cause : BitVec 8) => t.dev.mem = s.dev.mem ∧ (∃ u, svc t = some u ∧ u.err = some (cause, 0#9)) ∧
      (∀ y, y ∈ t.dev.sig.consists ↔ y ∈ s.dev.sig.consists ∧ ¬ waits y) ∧
      ∀ c ∈ s.cars, (∀ y ∈ s.dev.sig.consists, waits y → y.holds c = false) → c ∈ t.cars
    (s.dev.sig.specOf q seq = none → svc s = none → exec (.placeConsist q seq idx) s = .next s) ∧
    (s.dev.sig.specOf q seq = none → svc s = some v → v.image = some x →
      (s.dev.startable v = false ∨ idx.toNat ≠ v.placed → exec (.placeConsist q seq idx) s = .next s) ∧
      (s.dev.startable v = true → idx.toNat = v.placed →
        (recTtset v.record ≠ 0#8 → s.dev.ttSet (recTtset v.record) = none → ∃ t, exec (.placeConsist q seq idx) s = .next t ∧ failed t 3#8) ∧
        (recTtset v.record = 0#8 ∨ s.dev.ttSet (recTtset v.record) ≠ none →
          (s.spot v.record x (s.classOf v) false = none → exec (.placeConsist q seq idx) s = .next s) ∧
          (s.spot v.record x (s.classOf v) false = some sp →
            (s.itsTurn v = false → exec (.placeConsist q seq idx) s = .next s) ∧
            (s.itsTurn v = true → s.dev.imageNow x (s.dev.sig.loads sp x.id) true = none → ∃ t, exec (.placeConsist q seq idx) s = .next t ∧ failed t 2#8) ∧
            (s.itsTurn v = true → s.dev.imageNow x (s.dev.sig.loads sp x.id) true = some img → ∃ t u, exec (.placeConsist q seq idx) s = .next t ∧
              Placed s t v now idx false sp ∧ svc t = some u ∧ u.placed = v.placed + 1 ∧ u.since = s.now))))) ∧
    (s.dev.sig.specOf q seq = some p →
      (p.adopted = false → s.realWaits = true → exec (.placeConsist q seq idx) s = .next s) ∧
      (p.adopted = true → s.before p.svc (s.specRank p) = false → exec (.placeConsist q seq idx) s = .next s) ∧
      (s.dev.house.fw.pending = true → exec (.placeConsist q seq idx) s = .next s) ∧
      (∀ n, p.svc.image = some x → p.svc.count = some n → idx.toNat = p.svc.placed → p.svc.placed < n.toNat → s.dev.house.fw.pending = false →
        (if p.adopted then s.before p.svc (s.specRank p) = true else s.realWaits = false) →
        (s.spot (s.specRecord p) x p.svc.pri.toNat true = none → exec (.placeConsist q seq idx) s = .next s) ∧
        (s.spot (s.specRecord p) x p.svc.pri.toNat true = some sp →
          (s.dev.imageNow x (s.dev.sig.loads sp x.id) true = none → ∃ t, exec (.placeConsist q seq idx) s = .next t ∧ Untouched s t ∧
            ∀ z ∈ t.dev.sig.specs, z.svc.q = q → z.svc.seq = seq → z.cause.isSome = true) ∧
          (s.dev.imageNow x (s.dev.sig.loads sp x.id) true = some img →
            ∃ t, exec (.placeConsist q seq idx) s = .next t ∧ Placed s t p.svc now idx true sp ∧ t.dev.sig.services = s.dev.sig.services)))) ∧
    (s.toRelease q seq idx = none → exec (.consistRelease q seq idx) s = .next s) ∧
    (s.toRelease q seq idx = some y → ∃ t, exec (.consistRelease q seq idx) s = .next t ∧ t.dev.mem = s.dev.mem ∧
      t.cars.map (fun c => c.regs) = s.cars.map (fun c => c.regs) ∧ t.cars.map (fun c => c.pc) = s.cars.map (fun c => c.pc) ∧
      y.released = false ∧ y.release ≤ s.now ∧ (y.ttset = 0#8 ∨ s.dev.fab.hasSet y.ttset = true) ∧
      (s.dev.house.fw.pending = false ∨ y.resumed = true) ∧
      (y.resumed = false → ∀ z ∈ s.dev.sig.consists, z.q = q → z.seq = seq → z.spec = y.spec → z.idx < idx →
        z.released = true ∨ z.resumed = true ∨ z.saved ≠ none) ∧
      (y.spec = false → ∀ u ∈ s.dev.sig.services, u.q = q → u.seq = seq → u.err = none) ∧
      (∀ c ∈ t.cars, y.holds c = true → (∀ r, c.life ≠ .held r)) ∧
      (∀ c ∈ s.cars, y.holds c = true → ∀ r, c.life = .held r → { c with life := .running, ready := s.now, done := false } ∈ t.cars) ∧
      (∀ c ∈ s.cars, y.holds c = false → c ∈ t.cars) ∧
      (∀ z ∈ t.dev.sig.consists, z.same y = true → z.released = true ∧ z.since = s.now) ∧
      (y.spec = false → svc s = some v → ∃ u, svc t = some u ∧ u.tstart = some (v.tstart.getD (s.dev.tstamp 57)) ∧ u.placed = v.placed))

/-- A halted car finishes once all that it issued has ended. With its last car a consist completes: its cores and lines are free and its
service has one more finished consist. A service completes when every consist has, or after an error when none is left, once what its aborted cars issued has performed, and its record is
written in the queue's order: words 0 to 2, then word 3, then the MSI-X (R147, R289, R374 to R377). -/
def Obligations.CarsConsistsAndServicesEnd : Prop :=
  ∀ (q : BitVec 16) (seq : BitVec 32) (v : Service) (x : Consist) (s : State),
    let r := s.car.ref
    let u := if s.spent s.car then s.mapCar (fun c => { c with life := .finished }) else s
    let all := x.released = true ∧ (u.cars.filter x.holds).length = x.image.consist ∧ ∀ c ∈ u.cars, x.holds c = true → c.life = .finished
    let svc := fun (t : State) => t.dev.sig.services.find? (fun w => w.q == q && w.seq == seq)
    (s.consistOf s.car = none → exec (.carFinish r) s = .next u) ∧
    (s.consistOf s.car = some x → ¬ all → exec (.carFinish r) s = .next u) ∧
    (s.consistOf s.car = some x → all → ∃ t, exec (.carFinish r) s = .next t ∧ t.dev.mem = s.dev.mem ∧
      t.cars.map (fun c => c.regs) = s.cars.map (fun c => c.regs) ∧ (∀ c ∈ t.cars, x.holds c = false) ∧
      (∀ y, y ∈ t.dev.sig.consists ↔ y ∈ s.dev.sig.consists ∧ y.same x = false) ∧
      (x.spec = false → t.dev.sig.services = s.dev.sig.services.map (fun w => if w.q = x.q ∧ w.seq = x.seq then
        { w with finished := w.finished + 1 } else w)) ∧ (x.spec = true → t.dev.sig.services = s.dev.sig.services)) ∧
    (s.spent s.car = true ↔ s.car.life = .halted ∧ s.car.eng.copies = [] ∧ s.car.eng.ranges = [] ∧ s.car.eng.unmaps = [] ∧
      s.car.eng.releases = [] ∧ s.writesOut s.car = false ∧ ∀ y ∈ s.dev.streams, y.car ≠ r) ∧
    (svc s = none → exec (.serviceComplete q seq) s = .next s) ∧
    (svc s = some v →
      let done := (v.err ≠ none ∧ ∀ c ∈ s.dev.sig.consists, c.q = q → c.seq = seq → c.spec = true) ∨ ∃ n, v.count = some n ∧ n.toNat ≤ v.finished
      let first := ∀ w ∈ s.dev.sig.services, w.q = q → v.order ≤ w.order
      let e := v.err.getD (0#8, 0#9)
      let word0 : Word := BitVec.ofBool v.claimed ++ BitVec.ofBool v.err.isSome ++ 0#6 ++ e.1 ++ 0#7 ++ e.2 ++ v.seq
      let addr := (recCompAddr v.record).toNat
      let left := ∃ c ∈ s.cars, c.place.spec = false ∧ c.ident.serviceId = q.setWidth 32 ++ seq ∧ c.life = .idle ∧ (c.eng.posted ≠ [] ∨
        c.eng.queue ≠ [] ∨ c.eng.copies ≠ [] ∨ ∃ r ∈ s.dev.fab.remote, r.car = c.ref)
      let gone := fun (t : State) => t.dev.sig.services = s.dev.sig.services.filter (fun w => !(w.q == q && w.seq == seq)) ∧ t.car = s.car ∧
        t.peers = s.peers ∧ t.dev.outbox = s.dev.outbox ++ (if recMsixEn v.record then [.msix (recMsix v.record)] else [])
      (v.ended = false → ¬ done ∨ left → exec (.serviceComplete q seq) s = .next s) ∧
      (v.ended = false → done → ¬ left → v.err = none → ¬ first → ∃ t, exec (.serviceComplete q seq) s = .next t ∧ t.car = s.car ∧ t.peers = s.peers ∧
        svc t = some { v with ended := true, tend := s.dev.tstamp 57 }) ∧
      (v.ended = false → done → ¬ left → v.err ≠ none → ¬ first → ∃ t, exec (.serviceComplete q seq) s = .next t ∧
        svc t = some { v with ended := true, tend := s.dev.tstamp 57 }) ∧
      (v.ended = true → ¬ first → exec (.serviceComplete q seq) s = .next s) ∧
      (v.ended = true → first → NoStash s →
        (recCompAddr v.record = 0#64 → ∃ t, exec (.serviceComplete q seq) s = .next t ∧ gone t ∧ t.dev.mem = s.dev.mem) ∧
        (recCompAddr v.record ≠ 0#64 → s.writeVa addr (wordBytes [word0, v.tstart.getD 0#64, v.tend]) = none → ∃ t,
          exec (.serviceComplete q seq) s = .next t ∧ gone t ∧ t.dev.mem = s.dev.mem ∧
          t.dev.sig.regs.devStat = s.dev.sig.regs.devStat ||| 16#8) ∧
        (∀ a b, recCompAddr v.record ≠ 0#64 → s.writeVa addr (wordBytes [word0, v.tstart.getD 0#64, v.tend]) = some a →
          a.writeVa (addr + 24) (wordBytes [recCompValue v.record]) = some b → ∃ t, exec (.serviceComplete q seq) s = .next t ∧ gone t ∧
          t.dev.mem = b.dev.mem) ∧
        (∀ a, recCompAddr v.record ≠ 0#64 → s.writeVa addr (wordBytes [word0, v.tstart.getD 0#64, v.tend]) = some a →
          a.writeVa (addr + 24) (wordBytes [recCompValue v.record]) = none → ∃ t, exec (.serviceComplete q seq) s = .next t ∧ gone t ∧
          t.dev.mem = a.dev.mem ∧ t.dev.sig.regs.devStat = s.dev.sig.regs.devStat ||| 16#8)))

/-- Pre-emption: the consist that it chooses is asked to give way within PRDL and its waiting WADRs end with 1, unless the save area has no
room; a consist at rest at its park points is saved with every register but the vectors that are not live, and its cores are free; of one
that does not give way in time every car with traps unmasked is stopped by force at once, and a car that masks them has one more PRDL, after
which the consist is aborted with cause 9; a saved consist comes back on another spot with what was saved, its vector banks under the names that
its cars have there; one of a service that has ended with an error is dropped, and one whose image can no longer be loaded ends it with IMAGE (R264, R284, R331 to R334, R372,
R373, R392). -/
def Obligations.PreemptionParksStopsAndResumes : Prop :=
  ∀ (q : BitVec 16) (seq idx : BitVec 32) (x : Consist) (s : State),
    let names := fun (e : Instr) => e = .preemptRequest q seq idx ∨ e = .consistPark q seq idx ∨ e = .forcedStop q seq idx ∨ e = .consistResume q seq idx
    let prdl := s.dev.sig.regs.prdl.toNat * 2000
    (∀ e, names e → s.dev.sig.consist q seq idx = none → exec e s = .next s) ∧
    (s.dev.sig.consist q seq idx = some x →
      (s.chosen x = false → x.spec = true ∨ (s.noRoom x = false ∧ (x.released = false ∨ x.saved ≠ none ∨ s.lowSecondary x = false)) →
        exec (.preemptRequest q seq idx) s = .next s) ∧
      (s.chosen x = true → x.spec = true → ∃ t, exec (.preemptRequest q seq idx) s = .next t ∧ Untouched s t ∧
        ∀ p ∈ t.dev.sig.specs, p.svc.q = q → p.svc.seq = seq → p.cause.isSome = true) ∧
      (x.spec = false → (s.chosen x = true ∨ s.noRoom x = true ∨ (x.released = true ∧ x.saved = none ∧ s.lowSecondary x = true)) → x.preempt = none →
        (s.dev.saveRoom x = false → ∃ t, exec (.preemptRequest q seq idx) s = .next t ∧ Untouched s t ∧
          t.dev.sig.regs.devStat = s.dev.sig.regs.devStat ||| 4#8 ∧ t.dev.sig.consists = s.dev.sig.consists) ∧
        (s.dev.saveRoom x = true → ∃ t, exec (.preemptRequest q seq idx) s = .next t ∧ t.dev.mem = s.dev.mem ∧
          (∀ y ∈ t.dev.sig.consists, y.same x = true → y.preempt = some (s.now + prdl)) ∧
          (∀ c ∈ t.cars, x.holds c = true → c.preempt = some (s.now + prdl) ∧
            (c.tr.masked = false → ∀ w ∈ c.wait, ∀ a p b since limit, w ≠ .wadr a p b since limit)) ∧
          ∀ c ∈ s.cars, x.holds c = false → c ∈ t.cars)) ∧
      (let mine := s.cars.filter x.holds
       let rest := mine ≠ [] ∧ ∀ c ∈ mine, s.quiet c = true ∧ (c.life = .finished ∨ c.life = .parked ∨ (c.life = .running ∧ .park ∈ c.wait))
       let stopping := x.extended = true ∧ x.forced = false
       (x.saved ≠ none ∨ x.spec = true ∨ stopping ∨ ¬ rest → exec (.consistPark q seq idx) s = .next s) ∧
       (x.saved = none → x.spec = false → ¬ stopping → rest → NoStash s → ∃ t, exec (.consistPark q seq idx) s = .next t ∧ t.dev.mem = s.dev.mem ∧
         (∀ c ∈ t.cars, x.holds c = false) ∧
         ∃ l, (∀ y ∈ t.dev.sig.consists, y.same x = true → y.saved = some l ∧ y.cars = []) ∧ l.length = mine.length ∧
         (s.dev.sig.failedFor x = true → ∀ y ∈ t.dev.sig.consists, y.same x = false) ∧
         (s.dev.sig.failedFor x = false → ∃ y ∈ t.dev.sig.consists, y.same x = true) ∧
         ∀ c ∈ mine, ∃ k ∈ l, k.ident = c.ident ∧ k.ctl = c.ctl ∧ k.pc = c.pc ∧ k.loop = c.loop ∧ k.spad = c.spad ∧ k.tr = c.tr ∧ k.regs.s = c.regs.s ∧
           k.regs.k = c.regs.k ∧ k.regs.h = c.regs.h ∧ k.regs.f = c.regs.f ∧ k.regs.w = c.regs.w ∧ k.regs.e = c.regs.e ∧ k.regs.fmt = c.regs.fmt ∧
           (x.forced = true → k.regs.v = c.regs.v) ∧
           (∀ p, x.forced = false → x.image.parks.find? (fun p => p.1 == c.tr.lastPc) = some p → ∀ n < 64, p.2.1.getLsbD n = true →
             k.rV (c.bank (p.2.2.extractLsb' 0 4) * 64 + n) = c.rV (c.bank (p.2.2.extractLsb' 0 4) * 64 + n)))) ∧
      (∀ due, x.preempt = some due →
        let early := s.now < due ∧ x.extended = false
        let stopped := fun (t : State) => t.dev.mem = s.dev.mem ∧
          (∀ c ∈ s.cars, x.holds c = true → c.life = .running → c.tr.masked = false → ∃ k ∈ t.cars, k.ident = c.ident ∧ k.life = .parked ∧
            k.tr.handler = true ∧ k.tr.masked = true ∧ k.ctl.tcause.extractLsb' 0 8 = 0x0F#8 ∧ ∃ img, k.tr.snap = some img ∧
              img[0] = BitVec.ofBool c.tr.handler ++ 0#46 ++ c.pc) ∧
          ∀ c ∈ s.cars, x.holds c = false ∨ c.life ≠ .running ∨ c.tr.masked = true → c ∈ t.cars
        let masked := fun (c : Car) => c ∈ s.cars ∧ x.holds c = true ∧ c.life = .running ∧ c.tr.masked = true
        (early ∨ x.forced = true ∨ x.saved ≠ none → exec (.forcedStop q seq idx) s = .next s) ∧
        (¬ early → x.forced = false → x.saved = none → x.spec = true → ∃ t, exec (.forcedStop q seq idx) s = .next t ∧ Untouched s t ∧
          ∀ p ∈ t.dev.sig.specs, p.svc.q = x.q → p.svc.seq = x.seq → p.cause.isSome = true) ∧
        (¬ early → x.forced = false → x.saved = none → x.spec = false → (∀ c, ¬ masked c) → ∃ t, exec (.forcedStop q seq idx) s = .next t ∧
          stopped t ∧ ∀ y ∈ t.dev.sig.consists, y.same x = true → y.forced = true) ∧
        (¬ early → x.forced = false → x.saved = none → x.spec = false → (∃ c, masked c) →
          (x.extended = false → ∃ t, exec (.forcedStop q seq idx) s = .next t ∧ stopped t ∧
            ∀ y ∈ t.dev.sig.consists, y.same x = true → y.preempt = some (due + prdl) ∧ y.extended = true) ∧
          (x.extended = true → s.now < due → ∃ t, exec (.forcedStop q seq idx) s = .next t ∧ stopped t ∧
            t.dev.sig.consists = s.dev.sig.consists) ∧
          (x.extended = true → due ≤ s.now → ∃ t, exec (.forcedStop q seq idx) s = .next t ∧ (∀ c ∈ t.cars, x.holds c = false) ∧
            (∀ y ∈ t.dev.sig.consists, y.same x = false) ∧
            ∀ v ∈ t.dev.sig.services, v.q = x.q → v.seq = x.seq → ∃ u ∈ s.dev.sig.services, u.order = v.order ∧
              ∃ c, masked c ∧ v.err = some (u.err.getD (9#8, c.ident.carId))))) ∧
      (x.preempt = none → exec (.forcedStop q seq idx) s = .next s) ∧
      (x.saved = none ∨ s.resumable x = false → exec (.consistResume q seq idx) s = .next s) ∧
      (∀ cars sp, x.saved = some cars → s.spot (s.recordOf x) x.image (s.consistClass x) false = some sp →
        let two := if sp.secondary then 1 else 0
        let late := (∃ v ∈ s.dev.sig.services, s.placeable v = true ∧ s.rankOf v < s.consistClass x) ∨
          (∃ p ∈ s.dev.sig.specs, s.specPlaceable p = true ∧ s.specRank p < s.consistClass x) ∨
          ∃ y ∈ s.dev.sig.consists, s.resumable y = true ∧ s.consistClass y < s.consistClass x
        (late → exec (.consistResume q seq idx) s = .next s) ∧
        let img := s.dev.imageNow x.image (s.dev.sig.loads sp x.image.id) false
        (∀ v, ¬ late → s.resumable x = true → img = none → s.dev.sig.services.find? (fun v => v.q == q && v.seq == seq) = some v → ∃ t,
          exec (.consistResume q seq idx) s = .next t ∧ t.dev.mem = s.dev.mem ∧ ∃ u, t.dev.sig.services.find? (fun v => v.q == q && v.seq == seq) = some u ∧
            u.err = some (2#8, 0#9)) ∧
        (¬ late → s.resumable x = true → img.isSome = true → ∃ t, exec (.consistResume q seq idx) s = .next t ∧ t.dev.mem = s.dev.mem ∧
          (∀ y ∈ t.dev.sig.consists, y.same x = true → y.saved = none ∧ y.released = false ∧ y.resumed = true ∧ y.release = s.now + 256 ∧
            y.cars = sp.cores.map (fun k => 2 * k + two) ∧ y.lines = (List.finRange 16).zip sp.lines) ∧
          (∀ (k core : Nat) (c : Car), sp.cores[k]? = some core → cars[k]? = some c → ∃ a ∈ t.cars,
            a.ref = 2 * core + two ∧ a.regs = { c.regs with v := a.regs.v } ∧
            (a.ident.merge = c.ident.merge → a.regs.v = c.regs.v) ∧
            (∀ b : BitVec 4, b.toNat < 8 ∨ (c.ident.merge = 0#2 ∧ a.ident.merge = 0#2) → ∀ n < 64,
              a.rV (a.bank b * 64 + n) = c.rV (c.bank b * 64 + n)) ∧ a.spad = c.spad ∧ a.ident.carId = c.ident.carId ∧ a.ident.serviceId = c.ident.serviceId ∧
            a.tr.snap = c.tr.snap ∧ a.tr.masked = c.tr.masked ∧ a.ctl.ccyc = 0#64 ∧
            a.pc = (if x.forced = false ∧ c.loop.redirected = true then c.loop.lpro else c.pc) ∧
            (c.life ≠ .finished → a.life = .held (s.now + 256)) ∧ (c.life = .finished → a.life = .finished)))))

/-! The Distant, the registers and the long-lived state (spec 12, 14, 15, 16, 20). -/

/-- The Distant starts the predicted record of a queue whose history allows it, once, and counts it; a write by another agent dooms what
watches its region; a doom, a miss or a yield is discarded silently and counted; a finished, adopted one commits when its service would be
next, and then memory has its pages; the Siding's copy-back, control and clear (R378 to R397). -/
def Obligations.SpeculationsStartEndAndCommit : Prop :=
  ∀ (q : BitVec 16) (seq : BitVec 32) (v : Service) (p : Speculation) (i : Image) (b : Byte) (c : Ctx) (pa k : Nat) (x : QSlot) (s : State),
    let z := s.dev.sig
    let regs := fun (t : State) => t.dev.sig.spec
    (s.dev.distantReady q = true ↔ (regs s).ctl.getLsbD 0 = true ∧ (regs s).len ≠ 0#35 ∧ s.dev.house.fw.pending = false ∧
      z.specs.length < ((regs s).ctl.extractLsb' 4 4).toNat ∧ (regs s).used + 0x4000000 ≤ (regs s).len.toNat ∧ ∀ y ∈ z.specs, y.svc.q ≠ q) ∧
    (s.dev.predictedService q = some v → z.slotOf q = some (k, x) → x.hist.valid = true ∧ 2 ≤ x.hist.conf.toNat ∧ x.head = x.tail ∧
      recSpec x.hist.lrec = true ∧ recInd x.hist.lrec = false ∧ v.q = q ∧ v.seq = x.hist.lseq + 1#32 ∧
      recWord v.record 15 = 0#32 ++ (x.hist.lseq + 1#32) ∧
      (∀ n, 5 ≤ n → n ≤ 12 → recWord v.record n = recWord x.hist.lrec n + x.hist.strideA.getD (n - 5) 0#64) ∧
      ∀ n, n < 5 ∨ n = 13 ∨ n = 14 → recWord v.record n = recWord x.hist.lrec n) ∧
    (s.dev.distantReady q = false ∨ s.dev.predictedService q = none ∨ s.realWaits = true ∨
        (s.dev.predictedService q = some v ∧ v.count = some 0#32) → exec (.speculationStart q) s = .next s) ∧
    (s.dev.distantReady q = true → s.dev.predictedService q = some v → v.image = some i →
      (s.dev.regionsOf v.handles = none ∨ s.spot v.record i v.pri.toNat true = none → exec (.speculationStart q) s = .next s) ∧
      (∀ ws, s.dev.regionsOf v.handles = some ws → s.spot v.record i v.pri.toNat true ≠ none → s.realWaits = false →
        v.count ≠ some 0#32 → ∃ t,
        exec (.speculationStart q) s = .next t ∧ Untouched s t ∧ t.dev.sig.specs = z.specs ++ [{ svc := v, watches := ws }] ∧
        (regs t).start = (regs s).start + 1#64 ∧ ∀ y ∈ t.dev.sig.slots, y.2.q = q → y.2.tried = some v.seq)) ∧
    (∃ t, exec (.watchDoom pa) s = .next t ∧ Untouched s t ∧ (∀ y ∈ z.specs, pa / 0x200000 ∉ y.watches → y ∈ t.dev.sig.specs) ∧
      ∀ y ∈ t.dev.sig.specs, pa / 0x200000 ∈ y.watches → y.cause.isSome = true) ∧
    (z.specs.find? (fun y => y.svc.q == q && y.svc.seq == seq) = some p →
      (p.cause = none → exec (.speculationDiscard q seq) s = .next s) ∧
      (∀ why since, p.cause = some (why, since) → ∃ t, exec (.speculationDiscard q seq) s = .next t ∧ t.dev.mem = s.dev.mem ∧
        t.dev.sig.services = z.services ∧ t.dev.outbox = s.dev.outbox ∧
        (∀ y ∈ z.consists, y.spec = true → y.q = q → y.seq = seq → ∀ a ∈ t.cars, y.holds a = false) ∧
        (∀ y, y ∈ t.dev.sig.consists ↔ y ∈ z.consists ∧ ¬ (y.spec = true ∧ y.q = q ∧ y.seq = seq)) ∧
        (∀ y, y ∈ t.dev.sig.specs ↔ y ∈ z.specs ∧ ¬ (y.svc.q = q ∧ y.svc.seq = seq)) ∧
        (regs t).used = (regs s).used - p.granules.length * 0x10000 ∧
        (regs t).doomed = (regs s).doomed + (if why = .doomed then 1#64 else 0#64) ∧
        (regs t).miss = (regs s).miss + (if why = .missed then 1#64 else 0#64) ∧
        (regs t).yield = (regs s).yield + (if why = .yielded then 1#64 else 0#64))) ∧
    (z.specs.find? (fun y => y.svc.q == q && y.svc.seq == seq) = none → exec (.speculationDiscard q seq) s = .next s) ∧
    (z.specOf q seq = none → exec (.specYield q seq) s = .next s ∧ exec (.speculationCommit q seq) s = .next s) ∧
    (z.specOf q seq = some p →
      (p.adopted = true ∨ s.mustYield p = false → exec (.specYield q seq) s = .next s) ∧
      (p.adopted = false → s.mustYield p = true → ∃ t, exec (.specYield q seq) s = .next t ∧ Untouched s t ∧
        { p with cause := some (.yielded, s.now) } ∈ t.dev.sig.specs) ∧
      (z.services.find? (fun u => u.q == q && u.seq == seq) = some v →
        let may := p.adopted = true ∧ (∃ n, p.svc.count = some n ∧ n.toNat ≤ p.svc.finished) ∧ z.heldBack v = false ∧
          ∀ u ∈ z.services, u.q = q → v.order ≤ u.order
        (¬ may → exec (.speculationCommit q seq) s = .next s) ∧
        (may → NoStash s → s.dev.fab.fwd = [] → ∃ t, exec (.speculationCommit q seq) s = .next t ∧ t.car = s.car ∧ t.peers = s.peers ∧
          (∀ a, t.dev.mem.read a = if a / 0x10000 ∈ p.granules then p.shadow.read a else s.dev.mem.read a) ∧
          (∀ y ∈ t.dev.sig.specs, ¬ (y.svc.q = q ∧ y.svc.seq = seq)) ∧ (regs t).hit = (regs s).hit + 1#64 ∧
          t.dev.sig.backs = z.backs ++ [(q, seq, p.granules.length * 0x10000)] ∧
          t.dev.sig.services.find? (fun u => u.q == q && u.seq == seq) = some { v with
            claimed := true, tstart := p.svc.tstart, placed := p.svc.placed, finished := p.svc.finished, ended := true, tend := s.dev.tstamp 57 }))) ∧
    (z.backs.find? (fun y => y.1 == q && y.2.1 == seq) = none → exec (.sidingCopyBack q seq) s = .next s) ∧
    (∀ y, z.backs.find? (fun y => y.1 == q && y.2.1 == seq) = some y → ∃ t, exec (.sidingCopyBack q seq) s = .next t ∧ Untouched s t ∧
      t.dev.sig.backs = z.backs.erase y ∧ (regs t).used = (regs s).used - y.2.2) ∧
    (∃ t, exec (.specCtlWrite b) s = .next t ∧ Untouched s t ∧ (regs t).ctl.getLsbD 0 = b.getLsbD 0 ∧ (regs t).ctl.extractLsb' 1 3 = 0#3 ∧
      ((regs t).ctl.extractLsb' 4 4).toNat = min 8 (b.extractLsb' 4 4).toNat ∧
      ((regs s).ctl.getLsbD 0 = true → b.getLsbD 0 = false → ∀ y ∈ t.dev.sig.specs, y.adopted = false → y.cause.isSome = true) ∧
      ((regs s).ctl.getLsbD 0 = false ∨ b.getLsbD 0 = true → t.dev.sig.specs = z.specs)) ∧
    (exec (.specClr false) s = .next s) ∧
    (∃ t, exec (.specClr true) s = .next t ∧ Untouched s t ∧
      regs t = { regs s with start := 0#64, hit := 0#64, miss := 0#64, doomed := 0#64, yield := 0#64 }) ∧
    (s.dev.ctx q = .absent ∨ s.dev.ctx q = .failed → exec (.dbgAttach q) s = .next s) ∧
    (∀ w u, s.dev.ctx q = .ok c → s.dev.wordVa (c.va + 8) = some w →
      s.writeVa (c.va + 8) (wordBytes [BitVec.ofNat 64 w ||| 0x20000#64]) = some u → ∃ t, exec (.dbgAttach q) s = .next t ∧ t.car = u.car ∧
        t.peers = u.peers ∧ t.dev.mem = u.dev.mem ∧ (∀ c', u.dev.ctx q = .ok c' → c'.dbg = true → u.dev.sig.slotOf q ≠ none →
          ∀ y ∈ t.dev.sig.specs, y.svc.q = q → y.adopted = false → y.cause.isSome = true))

/-- The registers of BAR0 that only store, with what a read of them gives after a write of `v` (R350, R378, R400, R464). -/
def Sys2Proof.Claims.storedRegs (s : State) (v : Word) : List (Nat × Word) :=
  let r := s.dev.sig.regs
  let low := fun (n : Nat) => BitVec.ofNat 64 (v.toNat % 2 ^ n)
  let upTo := fun (n lo : Nat) => BitVec.ofNat 64 (v.toNat % 2 ^ n / 2 ^ lo * 2 ^ lo)
  [(0x0008, if s.dev.house.startRec.extractLsb' 16 2 = 1#2 then low 1 else (BitVec.ofBool r.enable).setWidth 64), (0x0018, if low 32 = 0#64 then 1#64 else low 32), (0x0020, v), (0x0028, low 17), (0x0030, v), (0x0038, upTo 52 13), (0x0048, low 32),
   (0x0050, upTo 52 16), (0x0058, low 40), (0x0060, low 32), (0x0210, v), (0x0230, low 40), (0x0238, low 52),
   (0x0068, r.devStat.setWidth 64 &&& ~~~v), (0x0208, s.dev.fab.regs.fabStat.setWidth 64 &&& ~~~v),
   (0x0040, if 128 < (v.extractLsb' 0 8).toNat + (v.extractLsb' 8 8).toNat + (v.extractLsb' 16 8).toNat + (v.extractLsb' 24 8).toNat
     then r.classMin.setWidth 64 else low 32),
   (0x0010, if r.enable then r.ptRoot.setWidth 64 else upTo 52 20),
   (0x0200, if r.enable then s.dev.fab.regs.pkgId.setWidth 64 else low 10), (0x0250, if r.enable then s.dev.fab.regs.ttBase else v),
   (0x0258, if r.enable then s.dev.fab.regs.ttLen.setWidth 64 else low 8),
   (0x220600, BitVec.ofNat 64 (min 2600 (max 1000 (v.toNat % 2 ^ 12))))]

/-- The bits of the words of a group entry that hold a field; the others are reserved and read as zero (R11, R419). -/
def Sys2Proof.Claims.groupFields (j : Nat) : Word :=
  [0xFF00000003FF01FF#64, 0x0000FFFFFFFFFFFF#64, BitVec.allOnes 64, 0#64, BitVec.allOnes 64, BitVec.allOnes 64, 0#64].getD j 0#64

/-- A write of BAR0: a misaligned or absent place changes nothing, nor does the host while the start has not trained its link; one that its master may not make only counts in DENIED; a register that
only stores reads back; the others act as the events of the opcode table. A debug halt is asked for or let go, a halted car steps, and a read of
the management window gets its word (R335, R336, R350, R389, R419, R446, R450, R457, R463). -/
def Obligations.RegistersTakeWrites : Prop :=
  ∀ (host : Bool) (off : Nat) (v : Word) (core : Fin 336) (m : Fin 1024) (h g : Fin 4096) (w : Fin 4) (j : Fin 8) (p : Fin 128) (s : State),
    let write := fun (o : Nat) => exec (.registerWrite host o v) s
    let linked := s.dev.house.startRec.extractLsb' 14 2 = 1#2
    let shared := (0x200000 ≤ off ∧ off < 0x203000 ∧ off % 0x200 = 0x30) ∨ (0x300000 ≤ off ∧ off < 0x380000 ∧ off % 0x1000 = 0) ∨
      off = 0x210000 ∨ off = 0x220310 ∨ off = 0x220600
    let debug := 0x100000 ≤ off ∧ off < 0x115000
    let served := host = false ∨ linked
    let free := served ∧ (host = true ∨ s.dev.house.hold = false)
    (off % 8 ≠ 0 ∨ 0x400000 ≤ off ∨ (host = true ∧ ¬ linked) → write off = .next s) ∧
    (off % 8 = 0 → off < 0x400000 → host = false → ¬ shared → (debug ∨ s.dev.house.hold = true) → ∃ t, write off = .next t ∧ Untouched s t ∧
      t.dev.house = { s.dev.house with denied := BitVec.ofNat 16 (min 65535 (s.dev.house.denied.toNat + 1)) } ∧ t.dev.sig = s.dev.sig ∧
      t.dev.fab = s.dev.fab ∧ t.dev.debug = s.dev.debug) ∧
    (∀ e ∈ storedRegs s v, (free ∨ (served ∧ e.1 = 0x220600)) → ∃ t, write e.1 = .next t ∧ Untouched s t ∧ t.dev.readReg e.1 = e.2) ∧
    (free → (linked → write 0x20000 = exec (.queueDoorbell v) s ∧ write (0x21000 + 8 * m.val) = exec (.mailboxWrite m (v.extractLsb' 0 32)) s) ∧
      write (0xC0000 + 32 * h.val + 8 * w.val) = exec (.bhtWrite h w v) s ∧ write 0x100 = exec (.specCtlWrite (v.extractLsb' 0 8)) s ∧
      write 0x150 = exec (.specClr (v.getLsbD 0)) s ∧ write 0x218 = exec (.invalidate (v.extractLsb' 0 40)) s ∧
      write 0x240 = exec (.migrate (v.extractLsb' 0 31)) s ∧ (v.extractLsb' 0 2 = 3#2 → write 0x220208 = exec .startFull s) ∧
      (v.extractLsb' 0 2 = 1#2 → write 0x220208 = exec .startWarm s) ∧ (v.extractLsb' 0 2 = 0#2 → write 0x220208 = .next s)) ∧
    (served → write 0x220310 = exec (.errClear (v.getLsbD 0)) s) ∧
    (free → j.val < 7 → ∃ t, write (0x40000 + 64 * g.val + 8 * j.val) = .next t ∧ Untouched s t ∧ (t.dev.group g.val).words = (s.dev.group g.val).words ∧
      (t.dev.group g.val).staged[j] = v &&& Sys2Proof.Claims.groupFields j.val ∧ ∀ i : Fin 8, i ≠ j → (t.dev.group g.val).staged[i] = (s.dev.group g.val).staged[i]) ∧
    (served → v.extractLsb' 61 3 = 0#3 → ∃ t, write (0x300000 + 0x1000 * p.val) = .next t ∧ OnlyPort s t p.val ∧
      t.dev.fab.port p.val = { s.dev.fab.port p.val with csymThr := v.extractLsb' 16 16, uncThr := v.extractLsb' 0 16, flane := v.extractLsb' 32 6 }) ∧
    (∀ b, ∃ t, exec (.dbgHalt core b) s = .next t ∧ Untouched s t ∧
      let old : Debug := Tab.get {} s.dev.debug core.val
      let new : Debug := Tab.get {} t.dev.debug core.val
      new.ctl.getLsbD 0 = b ∧ new.pc = old.pc ∧ new.ibp = old.ibp ∧
      (b = true → new.stat = old.stat) ∧ (b = false → new.stat.getLsbD 0 = false ∧ new.stat.getLsbD 8 = false) ∧
      (∀ k, k ≠ core.val → Tab.get ({} : Debug) t.dev.debug k = Tab.get {} s.dev.debug k) ∧
      (b = true → ∀ c ∈ s.cars, c.ident.coreId.toNat = core.val → c.place.spec = true → c.life ≠ .idle → ∀ y ∈ t.dev.sig.specs,
        y.svc.q = c.ident.serviceId.extractLsb' 32 16 → y.svc.seq = c.ident.serviceId.extractLsb' 0 32 → y.cause.isSome = true)) ∧
    (let old : Debug := Tab.get {} s.dev.debug core.val
     (old.stat.getLsbD 0 = false ∨ old.stat.getLsbD 8 = true → exec (.dbgStep core) s = .next s) ∧
     (old.stat.getLsbD 0 = true → old.stat.getLsbD 8 = false → ∃ t, exec (.dbgStep core) s = .next t ∧ Untouched s t ∧
       (∀ k ∈ s.stepCores core.val, (Tab.get ({} : Debug) t.dev.debug k).stat.getLsbD 8 = true) ∧
       (∀ k, k ∉ s.stepCores core.val → Tab.get ({} : Debug) t.dev.debug k = Tab.get {} s.dev.debug k) ∧
       ((∀ c ∈ s.cars, c.ident.coreId.toNat = core.val → c.place.domain = none) → s.stepCores core.val = [core.val]))) ∧
    (∀ pkg, pkg ≠ s.dev.fab.regs.pkgId ∨ ¬ linked → exec (.mgmtRead pkg off) s = .next s) ∧
    (linked → ∃ t, exec (.mgmtRead s.dev.fab.regs.pkgId off) s = .next t ∧ Untouched s t ∧
      (off < 0x200000 ∨ 0x3FFFF8 < off → t.dev.outbox = s.dev.outbox ++ [.mgmt none]) ∧
      (0x200000 ≤ off → off ≤ 0x3FFFF8 → off % 8 = 0 → t.dev.outbox = s.dev.outbox ++ [.mgmt (some (s.dev.readReg off))]))

/-- Across hours: an evicted line's dirty bytes go home, and its region without a line is shared; a region whose lines one die alone has held
for 1 ms goes back to that die; scrubbing poisons what has an uncorrectable error and
changes no byte; the power manager lengthens pacing before it throttles, and lets go in the reverse order; ERR_CTL zeroes the counters; a
lost host link clears HOLD (R300 to R303, R455, R456, R463, R464). -/
def Sys2Proof.Claims.CachesPowerAndErrors : Prop :=
  ∀ (die line r watts : Nat) (l : CacheLine) (s : State),
    let mem := s.dev.mem
    let region := fun (t : State) (k : Nat) => Tab.get ({} : Region) t.dev.regions k
    let home := line / 0x8000
    let mine := fun (k : Region) => k.mode = .fine ∧ k.lines ≠ [] ∧ (∀ y ∈ k.lines, y.2.1 = die) ∧ k.since + Config.msCycles ≤ s.now
    let h := s.dev.house
    (s.dev.cache.find? (fun l => l.die == die && l.line == line) = some l → s.dev.fab.fwd = [] → ∃ t, exec (.dieCacheEvict die line) s = .next t ∧
      t.car = s.car ∧ t.peers = s.peers ∧ (∀ y, y ∈ t.dev.cache → ¬ (y.die = die ∧ y.line = line)) ∧
      (∀ (i : Nat) (k : i < 64), t.dev.mem.read (line * 64 + i) = if l.dirty.getLsbD i then l.bytes[i] else mem.read (line * 64 + i)) ∧
      ∀ a, a < line * 64 ∨ line * 64 + 64 ≤ a → t.dev.mem.read a = mem.read a) ∧
    ((∀ y ∈ s.dev.cache, ¬ (y.die = die ∧ y.line = line)) → ∃ t, exec (.dieCacheEvict die line) s = .next t ∧ Untouched s t ∧
      t.dev.cache = s.dev.cache ∧ (∀ y, y ∈ (region t home).lines ↔ y ∈ (region s home).lines ∧ ¬ (y.1 = line ∧ y.2.1 = die)) ∧
      ((region t home).lines = [] → (region t home).mode = .shared) ∧
      ((region t home).lines ≠ [] → (region t home).mode = (region s home).mode) ∧ ∀ k, k ≠ home → region t k = region s k) ∧
    (mine (region s r) → ∃ t, exec (.regionToPrivate r die) s = .next t ∧ Untouched s t ∧ (region t r).mode = .private_ die ∧
      (region t r).lines = (region s r).lines ∧ ∀ k, k ≠ r → region t k = region s k) ∧
    (¬ mine (region s r) → exec (.regionToPrivate r die) s = .next s) ∧
    (∃ t, exec .scrub s = .next t ∧ t.car = s.car ∧ t.peers = s.peers ∧ (∀ a, t.dev.mem.read a = mem.read a) ∧
      ∀ a < Config.hbmSize, a ∉ t.dev.latent ∧ t.dev.mem.poisoned a = (mem.poisoned a || s.dev.latent.contains a)) ∧
    (∃ t, exec (.powerSample watts) s = .next t ∧ Untouched s t ∧
      let k := t.dev.house
      k.power.toNat = min watts 4095 ∧
      (h.cap.toNat < watts → (h.pacex < 14 → h.pacex < k.pacex ∧ k.pacex ≤ 14 ∧ k.thrp = h.thrp ∧ k.overCap = h.overCap) ∧
        (14 ≤ h.pacex → h.thrp < 192 → k.pacex = h.pacex ∧ h.thrp < k.thrp ∧ k.thrp ≤ 192 ∧ k.overCap = h.overCap) ∧
        (14 ≤ h.pacex → 192 ≤ h.thrp → k.pacex = h.pacex ∧ k.thrp = h.thrp ∧
          k.overCap = (h.overCap || decide (h.cap.toNat < 2600)))) ∧
      (watts ≤ h.cap.toNat → k.overCap = h.overCap ∧ (0 < h.thrp → k.thrp ≤ h.thrp ∧ k.pacex = h.pacex) ∧
        (h.thrp = 0 → k.thrp = 0 ∧ k.pacex ≤ h.pacex))) ∧
    (exec (.errClear false) s = .next s) ∧
    (∃ t, exec (.errClear true) s = .next t ∧ Untouched s t ∧ t.dev.house = { h with errCe := 0#64, errUe := 0#64 }) ∧
    (∃ t, exec .hostLinkDown s = .next t ∧ Untouched s t ∧ t.dev.house = { h with hold := false })

/-- A start leaves no car, no queue and no register of BAR0 as it was; at power-on HBM is empty and the record counts 1, else memory stands and
the record counts one more. Cores of a die that fails its test are disabled. A start is refused while the device is enabled or a consist is
resident. A restart with a new image, or back to the old one, waits until every consist that has been released is parked or gone; consists that have
still to start do not hold it up, which is the model's reading (notes/assumptions/14.md). An image boots only when it is valid and the fuses allow its
version (R457, R458, R460). -/
def Sys2Proof.Claims.StartsAndRestarts : Prop :=
  ∀ (dies : List Nat) (lines : List Ix16) (ports : List (Fin 128)) (steps : BitVec 18) (s : State),
    let h := s.dev.house
    let count := fun (t : State) => (t.dev.house.startRec.extractLsb' 32 16).toNat
    let afresh := fun (t : State) => t.car = Car.reset ∧ t.peers = [] ∧ t.old = none ∧ t.inbox = s.inbox ∧ t.dev.now = 0 ∧ t.dev.cache = [] ∧
      t.dev.sig.regs = {} ∧ t.dev.sig.slots = [] ∧ t.dev.sig.services = [] ∧ t.dev.sig.consists = [] ∧ t.dev.sig.specs = [] ∧
      t.dev.fab.regs = {} ∧ t.dev.house.cap = 2600#12 ∧ t.dev.house.hold = false ∧ t.dev.house.errUe = 0#64
    let quiet := s.dev.sig.regs.enable = false ∧ ∀ x ∈ s.dev.sig.consists, x.saved.isSome = true
    (∃ t, exec (.deviceStart dies lines ports steps) s = .next t ∧ afresh t ∧ count t = 1 ∧
      (∀ a, t.dev.mem.read a = if 2 ^ 51 ≤ a then s.dev.mem.read a else 0#8) ∧
      (steps = 0x15555#18 → (if h.fw.active then h.fw.validB else h.fw.validA) = true → h.fuse ≤ h.fw.version →
        ∀ k, k / 16 ∈ dies → t.dev.house.coreClass k = none)) ∧
    (quiet → ∀ i ∈ [Instr.startWarm, .startFull], ∃ t, exec i s = .next t ∧ afresh t ∧ t.dev.mem = s.dev.mem ∧
      count t = min 65535 (count s + 1)) ∧
    (¬ quiet → exec .startWarm s = .next s ∧ exec .startFull s = .next s) ∧
    (h.fw.pending = false ∨ (∃ x ∈ s.dev.sig.consists, x.saved = none ∧ (x.released = true ∨ x.resumed = true)) →
      exec .firmwareRestart s = .next s) ∧
    (h.fw.pending = true → (∀ x ∈ s.dev.sig.consists, x.saved = none → x.released = false ∧ x.resumed = false) → ∃ t, exec .firmwareRestart s = .next t ∧ Untouched s t ∧
      t.dev.house.fw.pending = false ∧ count t = min 65535 (count s + 1) ∧
      (h.cond.steps.extractLsb' 0 2 = 1#2 → (if h.fw.active then h.fw.validA else h.fw.validB) = true → h.fuse ≤ h.fw.inactiveVersion →
        t.dev.house.fw.active = !h.fw.active ∧ t.dev.house.fw.version = h.fw.inactiveVersion ∧
        t.dev.house.fw.inactiveVersion = h.fw.version ∧ t.dev.house.fw.fellBack = false) ∧
      ((if h.fw.active then h.fw.validA else h.fw.validB) = false ∨ h.fw.inactiveVersion < h.fuse →
        t.dev.house.fw.active = h.fw.active ∧ t.dev.house.fw.version = h.fw.version ∧ t.dev.house.fw.fellBack = true))

/-- Caches, errors, power, starts and restarts (R300 to R303, R455 to R458, R460, R463, R464). -/
def Obligations.LongLivedState : Prop := Sys2Proof.Claims.CachesPowerAndErrors ∧ Sys2Proof.Claims.StartsAndRestarts

/-- A device whose start has not trained the host link answers on the side-band only. Firmware updates go through their stages, over either
link, one session at a time; a command out of stage is refused and changes
nothing; the bytes of an update go to the inactive image, which is valid only once its signature and its version, against the fuses, have been
verified; a failure is reported; activation waits for the quiescent point, with every
speculation that is not adopted missed. Attestation answers requests in their order, measures the active image, what binning and the start
gave, the version and the fuses, and signs over the nonce and all of them (R457, R459, R460, R462). The
completion codes, the message codes and what indices 2 to 4 share are the model's (notes/assumptions/14.md). -/
def Obligations.UpdatesAndAttestation : Prop :=
  ∀ (i3c good : Bool) (chunk nonce : List Byte) (ver : BitVec 16) (slot index : Nat) (s : State),
    let f := s.dev.house.fw
    let linked := s.dev.house.startRec.extractLsb' 14 2 = 1#2
    let spare := if f.active then f.imageA else f.imageB
    let marked := fun (ok : Bool) => if f.active then { f with validA := ok } else { f with validB := ok }
    let holding := fun (bs : List Byte) => if f.active then { f with validA := false, imageA := bs } else { f with validB := false, imageB := bs }
    let answers := fun (i : Instr) (code : BitVec 8) (now : Firmware) => ∃ t, exec i s = .next t ∧ Untouched s t ∧
      t.dev.outbox = s.dev.outbox ++ [.pldm code] ∧ t.dev.house = { s.dev.house with fw := now }
    let refused := fun (i : Instr) => answers i (if f.stage = .idle then 0x80#8 else 0x84#8) f ∧ ∀ t, exec i s = .next t → t.dev.sig = s.dev.sig
    (i3c = false → ¬ linked → ∀ i ∈ [Instr.requestUpdate i3c, .passComponentTable i3c, .updateComponent i3c,
      .requestFirmwareData i3c chunk, .verifyComplete i3c good ver, .applyComplete i3c, .activateFirmware i3c, .cancelUpdate i3c, .getVersion i3c,
      .getCapabilities i3c, .negotiateAlgorithms i3c, .getDigests i3c, .getCertificate i3c slot, .challenge i3c nonce,
      .getMeasurements i3c index], exec i s = .next s) ∧
    (i3c = true ∨ linked →
    (f.stage = .idle → answers (.requestUpdate i3c) 0x00#8 { f with stage := .learn }) ∧
    (f.stage ≠ .idle → answers (.requestUpdate i3c) 0x81#8 f) ∧
    (if f.stage = .learn then answers (.passComponentTable i3c) 0x00#8 { f with stage := .ready } else refused (.passComponentTable i3c)) ∧
    (if f.stage = .ready ∨ f.stage = .activate then answers (.updateComponent i3c) 0x00#8 { holding [] with stage := .download }
      else refused (.updateComponent i3c)) ∧
    (if f.stage = .download then answers (.requestFirmwareData i3c chunk) 0x00#8 (holding (spare ++ chunk))
      else refused (.requestFirmwareData i3c chunk)) ∧
    (if f.stage = .download then
        (good = true → s.dev.house.fuse ≤ ver → answers (.verifyComplete i3c good ver) 0x00#8
          { marked true with stage := .apply, inactiveVersion := ver }) ∧
        (good = false → answers (.verifyComplete i3c good ver) 0x03#8 { marked false with stage := .ready }) ∧
        (good = true → ver < s.dev.house.fuse → answers (.verifyComplete i3c good ver) 0x02#8 { marked false with stage := .ready })
      else refused (.verifyComplete i3c good ver)) ∧
    (if f.stage = .apply then answers (.applyComplete i3c) 0x00#8 { f with stage := .activate } else refused (.applyComplete i3c)) ∧
    (if f.stage = .activate then answers (.activateFirmware i3c) 0x00#8 { f with stage := .idle, pending := true } ∧
        (∀ t, exec (.activateFirmware i3c) s = .next t → ∀ p ∈ t.dev.sig.specs, p.adopted = false → p.cause.isSome = true)
      else refused (.activateFirmware i3c)) ∧
    (if f.stage ≠ .idle then answers (.cancelUpdate i3c) 0x00#8 { f with stage := .idle } else refused (.cancelUpdate i3c)) ∧
    (let asked := s.dev.house.spdm
     let six := fun (i : Nat) (ws : List Word) => (List.range 6).map (fun j => (Config.digest i ws).extractLsb' (64 * j) 64)
     let image := (if f.active then f.imageB else f.imageA).map (fun b => b.setWidth 64)
     let words := fun (i : Nat) => if i = 1 then [] else if i = 5 then s.dev.house.harv.toList ++ [s.dev.house.binStat, s.dev.house.startRec.setWidth 64]
       else if i = 6 then [f.version.setWidth 64, s.dev.house.fuse.setWidth 64] ++ s.dev.house.harv.toList.map (fun w => w &&& 0x0000FFFFFFFF0000#64)
       else image
     let all := [1, 2, 3, 4, 5, 6].flatMap (fun i => six i (words i))
     let replies := fun (i : Instr) (code : BitVec 8) (x : List Word) (n : Nat) => ∃ t, exec i s = .next t ∧ Untouched s t ∧
       t.dev.outbox = s.dev.outbox ++ [.spdm code x] ∧ t.dev.house = { s.dev.house with spdm := n }
     replies (.getVersion i3c) 0x04#8 [0x1300#64] 1 ∧
     (if asked < 1 then replies (.getCapabilities i3c) 0x7F#8 [] asked else replies (.getCapabilities i3c) 0x61#8 [] 2) ∧
     (if asked < 2 then replies (.negotiateAlgorithms i3c) 0x7F#8 [] asked else replies (.negotiateAlgorithms i3c) 0x63#8 [] 3) ∧
     (if asked < 3 then replies (.getDigests i3c) 0x7F#8 [] asked else replies (.getDigests i3c) 0x01#8 (six 0 []) 3) ∧
     (if asked < 3 ∨ slot ≠ 0 then replies (.getCertificate i3c slot) 0x7F#8 [] asked else replies (.getCertificate i3c slot) 0x02#8 (six 0 []) 3) ∧
     (if asked < 3 then replies (.challenge i3c nonce) 0x7F#8 [] asked
       else replies (.challenge i3c nonce) 0x03#8 (six 7 (nonce.map (fun b => b.setWidth 64) ++ all)) 3) ∧
     (if asked < 3 ∨ (6 < index ∧ index ≠ 0xFF) then replies (.getMeasurements i3c index) 0x7F#8 [] asked
       else replies (.getMeasurements i3c index) 0x60#8 (if index = 0 then [6#64] else if index = 0xFF then all else six index (words index)) 3)))

/-! Encodings, bundles, steps and invariants (spec 01, 03, 04, 12). -/

/-- Words put together field by field from the tables of R69, R72 to R83 decode to the instruction they stand for, alone in a bundle, also with
the L slots that extend them. -/
def Obligations.SampleWordsDecode : Prop :=
  (∀ e ∈ ([
      (0#1 ++ 0#3 ++ 0#1 ++ 0x01#7 ++ 3#6 ++ 1#6 ++ 2#6 ++ 0#2, .add false 3 1 2 false),
      (0#1 ++ 0#3 ++ 1#1 ++ 0x0B#7 ++ 63#6 ++ 62#6 ++ 61#6 ++ 1#2, .mulhu true 63 62 61 true),
      (0#1 ++ 0#3 ++ 0#1 ++ 0x20#7 ++ 5#6 ++ 6#6 ++ 0xFF#8, .addi false 5 6 0xFFFFFFFFFFFFFFFF#64),
      (0#1 ++ 0#3 ++ 0#1 ++ 0x36#7 ++ 7#6 ++ 8#6 ++ 0x80#8, .ldd false 7 8 0xFFFFFFF80#36),
      (0#1 ++ 0#3 ++ 0#1 ++ 2#2 ++ 7#3 ++ 1#2 ++ 9#6 ++ 10#6 ++ 11#6 ++ 3#2, .acas false 1#2 9 10 11 3#2),
      (0#1 ++ 0#3 ++ 0#1 ++ 0x61#7 ++ 4#6 ++ 0x3FFE#14, .bnz false 4 0x3FFFFFFFFFE#42),
      (0#1 ++ 0#3 ++ 0#1 ++ 0x76#7 ++ 2#6 ++ 0x3FF#14, .srd false 2 0x3FF#14),
      (0#1 ++ 1#3 ++ 0#1 ++ 0x03#6 ++ 1#6 ++ 2#6 ++ 3#6 ++ 4#3, .vfma false 1 2 3 4),
      (0#1 ++ 1#3 ++ 0#1 ++ 0x18#6 ++ 5#6 ++ 6#6 ++ 63#6 ++ 0#3, .vld false 5 6 63#34 0),
      (0#1 ++ 1#3 ++ 0#1 ++ 0x33#6 ++ 15#6 ++ 14#6 ++ 13#6 ++ 0#3, .vkand false 15 14 13),
      (0#1 ++ 1#3 ++ 0#1 ++ 0x3F#6 ++ 7#6 ++ 8#6 ++ 7#6 ++ 1#3, .vtanh false 7 8 1),
      (0#1 ++ 2#3 ++ 0#1 ++ 0x01#5 ++ 33#6 ++ 9#4 ++ 1#1 ++ 0#1 ++ 1#1 ++ 0#9, .mbt false 33 9#4 true false true),
      (0#1 ++ 3#3 ++ 0#1 ++ 0x01#6 ++ 1#4 ++ 2#4 ++ 3#6 ++ 1#1 ++ 0#1 ++ 2#2 ++ 1#1 ++ 0#2, .ccpy false 1 2 3 true false 2#2 true),
      (0#1 ++ 4#3 ++ 0#1 ++ 0x09#6 ++ 40#6 ++ 300#15, .ywait false 40 300#16)] : List (Slot × Instr)),
    decodeTableWord 32 e.1.toNat = some e.2) ∧
  (∀ e ∈ ([
      ([0#1 ++ 0#3 ++ 0#1 ++ 0x2C#7 ++ 1#6 ++ 0#6 ++ 0x88#8, 0#1 ++ 5#3 ++ 0x5566777#28, 1#1 ++ 5#3 ++ 0x1122334#28],
        .li false 1 0x1122334556677788#64),
      ([0#1 ++ 0#3 ++ 0#1 ++ 0x35#7 ++ 1#6 ++ 2#6 ++ 0x01#8, 1#1 ++ 5#3 ++ 0x2#28], .ldwu false 1 2 0x201#36),
      ([0#1 ++ 4#3 ++ 0#1 ++ 0x0D#6 ++ 3#6 ++ 12#15, 1#1 ++ 5#3 ++ 5#14 ++ 6#14], .yloop false 3 12#15 5#14 6#14)] : List (List Slot × Instr)),
    (frameBundle e.1).map (fun f => (decodeFramed f.1).toOption) = some (some [e.2]))

/-- Decode of encode: the words that encode any well-formed slot instruction, with every operand at every value that its encoding admits, are
one bundle, and decode to that instruction and no other (R62 to R83). -/
def Obligations.EncodedInstructionsDecode : Prop :=
  ∀ (i : Instr) (s : State), (slotOf i s).isSome = true → i.wf = true →
    ∃ w ls, frameBundle (encode i) = some ([(w, ls)], 1 + ls.length) ∧ decodeFramed [(w, ls)] = .ok [i]

/-- Encode of decode: a slot without L slots that decodes is well-formed, and encoding what it decodes to gives the slot again, so no two slots
mean one instruction, and every reserved opcode, reserved field or unused field that is not zero is refused; only the END bit, which the bundle carries, is not the instruction's (R69, R70, R72 to R83). -/
def Obligations.DecodedSlotsEncodeBack : Prop :=
  ∀ (w : Slot) (i : Instr), (lRange w).1 = 0 → decodeSlot w [] = .ok i →
    i.wf = true ∧ encodeSlot i = (0#1 ++ w.extractLsb' 0 31, []) ∧ ∀ s : State, (slotOf i s).isSome = true

/-- s0 reads as zero, is full, and every write to it is discarded, at once or later; s63 takes the link address of a CALL and is otherwise an
ordinary register (R15). -/
def Obligations.ScalarZeroAndLink : Prop :=
  ∀ (te w : Bool) (a b : SReg) (imm : Word) (off : BitVec 42) (x : Word) (n : Nat) (s : State),
    let t : Word := s.src.pc.setWidth 64 + off.signExtend 64 * 4#64
    s.rS 0 = 0#64 ∧ s.src.isFull (.s 0) = true ∧ s.src.isPoisoned (.s 0) = false ∧
    s.wS 0 x = s ∧ s.produceS 0 n x = s ∧
    (s.Readable [.s a, .s b] → ∀ i ∈ [Instr.add te 0 a b w, .sub te 0 a b w, .and te 0 a b w, .or te 0 a b w, .xor te 0 a b w, .sel te 0 a b w,
      .mul te 0 a b w, .bfx te 0 a b w, .addi te 0 a imm, .muli te 0 a imm, .li te 0 imm], s.Readable [.s 0] → exec i s = .next s) ∧
    (s.Room [.s 63] → t.toNat < 0x20000 → ∃ u, exec (.call te off) s = .next u ∧
      u.car.rS 63 = s.car.seqPc.setWidth 64 ∧ u.car.pc = t.extractLsb' 0 17) ∧
    ((s.wS 63 x).car.rS 63 = x ∧ ∀ r : SReg, r ≠ 63 → (s.wS 63 x).car.rS r = s.car.rS r)

/-- What a slot does: with its needs met it has its effect; a wait and a walk leave everything as it stood before the bundle, but for the walk
and the cycle since which the bundle stands at issue, from which the handler's first cycle counts;
a precise cause enters the handler before the bundle, with every register, the scratchpad and the package as they stood; while traps are masked
it is a double fault, which aborts the consist with cause 7; in a speculation it dooms the speculation and enters no handler, as an
asynchronous cause does (R165, R322, R330). -/
def Obligations.SlotsIssueWaitOrTrap : Prop :=
  (∀ (i : Instr) (o : SlotOp) (s : State), slotOf i s = some o →
    (o.plan.Passes s → exec i s = .next (o.eff s)) ∧
    ∀ (c : Car) (d : Device), s.old = some (c, d) → s.dev.now = d.now →
      let back : State := { s with car := c, dev := d, old := none }
      (s.verdict [o.plan] = .wait → exec i s = .next { back with car := c.stand d.now }) ∧
      (∀ va, s.verdict [o.plan] = .walk va → exec i s = .next { back with
        car := { c.stand d.now with eng := { c.eng with walk := .running va d.now } } }) ∧
      (∀ k, s.verdict [o.plan] = .trap k → c.place.spec = false → c.tr.masked = false → c.wait = [] → ∃ t, exec i s = .next t ∧
        InHandler t c (c.stood.getD d.now) d.now k c.pc c.pc ∧ t.car.regs = c.regs ∧ t.car.spad = c.spad ∧ t.dev = d ∧ t.peers = s.peers) ∧
      (∀ k, s.verdict [o.plan] = .trap k → c.place.spec = false → c.tr.masked = true → ∃ t, exec i s = .next t ∧ t.dev.mem = d.mem ∧
        t.car.life = .idle ∧ ∀ x, back.consistOf c = some x → (∀ a ∈ t.cars, x.holds a = false) ∧
          (∀ y ∈ t.dev.sig.consists, y.same x = false) ∧
          ∀ v ∈ t.dev.sig.services, v.q = x.q → v.seq = x.seq → ∃ u ∈ d.sig.services, u.order = v.order ∧
            v.err = some (u.err.getD (7#8, c.ident.carId))) ∧
      (s.verdict [o.plan] = .doom ∨ (c.place.spec = true ∧ ∃ k, s.verdict [o.plan] = .trap k) → ∃ t, exec i s = .next t ∧ t.car = c ∧
        t.peers = s.peers ∧ t.dev.mem = d.mem ∧ ∀ p ∈ t.dev.sig.specs, p.svc.q = c.ident.serviceId.extractLsb' 32 16 →
          p.svc.seq = c.ident.serviceId.extractLsb' 0 32 → p.cause.isSome = true)) ∧
  (∀ s : State, s.mayTrap = true → s.car.place.spec = true → s.old = none → ∃ t, exec (.takeTrap s.car.ref) s = .next t ∧
    t.car.tr.handler = s.car.tr.handler ∧ t.car.regs = s.car.regs ∧ ∀ p ∈ t.dev.sig.specs,
      p.svc.q = s.car.ident.serviceId.extractLsb' 32 16 → p.svc.seq = s.car.ident.serviceId.extractLsb' 0 32 → p.cause.isSome = true)

/-- Of the slots of a bundle one decides: the bundle traps for the first cause of the order ILLEGAL_INSN, PRIV, EMPTY, any other, and for the
earliest slot that has it; it waits while a unit is occupied or a slot has to wait, also where another would raise EMPTY, and while a register
that it reads or writes is empty; else it issues. Poison of a source comes before the slot's own checks (R71, R88, R134). -/
def Obligations.OneVerdictForABundle : Prop :=
  ∀ (ps : List Plan) (s : State),
    let full := fun (os : List Opnd) => ∀ o ∈ os, s.src.isFull o = true
    let illegal := ∃ p ∈ ps, p.illegal = true
    let priv := ∃ p ∈ ps, p.priv = true
    let held := s.unitsBusy ps = true ∨ ∃ p ∈ ps, p.wait = true
    let empty := ∃ p ∈ ps, p.te = true ∧ ¬ full p.srcs
    let blocked := ∃ p ∈ ps, ¬ full p.srcs ∨ ¬ full p.dsts
    let clean := fun (p : Plan) => (∀ o ∈ p.srcs, s.src.isPoisoned o = false) ∧ p.cause = none
    (illegal → s.verdict ps = .trap ⟨.illegalInsn, s.src.pc.setWidth 64, false, 0#6⟩) ∧
    (¬ illegal → priv → s.verdict ps = .trap ⟨.priv, s.src.pc.setWidth 64, false, 0#6⟩) ∧
    (¬ illegal → ¬ priv → held → s.verdict ps = .wait) ∧
    (¬ illegal → ¬ priv → ¬ held → empty → s.verdict ps = .trap ⟨.empty, s.src.pc.setWidth 64, false, 0#6⟩) ∧
    (¬ illegal → ¬ priv → ¬ held → ¬ empty → blocked → s.verdict ps = .wait) ∧
    (∀ a p b, ps = a ++ p :: b → ¬ illegal → ¬ priv → ¬ held → ¬ empty → ¬ blocked → (∀ q ∈ a, clean q) →
      ((∃ o ∈ p.srcs, s.src.isPoisoned o = true) → s.verdict ps = .trap ⟨.uncorrectable, s.src.pc.setWidth 64, false, 0#6⟩) ∧
      (∀ k, (∀ o ∈ p.srcs, s.src.isPoisoned o = false) → p.cause = some k → s.verdict ps = .trap k)) ∧
    (¬ illegal → ¬ priv → ¬ held → ¬ empty → ¬ blocked → (∀ q ∈ ps, clean q) →
      ((∃ p ∈ ps, p.dooms = true) → s.verdict ps = .doom) ∧
      ((∀ p ∈ ps, p.dooms = false ∧ p.walk = none) → s.verdict ps = .go))

/-- A step of a car that is about to attempt its next bundle, where the bundle is one slot with its L slots: the step runs the decoded
instruction. When the bundle may issue, the step is exec of the instruction at the state in which the bundle has begun (every slot reads what
stood before, the fetch address is past the bundle), then the end of the bundle; else the step is what exec answers there, with a note of the
copy numbers for which the bundle waits: the bundle waits, traps or dooms. While the parity of a register that it reads fails, a bundle that
would go on waits a cycle, and the register is read again: a second failure poisons it (R454). A debugger's step in progress ends there. -/
def Obligations.StepRunsTheDecodedInstruction : Prop :=
  ∀ (i : Instr) (fs : List Framed) (s : State), s.AboutToIssue → s.primaryOf s.car = none → s.car.fetch = .ok ⟨fs, [i], false, false⟩ →
    let b : Bundle := ⟨fs, [i], false, false⟩
    let r := s.mapCar (fun c => { c with done := true })
    let u := r.openBundle
    let w := (r.noteWants b).openBundle
    let pc := s.car.pc
    u.old = some ({ s.car with done := true }, s.dev) ∧ u.car.pc = s.car.pc + BitVec.ofNat 17 (4 * s.car.imem.slotsFrom s.car.pc.toNat 8) ∧
    u.car.regs = s.car.regs ∧
    (u.judge b = .go → ∃ t, exec i (u.takeUnits b) = .next t ∧ step s = .next (t.closeBundle.afterBundle pc)) ∧
    ((u.judge b = .wait ∧ u.struck (u.plans b) = []) ∨ (∃ va, u.judge b = .walk va) → step s = exec i w) ∧
    (u.judge b = .wait → u.struck (u.plans b) ≠ [] → ∃ t, step s = .next t ∧ t.old = none ∧ t.car.pc = s.car.pc ∧ t.dev.mem = s.dev.mem ∧
      ∀ o ∈ u.struck (u.plans b), t.car.parityFails o = false ∧
        t.car.poisonS o = (s.car.poisonS o || s.car.marks.againS.getLsbD (s.car.physS o).val)) ∧
    (u.judge b = .doom ∨ (∃ k, u.judge b = .trap k) → ∃ t, exec i w = .next t ∧ step s = .next (t.afterBundle pc)) ∧
    (∀ k : Units, { w.car with units := k } = { u.car with units := k } ∧ w.dev = u.dev ∧ w.peers = u.peers) ∧
    (∀ t : State, (t.debugOf t.car).stat.getLsbD 8 = false → t.afterBundle pc = t) ∧ (∀ t : State, t.old = none → t.closeBundle = t)

/-- No instruction, no event and no step of the machine is a fault or a refusal. -/
def Obligations.EveryStepAnswersANextState : Prop :=
  (∀ (i : Instr) (s : State), ∃ t, exec i s = .next t) ∧ ∀ s : State, ∃ t, step s = .next t

/-- A bundle issues whole within a step, or not at all: no step ends inside a bundle (R62, R89, R322). -/
def Obligations.NoStepEndsInsideABundle : Prop := ∀ s t : State, s.Between → step s = .next t → t.Between

/-- Every memory of the machine stays in its canonical form, so equal memories are equal data: the package's, that of other packages, shadow
pages, scratchpads and instruction memories, those of saved cars and running copies (notes/assumptions/3.md). -/
def Obligations.EveryStepKeepsMemoryCanonical : Prop :=
  ∀ s t : State, s.Between → s.memOk = true → step s = .next t → t.memOk = true

/-- The machine after reset: no bundle in issue, memories canonical and empty, no car running, and the values that the spec states for the
registers of a car and of BAR0 (R12, R33, R350, R378, R400, R438, R443, R446, R456, R463, R464). -/
def Obligations.ResetHoldsItsValues : Prop :=
  let s := State.reset
  let c := s.car
  let d := s.dev
  s.Between ∧ s.memOk = true ∧ s.peers = [] ∧ s.inbox = [] ∧ c.life = .idle ∧ d.mem = Mem.empty ∧
  c.marks = {} ∧ c.regs.h = Vector.replicate 32 {} ∧ c.regs.fmt = 0#20 ∧ c.regs.f = Vector.replicate 64 0#16 ∧ c.tr.handler = false ∧ c.tr.masked = false ∧
  c.ctl.ccyc = 0#64 ∧ c.ctl.tvec = 0x1E000#17 ∧ c.ctl.vbank = 0#8 ∧ c.ctl.vflags = 0#8 ∧ c.ctl.flagovf = 0#64 ∧ c.ctl.mgsel = 0xFFFF#16 ∧
  c.ctl.rcnt = 1#11 ∧ c.ctl.lslack = 4#7 ∧ c.ctl.wadrTmo = 0#32 ∧ c.ctl.wdog = 0#32 ∧ c.ctl.wmap = Vector.replicate 16 0#10 ∧
  c.ctl.wal = Vector.replicate 16 0#8 ∧
  d.readReg 0x0000 = 0x00019320#64 ∧ d.readReg 0x0008 = 0#64 ∧ d.readReg 0x0018 = 200#64 ∧ d.readReg 0x0040 = 0x10101010#64 ∧
  d.readReg 0x0048 = 10000#64 ∧ d.readReg 0x0060 = 50#64 ∧ d.readReg 0x0068 = 0#64 ∧ d.readReg 0x0100 = 0x80#64 ∧
  d.readReg 0x0118 = 0#64 ∧ d.readReg 0x0208 = 0#64 ∧ d.readReg 0x220300 = 0#64 ∧ d.readReg 0x220308 = 0#64 ∧ d.readReg 0x220500 = 0#64 ∧
  d.readReg 0x220508 = 0#64 ∧ d.readReg 0x220600 = 2600#64 ∧ (d.readReg 0x300000).extractLsb' 0 32 = 0x10000001#32
end

