-- ==== Sys2Proof/Laws/Store.lean ====
section
/-!
SUPPORT. The laws of byte memory: a read after a write, what a write leaves alone, and that every memory operation keeps
the canonical form (notes/assumptions/3.md).
-/
namespace Sys2Proof.Machine

/-! The canonical form. -/

/-- `rising` as a relation between every two entries. -/
theorem rising_iff (l : List Nat) : rising l = true ↔ l.Pairwise (· < ·) := by
  induction l with
  | nil => simp [rising]
  | cons a t ih =>
    cases t with
    | nil => simp [rising]
    | cons b t =>
      simp only [rising, Bool.and_eq_true, decide_eq_true_eq, ih, List.pairwise_cons, List.mem_cons, forall_eq_or_imp]
      constructor
      · rintro ⟨hab, hb, ht⟩
        exact ⟨⟨hab, fun c hc => Nat.lt_trans hab (hb c hc)⟩, hb, ht⟩
      · rintro ⟨⟨hab, -⟩, hb, ht⟩
        exact ⟨hab, hb, ht⟩

/-- The canonical form in three parts. -/
theorem Mem.wf_iff (m : Mem) : m.wf = true ↔
    m.cells.Pairwise (fun x y => x.1 < y.1) ∧ (∀ c ∈ m.cells, c.2 ≠ 0#8) ∧ m.poison.Pairwise (· < ·) := by
  simp [Mem.wf, rising_iff, List.pairwise_map, and_assoc]

/-- A list cut below `lo` and from `hi` up stays rising around a middle part that lies between. -/
theorem pairwise_splice {α : Type} (f : α → Nat) {xs mid : List α} {lo hi : Nat} (h : xs.Pairwise (fun x y => f x < f y))
    (hm : mid.Pairwise (fun x y => f x < f y)) (hb : ∀ x ∈ mid, lo ≤ f x ∧ f x < hi) (hl : lo ≤ hi) :
    (xs.filter (fun c => decide (f c < lo)) ++ mid ++ xs.filter (fun c => decide (hi ≤ f c))).Pairwise
      (fun x y => f x < f y) := by
  simp only [List.pairwise_append, List.mem_append, List.mem_filter, decide_eq_true_eq]
  refine ⟨⟨h.filter _, hm, fun a ha b hb' => ?_⟩, h.filter _, fun a ha b hb' => ?_⟩
  · have := hb b hb'
    omega
  · rcases ha with ha | ha
    · omega
    · have := hb a ha
      omega

/-- Written cells lie in the written range and are not zero. -/
theorem cellsOf_bounds (bs : List Byte) : ∀ (a : Nat), ∀ c ∈ cellsOf a bs, a ≤ c.1 ∧ c.1 < a + bs.length ∧ c.2 ≠ 0#8 := by
  induction bs with
  | nil => simp [cellsOf]
  | cons b t ih =>
    intro a c hc
    simp only [cellsOf] at hc
    split at hc
    · have := ih (a + 1) c hc
      simp only [List.length_cons]
      exact ⟨by omega, by omega, this.2.2⟩
    · rename_i hz
      rcases List.mem_cons.1 hc with rfl | hc
      · exact ⟨Nat.le_refl _, by simp, by simpa using hz⟩
      · have := ih (a + 1) c hc
        simp only [List.length_cons]
        exact ⟨by omega, by omega, this.2.2⟩

/-- Written cells rise. -/
theorem cellsOf_rises (bs : List Byte) : ∀ a : Nat, (cellsOf a bs).Pairwise (fun x y => x.1 < y.1) := by
  induction bs with
  | nil => simp [cellsOf]
  | cons b t ih =>
    intro a
    simp only [cellsOf]
    split
    · exact ih _
    · refine List.Pairwise.cons (fun c hc => ?_) (ih _)
      have := cellsOf_bounds t _ c hc
      omega

/-- Filtering keeps the canonical form. -/
theorem Mem.wf_filter {m : Mem} (h : m.wf = true) (p : Host.Cell → Bool) (q : Nat → Bool) :
    Mem.wf { cells := m.cells.filter p, poison := m.poison.filter q } = true := by
  rw [Mem.wf_iff] at h ⊢
  exact ⟨h.1.filter _, fun c hc => h.2.1 c (List.mem_filter.1 hc).1, h.2.2.filter _⟩

/-- The empty memory is in canonical form. -/
theorem Mem.wf_empty : Mem.empty.wf = true := rfl

/-- A write keeps the canonical form. -/
theorem Mem.wf_write {m : Mem} (h : m.wf = true) (a : Nat) (bs : List Byte) : (m.write a bs).wf = true := by
  rw [Mem.wf_iff] at h ⊢
  refine ⟨?_, ?_, h.2.2.filter _⟩
  · exact pairwise_splice Prod.fst h.1 (cellsOf_rises bs a)
      (fun x hx => ⟨(cellsOf_bounds bs a x hx).1, (cellsOf_bounds bs a x hx).2.1⟩) (Nat.le_add_right _ _)
  · intro c hc
    simp only [Mem.write, List.mem_append, List.mem_filter] at hc
    rcases hc with (hc | hc) | hc
    · exact h.2.1 c hc.1
    · exact (cellsOf_bounds bs a c hc).2.2
    · exact h.2.1 c hc.1

/-- A write of a value keeps the canonical form. -/
theorem Mem.wf_writeNat {m : Mem} (h : m.wf = true) (a n x : Nat) : (m.writeNat a n x).wf = true := Mem.wf_write h _ _

/-- A write of scattered bytes keeps the canonical form. -/
theorem Mem.wf_writeAll (ps : List (Nat × Byte)) : ∀ {m : Mem}, m.wf = true → (m.writeAll ps).wf = true := by
  induction ps with
  | nil => exact fun h => h
  | cons p t ih => exact fun h => ih (Mem.wf_write h _ _)

/-- Rising addresses of a range. -/
theorem range_rises (a n : Nat) : ((List.range n).map (fun i => a + i)).Pairwise (· < ·) := by
  rw [List.pairwise_map]
  exact List.pairwise_lt_range.imp (fun h => by omega)

/-- Poison keeps the canonical form. -/
theorem Mem.wf_setPoison {m : Mem} (h : m.wf = true) (a n : Nat) : (m.setPoison a n).wf = true := by
  rw [Mem.wf_iff] at h ⊢
  refine ⟨h.1, h.2.1, ?_⟩
  exact pairwise_splice id h.2.2 (range_rises a n) (by simp) (Nat.le_add_right _ _)

/-- Replacing a granule keeps the canonical form, when what is put lies in the granule. -/
theorem Mem.wf_putGranule {m x : Mem} {g : Nat} (h : m.wf = true) (hx : x.wf = true)
    (hc : ∀ c ∈ x.cells, g * 0x10000 ≤ c.1 ∧ c.1 < (g + 1) * 0x10000)
    (hp : ∀ a ∈ x.poison, g * 0x10000 ≤ a ∧ a < (g + 1) * 0x10000) : (m.putGranule g x).wf = true := by
  rw [Mem.wf_iff] at h hx ⊢
  have hl : g * 0x10000 ≤ (g + 1) * 0x10000 := by omega
  refine ⟨pairwise_splice Prod.fst h.1 hx.1 hc hl, ?_, pairwise_splice id h.2.2 hx.2.2 hp hl⟩
  intro c hc'
  simp only [Mem.putGranule, List.mem_append, List.mem_filter] at hc'
  rcases hc' with (hc' | hc') | hc'
  · exact h.2.1 c hc'.1
  · exact hx.2.1 c hc'
  · exact h.2.1 c hc'.1

/-! Reads and writes. -/

/-- Cells that are all elsewhere read as zero. -/
theorem cells_read_none {xs : Cells} {a : Nat} (h : ∀ c ∈ xs, c.1 ≠ a) : Cells.read xs a = 0#8 := by
  have : xs.find? (fun c => c.1 == a) = none := by
    rw [List.find?_eq_none]
    simpa using h
  simp [Cells.read, this]

/-- A front part without the address does not matter. -/
theorem cells_read_right {xs ys : Cells} {a : Nat} (h : ∀ c ∈ xs, c.1 ≠ a) : Cells.read (xs ++ ys) a = Cells.read ys a := by
  have : xs.find? (fun c => c.1 == a) = none := by
    rw [List.find?_eq_none]
    simpa using h
  simp [Cells.read, List.find?_append, this]

/-- A rear part without the address does not matter. -/
theorem cells_read_left {xs ys : Cells} {a : Nat} (h : ∀ c ∈ ys, c.1 ≠ a) : Cells.read (xs ++ ys) a = Cells.read xs a := by
  have : ys.find? (fun c => c.1 == a) = none := by
    rw [List.find?_eq_none]
    simpa using h
  simp [Cells.read, List.find?_append, this]

/-- A filter that keeps an address keeps its byte. -/
theorem cells_read_filter (xs : Cells) (p : Nat → Bool) (a : Nat) :
    Cells.read (xs.filter (fun c => p c.1)) a = if p a then Cells.read xs a else 0#8 := by
  induction xs with
  | nil => simp [Cells.read]
  | cons c t ih =>
    simp only [Cells.read, List.filter_cons, List.find?_cons] at ih ⊢
    by_cases hc : c.1 = a
    · subst hc
      cases hp : p c.1
      · simpa [hp] using ih
      · simp
    · have hb : (c.1 == a) = false := by simpa using hc
      cases hp : p c.1
      · simpa [hb] using ih
      · simpa [hb, List.find?_cons] using ih

/-- Written cells hold the written bytes. -/
theorem cells_read_cellsOf (bs : List Byte) : ∀ (a x : Nat),
    Cells.read (cellsOf a bs) x = if a ≤ x then bs.getD (x - a) 0#8 else 0#8 := by
  induction bs with
  | nil => intro a x; simp [cellsOf, Cells.read]
  | cons b t ih =>
    intro a x
    have hs : ∀ y, a + 1 ≤ y → (b :: t).getD (y - a) 0#8 = t.getD (y - (a + 1)) 0#8 := fun y hy => by
      obtain ⟨k, rfl⟩ := Nat.exists_eq_add_of_le hy
      rw [show a + 1 + k - a = k + 1 by omega, show a + 1 + k - (a + 1) = k by omega]
      simp
    simp only [cellsOf]
    by_cases hx : x = a
    · subst hx
      by_cases hb : b = 0#8
      · subst hb
        simp [ih]
      · simp [hb, Cells.read]
    · have e : Cells.read (if b == 0#8 then cellsOf (a + 1) t else (a, b) :: cellsOf (a + 1) t) x
          = Cells.read (cellsOf (a + 1) t) x := by
        split
        · rfl
        · simp [Cells.read, Ne.symm hx]
      rw [e, ih]
      by_cases hle : a + 1 ≤ x
      · rw [if_pos hle, if_pos (by omega), hs x hle]
      · rw [if_neg hle, if_neg (by omega)]

/-- What a write does to every byte: those of the written range hold what was written, all others stand. -/
theorem Mem.read_write (m : Mem) (a : Nat) (bs : List Byte) (x : Nat) :
    (m.write a bs).read x = if a ≤ x ∧ x < a + bs.length then bs.getD (x - a) 0#8 else m.read x := by
  have h1 := cells_read_filter m.cells (fun y => decide (y < a)) x
  have h3 := cells_read_filter m.cells (fun y => decide (a + bs.length ≤ y)) x
  have low : ¬ x < a → ∀ c ∈ m.cells.filter (fun c => decide (c.1 < a)), c.1 ≠ x := fun hn c hc he => by
    simp only [List.mem_filter, decide_eq_true_eq] at hc
    omega
  have high : x < a + bs.length → ∀ c ∈ m.cells.filter (fun c => decide (a + bs.length ≤ c.1)), c.1 ≠ x := fun hn c hc he => by
    simp only [List.mem_filter, decide_eq_true_eq] at hc
    omega
  have mid : ¬ (a ≤ x ∧ x < a + bs.length) → ∀ c ∈ cellsOf a bs, c.1 ≠ x := fun hn c hc he => by
    have := cellsOf_bounds bs a c hc
    omega
  simp only [Mem.read, Mem.write]
  by_cases hlo : x < a
  · rw [cells_read_left (high (by omega)), cells_read_left (mid (by omega)), h1, if_pos (decide_eq_true hlo),
      if_neg (by omega)]
  · by_cases hhi : x < a + bs.length
    · rw [cells_read_left (high hhi), cells_read_right (low hlo), cells_read_cellsOf, if_pos (by omega), if_pos (by omega)]
    · rw [List.append_assoc, cells_read_right (low hlo), cells_read_right (mid (by omega)), h3,
        if_pos (decide_eq_true (Nat.le_of_not_lt hhi)), if_neg (by omega)]

/-- A write leaves every byte outside its range as it was. -/
theorem Mem.read_write_other (m : Mem) {a x : Nat} {bs : List Byte} (h : x < a ∨ a + bs.length ≤ x) :
    (m.write a bs).read x = m.read x := by
  rw [Mem.read_write, if_neg (by omega)]

/-- Bytes read where they were just written are the bytes written. -/
theorem Mem.readBytes_write (m : Mem) (a : Nat) (bs : List Byte) : (m.write a bs).readBytes a bs.length = bs := by
  apply List.ext_getElem
  · simp [Mem.readBytes]
  · intro i h1 h2
    simp [Mem.readBytes, Mem.read_write, h2]

/-- A poison mark changes no byte. -/
@[simp] theorem Mem.read_setPoison (m : Mem) (a n x : Nat) : (m.setPoison a n).read x = m.read x := rfl

/-- The bytes of a value are as many as asked for. -/
@[simp] theorem bytesLE_length (n : Nat) : ∀ x : Nat, (bytesLE n x).length = n := by
  induction n with
  | zero => exact fun _ => rfl
  | succ n ih => exact fun x => by simp [bytesLE, ih]

/-- The value of the bytes of a value is that value, as far as the bytes reach. -/
theorem natLE_bytesLE (n : Nat) : ∀ x : Nat, natLE (bytesLE n x) = x % 256 ^ n := by
  induction n with
  | zero => intro x; simp [bytesLE, natLE, Nat.mod_one]
  | succ n ih =>
    intro x
    have : x % 256 ^ (n + 1) = x % 256 + 256 * (x / 256 % 256 ^ n) := by rw [Nat.pow_succ', Nat.mod_mul]
    rw [this, bytesLE, natLE, ih, BitVec.toNat_ofNat]

/-- A value read where it was just written. -/
theorem Mem.readNat_writeNat (m : Mem) (a n x : Nat) : (m.writeNat a n x).readNat a n = x % 256 ^ n := by
  have h := Mem.readBytes_write m a (bytesLE n x)
  rw [bytesLE_length] at h
  rw [Mem.readNat, Mem.writeNat, h, natLE_bytesLE]

/-! Sparse tables. -/

/-- The entry just set. -/
@[simp] theorem Tab.get_set_self {α : Type} (d : α) (t : Tab α) (i : Nat) (x : α) : (Tab.set t i x).get d i = x := by
  unfold Tab.get Tab.set
  have : (List.filter (fun c : Nat × α => decide (c.1 < i)) t).find? (fun c => c.1 == i) = none := by
    rw [List.find?_eq_none]
    intro c hc
    have := (List.mem_filter.1 hc).2
    simp only [decide_eq_true_eq] at this
    simp only [beq_iff_eq]
    omega
  rw [List.find?_append, this]
  simp

/-- Every other entry stands. -/
theorem Tab.get_set_other {α : Type} (d : α) (t : Tab α) {i j : Nat} (x : α) (h : j ≠ i) : (Tab.set t i x).get d j = t.get d j := by
  have key : ∀ (l : List (Nat × α)) (p : Nat → Bool),
      (l.filter (fun c => p c.1)).find? (fun c => c.1 == j) = if p j then l.find? (fun c => c.1 == j) else none := by
    intro l p
    induction l with
    | nil => simp
    | cons c t ih =>
      by_cases hc : c.1 = j
      · subst hc
        cases hp : p c.1
        · simpa [List.filter_cons, hp] using ih
        · simp [hp]
      · cases hp : p c.1 <;> simp [hp, hc, ih]
  have k1 := key t (fun y => decide (y < i))
  have k2 := key t (fun y => decide (i < y))
  unfold Tab.get Tab.set
  rw [List.find?_append, k1, List.find?_cons, k2]
  simp only [decide_eq_true_eq]
  have : (i == j) = false := by simpa using Ne.symm h
  simp only [this]
  by_cases hlt : j < i
  · rw [if_pos hlt, if_neg (by omega)]
    cases t.find? (fun c => c.1 == j) <;> rfl
  · rw [if_neg hlt, if_pos (by omega)]
    simp

end Sys2Proof.Machine
end

