-- ==== Sys2Proof/Laws/State.lean ====
section
/-!
SUPPORT. What each update of the state, of a car and of the package leaves in each field.
-/
namespace Sys2Proof.Machine

/-! The state. -/

@[simp] theorem State.mapCar_car (s : State) (f : Car → Car) : (s.mapCar f).car = f s.car := rfl
@[simp] theorem State.mapCar_peers (s : State) (f : Car → Car) : (s.mapCar f).peers = s.peers := rfl
@[simp] theorem State.mapCar_dev (s : State) (f : Car → Car) : (s.mapCar f).dev = s.dev := rfl
@[simp] theorem State.mapCar_old (s : State) (f : Car → Car) : (s.mapCar f).old = s.old := rfl
@[simp] theorem State.mapCar_inbox (s : State) (f : Car → Car) : (s.mapCar f).inbox = s.inbox := rfl
@[simp] theorem State.mapCar_fresh (s : State) (f : Car → Car) : (s.mapCar f).fresh = s.fresh := rfl
@[simp] theorem State.mapDev_car (s : State) (f : Device → Device) : (s.mapDev f).car = s.car := rfl
@[simp] theorem State.mapDev_peers (s : State) (f : Device → Device) : (s.mapDev f).peers = s.peers := rfl
@[simp] theorem State.mapDev_dev (s : State) (f : Device → Device) : (s.mapDev f).dev = f s.dev := rfl
@[simp] theorem State.mapDev_old (s : State) (f : Device → Device) : (s.mapDev f).old = s.old := rfl
@[simp] theorem State.mapDev_inbox (s : State) (f : Device → Device) : (s.mapDev f).inbox = s.inbox := rfl
@[simp] theorem State.mapDev_fresh (s : State) (f : Device → Device) : (s.mapDev f).fresh = s.fresh := rfl
@[simp] theorem State.mapCars_car (s : State) (f : Car → Car) : (s.mapCars f).car = f s.car := rfl
@[simp] theorem State.mapCars_peers (s : State) (f : Car → Car) : (s.mapCars f).peers = s.peers.map f := rfl
@[simp] theorem State.mapCars_dev (s : State) (f : Car → Car) : (s.mapCars f).dev = s.dev := rfl
@[simp] theorem State.mapCars_old (s : State) (f : Car → Car) : (s.mapCars f).old = s.old := rfl
@[simp] theorem State.mapCars_inbox (s : State) (f : Car → Car) : (s.mapCars f).inbox = s.inbox := rfl
@[simp] theorem State.mapCars_fresh (s : State) (f : Car → Car) : (s.mapCars f).fresh = s.fresh := rfl
@[simp] theorem State.tick_car (s : State) : s.tick.car = s.car := rfl
@[simp] theorem State.tick_peers (s : State) : s.tick.peers = s.peers := rfl
@[simp] theorem State.tick_dev (s : State) : s.tick.dev = s.dev := rfl
@[simp] theorem State.tick_old (s : State) : s.tick.old = s.old := rfl
@[simp] theorem State.tick_inbox (s : State) : s.tick.inbox = s.inbox := rfl
@[simp] theorem State.tick_fresh (s : State) : s.tick.fresh = s.fresh + 1 := rfl

/-! Results through the state: only the car changes. -/

@[simp] theorem State.wS_car (s : State) (r : SReg) (x : Word) : (s.wS r x).car = s.car.wS r x := rfl
@[simp] theorem State.wS_peers (s : State) (r : SReg) (x : Word) : (s.wS r x).peers = s.peers := rfl
@[simp] theorem State.wS_dev (s : State) (r : SReg) (x : Word) : (s.wS r x).dev = s.dev := rfl
@[simp] theorem State.wS_old (s : State) (r : SReg) (x : Word) : (s.wS r x).old = s.old := rfl
@[simp] theorem State.wS_inbox (s : State) (r : SReg) (x : Word) : (s.wS r x).inbox = s.inbox := rfl
@[simp] theorem State.wS_fresh (s : State) (r : SReg) (x : Word) : (s.wS r x).fresh = s.fresh := rfl
@[simp] theorem State.produceS_car (s : State) (r : SReg) (n : Nat) (x : Word) : (s.produceS r n x).car = s.car.startS s.now r x (some (s.now + n)) true false 0#64 0 := rfl
@[simp] theorem State.produceS_peers (s : State) (r : SReg) (n : Nat) (x : Word) : (s.produceS r n x).peers = s.peers := rfl
@[simp] theorem State.produceS_dev (s : State) (r : SReg) (n : Nat) (x : Word) : (s.produceS r n x).dev = s.dev := rfl
@[simp] theorem State.produceS_old (s : State) (r : SReg) (n : Nat) (x : Word) : (s.produceS r n x).old = s.old := rfl
@[simp] theorem State.produceS_inbox (s : State) (r : SReg) (n : Nat) (x : Word) : (s.produceS r n x).inbox = s.inbox := rfl
@[simp] theorem State.produceS_fresh (s : State) (r : SReg) (n : Nat) (x : Word) : (s.produceS r n x).fresh = s.fresh := rfl
@[simp] theorem State.produceV_car (s : State) (r : VReg) (n : Nat) (x : VWord) : (s.produceV r n x).car = s.car.startV s.now (s.physA r) x (some (s.now + n)) false 0#64 0 := rfl
@[simp] theorem State.produceV_peers (s : State) (r : VReg) (n : Nat) (x : VWord) : (s.produceV r n x).peers = s.peers := rfl
@[simp] theorem State.produceV_dev (s : State) (r : VReg) (n : Nat) (x : VWord) : (s.produceV r n x).dev = s.dev := rfl
@[simp] theorem State.produceV_old (s : State) (r : VReg) (n : Nat) (x : VWord) : (s.produceV r n x).old = s.old := rfl
@[simp] theorem State.produceV_inbox (s : State) (r : VReg) (n : Nat) (x : VWord) : (s.produceV r n x).inbox = s.inbox := rfl
@[simp] theorem State.produceV_fresh (s : State) (r : VReg) (n : Nat) (x : VWord) : (s.produceV r n x).fresh = s.fresh := rfl
@[simp] theorem State.produceK_car (s : State) (r : KReg) (n : Nat) (x : Mask) : (s.produceK r n x).car = s.car.startK s.now r x (some (s.now + n)) false 0#64 0 := rfl
@[simp] theorem State.produceK_peers (s : State) (r : KReg) (n : Nat) (x : Mask) : (s.produceK r n x).peers = s.peers := rfl
@[simp] theorem State.produceK_dev (s : State) (r : KReg) (n : Nat) (x : Mask) : (s.produceK r n x).dev = s.dev := rfl
@[simp] theorem State.produceK_old (s : State) (r : KReg) (n : Nat) (x : Mask) : (s.produceK r n x).old = s.old := rfl
@[simp] theorem State.produceK_inbox (s : State) (r : KReg) (n : Nat) (x : Mask) : (s.produceK r n x).inbox = s.inbox := rfl
@[simp] theorem State.produceK_fresh (s : State) (r : KReg) (n : Nat) (x : Mask) : (s.produceK r n x).fresh = s.fresh := rfl

/-! A value put in a register: the register file, the marks and the producers change. -/

@[simp] theorem Car.putS_ident (c : Car) (p : Fin 72) (x : Word) : (c.putS p x).ident = c.ident := rfl
@[simp] theorem Car.putS_ctl (c : Car) (p : Fin 72) (x : Word) : (c.putS p x).ctl = c.ctl := rfl
@[simp] theorem Car.putS_loop (c : Car) (p : Fin 72) (x : Word) : (c.putS p x).loop = c.loop := rfl
@[simp] theorem Car.putS_late (c : Car) (p : Fin 72) (x : Word) : (c.putS p x).late = c.late := rfl
@[simp] theorem Car.putS_units (c : Car) (p : Fin 72) (x : Word) : (c.putS p x).units = c.units := rfl
@[simp] theorem Car.putS_pc (c : Car) (p : Fin 72) (x : Word) : (c.putS p x).pc = c.pc := rfl
@[simp] theorem Car.putS_seqPc (c : Car) (p : Fin 72) (x : Word) : (c.putS p x).seqPc = c.seqPc := rfl
@[simp] theorem Car.putS_lastIssue (c : Car) (p : Fin 72) (x : Word) : (c.putS p x).lastIssue = c.lastIssue := rfl
@[simp] theorem Car.putS_stood (c : Car) (p : Fin 72) (x : Word) : (c.putS p x).stood = c.stood := rfl
@[simp] theorem Car.putS_taken (c : Car) (p : Fin 72) (x : Word) : (c.putS p x).taken = c.taken := rfl
@[simp] theorem Car.putS_tr (c : Car) (p : Fin 72) (x : Word) : (c.putS p x).tr = c.tr := rfl
@[simp] theorem Car.putS_wait (c : Car) (p : Fin 72) (x : Word) : (c.putS p x).wait = c.wait.map (Wait.without p.val) := rfl
@[simp] theorem Car.putS_ready (c : Car) (p : Fin 72) (x : Word) : (c.putS p x).ready = c.ready := rfl
@[simp] theorem Car.putS_life (c : Car) (p : Fin 72) (x : Word) : (c.putS p x).life = c.life := rfl
@[simp] theorem Car.putS_spad (c : Car) (p : Fin 72) (x : Word) : (c.putS p x).spad = c.spad := rfl
@[simp] theorem Car.putS_imem (c : Car) (p : Fin 72) (x : Word) : (c.putS p x).imem = c.imem := rfl
@[simp] theorem Car.putS_eng (c : Car) (p : Fin 72) (x : Word) : (c.putS p x).eng = c.eng := rfl
@[simp] theorem Car.putS_arr (c : Car) (p : Fin 72) (x : Word) : (c.putS p x).arr = c.arr := rfl
@[simp] theorem Car.putS_place (c : Car) (p : Fin 72) (x : Word) : (c.putS p x).place = c.place := rfl
@[simp] theorem Car.putS_preempt (c : Car) (p : Fin 72) (x : Word) : (c.putS p x).preempt = c.preempt := rfl
@[simp] theorem Car.putS_done (c : Car) (p : Fin 72) (x : Word) : (c.putS p x).done = c.done := rfl
@[simp] theorem Car.putS_took (c : Car) (p : Fin 72) (x : Word) : (c.putS p x).took = c.took := rfl
@[simp] theorem Car.putS_regs_v (c : Car) (p : Fin 72) (x : Word) : (c.putS p x).regs.v = c.regs.v := rfl
@[simp] theorem Car.putS_regs_k (c : Car) (p : Fin 72) (x : Word) : (c.putS p x).regs.k = c.regs.k := rfl
@[simp] theorem Car.putS_regs_h (c : Car) (p : Fin 72) (x : Word) : (c.putS p x).regs.h = c.regs.h := rfl
@[simp] theorem Car.putS_regs_f (c : Car) (p : Fin 72) (x : Word) : (c.putS p x).regs.f = c.regs.f := rfl
@[simp] theorem Car.putS_regs_w (c : Car) (p : Fin 72) (x : Word) : (c.putS p x).regs.w = c.regs.w := rfl
@[simp] theorem Car.putS_regs_e (c : Car) (p : Fin 72) (x : Word) : (c.putS p x).regs.e = c.regs.e := rfl
@[simp] theorem Car.putS_regs_fmt (c : Car) (p : Fin 72) (x : Word) : (c.putS p x).regs.fmt = c.regs.fmt := rfl
@[simp] theorem Car.putV_ident (c : Car) (p : Nat) (x : VWord) : (c.putV p x).ident = c.ident := rfl
@[simp] theorem Car.putV_ctl (c : Car) (p : Nat) (x : VWord) : (c.putV p x).ctl = c.ctl := rfl
@[simp] theorem Car.putV_loop (c : Car) (p : Nat) (x : VWord) : (c.putV p x).loop = c.loop := rfl
@[simp] theorem Car.putV_late (c : Car) (p : Nat) (x : VWord) : (c.putV p x).late = c.late := rfl
@[simp] theorem Car.putV_units (c : Car) (p : Nat) (x : VWord) : (c.putV p x).units = c.units := rfl
@[simp] theorem Car.putV_pc (c : Car) (p : Nat) (x : VWord) : (c.putV p x).pc = c.pc := rfl
@[simp] theorem Car.putV_seqPc (c : Car) (p : Nat) (x : VWord) : (c.putV p x).seqPc = c.seqPc := rfl
@[simp] theorem Car.putV_lastIssue (c : Car) (p : Nat) (x : VWord) : (c.putV p x).lastIssue = c.lastIssue := rfl
@[simp] theorem Car.putV_stood (c : Car) (p : Nat) (x : VWord) : (c.putV p x).stood = c.stood := rfl
@[simp] theorem Car.putV_taken (c : Car) (p : Nat) (x : VWord) : (c.putV p x).taken = c.taken := rfl
@[simp] theorem Car.putV_tr (c : Car) (p : Nat) (x : VWord) : (c.putV p x).tr = c.tr := rfl
@[simp] theorem Car.putV_wait (c : Car) (p : Nat) (x : VWord) : (c.putV p x).wait = c.wait := rfl
@[simp] theorem Car.putV_ready (c : Car) (p : Nat) (x : VWord) : (c.putV p x).ready = c.ready := rfl
@[simp] theorem Car.putV_life (c : Car) (p : Nat) (x : VWord) : (c.putV p x).life = c.life := rfl
@[simp] theorem Car.putV_spad (c : Car) (p : Nat) (x : VWord) : (c.putV p x).spad = c.spad := rfl
@[simp] theorem Car.putV_imem (c : Car) (p : Nat) (x : VWord) : (c.putV p x).imem = c.imem := rfl
@[simp] theorem Car.putV_eng (c : Car) (p : Nat) (x : VWord) : (c.putV p x).eng = c.eng := rfl
@[simp] theorem Car.putV_arr (c : Car) (p : Nat) (x : VWord) : (c.putV p x).arr = c.arr := rfl
@[simp] theorem Car.putV_place (c : Car) (p : Nat) (x : VWord) : (c.putV p x).place = c.place := rfl
@[simp] theorem Car.putV_preempt (c : Car) (p : Nat) (x : VWord) : (c.putV p x).preempt = c.preempt := rfl
@[simp] theorem Car.putV_done (c : Car) (p : Nat) (x : VWord) : (c.putV p x).done = c.done := rfl
@[simp] theorem Car.putV_took (c : Car) (p : Nat) (x : VWord) : (c.putV p x).took = c.took := rfl
@[simp] theorem Car.putV_regs_s (c : Car) (p : Nat) (x : VWord) : (c.putV p x).regs.s = c.regs.s := rfl
@[simp] theorem Car.putV_regs_k (c : Car) (p : Nat) (x : VWord) : (c.putV p x).regs.k = c.regs.k := rfl
@[simp] theorem Car.putV_regs_h (c : Car) (p : Nat) (x : VWord) : (c.putV p x).regs.h = c.regs.h := rfl
@[simp] theorem Car.putV_regs_f (c : Car) (p : Nat) (x : VWord) : (c.putV p x).regs.f = c.regs.f := rfl
@[simp] theorem Car.putV_regs_w (c : Car) (p : Nat) (x : VWord) : (c.putV p x).regs.w = c.regs.w := rfl
@[simp] theorem Car.putV_regs_e (c : Car) (p : Nat) (x : VWord) : (c.putV p x).regs.e = c.regs.e := rfl
@[simp] theorem Car.putV_regs_fmt (c : Car) (p : Nat) (x : VWord) : (c.putV p x).regs.fmt = c.regs.fmt := rfl
@[simp] theorem Car.putK_ident (c : Car) (r : Nat) (x : Mask) : (c.putK r x).ident = c.ident := by unfold Car.putK; split <;> rfl
@[simp] theorem Car.putK_ctl (c : Car) (r : Nat) (x : Mask) : (c.putK r x).ctl = c.ctl := by unfold Car.putK; split <;> rfl
@[simp] theorem Car.putK_loop (c : Car) (r : Nat) (x : Mask) : (c.putK r x).loop = c.loop := by unfold Car.putK; split <;> rfl
@[simp] theorem Car.putK_late (c : Car) (r : Nat) (x : Mask) : (c.putK r x).late = c.late := by unfold Car.putK; split <;> rfl
@[simp] theorem Car.putK_units (c : Car) (r : Nat) (x : Mask) : (c.putK r x).units = c.units := by unfold Car.putK; split <;> rfl
@[simp] theorem Car.putK_pc (c : Car) (r : Nat) (x : Mask) : (c.putK r x).pc = c.pc := by unfold Car.putK; split <;> rfl
@[simp] theorem Car.putK_seqPc (c : Car) (r : Nat) (x : Mask) : (c.putK r x).seqPc = c.seqPc := by unfold Car.putK; split <;> rfl
@[simp] theorem Car.putK_lastIssue (c : Car) (r : Nat) (x : Mask) : (c.putK r x).lastIssue = c.lastIssue := by unfold Car.putK; split <;> rfl
@[simp] theorem Car.putK_stood (c : Car) (r : Nat) (x : Mask) : (c.putK r x).stood = c.stood := by unfold Car.putK; split <;> rfl
@[simp] theorem Car.putK_taken (c : Car) (r : Nat) (x : Mask) : (c.putK r x).taken = c.taken := by unfold Car.putK; split <;> rfl
@[simp] theorem Car.putK_tr (c : Car) (r : Nat) (x : Mask) : (c.putK r x).tr = c.tr := by unfold Car.putK; split <;> rfl
@[simp] theorem Car.putK_wait (c : Car) (r : Nat) (x : Mask) : (c.putK r x).wait = c.wait := by unfold Car.putK; split <;> rfl
@[simp] theorem Car.putK_ready (c : Car) (r : Nat) (x : Mask) : (c.putK r x).ready = c.ready := by unfold Car.putK; split <;> rfl
@[simp] theorem Car.putK_life (c : Car) (r : Nat) (x : Mask) : (c.putK r x).life = c.life := by unfold Car.putK; split <;> rfl
@[simp] theorem Car.putK_spad (c : Car) (r : Nat) (x : Mask) : (c.putK r x).spad = c.spad := by unfold Car.putK; split <;> rfl
@[simp] theorem Car.putK_imem (c : Car) (r : Nat) (x : Mask) : (c.putK r x).imem = c.imem := by unfold Car.putK; split <;> rfl
@[simp] theorem Car.putK_eng (c : Car) (r : Nat) (x : Mask) : (c.putK r x).eng = c.eng := by unfold Car.putK; split <;> rfl
@[simp] theorem Car.putK_arr (c : Car) (r : Nat) (x : Mask) : (c.putK r x).arr = c.arr := by unfold Car.putK; split <;> rfl
@[simp] theorem Car.putK_place (c : Car) (r : Nat) (x : Mask) : (c.putK r x).place = c.place := by unfold Car.putK; split <;> rfl
@[simp] theorem Car.putK_preempt (c : Car) (r : Nat) (x : Mask) : (c.putK r x).preempt = c.preempt := by unfold Car.putK; split <;> rfl
@[simp] theorem Car.putK_done (c : Car) (r : Nat) (x : Mask) : (c.putK r x).done = c.done := by unfold Car.putK; split <;> rfl
@[simp] theorem Car.putK_took (c : Car) (r : Nat) (x : Mask) : (c.putK r x).took = c.took := by unfold Car.putK; split <;> rfl
@[simp] theorem Car.putK_regs_s (c : Car) (r : Nat) (x : Mask) : (c.putK r x).regs.s = c.regs.s := by unfold Car.putK; split <;> rfl
@[simp] theorem Car.putK_regs_v (c : Car) (r : Nat) (x : Mask) : (c.putK r x).regs.v = c.regs.v := by unfold Car.putK; split <;> rfl
@[simp] theorem Car.putK_regs_h (c : Car) (r : Nat) (x : Mask) : (c.putK r x).regs.h = c.regs.h := by unfold Car.putK; split <;> rfl
@[simp] theorem Car.putK_regs_f (c : Car) (r : Nat) (x : Mask) : (c.putK r x).regs.f = c.regs.f := by unfold Car.putK; split <;> rfl
@[simp] theorem Car.putK_regs_w (c : Car) (r : Nat) (x : Mask) : (c.putK r x).regs.w = c.regs.w := by unfold Car.putK; split <;> rfl
@[simp] theorem Car.putK_regs_e (c : Car) (r : Nat) (x : Mask) : (c.putK r x).regs.e = c.regs.e := by unfold Car.putK; split <;> rfl
@[simp] theorem Car.putK_regs_fmt (c : Car) (r : Nat) (x : Mask) : (c.putK r x).regs.fmt = c.regs.fmt := by unfold Car.putK; split <;> rfl
@[simp] theorem Car.wS_ident (c : Car) (r : SReg) (x : Word) : (c.wS r x).ident = c.ident := by unfold Car.wS; split <;> rfl
@[simp] theorem Car.wS_ctl (c : Car) (r : SReg) (x : Word) : (c.wS r x).ctl = c.ctl := by unfold Car.wS; split <;> rfl
@[simp] theorem Car.wS_loop (c : Car) (r : SReg) (x : Word) : (c.wS r x).loop = c.loop := by unfold Car.wS; split <;> rfl
@[simp] theorem Car.wS_late (c : Car) (r : SReg) (x : Word) : (c.wS r x).late = c.late := by unfold Car.wS; split <;> rfl
@[simp] theorem Car.wS_units (c : Car) (r : SReg) (x : Word) : (c.wS r x).units = c.units := by unfold Car.wS; split <;> rfl
@[simp] theorem Car.wS_pc (c : Car) (r : SReg) (x : Word) : (c.wS r x).pc = c.pc := by unfold Car.wS; split <;> rfl
@[simp] theorem Car.wS_seqPc (c : Car) (r : SReg) (x : Word) : (c.wS r x).seqPc = c.seqPc := by unfold Car.wS; split <;> rfl
@[simp] theorem Car.wS_lastIssue (c : Car) (r : SReg) (x : Word) : (c.wS r x).lastIssue = c.lastIssue := by unfold Car.wS; split <;> rfl
@[simp] theorem Car.wS_stood (c : Car) (r : SReg) (x : Word) : (c.wS r x).stood = c.stood := by unfold Car.wS; split <;> rfl
@[simp] theorem Car.wS_taken (c : Car) (r : SReg) (x : Word) : (c.wS r x).taken = c.taken := by unfold Car.wS; split <;> rfl
@[simp] theorem Car.wS_tr (c : Car) (r : SReg) (x : Word) : (c.wS r x).tr = c.tr := by unfold Car.wS; split <;> rfl
@[simp] theorem Car.wS_wait (c : Car) (r : SReg) (x : Word) :
    (c.wS r x).wait = if r = 0 then c.wait else c.wait.map (Wait.without (c.physS r).val) := by unfold Car.wS; split <;> rfl
@[simp] theorem Car.wS_ready (c : Car) (r : SReg) (x : Word) : (c.wS r x).ready = c.ready := by unfold Car.wS; split <;> rfl
@[simp] theorem Car.wS_life (c : Car) (r : SReg) (x : Word) : (c.wS r x).life = c.life := by unfold Car.wS; split <;> rfl
@[simp] theorem Car.wS_spad (c : Car) (r : SReg) (x : Word) : (c.wS r x).spad = c.spad := by unfold Car.wS; split <;> rfl
@[simp] theorem Car.wS_imem (c : Car) (r : SReg) (x : Word) : (c.wS r x).imem = c.imem := by unfold Car.wS; split <;> rfl
@[simp] theorem Car.wS_eng (c : Car) (r : SReg) (x : Word) : (c.wS r x).eng = c.eng := by unfold Car.wS; split <;> rfl
@[simp] theorem Car.wS_arr (c : Car) (r : SReg) (x : Word) : (c.wS r x).arr = c.arr := by unfold Car.wS; split <;> rfl
@[simp] theorem Car.wS_place (c : Car) (r : SReg) (x : Word) : (c.wS r x).place = c.place := by unfold Car.wS; split <;> rfl
@[simp] theorem Car.wS_preempt (c : Car) (r : SReg) (x : Word) : (c.wS r x).preempt = c.preempt := by unfold Car.wS; split <;> rfl
@[simp] theorem Car.wS_done (c : Car) (r : SReg) (x : Word) : (c.wS r x).done = c.done := by unfold Car.wS; split <;> rfl
@[simp] theorem Car.wS_took (c : Car) (r : SReg) (x : Word) : (c.wS r x).took = c.took := by unfold Car.wS; split <;> rfl
@[simp] theorem Car.wS_regs_v (c : Car) (r : SReg) (x : Word) : (c.wS r x).regs.v = c.regs.v := by unfold Car.wS; split <;> rfl
@[simp] theorem Car.wS_regs_k (c : Car) (r : SReg) (x : Word) : (c.wS r x).regs.k = c.regs.k := by unfold Car.wS; split <;> rfl
@[simp] theorem Car.wS_regs_h (c : Car) (r : SReg) (x : Word) : (c.wS r x).regs.h = c.regs.h := by unfold Car.wS; split <;> rfl
@[simp] theorem Car.wS_regs_f (c : Car) (r : SReg) (x : Word) : (c.wS r x).regs.f = c.regs.f := by unfold Car.wS; split <;> rfl
@[simp] theorem Car.wS_regs_w (c : Car) (r : SReg) (x : Word) : (c.wS r x).regs.w = c.regs.w := by unfold Car.wS; split <;> rfl
@[simp] theorem Car.wS_regs_e (c : Car) (r : SReg) (x : Word) : (c.wS r x).regs.e = c.regs.e := by unfold Car.wS; split <;> rfl
@[simp] theorem Car.wS_regs_fmt (c : Car) (r : SReg) (x : Word) : (c.wS r x).regs.fmt = c.regs.fmt := by unfold Car.wS; split <;> rfl

/-! A producer that starts: the marks, the producers and the engines' numbering change. -/

@[simp] theorem Car.startS_ident (c : Car) (now : Nat) (r : SReg) (x : Word) (due : Option Nat) (a : Bool) (b : Bool) (ha : Word) (eta : Nat) : (c.startS now r x due a b ha eta).ident = c.ident := by unfold Car.startS; split <;> rfl
@[simp] theorem Car.startS_regs (c : Car) (now : Nat) (r : SReg) (x : Word) (due : Option Nat) (a : Bool) (b : Bool) (ha : Word) (eta : Nat) : (c.startS now r x due a b ha eta).regs = c.regs := by unfold Car.startS; split <;> rfl
@[simp] theorem Car.startS_ctl (c : Car) (now : Nat) (r : SReg) (x : Word) (due : Option Nat) (a : Bool) (b : Bool) (ha : Word) (eta : Nat) : (c.startS now r x due a b ha eta).ctl = c.ctl := by unfold Car.startS; split <;> rfl
@[simp] theorem Car.startS_loop (c : Car) (now : Nat) (r : SReg) (x : Word) (due : Option Nat) (a : Bool) (b : Bool) (ha : Word) (eta : Nat) : (c.startS now r x due a b ha eta).loop = c.loop := by unfold Car.startS; split <;> rfl
@[simp] theorem Car.startS_late (c : Car) (now : Nat) (r : SReg) (x : Word) (due : Option Nat) (a : Bool) (b : Bool) (ha : Word) (eta : Nat) : (c.startS now r x due a b ha eta).late = c.late := by unfold Car.startS; split <;> rfl
@[simp] theorem Car.startS_units (c : Car) (now : Nat) (r : SReg) (x : Word) (due : Option Nat) (a : Bool) (b : Bool) (ha : Word) (eta : Nat) : (c.startS now r x due a b ha eta).units = c.units := by unfold Car.startS; split <;> rfl
@[simp] theorem Car.startS_pc (c : Car) (now : Nat) (r : SReg) (x : Word) (due : Option Nat) (a : Bool) (b : Bool) (ha : Word) (eta : Nat) : (c.startS now r x due a b ha eta).pc = c.pc := by unfold Car.startS; split <;> rfl
@[simp] theorem Car.startS_seqPc (c : Car) (now : Nat) (r : SReg) (x : Word) (due : Option Nat) (a : Bool) (b : Bool) (ha : Word) (eta : Nat) : (c.startS now r x due a b ha eta).seqPc = c.seqPc := by unfold Car.startS; split <;> rfl
@[simp] theorem Car.startS_lastIssue (c : Car) (now : Nat) (r : SReg) (x : Word) (due : Option Nat) (a : Bool) (b : Bool) (ha : Word) (eta : Nat) : (c.startS now r x due a b ha eta).lastIssue = c.lastIssue := by unfold Car.startS; split <;> rfl
@[simp] theorem Car.startS_stood (c : Car) (now : Nat) (r : SReg) (x : Word) (due : Option Nat) (a : Bool) (b : Bool) (ha : Word) (eta : Nat) : (c.startS now r x due a b ha eta).stood = c.stood := by unfold Car.startS; split <;> rfl
@[simp] theorem Car.startS_taken (c : Car) (now : Nat) (r : SReg) (x : Word) (due : Option Nat) (a : Bool) (b : Bool) (ha : Word) (eta : Nat) : (c.startS now r x due a b ha eta).taken = c.taken := by unfold Car.startS; split <;> rfl
@[simp] theorem Car.startS_tr (c : Car) (now : Nat) (r : SReg) (x : Word) (due : Option Nat) (a : Bool) (b : Bool) (ha : Word) (eta : Nat) : (c.startS now r x due a b ha eta).tr = c.tr := by unfold Car.startS; split <;> rfl
@[simp] theorem Car.startS_wait (c : Car) (now : Nat) (r : SReg) (x : Word) (due : Option Nat) (a : Bool) (b : Bool) (ha : Word) (eta : Nat) :
    (c.startS now r x due a b ha eta).wait = if r = 0 then c.wait else c.wait.map (Wait.without (c.physS r).val) := by unfold Car.startS; split <;> rfl
@[simp] theorem Car.startS_ready (c : Car) (now : Nat) (r : SReg) (x : Word) (due : Option Nat) (a : Bool) (b : Bool) (ha : Word) (eta : Nat) : (c.startS now r x due a b ha eta).ready = c.ready := by unfold Car.startS; split <;> rfl
@[simp] theorem Car.startS_life (c : Car) (now : Nat) (r : SReg) (x : Word) (due : Option Nat) (a : Bool) (b : Bool) (ha : Word) (eta : Nat) : (c.startS now r x due a b ha eta).life = c.life := by unfold Car.startS; split <;> rfl
@[simp] theorem Car.startS_spad (c : Car) (now : Nat) (r : SReg) (x : Word) (due : Option Nat) (a : Bool) (b : Bool) (ha : Word) (eta : Nat) : (c.startS now r x due a b ha eta).spad = c.spad := by unfold Car.startS; split <;> rfl
@[simp] theorem Car.startS_imem (c : Car) (now : Nat) (r : SReg) (x : Word) (due : Option Nat) (a : Bool) (b : Bool) (ha : Word) (eta : Nat) : (c.startS now r x due a b ha eta).imem = c.imem := by unfold Car.startS; split <;> rfl
@[simp] theorem Car.startS_arr (c : Car) (now : Nat) (r : SReg) (x : Word) (due : Option Nat) (a : Bool) (b : Bool) (ha : Word) (eta : Nat) : (c.startS now r x due a b ha eta).arr = c.arr := by unfold Car.startS; split <;> rfl
@[simp] theorem Car.startS_place (c : Car) (now : Nat) (r : SReg) (x : Word) (due : Option Nat) (a : Bool) (b : Bool) (ha : Word) (eta : Nat) : (c.startS now r x due a b ha eta).place = c.place := by unfold Car.startS; split <;> rfl
@[simp] theorem Car.startS_preempt (c : Car) (now : Nat) (r : SReg) (x : Word) (due : Option Nat) (a : Bool) (b : Bool) (ha : Word) (eta : Nat) : (c.startS now r x due a b ha eta).preempt = c.preempt := by unfold Car.startS; split <;> rfl
@[simp] theorem Car.startS_done (c : Car) (now : Nat) (r : SReg) (x : Word) (due : Option Nat) (a : Bool) (b : Bool) (ha : Word) (eta : Nat) : (c.startS now r x due a b ha eta).done = c.done := by unfold Car.startS; split <;> rfl
@[simp] theorem Car.startS_took (c : Car) (now : Nat) (r : SReg) (x : Word) (due : Option Nat) (a : Bool) (b : Bool) (ha : Word) (eta : Nat) : (c.startS now r x due a b ha eta).took = c.took := by unfold Car.startS; split <;> rfl
@[simp] theorem Car.startV_ident (c : Car) (now p : Nat) (x : VWord) (due : Option Nat) (b : Bool) (ha : Word) (eta : Nat) : (c.startV now p x due b ha eta).ident = c.ident := rfl
@[simp] theorem Car.startV_regs (c : Car) (now p : Nat) (x : VWord) (due : Option Nat) (b : Bool) (ha : Word) (eta : Nat) : (c.startV now p x due b ha eta).regs = c.regs := rfl
@[simp] theorem Car.startV_ctl (c : Car) (now p : Nat) (x : VWord) (due : Option Nat) (b : Bool) (ha : Word) (eta : Nat) : (c.startV now p x due b ha eta).ctl = c.ctl := rfl
@[simp] theorem Car.startV_loop (c : Car) (now p : Nat) (x : VWord) (due : Option Nat) (b : Bool) (ha : Word) (eta : Nat) : (c.startV now p x due b ha eta).loop = c.loop := rfl
@[simp] theorem Car.startV_late (c : Car) (now p : Nat) (x : VWord) (due : Option Nat) (b : Bool) (ha : Word) (eta : Nat) : (c.startV now p x due b ha eta).late = c.late := rfl
@[simp] theorem Car.startV_units (c : Car) (now p : Nat) (x : VWord) (due : Option Nat) (b : Bool) (ha : Word) (eta : Nat) : (c.startV now p x due b ha eta).units = c.units := rfl
@[simp] theorem Car.startV_pc (c : Car) (now p : Nat) (x : VWord) (due : Option Nat) (b : Bool) (ha : Word) (eta : Nat) : (c.startV now p x due b ha eta).pc = c.pc := rfl
@[simp] theorem Car.startV_seqPc (c : Car) (now p : Nat) (x : VWord) (due : Option Nat) (b : Bool) (ha : Word) (eta : Nat) : (c.startV now p x due b ha eta).seqPc = c.seqPc := rfl
@[simp] theorem Car.startV_lastIssue (c : Car) (now p : Nat) (x : VWord) (due : Option Nat) (b : Bool) (ha : Word) (eta : Nat) : (c.startV now p x due b ha eta).lastIssue = c.lastIssue := rfl
@[simp] theorem Car.startV_stood (c : Car) (now p : Nat) (x : VWord) (due : Option Nat) (b : Bool) (ha : Word) (eta : Nat) : (c.startV now p x due b ha eta).stood = c.stood := rfl
@[simp] theorem Car.startV_taken (c : Car) (now p : Nat) (x : VWord) (due : Option Nat) (b : Bool) (ha : Word) (eta : Nat) : (c.startV now p x due b ha eta).taken = c.taken := rfl
@[simp] theorem Car.startV_tr (c : Car) (now p : Nat) (x : VWord) (due : Option Nat) (b : Bool) (ha : Word) (eta : Nat) : (c.startV now p x due b ha eta).tr = c.tr := rfl
@[simp] theorem Car.startV_wait (c : Car) (now p : Nat) (x : VWord) (due : Option Nat) (b : Bool) (ha : Word) (eta : Nat) : (c.startV now p x due b ha eta).wait = c.wait := rfl
@[simp] theorem Car.startV_ready (c : Car) (now p : Nat) (x : VWord) (due : Option Nat) (b : Bool) (ha : Word) (eta : Nat) : (c.startV now p x due b ha eta).ready = c.ready := rfl
@[simp] theorem Car.startV_life (c : Car) (now p : Nat) (x : VWord) (due : Option Nat) (b : Bool) (ha : Word) (eta : Nat) : (c.startV now p x due b ha eta).life = c.life := rfl
@[simp] theorem Car.startV_spad (c : Car) (now p : Nat) (x : VWord) (due : Option Nat) (b : Bool) (ha : Word) (eta : Nat) : (c.startV now p x due b ha eta).spad = c.spad := rfl
@[simp] theorem Car.startV_imem (c : Car) (now p : Nat) (x : VWord) (due : Option Nat) (b : Bool) (ha : Word) (eta : Nat) : (c.startV now p x due b ha eta).imem = c.imem := rfl
@[simp] theorem Car.startV_arr (c : Car) (now p : Nat) (x : VWord) (due : Option Nat) (b : Bool) (ha : Word) (eta : Nat) : (c.startV now p x due b ha eta).arr = c.arr := rfl
@[simp] theorem Car.startV_place (c : Car) (now p : Nat) (x : VWord) (due : Option Nat) (b : Bool) (ha : Word) (eta : Nat) : (c.startV now p x due b ha eta).place = c.place := rfl
@[simp] theorem Car.startV_preempt (c : Car) (now p : Nat) (x : VWord) (due : Option Nat) (b : Bool) (ha : Word) (eta : Nat) : (c.startV now p x due b ha eta).preempt = c.preempt := rfl
@[simp] theorem Car.startV_done (c : Car) (now p : Nat) (x : VWord) (due : Option Nat) (b : Bool) (ha : Word) (eta : Nat) : (c.startV now p x due b ha eta).done = c.done := rfl
@[simp] theorem Car.startV_took (c : Car) (now p : Nat) (x : VWord) (due : Option Nat) (b : Bool) (ha : Word) (eta : Nat) : (c.startV now p x due b ha eta).took = c.took := rfl
@[simp] theorem Car.startK_ident (c : Car) (now : Nat) (r : KReg) (x : Mask) (due : Option Nat) (b : Bool) (ha : Word) (eta : Nat) : (c.startK now r x due b ha eta).ident = c.ident := by unfold Car.startK; split <;> rfl
@[simp] theorem Car.startK_regs (c : Car) (now : Nat) (r : KReg) (x : Mask) (due : Option Nat) (b : Bool) (ha : Word) (eta : Nat) : (c.startK now r x due b ha eta).regs = c.regs := by unfold Car.startK; split <;> rfl
@[simp] theorem Car.startK_ctl (c : Car) (now : Nat) (r : KReg) (x : Mask) (due : Option Nat) (b : Bool) (ha : Word) (eta : Nat) : (c.startK now r x due b ha eta).ctl = c.ctl := by unfold Car.startK; split <;> rfl
@[simp] theorem Car.startK_loop (c : Car) (now : Nat) (r : KReg) (x : Mask) (due : Option Nat) (b : Bool) (ha : Word) (eta : Nat) : (c.startK now r x due b ha eta).loop = c.loop := by unfold Car.startK; split <;> rfl
@[simp] theorem Car.startK_late (c : Car) (now : Nat) (r : KReg) (x : Mask) (due : Option Nat) (b : Bool) (ha : Word) (eta : Nat) : (c.startK now r x due b ha eta).late = c.late := by unfold Car.startK; split <;> rfl
@[simp] theorem Car.startK_units (c : Car) (now : Nat) (r : KReg) (x : Mask) (due : Option Nat) (b : Bool) (ha : Word) (eta : Nat) : (c.startK now r x due b ha eta).units = c.units := by unfold Car.startK; split <;> rfl
@[simp] theorem Car.startK_pc (c : Car) (now : Nat) (r : KReg) (x : Mask) (due : Option Nat) (b : Bool) (ha : Word) (eta : Nat) : (c.startK now r x due b ha eta).pc = c.pc := by unfold Car.startK; split <;> rfl
@[simp] theorem Car.startK_seqPc (c : Car) (now : Nat) (r : KReg) (x : Mask) (due : Option Nat) (b : Bool) (ha : Word) (eta : Nat) : (c.startK now r x due b ha eta).seqPc = c.seqPc := by unfold Car.startK; split <;> rfl
@[simp] theorem Car.startK_lastIssue (c : Car) (now : Nat) (r : KReg) (x : Mask) (due : Option Nat) (b : Bool) (ha : Word) (eta : Nat) : (c.startK now r x due b ha eta).lastIssue = c.lastIssue := by unfold Car.startK; split <;> rfl
@[simp] theorem Car.startK_stood (c : Car) (now : Nat) (r : KReg) (x : Mask) (due : Option Nat) (b : Bool) (ha : Word) (eta : Nat) : (c.startK now r x due b ha eta).stood = c.stood := by unfold Car.startK; split <;> rfl
@[simp] theorem Car.startK_taken (c : Car) (now : Nat) (r : KReg) (x : Mask) (due : Option Nat) (b : Bool) (ha : Word) (eta : Nat) : (c.startK now r x due b ha eta).taken = c.taken := by unfold Car.startK; split <;> rfl
@[simp] theorem Car.startK_tr (c : Car) (now : Nat) (r : KReg) (x : Mask) (due : Option Nat) (b : Bool) (ha : Word) (eta : Nat) : (c.startK now r x due b ha eta).tr = c.tr := by unfold Car.startK; split <;> rfl
@[simp] theorem Car.startK_wait (c : Car) (now : Nat) (r : KReg) (x : Mask) (due : Option Nat) (b : Bool) (ha : Word) (eta : Nat) : (c.startK now r x due b ha eta).wait = c.wait := by unfold Car.startK; split <;> rfl
@[simp] theorem Car.startK_ready (c : Car) (now : Nat) (r : KReg) (x : Mask) (due : Option Nat) (b : Bool) (ha : Word) (eta : Nat) : (c.startK now r x due b ha eta).ready = c.ready := by unfold Car.startK; split <;> rfl
@[simp] theorem Car.startK_life (c : Car) (now : Nat) (r : KReg) (x : Mask) (due : Option Nat) (b : Bool) (ha : Word) (eta : Nat) : (c.startK now r x due b ha eta).life = c.life := by unfold Car.startK; split <;> rfl
@[simp] theorem Car.startK_spad (c : Car) (now : Nat) (r : KReg) (x : Mask) (due : Option Nat) (b : Bool) (ha : Word) (eta : Nat) : (c.startK now r x due b ha eta).spad = c.spad := by unfold Car.startK; split <;> rfl
@[simp] theorem Car.startK_imem (c : Car) (now : Nat) (r : KReg) (x : Mask) (due : Option Nat) (b : Bool) (ha : Word) (eta : Nat) : (c.startK now r x due b ha eta).imem = c.imem := by unfold Car.startK; split <;> rfl
@[simp] theorem Car.startK_arr (c : Car) (now : Nat) (r : KReg) (x : Mask) (due : Option Nat) (b : Bool) (ha : Word) (eta : Nat) : (c.startK now r x due b ha eta).arr = c.arr := by unfold Car.startK; split <;> rfl
@[simp] theorem Car.startK_place (c : Car) (now : Nat) (r : KReg) (x : Mask) (due : Option Nat) (b : Bool) (ha : Word) (eta : Nat) : (c.startK now r x due b ha eta).place = c.place := by unfold Car.startK; split <;> rfl
@[simp] theorem Car.startK_preempt (c : Car) (now : Nat) (r : KReg) (x : Mask) (due : Option Nat) (b : Bool) (ha : Word) (eta : Nat) : (c.startK now r x due b ha eta).preempt = c.preempt := by unfold Car.startK; split <;> rfl
@[simp] theorem Car.startK_done (c : Car) (now : Nat) (r : KReg) (x : Mask) (due : Option Nat) (b : Bool) (ha : Word) (eta : Nat) : (c.startK now r x due b ha eta).done = c.done := by unfold Car.startK; split <;> rfl
@[simp] theorem Car.startK_took (c : Car) (now : Nat) (r : KReg) (x : Mask) (due : Option Nat) (b : Bool) (ha : Word) (eta : Nat) : (c.startK now r x due b ha eta).took = c.took := by unfold Car.startK; split <;> rfl

/-! A poison mark: only the marks change. -/

@[simp] theorem Car.markPoison_ident (c : Car) (d : Dest) : (c.markPoison d).ident = c.ident := by cases d <;> rfl
@[simp] theorem Car.markPoison_regs (c : Car) (d : Dest) : (c.markPoison d).regs = c.regs := by cases d <;> rfl
@[simp] theorem Car.markPoison_ctl (c : Car) (d : Dest) : (c.markPoison d).ctl = c.ctl := by cases d <;> rfl
@[simp] theorem Car.markPoison_loop (c : Car) (d : Dest) : (c.markPoison d).loop = c.loop := by cases d <;> rfl
@[simp] theorem Car.markPoison_late (c : Car) (d : Dest) : (c.markPoison d).late = c.late := by cases d <;> rfl
@[simp] theorem Car.markPoison_flight (c : Car) (d : Dest) : (c.markPoison d).flight = c.flight := by cases d <;> rfl
@[simp] theorem Car.markPoison_units (c : Car) (d : Dest) : (c.markPoison d).units = c.units := by cases d <;> rfl
@[simp] theorem Car.markPoison_pc (c : Car) (d : Dest) : (c.markPoison d).pc = c.pc := by cases d <;> rfl
@[simp] theorem Car.markPoison_seqPc (c : Car) (d : Dest) : (c.markPoison d).seqPc = c.seqPc := by cases d <;> rfl
@[simp] theorem Car.markPoison_lastIssue (c : Car) (d : Dest) : (c.markPoison d).lastIssue = c.lastIssue := by cases d <;> rfl
@[simp] theorem Car.markPoison_stood (c : Car) (d : Dest) : (c.markPoison d).stood = c.stood := by cases d <;> rfl
@[simp] theorem Car.markPoison_taken (c : Car) (d : Dest) : (c.markPoison d).taken = c.taken := by cases d <;> rfl
@[simp] theorem Car.markPoison_tr (c : Car) (d : Dest) : (c.markPoison d).tr = c.tr := by cases d <;> rfl
@[simp] theorem Car.markPoison_wait (c : Car) (d : Dest) : (c.markPoison d).wait = c.wait := by cases d <;> rfl
@[simp] theorem Car.markPoison_ready (c : Car) (d : Dest) : (c.markPoison d).ready = c.ready := by cases d <;> rfl
@[simp] theorem Car.markPoison_life (c : Car) (d : Dest) : (c.markPoison d).life = c.life := by cases d <;> rfl
@[simp] theorem Car.markPoison_spad (c : Car) (d : Dest) : (c.markPoison d).spad = c.spad := by cases d <;> rfl
@[simp] theorem Car.markPoison_imem (c : Car) (d : Dest) : (c.markPoison d).imem = c.imem := by cases d <;> rfl
@[simp] theorem Car.markPoison_eng (c : Car) (d : Dest) : (c.markPoison d).eng = c.eng := by cases d <;> rfl
@[simp] theorem Car.markPoison_arr (c : Car) (d : Dest) : (c.markPoison d).arr = c.arr := by cases d <;> rfl
@[simp] theorem Car.markPoison_place (c : Car) (d : Dest) : (c.markPoison d).place = c.place := by cases d <;> rfl
@[simp] theorem Car.markPoison_preempt (c : Car) (d : Dest) : (c.markPoison d).preempt = c.preempt := by cases d <;> rfl
@[simp] theorem Car.markPoison_done (c : Car) (d : Dest) : (c.markPoison d).done = c.done := by cases d <;> rfl
@[simp] theorem Car.markPoison_took (c : Car) (d : Dest) : (c.markPoison d).took = c.took := by cases d <;> rfl

/-! A post to a flag: only the flags and FLAGOVF change. -/

@[simp] theorem Car.post_ident (c : Car) (f : FlagIx) (n : Nat) : (c.post f n).ident = c.ident := by simp only [Car.post]; split <;> rfl
@[simp] theorem Car.post_marks (c : Car) (f : FlagIx) (n : Nat) : (c.post f n).marks = c.marks := by simp only [Car.post]; split <;> rfl
@[simp] theorem Car.post_loop (c : Car) (f : FlagIx) (n : Nat) : (c.post f n).loop = c.loop := by simp only [Car.post]; split <;> rfl
@[simp] theorem Car.post_late (c : Car) (f : FlagIx) (n : Nat) : (c.post f n).late = c.late := by simp only [Car.post]; split <;> rfl
@[simp] theorem Car.post_flight (c : Car) (f : FlagIx) (n : Nat) : (c.post f n).flight = c.flight := by simp only [Car.post]; split <;> rfl
@[simp] theorem Car.post_units (c : Car) (f : FlagIx) (n : Nat) : (c.post f n).units = c.units := by simp only [Car.post]; split <;> rfl
@[simp] theorem Car.post_pc (c : Car) (f : FlagIx) (n : Nat) : (c.post f n).pc = c.pc := by simp only [Car.post]; split <;> rfl
@[simp] theorem Car.post_seqPc (c : Car) (f : FlagIx) (n : Nat) : (c.post f n).seqPc = c.seqPc := by simp only [Car.post]; split <;> rfl
@[simp] theorem Car.post_lastIssue (c : Car) (f : FlagIx) (n : Nat) : (c.post f n).lastIssue = c.lastIssue := by simp only [Car.post]; split <;> rfl
@[simp] theorem Car.post_stood (c : Car) (f : FlagIx) (n : Nat) : (c.post f n).stood = c.stood := by simp only [Car.post]; split <;> rfl
@[simp] theorem Car.post_taken (c : Car) (f : FlagIx) (n : Nat) : (c.post f n).taken = c.taken := by simp only [Car.post]; split <;> rfl
@[simp] theorem Car.post_tr (c : Car) (f : FlagIx) (n : Nat) : (c.post f n).tr = c.tr := by simp only [Car.post]; split <;> rfl
@[simp] theorem Car.post_wait (c : Car) (f : FlagIx) (n : Nat) : (c.post f n).wait = c.wait := by simp only [Car.post]; split <;> rfl
@[simp] theorem Car.post_ready (c : Car) (f : FlagIx) (n : Nat) : (c.post f n).ready = c.ready := by simp only [Car.post]; split <;> rfl
@[simp] theorem Car.post_life (c : Car) (f : FlagIx) (n : Nat) : (c.post f n).life = c.life := by simp only [Car.post]; split <;> rfl
@[simp] theorem Car.post_spad (c : Car) (f : FlagIx) (n : Nat) : (c.post f n).spad = c.spad := by simp only [Car.post]; split <;> rfl
@[simp] theorem Car.post_imem (c : Car) (f : FlagIx) (n : Nat) : (c.post f n).imem = c.imem := by simp only [Car.post]; split <;> rfl
@[simp] theorem Car.post_eng (c : Car) (f : FlagIx) (n : Nat) : (c.post f n).eng = c.eng := by simp only [Car.post]; split <;> rfl
@[simp] theorem Car.post_arr (c : Car) (f : FlagIx) (n : Nat) : (c.post f n).arr = c.arr := by simp only [Car.post]; split <;> rfl
@[simp] theorem Car.post_place (c : Car) (f : FlagIx) (n : Nat) : (c.post f n).place = c.place := by simp only [Car.post]; split <;> rfl
@[simp] theorem Car.post_preempt (c : Car) (f : FlagIx) (n : Nat) : (c.post f n).preempt = c.preempt := by simp only [Car.post]; split <;> rfl
@[simp] theorem Car.post_done (c : Car) (f : FlagIx) (n : Nat) : (c.post f n).done = c.done := by simp only [Car.post]; split <;> rfl
@[simp] theorem Car.post_took (c : Car) (f : FlagIx) (n : Nat) : (c.post f n).took = c.took := by simp only [Car.post]; split <;> rfl
@[simp] theorem Car.post_regs_s (c : Car) (f : FlagIx) (n : Nat) : (c.post f n).regs.s = c.regs.s := by simp only [Car.post]; split <;> rfl
@[simp] theorem Car.post_regs_v (c : Car) (f : FlagIx) (n : Nat) : (c.post f n).regs.v = c.regs.v := by simp only [Car.post]; split <;> rfl
@[simp] theorem Car.post_regs_k (c : Car) (f : FlagIx) (n : Nat) : (c.post f n).regs.k = c.regs.k := by simp only [Car.post]; split <;> rfl
@[simp] theorem Car.post_regs_h (c : Car) (f : FlagIx) (n : Nat) : (c.post f n).regs.h = c.regs.h := by simp only [Car.post]; split <;> rfl
@[simp] theorem Car.post_regs_w (c : Car) (f : FlagIx) (n : Nat) : (c.post f n).regs.w = c.regs.w := by simp only [Car.post]; split <;> rfl
@[simp] theorem Car.post_regs_e (c : Car) (f : FlagIx) (n : Nat) : (c.post f n).regs.e = c.regs.e := by simp only [Car.post]; split <;> rfl
@[simp] theorem Car.post_regs_fmt (c : Car) (f : FlagIx) (n : Nat) : (c.post f n).regs.fmt = c.regs.fmt := by simp only [Car.post]; split <;> rfl

/-! The package. -/

@[simp] theorem Device.mapSig_now (d : Device) (f : Signal → Signal) : (d.mapSig f).now = d.now := rfl
@[simp] theorem Device.mapSig_tbase (d : Device) (f : Signal → Signal) : (d.mapSig f).tbase = d.tbase := rfl
@[simp] theorem Device.mapSig_mem (d : Device) (f : Signal → Signal) : (d.mapSig f).mem = d.mem := rfl
@[simp] theorem Device.mapSig_remote (d : Device) (f : Signal → Signal) : (d.mapSig f).remote = d.remote := rfl
@[simp] theorem Device.mapSig_cache (d : Device) (f : Signal → Signal) : (d.mapSig f).cache = d.cache := rfl
@[simp] theorem Device.mapSig_regions (d : Device) (f : Signal → Signal) : (d.mapSig f).regions = d.regions := rfl
@[simp] theorem Device.mapSig_lines (d : Device) (f : Signal → Signal) : (d.mapSig f).lines = d.lines := rfl
@[simp] theorem Device.mapSig_lasers (d : Device) (f : Signal → Signal) : (d.mapSig f).lasers = d.lasers := rfl
@[simp] theorem Device.mapSig_streams (d : Device) (f : Signal → Signal) : (d.mapSig f).streams = d.streams := rfl
@[simp] theorem Device.mapSig_drives (d : Device) (f : Signal → Signal) : (d.mapSig f).drives = d.drives := rfl
@[simp] theorem Device.mapSig_bus (d : Device) (f : Signal → Signal) : (d.mapSig f).bus = d.bus := rfl
@[simp] theorem Device.mapSig_sig (d : Device) (f : Signal → Signal) : (d.mapSig f).sig = f d.sig := rfl
@[simp] theorem Device.mapSig_fab (d : Device) (f : Signal → Signal) : (d.mapSig f).fab = d.fab := rfl
@[simp] theorem Device.mapSig_house (d : Device) (f : Signal → Signal) : (d.mapSig f).house = d.house := rfl
@[simp] theorem Device.mapSig_debug (d : Device) (f : Signal → Signal) : (d.mapSig f).debug = d.debug := rfl
@[simp] theorem Device.mapSig_outbox (d : Device) (f : Signal → Signal) : (d.mapSig f).outbox = d.outbox := rfl
@[simp] theorem Device.mapSig_nextId (d : Device) (f : Signal → Signal) : (d.mapSig f).nextId = d.nextId := rfl
@[simp] theorem Device.mapSig_latent (d : Device) (f : Signal → Signal) : (d.mapSig f).latent = d.latent := rfl
@[simp] theorem Device.mapSig_snaps (d : Device) (f : Signal → Signal) : (d.mapSig f).snaps = d.snaps := rfl
@[simp] theorem Device.mapSig_slewed (d : Device) (f : Signal → Signal) : (d.mapSig f).slewed = d.slewed := rfl
@[simp] theorem Device.mapSig_slewFrom (d : Device) (f : Signal → Signal) : (d.mapSig f).slewFrom = d.slewFrom := rfl
@[simp] theorem Device.mapSig_slewBy (d : Device) (f : Signal → Signal) : (d.mapSig f).slewBy = d.slewBy := rfl
@[simp] theorem Device.mapSig_scrubbed (d : Device) (f : Signal → Signal) : (d.mapSig f).scrubbed = d.scrubbed := rfl
@[simp] theorem Device.mapSig_idle (d : Device) (f : Signal → Signal) : (d.mapSig f).idle = d.idle := rfl
@[simp] theorem Device.mapSig_idleAt (d : Device) (f : Signal → Signal) : (d.mapSig f).idleAt = d.idleAt := rfl
@[simp] theorem Device.mapHouse_now (d : Device) (f : House → House) : (d.mapHouse f).now = d.now := rfl
@[simp] theorem Device.mapHouse_tbase (d : Device) (f : House → House) : (d.mapHouse f).tbase = d.tbase := rfl
@[simp] theorem Device.mapHouse_mem (d : Device) (f : House → House) : (d.mapHouse f).mem = d.mem := rfl
@[simp] theorem Device.mapHouse_remote (d : Device) (f : House → House) : (d.mapHouse f).remote = d.remote := rfl
@[simp] theorem Device.mapHouse_cache (d : Device) (f : House → House) : (d.mapHouse f).cache = d.cache := rfl
@[simp] theorem Device.mapHouse_regions (d : Device) (f : House → House) : (d.mapHouse f).regions = d.regions := rfl
@[simp] theorem Device.mapHouse_lines (d : Device) (f : House → House) : (d.mapHouse f).lines = d.lines := rfl
@[simp] theorem Device.mapHouse_lasers (d : Device) (f : House → House) : (d.mapHouse f).lasers = d.lasers := rfl
@[simp] theorem Device.mapHouse_streams (d : Device) (f : House → House) : (d.mapHouse f).streams = d.streams := rfl
@[simp] theorem Device.mapHouse_drives (d : Device) (f : House → House) : (d.mapHouse f).drives = d.drives := rfl
@[simp] theorem Device.mapHouse_bus (d : Device) (f : House → House) : (d.mapHouse f).bus = d.bus := rfl
@[simp] theorem Device.mapHouse_sig (d : Device) (f : House → House) : (d.mapHouse f).sig = d.sig := rfl
@[simp] theorem Device.mapHouse_fab (d : Device) (f : House → House) : (d.mapHouse f).fab = d.fab := rfl
@[simp] theorem Device.mapHouse_house (d : Device) (f : House → House) : (d.mapHouse f).house = f d.house := rfl
@[simp] theorem Device.mapHouse_debug (d : Device) (f : House → House) : (d.mapHouse f).debug = d.debug := rfl
@[simp] theorem Device.mapHouse_outbox (d : Device) (f : House → House) : (d.mapHouse f).outbox = d.outbox := rfl
@[simp] theorem Device.mapHouse_nextId (d : Device) (f : House → House) : (d.mapHouse f).nextId = d.nextId := rfl
@[simp] theorem Device.mapHouse_latent (d : Device) (f : House → House) : (d.mapHouse f).latent = d.latent := rfl
@[simp] theorem Device.mapHouse_snaps (d : Device) (f : House → House) : (d.mapHouse f).snaps = d.snaps := rfl
@[simp] theorem Device.mapHouse_slewed (d : Device) (f : House → House) : (d.mapHouse f).slewed = d.slewed := rfl
@[simp] theorem Device.mapHouse_slewFrom (d : Device) (f : House → House) : (d.mapHouse f).slewFrom = d.slewFrom := rfl
@[simp] theorem Device.mapHouse_slewBy (d : Device) (f : House → House) : (d.mapHouse f).slewBy = d.slewBy := rfl
@[simp] theorem Device.mapHouse_scrubbed (d : Device) (f : House → House) : (d.mapHouse f).scrubbed = d.scrubbed := rfl
@[simp] theorem Device.mapHouse_idle (d : Device) (f : House → House) : (d.mapHouse f).idle = d.idle := rfl
@[simp] theorem Device.mapHouse_idleAt (d : Device) (f : House → House) : (d.mapHouse f).idleAt = d.idleAt := rfl
@[simp] theorem Device.mapFab_now (d : Device) (f : FabRegs → FabRegs) : (d.mapFab f).now = d.now := rfl
@[simp] theorem Device.mapFab_tbase (d : Device) (f : FabRegs → FabRegs) : (d.mapFab f).tbase = d.tbase := rfl
@[simp] theorem Device.mapFab_mem (d : Device) (f : FabRegs → FabRegs) : (d.mapFab f).mem = d.mem := rfl
@[simp] theorem Device.mapFab_remote (d : Device) (f : FabRegs → FabRegs) : (d.mapFab f).remote = d.remote := rfl
@[simp] theorem Device.mapFab_cache (d : Device) (f : FabRegs → FabRegs) : (d.mapFab f).cache = d.cache := rfl
@[simp] theorem Device.mapFab_regions (d : Device) (f : FabRegs → FabRegs) : (d.mapFab f).regions = d.regions := rfl
@[simp] theorem Device.mapFab_lines (d : Device) (f : FabRegs → FabRegs) : (d.mapFab f).lines = d.lines := rfl
@[simp] theorem Device.mapFab_lasers (d : Device) (f : FabRegs → FabRegs) : (d.mapFab f).lasers = d.lasers := rfl
@[simp] theorem Device.mapFab_streams (d : Device) (f : FabRegs → FabRegs) : (d.mapFab f).streams = d.streams := rfl
@[simp] theorem Device.mapFab_drives (d : Device) (f : FabRegs → FabRegs) : (d.mapFab f).drives = d.drives := rfl
@[simp] theorem Device.mapFab_bus (d : Device) (f : FabRegs → FabRegs) : (d.mapFab f).bus = d.bus := rfl
@[simp] theorem Device.mapFab_sig (d : Device) (f : FabRegs → FabRegs) : (d.mapFab f).sig = d.sig := rfl
@[simp] theorem Device.mapFab_fab (d : Device) (f : FabRegs → FabRegs) : (d.mapFab f).fab = { d.fab with regs := f d.fab.regs } := rfl
@[simp] theorem Device.mapFab_house (d : Device) (f : FabRegs → FabRegs) : (d.mapFab f).house = d.house := rfl
@[simp] theorem Device.mapFab_debug (d : Device) (f : FabRegs → FabRegs) : (d.mapFab f).debug = d.debug := rfl
@[simp] theorem Device.mapFab_outbox (d : Device) (f : FabRegs → FabRegs) : (d.mapFab f).outbox = d.outbox := rfl
@[simp] theorem Device.mapFab_nextId (d : Device) (f : FabRegs → FabRegs) : (d.mapFab f).nextId = d.nextId := rfl
@[simp] theorem Device.mapFab_latent (d : Device) (f : FabRegs → FabRegs) : (d.mapFab f).latent = d.latent := rfl
@[simp] theorem Device.mapFab_snaps (d : Device) (f : FabRegs → FabRegs) : (d.mapFab f).snaps = d.snaps := rfl
@[simp] theorem Device.mapFab_slewed (d : Device) (f : FabRegs → FabRegs) : (d.mapFab f).slewed = d.slewed := rfl
@[simp] theorem Device.mapFab_slewFrom (d : Device) (f : FabRegs → FabRegs) : (d.mapFab f).slewFrom = d.slewFrom := rfl
@[simp] theorem Device.mapFab_slewBy (d : Device) (f : FabRegs → FabRegs) : (d.mapFab f).slewBy = d.slewBy := rfl
@[simp] theorem Device.mapFab_scrubbed (d : Device) (f : FabRegs → FabRegs) : (d.mapFab f).scrubbed = d.scrubbed := rfl
@[simp] theorem Device.mapFab_idle (d : Device) (f : FabRegs → FabRegs) : (d.mapFab f).idle = d.idle := rfl
@[simp] theorem Device.mapFab_idleAt (d : Device) (f : FabRegs → FabRegs) : (d.mapFab f).idleAt = d.idleAt := rfl

/-! What the slots of a bundle read stands while the bundle issues. -/

@[simp] theorem State.mapDev_src (s : State) (f : Device → Device) : (s.mapDev f).src = s.src := by
  unfold State.src State.mapDev
  cases s.old <;> rfl

@[simp] theorem State.mapCar_srcDev (s : State) (f : Car → Car) : (s.mapCar f).srcDev = s.srcDev := by
  unfold State.srcDev State.mapCar
  cases s.old <;> rfl

/-- Inside a bundle, a change of the car does not reach what its slots read (R89). -/
theorem State.mapCar_src_of_old (s : State) (f : Car → Car) {o : Car × Device} (h : s.old = some o) :
    (s.mapCar f).src = s.src := by
  simp [State.src, State.mapCar, h]

/-! Registers hold what was put in them. -/

/-- s0 reads as zero (R15). -/
@[simp] theorem Car.rS_zero (c : Car) : c.rS 0 = 0#64 := rfl

/-- A write to s0 is discarded (R15). -/
@[simp] theorem Car.wS_zero (c : Car) (x : Word) : c.wS 0 x = c := rfl

/-- Two names of one mode mean two registers. -/
theorem physS_injective (h : Bool) : Function.Injective (physS h) := by
  intro a b e
  cases h <;> simp only [physS, Bool.false_and, Bool.true_and, Bool.false_eq_true, if_false, decide_eq_true_eq, Fin.ext_iff] at e ⊢
  · exact e
  · split at e <;> split at e <;> simp only at e <;> omega

/-- A scalar register holds what was written to it, unless it is s0 (R15, R90). -/
theorem Car.rS_wS_self (c : Car) {r : SReg} (x : Word) (h : r ≠ 0) : (c.wS r x).rS r = x := by
  simp [Car.rS, Car.wS, h, Car.putS, Car.physS]

/-- Every other scalar register stands. -/
theorem Car.rS_wS_other (c : Car) {r q : SReg} (x : Word) (h : q ≠ r) : (c.wS r x).rS q = c.rS q := by
  unfold Car.rS
  split
  · rfl
  · unfold Car.wS
    split
    · rfl
    · have : (c.physS r).val ≠ (c.physS q).val := fun e => h (physS_injective _ (Fin.ext e.symm))
      simp only [Car.putS, Car.physS] at this ⊢
      exact Vector.getElem_set_ne _ _ this

/-- A physical vector register holds what was put in it. -/
@[simp] theorem Car.rV_putV_self (c : Car) (p : Nat) (x : VWord) : (c.putV p x).rV p = x := Tab.get_set_self _ _ _ _

/-- Every other vector register stands. -/
theorem Car.rV_putV_other (c : Car) {p q : Nat} (x : VWord) (h : q ≠ p) : (c.putV p x).rV q = c.rV q :=
  Tab.get_set_other _ _ _ h

/-- k0 is all ones (R21). -/
@[simp] theorem Car.rK_zero (c : Car) : c.rK 0 = BitVec.allOnes 4096 := rfl

end Sys2Proof.Machine
end

