-- ==== Sys2Proof/Laws/Slots.lean ====
section
/-!
SUPPORT. Everything that a slot can do at issue, said once: its effect when its needs are met, else what the verdict on
its bundle makes of it (spec 04 R88, 03 R71).
-/
namespace Sys2Proof.Machine

/-- A list of operands that can be read is full. -/
theorem State.Readable.full {s : State} {os : List Opnd} (h : s.Readable os) : s.full os = true := by
  rw [State.full, List.all_eq_true]
  exact fun o ho => (h o ho).1

/-- A list of operands with room is full. -/
theorem State.Room.full {s : State} {os : List Opnd} (h : s.Room os) : s.full os = true := by
  rw [State.full, List.all_eq_true]
  exact h

/-- Nothing is asked of no operands. -/
@[simp] theorem State.readable_nil (s : State) : s.Readable [] := fun _ h => nomatch h

@[simp] theorem State.room_nil (s : State) : s.Room [] := fun _ h => nomatch h

@[simp] theorem State.readable_cons (s : State) (o : Opnd) (os : List Opnd) :
    s.Readable (o :: os) ↔ (s.src.isFull o = true ∧ s.src.isPoisoned o = false) ∧ s.Readable os := by
  simp [State.Readable]

@[simp] theorem State.room_cons (s : State) (o : Opnd) (os : List Opnd) :
    s.Room (o :: os) ↔ s.src.isFull o = true ∧ s.Room os := by
  simp [State.Room]

/-- s0 is always full (R15). -/
@[simp] theorem Car.isFull_zero (c : Car) : c.isFull (.s 0) = true := rfl

/-- k0 is always full (R21). -/
@[simp] theorem Car.isFull_k0 (c : Car) : c.isFull (.k 0) = true := rfl

/-- The verdict on a slot whose needs are met. -/
theorem Plan.Passes.verdict {s : State} {p : Plan} (h : p.Passes s) : s.verdict [p] = .go := by
  obtain ⟨h1, h2, h3, h4, h5, h6, h7, h8, h9⟩ := h
  have clean : (p.srcs.any fun o => s.src.isPoisoned o) = false := by
    rw [List.any_eq_false]
    intro o ho
    simp [(h5 o ho).2]
  simp [State.verdict, State.slotCause, h1, h2, h3, h4, h5.full, h6.full, h7, h8, h9, clean]

/-- What a slot does is one of five things. -/
theorem SlotOp.run_cases (o : SlotOp) (s : State) :
    (s.verdict [o.plan] = .go ∧ o.run s = .next (o.eff s)) ∨
    (s.verdict [o.plan] = .wait ∧ o.run s = .next s.stays) ∨
    (∃ t, s.verdict [o.plan] = .trap t ∧ o.run s = .next (s.preciseTrap t)) ∨
    (s.verdict [o.plan] = .doom ∧ o.run s = .next s.doom) ∨
    (∃ va, s.verdict [o.plan] = .walk va ∧ o.run s = .next (s.stays.startWalk va)) := by
  simp only [SlotOp.run, State.issue, State.settle]
  cases h : s.verdict [o.plan] <;> simp

/-- A slot whose needs are met has its effect. -/
theorem Plan.Passes.run {s : State} {o : SlotOp} (h : o.plan.Passes s) : o.run s = .next (o.eff s) := by
  simp [SlotOp.run, State.issue, h.verdict]

/-- The arm of a slot instruction runs its slot. -/
theorem exec_slot {i : Instr} {s : State} {o : SlotOp} (h : slotOf i s = some o) : exec i s = o.run s := by
  cases i <;> simp_all only [slotOf, Option.some.injEq, reduceCtorEq] <;> subst h <;> rfl

/-- A slot instruction whose needs are met has its effect. -/
theorem exec_passes {i : Instr} {s : State} {o : SlotOp} (h : slotOf i s = some o) (p : o.plan.Passes s) :
    exec i s = .next (o.eff s) := (exec_slot h).trans p.run

/-- Scalar operands alone need nothing of a unit. -/
theorem planS_passes {s : State} (te : Bool) {srcs dsts : List SReg} (h : s.Readable (srcs.map Opnd.s))
    (r : s.Room (dsts.map Opnd.s)) : (planS te srcs dsts).Passes s where
  legal := rfl
  allowed := rfl
  units := by simp [State.unitsBusy, planS]
  still := rfl
  reads := h
  room := r
  cause := rfl
  spec := rfl
  mapped := rfl

/-! Going back. -/

/-- After a rollback no bundle is in issue. -/
@[simp] theorem State.rollback_old (s : State) : s.rollback.old = none := by
  unfold State.rollback
  split
  · rfl
  · assumption

/-- A rollback gives the car and the package that stood before the bundle. -/
theorem State.rollback_of_old {s : State} {o : Car × Device} (h : s.old = some o) :
    s.rollback = { s with car := o.1, dev := o.2, old := none } := by
  simp [State.rollback, h]

/-- Outside a bundle there is nothing to go back to. -/
theorem State.rollback_of_between {s : State} (h : s.Between) : s.rollback = s := by
  simp [State.rollback, show s.old = none from h]

/-- A bundle that stays at issue changes nothing but the note of how long it has stood (R322). -/
@[simp] theorem State.stays_old (s : State) : s.stays.old = none := s.rollback_old

theorem State.stays_of_between {s : State} (h : s.Between) : s.stays = s.mapCar (fun c => c.stand s.now) := by
  rw [State.stays, State.rollback_of_between h]

/-- A bundle that closes is over. -/
@[simp] theorem State.closeBundle_old (s : State) : s.closeBundle.old = none := by
  unfold State.closeBundle
  split
  · assumption
  · rfl

/-- A bundle that closes changes only its car. -/
@[simp] theorem State.closeBundle_dev (s : State) : s.closeBundle.dev = s.dev := by
  unfold State.closeBundle
  split <;> rfl

/-- A bundle that begins: its slots read what stands. -/
@[simp] theorem State.openBundle_src (s : State) : s.openBundle.src = s.car := rfl

@[simp] theorem State.openBundle_srcDev (s : State) : s.openBundle.srcDev = s.dev := rfl

end Sys2Proof.Machine
end

