-- ==== Sys2Proof/Laws/Lanes.lean ====
section
/-!
SUPPORT. The elements of a vector register and the bits of a mask: cutting, joining and merging (spec 01 R20, R37, 07
R168).
-/
namespace Sys2Proof.Machine

@[simp] theorem cut_length (w n : Nat) : ∀ x : Nat, (cut w n x).length = n := by
  induction n with
  | zero => exact fun _ => rfl
  | succ n ih => exact fun x => by simp [cut, ih]

/-- An element that was cut. -/
theorem cut_getElem (w n : Nat) : ∀ (x i : Nat) (h : i < (cut w n x).length), (cut w n x)[i] = x / 2 ^ (w * i) % 2 ^ w := by
  induction n with
  | zero => intro x i h; simp at h
  | succ n ih =>
    intro x i h
    cases i with
    | zero => simp [cut]
    | succ i =>
      simp only [cut, List.getElem_cons_succ, ih]
      rw [Nat.div_div_eq_div_mul, ← Nat.pow_add, Nat.mul_succ, Nat.add_comm w]

/-- An element of what was joined. -/
theorem join_element (w : Nat) (xs : List Nat) : ∀ i : Nat, join w xs / 2 ^ (w * i) % 2 ^ w = xs.getD i 0 % 2 ^ w := by
  induction xs with
  | nil => intro i; simp [join]
  | cons x xs ih =>
    intro i
    have hp : 0 < 2 ^ w := Nat.two_pow_pos w
    cases i with
    | zero => simp [join, Nat.add_mul_mod_self_left]
    | succ i =>
      have : join w (x :: xs) / 2 ^ w = join w xs := by
        rw [join, Nat.add_mul_div_left _ _ hp, Nat.div_eq_of_lt (Nat.mod_lt _ hp), Nat.zero_add]
      rw [Nat.mul_succ, Nat.add_comm, Nat.pow_add, ← Nat.div_div_eq_div_mul, this, ih]
      simp

/-- What is joined fits its elements. -/
theorem join_lt (w : Nat) (xs : List Nat) : join w xs < 2 ^ (w * xs.length) := by
  induction xs with
  | nil => simp [join]
  | cons x xs ih =>
    have hp : 0 < 2 ^ w := Nat.two_pow_pos w
    have := Nat.mod_lt x hp
    have h2 : 2 ^ w * (join w xs + 1) ≤ 2 ^ w * 2 ^ (w * xs.length) := Nat.mul_le_mul_left _ ih
    rw [List.length_cons, Nat.mul_succ, Nat.add_comm, Nat.pow_add]
    simp only [join]
    rw [Nat.mul_add] at h2
    omega

/-- The elements of a type fill the register. -/
theorem bits_count (t : ETy) : t.bits * t.count = 32768 := by cases t <;> rfl

/-- An element of a register is a lane of it. -/
theorem elems_getElem (t : ETy) (v : VWord) (i : Nat) (h : i < (elems t v).length) : (elems t v)[i] = lane t v i :=
  cut_getElem _ _ _ _ h

@[simp] theorem elems_length (t : ETy) (v : VWord) : (elems t v).length = t.count := cut_length _ _ _

/-- A lane of the register of some elements (R37). -/
theorem lane_ofElems (t : ETy) (xs : List Nat) (h : xs.length = t.count) (i : Nat) :
    lane t (ofElems t xs) i = xs.getD i 0 % 2 ^ t.bits := by
  have hl := join_lt t.bits xs
  rw [h, bits_count] at hl
  rw [lane, ofElems, BitVec.toNat_ofNat, Nat.mod_eq_of_lt hl, join_element]

@[simp] theorem active_length (n : Nat) (k : Mask) : (active n k).length = n := by simp [active]

/-- An element is active when its mask bit is one (R168). -/
theorem active_getElem (n : Nat) (k : Mask) (i : Nat) (h : i < (active n k).length) : (active n k)[i] = k.getLsbD i := by
  simp [active, cut_getElem, BitVec.getLsbD, Nat.testBit_eq_decide_div_mod_eq, Bool.beq_eq_decide_eq]

/-- What merging gives each element: the result where it is active, the old element elsewhere (R168). -/
theorem merge_getElem : ∀ (bs : List Bool) (rs : List (Nat × Fl)) (os : List Nat), bs.length = os.length → rs.length = os.length →
    ∀ i : Nat, i < os.length → (merge bs rs os).1.getD i 0 = if bs.getD i false then (rs.getD i (0, 0#8)).1 else os.getD i 0
  | [], _, [], _, _, i, h => by simp at h
  | _ :: _, [], _ :: _, _, hr, i, h => by simp at hr
  | true :: bs, r :: rs, o :: os, hb, hr, i, h => by
    cases i with
    | zero => simp [merge]
    | succ i => simpa [merge] using merge_getElem bs rs os (by simpa using hb) (by simpa using hr) i (by simpa using h)
  | false :: bs, r :: rs, o :: os, hb, hr, i, h => by
    cases i with
    | zero => simp [merge]
    | succ i => simpa [merge] using merge_getElem bs rs os (by simpa using hb) (by simpa using hr) i (by simpa using h)

/-- Merging keeps the count. -/
theorem merge_length : ∀ (bs : List Bool) (rs : List (Nat × Fl)) (os : List Nat), (merge bs rs os).1.length = os.length
  | [], _, os => by simp [merge]
  | true :: bs, [], os => by simp [merge]
  | false :: bs, [], os => by simp [merge]
  | true :: bs, _ :: rs, [] => by simp [merge]
  | false :: bs, _ :: rs, [] => by simp [merge]
  | true :: bs, _ :: rs, _ :: os => by simpa [merge] using merge_length bs rs os
  | false :: bs, _ :: rs, _ :: os => by simpa [merge] using merge_length bs rs os

end Sys2Proof.Machine
end

