-- ==== Sys2Proof/Laws/Spots.lean ====
section
/-!
SUPPORT. A spot that a consist is given names cores that exist, each once (spec 14 R369).
-/
namespace Sys2Proof.Machine

/-- Turning a list round keeps its members and their number. -/
theorem rotate_perm {α : Type} (n : Nat) (xs : List α) : (rotate n xs).Perm xs := by
  unfold rotate
  exact List.perm_append_comm.trans (by rw [List.take_append_drop])

/-- Members that meet a test, then the others, are the same members. -/
theorem filter_split_perm {α : Type} (p : α → Bool) (xs : List α) : (xs.filter p ++ xs.filter (fun x => !p x)).Perm xs :=
  List.filter_append_perm p xs

/-- Cores that the device may give are distinct and exist. -/
theorem Device.coresOf_nodup (d : Device) (cs : BitVec 3) : (d.coresOf cs).Nodup := List.nodup_range.filter _

theorem Device.coresOf_lt {d : Device} {cs : BitVec 3} {k : Nat} (h : k ∈ d.coresOf cs) : k < 336 :=
  List.mem_range.mp (List.mem_of_mem_filter h)

/-- A place found among distinct cores names distinct cores, all of them among those or, for secondaries, enabled. -/
theorem State.spotIn_cores {s : State} {r : List Word} {x : Image} {pri : Nat} {spec : Bool} {cores : List Nat} {lines : List Ix16} {gone : Car → Bool}
    {sp : Spot} (h : s.spotIn r x pri spec cores lines gone = some sp) (hn : cores.Nodup) (hc : ∀ k ∈ cores, k < 336) : sp.cores.Nodup ∧ ∀ k ∈ sp.cores, k < 336 := by
  have pick : ∀ (p : Nat → Bool) (n m : Nat) (ks : List Nat), ks.Nodup → (∀ k ∈ ks, k < 336) →
      (((rotate n ks).filter p ++ (rotate n ks).filter (fun k => !p k)).take m).Nodup ∧
        ∀ k ∈ ((rotate n ks).filter p ++ (rotate n ks).filter (fun k => !p k)).take m, k < 336 := fun p n m ks h1 h2 =>
    have e := (filter_split_perm p (rotate n ks)).trans (rotate_perm n ks)
    ⟨(e.nodup_iff.mpr h1).sublist (List.take_sublist _ _), fun k hk => h2 k (e.mem_iff.mp (List.mem_of_mem_take hk))⟩
  have hs : (s.secondaryCores (recClasses r) pri spec gone).Nodup := (Device.coresOf_nodup s.dev _).filter _
  have hl : ∀ k ∈ s.secondaryCores (recClasses r) pri spec gone, k < 336 := fun k hk => Device.coresOf_lt (List.mem_of_mem_filter hk)
  unfold State.spotIn at h
  dsimp only at h
  split at h
  · cases h
  · split at h
    · cases h
      exact pick _ _ _ _ hn hc
    · split at h
      · cases h
        exact pick _ _ _ _ hs hl
      · cases h

/-- Where a consist fits: distinct cores that exist. -/
theorem State.spot_cores {s : State} {r : List Word} {x : Image} {pri : Nat} {spec : Bool} {sp : Spot} (h : s.spot r x pri spec = some sp) :
    sp.cores.Nodup ∧ ∀ k ∈ sp.cores, k < 336 :=
  State.spotIn_cores h ((Device.coresOf_nodup s.dev _).filter _) (fun _ hk => Device.coresOf_lt (List.mem_of_mem_filter hk))

end Sys2Proof.Machine
end

