-- ==== Sys2Proof/Laws/Traps.lean ====
section
/-!
SUPPORT. What taking a trap and returning from one leave (spec 12 R322 to R326), and everything that a trap can be.
-/
namespace Sys2Proof.Machine

/-- A trap is one of three things: a doom in a speculation, an abort while traps are masked, else the entry to the handler
(R322, R165, R330). -/
theorem State.takeTrap_cases (s : State) (t : Trap) (resume trappc : BitVec 17) (since : Nat) :
    (s.car.place.spec = true ∧ s.takeTrap t resume trappc since = s.doom) ∨
    (s.car.place.spec = false ∧ s.car.tr.masked = true ∧ s.takeTrap t resume trappc since = s.abortMine 0x07#8) ∨
    (s.car.place.spec = false ∧ s.car.tr.masked = false ∧
      s.takeTrap t resume trappc since = { s.mapCar (fun c => c.enter t resume trappc s.now since) with old := none }) := by
  unfold State.takeTrap
  cases h : s.car.place.spec <;> cases g : s.car.tr.masked <;> simp

/-- A WADR that ends touches only the register file, the marks, the producers and the waits. -/
theorem Car.endWadr_keeps (c : Car) : c.endWadr.tr = c.tr ∧ c.endWadr.ctl = c.ctl ∧ c.endWadr.loop = c.loop ∧
    c.endWadr.late = c.late ∧ c.endWadr.eng = c.eng ∧ c.endWadr.spad = c.spad ∧ c.endWadr.imem = c.imem ∧
    c.endWadr.arr = c.arr ∧ c.endWadr.place = c.place ∧ c.endWadr.ident = c.ident ∧ c.endWadr.life = c.life ∧
    c.endWadr.pc = c.pc := by
  unfold Car.endWadr
  simp only
  generalize c.wait.filterMap _ = ps
  have key : ∀ (ps : List Nat) (x : Car),
      let y := ps.foldl (fun c p => if h : p < 72 then (if p = 0 then c else c.putS ⟨p, h⟩ 1#64) else c) x
      y.tr = x.tr ∧ y.ctl = x.ctl ∧ y.loop = x.loop ∧ y.late = x.late ∧ y.eng = x.eng ∧ y.spad = x.spad ∧ y.imem = x.imem ∧
      y.arr = x.arr ∧ y.place = x.place ∧ y.ident = x.ident ∧ y.life = x.life ∧ y.pc = x.pc := by
    intro ps
    induction ps with
    | nil => intro x; simp
    | cons p t ih =>
      intro x
      have := ih (if h : p < 72 then (if p = 0 then x else x.putS ⟨p, h⟩ 1#64) else x)
      simp only [List.foldl_cons] at this ⊢
      split at this
      · split at this
        · simp [*]
        · simp [*]
      · simp [*]
  exact key ps _

/-! The entry (R322 to R324). -/

@[simp] theorem Car.enter_pc (c : Car) (t : Trap) (r p : BitVec 17) (n m : Nat) : (c.enter t r p n m).pc = c.ctl.tvec := by
  simp [Car.enter, (Car.endWadr_keeps c).2.1]

@[simp] theorem Car.enter_handler (c : Car) (t : Trap) (r p : BitVec 17) (n m : Nat) : (c.enter t r p n m).tr.handler = true := rfl

@[simp] theorem Car.enter_masked (c : Car) (t : Trap) (r p : BitVec 17) (n m : Nat) : (c.enter t r p n m).tr.masked = true := rfl

@[simp] theorem Car.enter_pending (c : Car) (t : Trap) (r p : BitVec 17) (n m : Nat) :
    (c.enter t r p n m).tr.pending = c.tr.pending := by
  simp [Car.enter, (Car.endWadr_keeps c).1]

@[simp] theorem Car.enter_late (c : Car) (t : Trap) (r p : BitVec 17) (n m : Nat) : (c.enter t r p n m).late = [] := rfl

@[simp] theorem Car.enter_ready (c : Car) (t : Trap) (r p : BitVec 17) (n m : Nat) :
    (c.enter t r p n m).ready = Nat.max (m + 2) (n + 1) := rfl

@[simp] theorem Car.enter_tcause (c : Car) (t : Trap) (r p : BitVec 17) (n m : Nat) : (c.enter t r p n m).ctl.tcause = t.tcause := rfl

@[simp] theorem Car.enter_taddr (c : Car) (t : Trap) (r p : BitVec 17) (n m : Nat) : (c.enter t r p n m).ctl.taddr = t.taddr := rfl

@[simp] theorem Car.enter_spad (c : Car) (t : Trap) (r p : BitVec 17) (n m : Nat) : (c.enter t r p n m).spad = c.spad := by
  simp [Car.enter, (Car.endWadr_keeps c).2.2.2.2.2.1]

@[simp] theorem Car.enter_imem (c : Car) (t : Trap) (r p : BitVec 17) (n m : Nat) : (c.enter t r p n m).imem = c.imem := by
  simp [Car.enter, (Car.endWadr_keeps c).2.2.2.2.2.2.1]

@[simp] theorem Car.enter_arr (c : Car) (t : Trap) (r p : BitVec 17) (n m : Nat) : (c.enter t r p n m).arr = c.arr := by
  simp [Car.enter, (Car.endWadr_keeps c).2.2.2.2.2.2.2.1]

/-! The return (R163, R326). -/

@[simp] theorem Car.leave_pc (c : Car) (img : Vector Word 128) (n : Nat) : (c.leave img n).pc = img[0].extractLsb' 0 17 := rfl

@[simp] theorem Car.leave_fmt (c : Car) (img : Vector Word 128) (n : Nat) :
    (c.leave img n).regs.fmt = img[14].extractLsb' 0 20 := rfl

/-! Dooms and aborts. -/

/-- A doom ends the bundle in issue. -/
@[simp] theorem State.doom_old (s : State) : s.doom.old = none := by
  unfold State.doom
  cases h : s.old <;> simp [State.doomSpec, h]

/-- A doom writes no memory of the package that stood before the bundle. -/
theorem State.doom_mem (s : State) : s.doom.dev.mem = (s.old.map (fun o => o.2.mem)).getD s.dev.mem := by
  unfold State.doom
  cases h : s.old <;> simp [State.doomSpec, Device.mapSpec]

/-- An abort ends the bundle in issue. -/
@[simp] theorem State.abortMine_old (s : State) (k : BitVec 8) : (s.abortMine k).old = none := by
  unfold State.abortMine
  split
  · simp
  · split <;> rfl

/-- A trap ends the bundle in issue. -/
@[simp] theorem State.takeTrap_old (s : State) (t : Trap) (r p : BitVec 17) (n : Nat) : (s.takeTrap t r p n).old = none := by
  rcases s.takeTrap_cases t r p n with h | h | h <;> simp [h]

end Sys2Proof.Machine
end

