-- ==== Sys2Proof/Laws/Step.lean ====
section
/-!
SUPPORT. Everything that one step can be (notes/assumptions/5.md), and everything that a bundle's turn can be (spec 04
R88).
-/
namespace Sys2Proof.Machine

/-- What closes a cycle: an event that is due, a release that is delivered, a wait that ends, or the next cycle. -/
theorem State.closing_cases (s : State) :
    (∃ m, s.dueAfter = some m ∧ s.closing = m s) ∨
    (s.dueAfter = none ∧ ∃ r, s.delivers = some r ∧ s.closing = .next (s.atCar r State.deliverMine)) ∨
    (s.dueAfter = none ∧ s.delivers = none ∧ ∃ r, s.ended = some r ∧ s.closing = .next (s.atCar r State.endWaits)) ∨
    (s.dueAfter = none ∧ s.delivers = none ∧ s.ended = none ∧ s.closing = .next s.nextCycle) := by
  unfold State.closing
  cases s.dueAfter <;> cases s.delivers <;> cases s.ended <;> simp

/-- A step takes an input, does what is due, gives a car its turn, looks at the next car, or does what closes the cycle. -/
theorem step_cases (s : State) :
    (∃ x rest, s.inbox = x :: rest ∧ step s = ({ s with inbox := rest }).receive x) ∨
    (s.inbox = [] ∧ ∃ m, s.due = some m ∧ step s = m s) ∨
    (s.inbox = [] ∧ s.due = none ∧ s.toMove s.car = true ∧ step s = s.carTurn) ∨
    (s.inbox = [] ∧ s.due = none ∧ s.toMove s.car = false ∧
      ∃ c, s.cars.find? (fun c => s.toMove c) = some c ∧ step s = .next (s.turnTo c.ref)) ∨
    (s.inbox = [] ∧ s.due = none ∧ s.toMove s.car = false ∧
      s.cars.find? (fun c => s.toMove c) = none ∧ step s = s.closing) := by
  unfold step State.advance
  cases hi : s.inbox with
  | cons x rest => simp
  | nil =>
    cases hm : s.due with
    | some m => simp
    | none =>
      cases ht : s.toMove s.car with
      | true => simp
      | false => cases hf : s.cars.find? (fun c => s.toMove c) <;> simp

/-- The memory of the machine after reset is in its canonical form. -/
theorem State.reset_mem_wf : State.reset.dev.mem.wf = true := rfl

/-- An issue attempt traps at its fetch, issues, is passed over, or settles its verdict. -/
theorem State.attempt_cases (s : State) (may : Bool) :
    (∃ k, s.car.fetch = .error k ∧ s.attempt may = .next (s.preciseTrap { cause := k, taddr := s.car.fetchAt })) ∨
    (∃ b, s.car.fetch = .ok b ∧ s.openBundle.judge b = .go ∧ may = true ∧ s.attempt may = s.issueBundle b) ∨
    (∃ b, s.car.fetch = .ok b ∧ s.openBundle.judge b = .go ∧ may = false ∧ s.attempt may = .next s.stays) ∨
    (∃ b, s.car.fetch = .ok b ∧ s.openBundle.judge b ≠ .go ∧
      s.attempt may = .next (((s.noteWants b).rereads b).openBundle.settle (s.openBundle.judge b))) := by
  unfold State.attempt State.outlook
  cases hf : s.car.fetch with
  | error k => simp
  | ok b =>
    simp only
    cases hv : s.openBundle.judge b <;> cases may <;> simp [hv]

/-- A bundle of one slot runs that slot. -/
theorem runSlots_one (u : Fin 2) (i : Instr) (s : State) : runSlots [(u, i)] s = exec i (s.atUnit u) := by
  simp only [runSlots]
  cases exec i (s.atUnit u) <;> rfl

/-- Slots one after the other. -/
theorem runSlots_cons {u : Fin 2} {i : Instr} {is : List (Fin 2 × Instr)} {s t : State} (h : exec i (s.atUnit u) = .next t) :
    runSlots ((u, i) :: is) s = runSlots is t := by
  simp [runSlots, h]

/-- A bundle begins with the first unit of every class. -/
@[simp] theorem State.takeUnits_first (s : State) (b : Bundle) : (s.takeUnits b).atUnit 0 = s.takeUnits b := rfl

end Sys2Proof.Machine
end

