-- ==== Sys2Proof/Tests/Slice0.lean ====
section
/-!
SUPPORT. Tests: terms that WellFormed refuses, words that decode, steps, and witnesses for the hypotheses of the
statements.
-/

open Sys2Proof Sys2Proof.Machine Sys2Proof.Claims

set_option Elab.async false

namespace Sys2Proof.Tests

/-! Small states, and the hypotheses of the statements as tests that compute. -/

/-- The machine after reset with its car changed. -/
def onCar (f : Car → Car) : State := State.reset.mapCar f

/-- The machine after reset with its package changed. -/
def onDev (f : Device → Device) : State := State.reset.mapDev f

/-- A word in a scalar register. -/
def withS (c : Car) (r : Fin 72) (x : Word) : Car :=
  { c with regs := { c.regs with s := c.regs.s.set r.val x r.isLt } }

/-- A record in a handle. -/
def withH (c : Car) (h : Fin 32) (x : Handle) : Car :=
  { c with regs := { c.regs with h := c.regs.h.set h.val x h.isLt } }

/-- A waybill. -/
def withW (c : Car) (w : Ix16) (x : Waybill) : Car :=
  { c with regs := { c.regs with w := c.regs.w.set w.val x w.isLt } }

/-- Operands can be read; there is room for them. -/
def readable (s : State) (os : List Opnd) : Bool := os.all (fun o => s.src.isFull o && !s.src.isPoisoned o)
def room (s : State) (os : List Opnd) : Bool := os.all (fun o => s.src.isFull o)

/-- The needs of a slot are met; the instruction issues. -/
def passes (p : Plan) (s : State) : Bool :=
  !p.illegal && !p.priv && !s.unitsBusy [p] && !p.wait && readable s p.srcs && room s p.dsts && p.cause.isNone && !p.dooms && p.walk.isNone
def issues (s : State) (i : Instr) : Bool :=
  match slotOf i s with
  | some o => passes o.plan s
  | none => false

theorem readable_of {s : State} {os : List Opnd} (h : readable s os = true) : s.Readable os := by
  simpa [readable, State.Readable] using h

theorem room_of {s : State} {os : List Opnd} (h : room s os = true) : s.Room os := by
  simpa [room, State.Room] using h

theorem issues_of {s : State} {i : Instr} (h : issues s i = true) : s.Issues i := by
  unfold issues at h
  split at h
  · rename_i o ho
    simp only [passes, Bool.and_eq_true, Bool.not_eq_true', Option.isNone_iff_eq_none] at h
    obtain ⟨⟨⟨⟨⟨⟨⟨⟨h1, h2⟩, h3⟩, h4⟩, h5⟩, h6⟩, h7⟩, h8⟩, h9⟩ := h
    exact ⟨o, ho, ⟨h1, h2, h3, h4, readable_of h5, room_of h6, h7, h8, h9⟩⟩
  · cases h

/-- A vector slot with these operands goes. -/
def vecGoes (s : State) (srcs dsts : List Opnd) : Bool :=
  !s.throttled && decide (s.vecBusy s.vecUnit ≤ s.now) && !s.fmt.vtBad && readable s srcs && room s dsts

theorem vecGoes_of {s : State} {a b : List Opnd} (h : vecGoes s a b = true) : VecGoes s a b := by
  simp only [vecGoes, Bool.and_eq_true, Bool.not_eq_true', decide_eq_true_eq] at h
  exact ⟨⟨h.1.1.1.1, h.1.1.1.2, h.1.1.2⟩, readable_of h.1.2, room_of h.2⟩

/-- The machine after reset with FMT. -/
def withFmt (x : BitVec 20) : State := onCar (fun c => { c with regs := { c.regs with fmt := x } })

/-- A waybill of `count` elements of 2^lg bytes, one after the other. -/
def bill (base : Word) (count lg : Nat) (sp : Bool) (type : Nat) (misc : Word) : Waybill :=
  #v[base, BitVec.ofNat 64 (count + 0x1000100010000), BitVec.ofNat 64 (0x10001 + lg * 2 ^ 32 + (if sp then 2 ^ 34 else 0) + type * 2 ^ 35),
    BitVec.ofNat 64 (2 ^ lg), 0#64, 0#64, 0#64, misc]


/-! Witnesses: states and operands that meet the hypotheses of a statement. -/

theorem test_hyp_IntegerRegisterResults : State.reset.Readable [.s 3, .s 1, .s 63] ∧ State.reset.Room [.s 3] :=
  ⟨readable_of (by decide +kernel), room_of (by decide +kernel)⟩

theorem test_hyp_MultiplyDivideAndImmediates :
    (State.reset.Readable [.s 1, .s 2] ∧ State.reset.Room [.s 3] ∧ State.reset.divBusy ≤ State.reset.now) ∧
    (let s := onCar (fun c => { c with units := { c.units with divider := 1 } })
     s.Readable [.s 1, .s 2] ∧ s.Room [.s 3] ∧ s.now < s.divBusy) ∧
    (63#64 : Word).toNat < 64 ∧ 64 ≤ (64#64 : Word).toNat :=
  ⟨⟨readable_of (by decide +kernel), room_of (by decide +kernel), by decide +kernel⟩, ⟨readable_of (by decide +kernel), room_of (by decide +kernel), by decide +kernel⟩, by decide +kernel, by decide +kernel⟩

/-- h2 maps plain HBM, h3 an SM page, h4 the host's memory, h5 another package, h6 an address that is nowhere; window 1
leads to core 5, where a peer of the service stands. -/
def mapped : State :=
  let page := fun (sm rmt : Bool) (frame : BitVec 36) => ({ v := true, rd := true, wr := true, sm := sm, rmt := rmt, frame := frame } : Handle)
  let c := withH (withH (withH (withH (withH State.reset.car 2 (page false false 0x10#36)) 3 (page true false 0x10#36)) 4
    (page false false 0x800000000#36)) 5 (page false true 0x004000010#36)) 6 (page false false 0x7FFFFFFFF#36)
  { State.reset with
    car := { c with
      life := .running
      ctl := { c.ctl with
        wmap := c.ctl.wmap.set 1 0x205#10
        wal := c.ctl.wal.set 1 4#8 } }
    peers := [{ State.reset.car with
      life := .running
      ident := { State.reset.car.ident with coreId := 5#9 } }] }

/-- `mapped` with an address in s1. -/
def addressing (a : Word) : State := mapped.mapCar (fun c => withS c 1 a)

/-- The first bytes of each place. -/
def places : List Word :=
  [0#64, 0x80000#64, 0x0800000000000000#64, 0x1000000000000000#64, 0x1800000000000000#64, 0x2000000000000000#64, 0x2800000000000000#64,
   0x3000000000000000#64]

theorem test_targets : (places.map (fun a => (addressing a).target a)) =
    [.spad 0, .peer 1 5#9 0, .imem 0, .hbm 0x100000 false, .hbm 0x100000 true, .host (2 ^ 51), .remote 0x0040000100000#52 false, .nowhere] := by decide +kernel

theorem plain_of {s : State} (h : s.src.eng.stash.isEmpty && s.cars.all (fun c => c.eng.stash.isEmpty) = true) : NoStash s := by
  simpa [NoStash] using h

theorem test_hyp_LoadResults :
    places.all (fun a => (loads false 2 1 0#36).all (fun l => issues (addressing a) l.1)) = true ∧
    (State.reset.src.eng.stash = [] ∧ State.reset.srcDev.fab.fwd = [] ∧ State.reset.src.place.spec = false) := by decide +kernel

theorem test_hyp_LoadResults_first : (addressing 0#64).Issues (.ldd false 2 1 0#36) := issues_of (by decide +kernel)

theorem test_hyp_StoreResults :
    places.all (fun a => a == 0x0800000000000000#64 || (stores false 2 1 0#36).all (fun l => issues (addressing a) l.1)) = true ∧
    mapped.dev.fab.fwd = [] ∧ mapped.car.place.spec = false ∧ 0x100000 + 8 ≤ Config.hbmSize := by decide +kernel

theorem test_hyp_StoreResults_noStash : NoStash mapped := plain_of (by decide +kernel)

theorem test_hyp_AtomicResults :
    [0#64, 0x1000000000000000#64, 0x2800000000000000#64].all (fun a =>
      (atomics false 2#2 2 1 3 0#2).all (fun l => issues (addressing a) l.1)) = true ∧
    mapped.src.spad.anyPoison 0 8 = false ∧ (List.range 8).all (fun i => !mapped.dev.hbmPoison (0x100000 + i)) = true := by decide +kernel

theorem test_hyp_HintsDrainsAndWatches :
    let m : Stash := ⟨0, 0, 0, 4096, Vector.replicate 8 0#64, [], [], []⟩
    let s := mapped.mapCar (fun c => { c with eng := { c.eng with stash := [m] } })
    (readable s [.s 1] = true ∧ s.prefetchOf (s.rS 1) (s.rS 1) = some (m, 0)) ∧
    (readable mapped [.s 1] = true ∧ mapped.prefetchOf (mapped.rS 1) (mapped.rS 1) = none) ∧
    (issues mapped (.wadr false 2 1 3) = true ∧ mapped.wadrWord (mapped.rS 1) = mapped.rS 3) ∧
    (let s := mapped.mapCar (fun c => withS c 3 1#64)
     issues s (.wadr false 2 1 3) = true ∧ s.wadrWord (s.rS 1) ≠ s.rS 3) := by decide +kernel

theorem test_hyp_BranchesTrapsAndHalt :
    readable State.reset [.s 1] = true ∧ room State.reset [.s 63] = true ∧ State.reset.src.pc = 0#17 ∧
    ((0x7FFF#42).signExtend 64 * 4#64).toNat < 0x20000 ∧ 0x20000 ≤ ((0x8000#42).signExtend 64 * 4#64).toNat ∧
    State.reset.src.place.spec = false ∧ State.reset.car.place.spec = false ∧ State.reset.car.tr.masked = false ∧ State.reset.car.wait = [] ∧
    State.reset.src.tr.handler = false := by decide +kernel

theorem test_hyp_TranslationAndHandles :
    let tlb := fun (size : Nat) (leaf : Word) => onCar (fun c => { withS c 1 0x40000000#64 with eng := { c.eng with tlb := [⟨0x40000000, size, leaf⟩] } })
    let free := fun (s : State) => readable s [.s 1] && !s.src.handleBusy s.now (hIndex 2) && decide (s.src.eng.walk = .none)
    (∀ n ∈ [0x10000, 0x200000, 0x40000000], let s := tlb n 0x7C#64
      free s = true ∧ (s.rS 1).extractLsb' 56 8 = 0#8 ∧ tlbFind s.src.eng.tlb (s.rS 1).toNat = some ⟨0x40000000, n, 0x7C#64⟩) ∧
    (free (tlb 0x10000 0x04#64) = true ∧ (0x04#64).getLsbD 3 = false) ∧
    (free State.reset = true ∧ tlbFind State.reset.src.eng.tlb (State.reset.rS 1).toNat = none) ∧
    (let s := onCar (fun c => withS c 1 0x0100000000000000#64)
     free s = true ∧ (s.rS 1).extractLsb' 56 8 ≠ 0#8) ∧
    (∀ h ∈ [(0 : Fin 64), 1, 2, 31], State.reset.src.handleBusy State.reset.now (hIndex h) = false ∧ room State.reset [.s 1] = true) := by decide +kernel

theorem test_hyp_SpecialRegisterResults :
    room State.reset [.s 1] = true ∧ readable State.reset [.s 1] = true ∧
    (∃ e ∈ ctlReads State.reset.src State.reset.srcDev, (0x11F#14).toNat = e.1) ∧
    (∀ e ∈ ctlReads State.reset.src State.reset.srcDev, (0x120#14).toNat ≠ e.1) ∧
    (∃ e ∈ ctlWrites State.reset.car 0#64, (0x020#14).toNat = e.1 ∧ e.2.1 = false ∧ State.reset.src.tr.handler = false) ∧
    (∃ e ∈ ctlWrites State.reset.car 0#64, (0x11F#14).toNat = e.1 ∧ e.2.1 = true) ∧
    (∀ e ∈ ctlWrites State.reset.car 0#64, (0x000#14).toNat ≠ e.1) := by decide +kernel

/-- In the handler, with a held image. -/
def inHandler : State := onCar (fun c => { c with
  life := .running
  tr := { c.tr with
    handler := true
    masked := true
    snap := some (Vector.replicate 128 0#64) } })

theorem test_hyp_HandlerInstructions :
    State.reset.src.tr.handler = false ∧ inHandler.src.tr.handler = true ∧ inHandler.src.tr.snap = some (Vector.replicate 128 0#64) ∧
    room inHandler [.s 1] = true ∧ inHandler.src.tr.snapReady ≤ inHandler.now ∧ inHandler.car.eng.stash = [] ∧
    issues inHandler (.snapst false 1) = true := by decide +kernel

theorem test_hyp_HandlerInstructions_snapld :
    let s := inHandler.mapCar (fun c => { c with tr := { c.tr with snap := none } })
    issues s (.snapld false 1) = true ∧ s.car.eng.stash = [] ∧ s.src.eng.stash = [] := by decide +kernel

theorem test_hyp_VectorArithmeticResults : vecGoes State.reset [.v 1, .v 2, .s 3, .v 0, .k 0] [.v 0] = true ∧
    State.reset.oA 1 = .v 1 ∧ State.reset.oB 2 = .v 2 ∧ ETy.isInt .i32 = true ∧ ETy.isInt .i16 = true ∧ ETy.isInt .i8 = true := by decide +kernel

theorem test_hyp_VectorArithmeticResults_goes : VecGoes State.reset [.v 1, .v 2, .s 3, .v 0, .k 0] [.v 0] := vecGoes_of (by decide +kernel)

theorem test_hyp_VectorRawResults :
    vecGoes State.reset [State.reset.oA 1, State.reset.oB 2, .s 3, .k 4, .k 5] [State.reset.oA 0] = true := by decide +kernel

theorem test_hyp_VectorMaskAndFunctionResults :
    vecGoes State.reset [State.reset.oA 1, State.reset.oB 2, .k 3, .k 4, .k 5] [.k 6, .k 7] = true ∧
    (withFmt 3#20).fmt.ety.isInt = true ∧
    (vxForms false 0 1 0 State.reset).any (fun l => l.2.2.1) = true ∧ (vxForms false 0 1 0 (withFmt 3#20)).any (fun l => !l.2.2.1) = true ∧
    (ETy.ofCode (withFmt 0x83#20).fmt.vt2).isSome = true ∧ (ETy.ofCode (withFmt 0x93#20).fmt.vt2).isSome = false ∧
    vecGoes (withFmt 0x93#20) [State.reset.oA 1, .k 5] [State.reset.oA 0] = true := by decide +kernel

theorem test_hyp_VectorReductionResults :
    ([0x0#20, 0x3#20, 0x4003#20, 0x30005#20].all (fun f => vecGoes (withFmt f) [State.reset.oA 1, .k 5] [State.reset.oA 0])) = true := by decide +kernel

theorem test_hyp_VectorRearrangeAndBlocks :
    ([0x0#20, 0x3#20, 0x8#20].all (fun f => let s := withFmt f
      vecGoes s [s.oA 1, s.oB 2, .s 3, .k 5] [s.oA 0, .s 3, .k 5])) = true ∧
    (1023#34).toNat < (withFmt 0#20).fmt.ety.count ∧ (withFmt 0#20).fmt.ety.count ≤ (1024#34).toNat ∧
    (withFmt 0#20).fmt.ety.isCode = false ∧ (withFmt 8#20).fmt.ety.isCode = true := by decide +kernel

/-- A group of 1, (absent), 2, 3 in F32 and in I8: the sum 6, the mean 2 (R55, R186, R187). -/
theorem test_reduced_lanes : let fmt := fmtOf 0#20
    let ks := [true, false, true, true]
    let xs := [0x3F800000, 0, 0x40000000, 0x40400000]
    ks.length = 2 ^ 2 ∧ xs.length = 2 ^ 2 ∧ (∀ x ∈ xs, x < 2 ^ ETy.f32.bits) ∧ (ETy.f32, 8, 23) ∈ formats ∧
    pairwise (fun x y => (VArith.add.elem .f32 fmt x y 0).1) 2 ((ks.zip xs).map (fun p => if p.1 then some (convert fmt .f32 .f32 p.2).1 else none))
      = some 0x40C00000 ∧
    (VRed.sum.real .f32 fmt ks xs).1 = 0x40C00000 ∧ (VRed.mean.real .f32 fmt ks xs).1 = 0x40000000 ∧
    (VRed.sum.int .i8 fmt ks [1, 0, 2, 3]).1 = 6 ∧ (VRed.mean.int .i8 fmt ks [1, 0, 2, 3]).1 = 2 ∧
    VRed.mean.real .f32 fmt [false] [1] = (0, 0#8) ∧ VRed.mean.int .i8 fmt [false] [1] = (0, 0#8) := by decide +kernel

/-- The worked examples of R195 (exponent −4) and of R188 (RCNT 4, count 3), and an infinity, a NaN, M8's NaR, an L8 0x80. -/
theorem test_block_lanes : let fmt := fmtOf 0#20
    quantElem .f32 fmt (-4) 0x3DCCCCCD = (2, NX) ∧ quantElem .f32 fmt (-4) 0x3F840000 = (16, NX) ∧ quantElem .f32 fmt (-4) 0x40A00000 = (80, 0#8) ∧
    dequantElem .f32 fmt (-4) 0xE8 = (0xBFC00000, 0#8) ∧ dequantElem .i8 fmt 0 0x80 = (0, SAT) ∧
    rescale .f32 fmt 4 3 0x3F800000 = (0x3FAAAAAB, NX) ∧ rescale .f32 fmt 4 3 0xBFC00000 = (0xC0000000, 0#8) ∧
    quantElem .f32 fmt 0 0xFF800000 = (0x81, SAT) ∧ quantElem .f32 fmt 0 0x7FC00000 = (0, NV) ∧ quantElem .m8 fmt 0 0x80 = (0, NV) := by decide +kernel

theorem test_hyp_VectorMemoryResults :
    (places.all (fun a => issues (addressing a) (.vld false 2 1 0#34 0) && issues (addressing a) (.vldk false 2 1 0#34))) = true ∧
    (places.all (fun a => a == 0x0800000000000000#64 || (issues (addressing a) (.vst false 2 1 0#34 0) && issues (addressing a) (.vstk false 2 1 0#34)))) = true := by
  decide +kernel

/-- `mapped` with k1 zero but for its lowest bit: one lane is active. -/
def oneLane : State := mapped.mapCar (fun c => { c with regs := { c.regs with k := c.regs.k.set 1 1#4096 } })

theorem test_hyp_VectorMemoryResults_scattered :
    issues oneLane (.vgth false 2 1 3 1) = true ∧ issues oneLane (.vsct false 2 1 3 1) = true ∧ on oneLane 1 0 = true ∧
    oneLane.target (oneLane.rS 1 + BitVec.ofNat 64 (laneB oneLane 3 0 * 4)) = .spad 0 ∧ (oneLane.target (oneLane.rS 1)).isLocal = true := by decide +kernel

theorem test_hyp_ArrayControlResults :
    State.reset.src.units.array ≤ State.reset.now ∧ State.reset.src.place.spec = false ∧ State.reset.src.tr.handler = false ∧
    inHandler.src.tr.handler = true ∧ (20#5).toNat ≤ 20 ∧ 20 < (21#5).toNat ∧ State.reset.src.arr.line ≠ some 3 ∧
    (onCar (fun c => { c with arr := { c.arr with line := some 3 } })).src.arr.line = some 3 := by decide +kernel

/-- Group 0 of a split array has a window of some beats; MGSEL names group 1 alone. -/
def windowOpen (n : Nat) : State := onCar (fun c => { c with
  arr := { c.arr with
    split := true
    groups := c.arr.groups.set 0 { win := some { beats := n, sums := List.replicate 128 0, rowExp := List.replicate 32 0 } } }
  ctl := { c.ctl with mgsel := 2#16 } })

theorem test_hyp_BeatOpensAndClosesWindows :
    issues State.reset (.mbt false 0 0#4 false true true) = true ∧ State.reset.src.tr.handler = false ∧
    State.reset.src.groupAct 0 true true = some (true, true) ∧ State.reset.src.groupAct 0 false false = some (false, false) ∧
    State.reset.src.arr.groups[0].win = none ∧
    issues (windowOpen 510) (.mbt false 0 0#4 false true false) = true ∧ issues (windowOpen 511) (.mbt false 0 0#4 false true false) = true ∧
    (windowOpen 511).src.groupAct 0 true false = some (false, false) ∧ (windowOpen 511).src.groupAct 1 true false = some (true, false) ∧
    (windowOpen 511).src.groupAct 2 true false = none ∧ ((windowOpen 511).src.arr.groups[0].win.map Window.beats) = some 511 ∧
    (let s := (windowOpen 3).mapCar (fun c => { c with ctl := { c.ctl with mgsel := 1#16 } })
     s.src.groupAct 0 true false = some (true, false) ∧ issues s (.mbt false 0 0#4 false true false) = true) := by decide +kernel

theorem test_hyp_ArrayReadResults :
    let q := fun (n : Nat) => onCar (fun c => { c with arr := { c.arr with queue := [⟨1#64, n, [], none⟩] } })
    (State.reset.src.units.array ≤ State.reset.now ∧ room State.reset [State.reset.oA 1, .s 2] = true ∧ State.reset.src.arr.queue = []) ∧
    (room (q 0) [State.reset.oA 1, .s 2] = true ∧ (q 0).src.arr.queue = [⟨1#64, 0, [], none⟩] ∧ (0 : Nat) ≤ (q 0).now) ∧
    ((q 1).src.arr.queue ≠ [] ∧ (q 1).src.arr.queue.all (fun r => decide ((q 1).now < r.ready)) = true) ∧
    (1#2 : BitVec 2).toNat < 2 ∧ 2 ≤ (2#2 : BitVec 2).toNat := by decide +kernel

/-- W0 and W1 name 16 bytes of the scratchpad each, W2 nothing, W3 288 bytes. -/
def billed : State := onCar (fun c => withW (withW (withW (withW c 0 (bill 0#64 16 0 true 0 0#64)) 1 (bill 0x100#64 16 0 true 0 0#64))
  2 (bill 0#64 0 0 true 0 0#64)) 3 (bill 0#64 288 0 true 0 0#64))

/-- A copy with a number, of an operation, in a state. -/
def copying (op : EngineOp) (st : CopyState) : Copy :=
  { num := 47, op := op, ws := bill 0#64 16 0 true 0 0#64, wd := bill 0x100#64 16 0 true 0 0#64, state := st }

/-- A car with that copy. -/
def withCopy (op : EngineOp) (st : CopyState) : State := onCar (fun c => { c with
  life := .running
  eng := { c.eng with copies := [copying op st] } })

theorem test_hyp_CopySlots :
    issues billed (.ccpy false 0 1 0 false false 0#2 false) = true ∧ issues billed (.ccpy false 0 1 0 true false 3#2 true) = true ∧
    48 ≤ (48#6 : BitVec 6).toNat ∧ (47#6 : BitVec 6).toNat < 48 ∧ State.reset.src.copyOf 47 = none ∧
    (withCopy .ccpy (.faulted 3 5#64)).src.copyOf 47 = some (copying .ccpy (.faulted 3 5#64)) ∧
    (withCopy .ccpy .running).src.copyOf 47 = some (copying .ccpy .running) ∧
    (withCopy .cagt .running).src.copyOf 47 = some (copying .cagt .running) ∧
    (withCopy .crdx (.faulted 0 0#64)).src.copyOf 47 = some (copying .crdx (.faulted 0 0#64)) := by decide +kernel

/-- A class C car coupled to line 2 in a domain of its own. -/
def coupled : State := billed.mapCar (fun c => { c with
  ident := { c.ident with coreClass := .c }
  place := { c.place with
    couples := [(0, 2)]
    domain := some 0 } })

theorem test_hyp_BusAndLineSlots :
    (readable State.reset [State.reset.oA 1] = true ∧ State.reset.src.busLine = none) ∧
    (readable coupled [coupled.oA 1] = true ∧ coupled.src.busLine = some 2 ∧ coupled.dev.bus = [] ∧ room coupled [coupled.oA 1] = true) ∧
    (issues coupled (.cls false 2 2 1) = true ∧ (coupled.waybill 2).empty = true) ∧
    (issues coupled (.cls false 2 3 1) = true ∧ (coupled.waybill 3).empty = false ∧ coupled.src.ctl.ccyc.toNat < (coupled.rS 1).toNat + 1) ∧
    (let s := coupled.mapCar (fun c => withS c 4 0x100000000#64)
     issues s (.clsf false 2 4 1) = true ∧ s.src.ctl.ccyc.toNat < (s.rS 1).toNat + 1) ∧
    (let s := coupled.mapCar (fun c => { withS c 4 0x100000000#64 with ctl := { c.ctl with ccyc := 1#64 } })
     issues s (.clsf false 2 4 1) = true ∧ (s.rS 1).toNat + 1 ≤ s.src.ctl.ccyc.toNat) := by decide +kernel

/-- Group 0 is this car's own collective group, of one rank. -/
def grouped (op : Waybill) (src : Waybill) : State :=
  let w : Vector Word 8 := (Vector.replicate 8 0#64).set 0 0x4000000000000001#64
  let s := onDev (fun d => { d with fab := { d.fab with groups := [(0, { words := w, plist := [0] })] } })
  s.mapCar (fun c => withW (withW { c with life := .running } 0 src) 1 op)

theorem test_hyp_CollectivesContribute :
    let s := grouped (bill 0x100#64 4 2 true 3 0#64) (bill 0#64 4 2 true 3 0#64)
    let e := grouped (bill 0x100#64 0 2 true 3 0#64) (bill 0#64 0 2 true 3 0#64)
    [s, e].all (fun s => issues s (.crdx false 0 1 0 false false 0#2 false) && issues s (.cagt false 0 1 0 true true 3#2 true)
      && issues s (.cbct false 0 1 0 false false 0#2 false)) = true ∧
    (s.waybill 1).empty = false ∧ (s.waybill 0).empty = false ∧ (e.waybill 1).empty = true := by decide +kernel

theorem test_hyp_RangeAndStashSlots :
    let s := (addressing 0x1800000000000000#64).mapCar (fun c => withS c 2 65#64)
    let m := billed.mapCar (fun c => { withW c 0 (bill 0x100000#64 16 0 false 0 0#64) with
      eng := { c.eng with stash := [⟨5, 0, 4096, 64, bill 0x100000#64 16 0 false 0 0#64, [0], [3], []⟩] } })
    (readable mapped [.s 1, .s 2] = true ∧ (mapped.rS 2).toNat = 0) ∧
    (issues s (.cwbr false 1 2 0) && issues s (.cinv false 1 2 0) && issues s (.cwbi false 1 2 0)) = true ∧ (s.rS 2).toNat ≠ 0 ∧
    s.target (s.rS 1) = .hbm 0x100000 true ∧
    issues m (.cmap false 0 1) = true ∧ m.car.eng.stash = m.src.eng.stash ∧
    issues (m.mapCar (fun c => withS c 1 4096#64)) (.cunm false 1 0) = true := by decide +kernel

theorem test_hyp_LateWrites :
    fmtFields.all (fun e => decide ((0#8 : Byte).toNat < 2 ^ e.2.2)) = true ∧
    fmtFields.all (fun e => e.1 != 3 || decide (2 ^ e.2.2 ≤ (2#8 : Byte).toNat)) = true ∧ fmtFields.all (fun e => e.1 != 7) = true ∧
    readable State.reset [.s 1, .s 2] = true ∧ State.reset.src.eng.stash = [] ∧ State.reset.car.eng.stash = [] ∧
    issues State.reset (.yldw false 0 1) = true ∧ issues State.reset (.ystw false 0 1) = true := by decide +kernel

/-- The car stands at a declared park point of its consist. -/
def atPark : State :=
  let x : Consist := { q := 0#16, seq := 0#32, idx := 0#32, image := { id := 0#32, va := 0#64, parks := [(0#17, 0#64, 0#8)] } }
  { onDev (fun d => { d with sig := { d.sig with consists := [x] } }) with car := { State.reset.car with life := .running } }

theorem test_hyp_FlagLoopAndParkSlots :
    ((0#16).toNat ≤ State.reset.car.regs.f[0].toNat ∧ State.reset.car.regs.f[0].toNat < (1#16).toNat) ∧
    ((0#9).toNat < State.reset.src.ident.ncars.toNat ∧ State.reset.src.ident.ncars.toNat ≤ (1#9).toNat) ∧
    (room State.reset [.s 1] = true ∧ readable inHandler [.s 1] = true ∧ inHandler.src.tr.handler = true ∧ State.reset.src.tr.handler = false) ∧
    (readable State.reset [.s 1] = true ∧ State.reset.src.pc.toNat + 4 * State.reset.src.imem.slotsFrom State.reset.src.pc.toNat 8 = 32 ∧
      State.reset.src.pc = 0#17) ∧
    (State.reset.src.loop.resumed = false ∧ (onCar (fun c => { c with loop := { c.loop with resumed := true } })).src.loop.resumed = true) ∧
    ((State.reset.consistOf State.reset.src).isNone = true ∧
      ((atPark.consistOf atPark.src).map (fun x => x.image.parks.any (fun p => p.1 == atPark.src.pc))) = some true) ∧
    atPark.car.life ≠ .idle := by decide +kernel

/-- The focused car runs, with a change. -/
def running (f : Car → Car) : State := onCar (fun c => f { c with life := .running })

theorem test_hyp_CarEventsActAtTheNamedCar :
    mapped.car.ref ≠ 10 ∧ (mapped.peers.map Car.ref) = [10] ∧ (mapped.peers.map Car.ref).all (fun r => r != 12) = true := by decide +kernel

/-- A consist of the focused car, with its service. -/
def serving (f : Car → Car) (g : Consist → Consist) (h : Service → Service) : State :=
  let x : Consist := { q := 0#16, seq := 0#32, idx := 0#32, image := { id := 0#32, va := 0#64 }, cars := [0], released := true }
  let v : Service := { q := 0#16, seq := 0#32, order := 0, record := List.replicate 16 0#64 }
  (running f).mapDev (fun d => { d with sig := { d.sig with
    consists := [g x]
    services := [h v] } })

theorem test_hyp_AsynchronousCausesAndHalts :
    let p := running (fun c => { c with tr := { c.tr with pending := [.uncorrectable 8#64] } })
    let h := (running id).mapDev (fun d => { d with debug := [(0, { ctl := 1#13 })] })
    let w := serving (fun c => { c with
      ctl := { c.ctl with wdog := 1#32 }
      wait := [.ywait 0 1#16 0] }) id id
    let late := w.mapDev (fun d => { d with now := 2000 })
    (State.reset.mayTrap = false ∧ State.reset.mayHalt = false ∧ State.reset.car.live = false ∧ State.reset.car.watchdog State.reset.now = false) ∧
    (p.mayTrap = true ∧ p.car.place.spec = false ∧ p.car.tr.pending = [.uncorrectable 8#64]) ∧
    (h.mayHalt = true ∧ h.car.place.spec = false ∧ h.car.live = true) ∧
    (w.car.watchdog 1999 = false ∧ late.car.watchdog late.now = true ∧ late.car.place.spec = false ∧ (late.consistOf late.car).isSome = true) := by decide +kernel

/-- A producer in flight. -/
def flying (d : Dest) (due : Option Nat) : State := running (fun c => { c with flight := [⟨7, d, due, false, 0#64, false, 0, 0, false, none⟩] })

theorem test_hyp_ProducersLand :
    ((flying (.s 3 9#64) (some 0)).car.flight.find? (fun g => g.id == 7) = some ⟨7, .s 3 9#64, some 0, false, 0#64, false, 0, 0, false, none⟩) ∧
    (0 ≤ (flying (.s 3 9#64) (some 0)).now ∧ (flying (.s 3 9#64) (some 1)).now < 1) ∧
    (flying (.v 1023 9#32768) none).owed ⟨7, .v 1023 9#32768, none, false, 0#64, false, 0, 0, false, none⟩ = false ∧
    ((flying (.s 71 9#64) none).mapDev (fun d => { d with fab := { d.fab with
      remote := [⟨0, 0, some 7, 0#64, 0#52, .vload [(0, 0, 4096)] 0, false, 0, 0x10000, 0, false, 0, false⟩] } })).owed ⟨7, .s 71 9#64, none, false, 0#64, false, 0, 0, false, none⟩ = true ∧
    (let s := running (fun c => { c with eng := { c.eng with walk := .running 0#64 0 } })
     s.car.eng.walk = .running 0#64 0 ∧ s.dev.walk 0 = none) := by decide +kernel

/-- Words of 8 bytes in memory. -/
def disk (l : List (Nat × Nat)) (m : Mem) : Mem := l.foldl (fun m x => m.writeNat x.1 8 x.2) m

/-- A page table at 0 and 0x1000 that maps the first 1 GiB of virtual addresses to themselves. -/
def paged : State := onDev (fun d => { d with mem := disk [(0, 0x1001), (0x1000, 0x0F)] d.mem })

theorem test_hyp_ProducersLand_walk : (paged.dev.walk 0).isSome = true := by decide +kernel

theorem test_hyp_FlagsWaitsAndArrivals :
    let b := serving (fun c => { c with wait := [.ybar 3 0] }) (fun x => { x with arrived := x.arrived.set 3 [0] }) id
    let p := mapped.mapCar (fun c => { c with eng := { c.eng with posted := [⟨1, 1, 1, 5#9, 0, [(0, 1#8)], 0, 0#32, 0, 0, true, 0⟩] } })
    let w := running (fun c => { c with wait := [.wadr 0#64 3 0#64 0 (some 0)] })
    (State.reset.car.life ∈ [Life.finished, .idle] ∧ (running id).car.life ∉ [Life.finished, .idle]) ∧
    ((running id).car.wait.any (running id).waitOver = false) ∧
    (let s := running (fun c => { c with wait := [.ywait 0 0#16 0] })
     s.car.wait = [.ywait 0 0#16 0] ∧ s.waitOver (.ywait 0 0#16 0) = true) ∧
    ((b.consistOf b.car).map (fun x => b.barrierFull x 3) = some true ∧ (b.consistOf b.car).map (fun x => b.barrierFull x 4) = some false) ∧
    (p.car.eng.posted.find? (fun q => q.id == 1) = some ⟨1, 1, 1, 5#9, 0, [(0, 1#8)], 0, 0#32, 0, 0, true, 0⟩ ∧
      p.car.inOrder ⟨1, 1, 1, 5#9, 0, [(0, 1#8)], 0, 0#32, 0, 0, true, 0⟩ = true ∧ (p.peerCar p.car 5#9).isSome = true ∧ (p.peerCar p.car 6#9).isNone = true) ∧
    (let two := p.mapCar (fun c => { c with eng := { c.eng with posted := ⟨0, 1, 1, 5#9, 0, [(255, 1#8)], 0, 0#32, 0, 0, true, 0⟩ :: c.eng.posted } })
     two.car.inOrder ⟨1, 1, 1, 5#9, 0, [(0, 1#8)], 0, 0#32, 0, 0, true, 0⟩ = false) ∧
    (w.car.wait = [.wadr 0#64 3 0#64 0 (some 0)] ∧ w.wadrWord 0#64 = 0#64 ∧ 0 ≤ w.now ∧ w.now < 1) := by decide +kernel

theorem test_hyp_CopiesEndOrFault :
    let s := withCopy .ccpy .running
    let f := withCopy .ccpy (.faulted 0 0#64)
    let k := copying .ccpy .running
    let place := fun (m : Nat) => haByte (k.wd.elem m)
    s.car.copyOf 47 = some k ∧ s.copyMayEnd k = true ∧ s.car.life ≠ .idle ∧ s.car.eng.stash = [] ∧ k.ws.sp = true ∧ k.wd.sp = true ∧
    k.ws.esz = k.wd.esz ∧ k.ws.count = k.wd.count ∧ k.iter = 0 ∧ k.lossy = false ∧
    (List.range k.wd.count).all (fun m => haWindow (k.wd.elem m) == 0 && (List.range k.wd.count).all (fun j =>
      m == j || decide (place m + k.wd.esz ≤ place j ∨ place j + k.wd.esz ≤ place m))) = true ∧ s.enginesPaused = false ∧
    f.car.copyOf 47 = some (copying .ccpy (.faulted 0 0#64)) ∧ f.copyMayEnd (copying .ccpy (.faulted 0 0#64)) = false ∧
    (copying .ccpy (.faulted 0 0#64)).state ≠ .running := by decide +kernel

theorem test_hyp_RangesAndStashesComplete :
    let w := bill 0x100000#64 64 0 false 0 0#64
    let s := (running (fun c => { c with eng := { c.eng with
      ranges := [⟨1, .wb, 0, 1, 0, 0, 0, 0⟩]
      unmaps := [⟨2, 0, 0, w, [], [], false⟩]
      stash := [⟨3, 0, 0, 64, w, [], [], []⟩] } })).mapDev (fun d => { d with
        mem := d.mem.writeNat 0 8 0x7F
        cache := [⟨0, 0, Vector.replicate 64 0#8, 1#64, 0#64⟩] })
    s.dev.fab.fwd = [] ∧ s.enginesPaused = false ∧ (s.car.eng.ranges.find? (fun y => y.id == 1)).isSome = true ∧
    (s.dev.cache.map (fun l => (l.die, l.line))).Nodup ∧ (s.car.eng.unmaps.find? (fun y => y.num == 2)).isSome = true ∧
    s.car.stashOf 64 = none ∧ s.car.stashOf 63 = some ⟨3, 0, 0, 64, w, [], [], []⟩ ∧
    (let t := s.mapCar (fun c => { c with eng := { c.eng with stash := [⟨3, 0, 0, 64, w, [0], [], []⟩] } })
     t.car.stashOf 0 = some ⟨3, 0, 0, 64, w, [0], [], []⟩) := by decide +kernel

theorem test_hyp_CalibrationAndWindowEvents :
    let want := onCar (fun c => { c with arr := { c.arr with cal := { c.arr.cal with requested := true } } })
    let runs := onCar (fun c => { c with arr := { c.arr with cal := { c.arr.cal with ends := some 0 } } })
    let old := onDev (fun d => { d with now := 10 ^ 12 })
    let age := fun (s : State) (k : Nat) => decide (s.car.arr.cal.zero + k * s.dev.house.calper * 2000000 ≤ s.now)
    (want.car.arr.cal.requested = true ∧ want.car.arr.cal.ends = none ∧ want.car.arr.groups.toList.all (fun g => g.win.isNone) = true) ∧
    ((windowOpen 1).car.arr.groups[0].win.isSome = true ∧ State.reset.car.arr.cal.requested = false ∧ State.reset.car.arr.cal.forced = false) ∧
    (runs.car.arr.cal.ends = some 0 ∧ 0 ≤ runs.now) ∧
    (age old 1 = true ∧ old.car.arr.cal.periodic = none ∧ age old old.dev.house.stalex = true ∧ age old old.dev.house.forcex = true) ∧
    (age State.reset 1 = false ∧ age State.reset State.reset.dev.house.stalex = false ∧ age State.reset State.reset.dev.house.forcex = false) := by
  decide +kernel

theorem test_hyp_RemapsAndLasers :
    let line := fun (x : LineState) => onDev (fun d => { d with lines := d.lines.set 2 x })
    let dim := onDev (fun d => { d with lasers := d.lasers.set 2 { power := List.replicate 34 0x8000#16 } })
    (State.reset.dev.rowWeak 2 5 = false ∧ dim.dev.rowWeak 2 5 = true ∧ dim.dev.lines[2].spares = 2) ∧
    (let s := dim.mapDev (fun d => { d with lines := d.lines.set 2 { sp0 := 1#6, sp1 := 2#6 } })
     s.dev.rowWeak 2 31 = true ∧ s.dev.lines[2].spares = 0) ∧
    ([({ pend := [31] } : LineState), { pend := [31], sp0 := 1#6 }, { pend := [31], sp0 := 1#6, sp1 := 2#6 }].all (fun x =>
      (line x).dev.lines[2].running.isNone && !(line x).lineOpen 2 && (line x).dev.lines[2].pend == [31])) = true ∧
    ((line {}).dev.lines[2].pend = [] ∧ (line { running := some (3, 0) }).dev.lines[2].running = some (3, 0) ∧
      (line { running := some (3, 1) }).dev.lines[2].running = some (3, 1) ∧ (line {}).now < 1) ∧
    ((List.replicate 34 (0#16 : BitVec 16)).length = 34 ∧ dim.dev.laserBad 2 = true ∧
      3 * (2#16 : BitVec 16).toNat ≤ 2 * (3#16 : BitVec 16).toNat ∧ 2 * (2#16 : BitVec 16).toNat < 3 * (2#16 : BitVec 16).toNat ∧ (999#32 : BitVec 32).toNat < 1000 ∧
      1000 ≤ (1000#32 : BitVec 32).toNat) := by decide +kernel

theorem test_hyp_PortsLanesAndFlits :
    let port := fun (x : Port) => onDev (fun d => { d with fab := { d.fab with ports := [(7, x)] } })
    ((port { lanes := [(3, { recent := [(0, 4096, 0)] })] }).dev.fab.port 7).laneBad 0 3 = true ∧
    ((port {}).dev.fab.port 7).laneBad 0 3 = false ∧ ((port {}).dev.fab.port 7).retrain = none ∧ (31#6 : BitVec 6).toNat < 32 ∧ 32 ≤ (32#6 : BitVec 6).toNat ∧
    (let x := (port { failing := [3] }).dev.fab.port 7
     3 ∈ x.failing ∧ 3 ∉ x.free ∧ x.free = [32, 33] ∧ 4 ∉ x.failing) ∧
    ((port { failing := [3], free := [] }).dev.fab.port 7).free = [] ∧
    ((port { retrain := some 0 }).dev.fab.port 7).retrain = some 0 ∧ 0 ≤ (port {}).now ∧ (port {}).now < 1 ∧
    ((port {}).dev.fab.port 7).up = true ∧ ((port {}).dev.fab.port 7).rxNext = 0#12 ∧ 2048 ≤ (2048#12 - 0#12 : BitVec 12).toNat ∧
    (2047#12 - 0#12 : BitVec 12).toNat < 2048 ∧ ((port { replay := [⟨5#12, 0⟩, ⟨6#12, 0⟩] }).dev.fab.port 7).replay = [⟨5#12, 0⟩] ++ ⟨6#12, 0⟩ :: [] := by decide +kernel

/-- Port 7 carries 16 lanes of which one fails; a flit to package 1 stands in its replay buffer, whose ESC route is port 9. -/
theorem test_hyp_PortsLanesAndFlits_escape :
    let s := onDev (fun d => { d with fab := { d.fab with
      ports := [(7, { active := 16, free := [], failing := [3], spoiled := [3], awaiting := true, replay := [⟨5#12, 1⟩] })]
      route := [(1, 0x890087#24)] } })
    let x := s.dev.fab.port 7
    x.up = true ∧ x.active - 1 < 16 ∧ x.spoiled = 3 :: [] ∧ x.awaiting = true ∧
    (match exec (.laneRemap 7 3) s with
    | .next t => !(t.dev.fab.port 7).up && x.replay.filter (fun f => (t.dev.fab.egress f.pkg true).map Prod.fst == some 9) == [⟨5#12, 1⟩] &&
        (t.dev.fab.port 9).replay.map Flit.pkg == [1]
    | _ => false) = true := by decide +kernel

theorem test_hyp_TransfersClose_lossy :
    let k : Copy := { copying .ccpy .running with lossy := true }
    let s := fun (x : Lossy) => (running (fun c => { c with eng := { c.eng with copies := [k] } })).mapDev (fun d => { d with fab := { d.fab with lossy := [x] } })
    let x : Lossy := { car := 0, num := 47, blocks := 2, crosses := [(1, 1)], lost := [1] }
    let y : Lossy := { x with arrived := [0, 1], lost := [], marker := some 0, count := some 2 }
    let z : Lossy := { x with arrived := [0], marker := some 0, count := some 2, closed := true }
    [x, y, z].all (fun x => (s x).car.copyOf 47 == some k && (s x).dev.lossyOf (s x).car.ref 47 == some x && !(s x).enginesPaused
      && (s x).car.eng.stash.isEmpty && (s x).acqReady k && (s x).relReady k) = true ∧
    k.op = .ccpy ∧ k.lossy = true ∧ k.void = false ∧ k.state = .running ∧ k.ws.sp = true ∧ k.wd.sp = true ∧ k.stash = [] ∧ k.ws.esz = k.wd.esz ∧
    (List.range k.wd.count).all (fun m => haWindow (k.wd.elem m) == 0 && (List.range k.wd.count).all (fun j =>
      m == j || decide (haByte (k.wd.elem m) + k.wd.esz ≤ haByte (k.wd.elem j) ∨ haByte (k.wd.elem j) + k.wd.esz ≤ haByte (k.wd.elem m)))) = true ∧
    haWindow k.wd.aux = 0 ∧ haByte k.wd.aux + (2 + 7) / 8 ≤ 2 ^ 19 ∧ (List.range 2).all (fun i => y.arrived.contains i) = true ∧
    (0 ∉ x.arrived ∧ 0 ∉ x.lost ∧ 1 ∈ x.lost ∧ x.marker = none) ∧
    (let late := (s { z with closed := false }).mapDev (fun d => { d with now := k.lslack.toNat * 2000 })
     z.marker = some 0 ∧ 0 + k.lslack.toNat * 2000 ≤ late.now ∧ (∀ i < 2, i ∉ z.arrived → ∃ e ∈ z.crosses, e.1 = i)) ∧
    (let held := { k with acq := true, rel := true, id := 1, cid := 1 }
     let t := (s x).mapCar (fun c => { c with eng := { c.eng with copies := [held], queue := [{ id := 0, ha := 0#64, target := .spad 0, bytes := [], stamp := 0, ready := 0 }] } })
     t.car.copyOf 47 = some held ∧ t.acqReady held = false ∧ t.relReady held = false) := by decide +kernel

/-- A collective of one rank at the focused car, with its part present. -/
def collecting (op : EngineOp) (lossy : Bool) (f : Coll → Coll) : State :=
  let wd := bill 0x100#64 4 2 true 3 0#64
  let k : Copy := { num := 47, op := op, ws := bill 0#64 4 2 true 3 0#64, wd := wd, lossy := lossy }
  let x : Coll := { group := 0, k := 0
                    parts := [{ rank := 0, car := some 0, op := op, count := 4, type := 3#4, lossy := lossy, data := List.replicate 4 1#64 }] }
  ((grouped wd wd).mapCar (fun c => { c with eng := { c.eng with copies := [k] } })).mapDev (fun d => { d with fab := { d.fab with colls := [f x] } })

/-- The same with a second rank, on package 1. -/
def podded (op : EngineOp) (lossy : Bool) (f : Coll → Coll) : State := (collecting op lossy f).mapDev (fun d => { d with fab := { d.fab with
  groups := [(0, { words := (Vector.replicate 8 0#64).set 0 0x4000000000010001#64, plist := [1, 0] })] } })

theorem test_hyp_TransfersClose_collective :
    let look := fun (s : State) (f : Copy → Coll → Bool) => match s.car.copyOf 47 with
      | some k => (match s.dev.collOf k with
        | some x => k.state == .running && k.wd.sp && s.dev.rankOf s.car k.wd.group == some 0 && (s.dev.group k.wd.group).ranks == 1 && f k x
        | none => false)
      | none => false
    look (collecting .crdx false id) (fun k x => k.op == .crdx && x.localRanks.contains 0 && (collecting .crdx false id).ownerCloses k x 1 0 1 true true
      && !(collecting .crdx false id).ownerCloses k x 1 0 0 true true && (collecting .crdx false id).acqReady k && !k.void) = true ∧
    look (collecting .cagt false id) (fun k x => k.op.isColl && (collecting .cagt false id).copyMayEnd k && !x.discord &&
      x.parts.all (fun p => x.agrees p && p.present) && !k.wd.auxen && (List.range k.wd.count).all (fun m => (x.moved k 0 m).isSome && haWindow (k.wd.elem m) == 0
        && (List.range k.wd.count).all (fun j => m == j || decide (haByte (k.wd.elem m) + k.wd.esz ≤ haByte (k.wd.elem j) ∨
          haByte (k.wd.elem j) + k.wd.esz ≤ haByte (k.wd.elem m))))) = true ∧
    (let s := collecting .crdx true (fun x => { x with finals := [(0, 0)], blocks := [(0, 0)], closed := [⟨0, 0, List.replicate 4 0#64, 1, []⟩] })
     look s (fun k x => k.lossy && s.collDue k x 0 && s.acqReady k && s.relReady k && x.closed.all (fun y => y.vals.length == min 32 (k.wd.count - 32 * y.block)))) = true ∧
    (let s := (collecting .cbct true (fun x => { x with finals := [(0, 0)] })).mapDev (fun d => { d with
        now := 8000
        fab := { d.fab with lossy := [{ car := 0, num := 47, blocks := 1 }] } })
     look s (fun k x => s.collDue k x 0 && k.wd.auxen == false) = true ∧ (s.dev.lossyOf s.car.ref 47).isSome = true) ∧
    look (collecting .crdx false id) (fun k x => !(collecting .crdx false id).collDue k x 0) = true ∧
    (collecting .crdx false id).dev.lossyOf 0 47 = none := by decide +kernel

/-- Rank 0 is the other package's: it owns block 0, and its result, or its own contribution, comes from there. -/
theorem test_hyp_TransfersClose_far :
    let shut := podded .crdx false (fun x => { x with
      parts := x.parts.map (fun p => { p with rank := 1 })
      closed := [⟨0, 0, List.replicate 4 0#64, 2, []⟩] })
    let open' := podded .crdx false (fun x => { x with
      parts := x.parts.map (fun p => { p with rank := 1 })
      notices := [(0, 4, false)] })
    let wrong := collecting .cagt false (fun x => { x with parts := { rank := 0, op := .cagt, count := 5, type := 3#4, lossy := false } :: x.parts })
    let here := fun (s : State) (q : Nat) => (s.dev.group 0).pkgOf q == some s.dev.fab.regs.pkgId.toNat
    [shut, open'].all (fun s => s.dev.rankOf s.car 0 == some 1 && !here s 0 && here s 1 && (s.dev.group 0).ranks == 2 &&
      ((s.car.copyOf 47).bind s.dev.collOf).any (fun x => x.localRanks.contains 1 && x.blocks.isEmpty)) = true ∧
    (match open'.car.copyOf 47 with
     | some k => (open'.dev.collOf k).any (fun x => open'.ownerCloses k x 2 0 2 false true &&
          (x.given (here open') 0 0 4 [(0, List.replicate 4 0#64), (1, [])] 0).isSome && (x.given (here open') 0 0 4 [(1, [])] 1).isSome)
     | none => false) = true ∧
    (match wrong.car.copyOf 47 with
     | some k => wrong.copyMayEnd k && (wrong.dev.collOf k).any (fun x => x.parts.any (fun p => p.car == some wrong.car.ref && !x.agrees p))
     | none => false) = true := by decide +kernel

/-- What rank 0 of this package holds back goes out when rank 1 of the other one has issued. -/
theorem test_hyp_NoticesOfIssueRelease :
    let s := fun (op : EngineOp) => podded op false (fun x => { x with parts := x.parts.map (fun p => { p with rank := 1 }) })
    let x := fun (op : EngineOp) => (s op).dev.fab.colls.find? (fun y => y.group == 0 && y.k == 0)
    [EngineOp.cagt, .crdx].all (fun op => ((s op).dev.group 0).pkgOf 0 == some 1 && (x op).any (fun y => y.sent.isEmpty && y.parts.all (fun p =>
      p.op == op && p.car.isSome && p.present && p.ready && p.reach.isNone && !p.data.isEmpty && decide (32 * 0 < p.count)))) = true := by decide +kernel

/-- A request of the focused car to package 1, which port 5 leads to. -/
def asking (op : RemoteOp) (conf : Bool) (route : BitVec 24) : State :=
  (running (fun c => { c with flight := [⟨3, .s 4 0#64, none, false, 0#64, false, 0, 0, false, none⟩] })).mapDev (fun d => { d with fab := { d.fab with
    route := [(1, route)]
    remote := [⟨9, 0, some 3, 0#64, 0x0040000000040#52, op, conf, 0, 0x10000, 0, false, 0, false⟩] } })

theorem test_hyp_RemoteRequestsPerform :
    let vl : RemoteOp := .vload [(0, 0, 4096)] 0
    let q := fun (op : RemoteOp) (conf : Bool) => (⟨9, 0, some 3, 0#64, 0x0040000000040#52, op, conf, 0, 0x10000, 0, false, 0, false⟩ : Remote)
    let ops : List RemoteOp := [.load 8 false, .store [1#8], .atomic .add 1#64 0#64, vl]
    ops.all (fun op => (asking op false 0x85#24).dev.fab.remote.find? (fun x => x.id == 9) == some (q op false) &&
      (asking op false 0x85#24).dev.way (q op false).pa false == .go 5 false && (asking op false 0x85#24).dev.fab.moved == [] &&
      decide (((asking op false 0x85#24).dev.fab.port 5).replay.length + op.flits ≤ 2048)) = true ∧
    (asking vl false 0#24).dev.way (q vl false).pa false = .error ∧
    (asking vl true 0x85#24).dev.way (q vl true).pa true = .noKey ∧
    (asking vl false 0x85#24).dev.remote.anyPoison 0x0040000000040 8 = false ∧ (q vl false).car = (asking vl false 0#24).car.ref ∧
    ((q vl false).pa.extractLsb' 42 10 ≠ (asking vl false 0#24).dev.fab.regs.pkgId) ∧
    2048 < (List.replicate 2048 (0#12 : BitVec 12)).length + vl.flits := by decide +kernel

theorem test_hyp_InvalidationsAndMigrations :
    let mig := fun (r : FabRegs) => onDev (fun d => { d with fab := { d.fab with regs := r } })
    let good := mig { migSrc := 0x10000#40, migDst := 0x0040000010000#52 }
    let queue := fun (n : Nat) => onDev (fun d => { d with fab := { d.fab with invQ := List.replicate n (0, 0x10000) } })
    let going := fun (n : Nat) => onDev (fun d => { d with fab := { d.fab with mig := some ⟨0, 0x10000, 0x40000010000, 1024, n⟩ } })
    ((queue 15).dev.fab.invQ.length < 16 ∧ 16 ≤ (queue 16).dev.fab.invQ.length ∧ (queue 0).dev.fab.invQ = [] ∧
      (queue 1).dev.fab.invQ = [(0, 0x10000)] ∧ (queue 1).dev.fab.remote = []) ∧
    (good.dev.fab.mig = none ∧ good.dev.fab.freeFwd = some 0 ∧ (0x10000#31).toNat % 0x10000 = 0 ∧ (0x10000#31).toNat ≤ 0x40000000 ∧
      good.dev.fab.regs.migSrc.toNat % 0x10000 = 0 ∧ good.dev.fab.regs.migDst.toNat % 0x10000 = 0 ∧
      good.dev.fab.regs.migDst.extractLsb' 42 10 ≠ good.dev.fab.regs.pkgId ∧ (0x8000#31).toNat % 0x10000 ≠ 0 ∧ 0x40000000 < (0x40010000#31).toNat) ∧
    ((onDev (fun d => { d with fab := { d.fab with fwd := (List.range 256).map (fun i => (i, { v := true })) } })).dev.fab.freeFwd = none) ∧
    ((going 0).dev.fab.mig = some ⟨0, 0x10000, 0x40000010000, 1024, 0⟩ ∧ (going 1023).dev.fab.mig = some ⟨0, 0x10000, 0x40000010000, 1024, 1023⟩ ∧
      (0x40000010000 + 64 * 1023) / 2 ^ 42 ≠ (going 0).dev.fab.regs.pkgId.toNat ∧ (going 0).dev.cache = []) := by decide +kernel

/-- Group 4095 with staged words, over `paged`, with its package list at 0x2000. -/
def staging (w0 : Word) (w2 : Word) (f : GroupEntry → GroupEntry) : State := paged.mapDev (fun d => { d with fab := { d.fab with
  groups := [(4095, f { staged := ((Vector.replicate 8 0#64).set 0 w0).set 2 w2 })] } })

theorem test_hyp_GroupsAndMulticast :
    let kind := fun (s : State) => ({ s.dev.group 4095 with words := (s.dev.group 4095).staged } : GroupEntry)
    let multi := fun (w0 : Word) => staging 0#64 0#64 (fun e => { e with words := ((Vector.replicate 8 0#64).set 0 w0).set 4 8#64 })
    let s := staging 0x4000000000000001#64 0x2000#64 id
    let far := staging 0x4000000000000001#64 0x40000000#64 id
    ((kind (staging 0xC000000000000000#64 0#64 id)).kind = 3#2 ∧ 1024 < (kind (staging 0x4000000003FF0002#64 0#64 id)).ranks) ∧
    ((kind s).kind = 1#2 ∧ (kind s).ranks ≤ 1024 ∧ s.dev.readList 0x2000 1 = some [0] ∧ far.dev.readList 0x40000000 1 = none) ∧
    ((kind (staging 0#64 0#64 id)).kind = 0#2 ∧ (kind (staging 0x8000000000000000#64 0#64 id)).kind = 2#2) ∧
    (let b := s.mapCar (fun c => { c with eng := { c.eng with copies := [{ copying .cagt .running with
        wd := bill 0#64 4 2 true 3 4095#64 }] } })
     s.groupInFlight 4095 = false ∧ b.groupInFlight 4095 = true) ∧
    (let t := staging 0#64 0#64 (fun e => { e with busy := true, pending := some (e.words, [1]) })
     (t.dev.group 4095).busy = true ∧ t.dev.fab.packets = [] ∧ t.groupInFlight 4095 = false ∧ ((t.dev.group 4095).pending).isSome = true) ∧
    ((multi 0x8000000000000000#64).dev.group 4095).kind = 2#2 ∧ ((multi 0xA000000000000000#64).dev.group 4095).words[0].getLsbD 61 = true ∧
    ((multi 0x8000000000000000#64).dev.group 4095).ports = [3] ∧ (s.dev.group 4095).kind ≠ 2#2 ∧
    (let t := s.mapDev (fun d => { d with fab := { d.fab with packets := [⟨4095, [1#8], none⟩] } })
     ⟨4095, [1#8], none⟩ ∈ t.dev.fab.packets ∧ ⟨4095, [2#8], none⟩ ∉ t.dev.fab.packets) := by decide +kernel

/-- Sets 1 and 2 at 0x3000 of one record each: junction 3, port 2, slot 5; the alternate of 1 is 2. -/
def tabled (f : Device → Device) : State := paged.mapDev (fun d => f { d with
  mem := disk [(0x3010, 0x4000), (0x3018, 0x02010001), (0x3020, 0x4000), (0x3028, 0x00010001), (0x4000, 0xD028000)] d.mem
  fab := { d.fab with regs := { d.fab.regs with
    ttBase := 0x3000#64
    ttLen := 2#8 } }
  sig := { d.sig with consists := [{ q := 0#16, seq := 0#32, idx := 0#32, image := { id := 0#32, va := 0#64 }, ttset := 1#8 }] } })

theorem test_hyp_TimetablesLinksAndTime :
    let s := tabled id
    let r : TtRecord := ⟨3, 2, 5, 0, 0⟩
    let c : TtCircuit := ⟨0, 0, 0, 0⟩
    let bare := tabled (fun d => { d with mem := disk [(0x3018, 0x02000000)] d.mem })
    let lost := bare.mapDev (fun d => { d with fab := { d.fab with
      suspended := [1#8, 0#8]
      sets := [⟨1#8, 1#8, ⟨[r], [c], 2#8⟩⟩] } })
    (s.dev.ttSet 1#8 = some ⟨[r], [c], 2#8⟩ ∧ s.dev.ttSet 2#8 = some ⟨[r], [c], 0#8⟩ ∧ s.dev.ttSet 3#8 = none) ∧
    (bare.dev.ttSet 1#8 = some ⟨[], [], 2#8⟩ ∧ (∀ z ∈ bare.dev.fab.sets, z.serves ≠ 1#8) ∧ (∃ c ∈ bare.dev.sig.consists, c.ttset = 1#8 ∧ c.saved = none) ∧
      bare.dev.fab.sets = [] ∧ bare.now % 256 = 0) ∧
    (let t := tabled (fun d => { d with fab := { d.fab with sets := [⟨2#8, 2#8, ⟨[r], [c], 0#8⟩⟩] } })
     (∀ z ∈ t.dev.fab.sets, z.serves ≠ 1#8) ∧ ∃ z ∈ t.dev.fab.sets, z.n ≠ 1#8 ∧ r ∈ z.set.records) ∧
    ((tabled (fun d => { d with now := 255 })).now % 256 ≠ 0) ∧
    (1#8 ∈ lost.dev.fab.suspended ∧ 0#8 ∈ lost.dev.fab.suspended ∧ 2#8 ∉ lost.dev.fab.suspended ∧
      lost.dev.fab.sets.filter (fun y => y.n == 1#8) = [⟨1#8, 1#8, ⟨[r], [c], 2#8⟩⟩] ∧ lost.dev.ttSet 2#8 = some ⟨[r], [c], 0#8⟩ ∧
      r.junction = (3 : Fin 64).val ∧ r.port = (2 : Fin 8).val) ∧
    (State.reset.dev.house.sync = false ∧ (onDev (fun d => { d with house := { d.house with sync := true } })).dev.house.sync = true) := by decide +kernel

/-- The alternate is free for a failed set: it has no records; or it is taken by another set. -/
theorem test_hyp_TimetablesLinksAndTime_alternate :
    let r : TtRecord := ⟨3, 2, 5, 0, 0⟩
    let s := tabled (fun d => { d with
      mem := disk [(0x3028, 0)] d.mem
      fab := { d.fab with
        suspended := [1#8]
        sets := [⟨1#8, 1#8, ⟨[r], [⟨0, 0, 0, 0⟩], 2#8⟩⟩] } })
    s.dev.ttSet 2#8 = some ⟨[], [], 0#8⟩ ∧ s.dev.fab.sets.filter (fun y => y.n == 1#8) = [⟨1#8, 1#8, ⟨[r], [⟨0, 0, 0, 0⟩], 2#8⟩⟩] ∧
    1#8 ∈ s.dev.fab.suspended := by decide +kernel

/-- A stream of car 0 in domain 4, whose CCYC is `c`. -/
def streaming (c start issued next beat : Nat) (got : List (Nat × List Byte)) : Stream × State :=
  let x : Stream := ⟨1, 0, 47, 2, start, 3, bill 0#64 800 0 true 0 0#64, [], 4, issued, none, next, beat, got⟩
  (x, (running (fun k => { k with
    place := { k.place with domain := some 4 }
    ctl := { k.ctl with ccyc := BitVec.ofNat 64 c } })).mapDev (fun d => { d with streams := [x] }))

theorem test_hyp_LineStreamsDriveTheirLine :
    let one := List.replicate 256 0x80#8
    let at_ := fun (p : Stream × State) => p.2.dev.streams.find? (fun y => y.id == 1) == some p.1 && p.2.domainCcyc 4 == some p.2.car.ctl.ccyc.toNat
    let a := streaming 80 100 0 0 0 []
    let b := streaming 79 100 0 0 0 []
    let c := streaming 100 100 72 1 0 [(0, one)]
    let d := streaming 100 100 73 1 0 [(0, one)]
    let e := streaming 102 100 72 3 2 []
    let f := streaming 103 100 72 3 2 [(2, one)]
    [a, b, c, d, e, f].all at_ = true ∧ State.reset.dev.streams.find? (fun y => y.id == 1) = none ∧
    (a.1.nextRead < a.1.beats ∧ a.1.start + 0 ≤ 80 + 20 ∧ 79 + 20 < b.1.start + 0 ∧ (a.2.find a.1.car).isSome = true ∧ e.1.beats ≤ e.1.nextRead) ∧
    (a.1.nextRead ≤ a.1.nextBeat ∧ c.1.nextBeat < c.1.nextRead ∧ c.1.start + 0 ≤ 100 ∧ f.1.start + 2 < 103 ∧ e.1.nextBeat + 1 = e.1.beats ∧
      c.1.nextBeat + 1 ≠ c.1.beats) ∧
    (decide (c.1.start + 0 < c.1.issuedAt + 28) = false ∧ decide (d.1.start + 0 < d.1.issuedAt + 28) = true ∧ 0x80#8 ∈ one ∧ c.2.car.ref = c.1.car) ∧
    c.2.dev.drives = [] ∧ c.2.domainCcyc 5 = none ∧
    (let t := c.2.mapDev (fun d => { d with drives := [⟨4, 2, 100, 1, [], one, false, 0⟩] })
     ∃ y ∈ t.dev.drives, y.line = c.1.line ∧ y.ccyc = 100) := by decide +kernel

/-- What makes a package read virtual addresses below 1 GiB where they say. -/
def identity (d : Device) : Bool :=
  d.readEntry 0 == some 0x1001#64 && d.readEntry 0x1000 == some 0x0F#64 && d.sig.regs.ptRoot == 0#52 && d.fab.fwd.isEmpty && d.fab.moved.isEmpty
    && d.latent.isEmpty && d.mem.poison.isEmpty

theorem walk_of_identity {d : Device} {va : Nat} (h : identity d = true) (hv : va < 2 ^ 30) : d.walk va = some ⟨0, 2 ^ 30, 0x0F#64⟩ := by
  simp only [identity, Bool.and_eq_true, beq_iff_eq] at h
  have h1 : va / 549755813888 = 0 := by omega
  have h2 : va / 1073741824 = 0 := by omega
  have e1 : entryAddr 0x1001#64 = 0x1000 := by decide
  have e2 : entryAddr 0x0F#64 = 0 := by decide
  have h3 : va < 72057594037927936 := by omega
  simp [Device.walk, h3, h.1.1.1.1.2, levels, Device.walkFrom, Level.goesOn, entryBad, h1, h2, h.1.1.1.1.1.1, e1, e2, h.1.1.1.1.1.2]

theorem mapM_some {f : Nat → Option Byte} {g : Nat → Byte} : ∀ {l : List Nat}, (∀ i ∈ l, f i = some (g i)) → l.mapM f = some (l.map g)
  | [], _ => rfl
  | i :: l, h => by
    simp [List.mapM_cons, h i (by simp), mapM_some (l := l) (fun j hj => h j (List.mem_cons_of_mem i hj))]

theorem readVa_of_identity {d : Device} {va n : Nat} (h : identity d = true) (hv : va + n ≤ 2 ^ 30) :
    d.readVa va n = some (d.mem.readBytes va n) := by
  have key : ∀ i < n, (match d.translate true false (va + i) with
    | none => none
    | some t => let l := d.readPhys none none t 1
                if d.shut t || l.err || l.poison then none else l.bytes.head?) = some (d.mem.read (va + i)) := by
    intro i hi
    have hw := walk_of_identity h (show va + i < 2 ^ 30 by omega)
    simp only [identity, Bool.and_eq_true, beq_iff_eq, List.isEmpty_iff] at h
    have e2 : entryAddr 0x0F#64 = 0 := by decide
    have h4 : (BitVec.ofNat 52 (va + i)).toNat = va + i := by rw [BitVec.toNat_ofNat]; exact Nat.mod_eq_of_lt (by omega)
    have h5 : (BitVec.ofNat 52 (va + i)).msb = false := by rw [BitVec.msb_eq_decide, h4]; simp; omega
    have h6 : va + i < Config.hbmSize := by simp [Config.hbmSize]; omega
    simp [Device.translate, Device.shut, hw, leafGrants, Device.leafTarget, e2, Device.decodePA, h5, h4, h6, Device.hbmGone, h.1.1.1.2, Device.readPhys,
      Device.viewByte, Device.viewPoison, Device.hbmByte, Device.hbmPoison, Mem.poisoned, h.1.2, h.2]
  exact mapM_some (fun i hi => key i (List.mem_range.mp hi))

theorem wordsVa_of_identity {d : Device} {va n : Nat} (h : identity d = true) (hv : va + 8 * n ≤ 2 ^ 30) : (d.wordsVa va n).isSome = true := by
  simp [Device.wordsVa, readVa_of_identity h hv]

/-- Queue 1 over `paged`: its context at 0x5000 (a ring of 16 at 0x8000), image 7, and the words of its records. -/
def queued (word1 : Nat) (more : List (Nat × Nat)) (f : Signal → Signal) : State := paged.mapDev (fun d => { d with
  mem := disk ([(0x4008, 0x5000), (0x5000, 0x8000), (0x5008, word1), (0x6000, 7), (0x6008, 0x7000)] ++ more) d.mem
  sig := f { d.sig with
    regs := { d.sig.regs with
      enable := true
      qtabBase := 0x4000#64
      imgtabBase := 0x6000#64
      imgtabLen := 1#17
      saveLen := 0xFFFFFFFFFF#40 }
    images := [{ id := 7#32, va := 0x7000#64 }]
    slots := [(0, { q := 1#16, head := 0#32, tail := 1#32 })] } })

/-- The context of queue 1. -/
def ctx1 (n : Nat) : Ctx := ⟨0x5000, 0x8000, false, true, 0#2, n⟩

theorem follows_iff (v c : BitVec 32) : follows v c ↔ serialAfter v c = true := by simp [follows, serialAfter]

theorem test_hyp_Doorbells :
    let bell := fun (tail : Nat) => BitVec.ofNat 64 (2 ^ 32 + tail)
    let s := queued 0x10004 [] id
    let empty := queued 0x10004 [] (fun x => { x with slots := [] })
    (bell (2 ^ 63)).extractLsb' 48 16 ≠ 0#16 ∧ s.dev.ctx 2#16 = .absent ∧ s.dev.ctx 0x1000#16 = .absent ∧
    (queued 0x10004 [(0x4008, 0x40000000)] id).dev.ctx 1#16 = .failed ∧
    s.dev.ctx 1#16 = .ok (ctx1 4) ∧ (queued 0x10000 [] id).dev.ctx 1#16 = .ok (ctx1 0) ∧ (queued 0x10011 [] id).dev.ctx 1#16 = .ok (ctx1 17) ∧
    (queued 0x4 [] id).dev.ctx 1#16 = .ok { ctx1 4 with en := false } ∧
    s.dev.sig.slotOf 1#16 = some (0, { q := 1#16, head := 0#32, tail := 1#32 }) ∧ (2 - 1#32).toNat = 1 ∧
    serialAfter ((bell 2).extractLsb' 0 32) 1#32 = true ∧ serialAfter ((bell 1).extractLsb' 0 32) 1#32 = false ∧
    serialAfter ((bell (2 ^ 31)).extractLsb' 0 32) 1#32 = true ∧ serialAfter ((bell (2 ^ 31 + 1)).extractLsb' 0 32) 1#32 = false ∧ 2 ^ (ctx1 4).log2n < (17#32 - 0#32 : BitVec 32).toNat ∧
    (empty.dev.sig.slotOf 1#16 = none ∧ empty.dev.wordVa (0x5000 + 16) = some 0 ∧ empty.dev.fab.fwd = [] ∧
      empty.dev.translate false true (0x5000 + 20) = some (.hbm 0x5014 false)) := by decide +kernel

theorem test_hyp_Doorbells_noStash : NoStash (queued 0x10004 [] (fun x => { x with slots := [] })) := plain_of (by decide +kernel)

/-- A service of queue 1. -/
def service (n : Nat) (words : List (Nat × Word)) : Service :=
  { q := 1#16, seq := BitVec.ofNat 32 n, order := n, record := words.foldl (fun r w => r.set w.1 w.2)
      ((List.replicate 16 0#64).set 0 7#64 |>.set 1 0xE01#64 |>.set 2 1#64 |>.set 15 (BitVec.ofNat 64 n)) }

theorem test_hyp_MailboxesAndHandleTable :
    let s := queued 0x10004 [] (fun x => { x with services := [{ service 0 [] with handles := [(4095#12, 1#2)] }] })
    let t := queued 0x10004 [] (fun x => { x with held := [(0, 2, 1#64)], specs := [{ svc := { service 1 [] with handles := [(0#12, 2#2)] } }] })
    serialAfter 1#32 (s.dev.mbox 1023) = true ∧ serialAfter 0#32 (s.dev.mbox 1023) = false ∧ s.dev.fab.fwd = [] ∧ s.dev.mboxTarget 1023 = .hbm 0x1FF8 false ∧ 0x1FF8 + 8 ≤ Config.hbmSize ∧
    (∃ u ∈ s.dev.sig.services, u.ended = false ∧ ∃ k ∈ u.handles, k.1.toNat = (4095 : Fin 4096).val) ∧
    (¬ ∃ u ∈ t.dev.sig.services, u.ended = false ∧ ∃ k ∈ u.handles, k.1.toNat = (0 : Fin 4096).val) ∧
    (∃ y ∈ t.dev.sig.held, y.1 = (0 : Fin 4096).val) ∧ (∀ y ∈ t.dev.sig.held, y.1 ≠ (1 : Fin 4096).val) ∧
    (∃ p ∈ t.dev.sig.specs, ∃ k ∈ p.svc.handles, k.1.toNat = 0) := by decide +kernel

/-- Every slot is taken by a queue of class 0; queue 1, of class 1, asks for one. -/
def crowded (u : Bool) : State := queued 0x10104 [] (fun x => { x with
  wanted := [1#16]
  slots := (List.range 128).map (fun i => (i, { q := 2#16, head := 0#32, tail := 0#32, unmapping := u })) })

/-- Queue 1 wants a slot; it has one that it is to give back. -/
def wanting : State := queued 0x10004 [] (fun x => { x with wanted := [1#16], slots := [] })
def leaving : State := queued 0x10004 [] (fun x => { x with slots := [(0, { q := 1#16, head := 0#32, tail := 1#32, unmapping := true })] })

theorem test_hyp_SlotsComeAndGo_words : (wanting.dev.wordsVa (0x5000 + 16) 51).isSome = true :=
  wordsVa_of_identity (by decide +kernel) (by norm_num)

theorem test_hyp_SlotsComeAndGo :
    (1#16 ∈ wanting.dev.sig.wanted ∧ wanting.dev.sig.slotOf 1#16 = none ∧ wanting.dev.ctx 1#16 = .ok (ctx1 4)) ∧
    ((queued 0x10004 [(0x4008, 0x3FFFFFF0)] id).dev.ctx 1#16 = .ok ⟨0x3FFFFFF0, 0, false, false, 0#2, 0⟩ ∧
      (queued 0x10004 [(0x4008, 0x3FFFFFF0)] id).dev.wordsVa (0x3FFFFFF0 + 16) 51 = none) ∧
    (queued 0x10004 [] (fun x => { x with wanted := [2#16] })).dev.ctx 2#16 = .absent ∧
    (leaving.dev.sig.slotOf 1#16 = some (0, { q := 1#16, head := 0#32, tail := 1#32, unmapping := true }) ∧ leaving.dev.ctx 1#16 = .ok (ctx1 4) ∧
      (leaving.dev.sig.slots.all (fun y => y.2.q != 1#16 || y.1 == 0)) = true) := by decide +kernel

theorem test_hyp_SlotsComeAndGo_back : ((leaving.writeVa (0x5000 + 16) (wordBytes [1#32 ++ 0#32])).bind (fun t => t.writeVa (0x5000 + 32)
    (wordBytes (({} : History).words ++ List.replicate 75 0#64)))).isSome = true := by decide +kernel

theorem test_hyp_SlotsComeAndGo_full :
    (List.range 128).all (fun j => (crowded false).dev.sig.slots.any (fun y => y.1 == j)) = true ∧
    (crowded false).dev.ctx 1#16 = .ok { ctx1 4 with cls := 1#2 } ∧ (crowded false).dev.qclass 2#16 = 0 ∧
    ((crowded false).dev.sig.regs.classMin.extractLsb' 0 8).toNat < 128 ∧ 0 < ((crowded false).dev.sig.regs.classMin.extractLsb' 8 8).toNat := by
  decide +kernel

theorem test_hyp_SlotsComeAndGo_held (k : Nat) :
    ((crowded false).dev.sig.slots.filter (fun y => (crowded false).dev.qclass y.2.q == k)).length = if k = 0 then 128 else 0 := by
  have h := test_hyp_SlotsComeAndGo_full.2.2.1
  have e : (crowded false).dev.sig.slots = (List.range 128).map (fun i => (i, ({ q := 2#16, head := 0#32, tail := 0#32, unmapping := false } : QSlot))) := rfl
  rw [e, List.filter_map, List.length_map]
  simp only [Function.comp_def, h]
  by_cases hk : k = 0
  · simp [hk]
  · simp [hk, Ne.symm hk]

/-- A state's words, when they can be read, are those of memory. -/
theorem wordsVa_eq {d : Device} {va n : Nat} (h : identity d = true) (hv : va + 8 * n ≤ 2 ^ 30) :
    d.wordsVa va n = some ((List.range n).map (fun i => BitVec.ofNat 64 (natLE (((d.mem.readBytes va (8 * n)).drop (8 * i)).take 8)))) := by
  simp [Device.wordsVa, readVa_of_identity h hv]

theorem test_hyp_RecordsAreConsumedInOrder_word :
    ((queued 0x10004 [] id).dev.wordsVa (0x8000 + 128 * ((0#32 : BitVec 32).toNat % 2 ^ 4)) 16).map recSeq = some 0#32 ∧
    ((queued 0x10004 [(0x8078, 5)] id).dev.wordsVa (0x8000 + 128 * ((0#32 : BitVec 32).toNat % 2 ^ 4)) 16).map recSeq = some 5#32 := by
  refine ⟨?_, ?_⟩ <;> rw [wordsVa_eq (by decide +kernel) (by norm_num)] <;> decide +kernel

/-- Queue 1 with a service whose count stands in memory at 0x9000; the handle table names that range, or another. -/
def counting (base : Word) (more : List Service) (f : Service → Service) : State := queued 0x10004 [] (fun x => { x with
  bht := [(3, { base := base, len := 4#40, v := true })]
  services := more ++ [f { service 1 [(1, 0x200E01#64), (2, 0x9000#64)] with handles := [(3#12, 1#2)] }] })

theorem test_hyp_RecordsAreConsumedInOrder :
    let s := queued 0x10004 [] id
    let x : QSlot := { q := 1#16, head := 0#32, tail := 1#32 }
    s.dev.sig.slotOf 1#16 = some (0, x) ∧ s.dev.sig.slotOf 2#16 = none ∧ x.failed = false ∧ x.unmapping = false ∧ x.head ≠ x.tail ∧
    s.dev.sig.regs.enable = true ∧ s.dev.house.fw.pending = false ∧ s.dev.ctx 1#16 = .ok (ctx1 4) ∧
    (queued 0x10004 [(0x5000, 0x40000000)] id).dev.wordsVa 0x40000000 16 = none ∧
    (s.writeVa (0x5000 + 24) (bytesLE 4 1)).isSome = true ∧
    (let a := counting 0x9000#64 [service 0 []] id
     let b := counting 0xA000#64 [] id
     let c := counting 0xA000#64 [service 0 []] id
     let v : Service := { service 1 [(1, 0x200E01#64), (2, 0x9000#64)] with handles := [(3#12, 1#2)] }
     let inside := fun (s : State) => v.handles.any (fun h => let e := Tab.get ({} : Bht) s.dev.sig.bht h.1.toNat
       decide (e.base.toNat ≤ (recCount v.record).toNat ∧ (recCount v.record).toNat + 4 ≤ e.base.toNat + e.len.toNat))
     [a, b, c].all (fun s => s.dev.sig.services.find? (fun u => u.q == 1#16 && u.seq == 1#32) == some v) = true ∧ v.count = none ∧ v.err = none ∧
     b.dev.sig.atHead v = true ∧ a.dev.sig.heldBack v = false ∧ inside a = true ∧ inside b = false ∧ inside c = false ∧ a.dev.sig.atHead v = false ∧
     (∀ u ∈ b.dev.sig.services, u.q = 1#16 → u.order < v.order → u.ended = true) ∧ b.dev.readVa 0x9000 4 = some [0#8, 0#8, 0#8, 0#8] ∧
     b.dev.readVa 0x40000000 4 = none) := by decide +kernel

/-- Image 7 as `queued` knows it, and a service of queue 1 that is to place one consist of it. -/
def image7 : Image := { id := 7#32, va := 0x7000#64 }
def placing (n : Nat) (words : List (Nat × Word)) (f : Service → Service) (g : Signal → Signal) : State :=
  queued 0x10004 [] (fun x => g { x with services := [f { service n words with image := some image7, count := some 1#32 }] })

theorem test_hyp_ConsistsArePlacedAndReleased_real :
    let s := placing 0 [] id id
    let v : Service := { service 0 [] with image := some image7, count := some 1#32 }
    s.dev.sig.specOf 1#16 0#32 = none ∧ s.dev.sig.services.find? (fun u => u.q == 1#16 && u.seq == 0#32) = some v ∧ v.image = some image7 ∧
    s.dev.startable v = true ∧ (0#32 : BitVec 32).toNat = v.placed ∧ recTtset v.record = 0#8 ∧ (s.spot v.record image7 (s.classOf v) false).isSome = true ∧
    s.itsTurn v = true ∧ (s.dev.imageNow image7 true true).isSome = true ∧ ((placing 0 [] id (fun x => { x with images := [] })).dev.imageNow image7 false true) = none := by
  decide +kernel

theorem test_hyp_ConsistsArePlacedAndReleased_not :
    let word1 := fun (w : Word) => { service 0 [(1, w)] with image := some image7, count := some 1#32 }
    let s := placing 0 [] id id
    s.dev.startable { word1 0xE01#64 with count := none } = false ∧ recTtset (word1 0x100000E01#64).record = 1#8 ∧ s.dev.ttSet 1#8 = none ∧
    s.spot (word1 0x11E01#64).record image7 0 false = none ∧
    (let t := placing 0 [] id (fun x => { x with services := x.services ++ [{ word1 0xE01#64 with q := 2#16 }] })
     t.itsTurn { word1 0xE01#64 with pri := 3#2 } = false) := by decide +kernel

/-- A speculation of queue 1's next service. -/
def speculating (f : Speculation → Speculation) (g : Signal → Signal) : State := queued 0x10004 [] (fun x => g { x with
  services := []
  specs := [f { svc := { service 1 [] with image := some image7, count := some 1#32 } }] })

theorem test_hyp_ConsistsArePlacedAndReleased_spec :
    let s := speculating id id
    let p : Speculation := { svc := { service 1 [] with image := some image7, count := some 1#32 } }
    let real := speculating (fun p => { p with adopted := true })
    let q : Speculation := { p with adopted := true }
    let rival := (real (fun x => { x with services := [{ service 0 [] with q := 2#16, image := some image7, count := some 1#32, pri := 0#2 }]
                                          specs := x.specs.map (fun p => { p with svc := { p.svc with pri := 3#2 } }) }))
    (real id).dev.sig.specOf 1#16 1#32 = some q ∧ (real id).before q.svc ((real id).specRank q) = true ∧ (real id).realWaits = true ∧
    (rival.dev.sig.specOf 1#16 1#32).map (fun p => rival.before p.svc (rival.specRank p)) = some false ∧
    s.dev.sig.specOf 1#16 1#32 = some p ∧ p.adopted = false ∧ s.realWaits = false ∧ (placing 0 [] id id).realWaits = true ∧ p.svc.image = some image7 ∧
    p.svc.count = some 1#32 ∧ (0#32 : BitVec 32).toNat = p.svc.placed ∧ p.svc.placed < (1#32 : BitVec 32).toNat ∧
    (s.spot p.svc.record image7 p.svc.pri.toNat true).isSome = true ∧ (s.dev.imageNow image7 true true).isSome = true := by decide +kernel

/-- A consist of the focused car with its service; it waits for its release. -/
def resident (f : Consist → Consist) (l : Life) : State := placing 0 [] (fun v => { v with placed := 1 }) (fun x => { x with
    consists := [f { q := 1#16, seq := 0#32, idx := 0#32, image := image7, cars := [0] }] }) |>.mapCar (fun c => { c with
  life := l
  ident := { c.ident with
    serviceId := 0x100000000#64 } })

theorem test_hyp_ConsistsArePlacedAndReleased_release :
    let s := resident id (.held 0)
    let y : Consist := { q := 1#16, seq := 0#32, idx := 0#32, image := image7, cars := [0] }
    s.toRelease 1#16 0#32 0#32 = some y ∧ (resident (fun y => { y with release := 1 }) (.held 0)).toRelease 1#16 0#32 0#32 = none ∧
    y.holds s.car = true ∧ s.car.life = .held 0 ∧ y.spec = false ∧ (s.dev.sig.services.find? (fun u => u.q == 1#16 && u.seq == 0#32)).isSome = true := by
  decide +kernel

theorem test_hyp_CarsConsistsAndServicesEnd :
    let s := resident (fun y => { y with released := true }) .halted
    let u := s.mapCar (fun c => { c with life := .finished })
    let x : Consist := { q := 1#16, seq := 0#32, idx := 0#32, image := image7, cars := [0], released := true }
    let w := resident (fun y => { y with released := true }) .running
    s.spent s.car = true ∧ s.consistOf s.car = some x ∧ State.reset.consistOf State.reset.car = none ∧ x.released = true ∧
    (u.cars.filter x.holds).length = x.image.consist ∧ (∀ c ∈ u.cars, x.holds c = true → c.life = .finished) ∧
    w.spent w.car = false ∧ (w.consistOf w.car).isSome = true ∧ w.car.life ≠ .finished := by decide +kernel

theorem test_hyp_CarsConsistsAndServicesEnd_services :
    let find := fun (s : State) => s.dev.sig.services.find? (fun u => u.q == 1#16 && u.seq == 0#32)
    let done := placing 0 [(13, 0xB000#64)] (fun v => { v with finished := 1 }) id
    let err := placing 0 [] (fun v => { v with err := some (5#8, 0#9) }) id
    let ended := placing 0 [(13, 0xB000#64)] (fun v => { v with ended := true }) id
    let early := placing 0 [] (fun v => { v with ended := true }) (fun x => { x with services := x.services ++ [{ service 1 [] with seq := 7#32, order := 0 }] })
    let later := placing 1 [] (fun v => { v with ended := true }) (fun x => { x with services := x.services ++ [{ service 0 [] with order := 0 }] })
    ((find (placing 0 [] id id)).map (fun v => v.ended) = some false ∧ (find done).map (fun v => v.finished) = some 1 ∧
      (find err).map (fun v => v.err.isSome) = some true) ∧
    ((find ended).map (fun v => v.ended && ended.dev.sig.services.all (fun w => w.q != 1#16 || decide (v.order ≤ w.order))) = some true ∧
      (early.dev.sig.services.all (fun w => w.q != 1#16 || decide (0 ≤ w.order))) = true ∧
      (later.dev.sig.services.find? (fun u => u.q == 1#16 && u.seq == 1#32)).map (fun v => v.ended && later.dev.sig.services.any (fun w =>
        w.q == 1#16 && decide (w.order < v.order))) = some true) ∧
    (find ended).map (fun v => recCompAddr v.record) = some 0xB000#64 ∧ (find early).map (fun v => recCompAddr v.record) = some 0#64 ∧
    ((ended.writeVa 0xB000 (wordBytes [0#64, 0#64, 0#64])).bind (fun a => a.writeVa (0xB000 + 24) (wordBytes [1#64]))).isSome = true ∧
    (ended.writeVa 0x40000000 (wordBytes [0#64, 0#64, 0#64])).isNone = true := by decide +kernel

/-- Only core 0 is enabled, and a consist of class 3 holds it; a service of class 0 of queue 2 has waited for it since cycle 0. -/
def pressed (f : Consist → Consist) (g : Car → Car) : State :=
  ((resident (fun y => f { y with released := true, pri := 3#2, image := { image7 with consist := 0 } }) .running).mapCar g).mapDev (fun d => { d with
    now := 100000
    house := { d.house with harv := (Vector.replicate 21 0#64).set 0 1#64 }
    sig := { d.sig with services := d.sig.services ++ [{ service 0 [] with q := 2#16, image := some image7, count := some 1#32 }] } })

/-- That consist. -/
def pressedX : Consist :=
  { q := 1#16, seq := 0#32, idx := 0#32, image := { image7 with consist := 0 }, cars := [0], released := true, pri := 3#2 }

/-- An image of no cars takes no room of the save area. -/
theorem saveRoom_noCars (d : Device) (x : Consist) (h : x.image.consist = 0) :
    d.saveRoom x = decide (0 < d.sig.regs.saveLen.toNat ∧ d.saveUsed ≤ d.sig.regs.saveLen.toNat) := by
  simp [Device.saveRoom, h]

/-- With one consist, of such an image, the choice is that consist's. -/
theorem chosen_alone (s : State) (x : Consist) (hc : s.dev.sig.consists = [x]) (h : x.image.consist = 0) :
    s.chosen x = (s.candidate x && decide (0 < s.dev.sig.regs.saveLen.toNat ∧ s.dev.saveUsed ≤ s.dev.sig.regs.saveLen.toNat)
      && s.dev.sig.specs.all (fun p => p.adopted)) := by
  have hs : x.same x = true := by simp [Consist.same]
  simp [State.chosen, hc, hs, saveRoom_noCars _ _ h]

theorem noRoom_alone (s : State) (x : Consist) (hc : s.dev.sig.consists = [x]) (h : x.image.consist = 0) :
    s.noRoom x = (s.candidate x && s.dev.sig.specs.all (fun p => p.adopted)
      && (!s.candidate x || !decide (0 < s.dev.sig.regs.saveLen.toNat ∧ s.dev.saveUsed ≤ s.dev.sig.regs.saveLen.toNat))) := by
  simp [State.noRoom, hc, saveRoom_noCars _ _ h]

theorem test_hyp_Preemption_asked :
    let s := pressed id id
    let x := pressedX
    let full := s.mapDev (fun d => { d with sig := { d.sig with regs := { d.sig.regs with saveLen := 0#40 } } })
    s.dev.sig.consist 1#16 0#32 0#32 = some x ∧ s.dev.sig.consist 3#16 0#32 0#32 = none ∧ s.chosen x = true ∧ s.noRoom x = false ∧
    x.spec = false ∧ x.preempt = none ∧ x.holds s.car = true ∧ s.car.tr.masked = false ∧
    full.dev.sig.consist 1#16 0#32 0#32 = some x ∧ full.chosen x = false ∧ full.noRoom x = true ∧
    ((s.mapDev (fun d => { d with now := 99999 })).chosen x = false ∧ (s.mapDev (fun d => { d with now := 99999 })).noRoom x = false) := by
  intro s x full
  have e : s.chosen x = true := by rw [chosen_alone s x (by decide +kernel) rfl]; decide +kernel
  have n : s.noRoom x = false := by rw [noRoom_alone s x (by decide +kernel) rfl]; decide +kernel
  have fe : full.chosen x = false := by rw [chosen_alone full x (by decide +kernel) rfl]; decide +kernel
  have fn : full.noRoom x = true := by rw [noRoom_alone full x (by decide +kernel) rfl]; decide +kernel
  have le : (s.mapDev (fun d => { d with now := 99999 })).chosen x = false := by
    rw [chosen_alone _ x (by decide +kernel) rfl]; decide +kernel
  have ln : (s.mapDev (fun d => { d with now := 99999 })).noRoom x = false := by
    rw [noRoom_alone _ x (by decide +kernel) rfl]; decide +kernel
  exact ⟨by decide +kernel, by decide +kernel, e, n, rfl, rfl, by decide +kernel, by decide +kernel, by decide +kernel, fe, fn, le, ln⟩

/-- The same with the speculation of an adopted service. -/
theorem test_hyp_Preemption_spec :
    let s := pressed (fun y => { y with spec := true }) (fun c => { c with place := { c.place with spec := true } })
    let x := { pressedX with spec := true }
    s.dev.sig.consist 1#16 0#32 0#32 = some x ∧ s.chosen x = true := by
  intro s x
  exact ⟨by decide +kernel, by rw [chosen_alone s x (by decide +kernel) rfl]; decide +kernel⟩

theorem test_hyp_Preemption_room : (pressed id id).dev.saveRoom pressedX = true := by
  have h : (pressed id id).dev.saveUsed = 0 := by decide +kernel
  have k : 0 < (pressed id id).dev.sig.regs.saveLen.toNat := by decide +kernel
  simp [Device.saveRoom, h, k, pressedX]

theorem test_hyp_Preemption_secondary :
    let s := pressed (fun y => { y with secondary := true, pri := 1#2 }) (fun c => { c with
      place := { c.place with secondary := true }
      ident := { c.ident with merge := 3#2 } })
    let t := { s with peers := [{ State.reset.car with
      life := .running
      ctl := { State.reset.car.ctl with pri := 2#2 } }] }
    t.lowSecondary { pressedX with secondary := true, pri := 1#2 } = true := by decide +kernel

theorem test_hyp_Preemption_park :
    let s := pressed id (fun c => { c with wait := [.park] })
    let w := pressed id id
    (s.cars.filter pressedX.holds) ≠ [] ∧ (∀ c ∈ s.cars.filter pressedX.holds, s.quiet c = true ∧ (c.life = .running ∧ Wait.park ∈ c.wait)) ∧
    pressedX.saved = none ∧ (∃ c ∈ w.cars.filter pressedX.holds, c.life ≠ .finished ∧ c.life ≠ .parked ∧ Wait.park ∉ c.wait) := by decide +kernel

theorem test_hyp_Preemption_park_noStash : NoStash (pressed id (fun c => { c with wait := [.park] })) := plain_of (by decide +kernel)

theorem test_hyp_Preemption_forced :
    let at_ := fun (due : Nat) (e : Bool) (m : Bool) => pressed (fun y => { y with preempt := some due, extended := e }) (fun c => { c with tr := { c.tr with masked := m } })
    let look := fun (s : State) (due : Nat) => (s.dev.sig.consist 1#16 0#32 0#32).map Consist.preempt == some (some due)
    look (at_ 100001 false false) 100001 = true ∧ (at_ 100001 false false).now < 100001 ∧ 100000 ≤ (at_ 100000 false false).now ∧
    ((at_ 100000 false false).cars.all (fun c => !pressedX.holds c || !c.tr.masked)) = true ∧
    ((at_ 100000 false true).cars.any (fun c => pressedX.holds c && c.life == .running && c.tr.masked)) = true ∧
    ((at_ 100000 true true).dev.sig.consist 1#16 0#32 0#32).map Consist.extended = some true := by decide +kernel

/-- The consist was saved, and its core is free. -/
def parked (f : Device → Device) : State :=
  let c : Car := { State.reset.car with
    life := .parked
    ident := { State.reset.car.ident with
      serviceId := 0x100000000#64 } }
  (placing 0 [] (fun v => { v with placed := 1 }) (fun x => { x with
    consists := [{ q := 1#16, seq := 0#32, idx := 0#32, image := image7, saved := some [c] }] })).mapDev f

theorem test_hyp_Preemption_resume :
    let s := parked id
    let x : Consist := { q := 1#16, seq := 0#32, idx := 0#32, image := image7 }
    (s.dev.sig.consist 1#16 0#32 0#32).map (fun y => y.saved.isSome && s.resumable y && (s.spot (s.recordOf y) y.image (s.consistClass y) false).isSome) = some true ∧
    (s.dev.sig.services.all (fun v => !s.placeable v) && s.dev.sig.consists.all (fun y => !s.resumable y || !decide (s.consistClass y < 0))) = true ∧
    (parked (fun d => { d with house := { d.house with fw := { d.house.fw with pending := true } } })).resumable { x with saved := some [] } = false ∧
    x.saved = none ∧
    (let t := parked (fun d => { d with sig := { d.sig with services := d.sig.services ++ [{ service 0 [] with q := 2#16, image := some image7, count := some 1#32 }] } })
     t.dev.sig.services.any (fun v => t.placeable v && decide (t.rankOf v < 3)) = true) := by decide +kernel

/-- Queue 1's history predicts a record of image 7 that allows a speculation. -/
def predicting (f : QSlot → QSlot) (g : Device → Device) : State := (queued 0x10004 [] (fun x => { x with
  images := [{ image7 with specMask := some 0#64 }]
  spec := { x.spec with ctl := 0x81#8 }
  slots := [(0, f { q := 1#16, head := 5#32, tail := 5#32, hist := { lseq := 4#32, valid := true, conf := 2#2, lrec := (service 4 [(1, 0x80E01#64)]).record } })] })).mapDev g

theorem test_hyp_Speculations_start :
    let s := predicting id id
    s.dev.distantReady 1#16 = true ∧ (s.dev.predictedService 1#16).map (fun v => v.seq) = some 5#32 ∧ (s.dev.sig.slotOf 1#16).isSome = true ∧
    (s.dev.predictedService 1#16).map (fun v => (s.dev.regionsOf v.handles).isSome && (match v.image with
      | some i => (s.spot v.record i v.pri.toNat true).isSome
      | none => false)) = some true ∧ s.realWaits = false ∧
    (predicting (fun x => { x with tail := 6#32 }) id).dev.predictedService 1#16 = none ∧
    (predicting id (fun d => { d with sig := { d.sig with spec := { d.sig.spec with len := 0#35 } } })).dev.distantReady 1#16 = false ∧
    (predicting id (fun d => { d with sig := { d.sig with bht := [] } })).dev.regionsOf [(0#12, 1#2)] = none := by decide +kernel

theorem test_hyp_Speculations_end :
    let q := fun (s : State) => s.dev.sig.specs.find? (fun y => y.svc.q == 1#16 && y.svc.seq == 1#32)
    let none_ := speculating id id
    let doomed := speculating (fun p => { p with cause := some (.doomed, 3), watches := [1] }) id
    let fin := speculating (fun p => { p with adopted := true, svc := { p.svc with finished := 1 } }) (fun x => { x with services := [service 1 []] })
    let yields := (speculating id (fun x => { x with
        consists := [{ q := 1#16, seq := 1#32, idx := 0#32, image := image7, cars := [0], spec := true }]
        services := [{ service 0 [] with q := 2#16, image := some image7, count := some 1#32 }] })).mapDev (fun d => { d with
      house := { d.house with harv := (Vector.replicate 21 0#64).set 0 1#64 } }) |>.mapCar (fun c => { c with
        life := .running
        place := { c.place with spec := true }
        ident := { c.ident with
          serviceId := 0x100000001#64 } })
    ((q none_).map (fun p => p.cause.isNone) = some true ∧ (q doomed).map (fun p => p.cause == some (.doomed, 3)) = some true ∧
      (q doomed).map (fun p => p.watches.contains (0x200000 / 0x200000) && !p.watches.contains (0x1FFFFF / 0x200000)) = some true) ∧
    ((none_.dev.sig.specOf 1#16 1#32).map (fun p => none_.mustYield p) = some false ∧ none_.dev.sig.specOf 2#16 1#32 = none ∧
      (yields.dev.sig.specOf 1#16 1#32).map (fun p => yields.mustYield p && !p.adopted) = some true) ∧
    ((fin.dev.sig.specOf 1#16 1#32).map (fun p => p.adopted && p.svc.count == some 1#32 && decide ((1#32 : BitVec 32).toNat ≤ p.svc.finished)) = some true ∧
      (fin.dev.sig.services.find? (fun u => u.q == 1#16 && u.seq == 1#32)).map (fun v => !fin.dev.sig.heldBack v &&
        fin.dev.sig.services.all (fun u => u.q != 1#16 || decide (v.order ≤ u.order))) = some true ∧ fin.dev.fab.fwd = []) ∧
    (speculating id (fun x => { x with backs := [(1#16, 1#32, 0x10000)] })).dev.sig.backs.find? (fun y => y.1 == 1#16 && y.2.1 == 1#32) =
      some (1#16, 1#32, 0x10000) ∧ none_.dev.sig.backs = [] ∧
    ((predicting id id).dev.sig.spec.ctl.getLsbD 0 = true ∧ (0#8 : Byte).getLsbD 0 = false) := by decide +kernel

theorem test_hyp_Speculations_commit_noStash :
    NoStash (speculating (fun p => { p with adopted := true }) (fun x => { x with services := [service 1 []] })) := plain_of (by decide +kernel)

theorem test_hyp_Speculations_attach :
    let s := queued 0x10004 [] id
    s.dev.ctx 1#16 = .ok (ctx1 4) ∧ s.dev.wordVa (0x5000 + 8) = some 0x10004 ∧ s.dev.ctx 2#16 = .absent ∧
    (s.writeVa (0x5000 + 8) (wordBytes [0x10004#64 ||| 0x20000#64])).isSome = true ∧ (s.dev.sig.slotOf 1#16).isSome = true ∧
    (match (queued 0x30004 [] id).dev.ctx 1#16 with
      | .ok c => c.dbg
      | _ => false) = true := by decide +kernel

theorem test_hyp_RegistersTakeWrites :
    let held := onDev (fun d => { d with house := { d.house with hold := true } })
    let dbg := fun (st : BitVec 10) => onDev (fun d => { d with debug := [(335, { stat := st })] })
    (4 % 8 ≠ 0 ∧ 0x400000 ≤ 0x400000 ∧ 0x3FFFF8 % 8 = 0 ∧ 0x3FFFF8 < 0x400000) ∧
    (State.reset.dev.house.startRec.extractLsb' 14 2 = 1#2 ∧
      (onDev (fun d => { d with house := { d.house with startRec := 3#49 } })).dev.house.startRec.extractLsb' 14 2 ≠ 1#2) ∧
    (held.dev.house.hold = true ∧ State.reset.dev.house.hold = false ∧ 0x100000 ≤ 0x114FF8 ∧ 0x114FF8 < 0x115000 ∧ 0x114FF8 % 8 = 0 ∧
      ¬ ((0x200000 ≤ 0x114FF8 ∧ 0x114FF8 < 0x203000 ∧ 0x114FF8 % 0x200 = 0x30) ∨ (0x300000 ≤ 0x114FF8 ∧ 0x114FF8 < 0x380000 ∧ 0x114FF8 % 0x1000 = 0) ∨
        0x114FF8 = 0x210000 ∨ 0x114FF8 = 0x220310 ∨ 0x114FF8 = 0x220600)) ∧
    ((3#64).extractLsb' 0 2 = 3#2 ∧ (1#64).extractLsb' 0 2 = 1#2 ∧ (4#64).extractLsb' 0 2 = 0#2 ∧ (7#64).extractLsb' 61 3 = 0#3 ∧ (6 : Fin 8).val < 7) ∧
    ((Tab.get ({} : Debug) (dbg 1#10).dev.debug 335).stat.getLsbD 0 = true ∧ (Tab.get ({} : Debug) (dbg 1#10).dev.debug 335).stat.getLsbD 8 = false ∧
      (Tab.get ({} : Debug) (dbg 0x101#10).dev.debug 335).stat.getLsbD 8 = true) ∧ 1#10 ≠ State.reset.dev.fab.regs.pkgId ∧
    (let t := speculating id id |>.mapCar (fun c => { c with
      life := .running
      place := { c.place with spec := true }
      ident := { c.ident with
        serviceId := 0x100000001#64 } })
     ∃ c ∈ t.cars, c.ident.coreId.toNat = 0 ∧ c.place.spec = true ∧ c.life ≠ .idle ∧ ∃ y ∈ t.dev.sig.specs,
       y.svc.q = c.ident.serviceId.extractLsb' 32 16 ∧ y.svc.seq = c.ident.serviceId.extractLsb' 0 32) := by decide +kernel

theorem test_hyp_LongLivedState_caches :
    let fine := fun (ls : List (Nat × Nat × Bool)) => ({ mode := .fine, lines := ls } : Region)
    let s := fun (r : Region) => onDev (fun d => { d with
      now := Config.msCycles
      cache := [⟨3, 9, Vector.replicate 64 1#8, 1#64, 0#64⟩]
      regions := [(5, r)] })
    let mine := fun (s : State) (die : Nat) => (s.dev.regionAt (5 * 0x200000)).collapses die s.now
    let one := s (fine [(0x28000, 3, true)])
    (one.dev.cache.find? (fun l => l.die == 3 && l.line == 9)).isSome = true ∧ one.dev.fab.fwd = [] ∧
    (one.dev.cache.all (fun y => !(y.die == 3 && y.line == 0x28000))) = true ∧ 0x28000 / 0x8000 = 5 ∧
    mine one 3 = true ∧ mine one 4 = false ∧ mine (s (fine [(0x28000, 3, true), (0x28001, 4, false)])) 3 = false ∧ mine (s (fine [])) 3 = false ∧
    mine (s { mode := .private_ 3, lines := [(0x28000, 3, true)] }) 3 = false ∧
    mine (s { mode := .fine, lines := [(0x28000, 3, true)], since := 1 }) 3 = false := by decide +kernel

theorem test_hyp_LongLivedState_power :
    let h := fun (p q : Nat) => (onDev (fun d => { d with house := { d.house with pacex := p, thrp := q } })).dev.house
    (h 0 0).cap.toNat < 2601 ∧ 2600 ≤ (h 0 0).cap.toNat ∧ (h 13 0).pacex < 14 ∧ 14 ≤ (h 14 191).pacex ∧ (h 14 191).thrp < 192 ∧ 192 ≤ (h 14 192).thrp ∧
    0 < (h 14 1).thrp ∧ (h 14 0).thrp = 0 := by decide +kernel

theorem test_hyp_LongLivedState_starts :
    let fw := fun (f : Firmware) => onDev (fun d => { d with house := { d.house with fw := f } })
    (State.reset.dev.sig.regs.enable = false ∧ (∀ x ∈ State.reset.dev.sig.consists, x.saved.isSome = true)) ∧
    (placing 0 [] id id).dev.sig.regs.enable = true ∧ (fw { pending := true }).dev.house.fw.pending = true ∧
    ((resident id .running).dev.sig.consists.any (fun x => x.saved.isNone)) = true ∧
    State.reset.dev.house.cond.steps.extractLsb' 0 2 = 1#2 ∧ (fw { pending := true }).dev.house.fw.validB = true ∧
    (fw { pending := true, validB := false }).dev.house.fw.validB = false ∧ 335 / 16 ∈ [20] := by decide +kernel

theorem test_hyp_UpdatesAndAttestation :
    let fw := fun (f : UpdateStage) => (onDev (fun d => { d with house := { d.house with fw := { stage := f, version := 2#16 } } })).dev.house.fw
    [UpdateStage.idle, .learn, .ready, .download, .verify, .apply, .activate].all (fun f => (fw f).stage == f) = true ∧
    (fw .download).version ≤ 2#16 ∧ ¬ (fw .download).version ≤ 1#16 ∧ (∀ p ∈ (speculating id id).dev.sig.specs, p.adopted = false) ∧
    [0, 1, 2, 3].all (fun n => (onDev (fun d => { d with house := { d.house with spdm := n } })).dev.house.spdm == n) = true := by decide +kernel

theorem test_hyp_EncodedInstructionsDecode :
    (slotOf (.li false 63 0xFFFFFFFFFFFFFFFF#64) State.reset).isSome = true ∧ Instr.wf (.li false 63 0xFFFFFFFFFFFFFFFF#64) = true ∧
    (slotOf (.ccpy true 15 0 63 true true 3#2 true) State.reset).isSome = true ∧ Instr.wf (.ccpy true 15 0 63 true true 3#2 true) = true := by
  decide +kernel

theorem test_hyp_DecodedSlotsEncodeBack :
    (lRange (0x0816D125#32)).1 = 0 ∧ (decodeSlot 0x0816D125#32 []).toOption = some (.add true 27 17 9 true) := by decide +kernel

theorem test_hyp_ScalarZeroAndLink :
    readable State.reset [.s 63, .s 1, .s 0] = true ∧ room State.reset [.s 63] = true ∧
    (State.reset.src.pc.setWidth 64 + (0x7FFF#42).signExtend 64 * 4#64 : Word).toNat < 0x20000 := by decide +kernel

/-- A bundle of the focused car has begun, with a change of the car. -/
def opened (f : Car → Car) : State := (onCar (fun c => f { c with life := .running })).openBundle

/-- What becomes of a bundle of one slot. -/
def verdictOf (i : Instr) (s : State) : Option Verdict := (slotOf i s).map (fun o => s.verdict [o.plan])

theorem test_hyp_SlotsIssueWaitOrTrap :
    let add := Instr.add false 3 1 2 false
    let gone := fun (c : Car) => { c with marks := { c.marks with emptyS := 2#72 } }
    let spec := fun (c : Car) => { c with place := { c.place with spec := true } }
    let isTrap := fun (v : Option Verdict) => match v with
      | some (.trap _) => true
      | _ => false
    (verdictOf add (opened id) = some .go ∧ (opened id).old.isSome = true) ∧
    verdictOf add (opened gone) = some .wait ∧
    verdictOf (.xlt false 2 1 2#2) (opened id) = some (.walk 0#64) ∧
    (isTrap (verdictOf (.add true 3 1 2 false) (opened gone)) = true ∧ (opened gone).old.map (fun o => !o.1.place.spec && !o.1.tr.masked && o.1.wait.isEmpty) = some true) ∧
    (let m := opened (fun c => { gone c with tr := { c.tr with masked := true } })
     isTrap (verdictOf (.add true 3 1 2 false) m) = true ∧ m.old.map (fun o => o.1.tr.masked) = some true) ∧
    (isTrap (verdictOf (.add true 3 1 2 false) (opened (fun c => spec (gone c)))) = true) ∧
    (let s := ((addressing 0x2800000000000000#64).mapCar spec |>.mapDev (fun d => { d with sig := { d.sig with
        specs := [{ svc := { q := 0#16, seq := 0#32, order := 0, record := [] } }] } })).openBundle
     verdictOf (.std false 2 1 0#36) s = some .doom) ∧
    (let s := running (fun c => spec { c with tr := { c.tr with pending := [.uncorrectable 8#64] } })
     s.mayTrap = true ∧ s.car.place.spec = true ∧ s.old = none) := by decide +kernel

theorem test_hyp_OneVerdictForABundle :
    let gone := opened (fun c => { c with marks := { c.marks with emptyS := 2#72 } })
    let bad := opened (fun c => { c with marks := { c.marks with poisonS := 2#72 } })
    let busy := opened (fun c => { c with units := { c.units with divider := 9 } })
    let one : Plan := { srcs := [.s 1] }
    let k : Trap := ⟨.brk, 0#64, false, 0#6⟩
    (({ illegal := true } : Plan).illegal = true ∧ ({ priv := true } : Plan).priv = true ∧ ({ priv := true } : Plan).illegal = false) ∧
    (busy.unitsBusy [{ unit := .divider }] = true ∧ gone.unitsBusy [one] = false ∧ gone.src.isFull (.s 1) = false ∧ gone.src.isFull (.s 2) = true) ∧
    (gone.unitsBusy [{ srcs := [.s 2], wait := true }] = false ∧ (opened id).unitsBusy [one] = false ∧ (opened id).src.isFull (.s 1) = true) ∧
    (bad.src.isPoisoned (.s 1) = true ∧ bad.src.isFull (.s 1) = true ∧ (opened id).src.isPoisoned (.s 1) = false) ∧
    (({ one with cause := some k } : Plan).cause = some k ∧ ({ one with dooms := true } : Plan).dooms = true ∧ one.walk = none) := by decide +kernel

/-- A machine whose focused car fetches an ADD next. -/
def fetching : State := State.reset.withFetchWord 32 0x0816D125

theorem test_hyp_StepRunsTheDecodedInstruction : fetching.AboutToIssue :=
  ⟨by decide +kernel, by decide +kernel, by decide +kernel, by decide +kernel, by decide +kernel, by decide +kernel, by decide +kernel⟩

theorem test_hyp_StepRunsTheDecodedInstruction_fetch :
    fetching.primaryOf fetching.car = none ∧ (fetching.car.fetch.toOption.map (fun b => (b.frames, b.instrs, b.priv, b.poison))) =
      some ([(0x8816D125#32, [])], [.add true 27 17 9 true], false, false) ∧
    ((fetching.mapCar (fun c => { c with done := true })).openBundle.judge ⟨[(0x8816D125#32, [])], [.add true 27 17 9 true], false, false⟩) = .go := by
  decide +kernel

theorem test_hyp_NoStepEndsInsideABundle : fetching.Between := rfl

theorem test_hyp_EveryStepKeepsMemoryCanonical : fetching.memOk = true ∧ paged.memOk = true ∧ fetching.old = none := by decide +kernel

/-! Witnesses of single clauses. -/

/-- `addressing` while a load of another package by the bundle of this cycle has not obtained its value. -/
def awaiting (a : Word) : State := (addressing a).mapDev (fun d => { d with fab := { d.fab with
  remote := [⟨9, 0, some 3, 0#64, 0x0040000000040#52, .load 8 false, false, 0, 0x10000, 0, false, 0, false⟩] } })

theorem test_hyp_held :
    (awaiting 0#64).holds (awaiting 0#64).now = true ∧ (addressing 0#64).holds (addressing 0#64).now = false ∧
    places.all (fun a => a == 0x0800000000000000#64 || ((stores false 2 1 0#36).all (fun l => issues (awaiting a) l.1) &&
      issues (awaiting a) (.vst false 2 1 0#34 0) && issues (awaiting a) (.vstk false 2 1 0#34))) = true ∧
    [0#64, 0x1000000000000000#64, 0x2000000000000000#64].all (fun a => (atomics false 2#2 2 1 3 0#2).all (fun l => issues (awaiting a) l.1)) = true ∧
    [0x1000000000000000#64, 0x2000000000000000#64].all (fun a => issues (addressing a) (.aadd false 2#2 2 1 3 2#2)) = true ∧
    (addressing 0#64).car.eng.queue = [] ∧ (addressing 0#64).dev.linesHeld 0 = 0 ∧ (∀ l ∈ mapped.dev.cache, l.dirty = 0#64) := by decide +kernel

theorem test_hyp_ArrayReadResults_reports :
    let r : Report := ⟨1#64, 5, [], none⟩
    let o : Report := ⟨2#64, 0, [], none⟩
    let q := onCar (fun c => { c with arr := { c.arr with queue := [r, o], groups := c.arr.groups.set 15 { closed := some 0 } } })
    q.src.arr.queue = [r] ++ o :: [] ∧ q.now < r.ready ∧ o.ready ≤ q.now ∧ q.src.arr.groups[15].closed = some 0 ∧
    room q [q.oA 63, .s 0] = true ∧ q.src.units.array ≤ q.now ∧ (∀ g : Fin 16, State.reset.src.arr.groups[g].win = none) ∧
    (windowOpen 512).src.arr.groups[0].win.isSome = true := by decide +kernel

theorem test_hyp_BusAndLineSlots_clauses :
    let bus := coupled.mapDev (fun d => { d with bus := [⟨0, 2, 0, 1, [], 0⟩] })
    let late := coupled.mapCar (fun c => { withS c 1 0#64 with ctl := { c.ctl with ccyc := 1#64 } })
    let edge := coupled.mapCar (fun c => { c with arr := { c.arr with line := some 2 } })
    (bus.src.busLine = some 2 ∧ bus.src.place.domain = some 0 ∧ (∀ b ∈ bus.dev.bus, 1 ≤ b.count)) ∧
    (issues late (.cls false 2 3 1) = true ∧ (late.rS 1).toNat + 1 ≤ late.src.ctl.ccyc.toNat) ∧
    (issues edge (.cls false 2 3 1) = true ∧ (edge.rS 1).toNat ≤ edge.src.ctl.ccyc.toNat ∧ edge.car.arr.line = some 2 ∧
      edge.car.coupledTo 2 = true ∧ edge.car.place.domain = some 0 ∧ edge.dev.drives = []) := by decide +kernel

theorem test_hyp_RangeAndStashSlots_clauses :
    let s := (addressing 0x1000000000000000#64).mapCar (fun c => withS c 2 65#64)
    let m := billed.mapCar (fun c => { withS c 1 4096#64 with
      eng := { c.eng with stash := [⟨5, 0, 4096, 64, bill 0x100000#64 16 0 false 0 0#64, [0], [3], []⟩] } })
    mapped.src.handleBusy mapped.now (haIndex (mapped.rS 1)) = false ∧ (mapped.rS 2).toNat = 0 ∧ readable mapped [.s 1, .s 2] = true ∧
    (issues s (.cwbr false 1 2 0) && issues s (.cinv false 1 2 0) && issues s (.cwbi false 1 2 0)) = true ∧
    (∃ pa, s.target (s.rS 1) = .hbm pa false) ∧
    (addressing 0x1800000000000000#64).target 0x1800000000000000#64 = .hbm 0x100000 true ∧
    issues m (.cunm false 1 63) = true ∧ m.car.eng.stash = m.src.eng.stash := by
  refine ⟨?_, ?_, ?_, ?_, ⟨0x100000, ?_⟩, ?_, ?_, ?_⟩ <;> decide +kernel

theorem test_hyp_LateWrites_clauses :
    (7 : Ix16).val < 8 ∧ 8 ≤ (8 : Ix16).val ∧ (fmtFields.all (fun e => e.1 != 3 || (decide ((1#8 : Byte).toNat < 2 ^ e.2.2) &&
      decide (2 ^ e.2.2 ≤ (2#8 : Byte).toNat)))) = true ∧
    issues State.reset (.yldw false 15 1) = true ∧ issues State.reset (.ystw false 15 1) = true ∧ readable State.reset [.s 62, .s 63] = true := by
  decide +kernel

theorem test_hyp_FlagLoopAndParkSlots_clauses :
    let at_ := atPark
    let asked := atPark.mapCar (fun c => { c with preempt := some 5 })
    let x : Consist := { q := 0#16, seq := 0#32, idx := 0#32, image := { id := 0#32, va := 0#64, parks := [(0#17, 0#64, 0#8)] } }
    (asked.src.preempt.isSome = true ∧ asked.src.tr.handler = false ∧ at_.src.preempt = none) ∧
    (readable State.reset [.s 63] = true ∧ (BitVec.ofNat 17 (4 * (7#15 : BitVec 15).toNat)).toNat < 32 ∧ 32 ≤ (BitVec.ofNat 17 (4 * (8#15 : BitVec 15).toNat)).toNat) ∧
    (at_.consistOf at_.car = some x ∧ x.secondary = false ∧ x.holds at_.car = true ∧ (running id).consistOf (running id).car = none ∧
      (running id).car.life ≠ .idle) ∧
    (room State.reset [.s 0] = true ∧ State.reset.src.tr.handler = false ∧ inHandler.src.tr.handler = true) := by decide +kernel

theorem test_hyp_CopiesEndOrFault_void :
    let k : Copy := { copying .ccpy .running with void := true }
    let s := running (fun c => { c with eng := { c.eng with copies := [k] } })
    s.car.copyOf 47 = some k ∧ s.copyMayEnd k = true ∧ k.void = true ∧ s.car.life ≠ .idle ∧ s.enginesPaused = false := by decide +kernel

theorem test_hyp_FlagsWaitsAndArrivals_posted :
    let w : Posted := ⟨1, 1, 1, 5#9, 0, [(0, 1#8)], 0, 0#32, 0, 0, false, 0⟩
    let s := mapped.mapCar (fun c => { c with eng := { c.eng with posted := [w] } })
    (s.car.eng.posted.find? (fun q => q.id == 1) = some w ∧ w.sent = false) ∧
    ((s.peerCar s.car 5#9).map (fun x => s.stillThere { w with since := 7 } x) = some false ∨
      (s.peerCar s.car 5#9).map (fun x => s.stillThere { w with since := 7 } x) = some true) := by decide +kernel

theorem test_hyp_RemoteRequestsPerform_order :
    let one : Remote := ⟨8, 0, none, 0#64, 0x0040000000040#52, .store [1#8], false, 0, 0x10000, 0, false, 0, false⟩
    let two : Remote := ⟨9, 0, some 3, 0#64, 0x0040000000040#52, .load 8 false, false, 0, 0x10000, 1, false, 0, false⟩
    let s := (asking (.load 8 false) false 0x85#24).mapDev (fun d => { d with fab := { d.fab with remote := [one, two] } })
    let wait := s.mapDev (fun d => { d with fab := { d.fab with remote := [{ one with ready := 1 }] } })
    (s.dev.mayPerform one = true ∧ s.dev.mayPerform two = false ∧ wait.dev.mayPerform { one with ready := 1 } = false) ∧
    one.flight = none ∧ (s.car.flight.map (fun f => f.id)) = [3] := by decide +kernel

theorem test_hyp_TimetablesLinksAndTime_offset :
    let off := fun (n : Int) => onDev (fun d => { d with house := { d.house with offset := BitVec.ofInt _ n } })
    (off 40).dev.offBy.natAbs ≤ 40 ∧ (off (-40)).dev.offBy.natAbs ≤ 40 ∧ 40 < (off 41).dev.offBy.natAbs ∧ 40 < (off (-41)).dev.offBy.natAbs := by
  decide +kernel

theorem test_hyp_MailboxTargets :
    let at_ := fun (b : BitVec 52) => onDev (fun d => { d with sig := { d.sig with regs := { d.sig.regs with mboxBase := b } } })
    (at_ 0x8000000000000#52).dev.mboxTarget 0 = .host (2 ^ 51) ∧ (at_ 0x3FFFFFFF000#52).dev.mboxTarget 0 = .nowhere ∧
    (at_ 0#52).dev.mboxTarget 1023 = .hbm 0x1FF8 false := by decide +kernel

theorem test_hyp_SlotsComeAndGo_heir :
    let s := queued 0x10004 [] (fun x => { x with
      wanted := [2#16]
      slots := [(0, { q := 1#16, head := 0#32, tail := 1#32, unmapping := true, heir := some 2#16 })] })
    (s.dev.sig.slotOf 1#16).map (fun y => y.2.heir) = some (some 2#16) ∧ 2#16 ∈ s.dev.sig.wanted ∧ s.dev.sig.slotOf 2#16 = none ∧
    (queued 0x10004 [(0x4010, 0x5800)] (fun x => { x with wanted := [2#16] })).dev.ctx 2#16 = .ok ⟨0x5800, 0, false, false, 0#2, 0⟩ := by
  decide +kernel

theorem test_hyp_ConsistsArePlacedAndReleased_order :
    let two := resident (fun y => { y with idx := 1#32 }) (.held 0)
    let err := (resident id (.held 0)).mapDev (fun d => { d with sig := { d.sig with services := d.sig.services.map (fun v => { v with err := some (2#8, 0#9) }) } })
    let first := two.mapDev (fun d => { d with sig := { d.sig with consists := { q := 1#16, seq := 0#32, idx := 0#32, image := image7 } :: d.sig.consists } })
    (two.toRelease 1#16 0#32 1#32).isSome = true ∧ (first.toRelease 1#16 0#32 1#32).isNone = true ∧ (err.toRelease 1#16 0#32 0#32).isNone = true ∧
    ((placing 0 [(1, 0x100000E01#64)] id id).dev.ttSet 1#8).isNone = true := by decide +kernel

theorem test_hyp_CarsConsistsAndServicesEnd_err :
    let err := placing 0 [] (fun v => { v with err := some (5#8, 0#9) }) id
    let later := placing 1 [(13, 0xB000#64)] (fun v => { v with ended := true }) (fun x => { x with services := x.services ++ [{ service 0 [] with order := 0 }] })
    ((err.dev.sig.services.find? (fun u => u.q == 1#16 && u.seq == 0#32)).map (fun v => v.ended == false && v.err != none && err.dev.sig.over v)) = some true ∧
    ((later.dev.sig.services.find? (fun u => u.q == 1#16 && u.seq == 1#32)).map (fun v => v.ended && recCompAddr v.record != 0#64)) = some true := by
  decide +kernel

theorem test_hyp_Speculations_empty :
    let s := predicting (fun x => { x with hist := { x.hist with lrec := (service 4 [(1, 0x80E01#64), (2, 0#64)]).record } }) id
    (s.dev.predictedService 1#16).map (fun v => v.count) = some (some 0#32) ∧ s.dev.distantReady 1#16 = true := by decide +kernel

theorem test_hyp_OneVerdictForABundle_held :
    let gone := opened (fun c => { c with marks := { c.marks with emptyS := 2#72 } })
    let p : Plan := { te := true, srcs := [.s 1], wait := true }
    p.te = true ∧ gone.src.isFull (.s 1) = false ∧ p.wait = true ∧ p.illegal = false ∧ p.priv = false ∧
    ({ p with wait := false } : Plan).wait = false ∧ gone.unitsBusy [p] = false := by decide +kernel

/-- Car 0 has an acquire in its store queue, or the handle of `mapped` that s1 names is being written. -/
def acquired : State := running (fun c => { c with eng := { c.eng with queue := [{ id := 0, ha := 0#64, target := .spad 0, bytes := [], acquire := true, stamp := 0, ready := 9 }] } })
def loading : State := (addressing 0x1000000000000000#64).mapCar (fun c => { c with regs := { c.regs with h := c.regs.h.set 2 { c.regs.h[2] with busy := 7 } } })

theorem test_hyp_waits :
    (acquired.acquiring = true ∧ State.reset.acquiring = false ∧ (0x009#14 : BitVec 14) ≠ 0x008#14) ∧
    (loading.src.isFull (.s 1) = true ∧ loading.src.handleBusy loading.now (haIndex (loading.rS 1)) = true) ∧
    (State.reset.src.isPoisoned (.k 6) = false) ∧
    (let p : Posted := { id := 1, window := 1, units := 1, core := 5#9, addr := 0, bytes := [(0, 1#8)], issued := 0, sent := true }
     let s := mapped.mapCar (fun c => { c with eng := { c.eng with posted := [p] } })
     s.mayArrive p = true ∧ s.postedCircuit p = none ∧ s.mayArrive { p with sent := false } = false ∧
     (s.peerCar s.car 5#9).map (fun x => s.stillThere p x) = some true) ∧
    (let r : RangeOp := { id := 1, kind := .wb, lo := 0, hi := 1, flag := 0, issued := 0, cid := 1 }
     acquired.rangeHeld r = true ∧ (running id).rangeHeld r = false) := by decide +kernel

/-- A mapping of a page that no table names, and of one that `paged` maps. -/
theorem test_hyp_stash_faults :
    let w := fun (va : Nat) => bill (BitVec.ofNat 64 va) 64 0 false 0 0#64
    let m := fun (va : Nat) => ({ num := 3, base := 0, len := 64, ws := w va } : Stash)
    paged.dev.tileFault (m 0x100000) true false [0] = none ∧ (paged.dev.tileFault (m 0x40000000) true false [0]) = some 0x40000000 ∧
    (paged.dev.tileFault (m 0x40000000) false true [5]) = some 0x40000005 ∧ (m 0).filled = [] ∧ (m 0x40000000).dirty = [] := by decide +kernel

/-- Formats, and patterns of every kind: finite, NaN, signalling, infinite, NaR and none. -/
theorem test_hyp_lanes :
    (ETy.f32, 8, 23) ∈ formats ∧ (ETy.bf16, 8, 7) ∈ formats ∧ fin 8 23 0x3F800000 ∧ fin 5 10 0xFBFF ∧ isNan 8 7 0x7FC0 ∧ isSig 5 10 0x7C01 ∧
    (¬ fin 8 23 0xFF800000 ∧ ¬ isNan 8 23 0xFF800000) ∧ 0xFF800000 < 2 ^ ETy.f32.bits ∧ ETy.isInt .i16 = true ∧ ETy.isCode .c10 = true ∧
    0x7F < 2 ^ ETy.m8.bits ∧ 0x7F ≠ 0x80 ∧ 0xFFFF < 2 ^ ETy.c10.bits := by
  simp only [fin, isNan, isSig]; decide

/-- The array of a car without a line meets zeros with LINE. -/
theorem test_hyp_Meets_dark : Meets State.reset (fun _ => 0) (fun _ => 0) true :=
  ⟨fun _ => ⟨fun _ => rfl, fun _ => rfl, rfl⟩, fun _ h => nomatch h⟩

/-- The array of `coupled` receives line 2, on which CCYC 0 carries a frame of ones with the exponent 3. -/
def lit : State := (coupled.mapCar (fun c => { c with arr := { c.arr with line := some 2 } })).mapDev (fun d => { d with
  drives := [⟨0, 2, 0, 1, List.replicate 32 3#8, List.replicate 256 1#8, false, 0⟩] })

theorem test_hyp_Meets_lit : Meets lit (fun k => ((List.replicate 32 3#8).getD k 0#8).toInt)
    (fun i => if (List.replicate 256 1#8).getD i 0#8 = 0x80#8 then 0 else ((List.replicate 256 1#8).getD i 0#8).toInt) false := by
  refine ⟨fun h => (nomatch h), fun l h => ?_⟩
  cases h
  refine ⟨fun h => (nomatch h), fun m _ h => ?_⟩
  cases h
  refine ⟨fun h => ?_, fun _ _ y h => ?_⟩
  · rcases h with h | h | h
    · exact absurd rfl h
    · exact (nomatch h)
    · exact (nomatch h)
  · cases h
    exact ⟨fun h => absurd h (by decide), fun _ => ⟨rfl, fun _ => rfl, fun i => by simp only [Bool.false_eq_true, false_or]⟩⟩

/-- A weight of 0 is the code 0 in each format. -/
theorem test_hyp_Modulates (wf : BitVec 2) (e : Int) : Modulates wf e 0 0 false := by
  refine ⟨fun _ => ⟨by decide, fun _ => ⟨0, ?_, by decide, by decide⟩⟩, fun _ => ⟨by decide, fun _ => by decide⟩, fun _ => ⟨by decide, fun _ => by decide⟩⟩
  have h : m8Value 0 = 0 := by simp [m8Value, m8Table]
  rw [h]; simp [RoundsInt]

theorem test_hyp_BeatSumsAndCodes :
    issues lit (.mbt false 0 0#4 false false true) = true ∧ lit.fmt.wf = 0#2 ∧ (lit.rVA 0).toNat = 0 ∧ lit.src.groupAct 15 false true = some (false, true) ∧
    lit.src.arr.line.any lit.srcDev.laserBad = false ∧ lit.src.arr.cal.skew = false ∧
    (let s := (windowOpen 510).mapDev (fun d => { d with now := 4001 })
     (s.src.arr.groups[0].win.map (fun u => u.sums.length == 128 && decide (u.last + 4000 < s.now))) = some true ∧
       ((windowOpen 510).src.arr.groups[0].win.map (fun u => !u.void && decide ((windowOpen 510).now ≤ u.last + 4000))) = some true) := by decide +kernel

/-- Of two streams' beats that a window of group 0 has entered, a late one over line 2 has missed those to CCYC 1. -/
theorem test_hyp_BusAndLineSlots_late :
    let w : Window := { beats := 2, sums := List.replicate 128 0, rowExp := List.replicate 32 0, ccycs := [1, 0], opener := ⟨some (0, 2), 0, 0⟩ }
    let s := coupled.mapCar (fun c => { c with
      ctl := { c.ctl with ccyc := 1#64 }
      arr := { c.arr with
        groups := c.arr.groups.set 0 { win := some w }
        queue := [⟨1#64, 5, [0], some (0, 2)⟩, ⟨2#64, 6, [0], some (0, 3)⟩] } })
    issues s (.cls false 2 3 1) = true ∧ (s.rS 1).toNat ≤ s.src.ctl.ccyc.toNat ∧ s.src.place.domain = some 0 ∧ s.car.arr.groups[0].win = some w ∧
    received 0 2 0 0 w.opener.src w.ccycs = true ∧ received 0 2 0 0 w.opener.src [w.opener.ccyc] = true ∧ w.opener.ccyc < 1 ∧ w.opener.count = 0 ∧
    received 0 2 0 0 (some (0, 3)) [0] = false ∧ received 0 2 0 0 w.opener.src [1] = false := by decide +kernel

theorem test_hyp_InvalidationsAndMigrations_waits :
    let q := fun (f : State → State) => f (onDev (fun d => { d with fab := { d.fab with invQ := [(0, 0x10000)] } }))
    let store := fun (t : Target) (page : Nat) (s : State) => s.mapCar (fun c => { c with eng := { c.eng with
      queue := [{ id := 0, ha := 0#64, target := t, bytes := [], stamp := 0, ready := 0, vpage := page }] } })
    (∃ x ∈ (q (store (.hbm 0 false) 0)).car.eng.queue, x.target.isLocal = false ∧ meets 0 0x10000 x.vpage x.vsize = true) ∧
    (∀ x ∈ (q (store (.hbm 0 false) 0x10000)).car.eng.queue, meets 0 0x10000 x.vpage x.vsize = false) ∧
    (∀ x ∈ (q (store (.spad 0) 0)).car.eng.queue, x.target.isLocal = true) ∧ (q id).dev.hbmGone 0x10000 = false := by decide +kernel

/-- The host link is not trained. -/
def unlinked : State := onDev (fun d => { d with house := { d.house with startRec := 3#49 } })

theorem test_hyp_served :
    (queued 0x10004 [] id).dev.house.startRec.extractLsb' 14 2 = 1#2 ∧ unlinked.dev.house.startRec.extractLsb' 14 2 ≠ 1#2 ∧
    ([UpdateStage.idle, .learn, .ready, .download, .verify, .apply, .activate].all (fun f =>
      (onDev (fun d => { d with house := { d.house with fw := { stage := f } } })).dev.house.startRec.extractLsb' 14 2 == 1#2)) = true ∧
    State.reset.dev.house.fuse ≤ 2#16 ∧ (1#16 : BitVec 16) < (onDev (fun d => { d with house := { d.house with fuse := 2#16 } })).dev.house.fuse := by
  decide +kernel

/-- The cars of an aborted service have left, one of them with a store on its way. -/
theorem test_hyp_CarsConsistsAndServicesEnd_left :
    let out := fun (f : Car → Car) => (placing 0 [] (fun v => { v with err := some (5#8, 0#9) }) id).mapCar (fun c => f { c with
      ident := { c.ident with serviceId := 0x100000000#64 } })
    let busy := out (fun c => { c with eng := { c.eng with queue := [{ id := 0, ha := 0#64, target := .spad 0, bytes := [1#8], stamp := 0, ready := 9 }] } })
    (busy.car.place.spec = false ∧ busy.car.ident.serviceId = (1#16 : BitVec 16).setWidth 32 ++ 0#32 ∧ busy.car.life = .idle ∧ busy.car.eng.queue ≠ []) ∧
    ((out id).car.eng.posted = [] ∧ (out id).car.eng.queue = [] ∧ (out id).car.eng.copies = [] ∧ (out id).dev.fab.remote = [] ∧ (out id).peers = []) := by
  decide +kernel

theorem test_hyp_ConsistsArePlacedAndReleased_pending :
    let s := resident id (.held 0)
    let t := s.mapDev (fun d => { d with house := { d.house with fw := { d.house.fw with pending := true } } })
    let again := (resident (fun y => { y with resumed := true }) (.held 0)).mapDev (fun d => { d with house := { d.house with fw := { d.house.fw with pending := true } } })
    s.dev.house.fw.pending = false ∧ t.dev.house.fw.pending = true ∧ (t.toRelease 1#16 0#32 0#32).isNone = true ∧ (again.toRelease 1#16 0#32 0#32).isSome = true ∧
    (placing 0 [] id id).dev.sig.holdsImage 0 7#32 = false ∧
    (placing 0 [] id (fun x => { x with loaded := [(0, 7#32)] })).dev.sig.holdsImage 0 7#32 = true := by decide +kernel

theorem test_hyp_Preemption_failed :
    let x : Consist := { q := 1#16, seq := 0#32, idx := 0#32, image := image7 }
    let s := parked (fun d => { d with sig := { d.sig with services := d.sig.services.map (fun v => { v with err := some (5#8, 0#9) }) } })
    s.dev.sig.failedFor x = true ∧ (parked id).dev.sig.failedFor x = false ∧
    ((parked id).dev.imageNow image7 true false).isSome = true ∧
    ((parked (fun d => { d with sig := { d.sig with images := [] } })).dev.imageNow image7 true false).isNone = true ∧
    ((parked id).car.ident.merge = 0#2) := by decide +kernel

/-- The parity of s1 fails, once or twice. -/
theorem test_hyp_StepRunsTheDecodedInstruction_parity :
    let s := fun (twice : Bool) => (running (fun c => { c with marks := { c.marks with parityS := 2#72, againS := if twice then 2#72 else 0#72 } })).openBundle
    let p : Plan := { srcs := [.s 1, .s 2] }
    (s false).struck [p] = [1] ∧ (s true).struck [p] = [1] ∧ (s true).car.parityFails 1 = true ∧ (s true).car.marks.againS.getLsbD 1 = true ∧
    (s false).struck [{ srcs := [.s 2] }] = [] ∧ ((s false).debugOf (s false).car).stat.getLsbD 8 = false := by decide +kernel

/-! Terms that WellFormed refuses, one for each check. -/

theorem test_wf_refuses : ([.shli false 1 2 64#64, .shri false 1 2 64#64, .sari false 1 2 0xFFFFFFFFFFFFFFFF#64, .ald false 0#2 1 2 2#2,
    .ast false 0#2 1 2 1#2, .xlt false 1 2 1#2, .xlt false 32 2 1#2, .xlt false 2 2 0#2, .hinv false 0, .hrd false 1 32, .mgain false 0 21#5,
    .mrd false 1 2#2 0#2, .mrd false 1 0#2 2#2, .ccpy false 0 1 2 false false 1#2 false, .crdx false 0 1 2 false false 3#2 false,
    .cagt false 0 1 2 false false 2#2 false, .cbct false 0 1 2 false false 1#2 false, .cres false 48#6, .cabt false 63#6, .yfmt false 7 0#8,
    .yfmt false 3 2#8, .ywb false 0 8 1] : List Instr).all (fun i => !i.wf) = true := by decide +kernel

theorem test_wf_accepts : ([.shli false 1 2 63#64, .ald false 0#2 1 2 1#2, .ast false 0#2 1 2 2#2, .xlt false 31 2 3#2, .hrd false 1 31, .mgain false 0 20#5,
    .mrd false 1 1#2 1#2, .ccpy false 0 1 2 true false 1#2 false, .cres false 47#6, .yfmt false 5 15#8, .ywb false 0 7 1] : List Instr).all Instr.wf = true := by
  decide +kernel

/-! Bundles that are none (R66), and the words that the spec writes out. -/

/-- No END in eight slots; a reserved class; V before S; two S slots; an L slot after VADD; YLOOP without one; VLD beside VST. -/
theorem test_frame_refuses : ([
    List.replicate 8 0#32,
    [0xE0000000#32],
    [0x10000000#32, 0x80000000#32],
    [0x00000000#32, 0x80000000#32],
    [0#1 ++ 1#3 ++ 0#1 ++ 0x00#6 ++ 1#6 ++ 2#6 ++ 3#6 ++ 0#3, 0xD0000000#32],
    [1#1 ++ 4#3 ++ 0#1 ++ 0x0D#6 ++ 3#6 ++ 12#15],
    [0#1 ++ 1#3 ++ 0#1 ++ 0x18#6 ++ 5#6 ++ 6#6 ++ 0#9, 1#1 ++ 1#3 ++ 0#1 ++ 0x19#6 ++ 5#6 ++ 6#6 ++ 0#9]] : List (List Slot)).all
    (fun b => (frameBundle b).isNone) = true := by decide +kernel

/-- The words of R137, R143, R157, the reciprocal table of 13, R341 and R349. -/
theorem test_decode_spec_words : ([
    (0x8491061E, .aadd false 1#2 4 6 7 2#2),
    (0x86117FFD, .bnz false 5 0x3FFFFFFFFFD#42),
    (0x06403F00, .jr false 63),
    (0xB0AA2280, .cls false 5 1 5),
    (0xA0440400, .mbt false 4 0#4 false true false),
    (0xA0441A00, .mbt false 4 1#4 true false true),
    (0xA1450000, .mrd false 5 0#2 0#2),
    (0xA1870000, .mrep false 7),
    (0xB0246080, .ccpy false 2 3 1 false false 0#2 false),
    (0xB0E51A08, .cwbr false 10 13 1),
    (0xB1050420, .cinv false 10 2 4),
    (0xC1601081, .ypostc false 1#9 2 1#16),
    (0xC1600141, .ypostc false 0#9 5 1#16)] : List (Nat × Instr)).all (fun e => decodeTableWord 32 e.1 == some e.2) = true := by decide +kernel

/-! Values that the spec writes out. -/

/-- What a register holds after an instruction in a small state. -/
def after (r : SReg) (i : Instr) (s : State) : Option Word :=
  match exec i s with
  | .next t => some (t.car.rS r)
  | _ => none

/-- Registers s1 and s2 hold two words. -/
def two (a b : Word) : State := onCar (fun c => withS (withS c 1 a) 2 b)

/-- What the focused car's flight will bring. -/
def coming (i : Instr) (s : State) : Option (List Dest) :=
  match exec i s with
  | .next t => some (t.car.flight.map (fun f => f.dest))
  | _ => none

/-- R127. -/
theorem test_div : ([(7, 0xFFFFFFFFFFFFFFFE, 0xFFFFFFFFFFFFFFFD, 1), (5, 0, 0xFFFFFFFFFFFFFFFF, 5),
    (0x8000000000000000, 0xFFFFFFFFFFFFFFFF, 0x8000000000000000, 0)] : List (Nat × Nat × Nat × Nat)).all (fun e =>
      let s := two (BitVec.ofNat 64 e.1) (BitVec.ofNat 64 e.2.1)
      coming (.div false 3 1 2 false) s == some [.s 3 (BitVec.ofNat 64 e.2.2.1)] && coming (.rem false 3 1 2 false) s == some [.s 3 (BitVec.ofNat 64 e.2.2.2)]) = true := by
  decide +kernel

theorem test_div_w : coming (.div false 3 1 2 true) (two 0x80000000#64 0xFFFFFFFFFFFFFFFF#64) = some [.s 3 0xFFFFFFFF80000000#64] := by decide +kernel

/-- R125, R126: a sum wraps; bit 31 of a 32-bit sum is copied up. -/
theorem test_add : after 3 (.add false 3 1 2 false) (two 0xFFFFFFFFFFFFFFFF#64 2#64) = some 1#64 ∧
    after 3 (.add false 3 1 2 true) (two 0x7FFFFFFF#64 1#64) = some 0xFFFFFFFF80000000#64 := by decide +kernel

/-- R129. -/
theorem test_cltui : after 3 (.cltui false 3 1 0xFFFFFFFFFFFFFFFF#64) (two 0xFFFFFFFFFFFFFFFF#64 0#64) = some 0#64 ∧
    after 3 (.cltui false 3 1 0xFFFFFFFFFFFFFFFF#64) (two 0xFFFFFFFFFFFFFFFE#64 0#64) = some 1#64 := by decide +kernel

/-- R143: from 0x140 to 0x134, and not when s5 is zero. -/
theorem test_bnz : (let s := fun (x : Word) => onCar (fun c => { withS c 5 x with pc := 0x140#17 })
    let pc := fun (s : State) => match exec (.bnz false 5 0x3FFFFFFFFFD#42) s with
      | .next t => some t.car.pc
      | _ => none
    pc (s 1#64) = some 0x134#17 ∧ pc (s 0#64) = some 0x140#17) := by decide +kernel

/-- R48's table of M8 encodings. -/
theorem test_m8 : ([(3, 1, 0x78, 0#8), (3, 10, 0x43, NX), (-100, 1, 0x99, NX), (49152, 1, 0x03, NX), (3, 4096, 0x16, NX), (1, 524288, 0x00, NX),
    (100000, 1, 0x03, SAT ||| NX)] : List (Int × Nat × Nat × Fl)).all (fun e => m8Encode (.val ⟨e.1, e.2.1⟩ false) == (e.2.2.1, e.2.2.2)) = true ∧
    m8Encode (.inf true) = (0x83, SAT) := by decide +kernel

/-- R18: under `ybnk 2, 5` v3 as vd is register 131 and v10 as vb is register 330. -/
theorem test_banks : (let s := onCar (fun c => { c with ctl := { c.ctl with vbank := 0x52#8 } })
    s.oA 3 = .v 131 ∧ s.oB 10 = .v 330) := by decide +kernel

/-- R445: 4,000 hours. -/
theorem test_eol : eolEstimate 780#16 600#16 1000#32 [(1000, 780), (0, 750)] = 4000#32 ∧ eolEstimate 900#16 600#16 1000#32 [(1000, 900), (0, 750)] = 0#32 := by decide +kernel

/-- R172 under I8: 100 + 20 × 3 is delivered as 127 with SAT. -/
theorem test_vfma_i8 : (let s := onCar (fun c => { c with
      regs := { c.regs with
        fmt := 5#20
        v := [(0, (100#8).setWidth 32768), (1, (20#8).setWidth 32768), (2, (3#8).setWidth 32768)] } })
    s.fmt.ety = .i8 ∧ (match exec (.vfma false 0 1 2 0) s with
      | .next t => t.car.flight.map (fun f => match f.dest with
          | .v 0 x => (x.extractLsb' 0 8).toNat
          | _ => 0)
      | _ => []) = [127]) := by decide +kernel

/-! Words of the opcode table, field by field (spec 03, the table): every slot instruction decodes. -/

/-- R124 to R125. -/
theorem test_decode_integer_registers : ∀ e ∈ ([
    (0x00000000, .nop false),
    (0x0816D125, .add true 27 17 9 true),
    (0x002036B8, .sub false 0 54 46 false),
    (0x08395B4D, .and true 37 27 19 true),
    (0x004280E0, .or false 10 0 56 false),
    (0x085BE575, .xor true 47 37 29 true),
    (0x00650A08, .shl false 20 10 2 false),
    (0x087E6F9D, .shr true 57 47 39 true),
    (0x00879430, .sar false 30 20 12 false),
    (0x0890F9C5, .mul true 3 57 49 true),
    (0x00AA1E58, .mulh false 40 30 22 false),
    (0x08B343ED, .mulhu true 13 3 59 true),
    (0x00CCA880, .div false 50 40 32 false),
    (0x08D5CD15, .divu true 23 13 5 true),
    (0x00EF32A8, .rem false 60 50 42 false),
    (0x08F8573D, .remu true 33 23 15 true),
    (0x0101BCD0, .min false 6 60 52 false),
    (0x091AE165, .max true 43 33 25 true),
    (0x012406F8, .minu false 16 6 62 false),
    (0x093D6B8D, .maxu true 53 43 35 true),
    (0x01469020, .ceq false 26 16 8 false),
    (0x095FF5B5, .cne true 63 53 45 true),
    (0x01691A48, .clt false 36 26 18 false),
    (0x09727FDD, .cltu true 9 63 55 true),
    (0x018BA470, .cle false 46 36 28 false),
    (0x0994C905, .cleu true 19 9 1 true),
    (0x01AE2E98, .sel false 56 46 38 false),
    (0x09B75301, .clz true 29 19 true),
    (0x01C0B800, .ctz false 2 56 false),
    (0x09D9DD01, .popc true 39 29 true),
    (0x01E302E8, .bfx false 12 2 58 false),
    (0x09FC677D, .bfi true 49 39 31 true)] : List (Nat × Instr)), decodeTableWord 32 e.1 = some e.2 := by decide

/-- R128 to R130. -/
theorem test_decode_immediates : ∀ e ∈ ([
    (0x02058C80, .addi false 22 12 0xFFFFFFFFFFFFFF80#64),
    (0x0A1EF1E9, .andi true 59 49 0xFFFFFFFFFFFFFFE9#64),
    (0x0228160E, .ori false 32 22 0xE#64),
    (0x0A317B33, .xori true 5 59 0x33#64),
    (0x024AA005, .shli false 42 32 5#64),
    (0x0A53C53F, .shri true 15 5 0x3F#64),
    (0x026D2A20, .sari false 52 42 0x20#64),
    (0x0A764FC7, .muli true 25 15 0xFFFFFFFFFFFFFFC7#64),
    (0x028FB4EC, .ceqi false 62 52 0xFFFFFFFFFFFFFFEC#64),
    (0x0A98D911, .cnei true 35 25 0x11#64),
    (0x02A23E36, .clti false 8 62 0x36#64),
    (0x0ABB635B, .cltui true 45 35 0x5B#64),
    (0x02C480C8, .li false 18 0xFFFFFFFFFFFFFFC8#64),
    (0x0ADDED1D, .hadr true 55 45 29)] : List (Nat × Instr)), decodeTableWord 32 e.1 = some e.2 := by decide

/-- R132 to R137. -/
theorem test_decode_memory : ∀ e ∈ ([
    (0x030712CA, .ldb false 28 18 0xFFFFFFFCA#36),
    (0x0B1077EF, .ldbu true 1 55 0xFFFFFFFEF#36),
    (0x03299C14, .ldh false 38 28 0x14#36),
    (0x0B32C139, .ldhu true 11 1 0x39#36),
    (0x034C265E, .ldw false 48 38 0x5E#36),
    (0x0B554B83, .ldwu true 21 11 0xFFFFFFF83#36),
    (0x036EB0A8, .ldd false 58 48 0xFFFFFFFA8#36),
    (0x0B77D5CD, .stb true 31 21 0xFFFFFFFCD#36),
    (0x03813AF2, .sth false 4 58 0xFFFFFFFF2#36),
    (0x0B9A5F17, .stw true 41 31 0x17#36),
    (0x03A3843C, .std false 14 4 0x3C#36),
    (0x0BB033A9, .pfs true 51 0xFFFFFFFA9#36),
    (0x04038601, .ald false 0#2 14 6 1#2),
    (0x0C5033AE, .ast true 1#2 51 43 2#2),
    (0x04A6102A, .aadd false 2#2 24 16 10 2#2),
    (0x0CFF75BF, .amaxu true 3#2 61 53 47 3#2),
    (0x05089A50, .aor false 0#2 34 26 20 0#2),
    (0x0D51FFE5, .aand true 1#2 7 63 57 1#2),
    (0x05AB247A, .aswp false 2#2 44 36 30 2#2),
    (0x0DF4490F, .acas true 3#2 17 9 3 3#2)] : List (Nat × Instr)), decodeTableWord 32 e.1 = some e.2 := by decide

/-- R141 to R156. -/
theorem test_decode_control : ∀ e ∈ ([
    (0x06000A40, .br false 0xA40#42),
    (0x0E194B1B, .bnz true 37 0xB1B#42),
    (0x06228B40, .bz false 10 0xB40#42),
    (0x0E300AAF, .call true 0xAAF#42),
    (0x06401400, .jr false 20),
    (0x0E500AF9, .trap true 0xAF9#14),
    (0x06600000, .brk false),
    (0x0E700000, .halt true),
    (0x07000000, .drain false 0#2),
    (0x0F100001, .drainw true 1#2),
    (0x0727A802, .xlt false 30 40 2#2),
    (0x0F37C000, .hinv true 31),
    (0x074F0200, .hrd false 60 2),
    (0x0F58573C, .wadr true 33 23 15)] : List (Nat × Instr)), decodeTableWord 32 e.1 = some e.2 := by decide

/-- R159 to R163. -/
theorem test_decode_special : ∀ e ∈ ([
    (0x07618CFC, .srd false 6 0xCFC#14),
    (0x0F7ACD21, .swr true 43 0xD21#14),
    (0x07840D46, .tsr false 16 0xD46#14),
    (0x0F903500, .snapst true 53),
    (0x07A01A00, .snapld false 26),
    (0x0FB00000, .snapr true),
    (0x07C00000, .rft false)] : List (Nat × Instr)), decodeTableWord 32 e.1 = some e.2 := by decide

/-- R172 to R176. -/
theorem test_decode_vector_arithmetic : ∀ e ∈ ([
    (0x1804FFB9, .vadd true 9 63 55 1),
    (0x103748E6, .vsub false 46 36 28 6),
    (0x1849920B, .vmul true 19 9 1 3),
    (0x107C5D30, .vfma false 56 46 38 0),
    (0x188EA65D, .vfms true 29 19 11 5),
    (0x10A17182, .vmax false 2 56 48 2),
    (0x18D3BAAF, .vmin true 39 29 21 7),
    (0x10E605D4, .vand false 12 2 58 4),
    (0x1918CEF9, .vor true 49 39 31 1),
    (0x112B1826, .vxor false 22 12 4 6),
    (0x195DE34B, .vshl true 59 49 41 3),
    (0x11702C70, .vshr false 32 22 14 0),
    (0x1982F79D, .vsar true 5 59 51 5),
    (0x11A2C0C2, .vceq false 5 32 24 2),
    (0x19C30BEF, .vclt true 6 5 61 7),
    (0x11E3D514, .vcle false 7 42 34 4),
    (0x1A0C9E39, .vadds true 25 15 7 1),
    (0x123F6966, .vmuls false 62 52 44 6),
    (0x1A51B28B, .vfmas true 35 25 17 3),
    (0x12647DB0, .vmaxs false 8 62 54 0),
    (0x1A96C6DD, .vmins true 45 35 27 5),
    (0x12A90040, .vsplat false 18 8 0),
    (0x1ADBDB2F, .vsld true 55 45 37 7),
    (0x12EE2454, .vslu false 28 18 10 4)] : List (Nat × Instr)), decodeTableWord 32 e.1 = some e.2 := by decide

/-- R179 to R182. -/
theorem test_decode_vector_memory : ∀ e ∈ ([
    (0x1B00EF79, .vld true 1 55 0x2F#34 1),
    (0x133338A6, .vst false 38 28 0x14#34 6),
    (0x1B4583CB, .vgth true 11 1 57 3),
    (0x13784CF0, .vsct false 48 38 30 0),
    (0x1B829618, .vldk true 5 11 3#34),
    (0x13A56140, .vstk false 10 48 0x28#34)] : List (Nat × Instr)), decodeTableWord 32 e.1 = some e.2 := by decide

/-- R177 to R196. -/
theorem test_decode_vector_rearrange : ∀ e ∈ ([
    (0x1BCF80AD, .vmov true 31 21 5),
    (0x14027402, .vrsum false 4 58 2),
    (0x1C34BE07, .vrmax true 41 31 7),
    (0x14470804, .vrmin false 14 4 4),
    (0x1C79D201, .vrcnt true 51 41 1),
    (0x148C1C30, .vrsc false 24 14 6 0),
    (0x1CBEE603, .vrmean true 61 51 3),
    (0x15113082, .vperm false 34 24 16 2),
    (0x1D23FBAF, .vzip true 7 61 53 7),
    (0x155644D4, .vuzp false 44 34 26 4),
    (0x1D688FF9, .vmrg true 17 7 63 1),
    (0x159B5804, .vcmpr false 54 44 4),
    (0x1DAD8001, .viota true 27 1),
    (0x15C06D70, .vext false 0 54 0x2E#34),
    (0x1DF2B698, .vins true 37 27 0x13#34),
    (0x16050000, .vbexp false 10 0 0),
    (0x1E37CAEF, .vbq true 47 37 29 7),
    (0x164A1414, .vbdq false 20 10 2 4),
    (0x1E649E38, .vkand true 9 15 7),
    (0x16870860, .vkor false 14 4 12),
    (0x1EA19200, .vknot true 3 9)] : List (Nat × Instr)), decodeTableWord 32 e.1 = some e.2 := by decide

/-- R198 to R206. -/
theorem test_decode_vector_functions : ∀ e ∈ ([
    (0x17F43C06, .vabs false 40 30 6),
    (0x1FE6860B, .vneg true 13 3 3),
    (0x17F95010, .vrcp false 50 40 0),
    (0x1FEB9A1D, .vrsq true 23 13 5),
    (0x17FE6422, .vsqrt false 60 50 2),
    (0x1FF0AE2F, .vexp2 true 33 23 7),
    (0x17E37834, .vlog2 false 6 60 4),
    (0x1FF5C239, .vtanh true 43 33 1),
    (0x17E80C46, .vsig false 16 6 6),
    (0x1FFAD64B, .vgelu true 53 43 3),
    (0x17ED2050, .vflr false 26 16 0),
    (0x1FFFEA5D, .vrnd true 63 53 5),
    (0x17F23462, .vcvt false 36 26 2),
    (0x1FE4FE6F, .vm8e true 9 63 7),
    (0x17F74874, .vm8d false 46 36 4),
    (0x1FE99279, .vclz true 19 9 1),
    (0x17FC5C86, .vpopc false 56 46 6),
    (0x1FEE868B, .vk2v true 29 3 3),
    (0x17E17090, .vv2k false 2 56 0),
    (0x1FF3809D, .vclr true 39 5)] : List (Nat × Instr)), decodeTableWord 32 e.1 = some e.2 := by decide

/-- R209 to R226. -/
theorem test_decode_array : ∀ e ∈ ([
    (0x20000000, .mnop false),
    (0x28717A00, .mbt true 49 7#4 true false true),
    (0x20800006, .mtune false 6),
    (0x28C00034, .mgain true true 0x14#5),
    (0x210018D6, .msplit false false 0x18D6#16),
    (0x29454000, .mrd true 5 1#2 0#2),
    (0x21AA0000, .mrep false 42),
    (0x29C00000, .mcal true),
    (0x22400000, .munc false),
    (0x2A990000, .mstat true 25),
    (0x22C00000, .mabt false)] : List (Nat × Instr)), decodeTableWord 32 e.1 = some e.2 := by decide

/-- R82 to R242. -/
theorem test_decode_copy_engine : ∀ e ∈ ([
    (0x38000000, .cnop true),
    (0x3031DB50, .ccpy false 8 14 54 true false 2#2 false),
    (0x38578000, .cres true 0x2F#6),
    (0x30694000, .cpld false 18 8),
    (0x389BE800, .cplt true 55 13),
    (0x30B84500, .cls false 12 2 10),
    (0x38C3BDE0, .clsf true 1 55 47),
    (0x30F338A0, .cwbr false 38 28 20),
    (0x390583C8, .cinv true 11 1 57),
    (0x31384CF0, .cwbi false 48 38 30),
    (0x394B61BC, .crdx true 5 11 3 false true 3#2 true),
    (0x31741440, .cagt false 10 0 40 true false 0#2 false),
    (0x399EA6EC, .cbct true 15 5 13 true true 1#2 true),
    (0x31A9D000, .cmap false 4 58),
    (0x39D4BE00, .cunm true 41 31),
    (0x31F40000, .cabt false 0x28#6)] : List (Nat × Instr)), decodeTableWord 32 e.1 = some e.2 := by decide

/-- R83 to R266. -/
theorem test_decode_yard : ∀ e ∈ ([
    (0x48000000, .ynop true),
    (0x402A1A00, .yfmt false 5 0xD#8),
    (0x485E8000, .yfmts true 61),
    (0x40653000, .yscl false 2 0x98#8),
    (0x4883FA00, .yscls true 7 61),
    (0x40A0ED00, .ywb false 0 7 26),
    (0x48C23800, .yldw true 1 7),
    (0x40E16000, .ystw false 0 44),
    (0x49162000, .ybnk true 0xB#4 1#4),
    (0x41204001, .ywait false 0 0x4001#16),
    (0x4952FFFF, .ypost true 37 0x7FFF#16),
    (0x4170A021, .ypostc false 0x10A#9 0 0x21#16),
    (0x499C0000, .ybar true 7),
    (0x41AA1E0A, .yloop false 20 0x1E0A#15 0#14 0#14),
    (0x49C00000, .ypark true),
    (0x41F00000, .ypri false 2#2),
    (0x4A01F200, .yflr true 3 57),
    (0x42343C00, .yflw false 40 30)] : List (Nat × Instr)), decodeTableWord 32 e.1 = some e.2 := by decide

end Sys2Proof.Tests
end

namespace Sys2Proof.Machine

/-! s0 and s63 (R15). -/

/-- A result of latency 1 for s0 is discarded (R15). -/
@[simp] theorem State.wS_zero (s : State) (x : Word) : s.wS 0 x = s := rfl

/-- A producer of s0 does not start (R15). -/
@[simp] theorem State.produceS_zero (s : State) (n : Nat) (x : Word) : s.produceS 0 n x = s := rfl

/-- s0 carries no poison mark (R15, R134). -/
@[simp] theorem Car.isPoisoned_zero (c : Car) : c.isPoisoned (.s 0) = false := rfl

/-- An S instruction that computes a value into s0 from operands that can be read changes nothing, whatever its latency (R15). -/
theorem exec_compute_zero {i : Instr} {s : State} {te : Bool} {srcs : List SReg} {lat : Nat} {x : Word}
    (slot : slotOf i s = some (s.compute te 0 srcs lat x)) (reads : s.Readable (srcs.map Opnd.s)) : exec i s = .next s := by
  have passes : (s.compute te 0 srcs lat x).plan.Passes s := planS_passes te reads (by simp)
  have idle : (s.compute te 0 srcs lat x).eff s = s := ite_self s
  rw [exec_passes slot passes, idle]

/-- A target below 0x2_0000 lies in instruction memory (R143). -/
theorem targetCause_of_lt {t : Word} (h : t.toNat < 0x20000) : targetCause t = none := by
  have : t.extractLsb' 17 47 = 0#47 := by
    apply BitVec.eq_of_toNat_eq
    rw [BitVec.extractLsb'_toNat, Nat.shiftRight_eq_div_pow, Nat.div_eq_of_lt h]
    rfl
  simp [targetCause, this]

/-- Where a relative branch goes, in words of the bundle's address (R141). -/
theorem State.branchTarget_eq (s : State) (off : BitVec 42) :
    s.branchTarget off = s.src.pc.setWidth 64 + off.signExtend 64 * 4#64 := by
  rw [State.branchTarget, BitVec.shiftLeft_eq_mul_twoPow]
  rfl

/-- A CALL whose target lies in instruction memory writes the address after its bundle to s63 and jumps (R141, R143). -/
theorem exec_call_in_range {s : State} {te : Bool} {off : BitVec 42} (room : s.Room [.s 63])
    (near : (s.branchTarget off).toNat < 0x20000) :
    exec (.call te off) s = .next ((s.wS 63 s.car.seqPc).mapCar (fun c => c.jump (s.branchTarget off))) := by
  have passes : (slotCall te off s).plan.Passes s :=
    { planS_passes te (srcs := []) (dsts := [63]) (by simp) room with cause := targetCause_of_lt near }
  exact exec_passes rfl passes

/-! Posts to a flag (R27, R28). -/

/-- An event at the focused car acts on the state as it stands. -/
theorem State.at_focused (s : State) (f : State → State) : s.at s.car.ref f = .next (f s) := by
  simp [State.at, State.atCar]

/-- FLAG_POST at a car that runs posts the sum of the cycle's posts (R27). -/
theorem exec_flagPost_running {s : State} (runs : s.car.life = .running) (f : FlagIx) (ns : List (BitVec 16)) :
    exec (.flagPost s.car.ref f ns) s = .next (s.mapCar (fun c => c.post f (ns.foldl (fun m x => m + x.toNat) 0))) := by
  refine (State.at_focused s _).trans ?_
  simp [runs]

/-- What a post leaves in its flag: the cycle's sum saturates first, and what a YWAIT of the cycle took is gone from that (R27, R28). -/
theorem Car.post_flag_toNat (c : Car) (f : FlagIx) (n : Nat) :
    (c.post f n).regs.f[f].toNat = min 65535 (c.regs.f[f].toNat + (c.tookOf f).toNat + n) - (c.tookOf f).toNat := by
  have took := (c.tookOf f).isLt
  simp only [Car.post]
  split
  · rename_i fits
    simp only [Fin.getElem_fin, Vector.getElem_set_self] at fits ⊢
    rw [BitVec.toNat_sub_of_le (by rw [BitVec.le_def, BitVec.toNat_ofNat]; omega), BitVec.toNat_ofNat]
    omega
  · rename_i full
    simp only [Fin.getElem_fin, Vector.getElem_set_self] at full ⊢
    rw [BitVec.toNat_sub_of_le (by rw [BitVec.le_def, BitVec.toNat_ofNat]; omega), BitVec.toNat_ofNat]
    omega

/-- A YWAIT that finds its count takes it at issue, and the car keeps for this cycle what was taken (R28, R258). -/
theorem exec_ywait_taken {s : State} {f : FlagIx} {n : BitVec 16} (te : Bool) (enough : n.toNat ≤ s.car.regs.f[f].toNat) :
    exec (.ywait te f n) s = .next (s.mapCar (fun c => { c.takeCount f n with took := some (f, n) })) := by
  have passes : (slotYwait te f n s).plan.Passes s := planS_passes te (srcs := []) (dsts := []) (by simp) (by simp)
  exact (exec_passes rfl passes).trans (congrArg _ (if_pos enough))

end Sys2Proof.Machine

namespace Sys2Proof.Proofs

open Sys2Proof.Machine

/-- Settles O53: every write to s0, also that of a producer, is the identity, and s63 is written like any other register. -/
theorem scalarZeroAndLink : Obligations.ScalarZeroAndLink := by
  unfold Obligations.ScalarZeroAndLink
  intro te w a b imm off x n s t
  refine ⟨s.src.rS_zero, s.src.isFull_zero, s.src.isPoisoned_zero, s.wS_zero x, s.produceS_zero n x, ?_, ?_, ?_, ?_⟩
  · intro ab
    have reads_a : s.Readable [.s a] := by simp_all
    have reads_0ab : s.Readable [.s 0, .s a, .s b] := by simp_all
    simp only [List.forall_mem_cons]
    exact ⟨fun _ => exec_compute_zero rfl ab, fun _ => exec_compute_zero rfl ab, fun _ => exec_compute_zero rfl ab,
      fun _ => exec_compute_zero rfl ab, fun _ => exec_compute_zero rfl ab, fun _ => exec_compute_zero rfl reads_0ab,
      fun _ => exec_compute_zero rfl ab, fun _ => exec_compute_zero rfl ab, fun _ => exec_compute_zero rfl reads_a,
      fun _ => exec_compute_zero rfl reads_a, fun _ => exec_compute_zero rfl s.readable_nil, nofun⟩
  · intro room near
    have target : s.branchTarget off = t := s.branchTarget_eq off
    refine ⟨_, exec_call_in_range room (target ▸ near), ?_, ?_⟩
    · calc ((s.car.wS 63 s.car.seqPc).jump (s.branchTarget off)).rS 63
          = (s.car.wS 63 s.car.seqPc).rS 63 := rfl
        _ = s.car.seqPc := s.car.rS_wS_self _ (by decide)
        _ = s.car.seqPc.setWidth 64 := (BitVec.setWidth_eq _).symm
    · rw [target]; rfl
  · exact s.car.rS_wS_self x (by decide)
  · exact fun r hr => s.car.rS_wS_other x hr

/-- A car runs and its flag 0 is full. -/
def flagFull : State :=
  State.reset.mapCar (fun c => { c with life := .running, regs := { c.regs with f := c.regs.f.set 0 0xFFFF#16 } })

/-- A YWAIT of this cycle has taken 1 from that flag. -/
def flagFullTaken : State := flagFull.mapCar (fun c => { c.takeCount 0 1#16 with took := some (0, 1#16) })

/-- The model itself goes from the one to the other. -/
theorem ywait_flagFull : exec (.ywait false 0 1#16) flagFull = .next flagFullTaken := exec_ywait_taken false (by decide)

/-- Refutes O29: where a YWAIT has taken 1 from a full flag at issue, a post of 1 in the same cycle comes before what was taken (R28), so
the flag saturates at 65,535 and holds 65,534 at the end; the statement, which does not speak of what was taken, has 65,535. -/
theorem not_flagsWaitsAndArrivals : ¬ Obligations.FlagsWaitsAndArrivals := by
  unfold Obligations.FlagsWaitsAndArrivals
  intro h
  obtain ⟨-, posted, -⟩ := h 0 [1#16] 0 0 flagFullTaken
  obtain ⟨t, ht, -, -, count, -⟩ := posted (by decide)
  rw [exec_flagPost_running rfl] at ht
  cases ht
  have left : (flagFullTaken.car.post 0 1).regs.f[(0 : FlagIx)].toNat = 65534 := by
    rw [Car.post_flag_toNat]
    decide
  exact absurd (left.symm.trans count) (by decide)

end Sys2Proof.Proofs

namespace Sys2Proof.Machine

open Sys2Proof.Claims

/-! Results of S instructions (R120, R127, R129). -/

section
variable {i : Instr} {s : State} {te : Bool} {srcs : List SReg} {d a b : SReg} {x y imm : Word}

/-- An operation of latency 1 whose operands can be read writes its value to sd. -/
theorem exec_compute_one (slot : slotOf i s = some (s.compute te d srcs 1 x)) (reads : s.Readable (srcs.map Opnd.s))
    (room : s.Room [.s d]) (value : x = y) : exec i s = .next (s.wS d y) :=
  value ▸ exec_passes slot (planS_passes te reads room)

/-- An operation of latency 3 whose operands can be read starts a producer of sd. -/
theorem exec_compute_three (slot : slotOf i s = some (s.compute te d srcs 3 x)) (reads : s.Readable (srcs.map Opnd.s))
    (room : s.Room [.s d]) (value : x = y) : exec i s = .next (s.produceS d 3 y) :=
  value ▸ exec_passes slot (planS_passes te reads room)

/-- A slot whose bundle does not go does what the verdict says (R88). -/
theorem exec_settles {o : SlotOp} {v : Verdict} (slot : slotOf i s = some o) (verdict : s.verdict [o.plan] = v) (stops : v ≠ .go) :
    exec i s = .next (s.settle v) := by
  rw [exec_slot slot, SlotOp.run, State.issue, verdict]
  cases v with
  | go => exact absurd rfl stops
  | wait | trap | doom | walk => rfl

/-- A slot that is illegal traps whatever its operands hold (R71, R88). -/
theorem exec_illegal {o : SlotOp} (slot : slotOf i s = some o) (illegal : o.plan.illegal = true) :
    exec i s = .next (s.preciseTrap (s.here .illegalInsn)) :=
  exec_settles (v := .trap (s.here .illegalInsn)) slot (by simp [State.verdict, illegal]) nofun

/-- A division finds its unit busy exactly while the divider is held (R92, R127). -/
theorem State.unitsBusy_divide (s : State) (te : Bool) (d a b : SReg) (x : Word) :
    s.unitsBusy [(s.divide te d a b x).plan] = decide (s.now < s.divBusy) := by
  simp [State.unitsBusy, State.divide]

/-- A division on a free divider starts its producer and holds the divider for 24 cycles (R127). -/
theorem exec_divide_free (slot : slotOf i s = some (s.divide te d a b x)) (reads : s.Readable [.s a, .s b]) (room : s.Room [.s d])
    (free : s.divBusy ≤ s.now) (value : x = y) : exec i s = .next (divided s d y) := by
  have passes : (s.divide te d a b x).plan.Passes s :=
    { planS_passes te (srcs := [a, b]) (dsts := [d]) reads room with
      units := (s.unitsBusy_divide te d a b x).trans (decide_eq_false (Nat.not_lt.mpr free)) }
  exact value ▸ exec_passes slot passes

/-- A division whose divider is held stays at issue (R88, R92). -/
theorem exec_divide_held (slot : slotOf i s = some (s.divide te d a b x)) (held : s.now < s.divBusy) :
    exec i s = .next s.stays := by
  have busy : s.unitsBusy [(s.divide te d a b x).plan] = true := (s.unitsBusy_divide te d a b x).trans (decide_eq_true held)
  have verdict : s.verdict [(s.divide te d a b x).plan] = .wait := by
    rw [State.verdict, busy]
    rfl
  exact exec_settles slot verdict nofun

/-- A shift by an immediate of 0 to 63 writes its value to sd (R129). -/
theorem exec_shiftImm (slot : slotOf i s = some (s.shiftImm te d a imm x)) (reads : s.Readable [.s a]) (room : s.Room [.s d])
    (small : imm.toNat < 64) (value : x = y) : exec i s = .next (s.wS d y) := by
  have passes : (s.shiftImm te d a imm x).plan.Passes s :=
    { planS_passes te (srcs := [a]) (dsts := [d]) reads room with legal := by simp [State.shiftImm, wfShift, small] }
  exact value ▸ exec_passes slot passes

/-- A shift by any other immediate raises ILLEGAL_INSN (R129). -/
theorem exec_shiftImm_outside (slot : slotOf i s = some (s.shiftImm te d a imm x)) (large : 64 ≤ imm.toNat) :
    exec i s = .next (s.preciseTrap (s.here .illegalInsn)) :=
  exec_illegal slot (by simp [State.shiftImm, wfShift, large])

end

/-! Values of the integer operations (R125 to R130). -/

/-- An operation at the width that md names has the value of R125, or of R126, when it has it at each width. -/
theorem atWidth_eq_atMd {w : Bool} {f : (n : Nat) → BitVec n → BitVec n → BitVec n} {x y v : Word} {u : BitVec 32}
    (wide : f 64 x y = v) (narrow : f 32 (x.setWidth 32) (y.setWidth 32) = u) : atWidth w f x y = atMd w v u := by
  rw [atWidth, atMd, wide, narrow]

/-- The high half of an integer taken at twice the width. -/
theorem extractLsb'_high_ofInt (n : Nat) (v : Int) :
    (BitVec.ofInt (n + n) v).extractLsb' n n = BitVec.ofInt n (v / 2 ^ n) := by
  apply BitVec.eq_of_toInt_eq
  have low : (((v % ((2 ^ (n + n) : Nat) : Int)).toNat >>> n : Nat) : Int) = v % (2 ^ n * 2 ^ n) / 2 ^ n := by
    rw [Nat.shiftRight_eq_div_pow, Nat.pow_add]
    push_cast
    rw [Int.toNat_of_nonneg (Int.emod_nonneg _ (by positivity))]
  have high : v / 2 ^ n = v % (2 ^ n * 2 ^ n) / 2 ^ n + (2 ^ n : Nat) * (v / (2 ^ n * 2 ^ n)) := by
    push_cast
    conv_lhs => rw [← Int.emod_add_mul_ediv v (2 ^ n * 2 ^ n), mul_assoc]
    exact Int.add_mul_ediv_left _ _ (by positivity)
  rw [BitVec.toInt_extractLsb', BitVec.toNat_ofInt, BitVec.toInt_ofInt, low, high, Int.add_mul_bmod_self_left]

/-- MULH: the high half of the product of the sign-extended operands. -/
theorem opMulh_eq_highHalf (n : Nat) (x y : BitVec n) :
    opMulh n x y = highHalf n (x.signExtend (n + n)) (y.signExtend (n + n)) :=
  calc opMulh n x y
      = (BitVec.ofInt (n + n) (x.toInt * y.toInt)).extractLsb' n n := (extractLsb'_high_ofInt n _).symm
    _ = highHalf n (x.signExtend (n + n)) (y.signExtend (n + n)) := by rw [BitVec.ofInt_mul]; rfl

/-- MULHU: the high half of the product of the zero-extended operands. -/
theorem opMulhu_eq_highHalf (n : Nat) (x y : BitVec n) :
    opMulhu n x y = highHalf n (x.zeroExtend (n + n)) (y.zeroExtend (n + n)) := by
  have extended (z : BitVec n) : z.zeroExtend (n + n) = BitVec.ofInt (n + n) (z.toNat : Int) := by
    rw [BitVec.ofInt_natCast]
    exact BitVec.eq_of_toNat_eq (by simp)
  calc opMulhu n x y
      = BitVec.ofInt n ((x.toNat : Int) * (y.toNat : Int) / 2 ^ n) := by
        rw [opMulhu, ← BitVec.ofInt_natCast]
        push_cast
        rfl
    _ = (BitVec.ofInt (n + n) ((x.toNat : Int) * (y.toNat : Int))).extractLsb' n n := (extractLsb'_high_ofInt n _).symm
    _ = highHalf n (x.zeroExtend (n + n)) (y.zeroExtend (n + n)) := by rw [BitVec.ofInt_mul, ← extended, ← extended]; rfl

/-- DIV: the quotient truncated toward 0; the overflow case wraps to the most negative value (R127). -/
theorem opDiv_eq_quotS (n : Nat) (x y : BitVec n) : opDiv n x y = quotS n x y := by
  have quotient : x.sdiv y = BitVec.ofInt n (x.toInt.tdiv y.toInt) := by
    apply BitVec.eq_of_toInt_eq
    rw [BitVec.toInt_sdiv, BitVec.toInt_ofInt]
  rw [opDiv, quotS, quotient]

/-- REM: the remainder has the dividend's sign (R127). -/
theorem opRem_eq_remS (n : Nat) (x y : BitVec n) : opRem n x y = remS n x y := by
  have remainder : x.srem y = BitVec.ofInt n (x.toInt.tmod y.toInt) := by rw [← BitVec.toInt_srem, BitVec.ofInt_toInt]
  rw [opRem, remS, remainder]

/-- DIVU: the quotient of the operands as naturals (R127). -/
theorem opDivu_eq_quotU (n : Nat) (x y : BitVec n) : opDivu n x y = quotU n x y := by
  rw [opDivu, quotU, BitVec.udiv_def]

/-- REMU: the remainder of the operands as naturals (R127). -/
theorem opRemu_eq_remU (n : Nat) (x y : BitVec n) : opRemu n x y = remU n x y := by
  rw [opRemu, remU, BitVec.umod_def]

/-- The value of a compare is 1 where its test decides what it compares. -/
theorem flag_eq_truth {n : Nat} {c : Bool} {p : Prop} [Decidable p] (test : c = true ↔ p) : flag n c = truth n p := by
  rw [flag, truth, if_congr test rfl rfl]

/-- HADR: the handle in bits 63 to 59, the offset below (R130). -/
theorem hadr_eq_ofNat (h : Fin 32) (x : Word) : hadr h x = BitVec.ofNat 64 (h.val * 2 ^ 59 + x.toNat % 2 ^ 59) := by
  apply BitVec.eq_of_toNat_eq
  have offset : x.toNat % 2 ^ 59 < 2 ^ 59 := Nat.mod_lt _ (by decide)
  have fits : h.val * 2 ^ 59 + x.toNat % 2 ^ 59 < 2 ^ 64 := by omega
  rw [hadr, BitVec.toNat_append, BitVec.toNat_ofFin, BitVec.extractLsb'_toNat, Nat.shiftRight_zero, BitVec.toNat_ofNat,
    Nat.mod_eq_of_lt fits, ← Nat.shiftLeft_add_eq_or_of_lt offset, Nat.shiftLeft_eq]

end Sys2Proof.Machine

namespace Sys2Proof.Proofs

open Sys2Proof.Machine

/-- The products and the divisions (R125 to R127). -/
theorem multiplyAndDivideResults : Sys2Proof.Claims.MultiplyAndDivideResults := by
  intro te w d a b s reads room
  refine ⟨?_, ?_, ?_, fun free => ⟨?_, ?_, ?_, ?_⟩, fun held => ⟨?_, ?_, ?_, ?_⟩⟩
  · exact exec_compute_three rfl reads room rfl
  · exact exec_compute_three rfl reads room (atWidth_eq_atMd (opMulh_eq_highHalf 64 _ _) (opMulh_eq_highHalf 32 _ _))
  · exact exec_compute_three rfl reads room (atWidth_eq_atMd (opMulhu_eq_highHalf 64 _ _) (opMulhu_eq_highHalf 32 _ _))
  · exact exec_divide_free rfl reads room free (atWidth_eq_atMd (opDiv_eq_quotS 64 _ _) (opDiv_eq_quotS 32 _ _))
  · exact exec_divide_free rfl reads room free (atWidth_eq_atMd (opDivu_eq_quotU 64 _ _) (opDivu_eq_quotU 32 _ _))
  · exact exec_divide_free rfl reads room free (atWidth_eq_atMd (opRem_eq_remS 64 _ _) (opRem_eq_remS 32 _ _))
  · exact exec_divide_free rfl reads room free (atWidth_eq_atMd (opRemu_eq_remU 64 _ _) (opRemu_eq_remU 32 _ _))
  all_goals exact exec_divide_held rfl held

/-- The immediate forms (R128 to R130). -/
theorem immediateResults : Sys2Proof.Claims.ImmediateResults := by
  intro te d a imm h s reads room
  refine ⟨?_, ?_, ?_, ?_, ?_, ?_, ?_, ?_, ?_, ?_, ?_, fun small => ⟨?_, ?_, ?_⟩, fun large => ⟨?_, ?_, ?_⟩⟩
  · exact exec_compute_one rfl reads room rfl
  · exact exec_compute_one rfl reads room rfl
  · exact exec_compute_one rfl reads room rfl
  · exact exec_compute_one rfl reads room rfl
  · exact exec_compute_three rfl reads room rfl
  · exact exec_compute_one rfl reads room (flag_eq_truth beq_iff_eq)
  · exact exec_compute_one rfl reads room (flag_eq_truth bne_iff_ne)
  · exact exec_compute_one rfl reads room (flag_eq_truth BitVec.slt_iff_toInt_lt)
  · exact exec_compute_one rfl reads room (flag_eq_truth BitVec.ult_iff_lt)
  · exact exec_compute_one rfl s.readable_nil room rfl
  · exact exec_compute_one rfl reads room (hadr_eq_ofNat h _)
  · exact exec_shiftImm rfl reads room small (by rw [opShl, Nat.mod_eq_of_lt small])
  · exact exec_shiftImm rfl reads room small (by rw [opShr, Nat.mod_eq_of_lt small])
  · exact exec_shiftImm rfl reads room small (by rw [opSar, Nat.mod_eq_of_lt small])
  all_goals exact exec_shiftImm_outside rfl large

/-- Settles O2: each instruction runs its slot, and the slot's value is the one that R125 to R130 give at its width. -/
theorem multiplyDivideAndImmediates : Obligations.MultiplyDivideAndImmediates := by
  unfold Obligations.MultiplyDivideAndImmediates
  exact ⟨multiplyAndDivideResults, immediateResults⟩

end Sys2Proof.Proofs

namespace Sys2Proof.Machine

open Sys2Proof.Claims

/-! Slots of a vector unit (R88, R92). -/

/-- A vector slot whose unit is ready is not held by it. -/
theorem State.VecReady.unitsBusy {s : State} (ready : s.VecReady) {p : Plan} (vec : p.unit = .vec) : s.unitsBusy [p] = false := by
  obtain ⟨running, free, -⟩ := ready
  simp [State.unitsBusy, vec, running, free]

/-- A slot that reads fewer sources goes when one with more of them does. -/
theorem vecGoes_of_subset {s : State} {srcs more dsts : List Opnd} (goes : VecGoes s more dsts) (fewer : srcs ⊆ more) :
    VecGoes s srcs dsts := by
  obtain ⟨ready, reads, room⟩ := goes
  exact ⟨ready, fun o ho => reads o (fewer ho), room⟩

/-- A V slot whose unit is ready and whose operands are full has its effect and takes the unit. -/
theorem exec_vslot {i : Instr} {s : State} {te : Bool} {k : KLow} {srcs dsts : List Opnd} {busy : Nat} {eff : State → State}
    (slot : slotOf i s = some (s.vslot te k srcs dsts true busy eff)) (goes : VecGoes s (srcs ++ [.k k.toK]) dsts) :
    exec i s = .next ((eff s).takeVec busy) := by
  obtain ⟨ready, reads, room⟩ := goes
  have ⟨_, _, typed⟩ := ready
  have passes : (s.vslot te k srcs dsts true busy eff).plan.Passes s :=
    { legal := by simp [State.vslot, typed]
      allowed := rfl
      units := ready.unitsBusy rfl
      still := rfl
      reads := reads
      room := room
      cause := rfl
      spec := rfl
      mapped := rfl }
  exact exec_passes slot passes

/-! Elements read by their number (R37, R168). -/

/-- Past the last element there are no bits. -/
theorem lane_of_count_le {t : ETy} {v : VWord} {i : Nat} (past : t.count ≤ i) : lane t v i = 0 := by
  have bits : 32768 ≤ t.bits * i := (bits_count t).symm.le.trans (Nat.mul_le_mul_left _ past)
  rw [lane, Nat.div_eq_of_lt (BitVec.toNat_lt_twoPow_of_le bits), Nat.zero_mod]

/-- An element is a pattern of the type's width. -/
theorem lane_lt (t : ETy) (v : VWord) (i : Nat) : lane t v i < 2 ^ t.bits := Nat.mod_lt _ (Nat.two_pow_pos _)

/-- The elements of a register are its lanes, also past the last one. -/
theorem elems_getD (t : ETy) (v : VWord) (i : Nat) : (elems t v).getD i 0 = lane t v i := by
  rcases Nat.lt_or_ge i t.count with inside | past
  · have h : i < (elems t v).length := by rwa [elems_length]
    rw [List.getD_eq_getElem _ _ h, elems_getElem]
  · rw [List.getD_eq_default _ _ (by rwa [elems_length]), lane_of_count_le past]

@[simp] theorem State.eA_getD (s : State) (r : VReg) (i : Nat) : (s.eA r).getD i 0 = laneA s r i := elems_getD _ _ _

@[simp] theorem State.eB_getD (s : State) (r : VReg) (i : Nat) : (s.eB r).getD i 0 = laneB s r i := elems_getD _ _ _

@[simp] theorem State.eA_length (s : State) (r : VReg) : (s.eA r).length = s.fmt.ety.count := elems_length _ _

@[simp] theorem State.eB_length (s : State) (r : VReg) : (s.eB r).length = s.fmt.ety.count := elems_length _ _

@[simp] theorem State.act_length (s : State) (k : KLow) : (s.act k).length = s.fmt.ety.count := active_length _ _

theorem active_getD {n i : Nat} (k : Mask) (inside : i < n) : (active n k).getD i false = k.getLsbD i := by
  have h : i < (active n k).length := by rwa [active_length]
  rw [List.getD_eq_getElem _ _ h, active_getElem]

theorem State.act_getD {s : State} {i : Nat} (k : KLow) (inside : i < s.fmt.ety.count) : (s.act k).getD i false = on s k i :=
  active_getD _ inside

/-- An element of a list made from another. -/
theorem getD_map {α β : Type} (f : α → β) {xs : List α} {i : Nat} (inside : i < xs.length) (x : α) (y : β) :
    (xs.map f).getD i y = f (xs.getD i x) := by
  rw [List.getD_eq_getElem _ _ (by rwa [List.length_map]), List.getElem_map, List.getD_eq_getElem _ _ inside]

/-! What merging leaves (R168). -/

/-- Of merged results the active ones set their flags. -/
theorem foldl_flags_eq_merge : ∀ (bs : List Bool) (rs : List (Nat × Fl)) (os : List Nat), bs.length = os.length → rs.length = os.length →
    ∀ g : Fl, (List.range os.length).foldl (fun g i => if bs.getD i false then g ||| (rs.getD i (0, 0#8)).2 else g) g = g ||| (merge bs rs os).2
  | [], [], [], _, _, g => (BitVec.or_zero).symm
  | [], _ :: _, _, hb, hr, _ => nomatch hr.trans hb.symm
  | _ :: _, [], _, hb, hr, _ => nomatch hr.trans hb.symm
  | b :: bs, r :: rs, o :: os, hb, hr, g => by
    have rest := foldl_flags_eq_merge bs rs os (by simpa using hb) (by simpa using hr)
    rw [List.length_cons, List.range_succ_eq_map, List.foldl_cons, List.foldl_map]
    refine (rest _).trans ?_
    cases b with
    | true => exact BitVec.or_assoc _ _ _
    | false => rfl

/-- The next state of an instruction that merges its results into vd (R168). -/
theorem lanesBecome_merge {s : State} {d : VReg} {k : KLow} {lat : Nat} {rs : List (Nat × Fl)} {f : Nat → Nat × Fl}
    (length : rs.length = s.fmt.ety.count)
    (values : ∀ i < s.fmt.ety.count, (rs.getD i (0, 0#8)).1 % 2 ^ s.fmt.ety.bits = (f i).1 % 2 ^ s.fmt.ety.bits)
    (flags : ∀ i < s.fmt.ety.count, (rs.getD i (0, 0#8)).2 = (f i).2) :
    LanesBecome s (((s.writeV d (k == 0) lat (ofElems s.fmt.ety (merge (s.act k) rs (s.eA d)).1)).setFlags
      (merge (s.act k) rs (s.eA d)).2).takeVec 8) d k lat f := by
  have olds : (s.act k).length = (s.eA d).length := by simp
  have news : rs.length = (s.eA d).length := by simp [length]
  have together : (merge (s.act k) rs (s.eA d)).2 = laneFlags s k (fun i => (f i).2) := by
    have merged := foldl_flags_eq_merge _ _ _ olds news 0#8
    rw [BitVec.zero_or, s.eA_length] at merged
    rw [← merged, laneFlags]
    refine List.foldl_ext _ _ _ fun g i hi => ?_
    have inside := List.mem_range.mp hi
    rw [State.act_getD k inside, flags i inside]
  refine ⟨_, by rw [together], fun i inside => ?_⟩
  rw [lane_ofElems _ _ (by rw [merge_length, s.eA_length]), merge_getElem _ _ _ olds news i (by rwa [s.eA_length]),
    State.act_getD k inside, s.eA_getD]
  cases on s k i with
  | true => exact values i inside
  | false => exact Nat.mod_mod _ _

section
variable {j : Instr} {s : State} {te : Bool} {d a b : VReg} {k : KLow} {srcs : List Opnd} {xs : List Nat} {f : Nat → Nat}

/-- An instruction that merges raw elements into vd: these in its active elements, and no flag (R168, R173). -/
theorem exec_raw (slot : slotOf j s = some (s.vmerge te d k 12 srcs true (raw xs)))
    (goes : VecGoes s (srcs ++ [.k k.toK]) [s.oA d]) (length : xs.length = s.fmt.ety.count)
    (values : ∀ i < s.fmt.ety.count, xs.getD i 0 % 2 ^ s.fmt.ety.bits = f i % 2 ^ s.fmt.ety.bits) :
    ∃ t, exec j s = .next t ∧ LanesBecome s t d k 12 (fun i => (f i, 0#8)) := by
  have element : ∀ i < s.fmt.ety.count, (raw xs).getD i (0, 0#8) = (xs.getD i 0, 0#8) := fun i inside =>
    getD_map _ (by rwa [length]) 0 _
  refine ⟨_, exec_vslot slot goes, lanesBecome_merge (by simp [raw, length]) (fun i inside => ?_) (fun i inside => ?_)⟩
  · rw [element i inside]
    exact values i inside
  · rw [element i inside]

/-- A bitwise operation or a shift: each active element has its value (R173). -/
theorem exec_vbits {o : VBit} (slot : slotOf j s = some (s.vbits o te d a b k)) (goes : VecGoes s [s.oA a, s.oB b, .k k.toK] [s.oA d])
    (value : ∀ i, o.elem s.fmt.ety.bits (laneA s a i) (laneB s b i) % 2 ^ s.fmt.ety.bits = f i % 2 ^ s.fmt.ety.bits) :
    ∃ t, exec j s = .next t ∧ LanesBecome s t d k 12 (fun i => (f i, 0#8)) := by
  refine exec_raw slot goes (by simp) fun i inside => ?_
  have pair : ((s.eA a).zip (s.eB b)).getD i (0, 0) = (laneA s a i, laneB s b i) := by
    have ha : i < (s.eA a).length := by rwa [s.eA_length]
    have hb : i < (s.eB b).length := by rwa [s.eB_length]
    rw [List.getD_eq_getElem _ _ (by simpa using inside), List.getElem_zip, ← s.eA_getD, ← s.eB_getD,
      List.getD_eq_getElem _ _ ha, List.getD_eq_getElem _ _ hb]
  rw [getD_map _ (by simpa using inside) (0, 0), pair]
  exact value i

end

/-! Shifts by any count (R173). -/

/-- A left shift by a count, taken at the width. -/
theorem VBit.elem_shl_mod (w x y : Nat) :
    VBit.shl.elem w x y % 2 ^ w = (if w ≤ y % 256 then 0 else x * 2 ^ (y % 256)) % 2 ^ w := by
  simp only [VBit.elem]
  split
  · rfl
  · exact Nat.mod_mod _ _

/-- A right shift of a pattern of the width: a count of the width or more leaves nothing of it. -/
theorem VBit.elem_shr {w x : Nat} (fits : x < 2 ^ w) (y : Nat) : VBit.shr.elem w x y = x / 2 ^ (y % 256) := by
  simp only [VBit.elem]
  split
  · rename_i wide
    exact (Nat.div_eq_of_lt (fits.trans_le (Nat.pow_le_pow_right (by decide) wide))).symm
  · rfl

/-- The value of a pattern lies within the width. -/
theorem signed_bounds {w x : Nat} (fits : x < 2 ^ w) : -(2 ^ w : Nat) ≤ signed w x ∧ signed w x < (2 ^ w : Nat) := by
  have width : (2 : Int) ^ w = (2 ^ w : Nat) := by norm_cast
  unfold signed
  split <;> omega

/-- An integer that lies within a power of two, divided by that power, has only its sign left. -/
theorem ediv_of_bounds {v : Int} {m : Nat} (low : -(m : Int) ≤ v) (high : v < m) : v / m = if v < 0 then -1 else 0 := by
  split
  · rename_i negative
    rw [Int.ediv_eq_iff_of_pos (by omega)]
    omega
  · rename_i nonnegative
    exact Int.ediv_eq_zero_of_lt (by omega) high

/-- A right shift with sign: every count of the width or more gives copies of the sign, as the width does. -/
theorem VBit.elem_sar {w x : Nat} (fits : x < 2 ^ w) (y : Nat) :
    VBit.sar.elem w x y = ((signed w x / 2 ^ (y % 256)) % 2 ^ w).toNat := by
  obtain ⟨low, high⟩ := signed_bounds fits
  have same : signed w x / (2 ^ min (y % 256) w : Int) = signed w x / 2 ^ (y % 256) := by
    rcases Nat.lt_or_ge (y % 256) w with narrow | wide
    · rw [Nat.min_eq_left narrow.le]
    · have widens : ((2 ^ w : Nat) : Int) ≤ (2 ^ (y % 256) : Nat) := by exact_mod_cast Nat.pow_le_pow_right (by decide) wide
      have atWidth := ediv_of_bounds low high
      have atCount := ediv_of_bounds (v := signed w x) (m := 2 ^ (y % 256)) (by omega) (by omega)
      push_cast at atWidth atCount
      rw [Nat.min_eq_right wide, atWidth, atCount]
  simp only [VBit.elem, pattern, same]

/-! Elements that move (R176, R189 to R191). -/

theorem slideDown_length (xs : List Nat) (c : Nat) : (slideDown xs c).length = xs.length := by
  simp only [slideDown, List.length_append, List.length_drop, List.length_replicate]
  omega

/-- A slide down brings the element `c` further up, and zero past the last. -/
theorem slideDown_getD (xs : List Nat) (c i : Nat) : (slideDown xs c).getD i 0 = xs.getD (i + c) 0 := by
  rcases Nat.lt_or_ge i (xs.drop c).length with inside | past
  · rw [slideDown, List.getD_append _ _ _ _ inside, List.getD_eq_getElem?_getD, List.getElem?_drop, Nat.add_comm,
      List.getD_eq_getElem?_getD]
  · rw [slideDown, List.getD_append_right _ _ _ _ past, List.getD_eq_default xs _ (by rw [List.length_drop] at past; omega)]
    simp

theorem slideUp_length (xs : List Nat) (c : Nat) : (slideUp xs c).length = xs.length := by
  simp [slideUp]

/-- A slide up brings the element `c` further down, and zero before the first. -/
theorem slideUp_getD {xs : List Nat} {i : Nat} (inside : i < xs.length) (c : Nat) :
    (slideUp xs c).getD i 0 = if c ≤ i then xs.getD (i - c) 0 else 0 := by
  have zeros : (List.replicate (min c xs.length) 0).length = min c xs.length := List.length_replicate
  rw [slideUp, List.getD_eq_getElem?_getD, List.getElem?_take_of_lt inside, ← List.getD_eq_getElem?_getD]
  split
  · rw [List.getD_append_right _ _ _ _ (by omega), zeros, Nat.min_eq_left (by omega)]
  · rw [List.getD_append _ _ _ _ (by omega)]
    simp

/-- VPERM takes the element that the index names, zero when there is none. -/
theorem permute_getD (xs : List Nat) {is : List Nat} {i : Nat} (inside : i < is.length) :
    (permute xs is).getD i 0 = xs.getD (is.getD i 0) 0 := by
  rw [permute, getD_map _ inside 0]
  simp [Array.getD_eq_getD_getElem?]

theorem interleave_length (xs ys : List Nat) (same : xs.length = ys.length) : (interleave xs ys).length = 2 * xs.length := by
  induction xs, ys using interleave.induct with
  | case1 x xs y ys ih =>
    have := ih (by simpa using same)
    simp only [interleave, List.length_cons, this]
    omega
  | case2 xs ys stop =>
    cases xs with
    | nil => rfl
    | cons x xs =>
      cases ys with
      | nil => simp at same
      | cons y ys => exact (stop x xs y ys rfl rfl).elim

/-- Interleaved elements: the even ones of the one list, the odd ones of the other. -/
theorem interleave_getD (xs ys : List Nat) (same : xs.length = ys.length) :
    ∀ i : Nat, (interleave xs ys).getD i 0 = if i % 2 = 0 then xs.getD (i / 2) 0 else ys.getD (i / 2) 0 := by
  induction xs, ys using interleave.induct with
  | case1 x xs y ys ih =>
    intro i
    match i with
    | 0 => rfl
    | 1 => rfl
    | i + 2 =>
      have half : (i + 2) / 2 = i / 2 + 1 := by omega
      have parity : (i + 2) % 2 = i % 2 := by omega
      rw [half, parity]
      exact ih (by simpa using same) i
  | case2 xs ys stop =>
    cases xs with
    | nil =>
      obtain rfl : ys = [] := List.length_eq_zero_iff.mp same.symm
      simp [interleave]
    | cons x xs =>
      cases ys with
      | nil => simp at same
      | cons y ys => exact (stop x xs y ys rfl rfl).elim

theorem evens_length (xs : List Nat) : (evens xs).length = (xs.length + 1) / 2 := by
  induction xs using evens.induct with
  | case1 x y xs ih =>
    simp only [evens, List.length_cons, ih]
    omega
  | case2 x => simp [evens]
  | case3 => simp [evens]

/-- The even elements. -/
theorem evens_getD (xs : List Nat) : ∀ i : Nat, (evens xs).getD i 0 = xs.getD (2 * i) 0 := by
  induction xs using evens.induct with
  | case1 x y xs ih =>
    intro i
    cases i with
    | zero => rfl
    | succ i => exact ih i
  | case2 x =>
    intro i
    cases i with
    | zero => rfl
    | succ i => rfl
  | case3 => exact fun i => rfl

theorem pick2_length : ∀ (bs : List Bool) (xs ys : List Nat), bs.length = xs.length → xs.length = ys.length →
    (pick2 bs xs ys).length = xs.length
  | [], [], _, _, _ => rfl
  | _ :: bs, _ :: xs, _ :: ys, hb, hy => congrArg (· + 1) (pick2_length bs xs ys (by simpa using hb) (by simpa using hy))

/-- VMRG takes an element of va where the mask has a one, else one of vb. -/
theorem pick2_getD : ∀ (bs : List Bool) (xs ys : List Nat), bs.length = xs.length → xs.length = ys.length →
    ∀ i : Nat, (pick2 bs xs ys).getD i 0 = if bs.getD i false then xs.getD i 0 else ys.getD i 0
  | [], [], [], _, _, _ => rfl
  | b :: bs, x :: xs, y :: ys, hb, hy, i => by
    cases i with
    | zero => rfl
    | succ i => exact pick2_getD bs xs ys (by simpa using hb) (by simpa using hy) i

/-- A register has an even number of elements. -/
theorem ETy.two_mul_half_count (t : ETy) : 2 * (t.count / 2) = t.count := by cases t <;> rfl

/-! The elements of operands that move (R176, R189, R190, R205). -/

theorem laneA_past {s : State} {r : VReg} {i : Nat} (past : s.fmt.ety.count ≤ i) : laneA s r i = 0 := lane_of_count_le past

/-- VSLD: the count may be any word. -/
theorem slideDown_eA (s : State) (a : VReg) (c i : Nat) :
    (slideDown (s.eA a) (min c s.fmt.ety.count)).getD i 0 = if i + c < s.fmt.ety.count then laneA s a (i + c) else 0 := by
  rw [slideDown_getD, s.eA_getD]
  split
  · rw [Nat.min_eq_left (by omega)]
  · exact laneA_past (by omega)

/-- VSLU: the count may be any word. -/
theorem slideUp_eA {s : State} {i : Nat} (inside : i < s.fmt.ety.count) (a : VReg) (c : Nat) :
    (slideUp (s.eA a) (min c s.fmt.ety.count)).getD i 0 = if c ≤ i then laneA s a (i - c) else 0 := by
  rw [slideUp_getD (by rwa [s.eA_length]), s.eA_getD]
  rcases Nat.le_total c s.fmt.ety.count with short | long
  · rw [Nat.min_eq_left short]
  · rw [Nat.min_eq_right long, if_neg (by omega), if_neg (by omega)]

/-- VPERM: an index past the last element gives zero. -/
theorem permute_eA_eB {s : State} {i : Nat} (inside : i < s.fmt.ety.count) (a b : VReg) :
    (permute (s.eA a) (s.eB b)).getD i 0 = if laneB s b i < s.fmt.ety.count then laneA s a (laneB s b i) else 0 := by
  rw [permute_getD _ (by rwa [s.eB_length]), s.eB_getD, s.eA_getD]
  split
  · rfl
  · exact laneA_past (by omega)

/-- VZIP. -/
theorem take_interleave_eA_eB {s : State} {i : Nat} (inside : i < s.fmt.ety.count) (a b : VReg) :
    ((interleave (s.eA a) (s.eB b)).take s.fmt.ety.count).getD i 0 = if i % 2 = 0 then laneA s a (i / 2) else laneB s b (i / 2) := by
  rw [List.getD_eq_getElem?_getD, List.getElem?_take_of_lt inside, ← List.getD_eq_getElem?_getD,
    interleave_getD _ _ (by simp), s.eA_getD, s.eB_getD]

theorem evens_length_of_count {t : ETy} {xs : List Nat} (full : xs.length = t.count) : (evens xs).length = t.count / 2 := by
  have even := t.two_mul_half_count
  rw [evens_length, full]
  omega

/-- VUZP. -/
theorem evens_eA_append_evens_eB (s : State) (a b : VReg) (i : Nat) :
    (evens (s.eA a) ++ evens (s.eB b)).getD i 0 =
      if i < s.fmt.ety.count / 2 then laneA s a (2 * i) else laneB s b (2 * (i - s.fmt.ety.count / 2)) := by
  have half := evens_length_of_count (s.eA_length a)
  split
  · rw [List.getD_append _ _ _ _ (by rwa [half]), evens_getD, s.eA_getD]
  · rw [List.getD_append_right _ _ _ _ (by rw [half]; omega), half, evens_getD, s.eB_getD]

/-- VK2V. -/
theorem active_map_getD {n i : Nat} (inside : i < n) (m : Mask) (f : Bool → Nat) :
    ((active n m).map f).getD i 0 = f (m.getLsbD i) := by
  rw [getD_map f (by rwa [active_length]) false, active_getD m inside]

/-- VMRG writes every element of vd: of va where the mask has a one, else of vb (R191). -/
theorem exec_vmrg {s : State} {d a b : VReg} {k : KLow} (te : Bool) (goes : VecGoes s [s.oA a, s.oB b, .k k.toK] [s.oA d]) :
    ∃ v : VWord, exec (.vmrg te d a b k) s = .next ((s.writeV d true 12 v).takeVec 8) ∧
      ∀ i < s.fmt.ety.count, lane s.fmt.ety v i = if on s k i then laneA s a i else laneB s b i := by
  have masked : (s.act k).length = (s.eA a).length := by simp
  have operands : (s.eA a).length = (s.eB b).length := by simp
  have issues := exec_vslot (i := .vmrg te d a b k) rfl goes
  refine ⟨_, issues, fun i inside => ?_⟩
  rw [lane_ofElems _ _ ((pick2_length _ _ _ masked operands).trans (s.eA_length a)), pick2_getD _ _ _ masked operands,
    State.act_getD k inside, s.eA_getD, s.eB_getD]
  split
  · exact Nat.mod_mod _ _
  · exact Nat.mod_mod _ _

end Sys2Proof.Machine

namespace Sys2Proof.Proofs

open Sys2Proof.Machine

/-- The bitwise operations and the shifts (R173). -/
theorem vectorBitResults : Sys2Proof.Claims.VectorBitResults := by
  intro te d a b k s goes
  refine ⟨?_, ?_, ?_, ?_, ?_, ?_⟩
  · exact exec_vbits rfl goes fun _ => rfl
  · exact exec_vbits rfl goes fun _ => rfl
  · exact exec_vbits rfl goes fun _ => rfl
  · exact exec_vbits rfl goes fun _ => VBit.elem_shl_mod _ _ _
  · exact exec_vbits rfl goes fun _ => congrArg (· % _) (VBit.elem_shr (lane_lt _ _ _) _)
  · exact exec_vbits rfl goes fun _ => congrArg (· % _) (VBit.elem_sar (lane_lt _ _ _) _)

/-- Splats, slides, moves, permutations, zips, merges and clears (R175 to R177, R189 to R191, R205, R206). -/
theorem vectorMoveResults : Sys2Proof.Claims.VectorMoveResults := by
  intro te d a b k x y s goes
  have reads (srcs : List Opnd) (fewer : srcs ⊆ [s.oA a, s.oB b, .s x, .k y, .k k.toK]) : Claims.VecGoes s srcs [s.oA d] :=
    vecGoes_of_subset goes fewer
  have reads_ab := reads [s.oA a, s.oB b, .k k.toK] (by simp)
  have reads_ax := reads [s.oA a, .s x, .k k.toK] (by simp)
  have length_a := s.eA_length a
  have length_b := s.eB_length b
  refine ⟨?_, ?_, ?_, ?_, ?_, ?_, ?_, ?_, ?_, exec_vmrg te reads_ab⟩
  · refine exec_raw rfl (reads [.s x, .k k.toK] (by simp)) List.length_replicate fun i inside => ?_
    rw [List.getD_replicate _ inside]
    exact Nat.mod_mod _ _
  · exact exec_raw rfl reads_ax ((slideDown_length _ _).trans length_a) fun i _ => congrArg (· % _) (slideDown_eA s a _ i)
  · exact exec_raw rfl reads_ax ((slideUp_length _ _).trans length_a) fun i inside => congrArg (· % _) (slideUp_eA inside a _)
  · exact exec_raw rfl (reads [s.oB b, .k k.toK] (by simp)) length_b fun i _ => congrArg (· % _) (s.eB_getD b i)
  · exact exec_raw rfl reads_ab ((List.length_map _).trans length_b) fun i inside => congrArg (· % _) (permute_eA_eB inside a b)
  · refine exec_raw rfl reads_ab ?_ fun i inside => congrArg (· % _) (take_interleave_eA_eB inside a b)
    rw [List.length_take, interleave_length _ _ (length_a.trans length_b.symm), length_a]
    omega
  · refine exec_raw rfl reads_ab ?_ fun i _ => congrArg (· % _) (evens_eA_append_evens_eB s a b i)
    rw [List.length_append, evens_length_of_count length_a, evens_length_of_count length_b, ← Nat.two_mul, ETy.two_mul_half_count]
  · exact exec_raw rfl (reads [.k y, .k k.toK] (by simp)) (by simp) fun i inside => congrArg (· % _) (active_map_getD inside (s.rK y) _)
  · refine exec_raw rfl (reads [.k k.toK] (by simp)) List.length_replicate fun i inside => ?_
    rw [List.getD_replicate _ inside]

/-- Settles O11: each instruction merges its list of raw elements into vd (VMRG writes all of it), and of each list the elements are those
that R173 to R177, R189 to R191, R205 and R206 name. -/
theorem vectorRawResults : Obligations.VectorRawResults := by
  unfold Obligations.VectorRawResults
  exact ⟨vectorBitResults, vectorMoveResults⟩

end Sys2Proof.Proofs

namespace Sys2Proof.Machine

open Sys2Proof.Claims

/-! A slot that does not issue (R88). -/

/-- A slot whose verdict holds it back does what the verdict makes of its bundle. -/
theorem exec_settle {i : Instr} {s : State} {o : SlotOp} {v : Verdict} (slot : slotOf i s = some o) (held : s.verdict [o.plan] = v)
    (back : v ≠ .go) : exec i s = .next (s.settle v) := by
  rw [exec_slot slot, SlotOp.run, State.issue, held]
  cases v with
  | go => exact absurd rfl back
  | wait => rfl
  | trap k => rfl
  | doom => rfl
  | walk va => rfl

/-- A bundle in issue that stays there goes back to what stood before it, with the note of how long it has stood. -/
theorem State.stays_of_old {s : State} {c : Car} {d : Device} (old : s.old = some (c, d)) (same : s.dev.now = d.now) :
    s.stays = { s with car := c.stand d.now, dev := d, old := none } := by
  rw [State.stays, State.rollback_of_old old, State.now, same]
  rfl

/-! The entry to the handler (R322 to R325). -/

/-- A car without a wait has no WADR to end. -/
theorem Car.endWadr_of_wait_nil {c : Car} (waitless : c.wait = []) : c.endWadr = c := by
  simp only [Car.endWadr, waitless, List.filter_nil, List.filterMap_nil, List.foldl_nil]
  rw [← waitless]

/-- A word of an image is that of the list it is made of, zero past its end. -/
theorem toImage_getElem (ws : List Word) {i : Nat} (inside : i < 128) : (toImage ws)[i] = ws.getD i 0#64 := by
  simp [toImage]

/-- s56 to s63 as an image takes them. -/
theorem userBank_eq_ofFn (regs : Vector Word 72) : (regs.toList.drop 56).take 8 = List.ofFn (fun n : Fin 8 => regs[56 + n.val]) := by
  apply List.ext_getElem
  · simp
  · intro n _ inside
    simp only [List.getElem_take, List.getElem_drop, Vector.getElem_toList, List.getElem_ofFn]

/-- The words of an image that stand in fixed places (R325): the resume point, TRAPPC, TCAUSE, TADDR, FMT, and the user's s56 to s63. -/
theorem Car.image_words (c : Car) (k : Trap) (resume trappc : BitVec 17) :
    let img := toImage (c.image k resume trappc)
    img[0] = BitVec.ofBool c.tr.handler ++ 0#46 ++ resume ∧ img[1] = trappc.setWidth 64 ∧ img[2] = k.tcause.setWidth 64 ∧
    img[3] = k.taddr ∧ img[14] = c.regs.fmt.setWidth 64 ∧ ∀ (n : Nat) (h : n < 8), img[4 + n] = c.regs.s[56 + n] := by
  simp only [toImage_getElem, Car.image, userBank_eq_ofFn]
  refine ⟨rfl, rfl, rfl, rfl, rfl, fun n h => ?_⟩
  interval_cases n <;> rfl

/-- A trap outside a speculation, while traps are not masked, enters the handler. -/
theorem State.takeTrap_unmasked {s : State} (main : s.car.place.spec = false) (unmasked : s.car.tr.masked = false) (k : Trap)
    (resume trappc : BitVec 17) (since : Nat) :
    s.takeTrap k resume trappc since = { s.mapCar (fun c => c.enter k resume trappc s.now since) with old := none } := by
  simp [State.takeTrap, main, unmasked]

/-- A trap while traps are masked is a double fault (R165). -/
theorem State.takeTrap_masked {s : State} (main : s.car.place.spec = false) (masked : s.car.tr.masked = true) (k : Trap)
    (resume trappc : BitVec 17) (since : Nat) : s.takeTrap k resume trappc since = s.abortMine 0x07#8 := by
  simp [State.takeTrap, main, masked]

/-- In a speculation no cause enters the handler (R330). -/
theorem State.takeTrap_spec {s : State} (spec : s.car.place.spec = true) (k : Trap) (resume trappc : BitVec 17) (since : Nat) :
    s.takeTrap k resume trappc since = s.doom := by
  simp [State.takeTrap, spec]

/-- Where the entry leaves the car, the WADR that it waited for ended (R322 to R325). -/
theorem inHandler_takeTrap {s : State} (main : s.car.place.spec = false) (unmasked : s.car.tr.masked = false) (k : Trap)
    (resume trappc : BitVec 17) (since : Nat) :
    InHandler (s.takeTrap k resume trappc since) s.car.endWadr since s.now k resume trappc := by
  rw [State.takeTrap_unmasked main unmasked]
  exact ⟨rfl, rfl, rfl, rfl, rfl, rfl, rfl, rfl, _, rfl, s.car.endWadr.image_words k resume trappc⟩

/-- A precise trap is taken at the state before the bundle, from the cycle since which the bundle stands at issue (R322). -/
theorem State.preciseTrap_of_old {s : State} {c : Car} {d : Device} (old : s.old = some (c, d)) (k : Trap) :
    s.preciseTrap k = ({ s with car := c, dev := d, old := none } : State).takeTrap k c.pc c.pc (c.stood.getD d.now) := by
  rw [State.preciseTrap, State.rollback_of_old old]
  rfl

/-- A car that enters the handler keeps the registers that it waited with. -/
theorem Car.enter_regs_of_wait_nil {c : Car} (waitless : c.wait = []) (k : Trap) (resume trappc : BitVec 17) (now since : Nat) :
    (c.enter k resume trappc now since).regs = c.regs := by
  rw [Car.enter, Car.endWadr_of_wait_nil waitless]

/-! What an abort leaves (R288). -/

/-- A car that stops belongs to no consist. -/
theorem Consist.holds_abort (x : Consist) (c : Car) : x.holds c.abort = false := by
  simp [Consist.holds, Car.abort]

/-- A car that stops where it has to belongs to no consist that lets the others be. -/
theorem Consist.holds_ite_abort {x : Consist} {c : Car} {stop : Prop} [Decidable stop] (gone : ¬ stop → x.holds c = false) :
    x.holds (if stop then c.abort else c) = false := by
  split
  · exact x.holds_abort c
  · exact gone ‹_›

/-- A car that stops or was idle is idle. -/
theorem Car.ite_abort_idle {c : Car} {stop : Prop} [Decidable stop] (idle : ¬ stop → c.life = .idle) :
    (if stop then c.abort else c).life = .idle := by
  split
  · rfl
  · exact idle ‹_›

/-! What the parts of an abort leave as it was. -/

@[simp] theorem State.mapDev_cars (s : State) (f : Device → Device) : (s.mapDev f).cars = s.cars := rfl

@[simp] theorem State.mapCars_cars (s : State) (f : Car → Car) : (s.mapCars f).cars = s.cars.map f := rfl

@[simp] theorem State.letGo_mem (s : State) (f : Car → Bool) : (s.letGo f).dev.mem = s.dev.mem := rfl

@[simp] theorem State.letGo_sig (s : State) (f : Car → Bool) : (s.letGo f).dev.sig = s.dev.sig := rfl

@[simp] theorem State.endStreams_mem (s : State) : s.endStreams.dev.mem = s.dev.mem := rfl

@[simp] theorem State.endStreams_sig (s : State) : s.endStreams.dev.sig = s.dev.sig := rfl

@[simp] theorem State.dropWaiting_mem (s : State) (q : BitVec 16) (seq : BitVec 32) : (s.dropWaiting q seq).dev.mem = s.dev.mem := rfl

@[simp] theorem State.dropWaiting_services (s : State) (q : BitVec 16) (seq : BitVec 32) :
    (s.dropWaiting q seq).dev.sig.services = s.dev.sig.services := rfl

/-- The end of streams brings no car back to a consist. -/
theorem State.endStreams_gone {s : State} {x : Consist} (gone : ∀ c ∈ s.cars, x.holds c = false) :
    ∀ c ∈ s.endStreams.cars, x.holds c = false := by
  unfold State.endStreams
  simp only [mapCars_cars, mapDev_cars, List.forall_mem_map]
  exact gone

/-- Consists that are dropped bring no car back to another. -/
theorem State.dropWaiting_gone {s : State} {x : Consist} (gone : ∀ c ∈ s.cars, x.holds c = false) (q : BitVec 16) (seq : BitVec 32) :
    ∀ c ∈ (s.dropWaiting q seq).cars, x.holds c = false := by
  unfold State.dropWaiting
  simp only [mapDev_cars, mapCars_cars, List.forall_mem_map]
  exact fun c hc => Consist.holds_ite_abort fun _ => gone c hc

/-- No consist comes in where some are dropped. -/
theorem State.dropWaiting_consists {s : State} {q : BitVec 16} {seq : BitVec 32} {y : Consist}
    (hy : y ∈ (s.dropWaiting q seq).dev.sig.consists) : y ∈ s.dev.sig.consists :=
  List.mem_of_mem_filter hy

/-- An aborted consist holds no car. -/
theorem State.abortConsist_gone (s : State) (x : Consist) (k : BitVec 8) (carId : BitVec 9) :
    ∀ c ∈ (s.abortConsist x k carId).cars, x.holds c = false := by
  have stopped : ∀ c ∈ ((s.letGo x.holds).mapCars (fun c => if x.holds c then c.abort else c)).cars, x.holds c = false := by
    simp only [mapCars_cars, List.forall_mem_map]
    exact fun c _ => Consist.holds_ite_abort Bool.eq_false_of_not_eq_true
  unfold State.abortConsist
  refine dropWaiting_gone ?_ x.q x.seq
  exact endStreams_gone stopped

/-- An aborted consist is none of the package's. -/
theorem State.abortConsist_consists (s : State) (x : Consist) (k : BitVec 8) (carId : BitVec 9) :
    ∀ y ∈ (s.abortConsist x k carId).dev.sig.consists, y.same x = false := by
  intro y hy
  unfold State.abortConsist at hy
  simpa using List.of_mem_filter (dropWaiting_consists hy)

/-- The service of an aborted consist has an error, the abort's own unless it had one. -/
theorem State.abortConsist_services (s : State) (x : Consist) (k : BitVec 8) (carId : BitVec 9) :
    ∀ v ∈ (s.abortConsist x k carId).dev.sig.services, v.q = x.q → v.seq = x.seq →
      ∃ u ∈ s.dev.sig.services, u.order = v.order ∧ v.err = some (u.err.getD (k, carId)) := by
  simp only [abortConsist, dropWaiting_services, mapService, mapDev_dev, endStreams_sig, mapCars_dev, letGo_sig, List.forall_mem_map]
  intro u hu
  split
  · exact fun _ _ => ⟨u, hu, rfl, rfl⟩
  · intro same_q same_seq
    simp_all

/-- An abort writes no memory. -/
theorem State.abortConsist_mem (s : State) (x : Consist) (k : BitVec 8) (carId : BitVec 9) :
    (s.abortConsist x k carId).dev.mem = s.dev.mem := by
  simp [abortConsist, mapService]

/-- A consist holds the car whose consist it is, unless the car is idle. -/
theorem State.consistOf_holds {s : State} {c : Car} {x : Consist} (own : s.consistOf c = some x) : x.holds c = (c.life != .idle) := by
  have found := List.find?_some own
  simp only [Bool.and_eq_true, beq_iff_eq] at found
  obtain ⟨⟨⟨⟨q, seq⟩, idx⟩, spec⟩, -⟩ := found
  simp [Consist.holds, q, seq, idx, spec]

/-- Consists that are dropped start no car. -/
theorem State.dropWaiting_idle {s : State} (idle : s.car.life = .idle) (q : BitVec 16) (seq : BitVec 32) :
    (s.dropWaiting q seq).car.life = .idle :=
  Car.ite_abort_idle fun _ => idle

/-- The focused car is idle once its consist is aborted. -/
theorem State.abortConsist_idle {s : State} {x : Consist} (own : s.consistOf s.car = some x) (k : BitVec 8) (carId : BitVec 9) :
    (s.abortConsist x k carId).car.life = .idle := by
  have stopped : (if x.holds s.car then s.car.abort else s.car).life = .idle :=
    Car.ite_abort_idle fun out => by simpa [consistOf_holds own] using out
  exact dropWaiting_idle stopped x.q x.seq

/-- An abort by a car writes no memory and leaves it idle, whether it has a consist or not. -/
theorem State.abortMine_keeps_mem {s : State} (main : s.car.place.spec = false) (k : BitVec 8) :
    (s.abortMine k).dev.mem = s.dev.mem ∧ (s.abortMine k).car.life = .idle := by
  simp only [State.abortMine, main, Bool.false_eq_true, if_false]
  split
  · exact ⟨abortConsist_mem .., abortConsist_idle ‹_› ..⟩
  · exact ⟨rfl, rfl⟩

/-- A car aborts its consist. -/
theorem State.abortMine_of_consist {s : State} {x : Consist} (main : s.car.place.spec = false) (own : s.consistOf s.car = some x)
    (k : BitVec 8) : s.abortMine k = { s.abortConsist x k s.car.ident.carId with old := none } := by
  simp [State.abortMine, main, own]

/-! What a doom leaves (R330, R389). -/

/-- A speculation that a cause ends has one. -/
theorem Speculation.ends_cause (p : Speculation) (k : SpecEnd) (now : Nat) : (p.ends k now).cause.isSome = true := by
  unfold Speculation.ends
  cases p.cause with
  | none => rfl
  | some e =>
    simp only
    split <;> rfl

/-- A doomed speculation has a cause that ends it. -/
theorem State.doomSpec_cause (s : State) (q : BitVec 16) (seq : BitVec 32) :
    ∀ p ∈ (s.doomSpec q seq).dev.sig.specs, p.svc.q = q → p.svc.seq = seq → p.cause.isSome = true := by
  simp only [doomSpec, mapDev_dev, Device.mapSpec, List.forall_mem_map]
  intro p _
  split
  · exact fun _ _ => p.ends_cause ..
  · intro same_q same_seq
    simp_all

/-- A doom rolls the bundle back and dooms the speculation of its car. -/
theorem State.doom_eq (s : State) :
    s.doom = s.rollback.doomSpec (s.rollback.car.ident.serviceId.extractLsb' 32 16) (s.rollback.car.ident.serviceId.extractLsb' 0 32) := rfl

/-- A doom of the bundle in issue. -/
theorem State.doom_of_old {s : State} {c : Car} {d : Device} (old : s.old = some (c, d)) :
    s.doom = ({ s with car := c, dev := d, old := none } : State).doom := by
  rw [doom_eq, rollback_of_old old]
  rfl

/-- In a speculation the first pending cause is taken as a doom (R329, R330). -/
theorem State.trapNow_spec {s : State} (may : s.mayTrap = true) (spec : s.car.place.spec = true) :
    s.trapNow = (s.mapCar (fun c => { c with tr := { c.tr with pending := c.tr.pending.tail } })).doom := by
  rw [State.trapNow, if_pos may]
  cases pending : s.car.tr.pending with
  | nil => simp [State.mayTrap, pending] at may
  | cons a rest =>
    obtain rfl : s.car.tr.pending.tail = rest := by rw [pending]; rfl
    exact State.takeTrap_spec (s := s.mapCar _) (by exact spec) ..

end Sys2Proof.Machine

namespace Sys2Proof.Proofs

open Sys2Proof.Machine Sys2Proof.Claims

/-! What becomes of a slot's bundle at the state before it (R322, R165, R330). -/

section
variable {i : Instr} {o : SlotOp} {s : State} {c : Car} {d : Device} {k : Trap}

/-- A precise cause enters the handler before the bundle. -/
theorem exec_trap_inHandler (slot : slotOf i s = some o) (old : s.old = some (c, d)) (held : s.verdict [o.plan] = .trap k)
    (main : c.place.spec = false) (unmasked : c.tr.masked = false) (waitless : c.wait = []) :
    ∃ t, exec i s = .next t ∧ InHandler t c (c.stood.getD d.now) d.now k c.pc c.pc ∧ t.car.regs = c.regs ∧ t.car.spad = c.spad ∧
      t.dev = d ∧ t.peers = s.peers := by
  let back : State := { s with car := c, dev := d, old := none }
  have entry : InHandler (back.takeTrap k c.pc c.pc (c.stood.getD d.now)) c.endWadr (c.stood.getD d.now) d.now k c.pc c.pc :=
    inHandler_takeTrap main unmasked ..
  have frame := State.takeTrap_unmasked (s := back) main unmasked k c.pc c.pc (c.stood.getD d.now)
  rw [Car.endWadr_of_wait_nil waitless] at entry
  refine ⟨_, exec_settle slot held nofun, ?_⟩
  rw [State.settle, State.preciseTrap_of_old old]
  refine ⟨entry, ?_⟩
  rw [frame]
  exact ⟨Car.enter_regs_of_wait_nil waitless .., Car.enter_spad .., rfl, rfl⟩

/-- While traps are masked a precise cause aborts the consist with cause 7. -/
theorem exec_trap_aborts (slot : slotOf i s = some o) (old : s.old = some (c, d)) (held : s.verdict [o.plan] = .trap k)
    (main : c.place.spec = false) (masked : c.tr.masked = true) :
    ∃ t, exec i s = .next t ∧ t.dev.mem = d.mem ∧ t.car.life = .idle ∧
      ∀ x, ({ s with car := c, dev := d, old := none } : State).consistOf c = some x → (∀ a ∈ t.cars, x.holds a = false) ∧
        (∀ y ∈ t.dev.sig.consists, y.same x = false) ∧
        ∀ v ∈ t.dev.sig.services, v.q = x.q → v.seq = x.seq → ∃ u ∈ d.sig.services, u.order = v.order ∧
          v.err = some (u.err.getD (7#8, c.ident.carId)) := by
  let back : State := { s with car := c, dev := d, old := none }
  obtain ⟨mem, idle⟩ := State.abortMine_keeps_mem (s := back) main 0x07#8
  refine ⟨back.abortMine 0x07#8, ?_, mem, idle, fun x own => ?_⟩
  · rw [exec_settle slot held nofun, State.settle, State.preciseTrap_of_old old, State.takeTrap_masked main masked]
  · rw [State.abortMine_of_consist main own]
    exact ⟨back.abortConsist_gone x _ _, back.abortConsist_consists x _ _, back.abortConsist_services x _ _⟩

/-- A doom of the slot dooms its speculation, and so does a precise cause in one. -/
theorem exec_doom (slot : slotOf i s = some o) (old : s.old = some (c, d))
    (held : s.verdict [o.plan] = .doom ∨ (c.place.spec = true ∧ ∃ k, s.verdict [o.plan] = .trap k)) : exec i s = .next s.doom := by
  rcases held with doom | ⟨spec, k, trap⟩
  · exact exec_settle slot doom nofun
  · rw [exec_settle slot trap nofun, State.settle, State.preciseTrap_of_old old, State.takeTrap_spec spec, State.doom_of_old old]

end

/-- An asynchronous cause in a speculation dooms it and enters no handler (R330). -/
theorem exec_takeTrap_spec {s : State} (may : s.mayTrap = true) (spec : s.car.place.spec = true) (between : s.old = none) :
    ∃ t, exec (.takeTrap s.car.ref) s = .next t ∧ t.car.tr.handler = s.car.tr.handler ∧ t.car.regs = s.car.regs ∧
      ∀ p ∈ t.dev.sig.specs, p.svc.q = s.car.ident.serviceId.extractLsb' 32 16 → p.svc.seq = s.car.ident.serviceId.extractLsb' 0 32 →
        p.cause.isSome = true := by
  refine ⟨_, State.at_focused s _, ?_⟩
  rw [State.trapNow_spec may spec, State.doom_eq, State.rollback_of_between (by exact between)]
  exact ⟨rfl, rfl, State.doomSpec_cause _ _ _⟩

/-- Settles O54: a slot that is held back does what its verdict makes of the state before the bundle, and taking a trap is the entry to the
handler, an abort while traps are masked, or a doom in a speculation. -/
theorem slotsIssueWaitOrTrap : Obligations.SlotsIssueWaitOrTrap := by
  unfold Obligations.SlotsIssueWaitOrTrap
  refine ⟨fun i o s slot => ⟨exec_passes slot, fun c d old same => ⟨?_, ?_, ?_, ?_, ?_⟩⟩, fun s => exec_takeTrap_spec⟩
  · intro held
    rw [exec_settle slot held nofun, State.settle, State.stays_of_old old same]
  · intro va held
    rw [exec_settle slot held nofun, State.settle, State.stays_of_old old same]
    rfl
  · exact fun k held => exec_trap_inHandler slot old held
  · exact fun k held => exec_trap_aborts slot old held
  · intro held
    refine ⟨s.doom, exec_doom slot old held, ?_⟩
    rw [State.doom_of_old old]
    exact ⟨rfl, rfl, rfl, State.doomSpec_cause _ _ _⟩

end Sys2Proof.Proofs

namespace Sys2Proof.Machine

open Sys2Proof.Claims

/-! Where addresses of this package lead depends on the fabric alone (R399, R416, R468). -/

section
variable {d e : Device} (fab : e.fab = d.fab)
include fab

theorem Device.whereIs_congr (n : Nat) : ∀ a : Nat, e.whereIs n a = d.whereIs n a := by
  induction n with
  | zero => exact fun _ => rfl
  | succ n ih =>
    intro a
    simp only [Device.whereIs, Device.copied, fab, ih]
    rfl

theorem Device.hbmGone_congr (a : Nat) : e.hbmGone a = d.hbmGone a := by
  simp only [Device.hbmGone, fab, whereIs_congr fab]

theorem Device.decodePA_congr (rmt sm c : Bool) (pa : BitVec 52) : e.decodePA rmt sm c pa = d.decodePA rmt sm c pa := by
  simp only [Device.decodePA, Device.movedTo, fab, hbmGone_congr fab]
  rfl

end

/-! What the package reads is the same whatever the Signal box holds besides its registers (R316, R466). -/

section
variable (d : Device) (f : Signal → Signal)

@[simp] theorem Device.hbmByte_mapSig (a : Nat) : (d.mapSig f).hbmByte a = d.hbmByte a := by
  simp only [Device.hbmByte, mapSig_fab, mapSig_mem, mapSig_remote, whereIs_congr (mapSig_fab d f)]

@[simp] theorem Device.hbmPoison_mapSig (a : Nat) : (d.mapSig f).hbmPoison a = d.hbmPoison a := by
  simp only [Device.hbmPoison, mapSig_fab, mapSig_mem, mapSig_remote, mapSig_latent, whereIs_congr (mapSig_fab d f)]

@[simp] theorem Device.readEntry_mapSig (pa : Nat) : (d.mapSig f).readEntry pa = d.readEntry pa := by
  simp only [Device.readEntry, decodePA_congr (mapSig_fab d f), hbmPoison_mapSig, hbmByte_mapSig, mapSig_mem]
  rfl

@[simp] theorem Device.walkFrom_mapSig (va : Nat) (ls : List Level) :
    ∀ table : Nat, (d.mapSig f).walkFrom va ls table = d.walkFrom va ls table := by
  induction ls with
  | nil => exact fun _ => rfl
  | cons l ls ih => exact fun table => by simp only [Device.walkFrom, readEntry_mapSig, ih]

@[simp] theorem Device.shut_mapSig (t : Target) : (d.mapSig f).shut t = d.shut t := rfl

@[simp] theorem Device.readPhys_mapSig (t : Target) (n : Nat) : (d.mapSig f).readPhys none none t n = d.readPhys none none t n := by
  cases t <;> simp [Device.readPhys, Device.viewByte, Device.viewPoison]

variable {d f} (regs : (f d.sig).regs = d.sig.regs)
include regs

theorem Device.translate_mapSig (rd wr : Bool) (va : Nat) : (d.mapSig f).translate rd wr va = d.translate rd wr va := by
  simp only [Device.translate, Device.walk, Device.leafTarget, walkFrom_mapSig, mapSig_sig, regs, decodePA_congr (mapSig_fab d f)]

theorem Device.readVa_mapSig (va n : Nat) : (d.mapSig f).readVa va n = d.readVa va n := by
  simp only [Device.readVa, translate_mapSig regs, readPhys_mapSig, shut_mapSig]

theorem Device.wordsVa_mapSig (va n : Nat) : (d.mapSig f).wordsVa va n = d.wordsVa va n := by
  simp only [Device.wordsVa, readVa_mapSig regs]

theorem Device.ctx_mapSig (q : BitVec 16) : (d.mapSig f).ctx q = d.ctx q := by
  simp only [Device.ctx, Device.wordVa, readVa_mapSig regs, mapSig_sig, regs]

end

/-! Writes by the package itself, where no stash mapping stands (R308, R388, R466). -/

@[simp] theorem Device.hbmPut_sig (d : Device) (a : Nat) (b : Byte) : (d.hbmPut a b).sig = d.sig := by
  unfold Device.hbmPut; split <;> rfl

@[simp] theorem Device.hbmPut_now (d : Device) (a : Nat) (b : Byte) : (d.hbmPut a b).now = d.now := by
  unfold Device.hbmPut; split <;> rfl

/-- A write of HBM leaves the Signal box and the clock alone, wherever its bytes go (R416). -/
theorem Device.hbmWrite_sig_now (d : Device) (a : Nat) (bs : List Byte) : (d.hbmWrite a bs).sig = d.sig ∧ (d.hbmWrite a bs).now = d.now := by
  have puts (ps : List (Byte × Nat)) : ∀ d : Device, (ps.foldl (fun d p => d.hbmPut (a + p.2) p.1) d).sig = d.sig ∧
      (ps.foldl (fun d p => d.hbmPut (a + p.2) p.1) d).now = d.now := by
    induction ps with
    | nil => exact fun _ => ⟨rfl, rfl⟩
    | cons p ps ih => exact fun d => by simpa using ih (d.hbmPut (a + p.2) p.1)
  unfold Device.hbmWrite
  split
  · exact ⟨rfl, rfl⟩
  · exact puts _ d

/-- A write by the package itself changes nothing of the Signal box but the causes of speculations. -/
theorem Device.writePhys_sig_now (d : Device) (t : Target) (bs : List Byte) :
    (∃ ps, (d.writePhys none none t bs).sig = { d.sig with specs := ps }) ∧ (d.writePhys none none t bs).now = d.now := by
  cases t with
  | hbm pa sm =>
    obtain ⟨sig, now⟩ := d.hbmWrite_sig_now pa (bs.take (Config.hbmSize - pa))
    simp only [Device.writePhys, Option.map_none, Device.watched, sig, now]
    exact ⟨⟨_, rfl⟩, trivial⟩
  | _ => exact ⟨⟨_, rfl⟩, rfl⟩

/-- A place in the memory that HBM and the host have, of `n` bytes, where addresses are this package's own (R416, R468). -/
def Device.Plain (d : Device) (t : Target) (pa n : Nat) : Prop :=
  (t = .hbm pa false ∧ d.fab.fwd = [] ∧ pa + n ≤ Config.hbmSize) ∨ t = .host pa

/-- What the package writes there stands in memory; besides, errors that no access has met go, and speculations may doom. -/
theorem Device.Plain.write {d : Device} {t : Target} {pa : Nat} {bs : List Byte} (plain : d.Plain t pa bs.length) :
    ∃ ls ps, d.writePhys none none t bs = { d with mem := d.mem.write pa bs, latent := ls, sig := { d.sig with specs := ps } } := by
  rcases plain with ⟨rfl, own, inside⟩ | rfl
  · have whole : bs.take (Config.hbmSize - pa) = bs := List.take_of_length_le (by omega)
    simp only [Device.writePhys, Option.map_none, whole, Device.hbmWrite, own, List.isEmpty_nil, if_true, Device.watched]
    exact ⟨_, _, rfl⟩
  · exact ⟨d.latent, d.sig.specs, rfl⟩

/-- What the package reads there is what stands in memory. -/
theorem Device.Plain.read {d : Device} {t : Target} {pa n : Nat} (plain : d.Plain t pa n) (m : Nat) :
    (d.readPhys none none t m).nat = natLE (d.mem.readBytes pa m) := by
  rcases plain with ⟨rfl, own, -⟩ | rfl
  · simp [Device.readPhys, Loaded.nat, Device.viewByte, Device.hbmByte, own, Mem.readBytes]
  · rfl

/-- The front of bytes that were just written. -/
theorem Mem.readBytes_write_front (m : Mem) (a : Nat) {n : Nat} {bs : List Byte} (front : n ≤ bs.length) :
    (m.write a bs).readBytes a n = bs.take n := by
  apply List.ext_getElem
  · simpa [Mem.readBytes] using front
  · intro i inside _
    have : i < bs.length := by simp [Mem.readBytes] at inside; omega
    simp [Mem.readBytes, Mem.read_write, this]

section
variable {s u : State} (noStash : ∀ c ∈ s.cars, c.eng.stash = [])
include noStash

theorem State.storeAt_of_noStash (me : Option CarRef) (spec : Option Speculation) (die : Option Nat) (t : Target) (bs : List Byte) :
    s.storeAt me spec die t bs = s.mapDev (fun d => d.writePhys spec die t bs) := by
  have empty : s.cars.all (fun c => c.eng.stash.isEmpty) = true := by simpa using noStash
  have passes : s.snoop me spec t bs.length = s := by
    rw [State.snoop, State.snoopN, empty]
    rfl
  rw [State.storeAt, passes]

/-- A write at a virtual address whose page grants it and leads to HBM. -/
theorem State.writeVa_hbm {va pa : Nat} (leads : s.dev.translate false true va = some (.hbm pa false)) (bs : List Byte) :
    s.writeVa va bs = some (s.mapDev (fun d => d.writePhys none none (.hbm pa false) bs)) := by
  rw [State.writeVa, leads, ← storeAt_of_noStash noStash]
  rfl

/-- A write at a virtual address that is made changes bytes at one place. -/
theorem State.writeVa_made {va : Nat} {bs : List Byte} (made : s.writeVa va bs = some u) :
    ∃ t, u = s.mapDev (fun d => d.writePhys none none t bs) := by
  unfold State.writeVa at made
  split at made
  · cases made
  · cases made
  · rename_i t _ _
    split at made
    · cases made
    · exact ⟨t, by rw [← storeAt_of_noStash noStash]; exact (Option.some.inj made).symm⟩

end

/-! States that differ in the package alone. -/

theorem State.untouched_withDev {s : State} {d : Device} (mem : d.mem = s.dev.mem) : Untouched s { s with dev := d } := ⟨rfl, rfl, mem⟩

theorem State.mapDev_eq {s : State} {f : Device → Device} {d : Device} (does : f s.dev = d) : s.mapDev f = { s with dev := d } := by
  rw [State.mapDev, does]

theorem next_mapDev {s : State} {f : Device → Device} {d : Device} (does : f s.dev = d) :
    (.next (s.mapDev f) : Result) = .next { s with dev := d } :=
  congrArg _ (State.mapDev_eq does)

/-! The host's path and the serial order (R356, R457). -/

/-- The device answers the host once the start has trained the host link. -/
theorem House.served_host_iff (h : House) : h.served false = true ↔ h.startRec.extractLsb' 14 2 = 1#2 := by
  rw [House.served, Bool.false_or, beq_iff_eq, House.stepCode, BitVec.toNat_eq]
  rfl

section
variable {s : State} (f : State → State)

theorem State.over_host_unserved (unserved : ¬ s.dev.house.startRec.extractLsb' 14 2 = 1#2) : s.over false f = s :=
  if_neg (mt (House.served_host_iff _).mp unserved)

theorem State.over_host_served (served : s.dev.house.startRec.extractLsb' 14 2 = 1#2) : s.over false f = f s :=
  if_pos ((House.served_host_iff _).mpr served)

/-- A command that does nothing does nothing over any path. -/
theorem State.over_host_of_fixed (fixed : f s = s) : s.over false f = s := by
  unfold State.over
  split
  · exact fixed
  · rfl

end

theorem serialAfter_iff {v c : BitVec 32} : serialAfter v c = true ↔ follows v c := decide_eq_true_iff

/-! The slot of a queue (R352). -/

theorem Signal.slotOf_eq_none_iff {x : Signal} {q : BitVec 16} : x.slotOf q = none ↔ ∀ y ∈ x.slots, y.2.q ≠ q := by
  simp only [Signal.slotOf, List.find?_eq_none, beq_iff_eq]

/-- A change of a queue's slot that keeps its queue is seen in that slot. -/
theorem Device.slotOf_mapSlot {d : Device} {q : BitVec 16} {f : QSlot → QSlot} (keeps : ∀ x, (f x).q = x.q) {i : Nat} {x : QSlot}
    (mapped : d.sig.slotOf q = some (i, x)) : (d.mapSlot q f).sig.slotOf q = some (i, f x) := by
  have own : x.q = q := by simpa using List.find?_some mapped
  have same : ((fun s : Nat × QSlot => s.2.q == q) ∘ fun s => if s.2.q == q then (s.1, f s.2) else s) = fun s => s.2.q == q := by
    funext y
    simp only [Function.comp_apply]
    split
    · rw [keeps]
    · rfl
  rw [Signal.slotOf] at mapped
  simp only [Device.mapSlot, Device.mapSig, Signal.slotOf, List.find?_map, same, mapped, Option.map_some, own, beq_self_eq_true, if_true]

/-! A queue asks for a slot (R353). -/

section
variable (d : Device) (q : BitVec 16)

/-- What a queue that asks changes: it stands among those that wait, and nothing else does that did not. -/
theorem Device.want_eq : ∃ ws, d.want q = d.mapSig (fun x => { x with wanted := ws }) ∧ (∀ r ∈ ws, r ∈ d.sig.wanted ∨ r = q) ∧
    (d.sig.slotOf q = none → q ∈ ws) := by
  unfold Device.want
  split
  · rename_i stands
    refine ⟨d.sig.wanted, rfl, fun r hr => .inl hr, fun unmapped => ?_⟩
    simpa [unmapped] using stands
  · exact ⟨_, rfl, fun r hr => by simpa using hr, fun _ => by simp⟩

@[simp] theorem Device.want_mem : (d.want q).mem = d.mem := by
  obtain ⟨ws, eq, -⟩ := d.want_eq q
  rw [eq, mapSig_mem]

@[simp] theorem Device.want_slots : (d.want q).sig.slots = d.sig.slots := by
  obtain ⟨ws, eq, -⟩ := d.want_eq q
  rw [eq, mapSig_sig]

@[simp] theorem Device.want_specs : (d.want q).sig.specs = d.sig.specs := by
  obtain ⟨ws, eq, -⟩ := d.want_eq q
  rw [eq, mapSig_sig]

@[simp] theorem Device.want_regs : (d.want q).sig.regs = d.sig.regs := by
  obtain ⟨ws, eq, -⟩ := d.want_eq q
  rw [eq, mapSig_sig]

variable {d q}

theorem Device.mem_want (unmapped : d.sig.slotOf q = none) : q ∈ (d.want q).sig.wanted := by
  obtain ⟨ws, eq, -, asks⟩ := d.want_eq q
  rw [eq]
  exact asks unmapped

theorem Device.mem_of_mem_want {r : BitVec 16} (waits : r ∈ (d.want q).sig.wanted) (other : r ≠ q) : r ∈ d.sig.wanted := by
  obtain ⟨ws, eq, only, -⟩ := d.want_eq q
  rw [eq] at waits
  exact (only r waits).resolve_right other

end

/-! Notes of overruns (R357). -/

section
variable (d : Device) (c : Ctx) (tail head : BitVec 32)

theorem Device.noteTail_eq : d.noteTail c tail head = d.mapSig (fun x => { x with regs := { x.regs with
    devStat := if 2 ^ c.log2n < (tail - head).toNat then x.regs.devStat ||| 1#8 else x.regs.devStat } }) := by
  unfold Device.noteTail Ctx.size
  split
  · rfl
  · rfl

@[simp] theorem Device.noteTail_mem : (d.noteTail c tail head).mem = d.mem := by rw [noteTail_eq, mapSig_mem]

@[simp] theorem Device.noteTail_slotOf (q : BitVec 16) : (d.noteTail c tail head).sig.slotOf q = d.sig.slotOf q := by
  rw [noteTail_eq]
  rfl

@[simp] theorem Device.noteTail_devStat : (d.noteTail c tail head).sig.regs.devStat =
    if 2 ^ c.log2n < (tail - head).toNat then d.sig.regs.devStat ||| 1#8 else d.sig.regs.devStat := by
  rw [noteTail_eq]
  rfl

end

/-! Doorbells (R350, R353, R356). -/

section
variable {s : State} {v : Word} {q : BitVec 16} {c : Ctx} {tail : BitVec 32} {i : Nat} {x : QSlot}

theorem State.doorbell_reserved (reserved : v.extractLsb' 48 16 ≠ 0#16) : s.doorbell v = s := if_pos reserved

theorem State.doorbell_absent (absent : s.dev.ctx (v.extractLsb' 32 16) = .absent) : s.doorbell v = s := by
  simp only [State.doorbell, absent, ite_self]

theorem State.doorbell_failed (legal : v.extractLsb' 48 16 = 0#16) (failed : s.dev.ctx (v.extractLsb' 32 16) = .failed) :
    s.doorbell v = s.mapDev (fun d => d.setDevStat 8#8) := by
  simp only [State.doorbell, legal, failed, ne_eq, not_true_eq_false, if_false]

theorem State.doorbell_ring (legal : v.extractLsb' 48 16 = 0#16) (read : s.dev.ctx (v.extractLsb' 32 16) = .ok c) :
    s.doorbell v = s.ring (v.extractLsb' 32 16) c (v.extractLsb' 0 32) := by
  simp only [State.doorbell, legal, read, ne_eq, not_true_eq_false, if_false]

theorem exec_queueDoorbell_unserved (unserved : ¬ s.dev.house.startRec.extractLsb' 14 2 = 1#2) : exec (.queueDoorbell v) s = .next s :=
  congrArg _ (State.over_host_unserved _ unserved)

theorem exec_queueDoorbell {t : State} (served : s.dev.house.startRec.extractLsb' 14 2 = 1#2) (does : s.doorbell v = t) :
    exec (.queueDoorbell v) s = .next t :=
  congrArg _ ((State.over_host_served _ served).trans does)

theorem exec_queueDoorbell_stays (does : s.doorbell v = s) : exec (.queueDoorbell v) s = .next s :=
  congrArg _ (State.over_host_of_fixed _ does)

theorem Ctx.sane_iff : c.sane = true ↔ 1 ≤ c.log2n ∧ c.log2n ≤ 16 := decide_eq_true_iff

theorem State.ring_sizeless (sizeless : c.log2n < 1 ∨ 16 < c.log2n) : s.ring q c tail = s.mapDev (fun d => d.setDevStat 8#8) := by
  have insane : c.sane = false := by rw [Bool.eq_false_iff, ne_eq, Ctx.sane_iff]; omega
  simp [State.ring, insane]

variable (sane : c.sane = true)
include sane

theorem State.ring_disabled (off : c.en = false) : s.ring q c tail = s := by
  simp [State.ring, sane, off]

variable (on : c.en = true)
include on

theorem State.ring_mapped_stale (mapped : s.dev.sig.slotOf q = some (i, x)) (stale : ¬ follows tail x.tail) : s.ring q c tail = s := by
  simp [State.ring, sane, on, mapped, serialAfter_iff, stale]

theorem State.ring_mapped (mapped : s.dev.sig.slotOf q = some (i, x)) (fresh : follows tail x.tail) :
    s.ring q c tail = s.mapDev (fun d => (d.mapSlot q (fun x => { x with tail := tail })).noteTail c tail x.head) := by
  simp [State.ring, sane, on, mapped, serialAfter_iff, fresh]

variable {w : Nat} (unmapped : s.dev.sig.slotOf q = none) (word : s.dev.wordVa (c.va + 16) = some w)
include unmapped word

theorem State.ring_unmapped_stale (stale : ¬ follows tail ((BitVec.ofNat 64 w).extractLsb' 32 32)) : s.ring q c tail = s := by
  simp [State.ring, sane, on, unmapped, word, serialAfter_iff, stale]

theorem State.ring_unmapped (fresh : follows tail ((BitVec.ofNat 64 w).extractLsb' 32 32)) {t : State}
    (made : s.writeVa (c.va + 20) (bytesLE 4 tail.toNat) = some t) :
    s.ring q c tail = t.mapDev (fun d => (d.noteTail c tail ((BitVec.ofNat 64 w).extractLsb' 0 32)).want q) := by
  simp [State.ring, sane, on, unmapped, word, serialAfter_iff, fresh, made]

end

/-! Mailboxes (R356, R358). -/

section
variable {s : State} {m : Fin 1024} {v : BitVec 32}

theorem exec_mailboxWrite_unserved (unserved : ¬ s.dev.house.startRec.extractLsb' 14 2 = 1#2) : exec (.mailboxWrite m v) s = .next s :=
  congrArg _ (State.over_host_unserved _ unserved)

theorem exec_mailboxWrite_stays (does : s.mailbox m v = s) : exec (.mailboxWrite m v) s = .next s :=
  congrArg _ (State.over_host_of_fixed _ does)

theorem exec_mailboxWrite {t : State} (served : s.dev.house.startRec.extractLsb' 14 2 = 1#2) (does : s.mailbox m v = t) :
    exec (.mailboxWrite m v) s = .next t :=
  congrArg _ ((State.over_host_served _ served).trans does)

theorem State.mailbox_stale (stale : ¬ follows v (s.dev.mbox m.val)) : s.mailbox m v = s := if_neg (mt serialAfter_iff.mp stale)

/-- A value that follows the old one is written at the mailbox's place. -/
theorem State.mailbox_fresh (fresh : follows v (s.dev.mbox m.val)) (noStash : ∀ c ∈ s.cars, c.eng.stash = []) :
    s.mailbox m v = s.mapDev (fun d => d.writePhys none none (s.dev.mboxTarget m.val) (bytesLE 8 v.toNat)) := by
  rw [State.mailbox, if_pos (serialAfter_iff.mpr fresh), State.storeAt_of_noStash noStash]

end

/-- Where a mailbox stands depends on the fabric and the Signal box's registers alone. -/
theorem Device.mboxTarget_congr {d e : Device} (fab : e.fab = d.fab) (regs : e.sig.regs = d.sig.regs) (m : Nat) :
    e.mboxTarget m = d.mboxTarget m := by
  rw [Device.mboxTarget, Device.mboxTarget, regs, decodePA_congr fab]

/-- A mailbox in memory reads as the value that was just written there. -/
theorem Device.mbox_of_written {d e : Device} {m pa : Nat} {v : BitVec 32} (fab : e.fab = d.fab) (regs : e.sig.regs = d.sig.regs)
    (plain : d.Plain (d.mboxTarget m) pa 8) (written : e.mem = d.mem.write pa (bytesLE 8 v.toNat)) : e.mbox m = v := by
  have place : e.Plain (e.mboxTarget m) pa 8 := by
    rw [mboxTarget_congr fab regs, Device.Plain, fab]
    exact plain
  have front : (bytesLE 8 v.toNat).take 4 = bytesLE 4 v.toNat := rfl
  rw [Device.mbox, place.read, written, Mem.readBytes_write_front _ _ (by simp), front, natLE_bytesLE,
    Nat.mod_eq_of_lt (show v.toNat < 256 ^ 4 from v.isLt), BitVec.ofNat_toNat, BitVec.setWidth_eq]

/-! The buffer handle table (R364, R388). -/

/-- A word of an entry takes a value as R364 says. -/
theorem Bht.put_eq_bhtTakes (b : Bht) (word : Nat) (x : Word) : b.put word x = bhtTakes b word x := by
  match word with
  | 0 | 1 | 2 => rfl
  | n + 3 => simp [Bht.put, bhtTakes]

theorem Signal.named_iff {x : Signal} {h : Nat} : x.named h = true ↔ ∃ u ∈ x.services, u.ended = false ∧ ∃ k ∈ u.handles, k.1.toNat = h := by
  simp [Signal.named]

theorem Signal.any_held_iff {x : Signal} {h : Nat} : x.held.any (fun y => y.1 == h) = true ↔ ∃ y ∈ x.held, y.1 = h := by simp

section
variable (d : Device) (h word : Nat) (x : Word)

@[simp] theorem Device.putBht_mem : (d.putBht h word x).mem = d.mem := rfl

@[simp] theorem Device.putBht_held : (d.putBht h word x).sig.held = d.sig.held := rfl

theorem Device.putBht_get_self :
    Tab.get ({} : Bht) (d.putBht h word x).sig.bht h = bhtTakes (Tab.get ({} : Bht) d.sig.bht h) word x := by
  rw [← Bht.put_eq_bhtTakes]
  exact Tab.get_set_self ..

theorem Device.putBht_get_other {k : Nat} (other : k ≠ h) :
    Tab.get ({} : Bht) (d.putBht h word x).sig.bht k = Tab.get ({} : Bht) d.sig.bht k :=
  Tab.get_set_other _ _ _ other

/-- A change of an entry ends the speculations that name it. -/
theorem Device.putBht_dooms : ∀ p ∈ (d.putBht h word x).sig.specs, (∃ k ∈ p.svc.handles, k.1.toNat = h) → p.cause.isSome = true := by
  simp only [Device.putBht, mapSig_sig, List.forall_mem_map]
  intro p _
  split
  · exact fun _ => Speculation.ends_cause ..
  · rename_i unnamed
    exact fun named => absurd (by simpa using named) unnamed

end

/-- Writes that are applied one after the other. -/
def Device.putAll (d : Device) (ws : List (Nat × Nat × Word)) : Device := ws.foldl (fun d w => d.putBht w.1 w.2.1 w.2.2) d

@[simp] theorem Device.putAll_mem (ws : List (Nat × Nat × Word)) : ∀ d : Device, (d.putAll ws).mem = d.mem := by
  induction ws with
  | nil => exact fun _ => rfl
  | cons w ws ih => exact fun d => ih (d.putBht w.1 w.2.1 w.2.2)

@[simp] theorem Device.putAll_held (ws : List (Nat × Nat × Word)) : ∀ d : Device, (d.putAll ws).sig.held = d.sig.held := by
  induction ws with
  | nil => exact fun _ => rfl
  | cons w ws ih => exact fun d => ih (d.putBht w.1 w.2.1 w.2.2)

/-- The writes of one entry reach it in their order. -/
theorem Device.putAll_get_self {h : Nat} {ws : List (Nat × Nat × Word)} (mine : ∀ w ∈ ws, w.1 = h) (d : Device) :
    Tab.get ({} : Bht) (d.putAll ws).sig.bht h =
      ws.foldl (fun b w => bhtTakes b w.2.1 w.2.2) (Tab.get ({} : Bht) d.sig.bht h) := by
  induction ws generalizing d with
  | nil => rfl
  | cons w ws ih =>
    obtain ⟨rfl, rest⟩ := List.forall_mem_cons.mp mine
    rw [List.foldl_cons, ← putBht_get_self]
    exact ih rest (d.putBht w.1 w.2.1 w.2.2)

/-- They reach no other. -/
theorem Device.putAll_get_other {h k : Nat} (other : k ≠ h) {ws : List (Nat × Nat × Word)} (mine : ∀ w ∈ ws, w.1 = h) (d : Device) :
    Tab.get ({} : Bht) (d.putAll ws).sig.bht k = Tab.get ({} : Bht) d.sig.bht k := by
  induction ws generalizing d with
  | nil => rfl
  | cons w ws ih =>
    obtain ⟨rfl, rest⟩ := List.forall_mem_cons.mp mine
    rw [← putBht_get_other d w.1 w.2.1 w.2.2 other]
    exact ih rest (d.putBht w.1 w.2.1 w.2.2)

section
variable {s : State} {h : Fin 4096} {word : Fin 4} {x : Word}

theorem exec_bhtWrite_lastw (lastw : word.val = 3) : exec (.bhtWrite h word x) s = .next s := by
  refine next_mapDev ?_
  exact if_pos lastw

theorem exec_bhtWrite_held (takes : word.val ≠ 3) (later : s.dev.sig.named h.val = true ∨ ∃ y ∈ s.dev.sig.held, y.1 = h.val) :
    exec (.bhtWrite h word x) s = .next { s with dev :=
      (s.dev.mapSig (fun z => { z with held := z.held ++ [(h.val, word.val, x)] })).setDevStat 2#8 } := by
  rw [← Signal.any_held_iff, ← Bool.or_eq_true] at later
  refine next_mapDev ?_
  exact (if_neg takes).trans (if_pos later)

theorem exec_bhtWrite_applied (takes : word.val ≠ 3) (unnamed : ¬ s.dev.sig.named h.val = true)
    (first : ∀ y ∈ s.dev.sig.held, y.1 ≠ h.val) :
    exec (.bhtWrite h word x) s = .next { s with dev := s.dev.putBht h.val word.val x } := by
  have now : ¬ (s.dev.sig.named h.val || s.dev.sig.held.any (fun y => y.1 == h.val)) = true := by
    rw [Bool.or_eq_true, Signal.any_held_iff]
    rintro (named | ⟨y, hy, own⟩)
    · exact unnamed named
    · exact first y hy own
  refine next_mapDev ?_
  exact (if_neg takes).trans (if_neg now)

theorem exec_bhtWriteApply_named (named : s.dev.sig.named h.val = true) : exec (.bhtWriteApply h) s = .next s := by
  refine next_mapDev ?_
  exact if_pos named

theorem exec_bhtWriteApply_unnamed (unnamed : ¬ s.dev.sig.named h.val = true) :
    exec (.bhtWriteApply h) s = .next { s with
      dev := (s.dev.putAll (s.dev.sig.held.filter (fun y => y.1 == h.val))).mapSig (fun z => { z with
        held := z.held.filter (fun y => y.1 != h.val) }) } := by
  refine next_mapDev ?_
  exact if_neg unnamed

end

/-! Entries of a sparse table. -/

theorem Tab.mem_set {α : Type} {t : Tab α} {i : Nat} {x : α} {y : Nat × α} : y ∈ Tab.set t i x ↔ y = (i, x) ∨ (y ∈ t ∧ y.1 ≠ i) := by
  simp only [Tab.set, List.mem_append, List.mem_cons, List.mem_filter, decide_eq_true_eq, ne_eq]
  constructor
  · rintro (⟨stands, below⟩ | new | ⟨stands, above⟩)
    · exact .inr ⟨stands, by omega⟩
    · exact .inl new
    · exact .inr ⟨stands, by omega⟩
  · rintro (new | ⟨stands, other⟩)
    · exact .inr (.inl new)
    · rcases Nat.lt_or_gt_of_ne other with below | above
      · exact .inl ⟨stands, below⟩
      · exact .inr (.inr ⟨stands, above⟩)

theorem Tab.mem_erase {α : Type} {t : Tab α} {i : Nat} {y : Nat × α} : y ∈ Tab.erase t i ↔ y ∈ t ∧ y.1 ≠ i := by
  simp [Tab.erase]

/-- A queue without a slot that is put in one has that one. -/
theorem Signal.slotOf_of_set {x y : Signal} {i : Nat} {z : QSlot} (put : y.slots = Tab.set x.slots i z) (unmapped : x.slotOf z.q = none) :
    y.slotOf z.q = some (i, z) := by
  have before : (x.slots.filter (fun c => decide (c.1 < i))).find? (fun s => s.2.q == z.q) = none := by
    rw [List.find?_eq_none]
    intro c hc
    simpa using Signal.slotOf_eq_none_iff.mp unmapped c (List.mem_of_mem_filter hc)
  rw [Signal.slotOf, put, Tab.set, List.find?_append, before, Option.none_or, List.find?_cons, beq_self_eq_true]

/-! Free slots (R352). -/

/-- The lowest slot that none has is the free one. -/
theorem Signal.freeSlot_eq_some {x : Signal} {i : Nat} (inside : i < 128) (free : ∀ y ∈ x.slots, y.1 ≠ i)
    (lower : ∀ j < i, ∃ y ∈ x.slots, y.1 = j) : x.freeSlot = some i := by
  rw [Signal.freeSlot, List.find?_range_eq_some]
  refine ⟨by simpa using free, List.mem_range.mpr inside, fun j below => ?_⟩
  simpa using lower j below

theorem Signal.freeSlot_eq_none {x : Signal} (full : ∀ j < 128, ∃ y ∈ x.slots, y.1 = j) : x.freeSlot = none := by
  rw [Signal.freeSlot, List.find?_range_eq_none]
  exact fun j inside => by simpa using full j inside

/-! A queue takes a slot (R352, R354, R380). -/

/-- The slot of a queue whose context block has words `ws` from its head on. -/
def Device.slotFrom (d : Device) (q : BitVec 16) (ws : List Word) : QSlot :=
  let h := History.ofWords (ws.drop 2)
  { q := q, head := (ws.getD 0 0#64).extractLsb' 0 32, tail := (ws.getD 0 0#64).extractLsb' 32 32, mapped := d.now, hist := h
    lhs := (d.handleList h.lrec).map (fun es => es.map handleOf) }

theorem getD_drop (ws : List Word) (n j : Nat) : (ws.drop n).getD j 0#64 = ws.getD (n + j) 0#64 := by
  rw [List.getD_eq_getElem?_getD, List.getElem?_drop, List.getD_eq_getElem?_getD]

/-- Cutting or filling a list keeps the words below its length; those past the end read as zero before and after. -/
theorem padTo_getD (n : Nat) (ws : List Word) {j : Nat} (inside : j < n) : (padTo n ws).getD j 0#64 = ws.getD j 0#64 := by
  simp only [padTo, List.getD_eq_getElem?_getD, List.getElem?_take, inside, if_true, List.getElem?_append]
  split
  · rfl
  · rename_i past
    rw [List.getElem?_eq_none (Nat.le_of_not_lt past), List.getElem?_replicate]
    split <;> rfl

theorem History.ofWords_lrec_getD (ws : List Word) {j : Nat} (inside : j < 16) :
    (History.ofWords ws).lrec.getD j 0#64 = ws.getD (1 + j) 0#64 := by
  rw [History.ofWords, padTo_getD 16 _ inside, getD_drop]

/-- The history in a slot is what words 2 to 52 of the block hold. -/
theorem Device.slotFrom_hist (d : Device) (q : BitVec 16) (ws : List Word) :
    (d.slotFrom q ws).hist.lseq = (ws.getD 2 0#64).extractLsb' 32 32 ∧ (d.slotFrom q ws).hist.valid = (ws.getD 2 0#64).getLsbD 2 ∧
    (d.slotFrom q ws).hist.conf = (ws.getD 2 0#64).extractLsb' 0 2 ∧
    ∀ j < 16, (d.slotFrom q ws).hist.lrec.getD j 0#64 = ws.getD (3 + j) 0#64 := by
  have first : (ws.drop 2).getD 0 0#64 = ws.getD 2 0#64 := getD_drop ws 2 0
  refine ⟨?_, ?_, ?_, fun j inside => ?_⟩
  · rw [← first]; rfl
  · rw [← first]; rfl
  · rw [← first]; rfl
  · refine (History.ofWords_lrec_getD (ws.drop 2) inside).trans ?_
    rw [getD_drop, ← Nat.add_assoc]

section
variable (d : Device) (q : BitVec 16) (i : Nat)

/-- A queue that is given a slot waits no longer, and takes the slot when its context can be read; nothing else changes but DEV_STAT. -/
theorem Device.mapInto_eq : ∃ r ts, d.mapInto q i = d.mapSig (fun x => { x with regs := r, wanted := x.wanted.filter (· != q), slots := ts }) ∧
    (ts = d.sig.slots ∨ ∃ z : QSlot, z.q = q ∧ ts = Tab.set d.sig.slots i z) := by
  unfold Device.mapInto
  split
  · exact ⟨_, _, rfl, .inl rfl⟩
  · exact ⟨_, _, rfl, .inl rfl⟩
  · split
    · exact ⟨_, _, rfl, .inl rfl⟩
    · exact ⟨_, _, rfl, .inr ⟨_, rfl, rfl⟩⟩

@[simp] theorem Device.mapInto_mem : (d.mapInto q i).mem = d.mem := by
  obtain ⟨r, ts, eq, -⟩ := d.mapInto_eq q i
  rw [eq, mapSig_mem]

@[simp] theorem Device.mapInto_specs : (d.mapInto q i).sig.specs = d.sig.specs := by
  obtain ⟨r, ts, eq, -⟩ := d.mapInto_eq q i
  rw [eq, mapSig_sig]

@[simp] theorem Device.mapInto_wanted : (d.mapInto q i).sig.wanted = d.sig.wanted.filter (· != q) := by
  obtain ⟨r, ts, eq, -⟩ := d.mapInto_eq q i
  rw [eq, mapSig_sig]

theorem Device.not_mem_mapInto_wanted : q ∉ (d.mapInto q i).sig.wanted := by simp

variable {d q i}

/-- Every other slot stands. -/
theorem Device.mem_mapInto_slots {y : Nat × QSlot} (other : y.1 ≠ i) : y ∈ (d.mapInto q i).sig.slots ↔ y ∈ d.sig.slots := by
  obtain ⟨r, ts, eq, rfl | ⟨z, -, rfl⟩⟩ := d.mapInto_eq q i
  · rw [eq, mapSig_sig]
  · have old : y ≠ (i, z) := fun same => other (congrArg Prod.fst same)
    rw [eq, mapSig_sig, Tab.mem_set, or_iff_right old, and_iff_left other]

/-- No other queue comes in. -/
theorem Device.slotOf_mapInto_other {p : BitVec 16} (other : p ≠ q) (unmapped : d.sig.slotOf p = none) :
    (d.mapInto q i).sig.slotOf p = none := by
  rw [Signal.slotOf_eq_none_iff] at unmapped ⊢
  obtain ⟨r, ts, eq, rfl | ⟨z, rfl, rfl⟩⟩ := d.mapInto_eq q i
  · rw [eq, mapSig_sig]
    exact unmapped
  · rw [eq, mapSig_sig]
    intro y hy
    rcases Tab.mem_set.mp hy with rfl | ⟨stands, -⟩
    · exact other.symm
    · exact unmapped y stands

theorem Device.mapInto_absent (absent : d.ctx q = .absent) :
    d.mapInto q i = d.mapSig (fun x => { x with wanted := x.wanted.filter (· != q) }) := by
  simp only [Device.mapInto, absent]

theorem Device.mapInto_failed (failed : d.ctx q = .failed) :
    d.mapInto q i = (d.mapSig (fun x => { x with wanted := x.wanted.filter (· != q) })).setDevStat 8#8 := by
  simp only [Device.mapInto, failed]

variable {c : Ctx} (read : d.ctx q = .ok c)
include read

theorem Device.mapInto_unread (unread : d.wordsVa (c.va + 16) 51 = none) :
    d.mapInto q i = (d.mapSig (fun x => { x with wanted := x.wanted.filter (· != q) })).setDevStat 8#8 := by
  simp only [Device.mapInto, read, unread]

variable {ws : List Word} (words : d.wordsVa (c.va + 16) 51 = some ws)
include words

theorem Device.mapInto_read : d.mapInto q i =
    d.mapSig (fun x => { x with wanted := x.wanted.filter (· != q), slots := Tab.set x.slots i (d.slotFrom q ws) }) := by
  simp only [Device.mapInto, read, words]
  rfl

theorem Device.slotOf_mapInto_self (unmapped : d.sig.slotOf q = none) :
    (d.mapInto q i).sig.slotOf q = some (i, d.slotFrom q ws) := by
  rw [mapInto_read read words]
  exact Signal.slotOf_of_set (z := d.slotFrom q ws) rfl unmapped

end

/-! The borrower (R354). -/

/-- The queue mapped longest ago among those seen so far. -/
def oldest (m : Option QSlot) (x : Nat × QSlot) : Option QSlot :=
  match m with
  | none => some x.2
  | some y => if x.2.mapped < y.mapped then some x.2 else some y

/-- Of slots of which there is one, one is found that was mapped no later than any. -/
theorem foldl_oldest {xs : List (Nat × QSlot)} (nonempty : xs ≠ []) :
    ∃ y ∈ xs, xs.foldl oldest none = some y.2 ∧ ∀ z ∈ xs, y.2.mapped ≤ z.2.mapped := by
  induction xs using List.reverseRecOn with
  | nil => exact absurd rfl nonempty
  | append_singleton xs x ih =>
    simp only [List.foldl_concat, List.forall_mem_append, List.forall_mem_singleton]
    by_cases empty : xs = []
    · subst empty
      exact ⟨x, List.mem_singleton_self x, rfl, nofun, Nat.le_refl _⟩
    · obtain ⟨y, hy, found, all⟩ := ih empty
      rw [found, oldest]
      by_cases older : x.2.mapped < y.2.mapped
      · exact ⟨x, List.mem_append_right _ (List.mem_singleton_self x), if_pos older,
          fun z hz => Nat.le_trans (Nat.le_of_lt older) (all z hz), Nat.le_refl _⟩
      · exact ⟨y, List.mem_append_left _ hy, if_neg older, all, Nat.le_of_not_lt older⟩

/-- The highest class that borrows is the one that is found. -/
theorem find_highest {p : Nat → Bool} (borrows : ∃ k < 4, p k = true) :
    ∃ c, [3, 2, 1, 0].find? p = some c ∧ p c = true ∧ ∀ k < 4, c < k → p k = false := by
  obtain ⟨j, inside, hj⟩ := borrows
  obtain ⟨c, found⟩ : ∃ c, [3, 2, 1, 0].find? p = some c :=
    Option.isSome_iff_exists.mp (List.find?_isSome.mpr ⟨j, by simp; omega, hj⟩)
  refine ⟨c, found, List.find?_some found, fun k inside' above => ?_⟩
  obtain ⟨-, before, after, split, skipped⟩ := List.find?_eq_some_iff_append.mp found
  have falling : [3, 2, 1, 0].Pairwise (· > ·) := by decide
  have listed : k ∈ [3, 2, 1, 0] := by simp; omega
  rw [split] at falling listed
  obtain ⟨lower, -⟩ := List.pairwise_cons.mp (List.pairwise_append.mp falling).2.1
  rcases List.mem_append.mp listed with earlier | later
  · simpa using skipped k earlier
  · rcases List.mem_cons.mp later with rfl | rest
    · exact absurd above (Nat.lt_irrefl _)
    · exact absurd above (Nat.lt_asymm (lower k rest))

section
variable {d : Device}

/-- The borrower is the oldest of the class that is found. -/
theorem Device.borrower_of_class {c : Nat} (found : [3, 2, 1, 0].find? (fun c => decide (d.sig.regs.classMinOf c < d.slotsHeld c)) = some c) :
    d.borrower = ((d.sig.slots.filter (fun x => d.qclass x.2.q == c)).foldl oldest none).map (·.q) := by
  rw [Device.borrower, found]
  rfl

theorem Device.borrower_eq_none (within : ∀ k < 4, d.slotsHeld k ≤ d.sig.regs.classMinOf k) : d.borrower = none := by
  have nobody : [3, 2, 1, 0].find? (fun c => decide (d.sig.regs.classMinOf c < d.slotsHeld c)) = none := by
    simpa using ⟨within 3 (by decide), within 2 (by decide), within 1 (by decide), within 0 (by decide)⟩
  rw [Device.borrower, nobody]

/-- Where a class borrows, the borrower is a mapped queue of the highest that does, mapped no later than another of it. -/
theorem Device.borrower_eq_some (borrows : ∃ k < 4, d.sig.regs.classMinOf k < d.slotsHeld k) :
    ∃ y ∈ d.sig.slots, d.borrower = some y.2.q ∧ d.sig.regs.classMinOf (d.qclass y.2.q) < d.slotsHeld (d.qclass y.2.q) ∧
      (∀ k < 4, d.qclass y.2.q < k → d.slotsHeld k ≤ d.sig.regs.classMinOf k) ∧
      ∀ z ∈ d.sig.slots, d.qclass z.2.q = d.qclass y.2.q → y.2.mapped ≤ z.2.mapped := by
  obtain ⟨c, found, more, higher⟩ := find_highest (p := fun c => decide (d.sig.regs.classMinOf c < d.slotsHeld c)) (by simpa using borrows)
  have holds : d.sig.slots.filter (fun x => d.qclass x.2.q == c) ≠ [] := by
    have : d.sig.regs.classMinOf c < d.slotsHeld c := of_decide_eq_true more
    exact List.length_pos_iff.mp (Nat.zero_lt_of_lt this)
  obtain ⟨y, hy, first, all⟩ := foldl_oldest holds
  obtain ⟨mapped, own⟩ := List.mem_filter.mp hy
  obtain rfl : d.qclass y.2.q = c := by simpa using own
  refine ⟨y, mapped, by rw [borrower_of_class found, first]; rfl, of_decide_eq_true more, fun k inside above => ?_, fun z hz same => ?_⟩
  · simpa using higher k inside above
  · exact all z (List.mem_filter.mpr ⟨hz, by simpa using same⟩)

end

/-! SLOT_MAP (R352, R354). -/

section
variable {s : State} {q : BitVec 16}

/-- A queue that does not wait, or is mapped, gets nothing. -/
theorem exec_slotMap_idle (idle : q ∉ s.dev.sig.wanted ∨ s.dev.sig.slotOf q ≠ none) : exec (.slotMap q) s = .next s := by
  have test : (!s.dev.sig.wanted.contains q || (s.dev.sig.slotOf q).isSome) = true := by
    simpa [Option.isSome_iff_ne_none] using idle
  refine next_mapDev ?_
  exact if_pos test

variable (waits : q ∈ s.dev.sig.wanted) (unmapped : s.dev.sig.slotOf q = none)
include waits unmapped

theorem not_slotMap_idle : ¬ (!s.dev.sig.wanted.contains q || (s.dev.sig.slotOf q).isSome) = true := by
  simp [waits, unmapped]

/-- A queue whose context cannot be read is passed over. -/
theorem exec_slotMap_unread (unread : s.dev.ctx q = .absent ∨ s.dev.ctx q = .failed) :
    ∃ i, exec (.slotMap q) s = .next { s with dev := s.dev.mapInto q i } := by
  refine ⟨s.dev.sig.freeSlot.getD 0, next_mapDev ((if_neg (not_slotMap_idle waits unmapped)).trans ?_)⟩
  rcases unread with read | read <;> rw [read] <;> cases s.dev.sig.freeSlot <;> rfl

/-- With a free slot, a queue takes that. -/
theorem exec_slotMap_free {i : Nat} (free : s.dev.sig.freeSlot = some i) :
    exec (.slotMap q) s = .next { s with dev := s.dev.mapInto q i } := by
  refine next_mapDev ((if_neg (not_slotMap_idle waits unmapped)).trans ?_)
  rw [free]
  rfl

variable {c : Ctx} (full : s.dev.sig.freeSlot = none) (read : s.dev.ctx q = .ok c)
include full read

/-- Without one it waits, while a slot is being given up, its class has what it may have, or no class borrows. -/
theorem exec_slotMap_waits (no : (∃ y ∈ s.dev.sig.slots, y.2.unmapping = true) ∨ s.dev.sig.regs.classMinOf c.cls.toNat ≤ s.dev.slotsHeld c.cls.toNat ∨
    s.dev.borrower = none) : exec (.slotMap q) s = .next s := by
  refine next_mapDev ((if_neg (not_slotMap_idle waits unmapped)).trans ?_)
  rw [full, read]
  rw [← or_assoc] at no
  rcases no with no | nobody
  · exact if_pos (by simpa using no)
  · rw [nobody]
    exact ite_self _

/-- Else the borrower begins to be unmapped, for it. -/
theorem exec_slotMap_borrows (calm : ∀ y ∈ s.dev.sig.slots, y.2.unmapping = false)
    (few : s.dev.slotsHeld c.cls.toNat < s.dev.sig.regs.classMinOf c.cls.toNat) {b : BitVec 16} (borrower : s.dev.borrower = some b) :
    exec (.slotMap q) s = .next { s with dev := s.dev.mapSlot b (fun x => { x with unmapping := true, heir := some q }) } := by
  have may : ¬ (s.dev.sig.slots.any (fun x => x.2.unmapping) || decide (s.dev.sig.regs.classMinOf c.cls.toNat ≤ s.dev.slotsHeld c.cls.toNat)) = true := by
    rw [Bool.or_eq_true, List.any_eq_true, decide_eq_true_eq]
    rintro (⟨y, hy, going⟩ | enough)
    · exact Bool.false_ne_true ((calm y hy).symm.trans going)
    · exact Nat.not_le_of_lt few enough
  refine next_mapDev ((if_neg (not_slotMap_idle waits unmapped)).trans ?_)
  rw [full, read, borrower]
  exact if_neg may

end

/-! SLOT_UNMAP (R354, R355, R380, R397). -/

/-- A queue gives up slot `i`; its speculations that are not adopted miss. -/
def Device.giveUp (d : Device) (q : BitVec 16) (i : Nat) : Device :=
  (d.mapSig (fun y => { y with slots := Tab.erase y.slots i })).missSpec (fun p => p.svc.q == q)

/-- The queue for which a slot was freed takes it, if it still waits for one. -/
def Device.passOn (d : Device) (heir : Option (BitVec 16)) (i : Nat) : Device :=
  match heir with
  | some r => if d.sig.wanted.contains r && (d.sig.slotOf r).isNone then d.mapInto r i else d
  | none => d

/-- A queue asks again while records wait (R355). -/
def Device.askAgain (d : Device) (x : QSlot) (q : BitVec 16) : Device := if x.tail = x.head then d else d.want q

section
variable (d : Device) (q : BitVec 16) (i : Nat)

theorem Device.giveUp_slots {y : Nat × QSlot} : y ∈ (d.giveUp q i).sig.slots ↔ y ∈ d.sig.slots ∧ y.1 ≠ i := Tab.mem_erase

/-- A queue that had no other slot has none. -/
theorem Device.slotOf_giveUp {p : BitVec 16} (only : ∀ y ∈ d.sig.slots, y.2.q = p → y.1 = i) : (d.giveUp q i).sig.slotOf p = none := by
  rw [Signal.slotOf_eq_none_iff]
  intro y hy own
  obtain ⟨stood, other⟩ := (d.giveUp_slots q i).mp hy
  exact other (only y stood own)

theorem Device.giveUp_misses : ∀ p ∈ (d.giveUp q i).sig.specs, p.svc.q = q → p.adopted = false → p.cause.isSome = true := by
  simp only [Device.giveUp, Device.missSpec, mapSig_sig, List.forall_mem_map]
  intro p _
  split
  · exact fun _ _ => Speculation.ends_cause ..
  · rename_i stays
    exact fun own free => absurd (by simp [own, free]) stays

/-- What is read of memory is not changed by it. -/
theorem Device.ctx_giveUp (r : BitVec 16) : (d.giveUp q i).ctx r = d.ctx r :=
  (ctx_mapSig (d := d.mapSig _) rfl r).trans (ctx_mapSig rfl r)

theorem Device.wordsVa_giveUp (va n : Nat) : (d.giveUp q i).wordsVa va n = d.wordsVa va n :=
  (wordsVa_mapSig (d := d.mapSig _) rfl va n).trans (wordsVa_mapSig rfl va n)

variable {d i} {heir : Option (BitVec 16)}

/-- Either the heir gets the slot, or nothing happens. -/
theorem Device.passOn_cases : d.passOn heir i = d ∨ ∃ r, heir = some r ∧ d.passOn heir i = d.mapInto r i := by
  unfold Device.passOn
  split
  · split
    · exact .inr ⟨_, rfl, rfl⟩
    · exact .inl rfl
  · exact .inl rfl

theorem Device.passOn_some {r : BitVec 16} (waits : r ∈ d.sig.wanted) (unmapped : d.sig.slotOf r = none) :
    d.passOn (some r) i = d.mapInto r i := if_pos (by simp [waits, unmapped])

@[simp] theorem Device.passOn_mem : (d.passOn heir i).mem = d.mem := by
  obtain eq | ⟨r, -, eq⟩ := d.passOn_cases (heir := heir) (i := i)
  · rw [eq]
  · rw [eq, mapInto_mem]

@[simp] theorem Device.passOn_specs : (d.passOn heir i).sig.specs = d.sig.specs := by
  obtain eq | ⟨r, -, eq⟩ := d.passOn_cases (heir := heir) (i := i)
  · rw [eq]
  · rw [eq, mapInto_specs]

theorem Device.mem_passOn_slots {y : Nat × QSlot} (other : y.1 ≠ i) : y ∈ (d.passOn heir i).sig.slots ↔ y ∈ d.sig.slots := by
  obtain eq | ⟨r, -, eq⟩ := d.passOn_cases (heir := heir) (i := i)
  · rw [eq]
  · rw [eq, mem_mapInto_slots other]

theorem Device.slotOf_passOn_other {p : BitVec 16} (other : heir ≠ some p) (unmapped : d.sig.slotOf p = none) :
    (d.passOn heir i).sig.slotOf p = none := by
  obtain eq | ⟨r, rfl, eq⟩ := d.passOn_cases (heir := heir) (i := i)
  · rw [eq]
    exact unmapped
  · rw [eq]
    exact slotOf_mapInto_other (fun same => other (congrArg some same.symm)) unmapped

variable (d) (x : QSlot)

/-- Asking again changes the waiting list alone. -/
theorem Device.askAgain_eq : ∃ ws, d.askAgain x q = d.mapSig (fun y => { y with wanted := ws }) ∧
    (∀ r ∈ ws, r ∈ d.sig.wanted ∨ r = q) ∧ (x.tail ≠ x.head → d.sig.slotOf q = none → q ∈ ws) := by
  unfold Device.askAgain
  split
  · rename_i done
    exact ⟨d.sig.wanted, rfl, fun r waits => .inl waits, fun records => absurd done records⟩
  · obtain ⟨ws, eq, only, asks⟩ := d.want_eq q
    exact ⟨ws, eq, only, fun _ => asks⟩

end

/-- What is done once the context block holds what slot `i` held. -/
def Device.vacate (d : Device) (x : QSlot) (q : BitVec 16) (i : Nat) : Device := ((d.giveUp q i).passOn x.heir i).askAgain x q

section
variable (d : Device) (x : QSlot) (q : BitVec 16) (i : Nat)

theorem Device.vacate_eq : ∃ ws, d.vacate x q i = ((d.giveUp q i).passOn x.heir i).mapSig (fun y => { y with wanted := ws }) ∧
    (∀ r ∈ ws, r ∈ ((d.giveUp q i).passOn x.heir i).sig.wanted ∨ r = q) ∧
    (x.tail ≠ x.head → ((d.giveUp q i).passOn x.heir i).sig.slotOf q = none → q ∈ ws) := Device.askAgain_eq ..

theorem Device.vacate_mem : (d.vacate x q i).mem = d.mem := by
  obtain ⟨ws, eq, -⟩ := d.vacate_eq x q i
  rw [eq, mapSig_mem, passOn_mem]
  rfl

theorem Device.vacate_misses : ∀ p ∈ (d.vacate x q i).sig.specs, p.svc.q = q → p.adopted = false → p.cause.isSome = true := by
  obtain ⟨ws, eq, -⟩ := d.vacate_eq x q i
  rw [eq, mapSig_sig, passOn_specs]
  exact d.giveUp_misses q i

variable {d x q i}

theorem Device.mem_vacate_slots {y : Nat × QSlot} (other : y.1 ≠ i) : y ∈ (d.vacate x q i).sig.slots ↔ y ∈ d.sig.slots := by
  obtain ⟨ws, eq, -⟩ := d.vacate_eq x q i
  rw [eq, mapSig_sig, mem_passOn_slots other, giveUp_slots, and_iff_left other]

/-- Without an heir the slot is free. -/
theorem Device.vacate_free (nobody : x.heir = none) : ∀ y ∈ (d.vacate x q i).sig.slots, y.1 ≠ i := by
  obtain ⟨ws, eq, -⟩ := d.vacate_eq x q i
  rw [eq, mapSig_sig, nobody]
  exact fun y hy => ((d.giveUp_slots q i).mp hy).2

/-- An heir that waits takes the slot, with its own context block. -/
theorem Device.vacate_heir {r : BitVec 16} {a : Ctx} {ws : List Word} (heir : x.heir = some r) (different : r ≠ q) (waits : r ∈ d.sig.wanted)
    (unmapped : d.sig.slotOf r = none) (block : d.ctx r = .ok a) (words : d.wordsVa (a.va + 16) 51 = some ws) :
    r ∉ (d.vacate x q i).sig.wanted ∧ (d.vacate x q i).sig.slotOf r = some (i, (d.giveUp q i).slotFrom r ws) := by
  have away : (d.giveUp q i).sig.slotOf r = none :=
    d.slotOf_giveUp q i fun y hy own => absurd own (Signal.slotOf_eq_none_iff.mp unmapped y hy)
  have taken := slotOf_mapInto_self (i := i) ((d.ctx_giveUp q i r).trans block) ((d.wordsVa_giveUp q i _ _).trans words) away
  obtain ⟨vs, eq, only, -⟩ := d.vacate_eq x q i
  rw [heir, passOn_some (d := d.giveUp q i) waits away] at eq only
  rw [eq]
  exact ⟨fun asks => (only r asks).elim (not_mem_mapInto_wanted _ r i) different, taken⟩

variable (others : x.heir ≠ some q) (only : ∀ y ∈ d.sig.slots, y.2.q = q → y.1 = i)
include others only

/-- The queue itself has no slot then. -/
theorem Device.slotOf_vacate : (d.vacate x q i).sig.slotOf q = none := by
  obtain ⟨ws, eq, -⟩ := d.vacate_eq x q i
  rw [eq]
  exact slotOf_passOn_other others (d.slotOf_giveUp q i only)

/-- It waits for one while it has records. -/
theorem Device.mem_vacate_wanted (records : x.tail ≠ x.head) : q ∈ (d.vacate x q i).sig.wanted := by
  obtain ⟨ws, eq, -, asks⟩ := d.vacate_eq x q i
  rw [eq]
  exact asks records (slotOf_passOn_other others (d.slotOf_giveUp q i only))

end

section
variable {s : State} {q : BitVec 16} {i : Nat} {x : QSlot}

theorem exec_slotUnmap_arm : exec (.slotUnmap q) s = execSlotUnmap q s := rfl

theorem exec_slotUnmap_unmapped (unmapped : s.dev.sig.slotOf q = none) : exec (.slotUnmap q) s = .next s := by
  simp only [exec_slotUnmap_arm, execSlotUnmap, unmapped]

theorem exec_slotUnmap_stays (mapped : s.dev.sig.slotOf q = some (i, x)) (stays : x.unmapping = false) : exec (.slotUnmap q) s = .next s := by
  simp only [exec_slotUnmap_arm, execSlotUnmap, mapped, stays, Bool.not_false, if_true]

/-- A queue whose context block takes what its slot holds gives up the slot, which passes to the queue for which it was freed. -/
theorem exec_slotUnmap {c : Ctx} {u w : State} (mapped : s.dev.sig.slotOf q = some (i, x)) (leaves : x.unmapping = true)
    (read : s.dev.ctx q = .ok c) (ends : s.writeVa (c.va + 16) (wordBytes [x.tail ++ x.head]) = some u)
    (history : u.writeVa (c.va + 32) (wordBytes (x.hist.words ++ List.replicate 75 0#64)) = some w) :
    exec (.slotUnmap q) s = .next { w with dev := w.dev.vacate x q i } := by
  simp only [exec_slotUnmap_arm, execSlotUnmap, mapped, leaves, read, ends, history, Option.getD_some, Bool.not_true, Bool.false_eq_true, if_false]
  rfl

/-- Writes of the context block leave the cars, the slots and the queues that wait as they were. -/
theorem State.writeVa_keeps {s u : State} {va : Nat} {bs : List Byte} (noStash : ∀ c ∈ s.cars, c.eng.stash = [])
    (made : s.writeVa va bs = some u) : u.car = s.car ∧ u.peers = s.peers ∧ u.dev.sig.slots = s.dev.sig.slots ∧
      u.dev.sig.wanted = s.dev.sig.wanted ∧ u.now = s.now := by
  obtain ⟨t, rfl⟩ := State.writeVa_made noStash made
  obtain ⟨⟨ps, sig⟩, now⟩ := s.dev.writePhys_sig_now t bs
  refine ⟨rfl, rfl, ?_, ?_, now⟩ <;> rw [mapDev_dev, sig]

end

end Sys2Proof.Machine

namespace Sys2Proof.Proofs

open Sys2Proof.Machine Sys2Proof.Claims

/-- The doorbells of O42. -/
theorem doorbellsAdvanceTails : Sys2Proof.Claims.DoorbellsAdvanceTails := by
  intro v i c x s
  dsimp only
  refine ⟨fun unserved => exec_queueDoorbell_unserved unserved, ?_, ?_, fun served legal read => ?_⟩
  · rintro (reserved | absent)
    · exact exec_queueDoorbell_stays (State.doorbell_reserved reserved)
    · exact exec_queueDoorbell_stays (State.doorbell_absent absent)
  · exact fun served legal failed => ⟨_, exec_queueDoorbell served (State.doorbell_failed legal failed), ⟨rfl, rfl, rfl⟩, rfl, rfl⟩
  have rings := State.doorbell_ring legal read
  refine ⟨?_, ?_, ?_, ?_, ?_⟩
  · exact fun sizeless => ⟨_, exec_queueDoorbell served (rings.trans (State.ring_sizeless sizeless)), ⟨rfl, rfl, rfl⟩, rfl, rfl⟩
  · exact fun low high off => exec_queueDoorbell_stays (rings.trans (State.ring_disabled (Ctx.sane_iff.mpr ⟨low, high⟩) off))
  · exact fun low high on mapped stale => exec_queueDoorbell_stays (rings.trans (State.ring_mapped_stale (Ctx.sane_iff.mpr ⟨low, high⟩) on mapped stale))
  · intro low high on mapped fresh
    refine ⟨_, exec_queueDoorbell served (rings.trans (State.ring_mapped (Ctx.sane_iff.mpr ⟨low, high⟩) on mapped fresh)),
      State.untouched_withDev (Device.noteTail_mem ..), ?_, Device.noteTail_devStat ..⟩
    exact (Device.noteTail_slotOf ..).trans
      (Device.slotOf_mapSlot (f := fun x => { x with tail := v.extractLsb' 0 32 }) (fun _ => rfl) mapped)
  · intro pa w low high on unmapped word own noStash leads inside
    have sane := Ctx.sane_iff.mpr ⟨low, high⟩
    refine ⟨fun stale => exec_queueDoorbell_stays (rings.trans (State.ring_unmapped_stale sane on unmapped word stale)), fun fresh => ?_⟩
    have made := State.writeVa_hbm noStash.2 leads (bytesLE 4 (v.extractLsb' 0 32).toNat)
    obtain ⟨ls, ps, written⟩ := Device.Plain.write (bs := bytesLE 4 (v.extractLsb' 0 32).toNat) (.inl ⟨rfl, own, by simpa using inside⟩)
    refine ⟨_, exec_queueDoorbell served (rings.trans (State.ring_unmapped sane on unmapped word fresh made)), rfl, rfl, ?_, Device.mem_want ?_, ?_⟩
    · rw [State.mapDev_dev, Device.want_mem, Device.noteTail_mem, State.mapDev_dev, written]
    · rw [Device.noteTail_slotOf, State.mapDev_dev, written]
      exact unmapped
    · simp only [State.mapDev_dev, Device.want_regs, Device.noteTail_devStat, written]

/-- The mailboxes and the handle table of O42. -/
theorem mailboxesAndHandleTable : Sys2Proof.Claims.MailboxesAndHandleTable := by
  intro m v h word x s
  dsimp only
  rw [← Signal.named_iff]
  refine ⟨?_, ?_, ?_, exec_bhtWrite_lastw, ?_, ?_, exec_bhtWriteApply_named, ?_⟩
  · rintro (unserved | stale)
    · exact exec_mailboxWrite_unserved unserved
    · exact exec_mailboxWrite_stays (State.mailbox_stale stale)
  · intro pa served fresh noStash place
    have plain : s.dev.Plain (s.dev.mboxTarget m.val) pa (bytesLE 8 v.toNat).length := by
      rw [bytesLE_length]
      exact place
    obtain ⟨ls, ps, written⟩ := plain.write
    refine ⟨_, exec_mailboxWrite served (State.mailbox_fresh fresh noStash.2), rfl, rfl, ?_, ?_⟩
    · rw [State.mapDev_dev, written]
    · rw [State.mapDev_dev, written]
      exact Device.mbox_of_written (d := s.dev) rfl rfl place rfl
  · intro fresh noStash nowhere
    refine exec_mailboxWrite_stays ((State.mailbox_fresh fresh noStash.2).trans (State.mapDev_eq ?_))
    rw [nowhere]
    rfl
  · exact fun takes later => ⟨_, exec_bhtWrite_held takes later, State.untouched_withDev rfl, rfl, rfl, rfl⟩
  · exact fun takes unnamed first => ⟨_, exec_bhtWrite_applied takes unnamed first, State.untouched_withDev rfl,
      Device.putBht_get_self .., fun k other => Device.putBht_get_other _ _ _ _ other, rfl, Device.putBht_dooms s.dev h.val word.val x⟩
  · intro unnamed
    have mine : ∀ w ∈ s.dev.sig.held.filter (fun y => y.1 == h.val), w.1 = h.val := by simp
    refine ⟨_, exec_bhtWriteApply_unnamed unnamed, State.untouched_withDev (Device.putAll_mem ..), Device.putAll_get_self mine _,
      fun k other => Device.putAll_get_other other mine _, ?_⟩
    rw [Device.mapSig_sig, Device.putAll_held]

/-- The slots of O42. -/
theorem slotsComeAndGo : Sys2Proof.Claims.SlotsComeAndGo := by
  intro q i c x s
  dsimp only
  refine ⟨exec_slotMap_idle, fun waits unmapped => ⟨?_, ?_, ?_⟩, ?_, ?_⟩
  · intro unread
    obtain ⟨j, does⟩ := exec_slotMap_unread waits unmapped unread
    refine ⟨_, does, State.untouched_withDev (Device.mapInto_mem ..), Device.not_mem_mapInto_wanted _ _ _, ?_, fun failed => ?_⟩
    · rcases unread with absent | failed
      · rw [Device.mapInto_absent absent]
        rfl
      · rw [Device.mapInto_failed failed]
        rfl
    · rw [Device.mapInto_failed failed]
      rfl
  · intro read inside free lower
    have does := exec_slotMap_free waits unmapped (Signal.freeSlot_eq_some inside free lower)
    refine ⟨fun unread => ?_, fun ws words => ?_⟩
    · refine ⟨_, does, State.untouched_withDev (Device.mapInto_mem ..), Device.not_mem_mapInto_wanted _ _ _, ?_⟩
      rw [Device.mapInto_unread read unread]
      rfl
    · refine ⟨_, s.dev.slotFrom q ws, does, State.untouched_withDev (Device.mapInto_mem ..), Device.not_mem_mapInto_wanted _ _ _,
        Device.slotOf_mapInto_self read words unmapped, rfl, rfl, rfl, rfl, rfl, rfl, s.dev.slotFrom_hist q ws⟩
  · intro read all
    have full := Signal.freeSlot_eq_none all
    refine ⟨fun no => exec_slotMap_waits waits unmapped full read (no.imp_right (Or.imp_right Device.borrower_eq_none)), ?_⟩
    intro calm few borrows
    obtain ⟨y, hy, borrower, more, higher, longest⟩ := Device.borrower_eq_some borrows
    refine ⟨_, y, hy, exec_slotMap_borrows waits unmapped full read calm few borrower, State.untouched_withDev rfl, more, higher, longest, ?_⟩
    simp [Device.mapSlot]
  · rintro (unmapped | ⟨mapped, stays⟩)
    · exact exec_slotUnmap_unmapped unmapped
    · exact exec_slotUnmap_stays mapped stays
  · intro u w mapped leaves read noStash only ends history other
    obtain ⟨uCar, uPeers, uSlots, uWanted, uNow⟩ := State.writeVa_keeps noStash.2 ends
    have uStash : ∀ c ∈ u.cars, c.eng.stash = [] := by
      rw [State.cars, uCar, uPeers]
      exact noStash.2
    obtain ⟨wCar, wPeers, wSlots, wWanted, wNow⟩ := State.writeVa_keeps uStash history
    have slots := wSlots.trans uSlots
    have only' : ∀ y ∈ w.dev.sig.slots, y.2.q = q → y.1 = i := slots ▸ only
    refine ⟨_, exec_slotUnmap mapped leaves read ends history, wCar.trans uCar, wPeers.trans uPeers, Device.vacate_mem ..,
      fun y away => slots ▸ Device.mem_vacate_slots away, Device.slotOf_vacate other only', Device.vacate_free, ?_,
      Device.mem_vacate_wanted other only', Device.vacate_misses _ _ _ _⟩
    intro r a ws heir waits unmapped block words
    have different : r ≠ q := fun same => other (same ▸ heir)
    have unmapped' : w.dev.sig.slotOf r = none := by rw [Signal.slotOf, slots]; exact unmapped
    obtain ⟨gone, taken⟩ := Device.vacate_heir (i := i) heir different (wWanted.trans uWanted ▸ waits) unmapped' block words
    exact ⟨gone, _, taken, rfl, rfl, rfl, wNow.trans uNow, rfl⟩

/-- Settles O42: doorbells and mailboxes write what follows in serial order, handle table writes are applied or held, and a slot that is given
up goes to the queue for which it was freed. -/
theorem doorbellsMailboxesAndSlots : Obligations.DoorbellsMailboxesAndSlots :=
  ⟨doorbellsAdvanceTails, mailboxesAndHandleTable, slotsComeAndGo⟩

end Sys2Proof.Proofs

namespace Sys2Proof

open BitVec (extractLsb'_append_eq_of_add_le extractLsb'_append_eq_of_le extractLsb'_eq_self extractLsb'_extractLsb'_of_le
  extractLsb'_append_extractLsb'_eq_extractLsb')

/-! The END bit (R62). -/

/-- A slot with another END bit (R62). -/
def withEnd (e : BitVec 1) (w : Slot) : Slot := e ++ w.extractLsb' 0 31

/-- No other field of a slot knows its END bit. -/
theorem extractLsb'_withEnd (e : BitVec 1) (w : Slot) {lo n : Nat} (h : lo + n ≤ 31) :
    (withEnd e w).extractLsb' lo n = w.extractLsb' lo n := by
  rw [withEnd, extractLsb'_append_eq_of_add_le h, extractLsb'_extractLsb'_of_le h]

theorem slotEnd_withEnd (e : BitVec 1) (w : Slot) : slotEnd (withEnd e w) = (e == 1#1) := by
  rw [slotEnd, bit, withEnd, extractLsb'_append_eq_of_le (Nat.le_refl 31)]
  exact congrArg (· == 1#1) extractLsb'_eq_self

theorem slotClass_withEnd (e : BitVec 1) (w : Slot) : slotClass (withEnd e w) = slotClass w := extractLsb'_withEnd e w (by decide)

theorem lRange_withEnd (e : BitVec 1) (w : Slot) : lRange (withEnd e w) = lRange w := by
  simp (disch := decide) only [lRange, slotClass, extractLsb'_withEnd]

/-! Fields of the formats (R72, R78, R81 to R83). -/

@[simp] theorem toFin_o6 (a : Fin 64) : (o6 a).toFin = a := rfl
@[simp] theorem toFin_o5 (a : Fin 32) : (o5 a).toFin = a := rfl
@[simp] theorem toFin_o4 (a : Fin 16) : (o4 a).toFin = a := rfl
@[simp] theorem toFin_o3 (a : Fin 8) : (o3 a).toFin = a := rfl
@[simp] theorem ofBool_beq_one (b : Bool) : (BitVec.ofBool b == 1#1) = b := by cases b <;> rfl

theorem fSR_fields (te : Bool) (op : BitVec 7) (d a b : BitVec 6) (m : BitVec 2) :
    (fSR te op d a b m).extractLsb' 27 1 = BitVec.ofBool te ∧ (fSR te op d a b m).extractLsb' 28 3 = 0#3 ∧
    (fSR te op d a b m).extractLsb' 20 7 = op ∧ (fSR te op d a b m).extractLsb' 25 2 = op.extractLsb' 5 2 ∧
    (fSR te op d a b m).extractLsb' 14 6 = d ∧ (fSR te op d a b m).extractLsb' 8 6 = a ∧ (fSR te op d a b m).extractLsb' 2 6 = b ∧
    (fSR te op d a b m).extractLsb' 0 2 = m ∧ (fSR te op d a b m).extractLsb' 1 1 = m.extractLsb' 1 1 ∧
    (fSR te op d a b m).extractLsb' 0 1 = m.extractLsb' 0 1 := by
  unfold fSR
  simp (disch := decide) only [extractLsb'_append_eq_of_add_le, extractLsb'_append_eq_of_le, extractLsb'_eq_self, Nat.reduceSub, and_self]

theorem fSI_fields (te : Bool) (op : BitVec 7) (d a : BitVec 6) (i : BitVec 8) :
    (fSI te op d a i).extractLsb' 27 1 = BitVec.ofBool te ∧ (fSI te op d a i).extractLsb' 28 3 = 0#3 ∧
    (fSI te op d a i).extractLsb' 20 7 = op ∧ (fSI te op d a i).extractLsb' 25 2 = op.extractLsb' 5 2 ∧
    (fSI te op d a i).extractLsb' 14 6 = d ∧ (fSI te op d a i).extractLsb' 8 6 = a ∧ (fSI te op d a i).extractLsb' 0 8 = i ∧
    (fSI te op d a i).extractLsb' 5 3 = i.extractLsb' 5 3 ∧ (fSI te op d a i).extractLsb' 0 5 = i.extractLsb' 0 5 := by
  unfold fSI
  simp (disch := decide) only [extractLsb'_append_eq_of_add_le, extractLsb'_append_eq_of_le, extractLsb'_eq_self, Nat.reduceSub, and_self]

theorem fSX_fields (te : Bool) (op : BitVec 7) (d : BitVec 6) (x : BitVec 14) :
    (fSX te op d x).extractLsb' 27 1 = BitVec.ofBool te ∧ (fSX te op d x).extractLsb' 28 3 = 0#3 ∧
    (fSX te op d x).extractLsb' 20 7 = op ∧ (fSX te op d x).extractLsb' 25 2 = op.extractLsb' 5 2 ∧
    (fSX te op d x).extractLsb' 14 6 = d ∧ (fSX te op d x).extractLsb' 0 14 = x := by
  unfold fSX
  simp (disch := decide) only [extractLsb'_append_eq_of_add_le, extractLsb'_append_eq_of_le, extractLsb'_eq_self, Nat.reduceSub, and_self]

theorem fSA_fields (te : Bool) (f : BitVec 3) (c : BitVec 2) (d a b : BitVec 6) (m : BitVec 2) :
    (fSA te f c d a b m).extractLsb' 27 1 = BitVec.ofBool te ∧ (fSA te f c d a b m).extractLsb' 28 3 = 0#3 ∧
    (fSA te f c d a b m).extractLsb' 25 2 = 2#2 ∧ (fSA te f c d a b m).extractLsb' 22 3 = f ∧ (fSA te f c d a b m).extractLsb' 20 2 = c ∧
    (fSA te f c d a b m).extractLsb' 14 6 = d ∧ (fSA te f c d a b m).extractLsb' 8 6 = a ∧ (fSA te f c d a b m).extractLsb' 2 6 = b ∧
    (fSA te f c d a b m).extractLsb' 0 2 = m := by
  unfold fSA
  simp (disch := decide) only [extractLsb'_append_eq_of_add_le, extractLsb'_append_eq_of_le, extractLsb'_eq_self, Nat.reduceSub, and_self]

theorem fV_fields (te : Bool) (op d a b : BitVec 6) (k : BitVec 3) :
    (fV te op d a b k).extractLsb' 27 1 = BitVec.ofBool te ∧ (fV te op d a b k).extractLsb' 28 3 = 1#3 ∧
    (fV te op d a b k).extractLsb' 21 6 = op ∧ (fV te op d a b k).extractLsb' 15 6 = d ∧ (fV te op d a b k).extractLsb' 9 6 = a ∧
    (fV te op d a b k).extractLsb' 3 6 = b ∧ (fV te op d a b k).extractLsb' 0 3 = k ∧
    (fV te op d a b k).extractLsb' 18 3 = d.extractLsb' 3 3 ∧ (fV te op d a b k).extractLsb' 15 3 = d.extractLsb' 0 3 ∧
    (fV te op d a b k).extractLsb' 19 2 = d.extractLsb' 4 2 ∧ (fV te op d a b k).extractLsb' 15 4 = d.extractLsb' 0 4 ∧
    (fV te op d a b k).extractLsb' 13 2 = a.extractLsb' 4 2 ∧ (fV te op d a b k).extractLsb' 9 4 = a.extractLsb' 0 4 ∧
    (fV te op d a b k).extractLsb' 7 2 = b.extractLsb' 4 2 ∧ (fV te op d a b k).extractLsb' 3 4 = b.extractLsb' 0 4 := by
  unfold fV
  simp (disch := decide) only [extractLsb'_append_eq_of_add_le, extractLsb'_append_eq_of_le, extractLsb'_eq_self, Nat.reduceSub, and_self]

theorem fMC_fields (te : Bool) (op : BitVec 5) (x : BitVec 22) :
    (fMC te op x).extractLsb' 27 1 = BitVec.ofBool te ∧ (fMC te op x).extractLsb' 28 3 = 2#3 ∧ (fMC te op x).extractLsb' 22 5 = op := by
  unfold fMC
  simp (disch := decide) only [extractLsb'_append_eq_of_add_le, extractLsb'_append_eq_of_le, extractLsb'_eq_self, Nat.reduceSub, and_self]

theorem fMC_body (te : Bool) (op : BitVec 5) (x : BitVec 22) {lo n : Nat} (h : lo + n ≤ 22) : (fMC te op x).extractLsb' lo n = x.extractLsb' lo n :=
  extractLsb'_append_eq_of_add_le h

theorem fCY_fields (cl : BitVec 3) (te : Bool) (op : BitVec 6) (x : BitVec 21) :
    (fCY cl te op x).extractLsb' 27 1 = BitVec.ofBool te ∧ (fCY cl te op x).extractLsb' 28 3 = cl ∧ (fCY cl te op x).extractLsb' 21 6 = op := by
  unfold fCY
  simp (disch := decide) only [extractLsb'_append_eq_of_add_le, extractLsb'_append_eq_of_le, extractLsb'_eq_self, Nat.reduceSub, and_self]

theorem fCY_body (cl : BitVec 3) (te : Bool) (op : BitVec 6) (x : BitVec 21) {lo n : Nat} (h : lo + n ≤ 21) : (fCY cl te op x).extractLsb' lo n = x.extractLsb' lo n :=
  extractLsb'_append_eq_of_add_le h

theorem mdOf_fields (w : Bool) : (mdOf w).extractLsb' 0 1 = BitVec.ofBool w ∧ (mdOf w).extractLsb' 1 1 = 0#1 := by
  cases w <;> decide

/-- What stands in an S slot below its opcode, register by register (R72). -/
theorem low_scalar (w : Slot) : w.extractLsb' 0 20 = fD w ++ (fA w ++ (fB w ++ fM w)) ∧ w.extractLsb' 2 18 = fD w ++ (fA w ++ fB w) ∧
    w.extractLsb' 0 14 = fA w ++ (fB w ++ fM w) ∧ w.extractLsb' 0 8 = fB w ++ fM w := by
  have low8 : fB w ++ fM w = w.extractLsb' 0 8 := extractLsb'_append_extractLsb'_eq_extractLsb' rfl
  have low14 : fA w ++ w.extractLsb' 0 8 = w.extractLsb' 0 14 := extractLsb'_append_extractLsb'_eq_extractLsb' rfl
  have low20 : fD w ++ w.extractLsb' 0 14 = w.extractLsb' 0 20 := extractLsb'_append_extractLsb'_eq_extractLsb' rfl
  have mid12 : fA w ++ fB w = w.extractLsb' 2 12 := extractLsb'_append_extractLsb'_eq_extractLsb' rfl
  have mid18 : fD w ++ w.extractLsb' 2 12 = w.extractLsb' 2 18 := extractLsb'_append_extractLsb'_eq_extractLsb' rfl
  refine ⟨?_, ?_, ?_, low8.symm⟩
  · rw [low8, low14, low20]
  · rw [mid12, mid18]
  · rw [low8, low14]

/-- The two fields that VIOTA and VKNOT leave empty (R79). -/
theorem low_vector (w : Slot) : w.extractLsb' 3 12 = w.extractLsb' 9 6 ++ w.extractLsb' 3 6 ∧
    w.extractLsb' 0 9 = w.extractLsb' 3 6 ++ w.extractLsb' 0 3 := by
  have index : w.extractLsb' 9 6 ++ w.extractLsb' 3 6 = w.extractLsb' 3 12 := extractLsb'_append_extractLsb'_eq_extractLsb' rfl
  have mask : w.extractLsb' 3 6 ++ w.extractLsb' 0 3 = w.extractLsb' 0 9 := extractLsb'_append_extractLsb'_eq_extractLsb' rfl
  exact ⟨index.symm, mask.symm⟩

/-! Immediates, offsets and counts in the fewest slots that hold them (R74, R85). -/

theorem immSI_extSI (w : Slot) (x : Word) (h : w.extractLsb' 0 8 = x.extractLsb' 0 8) : immSI w (extSI x) = x := by
  unfold extSI
  split
  · rename_i short
    simpa [immSI, h] using short
  · split
    · rename_i middle
      have joined : x.extractLsb' 8 28 ++ x.extractLsb' 0 8 = x.extractLsb' 0 36 := extractLsb'_append_extractLsb'_eq_extractLsb' rfl
      simpa only [immSI, h, joined, beq_iff_eq] using middle
    · have low : x.extractLsb' 8 28 ++ x.extractLsb' 0 8 = x.extractLsb' 0 36 := extractLsb'_append_extractLsb'_eq_extractLsb' rfl
      have high : x.extractLsb' 36 28 ++ x.extractLsb' 0 36 = x.extractLsb' 0 64 := extractLsb'_append_extractLsb'_eq_extractLsb' rfl
      simp only [immSI, h]
      rw [BitVec.append_assoc, low, high]
      exact extractLsb'_eq_self

theorem offSM_extSM (w : Slot) (x : BitVec 36) (h : w.extractLsb' 0 8 = x.extractLsb' 0 8) : offSM w (extSM x) = x := by
  unfold extSM
  split
  · rename_i short
    simpa [offSM, h] using short
  · simp only [offSM, h]
    exact (extractLsb'_append_extractLsb'_eq_extractLsb' rfl).trans extractLsb'_eq_self

theorem offSB_extSB (w : Slot) (x : BitVec 42) (h : w.extractLsb' 0 14 = x.extractLsb' 0 14) : offSB w (extSB x) = x := by
  unfold extSB
  split
  · rename_i short
    simpa [offSB, h] using short
  · simp only [offSB, h]
    exact (extractLsb'_append_extractLsb'_eq_extractLsb' rfl).trans extractLsb'_eq_self

theorem offVM_extVM (w : Slot) (x : BitVec 34) (h : w.extractLsb' 3 6 = x.extractLsb' 0 6) : offVM w (extVM x) = x := by
  unfold extVM
  split
  · rename_i short
    simpa [offVM, h] using short
  · simp only [offVM, h]
    exact (extractLsb'_append_extractLsb'_eq_extractLsb' rfl).trans extractLsb'_eq_self

theorem immSI_fSI (e : BitVec 1) (te : Bool) (op : BitVec 7) (d a : BitVec 6) (x : Word) :
    immSI (withEnd e (fSI te op d a (x.extractLsb' 0 8))) (extSI x) = x := by
  refine immSI_extSI _ _ ?_
  simp (disch := decide) only [extractLsb'_withEnd, fSI_fields]

theorem offSM_fSI (e : BitVec 1) (te : Bool) (op : BitVec 7) (d a : BitVec 6) (x : BitVec 36) :
    offSM (withEnd e (fSI te op d a (x.extractLsb' 0 8))) (extSM x) = x := by
  refine offSM_extSM _ _ ?_
  simp (disch := decide) only [extractLsb'_withEnd, fSI_fields]

theorem offSB_fSX (e : BitVec 1) (te : Bool) (op : BitVec 7) (d : BitVec 6) (x : BitVec 42) :
    offSB (withEnd e (fSX te op d (x.extractLsb' 0 14))) (extSB x) = x := by
  refine offSB_extSB _ _ ?_
  simp (disch := decide) only [extractLsb'_withEnd, fSX_fields]

theorem offVM_fV (e : BitVec 1) (te : Bool) (op d a : BitVec 6) (x : BitVec 34) (k : BitVec 3) :
    offVM (withEnd e (fV te op d a (x.extractLsb' 0 6) k)) (extVM x) = x := by
  refine offVM_extVM _ _ ?_
  simp (disch := decide) only [extractLsb'_withEnd, fV_fields]

end Sys2Proof

namespace Sys2Proof
open BitVec (extractLsb'_append_eq_of_add_le extractLsb'_append_eq_of_le extractLsb'_eq_self extractLsb'_extractLsb'_of_le
  extractLsb'_append_extractLsb'_eq_extractLsb')

/-! A slot that decodes with its L slots (R62 to R74). -/

/-- The slot and its L payloads decode to the instruction, whatever the END bit, and the form takes the number of its L slots (R64). -/
structure Decodes (w : Slot) (ls : List Payload) (i : Instr) : Prop where
  back : ∀ e, decodeSlot (withEnd e w) ls = .ok i
  cls : (slotClass w).toNat < 5
  least : (lRange w).1 ≤ ls.length
  most : ls.length ≤ (lRange w).2

/-- Only a YLOOP must have an L slot (R64). -/
theorem lRange_least {w : Slot} (h : slotClass w ≠ 4#3 ∨ w.extractLsb' 21 6 ≠ 0x0D#6) : (lRange w).1 = 0 := by
  have distinct : (slotClass w).toNat = 4 → (w.extractLsb' 21 6).toNat ≠ 0x0D := fun four op =>
    h.elim (fun no => no (BitVec.eq_of_toNat_eq four)) (fun no => no (BitVec.eq_of_toNat_eq op))
  unfold lRange
  split
  · dsimp only
    split_ifs <;> rfl
  · dsimp only
    split_ifs <;> rfl
  · rename_i four
    simp only [distinct four, if_false]
    split_ifs <;> rfl
  · rfl

section
variable {w : Slot} {ls : List Payload} {i : Instr}

theorem Decodes.scalar (cls : w.extractLsb' 28 3 = 0#3) (kind : w.extractLsb' 25 2 ≠ 2#2) (most : ls.length ≤ (lRange w).2)
    (back : ∀ e, decodeS (withEnd e w) ls = .ok i) : Decodes w ls i where
  back e := by
    have cls' : slotClass (withEnd e w) = 0#3 := (slotClass_withEnd e w).trans cls
    have kind' : ((withEnd e w).extractLsb' 25 2 == 2#2) = false := by
      rw [extractLsb'_withEnd e w (by decide)]
      exact beq_false_of_ne kind
    rw [decodeSlot, cls', kind', ← back e]
    rfl
  cls := by rw [slotClass, cls]; decide
  least := (lRange_least (.inl (by rw [slotClass, cls]; decide))).symm ▸ Nat.zero_le _
  most := most

theorem Decodes.atomic (cls : w.extractLsb' 28 3 = 0#3) (kind : w.extractLsb' 25 2 = 2#2)
    (back : ∀ e, decodeAtomic (withEnd e w) = .ok i) : Decodes w [] i where
  back e := by
    have cls' : slotClass (withEnd e w) = 0#3 := (slotClass_withEnd e w).trans cls
    rw [decodeSlot, cls', extractLsb'_withEnd e w (by decide), kind, ← back e]
    rfl
  cls := by rw [slotClass, cls]; decide
  least := (lRange_least (.inl (by rw [slotClass, cls]; decide))).symm ▸ Nat.zero_le _
  most := Nat.zero_le _

theorem Decodes.vector (cls : w.extractLsb' 28 3 = 1#3) (most : ls.length ≤ (lRange w).2)
    (back : ∀ e, decodeV (withEnd e w) ls = .ok i) : Decodes w ls i where
  back e := by
    rw [decodeSlot, (slotClass_withEnd e w).trans cls, ← back e]
    rfl
  cls := by rw [slotClass, cls]; decide
  least := (lRange_least (.inl (by rw [slotClass, cls]; decide))).symm ▸ Nat.zero_le _
  most := most

theorem Decodes.optical (cls : w.extractLsb' 28 3 = 2#3) (back : ∀ e, decodeM (withEnd e w) = .ok i) : Decodes w [] i where
  back e := by
    rw [decodeSlot, (slotClass_withEnd e w).trans cls, ← back e]
    rfl
  cls := by rw [slotClass, cls]; decide
  least := (lRange_least (.inl (by rw [slotClass, cls]; decide))).symm ▸ Nat.zero_le _
  most := Nat.zero_le _

theorem Decodes.copy (cls : w.extractLsb' 28 3 = 3#3) (back : ∀ e, decodeC (withEnd e w) = .ok i) : Decodes w [] i where
  back e := by
    rw [decodeSlot, (slotClass_withEnd e w).trans cls, ← back e]
    rfl
  cls := by rw [slotClass, cls]; decide
  least := (lRange_least (.inl (by rw [slotClass, cls]; decide))).symm ▸ Nat.zero_le _
  most := Nat.zero_le _

theorem Decodes.control (cls : w.extractLsb' 28 3 = 4#3) (least : (lRange w).1 ≤ ls.length) (most : ls.length ≤ (lRange w).2)
    (back : ∀ e, decodeY (withEnd e w) ls = .ok i) : Decodes w ls i where
  back e := by
    rw [decodeSlot, (slotClass_withEnd e w).trans cls, ← back e]
    rfl
  cls := by rw [slotClass, cls]; decide
  least := least
  most := most

/-- How many L slots an S, V or Y form takes, from its class and its opcode (R64). -/
theorem lRange_scalar {op : BitVec 7} (cls : w.extractLsb' 28 3 = 0#3) (opcode : w.extractLsb' 20 7 = op) :
    lRange w = if 0x20 ≤ op.toNat ∧ op.toNat ≤ 0x2C then (0, 2) else if 0x30 ≤ op.toNat ∧ op.toNat ≤ 0x3B then (0, 1)
      else if 0x60 ≤ op.toNat ∧ op.toNat ≤ 0x63 then (0, 1) else (0, 0) := by
  rw [lRange, slotClass, cls, opcode]
  rfl

theorem lRange_vector {op : BitVec 6} (cls : w.extractLsb' 28 3 = 1#3) (opcode : w.extractLsb' 21 6 = op) :
    lRange w = if op.toNat = 0x18 ∨ op.toNat = 0x19 ∨ op.toNat = 0x1C ∨ op.toNat = 0x1D ∨ op.toNat = 0x2E ∨ op.toNat = 0x2F
      then (0, 1) else (0, 0) := by
  rw [lRange, slotClass, cls, opcode]
  rfl

theorem lRange_control {op : BitVec 6} (cls : w.extractLsb' 28 3 = 4#3) (opcode : w.extractLsb' 21 6 = op) :
    lRange w = if op.toNat = 0x0D then (1, 1) else if op.toNat = 0x09 ∨ op.toNat = 0x0A ∨ op.toNat = 0x0B then (0, 1) else (0, 0) := by
  rw [lRange, slotClass, cls, opcode]
  rfl

end

theorem length_extSI (x : Word) : (extSI x).length ≤ 2 := by
  unfold extSI
  split_ifs <;> simp

theorem length_extSM (x : BitVec 36) : (extSM x).length ≤ 1 := by
  unfold extSM
  split_ifs <;> simp

theorem length_extSB (x : BitVec 42) : (extSB x).length ≤ 1 := by
  unfold extSB
  split_ifs <;> simp

theorem length_extVM (x : BitVec 34) : (extVM x).length ≤ 1 := by
  unfold extVM
  split_ifs <;> simp

theorem length_extCount (n : Nat) (x : BitVec 16) : (extCount n x).length ≤ 1 := by
  unfold extCount
  split_ifs <;> simp

end Sys2Proof

namespace Sys2Proof
open BitVec (extractLsb'_append_eq_of_add_le extractLsb'_append_eq_of_le extractLsb'_eq_self extractLsb'_extractLsb'_of_le
  extractLsb'_append_extractLsb'_eq_extractLsb')

section
variable (e : BitVec 1) {te : Bool} {ls : List Payload} {i : Instr}

/-- A form of an S slot decodes to what the branch of its opcode gives (R72, R75). -/
theorem Decodes.ofSR {op : BitVec 7} {d a b : BitVec 6} {m : BitVec 2} (kind : op.extractLsb' 5 2 ≠ 2#2)
    (back : ∀ w : Slot, (∃ e, w = withEnd e (fSR te op d a b m)) → w.extractLsb' 20 7 = op → decodeS w [] = .ok i) :
    Decodes (fSR te op d a b m) [] i := by
  obtain ⟨-, cls, opcode, kind', -⟩ := fSR_fields te op d a b m
  exact .scalar cls (kind' ▸ kind) (Nat.zero_le _) fun e => back _ ⟨e, rfl⟩ ((extractLsb'_withEnd e _ (by decide)).trans opcode)

theorem Decodes.ofSI {op : BitVec 7} {d a : BitVec 6} {x : BitVec 8} (kind : op.extractLsb' 5 2 ≠ 2#2) (most : ls.length ≤ 2)
    (form : ls = [] ∨ (0x20 ≤ op.toNat ∧ op.toNat ≤ 0x2C) ∨ (0x30 ≤ op.toNat ∧ op.toNat ≤ 0x3B) ∧ ls.length ≤ 1)
    (back : ∀ w : Slot, (∃ e, w = withEnd e (fSI te op d a x)) → w.extractLsb' 20 7 = op → decodeS w ls = .ok i) :
    Decodes (fSI te op d a x) ls i := by
  obtain ⟨-, cls, opcode, kind', -⟩ := fSI_fields te op d a x
  refine .scalar cls (kind' ▸ kind) ?_ fun e => back _ ⟨e, rfl⟩ ((extractLsb'_withEnd e _ (by decide)).trans opcode)
  rw [lRange_scalar cls opcode]
  obtain rfl | long | ⟨short, one⟩ := form
  · exact Nat.zero_le _
  · rwa [if_pos long]
  · rwa [if_neg (by omega), if_pos short]

theorem Decodes.ofSX {op : BitVec 7} {d : BitVec 6} {x : BitVec 14} (kind : op.extractLsb' 5 2 ≠ 2#2)
    (form : ls = [] ∨ (0x60 ≤ op.toNat ∧ op.toNat ≤ 0x63) ∧ ls.length ≤ 1)
    (back : ∀ w : Slot, (∃ e, w = withEnd e (fSX te op d x)) → w.extractLsb' 20 7 = op → decodeS w ls = .ok i) :
    Decodes (fSX te op d x) ls i := by
  obtain ⟨-, cls, opcode, kind', -⟩ := fSX_fields te op d x
  refine .scalar cls (kind' ▸ kind) ?_ fun e => back _ ⟨e, rfl⟩ ((extractLsb'_withEnd e _ (by decide)).trans opcode)
  rw [lRange_scalar cls opcode]
  obtain rfl | ⟨branch, one⟩ := form
  · exact Nat.zero_le _
  · rwa [if_neg (by omega), if_neg (by omega), if_pos branch]

theorem Decodes.ofSA {f : BitVec 3} {c m : BitVec 2} {d a b : BitVec 6}
    (back : ∀ w : Slot, (∃ e, w = withEnd e (fSA te f c d a b m)) → w.extractLsb' 22 3 = f → decodeAtomic w = .ok i) :
    Decodes (fSA te f c d a b m) [] i := by
  obtain ⟨-, cls, kind, opcode, -⟩ := fSA_fields te f c d a b m
  exact .atomic cls kind fun e => back _ ⟨e, rfl⟩ ((extractLsb'_withEnd e _ (by decide)).trans opcode)

theorem Decodes.ofV {op d a b : BitVec 6} {k : BitVec 3}
    (form : ls = [] ∨ (op.toNat = 0x18 ∨ op.toNat = 0x19 ∨ op.toNat = 0x1C ∨ op.toNat = 0x1D ∨ op.toNat = 0x2E ∨ op.toNat = 0x2F) ∧
      ls.length ≤ 1)
    (back : ∀ w : Slot, (∃ e, w = withEnd e (fV te op d a b k)) → w.extractLsb' 21 6 = op → decodeV w ls = .ok i) :
    Decodes (fV te op d a b k) ls i := by
  obtain ⟨-, cls, opcode, -⟩ := fV_fields te op d a b k
  refine .vector cls ?_ fun e => back _ ⟨e, rfl⟩ ((extractLsb'_withEnd e _ (by decide)).trans opcode)
  rw [lRange_vector cls opcode]
  obtain rfl | ⟨indexed, one⟩ := form
  · exact Nat.zero_le _
  · rwa [if_pos indexed]

/-- The VX operations (R80). -/
theorem Decodes.ofVX {d a b : BitVec 6} {k : BitVec 3}
    (back : ∀ w : Slot, (∃ e, w = withEnd e (fV te 0x3F#6 d a b k)) → w.extractLsb' 3 6 = b → decodeVX w = .ok i) :
    Decodes (fV te 0x3F#6 d a b k) [] i := by
  obtain ⟨-, -, -, -, -, sub, -⟩ := fV_fields te 0x3F#6 d a b k
  refine .ofV (.inl rfl) fun w hw op => ?_
  obtain ⟨e, rfl⟩ := hw
  rw [← back _ ⟨e, rfl⟩ ((extractLsb'_withEnd e _ (by decide)).trans sub), decodeV, op]
  rfl

theorem Decodes.ofM {op : BitVec 5} {x : BitVec 22}
    (back : ∀ w : Slot, (∃ e, w = withEnd e (fMC te op x)) → w.extractLsb' 22 5 = op → decodeM w = .ok i) : Decodes (fMC te op x) [] i := by
  obtain ⟨-, cls, opcode⟩ := fMC_fields te op x
  exact .optical cls fun e => back _ ⟨e, rfl⟩ ((extractLsb'_withEnd e _ (by decide)).trans opcode)

theorem Decodes.ofC {op : BitVec 6} {x : BitVec 21}
    (back : ∀ w : Slot, (∃ e, w = withEnd e (fCY 3#3 te op x)) → w.extractLsb' 21 6 = op → decodeC w = .ok i) :
    Decodes (fCY 3#3 te op x) [] i := by
  obtain ⟨-, cls, opcode⟩ := fCY_fields 3#3 te op x
  exact .copy cls fun e => back _ ⟨e, rfl⟩ ((extractLsb'_withEnd e _ (by decide)).trans opcode)

theorem Decodes.ofY {op : BitVec 6} {x : BitVec 21}
    (form : (op.toNat ≠ 0x0D ∧ ls = []) ∨ (op.toNat = 0x0D ∧ ls.length = 1) ∨ ((op.toNat = 0x09 ∨ op.toNat = 0x0A ∨ op.toNat = 0x0B) ∧ ls.length ≤ 1))
    (back : ∀ w : Slot, (∃ e, w = withEnd e (fCY 4#3 te op x)) → w.extractLsb' 21 6 = op → decodeY w ls = .ok i) :
    Decodes (fCY 4#3 te op x) ls i := by
  obtain ⟨-, cls, opcode⟩ := fCY_fields 4#3 te op x
  have range := lRange_control cls opcode
  refine .control cls ?_ ?_ fun e => back _ ⟨e, rfl⟩ ((extractLsb'_withEnd e _ (by decide)).trans opcode)
  · rw [range]
    obtain ⟨other, rfl⟩ | ⟨loop, one⟩ | ⟨count, one⟩ := form
    · rw [if_neg other]
      split_ifs <;> exact Nat.zero_le _
    · rw [if_pos loop, one]
    · rw [if_neg (by omega), if_pos count]
      exact Nat.zero_le _
  · rw [range]
    obtain ⟨other, rfl⟩ | ⟨loop, one⟩ | ⟨count, one⟩ := form
    · exact Nat.zero_le _
    · rw [if_pos loop, one]
    · rwa [if_neg (by omega), if_pos count]

end

/-- A count in its field or in an L slot (R64, R83). -/
theorem countOf_extCount (n : BitVec 16) : countOf (extCount 15 n) ((countLow n).zeroExtend 16) = n ∧
    countOk (extCount 15 n) (countLow n == 0#15) = true := by
  unfold extCount countLow
  split_ifs with small
  · refine ⟨BitVec.eq_of_toNat_eq ?_, rfl⟩
    simp only [countOf, BitVec.toNat_setWidth, BitVec.extractLsb'_toNat, Nat.shiftRight_zero]
    omega
  · exact ⟨BitVec.extractLsb'_append_eq_right, by simp [countOk, extractLsb'_append_eq_of_le (Nat.le_refl 16)]⟩

theorem countOf_extCount6 (n : BitVec 16) : countOf (extCount 6 n) ((countLow6 n).zeroExtend 16) = n ∧
    countOk (extCount 6 n) (countLow6 n == 0#6) = true := by
  unfold extCount countLow6
  split_ifs with small
  · refine ⟨BitVec.eq_of_toNat_eq ?_, rfl⟩
    simp only [countOf, BitVec.toNat_setWidth, BitVec.extractLsb'_toNat, Nat.shiftRight_zero]
    omega
  · exact ⟨BitVec.extractLsb'_append_eq_right, by simp [countOk, extractLsb'_append_eq_of_le (Nat.le_refl 16)]⟩

/-- The slot and the L payloads of a well-formed slot instruction decode to it. -/
theorem decodes_encodeSlot (i : Instr) (s : Machine.State) (slot : (Machine.slotOf i s).isSome = true) (wf : i.wf = true) :
    Decodes (encodeSlot i).1 (encodeSlot i).2 i := by
  cases i
  case add | sub | and | or | xor | shl | shr | sar | mul | mulh | mulhu | div | divu | rem | remu | min | max | minu | maxu | ceq | cne |
    clt | cltu | cle | cleu | sel | bfx | bfi | wadr =>
    change Decodes (fSR _ _ _ _ _ _) [] _
    refine .ofSR (by decide) ?_
    rintro _ ⟨e, rfl⟩ op
    unfold decodeS
    rw [op]
    show need _ _ _ = _
    simp (disch := decide) only [extractLsb'_withEnd, slotTe, bit, ofBool_beq_one, need, beq_self_eq_true, if_true, toFin_o6,
      fSR_fields, rD, rA, rB, fD, fA, fB, fM, mdOk, w32, mdOf_fields]
  case nop | jr | brk | halt | snapr | rft | drain | drainw | snapst | snapld =>
    change Decodes (fSR _ _ _ _ _ _) [] _
    refine .ofSR (by decide) ?_
    rintro _ ⟨e, rfl⟩ op
    unfold decodeS
    rw [op]
    show need _ _ _ = _
    simp (disch := decide) only [extractLsb'_withEnd, slotTe, bit, ofBool_beq_one, need, beq_self_eq_true, toFin_o6,
      fSR_fields, rA, fD, fA, fB, fM, low_scalar]
    rfl
  case clz | ctz | popc =>
    change Decodes (fSR _ _ _ _ _ _) [] _
    refine .ofSR (by decide) ?_
    rintro _ ⟨e, rfl⟩ op
    unfold decodeS
    rw [op]
    show (if _ then need _ _ _ else _) = _
    simp (disch := decide) only [extractLsb'_withEnd, slotTe, bit, ofBool_beq_one, need, beq_self_eq_true, if_true, toFin_o6,
      fSR_fields, rD, rA, fD, fA, fB, mdOk, w32, mdOf_fields]
  case xlt | hinv | hrd =>
    change Decodes (fSR _ _ _ _ _ _) [] _
    refine .ofSR (by decide) ?_
    rintro _ ⟨e, rfl⟩ op
    unfold decodeS
    rw [op]
    show (if _ then need _ _ _ else _) = _
    simp (disch := decide) only [extractLsb'_withEnd, slotTe, bit, ofBool_beq_one, need, beq_self_eq_true, if_true, toFin_o6,
      fSR_fields, rD, rA, fD, fA, fB, fM, low_scalar]
    exact if_pos wf
  case addi | andi | ori | xori | muli | ceqi | cnei | clti | cltui =>
    change Decodes (fSI _ _ _ _ _) (extSI _) _
    refine .ofSI (by decide) (length_extSI _) (.inr (.inl (by decide))) ?_
    rintro _ ⟨e, rfl⟩ op
    unfold decodeS
    rw [op]
    show Except.ok _ = _
    simp (disch := decide) only [extractLsb'_withEnd, slotTe, bit, ofBool_beq_one, toFin_o6,
      fSI_fields, rD, rA, fD, fA, immSI_fSI]
  case li =>
    change Decodes (fSI _ _ _ _ _) (extSI _) _
    refine .ofSI (by decide) (length_extSI _) (.inr (.inl (by decide))) ?_
    rintro _ ⟨e, rfl⟩ op
    unfold decodeS
    rw [op]
    show need _ _ _ = _
    simp (disch := decide) only [extractLsb'_withEnd, slotTe, bit, ofBool_beq_one, need, beq_self_eq_true, if_true, toFin_o6,
      fSI_fields, rD, fD, fA, immSI_fSI]
  case shli | shri | sari =>
    change Decodes (fSI _ _ _ _ _) (extSI _) _
    refine .ofSI (by decide) (length_extSI _) (.inr (.inl (by decide))) ?_
    rintro _ ⟨e, rfl⟩ op
    unfold decodeS
    rw [op]
    show need _ _ _ = _
    simp (disch := decide) only [extractLsb'_withEnd, slotTe, bit, ofBool_beq_one, need, toFin_o6,
      fSI_fields, rD, rA, fD, fA, immSI_fSI]
    exact if_pos wf
  case hadr =>
    change Decodes (fSI _ _ _ _ _) [] _
    refine .ofSI (by decide) (by decide) (.inl rfl) ?_
    rintro _ ⟨e, rfl⟩ op
    unfold decodeS
    rw [op]
    show need _ _ _ = _
    simp (disch := decide) only [extractLsb'_withEnd, slotTe, bit, ofBool_beq_one, need, beq_self_eq_true, if_true, toFin_o6,
      fSI_fields, rD, rA, fD, fA, toFin_o5, extractLsb'_append_eq_of_add_le, extractLsb'_append_eq_of_le,
      extractLsb'_eq_self, Nat.reduceSub]
  case ldb | ldbu | ldh | ldhu | ldw | ldwu | ldd | stb | sth | stw | std =>
    change Decodes (fSI _ _ _ _ _) (extSM _) _
    refine .ofSI (by decide) (Nat.le_succ_of_le (length_extSM _)) (.inr (.inr ⟨by decide, length_extSM _⟩)) ?_
    rintro _ ⟨e, rfl⟩ op
    unfold decodeS
    rw [op]
    show Except.ok _ = _
    simp (disch := decide) only [extractLsb'_withEnd, slotTe, bit, ofBool_beq_one, toFin_o6,
      fSI_fields, rD, rA, fD, fA, offSM_fSI]
  case pfs =>
    change Decodes (fSI _ _ _ _ _) (extSM _) _
    refine .ofSI (by decide) (Nat.le_succ_of_le (length_extSM _)) (.inr (.inr ⟨by decide, length_extSM _⟩)) ?_
    rintro _ ⟨e, rfl⟩ op
    unfold decodeS
    rw [op]
    show need _ _ _ = _
    simp (disch := decide) only [extractLsb'_withEnd, slotTe, bit, ofBool_beq_one, need, beq_self_eq_true, if_true, toFin_o6,
      fSI_fields, rA, fD, fA, offSM_fSI]
  case br | call =>
    change Decodes (fSX _ _ _ _) (extSB _) _
    refine .ofSX (by decide) (.inr ⟨by decide, length_extSB _⟩) ?_
    rintro _ ⟨e, rfl⟩ op
    unfold decodeS
    rw [op]
    show need _ _ _ = _
    simp (disch := decide) only [extractLsb'_withEnd, slotTe, bit, ofBool_beq_one, need, beq_self_eq_true, if_true, fSX_fields, fD, offSB_fSX]
  case bnz | bz =>
    change Decodes (fSX _ _ _ _) (extSB _) _
    refine .ofSX (by decide) (.inr ⟨by decide, length_extSB _⟩) ?_
    rintro _ ⟨e, rfl⟩ op
    unfold decodeS
    rw [op]
    show Except.ok _ = _
    simp (disch := decide) only [extractLsb'_withEnd, slotTe, bit, ofBool_beq_one, toFin_o6,
      fSX_fields, rD, fD, offSB_fSX]
  case trap =>
    change Decodes (fSX _ _ _ _) [] _
    refine .ofSX (by decide) (.inl rfl) ?_
    rintro _ ⟨e, rfl⟩ op
    unfold decodeS
    rw [op]
    show need _ _ _ = _
    simp (disch := decide) only [extractLsb'_withEnd, slotTe, bit, ofBool_beq_one, need, beq_self_eq_true, if_true, fSX_fields, fD]
  case srd | swr | tsr =>
    change Decodes (fSX _ _ _ _) [] _
    refine .ofSX (by decide) (.inl rfl) ?_
    rintro _ ⟨e, rfl⟩ op
    unfold decodeS
    rw [op]
    show Except.ok _ = _
    simp (disch := decide) only [extractLsb'_withEnd, slotTe, bit, ofBool_beq_one, toFin_o6,
      fSX_fields, rD, fD]
  case ald | ast =>
    change Decodes (fSA _ _ _ _ _ _ _) [] _
    refine .ofSA ?_
    rintro _ ⟨e, rfl⟩ op
    unfold decodeAtomic
    rw [op]
    show (if _ then need _ _ _ else _) = _
    simp (disch := decide) only [extractLsb'_withEnd, slotTe, bit, ofBool_beq_one, need, beq_self_eq_true, if_true, toFin_o6,
      fSA_fields, rD, rA, rB, fD, fA, fB, fM, fC]
    exact if_pos wf
  case aadd | amaxu | aor | aand | aswp | acas =>
    change Decodes (fSA _ _ _ _ _ _ _) [] _
    refine .ofSA ?_
    rintro _ ⟨e, rfl⟩ op
    unfold decodeAtomic
    rw [op]
    show Except.ok _ = _
    simp (disch := decide) only [extractLsb'_withEnd, slotTe, bit, ofBool_beq_one, toFin_o6,
      fSA_fields, rD, rA, rB, fD, fA, fB, fM, fC]
  case vceq | vclt | vcle | vsplat | vmov | vrsum | vrmax | vrmin | vrcnt | vrmean | vcmpr | vbexp =>
    change Decodes (fV _ _ _ _ _ _) [] _
    refine .ofV (.inl rfl) ?_
    rintro _ ⟨e, rfl⟩ op
    unfold decodeV
    rw [op]
    show need _ _ _ = _
    simp (disch := decide) only [extractLsb'_withEnd, slotTe, bit, ofBool_beq_one, need, beq_self_eq_true, if_true, toFin_o6, fV_fields,
      vD, vA, vB, vK, r6, toFin_o3, extractLsb'_append_eq_of_add_le, extractLsb'_append_eq_of_le,
      extractLsb'_eq_self, Nat.reduceSub]
  case viota | vkand | vkor | vknot =>
    change Decodes (fV _ _ _ _ _ _) [] _
    refine .ofV (.inl rfl) ?_
    rintro _ ⟨e, rfl⟩ op
    unfold decodeV
    rw [op]
    show need _ _ _ = _
    simp (disch := decide) only [extractLsb'_withEnd, slotTe, bit, ofBool_beq_one, need, beq_self_eq_true, toFin_o6, fV_fields,
      vD, vK, r6, k4, hi2, low_vector, toFin_o4, toFin_o3, extractLsb'_append_eq_of_add_le, extractLsb'_append_eq_of_le,
      extractLsb'_eq_self, Nat.reduceSub]
    rfl
  case vld | vst =>
    change Decodes (fV _ _ _ _ _ _) (extVM _) _
    refine .ofV (.inr ⟨by decide, length_extVM _⟩) ?_
    rintro _ ⟨e, rfl⟩ op
    unfold decodeV
    rw [op]
    show Except.ok _ = _
    simp (disch := decide) only [extractLsb'_withEnd, slotTe, bit, ofBool_beq_one, toFin_o6, fV_fields,
      vD, vA, vK, r6, toFin_o3, offVM_fV]
  case vext | vins =>
    change Decodes (fV _ _ _ _ _ _) (extVM _) _
    refine .ofV (.inr ⟨by decide, length_extVM _⟩) ?_
    rintro _ ⟨e, rfl⟩ op
    unfold decodeV
    rw [op]
    show need _ _ _ = _
    simp (disch := decide) only [extractLsb'_withEnd, slotTe, bit, ofBool_beq_one, need, beq_self_eq_true, if_true, toFin_o6, fV_fields,
      vD, vA, r6, offVM_fV]
  case vldk | vstk =>
    change Decodes (fV _ _ _ _ _ _) (extVM _) _
    refine .ofV (.inr ⟨by decide, length_extVM _⟩) ?_
    rintro _ ⟨e, rfl⟩ op
    unfold decodeV
    rw [op]
    show need _ _ _ = _
    simp (disch := decide) only [extractLsb'_withEnd, slotTe, bit, ofBool_beq_one, need, beq_self_eq_true, toFin_o6, fV_fields,
      vA, r6, k4, hi2, toFin_o4, extractLsb'_append_eq_of_add_le, extractLsb'_append_eq_of_le,
      extractLsb'_eq_self, Nat.reduceSub, offVM_fV]
    rfl
  case vadd | vsub | vmul | vfma | vfms | vmax | vmin | vand | vor | vxor | vshl | vshr | vsar | vadds | vmuls | vfmas | vmaxs | vmins |
    vsld | vslu | vgth | vsct | vrsc | vperm | vzip | vuzp | vmrg | vbq | vbdq =>
    change Decodes (fV _ _ _ _ _ _) [] _
    refine .ofV (.inl rfl) ?_
    rintro _ ⟨e, rfl⟩ op
    unfold decodeV
    rw [op]
    show Except.ok _ = _
    simp (disch := decide) only [extractLsb'_withEnd, slotTe, bit, ofBool_beq_one, toFin_o6, fV_fields,
      vD, vA, vB, vK, r6, toFin_o3]
  case vabs | vneg | vrcp | vrsq | vsqrt | vexp2 | vlog2 | vtanh | vsig | vgelu | vflr | vrnd | vcvt | vm8e | vm8d | vclz | vpopc =>
    change Decodes (fV _ _ _ _ _ _) [] _
    refine .ofVX ?_
    rintro _ ⟨e, rfl⟩ op
    unfold decodeVX
    rw [op]
    show Except.ok _ = _
    simp (disch := decide) only [extractLsb'_withEnd, slotTe, bit, ofBool_beq_one, toFin_o6, fV_fields,
      vD, vA, vK, r6, toFin_o3]
  case vk2v | vv2k | vclr =>
    change Decodes (fV _ _ _ _ _ _) [] _
    refine .ofVX ?_
    rintro _ ⟨e, rfl⟩ op
    unfold decodeVX
    rw [op]
    show need _ _ _ = _
    simp (disch := decide) only [extractLsb'_withEnd, slotTe, bit, ofBool_beq_one, need, beq_self_eq_true, if_true, toFin_o6, fV_fields,
      vD, vA, vK, r6, k4, hi2, toFin_o4, toFin_o3, extractLsb'_append_eq_of_add_le, extractLsb'_append_eq_of_le,
      extractLsb'_eq_self, Nat.reduceSub]
  case mnop | mcal | munc | mabt | mbt | mtune | msplit | mrep | mstat =>
    change Decodes (fMC _ _ _) [] _
    refine .ofM ?_
    rintro _ ⟨e, rfl⟩ op
    unfold decodeM
    rw [op]
    show need _ _ _ = _
    simp (disch := decide) only [extractLsb'_withEnd, slotTe, bit, ofBool_beq_one, need, beq_self_eq_true, if_true, toFin_o6,
      fMC_fields, k4, toFin_o4, extractLsb'_append_eq_of_add_le, extractLsb'_append_eq_of_le, extractLsb'_eq_self,
      Nat.reduceSub, fMC_body]
  case mgain | mrd =>
    change Decodes (fMC _ _ _) [] _
    refine .ofM ?_
    rintro _ ⟨e, rfl⟩ op
    unfold decodeM
    rw [op]
    show (if _ then need _ _ _ else _) = _
    simp (disch := decide) only [extractLsb'_withEnd, slotTe, bit, ofBool_beq_one, need, beq_self_eq_true, if_true, toFin_o6,
      fMC_fields, extractLsb'_append_eq_of_add_le, extractLsb'_append_eq_of_le, extractLsb'_eq_self,
      Nat.reduceSub, fMC_body]
    exact if_pos wf
  case cnop | cpld | cplt | cls | clsf | cwbr | cinv | cwbi | cmap | cunm =>
    change Decodes (fCY _ _ _ _) [] _
    refine .ofC ?_
    rintro _ ⟨e, rfl⟩ op
    unfold decodeC
    rw [op]
    show need _ _ _ = _
    simp (disch := decide) only [extractLsb'_withEnd, slotTe, bit, ofBool_beq_one, need, beq_self_eq_true, if_true, toFin_o6,
      fCY_fields, r6, k4, toFin_o4, extractLsb'_append_eq_of_add_le, extractLsb'_append_eq_of_le, extractLsb'_eq_self,
      Nat.reduceSub, fCY_body]
  case ccpy | crdx | cagt | cbct | cres | cabt =>
    change Decodes (fCY _ _ _ _) [] _
    refine .ofC ?_
    rintro _ ⟨e, rfl⟩ op
    unfold decodeC
    rw [op]
    show (if _ then need _ _ _ else _) = _
    simp (disch := decide) only [extractLsb'_withEnd, slotTe, bit, ofBool_beq_one, need, beq_self_eq_true, if_true, toFin_o6,
      fCY_fields, r6, k4, toFin_o4, extractLsb'_append_eq_of_add_le, extractLsb'_append_eq_of_le, extractLsb'_eq_self,
      Nat.reduceSub, fCY_body]
    exact if_pos wf
  case ynop | yfmts | yscl | yscls | yldw | ystw | ybnk | ybar | ypark | ypri | yflr | yflw =>
    change Decodes (fCY _ _ _ _) [] _
    refine .ofY (.inl ⟨by decide, rfl⟩) ?_
    rintro _ ⟨e, rfl⟩ op
    unfold decodeY
    rw [op]
    show need _ _ _ = _
    simp (disch := decide) only [extractLsb'_withEnd, slotTe, bit, ofBool_beq_one, need, beq_self_eq_true, if_true, toFin_o6,
      fCY_fields, r6, k4, toFin_o4, toFin_o3, extractLsb'_append_eq_of_add_le, extractLsb'_append_eq_of_le, extractLsb'_eq_self,
      Nat.reduceSub, fCY_body]
  case yfmt | ywb =>
    change Decodes (fCY _ _ _ _) [] _
    refine .ofY (.inl ⟨by decide, rfl⟩) ?_
    rintro _ ⟨e, rfl⟩ op
    unfold decodeY
    rw [op]
    show (if _ then need _ _ _ else _) = _
    simp (disch := decide) only [extractLsb'_withEnd, slotTe, bit, ofBool_beq_one, need, beq_self_eq_true, if_true, toFin_o6,
      fCY_fields, r6, k4, toFin_o4, extractLsb'_append_eq_of_add_le, extractLsb'_append_eq_of_le, extractLsb'_eq_self,
      Nat.reduceSub, fCY_body]
    exact if_pos wf
  case ywait | ypost =>
    change Decodes (fCY _ _ _ _) (extCount 15 _) _
    refine .ofY (.inr (.inr ⟨by decide, length_extCount _ _⟩)) ?_
    rintro _ ⟨e, rfl⟩ op
    unfold decodeY
    rw [op]
    show need _ _ _ = _
    simp (disch := decide) only [extractLsb'_withEnd, slotTe, bit, ofBool_beq_one, need, if_true, toFin_o6,
      fCY_fields, r6, extractLsb'_append_eq_of_add_le, extractLsb'_append_eq_of_le, extractLsb'_eq_self,
      Nat.reduceSub, fCY_body, countOf_extCount]
  case ypostc =>
    change Decodes (fCY _ _ _ _) (extCount 6 _) _
    refine .ofY (.inr (.inr ⟨by decide, length_extCount _ _⟩)) ?_
    rintro _ ⟨e, rfl⟩ op
    unfold decodeY
    rw [op]
    show need _ _ _ = _
    simp (disch := decide) only [extractLsb'_withEnd, slotTe, bit, ofBool_beq_one, need, if_true, toFin_o6,
      fCY_fields, r6, extractLsb'_append_eq_of_add_le, extractLsb'_append_eq_of_le, extractLsb'_eq_self,
      Nat.reduceSub, fCY_body, countOf_extCount6]
  case yloop =>
    change Decodes (fCY _ _ _ _) [_] _
    refine .ofY (.inr (.inl ⟨by decide, rfl⟩)) ?_
    rintro _ ⟨e, rfl⟩ op
    unfold decodeY
    rw [op]
    show Except.ok _ = _
    simp (disch := decide) only [extractLsb'_withEnd, slotTe, bit, ofBool_beq_one, toFin_o6,
      fCY_fields, r6, extractLsb'_append_eq_of_add_le, extractLsb'_append_eq_of_le, extractLsb'_eq_self,
      Nat.reduceSub, fCY_body, lPay]
  all_goals cases slot

end Sys2Proof

namespace Sys2Proof
open BitVec (extractLsb'_append_eq_of_add_le extractLsb'_append_eq_of_le extractLsb'_eq_self)

/-! A slot with its L slots is one bundle (R62 to R66). -/

theorem markEnd_last (w : Slot) : markEnd [w] = [withEnd 1#1 w] := rfl

theorem markEnd_more (w x : Slot) (ws : List Slot) : markEnd (w :: x :: ws) = withEnd 0#1 w :: markEnd (x :: ws) := rfl

theorem slotClass_lSlot (p : Payload) : slotClass (lSlot p) = 5#3 := by
  rw [slotClass, lSlot, extractLsb'_append_eq_of_le (Nat.le_refl 28)]
  rfl

/-- The payload of an L slot, whatever its END bit (R69). -/
theorem slotPayload_lSlot (e : BitVec 1) (p : Payload) : slotPayload (withEnd e (lSlot p)) = p := by
  rw [slotPayload, extractLsb'_withEnd e _ (by decide), lSlot]
  exact (extractLsb'_append_eq_of_add_le (Nat.le_refl 28)).trans extractLsb'_eq_self

/-- Marked slots are cut whole (R62). -/
theorem takeBundle_markEnd (w : Slot) (ws : List Slot) : takeBundle (markEnd (w :: ws)) = some (markEnd (w :: ws)) := by
  induction ws generalizing w with
  | nil => rw [markEnd_last, takeBundle, slotEnd_withEnd]; rfl
  | cons x ws ih => rw [markEnd_more, takeBundle, slotEnd_withEnd, ih]; rfl

/-- L slots that end a bundle all extend the slot before them (R64). -/
theorem extendedBy_markEnd (ls : List Payload) : extendedBy (markEnd (ls.map lSlot)) = some (ls, []) := by
  have front (e : BitVec 1) (p : Payload) {rest : List Slot} {qs : List Payload} (h : extendedBy rest = some (qs, [])) :
      extendedBy (withEnd e (lSlot p) :: rest) = some (p :: qs, []) := by
    rw [extendedBy, h, slotClass_withEnd, slotClass_lSlot, slotPayload_lSlot]
    rfl
  induction ls with
  | nil => rfl
  | cons p ps ih =>
    cases ps with
    | nil => exact front 1#1 p rfl
    | cons q qs => exact front 0#1 p ih

@[simp] theorem markEnd_length : ∀ ws : List Slot, (markEnd ws).length = ws.length
  | [] => rfl
  | [_] => rfl
  | _ :: x :: ws => congrArg Nat.succ (markEnd_length (x :: ws))

/-- The first slot of a bundle of one instruction keeps all but its END bit. -/
theorem markEnd_cons (w : Slot) (ws : List Slot) : ∃ e, markEnd (w :: ws) = withEnd e w :: markEnd ws := by
  cases ws with
  | nil => exact ⟨1#1, rfl⟩
  | cons x ws => exact ⟨0#1, rfl⟩

/-- A slot of a class alone, with as many L slots as its form takes, meets every check of R66. -/
theorem frameOk_alone {w : Slot} {ls : List Payload} (least : (lRange w).1 ≤ ls.length) (most : ls.length ≤ (lRange w).2) :
    frameOk [(w, ls)] = true := by
  have few (p : Framed → Bool) (n : Nat) (h : 1 ≤ n) : ([(w, ls)].filter p).length ≤ n := (List.length_filter_le p _).trans h
  simp [frameOk, orderOk, countClass, few, least, most]

/-- A slot that decodes with its L slots is a bundle of one instruction. -/
theorem Decodes.frames {w : Slot} {ls : List Payload} {i : Instr} (h : Decodes w ls i) :
    ∃ e, frameBundle (markEnd (w :: ls.map lSlot)) = some ([(withEnd e w, ls)], 1 + ls.length) := by
  obtain ⟨e, he⟩ := markEnd_cons w (ls.map lSlot)
  have cut := takeBundle_markEnd w (ls.map lSlot)
  rw [he] at cut
  have group : groupSlots (withEnd e w :: markEnd (ls.map lSlot)) = some [(withEnd e w, ls)] := by
    rw [groupSlots, extendedBy_markEnd]
    exact if_pos (slotClass_withEnd e w ▸ h.cls)
  have ok : frameOk [(withEnd e w, ls)] = true :=
    frameOk_alone (lRange_withEnd e w ▸ h.least) (lRange_withEnd e w ▸ h.most)
  refine ⟨e, ?_⟩
  rw [he, frameBundle, cut]
  simp [group, ok, Nat.add_comm]

end Sys2Proof

namespace Sys2Proof.Proofs

/-- Settles O51: the fields of the encoded slot are the operands, its class and opcode name the branch of the decoder, and the slot with its
L slots is a bundle by itself. -/
theorem encodedInstructionsDecode : Obligations.EncodedInstructionsDecode := by
  unfold Obligations.EncodedInstructionsDecode
  intro i s slot wf
  have decodes := decodes_encodeSlot i s slot wf
  obtain ⟨e, frames⟩ := decodes.frames
  refine ⟨withEnd e (encodeSlot i).1, (encodeSlot i).2, frames, ?_⟩
  simp [decodeFramed, decodes.back e]

end Sys2Proof.Proofs

namespace Sys2Proof
open BitVec (extractLsb'_append_eq_of_add_le extractLsb'_append_eq_of_le extractLsb'_eq_self extractLsb'_append_extractLsb'_eq_extractLsb')

/-! A slot put together again from its fields (R69, R72, R78, R81 to R83). -/

/-- The instruction is well-formed and its encoding is the slot, without L slots. -/
structure Encodes (w : Slot) (i : Instr) : Prop where
  wf : i.wf = true
  word : encodeSlot i = (withEnd 0#1 w, [])
  slot : ∀ s : Machine.State, (Machine.slotOf i s).isSome = true

theorem need_eq_ok {c : Bool} {e : DecodeError} {i j : Instr} : need c e i = .ok j ↔ c = true ∧ i = j := by
  cases c <;> simp [need]

theorem ofBool_bit (w : Slot) (n : Nat) : BitVec.ofBool (bit w n) = w.extractLsb' n 1 := by
  unfold bit
  generalize w.extractLsb' n 1 = x
  revert x
  decide

/-- What stands above the opcode: END, the class and the TE bit (R69). -/
theorem slot_head (w : Slot) : 0#1 ++ slotClass w ++ BitVec.ofBool (slotTe w) = (withEnd 0#1 w).extractLsb' 27 5 := by
  have last : (withEnd 0#1 w).extractLsb' 31 1 = 0#1 := (extractLsb'_append_eq_of_le (Nat.le_refl 31)).trans extractLsb'_eq_self
  have cls : (withEnd 0#1 w).extractLsb' 28 3 = slotClass w := extractLsb'_withEnd _ w (by decide)
  have te : (withEnd 0#1 w).extractLsb' 27 1 = BitVec.ofBool (slotTe w) := (extractLsb'_withEnd _ w (by decide)).trans (ofBool_bit w 27).symm
  have upper : (withEnd 0#1 w).extractLsb' 31 1 ++ (withEnd 0#1 w).extractLsb' 28 3 = (withEnd 0#1 w).extractLsb' 28 4 :=
    extractLsb'_append_extractLsb'_eq_extractLsb' rfl
  have whole : (withEnd 0#1 w).extractLsb' 28 4 ++ (withEnd 0#1 w).extractLsb' 27 1 = (withEnd 0#1 w).extractLsb' 27 5 :=
    extractLsb'_append_extractLsb'_eq_extractLsb' rfl
  rw [last, cls] at upper
  rw [upper, ← te, whole]

section
variable {w : Slot}

/-- A field put below what stands above it. -/
theorem join_field {x : Slot} {hi n lo m : Nat} {f : BitVec m} (h : x.extractLsb' lo m = f) (above : hi = lo + m) :
    x.extractLsb' hi n ++ f = x.extractLsb' lo (n + m) := h ▸ extractLsb'_append_extractLsb'_eq_extractLsb' above

theorem field_withEnd {lo n : Nat} {f : BitVec n} (h : w.extractLsb' lo n = f) (low : lo + n ≤ 31) :
    (withEnd 0#1 w).extractLsb' lo n = f := (extractLsb'_withEnd _ w low).trans h

theorem fSR_eq {op : BitVec 7} {d a b : BitVec 6} {m : BitVec 2} (cls : slotClass w = 0#3)
    (hop : w.extractLsb' 20 7 = op) (hd : w.extractLsb' 14 6 = d) (ha : w.extractLsb' 8 6 = a) (hb : w.extractLsb' 2 6 = b) (hm : w.extractLsb' 0 2 = m) :
    fSR (slotTe w) op d a b m = withEnd 0#1 w := by
  rw [fSR, ← cls, slot_head, join_field (field_withEnd hop (by decide)) rfl, join_field (field_withEnd hd (by decide)) rfl, join_field
    (field_withEnd ha (by decide)) rfl, join_field (field_withEnd hb (by decide)) rfl, join_field (field_withEnd hm (by decide)) rfl]
  exact extractLsb'_eq_self

theorem fSI_eq {op : BitVec 7} {d a : BitVec 6} {i : BitVec 8} (cls : slotClass w = 0#3)
    (hop : w.extractLsb' 20 7 = op) (hd : w.extractLsb' 14 6 = d) (ha : w.extractLsb' 8 6 = a) (hi : w.extractLsb' 0 8 = i) :
    fSI (slotTe w) op d a i = withEnd 0#1 w := by
  rw [fSI, ← cls, slot_head, join_field (field_withEnd hop (by decide)) rfl, join_field (field_withEnd hd (by decide)) rfl, join_field
    (field_withEnd ha (by decide)) rfl, join_field (field_withEnd hi (by decide)) rfl]
  exact extractLsb'_eq_self

theorem fSX_eq {op : BitVec 7} {d : BitVec 6} {x : BitVec 14} (cls : slotClass w = 0#3)
    (hop : w.extractLsb' 20 7 = op) (hd : w.extractLsb' 14 6 = d) (hx : w.extractLsb' 0 14 = x) :
    fSX (slotTe w) op d x = withEnd 0#1 w := by
  rw [fSX, ← cls, slot_head, join_field (field_withEnd hop (by decide)) rfl, join_field (field_withEnd hd (by decide)) rfl, join_field
    (field_withEnd hx (by decide)) rfl]
  exact extractLsb'_eq_self

theorem fSA_eq {f : BitVec 3} {c : BitVec 2} {d a b : BitVec 6} {m : BitVec 2} (cls : slotClass w = 0#3)
    (hk : w.extractLsb' 25 2 = 2#2) (hf : w.extractLsb' 22 3 = f) (hc : w.extractLsb' 20 2 = c) (hd : w.extractLsb' 14 6 = d) (ha : w.extractLsb' 8 6 = a) (hb : w.extractLsb' 2 6 = b) (hm : w.extractLsb' 0 2 = m) :
    fSA (slotTe w) f c d a b m = withEnd 0#1 w := by
  rw [fSA, ← cls, slot_head, join_field (field_withEnd hk (by decide)) rfl, join_field (field_withEnd hf (by decide)) rfl, join_field
    (field_withEnd hc (by decide)) rfl, join_field (field_withEnd hd (by decide)) rfl, join_field (field_withEnd ha (by decide)) rfl,
    join_field (field_withEnd hb (by decide)) rfl, join_field (field_withEnd hm (by decide)) rfl]
  exact extractLsb'_eq_self

theorem fV_eq {op d a b : BitVec 6} {k : BitVec 3} (cls : slotClass w = 1#3)
    (hop : w.extractLsb' 21 6 = op) (hd : w.extractLsb' 15 6 = d) (ha : w.extractLsb' 9 6 = a) (hb : w.extractLsb' 3 6 = b) (hk : w.extractLsb' 0 3 = k) :
    fV (slotTe w) op d a b k = withEnd 0#1 w := by
  rw [fV, ← cls, slot_head, join_field (field_withEnd hop (by decide)) rfl, join_field (field_withEnd hd (by decide)) rfl, join_field
    (field_withEnd ha (by decide)) rfl, join_field (field_withEnd hb (by decide)) rfl, join_field (field_withEnd hk (by decide)) rfl]
  exact extractLsb'_eq_self

theorem fMC_eq {op : BitVec 5} {x : BitVec 22} (cls : slotClass w = 2#3)
    (hop : w.extractLsb' 22 5 = op) (hx : w.extractLsb' 0 22 = x) :
    fMC (slotTe w) op x = withEnd 0#1 w := by
  rw [fMC, ← cls, slot_head, join_field (field_withEnd hop (by decide)) rfl, join_field (field_withEnd hx (by decide)) rfl]
  exact extractLsb'_eq_self

theorem fCY_eq {cl : BitVec 3} {op : BitVec 6} {x : BitVec 21} (cls : slotClass w = cl)
    (hop : w.extractLsb' 21 6 = op) (hx : w.extractLsb' 0 21 = x) :
    fCY cl (slotTe w) op x = withEnd 0#1 w := by
  rw [fCY, ← cls, slot_head, join_field (field_withEnd hop (by decide)) rfl, join_field (field_withEnd hx (by decide)) rfl]
  exact extractLsb'_eq_self

end

end Sys2Proof

namespace Sys2Proof
open BitVec (extractLsb'_append_eq_of_add_le extractLsb'_append_eq_of_le extractLsb'_eq_self extractLsb'_append_extractLsb'_eq_extractLsb')

/-! Operands as the encoder writes them again (R73, R74, R83). -/

section
variable (w : Slot)

theorem mdOf_w32 {w : Slot} (h : mdOk w = true) : fM w = mdOf (w32 w) := by
  have high : w.extractLsb' 1 1 = 0#1 := by simpa [mdOk] using h
  have join : w.extractLsb' 1 1 ++ w.extractLsb' 0 1 = w.extractLsb' 0 2 := extractLsb'_append_extractLsb'_eq_extractLsb' rfl
  rw [mdOf, w32, ofBool_bit, ← high, join, fM]

/-- The low bits of a sign-extended field are the field. -/
theorem extractLsb'_signExtend {n m : Nat} (x : BitVec n) (h : n ≤ m) : (x.signExtend m).extractLsb' 0 n = x := by
  ext i hi
  simp [BitVec.getElem_extractLsb', BitVec.getElem_signExtend, hi, Nat.lt_of_lt_of_le hi h]

theorem extractLsb'_zeroExtend {n m : Nat} (x : BitVec n) (h : n ≤ m) : (x.zeroExtend m).extractLsb' 0 n = x := by
  ext i hi
  simp [BitVec.getElem_extractLsb', hi, Nat.lt_of_lt_of_le hi h]

theorem immSI_field : w.extractLsb' 0 8 = (immSI w []).extractLsb' 0 8 := (extractLsb'_signExtend _ (by decide)).symm

theorem extSI_immSI : extSI (immSI w []) = [] := if_pos (by rw [← immSI_field]; exact beq_self_eq_true _)

theorem offSM_field : w.extractLsb' 0 8 = (offSM w []).extractLsb' 0 8 := (extractLsb'_signExtend _ (by decide)).symm

theorem extSM_offSM : extSM (offSM w []) = [] := if_pos (by rw [← offSM_field]; exact beq_self_eq_true _)

theorem offSB_field : w.extractLsb' 0 14 = (offSB w []).extractLsb' 0 14 := (extractLsb'_signExtend _ (by decide)).symm

theorem extSB_offSB : extSB (offSB w []) = [] := if_pos (by rw [← offSB_field]; exact beq_self_eq_true _)

theorem offVM_field : w.extractLsb' 3 6 = (offVM w []).extractLsb' 0 6 := (extractLsb'_zeroExtend _ (by decide)).symm

theorem extVM_offVM : extVM (offVM w []) = [] := if_pos (by rw [← offVM_field]; exact beq_self_eq_true _)

/-- A count that stands in the slot needs no L slot (R83). -/
theorem count_small {n : Nat} (x : BitVec n) (h : n ≤ 16) : (x.zeroExtend 16).toNat < 2 ^ n := by
  rw [BitVec.toNat_setWidth_of_le h]
  exact x.isLt

theorem countLow_zeroExtend (x : BitVec 15) : countLow (x.zeroExtend 16) = x :=
  (if_pos (count_small x (by decide))).trans (extractLsb'_zeroExtend x (by decide))

theorem countLow6_zeroExtend (x : BitVec 6) : countLow6 (x.zeroExtend 16) = x :=
  (if_pos (count_small x (by decide))).trans (extractLsb'_zeroExtend x (by decide))

theorem extCount_zeroExtend {n : Nat} (x : BitVec n) (h : n ≤ 16) : extCount n (x.zeroExtend 16) = [] := if_pos (count_small x h)

/-- Two fields that are zero together are zero. -/
theorem append_eq_zero {n m : Nat} {x : BitVec n} {y : BitVec m} (h : x ++ y = 0#(n + m)) : x = 0#n ∧ y = 0#m := by
  have hx := congrArg (·.extractLsb' m n) h
  have hy := congrArg (·.extractLsb' 0 m) h
  simp only [BitVec.extractLsb'_append_eq_left, BitVec.extractLsb'_append_eq_right] at hx hy
  simpa using And.intro hx hy

/-- What is left of an S slot whose low bits are zero. -/
theorem low_scalar_zero {w : Slot} : (w.extractLsb' 0 20 = 0#20 → fD w = 0#6 ∧ fA w = 0#6 ∧ fB w = 0#6 ∧ fM w = 0#2) ∧
    (w.extractLsb' 2 18 = 0#18 → fD w = 0#6 ∧ fA w = 0#6 ∧ fB w = 0#6) ∧ (w.extractLsb' 0 14 = 0#14 → fA w = 0#6 ∧ fB w = 0#6 ∧ fM w = 0#2) ∧
    (w.extractLsb' 0 8 = 0#8 → fB w = 0#6 ∧ fM w = 0#2) := by
  obtain ⟨low20, mid18, low14, low8⟩ := low_scalar w
  rw [low20, mid18, low14, low8]
  have two (h : fB w ++ fM w = 0#8) : fB w = 0#6 ∧ fM w = 0#2 := append_eq_zero h
  have three (h : fA w ++ (fB w ++ fM w) = 0#14) : fA w = 0#6 ∧ fB w = 0#6 ∧ fM w = 0#2 := (append_eq_zero h).imp_right two
  refine ⟨fun h => (append_eq_zero h).imp_right three, fun h => (append_eq_zero h).imp_right (fun g => append_eq_zero g), three, two⟩

end

end Sys2Proof

namespace Sys2Proof
open BitVec (extractLsb'_append_eq_of_add_le extractLsb'_append_eq_of_le extractLsb'_eq_self extractLsb'_append_extractLsb'_eq_extractLsb')

/-! Encode of decode, class by class (R72 to R83). -/

section
variable {w : Slot} {i : Instr}

theorem ite_need_eq_ok {b c : Bool} {e f : DecodeError} {j : Instr} :
    (if b = true then need c e j else .error f) = .ok i ↔ b = true ∧ c = true ∧ j = i := by
  cases b <;> simp [need_eq_ok]

theorem hadr_field (h : w.extractLsb' 5 3 = 0#3) : w.extractLsb' 0 8 = 0#3 ++ o5 (w.extractLsb' 0 5).toFin := by
  have join : w.extractLsb' 5 3 ++ w.extractLsb' 0 5 = w.extractLsb' 0 8 := extractLsb'_append_extractLsb'_eq_extractLsb' rfl
  rw [← join, h]
  rfl

theorem encodes_of_decodeS (cls : slotClass w = 0#3) (h : decodeS w [] = .ok i) : Encodes w i := by
  unfold decodeS at h
  split at h
  case h_2 | h_3 | h_4 | h_5 | h_6 | h_7 | h_8 | h_9 | h_10 | h_11 | h_12 | h_13 | h_14 | h_15 | h_16 | h_17 | h_18 | h_19 | h_20 | h_21 |
    h_22 | h_23 | h_24 | h_25 | h_26 | h_27 | h_31 | h_32 =>
    rename_i op
    obtain ⟨ok, rfl⟩ := need_eq_ok.1 h
    exact ⟨rfl, Prod.ext (fSR_eq cls (BitVec.eq_of_toNat_eq op) rfl rfl rfl (mdOf_w32 ok)) rfl, fun _ => rfl⟩
  case h_1 | h_65 | h_66 | h_67 | h_68 =>
    rename_i op
    obtain ⟨ok, rfl⟩ := need_eq_ok.1 h
    replace ok := eq_of_beq ok
    obtain ⟨hd, ha, hb, hm⟩ := low_scalar_zero.1 ok
    exact ⟨rfl, Prod.ext (fSR_eq cls (BitVec.eq_of_toNat_eq op) hd ha hb hm) rfl, fun _ => rfl⟩
  case h_69 | h_70 =>
    rename_i op
    obtain ⟨ok, rfl⟩ := need_eq_ok.1 h
    replace ok := eq_of_beq ok
    obtain ⟨hd, ha, hb⟩ := low_scalar_zero.2.1 ok
    exact ⟨rfl, Prod.ext (fSR_eq cls (BitVec.eq_of_toNat_eq op) hd ha hb rfl) rfl, fun _ => rfl⟩
  case h_74 =>
    rename_i op
    obtain ⟨ok, rfl⟩ := need_eq_ok.1 h
    replace ok := eq_of_beq ok
    exact ⟨rfl, Prod.ext (fSR_eq cls (BitVec.eq_of_toNat_eq op) rfl rfl rfl ok) rfl, fun _ => rfl⟩
  case h_28 | h_29 | h_30 =>
    rename_i op
    obtain ⟨unused, ok⟩ := ite_need_eq_ok.1 h
    obtain ⟨ok, rfl⟩ := ok
    replace unused := eq_of_beq unused
    exact ⟨rfl, Prod.ext (fSR_eq cls (BitVec.eq_of_toNat_eq op) rfl rfl unused (mdOf_w32 ok)) rfl, fun _ => rfl⟩
  case h_71 =>
    rename_i op
    obtain ⟨unused, ok⟩ := ite_need_eq_ok.1 h
    obtain ⟨ok, rfl⟩ := ok
    replace unused := eq_of_beq unused
    exact ⟨ok, Prod.ext (fSR_eq cls (BitVec.eq_of_toNat_eq op) rfl rfl unused rfl) rfl, fun _ => rfl⟩
  case h_72 =>
    rename_i op
    obtain ⟨unused, ok⟩ := ite_need_eq_ok.1 h
    obtain ⟨ok, rfl⟩ := ok
    replace unused := eq_of_beq unused
    obtain ⟨ha, hb, hm⟩ := low_scalar_zero.2.2.1 unused
    exact ⟨ok, Prod.ext (fSR_eq cls (BitVec.eq_of_toNat_eq op) rfl ha hb hm) rfl, fun _ => rfl⟩
  case h_73 =>
    rename_i op
    obtain ⟨unused, ok⟩ := ite_need_eq_ok.1 h
    obtain ⟨ok, rfl⟩ := ok
    replace unused := eq_of_beq unused
    obtain ⟨hb, hm⟩ := low_scalar_zero.2.2.2 unused
    exact ⟨ok, Prod.ext (fSR_eq cls (BitVec.eq_of_toNat_eq op) rfl rfl hb hm) rfl, fun _ => rfl⟩
  case h_63 | h_78 | h_79 =>
    rename_i op
    obtain ⟨ok, rfl⟩ := need_eq_ok.1 h
    obtain ⟨hd, low⟩ := Bool.and_eq_true_iff.1 ok
    obtain ⟨hb, hm⟩ := low_scalar_zero.2.2.2 (eq_of_beq low)
    exact ⟨rfl, Prod.ext (fSR_eq cls (BitVec.eq_of_toNat_eq op) (eq_of_beq hd) rfl hb hm) rfl, fun _ => rfl⟩
  case h_33 | h_34 | h_35 | h_36 | h_40 | h_41 | h_42 | h_43 | h_44 =>
    rename_i op
    cases h
    exact ⟨rfl, Prod.ext (fSI_eq cls (BitVec.eq_of_toNat_eq op) rfl rfl (immSI_field w)) (extSI_immSI w), fun _ => rfl⟩
  case h_37 | h_38 | h_39 =>
    rename_i op
    obtain ⟨ok, rfl⟩ := need_eq_ok.1 h
    exact ⟨ok, Prod.ext (fSI_eq cls (BitVec.eq_of_toNat_eq op) rfl rfl (immSI_field w)) (extSI_immSI w), fun _ => rfl⟩
  case h_45 =>
    rename_i op
    obtain ⟨ok, rfl⟩ := need_eq_ok.1 h
    replace ok := eq_of_beq ok
    exact ⟨rfl, Prod.ext (fSI_eq cls (BitVec.eq_of_toNat_eq op) rfl ok (immSI_field w)) (extSI_immSI w), fun _ => rfl⟩
  case h_46 =>
    rename_i op
    obtain ⟨ok, rfl⟩ := need_eq_ok.1 h
    replace ok := eq_of_beq ok
    exact ⟨rfl, Prod.ext (fSI_eq cls (BitVec.eq_of_toNat_eq op) rfl rfl (hadr_field ok)) rfl, fun _ => rfl⟩
  case h_47 | h_48 | h_49 | h_50 | h_51 | h_52 | h_53 | h_54 | h_55 | h_56 | h_57 =>
    rename_i op
    cases h
    exact ⟨rfl, Prod.ext (fSI_eq cls (BitVec.eq_of_toNat_eq op) rfl rfl (offSM_field w)) (extSM_offSM w), fun _ => rfl⟩
  case h_58 =>
    rename_i op
    obtain ⟨ok, rfl⟩ := need_eq_ok.1 h
    replace ok := eq_of_beq ok
    exact ⟨rfl, Prod.ext (fSI_eq cls (BitVec.eq_of_toNat_eq op) ok rfl (offSM_field w)) (extSM_offSM w), fun _ => rfl⟩
  case h_60 | h_61 =>
    rename_i op
    cases h
    exact ⟨rfl, Prod.ext (fSX_eq cls (BitVec.eq_of_toNat_eq op) rfl (offSB_field w)) (extSB_offSB w), fun _ => rfl⟩
  case h_59 | h_62 =>
    rename_i op
    obtain ⟨ok, rfl⟩ := need_eq_ok.1 h
    replace ok := eq_of_beq ok
    exact ⟨rfl, Prod.ext (fSX_eq cls (BitVec.eq_of_toNat_eq op) ok (offSB_field w)) (extSB_offSB w), fun _ => rfl⟩
  case h_75 | h_76 | h_77 =>
    rename_i op
    cases h
    exact ⟨rfl, Prod.ext (fSX_eq cls (BitVec.eq_of_toNat_eq op) rfl rfl) rfl, fun _ => rfl⟩
  case h_64 =>
    rename_i op
    obtain ⟨ok, rfl⟩ := need_eq_ok.1 h
    replace ok := eq_of_beq ok
    exact ⟨rfl, Prod.ext (fSX_eq cls (BitVec.eq_of_toNat_eq op) ok rfl) rfl, fun _ => rfl⟩
  all_goals cases h

theorem eq_seven_of_lt {n : Nat} (h : n < 2 ^ 3) (h0 : n ≠ 0) (h1 : n ≠ 1) (h2 : n ≠ 2) (h3 : n ≠ 3) (h4 : n ≠ 4) (h5 : n ≠ 5)
    (h6 : n ≠ 6) : n = 7 := by omega

theorem encodes_of_decodeAtomic (cls : slotClass w = 0#3) (kind : w.extractLsb' 25 2 = 2#2) (h : decodeAtomic w = .ok i) : Encodes w i := by
  unfold decodeAtomic at h
  split at h
  case h_8 =>
    rename_i h0 h1 h2 h3 h4 h5 h6
    have last := eq_seven_of_lt (w.extractLsb' 22 3).isLt h0 h1 h2 h3 h4 h5 h6
    cases h
    exact ⟨rfl, Prod.ext (fSA_eq cls kind (BitVec.eq_of_toNat_eq last) rfl rfl rfl rfl rfl) rfl, fun _ => rfl⟩
  case h_3 | h_4 | h_5 | h_6 | h_7 =>
    rename_i op
    cases h
    exact ⟨rfl, Prod.ext (fSA_eq cls kind (BitVec.eq_of_toNat_eq op) rfl rfl rfl rfl rfl) rfl, fun _ => rfl⟩
  case h_1 =>
    rename_i op
    obtain ⟨unused, ok⟩ := ite_need_eq_ok.1 h
    obtain ⟨ok, rfl⟩ := ok
    replace unused := eq_of_beq unused
    exact ⟨ok, Prod.ext (fSA_eq cls kind (BitVec.eq_of_toNat_eq op) rfl rfl rfl unused rfl) rfl, fun _ => rfl⟩
  case h_2 =>
    rename_i op
    obtain ⟨unused, ok⟩ := ite_need_eq_ok.1 h
    obtain ⟨ok, rfl⟩ := ok
    replace unused := eq_of_beq unused
    exact ⟨ok, Prod.ext (fSA_eq cls kind (BitVec.eq_of_toNat_eq op) rfl unused rfl rfl rfl) rfl, fun _ => rfl⟩

/-! V slots (R78 to R80). -/

/-- A mask name in a field of six bits (R78). -/
theorem k4_field {lo : Nat} (h : w.extractLsb' (lo + 4) 2 = 0#2) : w.extractLsb' lo 6 = 0#2 ++ o4 (k4 w lo) := by
  have join : w.extractLsb' (lo + 4) 2 ++ w.extractLsb' lo 4 = w.extractLsb' lo 6 := extractLsb'_append_extractLsb'_eq_extractLsb' rfl
  rw [← join, h]
  rfl

theorem low3_field (h : w.extractLsb' 18 3 = 0#3) : w.extractLsb' 15 6 = 0#3 ++ o3 (w.extractLsb' 15 3).toFin := by
  have join : w.extractLsb' 18 3 ++ w.extractLsb' 15 3 = w.extractLsb' 15 6 := extractLsb'_append_extractLsb'_eq_extractLsb' rfl
  rw [← join, h]
  rfl

theorem low_vector_zero : (w.extractLsb' 3 12 = 0#12 → w.extractLsb' 9 6 = 0#6 ∧ w.extractLsb' 3 6 = 0#6) ∧
    (w.extractLsb' 0 9 = 0#9 → w.extractLsb' 3 6 = 0#6 ∧ w.extractLsb' 0 3 = 0#3) := by
  obtain ⟨index, mask⟩ := low_vector w
  rw [index, mask]
  exact ⟨fun h => append_eq_zero h, fun h => append_eq_zero h⟩

theorem encodes_of_decodeVX (cls : slotClass w = 1#3) (opcode : w.extractLsb' 21 6 = 0x3F#6) (h : decodeVX w = .ok i) : Encodes w i := by
  unfold decodeVX at h
  split at h
  case h_1 | h_2 | h_3 | h_4 | h_5 | h_6 | h_7 | h_8 | h_9 | h_10 | h_11 | h_12 | h_13 | h_14 | h_15 | h_16 | h_17 =>
    rename_i op
    cases h
    exact ⟨rfl, Prod.ext (fV_eq cls opcode rfl rfl (BitVec.eq_of_toNat_eq op) rfl) rfl, fun _ => rfl⟩
  case h_18 =>
    rename_i op
    obtain ⟨ok, rfl⟩ := need_eq_ok.1 h
    replace ok := eq_of_beq ok
    exact ⟨rfl, Prod.ext (fV_eq cls opcode rfl (k4_field ok) (BitVec.eq_of_toNat_eq op) rfl) rfl, fun _ => rfl⟩
  case h_19 =>
    rename_i op
    obtain ⟨ok, rfl⟩ := need_eq_ok.1 h
    replace ok := eq_of_beq ok
    exact ⟨rfl, Prod.ext (fV_eq cls opcode (k4_field ok) rfl (BitVec.eq_of_toNat_eq op) rfl) rfl, fun _ => rfl⟩
  case h_20 =>
    rename_i op
    obtain ⟨ok, rfl⟩ := need_eq_ok.1 h
    replace ok := eq_of_beq ok
    exact ⟨rfl, Prod.ext (fV_eq cls opcode rfl ok (BitVec.eq_of_toNat_eq op) rfl) rfl, fun _ => rfl⟩
  all_goals cases h

theorem encodes_of_decodeV (cls : slotClass w = 1#3) (h : decodeV w [] = .ok i) : Encodes w i := by
  unfold decodeV at h
  split at h
  case h_1 | h_2 | h_3 | h_4 | h_5 | h_6 | h_7 | h_8 | h_9 | h_10 | h_11 | h_12 | h_13 | h_17 | h_18 | h_19 | h_20 | h_21 | h_23 | h_24 |
    h_27 | h_28 | h_36 | h_38 | h_39 | h_40 | h_41 | h_47 | h_48 =>
    rename_i op
    cases h
    exact ⟨rfl, Prod.ext (fV_eq cls (BitVec.eq_of_toNat_eq op) rfl rfl rfl rfl) rfl, fun _ => rfl⟩
  case h_14 | h_15 | h_16 =>
    rename_i op
    obtain ⟨ok, rfl⟩ := need_eq_ok.1 h
    replace ok := eq_of_beq ok
    exact ⟨rfl, Prod.ext (fV_eq cls (BitVec.eq_of_toNat_eq op) (low3_field ok) rfl rfl rfl) rfl, fun _ => rfl⟩
  case h_22 | h_31 =>
    rename_i op
    obtain ⟨ok, rfl⟩ := need_eq_ok.1 h
    replace ok := eq_of_beq ok
    exact ⟨rfl, Prod.ext (fV_eq cls (BitVec.eq_of_toNat_eq op) rfl ok rfl rfl) rfl, fun _ => rfl⟩
  case h_32 | h_33 | h_34 | h_35 | h_37 | h_42 | h_46 =>
    rename_i op
    obtain ⟨ok, rfl⟩ := need_eq_ok.1 h
    replace ok := eq_of_beq ok
    exact ⟨rfl, Prod.ext (fV_eq cls (BitVec.eq_of_toNat_eq op) rfl rfl ok rfl) rfl, fun _ => rfl⟩
  case h_43 =>
    rename_i op
    obtain ⟨ok, rfl⟩ := need_eq_ok.1 h
    replace ok := eq_of_beq ok
    obtain ⟨ha, hb⟩ := low_vector_zero.1 ok
    exact ⟨rfl, Prod.ext (fV_eq cls (BitVec.eq_of_toNat_eq op) rfl ha hb rfl) rfl, fun _ => rfl⟩
  case h_25 | h_26 =>
    rename_i op
    cases h
    exact ⟨rfl, Prod.ext (fV_eq cls (BitVec.eq_of_toNat_eq op) rfl rfl (offVM_field w) rfl) (extVM_offVM w), fun _ => rfl⟩
  case h_29 | h_30 =>
    rename_i op
    obtain ⟨ok, rfl⟩ := need_eq_ok.1 h
    obtain ⟨hd, hk⟩ := Bool.and_eq_true_iff.1 ok
    exact ⟨rfl, Prod.ext (fV_eq cls (BitVec.eq_of_toNat_eq op) (k4_field (eq_of_beq hd)) rfl (offVM_field w) (eq_of_beq hk)) (extVM_offVM w), fun _ => rfl⟩
  case h_44 | h_45 =>
    rename_i op
    obtain ⟨ok, rfl⟩ := need_eq_ok.1 h
    replace ok := eq_of_beq ok
    exact ⟨rfl, Prod.ext (fV_eq cls (BitVec.eq_of_toNat_eq op) rfl rfl (offVM_field w) ok) (extVM_offVM w), fun _ => rfl⟩
  case h_49 | h_50 =>
    rename_i op
    obtain ⟨ok, rfl⟩ := need_eq_ok.1 h
    simp only [hi2, Bool.and_eq_true, beq_iff_eq] at ok
    obtain ⟨⟨⟨hd, ha⟩, hb⟩, hk⟩ := ok
    exact ⟨rfl, Prod.ext (fV_eq cls (BitVec.eq_of_toNat_eq op) (k4_field hd) (k4_field ha) (k4_field hb) hk) rfl, fun _ => rfl⟩
  case h_51 =>
    rename_i op
    obtain ⟨ok, rfl⟩ := need_eq_ok.1 h
    simp only [hi2, Bool.and_eq_true, beq_iff_eq] at ok
    obtain ⟨⟨hd, ha⟩, low⟩ := ok
    obtain ⟨hb, hk⟩ := low_vector_zero.2 low
    exact ⟨rfl, Prod.ext (fV_eq cls (BitVec.eq_of_toNat_eq op) (k4_field hd) (k4_field ha) hb hk) rfl, fun _ => rfl⟩
  case h_52 =>
    rename_i op
    exact encodes_of_decodeVX cls (BitVec.eq_of_toNat_eq op) h
  all_goals cases h

/-! M, C and Y slots (R81 to R83). -/

/-- Fields that stand side by side, the last one known (R69). -/
theorem join_two (a b : Nat) {z : BitVec b} (h : w.extractLsb' 0 b = z) : w.extractLsb' 0 (a + b) = w.extractLsb' b a ++ z := by
  rw [← h]
  exact (extractLsb'_append_extractLsb'_eq_extractLsb' (Nat.zero_add b).symm).symm

theorem join_three (a b c : Nat) {z : BitVec c} (h : w.extractLsb' 0 c = z) :
    w.extractLsb' 0 (a + b + c) = w.extractLsb' (b + c) a ++ w.extractLsb' c b ++ z := by
  rw [join_two (a + b) c h, extractLsb'_append_extractLsb'_eq_extractLsb' (Nat.add_comm b c)]

theorem join_four (a b c d : Nat) {z : BitVec d} (h : w.extractLsb' 0 d = z) :
    w.extractLsb' 0 (a + b + c + d) = w.extractLsb' (b + c + d) a ++ w.extractLsb' (c + d) b ++ w.extractLsb' d c ++ z := by
  rw [join_two (a + b + c) d h, extractLsb'_append_extractLsb'_eq_extractLsb' (by omega), extractLsb'_append_extractLsb'_eq_extractLsb' (by omega)]

theorem gain_body (h : w.extractLsb' 6 16 = 0#16) : w.extractLsb' 0 22 = 0#16 ++ BitVec.ofBool (bit w 5) ++ w.extractLsb' 0 5 := by
  rw [ofBool_bit, ← h]
  exact join_three 16 1 5 rfl

theorem split_body (h : w.extractLsb' 17 5 = 0#5) : w.extractLsb' 0 22 = 0#5 ++ BitVec.ofBool (bit w 16) ++ w.extractLsb' 0 16 := by
  rw [ofBool_bit, ← h]
  exact join_three 5 1 16 rfl

/-- The body of an MBT, field by field (R81). -/
theorem beat_body (h : w.extractLsb' 0 9 = 0#9) : w.extractLsb' 0 22 =
    o6 (w.extractLsb' 16 6).toFin ++ w.extractLsb' 12 4 ++ BitVec.ofBool (bit w 11) ++ BitVec.ofBool (bit w 10) ++ BitVec.ofBool (bit w 9) ++ 0#9 := by
  have j0 : o6 (w.extractLsb' 16 6).toFin ++ w.extractLsb' 12 4 = w.extractLsb' 12 10 := extractLsb'_append_extractLsb'_eq_extractLsb' rfl
  have j1 : w.extractLsb' 12 10 ++ w.extractLsb' 11 1 = w.extractLsb' 11 11 := extractLsb'_append_extractLsb'_eq_extractLsb' rfl
  have j2 : w.extractLsb' 11 11 ++ w.extractLsb' 10 1 = w.extractLsb' 10 12 := extractLsb'_append_extractLsb'_eq_extractLsb' rfl
  have j3 : w.extractLsb' 10 12 ++ w.extractLsb' 9 1 = w.extractLsb' 9 13 := extractLsb'_append_extractLsb'_eq_extractLsb' rfl
  have j4 : w.extractLsb' 9 13 ++ w.extractLsb' 0 9 = w.extractLsb' 0 22 := extractLsb'_append_extractLsb'_eq_extractLsb' rfl
  rw [ofBool_bit, ofBool_bit, ofBool_bit, ← h, j0, j1, j2, j3, j4]

/-- The body of a copy or a collective, field by field (R82). -/
theorem copy_body (h : w.extractLsb' 0 2 = 0#2) : w.extractLsb' 0 21 =
    o4 (k4 w 17) ++ o4 (k4 w 13) ++ o6 (r6 w 7) ++ BitVec.ofBool (bit w 6) ++ BitVec.ofBool (bit w 5) ++ w.extractLsb' 3 2 ++ BitVec.ofBool (bit w 2) ++ 0#2 := by
  have j0 : o4 (k4 w 17) ++ o4 (k4 w 13) = w.extractLsb' 13 8 := extractLsb'_append_extractLsb'_eq_extractLsb' rfl
  have j1 : w.extractLsb' 13 8 ++ o6 (r6 w 7) = w.extractLsb' 7 14 := extractLsb'_append_extractLsb'_eq_extractLsb' rfl
  have j2 : w.extractLsb' 7 14 ++ w.extractLsb' 6 1 = w.extractLsb' 6 15 := extractLsb'_append_extractLsb'_eq_extractLsb' rfl
  have j3 : w.extractLsb' 6 15 ++ w.extractLsb' 5 1 = w.extractLsb' 5 16 := extractLsb'_append_extractLsb'_eq_extractLsb' rfl
  have j4 : w.extractLsb' 5 16 ++ w.extractLsb' 3 2 = w.extractLsb' 3 18 := extractLsb'_append_extractLsb'_eq_extractLsb' rfl
  have j5 : w.extractLsb' 3 18 ++ w.extractLsb' 2 1 = w.extractLsb' 2 19 := extractLsb'_append_extractLsb'_eq_extractLsb' rfl
  have j6 : w.extractLsb' 2 19 ++ w.extractLsb' 0 2 = w.extractLsb' 0 21 := extractLsb'_append_extractLsb'_eq_extractLsb' rfl
  rw [ofBool_bit, ofBool_bit, ofBool_bit, ← h, j0, j1, j2, j3, j4, j5, j6]

theorem encodes_of_decodeM (cls : slotClass w = 2#3) (h : decodeM w = .ok i) : Encodes w i := by
  unfold decodeM at h
  split at h
  case h_1 | h_8 | h_9 | h_11 =>
    rename_i op
    obtain ⟨ok, rfl⟩ := need_eq_ok.1 h
    replace ok := eq_of_beq ok
    exact ⟨rfl, Prod.ext (fMC_eq cls (BitVec.eq_of_toNat_eq op) ok) rfl, fun _ => rfl⟩
  case h_2 =>
    rename_i op
    obtain ⟨ok, rfl⟩ := need_eq_ok.1 h
    replace ok := eq_of_beq ok
    exact ⟨rfl, Prod.ext (fMC_eq cls (BitVec.eq_of_toNat_eq op) (beat_body ok)) rfl, fun _ => rfl⟩
  case h_3 =>
    rename_i op
    obtain ⟨ok, rfl⟩ := need_eq_ok.1 h
    replace ok := eq_of_beq ok
    exact ⟨rfl, Prod.ext (fMC_eq cls (BitVec.eq_of_toNat_eq op) ((join_two 18 4 rfl).trans (congrArg (· ++ o4 (k4 w 0)) ok))) rfl, fun _ => rfl⟩
  case h_4 =>
    rename_i op
    obtain ⟨unused, ok⟩ := ite_need_eq_ok.1 h
    obtain ⟨ok, rfl⟩ := ok
    replace unused := eq_of_beq unused
    exact ⟨ok, Prod.ext (fMC_eq cls (BitVec.eq_of_toNat_eq op) (gain_body unused)) rfl, fun _ => rfl⟩
  case h_5 =>
    rename_i op
    obtain ⟨ok, rfl⟩ := need_eq_ok.1 h
    replace ok := eq_of_beq ok
    exact ⟨rfl, Prod.ext (fMC_eq cls (BitVec.eq_of_toNat_eq op) (split_body ok)) rfl, fun _ => rfl⟩
  case h_6 =>
    rename_i op
    obtain ⟨unused, ok⟩ := ite_need_eq_ok.1 h
    obtain ⟨ok, rfl⟩ := ok
    replace unused := eq_of_beq unused
    exact ⟨ok, Prod.ext (fMC_eq cls (BitVec.eq_of_toNat_eq op) (join_four 6 2 2 12 unused)) rfl, fun _ => rfl⟩
  case h_7 | h_10 =>
    rename_i op
    obtain ⟨ok, rfl⟩ := need_eq_ok.1 h
    replace ok := eq_of_beq ok
    exact ⟨rfl, Prod.ext (fMC_eq cls (BitVec.eq_of_toNat_eq op) (join_two 6 16 ok)) rfl, fun _ => rfl⟩
  all_goals cases h

theorem encodes_of_decodeC (cls : slotClass w = 3#3) (h : decodeC w = .ok i) : Encodes w i := by
  unfold decodeC at h
  split at h
  case h_1 =>
    rename_i op
    obtain ⟨ok, rfl⟩ := need_eq_ok.1 h
    replace ok := eq_of_beq ok
    exact ⟨rfl, Prod.ext (fCY_eq cls (BitVec.eq_of_toNat_eq op) ok) rfl, fun _ => rfl⟩
  case h_2 | h_3 | h_4 | h_5 =>
    rename_i op
    obtain ⟨unused, ok⟩ := ite_need_eq_ok.1 h
    obtain ⟨ok, rfl⟩ := ok
    replace unused := eq_of_beq unused
    exact ⟨ok, Prod.ext (fCY_eq cls (BitVec.eq_of_toNat_eq op) (copy_body unused)) rfl, fun _ => rfl⟩
  case h_6 | h_7 =>
    rename_i op
    obtain ⟨unused, ok⟩ := ite_need_eq_ok.1 h
    obtain ⟨ok, rfl⟩ := ok
    replace unused := eq_of_beq unused
    exact ⟨ok, Prod.ext (fCY_eq cls (BitVec.eq_of_toNat_eq op) (join_two 6 15 unused)) rfl, fun _ => rfl⟩
  case h_8 | h_9 =>
    rename_i op
    obtain ⟨ok, rfl⟩ := need_eq_ok.1 h
    replace ok := eq_of_beq ok
    exact ⟨rfl, Prod.ext (fCY_eq cls (BitVec.eq_of_toNat_eq op) (join_three 6 4 11 ok)) rfl, fun _ => rfl⟩
  case h_10 =>
    rename_i op
    obtain ⟨ok, rfl⟩ := need_eq_ok.1 h
    replace ok := eq_of_beq ok
    exact ⟨rfl, Prod.ext (fCY_eq cls (BitVec.eq_of_toNat_eq op) (join_four 4 4 6 7 ok)) rfl, fun _ => rfl⟩
  case h_11 =>
    rename_i op
    obtain ⟨ok, rfl⟩ := need_eq_ok.1 h
    replace ok := eq_of_beq ok
    exact ⟨rfl, Prod.ext (fCY_eq cls (BitVec.eq_of_toNat_eq op) (join_four 4 6 6 5 ok)) rfl, fun _ => rfl⟩
  case h_12 | h_13 | h_14 =>
    rename_i op
    obtain ⟨ok, rfl⟩ := need_eq_ok.1 h
    replace ok := eq_of_beq ok
    exact ⟨rfl, Prod.ext (fCY_eq cls (BitVec.eq_of_toNat_eq op) (join_four 6 6 6 3 ok)) rfl, fun _ => rfl⟩
  case h_15 =>
    rename_i op
    obtain ⟨ok, rfl⟩ := need_eq_ok.1 h
    replace ok := eq_of_beq ok
    exact ⟨rfl, Prod.ext (fCY_eq cls (BitVec.eq_of_toNat_eq op) (join_three 4 6 11 ok)) rfl, fun _ => rfl⟩
  case h_16 =>
    rename_i op
    obtain ⟨ok, rfl⟩ := need_eq_ok.1 h
    replace ok := eq_of_beq ok
    exact ⟨rfl, Prod.ext (fCY_eq cls (BitVec.eq_of_toNat_eq op) (join_three 6 6 9 ok)) rfl, fun _ => rfl⟩
  all_goals cases h

theorem encodes_of_decodeY (cls : slotClass w = 4#3) (short : (lRange w).1 = 0) (h : decodeY w [] = .ok i) : Encodes w i := by
  unfold decodeY at h
  split at h
  case h_1 | h_15 =>
    rename_i op
    obtain ⟨ok, rfl⟩ := need_eq_ok.1 h
    replace ok := eq_of_beq ok
    exact ⟨rfl, Prod.ext (fCY_eq cls (BitVec.eq_of_toNat_eq op) ok) rfl, fun _ => rfl⟩
  case h_2 =>
    rename_i op
    obtain ⟨unused, ok⟩ := ite_need_eq_ok.1 h
    obtain ⟨ok, rfl⟩ := ok
    replace unused := eq_of_beq unused
    exact ⟨ok, Prod.ext (fCY_eq cls (BitVec.eq_of_toNat_eq op) (join_three 4 8 9 unused)) rfl, fun _ => rfl⟩
  case h_3 =>
    rename_i op
    obtain ⟨ok, rfl⟩ := need_eq_ok.1 h
    replace ok := eq_of_beq ok
    exact ⟨rfl, Prod.ext (fCY_eq cls (BitVec.eq_of_toNat_eq op) (join_two 6 15 ok)) rfl, fun _ => rfl⟩
  case h_16 =>
    rename_i op
    obtain ⟨ok, rfl⟩ := need_eq_ok.1 h
    replace ok := eq_of_beq ok
    exact ⟨rfl, Prod.ext (fCY_eq cls (BitVec.eq_of_toNat_eq op) (join_two 2 19 ok)) rfl, fun _ => rfl⟩
  case h_13 =>
    rename_i op
    obtain ⟨ok, rfl⟩ := need_eq_ok.1 h
    replace ok := eq_of_beq ok
    exact ⟨rfl, Prod.ext (fCY_eq cls (BitVec.eq_of_toNat_eq op) (join_two 3 18 ok)) rfl, fun _ => rfl⟩
  case h_4 =>
    rename_i op
    obtain ⟨ok, rfl⟩ := need_eq_ok.1 h
    replace ok := eq_of_beq ok
    exact ⟨rfl, Prod.ext (fCY_eq cls (BitVec.eq_of_toNat_eq op) (join_three 4 8 9 ok)) rfl, fun _ => rfl⟩
  case h_5 | h_17 | h_18 =>
    rename_i op
    obtain ⟨ok, rfl⟩ := need_eq_ok.1 h
    replace ok := eq_of_beq ok
    exact ⟨rfl, Prod.ext (fCY_eq cls (BitVec.eq_of_toNat_eq op) (join_three 6 6 9 ok)) rfl, fun _ => rfl⟩
  case h_7 | h_8 =>
    rename_i op
    obtain ⟨ok, rfl⟩ := need_eq_ok.1 h
    replace ok := eq_of_beq ok
    exact ⟨rfl, Prod.ext (fCY_eq cls (BitVec.eq_of_toNat_eq op) (join_three 4 6 11 ok)) rfl, fun _ => rfl⟩
  case h_9 =>
    rename_i op
    obtain ⟨ok, rfl⟩ := need_eq_ok.1 h
    replace ok := eq_of_beq ok
    exact ⟨rfl, Prod.ext (fCY_eq cls (BitVec.eq_of_toNat_eq op) (join_three 4 4 13 ok)) rfl, fun _ => rfl⟩
  case h_6 =>
    rename_i op
    obtain ⟨unused, ok⟩ := ite_need_eq_ok.1 h
    obtain ⟨ok, rfl⟩ := ok
    replace unused := eq_of_beq unused
    exact ⟨ok, Prod.ext (fCY_eq cls (BitVec.eq_of_toNat_eq op) (join_four 4 4 6 7 unused)) rfl, fun _ => rfl⟩
  case h_10 | h_11 =>
    rename_i op
    obtain ⟨ok, rfl⟩ := need_eq_ok.1 h
    exact ⟨rfl, Prod.ext (fCY_eq cls (BitVec.eq_of_toNat_eq op) (join_two 6 15 (countLow_zeroExtend _).symm)) (extCount_zeroExtend _ (by decide)), fun _ => rfl⟩
  case h_12 =>
    rename_i op
    obtain ⟨ok, rfl⟩ := need_eq_ok.1 h
    exact ⟨rfl, Prod.ext (fCY_eq cls (BitVec.eq_of_toNat_eq op) (join_three 9 6 6 (countLow6_zeroExtend _).symm)) (extCount_zeroExtend _ (by decide)), fun _ => rfl⟩
  case h_14 =>
    rename_i op
    rw [lRange_control cls (BitVec.eq_of_toNat_eq (y := 0x0D#6) op)] at short
    cases short
  all_goals cases h

/-- A slot that decodes without L slots, and needs none, is the encoding of what it decodes to. -/
theorem encodes_of_decodeSlot (short : (lRange w).1 = 0) (h : decodeSlot w [] = .ok i) : Encodes w i := by
  unfold decodeSlot at h
  split at h
  case h_1 cls =>
    have cls := BitVec.eq_of_toNat_eq (y := 0#3) cls
    split at h
    · exact encodes_of_decodeAtomic cls (eq_of_beq ‹_›) h
    · exact encodes_of_decodeS cls h
  case h_2 cls => exact encodes_of_decodeV (BitVec.eq_of_toNat_eq cls) h
  case h_3 cls => exact encodes_of_decodeM (BitVec.eq_of_toNat_eq cls) h
  case h_4 cls => exact encodes_of_decodeC (BitVec.eq_of_toNat_eq cls) h
  case h_5 cls => exact encodes_of_decodeY (BitVec.eq_of_toNat_eq cls) short h
  case h_6 => cases h

end

end Sys2Proof

namespace Sys2Proof.Proofs

/-- Settles O52: the branch of the decoder that answers says what every field of the slot holds, and these fields put together are the slot. -/
theorem decodedSlotsEncodeBack : Obligations.DecodedSlotsEncodeBack := by
  unfold Obligations.DecodedSlotsEncodeBack
  intro w i short decodes
  obtain ⟨wf, word, slot⟩ := encodes_of_decodeSlot short decodes
  exact ⟨wf, word, slot⟩

end Sys2Proof.Proofs

namespace Sys2Proof.Proofs
/-- Settles O50: the decoder runs on the words. -/
theorem sampleWordsDecode : Obligations.SampleWordsDecode := by
  unfold Obligations.SampleWordsDecode
  decide
end Sys2Proof.Proofs

namespace Sys2Proof.Proofs
open Sys2Proof.Machine

/-- Settles O60: each value is read off the state after reset. -/
theorem resetHoldsItsValues : Obligations.ResetHoldsItsValues := by
  unfold Obligations.ResetHoldsItsValues
  refine ⟨rfl, by decide, rfl, rfl, rfl, rfl, rfl, ?_⟩
  refine ⟨rfl, rfl, rfl, rfl, rfl, rfl, rfl, rfl, rfl, rfl, rfl, rfl, rfl, rfl, rfl, rfl, rfl, ?_⟩
  refine ⟨rfl, rfl, rfl, rfl, rfl, rfl, rfl, rfl, rfl, rfl, rfl, rfl, rfl, rfl, rfl, ?_⟩
  decide

end Sys2Proof.Proofs

/-! What each step of the order of R71 and R88 looks at, and the verdict when none of the steps before it decides. -/
namespace Sys2Proof.Machine
variable {s : State} {ps : List Plan}

theorem State.full_iff {os : List Opnd} : s.full os = true ↔ ∀ o ∈ os, s.src.isFull o = true := by
  simp [State.full]

/-- Nothing of the steps up to EMPTY decides. -/
structure State.Unhindered (s : State) (ps : List Plan) : Prop where
  legal : ps.any (fun p => p.illegal) = false
  allowed : ps.any (fun p => p.priv) = false
  free : (s.unitsBusy ps || ps.any (fun p => p.wait)) = false

theorem State.Unhindered.verdict_empty (h : s.Unhindered ps) (empty : ps.any (fun p => p.te && !s.full p.srcs) = true) :
    s.verdict ps = .trap (s.here .empty) := by
  simp only [State.verdict, h.legal, h.allowed, h.free, empty, Bool.false_eq_true, if_false, if_true]

theorem State.Unhindered.verdict_blocked (h : s.Unhindered ps) (sound : ps.any (fun p => p.te && !s.full p.srcs) = false)
    (blocked : ps.any (fun p => !s.full p.srcs || !s.full p.dsts) = true) : s.verdict ps = .wait := by
  simp only [State.verdict, h.legal, h.allowed, h.free, sound, blocked, Bool.false_eq_true, if_false, if_true]

/-- Nothing of the steps up to the full registers decides. -/
structure State.Flowing (s : State) (ps : List Plan) : Prop extends s.Unhindered ps where
  sound : ps.any (fun p => p.te && !s.full p.srcs) = false
  flowing : ps.any (fun p => !s.full p.srcs || !s.full p.dsts) = false

theorem State.Flowing.verdict_cause {t : Trap} (h : s.Flowing ps) (cause : ps.findSome? s.slotCause = some t) :
    s.verdict ps = .trap t := by
  simp only [State.verdict, h.legal, h.allowed, h.free, h.sound, h.flowing, cause, Bool.false_eq_true, if_false]

theorem State.Flowing.verdict_doom (h : s.Flowing ps) (calm : ps.findSome? s.slotCause = none)
    (dooms : ps.any (fun p => p.dooms) = true) : s.verdict ps = .doom := by
  simp only [State.verdict, h.legal, h.allowed, h.free, h.sound, h.flowing, calm, dooms, Bool.false_eq_true, if_false, if_true]

theorem State.Flowing.verdict_go (h : s.Flowing ps) (calm : ps.findSome? s.slotCause = none)
    (settled : ps.any (fun p => p.dooms) = false) (mapped : ps.findSome? (fun p => p.walk) = none) : s.verdict ps = .go := by
  simp only [State.verdict, h.legal, h.allowed, h.free, h.sound, h.flowing, calm, settled, mapped, Bool.false_eq_true, if_false]

theorem State.slotCause_poisoned {p : Plan} (h : ∃ o ∈ p.srcs, s.src.isPoisoned o = true) :
    s.slotCause p = some (s.here .uncorrectable) := by
  simp [State.slotCause, h]

theorem State.slotCause_clean {p : Plan} (h : ∀ o ∈ p.srcs, s.src.isPoisoned o = false) : s.slotCause p = p.cause := by
  simp +contextual [State.slotCause, h]

end Sys2Proof.Machine

open Sys2Proof.Machine
namespace Sys2Proof.Proofs

/-- Settles O55, along the order in which the verdict looks at its slots. -/
theorem oneVerdictForABundle : Obligations.OneVerdictForABundle := by
  intro ps s full illegal priv held empty blocked clean
  have illegalAny : ps.any (fun p => p.illegal) = true ↔ illegal := by simp [illegal]
  have privAny : ps.any (fun p => p.priv) = true ↔ priv := by simp [priv]
  have heldAny : (s.unitsBusy ps || ps.any (fun p => p.wait)) = true ↔ held := by simp [held]
  have emptyAny : ps.any (fun p => p.te && !s.full p.srcs) = true ↔ empty := by
    simp [empty, full, State.full]
  have blockedAny : ps.any (fun p => !s.full p.srcs || !s.full p.dsts) = true ↔ blocked := by
    simp [blocked, full, State.full]
  have unhindered (h₁ : ¬ illegal) (h₂ : ¬ priv) (h₃ : ¬ held) : s.Unhindered ps :=
    ⟨by simpa [h₁] using illegalAny, by simpa [h₂] using privAny, by simpa [h₃] using heldAny⟩
  have sound (h : ¬ empty) : ps.any (fun p => p.te && !s.full p.srcs) = false := by simpa [h] using emptyAny
  have flowing (h : ¬ blocked) : ps.any (fun p => !s.full p.srcs || !s.full p.dsts) = false := by simpa [h] using blockedAny
  have flows (h₁ : ¬ illegal) (h₂ : ¬ priv) (h₃ : ¬ held) (h₄ : ¬ empty) (h₅ : ¬ blocked) : s.Flowing ps :=
    ⟨unhindered h₁ h₂ h₃, sound h₄, flowing h₅⟩
  have causeless {qs : List Plan} (h : ∀ q ∈ qs, clean q) : qs.findSome? s.slotCause = none :=
    List.findSome?_eq_none_iff.mpr fun q hq => (State.slotCause_clean (h q hq).1).trans (h q hq).2
  refine ⟨?_, ?_, ?_, ?_, ?_, ?_, ?_⟩
  · intro h
    rw [State.verdict, if_pos (illegalAny.mpr h)]
    rfl
  · intro h₁ h
    rw [State.verdict, if_neg (illegalAny.not.mpr h₁), if_pos (privAny.mpr h)]
    rfl
  · intro h₁ h₂ h
    rw [State.verdict, if_neg (illegalAny.not.mpr h₁), if_neg (privAny.not.mpr h₂), if_pos (heldAny.mpr h)]
  · intro h₁ h₂ h₃ h
    exact (unhindered h₁ h₂ h₃).verdict_empty (emptyAny.mpr h)
  · intro h₁ h₂ h₃ h₄ h
    exact (unhindered h₁ h₂ h₃).verdict_blocked (sound h₄) (blockedAny.mpr h)
  · intro a p b split h₁ h₂ h₃ h₄ h₅ before
    have first {t : Trap} (h : s.slotCause p = some t) : s.verdict ps = .trap t := by
      refine (flows h₁ h₂ h₃ h₄ h₅).verdict_cause ?_
      rw [split, List.findSome?_append, causeless before]
      simp [h]
    exact ⟨fun poisoned => first (State.slotCause_poisoned poisoned),
      fun k unpoisoned cause => first ((State.slotCause_clean unpoisoned).trans cause)⟩
  · intro h₁ h₂ h₃ h₄ h₅ all
    have free := flows h₁ h₂ h₃ h₄ h₅
    constructor
    · rintro ⟨p, hp, dooms⟩
      exact free.verdict_doom (causeless all) (List.any_eq_true.mpr ⟨p, hp, dooms⟩)
    · intro calm
      refine free.verdict_go (causeless all) ?_ (List.findSome?_eq_none_iff.mpr fun p hp => (calm p hp).2)
      simp only [List.any_eq_false, Bool.not_eq_true]
      exact fun p hp => (calm p hp).1

end Sys2Proof.Proofs

/-!
What every function of the model keeps, in the order of the model's text: memories in their canonical form, where `m`
asks for it, and the bundle in issue, which is `o` or has ended. The records that a function returns agree with the
state that it got in the memories that it leaves alone, so that most of these lemmas hold by definition.
-/
namespace Sys2Proof.Machine

/-- A memory is in its canonical form, where `m` asks for it. -/
def Mem.Canon (m : Prop) (x : Mem) : Prop := m → x.wf = true

/-- The scratchpad that a copy reads. -/
def Copy.Canon (m : Prop) (k : Copy) : Prop := k.spad.Canon m

/-- The memories of a car. -/
def Car.Canon (m : Prop) (c : Car) : Prop := c.spad.Canon m ∧ c.imem.Canon m ∧ ∀ k ∈ c.eng.copies, k.Canon m

/-- The shadow pages of a speculation. -/
def Speculation.Canon (m : Prop) (x : Speculation) : Prop := x.shadow.Canon m

/-- The saved cars of a consist. -/
def Consist.Canon (m : Prop) (x : Consist) : Prop := ∀ c ∈ x.saved.getD [], c.Canon m

/-- The memories that the Signal box and the Distant hold. -/
def Signal.Canon (m : Prop) (x : Signal) : Prop := (∀ p ∈ x.specs, p.Canon m) ∧ ∀ y ∈ x.consists, y.Canon m

/-- The memories of the package. -/
def Device.Canon (m : Prop) (d : Device) : Prop := d.mem.Canon m ∧ d.remote.Canon m ∧ d.sig.Canon m

/-- Every memory, those that the bundle in issue reads included; that bundle is `o`, or none is in issue. -/
def State.Canon (m : Prop) (o : Option (Car × Device)) (s : State) : Prop :=
  s.car.Canon m ∧ (∀ c ∈ s.peers, c.Canon m) ∧ s.dev.Canon m ∧ (s.old = none ∨ s.old = o) ∧ ∀ x ∈ o, x.1.Canon m ∧ x.2.Canon m

/-- A meaning answers a next state. -/
def Answers (m : Prop) (o : Option (Car × Device)) (r : Result) : Prop := ∃ t, r = .next t ∧ t.Canon m o

variable {m : Prop} {o : Option (Car × Device)}

/-! Memories. -/

theorem Mem.Canon.empty : Mem.empty.Canon m := fun _ => Mem.wf_empty

theorem Mem.Canon.write {x : Mem} (hm : x.Canon m) (a : Nat) (bs : List Byte) : (x.write a bs).Canon m :=
  fun p => Mem.wf_write (hm p) a bs

theorem Mem.Canon.writeNat {x : Mem} (hm : x.Canon m) (a n v : Nat) : (x.writeNat a n v).Canon m := hm.write a _

theorem Mem.Canon.writeAll {x : Mem} (hm : x.Canon m) (ps : List (Nat × Byte)) : (x.writeAll ps).Canon m :=
  fun p => Mem.wf_writeAll ps (hm p)

theorem Mem.Canon.setPoison {x : Mem} (hm : x.Canon m) (a n : Nat) : (x.setPoison a n).Canon m :=
  fun p => Mem.wf_setPoison (hm p) a n

theorem Mem.Canon.putFill {x : Mem} (hm : x.Canon m) (a : Nat) (bytes : List Byte) (bad : List Nat) :
    (x.putFill a bytes bad).Canon m :=
  List.foldlRecOn bad _ (motive := Mem.Canon m) (hm.write a bytes) fun _ h i _ => h.setPoison (a + i) 1

/-- The memory that holds the bytes of a range, and some of its addresses as poison. -/
theorem Mem.image_bounds (a n : Nat) (f : Nat → Byte) (p : Nat → Bool) :
    Mem.wf { cells := cellsOf a ((List.range n).map f), poison := ((List.range n).map (fun i => a + i)).filter p } = true ∧
      (∀ c ∈ cellsOf a ((List.range n).map f), a ≤ c.1 ∧ c.1 < a + n) ∧
      ∀ x ∈ ((List.range n).map (fun i => a + i)).filter p, a ≤ x ∧ x < a + n := by
  refine ⟨(Mem.wf_iff _).mpr ⟨cellsOf_rises _ a, fun c hc => (cellsOf_bounds _ a c hc).2.2, (range_rises a n).filter p⟩, ?_, ?_⟩
  · intro c hc
    have := cellsOf_bounds _ a c hc
    simp only [List.length_map, List.length_range] at this
    omega
  · intro x hx
    obtain ⟨i, hi, rfl⟩ := List.mem_map.1 (List.mem_filter.1 hx).1
    have := List.mem_range.1 hi
    omega

/-! A package whose memories stand. -/

/-- The package with its own memory replaced. -/
theorem Device.Canon.withMem {d : Device} {x : Mem} (hd : d.Canon m) (hm : x.Canon m) : Device.Canon m { d with mem := x } :=
  ⟨hm, hd.2⟩

/-- The package with its view of other packages replaced. -/
theorem Device.Canon.withRemote {d : Device} {x : Mem} (hd : d.Canon m) (hm : x.Canon m) :
    Device.Canon m { d with remote := x } :=
  ⟨hd.1, hm, hd.2.2⟩

theorem Device.Canon.foldl {α : Type} {d : Device} {f : Device → α → Device} (hd : d.Canon m)
    (hf : ∀ d a, d.Canon m → (f d a).Canon m) (xs : List α) : (xs.foldl f d).Canon m :=
  List.foldlRecOn xs f hd fun _ h a _ => hf _ a h

/-- The package with its fabric replaced. -/
theorem Device.Canon.withFab {d : Device} (hd : d.Canon m) (f : Fabric) : Device.Canon m { d with fab := f } := hd

theorem Device.Canon.ite {p : Prop} {_ : Decidable p} {d e : Device} (hd : d.Canon m) (he : e.Canon m) :
    Device.Canon m (if p then d else e) :=
  iteInduction (fun _ => hd) fun _ => he

theorem Speculation.Canon.ite {p : Prop} {_ : Decidable p} {x y : Speculation} (hx : x.Canon m) (hy : y.Canon m) :
    Speculation.Canon m (if p then x else y) :=
  iteInduction (fun _ => hx) fun _ => hy

/-- A function of the speculations that keeps their shadow pages keeps the package's memories. -/
theorem Device.Canon.mapSpecs {d : Device} {f : Speculation → Speculation} (hd : d.Canon m)
    (hf : ∀ x : Speculation, x.Canon m → (f x).Canon m) :
    Device.Canon m { d with sig.specs := d.sig.specs.map f } :=
  ⟨hd.1, hd.2.1, List.forall_mem_map.mpr fun x hx => hf x (hd.2.2.1 x hx), hd.2.2.2⟩

theorem Device.Canon.hbmPut {d : Device} (hd : d.Canon m) (a : Nat) (b : Byte) :
    (d.hbmPut a b).Canon m := by
  unfold Device.hbmPut
  split
  · exact hd.withMem (hd.1.write _ _)
  · exact hd.withRemote (hd.2.1.write _ _)
  · exact hd

theorem Device.Canon.hbmWrite {d : Device} (hd : d.Canon m) (a : Nat) (bs : List Byte) :
    (d.hbmWrite a bs).Canon m := by
  unfold Device.hbmWrite
  split
  · exact hd.withMem (hd.1.write _ _)
  · exact hd.foldl (fun _ _ h => h.hbmPut _ _) _

theorem Device.Canon.hbmSpoil {d : Device} (hd : d.Canon m) (a : Nat) :
    (d.hbmSpoil a).Canon m := by
  unfold Device.hbmSpoil
  split
  · exact hd.withMem (hd.1.setPoison _ _)
  · exact hd.withRemote (hd.2.1.setPoison _ _)
  · exact hd

theorem Device.Canon.countUe {d : Device} (hd : d.Canon m) (pa : Nat) :
    (d.countUe pa).Canon m := hd

theorem Device.Canon.meetErrors {d : Device} (hd : d.Canon m) (pa : Nat) (n : Nat) :
    (d.meetErrors pa n).Canon m := by
  unfold Device.meetErrors
  dsimp only
  split
  · exact hd
  · refine Device.Canon.foldl ?_ (fun _ _ h => h.countUe _) _
    refine hd.withMem ?_
    exact List.foldlRecOn _ _ (motive := Mem.Canon m) hd.1 fun _ h _ _ => h.setPoison _ _

theorem Device.Canon.noteWay {d : Device} (hd : d.Canon m) (w : Way) :
    (d.noteWay w).Canon m := hd

theorem Device.Canon.emit {d : Device} (hd : d.Canon m) (os : List Output) :
    (d.emit os).Canon m := hd

theorem Device.Canon.mapPort {d : Device} (hd : d.Canon m) (p : Nat) (f : Port → Port) :
    (d.mapPort p f).Canon m := hd

theorem Device.Canon.seal {d : Device} (hd : d.Canon m) (p : Nat) :
    (d.seal p).Canon m := hd

theorem Device.Canon.sendFlits (p pkg n : Nat) : ∀ {d : Device}, d.Canon m → (d.sendFlits p pkg n).Canon m := by
  induction n with
  | zero => exact fun hd => hd
  | succ n ih => exact fun hd => ih ((hd.mapPort p _).emit _)

theorem Device.Canon.sendOut {d : Device} (hd : d.Canon m) (w : Way) (pkg : Nat) (n : Nat) (c : Bool) :
    (d.sendOut w pkg n c).Canon m := by
  unfold Device.sendOut
  split
  · refine Device.Canon.sendFlits _ _ _ ?_
    split
    · exact (hd.noteWay _).seal _
    · exact hd.noteWay _
  · exact hd.noteWay _

theorem Device.Canon.countWalk {d : Device} (hd : d.Canon m) (va : Nat) :
    (d.countWalk va).Canon m := by
  unfold Device.countWalk
  split <;> exact hd

theorem Device.Canon.touchLine {d : Device} (hd : d.Canon m) (die : Nat) (write : Bool) (line : Nat) :
    (d.touchLine die write line).Canon m := hd

theorem Device.Canon.touch {d : Device} (hd : d.Canon m) (die : Nat) (pa : Nat) (n : Nat) (write : Bool) :
    (d.touch die pa n write).Canon m := by
  unfold Device.touch
  split
  · exact hd
  · exact hd.foldl (fun _ _ h => h.touchLine _ _ _) _

theorem Speculation.Canon.ends {x : Speculation} (hx : x.Canon m) (k : SpecEnd) (now : Nat) :
    (x.ends k now).Canon m := hx

theorem Device.Canon.mapSpec {d : Device} (hd : d.Canon m) (q : BitVec 16) (seq : BitVec 32) {f : Speculation → Speculation}
    (hf : ∀ x : Speculation, x.Canon m → (f x).Canon m) : (d.mapSpec q seq f).Canon m := by
  refine hd.mapSpecs fun x hx => ?_
  split
  · exact hf x hx
  · exact hx

theorem Device.Canon.granule_bounds {d : Device} (hd : d.Canon m) (p : m) (g : Nat) :
    (d.granule g).wf = true ∧ (∀ c ∈ (d.granule g).cells, g * 0x10000 ≤ c.1 ∧ c.1 < (g + 1) * 0x10000) ∧
      ∀ a ∈ (d.granule g).poison, g * 0x10000 ≤ a ∧ a < (g + 1) * 0x10000 := by
  unfold Device.granule
  split
  · have own := (Mem.wf_iff _).mp (hd.1 p)
    have met := (Mem.wf_iff _).mp ((hd.meetErrors (g * 0x10000) 0x10000).1 p)
    refine ⟨(Mem.wf_iff _).mpr ⟨own.1.filter _, fun c hc => own.2.1 c (List.mem_filter.1 hc).1, met.2.2.filter _⟩, ?_, ?_⟩
    · intro c hc
      simpa using (List.mem_filter.1 hc).2
    · intro a ha
      simpa using (List.mem_filter.1 ha).2
  · have top : (g + 1) * 0x10000 = g * 0x10000 + 0x10000 := Nat.succ_mul g 0x10000
    rw [top]
    generalize g * 0x10000 = lo
    generalize 0x10000 = n
    exact Mem.image_bounds lo n (fun i => d.hbmByte (lo + i)) d.hbmPoison

theorem Speculation.Canon.shadowGranule {x : Speculation} {d : Device} (hx : x.Canon m) (g : Nat) (hd : d.Canon m) :
    (x.shadowGranule d g).Canon m := by
  unfold Speculation.shadowGranule
  split
  · exact hx
  · intro p
    have granule := hd.granule_bounds p g
    exact Mem.wf_putGranule (hx p) granule.1 granule.2.1 granule.2.2

theorem Speculation.Canon.write {x : Speculation} {d : Device} (hx : x.Canon m) (pa : Nat) (bs : List Byte) (hd : d.Canon m) :
    (x.write d pa bs).Canon m := by
  unfold Speculation.write
  dsimp only
  refine Mem.Canon.write ?_ pa bs
  split
  · exact hx.shadowGranule _ hd
  · exact (hx.shadowGranule _ hd).shadowGranule _ hd

theorem Device.Canon.watched {d : Device} (hd : d.Canon m) (me : Option (BitVec 16 × BitVec 32)) (pa : Nat) (n : Nat) :
    (d.watched me pa n).Canon m := by
  refine hd.mapSpecs fun x hx => ?_
  split
  · exact hx.ends _ _
  · exact hx

theorem Device.Canon.writeBack {d : Device} (hd : d.Canon m) (die : Nat) (line : Nat) :
    (d.writeBack die line).Canon m := by
  unfold Device.writeBack
  split
  · exact hd
  · refine Device.Canon.foldl (hd.foldl (fun _ _ h => h.hbmWrite _ _) _) (fun d i h => ?_) _
    split
    · exact h.hbmSpoil _
    · exact h

theorem Device.Canon.dropLine {d : Device} (hd : d.Canon m) (die : Nat) (line : Nat) :
    (d.dropLine die line).Canon m := hd

theorem Device.Canon.flushLine {d : Device} (hd : d.Canon m) (die : Nat) (line : Nat) :
    (d.flushLine die line).Canon m := by
  unfold Device.flushLine
  split
  · split
    · exact hd
    · exact (hd.writeBack _ _).watched _ _ _
  · exact hd

theorem Device.Canon.evictLine {d : Device} (hd : d.Canon m) (die : Nat) (line : Nat) :
    (d.evictLine die line).Canon m := hd

theorem Device.Canon.makeRoom {d : Device} (hd : d.Canon m) (die : Nat) :
    (d.makeRoom die).Canon m := by
  unfold Device.makeRoom
  split
  · exact hd
  · split
    · exact (hd.flushLine _ _).dropLine _ _
    · exact hd.evictLine _ _
    · exact hd

theorem Device.Canon.cacheFill {d : Device} (hd : d.Canon m) (die : Nat) (line : Nat) :
    (d.cacheFill die line).Canon m := by
  unfold Device.cacheFill
  split
  · exact hd
  · exact hd.makeRoom die

theorem Device.Canon.cacheStore {d : Device} (hd : d.Canon m) (die : Nat) (pa : Nat) (b : Byte) :
    (d.cacheStore die pa b).Canon m := hd.cacheFill die (pa / 64)

theorem Device.Canon.cacheStores (die : Nat) (bs : List Byte) :
    ∀ (pa : Nat) {d : Device}, d.Canon m → (d.cacheStores die pa bs).Canon m := by
  induction bs with
  | nil => exact fun _ _ hd => hd
  | cons b bs ih => exact fun pa _ hd => ih (pa + 1) (hd.cacheStore die pa b)

theorem Device.Canon.afterRead {d : Device} (hd : d.Canon m) (spec : Option Speculation) (die : Option Nat) (t : Target) (n : Nat) :
    (d.afterRead spec die t n).Canon m := by
  unfold Device.afterRead
  split
  · exact ((hd.cacheFill _ _).cacheFill _ _).meetErrors _ _
  · exact (hd.meetErrors _ _).touch _ _ _ _
  · exact hd.meetErrors _ _
  · exact hd

theorem Device.Canon.writePhys {d : Device} (hd : d.Canon m) (spec : Option Speculation) (die : Option Nat) (t : Target) (bs : List Byte) :
    (d.writePhys spec die t bs).Canon m := by
  unfold Device.writePhys
  split
  case h_1 pa sm =>
    dsimp only
    split
    · split
      · exact hd.mapSpec _ _ fun y hy => hy.ends _ _
      · refine Device.Canon.watched (Device.Canon.mapSpec ?_ _ _ fun y hy => hy.write _ _ ?_) _ _ _ <;> exact hd
    · split
      · exact hd.cacheStores _ _ _
      · exact ((hd.hbmWrite _ _).touch _ _ _ _).watched _ _ _
      · exact (hd.hbmWrite _ _).watched _ _ _
  case h_2 => exact hd.withMem (hd.1.write _ _)
  case h_3 => exact hd.withRemote (hd.2.1.write _ _)
  case h_4 => exact hd

theorem Device.Canon.spoilAt {d : Device} (hd : d.Canon m) (spec : Option Speculation) (die : Option Nat) (t : Target) :
    (d.spoilAt spec die t).Canon m := by
  unfold Device.spoilAt
  split
  · split
    · exact hd.mapSpec _ _ fun y hy => hy.setPoison _ _
    · split
      · exact hd
      · exact hd.hbmSpoil _
  · exact hd.withMem (hd.1.setPoison _ _)
  · exact hd.withRemote (hd.2.1.setPoison _ _)
  · exact hd

/-- A function of the copies that keeps the scratchpads they read keeps the car's memories. -/
theorem Car.Canon.mapCopies {c : Car} {f : Copy → Copy} (hc : c.Canon m) (hf : ∀ k : Copy, k.Canon m → (f k).Canon m) :
    Car.Canon m { c with eng.copies := c.eng.copies.map f } :=
  ⟨hc.1, hc.2.1, List.forall_mem_map.mpr fun k hk => hf k (hc.2.2 k hk)⟩

/-- The car with copies dropped. -/
theorem Car.Canon.filterCopies {c : Car} (hc : c.Canon m) (p : Copy → Bool) :
    Car.Canon m { c with eng.copies := c.eng.copies.filter p } :=
  ⟨hc.1, hc.2.1, fun k hk => hc.2.2 k (List.mem_filter.1 hk).1⟩

/-- The car with its scratchpad replaced. -/
theorem Car.Canon.withSpad {c : Car} {x : Mem} (hc : c.Canon m) (hm : x.Canon m) : Car.Canon m { c with spad := x } :=
  ⟨hm, hc.2⟩

theorem Car.Canon.ite {p : Prop} {_ : Decidable p} {c c' : Car} (hc : c.Canon m) (hc' : c'.Canon m) :
    Car.Canon m (if p then c else c') :=
  iteInduction (fun _ => hc) fun _ => hc'

theorem Car.Canon.foldl {α : Type} {c : Car} {f : Car → α → Car} (hc : c.Canon m)
    (hf : ∀ c a, c.Canon m → (f c a).Canon m) (xs : List α) : (xs.foldl f c).Canon m :=
  List.foldlRecOn xs f hc fun _ h a _ => hf _ a h

theorem Car.Canon.putFill {c : Car} (hc : c.Canon m) (x : Stash) (g : Nat) (bytes : List Byte) (bad : List Nat) :
    (c.putFill x g bytes bad).Canon m := by
  refine Car.Canon.withSpad (hc.mapCopies fun k hk => ?_) (hc.1.putFill _ _ _)
  split
  · exact Mem.Canon.putFill hk _ _ _
  · exact hk

theorem Car.Canon.fillGranule {c : Car} (hc : c.Canon m) (d : Device) (x : Stash) (g : Nat) : (d.fillGranule c x g).Canon m := by
  unfold Device.fillGranule
  split
  · exact hc
  · exact hc.putFill _ _ _ _

theorem Car.Canon.fillRange {c : Car} (hc : c.Canon m) (d : Device) (off n : Nat) : (d.fillRange c off n).Canon m := by
  refine hc.foldl (fun c a h => ?_) _
  split
  · split
    · exact h.fillGranule _ _ _
    · exact h
  · exact h

theorem Car.Canon.dirtyRange {c : Car} (hc : c.Canon m) (off : Nat) (n : Nat) :
    (c.dirtyRange off n).Canon m := hc

theorem Car.Canon.spadWrite {c : Car} (hc : c.Canon m) (d : Device) (off : Nat) (bs : List Byte) : (d.spadWrite c off bs).Canon m := by
  have filled : (if c.eng.stash.isEmpty then c else d.fillRange c off bs.length).Canon m := by
    split
    · exact hc
    · exact hc.fillRange d off bs.length
  have written := filled.withSpad (filled.1.write off bs)
  exact iteInduction (motive := Car.Canon m) (fun _ => written) fun _ => written.dirtyRange off bs.length

theorem Car.Canon.unfill {c : Car} (hc : c.Canon m) (x : Stash) (gs : List Nat) : (c.unfill x gs).Canon m := hc

end Sys2Proof.Machine

namespace Sys2Proof.Machine
variable {m : Prop} {o : Option (Car × Device)}

/-! The memories of a machine by their places. -/

theorem State.Canon.car {s : State} (h : s.Canon m o) : s.car.Canon m := h.1

theorem State.Canon.peers {s : State} (h : s.Canon m o) : ∀ c ∈ s.peers, c.Canon m := h.2.1

theorem State.Canon.dev {s : State} (h : s.Canon m o) : s.dev.Canon m := h.2.2.1

theorem State.Canon.old {s : State} (h : s.Canon m o) : s.old = none ∨ s.old = o := h.2.2.2.1

theorem State.Canon.begun {s : State} (h : s.Canon m o) : ∀ x ∈ o, x.1.Canon m ∧ x.2.Canon m := h.2.2.2.2

theorem State.Canon.cars {s : State} (h : s.Canon m o) : ∀ c ∈ s.cars, c.Canon m := by
  intro c hc
  rcases List.mem_cons.1 hc with rfl | hc
  · exact h.car
  · exact h.peers c hc

theorem State.Canon.ofOld {s : State} (h : s.Canon m o) {x : Car × Device} (old : s.old = some x) :
    x.1.Canon m ∧ x.2.Canon m := by
  rcases h.old with none | same
  · cases old.symm.trans none
  · exact h.begun x (same.symm.trans old)

theorem State.Canon.mapCar {s : State} {f : Car → Car} (h : s.Canon m o) (hf : (f s.car).Canon m) : (s.mapCar f).Canon m o :=
  ⟨hf, h.2⟩

theorem State.Canon.mapDev {s : State} {f : Device → Device} (h : s.Canon m o) (hf : (f s.dev).Canon m) :
    (s.mapDev f).Canon m o :=
  ⟨h.1, h.2.1, hf, h.2.2.2⟩

/-- A function that keeps the memories of every car keeps them of the one in focus. -/
theorem State.Canon.onCar {s : State} {f : Car → Car} (h : s.Canon m o) (hf : ∀ c, c.Canon m → (f c).Canon m) :
    (s.mapCar f).Canon m o :=
  h.mapCar (hf _ h.car)

/-- A function that keeps the memories of every package keeps them of this one. -/
theorem State.Canon.onDev {s : State} {f : Device → Device} (h : s.Canon m o) (hf : ∀ d, d.Canon m → (f d).Canon m) :
    (s.mapDev f).Canon m o :=
  h.mapDev (hf _ h.dev)

theorem State.Canon.mapCars {s : State} {f : Car → Car} (h : s.Canon m o) (hf : ∀ c, c.Canon m → (f c).Canon m) :
    (s.mapCars f).Canon m o :=
  ⟨hf _ h.1, List.forall_mem_map.mpr fun c hc => hf c (h.2.1 c hc), h.2.2⟩

theorem State.Canon.mapAt {s : State} {f : Car → Car} (h : s.Canon m o) (r : CarRef) (hf : ∀ c, c.Canon m → (f c).Canon m) :
    (s.mapAt r f).Canon m o := by
  refine h.mapCars fun c hc => ?_
  split
  · exact hf c hc
  · exact hc

/-- The machine after the bundle in issue has ended or been taken back. -/
theorem State.Canon.ended {s : State} (h : s.Canon m o) : State.Canon m o { s with old := none } :=
  ⟨h.1, h.2.1, h.2.2.1, .inl rfl, h.begun⟩

/-- Either branch of a choice. -/
theorem State.Canon.ite {p : Prop} {_ : Decidable p} {s t : State} (hs : s.Canon m o) (ht : t.Canon m o) :
    State.Canon m o (if p then s else t) :=
  iteInduction (fun _ => hs) fun _ => ht

theorem State.Canon.foldl {α : Type} {s : State} {f : State → α → State} (h : s.Canon m o)
    (hf : ∀ s a, s.Canon m o → (f s a).Canon m o) (xs : List α) : (xs.foldl f s).Canon m o :=
  List.foldlRecOn xs f h fun _ h a _ => hf _ a h

/-- Consists under a function that keeps their saved cars. -/
theorem Device.Canon.mapConsists {d : Device} {f : Consist → Consist} (hd : d.Canon m)
    (hf : ∀ y : Consist, y.Canon m → (f y).Canon m) :
    Device.Canon m { d with sig.consists := d.sig.consists.map f } :=
  ⟨hd.1, hd.2.1, hd.2.2.1, List.forall_mem_map.mpr fun y hy => hf y (hd.2.2.2 y hy)⟩

/-- Consists that go. -/
theorem Device.Canon.filterConsists {d : Device} (hd : d.Canon m) (p : Consist → Bool) :
    Device.Canon m { d with sig.consists := d.sig.consists.filter p } :=
  ⟨hd.1, hd.2.1, hd.2.2.1, fun y hy => hd.2.2.2 y (List.mem_filter.1 hy).1⟩

theorem State.Canon.src {s : State} (h : s.Canon m o) :
    s.src.Canon m := by
  unfold State.src
  split
  case h_1 old => exact (h.ofOld old).1
  case h_2 => exact h.car

theorem State.Canon.srcDev {s : State} (h : s.Canon m o) :
    s.srcDev.Canon m := by
  unfold State.srcDev
  split
  case h_1 old => exact (h.ofOld old).2
  case h_2 => exact h.dev

theorem State.Canon.tick {s : State} (h : s.Canon m o) :
    s.tick.Canon m o := h

theorem Device.Canon.slew {d : Device} (hd : d.Canon m) (x : Int) :
    (d.slew x).Canon m := hd

theorem Car.Canon.putS {c : Car} (hc : c.Canon m) (p : Fin 72) (x : Word) :
    (c.putS p x).Canon m := hc

theorem Car.Canon.wS {c : Car} (hc : c.Canon m) (r : SReg) (x : Word) :
    (c.wS r x).Canon m := by
  unfold Car.wS
  split <;> exact hc

theorem Car.Canon.reread {c : Car} (hc : c.Canon m) (r : SReg) :
    (c.reread r).Canon m := hc

theorem Car.Canon.startS {c : Car} (hc : c.Canon m) (now : Nat) (r : SReg) (x : Word) (due : Option Nat) (fixedS : Bool) (poison : Bool) (ha : Word) (eta : Nat) :
    (c.startS now r x due fixedS poison ha eta).Canon m := by
  unfold Car.startS
  split <;> exact hc

theorem Car.Canon.putV {c : Car} (hc : c.Canon m) (p : Nat) (x : VWord) :
    (c.putV p x).Canon m := hc

theorem Car.Canon.putK {c : Car} (hc : c.Canon m) (r : Nat) (x : Mask) :
    (c.putK r x).Canon m := by
  unfold Car.putK
  split <;> exact hc

theorem Car.Canon.startV {c : Car} (hc : c.Canon m) (now : Nat) (p : Nat) (x : VWord) (due : Option Nat) (poison : Bool) (ha : Word) (eta : Nat) :
    (c.startV now p x due poison ha eta).Canon m := hc

theorem Car.Canon.startK {c : Car} (hc : c.Canon m) (now : Nat) (r : KReg) (x : Mask) (due : Option Nat) (poison : Bool) (ha : Word) (eta : Nat) :
    (c.startK now r x due poison ha eta).Canon m := by
  unfold Car.startK
  split <;> exact hc

theorem Car.Canon.markPoison {c : Car} (hc : c.Canon m) (d : Dest) :
    (c.markPoison d).Canon m := by
  unfold Car.markPoison
  split <;> exact hc

theorem Car.Canon.fill {c : Car} (hc : c.Canon m) (f : Flight) :
    (c.fill f).Canon m := by
  unfold Car.fill
  refine iteInduction (motive := Car.Canon m) (fun _ => Car.Canon.markPoison ?_ _) fun _ => ?_ <;>
  · split
    · split <;> exact hc
    · exact hc
    · refine Car.Canon.putK ?_ _ _
      exact hc

theorem State.Canon.wS {s : State} (h : s.Canon m o) (r : SReg) (x : Word) :
    (s.wS r x).Canon m o := h.mapCar (h.car.wS r x)

theorem State.Canon.produceS {s : State} (h : s.Canon m o) (r : SReg) (lat : Nat) (x : Word) :
    (s.produceS r lat x).Canon m o := h.mapCar (h.car.startS _ _ _ _ _ _ _ _)

theorem State.Canon.produceV {s : State} (h : s.Canon m o) (r : VReg) (lat : Nat) (x : VWord) :
    (s.produceV r lat x).Canon m o := h.mapCar (h.car.startV _ _ _ _ _ _ _)

theorem State.Canon.produceK {s : State} (h : s.Canon m o) (r : KReg) (lat : Nat) (x : Mask) :
    (s.produceK r lat x).Canon m o := h.mapCar (h.car.startK _ _ _ _ _ _ _)

theorem Car.Canon.post {c : Car} (hc : c.Canon m) (f : FlagIx) (n : Nat) :
    (c.post f n).Canon m := by
  unfold Car.post
  dsimp only
  split <;> exact hc

theorem State.Canon.mapConsist {s : State} (h : s.Canon m o) (x : Consist) {f : Consist → Consist}
    (hf : ∀ y : Consist, y.Canon m → (f y).Canon m) : (s.mapConsist x f).Canon m o := by
  refine h.mapDev (h.dev.mapConsists fun y hy => ?_)
  split
  · exact hf y hy
  · exact hy

theorem State.Canon.mapService {s : State} (h : s.Canon m o) (q : BitVec 16) (seq : BitVec 32) (f : Service → Service) :
    (s.mapService q seq f).Canon m o := h

theorem State.Canon.doomSpec {s : State} (h : s.Canon m o) (q : BitVec 16) (seq : BitVec 32) :
    (s.doomSpec q seq).Canon m o := h.mapDev (h.dev.mapSpec q seq fun _ hx => hx.ends _ _)

theorem State.Canon.rollback {s : State} (h : s.Canon m o) :
    s.rollback.Canon m o := by
  unfold State.rollback
  split
  case h_1 old => exact ⟨(h.ofOld old).1, h.peers, (h.ofOld old).2, .inl rfl, h.begun⟩
  case h_2 => exact h

theorem State.Canon.doom {s : State} (h : s.Canon m o) :
    s.doom.Canon m o := h.rollback.doomSpec _ _

theorem Car.Canon.uncouple {c : Car} (hc : c.Canon m) :
    c.uncouple.Canon m := hc

theorem Device.Canon.sweepFrames {d : Device} (hd : d.Canon m) :
    d.sweepFrames.Canon m := hd

theorem State.Canon.endStreams {s : State} (h : s.Canon m o) :
    s.endStreams.Canon m o := State.Canon.mapCars (h.mapDev h.dev) fun _ hc => hc.filterCopies _

theorem State.Canon.letGo {s : State} (h : s.Canon m o) (f : Car → Bool) :
    (s.letGo f).Canon m o := h

theorem Car.Canon.abort {c : Car} (hc : c.Canon m) :
    c.abort.Canon m := by
  refine ⟨hc.1, hc.2.1, ?_⟩
  show ∀ k ∈ if c.place.spec then [] else c.eng.copies, k.Canon m
  split
  · exact List.forall_mem_nil _
  · exact hc.2.2

theorem Device.Canon.sweepSets {d : Device} (hd : d.Canon m) :
    d.sweepSets.Canon m := hd

theorem State.Canon.abortCars {s : State} (h : s.Canon m o) (p : Car → Bool) :
    (s.mapCars (fun c => if p c then c.abort else c)).Canon m o := by
  refine h.mapCars fun c hc => ?_
  split
  · exact hc.abort
  · exact hc

theorem State.Canon.dropWaiting {s : State} (h : s.Canon m o) (q : BitVec 16) (seq : BitVec 32) :
    (s.dropWaiting q seq).Canon m o := State.Canon.mapDev ((h.letGo _).abortCars _) (State.Canon.dev ((h.letGo _).abortCars _) |>.filterConsists _)

theorem State.Canon.abortConsist {s : State} (h : s.Canon m o) (x : Consist) (cause : BitVec 8) (carId : BitVec 9) :
    (s.abortConsist x cause carId).Canon m o := by
  have freed := ((h.letGo x.holds).abortCars x.holds).endStreams.mapService x.q x.seq
    (fun v => { v with err := some (v.err.getD (cause, carId)) })
  exact (freed.mapDev (freed.dev.filterConsists _)).dropWaiting _ _

theorem State.Canon.abortMine {s : State} (h : s.Canon m o) (cause : BitVec 8) :
    (s.abortMine cause).Canon m o := by
  unfold State.abortMine
  split
  · exact h.doom
  · split
    · exact (h.abortConsist _ _ _).ended
    · exact ((h.letGo _).mapCar (h.letGo _).car.abort).ended

theorem Car.Canon.land {c : Car} (hc : c.Canon m) (l : Late) : (l.land c).Canon m := by
  unfold Late.land
  split <;> exact hc

theorem Car.Canon.landDue {c : Car} (hc : c.Canon m) :
    c.landDue.Canon m := by
  refine Car.Canon.foldl ?_ (fun _ _ h => h.land _) _
  exact hc

theorem Car.Canon.ageLate {c : Car} (hc : c.Canon m) :
    c.ageLate.Canon m := Car.Canon.landDue (c := { c with late := _ }) hc

/-- A bundle that begins is the one in issue. -/
theorem State.Canon.openBundle {s : State} (h : s.Canon m o) : s.openBundle.Canon m (some (s.car, s.dev)) :=
  ⟨h.car, h.peers, h.dev, .inr rfl, by simp [h.car, h.dev]⟩

theorem State.Canon.closeBundle {s : State} (h : s.Canon m o) : s.closeBundle.Canon m o := by
  unfold State.closeBundle
  split
  · exact h
  · refine ⟨?_, h.peers, h.dev, .inl rfl, h.begun⟩
    dsimp only
    (repeat' split) <;> exact h.car.ageLate

theorem Car.Canon.endWadr {c : Car} (hc : c.Canon m) :
    c.endWadr.Canon m := by
  refine Car.Canon.foldl ?_ (fun c p h => ?_) _
  · exact hc
  · (repeat' split) <;> exact h

theorem Car.Canon.enter {c : Car} (hc : c.Canon m) (t : Trap) (resume : BitVec 17) (trappc : BitVec 17) (now : Nat) (since : Nat) :
    (c.enter t resume trappc now since).Canon m := hc.endWadr

theorem State.Canon.takeTrap {s : State} (h : s.Canon m o) (t : Trap) (resume : BitVec 17) (trappc : BitVec 17) (since : Nat) :
    (s.takeTrap t resume trappc since).Canon m o := by
  unfold State.takeTrap
  split
  · exact h.doom
  · split
    · exact h.abortMine _
    · exact (h.mapCar (h.car.enter t resume trappc s.now since)).ended

theorem State.Canon.preciseTrap {s : State} (h : s.Canon m o) (t : Trap) :
    (s.preciseTrap t).Canon m o := h.rollback.takeTrap _ _ _ _

theorem Car.Canon.applyPval (img : Vector Word 128) (ns : List Nat) : ∀ {c : Car}, c.Canon m → (c.applyPval img ns).Canon m := by
  induction ns with
  | nil => exact fun hc => hc
  | cons n ns ih =>
    intro c hc
    refine ih ?_
    (repeat' split) <;> exact hc

theorem Car.Canon.leave {c : Car} (hc : c.Canon m) (img : Vector Word 128) (now : Nat) :
    (c.leave img now).Canon m := by
  unfold Car.leave
  generalize List.range 64 = ns
  exact Car.Canon.applyPval (c := { c with tr := _ }) img ns hc

theorem Car.Canon.setFlags {c : Car} (hc : c.Canon m) (f : Fl) :
    (c.setFlags f).Canon m := hc

theorem State.Canon.setFlags {s : State} (h : s.Canon m o) (f : Fl) :
    (s.setFlags f).Canon m o := h

theorem State.Canon.takeVec {s : State} (h : s.Canon m o) (n : Nat) :
    (s.takeVec n).Canon m o := by
  unfold State.takeVec
  split <;> exact h

theorem State.Canon.startWalk {s : State} (h : s.Canon m o) (va : Word) :
    (s.startWalk va).Canon m o := h

theorem Car.Canon.stand {c : Car} (hc : c.Canon m) (now : Nat) :
    (c.stand now).Canon m := hc

theorem State.Canon.stays {s : State} (h : s.Canon m o) :
    s.stays.Canon m o := h.rollback

theorem State.Canon.settle {s : State} (h : s.Canon m o) (v : Verdict) :
    (s.settle v).Canon m o := by
  unfold State.settle
  split
  · exact h
  · exact h.stays
  · exact h.preciseTrap _
  · exact h.doom
  · exact h.stays.startWalk _

theorem Car.Canon.pend {c : Car} (hc : c.Canon m) (a : Async) :
    (c.pend a).Canon m := hc

theorem Car.Canon.pendWatch {c : Car} (hc : c.Canon m) (old : Car) (a : Nat) :
    (c.pendWatch old a).Canon m := by
  unfold Car.pendWatch
  split <;> exact hc

theorem State.Canon.watchAt {s : State} (h : s.Canon m o) (t : Target) (n : Nat) (rd : Bool) (wr : Bool) :
    (s.watchAt t n rd wr).Canon m o := by
  unfold State.watchAt
  dsimp only
  split
  · exact h
  · split
    · exact h.doomSpec _ _
    · split
      · refine State.Canon.mapCar ?_ (Car.Canon.pendWatch ?_ _ _)
        · exact h
        · exact h.car
      · exact h

theorem State.Canon.watch {s : State} (h : s.Canon m o) (ha : Word) (n : Nat) (rd : Bool) (wr : Bool) :
    (s.watch ha n rd wr).Canon m o := h.watchAt _ _ _ _

theorem Device.Canon.noteForeign {d : Device} (hd : d.Canon m) (c : Car) (x : Stash) (gs : List Nat) :
    (d.noteForeign c x gs).Canon m := by
  unfold Device.noteForeign
  dsimp only
  split <;> exact hd

theorem Car.Canon.emptyGranules {c : Car} (hc : c.Canon m) (num : Nat) (gs : List Nat) :
    (c.emptyGranules num gs).Canon m := hc

theorem Device.Canon.writeBackByte {d : Device} (hd : d.Canon m) (spec : Option Speculation) (die : Option Nat) (u : Target)
    (b : Byte) (bad : Prop) [Decidable bad] :
    Device.Canon m (if bad then (d.writePhys spec die u [b]).spoilAt spec die u else d.writePhys spec die u [b]) := by
  split
  · exact (hd.writePhys _ _ _ _).spoilAt _ _ _
  · exact hd.writePhys _ _ _ _

theorem State.Canon.snoopN (k : Nat) : ∀ (me : Option CarRef) (spec : Option Speculation) (t : Target) (n : Nat) {s : State},
    s.Canon m o → (State.snoopN k me spec t n s).Canon m o := by
  induction k with
  | zero => exact fun _ _ _ _ _ h => h
  | succ k ih =>
    intro me spec t n s h
    unfold State.snoopN
    split
    · exact h
    · refine h.foldl (fun s c h => h.foldl (fun s x h => ?_) _) _
      split
      · exact h
      · split
        · exact h
        · split
          · exact h
          · refine State.Canon.foldl ?_ (fun s p h => ?_) _
            · refine State.Canon.mapAt ?_ _ fun _ hc => hc.emptyGranules _ _
              exact h.mapDev (h.dev.noteForeign _ _ _)
            · split
              · exact h
              · exact (ih _ _ _ _ h).onDev fun _ hd => hd.writeBackByte _ _ _ _ _

theorem State.Canon.snoop {s : State} (h : s.Canon m o) (me : Option CarRef) (spec : Option Speculation) (t : Target) (n : Nat) :
    (s.snoop me spec t n).Canon m o := State.Canon.snoopN 64 me spec t n h

theorem State.Canon.storeAt {s : State} (h : s.Canon m o) (me : Option CarRef) (spec : Option Speculation) (die : Option Nat) (t : Target) (bs : List Byte) :
    (s.storeAt me spec die t bs).Canon m o := State.Canon.mapDev (h.snoop _ _ _ _) ((h.snoop _ _ _ _).dev.writePhys _ _ _ _)

theorem State.Canon.tileWrite {s : State} (h : s.Canon m o) (t : Target) (b : Byte) (bad : Bool) :
    (s.tileWrite t b bad).Canon m o := by
  have stored := h.storeAt (some s.car.ref) (s.dev.specOf s.car) s.car.die t [b]
  refine iteInduction (motive := State.Canon m o) (fun _ => h.doomSpec _ _) fun _ => stored.mapDev ?_
  split
  · exact stored.dev.spoilAt _ _ _
  · exact stored.dev

theorem State.Canon.backGranules {s : State} (h : s.Canon m o) (x : Stash) (gs : List Nat) : (s.backGranules x gs).Canon m o := by
  refine State.Canon.mapCar (h.foldl (fun s p h => ?_) _) (State.Canon.car (h.foldl (fun s p h => ?_) _)) <;>
  · split
    · exact h
    · exact h.tileWrite _ _ _

theorem State.Canon.stashFault {s : State} (h : s.Canon m o) (num : Nat) (va : Nat) :
    (s.stashFault num va).Canon m o := State.Canon.mapCar (h.mapDev (h.dev.countWalk va)) h.car

theorem State.Canon.fillOne {s : State} (h : s.Canon m o) (x : Stash) (g : Nat) : (s.fillOne x g).Canon m o := by
  unfold State.fillOne
  split
  · exact h
  · split
    · exact State.Canon.mapCar (h.stashFault _ _).tick ((h.stashFault _ _).car.putFill _ _ _ _)
    · exact State.Canon.foldl (h.mapCar (h.car.fillGranule _ _ _)) (fun s u h => h.mapDev (h.dev.afterRead _ _ _ _)) _

theorem State.Canon.fillRange {s : State} (h : s.Canon m o) (off : Nat) (n : Nat) :
    (s.fillRange off n).Canon m o := by
  unfold State.fillRange
  split
  · exact h
  · refine h.foldl (fun s a h => ?_) _
    split
    · split
      · exact h.fillOne _ _
      · exact h
    · exact h

theorem State.Canon.spadWrite {s : State} (h : s.Canon m o) (off : Nat) (bs : List Byte) :
    (s.spadWrite off bs).Canon m o := State.Canon.mapCar (h.fillRange _ _) ((h.fillRange _ _).car.spadWrite _ _ _)

theorem State.Canon.afterFetch {s : State} (h : s.Canon m o) (t : Target) (n : Nat) :
    (s.afterFetch t n).Canon m o := by
  unfold State.afterFetch
  split
  · exact h.fillRange _ _
  · exact h.mapDev (h.dev.afterRead _ _ _ _)

theorem State.Canon.sendRemote {s : State} (h : s.Canon m o) (flight : Option Nat) (ha : Word) (pa : BitVec 52) (c : Bool) (op : RemoteOp) (ord : BitVec 2) :
    (s.sendRemote flight ha pa c op ord).Canon m o := h

theorem State.Canon.storeError {s : State} (h : s.Canon m o) (ha : Word) :
    (s.storeError ha).Canon m o := by
  unfold State.storeError
  split
  · exact h.doomSpec _ _
  · exact h

theorem State.Canon.postWrite {s : State} (h : s.Canon m o) (w : Nat) (units : Nat) (core : BitVec 9) (addr : Nat) (bytes : List (Nat × Byte)) :
    (s.postWrite w units core addr bytes).Canon m o := h

theorem State.Canon.sendPart {s : State} (h : s.Canon m o) (n : Nat) :
    (s.sendPart n).Canon m o := by
  unfold State.sendPart
  (repeat' split) <;> exact h

theorem State.Canon.performStore {s : State} (h : s.Canon m o) (ha : Word) (t : Target) (bs : List Byte) :
    (s.performStore ha t bs).Canon m o := by
  unfold State.performStore
  split
  · exact h.spadWrite _ _
  · exact h.storeError _
  · exact h.storeAt _ _ _ _ _

theorem State.Canon.enqueue {s : State} (h : s.Canon m o) (x : Queued) :
    (s.enqueue x).Canon m o := h

theorem State.Canon.put {s : State} (h : s.Canon m o) (ha : Word) (t : Target) (bs : List Byte) (units : Nat) :
    (s.put ha t bs units).Canon m o := by
  unfold State.put
  split
  · exact h
  · exact h.postWrite _ _ _ _ _
  · exact h.sendRemote _ _ _ _ _ _
  · split
    · exact h.enqueue _
    · exact h.performStore _ _ _

theorem State.Canon.loadNow {s : State} (h : s.Canon m o) (d : SReg) (ha : Word) (size : Nat) (sgn : Bool) :
    (s.loadNow d ha size sgn).Canon m o := by
  have fetched := (h.watch ha size true false).afterFetch (s.target ha) size
  unfold State.loadNow
  dsimp only
  split
  · exact State.Canon.sendRemote (fetched.mapCar (fetched.car.startS _ _ _ _ _ _ _ _)) _ _ _ _ _ _
  · split <;> exact fetched.mapCar (fetched.car.startS _ _ _ _ _ _ _ _)

theorem Car.Canon.noteWrite {c : Car} (hc : c.Canon m) (o₁ : AtomicOp) (id : Nat) :
    (c.noteWrite o₁ id).Canon m := hc

theorem State.Canon.atomicHome {s : State} (h : s.Canon m o) (t : Target) : (s.atomicHome t).1.Canon m o := by
  unfold State.atomicHome
  split
  · exact h.mapDev ((h.dev.flushLine _ _).dropLine _ _)
  · exact h

theorem State.Canon.performAtomic {s : State} (h : s.Canon m o) (me : Option CarRef) (spec : Option Speculation)
    (die : Option Nat) (ha : Word) (f : AtomicOp) (t : Target) (b cmp : Word) :
    (s.performAtomic me spec die ha f t b cmp).1.Canon m o := by
  have snooped : (if f.writes then s.snoop me spec t 8 else s).Canon m o := by
    split
    · exact h.snoop _ _ _ _
    · exact h
  unfold State.performAtomic
  generalize (if f.writes then s.snoop me spec t 8 else s) = u at snooped
  have read := snooped.mapDev (f := fun d => d.afterRead spec die t 8) (snooped.dev.afterRead spec die t 8)
  dsimp only
  split
  · split
    · exact read
    · split
      · exact read.storeError _
      · exact read.mapDev (read.dev.writePhys _ _ _ _)
  · exact read

theorem State.Canon.atomicFar {s : State} (h : s.Canon m o) (f : AtomicOp) (d : SReg) (ha b cmp : Word) :
    (s.atomicFar f d ha b cmp).Canon m o := by
  have done := (h.atomicHome (s.target ha)).performAtomic (some s.car.ref) (s.dev.specOf s.car) (s.atomicHome (s.target ha)).2.2
    ha f (s.atomicHome (s.target ha)).2.1 b cmp
  unfold State.atomicFar
  dsimp only
  split
  · exact done.mapCar ((done.car.startS _ _ _ _ _ _ _ _).noteWrite _ _)
  · exact done

theorem State.Canon.atomicRemote {s : State} (h : s.Canon m o) (f : AtomicOp) (d : SReg) (ha : Word) (pa : BitVec 52) (c : Bool)
    (b cmp : Word) (ord : BitVec 2) : (s.atomicRemote f d ha pa c b cmp ord).Canon m o := by
  unfold State.atomicRemote
  split
  · exact State.Canon.sendRemote (h.mapCar (h.car.startS _ _ _ _ _ _ _ _)) _ _ _ _ _ _
  · exact h.sendRemote _ _ _ _ _ _

theorem State.Canon.performNear {s : State} (h : s.Canon m o) (f : AtomicOp) (off : Nat) (l : Loaded) (b cmp : Word) :
    (s.performNear f off l b cmp).Canon m o := by
  have fetched := h.afterFetch (.spad off) 8
  unfold State.performNear
  dsimp only
  split
  · split
    · exact fetched
    · exact fetched.spadWrite _ _
  · exact fetched

theorem State.Canon.atomicNear {s : State} (h : s.Canon m o) (f : AtomicOp) (d : SReg) (off : Nat) (b cmp : Word) :
    (s.atomicNear f d off b cmp).Canon m o := by
  have done := h.performNear f off (s.fetchBytes (.spad off) 8) b cmp
  unfold State.atomicNear
  dsimp only
  split
  · exact done.mapCar (done.car.startS _ _ _ _ _ _ _ _)
  · exact done

theorem State.Canon.atomicLater {s : State} (h : s.Canon m o) (f : AtomicOp) (d : SReg) (ha b cmp : Word) (ord : BitVec 2) :
    (s.atomicLater f d ha b cmp ord).Canon m o := by
  refine State.Canon.enqueue ?_ _
  split
  · exact h.mapCar ((h.car.startS _ _ _ _ _ _ _ _).noteWrite _ _)
  · exact h

theorem State.Canon.atomicNow {s : State} (h : s.Canon m o) (f : AtomicOp) (d : SReg) (ha b cmp : Word) (ord : BitVec 2) :
    (s.atomicNow f d ha b cmp ord).Canon m o := by
  have watched := h.watch ha 8 true true
  unfold State.atomicNow
  dsimp only
  split
  · exact watched.atomicRemote _ _ _ _ _ _ _ _
  · split
    · exact watched.atomicLater _ _ _ _ _ _
    · exact watched.atomicNear _ _ _ _ _
  · split
    · exact watched.atomicLater _ _ _ _ _ _
    · exact watched.atomicFar _ _ _ _ _

theorem Car.Canon.settleFlight {c : Car} (hc : c.Canon m) (id : Option Nat) (l : Loaded) (eta : Nat) :
    (c.settleFlight id l eta).Canon m := hc

theorem Car.Canon.showCopies {c : Car} (hc : c.Canon m) (id : Nat) (off : Nat) (n : Nat) :
    (c.showCopies id off n).Canon m := by
  refine hc.mapCopies fun k hk => ?_
  split
  · exact Mem.Canon.write hk _ _
  · exact hk

theorem State.Canon.drainLocal {s : State} (h : s.Canon m o) (id : Nat) (off : Nat) (bs : List Byte) :
    (s.drainLocal id off bs).Canon m o := by
  have drained : State.Canon m o (if s.car.mappedSince id off bs.length then
      bs.zipIdx.foldl (fun s p => if s.car.mappedSince id (off + p.2) 1 then s else s.spadWrite (off + p.2) [p.1]) s
    else s.spadWrite off bs) := by
    split
    · refine h.foldl (fun s p h => ?_) _
      split
      · exact h
      · exact h.spadWrite _ _
    · exact h.spadWrite _ _
  exact drained.mapCar (drained.car.showCopies _ _ _)

theorem State.Canon.drainOne {s : State} (h : s.Canon m o) :
    s.drainOne.Canon m o := by
  unfold State.drainOne
  split
  · exact h
  · split
    · exact h
    · case h_2 x rest _ =>
      have taken : State.Canon m o (s.mapCar (fun c => { c with eng := { c.eng with queue := rest } })) := h
      dsimp only
      split
      · split
        · exact taken.drainLocal _ _ _
        · exact taken.performStore _ _ _
      · split
        · refine State.Canon.onCar ?_ fun _ hc => (hc.showCopies _ _ _).settleFlight _ _ _
          split
          · exact taken
          · exact taken.performNear _ _ _ _ _
        · exact ((taken.atomicHome _).performAtomic _ _ _ _ _ _ _ _).onCar fun _ hc => hc.settleFlight _ _ _


end Sys2Proof.Machine

namespace Sys2Proof.Machine
variable {m : Prop} {o : Option (Car × Device)}

theorem Car.Canon.jump {c : Car} (hc : c.Canon m) (t : Word) :
    (c.jump t).Canon m := hc

theorem Car.Canon.halt {c : Car} (hc : c.Canon m) :
    c.halt.Canon m := hc

theorem Car.Canon.markEmptyS {c : Car} (hc : c.Canon m) (r : SReg) :
    (c.markEmptyS r).Canon m := by
  unfold Car.markEmptyS
  split <;> exact hc

/-- Something done with another car in focus. -/
theorem State.Canon.atCar {s : State} (h : s.Canon m o) (r : CarRef) {f : State → State}
    (hf : ∀ s, s.Canon m o → (f s).Canon m o) : (s.atCar r f).Canon m o := by
  have swap (t : State) (i : Nat) (ht : t.Canon m o) :
      State.Canon m o { t with car := t.peers.getD i t.car, peers := t.peers.set i t.car } := by
    refine ⟨?_, fun c hc => ?_, ht.dev, ht.old, ht.begun⟩
    · rw [List.getD_eq_getElem?_getD]
      cases found : t.peers[i]? with
      | none => exact ht.car
      | some c => exact ht.peers c (List.mem_of_getElem? found)
    · rcases List.mem_or_eq_of_mem_set hc with hc | rfl
      · exact ht.peers c hc
      · exact ht.car
  unfold State.atCar
  split
  · exact hf s h
  · split
    · exact h
    · exact swap _ _ (hf _ (swap s _ h))

theorem State.Canon.addCopyTlb {s : State} (h : s.Canon m o) (u : Fin 2) (w : Walked) :
    (s.addCopyTlb u w).Canon m o := by
  refine h.mapCars fun c hc => ?_
  split <;> exact hc

theorem State.Canon.engTarget {s : State} (h : s.Canon m o) (u : Fin 2) (rd wr : Bool) (va : Word) :
    (s.engTarget u rd wr va).1.Canon m o := by
  unfold State.engTarget
  split
  · exact h
  · split
    · exact h
    · split
      · exact h.onDev fun _ hd => hd.countWalk _
      · exact h.addCopyTlb _ _

theorem State.Canon.poisonByte {s : State} (h : s.Canon m o) (t : Target) :
    (s.poisonByte t).Canon m o := by
  unfold State.poisonByte
  split
  · exact h.onCar fun _ hc => hc.withSpad (hc.1.setPoison _ _)
  · exact h.onDev fun _ hd => hd.spoilAt _ _ _

theorem State.Canon.writeMarked {s : State} (h : s.Canon m o) (t : Target) (bs : List (Byte × Bool)) :
    (s.writeMarked t bs).Canon m o := by
  refine State.Canon.foldl ?_ (fun s p h => ?_) _
  · split
    · exact h.spadWrite _ _
    · exact h.storeAt _ _ _ _ _
  · split
    · exact h.poisonByte _
    · exact h

theorem State.Canon.writePeer {s : State} (h : s.Canon m o) (core : BitVec 9) (off : Nat) (bs : List (Byte × Bool)) :
    (s.writePeer core off bs).Canon m o := by
  unfold State.writePeer
  split
  · exact h
  · refine h.mapAt _ fun c hc => hc.withSpad ?_
    refine List.foldlRecOn _ _ (motive := Mem.Canon m) (hc.1.write _ _) fun _ hm q _ => ?_
    split
    · exact hm.setPoison _ _
    · exact hm

theorem State.Canon.takeWay {s : State} (h : s.Canon m o) (k : Copy) (t : Target) : (s.takeWay k t).Canon m o := by
  unfold State.takeWay
  split
  · exact h.onDev fun _ hd => hd.sendOut _ _ _ _
  · exact h

theorem State.Canon.sourceElem {s : State} (h : s.Canon m o) (k : Copy) (i : Nat) : (s.sourceElem k i).1.Canon m o := by
  unfold State.sourceElem
  dsimp only
  split
  · exact h
  · have found := h.engTarget k.unit true false (k.ws.elem i)
    split
    · exact found
    · split
      · exact found.takeWay _ _
      · exact (found.takeWay _ _).onDev fun _ hd => hd.afterRead _ _ _ _

theorem State.Canon.putAt {s : State} (h : s.Canon m o) (k : Copy) (sp : Bool) (a : Word) (bs : List (Byte × Bool)) :
    (s.putAt k sp a bs).1.Canon m o := by
  unfold State.putAt
  split
  · split
    · exact h.writeMarked _ _
    · exact h.writePeer _ _ _
  · have found := h.engTarget k.unit false true a
    dsimp only
    split
    · exact found
    · exact found
    · split
      · exact found.takeWay _ _
      · exact (found.takeWay _ _).writeMarked _ _

theorem State.Canon.putElem {s : State} (h : s.Canon m o) (k : Copy) (i : Nat) (bs : List (Byte × Bool)) :
    (s.putElem k i bs).1.Canon m o := h.putAt _ _ _ _

theorem State.Canon.moveElems (k : Copy) (n : Nat) : ∀ (i : Nat) {s : State}, s.Canon m o → (s.moveElems k n i).1.Canon m o := by
  induction n with
  | zero => exact fun _ _ h => h
  | succ n ih =>
    intro i s h
    unfold State.moveElems
    dsimp only
    split
    · exact h.sourceElem _ _
    · split
      · exact ih _ ((h.sourceElem _ _).putElem _ _ _)
      · exact (h.sourceElem _ _).putElem _ _ _

theorem Car.Canon.setCopy {c : Car} {k : Copy} (hc : c.Canon m) (hk : k.Canon m) :
    (c.setCopy k).Canon m := by
  refine hc.mapCopies fun x hx => ?_
  split
  · exact hk
  · exact hx

theorem Car.Canon.dropCopy {c : Car} (hc : c.Canon m) (n : Nat) :
    (c.dropCopy n).Canon m := hc.filterCopies _

theorem State.Canon.smear {s : State} (h : s.Canon m o) (k : Copy) (i n : Nat) : (s.smear k i n).Canon m o := by
  refine State.Canon.tick (h.foldl (fun s j h => ?_) _)
  split
  · exact h.putElem _ _ _
  · exact h

theorem State.Canon.smearAux {s : State} (h : s.Canon m o) (k : Copy) : (s.smearAux k).Canon m o := by
  unfold State.smearAux
  split
  · refine State.Canon.tick (h.foldl (fun s j h => ?_) _)
    split
    · exact h.putAt _ _ _ _
    · exact h
  · exact h

theorem State.Canon.faultCopy {s : State} {k : Copy} (h : s.Canon m o) (i : Nat) (va : Word) (hk : k.Canon m) :
    (s.faultCopy k i va).Canon m o := by
  refine (h.smear k i 64).onCar fun _ hc => (hc.setCopy ?_).pend _
  exact hk

theorem State.Canon.putAux {s : State} (h : s.Canon m o) (k : Copy) (bs : List Byte) : (s.putAux k bs).1.Canon m o := by
  unfold State.putAux
  dsimp only
  split
  · exact h.putAt _ _ _ _
  · exact h.foldl (fun s p h => h.putAt _ _ _ _) _

theorem State.Canon.watchEngine {s : State} (h : s.Canon m o) (k : Copy) : (s.watchEngine k).Canon m o := by
  unfold State.watchEngine
  dsimp only
  split
  · exact h
  · split
    · exact h.doomSpec _ _
    · split <;> exact h

theorem Device.Canon.closeRank {d : Device} (hd : d.Canon m) (k : Copy) (c : CarRef) : (d.closeRank k c).Canon m := by
  unfold Device.closeRank
  split <;> exact hd

theorem Device.Canon.flushColl {d : Device} (hd : d.Canon m) (g : Nat) (k : Nat) :
    (d.flushColl g k).Canon m := by
  unfold Device.flushColl
  split
  · exact hd
  · refine Device.Canon.foldl ?_ (fun _ _ hd => (hd.sendOut _ _ _ _).emit _) _
    exact hd

theorem State.Canon.endCopy {s : State} (h : s.Canon m o) (k : Copy) : (s.endCopy k).Canon m o :=
  ((h.watchEngine k).onCar fun _ hc => (hc.dropCopy _).post _ _).onDev fun _ hd => hd.closeRank _ _

theorem State.Canon.finishCopy {s : State} {k : Copy} (h : s.Canon m o) (hk : k.Canon m) :
    (s.finishCopy k).Canon m o := by
  unfold State.finishCopy
  split
  · exact h.endCopy _
  · have moved := h.moveElems k (k.wd.count - k.iter * k.wd.rowLen) (k.iter * k.wd.rowLen)
    dsimp only
    split
    · exact moved.faultCopy _ _ hk
    · split
      · split
        · exact (moved.putAux _ _).endCopy _
        · exact (moved.putAux _ _).faultCopy _ _ hk
      · exact moved.endCopy _

theorem Car.Canon.drained {c : Car} (hc : c.Canon m) (d : Device) : (d.drained c).Canon m := by
  refine hc.foldl (fun c x hc => ?_) _
  split
  · exact hc.spadWrite _ _ _
  · split
    · exact hc.spadWrite _ _ _
    · exact hc
  · exact hc

/-- A copy that starts reads the scratchpad as it stands. -/
theorem Car.Canon.addCopy {c : Car} (hc : c.Canon m) {k : Copy} (hk : k.spad = c.spad) :
    Car.Canon m { c with eng.copies := c.eng.copies ++ [k] } := by
  refine ⟨hc.1, hc.2.1, fun x hx => ?_⟩
  rcases List.mem_append.1 hx with hx | hx
  · exact hc.2.2 x hx
  · rw [List.mem_singleton.1 hx, Copy.Canon, hk]
    exact hc.1

theorem State.Canon.takeNumber {s : State} (h : s.Canon m o) (k : Copy) : (s.takeNumber k).Canon m o :=
  h.onCar fun _ hc => hc.addCopy rfl

theorem State.Canon.moveEarly {s : State} {k : Copy} (h : s.Canon m o) (hk : k.Canon m) :
    (s.moveEarly k).Canon m o := by
  unfold State.moveEarly
  split
  · exact h
  · refine State.Canon.tick (State.Canon.onCar ?_ fun _ hc => hc.setCopy ?_)
    · exact State.Canon.moveElems _ _ _ h
    · exact hk

theorem Car.Canon.copyOf {c : Car} (hc : c.Canon m) {n : Nat} {k : Copy} (found : c.copyOf n = some k) : k.Canon m :=
  hc.2.2 k (List.mem_of_find?_eq_some found)

theorem State.Canon.writeV {s : State} (h : s.Canon m o) (d : VReg) (whole : Bool) (lat : Nat) (x : VWord) :
    (s.writeV d whole lat x).Canon m o := h.onCar fun _ hc => hc.startV _ _ _ _ _ _ _

theorem State.Canon.writeK {s : State} (h : s.Canon m o) (d : KReg) (whole : Bool) (lat : Nat) (x : Mask) :
    (s.writeK d whole lat x).Canon m o := h.onCar fun _ hc => hc.startK _ _ _ _ _ _ _

theorem Car.Canon.noteError {c : Car} (hc : c.Canon m) (id : Nat) (x : VWord) :
    (c.noteError id x).Canon m := hc

theorem State.Canon.landV {s : State} (h : s.Canon m o) (d : VReg) (t : Target) (x : VWord) (bad : VWord) (parts : List (Nat × Nat × Nat)) (poison : Bool) (ha : Word) :
    (s.landV d t x bad parts poison ha).Canon m o := by
  unfold State.landV
  dsimp only
  split
  · exact h
  · split <;> exact h

theorem State.Canon.landK {s : State} (h : s.Canon m o) (d : KReg) (t : Target) (x : Mask) (n : Nat) (poison : Bool) (ha : Word) :
    (s.landK d t x n poison ha).Canon m o := by
  unfold State.landK
  dsimp only
  split
  · refine State.Canon.sendRemote (State.Canon.mapCar h ?_) _ _ _ _ _ _
    exact h.car.startK _ _ _ _ _ _ _
  · split <;> exact h.mapCar (h.car.startK _ _ _ _ _ _ _)

theorem State.Canon.watchSpans {s : State} (h : s.Canon m o) (t : Target) (spans : List (Nat × Nat)) (rd : Bool) (wr : Bool) :
    (s.watchSpans t spans rd wr).Canon m o := h.foldl (fun _ _ h => h.watchAt _ _ _ _) _

theorem State.Canon.postParts (w : Nat) (core : BitVec 9) (bytes : List (Nat × Byte)) (part n : Nat) :
    ∀ (base left : Nat) {s : State}, s.Canon m o → (s.postParts w core bytes base part left n).Canon m o := by
  induction n with
  | zero => exact fun _ _ _ h => h
  | succ n ih => exact fun _ _ _ h => ih _ _ (h.postWrite _ _ _ _ _)

theorem State.Canon.putRuns {s : State} (h : s.Canon m o) (ha : Word) (rs : List (Nat × List Byte)) (units : Nat) :
    (s.putRuns ha rs units).Canon m o := by
  unfold State.putRuns
  split
  · exact State.Canon.postParts _ _ _ _ _ _ _ h
  · have checked (p : Prop) [Decidable p] : State.Canon m o (if p then s.storeError ha else s) := by
      split
      · exact h.storeError _
      · exact h
    dsimp only
    split
    · exact checked _
    · exact (checked _).foldl (fun _ _ h => h.put _ _ _ _) _

theorem State.Canon.integrate {s : State} (h : s.Canon m o) (v : VReg) (seg : Nat) (n : Bool) (a : Bool) (d : Bool) :
    (s.integrate v seg n a d).Canon m o := h

theorem State.Canon.missedBeats {s : State} (h : s.Canon m o) (x : Missed) : (s.missedBeats x).Canon m o := h.mapCars fun _ hc => hc

theorem State.Canon.openLossy {s : State} (h : s.Canon m o) (num : Nat) (blocks : Nat) (hops : List (Nat × Nat)) :
    (s.openLossy num blocks hops).Canon m o := h

theorem State.Canon.startCopy {s : State} (h : s.Canon m o) (ws : Ix16) (wd : Ix16) (f : FlagIx) (acq : Bool) (rel : Bool) (scope : BitVec 2) (lossy : Bool) :
    (s.startCopy ws wd f acq rel scope lossy).Canon m o := by
  unfold State.startCopy
  dsimp only
  split
  · exact h.takeNumber _
  case h_2 k found =>
    split
    · exact h.takeNumber _
    · split
      · exact (h.takeNumber _).openLossy _ _ _
      · split
        · exact h.takeNumber _
        · exact (h.takeNumber _).moveEarly ((h.takeNumber _).car.copyOf found)

theorem State.Canon.resumeLossy {s : State} (h : s.Canon m o) (k : Copy) (i : Nat) : (s.resumeLossy k i).Canon m o := h

theorem State.Canon.absent {s : State} (h : s.Canon m o) (k : Copy) : (s.absent k).Canon m o := h

theorem State.Canon.cutCopy {s : State} (h : s.Canon m o) (k : Copy) (i : Nat) : (s.cutCopy k i).Canon m o := by
  have dropped : State.Canon m o (((s.smear k i (k.rows + 1 - i)).smearAux k).mapCar (fun c => c.dropCopy k.num)) :=
    ((h.smear _ _ _).smearAux k).onCar fun _ hc => hc.dropCopy _
  unfold State.cutCopy
  generalize ((s.smear k i (k.rows + 1 - i)).smearAux k) = u at dropped
  dsimp only
  split <;> exact dropped

theorem Device.Canon.driveBus {d : Device} (hd : d.Canon m) (dom : Nat) (l : Ix16) (ccyc : Nat) (car : CarRef) (bytes : List Byte) :
    (d.driveBus dom l ccyc car bytes).Canon m := by
  unfold Device.driveBus
  split <;> exact hd

theorem State.Canon.startStream {s : State} (h : s.Canon m o) (op : EngineOp) (x : Stream) (ws : Waybill) :
    (s.startStream op x ws).Canon m o := (h.takeNumber _).onDev fun _ hd => hd

theorem Device.Canon.driveLine {d : Device} (hd : d.Canon m) (x : Drive) :
    (d.driveLine x).Canon m := by
  unfold Device.driveLine
  split <;> exact hd

theorem Device.Canon.driveLate {d : Device} (hd : d.Canon m) (x : Drive) :
    (d.driveLate x).Canon m := by
  unfold Device.driveLate
  split
  · exact hd
  · exact hd.driveLine _

theorem State.Canon.lateBeats {s : State} (h : s.Canon m o) (dom : Nat) (l : Ix16) (start : Nat) (beats : Nat) (c : Nat) (header : List Byte) :
    (s.lateBeats dom l start beats c header).Canon m o := by
  unfold State.lateBeats
  split
  · exact h
  · refine State.Canon.missedBeats ?_ _
    split
    · exact h.onDev fun _ hd => hd.driveLate _
    · exact h

theorem Device.Canon.awaitLate {d : Device} (hd : d.Canon m) (x : Drive) :
    (d.awaitLate x).Canon m := by
  unfold Device.awaitLate
  split
  · exact hd
  · exact hd.driveLine _

theorem State.Canon.startRange {s : State} (h : s.Canon m o) (kind : RangeKind) (a : SReg) (b : SReg) (f : FlagIx) :
    (s.startRange kind a b f).Canon m o := by
  unfold State.startRange
  dsimp only
  split
  · exact h.onCar fun _ hc => hc.post _ _
  · exact h

theorem State.Canon.gatherSource (k : Copy) (n : Nat) :
    ∀ (i : Nat) (p : Contribution) {s : State}, s.Canon m o → (s.gatherSource k n i p).1.Canon m o := by
  induction n with
  | zero => exact fun _ _ _ h => h
  | succ n ih =>
    intro i p s h
    unfold State.gatherSource
    dsimp only
    split
    · exact h.sourceElem _ _
    · exact ih _ _ (h.sourceElem _ _)

theorem State.Canon.gatherLate {s : State} {k : Copy} (h : s.Canon m o) (p : Contribution) (hk : k.Canon m) :
    (s.gatherLate k p).Canon m o := by
  unfold State.gatherLate
  dsimp only
  split
  · exact (State.Canon.gatherSource _ _ _ _ h).faultCopy _ _ hk
  · refine (State.Canon.gatherSource _ _ _ _ h).onDev fun d hd => Device.Canon.flushColl ?_ _ _
    exact hd

theorem Device.Canon.mapColl {d : Device} (hd : d.Canon m) (k : Copy) (f : Coll → Coll) : (d.mapColl k f).Canon m := hd

theorem State.Canon.startColl {s : State} (h : s.Canon m o) (op : EngineOp) (ws : Ix16) (wd : Ix16) (f : FlagIx) (acq : Bool) (rel : Bool) (scope : BitVec 2) (lossy : Bool) :
    (s.startColl op ws wd f acq rel scope lossy).Canon m o := by
  unfold State.startColl
  dsimp only
  split
  · exact h.takeNumber _
  · refine State.Canon.onDev ?_ fun d hd => Device.Canon.flushColl (Device.Canon.mapColl ?_ _ _) _ _
    · split
      · exact h.takeNumber _
      · split
        · exact h.takeNumber _
        · exact State.Canon.gatherSource _ _ _ _ (h.takeNumber _)
    · exact hd

theorem State.Canon.unmap {s : State} (h : s.Canon m o) (x : Stash) (f : FlagIx) : (s.unmap x f).Canon m o := by
  refine State.Canon.tick (h.mapCar (Car.Canon.withSpad h.car ?_))
  exact List.foldlRecOn _ _ (motive := Mem.Canon m) h.car.1 fun _ hm _ _ => hm.write _ _

end Sys2Proof.Machine

namespace Sys2Proof.Machine
variable {m : Prop} {o : Option (Car × Device)}

theorem Answers.next {t : State} (h : t.Canon m o) : Answers m o (.next t) := ⟨t, rfl, h⟩

theorem Car.Canon.lateFmt {c : Car} (hc : c.Canon m) (x : BitVec 20) :
    (c.lateFmt x).Canon m := hc

theorem Car.Canon.writeCtl {c : Car} (hc : c.Canon m) (i : BitVec 14) (x : Word) :
    (c.writeCtl i x).Canon m := by
  unfold Car.writeCtl
  (repeat' split) <;> exact hc

theorem State.Canon.sweepColls {s : State} (h : s.Canon m o) :
    s.sweepColls.Canon m o := h

theorem State.Canon.putVals (k : Copy) (xs : List (Nat × BitVec 8)) :
    ∀ (i : Nat) {s : State}, s.Canon m o → (s.putVals k i xs).1.Canon m o := by
  induction xs with
  | nil => exact fun _ _ h => h
  | cons x xs ih =>
    intro i s h
    unfold State.putVals
    dsimp only
    split
    · exact ih _ (h.putElem _ _ _)
    · exact h.putElem _ _ _

theorem State.Canon.writeOutcome {s : State} {k : Copy} (h : s.Canon m o) (x : Outcome) (hk : k.Canon m) :
    (s.writeOutcome k x).Canon m o := by
  have put := State.Canon.putVals k x.vals 0 h
  unfold State.writeOutcome
  dsimp only
  split
  · exact put.faultCopy _ _ hk
  · have flagged : (State.mapCar (s.putVals k 0 x.vals).1 (fun c => c.setFlags x.flags)).Canon m o := put
    split
    · exact flagged.endCopy _
    · split
      · exact (flagged.putAux _ _).endCopy _
      · exact (flagged.putAux _ _).faultCopy _ _ hk

theorem State.Canon.collFault {s : State} {k : Copy} (h : s.Canon m o) (hk : k.Canon m) :
    (s.collFault k).Canon m o := (h.faultCopy _ _ hk).tick

theorem State.Canon.disagrees {s t : State} {k : Copy} {x : Coll} (h : s.Canon m o) (hk : k.Canon m)
    (found : s.disagrees k x = some t) : t.Canon m o := by
  unfold State.disagrees at found
  dsimp only at found
  split at found
  · cases found
    exact h.collFault hk
  · split at found
    · cases found
      exact ((h.smear _ _ _).smearAux _).endCopy _
    · cases found

theorem State.Canon.finishColl {s : State} {k : Copy} (h : s.Canon m o) (x : Coll) (hk : k.Canon m) :
    (s.finishColl k x).Canon m o := by
  unfold State.finishColl
  cases found : s.disagrees k x with
  | some t => exact h.disagrees hk found
  | none =>
    rw [Option.getD_none]
    split
    · exact h.collFault hk
    · split <;> exact h.writeOutcome _ hk

theorem Device.Canon.setLossy {d : Device} (hd : d.Canon m) (y : Lossy) :
    (d.setLossy y).Canon m := hd

theorem Device.Canon.dropLossy {d : Device} (hd : d.Canon m) (c : CarRef) (n : Nat) :
    (d.dropLossy c n).Canon m := hd

theorem State.Canon.blockArrives {s : State} (h : s.Canon m o) (k : Copy) (b : Nat) : (s.blockArrives k b).1.Canon m o := by
  unfold State.blockArrives
  dsimp only
  split
  · exact State.Canon.moveElems _ _ _ h
  · split
    · exact h
    · exact State.Canon.putVals _ _ _ h

theorem State.Canon.zeroBlocks (k : Copy) (bs : List Nat) : ∀ {s : State}, s.Canon m o → (s.zeroBlocks k bs).1.Canon m o := by
  induction bs with
  | nil => exact fun h => h
  | cons b bs ih =>
    intro s h
    unfold State.zeroBlocks
    dsimp only
    split
    · exact State.Canon.putVals _ _ _ h
    · exact ih (State.Canon.putVals _ _ _ h)

theorem State.Canon.endLossy {s : State} {k : Copy} (h : s.Canon m o) (x : Lossy) (hk : k.Canon m) :
    (s.endLossy k x).Canon m o := by
  have fin {u : State} (h : u.Canon m o) : ((u.mapDev (fun d => d.dropLossy x.car x.num)).endCopy k).Canon m o :=
    State.Canon.endCopy (h.onDev fun _ hd => hd.dropLossy _ _) _
  unfold State.endLossy
  dsimp only
  split
  · split
    · exact fin (h.putAux _ _)
    · exact (h.putAux _ _).faultCopy _ _ hk
  · exact fin h

theorem State.Canon.mapFellow {s : State} (h : s.Canon m o) (me : Car) (carId : BitVec 9) {f : Car → Car}
    (hf : ∀ c, c.Canon m → (f c).Canon m) : (s.mapFellow me carId f).Canon m o := by
  refine h.mapCars fun c hc => ?_
  split
  · exact hf c hc
  · exact hc

theorem State.Canon.release {s : State} (h : s.Canon m o) (x : Sent) :
    (s.release x).Canon m o := h

theorem State.Canon.arrive {s : State} (h : s.Canon m o) (me : Car) (b : Fin 8) :
    (s.arrive me b).Canon m o := by
  unfold State.arrive
  split
  · exact h
  · exact h.mapConsist _ fun _ hy => hy

theorem State.Canon.deliver {s : State} (h : s.Canon m o) (me : Car) (x : Sent) :
    (s.deliver me x).Canon m o := by
  unfold State.deliver
  split
  · exact h.mapFellow _ _ fun _ hc => hc.post _ _
  · exact h.arrive _ _

theorem State.Canon.deliverMine {s : State} (h : s.Canon m o) :
    s.deliverMine.Canon m o := by
  refine State.Canon.foldl ?_ (fun _ _ h => h.deliver _ _) _
  exact h

theorem State.Canon.barrierOpen {s : State} (h : s.Canon m o) (x : Consist) (b : Fin 8) :
    (s.barrierOpen x b).Canon m o := by
  refine State.Canon.mapCars (h.mapConsist _ fun _ hy => hy) fun c hc => ?_
  split <;> exact hc

theorem Car.Canon.takeCount {c : Car} (hc : c.Canon m) (f : FlagIx) (n : BitVec 16) :
    (c.takeCount f n).Canon m := hc

theorem State.Canon.endWait {s : State} (h : s.Canon m o) (w : Wait) :
    (s.endWait w).Canon m o := by
  refine h.onCar fun c hc => ?_
  dsimp only
  split <;> exact hc

theorem State.Canon.requestPreempt {s : State} (h : s.Canon m o) (x : Consist) :
    (s.requestPreempt x).Canon m o := by
  unfold State.requestPreempt
  split
  · exact h
  · split
    · exact h
    · refine State.Canon.mapCars (h.mapConsist _ fun _ hy => hy) fun c hc => ?_
      split
      · split
        · exact hc
        · exact hc.endWadr
      · exact hc

theorem Car.Canon.later {c : Car} (hc : c.Canon m) (l : Late) :
    (c.later l).Canon m := hc

theorem State.Canon.at {s : State} (h : s.Canon m o) (r : CarRef) {f : State → State}
    (hf : ∀ s, s.Canon m o → (f s).Canon m o) : Answers m o (s.at r f) :=
  .next (h.atCar r hf)

theorem State.Canon.mapDebug {s : State} (h : s.Canon m o) (f : Debug → Debug) :
    (s.mapDebug f).Canon m o := h

theorem State.Canon.trapNow {s : State} (h : s.Canon m o) :
    s.trapNow.Canon m o := by
  unfold State.trapNow
  split
  · split
    · exact h
    · refine State.Canon.takeTrap ?_ _ _ _ _
      exact h
  · exact h

theorem State.Canon.execTakeTrap {s : State} (h : s.Canon m o) (c : CarRef) :
    Answers m o (execTakeTrap c s) := h.at c fun _ h => h.trapNow

theorem State.Canon.land {s : State} (h : s.Canon m o) (n : Nat) (err : Bool) :
    (s.land n err).Canon m o := by
  unfold State.land
  split
  · exact h
  · split
    · split
      · exact h.onCar fun _ hc => hc.fill _
      · exact h
    · split
      · exact h
      · exact h.onCar fun _ hc => hc.fill _

theorem State.Canon.execFillDestination {s : State} (h : s.Canon m o) (c : CarRef) (n : Nat) (err : Bool) :
    Answers m o (execFillDestination c n err s) := h.at c fun _ h => h.land _ _

theorem State.Canon.execDelayedWriteLands {s : State} (h : s.Canon m o) (c : CarRef) :
    Answers m o (execDelayedWriteLands c s) := h.at c fun _ h => h.onCar fun _ hc => hc.landDue

theorem State.Canon.execStoreErrorResponse {s : State} (h : s.Canon m o) (c : CarRef) (ha : Word) :
    Answers m o (execStoreErrorResponse c ha s) := by
  refine h.at c fun s h => ?_
  split
  · exact h.storeError _
  · exact h

theorem Car.Canon.receive {c : Car} (hc : c.Canon m) (n : Nat) (bs : List (Nat × Byte)) :
    (c.receive n bs).Canon m := by
  refine Car.Canon.withSpad (hc.mapCopies fun k hk => ?_) (hc.1.writeAll _)
  split
  · exact Mem.Canon.writeAll hk _
  · exact hk

theorem State.Canon.postedLands {s : State} (h : s.Canon m o) (n : Nat) :
    (s.postedLands n).Canon m o := by
  unfold State.postedLands
  split
  · exact h
  · split
    · exact h
    · refine State.Canon.tick (State.Canon.onCar ?_ fun _ hc => hc)
      split
      · exact h
      · exact h.mapAt _ fun _ hc => hc.receive _ _

theorem State.Canon.execPostedWriteArrival {s : State} (h : s.Canon m o) (c : CarRef) (n : Nat) :
    Answers m o (execPostedWriteArrival c n s) := h.at c fun _ h => h.postedLands _

theorem State.Canon.execFlagPost {s : State} (h : s.Canon m o) (c : CarRef) (f : FlagIx) (n : List (BitVec 16)) :
    Answers m o (execFlagPost c f n s) := by
  refine h.at c fun s h => ?_
  split
  · exact h
  · exact h.onCar fun _ hc => hc.post _ _

theorem State.Canon.execWaitSatisfied {s : State} (h : s.Canon m o) (c : CarRef) :
    Answers m o (execWaitSatisfied c s) := by
  refine h.at c fun s h => ?_
  split
  · exact h.endWait _
  · exact h

theorem State.Canon.execBarrierRelease {s : State} (h : s.Canon m o) (c : CarRef) (b : Fin 8) :
    Answers m o (execBarrierRelease c b s) := by
  refine h.at c fun s h => ?_
  split
  · split
    · exact h.barrierOpen _ _
    · exact h
  · exact h

theorem State.Canon.execWatchdogExpiry {s : State} (h : s.Canon m o) (c : CarRef) :
    Answers m o (execWatchdogExpiry c s) := by
  refine h.at c fun s h => ?_
  split
  · exact h.abortMine _
  · exact h

theorem State.Canon.addTlb {s : State} (h : s.Canon m o) (w : Walked) :
    (s.addTlb w).Canon m o := by
  refine h.mapCars fun c hc => ?_
  split <;> exact hc

theorem State.Canon.walkEnds {s : State} (h : s.Canon m o) :
    s.walkEnds.Canon m o := by
  unfold State.walkEnds
  split
  · split
    · exact h.addTlb _
    · exact (h.onDev fun _ hd => hd.countWalk _).onCar fun _ hc => hc
  · exact h

theorem State.Canon.execXltWalkEnd {s : State} (h : s.Canon m o) (c : CarRef) :
    Answers m o (execXltWalkEnd c s) := h.at c fun _ h => h.walkEnds

theorem State.Canon.endVoid {s : State} {k : Copy} (h : s.Canon m o) (hk : k.Canon m) :
    (s.endVoid k).Canon m o :=
  .ite (State.Canon.faultCopy (.ite (h.onCar fun _ hc => hc.post _ _) h) _ _ hk).tick (h.endCopy _).sweepColls

theorem State.Canon.copyEnds {s : State} (h : s.Canon m o) (n : Nat) :
    (s.copyEnds n).Canon m o := by
  unfold State.copyEnds
  split
  · exact h
  case h_2 k found =>
    have hk := h.car.copyOf found
    split
    · exact h.cutCopy _ _
    · split
      · exact h
      · split
        · exact h.endVoid hk
        · split
          · split
            · exact (h.finishColl _ hk).sweepColls
            · exact h
          · exact h.finishCopy hk

theorem State.Canon.execCopyComplete {s : State} (h : s.Canon m o) (c : CarRef) (n : Nat) :
    Answers m o (execCopyComplete c n s) := h.at c fun _ h => h.copyEnds _

theorem State.Canon.copyFaults {s : State} (h : s.Canon m o) (n : Nat) (i : Nat) (va : Word) :
    (s.copyFaults n i va).Canon m o := by
  unfold State.copyFaults
  split
  · exact h
  case h_2 k found =>
    have hk := h.car.copyOf found
    split
    · exact h
    · split
      · exact h.faultCopy _ _ hk
      · dsimp only
        split <;> exact (State.Canon.moveElems _ _ _ h).faultCopy _ _ hk

theorem State.Canon.execCopyFaultDetected {s : State} (h : s.Canon m o) (c : CarRef) (n : Nat) (i : Nat) (va : Word) :
    Answers m o (execCopyFaultDetected c n i va s) := h.at c fun _ h => h.copyFaults _ _ _

theorem State.Canon.mapStream {s : State} (h : s.Canon m o) (id : Nat) (f : Stream → Stream) :
    (s.mapStream id f).Canon m o := h

theorem State.Canon.readBeat {s : State} (h : s.Canon m o) (id : Nat) :
    (s.readBeat id).Canon m o := by
  unfold State.readBeat
  (repeat' split) <;> exact h

theorem State.Canon.readStreams {s : State} (h : s.Canon m o) (dom : Option Nat) :
    (s.readStreams dom).Canon m o := h.foldl (fun _ _ h => h.readBeat _) _

theorem State.Canon.execLineStreamRead {s : State} (h : s.Canon m o) (id : Nat) :
    Answers m o (execLineStreamRead id s) := .next (h.readBeat id)

theorem State.Canon.endStream {s : State} (h : s.Canon m o) (x : Stream) :
    (s.endStream x).Canon m o := (h.onDev fun _ hd => hd).mapAt _ fun _ hc => hc.filterCopies _

theorem Device.Canon.replicate {d : Device} (hd : d.Canon m) (g : Nat) (payload : List Byte) (beat : Option Nat) :
    (d.replicate g payload beat).Canon m := by
  unfold Device.replicate
  dsimp only
  (repeat' split) <;> exact hd

theorem State.Canon.execLineStreamBeat {s : State} (h : s.Canon m o) (id : Nat) :
    Answers m o (execLineStreamBeat id s) := by
  refine .next ?_
  split
  · exact h
  · split
    · exact h
    · refine State.Canon.ite (State.Canon.endStream ?read _) ?read
      case read =>
        refine State.Canon.mapStream (State.Canon.ite ?marked (State.Canon.onDev ?marked fun _ hd => hd.foldl ?sent _)) _ _
        case marked =>
          refine State.Canon.ite (State.Canon.mapAt ?driven _ fun _ hc => hc.setFlags _) ?driven
          exact .ite h (h.onDev fun _ hd => hd.driveLine _)
        case sent => exact fun _ _ hd => hd.replicate _ _ _

theorem State.Canon.endWadrWith {s : State} (h : s.Canon m o) (w : Wait) (x : Word) :
    (s.endWadrWith w x).Canon m o := by
  unfold State.endWadrWith
  split
  · refine h.onCar fun c hc => ?_
    dsimp only
    (repeat' split) <;> exact hc
  · exact h

theorem State.Canon.execWadrReread {s : State} (h : s.Canon m o) (c : CarRef) :
    Answers m o (execWadrReread c s) := by
  refine h.at c fun s h => ?_
  split
  · exact h.endWadrWith _ _
  · exact h

theorem State.Canon.execWadrTimeout {s : State} (h : s.Canon m o) (c : CarRef) :
    Answers m o (execWadrTimeout c s) := by
  refine h.at c fun s h => ?_
  split
  · exact h.endWadrWith _ _
  · exact h

theorem Device.Canon.rangeOp {d : Device} (hd : d.Canon m) (kind : RangeKind) (die : Nat) (lo : Nat) (hi : Nat) :
    (d.rangeOp kind die lo hi).Canon m := by
  refine hd.foldl (fun d l hd => ?_) _
  split
  · exact hd.flushLine _ _
  · exact hd.dropLine _ _
  · exact (hd.flushLine _ _).dropLine _ _

theorem State.Canon.execRangeOpComplete {s : State} (h : s.Canon m o) (c : CarRef) (n : Nat) :
    Answers m o (execRangeOpComplete c n s) := by
  refine h.at c fun s h => ?_
  split
  · exact h
  · split
    · exact h
    · refine (h.onDev fun _ hd => hd.rangeOp _ _ _ _).onCar fun _ hc => Car.Canon.post ?_ _ _
      exact hc

theorem State.Canon.execCunmComplete {s : State} (h : s.Canon m o) (c : CarRef) (n : Nat) :
    Answers m o (execCunmComplete c n s) := by
  refine h.at c fun s h => ?_
  split
  · exact h
  · split
    · exact h
    · dsimp only
      split
      · exact h.stashFault _ _
      · refine State.Canon.onCar (h.foldl (fun s b h => ?_) _) fun c hc => Car.Canon.post ?_ _ _
        · split
          · exact h.tileWrite _ _ _
          · exact h
        · exact hc

theorem State.Canon.execStashFill {s : State} (h : s.Canon m o) (c : CarRef) (addr : Nat) :
    Answers m o (execStashFill c addr s) := by
  refine h.at c fun s h => ?_
  split
  · split
    · exact h
    · exact h.fillOne _ _
  · exact h

theorem State.Canon.execStashWriteback {s : State} (h : s.Canon m o) (c : CarRef) (addr : Nat) :
    Answers m o (execStashWriteback c addr s) := by
  refine h.at c fun s h => ?_
  split
  · dsimp only
    split
    · exact h.stashFault _ _
    · exact h.backGranules _ _
  · exact h

theorem State.Canon.execStashForeignWrite {s : State} (h : s.Canon m o) (c : CarRef) (addr : Nat) (bytes : List Byte) :
    Answers m o (execStashForeignWrite c addr bytes s) := by
  refine h.at c fun s h => ?_
  split
  · split
    · split
      · exact h.storeAt _ _ _ _ _
      · exact h
    · exact h
  · exact h

theorem Device.Canon.mapDebug {d : Device} (hd : d.Canon m) (core : Nat) (f : Debug → Debug) :
    (d.mapDebug core f).Canon m := hd

theorem State.Canon.doomCore {s : State} (h : s.Canon m o) (core : Nat) :
    (s.doomCore core).Canon m o := h.foldl (fun _ _ h => h.doomSpec _ _) _

theorem State.Canon.execDbgHalt {s : State} (h : s.Canon m o) (core : Fin 336) (v : Bool) :
    Answers m o (execDbgHalt core v s) := by
  refine .next ?_
  split
  · exact State.Canon.doomCore (h.onDev fun _ hd => hd.mapDebug _ _) _
  · exact h

theorem State.Canon.execDbgStep {s : State} (h : s.Canon m o) (core : Fin 336) :
    Answers m o (execDbgStep core s) := by
  refine .next ?_
  split
  · exact h.onDev fun _ hd => hd.foldl (fun _ _ hd => hd.mapDebug _ _) _
  · exact h

theorem State.Canon.haltNow {s : State} (h : s.Canon m o) :
    s.haltNow.Canon m o := by
  unfold State.haltNow
  split
  · exact h.doom
  · split
    · exact State.Canon.onCar (h.mapDebug _) fun _ hc => hc.endWadr
    · exact h

theorem State.Canon.execHaltTaken {s : State} (h : s.Canon m o) (c : CarRef) :
    Answers m o (execHaltTaken c s) := h.at c fun _ h => h.haltNow


end Sys2Proof.Machine

namespace Sys2Proof.Machine
variable {m : Prop} {o : Option (Car × Device)}

theorem State.Canon.mapArr {s : State} (h : s.Canon m o) (f : Arr → Arr) : (s.mapArr f).Canon m o := h

theorem Answers.onDev {s : State} {f : Device → Device} (h : s.Canon m o) (hf : ∀ d, d.Canon m → (f d).Canon m) :
    Answers m o (.next (s.mapDev f)) :=
  .next (h.onDev hf)

theorem State.Canon.execReportReadable {s : State} (h : s.Canon m o) (c : CarRef) :
    Answers m o (execReportReadable c s) := h.at c fun _ h => h.mapArr _

theorem State.Canon.execWindowVoid {s : State} (h : s.Canon m o) (c : CarRef) (g : Ix16) :
    Answers m o (execWindowVoid c g s) := h.at c fun _ h => h.mapArr _

theorem State.Canon.execCalibrationStart {s : State} (h : s.Canon m o) (c : CarRef) :
    Answers m o (execCalibrationStart c s) := h.at c fun _ h => .ite (h.mapArr _) h

theorem State.Canon.execCalibrationComplete {s : State} (h : s.Canon m o) (c : CarRef) :
    Answers m o (execCalibrationComplete c s) := h.at c fun _ h => .ite (h.mapArr _) h

theorem State.Canon.execCalPeriodicDue {s : State} (h : s.Canon m o) (c : CarRef) :
    Answers m o (execCalPeriodicDue c s) := h.at c fun _ h => .ite (h.mapArr _) h

theorem State.Canon.execCalStale {s : State} (h : s.Canon m o) (c : CarRef) :
    Answers m o (execCalStale c s) := h.at c fun _ h => .ite (h.mapArr _) h

theorem State.Canon.execCalForced {s : State} (h : s.Canon m o) (c : CarRef) :
    Answers m o (execCalForced c s) := h.at c fun _ h => .ite (h.mapArr _) h

theorem Device.Canon.mapLine {d : Device} (hd : d.Canon m) (l : Ix16) (f : LineState → LineState) : (d.mapLine l f).Canon m := hd

theorem State.Canon.execRemapPending {s : State} (h : s.Canon m o) (l : Ix16) (row : Fin 32) :
    Answers m o (execRemapPending l row s) := .next (.ite (h.onDev fun _ hd => hd.mapLine _ _) h)

theorem State.Canon.execRemapStart {s : State} (h : s.Canon m o) (l : Ix16) :
    Answers m o (execRemapStart l s) := by
  refine .next (.ite ?_ h)
  split
  · exact h.onDev fun _ hd => hd.mapLine _ _
  · exact h

theorem State.Canon.execRemapEnd {s : State} (h : s.Canon m o) (l : Ix16) :
    Answers m o (execRemapEnd l s) := by
  refine .next (.ite ((h.onDev fun _ hd => hd.mapLine _ _).mapCars fun c hc => ?_) h)
  split <;> exact hc

theorem State.Canon.markLaser {s : State} (h : s.Canon m o) (l : Ix16) :
    (s.markLaser l).Canon m o := by
  refine .ite (h.mapCars fun c hc => ?_) h
  split <;> exact hc

theorem State.Canon.execLaserRefresh {s : State} (h : s.Canon m o) (m₁ : Fin 24) (bias : BitVec 16) (drift : BitVec 16) (temp : BitVec 16) (power : List (BitVec 16)) (hours : BitVec 32) (bias0 : BitVec 16) :
    Answers m o (execLaserRefresh m₁ bias drift temp power hours bias0 s) := by
  refine .next ?_
  split
  · refine State.Canon.markLaser (State.Canon.onDev h fun d hd => ?_) _
    exact hd
  · exact h

theorem State.Canon.execLaneFail {s : State} (h : s.Canon m o) (p : Fin 128) (l : Nat) :
    Answers m o (execLaneFail p l s) := .onDev h fun _ hd => hd.mapPort _ _

theorem State.Canon.execLnkForce {s : State} (h : s.Canon m o) (p : Fin 128) (l : BitVec 6) :
    Answers m o (execLnkForce p l s) := .onDev h fun _ hd => hd.mapPort _ _

theorem Device.Canon.escape {d : Device} (hd : d.Canon m) (before : Fabric) (p : Nat) :
    (d.escape before p).Canon m := by
  refine Device.Canon.ite (Device.Canon.withFab ?moved _) ?moved
  case moved =>
    refine Device.Canon.foldl ?_ (fun d f hd => ?_) _
    · exact hd
    · split
      · exact Device.Canon.sendFlits _ _ _ hd
      · exact hd

theorem State.Canon.execLaneRemap {s : State} (h : s.Canon m o) (p : Fin 128) (l : Nat) :
    Answers m o (execLaneRemap p l s) := .onDev h fun _ hd => .ite (Device.Canon.escape (hd.mapPort _ _) _ _) (hd.mapPort _ _)

theorem State.Canon.execLnkClr {s : State} (h : s.Canon m o) (p : Fin 128) :
    Answers m o (execLnkClr p s) := .onDev h fun _ hd => hd.mapPort _ _

theorem State.Canon.execLnkRetrain {s : State} (h : s.Canon m o) (p : Fin 128) :
    Answers m o (execLnkRetrain p s) := .onDev h fun _ hd => .ite hd ((hd.mapPort _ _).escape _ _)

theorem State.Canon.execRetrainComplete {s : State} (h : s.Canon m o) (p : Fin 128) (pass : BitVec 34) :
    Answers m o (execRetrainComplete p pass s) := .onDev h fun _ hd => hd.mapPort _ _

theorem State.Canon.execTsSyncLost {s : State} (h : s.Canon m o)  :
    Answers m o (execTsSyncLost s) := .onDev h fun _ hd => .ite hd hd

theorem State.Canon.execTsResync {s : State} (h : s.Canon m o)  :
    Answers m o (execTsResync s) := .next (.ite (h.onDev fun _ hd => hd) h)

theorem Device.Canon.askReplay {d : Device} (hd : d.Canon m) (p : Nat) (cause : Option Nat) :
    (d.askReplay p cause).Canon m := hd

theorem State.Canon.execFlitArrival {s : State} (h : s.Canon m o) (p : Fin 128) (seq : BitVec 12) (good : Bool) :
    Answers m o (execFlitArrival p seq good s) := by
  refine .onDev h fun d hd => .ite hd ?_
  exact .ite hd (.ite hd (.ite hd (Device.Canon.askReplay (hd.mapPort _ _) _ _)))

theorem State.Canon.execReplayRequest {s : State} (h : s.Canon m o) (p : Fin 128) (seq : BitVec 12) :
    Answers m o (execReplayRequest p seq s) := .onDev h fun _ hd => hd.emit _

theorem State.Canon.execFlitAck {s : State} (h : s.Canon m o) (p : Fin 128) (seq : BitVec 12) :
    Answers m o (execFlitAck p seq s) := .onDev h fun _ hd => hd.mapPort _ _

theorem State.Canon.lossyOpen {s : State} (h : s.Canon m o) (k : Copy) : (s.lossyOpen k).Canon m o := .ite (h.openLossy _ _ _) h

theorem State.Canon.blocksArrive (k : Copy) (bs : List Nat) : ∀ {s : State}, s.Canon m o → (s.blocksArrive k bs).1.Canon m o := by
  induction bs with
  | nil => exact fun h => h
  | cons b bs ih =>
    intro s h
    unfold State.blocksArrive
    dsimp only
    split
    · exact h.blockArrives _ _
    · exact ih (h.blockArrives _ _)

theorem State.Canon.execLossyBlockArrival {s : State} (h : s.Canon m o) (c : CarRef) (n : Nat) (b : Nat) :
    Answers m o (execLossyBlockArrival c n b s) := by
  refine h.at c fun s h => ?_
  split
  · exact h
  case h_2 k found =>
    have hk := h.car.copyOf found
    have opened := h.lossyOpen k
    generalize s.lossyOpen k = u at opened
    dsimp only
    split
    · exact opened
    · refine .ite opened ?_
      have came := opened.blockArrives k b
      split
      · exact came.onDev fun _ hd => hd.setLossy _
      · exact ((State.Canon.blocksArrive _ _ came).onDev fun _ hd => hd.setLossy _).faultCopy _ _ hk

theorem State.Canon.execEndMarkerArrival {s : State} (h : s.Canon m o) (c : CarRef) (n : Nat) :
    Answers m o (execEndMarkerArrival c n s) := by
  refine h.at c fun s h => ?_
  split
  · exact h
  case h_2 k found =>
    refine .ite h (.ite h ?_)
    have marked : State.Canon m o ((s.lossyOpen k).mapDev (fun d =>
        if k.op.isColl then d.mapColl k (fun x => x.mark k (s.myRank k) d.now) else d)) :=
      (h.lossyOpen k).onDev fun _ hd => .ite (hd.mapColl _ _) hd
    generalize (s.lossyOpen k).mapDev (fun d => if k.op.isColl then d.mapColl k (fun x => x.mark k (s.myRank k) d.now) else d) = u
      at marked
    dsimp only
    split
    · exact marked
    · exact .ite marked (marked.onDev fun _ hd => hd.setLossy _)

theorem State.Canon.execLossyClose {s : State} (h : s.Canon m o) (c : CarRef) (n : Nat) :
    Answers m o (execLossyClose c n s) := by
  refine h.at c fun s h => ?_
  split
  · exact h
  case h_2 k found =>
    split
    · exact h
    case h_2 x _ =>
      refine .ite h ?_
      have zeroed := State.Canon.zeroBlocks k x.missing h
      dsimp only
      split
      · exact zeroed.faultCopy _ _ (h.car.copyOf found)
      · exact zeroed.onDev fun _ hd => hd.setLossy _

theorem State.Canon.execCompletionNotice {s : State} (h : s.Canon m o) (c : CarRef) (n : Nat) :
    Answers m o (execCompletionNotice c n s) := by
  refine h.at c fun s h => ?_
  split
  · exact h
  case h_2 k found =>
    split
    · exact h
    · exact .ite h (h.endLossy _ (h.car.copyOf found))

theorem State.Canon.execNoticeOfIssue {s : State} (h : s.Canon m o) (g : Nat) (k : Nat) (rank : Nat) (count : Nat) (lossy : Bool) :
    Answers m o (execNoticeOfIssue g k rank count lossy s) := .onDev h fun _ hd => Device.Canon.flushColl (by exact hd) _ _

theorem State.Canon.execCrdxBlockClose {s : State} (h : s.Canon m o) (c : CarRef) (n : Nat) (b : Nat) (present : List (Nat × List Word)) :
    Answers m o (execCrdxBlockClose c n b present s) := by
  refine h.at c fun s h => ?_
  split
  · exact h
  · split
    · exact h
    · refine .ite h (.ite (.ite h (h.onDev fun _ hd => hd.mapColl _ _)) (.ite h ?_))
      exact (h.onCar fun _ hc => .ite (hc.setFlags _) hc).onDev fun _ hd => (hd.mapColl _ _).flushColl _ _

theorem State.Canon.closeMotion {s : State} {k : Copy} (h : s.Canon m o) (y : Lossy) (hk : k.Canon m) :
    (s.closeMotion k y).Canon m o := by
  have zeroed := State.Canon.zeroBlocks k (if y.closed then [] else y.missing) h
  unfold State.closeMotion
  dsimp only
  split
  · exact zeroed.faultCopy _ _ hk
  · exact (zeroed.onDev fun _ hd => hd.setLossy _).endLossy _ hk

theorem State.Canon.execCollectiveDeadline {s : State} (h : s.Canon m o) (c : CarRef) (n : Nat) :
    Answers m o (execCollectiveDeadline c n s) := by
  refine h.at c fun s h => ?_
  split
  · exact h
  case h_2 k found =>
    have hk := h.car.copyOf found
    split
    · exact h
    case h_2 x _ =>
      refine .ite h (State.Canon.sweepColls ?_)
      cases other : s.disagrees k x with
      | some t => exact h.disagrees hk other
      | none =>
        rw [Option.getD_none]
        split
        · exact h.writeOutcome _ hk
        · exact h.closeMotion _ hk
        · exact h.writeOutcome _ hk

theorem Device.Canon.setForeign {d : Device} (hd : d.Canon m) (x : Foreign) :
    (d.setForeign x).Canon m := hd

theorem State.Canon.foreignWrite {s : State} (h : s.Canon m o) (pa : Nat) (bs : List Byte) :
    (s.foreignWrite pa bs).Canon m o := h.storeAt _ _ _ _ _

theorem State.Canon.foreignBlock {s : State} (h : s.Canon m o) (pkg : Nat) (id : Nat) (b : Nat) (bytes : List Byte) :
    (s.foreignBlock pkg id b bytes).Canon m o := by
  unfold State.foreignBlock
  split
  · exact h
  · split
    · exact h
    · exact .ite h ((h.foreignWrite _ _).onDev fun _ hd => hd.setForeign _)

theorem State.Canon.closeForeign {s : State} (h : s.Canon m o) (x : Foreign) :
    (s.closeForeign x).Canon m o := by
  refine .ite h (State.Canon.onDev (h.foldl (fun s b h => ?_) _) fun d hd => Device.Canon.emit (Device.Canon.sendOut ?_ _ _ _ _) _)
  · split
    · exact h.foreignWrite _ _
    · exact h
  · exact hd

theorem State.Canon.dropRemote {s : State} (h : s.Canon m o) (n : Nat) :
    (s.dropRemote n).Canon m o := h

theorem Car.Canon.answer {c : Car} (hc : c.Canon m) (n : Nat) (now : Nat) (f : Flight → Flight) :
    (c.answer n now f).Canon m := hc

theorem State.Canon.remoteError {s : State} (h : s.Canon m o) (r : Remote) :
    (s.remoteError r).Canon m o := by
  unfold State.remoteError
  split
  · exact h.onCar fun _ hc => hc.answer _ _ _
  · exact h.storeError _

theorem State.Canon.answered {s : State} (h : s.Canon m o) (id : Option Nat) (f : Flight → Flight) :
    State.Canon m o (match id with
      | some n => s.mapCar (fun c => c.answer n s.now f)
      | none => s) := by
  cases id with
  | some n => exact h.onCar fun _ hc => hc.answer _ _ _
  | none => exact h

theorem State.Canon.performRemote {s : State} (h : s.Canon m o) (r : Remote) :
    (s.performRemote r).Canon m o := by
  unfold State.performRemote
  dsimp only
  split
  · exact .ite (h.remoteError _) (h.answered _ _)
  · exact .ite (h.storeError _) (h.storeAt _ _ _ _ _)
  · exact .ite ((h.performAtomic _ _ _ _ _ _ _ _).remoteError _) ((h.performAtomic _ _ _ _ _ _ _ _).answered _ _)
  · exact .ite (h.remoteError _) (h.answered _ _)

theorem State.Canon.execRemoteRequest {s : State} (h : s.Canon m o) (n : Nat) :
    Answers m o (execRemoteRequest n s) := by
  refine .next ?_
  split
  · exact h
  · refine .ite h (.ite (State.Canon.dropRemote (h.atCar _ fun _ h => h.performRemote _) _) ?_)
    dsimp only
    split
    · exact .ite h (State.Canon.dropRemote (State.Canon.atCar (h.onDev fun _ hd => hd.sendOut _ _ _ _) _ fun _ h => h.performRemote _) _)
    · exact State.Canon.dropRemote (State.Canon.atCar (h.onDev fun _ hd => hd.sendOut _ _ _ _) _ fun _ h => h.remoteError _) _

theorem State.Canon.execMovedResponse {s : State} (h : s.Canon m o) (n : Nat) (new : BitVec 52) :
    Answers m o (execMovedResponse n new s) := by
  refine .next ?_
  split
  · exact h
  · exact h.onDev fun _ hd => hd

theorem State.Canon.serve {s : State} (h : s.Canon m o) (pkg : Nat) (id : Nat) (pa : Nat) (op : RemoteOp) :
    (s.serve pkg id pa op).Canon m o := by
  have back {u : State} (h : u.Canon m o) (x : Output) :
      (u.mapDev (fun d => (d.sendOut (d.wayTo pkg false) pkg 1 false).emit [x])).Canon m o :=
    h.onDev fun _ hd => (hd.sendOut _ _ _ _).emit _
  unfold State.serve
  dsimp only
  split
  · exact back h _
  · refine .ite (back h _) ?_
    split
    · exact back (h.onDev fun _ hd => hd.afterRead _ _ _ _) _
    · exact back (h.storeAt _ _ _ _ _) _
    · exact back (h.performAtomic _ _ _ _ _ _ _ _) _
    · exact back h _

theorem Device.Canon.setFabStat {d : Device} (hd : d.Canon m) (b : BitVec 8) :
    (d.setFabStat b).Canon m := hd

theorem State.Canon.execInvalidate {s : State} (h : s.Canon m o) (len : BitVec 40) :
    Answers m o (execInvalidate len s) := .onDev h fun _ hd => .ite (hd.setFabStat _) hd

theorem Car.Canon.invalidate {c : Car} (hc : c.Canon m) (lo : Nat) (hi : Nat) :
    (c.invalidate lo hi).Canon m := hc

theorem State.Canon.execInvalidationComplete {s : State} (h : s.Canon m o)  :
    Answers m o (execInvalidationComplete s) := by
  refine .next ?_
  split
  · exact h
  · refine .ite h (State.Canon.onDev (h.mapCars fun _ hc => hc.invalidate _ _) fun d hd => ?_)
    refine Device.Canon.withFab (hd.mapConsists fun y hy => ?_) _
    cases saved : y.saved with
    | none => exact List.forall_mem_nil _
    | some cs =>
      refine List.forall_mem_map.mpr fun c hc => Car.Canon.invalidate (hy c ?_) _ _
      rwa [saved]

theorem State.Canon.execMigrate {s : State} (h : s.Canon m o) (len : BitVec 31) :
    Answers m o (execMigrate len s) := by
  refine .onDev h fun d hd => .ite hd ?_
  split <;> exact hd

theorem Device.Canon.purgeLine {d : Device} (hd : d.Canon m) (line : Nat) :
    (d.purgeLine line).Canon m := by
  refine Device.Canon.foldl (hd.foldl (fun _ _ hd => ?_) _) (fun _ _ hd => hd.evictLine _ _) _
  exact (hd.flushLine _ _).dropLine _ _

theorem Device.Canon.doomShadows {d : Device} (hd : d.Canon m) (g : Nat) :
    (d.doomShadows g).Canon m := hd.mapSpecs fun _ hx => .ite (hx.ends _ _) hx

theorem Device.Canon.copyLine {d : Device} (hd : d.Canon m) (m₁ : Migration) :
    (d.copyLine m₁).Canon m := by
  refine Device.Canon.ite (Device.Canon.withFab ?copied _) (Device.Canon.withFab ?copied _)
  case copied =>
    have bare := (hd.purgeLine ((m₁.src + 64 * m₁.next) / 64)).doomShadows ((m₁.src + 64 * m₁.next) / 0x10000)
    refine Device.Canon.ite (Device.Canon.watched (Device.Canon.foldl (bare.hbmWrite _ _) (fun _ _ hd => hd.hbmSpoil _) _) _ _ _) ?_
    refine bare.withRemote (List.foldlRecOn _ _ (motive := Mem.Canon m) (bare.2.1.write _ _) fun _ hm _ _ => hm.setPoison _ _)

theorem State.Canon.execMigrationLineCopy {s : State} (h : s.Canon m o)  :
    Answers m o (execMigrationLineCopy s) := by
  refine .next ?_
  split
  · exact h
  · exact h.onDev fun _ hd => hd.copyLine _

theorem State.Canon.execGroupCommit {s : State} (h : s.Canon m o) (g : Fin 4096) :
    Answers m o (execGroupCommit g s) := by
  refine .next ?_
  split
  · exact h
  · refine .ite h ?_
    split
    · exact h.onDev fun _ hd => hd.setFabStat _
    · exact .ite h h
  · exact .ite h h

theorem State.Canon.execGroupBusyClear {s : State} (h : s.Canon m o) (g : Fin 4096) :
    Answers m o (execGroupBusyClear g s) := .onDev h fun _ hd => .ite hd hd

theorem State.Canon.execMulticastReplicate {s : State} (h : s.Canon m o) (g : Fin 4096) (payload : List Byte) :
    Answers m o (execMulticastReplicate g payload s) := .onDev h fun _ hd => hd.replicate _ _ _

theorem State.Canon.execThroughRunningFrame {s : State} (h : s.Canon m o) (g : Fin 4096) (beat : Nat) (payload : List Byte) :
    Answers m o (execThroughRunningFrame g beat payload s) := by
  refine .onDev h fun _ hd => ?_
  split <;> exact hd

theorem State.Canon.execTimetableLoad {s : State} (h : s.Canon m o) (n : BitVec 8) :
    Answers m o (execTimetableLoad n s) := by
  refine .onDev h fun _ hd => ?_
  split
  · exact .ite hd hd
  · exact hd

theorem Device.Canon.loadAlternate {d : Device} (hd : d.Canon m) (y : LoadedSet) :
    (d.loadAlternate y).Canon m := by
  unfold Device.loadAlternate
  split
  · exact .ite hd hd
  · exact hd

theorem State.Canon.execAlternateSetLoad {s : State} (h : s.Canon m o) (n : BitVec 8) :
    Answers m o (execAlternateSetLoad n s) := .onDev h fun _ hd => .ite hd (.ite hd (hd.foldl (fun _ _ hd => hd.loadAlternate _) _))

theorem State.Canon.execOnPackageLinkDown {s : State} (h : s.Canon m o) (junction : Fin 64) (port : Fin 8) :
    Answers m o (execOnPackageLinkDown junction port s) := .onDev h fun _ hd => Device.Canon.ite (p := _ = true) (hd.setFabStat 2#8) hd


end Sys2Proof.Machine

namespace Sys2Proof.Machine
variable {m : Prop} {o : Option (Car × Device)}

theorem Device.Canon.mapSig {d : Device} {f : Signal → Signal} (hd : d.Canon m) (hf : ∀ x, x.Canon m → (f x).Canon m) :
    (d.mapSig f).Canon m :=
  ⟨hd.1, hd.2.1, hf _ hd.2.2⟩

/-- The package with a part of the Signal box replaced that holds no memory. -/
theorem Device.Canon.mapSigOther {d : Device} {f : Signal → Signal} (hd : d.Canon m) (specs : (f d.sig).specs = d.sig.specs)
    (consists : (f d.sig).consists = d.sig.consists) : (d.mapSig f).Canon m := by
  refine ⟨hd.1, hd.2.1, ?_, ?_⟩
  · show ∀ p ∈ (f d.sig).specs, p.Canon m
    rw [specs]
    exact hd.2.2.1
  · show ∀ y ∈ (f d.sig).consists, y.Canon m
    rw [consists]
    exact hd.2.2.2

theorem Device.Canon.mapHost {d : Device} (hd : d.Canon m) (f : HostRegs → HostRegs) : (d.mapHost f).Canon m := hd

theorem Signal.Canon.mapSpecs {x : Signal} {f : Speculation → Speculation} (hx : x.Canon m)
    (hf : ∀ p : Speculation, p.Canon m → (f p).Canon m) : Signal.Canon m { x with specs := x.specs.map f } :=
  ⟨List.forall_mem_map.mpr fun p hp => hf p (hx.1 p hp), hx.2⟩

theorem Signal.Canon.mapConsists {x : Signal} {f : Consist → Consist} (hx : x.Canon m)
    (hf : ∀ y : Consist, y.Canon m → (f y).Canon m) : Signal.Canon m { x with consists := x.consists.map f } :=
  ⟨hx.1, List.forall_mem_map.mpr fun y hy => hf y (hx.2 y hy)⟩

theorem Signal.Canon.filterConsists {x : Signal} (hx : x.Canon m) (p : Consist → Bool) :
    Signal.Canon m { x with consists := x.consists.filter p } :=
  ⟨hx.1, fun y hy => hx.2 y (List.mem_filter.1 hy).1⟩

theorem Consist.Canon.ite {p : Prop} {_ : Decidable p} {x y : Consist} (hx : x.Canon m) (hy : y.Canon m) :
    Consist.Canon m (if p then x else y) :=
  iteInduction (fun _ => hx) fun _ => hy

theorem Device.Canon.setDevStat {d : Device} (hd : d.Canon m) (b : BitVec 8) :
    (d.setDevStat b).Canon m := hd

theorem State.Canon.writeVa {s t : State} (h : s.Canon m o) {va : Nat} {bs : List Byte} (written : s.writeVa va bs = some t) :
    t.Canon m o := by
  unfold State.writeVa at written
  split at written
  · cases written
  · cases written
  · split at written
    · cases written
    · cases written
      exact h.storeAt _ _ _ _ _

theorem State.Canon.writeVaD {s : State} (h : s.Canon m o) (va : Nat) (bs : List Byte) : ((s.writeVa va bs).getD s).Canon m o := by
  cases written : s.writeVa va bs with
  | some t => exact h.writeVa written
  | none => exact h

theorem Device.Canon.mapSlot {d : Device} (hd : d.Canon m) (q : BitVec 16) (f : QSlot → QSlot) : (d.mapSlot q f).Canon m := hd

theorem Device.Canon.want {d : Device} (hd : d.Canon m) (q : BitVec 16) :
    (d.want q).Canon m := by
  unfold Device.want
  split <;> exact hd

theorem Image.spad_canon (x : Image) (args : List Word) : (x.spad args).Canon m := (Mem.Canon.empty.write _ _).write _ _

theorem Image.imem_canon (x : Image) : x.imem.Canon m := Mem.Canon.empty.write _ _

theorem State.Canon.imemFor {s : State} (h : s.Canon m o) (r : CarRef) (x : Image) : (s.imemFor r x).Canon m := by
  unfold State.imemFor
  split
  case h_1 c found =>
    refine (h.cars c ?_).2.1
    split at found
    · exact List.mem_of_find?_eq_some found
    · cases found
  case h_2 => exact x.imem_canon

theorem State.tlbsOf_copies (s : State) (core : Nat) : (s.tlbsOf core).copies = [] := by
  unfold State.tlbsOf
  split <;> rfl

theorem State.Canon.newCar {s : State} (h : s.Canon m o) (p : Placement) (i core : Nat) : (s.newCar p i core).Canon m := by
  refine ⟨p.image.spad_canon _, h.imemFor _ _, ?_⟩
  show ∀ k ∈ (s.tlbsOf core).copies, k.Canon m
  rw [s.tlbsOf_copies]
  exact List.forall_mem_nil _

theorem State.Canon.putCar {s : State} {c : Car} (h : s.Canon m o) (hc : c.Canon m) : (s.putCar c).Canon m o := by
  refine .ite (h.mapAt _ fun _ _ => hc) ⟨h.car, fun x hx => ?_, h.dev, h.old, h.begun⟩
  rcases List.mem_append.1 hx with hx | hx
  · exact h.peers x hx
  · rw [List.mem_singleton.1 hx]
    exact hc

theorem State.Canon.withFresh {s : State} (h : s.Canon m o) (n : Nat) : State.Canon m o { s with fresh := n } := h

theorem State.Canon.putCars {s : State} (h : s.Canon m o) (p : Placement) (cores : List Nat) :
    (s.putCars p cores).Canon m o := by
  refine State.Canon.withFresh ?_ _
  exact h.foldl (fun _ _ ht => ht.putCar (h.newCar _ _ _)) _

theorem Device.Canon.cleanHandles {d : Device} (hd : d.Canon m) (v : Service) (dies : List Nat) :
    (d.cleanHandles v dies).Canon m := hd

theorem Device.Canon.flushHandles {d : Device} (hd : d.Canon m) (v : Service) :
    (d.flushHandles v).Canon m := hd.foldl (fun _ _ hd => hd.flushLine _ _) _

/-- A consist without saved cars comes to the others. -/
theorem Device.Canon.addConsist {d : Device} {c : Consist} (hd : d.Canon m) (fresh : c.saved = none) :
    Device.Canon m { d with sig.consists := d.sig.consists ++ [c] } := by
  refine ⟨hd.1, hd.2.1, hd.2.2.1, fun y hy => ?_⟩
  rcases List.mem_append.1 hy with hy | hy
  · exact hd.2.2.2 y hy
  · rw [List.mem_singleton.1 hy, Consist.Canon, fresh]
    exact List.forall_mem_nil _

theorem State.Canon.placeOn {s : State} (h : s.Canon m o) (v : Service) (x : Image) (idx : BitVec 32) (spec : Bool) (sp : Spot) :
    (s.placeOn v x idx spec sp).Canon m o := ((h.putCars _ _).letGo _).onDev fun _ hd => (hd.cleanHandles _ _).addConsist rfl

theorem Device.Canon.noteTail {d : Device} (hd : d.Canon m) (c : Ctx) (tail : BitVec 32) (head : BitVec 32) :
    (d.noteTail c tail head).Canon m := .ite (hd.setDevStat _) hd

theorem State.Canon.ring {s : State} (h : s.Canon m o) (q : BitVec 16) (c : Ctx) (tail : BitVec 32) :
    (s.ring q c tail).Canon m o := by
  unfold State.ring
  refine .ite (h.onDev fun _ hd => hd.setDevStat _) (.ite h ?_)
  split
  · exact .ite (h.onDev fun _ hd => (hd.mapSlot _ _).noteTail _ _ _) h
  · split
    · exact h.onDev fun _ hd => hd.setDevStat _
    · refine .ite ?_ h
      split
      case h_1 t written => exact (h.writeVa written).onDev fun _ hd => (hd.noteTail _ _ _).want _
      case h_2 => exact h.onDev fun _ hd => hd.setDevStat _

theorem State.Canon.over {s : State} (h : s.Canon m o) (sideBand : Bool) {f : State → State} (hf : (f s).Canon m o) :
    (s.over sideBand f).Canon m o := .ite hf h

theorem State.Canon.doorbell {s : State} (h : s.Canon m o) (v : Word) :
    (s.doorbell v).Canon m o := by
  refine .ite h ?_
  split
  · exact h
  · exact h.onDev fun _ hd => hd.setDevStat _
  · exact h.ring _ _ _

theorem State.Canon.execQueueDoorbell {s : State} (h : s.Canon m o) (v : Word) :
    Answers m o (execQueueDoorbell v s) := .next (h.over _ (h.doorbell _))

theorem State.Canon.mailbox {s : State} (h : s.Canon m o) (i : Fin 1024) (v : BitVec 32) : (s.mailbox i v).Canon m o :=
  .ite (h.storeAt _ _ _ _ _) h

theorem State.Canon.execMailboxWrite {s : State} (h : s.Canon m o) (m₁ : Fin 1024) (v : BitVec 32) :
    Answers m o (execMailboxWrite m₁ v s) := .next (h.over _ (h.mailbox _ _))

theorem Device.Canon.putBht {d : Device} (hd : d.Canon m) (h word : Nat) (v : Word) : (d.putBht h word v).Canon m :=
  hd.mapSig fun _ hx => hx.mapSpecs fun _ hp => .ite (hp.ends _ _) hp

theorem State.Canon.execBhtWrite {s : State} (h : s.Canon m o) (h₁ : Fin 4096) (word : Fin 4) (v : Word) :
    Answers m o (execBhtWrite h₁ word v s) := .onDev h fun _ hd => .ite hd (.ite (Device.Canon.setDevStat (b := 2#8) (hd.mapSig fun _ hx => hx)) (hd.putBht _ _ _))

theorem State.Canon.execBhtWriteApply {s : State} (h : s.Canon m o) (h₁ : Fin 4096) :
    Answers m o (execBhtWriteApply h₁ s) := .onDev h fun _ hd => .ite hd (Device.Canon.mapSig (hd.foldl (fun _ _ hd => hd.putBht _ _ _) _) fun _ hx => hx)

theorem Device.Canon.missSpec {d : Device} (hd : d.Canon m) (f : Speculation → Bool) :
    (d.missSpec f).Canon m := hd.mapSig fun _ hx => hx.mapSpecs fun _ hp => .ite (hp.ends _ _) hp

theorem Device.Canon.mapInto {d : Device} (hd : d.Canon m) (q : BitVec 16) (i : Nat) :
    (d.mapInto q i).Canon m := by
  unfold Device.mapInto
  dsimp only
  split
  · exact hd
  · exact hd
  · split <;> exact hd

theorem State.Canon.execSlotMap {s : State} (h : s.Canon m o) (q : BitVec 16) :
    Answers m o (execSlotMap q s) := by
  refine .onDev h fun d hd => .ite hd ?_
  split
  · refine .ite hd ?_
    split
    · exact hd.mapSlot _ _
    · exact hd
  · exact hd.mapInto _ _

theorem State.Canon.execSlotUnmap {s : State} (h : s.Canon m o) (q : BitVec 16) :
    Answers m o (execSlotUnmap q s) := by
  refine .next ?_
  split
  · exact h
  case h_2 i x _ =>
    refine .ite h (State.Canon.onDev ?_ fun d hd => ?_)
    · split
      · exact (h.writeVaD _ _).writeVaD _ _
      · exact h
    · have missed : ((d.mapSig (fun y => { y with slots := Tab.erase y.slots i })).missSpec (fun p => p.svc.q == q)).Canon m :=
        (hd.mapSigOther rfl rfl).missSpec _
      generalize (d.mapSig (fun y => { y with slots := Tab.erase y.slots i })).missSpec (fun p => p.svc.q == q) = e at missed
      refine Device.Canon.ite ?heir (Device.Canon.want ?heir _)
      case heir =>
        split
        · exact .ite (missed.mapInto _ _) missed
        · exact missed

theorem Device.Canon.meet {d : Device} (hd : d.Canon m) (v : Service) :
    (d.meet v).Canon m := by
  refine hd.mapSig fun x hx => hx.mapSpecs fun p hp => .ite hp ?_
  exact .ite hp (hp.ends _ _)

theorem State.Canon.adopt {s : State} (h : s.Canon m o) (v : Service) :
    (s.adopt v).Canon m o := by
  unfold State.adopt
  split
  · exact h
  · refine .ite h (State.Canon.onDev (h.mapCars fun c hc => ?_) fun _ hd => hd.mapSig fun _ hx => hx.mapConsists fun _ hy => .ite hy hy)
    split <;> exact hc

theorem State.Canon.consume {s : State} (h : s.Canon m o) (x : QSlot) (c : Ctx) (r : List Word) :
    (s.consume x c r).Canon m o := by
  refine State.Canon.adopt (State.Canon.onDev (h.writeVaD _ _) fun d hd => ?_) _
  exact Device.Canon.mapSig ((hd.meet _).mapSlot _ _) fun _ hx => hx

theorem State.Canon.consider {s : State} (h : s.Canon m o) (q : BitVec 16) :
    (s.consider q).Canon m o := by
  unfold State.consider
  have fail {q : BitVec 16} {f : QSlot → QSlot} {b : BitVec 8} :
      (s.mapDev (fun d => (d.mapSlot q f).setDevStat b)).Canon m o := h.onDev fun _ hd => (hd.mapSlot _ _).setDevStat _
  split
  · exact h
  · refine .ite h ?_
    dsimp only
    split
    · refine .ite fail ?_
      split
      · exact fail
      · exact .ite (h.consume _ _ _) (h.onDev fun _ hd => hd.mapSlot _ _)
    · exact fail

theorem State.Canon.execConsumeRecord {s : State} (h : s.Canon m o) (q : BitVec 16) :
    Answers m o (execConsumeRecord q s) := by
  refine .next ?_
  split
  · exact .ite h (h.consider _)
  · exact h

theorem State.Canon.execRecordReread {s : State} (h : s.Canon m o) (q : BitVec 16) :
    Answers m o (execRecordReread q s) := by
  refine .next ?_
  split
  · exact .ite (h.consider _) h
  · exact h

theorem State.Canon.execCountRead {s : State} (h : s.Canon m o) (q : BitVec 16) (seq : BitVec 32) :
    Answers m o (execCountRead q seq s) := by
  refine .next ?_
  split
  · exact h
  · refine .ite h ?_
    split <;> exact h.mapService _ _ _

theorem Signal.Canon.served {x : Signal} (hg : x.Canon m) (v : Service) :
    (x.served v).Canon m := by
  unfold Signal.served
  (repeat' split) <;> exact hg

theorem State.Canon.failService {s : State} (h : s.Canon m o) (v : Service) (cause : BitVec 8) :
    (s.failService v cause).Canon m o := (h.mapService _ _ _).dropWaiting _ _

theorem State.Canon.placeReal {s : State} (h : s.Canon m o) (v : Service) (idx : BitVec 32) :
    (s.placeReal v idx).Canon m o := by
  unfold State.placeReal
  split
  · exact h
  · refine .ite h (.ite (h.failService _ _) ?_)
    split
    · exact h
    · refine .ite h ?_
      split
      · exact h.failService _ _
      · exact ((h.placeOn _ _ _ _ _).mapService _ _ _).onDev fun _ hd => hd.mapSig fun _ hx => hx.served _

theorem State.Canon.placeSpec {s : State} (h : s.Canon m o) (p : Speculation) (idx : BitVec 32) :
    (s.placeSpec p idx).Canon m o := by
  unfold State.placeSpec
  dsimp only
  split
  · refine .ite h ?_
    split
    · exact h
    · split
      · refine (h.placeOn _ _ _ _ _).onDev fun d hd => Device.Canon.mapSig (hd.mapSpec _ _ fun _ hp => hp) fun x hx => ?_
        split
        · exact hx.served _
        · exact hx
      · exact h.doomSpec _ _
  · exact h

theorem State.Canon.execPlaceConsist {s : State} (h : s.Canon m o) (q : BitVec 16) (seq : BitVec 32) (idx : BitVec 32) :
    Answers m o (execPlaceConsist q seq idx s) := by
  refine .next ?_
  split
  · exact h.placeSpec _ _
  · split
    · exact h.placeReal _ _
    · exact h

theorem State.Canon.execConsistRelease {s : State} (h : s.Canon m o) (q : BitVec 16) (seq : BitVec 32) (idx : BitVec 32) :
    Answers m o (execConsistRelease q seq idx s) := by
  refine .next ?_
  split
  · exact h
  · refine .ite (State.Canon.onDev ?started fun _ hd => hd.mapSpec _ _ fun _ hp => hp) (State.Canon.mapService ?started _ _ _)
    case started =>
      refine State.Canon.mapConsist (h.mapCars fun c hc => ?_) _ fun _ hy => hy
      (repeat' split) <;> exact hc

theorem Car.Canon.leaveCore {c : Car} (hc : c.Canon m) :
    c.leaveCore.Canon m := hc

theorem State.Canon.leaveCores {s : State} (h : s.Canon m o) (p : Car → Bool) :
    (s.mapCars (fun c => if p c then c.leaveCore else c)).Canon m o :=
  h.mapCars fun _ hc => .ite hc.leaveCore hc

theorem State.Canon.consistEnds {s : State} (h : s.Canon m o) (x : Consist) : (s.consistEnds x).Canon m o := by
  have gone : State.Canon m o (((s.letGo x.holds).mapCars (fun c => if x.holds c then c.leaveCore else c)).mapDev (fun d =>
      (d.mapSig (fun y => { y with consists := y.consists.filter (fun z => !z.same x) })).sweepSets)) :=
    ((h.letGo _).leaveCores _).onDev fun _ hd => Device.Canon.sweepSets (hd.mapSig fun _ hx => hx.filterConsists _)
  exact .ite h (.ite (gone.onDev fun _ hd => hd.mapSpec _ _ fun _ hp => hp) (gone.mapService _ _ _))

theorem State.Canon.execCarFinish {s : State} (h : s.Canon m o) (c : CarRef) :
    Answers m o (execCarFinish c s) := by
  have finished := h.atCar c (f := fun s => if s.spent s.car then s.mapCar (fun k => { k with life := .finished }) else s)
    fun s h => .ite h h
  refine .next ?_
  split
  · exact finished.consistEnds _
  · exact finished

theorem State.Canon.writeCompletion {s : State} (h : s.Canon m o) (v : Service) :
    (s.writeCompletion v).Canon m o := by
  refine .ite h ?_
  dsimp only
  split
  · exact h.onDev fun _ hd => hd.setDevStat _
  case h_2 t first =>
    split
    · exact (h.writeVa first).onDev fun _ hd => hd.setDevStat _
    case h_2 u second => exact (h.writeVa first).writeVa second

theorem State.Canon.faultContext {s : State} (h : s.Canon m o) (v : Service) :
    (s.faultContext v).Canon m o := by
  unfold State.faultContext
  split
  · split
    · exact h.writeVaD _ _
    · exact h
  · exact h

theorem State.Canon.serviceEnds {s : State} (h : s.Canon m o) (v : Service) :
    (s.serviceEnds v).Canon m o := by
  refine .ite h (State.Canon.mapService (.ite (State.Canon.faultContext ?flushed _) ?flushed) _ _ _)
  exact h.onDev fun _ hd => (hd.flushHandles _).mapSlot _ _

theorem State.Canon.reported {s : State} (h : s.Canon m o) (q : BitVec 16) (seq : BitVec 32) :
    State.Canon m o (match s.dev.sig.services.find? (fun v => v.q == q && v.seq == seq) with
      | none => s
      | some v =>
        if !s.dev.sig.mayReport v then s
        else
          (s.writeCompletion v).mapDev (fun d =>
            let d := d.mapSig (fun x => { x with services := x.services.filter (fun u => !(u.q == q && u.seq == seq)) })
            if recMsixEn v.record then d.emit [.msix (recMsix v.record)] else d)) := by
  split
  · exact h
  · exact .ite h ((h.writeCompletion _).onDev fun _ hd => .ite (Device.Canon.emit (hd.mapSigOther rfl rfl) _) (hd.mapSigOther rfl rfl))

theorem State.Canon.execServiceComplete {s : State} (h : s.Canon m o) (q : BitVec 16) (seq : BitVec 32) :
    Answers m o (execServiceComplete q seq s) := by
  refine .next (State.Canon.reported ?_ q seq)
  split
  · exact h.serviceEnds _
  · exact h

theorem State.Canon.execPreemptRequest {s : State} (h : s.Canon m o) (q : BitVec 16) (seq : BitVec 32) (idx : BitVec 32) :
    Answers m o (execPreemptRequest q seq idx s) := by
  refine .next ?_
  split
  · exact h
  · exact .ite (.ite (h.doomSpec _ _) h) (.ite (h.requestPreempt _) h)

theorem State.Canon.parkStash {s : State} (h : s.Canon m o) :
    s.parkStash.Canon m o := State.Canon.onCar (h.foldl (fun _ _ h => h.backGranules _ _) _) fun _ hc => hc

theorem Car.Canon.saved {c : Car} (hc : c.Canon m) (x : Consist) (n : Nat) : (c.saved x n).Canon m := hc

theorem State.Canon.parkAll {s : State} (h : s.Canon m o) (cs : List Car) :
    (cs.foldl (fun s c => s.atCar c.ref State.parkStash) s).Canon m o :=
  h.foldl (fun _ _ h => h.atCar _ fun _ h => h.parkStash) cs

theorem State.Canon.save {s : State} (h : s.Canon m o) (x : Consist) :
    (s.save x).Canon m o := by
  have still : (s.mapCars (fun c => if x.holds c then { c with place := { c.place with domain := none } } else c)).endStreams.Canon m o := by
    refine State.Canon.endStreams (h.mapCars fun c hc => ?_)
    split <;> exact hc
  refine State.Canon.ite (State.Canon.dropWaiting ?saved _ _) ?saved
  case saved =>
    refine State.Canon.onDev ?_ fun _ hd => hd.sweepSets
    refine State.Canon.mapConsist ?_ x fun y _ => ?_
    · refine State.Canon.leaveCores ?_ _
      exact ((still.parkAll _).withFresh _).letGo _
    · refine List.forall_mem_map.mpr fun p hp => Car.Canon.saved ?_ _ _
      have parked := (List.mem_filter.1 (List.fst_mem_of_mem_zipIdx hp)).1
      exact State.Canon.cars (still.parkAll _) _ parked

theorem State.Canon.execConsistPark {s : State} (h : s.Canon m o) (q : BitVec 16) (seq : BitVec 32) (idx : BitVec 32) :
    Answers m o (execConsistPark q seq idx s) := by
  refine .next ?_
  split
  · exact h
  · exact .ite h (h.save _)

theorem Car.Canon.forceStop {c : Car} (hc : c.Canon m) (now : Nat) :
    (c.forceStop now).Canon m := .ite (hc.enter { cause := .preemptForced, taddr := c.pc.setWidth 64 } c.pc c.tr.lastPc now now) hc

theorem State.Canon.execForcedStop {s : State} (h : s.Canon m o) (q : BitVec 16) (seq : BitVec 32) (idx : BitVec 32) :
    Answers m o (execForcedStop q seq idx s) := by
  refine .next ?_
  split
  · exact h
  · split
    · exact h
    · have stopped {x : Consist} {n : Nat} : (s.mapCars (fun c => if x.holds c then c.forceStop n else c)).Canon m o :=
        h.mapCars fun _ hc => .ite (hc.forceStop _) hc
      refine .ite h (.ite (h.doomSpec _ _) ?_)
      dsimp only
      split
      · exact stopped.mapConsist _ fun _ hy => hy
      · exact .ite (stopped.mapConsist _ fun _ hy => hy) (.ite stopped (h.abortConsist _ _ _))

theorem Car.Canon.rewire {c : Car} (hc : c.Canon m) (old : List (BitVec 9)) (new : List (BitVec 9)) :
    (c.rewire old new).Canon m := hc

theorem State.Canon.revive {s : State} (h : s.Canon m o) (x : Consist) (p : Placement) (gone : List Nat) (olds : List (BitVec 9))
    (news : List Nat) {c : Car} (hc : c.Canon m) (core : Nat) : (s.revive x p gone olds news c core).Canon m :=
  ⟨hc.1, h.imemFor _ _, hc.2.2⟩

theorem Consist.Canon.again (y : Consist) (p : Placement) (refs : List CarRef) : (y.again p refs).Canon m := List.forall_mem_nil _

theorem State.Canon.restore {s : State} (h : s.Canon m o) (x : Consist) (img : Image) {cars : List Car}
    (hcs : ∀ c ∈ cars, c.Canon m) (sp : Spot) : (s.restore x img cars sp).Canon m o := by
  refine State.Canon.onDev (State.Canon.mapService (State.Canon.withFresh (State.Canon.letGo ?_ _) _) _ _ _) fun d hd =>
    Device.Canon.mapConsists (hd.cleanHandles _ _) fun y hy => .ite (.again y _ _) hy
  refine List.foldlRecOn (cars.zip sp.cores) _ (motive := State.Canon m o) h fun t ht k hk => ht.putCar (h.revive _ _ _ _ _ (hcs _ ?_) _)
  exact (List.of_mem_zip hk).1

theorem State.Canon.execConsistResume {s : State} (h : s.Canon m o) (q : BitVec 16) (seq : BitVec 32) (idx : BitVec 32) :
    Answers m o (execConsistResume q seq idx s) := by
  refine .next ?_
  split
  · exact h
  case h_2 x found =>
    split
    case h_1 cars sp saved _ =>
      refine .ite h ?_
      split
      · refine h.restore _ _ (fun c hc => h.dev.2.2.2 x (List.mem_of_find?_eq_some found) c ?_) _
        rw [saved]
        exact hc
      · exact h.failService _ _
      · exact h
    case h_2 => exact h


end Sys2Proof.Machine

namespace Sys2Proof.Machine
variable {m : Prop} {o : Option (Car × Device)}

theorem Device.Canon.mapSpecRegs {d : Device} (hd : d.Canon m) (f : SpecRegs → SpecRegs) : (d.mapSpecRegs f).Canon m :=
  hd.mapSigOther rfl rfl

/-- A speculation without shadow pages comes to the others. -/
theorem Signal.Canon.addSpec {x : Signal} {p : Speculation} (hx : x.Canon m) (fresh : p.shadow = Mem.empty) :
    Signal.Canon m { x with specs := x.specs ++ [p] } := by
  refine ⟨fun y hy => ?_, hx.2⟩
  rcases List.mem_append.1 hy with hy | hy
  · exact hx.1 y hy
  · rw [List.mem_singleton.1 hy, Speculation.Canon, fresh]
    exact .empty

theorem Signal.Canon.filterSpecs {x : Signal} (hx : x.Canon m) (p : Speculation → Bool) :
    Signal.Canon m { x with specs := x.specs.filter p } :=
  ⟨fun y hy => hx.1 y (List.mem_filter.1 hy).1, hx.2⟩

theorem State.Canon.execSpeculationStart {s : State} (h : s.Canon m o) (q : BitVec 16) :
    Answers m o (execSpeculationStart q s) := by
  refine .next ?_
  split
  · exact h
  · split
    · refine .ite h (h.onDev fun d hd => ?_)
      exact ((hd.mapSig fun _ hx => hx.addSpec rfl).mapSpecRegs _).mapSlot _ _
    · exact h

theorem State.Canon.execWatchDoom {s : State} (h : s.Canon m o) (pa : Nat) :
    Answers m o (execWatchDoom pa s) := .onDev h fun _ hd => hd.watched _ _ _

theorem State.Canon.discard {s : State} (h : s.Canon m o) (p : Speculation) (k : SpecEnd) : (s.discard p k).Canon m o := by
  refine State.Canon.onDev (((h.letGo _).abortCars _).endStreams) fun d hd => ?_
  exact Device.Canon.sweepSets (Device.Canon.mapSpecRegs (hd.mapSig fun _ hx => (hx.filterConsists _).filterSpecs _) _)

theorem State.Canon.execSpeculationDiscard {s : State} (h : s.Canon m o) (q : BitVec 16) (seq : BitVec 32) :
    Answers m o (execSpeculationDiscard q seq s) := by
  refine .next ?_
  split
  · exact h
  · split
    · exact h.discard _ _
    · exact h

theorem State.Canon.execSpecYield {s : State} (h : s.Canon m o) (q : BitVec 16) (seq : BitVec 32) :
    Answers m o (execSpecYield q seq s) := by
  refine .next ?_
  split
  · exact h
  · exact .ite h (h.onDev fun _ hd => hd.mapSpec _ _ fun _ hp => hp.ends _ _)

theorem Mem.Canon.putGranule {x y : Mem} (hx : x.Canon m) (hy : y.Canon m) (g : Nat) :
    (x.putGranule g { cells := y.cells.filter (fun c => decide (g * 0x10000 ≤ c.1 ∧ c.1 < (g + 1) * 0x10000))
                      poison := y.poison.filter (fun a => decide (g * 0x10000 ≤ a ∧ a < (g + 1) * 0x10000)) }).Canon m := by
  intro p
  refine Mem.wf_putGranule (hx p) (Mem.wf_filter (hy p) _ _) (fun c hc => ?_) fun a ha => ?_
  · simpa using (List.mem_filter.1 hc).2
  · simpa using (List.mem_filter.1 ha).2

theorem State.Canon.commitGranule {s : State} {p : Speculation} (h : s.Canon m o) (hp : p.Canon m) (g : Nat) :
    (s.commitGranule p g).Canon m o := by
  refine State.Canon.onDev (h.snoop _ _ _ _) fun d hd => Device.Canon.watched (.ite ?_ ?_) _ _ _
  · exact hd.withMem (Mem.Canon.putGranule hd.1 hp g)
  · exact Device.Canon.foldl (hd.hbmWrite _ _) (fun _ _ hd => hd.hbmSpoil _) _

theorem State.Canon.execSpeculationCommit {s : State} (h : s.Canon m o) (q : BitVec 16) (seq : BitVec 32) :
    Answers m o (execSpeculationCommit q seq s) := by
  refine .next ?_
  split
  case h_1 p v found _ =>
    have hp : p.Canon m := h.dev.2.2.1 p (List.mem_of_find?_eq_some found)
    refine .ite h (State.Canon.mapService (State.Canon.onDev ?_ fun d hd => Device.Canon.mapSpecRegs (hd.mapSig fun x hx => ?_) _) _ _ _)
    · exact h.foldl (fun _ _ h => h.commitGranule hp _) _
    · exact hx.filterSpecs _
  case h_2 => exact h

theorem State.Canon.execSidingCopyBack {s : State} (h : s.Canon m o) (q : BitVec 16) (seq : BitVec 32) :
    Answers m o (execSidingCopyBack q seq s) := by
  refine .onDev h fun d hd => ?_
  split
  · exact hd
  · exact Device.Canon.mapSpecRegs (hd.mapSigOther rfl rfl) _

theorem State.Canon.execSpecCtlWrite {s : State} (h : s.Canon m o) (v : Byte) :
    Answers m o (execSpecCtlWrite v s) := .onDev h fun _ hd => .ite ((hd.mapSpecRegs _).missSpec _) (hd.mapSpecRegs _)

theorem State.Canon.execSpecClr {s : State} (h : s.Canon m o) (v : Bool) :
    Answers m o (execSpecClr v s) := .next (.ite (h.onDev fun _ hd => hd.mapSpecRegs _) h)

theorem Device.Canon.seeDbg {d : Device} (hd : d.Canon m) (q : BitVec 16) :
    (d.seeDbg q).Canon m := by
  unfold Device.seeDbg
  split
  · exact .ite (hd.missSpec _) hd
  · exact hd

theorem State.Canon.execDbgAttach {s : State} (h : s.Canon m o) (q : BitVec 16) :
    Answers m o (execDbgAttach q s) := by
  refine .next ?_
  split
  · exact (h.writeVaD _ _).onDev fun _ hd => hd.seeDbg _
  · exact h

theorem Device.Canon.mapHouse {d : Device} (hd : d.Canon m) (f : House → House) : (d.mapHouse f).Canon m := hd

theorem Device.Canon.mapFab {d : Device} (hd : d.Canon m) (f : FabRegs → FabRegs) : (d.mapFab f).Canon m := hd

theorem Device.Canon.storeReg {d : Device} (hd : d.Canon m) (host : Bool) (off : Nat) (v : Word) :
    (d.storeReg host off v).Canon m := by
  unfold Device.storeReg
  refine .ite (hd.mapHost _) (.ite (hd.mapSpecRegs _) (.ite (hd.mapFab _) ?_))
  (repeat' split) <;> exact hd

theorem State.Canon.execDieCacheEvict {s : State} (h : s.Canon m o) (die : Nat) (line : Nat) :
    Answers m o (execDieCacheEvict die line s) := .onDev h fun _ hd => (hd.flushLine die line).dropLine die line

theorem State.Canon.execRegionToPrivate {s : State} (h : s.Canon m o) (r : Nat) (die : Nat) :
    Answers m o (execRegionToPrivate r die s) := .next (.ite (h.onDev fun _ hd => hd) h)

theorem State.Canon.execScrub {s : State} (h : s.Canon m o)  :
    Answers m o (execScrub s) := .onDev h fun _ hd => hd.meetErrors _ _

theorem State.Canon.strike {s : State} (h : s.Canon m o) (x : Strike) :
    (s.strike x).Canon m o := by
  unfold State.strike
  have count {u : State} (h : u.Canon m o) (k : Nat) :
      (u.mapDev (fun d => d.mapHouse (fun x => { x with errUe := bumpField x.errUe k }))).Canon m o := h
  cases x with
  | dieCache => exact count h 1
  | directory => exact count (h.onDev fun _ hd => hd.withMem (hd.1.setPoison _ _)) 2
  | replay => exact count (h.onDev fun _ hd => hd.withRemote (hd.2.1.setPoison _ _)) 2
  | siding =>
    refine count (h.onDev fun d hd => hd.mapSpec _ _ fun p hp => ?_) 2
    exact Mem.Canon.setPoison hp _ _
  | entry => exact count h 2
  | parity => exact h.atCar _ fun _ h => h

theorem State.Canon.execPowerSample {s : State} (h : s.Canon m o) (watts : Nat) :
    Answers m o (execPowerSample watts s) := .next (State.Canon.tick (h.onDev fun _ hd => hd.mapHouse _))

theorem State.Canon.execErrClear {s : State} (h : s.Canon m o) (v : Bool) :
    Answers m o (execErrClear v s) := .next (.ite (h.onDev fun _ hd => hd.mapHouse _) h)

theorem State.Canon.execHostLinkDown {s : State} (h : s.Canon m o)  :
    Answers m o (execHostLinkDown s) := .onDev h fun _ hd => hd.mapHouse _

theorem Device.Canon.startFrom {d : Device} (hd : d.Canon m) (house : House) : (d.startFrom house).Canon m :=
  ⟨hd.1, hd.2.1, List.forall_mem_nil _, List.forall_mem_nil _⟩

theorem Device.Canon.broken {d : Device} (hd : d.Canon m) (lines : List Ix16) (circuits : List Ix16) (ports : List (Fin 128)) :
    (d.broken lines circuits ports).Canon m := by
  refine Device.Canon.foldl ?_ (fun _ _ hd => hd.mapPort _ _) _
  exact Device.Canon.foldl (hd.foldl (fun _ _ hd => hd.mapLine _ _) _) (fun _ _ hd => hd.mapLine _ _) _

theorem State.Canon.start {s : State} (h : s.Canon m o) (powerOn : Bool) :
    (s.start powerOn).Canon m o := by
  refine ⟨⟨.empty, .empty, List.forall_mem_nil _⟩, List.forall_mem_nil _, ?_, .inl rfl, h.begun⟩
  refine Device.Canon.ite (Device.Canon.emit ?begun _) ?begun
  case begun =>
    refine .ite (Device.Canon.withMem (Device.Canon.broken (h.dev.startFrom _) _ _ _) ?_) (Device.Canon.broken (h.dev.startFrom _) _ _ _)
    exact fun p => Mem.wf_filter (h.dev.1 p) _ _

theorem State.Canon.execStartWarm {s : State} (h : s.Canon m o)  :
    Answers m o (execStartWarm s) := .next (.ite (h.start _) h)

theorem Device.Canon.forget {d : Device} (hd : d.Canon m) : d.forget.Canon m := hd

theorem State.Canon.execStartFull {s : State} (h : s.Canon m o)  :
    Answers m o (execStartFull s) := .next (.ite (State.Canon.start (h.onDev fun _ hd => hd.forget) _) h)

theorem Device.Canon.mapFw {d : Device} (hd : d.Canon m) (f : Firmware → Firmware) : (d.mapFw f).Canon m := hd

theorem State.Canon.pldm {s : State} (h : s.Canon m o) (ok : Bool) (f : Firmware → Firmware) : (s.pldm ok f).Canon m o :=
  h.onDev fun _ hd => .ite ((hd.mapFw _).emit _) (hd.emit _)

theorem State.Canon.execRequestUpdate {s : State} (h : s.Canon m o) (overI3c : Bool) :
    Answers m o (execRequestUpdate overI3c s) := .next (h.over _ (h.onDev fun _ hd => .ite ((hd.mapFw _).emit _) (hd.emit _)))

theorem State.Canon.execPassComponentTable {s : State} (h : s.Canon m o) (overI3c : Bool) :
    Answers m o (execPassComponentTable overI3c s) := .next (h.over _ (h.pldm _ _))

theorem State.Canon.execUpdateComponent {s : State} (h : s.Canon m o) (overI3c : Bool) :
    Answers m o (execUpdateComponent overI3c s) := .next (h.over _ (h.pldm _ _))

theorem State.Canon.execRequestFirmwareData {s : State} (h : s.Canon m o) (overI3c : Bool) (chunk : List Byte) :
    Answers m o (execRequestFirmwareData overI3c chunk s) := .next (h.over _ (h.pldm _ _))

theorem State.Canon.execVerifyComplete {s : State} (h : s.Canon m o) (overI3c : Bool) (signatureGood : Bool) (version : BitVec 16) :
    Answers m o (execVerifyComplete overI3c signatureGood version s) := .next (h.over _ (.ite (h.onDev fun _ hd => (hd.mapFw _).emit _) (h.pldm _ _)))

theorem State.Canon.execApplyComplete {s : State} (h : s.Canon m o) (overI3c : Bool) :
    Answers m o (execApplyComplete overI3c s) := .next (h.over _ (h.pldm _ _))

theorem State.Canon.execActivateFirmware {s : State} (h : s.Canon m o) (overI3c : Bool) :
    Answers m o (execActivateFirmware overI3c s) := .next (h.over _ (.ite ((h.pldm _ _).onDev fun _ hd => hd.missSpec _) (h.pldm _ _)))

theorem State.Canon.execCancelUpdate {s : State} (h : s.Canon m o) (overI3c : Bool) :
    Answers m o (execCancelUpdate overI3c s) := .next (h.over _ (h.pldm _ _))

theorem State.Canon.execFirmwareRestart {s : State} (h : s.Canon m o)  :
    Answers m o (execFirmwareRestart s) := .next (.ite (h.onDev fun _ hd => hd.mapHouse _) h)

theorem State.Canon.spdm {s : State} (h : s.Canon m o) (need : Nat) (code : BitVec 8) (x : List Word) (next : Nat) :
    (s.spdm need code x next).Canon m o := h.onDev fun _ hd => .ite (hd.emit _) ((hd.mapHouse _).emit _)

theorem State.Canon.execGetVersion {s : State} (h : s.Canon m o) (overI3c : Bool) :
    Answers m o (execGetVersion overI3c s) := .next (h.over _ (h.spdm _ _ _ _))

theorem State.Canon.execGetCapabilities {s : State} (h : s.Canon m o) (overI3c : Bool) :
    Answers m o (execGetCapabilities overI3c s) := .next (h.over _ (h.spdm _ _ _ _))

theorem State.Canon.execNegotiateAlgorithms {s : State} (h : s.Canon m o) (overI3c : Bool) :
    Answers m o (execNegotiateAlgorithms overI3c s) := .next (h.over _ (h.spdm _ _ _ _))

theorem State.Canon.execGetDigests {s : State} (h : s.Canon m o) (overI3c : Bool) :
    Answers m o (execGetDigests overI3c s) := .next (h.over _ (h.spdm _ _ _ _))

theorem State.Canon.execGetCertificate {s : State} (h : s.Canon m o) (overI3c : Bool) (slot : Nat) :
    Answers m o (execGetCertificate overI3c slot s) := .next (h.over _ (.ite (h.spdm _ _ _ _) (h.onDev fun _ hd => hd.emit _)))

theorem State.Canon.execChallenge {s : State} (h : s.Canon m o) (overI3c : Bool) (nonce : List Byte) :
    Answers m o (execChallenge overI3c nonce s) := .next (h.over _ (h.spdm _ _ _ _))

theorem State.Canon.execGetMeasurements {s : State} (h : s.Canon m o) (overI3c : Bool) (index : Nat) :
    Answers m o (execGetMeasurements overI3c index s) := by
  refine .next (h.over _ (.ite (h.spdm _ _ _ _) (.ite (h.spdm _ _ _ _) (.ite (h.spdm _ _ _ _) ?_))))
  exact h.onDev fun _ hd => hd.emit _

theorem State.Canon.execMgmtRead {s : State} (h : s.Canon m o) (pkg : BitVec 10) (off : Nat) :
    Answers m o (execMgmtRead pkg off s) := .next (.ite h (h.over _ (h.onDev fun _ hd => hd.emit _)))

theorem Answers.ite {p : Prop} {_ : Decidable p} {r t : Result} (hr : Answers m o r) (ht : Answers m o t) :
    Answers m o (if p then r else t) :=
  iteInduction (fun _ => hr) fun _ => ht

theorem State.Canon.storeReg' {s : State} (h : s.Canon m o) (host : Bool) (off : Nat) (v : Word) :
    (s.mapDev (fun d => d.storeReg host off v)).Canon m o :=
  h.onDev fun _ hd => hd.storeReg _ _ _

theorem State.Canon.actLow {s : State} (h : s.Canon m o) (off : Nat) (v : Word) : Answers m o (s.actLow off v) := by
  unfold State.actLow
  refine .ite (.next (h.doorbell _)) (.ite (.next (h.mailbox _ _)) (.ite (h.execBhtWrite _ _ _) (.ite (h.execSpecCtlWrite _)
    (.ite (h.execSpecClr _) (.ite (h.execInvalidate _) (.ite (h.execMigrate _) (.ite ?_ (.next (h.storeReg' _ _ _)))))))))
  exact State.Canon.execGroupCommit (h.storeReg' _ _ _) _

theorem State.Canon.actDebug {s : State} (h : s.Canon m o) (off : Nat) (v : Word) : Answers m o (s.actDebug off v) := by
  have stored := h.storeReg' true off v
  unfold State.actDebug
  refine .ite (.next stored) ?_
  obtain ⟨t, halted, ht⟩ := stored.execDbgHalt ⟨(off - 0x100000) / 0x100 % 336, by omega⟩ (v.getLsbD 0)
  rw [halted]
  exact .ite (ht.execDbgStep _) (.next ht)

theorem State.Canon.actLink {s : State} (h : s.Canon m o) (off : Nat) (v : Word) : Answers m o (s.actLink off v) := by
  have stored := h.storeReg' true off v
  unfold State.actLink
  refine .ite (.next stored) ?_
  generalize (⟨(off - 0x300000) / 0x1000 % 128, by omega⟩ : Fin 128) = p
  obtain ⟨t, cleared, ht⟩ := Answers.ite (p := v.getLsbD 63 = true) (stored.execLnkClr p) (.next stored)
  obtain ⟨u, trained, hu⟩ := Answers.ite (p := v.getLsbD 62 = true) (ht.execLnkRetrain p) (.next ht)
  rw [cleared]
  dsimp only
  rw [trained]
  exact .ite (hu.execLnkForce _ _) (.next hu)

theorem State.Canon.actHigh {s : State} (h : s.Canon m o) (host : Bool) (off : Nat) (v : Word) : Answers m o (s.actHigh host off v) := by
  have stored := h.storeReg' host off v
  unfold State.actHigh
  refine .ite (h.actDebug _ _) (.ite (h.actLink _ _) (.ite ?_ (.ite (h.execErrClear _) (.ite (.next (stored.markLaser _)) (.next stored)))))
  exact .ite h.execStartFull (.ite h.execStartWarm (.ite (.next (h.onDev fun _ hd => hd.forget)) (.next h)))

theorem State.Canon.execRegisterWrite {s : State} (h : s.Canon m o) (host : Bool) (off : Nat) (v : Word) :
    Answers m o (execRegisterWrite host off v s) := .ite (.next h) (.ite (.next (h.onDev fun _ hd => hd.mapHouse _)) (.ite (h.actLow _ _) (h.actHigh _ _ _)))


end Sys2Proof.Machine

namespace Sys2Proof.Machine
variable {m : Prop} {o : Option (Car × Device)}

/-- The effect of a slot keeps what is kept. -/
def SlotOp.Keeps (m : Prop) (o : Option (Car × Device)) (p : SlotOp) : Prop := ∀ s, s.Canon m o → (p.eff s).Canon m o

/-! Slots on scalar registers and memory. -/

theorem State.compute_keeps {s : State} {te : Bool} {d : SReg} {srcs : List SReg} {lat : Nat} {x : Word} :
    (s.compute te d srcs lat x).Keeps m o := fun _ h => .ite (h.wS _ _) (h.produceS _ _ _)

theorem State.divide_keeps {s : State} {te : Bool} {d a b : SReg} {x : Word} : (s.divide te d a b x).Keeps m o :=
  fun _ h => (h.produceS _ _ _).onCar fun _ hc => hc

theorem State.shiftImm_keeps {s : State} {te : Bool} {d a : SReg} {imm x : Word} : (s.shiftImm te d a imm x).Keeps m o :=
  fun _ h => h.wS _ _

theorem State.load_keeps {s : State} {te : Bool} {d a : SReg} {off : BitVec 36} {size : Nat} {sgn : Bool} :
    (s.load te d a off size sgn).Keeps m o := fun _ h => h.loadNow _ _ _ _

theorem State.store_keeps {s : State} {te : Bool} {v a : SReg} {off : BitVec 36} {size : Nat} :
    (s.store te v a off size).Keeps m o := fun _ h => (h.watch _ _ _ _).put _ _ _ _

theorem State.atomic_keeps {s : State} {te : Bool} {f : AtomicOp} {d a : SReg} {b : Word} {srcs : List SReg} {ord : BitVec 2}
    {ok : Bool} : (s.atomic te f d a b srcs ord ok).Keeps m o := fun _ h => h.atomicNow _ _ _ _ _ _

theorem slotPfs_keeps {te : Bool} {a : SReg} {off : BitVec 36} {s : State} : (slotPfs te a off s).Keeps m o := by
  intro s h
  dsimp only [slotPfs]
  split <;> exact h

theorem State.branch_keeps {s : State} {te : Bool} {srcs : List SReg} {off : BitVec 42} {c : Bool} :
    (s.branch te srcs off c id).Keeps m o := fun _ h => .ite (h.onCar fun _ hc => hc.jump _) h

theorem slotCall_keeps {te : Bool} {off : BitVec 42} {s : State} : (slotCall te off s).Keeps m o :=
  fun _ h => (h.wS _ _).onCar fun _ hc => hc.jump _

theorem slotJr_keeps {te : Bool} {a : SReg} {s : State} : (slotJr te a s).Keeps m o := fun _ h => h.onCar fun _ hc => hc.jump _

theorem slotTrap_keeps {te : Bool} {code : BitVec 14} {s : State} : (slotTrap te code s).Keeps m o :=
  fun _ h => h.closeBundle.takeTrap _ _ _ _

theorem slotHalt_keeps {te : Bool} {s : State} : (slotHalt te s).Keeps m o := fun _ h =>
  .ite (.ite h.closeBundle.doom (State.Canon.abortMine (h.closeBundle.onCar fun _ hc => hc.halt) _))
    (State.Canon.endStreams (h.onCar fun _ hc => hc.halt))

theorem State.drain_keeps {s : State} {te writes : Bool} : (s.drain te writes).Keeps m o := fun _ h => .ite h h

theorem slotWadr_keeps {te : Bool} {d a b : SReg} {s : State} : (slotWadr te d a b s).Keeps m o := by
  intro u h
  have watched := h.watch (s.rS a) 8 true false
  refine .ite (.ite ?_ ?_) (watched.onCar fun _ hc => hc.markEmptyS _) <;>
  · exact watched.onCar fun _ hc => hc.startS _ _ _ _ _ _ _ _

/-! Slots on handles, control registers and the image of the handler. -/

theorem slotXlt_keeps {te : Bool} {h : Fin 64} {a : SReg} {md : BitVec 2} {s : State} : (slotXlt te h a md s).Keeps m o := by
  intro s h
  dsimp only [slotXlt]
  split <;> exact h

theorem slotHrd_keeps {te : Bool} {d : SReg} {h : Fin 64} {s : State} : (slotHrd te d h s).Keeps m o := fun _ h => h.wS _ _

theorem slotSrd_keeps {te : Bool} {d : SReg} {idx : BitVec 14} {s : State} : (slotSrd te d idx s).Keeps m o := fun _ h => h.wS _ _

theorem slotSwr_keeps {te : Bool} {v : SReg} {idx : BitVec 14} {s : State} : (slotSwr te v idx s).Keeps m o :=
  fun _ h => h.onCar fun _ hc => hc.writeCtl _ _

theorem slotTsr_keeps {te : Bool} {d : SReg} {idx : BitVec 14} {s : State} : (slotTsr te d idx s).Keeps m o := fun _ h => h.wS _ _

theorem slotSnapst_keeps {te : Bool} {a : SReg} {s : State} : (slotSnapst te a s).Keeps m o :=
  fun _ h => ((h.watch _ _ _ _).put _ _ _ _).onDev fun _ hd => hd

theorem slotSnapld_keeps {te : Bool} {a : SReg} {s : State} : (slotSnapld te a s).Keeps m o :=
  fun _ h => State.Canon.tick (((h.watch _ _ _ _).afterFetch _ _).onCar fun _ hc => hc)

theorem slotRft_keeps {te : Bool} {s : State} : (slotRft te s).Keeps m o := fun _ h => h.closeBundle.onCar fun _ hc => hc.leave _ _

/-! Slots of the vector units. -/

theorem State.vslot_keeps {s : State} {te : Bool} {k : KLow} {srcs dsts : List Opnd} {ok : Bool} {busy : Nat} {f : State → State}
    (hf : ∀ s, s.Canon m o → (f s).Canon m o) : (s.vslot te k srcs dsts ok busy f).Keeps m o := fun s h => (hf s h).takeVec _

theorem State.vmerge_keeps {s : State} {te : Bool} {d : VReg} {k : KLow} {lat : Nat} {srcs : List Opnd} {ok : Bool}
    {rs : List (Nat × Fl)} : (s.vmerge te d k lat srcs ok rs).Keeps m o :=
  vslot_keeps fun _ h => (h.writeV _ _ _ _).setFlags _

theorem State.vwhole_keeps {s : State} {te : Bool} {d : VReg} {k : KLow} {lat : Nat} {srcs : List Opnd} {ok : Bool}
    {x : VWord} {fl : Fl} : (s.vwhole te d k lat srcs ok x fl).Keeps m o :=
  vslot_keeps fun _ h => (h.writeV _ _ _ _).setFlags _

theorem State.vmask_keeps {s : State} {te : Bool} {d : KReg} {k : KLow} {whole : Bool} {srcs : List Opnd} {busy : Nat}
    {bs : List Bool} {fl : Fl} : (s.vmask te d k whole srcs busy bs fl).Keeps m o :=
  vslot_keeps fun _ h => (h.writeK _ _ _ _).setFlags _

theorem State.vconvert_keeps {s : State} {te : Bool} {d a : VReg} {k : KLow} {t u : ETy} {ok : Bool} :
    (s.vconvert te d a k t u ok).Keeps m o := vslot_keeps fun _ h => (h.writeV _ _ _ _).setFlags _

theorem slotVrsc_keeps {te : Bool} {d a b : VReg} {k : KLow} {s : State} : (slotVrsc te d a b k s).Keeps m o :=
  State.vslot_keeps fun _ h => .ite ((h.writeV _ _ _ _).setFlags _) (((h.writeV _ _ _ _).setFlags _).produceK _ _ _)

theorem slotVmrg_keeps {te : Bool} {d a b : VReg} {k : KLow} {s : State} : (slotVmrg te d a b k s).Keeps m o :=
  State.vslot_keeps fun _ h => h.writeV _ _ _ _

theorem slotVext_keeps {te : Bool} {d : SReg} {a : VReg} {idx : BitVec 34} {s : State} : (slotVext te d a idx s).Keeps m o :=
  State.vslot_keeps fun _ h => h.produceS _ _ _

theorem slotVins_keeps {te : Bool} {d : VReg} {a : SReg} {idx : BitVec 34} {s : State} : (slotVins te d a idx s).Keeps m o :=
  State.vslot_keeps fun _ h => h.writeV _ _ _ _

theorem slotVld_keeps {te : Bool} {d : VReg} {a : SReg} {off : BitVec 34} {k : KLow} {s : State} :
    (slotVld te d a off k s).Keeps m o := by
  intro s h
  refine State.Canon.takeVec (State.Canon.landV ?_ _ _ _ _ _ _ _) _
  exact State.Canon.foldl (h.watchSpans _ _ _ _) (fun _ _ h => h.afterFetch _ _) _

theorem slotVst_keeps {te : Bool} {d : VReg} {a : SReg} {off : BitVec 34} {k : KLow} {s : State} :
    (slotVst te d a off k s).Keeps m o := fun _ h => ((h.watchSpans _ _ _ _).putRuns _ _ _).takeVec _

theorem slotVldk_keeps {te : Bool} {d : KReg} {a : SReg} {off : BitVec 34} {s : State} : (slotVldk te d a off s).Keeps m o :=
  fun _ h => (((h.watch _ _ _ _).afterFetch _ _).landK _ _ _ _ _ _).takeVec _

theorem slotVstk_keeps {te : Bool} {d : KReg} {a : SReg} {off : BitVec 34} {s : State} : (slotVstk te d a off s).Keeps m o :=
  fun _ h => ((h.watch _ _ _ _).putRuns _ _ _).takeVec _

theorem slotVgth_keeps {te : Bool} {d : VReg} {a : SReg} {b : VReg} {k : KLow} {s : State} : (slotVgth te d a b k s).Keeps m o := by
  intro s h
  refine State.Canon.takeVec (State.Canon.landV ?_ _ _ _ _ _ _ _) _
  exact h.foldl (fun _ _ h => (h.watch _ _ _ _).afterFetch _ _) _

theorem slotVsct_keeps {te : Bool} {d : VReg} {a : SReg} {b : VReg} {k : KLow} {s : State} : (slotVsct te d a b k s).Keeps m o :=
  fun _ h => State.Canon.takeVec (h.foldl (fun _ _ h => (h.watch _ _ _ _).put _ _ _ _) _) _

/-! Slots of the optical array. -/

theorem State.mslot_keeps {s : State} {user : Bool} {p : Plan} {f : State → State} (hf : ∀ s, s.Canon m o → (f s).Canon m o) :
    (s.mslot user p f).Keeps m o := by
  unfold State.mslot
  split
  · exact fun _ h => h
  · exact fun s h => (hf s h).onCar fun _ hc => hc

theorem slotMtune_keeps {te : Bool} {l : Ix16} {s : State} : (slotMtune te l s).Keeps m o := State.mslot_keeps fun _ h => .ite h h

theorem slotMrep_keeps {te : Bool} {d : SReg} {s : State} : (slotMrep te d s).Keeps m o := by
  refine State.mslot_keeps fun s h => ?_
  split
  · exact (h.produceS _ _ _).onCar fun _ hc => hc
  · exact h.produceS _ _ _

/-! Slots of the copy units. -/

theorem slotCcpy_keeps {te : Bool} {ws wd : Ix16} {f : FlagIx} {acq rel : Bool} {scope : BitVec 2} {lossy : Bool} {s : State} :
    (slotCcpy te ws wd f acq rel scope lossy s).Keeps m o := fun _ h => h.startCopy _ _ _ _ _ _ _

theorem slotCres_keeps {te : Bool} {n : BitVec 6} {s : State} : (slotCres te n s).Keeps m o := by
  intro s h
  dsimp only [slotCres]
  split
  case h_1 k found =>
    split
    · have hk : k.Canon m := h.src.copyOf found
      refine State.Canon.resumeLossy (h.onCar fun _ hc => hc.setCopy ?_) _ _
      exact hk
    · exact h
  case h_2 => exact h

theorem slotCabt_keeps {te : Bool} {n : BitVec 6} {s : State} : (slotCabt te n s).Keeps m o := by
  intro s h
  dsimp only [slotCabt]
  split
  · exact h
  · split
    case h_5 => exact h
    all_goals exact h.cutCopy _ _

theorem slotCpld_keeps {te : Bool} {v : VReg} {part : Fin 16} {s : State} : (slotCpld te v part s).Keeps m o := by
  intro s h
  dsimp only [slotCpld]
  split
  · exact h.onDev fun _ hd => hd.driveBus _ _ _ _ _
  · exact h

theorem slotCplt_keeps {te : Bool} {v : VReg} {part : Fin 16} {s : State} : (slotCplt te v part s).Keeps m o :=
  fun _ h => h.writeV _ _ _ _

theorem slotCls_keeps {te : Bool} {l ws : Ix16} {b : SReg} {s : State} : (slotCls te l ws b s).Keeps m o := by
  intro s h
  refine .ite h ?_
  split
  · exact h
  · exact .ite (h.lateBeats _ _ _ _ _ _) ((h.lateBeats _ _ _ _ _ _).startStream _ _ _)

theorem slotClsf_keeps {te : Bool} {l : Ix16} {a b : SReg} {s : State} : (slotClsf te l a b s).Keeps m o := by
  intro s h
  dsimp only [slotClsf]
  split
  · exact h
  · exact .ite (h.lateBeats _ _ _ _ _ _) ((h.lateBeats _ _ _ _ _ _).startStream _ _ _)

theorem State.range_keeps {s : State} {te : Bool} {kind : RangeKind} {a b : SReg} {f : FlagIx} : (s.range te kind a b f).Keeps m o :=
  fun _ h => h.startRange _ _ _ _

theorem State.coll_keeps {s : State} {te : Bool} {op : EngineOp} {ws wd : Ix16} {f : FlagIx} {acq rel : Bool} {scope : BitVec 2}
    {lossy : Bool} {cause : Option Trap} : (s.coll te op ws wd f acq rel scope lossy cause).Keeps m o :=
  fun _ h => h.startColl _ _ _ _ _ _ _ _

theorem slotCunm_keeps {te : Bool} {a : SReg} {f : FlagIx} {s : State} : (slotCunm te a f s).Keeps m o := by
  intro s h
  dsimp only [slotCunm]
  split
  · split
    · exact h.unmap _ _
    · exact h
  · exact h

/-! Y slots. -/

theorem onCar_keeps {p : Plan} {f : Car → Car} (hf : ∀ c, c.Canon m → (f c).Canon m) :
    (SlotOp.mk p (fun s => s.mapCar f)).Keeps m o := fun _ h => h.onCar hf

theorem id_keeps {p : Plan} : (SlotOp.mk p id).Keeps m o := fun _ h => h

theorem slotMgain_keeps {te ap : Bool} {g : BitVec 5} {s : State} : (slotMgain te ap g s).Keeps m o :=
  State.mslot_keeps fun _ h => h.onCar fun _ hc => hc

theorem slotMsplit_keeps {te en : Bool} {mask : BitVec 16} {s : State} : (slotMsplit te en mask s).Keeps m o :=
  State.mslot_keeps fun _ h => h.onCar fun _ hc => hc

theorem slotMrd_keeps {te : Bool} {d : VReg} {part kind : BitVec 2} {s : State} : (slotMrd te d part kind s).Keeps m o :=
  State.mslot_keeps fun _ h => (h.writeV _ _ _ _).setFlags _

theorem slotYldw_keeps {te : Bool} {w : Ix16} {a : SReg} {s : State} : (slotYldw te w a s).Keeps m o :=
  fun _ h => (h.afterFetch _ _).onCar fun _ hc => hc.later _

theorem slotYstw_keeps {te : Bool} {w : Ix16} {a : SReg} {s : State} : (slotYstw te w a s).Keeps m o := fun _ h => h.put _ _ _ _

theorem slotYwait_keeps {te : Bool} {f : FlagIx} {n : BitVec 16} {s : State} : (slotYwait te f n s).Keeps m o := fun _ h => .ite h h

theorem slotYbar_keeps {te : Bool} {b : Fin 8} {s : State} : (slotYbar te b s).Keeps m o :=
  fun _ h => (h.release _).onCar fun _ hc => hc

theorem slotYpri_keeps {te : Bool} {k : BitVec 2} {s : State} : (slotYpri te k s).Keeps m o := by
  intro s h
  dsimp only [slotYpri]
  split
  · exact h
  · refine State.Canon.mapCars (h.mapConsist _ fun _ hy => hy) fun c hc => ?_
    split <;> exact hc

theorem slotYpark_keeps {te : Bool} {s : State} : (slotYpark te s).Keeps m o := fun _ h => .ite h h

/-- What is kept by a slot, and true where there is none. -/
def SlotOp.KeepsAny (m : Prop) (o : Option (Car × Device)) : Option SlotOp → Prop
  | none => True
  | some p => p.Keeps m o

theorem slotOf_keepsAny (i : Instr) (s : State) : SlotOp.KeepsAny m o (slotOf i s) := by
  cases i
  case nop | brk | mnop | cnop | ynop => exact id_keeps
  case add | sub | and | or | xor | shl | shr | sar | mul | mulh | mulhu | min | max | minu | maxu | ceq | cne | clt | cltu
      | cle | cleu | sel | clz | ctz | popc | bfx | bfi | addi | andi | ori | xori | muli | ceqi | cnei | clti | cltui | li
      | hadr => exact State.compute_keeps
  case div | divu | rem | remu => exact State.divide_keeps
  case shli | shri | sari => exact State.shiftImm_keeps
  case ldb | ldbu | ldh | ldhu | ldw | ldwu | ldd => exact State.load_keeps
  case stb | sth | stw | std => exact State.store_keeps
  case pfs => exact slotPfs_keeps
  case ald | ast | aadd | amaxu | aor | aand | aswp | acas => exact State.atomic_keeps
  case br | bnz | bz => exact State.branch_keeps
  case call => exact slotCall_keeps
  case jr => exact slotJr_keeps
  case trap => exact slotTrap_keeps
  case halt => exact slotHalt_keeps
  case drain | drainw => exact State.drain_keeps
  case xlt => exact slotXlt_keeps
  case hinv | snapr | yfmt | yfmts | ybnk | yloop | yflw => exact onCar_keeps fun _ hc => hc
  case hrd => exact slotHrd_keeps
  case wadr => exact slotWadr_keeps
  case srd => exact slotSrd_keeps
  case swr => exact slotSwr_keeps
  case tsr => exact slotTsr_keeps
  case snapst => exact slotSnapst_keeps
  case snapld => exact slotSnapld_keeps
  case rft => exact slotRft_keeps
  case vadd | vsub | vmul | vfma | vfms | vmax | vmin | vand | vor | vxor | vshl | vshr | vsar | vadds | vmuls | vfmas
      | vmaxs | vmins | vsplat | vsld | vslu | vmov | vperm | vzip | vuzp | vbdq | vabs | vneg | vrcp | vrsq | vsqrt | vexp2
      | vlog2 | vtanh | vsig | vgelu | vflr | vrnd | vclz | vpopc | vk2v | vclr => exact State.vmerge_keeps
  case vceq | vclt | vcle | vkand | vkor | vknot | vv2k => exact State.vmask_keeps
  case vld => exact slotVld_keeps
  case vst => exact slotVst_keeps
  case vgth => exact slotVgth_keeps
  case vsct => exact slotVsct_keeps
  case vldk => exact slotVldk_keeps
  case vstk => exact slotVstk_keeps
  case vrsum | vrmax | vrmin | vrcnt | vrmean | vcmpr | viota | vbexp | vbq => exact State.vwhole_keeps
  case vrsc => exact slotVrsc_keeps
  case vmrg => exact slotVmrg_keeps
  case vext => exact slotVext_keeps
  case vins => exact slotVins_keeps
  case vcvt | vm8e | vm8d => exact State.vconvert_keeps
  case mbt => exact State.mslot_keeps fun _ h => h.integrate _ _ _ _ _
  case mtune => exact slotMtune_keeps
  case mgain => exact slotMgain_keeps
  case msplit => exact slotMsplit_keeps
  case mrd => exact slotMrd_keeps
  case mrep => exact slotMrep_keeps
  case mcal | mabt => exact State.mslot_keeps fun _ h => h.onCar fun _ hc => hc
  case munc => exact State.mslot_keeps fun _ h => State.Canon.endStreams (h.onCar fun _ hc => hc.uncouple)
  case mstat => exact State.mslot_keeps fun _ h => h.produceS _ _ _
  case ccpy => exact slotCcpy_keeps
  case cres => exact slotCres_keeps
  case cmap => exact fun _ h => h.onCar fun _ hc => hc
  case cpld => exact slotCpld_keeps
  case cplt => exact slotCplt_keeps
  case cls => exact slotCls_keeps
  case clsf => exact slotClsf_keeps
  case cwbr | cinv | cwbi => exact State.range_keeps
  case crdx | cagt | cbct => exact State.coll_keeps
  case cunm => exact slotCunm_keeps
  case cabt => exact slotCabt_keeps
  case yscl | yscls | ywb => exact onCar_keeps fun _ hc => hc.later _
  case yldw => exact slotYldw_keeps
  case ystw => exact slotYstw_keeps
  case ywait => exact slotYwait_keeps
  case ypost | ypostc => exact fun _ h => h.release _
  case ybar => exact slotYbar_keeps
  case ypark => exact slotYpark_keeps
  case ypri => exact slotYpri_keeps
  case yflr => exact fun _ h => h.wS _ _
  all_goals exact trivial

theorem slotOf_keeps {i : Instr} {s : State} {p : SlotOp} (h : slotOf i s = some p) : p.Keeps m o := by
  have keeps : SlotOp.KeepsAny m o (slotOf i s) := slotOf_keepsAny i s
  rw [h] at keeps
  exact keeps

end Sys2Proof.Machine

namespace Sys2Proof.Machine
variable {m : Prop} {o : Option (Car × Device)}

/-! An instruction or event answers a next state, which keeps what is kept. -/

theorem State.Canon.execDeviceStart {s : State} (h : s.Canon m o) (failDies : List Nat) (failLines : List Ix16)
    (failPorts : List (Fin 128)) (steps : BitVec 18) : Answers m o (execDeviceStart failDies failLines failPorts steps s) :=
  .next (State.Canon.start (h.onDev fun _ hd => hd.mapHouse _) _)

/-- A slot settles its verdict or takes effect. -/
theorem State.Canon.issue {s : State} (h : s.Canon m o) {p : SlotOp} (keeps : p.Keeps m o) : (s.issue p.plan p.eff).Canon m o := by
  unfold State.issue
  split
  · exact keeps s h
  · exact h.settle _

theorem State.Canon.exec {s : State} (h : s.Canon m o) (i : Instr) : Answers m o (exec i s) := by
  cases slot : slotOf i s with
  | some p =>
    rw [exec_slot slot]
    exact .next (h.issue (slotOf_keeps slot))
  | none =>
    cases i <;> cases slot
    case takeTrap.refl => exact h.execTakeTrap _
    case fillDestination.refl => exact h.execFillDestination _ _ _
    case delayedWriteLands.refl => exact h.execDelayedWriteLands _
    case storeErrorResponse.refl => exact h.execStoreErrorResponse _ _
    case postedWriteArrival.refl => exact h.execPostedWriteArrival _ _
    case flagPost.refl => exact h.execFlagPost _ _ _
    case waitSatisfied.refl => exact h.execWaitSatisfied _
    case barrierRelease.refl => exact h.execBarrierRelease _ _
    case watchdogExpiry.refl => exact h.execWatchdogExpiry _
    case xltWalkEnd.refl => exact h.execXltWalkEnd _
    case copyComplete.refl => exact h.execCopyComplete _ _
    case copyFaultDetected.refl => exact h.execCopyFaultDetected _ _ _ _
    case lineStreamRead.refl => exact h.execLineStreamRead _
    case lineStreamBeat.refl => exact h.execLineStreamBeat _
    case reportReadable.refl => exact h.execReportReadable _
    case windowVoid.refl => exact h.execWindowVoid _ _
    case calibrationStart.refl => exact h.execCalibrationStart _
    case calibrationComplete.refl => exact h.execCalibrationComplete _
    case calPeriodicDue.refl => exact h.execCalPeriodicDue _
    case calStale.refl => exact h.execCalStale _
    case calForced.refl => exact h.execCalForced _
    case remapPending.refl => exact h.execRemapPending _ _
    case remapStart.refl => exact h.execRemapStart _
    case remapEnd.refl => exact h.execRemapEnd _
    case laserRefresh.refl => exact h.execLaserRefresh _ _ _ _ _ _ _
    case laneFail.refl => exact h.execLaneFail _ _
    case laneRemap.refl => exact h.execLaneRemap _ _
    case lnkClr.refl => exact h.execLnkClr _
    case lnkRetrain.refl => exact h.execLnkRetrain _
    case retrainComplete.refl => exact h.execRetrainComplete _ _
    case lnkForce.refl => exact h.execLnkForce _ _
    case flitArrival.refl => exact h.execFlitArrival _ _ _
    case replayRequest.refl => exact h.execReplayRequest _ _
    case flitAck.refl => exact h.execFlitAck _ _
    case lossyBlockArrival.refl => exact h.execLossyBlockArrival _ _ _
    case endMarkerArrival.refl => exact h.execEndMarkerArrival _ _
    case lossyClose.refl => exact h.execLossyClose _ _
    case completionNotice.refl => exact h.execCompletionNotice _ _
    case noticeOfIssue.refl => exact h.execNoticeOfIssue _ _ _ _ _
    case crdxBlockClose.refl => exact h.execCrdxBlockClose _ _ _ _
    case collectiveDeadline.refl => exact h.execCollectiveDeadline _ _
    case remoteRequest.refl => exact h.execRemoteRequest _
    case movedResponse.refl => exact h.execMovedResponse _ _
    case invalidate.refl => exact h.execInvalidate _
    case invalidationComplete.refl => exact h.execInvalidationComplete
    case migrate.refl => exact h.execMigrate _
    case migrationLineCopy.refl => exact h.execMigrationLineCopy
    case groupCommit.refl => exact h.execGroupCommit _
    case groupBusyClear.refl => exact h.execGroupBusyClear _
    case multicastReplicate.refl => exact h.execMulticastReplicate _ _
    case throughRunningFrame.refl => exact h.execThroughRunningFrame _ _ _
    case timetableLoad.refl => exact h.execTimetableLoad _
    case alternateSetLoad.refl => exact h.execAlternateSetLoad _
    case tsSyncLost.refl => exact h.execTsSyncLost
    case tsResync.refl => exact h.execTsResync
    case queueDoorbell.refl => exact h.execQueueDoorbell _
    case mailboxWrite.refl => exact h.execMailboxWrite _ _
    case bhtWrite.refl => exact h.execBhtWrite _ _ _
    case bhtWriteApply.refl => exact h.execBhtWriteApply _
    case consumeRecord.refl => exact h.execConsumeRecord _
    case recordReread.refl => exact h.execRecordReread _
    case slotMap.refl => exact h.execSlotMap _
    case slotUnmap.refl => exact h.execSlotUnmap _
    case countRead.refl => exact h.execCountRead _ _
    case placeConsist.refl => exact h.execPlaceConsist _ _ _
    case consistRelease.refl => exact h.execConsistRelease _ _ _
    case carFinish.refl => exact h.execCarFinish _
    case serviceComplete.refl => exact h.execServiceComplete _ _
    case preemptRequest.refl => exact h.execPreemptRequest _ _ _
    case consistPark.refl => exact h.execConsistPark _ _ _
    case forcedStop.refl => exact h.execForcedStop _ _ _
    case consistResume.refl => exact h.execConsistResume _ _ _
    case speculationStart.refl => exact h.execSpeculationStart _
    case watchDoom.refl => exact h.execWatchDoom _
    case speculationDiscard.refl => exact h.execSpeculationDiscard _ _
    case specYield.refl => exact h.execSpecYield _ _
    case speculationCommit.refl => exact h.execSpeculationCommit _ _
    case sidingCopyBack.refl => exact h.execSidingCopyBack _ _
    case specCtlWrite.refl => exact h.execSpecCtlWrite _
    case specClr.refl => exact h.execSpecClr _
    case dbgAttach.refl => exact h.execDbgAttach _
    case registerWrite.refl => exact h.execRegisterWrite _ _ _
    case dbgHalt.refl => exact h.execDbgHalt _ _
    case dbgStep.refl => exact h.execDbgStep _
    case haltTaken.refl => exact h.execHaltTaken _
    case stashFill.refl => exact h.execStashFill _ _
    case stashWriteback.refl => exact h.execStashWriteback _ _
    case stashForeignWrite.refl => exact h.execStashForeignWrite _ _ _
    case dieCacheEvict.refl => exact h.execDieCacheEvict _ _
    case regionToPrivate.refl => exact h.execRegionToPrivate _ _
    case scrub.refl => exact h.execScrub
    case powerSample.refl => exact h.execPowerSample _
    case deviceStart.refl => exact h.execDeviceStart _ _ _ _
    case startWarm.refl => exact h.execStartWarm
    case startFull.refl => exact h.execStartFull
    case errClear.refl => exact h.execErrClear _
    case requestUpdate.refl => exact h.execRequestUpdate _
    case passComponentTable.refl => exact h.execPassComponentTable _
    case updateComponent.refl => exact h.execUpdateComponent _
    case requestFirmwareData.refl => exact h.execRequestFirmwareData _ _
    case verifyComplete.refl => exact h.execVerifyComplete _ _ _
    case applyComplete.refl => exact h.execApplyComplete _
    case activateFirmware.refl => exact h.execActivateFirmware _
    case cancelUpdate.refl => exact h.execCancelUpdate _
    case firmwareRestart.refl => exact h.execFirmwareRestart
    case getVersion.refl => exact h.execGetVersion _
    case getCapabilities.refl => exact h.execGetCapabilities _
    case negotiateAlgorithms.refl => exact h.execNegotiateAlgorithms _
    case getDigests.refl => exact h.execGetDigests _
    case getCertificate.refl => exact h.execGetCertificate _ _
    case challenge.refl => exact h.execChallenge _ _
    case getMeasurements.refl => exact h.execGetMeasurements _ _
    case mgmtRead.refl => exact h.execMgmtRead _ _
    case hostLinkDown.refl => exact h.execHostLinkDown
    case wadrReread.refl => exact h.execWadrReread _
    case wadrTimeout.refl => exact h.execWadrTimeout _
    case rangeOpComplete.refl => exact h.execRangeOpComplete _ _
    case cunmComplete.refl => exact h.execCunmComplete _ _
    case onPackageLinkDown.refl => exact h.execOnPackageLinkDown _ _

end Sys2Proof.Machine

namespace Sys2Proof.Machine
variable {m : Prop} {o p : Option (Car × Device)}

/-! A bundle issues, or does not. -/

/-- What is kept beside a bundle in issue is kept beside another, and beside none, once no bundle is in issue. -/
theorem State.Canon.outside {s : State} (h : s.Canon m p) (old : s.old = none) (begun : ∀ x ∈ o, x.1.Canon m ∧ x.2.Canon m) :
    s.Canon m o := ⟨h.car, h.peers, h.dev, .inl old, begun⟩

theorem State.Canon.runSlots (is : List (Fin 2 × Instr)) : ∀ {s : State}, s.Canon m o → Answers m o (runSlots is s) := by
  induction is with
  | nil => exact .next
  | cons i is ih =>
    intro s h
    obtain ⟨t, ran, ht⟩ := State.Canon.exec (s := s.atUnit i.1) h i.2
    unfold Machine.runSlots
    rw [ran]
    exact ih ht

theorem State.Canon.issueBundle {s : State} (h : s.Canon m o) (b : Bundle) : Answers m o (s.issueBundle b) := by
  obtain ⟨t, ran, ht⟩ := State.Canon.runSlots (s := s.openBundle.takeUnits b) b.order h.openBundle
  unfold State.issueBundle
  rw [ran]
  exact .next (ht.closeBundle.outside (State.closeBundle_old t) h.begun)

theorem State.Canon.noteWants {s : State} (h : s.Canon m o) (b : Bundle) : (s.noteWants b).Canon m o := .ite h h

theorem State.Canon.rereads {s : State} (h : s.Canon m o) (b : Bundle) : (s.rereads b).Canon m o := by
  unfold State.rereads
  refine .ite h ?_
  dsimp only
  generalize s.openBundle.struck (s.openBundle.plans b) = rs
  have again : (s.mapCar (fun c => rs.foldl Car.reread c)).Canon m o := h.onCar fun c hc => hc.foldl (fun _ _ hc => hc.reread _) _
  exact .ite again again

/-- A verdict that does not let the bundle issue ends the bundle. -/
theorem State.settle_old {s : State} {v : Verdict} (held : v ≠ .go) : (s.settle v).old = none := by
  cases v with
  | go => exact absurd rfl held
  | wait => exact State.rollback_old s
  | trap t => exact State.takeTrap_old _ _ _ _ _
  | doom => exact State.doom_old s
  | walk va => exact State.rollback_old s

theorem State.Canon.attempt {s : State} (h : s.Canon m o) (may : Bool) : Answers m o (s.attempt may) := by
  rcases s.attempt_cases may with ⟨k, _, eq⟩ | ⟨b, _, _, _, eq⟩ | ⟨b, _, _, _, eq⟩ | ⟨b, _, held, eq⟩ <;> rw [eq]
  · exact .next (h.preciseTrap _)
  · exact h.issueBundle b
  · exact .next h.stays
  · exact .next ((((h.noteWants b).rereads b).openBundle.settle _).outside (State.settle_old held) h.begun)

/-! The turn of a car. -/

theorem State.Canon.endStep {s : State} (h : s.Canon m o) : s.endStep.Canon m o := by
  unfold State.endStep
  exact .ite (State.Canon.trapNow (State.Canon.onCar (h.mapDebug _) fun _ hc => hc.pend _)) (h.mapDebug _)

theorem State.Canon.afterBundle {s : State} (h : s.Canon m o) (pc : BitVec 17) : (s.afterBundle pc).Canon m o :=
  .ite (.ite (State.Canon.endStep (h.mapDebug _)) (h.mapDebug _)) h

theorem State.Canon.endWaits {s : State} (h : s.Canon m o) : s.endWaits.Canon m o := h.foldl (fun _ _ h => h.endWait _) _

theorem State.Canon.boundary {s t : State} (h : s.Canon m o) (ht : s.boundary = some t) : t.Canon m o := by
  unfold State.boundary at ht
  split at ht
  · cases ht; exact h.endStep
  · split at ht
    · cases ht; exact h.haltNow
    · split at ht
      · cases ht; exact h.trapNow
      · cases ht

theorem State.Canon.breakpoint {s t : State} (h : s.Canon m o) (ht : s.breakpoint = some t) : t.Canon m o := by
  unfold State.breakpoint at ht
  dsimp only at ht
  split at ht
  · cases ht
  · split at ht
    · cases ht; exact h.doom
    · split at ht
      · cases ht; exact (h.mapDebug _).preciseTrap _
      · split at ht
        · cases ht; exact State.Canon.haltNow (State.Canon.mapDebug (h.mapDebug _) _)
        · cases ht

theorem State.Canon.noteBreak {s : State} (h : s.Canon m o) : s.noteBreak.Canon m o := .ite h (h.mapDebug _)

theorem State.Canon.tryIssue {s : State} (h : s.Canon m o) : Answers m o s.tryIssue := by
  obtain ⟨t, tried, ht⟩ := h.attempt true
  unfold State.tryIssue
  rw [tried]
  exact .next (.ite (ht.afterBundle _) ht)

theorem State.Canon.soloTurn {s : State} (h : s.Canon m o) : Answers m o s.soloTurn := by
  unfold State.soloTurn
  split
  case h_1 t met => exact .next (h.boundary met)
  case h_2 =>
    refine .ite (.next h) ?_
    split
    case h_1 t met => exact .next (h.breakpoint met)
    case h_2 => exact h.noteBreak.tryIssue

/-! The turn of a domain. -/

theorem State.Canon.turnTo {s : State} (h : s.Canon m o) (r : CarRef) : (s.turnTo r).Canon m o := by
  unfold State.turnTo
  split
  · exact h
  · split
    · exact h
    case h_2 i _ =>
      refine ⟨?_, fun c hc => ?_, h.dev, h.old, h.begun⟩
      · rw [List.getD_eq_getElem?_getD]
        cases found : s.peers[i]? with
        | none => exact h.car
        | some c => exact h.peers c (List.mem_of_getElem? found)
      · rcases List.mem_or_eq_of_mem_set hc with hc | rfl
        · exact h.peers c hc
        · exact h.car

theorem State.Canon.atCarR {s : State} (h : s.Canon m o) (r : CarRef) {f : State → Result}
    (hf : ∀ s, s.Canon m o → Answers m o (f s)) : Answers m o (s.atCarR r f) := by
  obtain ⟨t, done, ht⟩ := hf _ (h.turnTo r)
  unfold State.atCarR
  rw [done]
  exact .next (ht.turnTo _)

theorem State.Canon.eachCar {f : State → Result} (hf : ∀ s, s.Canon m o → Answers m o (f s)) (rs : List CarRef) :
    ∀ {s : State}, s.Canon m o → Answers m o (eachCar f rs s) := by
  induction rs with
  | nil => exact .next
  | cons r rs ih =>
    intro s h
    obtain ⟨t, done, ht⟩ := h.atCarR r hf
    unfold Machine.eachCar
    rw [done]
    exact ih ht

theorem State.Canon.boundaries {s : State} (h : s.Canon m o) (rs : List CarRef) :
    (rs.foldl (fun s r => s.atCar r (fun s => s.boundary.getD s)) s).Canon m o := by
  refine h.foldl (fun s r h => h.atCar r fun s h => ?_) rs
  cases met : s.boundary with
  | none => exact h
  | some t => exact h.boundary met

theorem State.Canon.breakpoints {s : State} (h : s.Canon m o) (rs : List CarRef) :
    (rs.foldl (fun s r => s.atCar r (fun s => s.breakpoint.getD s)) s).Canon m o := by
  refine h.foldl (fun s r h => h.atCar r fun s h => ?_) rs
  cases met : s.breakpoint with
  | none => exact h
  | some t => exact h.breakpoint met

theorem State.Canon.domainBoundary {s t : State} {rs : List CarRef} (h : s.Canon m o) (ht : s.domainBoundary rs = some t) :
    t.Canon m o := by
  unfold State.domainBoundary at ht
  dsimp only at ht
  split at ht
  · cases ht; exact h.boundaries _
  · cases ht

theorem State.Canon.lateDrives {s : State} (h : s.Canon m o) (rs : List CarRef) : (s.lateDrives rs).Canon m o :=
  h.onDev fun _ hd => hd.foldl (fun _ _ hd => hd.awaitLate _) _

theorem State.Canon.domainIssue {s : State} (h : s.Canon m o) (rs : List CarRef) : Answers m o (s.domainIssue rs) := by
  refine .ite (State.Canon.eachCar (fun _ h => h.tryIssue) rs ((h.readStreams _).lateDrives rs)) (h.eachCar (fun s h => ?_) rs)
  obtain ⟨t, tried, ht⟩ := h.attempt false
  rw [tried]
  exact .next (.ite (ht.afterBundle _) ht)

theorem State.Canon.domainTurn {s : State} (h : s.Canon m o) (rs moved : List CarRef) : Answers m o (s.domainTurn rs moved) := by
  unfold State.domainTurn
  split
  case h_1 t met => exact .next (h.domainBoundary met)
  case h_2 => exact .ite (.next h) (.ite (.next (h.breakpoints rs)) (h.domainIssue rs))

theorem State.Canon.carTurn {s : State} (h : s.Canon m o) : Answers m o s.carTurn := by
  refine .ite (State.Canon.soloTurn (h.onCar fun _ hc => hc)) (State.Canon.domainTurn (h.mapCars fun c hc => ?_) _ _)
  split <;> exact hc

/-! What comes from outside. -/

theorem State.Canon.refuseContribution {s : State} (h : s.Canon m o) (g k : Nat) : (s.refuseContribution g k).Canon m o := by
  refine State.Canon.onDev (h.foldl (fun s c h => h.atCar _ fun s h => ?_) _) fun _ hd => hd
  split
  case h_1 x found =>
    have hx : x.Canon m := h.car.2.2 x (List.mem_of_find?_eq_some found)
    exact h.collFault hx
  case h_2 => exact h

theorem State.Canon.loseBlock {s : State} (h : s.Canon m o) (n b : Nat) : (s.loseBlock n b).Canon m o := by
  unfold State.loseBlock
  split
  · exact h
  · dsimp only
    split
    · exact .ite (h.lossyOpen _) h
    · exact .ite (.ite (h.lossyOpen _) h) (State.Canon.onDev (.ite (h.lossyOpen _) h) fun _ hd => hd)

theorem State.Canon.poisonCar {s : State} (h : s.Canon m o) (c : CarRef) {f : Car → Car} (hf : ∀ c, c.Canon m → (f c).Canon m)
    (g : House → House) : ((s.atCar c (fun s => s.mapCar f)).mapDev (fun d => d.mapHouse g)).Canon m o :=
  State.Canon.onDev (h.atCar c fun _ h => h.onCar hf) fun _ hd => hd.mapHouse _

theorem State.Canon.receive {s : State} (h : s.Canon m o) (x : Input) : Answers m o (s.receive x) := by
  unfold State.receive
  cases x
  case event => exact h.exec _
  case write => exact .next (h.storeAt _ _ _ _ _)
  case remoteWrite => exact .next (h.storeAt _ _ _ _ _)
  case poison pa n =>
    refine .onDev h fun d hd => ?_
    have hm : Device.Canon m { d with mem := d.mem.setPoison pa n } := hd.withMem (hd.1.setPoison pa n)
    exact .ite (hm.countUe _) hm
  case latent => exact .onDev h fun _ hd => hd
  case spadPoison => exact .next (h.poisonCar _ (fun _ hc => hc.withSpad (hc.1.setPoison _ _)) _)
  case imemPoison =>
    refine .next (h.poisonCar _ (fun c hc => ?_) _)
    exact ⟨hc.1, hc.2.1.setPoison _ _, hc.2.2⟩
  case regPoison => exact .next (h.poisonCar _ (fun _ hc => hc.markPoison _) _)
  case strike => exact .next (h.strike _)
  case sensor => exact .onDev h fun _ hd => hd
  case corrected => exact .onDev h fun _ hd => hd.mapHouse _
  case image => exact .onDev h fun _ hd => hd.mapSigOther rfl rfl
  case contribution g k ranks q x =>
    refine .next (.ite (h.onDev fun d hd => ?_) (h.refuseContribution _ _))
    have contributed : Device.Canon m { d with fab := d.fab.contribute g k x } := hd
    exact contributed.flushColl _ _
  case key => exact .onDev h fun _ hd => hd.mapPort _ _
  case sealed => exact .onDev h fun _ hd => hd.mapPort _ _
  case lostBlock => exact h.at _ fun _ h => h.loseBlock _ _
  case foreign => exact .onDev h fun _ hd => hd
  case foreignBlock => exact .next (h.foreignBlock _ _ _ _)
  case foreignMarker =>
    dsimp only
    split
    · exact .next (.ite h (h.onDev fun _ hd => hd.setForeign _))
    · exact .next h
  case request => exact .next (h.serve _ _ _ _)
  case laneErrors => exact .onDev h fun _ hd => hd.mapPort _ _
  case offset => exact .onDev h fun _ hd => (hd.mapHouse _).slew _
  case condition => exact .onDev h fun _ hd => hd.mapHouse _

/-! What is due. -/

/-- Moves that answer a next state. -/
def Moves (m : Prop) (o : Option (Car × Device)) (fs : List Move) : Prop := ∀ f ∈ fs, ∀ s, s.Canon m o → Answers m o (f s)

theorem Moves.nil : Moves m o [] := List.forall_mem_nil _

theorem Moves.cons {f : Move} {fs : List Move} (hf : ∀ s, s.Canon m o → Answers m o (f s)) (hfs : Moves m o fs) : Moves m o (f :: fs) :=
  List.forall_mem_cons.mpr ⟨hf, hfs⟩

theorem Moves.one {f : Move} (hf : ∀ s, s.Canon m o → Answers m o (f s)) : Moves m o [f] := .cons hf .nil

theorem Moves.append {fs gs : List Move} (hf : Moves m o fs) (hg : Moves m o gs) : Moves m o (fs ++ gs) :=
  List.forall_mem_append.mpr ⟨hf, hg⟩

theorem Moves.map {α : Type} {g : α → Move} (hg : ∀ a s, s.Canon m o → Answers m o (g a s)) (xs : List α) : Moves m o (xs.map g) :=
  List.forall_mem_map.mpr fun a _ => hg a

theorem Moves.flatMap {α : Type} {g : α → List Move} (hg : ∀ a, Moves m o (g a)) (xs : List α) : Moves m o (xs.flatMap g) := by
  intro f hf
  obtain ⟨a, _, ha⟩ := List.mem_flatMap.mp hf
  exact hg a f ha

theorem Moves.filterMap {α : Type} {g : α → Option Move} (hg : ∀ a, ∀ f ∈ g a, ∀ s, s.Canon m o → Answers m o (f s)) (xs : List α) :
    Moves m o (xs.filterMap g) := by
  intro f hf
  obtain ⟨a, _, ha⟩ := List.mem_filterMap.mp hf
  exact hg a f ha

theorem Moves.filter {fs : List Move} (hf : Moves m o fs) (q : Move → Bool) : Moves m o (fs.filter q) :=
  fun f h => hf f (List.mem_filter.mp h).1

theorem Moves.ite {q : Prop} {_ : Decidable q} {fs gs : List Move} (hf : Moves m o fs) (hg : Moves m o gs) :
    Moves m o (if q then fs else gs) := iteInduction (fun _ => hf) fun _ => hg

/-- One move under a condition. -/
theorem Moves.when {q : Prop} {_ : Decidable q} {f : Move} (hf : ∀ s, s.Canon m o → Answers m o (f s)) :
    Moves m o (if q then [f] else []) := .ite (.one hf) .nil

theorem State.dueRegs_moves (s : State) (r : CarRef) : Moves m o (s.dueRegs r) := by
  unfold State.dueRegs
  refine .append (.append (.append (.append ?_ ?_) ?_) ?_) ?_
  · exact .map (fun _ _ h => h.execFillDestination _ _ _) _
  · exact .when fun _ h => h.at _ fun _ h => h.drainOne
  · exact .map (fun _ _ h => h.at _ fun _ h => h.sendPart _) _
  · exact .map (fun _ _ h => h.execPostedWriteArrival _ _) _
  · split
    · exact .when fun _ h => h.execXltWalkEnd _
    · exact .nil

theorem State.dueWaits_moves (s : State) (r : CarRef) : Moves m o (s.dueWaits r) := by
  unfold State.dueWaits
  refine .append (.when fun _ h => h.execWatchdogExpiry _) (.ite .nil (.append ?_ ?_))
  · exact .ite (.one fun _ h => h.execWadrReread _) (.when fun _ h => h.execWadrTimeout _)
  · split
    · exact .map (fun _ _ h => h.execBarrierRelease _ _) _
    · exact .nil

theorem State.dueColl_moves (s : State) (r : CarRef) (k : Copy) (x : Coll) : Moves m o (s.dueColl r k x) := by
  refine Moves.filter (.append (.append (.when fun _ h => h.execEndMarkerArrival _ _) (.ite ?_ ?_)) (.cons ?_ (.one ?_))) _
  · exact .map (fun _ _ h => h.execCrdxBlockClose _ _ _ _) _
  · exact .map (fun _ _ h => h.execLossyBlockArrival _ _ _) _
  · exact fun _ h => h.execLossyClose _ _
  · exact fun _ h => h.execCollectiveDeadline _ _

theorem State.Canon.readLate {s : State} (h : s.Canon m o) (r : CarRef) (n : Nat) : Answers m o (readLate r n s) := by
  refine h.at r fun s h => ?_
  split
  · exact h
  case h_2 k found =>
    have hk : k.Canon m := h.car.copyOf found
    split
    · exact h.gatherLate _ hk
    · exact h

theorem State.dueCopy_moves (s : State) (r : CarRef) (k : Copy) : Moves m o (s.dueCopy r k) := by
  have complete : Moves m o [execCopyComplete r k.num] := .one fun _ h => h.execCopyComplete _ _
  unfold State.dueCopy
  refine .ite complete (.ite (.ite complete .nil) (.ite .nil (.ite (.one fun _ h => h.readLate _ _) (.ite complete (.ite ?_ ?_)))))
  · split
    · exact .ite (s.dueColl_moves _ _ _) .nil
    · exact .nil
  · split
    · refine Moves.filter (.append (.map (fun _ _ h => h.execLossyBlockArrival _ _ _) _) (.cons ?_ (.cons ?_ (.one ?_)))) _
      · exact fun _ h => h.execEndMarkerArrival _ _
      · exact fun _ h => h.execLossyClose _ _
      · exact fun _ h => h.execCompletionNotice _ _
    · exact .nil

theorem State.dueEngines_moves (s : State) (r : CarRef) : Moves m o (s.dueEngines r) := by
  refine .append (.append (.flatMap (fun k => s.dueCopy_moves r k) _) (.ite .nil (.append (.append ?_ ?_) ?_)))
    (.when fun _ h => h.execCarFinish _)
  · exact .map (fun _ _ h => h.execRangeOpComplete _ _) _
  · exact .map (fun _ _ h => h.execCunmComplete _ _) _
  · exact .flatMap (fun _ => .map (fun _ _ h => h.execStashFill _ _) _) _

theorem State.dueLate_moves (s : State) (r : CarRef) : Moves m o (s.dueLate r) := (s.turnTo r).dueEngines_moves r

theorem State.dueArray_moves (s : State) (r : CarRef) : Moves m o (s.dueArray r) := by
  refine .ite .nil (.append (.append (.append (.append (.append (.append ?_ ?_) ?_) ?_) ?_) ?_) ?_)
  · exact .when fun _ h => h.execReportReadable _
  · exact .map (fun _ _ h => h.execWindowVoid _ _) _
  · exact .when fun _ h => h.execCalibrationStart _
  · exact .when fun _ h => h.execCalibrationComplete _
  · exact .when fun _ h => h.execCalPeriodicDue _
  · exact .when fun _ h => h.execCalStale _
  · exact .when fun _ h => h.execCalForced _

theorem State.dueCar_moves (s : State) (r : CarRef) : Moves m o (s.dueCar r) :=
  .append (.append ((s.turnTo r).dueRegs_moves r) ((s.turnTo r).dueWaits_moves r)) ((s.turnTo r).dueArray_moves r)

theorem State.dueOptics_moves (s : State) : Moves m o s.dueOptics := by
  refine .append (.append (.flatMap (fun x => ?streams) _) (.flatMap (fun l => ?lines) _)) (.flatMap (fun e => ?ports) _)
  case streams => exact .append (.when fun _ h => h.execLineStreamRead _) (.when fun _ h => h.execLineStreamBeat _)
  case lines =>
    refine .append (.append (.ite (.map (fun _ _ h => h.execRemapPending _ _) _) .nil) ?_) (.when fun _ h => h.execRemapEnd _)
    exact .when fun _ h => h.execRemapStart _
  case ports =>
    dsimp only
    split
    · refine .append (.append (.append ?_ (.ite .nil (.map (fun _ _ h => h.execLaneFail _ _) _))) ?_) ?_
      · split
        · exact .when fun _ h => h.execRetrainComplete _ _
        · exact .nil
      · exact .map (fun _ _ h => h.execLaneRemap _ _) _
      · split
        · exact .one fun _ h => h.execFlitAck _ _
        · exact .nil
    · exact .nil

theorem State.dueFabric_moves (s : State) : Moves m o s.dueFabric := by
  refine Moves.filter (.append (.append (.append (.append (.append (.append (.append ?_ ?_) ?_) ?_) ?_) ?_) ?_) ?_) _
  · exact .map (fun _ _ h => h.execRemoteRequest _) _
  · exact .ite .nil (.one fun _ h => h.execInvalidationComplete)
  · exact .when fun _ h => h.execMigrationLineCopy
  · refine .filterMap (fun g f hf => ?_) _
    split at hf
    · split at hf
      · cases hf; exact fun _ h => h.execGroupBusyClear _
      · cases hf
    · cases hf
  · refine .filterMap (fun g f hf => ?_) _
    split at hf
    · cases hf; exact fun _ h => h.execThroughRunningFrame _ _ _
    · cases hf
  · exact .map (fun _ _ h => h.execTimetableLoad _) _
  · exact .map (fun _ _ h => h.execAlternateSetLoad _) _
  · exact .map (fun _ _ h => .next (h.closeForeign _)) _

theorem State.dueQueues_moves (s : State) : Moves m o s.dueQueues := by
  refine Moves.filter (.append (.append (.append (.append ?_ ?_) ?_) ?_) ?_) _
  · exact .map (fun _ _ h => h.execSlotMap _) _
  · refine .flatMap (fun e => .ite (.one fun _ h => h.execSlotUnmap _) (.ite (.one fun _ h => h.execRecordReread _) ?_)) _
    exact .when fun _ h => h.execConsumeRecord _
  · refine .flatMap (fun v => .cons ?_ (.cons ?_ (.one ?_))) _
    · exact fun _ h => h.execCountRead _ _
    · exact fun _ h => h.execServiceComplete _ _
    · exact fun _ h => h.execPlaceConsist _ _ _
  · refine .flatMap (fun c => .cons ?_ (.cons ?_ (.cons ?_ (.cons ?_ (.one ?_))))) _
    · exact fun _ h => h.execConsistRelease _ _ _
    · exact fun _ h => h.execConsistPark _ _ _
    · exact fun _ h => h.execForcedStop _ _ _
    · exact fun _ h => h.execConsistResume _ _ _
    · exact fun _ h => h.execPreemptRequest _ _ _
  · refine .filterMap (fun g f hf => ?_) _
    split at hf
    · cases hf; exact fun _ h => h.execBhtWriteApply _
    · cases hf

theorem State.dueSpecs_moves (s : State) : Moves m o s.dueSpecs := by
  refine Moves.filter (.append (.append (.append (.append ?_ ?_) ?_) ?_) ?_) _
  · refine .flatMap (fun v => .cons ?_ (.cons ?_ (.cons ?_ (.one ?_)))) _
    · exact fun _ h => h.execSpeculationDiscard _ _
    · exact fun _ h => h.execSpecYield _ _
    · exact fun _ h => h.execSpeculationCommit _ _
    · exact fun _ h => h.execPlaceConsist _ _ _
  · exact .map (fun _ _ h => h.execSidingCopyBack _ _) _
  · exact .ite .nil (.map (fun _ _ h => .onDev h fun _ hd => hd.seeDbg _) _)
  · exact .ite (.map (fun _ _ h => h.execSpeculationStart _) _) .nil
  · exact .when fun _ h => h.execFirmwareRestart

theorem State.dueRegions_moves (s : State) : Moves m o s.dueRegions := by
  refine .flatMap (fun e => ?_) _
  split
  · exact .when fun _ h => h.execRegionToPrivate _ _
  · exact .nil

theorem State.dueCars_moves (s : State) : Moves m o (s.cars.flatMap (fun c => s.dueCar c.ref)) := by
  refine .flatMap (fun c => ?_) _
  exact s.dueCar_moves c.ref

theorem State.dueLates_moves (s : State) : Moves m o (s.cars.flatMap (fun c => s.dueLate c.ref)) := by
  refine .flatMap (fun c => ?_) _
  exact s.dueLate_moves c.ref

theorem State.Canon.due {s : State} {f : Move} (h : s.Canon m o) (due : s.due = some f) : Answers m o (f s) := by
  unfold State.due at due
  split at due
  case h_1 i is eq =>
    cases due
    exact s.dueCars_moves f (eq ▸ List.mem_cons_self) s h
  case h_2 => exact s.dueOptics_moves f (List.mem_of_head? due) s h

theorem State.Canon.dueAfter {s : State} {f : Move} (h : s.Canon m o) (due : s.dueAfter = some f) : Answers m o (f s) := by
  have first {fs : List Move} {g : Move} {gs : List Move} (moves : Moves m o fs) (eq : fs = g :: gs) (is : some g = some f) :
      Answers m o (f s) := by
    cases is
    exact moves f (eq ▸ List.mem_cons_self) s h
  unfold State.dueAfter at due
  split at due
  · exact first s.dueLates_moves ‹_› due
  split at due
  · exact first s.dueFabric_moves ‹_› due
  split at due
  · exact first s.dueQueues_moves ‹_› due
  split at due
  · exact first s.dueSpecs_moves ‹_› due
  split at due
  · exact first s.dueRegions_moves ‹_› due
  split at due
  · cases due; exact h.execScrub
  · cases due

/-! The cycle. -/

theorem State.Canon.nextCycle {s : State} (h : s.Canon m o) : s.nextCycle.Canon m o :=
  State.Canon.onDev (h.mapCars fun _ hc => hc) fun _ hd => hd

theorem State.Canon.closing {s : State} (h : s.Canon m o) : Answers m o s.closing := by
  rcases s.closing_cases with ⟨f, due, eq⟩ | ⟨_, r, _, eq⟩ | ⟨_, _, r, _, eq⟩ | ⟨_, _, _, eq⟩ <;> rw [eq]
  · exact h.dueAfter due
  · exact h.at r fun _ h => h.deliverMine
  · exact h.at r fun _ h => h.endWaits
  · exact .next h.nextCycle

theorem State.Canon.step {s : State} (h : s.Canon m o) : Answers m o (step s) := by
  rcases step_cases s with ⟨x, rest, _, eq⟩ | ⟨_, f, due, eq⟩ | ⟨_, _, _, eq⟩ | ⟨_, _, _, c, _, eq⟩ | ⟨_, _, _, _, eq⟩ <;> rw [eq]
  · have inbox : State.Canon m o { s with inbox := rest } := h
    exact inbox.receive x
  · exact h.due due
  · exact h.carTurn
  · exact .next (h.turnTo _)
  · exact h.closing

/-! The two uses of the predicate: what is true of every state, and canonical memories. -/

/-- Where no memory is asked for, every state has the bundle that is in issue. -/
theorem State.canon_any (s : State) : s.Canon False s.old :=
  have none {x : Mem} : x.Canon False := False.elim
  have car {c : Car} : c.Canon False := ⟨none, none, fun _ _ => none⟩
  have dev {d : Device} : d.Canon False := ⟨none, none, fun _ _ => none, fun _ _ _ _ => car⟩
  ⟨car, fun _ _ => car, dev, .inr rfl, fun _ _ => ⟨car, dev⟩⟩

theorem Car.memOk_iff {c : Car} : c.memOk = true ↔ c.Canon True := by
  simp [Car.memOk, Car.Canon, Copy.Canon, Mem.Canon, and_assoc]

theorem Device.memOk_iff {d : Device} : d.memOk = true ↔ d.Canon True := by
  simp [Device.memOk, Device.Canon, Signal.Canon, Speculation.Canon, Consist.Canon, Mem.Canon, Car.memOk_iff, and_assoc]

/-- Between bundles the memories are those of the cars and of the package. -/
theorem State.memOk_iff {s : State} (between : s.Between) : s.memOk = true ↔ s.Canon True none := by
  have old : s.old = none := between
  simp [State.memOk, State.Canon, State.cars, old, Car.memOk_iff, Device.memOk_iff, and_assoc]

end Sys2Proof.Machine

namespace Sys2Proof.Proofs
open Sys2Proof.Machine

/-- Settles O57: what every instruction and step answers is followed through the model. -/
theorem everyStepAnswersANextState : Obligations.EveryStepAnswersANextState := by
  unfold Obligations.EveryStepAnswersANextState
  have next {o : Option (Car × Device)} {r : Result} : Answers False o r → ∃ t, r = .next t := fun ⟨t, eq, _⟩ => ⟨t, eq⟩
  exact ⟨fun i s => next (s.canon_any.exec i), fun s => next s.canon_any.step⟩

/-- Settles O58: where no bundle is in issue, a step leaves none. -/
theorem noStepEndsInsideABundle : Obligations.NoStepEndsInsideABundle := by
  unfold Obligations.NoStepEndsInsideABundle
  intro s t between stepped
  have old : s.old = none := between
  obtain ⟨u, eq, hu⟩ := (old ▸ s.canon_any : s.Canon False none).step
  cases stepped.symm.trans eq
  exact hu.old.elim id id

/-- Settles O59: every function of the model keeps memories in their canonical form. -/
theorem everyStepKeepsMemoryCanonical : Obligations.EveryStepKeepsMemoryCanonical := by
  unfold Obligations.EveryStepKeepsMemoryCanonical
  intro s t between ok stepped
  obtain ⟨u, eq, hu⟩ := ((State.memOk_iff between).mp ok).step
  cases stepped.symm.trans eq
  exact (State.memOk_iff (hu.old.elim id id)).mpr hu

end Sys2Proof.Proofs

/-! A bundle of one slot: the order of its slots, its needs, and what a step makes of it (R63, R71, R88, R454). -/
namespace Sys2Proof.Machine

/-! What decodes is a slot, of one of five classes (R73). -/

/-- What decodes is a slot. -/
def SlotsOnly (s : State) : Except DecodeError Instr → Prop
  | .ok i => (slotOf i s).isSome = true
  | .error _ => True

variable {s : State} {w : Slot} {ls : List Payload}

theorem decodeAtomic_slotsOnly : SlotsOnly s (decodeAtomic w) := by
  unfold decodeAtomic need
  dsimp only
  (repeat' split) <;> trivial

theorem decodeVX_slotsOnly : SlotsOnly s (decodeVX w) := by
  unfold decodeVX need
  dsimp only
  (repeat' split) <;> trivial

theorem decodeS_slotsOnly : SlotsOnly s (decodeS w ls) := by
  unfold decodeS need
  dsimp only
  (repeat' split) <;> trivial

theorem decodeM_slotsOnly : SlotsOnly s (decodeM w) := by
  unfold decodeM need
  dsimp only
  (repeat' split) <;> trivial

theorem decodeC_slotsOnly : SlotsOnly s (decodeC w) := by
  unfold decodeC need
  dsimp only
  (repeat' split) <;> trivial

theorem decodeY_slotsOnly : SlotsOnly s (decodeY w ls) := by
  unfold decodeY need
  dsimp only
  (repeat' split) <;> trivial

theorem decodeV_slotsOnly : SlotsOnly s (decodeV w ls) := by
  have sub : SlotsOnly s (decodeVX w) := decodeVX_slotsOnly
  unfold decodeV need
  dsimp only
  (repeat' split) <;> trivial

theorem decodeSlot_slotsOnly : SlotsOnly s (decodeSlot w ls) := by
  unfold decodeSlot
  split
  · exact iteInduction (fun _ => decodeAtomic_slotsOnly) fun _ => decodeS_slotsOnly
  · exact decodeV_slotsOnly
  · exact decodeM_slotsOnly
  · exact decodeC_slotsOnly
  · exact decodeY_slotsOnly
  · trivial

theorem isSlot_of_decodeSlot {i : Instr} (h : decodeSlot w ls = .ok i) (s : State) : ∃ p, slotOf i s = some p := by
  have only : SlotsOnly s (decodeSlot w ls) := decodeSlot_slotsOnly
  rw [h] at only
  exact Option.isSome_iff_exists.mp only

/-- A slot that decodes is of one of five classes. -/
theorem slotClass_lt_of_decodeSlot {i : Instr} (h : decodeSlot w ls = .ok i) : (slotClass w).toNat < 5 := by
  unfold decodeSlot at h
  split at h
  case h_6 => cases h
  all_goals omega

/-- A list of slots that decodes to one instruction is one slot. -/
theorem frames_of_decodeFramed {fs : List Framed} {i : Instr} (h : decodeFramed fs = .ok [i]) :
    ∃ w ls, fs = [(w, ls)] ∧ decodeSlot w ls = .ok i := by
  cases fs with
  | nil => cases h
  | cons f rest =>
    obtain ⟨w, ls⟩ := f
    simp only [decodeFramed] at h
    split at h
    · cases h
    · split at h
      case h_1 => cases h
      case h_2 is more =>
        rename_i j one _
        cases h
        cases rest with
        | nil => exact ⟨w, ls, rfl, one⟩
        | cons g rest =>
          simp only [decodeFramed] at more
          split at more
          · cases more
          · split at more <;> cases more

theorem Car.decodes_of_fetch {c : Car} {fs : List Framed} {i : Instr} {priv poison : Bool} (h : c.fetch = .ok ⟨fs, [i], priv, poison⟩) :
    decodeFramed fs = .ok [i] := by
  unfold Car.fetch at h
  split at h
  · cases h
  · split at h
    · cases h
    · split at h
      · cases h
      · cases h
        assumption

/-- An instruction that ends the bundle writes no memory after vector loads. -/
theorem ends_not_late {i : Instr} (h : ends i = true) (b : Bundle) : b.lateScalar i = false := by
  cases i
  case trap | halt => exact Bool.and_false _
  all_goals cases h

/-- The one slot of a bundle drives the first unit of its class. -/
theorem Bundle.order_one {w : Slot} {ls : List Payload} {i : Instr} (five : (slotClass w).toNat < 5) (priv poison : Bool) :
    Bundle.order ⟨[(w, ls)], [i], priv, poison⟩ = [(0, i)] := by
  have late := ends_not_late (i := i)
  obtain k | k | k | k | k : (slotClass w).toNat = 0 ∨ (slotClass w).toNat = 1 ∨ (slotClass w).toNat = 2 ∨ (slotClass w).toNat = 3 ∨
      (slotClass w).toNat = 4 := by omega
  · cases e : ends i <;> cases l : Bundle.lateScalar ⟨[(w, ls)], [i], priv, poison⟩ i <;> simp [Bundle.order, k, e, l]
    simp [late e] at l
  · cases v : vectorToScalar i <;> simp [Bundle.order, k, v]
  all_goals simp [Bundle.order, k]

end Sys2Proof.Machine

namespace Sys2Proof.Machine

/-! What a slot needs at the bundle's state. -/

variable {s : State} {i : Instr} {p : SlotOp}

/-- A mapping beyond the eighth is a cause of its slot (R249). -/
def Plan.MapsOwnCause (s : State) (p : Plan) : Prop := p.maps = none ∨ (p.cause = none → s.src.eng.stash.length < 8)

theorem State.mslot_maps {user : Bool} {p : Plan} {f : State → State} (h : p.maps = none) :
    (s.mslot user p f).plan.MapsOwnCause s := by
  unfold State.mslot
  split
  · exact .inl rfl
  · exact .inl h

theorem slotCmap_maps {te : Bool} {ws : Ix16} {a : SReg} (h : (slotCmap te ws a s).plan.cause = none) :
    s.src.eng.stash.length < 8 := by
  have cause : s.mapCause ws a = none := h
  by_contra full
  have eight : 8 ≤ s.src.eng.stash.length := by omega
  have given (k : Cause) (x : Word) : at_ k x ≠ none := nofun
  have shaped (row : Nat) : shape ws row ≠ none := nofun
  have pick {c : Prop} [Decidable c] {x y : Option Trap} (hx : c → x ≠ none) (hy : y ≠ none) : (if c then x else y) ≠ none :=
    iteInduction (motive := fun x => x ≠ none) hx fun _ => hy
  refine absurd cause (pick (fun _ => shaped 1) (pick (fun _ => shaped 5) (pick (fun _ => shaped 6) (pick (fun _ => shaped 7)
    (pick (fun _ => shaped 8) (pick (fun high => ?_) (pick (fun _ => given _ _) (pick (fun _ => given _ _) (pick (fun _ => given _ _) ?_)))))))))
  · simp only [Bool.and_eq_true, Option.isSome_iff_ne_none] at high
    exact high.2
  · rw [if_pos eight]
    exact given _ _

theorem slotOf_maps (slot : slotOf i s = some p) : p.plan.MapsOwnCause s := by
  cases i <;> cases slot
  case cmap.refl => exact .inr slotCmap_maps
  case mbt.refl | mtune.refl | mgain.refl | msplit.refl | mrd.refl | mrep.refl | mcal.refl | munc.refl | mstat.refl | mabt.refl =>
    exact State.mslot_maps rfl
  all_goals exact .inl rfl

/-! Needs that are the same in two states. -/

/-- The same needs in what is not a check of operands. -/
def Plan.Alike (p q : Plan) : Prop := p.illegal = q.illegal ∧ p.priv = q.priv ∧ p.unit = q.unit ∧ p.srcs = q.srcs

/-- The focused car beside other units. -/
def State.withUnits (s : State) (k : Units) : State := s.mapCar (fun c => { c with units := k })

theorem State.mslot_alike {t : State} {user : Bool} {p q : Plan} {f g : State → State} (h : p.Alike q)
    (mode : s.src.tr.handler = t.src.tr.handler) : (s.mslot user p f).plan.Alike (t.mslot user q g).plan := by
  obtain ⟨illegal, priv, unit, srcs⟩ := h
  unfold State.mslot
  rw [mode]
  split
  · exact ⟨illegal, rfl, rfl, rfl⟩
  · exact ⟨illegal, priv, rfl, srcs⟩

theorem slotOf_alike {k : Units} (slot : slotOf i s.openBundle = some p) :
    ∃ q, slotOf i (s.withUnits k).openBundle = some q ∧ p.plan.Alike q.plan := by
  cases i <;> cases slot
  case mbt.refl | mtune.refl | mgain.refl | msplit.refl | mrd.refl | mrep.refl | mcal.refl | munc.refl | mstat.refl | mabt.refl =>
    exact ⟨_, rfl, State.mslot_alike ⟨rfl, rfl, rfl, rfl⟩ rfl⟩
  all_goals exact ⟨_, rfl, rfl, rfl, rfl, rfl⟩
end Sys2Proof.Machine

namespace Sys2Proof.Machine
variable {s : State} {i : Instr} {p : SlotOp} {fs : List Framed} {b : Bundle}

/-! The needs and the verdict of a bundle of one slot. -/

/-- A bundle of one slot, that user mode may fetch and whose words are sound. -/
abbrev Bundle.single (fs : List Framed) (i : Instr) : Bundle := ⟨fs, [i], false, false⟩

theorem State.withClash_one {q : Plan} (own : q.MapsOwnCause s) : s.withClash [q] [] = [q] := by
  unfold State.withClash
  split
  case h_1 => rfl
  case h_2 lo len maps =>
    obtain none | room := own
    · cases maps.symm.trans none
    · have kept : ¬(q.cause.isNone && (([] : List (Nat × Nat)).any (fun m => decide (lo < m.1 + m.2 ∧ m.1 < lo + len)) ||
          decide (8 ≤ s.src.eng.stash.length + ([] : List (Nat × Nat)).length))) = true := by
        cases cause : q.cause with
        | none => simp [room cause]
        | some k => simp
      dsimp only
      rw [if_neg kept]
      rfl

theorem State.plans_single (slot : slotOf i s = some p) : s.plans (.single fs i) = [{}, p.plan] := by
  unfold State.plans
  refine congrArg₂ List.cons (congrArg (fun x => ({ illegal := x } : Plan)) ?_) ?_
  · simp only [List.any_cons, List.any_nil, Bool.or_false]
    split <;> rfl
  · simp only [List.filterMap_cons, slot, List.filterMap_nil, List.map_cons, List.map_nil]
    exact s.withClash_one (slotOf_maps slot)

/-- Needs of nothing have no part in the verdict. -/
theorem State.verdict_needless (ps : List Plan) : s.verdict ({} :: ps) = s.verdict ps := by
  simp [State.verdict, State.unitsBusy, State.slotCause, State.full]

theorem State.verdict_wait {ps : List Plan} (h : s.verdict ps = .wait) :
    ps.any (fun p => p.illegal) = false ∧ ps.any (fun p => p.priv) = false := by
  unfold State.verdict at h
  split at h
  · cases h
  · split at h
    · cases h
    · simp_all

theorem State.verdict_busy {ps : List Plan} (legal : ps.any (fun p => p.illegal) = false) (allowed : ps.any (fun p => p.priv) = false)
    (busy : s.unitsBusy ps = true) : s.verdict ps = .wait := by
  simp [State.verdict, legal, allowed, busy]

/-- A wait of the bundle leaves a trap for an illegal or privileged slot as it is, and comes before all else. -/
theorem State.verdict_held (p : Plan) (hold : Bool) :
    s.verdict [{ wait := hold }, { p with wait := p.wait || hold }] =
      if hold && !p.illegal && !p.priv then .wait else s.verdict [p] := by
  cases hold
  · simp [State.verdict_needless]
  · cases illegal : p.illegal <;> cases priv : p.priv <;> simp [State.verdict, illegal, priv]

/-! Cars that a bundle in issue leaves alike. -/

/-- The car is a primary on the core of another, and can issue beside it. -/
def Car.besides (x c : Car) : Bool := x.ident.coreId == c.ident.coreId && !x.place.secondary && x.resident

theorem State.primaryOf_eq_none_iff {c : Car} : s.primaryOf c = none ↔
    (c.place.secondary = true → ¬ s.car.besides c = true ∧ ∀ x ∈ s.peers, ¬ x.besides c = true) := by
  rw [← List.forall_mem_cons (p := fun x => ¬ Car.besides x c = true), ← List.find?_eq_none]
  unfold State.primaryOf
  split
  case isTrue secondary => exact ⟨fun h _ => h, fun h => h secondary⟩
  case isFalse primary => exact ⟨fun _ h => absurd h primary, fun _ => rfl⟩

theorem State.primaryOf_openBundle (h : s.primaryOf s.car = none) : s.openBundle.primaryOf s.car = none := by
  rw [State.primaryOf_eq_none_iff] at h ⊢
  exact h

theorem State.primaryOf_withUnits {k : Units} (h : s.primaryOf s.car = none) : (s.withUnits k).primaryOf (s.withUnits k).car = none := by
  rw [State.primaryOf_eq_none_iff] at h ⊢
  exact h

theorem State.freeNumbers_congr {s t : State} (core : s.car.ident.coreId = t.car.ident.coreId) (eng : s.car.eng = t.car.eng)
    (peers : s.peers = t.peers) : s.freeNumbers = t.freeNumbers := by
  unfold State.freeNumbers State.numbersInUse State.cars
  simp only [List.filter_cons, core, peers]
  split <;> simp [eng]

end Sys2Proof.Machine

namespace Sys2Proof.Machine
variable {s : State} {i : Instr} {p : SlotOp} {fs : List Framed}

/-! A step that attempts a bundle of one slot. -/

theorem State.step_of_aboutToIssue (h : s.AboutToIssue) : step s = (s.mapCar (fun c => { c with done := true })).tryIssue := by
  obtain ⟨outside, idle, mine, solo, calm, clear, unbroken⟩ := h
  have alone : (s.car.place.domain.isNone || s.car.tr.handler) = true := by simp [solo]
  have breakpoint : (s.mapCar (fun c => { c with done := true })).breakpoint = none := if_pos unbroken
  have noteBreak : (s.mapCar (fun c => { c with done := true })).noteBreak = s.mapCar (fun c => { c with done := true }) := if_pos unbroken
  have turn : s.carTurn = (s.mapCar (fun c => { c with done := true })).soloTurn := if_pos alone
  unfold step State.advance
  rw [outside]
  dsimp only
  rw [idle]
  dsimp only
  rw [if_pos mine, turn]
  unfold State.soloTurn
  rw [calm]
  dsimp only
  rw [breakpoint, noteBreak]
  exact if_neg (by simpa using clear)

theorem State.unitTaken_eq_false {c : Car} {b : Bundle} {n : Nat} (h : s.primaryOf c = none) : s.unitTaken c b n = false := by
  simp [State.unitTaken, State.primaryWants, h]

/-- The bundle of one slot waits for a register to be read again, or has the verdict of its slot (R454). -/
theorem State.judge_single (primary : s.primaryOf s.src = none) (slot : slotOf i s = some p) :
    s.judge (.single fs i) = if !(s.struck (s.plans (.single fs i))).isEmpty && !p.plan.illegal && !p.plan.priv then .wait
      else s.verdict [p.plan] := by
  unfold State.judge
  dsimp only
  rw [State.unitTaken_eq_false primary]
  generalize s.struck (s.plans (.single fs i)) = rs
  rw [State.plans_single slot]
  exact State.verdict_held p.plan (!rs.isEmpty)

/-- A bundle that waits is neither illegal nor privileged. -/
theorem State.legal_of_judge_wait (primary : s.primaryOf s.src = none) (slot : slotOf i s = some p)
    (wait : s.judge (.single fs i) = .wait) : p.plan.illegal = false ∧ p.plan.priv = false := by
  rw [State.judge_single primary slot] at wait
  split at wait
  · simp_all
  · simpa using State.verdict_wait wait

theorem State.struck_withUnits {k : Units} {q : SlotOp} (alike : p.plan.Alike q.plan) (slot : slotOf i s.openBundle = some p)
    (slot' : slotOf i (s.withUnits k).openBundle = some q) :
    (s.withUnits k).openBundle.struck ((s.withUnits k).openBundle.plans (.single fs i)) =
      s.openBundle.struck (s.openBundle.plans (.single fs i)) := by
  rw [State.plans_single slot, State.plans_single slot']
  simp only [State.struck, List.flatMap_cons, alike.2.2.2]
  rfl

/-- Beside other units the bundle waits for the copy number that it does not get. -/
theorem State.verdict_withUnits {k : Units} {q : SlotOp} (alike : p.plan.Alike q.plan) (legal : p.plan.illegal = false)
    (allowed : p.plan.priv = false) (short : s.freeNumbers < copiesOf [p.plan]) :
    (s.withUnits k).openBundle.verdict [q.plan] = .wait := by
  obtain ⟨illegal, priv, unit, _⟩ := alike
  have numbers : (s.withUnits k).openBundle.freeNumbers = s.freeNumbers := State.freeNumbers_congr rfl rfl rfl
  refine State.verdict_busy (by simp [← illegal, legal]) (by simp [← priv, allowed]) ?_
  have copies : copiesOf [q.plan] = copiesOf [p.plan] := by
    simp only [copiesOf, List.filter_cons, unit]
    split <;> rfl
  have few : decide ((s.withUnits k).openBundle.freeNumbers < copiesOf [q.plan]) = true := by simpa [numbers, copies] using short
  exact (congrArg (_ || ·) few).trans (Bool.or_true _)

/-- The state in which the bundle's wants are noted: beside other units, where the bundle waits for a copy number. -/
theorem State.noteWants_cases (slot : slotOf i s.openBundle = some p) :
    s.noteWants (.single fs i) = s ∨ ∃ k, s.noteWants (.single fs i) = s.withUnits k ∧ s.freeNumbers < copiesOf [p.plan] ∧
      s.openBundle.judge (.single fs i) = .wait := by
  have copies : copiesOf (s.openBundle.plans (.single fs i)) = copiesOf [p.plan] := by rw [State.plans_single slot]; rfl
  unfold State.noteWants
  dsimp only
  rw [copies]
  split
  case isTrue h => exact .inr ⟨_, rfl, h⟩
  case isFalse => exact .inl rfl

/-- What stands once the wants of a bundle of one slot are noted: one that waits goes on to wait, for the same registers. -/
structure State.Noted (s t : State) (fs : List Framed) (i : Instr) (q : SlotOp) : Prop where
  units : ∃ k, t = s.withUnits k
  slot : slotOf i t.openBundle = some q
  still : s.openBundle.judge (.single fs i) ≠ .wait → t = s
  waits : s.openBundle.judge (.single fs i) = .wait → t.openBundle.judge (.single fs i) = .wait
  struck : t.openBundle.struck (t.openBundle.plans (.single fs i)) = s.openBundle.struck (s.openBundle.plans (.single fs i))

theorem State.noted_single (primary : s.primaryOf s.car = none) (slot : slotOf i s.openBundle = some p) :
    ∃ q, s.Noted (s.noteWants (.single fs i)) fs i q := by
  rcases State.noteWants_cases (fs := fs) slot with same | ⟨k, noted, short, wait⟩
  · rw [same]
    exact ⟨p, ⟨s.car.units, rfl⟩, slot, fun _ => rfl, id, rfl⟩
  · rw [noted]
    obtain ⟨q, slot', alike⟩ := slotOf_alike (k := k) slot
    obtain ⟨legal, allowed⟩ := State.legal_of_judge_wait (State.primaryOf_openBundle primary) slot wait
    refine ⟨q, ⟨k, rfl⟩, slot', fun moves => absurd wait moves, fun _ => ?_, State.struck_withUnits alike slot slot'⟩
    rw [State.judge_single (State.primaryOf_openBundle (State.primaryOf_withUnits primary)) slot',
      State.verdict_withUnits alike legal allowed short, ite_self]

/-- A bundle of one slot that does not issue, and reads no register again, does what its slot does at the state in which it has begun. -/
theorem State.attempt_held {b : Bundle} {v : Verdict} {t : State} (outlook : s.car.fetch = .ok b) (verdict : s.openBundle.judge b = v)
    (held : v ≠ .go) (t_eq : s.noteWants b = t) : s.attempt true = .next ((t.rereads b).openBundle.settle v) := by
  unfold State.attempt State.outlook
  rw [outlook]
  dsimp only
  rw [verdict, ← t_eq]
  cases v with
  | go => exact absurd rfl held
  | wait | trap _ | doom | walk _ => rfl

/-- Nothing is read again. -/
theorem State.rereads_eq_self {b : Bundle} (h : s.openBundle.struck (s.openBundle.plans b) = [] ∨ s.openBundle.judge b ≠ .wait) :
    s.rereads b = s := by
  refine if_pos ?_
  rcases h with none | moves
  · simp [none]
  · simp [moves]

theorem State.leaves_eq {b : Bundle} (fetch : s.car.fetch = .ok b) :
    s.leaves = match s.openBundle.judge b with
      | .wait => false
      | .walk _ => false
      | _ => true := by
  unfold State.leaves State.outlook
  rw [fetch]
  dsimp only
  cases s.openBundle.judge b <;> rfl

theorem State.tryIssue_eq {t : State} (attempt : s.attempt true = .next t) :
    s.tryIssue = .next (if s.leaves then t.afterBundle s.car.pc else t) := by
  unfold State.tryIssue
  rw [attempt]

/-! Registers that are read again (R454). -/

/-- The physical registers among which is `n`. -/
def Car.hits (c : Car) (rs : List SReg) (n : Fin 72) : Bool := rs.any (fun r => c.physS r == n)

/-- A register that is read again has its parity mark cleared, and is poisoned when it was struck again. -/
theorem Car.reread_marks (c : Car) (r : SReg) (n : Fin 72) :
    (c.reread r).marks.parityS.getLsbD n = (c.marks.parityS.getLsbD n && !(c.physS r == n)) ∧
    (c.reread r).marks.againS.getLsbD n = (c.marks.againS.getLsbD n && !(c.physS r == n)) ∧
    (c.reread r).marks.poisonS.getLsbD n = (c.marks.poisonS.getLsbD n || (c.marks.againS.getLsbD n && (c.physS r == n))) := by
  have one : (1#72 <<< (c.physS r).val).getLsbD n = (c.physS r == n) := by
    rw [Bool.eq_iff_iff, beq_iff_eq, Fin.ext_iff]
    simp only [BitVec.getLsbD_shiftLeft, BitVec.getLsbD_one, Bool.and_eq_true, decide_eq_true_eq, Bool.not_eq_true', decide_eq_false_iff_not]
    omega
  have inside : decide (n.val < 72) = true := decide_eq_true n.isLt
  simp only [Car.reread, BitVec.getLsbD_and, BitVec.getLsbD_or, BitVec.getLsbD_not, one, inside, Bool.true_and, and_self]

theorem Car.rereadAll_marks (rs : List SReg) : ∀ (c : Car) (n : Fin 72),
    (rs.foldl Car.reread c).marks.parityS.getLsbD n = (c.marks.parityS.getLsbD n && !c.hits rs n) ∧
    (rs.foldl Car.reread c).marks.againS.getLsbD n = (c.marks.againS.getLsbD n && !c.hits rs n) ∧
    (rs.foldl Car.reread c).marks.poisonS.getLsbD n = (c.marks.poisonS.getLsbD n || (c.marks.againS.getLsbD n && c.hits rs n)) := by
  induction rs with
  | nil => simp [Car.hits]
  | cons r rs ih =>
    intro c n
    obtain ⟨parity, again, poison⟩ := ih (c.reread r) n
    obtain ⟨parity', again', poison'⟩ := c.reread_marks r n
    have hits : (c.reread r).hits rs n = c.hits rs n := rfl
    have all : c.hits (r :: rs) n = ((c.physS r == n) || c.hits rs n) := rfl
    rw [List.foldl_cons, parity, again, poison, parity', again', poison', hits, all]
    cases c.marks.parityS.getLsbD n <;> cases c.marks.againS.getLsbD n <;> cases c.marks.poisonS.getLsbD n <;>
      cases (c.physS r == n) <;> simp

theorem Car.rereadAll_frame (rs : List SReg) : ∀ c : Car, (rs.foldl Car.reread c).tr = c.tr ∧ (rs.foldl Car.reread c).pc = c.pc := by
  induction rs with
  | nil => exact fun _ => ⟨rfl, rfl⟩
  | cons r rs ih => exact fun c => ih (c.reread r)

theorem State.rereads_struck {b : Bundle} {rs : List SReg} (struck : s.openBundle.struck (s.openBundle.plans b) = rs) (some : rs ≠ [])
    (wait : s.openBundle.judge b = .wait) :
    (s.rereads b).car = rs.foldl Car.reread s.car ∧ (s.rereads b).dev.mem = s.dev.mem := by
  unfold State.rereads
  dsimp only
  rw [struck, wait, if_neg (by simpa using some)]
  split <;> exact ⟨rfl, rfl⟩

end Sys2Proof.Machine

namespace Sys2Proof.Machine
variable {s : State} {i : Instr} {p : SlotOp} {fs : List Framed}

/-! The turn of a car whose bundle is one slot. -/

/-- It issues. -/
theorem State.tryIssue_go (fetch : s.car.fetch = .ok (.single fs i)) (go : s.openBundle.judge (.single fs i) = .go) :
    ∃ t, exec i (s.openBundle.takeUnits (.single fs i)) = .next t ∧ s.tryIssue = .next (t.closeBundle.afterBundle s.car.pc) := by
  obtain ⟨w, ls, rfl, decodes⟩ := frames_of_decodeFramed (Car.decodes_of_fetch fetch)
  obtain ⟨t, ran, _⟩ := (State.canon_any _).exec i (s := s.openBundle.takeUnits (.single [(w, ls)] i))
  have issued : s.issueBundle (.single [(w, ls)] i) = .next t.closeBundle := by
    unfold State.issueBundle
    rw [Bundle.order_one (slotClass_lt_of_decodeSlot decodes), runSlots_one, State.takeUnits_first, ran]
  have attempt : s.attempt true = .next t.closeBundle := by
    unfold State.attempt State.outlook
    rw [fetch]
    dsimp only
    rw [go]
    exact issued
  have leaves : s.leaves = true := by rw [State.leaves_eq fetch, go]
  refine ⟨t, ran, ?_⟩
  rw [State.tryIssue_eq attempt, leaves]
  rfl

/-- It waits for a unit or an operand, or walks: what the instruction answers at the state in which the bundle has begun. -/
theorem State.tryIssue_waits (primary : s.primaryOf s.car = none) (slot : slotOf i s.openBundle = some p)
    (fetch : s.car.fetch = .ok (.single fs i))
    (waits : s.openBundle.judge (.single fs i) = .wait ∧ s.openBundle.struck (s.openBundle.plans (.single fs i)) = [] ∨
      ∃ va, s.openBundle.judge (.single fs i) = .walk va) :
    s.tryIssue = exec i (s.noteWants (.single fs i)).openBundle := by
  obtain ⟨q, noted⟩ := State.noted_single (fs := fs) primary slot
  obtain ⟨k, shape⟩ := noted.units
  have primary' : (s.noteWants (.single fs i)).openBundle.primaryOf (s.noteWants (.single fs i)).openBundle.src = none :=
    State.primaryOf_openBundle (by rw [shape]; exact State.primaryOf_withUnits primary)
  obtain ⟨v, held, stays, judge, judged, sound⟩ : ∃ v, v ≠ .go ∧ s.leaves = false ∧ s.openBundle.judge (.single fs i) = v ∧
      (s.noteWants (.single fs i)).openBundle.judge (.single fs i) = v ∧
      (s.openBundle.struck (s.openBundle.plans (.single fs i)) = [] ∨ v ≠ .wait) := by
    rw [State.leaves_eq fetch]
    rcases waits with ⟨wait, none⟩ | ⟨va, walk⟩
    · exact ⟨.wait, nofun, by rw [wait], wait, noted.waits wait, .inl none⟩
    · have still : s.noteWants (.single fs i) = s := noted.still (by rw [walk]; nofun)
      exact ⟨.walk va, nofun, by rw [walk], walk, by rw [still, walk], .inr nofun⟩
  have again : (s.noteWants (.single fs i)).rereads (.single fs i) = s.noteWants (.single fs i) := by
    refine State.rereads_eq_self ?_
    rw [noted.struck, judged]
    exact sound
  rw [State.tryIssue_eq (State.attempt_held fetch judge held rfl), stays, again]
  refine (exec_settles noted.slot ?_ held).symm
  rw [State.judge_single primary' noted.slot] at judged
  split at judged
  case isTrue hold =>
    rw [noted.struck] at hold
    rcases sound with none | moves
    · simp [none] at hold
    · exact absurd judged.symm moves
  case isFalse => exact judged

/-- It traps or dooms: what the instruction answers, and the end of a step of the debugger. -/
theorem State.tryIssue_leaves (primary : s.primaryOf s.car = none) (slot : slotOf i s.openBundle = some p)
    (fetch : s.car.fetch = .ok (.single fs i))
    (leaves : s.openBundle.judge (.single fs i) = .doom ∨ ∃ k, s.openBundle.judge (.single fs i) = .trap k) :
    ∃ t, exec i (s.noteWants (.single fs i)).openBundle = .next t ∧ s.tryIssue = .next (t.afterBundle s.car.pc) := by
  obtain ⟨q, noted⟩ := State.noted_single (fs := fs) primary slot
  obtain ⟨v, go, wait, judge, left⟩ : ∃ v, v ≠ .go ∧ v ≠ .wait ∧ s.openBundle.judge (.single fs i) = v ∧ s.leaves = true := by
    rw [State.leaves_eq fetch]
    rcases leaves with doom | ⟨k, trap⟩
    · exact ⟨.doom, nofun, nofun, doom, by rw [doom]⟩
    · exact ⟨.trap k, nofun, nofun, trap, by rw [trap]⟩
  have still : s.noteWants (.single fs i) = s := noted.still (by rw [judge]; exact wait)
  have verdict : s.openBundle.verdict [p.plan] = v := by
    have judge' := judge
    rw [State.judge_single (State.primaryOf_openBundle primary) slot] at judge'
    split at judge'
    · exact absurd judge'.symm wait
    · exact judge'
  rw [still]
  refine ⟨_, exec_settles slot verdict go, ?_⟩
  rw [State.tryIssue_eq (State.attempt_held fetch judge go still), left, State.rereads_eq_self (.inr (by rw [judge]; exact wait))]
  rfl

theorem Car.stand_parityFails (c : Car) (n : Nat) (r : SReg) : (c.stand n).parityFails r = c.parityFails r := rfl

theorem Car.stand_poisonS (c : Car) (n : Nat) (r : SReg) : (c.stand n).poisonS r = c.poisonS r := rfl

/-- What stands when a bundle that has begun waits. -/
theorem State.openBundle_stays (s : State) : s.openBundle.settle .wait = { s with old := none, car := s.car.stand s.now } := rfl

/-- It waits a cycle for registers that are read again. -/
theorem State.tryIssue_rereads (primary : s.primaryOf s.car = none) (slot : slotOf i s.openBundle = some p)
    (fetch : s.car.fetch = .ok (.single fs i)) (wait : s.openBundle.judge (.single fs i) = .wait)
    (some : s.openBundle.struck (s.openBundle.plans (.single fs i)) ≠ []) :
    ∃ t, s.tryIssue = .next t ∧ t.old = none ∧ t.car.pc = s.car.pc ∧ t.dev.mem = s.dev.mem ∧
      ∀ o ∈ s.openBundle.struck (s.openBundle.plans (.single fs i)), t.car.parityFails o = false ∧
        t.car.poisonS o = (s.car.poisonS o || s.car.marks.againS.getLsbD (s.car.physS o).val) := by
  obtain ⟨q, noted⟩ := State.noted_single (fs := fs) primary slot
  obtain ⟨k, shape⟩ := noted.units
  have stays : s.leaves = false := by rw [State.leaves_eq fetch, wait]
  obtain ⟨car, mem⟩ := State.rereads_struck noted.struck some (noted.waits wait)
  generalize rs_eq : s.openBundle.struck (s.openBundle.plans (.single fs i)) = rs at *
  obtain ⟨tr, pc⟩ := Car.rereadAll_frame rs (s.withUnits k).car
  refine ⟨((s.noteWants (.single fs i)).rereads (.single fs i)).openBundle.settle .wait, ?_, State.rollback_old _, ?_, ?_, ?_⟩
  · rw [State.tryIssue_eq (State.attempt_held fetch wait nofun rfl), stays]
    rfl
  · show ((s.noteWants (.single fs i)).rereads (.single fs i)).car.pc = s.car.pc
    rw [car, shape, pc]
    rfl
  · show ((s.noteWants (.single fs i)).rereads (.single fs i)).dev.mem = s.dev.mem
    rw [mem, shape]
    rfl
  · intro o mem
    obtain ⟨parity, _, poison⟩ := Car.rereadAll_marks rs (s.withUnits k).car (s.car.physS o)
    have hit : (s.withUnits k).car.hits rs (s.car.physS o) = true := List.any_eq_true.mpr ⟨o, mem, beq_self_eq_true _⟩
    have nonzero : o ≠ 0 := by
      rintro rfl
      rw [← rs_eq] at mem
      obtain ⟨x, _, hx⟩ := List.mem_filterMap.mp mem
      split at hx
      · split at hx
        case isTrue fails => cases hx; simp [Car.parityFails] at fails
        case isFalse => cases hx
      · cases hx
    have zero : (o != 0) = true := bne_iff_ne.mpr nonzero
    have phys : (rs.foldl Car.reread (s.withUnits k).car).physS o = s.car.physS o := by
      unfold Car.physS
      rw [tr]
      rfl
    constructor
    · rw [State.openBundle_stays, car, shape, Car.stand_parityFails, Car.parityFails, phys, parity, hit, zero]
      simp
    · rw [State.openBundle_stays, car, shape, Car.stand_poisonS, Car.poisonS, Car.poisonS, phys, poison, hit, zero, Bool.and_true, Bool.true_and, Bool.true_and]
      rfl

theorem State.afterBundle_eq_self {t : State} {pc : BitVec 17} (free : (t.debugOf t.car).stat.getLsbD 8 = false) : t.afterBundle pc = t :=
  if_neg (by simpa [Debug.stepping] using free)

theorem State.closeBundle_eq_self {t : State} (old : t.old = none) : t.closeBundle = t := by
  unfold State.closeBundle
  rw [old]

end Sys2Proof.Machine

namespace Sys2Proof.Proofs
open Sys2Proof.Machine

/-- Settles O56: the turn of a car whose bundle is one slot, by what becomes of the bundle. -/
theorem stepRunsTheDecodedInstruction : Obligations.StepRunsTheDecodedInstruction := by
  unfold Obligations.StepRunsTheDecodedInstruction
  intro i fs s about primary fetch b r u w pc
  have turn : step s = r.tryIssue := State.step_of_aboutToIssue about
  obtain ⟨w', ls, rfl, decodes⟩ := frames_of_decodeFramed (Car.decodes_of_fetch fetch)
  obtain ⟨p, slot⟩ := isSlot_of_decodeSlot decodes u
  have primary' : r.primaryOf r.car = none := by
    rw [State.primaryOf_eq_none_iff] at primary ⊢
    exact primary
  obtain ⟨q, noted⟩ := State.noted_single (fs := [(w', ls)]) primary' slot
  obtain ⟨k, shape⟩ := noted.units
  rw [turn]
  refine ⟨rfl, rfl, rfl, State.tryIssue_go fetch, State.tryIssue_waits primary' slot fetch, State.tryIssue_rereads primary' slot fetch,
    State.tryIssue_leaves primary' slot fetch, fun k' => ?_, fun t => State.afterBundle_eq_self, fun t => State.closeBundle_eq_self⟩
  have wanted : w = (r.withUnits k).openBundle := congrArg State.openBundle shape
  rw [wanted]
  exact ⟨rfl, rfl, rfl⟩

end Sys2Proof.Proofs

namespace Sys2Proof.Machine
open Sys2Proof.Claims

/-! Values of the integer operations on registers (R125, R126). -/

variable {n : Nat} {x y : BitVec n}

theorem min_signed : (if x.slt y then x else y) = if x.toInt ≤ y.toInt then x else y := by
  rcases lt_trichotomy x.toInt y.toInt with lt | eq | gt
  · rw [if_pos (BitVec.slt_iff_toInt_lt.mpr lt), if_pos lt.le]
  · cases BitVec.eq_of_toInt_eq eq
    simp
  · rw [if_neg (fun h => (BitVec.slt_iff_toInt_lt.mp h).not_gt gt), if_neg gt.not_ge]

theorem max_signed : (if x.slt y then y else x) = if x.toInt ≤ y.toInt then y else x := by
  rcases lt_trichotomy x.toInt y.toInt with lt | eq | gt
  · rw [if_pos (BitVec.slt_iff_toInt_lt.mpr lt), if_pos lt.le]
  · cases BitVec.eq_of_toInt_eq eq
    simp
  · rw [if_neg (fun h => (BitVec.slt_iff_toInt_lt.mp h).not_gt gt), if_neg gt.not_ge]

theorem min_unsigned : (if x < y then x else y) = if x.toNat ≤ y.toNat then x else y := by
  rcases lt_trichotomy x.toNat y.toNat with lt | eq | gt
  · rw [if_pos (BitVec.lt_def.mpr lt), if_pos lt.le]
  · cases BitVec.eq_of_toNat_eq eq
    simp
  · rw [if_neg (fun h => (BitVec.lt_def.mp h).not_gt gt), if_neg gt.not_ge]

theorem max_unsigned : (if x < y then y else x) = if x.toNat ≤ y.toNat then y else x := by
  rcases lt_trichotomy x.toNat y.toNat with lt | eq | gt
  · rw [if_pos (BitVec.lt_def.mpr lt), if_pos lt.le]
  · cases BitVec.eq_of_toNat_eq eq
    simp
  · rw [if_neg (fun h => (BitVec.lt_def.mp h).not_gt gt), if_neg gt.not_ge]

theorem toNat_mod_64 (y : Word) : y.toNat % 64 = (y.extractLsb' 0 6).toNat := by simp [BitVec.extractLsb'_toNat]

theorem toNat_mod_32 (y : Word) : (y.setWidth 32).toNat % 32 = (y.extractLsb' 0 5).toNat := by
  simp [BitVec.extractLsb'_toNat, Nat.mod_mod_of_dvd]

/-! The counts. -/

theorem countsLeading_clzNat (n : Nat) (x : BitVec n) : CountsLeading n (clzNat n x.toNat) x := by
  unfold clzNat
  split
  case isTrue zero =>
    have : x = 0#n := BitVec.eq_of_toNat_eq zero
    subst this
    exact ⟨le_rfl, fun j _ _ => BitVec.getLsbD_zero, fun h => absurd h (lt_irrefl _)⟩
  case isFalse nonzero =>
    have top : x.toNat.log2 < n := (Nat.log2_lt nonzero).mpr x.isLt
    refine ⟨by omega, fun j low high => ?_, fun _ => ?_⟩
    · have : x.toNat < 2 ^ j := (Nat.log2_lt nonzero).mp (by omega)
      exact Nat.testBit_lt_two_pow this
    · have : n - 1 - (n - 1 - x.toNat.log2) = x.toNat.log2 := by omega
      rw [this]
      exact Nat.testBit_log2 nonzero

theorem popNat_eq (n : Nat) : ∀ x : Nat, popNat n x = ((List.range n).filter (fun j => x.testBit j)).length := by
  induction n with
  | zero => exact fun _ => rfl
  | succ n ih =>
    intro x
    rw [popNat, ih, List.range_succ_eq_map, List.filter_cons, List.filter_map, Nat.testBit_zero]
    simp only [Function.comp_def, Nat.testBit_succ]
    rcases Nat.mod_two_eq_zero_or_one x with h | h <;> simp [h, Nat.add_comm]

theorem opPopc_toNat (n : Nat) (x : BitVec n) : popNat n x.toNat = ones n x := popNat_eq n x.toNat

theorem countsTrailing_ctzNat (n : Nat) (x : BitVec n) : CountsTrailing n (ctzNat n x.toNat) x := by
  have count : ∀ (n v : Nat), ctzNat n v ≤ n ∧ (∀ j < ctzNat n v, v.testBit j = false) ∧ (ctzNat n v < n → v.testBit (ctzNat n v) = true) := by
    intro n
    induction n with
    | zero => exact fun _ => ⟨le_rfl, nofun, nofun⟩
    | succ n ih =>
      intro v
      obtain ⟨le, below, at'⟩ := ih (v / 2)
      unfold ctzNat
      split
      case isTrue odd => exact ⟨Nat.zero_le _, nofun, fun _ => by simpa using odd⟩
      case isFalse even =>
        refine ⟨by omega, fun j hj => ?_, fun h => ?_⟩
        · cases j with
          | zero => simpa using even
          | succ j => exact (Nat.testBit_succ _ _).trans (below j (by omega))
        · rw [Nat.add_comm]
          exact (Nat.testBit_succ _ _).trans (at' (by omega))
  exact count n x.toNat

/-- A count of at most 32 in the low half is not negative. -/
theorem signExtend_ofNat_small {c : Nat} (small : c ≤ 32) : (BitVec.ofNat 32 c).signExtend 64 = BitVec.ofNat 64 c := by
  interval_cases c <;> rfl

/-- A count at the width that md names. -/
theorem atWidth_count {w : Bool} {f : (n : Nat) → BitVec n → Nat} (small : ∀ n z, f n z ≤ n) (x : Word) :
    atWidth w (fun n z _ => BitVec.ofNat n (f n z)) x 0#64 = BitVec.ofNat 64 (if w then f 32 (x.setWidth 32) else f 64 x) := by
  cases w
  · rfl
  · exact signExtend_ofNat_small (small 32 _)

theorem ones_le (n : Nat) (x : BitVec n) : ones n x ≤ n :=
  (List.length_filter_le _ _).trans_eq List.length_range

/-! The bit fields. -/

theorem fieldOf_wide (y : Word) : fieldOf 64 y = fieldPlace false y := by
  have width : (y.extractLsb' 8 6).toNat = y.toNat / 256 % 64 := by simp [BitVec.extractLsb'_toNat, Nat.shiftRight_eq_div_pow]
  have zero : y.extractLsb' 8 6 = 0#6 ↔ y.toNat / 256 % 64 = 0 := by rw [← width, ← BitVec.toNat_inj]; rfl
  unfold fieldOf fieldPlace
  simp only [toNat_mod_64, width, zero, Bool.false_eq_true, if_false]

theorem fieldOf_narrow (y : Word) : fieldOf 32 (y.setWidth 32) = fieldPlace true y := by
  have width : (y.extractLsb' 8 5).toNat = (y.setWidth 32).toNat / 256 % 32 := by
    rw [BitVec.extractLsb'_toNat, BitVec.toNat_setWidth, Nat.shiftRight_eq_div_pow]
    omega
  have zero : y.extractLsb' 8 5 = 0#5 ↔ (y.setWidth 32).toNat / 256 % 32 = 0 := by rw [← width, ← BitVec.toNat_inj]; rfl
  unfold fieldOf fieldPlace
  simp only [toNat_mod_32, width, zero, if_true]

/-- The low ones of a field. -/
theorem getLsbD_fieldMask {n w j : Nat} (fits : w ≤ n) : (BitVec.ofNat n (2 ^ w - 1)).getLsbD j = decide (j < w) := by
  rw [BitVec.getLsbD_ofNat, Nat.testBit_two_pow_sub_one]
  by_cases h : j < w
  · simp [h, h.trans_le fits]
  · simp [h]

theorem fieldOf_le (n : Nat) (y : BitVec n) (pos : 0 < n) : (fieldOf n y).2 ≤ n := by
  have := Nat.mod_lt (y.toNat / 256) pos
  unfold fieldOf
  dsimp only
  split <;> omega

theorem getLsbD_opBfx (pos : 0 < n) (j : Nat) :
    (opBfx n x y).getLsbD j = (decide (j < (fieldOf n y).2) && x.getLsbD ((fieldOf n y).1 + j)) := by
  rw [opBfx, BitVec.getLsbD_and, BitVec.getLsbD_ushiftRight, getLsbD_fieldMask (fieldOf_le n y pos), Bool.and_comm]

theorem getLsbD_opBfi {old : BitVec n} (pos : 0 < n) {j : Nat} (inside : j < n) :
    (opBfi n old x y).getLsbD j = if (fieldOf n y).1 ≤ j ∧ j < (fieldOf n y).1 + (fieldOf n y).2 then x.getLsbD (j - (fieldOf n y).1)
      else old.getLsbD j := by
  have mask := getLsbD_fieldMask (j := j - (fieldOf n y).1) (fieldOf_le n y pos)
  rw [opBfi]
  simp only [BitVec.getLsbD_or, BitVec.getLsbD_and, BitVec.getLsbD_not, BitVec.getLsbD_shiftLeft, mask, inside, decide_true, Bool.true_and]
  split
  case isTrue h => simp [h.1.not_gt, show j - (fieldOf n y).1 < (fieldOf n y).2 by omega]
  case isFalse h =>
    by_cases low : j < (fieldOf n y).1
    · simp [low]
    · simp [low, show ¬ j - (fieldOf n y).1 < (fieldOf n y).2 by omega]

/-- A field taken out, at the width that md names. -/
theorem atWidth_opBfx (w : Bool) (x y : Word) : ∃ r : BitVec (if w then 32 else 64),
    (∀ j < if w then 32 else 64, r.getLsbD j =
      (decide (j < (fieldPlace w y).2 ∧ (fieldPlace w y).1 + j < if w then 32 else 64) && x.getLsbD ((fieldPlace w y).1 + j))) ∧
    atWidth w opBfx x y = r.signExtend 64 := by
  cases w
  · refine ⟨opBfx 64 x y, fun j _ => ?_, (BitVec.signExtend_eq _).symm⟩
    refine (getLsbD_opBfx (n := 64) (by decide) j).trans ?_
    rw [fieldOf_wide]
    by_cases inside : (fieldPlace false y).1 + j < 64
    · simp [inside]
    · simp [inside, BitVec.getLsbD_of_ge x _ (Nat.not_lt.mp inside)]
  · refine ⟨opBfx 32 (x.setWidth 32) (y.setWidth 32), fun j _ => ?_, rfl⟩
    refine (getLsbD_opBfx (n := 32) (by decide) j).trans ?_
    rw [fieldOf_narrow, BitVec.getLsbD_setWidth]
    by_cases inside : (fieldPlace true y).1 + j < 32 <;> simp [inside]

/-- A field put in, at the width that md names. -/
theorem atWidth_opBfi (w : Bool) (old x y : Word) : ∃ r : BitVec (if w then 32 else 64),
    (∀ j < if w then 32 else 64, r.getLsbD j = if (fieldPlace w y).1 ≤ j ∧ j < (fieldPlace w y).1 + (fieldPlace w y).2
      then x.getLsbD (j - (fieldPlace w y).1) else old.getLsbD j) ∧
    atWidth w (fun n x y => opBfi n (old.setWidth n) x y) x y = r.signExtend 64 := by
  cases w
  · refine ⟨opBfi 64 (old.setWidth 64) x y, fun j inside => ?_, (BitVec.signExtend_eq _).symm⟩
    refine (getLsbD_opBfi (n := 64) (by decide) inside).trans ?_
    rw [fieldOf_wide, BitVec.setWidth_eq]
  · refine ⟨opBfi 32 (old.setWidth 32) (x.setWidth 32) (y.setWidth 32), fun j inside => ?_, rfl⟩
    refine (getLsbD_opBfi (n := 32) (by decide) inside).trans ?_
    have inside' : j < 32 := inside
    have below : j - (fieldPlace true y).1 < 32 := by omega
    rw [fieldOf_narrow, BitVec.getLsbD_setWidth, BitVec.getLsbD_setWidth]
    simp only [inside', below, decide_true, Bool.true_and]

end Sys2Proof.Machine

namespace Sys2Proof.Proofs
open Sys2Proof.Machine Sys2Proof.Claims

/-- The operations on two registers (R125, R126). -/
theorem integerRegisterResults_two : Sys2Proof.Claims.IntegerRegisterResults := by
  intro te w d a b s reads room
  refine ⟨?_, ?_, ?_, ?_, ?_, ?_, ?_, ?_, ?_, ?_, ?_, ?_, ?_, ?_, ?_, ?_, ?_, ?_, ?_⟩
  · exact exec_passes (o := slotNop te s) rfl (planS_passes te (srcs := []) (dsts := []) s.readable_nil (by simp))
  · exact exec_compute_one rfl reads room rfl
  · exact exec_compute_one rfl reads room rfl
  · exact exec_compute_one rfl reads room rfl
  · exact exec_compute_one rfl reads room rfl
  · exact exec_compute_one rfl reads room rfl
  · exact exec_compute_one rfl reads room (atWidth_eq_atMd (by rw [opShl, toNat_mod_64]) (by rw [opShl, toNat_mod_32]))
  · exact exec_compute_one rfl reads room (atWidth_eq_atMd (by rw [opShr, toNat_mod_64]) (by rw [opShr, toNat_mod_32]))
  · exact exec_compute_one rfl reads room (atWidth_eq_atMd (by rw [opSar, toNat_mod_64]) (by rw [opSar, toNat_mod_32]))
  · exact exec_compute_one rfl reads room (atWidth_eq_atMd min_signed min_signed)
  · exact exec_compute_one rfl reads room (atWidth_eq_atMd max_signed max_signed)
  · exact exec_compute_one rfl reads room (atWidth_eq_atMd min_unsigned min_unsigned)
  · exact exec_compute_one rfl reads room (atWidth_eq_atMd max_unsigned max_unsigned)
  · exact exec_compute_one rfl reads room (atWidth_eq_atMd (flag_eq_truth beq_iff_eq) (flag_eq_truth beq_iff_eq))
  · exact exec_compute_one rfl reads room (atWidth_eq_atMd (flag_eq_truth bne_iff_ne) (flag_eq_truth bne_iff_ne))
  · exact exec_compute_one rfl reads room
      (atWidth_eq_atMd (flag_eq_truth BitVec.slt_iff_toInt_lt) (flag_eq_truth BitVec.slt_iff_toInt_lt))
  · exact exec_compute_one rfl reads room (atWidth_eq_atMd (flag_eq_truth BitVec.ult_iff_lt) (flag_eq_truth BitVec.ult_iff_lt))
  · exact exec_compute_one rfl reads room
      (atWidth_eq_atMd (flag_eq_truth BitVec.sle_iff_toInt_le) (flag_eq_truth BitVec.sle_iff_toInt_le))
  · exact exec_compute_one rfl reads room (atWidth_eq_atMd (flag_eq_truth BitVec.ule_iff_le) (flag_eq_truth BitVec.ule_iff_le))

/-- SEL, the counts and the bit fields (R125, R126). -/
theorem selectCountAndFieldResults : Sys2Proof.Claims.SelectCountAndFieldResults := by
  intro te w d a b s reads x y p n f chosen
  have room : s.Room [.s d] := by simp_all [State.Room, State.Readable]
  have reads_a : s.Readable [.s a] := by simp_all
  have reads_ab : s.Readable [.s a, .s b] := by simp_all
  refine ⟨?_, ⟨if w then clzNat 32 p.toNat else clzNat 64 x.toNat, ?_, ?_⟩, ⟨if w then ctzNat 32 p.toNat else ctzNat 64 x.toNat, ?_, ?_⟩, ?_, ?_, ?_⟩
  · refine exec_compute_one rfl reads room ?_
    have pick : (if s.rS d = 0#64 then s.rS b else s.rS a) = chosen := by
      rw [show chosen = if s.rS d ≠ 0#64 then x else y from rfl, ite_not]
    rw [pick]
    rfl
  · cases w
    · exact (BitVec.setWidth_eq x).symm ▸ countsLeading_clzNat 64 x
    · exact (BitVec.setWidth_eq p).symm ▸ countsLeading_clzNat 32 p
  · exact exec_compute_one rfl reads_a room (atWidth_count (f := fun n z => clzNat n z.toNat) (fun n z => (countsLeading_clzNat n z).1) x)
  · cases w
    · exact (BitVec.setWidth_eq x).symm ▸ countsTrailing_ctzNat 64 x
    · exact (BitVec.setWidth_eq p).symm ▸ countsTrailing_ctzNat 32 p
  · exact exec_compute_one rfl reads_a room (atWidth_count (f := fun n z => ctzNat n z.toNat) (fun n z => (countsTrailing_ctzNat n z).1) x)
  · refine exec_compute_one rfl reads_a room ?_
    rw [← opPopc_toNat, ← opPopc_toNat]
    exact atWidth_count (f := fun n z => popNat n z.toNat) (fun n z => (opPopc_toNat n z).trans_le (ones_le n z)) x
  · obtain ⟨r, bits, value⟩ := atWidth_opBfx w x y
    exact ⟨r, bits, exec_compute_one rfl reads_ab room value⟩
  · obtain ⟨r, bits, value⟩ := atWidth_opBfi w (s.rS d) x y
    exact ⟨r, bits, exec_compute_one rfl reads room value⟩

/-- Settles O1: each instruction runs its slot, whose value is the one that R125 and R126 give at its width. -/
theorem integerRegisterResults : Obligations.IntegerRegisterResults := by
  unfold Obligations.IntegerRegisterResults
  exact ⟨integerRegisterResults_two, selectCountAndFieldResults⟩

end Sys2Proof.Proofs

namespace Sys2Proof.Machine
open Sys2Proof.Claims

/-! Branches and calls (R141, R143). -/

section
variable {s : State} {te : Bool} {a : SReg} {off : BitVec 42} {i : Instr} {k : Trap}

/-- Whether a unit is occupied for a slot depends on the unit that it needs. -/
theorem State.unitsBusy_congr {p q : Plan} (unit : p.unit = q.unit) : s.unitsBusy [p] = s.unitsBusy [q] := by
  unfold State.unitsBusy
  simp only [List.filter_cons, List.any_cons, unit]
  congr 3 <;> split <;> rfl

/-- A cause of a slot that nothing else keeps from issuing is a precise trap (R88). -/
theorem exec_cause {o : SlotOp} {p : Plan} (slot : slotOf i s = some o) (sound : p.Passes s) (cause : o.plan = { p with cause := some k }) :
    exec i s = .next (s.preciseTrap k) := by
  obtain ⟨legal, allowed, units, still, reads, room, _, _, _⟩ := sound
  have clean : (p.srcs.any fun r => s.src.isPoisoned r) = false := by
    rw [List.any_eq_false]
    intro r hr
    simp [(reads r hr).2]
  have busy : s.unitsBusy [o.plan] = false := by
    rw [State.unitsBusy_congr (q := p) (by rw [cause])]
    exact units
  refine exec_settles (v := .trap k) slot ?_ nofun
  unfold State.verdict
  rw [busy]
  simp [State.slotCause, cause, legal, allowed, still, reads.full, room.full, clean]

/-- A target at or above 0x2_0000 raises ACCESS (R143). -/
theorem targetCause_of_ge {t : Word} (h : 0x20000 ≤ t.toNat) : targetCause t = some { cause := .access, taddr := t } := by
  have : t.extractLsb' 17 47 ≠ 0#47 := by
    intro zero
    have : t.toNat / 2 ^ 17 % 2 ^ 47 = 0 := by
      simpa [BitVec.extractLsb'_toNat, Nat.shiftRight_eq_div_pow] using congrArg BitVec.toNat zero
    have := t.isLt
    omega
  simp [targetCause, this]

/-- A branch whose condition is `c` (R141). -/
theorem exec_branch {srcs : List SReg} {c : Bool} (slot : slotOf i s = some (s.branch te srcs off c id))
    (reads : s.Readable (srcs.map Opnd.s)) :
    exec i s = .next (if c then (if (s.branchTarget off).toNat < 0x20000 then s.mapCar (fun k => k.jump (s.branchTarget off))
      else s.preciseTrap { cause := .access, taddr := s.branchTarget off }) else s) := by
  have goes (cause : (s.branch te srcs off c id).plan.cause = none) : (s.branch te srcs off c id).plan.Passes s :=
    { planS_passes te (dsts := []) reads s.room_nil with cause := cause }
  cases c with
  | false => exact exec_passes slot (goes rfl)
  | true =>
    by_cases near : (s.branchTarget off).toNat < 0x20000
    · rw [if_pos rfl, if_pos near]
      exact exec_passes slot (goes (targetCause_of_lt near))
    · rw [if_pos rfl, if_neg near]
      exact exec_cause slot (planS_passes te (dsts := []) reads s.room_nil)
        (congrArg (fun k => { planS te srcs [] with cause := k }) (targetCause_of_ge (Nat.not_lt.mp near)))

theorem exec_call_far (room : s.Room [.s 63]) (far : 0x20000 ≤ (s.branchTarget off).toNat) :
    exec (.call te off) s = .next (s.preciseTrap { cause := .access, taddr := s.branchTarget off }) :=
  exec_cause (o := slotCall te off s) rfl (planS_passes te (srcs := []) (dsts := [63]) s.readable_nil room)
    (congrArg (fun k => { planS te [] [63] with cause := k }) (targetCause_of_ge far))

/-- JR goes to an aligned target in instruction memory (R141, R143). -/
theorem exec_jr (reads : s.Readable [.s a]) :
    exec (.jr te a) s = .next (if 0x20000 ≤ (s.rS a).toNat then s.preciseTrap { cause := .access, taddr := s.rS a }
      else if (s.rS a).toNat % 4 ≠ 0 then s.preciseTrap { cause := .align, taddr := s.rS a } else s.mapCar (fun c => c.jump (s.rS a))) := by
  have sound := planS_passes (s := s) te (srcs := [a]) (dsts := []) reads s.room_nil
  have low : ((s.rS a).extractLsb' 0 2).toNat = (s.rS a).toNat % 4 := by simp [BitVec.extractLsb'_toNat]
  have traps {k : Trap} (cause : jumpCause (s.rS a) = some k) : exec (.jr te a) s = .next (s.preciseTrap k) :=
    exec_cause (o := slotJr te a s) rfl sound (congrArg (fun k => { planS te [a] [] with cause := k }) cause)
  split
  case isTrue far => exact traps (by rw [jumpCause, targetCause_of_ge far])
  case isFalse near =>
    have inside := targetCause_of_lt (Nat.not_le.mp near)
    split
    case isTrue odd =>
      refine traps ?_
      rw [jumpCause, inside]
      exact if_pos fun zero => odd (by rw [← low, zero]; rfl)
    case isFalse even =>
      refine exec_passes (o := slotJr te a s) rfl { sound with cause := ?_ }
      show jumpCause (s.rS a) = none
      rw [jumpCause, inside]
      exact if_neg (not_not.mpr (BitVec.eq_of_toNat_eq (y := 0#2) (low.trans (not_ne_iff.mp even))))

end

/-! TRAP, BRK and HALT (R145 to R147). -/

theorem Late.land_frame (c : Car) (l : Late) : (l.land c).place = c.place ∧ (l.land c).tr = c.tr ∧ (l.land c).wait = c.wait ∧
    (l.land c).lastIssue = c.lastIssue := by
  cases l <;> simp [Late.land]

/-- Late writes that land leave what the entry to the handler asks for. -/
theorem Car.landDue_frame (c : Car) : c.landDue.place = c.place ∧ c.landDue.tr = c.tr ∧ c.landDue.wait = c.wait ∧
    c.landDue.lastIssue = c.lastIssue := by
  unfold Car.landDue
  refine List.foldlRecOn (motive := fun k => Car.place k = c.place ∧ k.tr = c.tr ∧ k.wait = c.wait ∧ k.lastIssue = c.lastIssue) _ _ ?_ ?_
  · exact ⟨rfl, rfl, rfl, rfl⟩
  · rintro k ⟨place, tr, wait, issue⟩ l _
    obtain ⟨place', tr', wait', issue'⟩ := Late.land_frame k l.what
    exact ⟨place'.trans place, tr'.trans tr, wait'.trans wait, issue'.trans issue⟩

theorem State.closeBundle_car_frame (s : State) : s.closeBundle.car.place = s.car.place ∧ s.closeBundle.car.tr = s.car.tr ∧
    s.closeBundle.car.wait = s.car.wait ∧ s.closeBundle.car.lastIssue = s.car.lastIssue := by
  unfold State.closeBundle
  split
  · exact ⟨rfl, rfl, rfl, rfl⟩
  · dsimp only
    (repeat' split) <;> exact Car.landDue_frame _

theorem State.rollback_car (s : State) : s.rollback.car = s.src := by
  unfold State.rollback State.src
  split <;> rfl

theorem State.rollback_dev (s : State) : s.rollback.dev = s.srcDev := by
  unfold State.rollback State.srcDev
  split <;> rfl

/-- A slot that needs nothing has its effect. -/
theorem exec_needless {i : Instr} {s : State} {o : SlotOp} (slot : slotOf i s = some o) (te : Bool) (needs : o.plan = { te := te }) :
    exec i s = .next (o.eff s) :=
  exec_passes slot (needs ▸ planS_passes te (srcs := []) (dsts := []) s.readable_nil s.room_nil)

end Sys2Proof.Machine

namespace Sys2Proof.Proofs
open Sys2Proof.Machine Sys2Proof.Claims

/-- Branches and calls (R141, R143). -/
theorem branchResults : Sys2Proof.Claims.BranchResults := by
  intro te a off s reads room t go no
  have target : s.branchTarget off = t := s.branchTarget_eq off
  have always := exec_branch (i := .br te off) (te := te) (srcs := []) (c := true) rfl s.readable_nil
  rw [target] at always
  refine ⟨fun near => ⟨?_, ?_⟩, fun far => ⟨?_, ?_⟩, ?_, ?_, exec_jr reads⟩
  · rw [always, if_pos rfl, if_pos near]
    rfl
  · rw [exec_call_in_range room (by rwa [target]), target]
    rfl
  · rw [always, if_pos rfl, if_neg (Nat.not_lt.mpr far)]
  · rw [exec_call_far room (by rwa [target]), target]
  · rw [exec_branch (te := te) (srcs := [a]) (c := s.rS a != 0#64) rfl reads, target]
    by_cases zero : s.rS a = 0#64 <;> simp only [zero, bne_self_eq_false, if_true, if_false, Bool.false_eq_true]
    rw [if_pos (bne_iff_ne.mpr zero)]
    rfl
  · rw [exec_branch (te := te) (srcs := [a]) (c := s.rS a == 0#64) rfl reads, target]
    by_cases zero : s.rS a = 0#64
    · simp only [zero, beq_self_eq_true, if_true, ne_eq, not_true_eq_false, if_false]
      rfl
    · rw [if_neg (by simpa using zero), if_pos zero]

/-- TRAP enters the handler after its bundle, BRK before it (R145, R146). -/
theorem trapAndBreakEnterTheHandler : Sys2Proof.Claims.TrapAndBreakEnterTheHandler := by
  intro te code s
  constructor
  · intro main main' unmasked waitless c
    obtain ⟨place, tr, wait, issue⟩ := s.closeBundle_car_frame
    have passes : (slotTrap te code s).plan.Passes s :=
      { planS_passes te (srcs := []) (dsts := []) s.readable_nil s.room_nil with spec := main }
    refine ⟨_, exec_passes rfl passes, ?_⟩
    have entry := inHandler_takeTrap (s := s.closeBundle) (by rw [place]; exact main') (by rw [tr]; exact unmasked)
      { cause := .trap, taddr := code.setWidth 64 } s.closeBundle.car.pc s.closeBundle.car.tr.lastPc s.closeBundle.car.lastIssue
    rw [Car.endWadr_of_wait_nil (wait.trans waitless), show s.closeBundle.now = s.now from congrArg Device.now s.closeBundle_dev, issue] at entry
    have eff : (slotTrap te code s).eff s = s.closeBundle.takeTrap { cause := .trap, taddr := code.setWidth 64 } s.closeBundle.car.pc
      s.closeBundle.car.tr.lastPc s.car.lastIssue := by rw [← issue]; rfl
    rw [eff]
    exact entry
  · intro main unmasked waitless
    have trap : exec (.brk te) s = .next (s.preciseTrap (s.here .brk)) :=
      exec_cause (o := slotBrk te s) rfl (planS_passes te (srcs := []) (dsts := []) s.readable_nil s.room_nil) rfl
    refine ⟨_, trap, ?_, ?_⟩
    · rw [State.preciseTrap, State.takeTrap_unmasked (by rwa [State.rollback_car]) (by rwa [State.rollback_car])]
      exact s.rollback_dev
    · have entry := inHandler_takeTrap (s := s.rollback) (by rwa [State.rollback_car]) (by rwa [State.rollback_car])
        (s.here .brk) s.rollback.car.pc s.rollback.car.pc (s.rollback.car.stood.getD s.rollback.now)
      have now : s.rollback.now = s.srcDev.now := congrArg Device.now s.rollback_dev
      rw [now, State.rollback_car, Car.endWadr_of_wait_nil waitless] at entry
      unfold State.preciseTrap
      dsimp only
      rw [now, State.rollback_car]
      exact entry

/-- HALT in user mode (R147). -/
theorem haltEndsTheCar : Sys2Proof.Claims.HaltEndsTheCar := by
  intro te s user
  refine ⟨_, exec_needless rfl te rfl, ?_⟩
  have eff : (slotHalt te s).eff s = (s.mapCar Car.halt).endStreams := if_neg (by simp [user])
  rw [eff]
  refine ⟨rfl, rfl, fun g => ?_, ?_, rfl, rfl, rfl, rfl, rfl⟩
  · show (s.car.halt.arr.groups[g]).win = none
    have all : (BitVec.allOnes 16).getLsbD g = true := BitVec.getLsbD_allOnes.trans (decide_eq_true g.isLt)
    simp only [Car.halt, Arr.discard, Fin.getElem_fin, Vector.getElem_mapFinIdx, all, if_true]
  · show ∀ f ∈ s.car.halt.flight, f.due ≠ none
    intro f hf
    simpa [Option.isSome_iff_ne_none] using List.of_mem_filter hf

/-- Settles O6: branches jump or trap by their targets, TRAP and BRK enter the handler, and HALT stops the car. -/
theorem branchesTrapsAndHalt : Obligations.BranchesTrapsAndHalt := by
  unfold Obligations.BranchesTrapsAndHalt
  exact ⟨branchResults, trapAndBreakEnterTheHandler, haltEndsTheCar⟩

end Sys2Proof.Proofs

namespace Sys2Proof.Machine
open Sys2Proof.Claims

/-! An access that passes its watchpoints (R338). -/

/-- What watchpoints may change: pending causes of the car, the debug blocks, and the speculations that a match dooms. -/
structure Watched (s t : State) : Prop where
  car : t.car = { s.car with tr := { s.car.tr with pending := t.car.tr.pending } }
  dev : t.dev = { s.dev with debug := t.dev.debug, sig := { s.dev.sig with specs := t.dev.sig.specs } }
  peers : t.peers = s.peers
  old : t.old = s.old

theorem Watched.refl (s : State) : Watched s s := ⟨rfl, rfl, rfl, rfl⟩

theorem Car.pend_eq (c : Car) (a : Async) : c.pend a = { c with tr := { c.tr with pending := (c.pend a).tr.pending } } := rfl

theorem Car.pendWatch_eq (c old : Car) (a : Nat) :
    c.pendWatch old a = { c with tr := { c.tr with pending := (c.pendWatch old a).tr.pending } } := by
  unfold Car.pendWatch
  split <;> rfl

theorem State.watched_watchAt (s : State) (t : Target) (n : Nat) (rd wr : Bool) : Watched s (s.watchAt t n rd wr) := by
  unfold State.watchAt
  dsimp only
  split
  · exact .refl s
  · split
    · exact ⟨rfl, rfl, rfl, rfl⟩
    · split
      · exact ⟨Car.pendWatch_eq _ _ _, rfl, rfl, rfl⟩
      · exact ⟨rfl, rfl, rfl, rfl⟩

theorem State.watched_watch (s : State) (ha : Word) (n : Nat) (rd wr : Bool) : Watched s (s.watch ha n rd wr) := s.watched_watchAt _ _ _ _

theorem Device.decodePA_watched (d : Device) (b : List (Nat × Debug)) (p : List Speculation) :
    ({ d with debug := b, sig := { d.sig with specs := p } } : Device).decodePA = d.decodePA := by
  funext rmt sm c pa
  refine Device.decodePA_congr ?_ rmt sm c pa
  rfl

namespace Watched
variable {s t u : State} (h : Watched s t)
include h

theorem trans (g : Watched t u) : Watched s u := by
  refine ⟨?_, ?_, g.peers.trans h.peers, g.old.trans h.old⟩
  · rw [g.car, h.car]
  · rw [g.dev, h.dev]

theorem regs : t.car.regs = s.car.regs := by rw [h.car]
theorem now : t.now = s.now := by
  unfold State.now
  rw [h.dev]

theorem physS (r : SReg) : t.car.physS r = s.car.physS r := by
  rw [h.car]
  rfl

theorem wait : t.car.wait = s.car.wait := by rw [h.car]
theorem eng : t.car.eng = s.car.eng := by rw [h.car]
theorem mem : t.dev.mem = s.dev.mem := by rw [h.dev]
theorem remote : t.dev.remote = s.dev.remote := by rw [h.dev]

/-- What slots read of the car, but for its pending causes. -/
theorem src : ∃ p, t.src = { s.src with tr := { s.src.tr with pending := p } } := by
  unfold State.src
  rw [h.old]
  split
  · exact ⟨_, rfl⟩
  · exact ⟨_, h.car⟩

theorem srcDev : ∃ b p, t.srcDev = { s.srcDev with debug := b, sig := { s.srcDev.sig with specs := p } } := by
  unfold State.srcDev
  rw [h.old]
  split
  · exact ⟨_, _, rfl⟩
  · exact ⟨_, _, h.dev⟩

theorem rS (r : SReg) : t.rS r = s.rS r := by
  obtain ⟨p, src⟩ := h.src
  unfold State.rS
  rw [src]
  rfl

theorem ctl : t.src.ctl = s.src.ctl := by
  obtain ⟨p, src⟩ := h.src
  rw [src]

theorem target (ha : Word) : t.target ha = s.target ha := by
  obtain ⟨p, src⟩ := h.src
  obtain ⟨b, x, srcDev⟩ := h.srcDev
  unfold State.target
  rw [src, srcDev]
  unfold Car.target
  rw [Device.decodePA_watched]
  rfl

theorem sameRegs : SameRegs s t := by
  unfold SameRegs
  rw [h.car, h.peers]
  exact ⟨rfl, rfl, rfl, rfl, rfl, rfl, rfl, rfl, rfl, rfl, rfl⟩

theorem sameBytes : SameBytes s t := by
  unfold SameBytes
  rw [h.car, h.mem, h.remote]
  exact ⟨fun _ => rfl, fun _ => rfl, fun _ => rfl, fun _ _ => rfl⟩

end Watched

/-! A producer of a scalar register starts (R90). -/

section
variable (c : Car) (now : Nat) (r : SReg) (x : Word) (due : Option Nat) (fixed poison : Bool) (ha : Word) (eta : Nat)

theorem getLsbD_mark (m : BitVec 72) (p : Fin 72) : (m ||| (1#72 <<< p.val)).getLsbD p = true := by
  have := p.isLt
  simp

theorem Car.emptyS_startS : r ≠ 0 → (c.startS now r x due fixed poison ha eta).emptyS r = true := by
  intro nonzero
  unfold Car.startS Car.emptyS
  rw [if_neg nonzero]
  simp only [Bool.and_eq_true]
  exact ⟨bne_iff_ne.mpr nonzero, getLsbD_mark _ (c.physS r)⟩

theorem Car.flight_startS (nonzero : r ≠ 0) :
    ∃ f ∈ (c.startS now r x due fixed poison ha eta).flight, f.dest = .s (c.physS r).val x ∧ f.due = due := by
  unfold Car.startS
  rw [if_neg nonzero]
  exact ⟨_, List.mem_cons_self, rfl, rfl⟩

theorem Car.wait_startS : (c.startS now r x due fixed poison ha eta).wait =
    if r = 0 then c.wait else c.wait.map (Wait.without (c.physS r).val) := by
  unfold Car.startS
  split <;> rfl

theorem Car.physS_startS (q : SReg) : (c.startS now r x due fixed poison ha eta).physS q = c.physS q := by
  unfold Car.physS
  rw [Car.startS_tr]

/-- A producer that has started is awaited. -/
theorem awaits_startS (s : State) : Awaits (s.mapCar (fun c => c.startS now r x due fixed poison ha eta)) r x due := by
  intro nonzero
  refine ⟨Car.emptyS_startS _ _ _ _ _ _ _ _ _ nonzero, ?_⟩
  obtain ⟨f, hf, dest, due'⟩ := Car.flight_startS s.car now r x due fixed poison ha eta nonzero
  refine ⟨f, hf, ?_, due'⟩
  rw [dest]
  congr 2
  exact (Car.physS_startS ..).symm

end

/-- What SameRegs says of a step that goes on from it. -/
theorem sameRegs_trans {s t u : State} (h : SameRegs s t) (g : SameRegs t u) : SameRegs s u := by
  obtain ⟨h1, h2, h3, h4, h5, h6, h7, h8, h9, h10, h11⟩ := h
  obtain ⟨g1, g2, g3, g4, g5, g6, g7, g8, g9, g10, g11⟩ := g
  exact ⟨g1.trans h1, g2.trans h2, g3.trans h3, g4.trans h4, g5.trans h5, g6.trans h6, g7.trans h7, g8.trans h8, g9.trans h9, g10.trans h10,
    g11.trans h11⟩

theorem sameRegs_startS (s : State) (now : Nat) (r : SReg) (x : Word) (due : Option Nat) (fixed poison : Bool) (ha : Word) (eta : Nat) :
    SameRegs s (s.mapCar (fun c => c.startS now r x due fixed poison ha eta)) := by
  refine ⟨?_, ?_, ?_, ?_, ?_, ?_, ?_, ?_, ?_, ?_, rfl⟩ <;> simp

end Sys2Proof.Machine

namespace Sys2Proof.Proofs
open Sys2Proof.Machine Sys2Proof.Claims

/-- The needs of a slot that issues are met. -/
theorem exec_issues {s : State} {i : Instr} {p : SlotOp} (slot : slotOf i s = some p) (issues : s.Issues i) :
    exec i s = .next (p.eff s) := by
  obtain ⟨q, slot', passes⟩ := issues
  cases slot.symm.trans slot'
  exact exec_passes slot passes

end Sys2Proof.Proofs

namespace Sys2Proof.Machine
open Sys2Proof.Claims

/-- A car that changes in what holds no byte leaves every byte. -/
theorem sameBytes_mapCar {s t : State} {f : Car → Car} (h : SameBytes s t) (spad : (f t.car).spad = t.car.spad)
    (imem : (f t.car).imem = t.car.imem) : SameBytes s (t.mapCar f) := by
  obtain ⟨mem, remote, code, pad⟩ := h
  refine ⟨mem, remote, ?_, ?_⟩
  · show ∀ a, (f t.car).imem.read a = _
    rw [imem]
    exact code
  · show _ → ∀ a, (f t.car).spad.read a = _
    rw [spad]
    exact pad

theorem Car.emptyS_markEmptyS (c : Car) {r : SReg} (nonzero : r ≠ 0) : (c.markEmptyS r).emptyS r = true := by
  unfold Car.markEmptyS Car.emptyS
  rw [if_neg nonzero]
  simp only [Bool.and_eq_true]
  exact ⟨bne_iff_ne.mpr nonzero, getLsbD_mark _ (c.physS r)⟩

theorem Car.markEmptyS_eq (c : Car) (r : SReg) : ∃ e, c.markEmptyS r = { c with marks := { c.marks with emptyS := e } } := by
  unfold Car.markEmptyS
  split
  · exact ⟨c.marks.emptyS, rfl⟩
  · exact ⟨_, rfl⟩

/-- A wait that begins with its destination empty changes no register. -/
theorem sameRegs_waits (s : State) (r : SReg) (w : Car → Wait) :
    SameRegs s (s.mapCar (fun c => { c.markEmptyS r with wait := (c.markEmptyS r).wait ++ [w (c.markEmptyS r)] })) := by
  obtain ⟨e, marked⟩ := s.car.markEmptyS_eq r
  unfold SameRegs State.mapCar
  dsimp only
  rw [marked]
  exact ⟨rfl, rfl, rfl, rfl, rfl, rfl, rfl, rfl, rfl, rfl, rfl⟩

end Sys2Proof.Machine

namespace Sys2Proof.Proofs
open Sys2Proof.Machine Sys2Proof.Claims

/-- PFS starts a fill or changes nothing (R135). -/
theorem prefetchResults : Sys2Proof.Claims.PrefetchResults := by
  intro te a off s issues
  refine ⟨_, exec_issues rfl issues, ?_⟩
  have eff : (slotPfs te a off s).eff s = match s.prefetchOf (s.rS a) (s.rS a + off.signExtend 64 * 64#64) with
      | some (m, g) => s.mapCar (fun c => { c with
          eng.stash := c.eng.stash.map (fun x => if x.num == m.num then { x with filling := g :: x.filling } else x) })
      | none => s := rfl
  rw [eff]
  generalize s.prefetchOf (s.rS a) (s.rS a + off.signExtend 64 * 64#64) = found
  have same : SameRegs s s := (Watched.refl s).sameRegs
  have bytes : SameBytes s s := (Watched.refl s).sameBytes
  cases found with
  | none => exact ⟨same, bytes, rfl, rfl, rfl⟩
  | some x =>
    refine ⟨same, ⟨bytes.1, bytes.2.1, bytes.2.2.1, fun _ _ => rfl⟩, rfl, rfl, ?_⟩
    exact List.map_congr_left fun y _ => if_congr beq_iff_eq rfl rfl

/-- The drains and the watch of a word (R150, R156). -/
theorem drainAndWatchWaits : Sys2Proof.Claims.DrainAndWatchWaits := by
  intro te sc d a b s
  refine ⟨exec_needless (o := slotDrain te sc s) rfl te rfl, exec_needless (o := slotDrainw te sc s) rfl te rfl, fun issues => ?_⟩
  have watched : Watched s (s.watch (s.rS a) 8 true false) := s.watched_watch _ _ _ _
  refine ⟨_, exec_issues rfl issues, ?_⟩
  have eff : (slotWadr te d a b s).eff s =
      let u := s.watch (s.rS a) 8 true false
      if u.wadrWord (s.rS a) ≠ u.rS b then
        if (u.target (s.rS a)).isLocal then u.mapCar (fun c => c.startS u.now d 0#64 (some (u.now + 4)) false false 0#64 0)
        else u.mapCar (fun c => c.startS u.now d 0#64 none false false (s.rS a) (u.now + u.latency (u.target (s.rS a)).home))
      else u.mapCar (fun c => { c.markEmptyS d with wait := (c.markEmptyS d).wait ++
        [.wadr (s.rS a) (if d = 0 then 0 else ((c.markEmptyS d).physS d).val) (u.rS b) u.now
          (if u.src.ctl.wadrTmo.toNat = 0 then none else some (u.now + u.src.ctl.wadrTmo.toNat * 2000))] }) := rfl
  rw [eff]
  dsimp only
  rw [watched.rS b, watched.target, watched.ctl, watched.now]
  generalize s.watch (s.rS a) 8 true false = u at watched
  split
  case isTrue differs =>
    refine ⟨?_, ?_, fun _ => ⟨?_, ?_⟩, fun same => absurd same differs⟩
    · split <;> exact sameRegs_trans watched.sameRegs (sameRegs_startS ..)
    · split <;> exact sameBytes_mapCar watched.sameBytes (by simp) (by simp)
    · split <;> exact (Car.wait_startS ..).trans (by rw [watched.wait, watched.physS])
    · split <;> exact awaits_startS _ _ _ _ _ _ _ _ _
  case isFalse equal =>
    refine ⟨?_, ?_, fun differs => absurd differs equal, fun _ =>
      ⟨fun nonzero => ?_, if d = 0 then 0 else ((u.car.markEmptyS d).physS d).val, ?_⟩⟩
    · exact sameRegs_trans watched.sameRegs (sameRegs_waits u d (fun c => .wadr (s.rS a)
        (if d = 0 then 0 else (c.physS d).val) (s.rS b) s.now
        (if s.src.ctl.wadrTmo.toNat = 0 then none else some (s.now + s.src.ctl.wadrTmo.toNat * 2000))))
    · obtain ⟨e, marked⟩ := u.car.markEmptyS_eq d
      exact sameBytes_mapCar watched.sameBytes (by rw [marked]) (by rw [marked])
    · exact Car.emptyS_markEmptyS u.car nonzero
    · show (u.car.markEmptyS d).wait ++ _ = _
      obtain ⟨e, marked⟩ := u.car.markEmptyS_eq d
      rw [marked]
      show u.car.wait ++ _ = _
      rw [watched.wait]
      simp only [← BitVec.toNat_inj, BitVec.toNat_ofNat, Nat.zero_mod]

/-- Settles O7: each of these slots has its effect, and what is read and changed stands beside the watchpoints that WADR passes. -/
theorem hintsDrainsAndWatches : Obligations.HintsDrainsAndWatches := by
  unfold Obligations.HintsDrainsAndWatches
  exact ⟨prefetchResults, drainAndWatchWaits⟩

end Sys2Proof.Proofs

namespace Sys2Proof.Machine
open Sys2Proof.Claims
open BitVec (extractLsb'_append_eq_of_add_le extractLsb'_append_eq_of_le extractLsb'_eq_self)

/-! Handles (R22, R23, R151 to R155). -/

/-- A slot that only finds its translation missing freezes its car for the walk (R88, R152). -/
theorem exec_walks {i : Instr} {s : State} {o : SlotOp} {p : Plan} {va : Word} (slot : slotOf i s = some o) (sound : p.Passes s)
    (walk : o.plan = { p with walk := some va }) : exec i s = .next (s.stays.startWalk va) := by
  obtain ⟨legal, allowed, units, still, reads, room, cause, spec, _⟩ := sound
  have clean : (p.srcs.any fun r => s.src.isPoisoned r) = false := by
    rw [List.any_eq_false]
    intro r hr
    simp [(reads r hr).2]
  have busy : s.unitsBusy [o.plan] = false := by
    rw [State.unitsBusy_congr (q := p) (by rw [walk])]
    exact units
  refine exec_settles (v := .walk va) slot ?_ nofun
  unfold State.verdict
  rw [busy]
  simp [State.slotCause, walk, legal, allowed, still, reads.full, room.full, clean, cause, spec]

theorem wfHandle_of {h : Fin 64} (user : 2 ≤ h.val) (exists_ : h.val < 32) : wfHandle h = true := decide_eq_true ⟨user, exists_⟩

theorem hIndex_val {h : Fin 64} (lt : h.val < 32) : (hIndex h).val = h.val := Nat.mod_eq_of_lt lt

/-- A handle that a program may write is a register of the car. -/
theorem Car.handle_of_ge (c : Car) {h : Fin 32} (user : 2 ≤ h.val) : c.handle h = c.regs.h[h] := by
  unfold Car.handle
  rw [if_neg (by rintro rfl; exact absurd user (by decide)), if_neg (by rintro rfl; exact absurd user (by decide))]

theorem leafGrants_iff (leaf : Word) (rd wr : Bool) :
    leafGrants leaf rd wr = true ↔ (rd = true → leaf.getLsbD 2 = true) ∧ (wr = true → leaf.getLsbD 3 = true) := by
  cases rd <;> cases wr <;> simp [leafGrants]

/-- A bit as a field of one bit. -/
theorem getLsbD_eq_extract {n : Nat} (x : BitVec n) (i : Nat) : x.getLsbD i = (x.extractLsb' i 1).getLsbD 0 := by
  simp

/-- The fields of a handle's record as HRD reads it (R22). -/
theorem Handle.word_fields (x : Handle) :
    x.word.getLsbD 63 = x.v ∧ x.word.getLsbD 62 = x.rd ∧ x.word.getLsbD 61 = x.wr ∧ x.word.extractLsb' 59 2 = x.sz ∧
      x.word.getLsbD 58 = x.sm ∧ x.word.getLsbD 57 = x.c ∧ x.word.getLsbD 56 = x.rmt ∧ x.word.extractLsb' 52 4 = 0#4 ∧
      x.word.extractLsb' 16 36 = x.frame ∧ x.word.extractLsb' 0 16 = 0#16 := by
  unfold Handle.word
  rw [getLsbD_eq_extract _ 63, getLsbD_eq_extract _ 62, getLsbD_eq_extract _ 61, getLsbD_eq_extract _ 58, getLsbD_eq_extract _ 57,
    getLsbD_eq_extract _ 56]
  simp (disch := decide) only [extractLsb'_append_eq_of_add_le, extractLsb'_append_eq_of_le, extractLsb'_eq_self, Nat.reduceSub,
    BitVec.getLsbD_ofBool, and_self, decide_true, Bool.true_and]

end Sys2Proof.Machine

namespace Sys2Proof.Proofs
open Sys2Proof.Machine Sys2Proof.Claims

/-- XLT, its four outcomes (R151 to R153). -/
theorem translateResults : Sys2Proof.Claims.TranslateResults := by
  intro te h a md s user exists_ rights reads free idle
  dsimp only
  have sound : (planS te [a] []).Passes s := planS_passes te reads s.room_nil
  have plan (sees : XltSees) (saw : s.src.xltSees (s.rS a) md = sees) : (slotXlt te h a md s).plan = { planS te [a] [] with
      cause := if sees = .fault then some { cause := .xltFault, taddr := s.rS a } else none
      walk := if sees = .miss then some (s.rS a) else none } := by
    simp only [slotXlt, saw, wfHandle_of user exists_, bne_iff_ne.mpr rights, free, Bool.and_true, Bool.not_true]
    rfl
  have faults (saw : s.src.xltSees (s.rS a) md = .fault) :
      exec (.xlt te h a md) s = .next (s.preciseTrap { cause := .xltFault, taddr := s.rS a }) :=
    exec_cause rfl sound (plan _ saw)
  have walks : s.src.eng.walk ≠ .faulted (s.rS a) := by rw [idle]; nofun
  refine ⟨fun high => faults ?_, fun low miss => ?_, fun e low hit => ⟨fun denied => faults ?_, fun granted => ?_⟩⟩
  · simp [Car.xltSees, high]
  · exact exec_walks rfl sound (plan .miss (by simp [Car.xltSees, low, walks, miss]))
  · rw [← leafGrants_iff, Bool.not_eq_true] at denied
    rw [Car.xltSees, if_neg (not_not.mpr low), if_neg walks, hit]
    exact if_neg (by rw [denied]; decide)
  · rw [← leafGrants_iff] at granted
    have saw : s.src.xltSees (s.rS a) md = .hit e := by
      rw [Car.xltSees, if_neg (not_not.mpr low), if_neg walks, hit]
      exact if_pos granted
    refine ⟨e.handle md (s.now + 12), rfl, rfl, rfl, rfl, rfl, rfl, rfl, rfl, ?_, ?_, ?_, ?_⟩
    · intro size; simp [TlbEntry.handle, size]
    · intro size; simp [TlbEntry.handle, size]
    · intro size; simp [TlbEntry.handle, size]
    · refine (exec_passes (o := slotXlt te h a md s) rfl ?_).trans ?_
      · rw [plan _ saw]
        exact { sound with }
      · simp only [slotXlt, saw]

/-- HINV and HRD (R154, R155). -/
theorem handleReadAndInvalidate : Sys2Proof.Claims.HandleReadAndInvalidate := by
  intro te h d s exists_ free room
  refine ⟨fun user => ?_, (s.src.handle (hIndex h)).word, ?_, fun zero => ?_, fun one => ?_, fun user => ?_⟩
  · refine exec_passes (o := slotHinv te h s) rfl ?_
    exact { planS_passes te (srcs := []) (dsts := []) s.readable_nil s.room_nil with
      legal := by simp [slotHinv, wfHandle_of user exists_], still := free }
  · refine exec_passes (o := slotHrd te d h s) rfl ?_
    exact { planS_passes te (srcs := []) (dsts := [d]) s.readable_nil room with
      legal := by simp [slotHrd, exists_], still := free }
  · have : hIndex h = 0 := Fin.ext (by rw [hIndex_val exists_, zero]; rfl)
    rw [this]
    show handle0.word = 0xF800000000000000#64
    decide
  · have : hIndex h = 1 := Fin.ext (by rw [hIndex_val exists_, one]; rfl)
    rw [this]
    show handle1.word = 0xC000000000000000#64
    decide
  · rw [Car.handle_of_ge _ (by rw [hIndex_val exists_]; exact user)]
    exact Handle.word_fields _

/-- Settles O8: an XLT that nothing else holds back does what the look at the TLB says, and HINV and HRD issue. -/
theorem translationAndHandles : Obligations.TranslationAndHandles := by
  unfold Obligations.TranslationAndHandles
  exact ⟨translateResults, handleReadAndInvalidate⟩

end Sys2Proof.Proofs

namespace Sys2Proof.Machine
open Sys2Proof.Claims

/-! Named control registers (R33 to R36). -/

/-- A field of the low bits, read as a word. -/
theorem setWidth_low (x : Word) {n : Nat} (fits : n ≤ 64) :
    (x.extractLsb' 0 n).setWidth 64 = x &&& BitVec.ofNat 64 (2 ^ n - 1) := by
  apply BitVec.eq_of_getLsbD_eq
  intro i inside
  simp only [BitVec.getLsbD_setWidth, BitVec.getLsbD_and, BitVec.getLsbD_extractLsb', getLsbD_fieldMask fits, Nat.zero_add, inside,
    decide_true, Bool.true_and, Bool.and_comm]

/-- WMAP0 is the car's own core (R33). -/
theorem ownCore (core : BitVec 9) : (1#1 ++ core).setWidth 64 = core.setWidth 64 + 512#64 := by
  have lt := core.isLt
  apply BitVec.eq_of_toNat_eq
  rw [BitVec.toNat_setWidth, BitVec.toNat_append, ← Nat.shiftLeft_add_eq_or_of_lt lt, BitVec.toNat_add, BitVec.toNat_setWidth]
  simp only [BitVec.toNat_ofNat, Nat.shiftLeft_eq]
  omega

section
variable (c : Car) (d : Device) {i : BitVec 14} {n : Nat} (lt : n < 16)

/-- The indexes from 0x100 on are those of the two tables of R33. -/
theorem Car.readCtl_wmap (at_ : i.toNat = 0x100 + n) : c.readCtl d i = some ((c.wmap ⟨n, lt⟩).setWidth 64) := by
  unfold Car.readCtl
  rw [at_]
  split
  case h_30 =>
    have entry : (⟨(0x100 + n) % 16, by omega⟩ : Fin 16) = ⟨n, lt⟩ := Fin.ext (by show (0x100 + n) % 16 = n; omega)
    rw [if_pos (by omega), entry]
  all_goals omega

theorem Car.readCtl_wal (at_ : i.toNat = 0x110 + n) : c.readCtl d i = some (c.ctl.wal[n].setWidth 64) := by
  unfold Car.readCtl
  rw [at_]
  split
  case h_30 =>
    have entry : (0x110 + n) % 16 = n := by omega
    rw [if_neg (by omega), if_pos (by omega)]
    simp only [entry]
  all_goals omega

theorem Car.writeCtl_wmap (x : Word) (above : n ≠ 0) (at_ : i.toNat = 0x100 + n) :
    c.writeCtl i x = { c with ctl.wmap := c.ctl.wmap.set n (x.extractLsb' 0 10) } := by
  have entry : (0x100 + n) % 16 = n := by omega
  unfold Car.writeCtl
  rw [at_]
  split
  case h_20 =>
    rw [if_pos (by omega)]
    simp only [entry, if_neg above]
  all_goals omega

theorem Car.writeCtl_wmap_own (x : Word) (at_ : i.toNat = 0x100) : c.writeCtl i x = c := by
  unfold Car.writeCtl
  rw [at_]
  rfl

theorem Car.writeCtl_wal (x : Word) (at_ : i.toNat = 0x110 + n) :
    c.writeCtl i x = { c with ctl.wal := c.ctl.wal.set n (x.extractLsb' 0 8) } := by
  have entry : (0x110 + n) % 16 = n := by omega
  unfold Car.writeCtl
  rw [at_]
  split
  case h_20 =>
    rw [if_neg (by omega), if_pos (by omega)]
    simp only [entry]
  all_goals omega

end

/-- SRD reads what R33 lists at an index. -/
theorem Car.readCtl_of_listed (c : Car) (d : Device) {i : BitVec 14} :
    ∀ e ∈ ctlReads c d, i.toNat = e.1 → c.readCtl d i = some e.2 := by
  simp only [ctlReads, List.forall_mem_append, List.forall_mem_cons]
  refine ⟨⟨⟨?_, ?_, ?_, ?_, ?_, ?_, ?_, ?_, ?_, ?_, ?_, ?_, ?_, ?_, ?_, ?_, ?_, ?_, ?_, ?_, ?_, ?_, ?_, ?_, ?_, ?_, ?_, ?_, ?_, ?_, ?_⟩, ?_⟩, ?_⟩
  case refine_2 =>
    intro at_
    unfold Car.readCtl
    rw [at_]
    cases c.ident.coreClass <;> rfl
  case refine_30 =>
    intro at_
    rw [c.readCtl_wmap d (by decide : 0 < 16) at_]
    exact congrArg some (ownCore c.ident.coreId)
  case refine_31 => nofun
  case refine_32 =>
    intro e listed at_
    obtain ⟨n, _, rfl⟩ := List.mem_map.mp listed
    have n_lt := n.isLt
    rw [c.readCtl_wmap d (by omega : n.val + 1 < 16) (by rw [at_]; omega)]
    exact congrArg (fun y : BitVec 10 => some (y.setWidth 64)) (if_neg (by rw [Fin.ext_iff]; exact Nat.succ_ne_zero _))
  case refine_33 =>
    intro e listed at_
    obtain ⟨n, _, rfl⟩ := List.mem_map.mp listed
    exact c.readCtl_wal d n.isLt at_
  all_goals
    intro at_
    unfold Car.readCtl
    rw [at_]
    rfl

/-- SRD reads nothing else. -/
theorem Car.readCtl_of_unlisted (c : Car) (d : Device) {i : BitVec 14} (unlisted : ∀ e ∈ ctlReads c d, i.toNat ≠ e.1) :
    c.readCtl d i = none := by
  simp only [ctlReads, List.forall_mem_append, List.forall_mem_cons, List.forall_mem_map, List.mem_finRange, forall_const] at unlisted
  obtain ⟨⟨named, wmap⟩, wal⟩ := unlisted
  unfold Car.readCtl
  split
  case h_30 =>
    rw [if_neg, if_neg]
    · intro page
      exact wal ⟨i.toNat % 16, by omega⟩ (by show _ = 272 + i.toNat % 16; omega)
    · intro page
      by_cases first_ : i.toNat = 0x100
      · simp only [first_] at named
        omega
      · exact wmap ⟨i.toNat % 16 - 1, by omega⟩ (by show _ = 257 + (i.toNat % 16 - 1); omega)
  all_goals
    rename_i at_
    simp only [at_] at named
    omega

/-- SWR may write what R33 lists as writable, and nothing else. -/
theorem ctlAccess_of_listed (c : Car) (x : Word) {i : BitVec 14} :
    ∀ e ∈ ctlWrites c x, i.toNat = e.1 → ctlAccess i = if e.2.1 then .handler else .user := by
  simp only [ctlWrites, List.forall_mem_append, List.forall_mem_cons, List.forall_mem_map, List.mem_range]
  refine ⟨⟨⟨?_, ?_, ?_, ?_, ?_, ?_, ?_, ?_, ?_, ?_, ?_, ?_, ?_, ?_, ?_, ?_, ?_, ?_, ?_, ?_, nofun⟩, fun n lt at_ => ?_⟩, fun n lt at_ => ?_⟩
  case refine_21 | refine_22 =>
    unfold ctlAccess
    dsimp only
    rw [if_neg (by omega), if_pos (by omega)]
    exact (if_pos trivial).symm
  all_goals
    intro at_
    unfold ctlAccess
    rw [at_]
    rfl

theorem ctlAccess_of_unlisted (c : Car) (x : Word) {i : BitVec 14} (unlisted : ∀ e ∈ ctlWrites c x, i.toNat ≠ e.1) :
    ctlAccess i = .none := by
  simp only [ctlWrites, List.forall_mem_append, List.forall_mem_cons, List.forall_mem_map, List.mem_range] at unlisted
  obtain ⟨⟨named, wmap⟩, wal⟩ := unlisted
  have no_wmap : ¬(0x100 < i.toNat ∧ i.toNat < 0x110) := fun inside => wmap (i.toNat - 0x101) (by omega) (by omega)
  have no_wal : ¬(0x110 ≤ i.toNat ∧ i.toNat < 0x120) := fun inside => wal (i.toNat - 0x110) (by omega) (by omega)
  unfold ctlAccess
  dsimp only
  rw [if_neg (by omega), if_neg (by omega)]

/-- A write of a named register changes no register of R12, no byte and not the program counter. -/
theorem Car.writeCtl_frame (c : Car) (i : BitVec 14) (x : Word) :
    (c.writeCtl i x).regs = c.regs ∧ (c.writeCtl i x).pc = c.pc ∧ (c.writeCtl i x).spad = c.spad := by
  unfold Car.writeCtl
  (repeat' split) <;> exact ⟨rfl, rfl, rfl⟩

/-- The most recent write of FMT is the one that SRD reads (R36, R93). -/
theorem Car.fmtLatest_lateFmt (c : Car) (x : BitVec 20) : (c.lateFmt x).fmtLatest = x := by
  simp [Car.fmtLatest, Car.lateFmt]

/-- TVEC keeps its low two bits clear and lies in the handler's memory (R33). -/
theorem tvec_read (x : Word) : (0xF#4 ++ x.extractLsb' 2 11 ++ 0#2).setWidth 64 = (x &&& 0x1FFC#64) ||| 0x1E000#64 := by
  ext i inside
  simp only [BitVec.getElem_setWidth, BitVec.getLsbD_append, BitVec.getElem_or, BitVec.getElem_and]
  interval_cases i <;> simp

theorem tcause_read (x : Word) : (x.extractLsb' 16 6 ++ 0#7 ++ x.extractLsb' 0 9).setWidth 64 = x &&& 0x3F01FF#64 := by
  ext i inside
  simp only [BitVec.getElem_setWidth, BitVec.getLsbD_append, BitVec.getElem_and]
  interval_cases i <;> simp

/-- A value held to a range that fits its register. -/
theorem saturate_read (lo hi n : Nat) (x : Word) (fits : hi < 2 ^ n) (n_le : n ≤ 64) (le : lo ≤ hi) :
    (BitVec.ofNat n (saturate lo hi x)).setWidth 64 = BitVec.ofNat 64 (if x.toNat < lo then lo else if hi < x.toNat then hi else x.toNat) := by
  have wide : 2 ^ n ≤ 2 ^ 64 := Nat.pow_le_pow_right (by decide) n_le
  have value : saturate lo hi x = if x.toNat < lo then lo else if hi < x.toNat then hi else x.toNat := by
    show max lo (min hi x.toNat) = _
    split
    · omega
    · split <;> omega
  have small : saturate lo hi x < 2 ^ n := by
    rw [value]
    split
    · omega
    · split <;> omega
  rw [← value]
  apply BitVec.eq_of_toNat_eq
  simp only [BitVec.toNat_setWidth, BitVec.toNat_ofNat, Nat.mod_eq_of_lt small]

/-- SRD reads what SWR has made of a register (R33 to R36). -/
theorem Car.readCtl_writeCtl (c : Car) (d : Device) (x : Word) {i : BitVec 14} :
    ∀ e ∈ ctlWrites c x, i.toNat = e.1 → (c.writeCtl i x).readCtl d i = some e.2.2 := by
  simp only [ctlWrites, List.forall_mem_append, List.forall_mem_cons, List.forall_mem_map, List.mem_range]
  refine ⟨⟨⟨?_, ?_, ?_, ?_, ?_, ?_, ?_, ?_, ?_, ?_, ?_, ?_, ?_, ?_, ?_, ?_, ?_, ?_, ?_, ?_, nofun⟩, fun n lt at_ => ?_⟩, fun n lt at_ => ?_⟩
  case refine_21 =>
    rw [Car.readCtl_wmap _ d (by omega : n + 1 < 16) (by omega), c.writeCtl_wmap (by omega : n + 1 < 16) x (by omega) (by omega)]
    have user : (⟨n + 1, by omega⟩ : Fin 16) ≠ 0 := by rw [Ne, Fin.ext_iff]; exact Nat.succ_ne_zero n
    simp only [Car.wmap, if_neg user, Fin.getElem_fin, Vector.getElem_set_self]
    exact congrArg some (setWidth_low x (by decide))
  case refine_22 =>
    rw [Car.readCtl_wal _ d (by omega : n < 16) at_, c.writeCtl_wal (by omega : n < 16) x at_]
    simp only [Vector.getElem_set_self]
    exact congrArg some (setWidth_low x (by decide))
  case refine_20 =>
    intro at_
    rw [c.writeCtl_wmap_own x at_, c.readCtl_wmap d (by decide : 0 < 16) at_]
    exact congrArg some (ownCore c.ident.coreId)
  all_goals
    intro at_
    unfold Car.writeCtl Car.readCtl
    rw [at_]
  all_goals refine congrArg some ?_
  case refine_1 => exact tvec_read x
  case refine_2 => exact tcause_read x
  case refine_3 => rfl
  case refine_4 | refine_5 | refine_6 | refine_7 | refine_8 | refine_9 | refine_11 | refine_14 | refine_17 | refine_18 | refine_19 =>
    exact setWidth_low x (by decide)
  case refine_10 => exact (congrArg (fun y : BitVec 20 => y.setWidth 64) (c.fmtLatest_lateFmt _)).trans (setWidth_low x (by decide))
  case refine_13 => rfl
  case refine_15 | refine_16 => exact saturate_read _ _ _ x (by decide) (by decide) (by decide)
  case refine_12 =>
    ext j inside
    simp only [BitVec.getElem_setWidth, BitVec.getElem_and, BitVec.getLsbD_and, BitVec.getLsbD_not, BitVec.getElem_not, BitVec.getLsbD_extractLsb']
    rcases Nat.lt_or_ge j 8 with low | high
    · simp [low, BitVec.getLsbD_eq_getElem inside]
    · simp [Nat.not_lt.mpr high, BitVec.getLsbD_of_ge _ _ high]

end Sys2Proof.Machine

namespace Sys2Proof.Proofs
open Sys2Proof.Machine Sys2Proof.Claims

/-- A slot whose only need that is not met is its mode raises PRIV (R71, R77). -/
theorem exec_priv {i : Instr} {s : State} {o : SlotOp} (slot : slotOf i s = some o) (legal : o.plan.illegal = false)
    (priv : o.plan.priv = true) : exec i s = .next (s.preciseTrap (s.here .priv)) :=
  exec_settles (v := .trap (s.here .priv)) slot (by simp [State.verdict, legal, priv]) nofun

/-- A slot that has to wait does so whatever its operands hold (R88). -/
theorem exec_waits {i : Instr} {s : State} {o : SlotOp} (slot : slotOf i s = some o) (legal : o.plan.illegal = false)
    (allowed : o.plan.priv = false) (wait : o.plan.wait = true) : exec i s = .next s.stays :=
  exec_settles (v := .wait) slot (by simp [State.verdict, legal, allowed, wait]) nofun

/-- SRD (R33, R36, R159, R313). -/
theorem srdReadsEveryRegister : Sys2Proof.Claims.SrdReadsEveryRegister := by
  intro te d i s room
  have reads {x : Word} (found : s.src.readCtl s.srcDev i = some x) (free : (i == 0x009#14 && s.acquiring) = false) :
      exec (.srd te d i) s = .next (s.wS d x) := by
    refine (exec_passes (o := slotSrd te d i s) rfl ?_).trans ?_
    · exact { planS_passes te (srcs := []) (dsts := [d]) s.readable_nil room with legal := by simp [slotSrd, found], still := free }
    · simp only [slotSrd, found, Option.getD_some]
  refine ⟨fun stamp acquires => ?_, fun e listed at_ free => ?_, fun unlisted => ?_⟩
  · refine exec_waits (o := slotSrd te d i s) rfl ?_ rfl ?_
    · have : (0x009, s.srcDev.tstamp (s.src.ident.coreId.toNat / 16)) ∈ ctlReads s.src s.srcDev := by simp [ctlReads]
      simp [slotSrd, Car.readCtl_of_listed _ _ (i := i) _ this (by rw [stamp]; rfl)]
    · simp [slotSrd, stamp, acquires]
  · refine reads (Car.readCtl_of_listed _ _ e listed at_) ?_
    rcases free with other | performed
    · rw [beq_eq_false_iff_ne.mpr other, Bool.false_and]
    · rw [performed, Bool.and_false]
  · refine exec_illegal (o := slotSrd te d i s) rfl ?_
    simp [slotSrd, Car.readCtl_of_unlisted _ _ unlisted]

/-- SWR (R33 to R36, R159). -/
theorem swrWritesThenReadsBack : Sys2Proof.Claims.SwrWritesThenReadsBack := by
  intro te v i s reads
  refine ⟨fun e listed at_ => ?_, fun unlisted => ?_⟩
  · have access := ctlAccess_of_listed _ _ e listed at_
    have legal : (slotSwr te v i s).plan.illegal = false := by
      simp only [slotSwr, access]
      cases e.2.1 <;> rfl
    refine ⟨fun may => ?_, fun user handlers => ?_⟩
    · refine ⟨s.car.writeCtl i (s.rS v), ?_, Car.readCtl_writeCtl _ _ _ e listed at_, Car.writeCtl_frame ..⟩
      refine exec_passes (o := slotSwr te v i s) rfl ?_
      refine { planS_passes te (srcs := [v]) (dsts := []) reads s.room_nil with legal := legal, allowed := ?_ }
      simp only [slotSwr, access]
      rcases may with handler | anyone
      · rw [handler, Bool.not_true, Bool.and_false]
      · rw [anyone]; rfl
    · refine exec_priv (o := slotSwr te v i s) rfl legal ?_
      simp only [slotSwr, access, handlers, user]
      rfl
  · refine exec_illegal (o := slotSwr te v i s) rfl ?_
    simp only [slotSwr, ctlAccess_of_unlisted _ _ unlisted]
    rfl

/-- Settles O9: the list of R33 names the registers that SRD reads and SWR writes, and what a write makes of a register is read back. -/
theorem specialRegisterResults : Obligations.SpecialRegisterResults := by
  unfold Obligations.SpecialRegisterResults
  exact ⟨srdReadsEveryRegister, swrWritesThenReadsBack⟩

end Sys2Proof.Proofs

namespace Sys2Proof.Proofs
open Sys2Proof.Machine Sys2Proof.Claims

/-- A slot that issues has one next state. -/
theorem next_of_issues {i : Instr} {s t : State} {p : SlotOp} (slot : slotOf i s = some p) (issues : s.Issues i) (runs : exec i s = .next t) :
    t = p.eff s :=
  Host.Outcome.next.inj (runs.symm.trans (exec_issues slot issues))

/-- A car in the handler with a held image of zeros. -/
def holdingCar : Car :=
  { State.reset.car with
    life := .running
    tr := { State.reset.car.tr with handler := true, masked := true, snap := some (Vector.replicate 128 0#64) } }

/-- That car inside a bundle, an earlier slot of which has left a byte for the own scratchpad in the store queue. -/
def storeHeld : State :=
  { State.reset with
    old := some (holdingCar, State.reset.dev)
    car := { holdingCar with eng := { holdingCar.eng with
      queue := [{ id := 0, target := .spad 0, ha := 0#64, bytes := [1#8], stamp := 0, ready := 0 }] } } }

theorem storeHeld_issues : storeHeld.Issues (.snapst false 1) :=
  ⟨slotSnapst false 1 storeHeld, rfl, {
    legal := by decide +kernel
    allowed := by decide +kernel
    units := by decide +kernel
    still := by decide +kernel
    reads := (storeHeld.readable_cons (.s 1) []).mpr ⟨by decide +kernel, storeHeld.readable_nil⟩
    room := storeHeld.room_nil
    cause := by decide +kernel
    spec := by decide +kernel
    mapped := by decide +kernel }⟩

/-- Refutes O10: SNAPST stores its image in the scratchpad at once, and a store that its own bundle has left in the queue, which no wait
of the slot looks at, still covers a byte of it. -/
theorem not_handlerInstructions : ¬ Obligations.HandlerInstructions := by
  unfold Obligations.HandlerInstructions
  rintro ⟨snapshots, -⟩
  obtain ⟨-, held, -⟩ := snapshots false 0 1 0#14 storeHeld
  obtain ⟨-, stores, -⟩ := held (Vector.replicate 128 0#64) rfl rfl
  obtain ⟨t, runs, -, -, word⟩ := stores storeHeld_issues rfl
  have next : t = (slotSnapst false 1 storeHeld).eff storeHeld := next_of_issues rfl storeHeld_issues runs
  have first := word 0 (by decide)
  rw [next] at first
  exact absurd first (by decide +kernel)

end Sys2Proof.Proofs

namespace Sys2Proof.Proofs
open Sys2Proof.Machine Sys2Proof.Claims

/-- A running car inside a bundle, an earlier slot of which has left a byte for the own scratchpad in the store queue. -/
def storeBehind : State :=
  { State.reset with
    old := some (State.reset.car, State.reset.dev)
    car := { State.reset.car with eng := { State.reset.car.eng with
      queue := [{ id := 0, target := .spad 0, ha := 0#64, bytes := [1#8], stamp := 0, ready := 0 }] } } }

theorem storeBehind_issues : storeBehind.Issues (.stb false 0 0 0#36) :=
  ⟨slotStb false 0 0 0#36 storeBehind, rfl, {
    legal := by decide +kernel
    allowed := by decide +kernel
    units := by decide +kernel
    still := by decide +kernel
    reads := (storeBehind.readable_cons (.s 0) [.s 0]).mpr ⟨by decide +kernel, (storeBehind.readable_cons (.s 0) []).mpr
      ⟨by decide +kernel, storeBehind.readable_nil⟩⟩
    room := storeBehind.room_nil
    cause := by decide +kernel
    spec := by decide +kernel
    mapped := by decide +kernel }⟩

theorem storeBehind_noStash : NoStash storeBehind := ⟨rfl, by
  intro c member
  have : c = storeBehind.car := by simpa [State.cars, storeBehind, State.reset] using member
  rw [this]
  rfl⟩

/-- Refutes O4: a store to the own scratchpad that waits for no read stands there at once, and an earlier store that its own bundle has
left in the queue, which no wait of the slot looks at, still covers its byte. -/
theorem not_storeResults : ¬ Obligations.StoreResults := by
  unfold Obligations.StoreResults
  intro stores
  obtain ⟨t, runs, -, wrote⟩ := stores false 0 0 0#36 storeBehind (.stb false 0 0 0#36, 1) (by simp [Claims.stores]) storeBehind_issues
    storeBehind_noStash ⟨rfl, rfl⟩
  have next : t = (slotStb false 0 0 0#36 storeBehind).eff storeBehind := next_of_issues rfl storeBehind_issues runs
  obtain ⟨bytes, -⟩ := wrote
  have first := bytes 0
  rw [next] at first
  exact absurd first (by decide +kernel)

end Sys2Proof.Proofs

namespace Sys2Proof.Proofs
open Sys2Proof.Machine Sys2Proof.Claims

theorem storeBehind_reads_zero : storeBehind.Readable [.s 0] :=
  (storeBehind.readable_cons (.s 0) []).mpr ⟨by decide +kernel, storeBehind.readable_nil⟩

theorem storeBehind_stores_waybill : storeBehind.Issues (.ystw false 0 0) :=
  ⟨slotYstw false 0 0 storeBehind, rfl, {
    legal := by decide +kernel
    allowed := by decide +kernel
    units := by decide +kernel
    still := by decide +kernel
    reads := storeBehind_reads_zero
    room := storeBehind.room_nil
    cause := by decide +kernel
    spec := by decide +kernel
    mapped := by decide +kernel }⟩

/-- Refutes O24: YSTW stores the waybill in the scratchpad at once, and a store that its own bundle has left in the queue, which no wait
of the slot looks at, still covers a byte of it. -/
theorem not_lateWrites : ¬ Obligations.LateWrites := by
  unfold Obligations.LateWrites
  rintro ⟨writes, -⟩
  obtain ⟨-, -, -, -, -, -, stores⟩ := writes false 0 0 0 0 0#8 0 0 storeBehind
  obtain ⟨t, runs, -, -, stands⟩ := stores storeBehind_stores_waybill
  have next : t = (slotYstw false 0 0 storeBehind).eff storeBehind := next_of_issues rfl storeBehind_stores_waybill runs
  obtain ⟨-, bytes⟩ := stands rfl
  have first := bytes 0
  rw [next] at first
  exact absurd first (by decide +kernel)

theorem storeBehind_stores_vector : storeBehind.Issues (.vst false 0 0 0#34 0) :=
  ⟨slotVst false 0 0 0#34 0 storeBehind, rfl, {
    legal := by decide +kernel
    allowed := by decide +kernel
    units := by decide +kernel
    still := by decide +kernel
    reads := (storeBehind.readable_cons (storeBehind.oA 0) [.s 0, .k 0]).mpr ⟨by decide +kernel,
      (storeBehind.readable_cons (.s 0) [.k 0]).mpr ⟨by decide +kernel,
        (storeBehind.readable_cons (.k 0) []).mpr ⟨by decide +kernel, storeBehind.readable_nil⟩⟩⟩
    room := storeBehind.room_nil
    cause := by decide +kernel
    spec := by decide +kernel
    mapped := by decide +kernel }⟩

/-- Refutes O16: a vector store to the own scratchpad that waits for no read stands there at once, and an earlier store that its own bundle has
left in the queue, which no wait of the slot looks at, still covers a byte of it. -/
theorem not_vectorMemoryResults : ¬ Obligations.VectorMemoryResults := by
  unfold Obligations.VectorMemoryResults
  rintro ⟨-, stores⟩
  obtain ⟨store, -⟩ := stores false 0 0 0 0 0#34 0 storeBehind ⟨rfl, rfl⟩ storeBehind_noStash
  obtain ⟨t, runs, -, wrote⟩ := store storeBehind_stores_vector
  have next : t = (slotVst false 0 0 0#34 0 storeBehind).eff storeBehind := next_of_issues rfl storeBehind_stores_vector runs
  obtain ⟨bytes, -⟩ := wrote
  have first := bytes 0
  rw [next] at first
  exact absurd first (by decide +kernel)

end Sys2Proof.Proofs

namespace Sys2Proof.Machine
open Sys2Proof.Claims

/-! M slots that read and write no register (R209 to R212). -/

variable {s : State} {i : Instr}

/-- A plan of the array alone finds its unit busy exactly while the array is held (R209). -/
theorem State.unitsBusy_array (s : State) {p : Plan} (array : p.unit = .array) : s.unitsBusy [p] = decide (s.now < s.src.units.array) := by
  simp [State.unitsBusy, array]

/-- Nothing stands against a plan of the array alone when the array is free. -/
theorem passes_of_arrayFree (free : s.src.units.array ≤ s.now) : ({ unit := .array } : Plan).Passes s where
  legal := rfl
  allowed := rfl
  units := (s.unitsBusy_array rfl).trans (decide_eq_false (Nat.not_lt.mpr free))
  still := rfl
  reads := s.readable_nil
  room := s.room_nil
  cause := rfl
  spec := rfl
  mapped := rfl

/-- An M slot holds the array until a cycle. -/
def State.holdArray (s : State) (until_ : Nat) : State :=
  s.mapCar (fun c => { c with units := { c.units with array := Nat.max c.units.array until_ } })

/-- An M slot without needs has its effect and holds the array for a cycle (R209). -/
theorem exec_mslot {user : Bool} {eff : State → State} (slot : slotOf i s = some (s.mslot user {} eff))
    (free : s.src.units.array ≤ s.now) (mode : (user && s.src.tr.handler) = false) :
    exec i s = .next ((eff s).holdArray (s.now + 1)) := by
  rw [State.mslot, if_neg (by simp [mode])] at slot
  exact exec_passes slot (passes_of_arrayFree free)

/-- In handler mode an M slot acts as MNOP (R212). -/
theorem exec_mslot_handler {eff : State → State} {p : Plan} (slot : slotOf i s = some (s.mslot true p eff))
    (free : s.src.units.array ≤ s.now) (handler : s.src.tr.handler = true) (legal : p.illegal = false) : exec i s = .next s := by
  rw [State.mslot, if_pos (by simp [handler]), legal] at slot
  exact exec_passes slot (passes_of_arrayFree free)

/-- An illegal M slot is so in either mode. -/
theorem exec_mslot_illegal {user : Bool} {eff : State → State} {p : Plan} (slot : slotOf i s = some (s.mslot user p eff))
    (illegal : p.illegal = true) : exec i s = .next (s.preciseTrap (s.here .illegalInsn)) := by
  refine exec_illegal slot ?_
  rw [State.mslot]
  split <;> exact illegal

/-- Windows after a discard. -/
theorem Arr.win_discard (a : Arr) (mask : BitVec 16) (i : Fin 16) :
    (a.discard mask).groups[i].win = if mask.getLsbD i then none else a.groups[i].win := by
  simp only [Arr.discard, Fin.getElem_fin, Vector.getElem_mapFinIdx]
  split <;> rfl

theorem Arr.codes_discard (a : Arr) (mask : BitVec 16) (i : Fin 16) : (a.discard mask).groups[i].codes = a.groups[i].codes := by
  simp only [Arr.discard, Fin.getElem_fin, Vector.getElem_mapFinIdx]
  split <;> rfl

theorem Arr.win_discard_all (a : Arr) (i : Fin 16) : (a.discard (BitVec.allOnes 16)).groups[i].win = none := by
  rw [Arr.win_discard, if_pos (BitVec.getLsbD_allOnes.trans (decide_eq_true i.isLt))]

/-- Ending streams leaves the cars' places alone, and a stream only where a car of its domain is. -/
theorem State.streams_endStreams (s : State) : ∀ x ∈ s.endStreams.dev.streams, ∃ c ∈ s.endStreams.cars, c.place.domain = some x.domain := by
  intro x hx
  have alive : (s.cars.any fun c => c.place.domain == some x.domain) = true := by
    have : x ∈ s.dev.streams.filter fun x => s.cars.any fun c => c.place.domain == some x.domain := hx
    exact (List.mem_filter.mp this).2
  obtain ⟨c, hc, eq⟩ := List.any_eq_true.mp alive
  rw [State.cars, List.mem_cons] at hc
  rcases hc with rfl | hc
  · exact ⟨_, List.mem_cons_self, eq_of_beq eq⟩
  · exact ⟨_, List.mem_cons_of_mem _ (List.mem_map_of_mem hc), eq_of_beq eq⟩

/-- The array turns to a line (R220). -/
def State.retune (l : Ix16) (s : State) : State :=
  if s.src.arr.line = some l then s
  else s.mapCar (fun c => { c with
    arr := { c.arr.discard (BitVec.allOnes 16) with line := some l }
    units := { c.units with array := s.now + 16 } })

/-- The gain of the groups that MGAIN names (R218). -/
def State.setGain (applies : Bool) (g : Nat) (s : State) : State :=
  s.mapCar (fun c => { c with
    arr := { c.arr with groups := c.arr.groups.mapFinIdx (fun i x _ =>
      if !applies || s.src.ctl.mgsel.getLsbD i then { x with gain := g } else x) } })

theorem slotMtune_main (te : Bool) (l : Ix16) (main : s.src.place.spec = false) : slotMtune te l s = s.mslot true {} (State.retune l) := by
  have foreign : s.foreignLine (some l) = false := by simp [State.foreignLine, main]
  rw [slotMtune, foreign]
  rfl

theorem slotMgain_legal (te applies : Bool) {g : BitVec 5} (small : g.toNat ≤ 20) :
    slotMgain te applies g s = s.mslot true {} (State.setGain applies g.toNat) := by
  rw [slotMgain, decide_eq_true small]
  rfl

end Sys2Proof.Machine

namespace Sys2Proof.Proofs
open Sys2Proof.Machine Sys2Proof.Claims

/-- Settles O17: the control slots of the array act as their rules say in user mode, and as MNOP in handler mode. -/
theorem arrayControlResults : Obligations.ArrayControlResults := by
  unfold Obligations.ArrayControlResults
  intro te ap en l g mask s free main
  have tune : slotOf (.mtune te l) s = some (s.mslot true {} (State.retune l)) := congrArg some (slotMtune_main te l main)
  refine ⟨exec_passes (o := slotMnop te s) rfl (passes_of_arrayFree free), ?_, fun above => ?_, fun user => ?_⟩
  · intro handler small i hi
    simp only [List.mem_cons, List.not_mem_nil, or_false] at hi
    rcases hi with rfl | rfl | rfl | rfl | rfl | rfl
    · exact exec_mslot_handler tune free handler rfl
    · exact exec_mslot_handler rfl free handler (by simpa using small)
    · exact exec_mslot_handler rfl free handler rfl
    · exact exec_mslot_handler rfl free handler rfl
    · exact exec_mslot_handler rfl free handler rfl
    · exact exec_mslot_handler rfl free handler rfl
  · exact exec_mslot_illegal (i := .mgain te ap g) rfl (by simpa using above)
  have mode : (true && s.src.tr.handler) = false := by simp [user]
  refine ⟨fun same => ?_, fun other => ?_, fun small => ?_, ?_, ?_, ?_, ?_⟩
  · rw [exec_mslot tune free mode, State.retune, if_pos same]
    rfl
  · refine ⟨_, exec_mslot tune free mode, ?_⟩
    rw [State.retune, if_neg other]
    exact ⟨rfl, fun i => ⟨Arr.win_discard_all _ i, Arr.codes_discard _ _ i⟩, Nat.max_eq_left (Nat.add_le_add_left (by decide) _), rfl, rfl, rfl⟩
  · refine ⟨_, exec_mslot (i := .mgain te ap g) (congrArg some (slotMgain_legal te ap small)) free mode, rfl, rfl, fun i => ?_⟩
    show (s.car.arr.groups.mapFinIdx _)[i.val] = _
    rw [Vector.getElem_mapFinIdx]
    rfl
  · refine ⟨_, exec_mslot (i := .msplit te en mask) rfl free mode, rfl, rfl, rfl, rfl, fun i => ?_⟩
    show (if s.car.arr.split && !en then s.car.arr.discard (BitVec.allOnes 16) else s.car.arr).groups[i].win = _
    split
    · exact Arr.win_discard_all _ i
    · rfl
  · exact ⟨_, exec_mslot (i := .mcal te) rfl free mode, rfl, rfl⟩
  · refine ⟨_, exec_mslot (i := .munc te) rfl free mode, rfl, rfl, rfl, fun x hx => ?_⟩
    obtain ⟨c, hc, domain⟩ := (s.mapCar Car.uncouple).streams_endStreams x hx
    rw [State.cars, List.mem_cons] at hc
    rcases hc with rfl | hc
    · exact ⟨_, List.mem_cons_self, domain⟩
    · exact ⟨c, List.mem_cons_of_mem _ hc, domain⟩
  · refine ⟨_, exec_mslot (i := .mabt te) rfl free mode, rfl, rfl, fun i => ?_⟩
    show (s.car.arr.discard _).groups[i].win = _
    rw [Arr.win_discard]
    have all : (BitVec.allOnes 16).getLsbD i = true := BitVec.getLsbD_allOnes.trans (decide_eq_true i.isLt)
    cases s.car.arr.split with
    | false => exact if_pos all
    | true =>
      show (if s.src.ctl.mgsel.getLsbD i then none else _) = if !s.src.ctl.mgsel.getLsbD i then _ else none
      cases s.src.ctl.mgsel.getLsbD i <;> rfl

end Sys2Proof.Proofs

namespace Sys2Proof.Machine
open Sys2Proof.Claims

/-- An instruction that is an action at a named car. -/
def ActsAt (i : Instr) (r : CarRef) : Prop := ∃ f, ∀ s, exec i s = s.at r f

variable {s : State} {r : CarRef} {i : Instr}

theorem ActsAt.absent (acts : ActsAt i r) (other : s.car.ref ≠ r) (absent : ∀ c ∈ s.peers, c.ref ≠ r) : exec i s = .next s := by
  obtain ⟨f, runs⟩ := acts
  have none : s.peers.findIdx? (fun c => c.ref == r) = none := by simpa [List.findIdx?_eq_none_iff] using absent
  rw [runs, State.at, State.atCar, if_neg other, none]

theorem ActsAt.peer (acts : ActsAt i r) (other : s.car.ref ≠ r) {k : Nat} {t : State}
    (first : ∀ j < k, ∀ c, s.peers[j]? = some c → c.ref ≠ r) (named : ∃ c, s.peers[k]? = some c ∧ c.ref = r)
    (focused : exec i (swapped s k) = .next t) : exec i s = .next (swapped t k) := by
  obtain ⟨f, runs⟩ := acts
  obtain ⟨c, at_, ref⟩ := named
  obtain ⟨inside, eq⟩ := List.getElem?_eq_some_iff.mp at_
  have found : s.peers.findIdx? (fun c => c.ref == r) = some k := by
    rw [List.findIdx?_eq_some_iff_getElem]
    refine ⟨inside, by simpa [eq] using ref, fun j before => ?_⟩
    simpa using first j before _ (List.getElem?_eq_getElem (before.trans inside))
  have focus : (swapped s k).car.ref = r := by
    show (s.peers.getD k s.car).ref = r
    rw [List.getD_eq_getElem?_getD, at_]
    exact ref
  have acted : f (swapped s k) = t := by
    rw [runs, State.at, State.atCar, if_pos focus] at focused
    exact Host.Outcome.next.inj focused
  rw [runs, State.at, State.atCar, if_neg other, found, ← acted]
  rfl

end Sys2Proof.Machine

namespace Sys2Proof.Proofs
open Sys2Proof.Machine Sys2Proof.Claims

/-- Settles O26: every event that names a car is an action at that car. -/
theorem carEventsActAtTheNamedCar : Obligations.CarEventsActAtTheNamedCar := by
  unfold Obligations.CarEventsActAtTheNamedCar
  intro r n err ha f b ns g x ps s other i hi
  have acts : ActsAt i r := by
    simp only [List.mem_cons, List.not_mem_nil, or_false] at hi
    rcases hi with rfl | rfl | rfl | rfl | rfl | rfl | rfl | rfl | rfl | rfl | rfl | rfl | rfl | rfl | rfl | rfl | rfl | rfl | rfl | rfl |
      rfl | rfl | rfl | rfl | rfl | rfl | rfl | rfl | rfl | rfl | rfl | rfl | rfl
    all_goals exact ⟨_, fun _ => rfl⟩
  exact ⟨acts.absent other, fun k t => acts.peer other⟩

end Sys2Proof.Proofs

namespace Sys2Proof.Machine
open Sys2Proof.Claims

/-! Arrays and their calibration (R115, R119, R225, R438 to R440). -/

/-- A group with an open window. -/
theorem Arr.anyOpen_iff (a : Arr) : a.anyOpen = true ↔ ∃ h : Fin 16, a.groups[h].win ≠ none := by
  simp only [Arr.anyOpen, List.any_eq_true, Vector.mem_toList_iff, Vector.mem_iff_getElem]
  constructor
  · rintro ⟨_, ⟨i, inside, rfl⟩, isSome⟩
    exact ⟨⟨i, inside⟩, Option.isSome_iff_ne_none.mp isSome⟩
  · rintro ⟨h, isSome⟩
    exact ⟨_, ⟨h.val, h.isLt, rfl⟩, Option.isSome_iff_ne_none.mpr isSome⟩

theorem Arr.anyOpen_eq_false (a : Arr) : a.anyOpen = false ↔ ∀ h : Fin 16, a.groups[h].win = none := by
  rw [← Bool.not_eq_true, Arr.anyOpen_iff]
  simp


end Sys2Proof.Machine

namespace Sys2Proof.Proofs
open Sys2Proof.Machine Sys2Proof.Claims

/-- Settles O32: each event acts on the array of its car when its time has come. -/
theorem calibrationAndWindowEvents : Obligations.CalibrationAndWindowEvents := by
  unfold Obligations.CalibrationAndWindowEvents
  intro g s r a age gives
  have starts : exec (.calibrationStart r) s = .next (if a.calStarts then s.mapCar (fun c =>
      { c with arr := { a with cal := { a.cal with ends := some (s.now + Config.calCycles) } } }) else s) := s.at_focused _
  have completes : exec (.calibrationComplete r) s = .next (if a.calEnds s.now then s.mapCar (fun c =>
      { c with arr := { a with cal := { zero := s.now } } }) else s) := s.at_focused _
  have due : exec (.calPeriodicDue r) s = .next (if age 1 && a.cal.periodic.isNone then s.mapCar (fun c =>
      { c with arr := { a with cal := { a.cal with periodic := some 0 } } }) else s) := s.at_focused _
  have stale : exec (.calStale r) s = .next (if age s.dev.house.stalex then s.mapCar (fun c =>
      { c with arr := { a with cal := { a.cal with skew := true } } }) else s) := s.at_focused _
  have forced : exec (.calForced r) s = .next (if age s.dev.house.forcex then s.mapCar (fun c =>
      { c with arr := { a with cal := { a.cal with forced := true } } }) else s) := s.at_focused _
  refine ⟨s.at_focused _, ⟨_, s.at_focused _, fun h other => ?_, ?_⟩, fun asked idle closed => ?_, fun busy => ?_, fun t running ended => ?_,
    fun aged idle => ?_, fun aged => ?_, fun aged => ?_, fun early => ?_, fun early => ?_, fun early => ?_⟩
  · exact Vector.getElem_set_ne g.isLt h.isLt (fun same => other (Fin.ext same.symm))
  · simp only [Fin.getElem_fin, Vector.getElem_set_self, Window.lost, a]
  · have : a.calStarts = true := by
      simpa [Arr.calStarts, idle, (Arr.anyOpen_eq_false a).mpr closed] using asked
    show exec _ s = _
    rw [starts, if_pos this]
  · have : a.calStarts = false := by
      rcases busy with opened | ⟨request, force⟩
      · simp [Arr.calStarts, (Arr.anyOpen_iff a).mpr opened]
      · simp [Arr.calStarts, a, request, force]
    rw [starts, this, if_neg Bool.false_ne_true]
  · have : a.calEnds s.now = true := by unfold Arr.calEnds; rw [running]; simp [ended]
    exact ⟨{ a with cal := { zero := s.now } }, completes.trans (by rw [if_pos this]), rfl, rfl, rfl, rfl, rfl, rfl, rfl⟩
  · show exec _ s = _
    rw [due, aged, idle]
    rfl
  · show exec _ s = _
    rw [stale, if_pos aged]
  · show exec _ s = _
    rw [forced, if_pos aged]
  · rw [due, early]
    rfl
  · rw [stale, if_neg (by rw [early]; decide)]
  · rw [forced, if_neg (by rw [early]; decide)]

end Sys2Proof.Proofs

namespace Sys2Proof.Machine
open Sys2Proof.Claims

/-! Lines of the package and the events that change one (R117, R441 to R445). -/

theorem mem_insertNat (n : Nat) (xs : List Nat) : n ∈ insertNat n xs := by
  induction xs with
  | nil => simp [insertNat]
  | cons x xs ih =>
    unfold insertNat
    split
    · exact List.mem_cons_self
    · split
      · simp_all
      · exact List.mem_cons_of_mem _ ih

variable (d : Device) (l : Ix16) (f : LineState → LineState)

theorem Device.lines_mapLine_same : (d.mapLine l f).lines[l] = f d.lines[l] := Vector.getElem_set_self l.isLt

theorem Device.lines_mapLine_ne {k : Ix16} (other : k ≠ l) : (d.mapLine l f).lines[k] = d.lines[k] :=
  Vector.getElem_set_ne l.isLt k.isLt (fun same => other (Fin.ext same.symm))

/-- The new row of a spare. -/
theorem toNat_row {p : Nat} (row : p < 32) : (BitVec.ofNat 6 p).toNat = p := by
  rw [BitVec.toNat_ofNat, Nat.mod_eq_of_lt (by omega)]

theorem LineState.move_pend (x : LineState) (p e : Nat) : (x.move p e).pend = x.pend.filter (· != p) := by
  simp only [LineState.move]
  split
  · rfl
  · split <;> rfl

theorem LineState.move_first {x : LineState} (free : x.sp0 = 0x3F#6) (p e : Nat) :
    (x.move p e).sp0 = BitVec.ofNat 6 p ∧ (x.move p e).running = some (p, e) := by
  simp [LineState.move, free]

theorem LineState.move_second {x : LineState} (taken : x.sp0 ≠ 0x3F#6) (free : x.sp1 = 0x3F#6) (p e : Nat) :
    (x.move p e).sp1 = BitVec.ofNat 6 p ∧ (x.move p e).running = some (p, e) := by
  simp [LineState.move, taken, free]

theorem LineState.move_none {x : LineState} (taken : x.sp0 ≠ 0x3F#6) (taken' : x.sp1 ≠ 0x3F#6) (p e : Nat) :
    (x.move p e).failed = insertNat p x.failed ∧ (x.move p e).running = x.running := by
  simp [LineState.move, taken, taken']

/-- A line when its remap ends (R442). -/
def LineState.remapped (x : LineState) : LineState :=
  { x with
    running := none
    remaps := if x.remaps = 0xFFFF#16 then x.remaps else x.remaps + 1#16 }

/-- The count of remaps saturates (R442). -/
theorem LineState.remaps_remapped (x : LineState) : x.remapped.remaps.toNat = min 65535 (x.remaps.toNat + 1) := by
  have lt := x.remaps.isLt
  by_cases full : x.remaps = 0xFFFF#16
  · simp [LineState.remapped, full]
  · have : x.remaps.toNat ≠ 65535 := fun same => full (BitVec.eq_of_toNat_eq same)
    simp only [LineState.remapped, full, if_false, BitVec.toNat_add, BitVec.toNat_ofNat]
    omega

/-- The sums of a trend, as the claim writes them. -/
theorem trend_eq (xs : List (Nat × Nat)) :
    trend xs =
      (let sum := fun (f : Nat × Nat → Int) => (xs.map f).sum
       let n : Int := xs.length
       (n * sum (fun x => x.1 * x.2) - sum (fun x => x.1) * sum (fun x => x.2),
        n * sum (fun x => x.1 * x.1) - sum (fun x => x.1) * sum (fun x => x.1))) := by
  simp only [trend, List.sum_eq_foldl]

section
variable {bias bias0 : BitVec 16} {hours : BitVec 32} {hist : List (Nat × Nat)}

/-- No hours are left at 1.5 times the first bias (R445). -/
theorem eolEstimate_worn (worn : 3 * bias0.toNat ≤ 2 * bias.toNat) : eolEstimate bias bias0 hours hist = 0#32 := by
  simp [eolEstimate, worn]

theorem eolEstimate_unknown (fresh : 2 * bias.toNat < 3 * bias0.toNat) (unknown : hours.toNat < 1000 ∨ (trend hist).1 ≤ 0) :
    eolEstimate bias bias0 hours hist = 0xFFFFFFFF#32 := by
  simp only [eolEstimate, if_neg (Nat.not_le.mpr fresh), if_pos unknown]

theorem eolEstimate_rising (fresh : 2 * bias.toNat < 3 * bias0.toNat) (powered : 1000 ≤ hours.toNat) (rises : 0 < (trend hist).1) :
    (eolEstimate bias bias0 hours hist).toNat =
      min 0xFFFFFFFE ((3 * bias0.toNat - 2 * bias.toNat) * (trend hist).2.toNat / (2 * (trend hist).1.toNat)) := by
  have known : ¬(hours.toNat < 1000 ∨ (trend hist).1 ≤ 0) := by omega
  simp only [eolEstimate, if_neg (Nat.not_le.mpr fresh), if_neg known, BitVec.toNat_ofNat]
  exact Nat.mod_eq_of_lt (Nat.lt_of_le_of_lt (Nat.min_le_left _ _) (by decide))

end

section
variable {hist : List (Nat × Nat)} {hours bias : Nat}

theorem of_mem_noteBias {x : Nat × Nat} (h : x ∈ noteBias hist hours bias) :
    hours ≤ x.1 + 1000 ∧ (x ∈ hist ∨ x = (hours, bias)) := by
  have kept (h : x ∈ hist.filter fun x => decide (hours ≤ x.1 + 1000)) : hours ≤ x.1 + 1000 ∧ (x ∈ hist ∨ x = (hours, bias)) := by
    obtain ⟨old, late⟩ := List.mem_filter.mp h
    exact ⟨of_decide_eq_true late, .inl old⟩
  simp only [noteBias] at h
  split at h
  · exact kept h
  · rcases List.mem_cons.mp h with rfl | h
    · exact ⟨Nat.le_add_right _ _, .inr rfl⟩
    · exact kept h

theorem mem_noteBias {x : Nat × Nat} (h : x ∈ hist) (late : hours ≤ x.1 + 1000) : x ∈ noteBias hist hours bias := by
  have kept : x ∈ hist.filter fun x => decide (hours ≤ x.1 + 1000) := List.mem_filter.mpr ⟨h, decide_eq_true late⟩
  simp only [noteBias]
  split
  · exact kept
  · exact List.mem_cons_of_mem _ kept

theorem hour_mem_noteBias : ∃ x ∈ noteBias hist hours bias, x.1 = hours := by
  simp only [noteBias]
  split
  next there =>
    obtain ⟨x, hx, eq⟩ := List.any_eq_true.mp there
    exact ⟨x, hx, eq_of_beq eq⟩
  · exact ⟨_, List.mem_cons_self, rfl⟩

end

/-- A list of 34 readings read one by one. -/
theorem readings_eq {power old : List (BitVec 16)} (all : power.length = 34) :
    (List.range 34).map (fun i => power.getD i (old.getD i 0#16)) = power := by
  apply List.ext_getElem
  · simp [all]
  · intro i _ inside
    simp [List.getElem?_eq_getElem inside]

section
variable (s : State) (l : Ix16)

/-- The package with other readings of a laser. -/
def State.withLaser (m : Fin 24) (new : Laser) : State := s.mapDev fun d => { d with lasers := d.lasers.set m.val new m.isLt }

theorem State.lasers_withLaser (m : Fin 24) (new : Laser) : (s.withLaser m new).dev.lasers[m] = new := Vector.getElem_set_self m.isLt

theorem State.lasers_withLaser_ne {m k : Fin 24} (new : Laser) (other : k ≠ m) : (s.withLaser m new).dev.lasers[k] = s.dev.lasers[k] :=
  Vector.getElem_set_ne m.isLt k.isLt (fun same => other (Fin.ext same.symm))

/-- A car's open windows on a line whose laser is out of tolerance. -/
theorem State.markLaser_dev : (s.markLaser l).dev = s.dev := by
  unfold State.markLaser
  split <;> rfl

theorem State.markLaser_regs : (s.markLaser l).cars.map Car.regs = s.cars.map Car.regs := by
  unfold State.markLaser
  split
  · rw [State.mapCars_cars, List.map_map]
    refine List.map_congr_left fun c _ => ?_
    simp only [Function.comp_apply]
    split <;> rfl
  · rfl

theorem State.markLaser_marks (bad : s.dev.laserBad l = true) :
    ∀ c ∈ (s.markLaser l).cars, c.arr.line = some l → ∀ g : Fin 16, ∀ w, c.arr.groups[g].win = some w → w.laser = true := by
  rw [State.markLaser, if_pos bad, State.mapCars_cars]
  simp only [List.forall_mem_map]
  intro c _ receives g w opened
  split at receives
  next at_ =>
    rw [if_pos at_] at opened
    simp only [Fin.getElem_fin, Vector.getElem_map, Option.map_eq_some_iff] at opened
    obtain ⟨_, _, rfl⟩ := opened
    rfl
  · contradiction

/-- What a refresh of a laser leaves, but for its marks (R443, R444). -/
theorem exec_laserRefresh (m : Fin 24) (bias drift temp : BitVec 16) (power : List (BitVec 16)) (hours : BitVec 32) (bias0 : BitVec 16) :
    let s' := s.withLaser m (s.dev.lasers[m].refresh bias drift temp power hours bias0)
    ∃ t, exec (.laserRefresh m bias drift temp power hours bias0) s = .next t ∧ t.dev = s'.dev ∧ t.cars.map Car.regs = s'.cars.map Car.regs ∧
      ∀ h : m.val < 16, t = s'.markLaser ⟨m.val, h⟩ := by
  intro s'
  by_cases h : m.val < 16
  · exact ⟨s'.markLaser ⟨m.val, h⟩, congrArg Host.Outcome.next (dif_pos h), s'.markLaser_dev _, s'.markLaser_regs _, fun _ => rfl⟩
  · exact ⟨s', congrArg Host.Outcome.next (dif_neg h), rfl, rfl, fun small => absurd small h⟩

end

end Sys2Proof.Machine

namespace Sys2Proof.Proofs
open Sys2Proof.Machine Sys2Proof.Claims

/-- Rows move to spares (R117, R441, R442). -/
theorem rowRemaps : Sys2Proof.Claims.RowRemaps := by
  intro l row s x lineOf
  have startsWhen : s.remapStarts l = (x.running.isNone && !x.pend.isEmpty && !s.lineOpen l) := rfl
  have started (idle : x.running = none) (shut : s.lineOpen l = false) {p rest} (pend : x.pend = p :: rest) :
      exec (.remapStart l) s = .next (s.mapDev fun d => d.mapLine l fun x => x.move p (s.now + Config.remapCycles)) := by
    have starts : s.remapStarts l = true := by simp [startsWhen, idle, shut, pend]
    show Host.Outcome.next (if s.remapStarts l then _ else s) = _
    rw [if_pos starts, show s.dev.lines[l].pend = p :: rest from pend]
  have ending (p e) (running : x.running = some (p, e)) : s.remapEnds l = decide (e ≤ s.now) := by
    show (match x.running with | some x => decide (x.2 ≤ s.now) | none => false) = _
    rw [running]
  refine ⟨fun strong => ?_, fun weak => ?_, fun idle shut p rest pend small => ?_, fun stands => ?_,
    fun p e running => ⟨fun early => ?_, fun due => ?_⟩⟩
  · exact congrArg Host.Outcome.next (if_neg (by simp [strong]))
  · refine ⟨_, congrArg Host.Outcome.next (if_pos weak), rfl, rfl, fun none => ?_, fun some_ => ?_, fun k other => s.dev.lines_mapLine_ne l _ other⟩
    · show row.val ∈ ((s.dev.mapLine l _).lines[l]).failed ∧ ((s.dev.mapLine l _).lines[l]).pend = _
      rw [s.dev.lines_mapLine_same, if_pos none]
      exact ⟨mem_insertNat _ _, rfl⟩
    · show row.val ∈ ((s.dev.mapLine l _).lines[l]).pend ∧ ((s.dev.mapLine l _).lines[l]).failed = _
      rw [s.dev.lines_mapLine_same, if_neg some_]
      exact ⟨mem_insertNat _ _, rfl⟩
  · have moved : lineOf (s.mapDev fun d => d.mapLine l fun x => x.move p (s.now + Config.remapCycles)) =
        x.move p (s.now + Config.remapCycles) := s.dev.lines_mapLine_same l _
    refine ⟨_, started idle shut pend, rfl, rfl, fun k other => s.dev.lines_mapLine_ne l _ other, ?_, fun free => ?_,
      fun taken free => ?_, fun taken taken' => ?_⟩
    · rw [moved, LineState.move_pend]
      simp
    · obtain ⟨spare, running⟩ := LineState.move_first free p (s.now + Config.remapCycles)
      rw [moved, spare]
      exact ⟨toNat_row small, running⟩
    · obtain ⟨spare, running⟩ := LineState.move_second taken free p (s.now + Config.remapCycles)
      rw [moved, spare]
      exact ⟨toNat_row small, running⟩
    · obtain ⟨failed, running⟩ := LineState.move_none taken taken' p (s.now + Config.remapCycles)
      rw [moved, failed, running]
      exact ⟨mem_insertNat _ _, idle⟩
  · have stays : s.remapStarts l = false := by
      rcases stands with opened | none | running
      · simp [startsWhen, opened]
      · simp [startsWhen, none]
      · simp [startsWhen, Option.isNone_eq_false_iff.mpr (Option.isSome_iff_ne_none.mpr running)]
    exact congrArg Host.Outcome.next (if_neg (by simp [stays]))
  · exact congrArg Host.Outcome.next (if_neg (by simp [ending p e running, early]))
  · have ended : lineOf ((s.mapDev fun d => d.mapLine l LineState.remapped).mapCars fun c =>
        if c.arr.line = some l then { c with arr := { c.arr with remap := true } } else c) = x.remapped := s.dev.lines_mapLine_same l _
    refine ⟨_, congrArg Host.Outcome.next (if_pos (by simp [ending p e running, due])), ?_, ?_, ?_, ?_, ?_, ?_⟩
    · exact congrArg LineState.running ended
    · exact (congrArg (fun y => y.remaps.toNat) ended).trans x.remaps_remapped
    · exact (congrArg LineState.sp0 ended :)
    · exact (congrArg LineState.sp1 ended :)
    · rw [State.mapCars_cars]
      simp only [List.forall_mem_map]
      intro c _ receives
      split at receives
      next at_ => rw [if_pos at_]
      · contradiction
    · rw [State.mapCars_cars, List.map_map]
      refine List.map_congr_left fun c _ => ?_
      simp only [Function.comp_apply]
      split <;> rfl

/-- Lasers take their readings (R443 to R445). -/
theorem laserReadings : Sys2Proof.Claims.LaserReadings := by
  intro m bias drift temp power hours bias0 s all old
  obtain ⟨t, runs, dev, regs, marked⟩ := exec_laserRefresh s m bias drift temp power hours bias0
  have new : t.dev.lasers[m] = old.refresh bias drift temp power hours bias0 := by rw [dev, s.lasers_withLaser]
  refine ⟨t, runs, ?_, fun k other => by rw [dev, s.lasers_withLaser_ne _ other], regs, (congrArg Device.mem dev :), fun small bad => ?_⟩
  · rw [new]
    have slope := trend_eq (noteBias old.hist hours.toNat bias.toNat)
    refine ⟨rfl, rfl, rfl, readings_eq all, rfl, rfl, rfl, fun x => of_mem_noteBias, fun x => mem_noteBias, hour_mem_noteBias,
      fun worn => eolEstimate_worn worn, fun fresh unknown => eolEstimate_unknown fresh ?_, fun fresh powered rises => ?_⟩
    · rw [slope]
      exact unknown
    · refine (eolEstimate_rising fresh powered ?_).trans ?_
      · rw [slope]
        exact rises
      · rw [slope]
        rfl
  · rw [marked small] at bad ⊢
    rw [State.markLaser_dev] at bad
    exact State.markLaser_marks _ _ bad

/-- Settles O33: rows move to spares, and lasers take their readings. -/
theorem remapsAndLasers : Obligations.RemapsAndLasers := ⟨rowRemaps, laserReadings⟩

end Sys2Proof.Proofs

namespace Sys2Proof.Machine
open Sys2Proof.Claims

variable {s : State}

/-! Copy numbers (R235). -/

/-- A slot that needs a copy number issues only when one is free. -/
theorem State.freeNumber_of_issues {o : SlotOp} {i : Instr} (slot : slotOf i s = some o) (issues : s.Issues i) (copy : o.plan.unit = .copy) :
    ∃ n, s.freeNumber = some n := by
  obtain ⟨q, slot', passes⟩ := issues
  cases slot.symm.trans slot'
  have free : ¬ s.freeNumbers < 1 := by
    have := passes.units
    simp only [State.unitsBusy, Bool.or_eq_false_iff, List.filter_cons, copy, beq_self_eq_true, if_true, List.filter_nil, List.length_cons,
      List.length_nil] at this
    exact of_decide_eq_false this.2
  have some_ : s.freeNumber.isSome = true := by
    rw [State.freeNumber, List.find?_isSome]
    obtain ⟨n, hn⟩ := List.exists_mem_of_length_pos (Nat.lt_of_lt_of_le Nat.zero_lt_one (Nat.not_lt.mp free))
    exact ⟨n, (List.mem_filter.mp hn).1, (List.mem_filter.mp hn).2⟩
  exact Option.isSome_iff_exists.mp some_

/-- A free copy number is below 48, and no copy of the car has it. -/
theorem State.freeNumber_spec {n : Nat} (free : s.freeNumber = some n) :
    n < 48 ∧ (∀ k ∈ s.car.eng.copies, k.num ≠ n) ∧ (∀ u ∈ s.car.eng.unmaps, u.num ≠ n) ∧ ∀ m ∈ s.car.eng.stash, m.num ≠ n := by
  have found : (List.range 48).find? (fun n => !(s.numbersInUse s.car.ident.coreId).contains n) = some n := free
  have unused : n ∉ s.numbersInUse s.car.ident.coreId := by simpa using List.find?_some found
  have mine : s.car ∈ s.cars.filter fun c => c.ident.coreId == s.car.ident.coreId :=
    List.mem_filter.mpr ⟨List.mem_cons_self, by simp⟩
  refine ⟨List.mem_range.mp (List.mem_of_find?_eq_some found), fun k hk same => unused ?_, fun k hk same => unused ?_, fun k hk same => unused ?_⟩
  all_goals
    refine List.mem_flatMap.mpr ⟨_, mine, ?_⟩
    simp only [List.mem_append, List.mem_map]
  · exact .inl (.inl ⟨k, hk, same⟩)
  · exact .inl (.inr ⟨k, hk, same⟩)
  · exact .inr ⟨k, hk, same⟩

/-! Range operations (R248). -/

/-- The lines that a range of bytes touches. -/
theorem touches_iff {pa n l : Nat} (some_ : n ≠ 0) : (pa / 64 ≤ l ∧ l < (pa + n + 63) / 64) ↔ ∃ x, pa ≤ x ∧ x < pa + n ∧ x / 64 = l := by
  constructor
  · rintro ⟨lo, hi⟩
    by_cases first : pa / 64 = l
    · exact ⟨pa, Nat.le_refl _, by omega, first⟩
    · exact ⟨64 * l, by omega, by omega, by omega⟩
  · rintro ⟨x, lo, hi, rfl⟩
    omega

theorem State.range_waits (s : State) (te : Bool) (kind : RangeKind) {a : SReg} (b : SReg) (f : FlagIx) {i : Instr}
    (slot : slotOf i s = some (s.range te kind a b f)) (full : s.src.isFull (.s a) = true)
    (busy : s.src.handleBusy s.now (haIndex (s.rS a)) = true) : exec i s = .next s.stays :=
  Proofs.exec_waits slot rfl rfl (by simp [State.range, full, busy])

/-- A range of no bytes posts its flag at once (R248). -/
theorem State.range_empty (s : State) (te : Bool) (kind : RangeKind) {a b : SReg} (f : FlagIx) {i : Instr}
    (slot : slotOf i s = some (s.range te kind a b f)) (none : (s.rS b).toNat = 0)
    (free : s.src.handleBusy s.now (haIndex (s.rS a)) = false) (reads : s.Readable [.s a, .s b]) :
    exec i s = .next (s.mapCar fun c => c.post f 1) := by
  have plan : (s.range te kind a b f).plan = planS te [a, b] [] := by
    simp [State.range, planS, State.rangeCause, none, free]
  rw [exec_passes slot (plan ▸ planS_passes te (srcs := [a, b]) (dsts := []) reads s.room_nil)]
  exact congrArg Host.Outcome.next (if_pos none)

/-- A range operation that starts (R248). -/
def State.rangeOp (s : State) (kind : RangeKind) (a b : SReg) (f : FlagIx) : RangeOp :=
  let lines := match s.target (s.rS a) with
    | .hbm pa true => (pa / 64, (pa + (s.rS b).toNat + 63) / 64)
    | _ => (0, 0)
  ⟨s.car.eng.nextId, kind, lines.1, lines.2, f, s.now, s.src.eng.nextId, s.srcDev.fab.nextId⟩

theorem State.range_starts (s : State) (te : Bool) (kind : RangeKind) (a b : SReg) (f : FlagIx) {i : Instr}
    (slot : slotOf i s = some (s.range te kind a b f)) (some_ : (s.rS b).toNat ≠ 0) (issues : s.Issues i) :
    exec i s = .next (s.mapCar fun c => { c with
      eng := { c.eng with ranges := c.eng.ranges ++ [s.rangeOp kind a b f], nextId := c.eng.nextId + 1 } }) := by
  rw [Proofs.exec_issues slot issues]
  exact congrArg Host.Outcome.next (if_neg some_)

theorem State.rangeOp_lines {pa : Nat} (kind : RangeKind) {a b : SReg} (f : FlagIx) (at_ : s.target (s.rS a) = .hbm pa true) :
    (s.rangeOp kind a b f).lo = pa / 64 ∧ (s.rangeOp kind a b f).hi = (pa + (s.rS b).toNat + 63) / 64 := by
  simp [State.rangeOp, at_]

theorem State.rangeOp_noLines (kind : RangeKind) {a b : SReg} (f : FlagIx) (elsewhere : ∀ pa, s.target (s.rS a) ≠ .hbm pa true) :
    (s.rangeOp kind a b f).hi = (s.rangeOp kind a b f).lo := by
  unfold State.rangeOp
  split
  next pa at_ => exact absurd at_ (elsewhere pa)
  · rfl

/-! Stash mappings (R249, R250). -/

/-- The mapping that begins at an address. -/
theorem Car.mem_stash_of_stashAt {c : Car} {ha : Word} {m : Stash} (at_ : c.stashAt ha = some m) : m.base = haByte ha ∧ m ∈ c.eng.stash := by
  unfold Car.stashAt at at_
  split at at_
  · exact ⟨eq_of_beq (List.find?_some (p := fun m : Stash => m.base == haByte ha) at_), List.mem_of_find?_eq_some at_⟩
  · contradiction

/-- Writes of granules leave the bytes outside them. -/
theorem Mem.read_granules (base : Nat) (bytes : Nat → List Byte) (sixty : ∀ g, (bytes g).length = 64) (gs : List Nat) (m : Mem) (p : Nat)
    (outside : p < base ∨ ∀ g ∈ gs, (p - base) / 64 ≠ g) :
    (gs.foldl (fun sp g => sp.write (base + g * 64) (bytes g)) m).read p = m.read p := by
  induction gs generalizing m with
  | nil => rfl
  | cons g gs ih =>
    rw [List.foldl_cons, ih _ (outside.imp_right fun h g hg => h g (List.mem_cons_of_mem _ hg)), Mem.read_write_other]
    rw [sixty]
    rcases outside with before | other
    · exact .inl (by omega)
    · have := other g List.mem_cons_self
      omega

end Sys2Proof.Machine

namespace Sys2Proof.Proofs
open Sys2Proof.Machine Sys2Proof.Claims

/-- Range operations start (R152, R248). -/
theorem rangeOperationsStart : Sys2Proof.Claims.RangeOperationsStart := by
  intro te a b f s n inv
  have starts (kind : RangeKind) (i : Instr) (slot : slotOf i s = some (s.range te kind a b f)) :
      (s.src.isFull (.s a) = true → s.src.handleBusy s.now (haIndex (s.rS a)) = true → exec i s = .next s.stays) ∧
      (n = 0 → s.src.handleBusy s.now (haIndex (s.rS a)) = false → s.Readable [.s a, .s b] →
        exec i s = .next (s.mapCar (fun c => c.post f 1))) ∧
      (n ≠ 0 → s.Issues i → ∃ r, exec i s = .next (s.mapCar (fun c => { c with
          eng := { c.eng with ranges := c.eng.ranges ++ [r], nextId := c.eng.nextId + 1 } })) ∧
        r.kind = kind ∧ r.flag = f ∧ r.issued = s.now ∧ r.cid = s.src.eng.nextId ∧ r.rid = s.srcDev.fab.nextId ∧
        (∀ pa, s.target (s.rS a) = .hbm pa true → ∀ l, (r.lo ≤ l ∧ l < r.hi) ↔ ∃ x, pa ≤ x ∧ x < pa + n ∧ x / 64 = l) ∧
        ((∀ pa, s.target (s.rS a) ≠ .hbm pa true) → r.hi = r.lo)) := by
    refine ⟨s.range_waits te kind b f slot, s.range_empty te kind f slot, fun some_ issues =>
      ⟨_, s.range_starts te kind a b f slot some_ issues, rfl, rfl, rfl, rfl, rfl, fun pa at_ l => ?_, State.rangeOp_noLines kind f⟩⟩
    obtain ⟨lo, hi⟩ := State.rangeOp_lines (b := b) kind f at_
    rw [lo, hi]
    exact touches_iff some_
  simp only [List.forall_mem_cons]
  exact ⟨starts .wb _ rfl, starts inv _ rfl, starts .wbinv _ rfl, nofun⟩

/-- Stash mappings start and end (R249, R250). -/
theorem stashMappingsStartAndEnd : Sys2Proof.Claims.StashMappingsStartAndEnd := by
  intro te ws a f s w
  refine ⟨fun issues => ?_, fun issues same => ?_⟩
  · obtain ⟨n, free⟩ := State.freeNumber_of_issues (o := slotCmap te ws a s) rfl issues rfl
    refine ⟨_, exec_issues (p := slotCmap te ws a s) rfl issues, rfl, ?_, rfl, rfl, rfl, rfl, rfl, rfl⟩
    simp [free]
  · obtain ⟨o, slot, passes⟩ := issues
    cases (show some (slotCunm te a f s) = some o from slot)
    obtain ⟨k, at_⟩ : ∃ k, s.src.stashAt (s.rS a) = some k := by
      cases h : s.src.stashAt (s.rS a) with
      | some k => exact ⟨k, rfl⟩
      | none => simpa [slotCunm, State.unmapCause, h, at_] using passes.cause
    obtain ⟨based, mapped⟩ := Car.mem_stash_of_stashAt at_
    rw [← same] at mapped
    obtain ⟨m, found⟩ : ∃ m, s.car.eng.stash.find? (fun x => x.num == k.num) = some m :=
      Option.isSome_iff_exists.mp (List.find?_isSome.mpr ⟨k, mapped, beq_self_eq_true k.num⟩)
    have number : m.num = k.num := eq_of_beq (List.find?_some (p := fun x : Stash => x.num == k.num) found)
    have effect : (slotCunm te a f s).eff s = s.unmap m f := by
      simp only [slotCunm, at_, found]
    refine ⟨s.unmap m f, m, List.mem_of_find?_eq_some found, _, (exec_passes slot passes).trans (congrArg _ effect),
      ⟨k, mapped, based, number.symm⟩, rfl, rfl, rfl, fun p outside => ?_, rfl, rfl, rfl, rfl⟩
    refine Mem.read_granules m.base _ (by simp) _ _ p (outside.imp_right fun h g hg same => ?_)
    obtain ⟨inside, bare⟩ := List.mem_filter.mp hg
    rw [List.mem_range] at inside
    rcases h with beyond | filled
    · omega
    · simp [← same, filled] at bare

/-- Settles O23: range operations and stash mappings start and end with their records. -/
theorem rangeAndStashSlots : Obligations.RangeAndStashSlots := ⟨rangeOperationsStart, stashMappingsStartAndEnd⟩

end Sys2Proof.Proofs

namespace Sys2Proof.Machine
open Sys2Proof.Claims

/-! WADRs that end (R158, R322). -/

/-- The scalar place of a WADR takes the value that an ended WADR gives. -/
def Car.endOne (c : Car) (p : Nat) : Car := if h : p < 72 then (if p = 0 then c else c.putS ⟨p, h⟩ 1#64) else c

/-- The scalar places of WADRs take it. -/
def Car.endAll (ps : List Nat) (c : Car) : Car := ps.foldl Car.endOne c

/-- A property that such a value keeps. -/
theorem Car.endAll_induct {P : Car → Prop} (step : ∀ c (p : Fin 72), P c → P (c.putS p 1#64)) (ps : List Nat) (c : Car) (base : P c) :
    P (c.endAll ps) := by
  induction ps generalizing c with
  | nil => exact base
  | cons p ps ih =>
    refine ih _ ?_
    unfold Car.endOne
    split
    · split
      · exact base
      · exact step _ _ base
    · exact base

/-- No WADR waits at a car whose WADRs have ended. -/
theorem Car.wait_endWadr (c : Car) : ∀ w ∈ c.endWadr.wait, ∀ a p b since limit, w ≠ .wadr a p b since limit := by
  refine Car.endAll_induct (P := fun c => ∀ w ∈ c.wait, ∀ a p b since limit, w ≠ .wadr a p b since limit) ?_ _ _ ?_
  · intro c p none w hw
    obtain ⟨v, hv, rfl⟩ := List.mem_map.mp (show w ∈ c.wait.map (Wait.without p.val) from hw)
    cases v <;> simp_all [Wait.without]
    exact absurd rfl (none _ hv _ _ _ _ _)
  · intro w hw a p b since limit same
    have := (List.mem_filter.mp hw).2
    rw [same] at this
    contradiction

/-- Ending WADRs goes beside a change of what traps are pending. -/
theorem Car.endWadr_withTrap (c : Car) (tr : TrapState) : ({ c with tr := tr } : Car).endWadr = { c.endWadr with tr := tr } := by
  have key (ps : List Nat) (c : Car) : ({ c with tr := tr } : Car).endAll ps = { c.endAll ps with tr := tr } := by
    induction ps generalizing c with
    | nil => rfl
    | cons p ps ih =>
      refine Eq.trans ?_ (ih _)
      refine congrArg (Car.endAll ps) ?_
      unfold Car.endOne
      split
      · split <;> rfl
      · rfl
  exact key _ { c with wait := _ }

/-- The entry to the handler takes of the car only its control registers, its registers and its mode. -/
theorem inHandler_congr {t : State} {c d : Car} {since now : Nat} {k : Trap} {resume trappc : BitVec 17} (ctl : c.ctl = d.ctl)
    (regs : c.regs = d.regs) (mode : c.tr.handler = d.tr.handler) (entered : InHandler t c since now k resume trappc) :
    InHandler t d since now k resume trappc := by
  unfold InHandler at entered ⊢
  rw [← ctl, ← regs, ← mode]
  exact entered

/-! The debug block of a core (R335, R336). -/

/-- A primary car beside a car is known by its place and its life. -/
theorem State.primaryOf_none_mapCar {s : State} {f : Car → Car} (ident : (f s.car).ident = s.car.ident) (place : (f s.car).place = s.car.place)
    (life : (f s.car).life = s.car.life) (alone : s.primaryOf s.car = none) : (s.mapCar f).primaryOf (s.mapCar f).car = none := by
  have resident : (f s.car).resident = s.car.resident := by simp only [Car.resident, life]
  simp only [State.primaryOf, State.cars, State.mapCar_car, State.mapCar_peers, List.find?_cons, ident, place, resident] at alone ⊢
  split at alone
  next secondary => rw [if_pos secondary]; split at alone <;> simp_all
  next primary => rw [if_neg primary]

/-- A debug block that asks for a halt is that of a car without a primary beside it. -/
theorem State.alone_of_wanted {s : State} (wanted : (s.debugOf s.car).wanted = true) : s.primaryOf s.car = none := by
  unfold State.debugOf at wanted
  split at wanted
  · exact absurd wanted (by decide)
  next alone => exact Option.not_isSome_iff_eq_none.mp alone

theorem State.debugOf_of_alone {s : State} (alone : s.primaryOf s.car = none) :
    s.debugOf s.car = Tab.get {} s.dev.debug s.car.ident.coreId.toNat := by
  simp [State.debugOf, alone]

/-! Pending causes (R329). -/

theorem mem_insertAsync {a b : Async} {xs : List Async} : b ∈ insertAsync a xs ↔ b = a ∨ b ∈ xs := by
  induction xs with
  | nil => simp [insertAsync]
  | cons x xs ih =>
    unfold insertAsync
    split
    · simp
    · simp only [List.mem_cons, ih]
      tauto

end Sys2Proof.Machine

namespace Sys2Proof.Proofs
open Sys2Proof.Machine Sys2Proof.Claims

/-- Settles O27: pending causes enter the handler, halts stand, errors are pending, and an expired watchdog aborts. -/
theorem asynchronousCausesAndHalts : Obligations.AsynchronousCausesAndHalts := by
  unfold Obligations.AsynchronousCausesAndHalts
  intro ha s r
  have traps : exec (.takeTrap r) s = .next s.trapNow := s.at_focused _
  have halts : exec (.haltTaken r) s = .next s.haltNow := s.at_focused _
  refine ⟨fun idle => ?_, fun a rest may main pending => ?_, fun idle => ?_, fun may main => ?_, fun dead => ?_, fun live main => ?_,
    fun early => ?_, fun x late main own => ?_⟩
  · rw [traps, State.trapNow, if_neg (by simp [idle])]
  · have unmasked : s.car.tr.masked = false := by
      simp only [State.mayTrap, Bool.and_eq_true, Bool.not_eq_true'] at may
      exact may.1.1.1.1.2
    have now : s.trapNow = (s.mapCar (fun c => { c with tr := { c.tr with pending := rest } })).takeTrap (a.trap s.car.pc) s.car.pc
        s.car.tr.lastPc s.car.lastIssue := by
      simp only [State.trapNow, if_pos may, pending]
      rfl
    have left := s.car.endWadr_withTrap { s.car.tr with pending := rest }
    have entry := inHandler_takeTrap (s := s.mapCar (fun c => { c with tr := { c.tr with pending := rest } })) main unmasked
      (a.trap s.car.pc) s.car.pc s.car.tr.lastPc s.car.lastIssue
    have frame := State.takeTrap_unmasked (s := s.mapCar (fun c => { c with tr := { c.tr with pending := rest } })) main unmasked
      (a.trap s.car.pc) s.car.pc s.car.tr.lastPc s.car.lastIssue
    refine ⟨_, traps.trans (congrArg _ now), inHandler_congr ?_ ?_ ?_ entry, ?_, ?_, ?_, ?_⟩
    · exact (congrArg Car.ctl left :)
    · exact (congrArg Car.regs left :)
    · exact (congrArg (fun c : Car => c.tr.handler) left :).trans (congrArg TrapState.handler (Car.endWadr_keeps s.car).1).symm
    · rw [frame]
      exact (congrArg (fun c : Car => c.tr.pending) left :)
    · rw [frame]
      rfl
    · rw [frame]
      exact Car.enter_spad ..
    · rw [frame]
      rfl
  · rw [halts, State.haltNow, if_neg (by simp [idle]), if_neg (by simp [idle])]
  · have halted : s.haltNow = (s.mapDebug (fun b => { b with stat := b.stat ||| 1#10, pc := s.car.pc, hit := false })).mapCar Car.endWadr := by
      simp only [State.haltNow, may, main, Bool.and_false, Bool.false_eq_true, if_false, if_true]
    obtain ⟨tr, ctl, loop, late, eng, spad, imem, arr, place, ident, life, pc⟩ := Car.endWadr_keeps s.car
    have alone : s.primaryOf s.car = none := State.alone_of_wanted (by
      simp only [State.mayHalt, Bool.and_eq_true] at may
      exact may.1.2)
    have alone' := State.primaryOf_none_mapCar (s := s.mapDebug (fun b => { b with stat := b.stat ||| 1#10, pc := s.car.pc, hit := false }))
      (f := Car.endWadr) ident place life alone
    have block := State.debugOf_of_alone alone'
    have written : Tab.get {} (s.mapDebug (fun b => { b with stat := b.stat ||| 1#10, pc := s.car.pc, hit := false })).dev.debug
        s.car.endWadr.ident.coreId.toNat = { s.debugOf s.car with
          stat := (s.debugOf s.car).stat ||| 1#10
          pc := s.car.pc
          hit := false } := by
      rw [ident, State.debugOf_of_alone alone]
      exact Tab.get_set_self _ _ _ _
    refine ⟨_, halts.trans (congrArg _ halted), ?_, ?_, pc, spad, rfl, s.car.wait_endWadr⟩
    · rw [block]
      refine (congrArg Debug.halted written).trans ?_
      simp [Debug.halted]
    · rw [block]
      exact congrArg Debug.pc written
  · exact (s.at_focused _).trans (congrArg _ (if_neg (by simp [dead])))
  · have error : exec (.storeErrorResponse r ha) s = .next (s.mapCar (fun c => c.pend (.uncorrectable ha))) := by
      refine (s.at_focused _).trans (congrArg _ ((if_pos live).trans ?_))
      rw [State.storeError, main]
      rfl
    refine ⟨_, error, ⟨rfl, rfl, rfl, rfl, rfl, rfl, rfl, rfl, rfl, rfl, rfl⟩, ⟨fun _ => rfl, fun _ => rfl, fun _ => rfl, fun _ _ => rfl⟩,
      mem_insertAsync.mpr (.inl rfl), fun a ha => mem_insertAsync.mpr (.inr ha)⟩
  · exact (s.at_focused _).trans (congrArg _ (if_neg (by simp [early])))
  · refine ⟨_, (s.at_focused _).trans (congrArg _ (if_pos late)), ?_⟩
    rw [State.abortMine_of_consist main own]
    exact ⟨s.abortConsist_gone x _ _, s.abortConsist_consists x _ _, s.abortConsist_services x _ _⟩

end Sys2Proof.Proofs

namespace Sys2Proof.Machine
open Sys2Proof.Claims

/-! A producer fills its register (R90, R134). -/

/-- The bit of a place, cleared. -/
theorem getLsbD_clear {n : Nat} (m : BitVec n) {p : Nat} (inside : p < n) : (m &&& ~~~(1#n <<< p)).getLsbD p = false := by
  simp [inside]

theorem getLsbD_marked {n : Nat} (m : BitVec n) {p : Nat} (inside : p < n) : (m ||| (1#n <<< p)).getLsbD p = true := by
  simp [inside]

/-- A car with its producer gone, its destination filled. -/
def Car.put (c : Car) : Dest → Car
  | .s p x => if h : p < 72 then c.putS ⟨p, h⟩ x else c
  | .v p x => c.putV p x
  | .k p x => c.putK p x

/-- A car without a producer. -/
def Car.without (c : Car) (f : Flight) : Car := { c with flight := c.flight.filter fun g => g.id != f.id }

theorem Car.fill_eq (c : Car) (f : Flight) :
    c.fill f = if f.poison then ((c.without f).put f.dest).markPoison f.dest else (c.without f).put f.dest := rfl

/-- What a fill leaves. -/
structure Car.Filled (c d : Car) : Prop where
  spad : d.spad = c.spad
  pc : d.pc = c.pc
  ctl : d.ctl = c.ctl
  flight : ∀ g ∈ d.flight, g ∈ c.flight

theorem Car.put_filled (c : Car) (d : Dest) : c.Filled (c.put d) := by
  cases d with
  | s p x =>
    show c.Filled (if h : p < 72 then c.putS ⟨p, h⟩ x else c)
    split
    · exact ⟨rfl, rfl, rfl, fun g hg => List.mem_of_mem_filter hg⟩
    · exact ⟨rfl, rfl, rfl, fun g hg => hg⟩
  | v p x => exact ⟨rfl, rfl, rfl, fun g hg => List.mem_of_mem_filter hg⟩
  | k p x =>
    show c.Filled (c.putK p x)
    unfold Car.putK
    split
    · exact ⟨rfl, rfl, rfl, fun g hg => hg⟩
    · exact ⟨rfl, rfl, rfl, fun g hg => List.mem_of_mem_filter hg⟩

/-- A poison mark changes the marks alone. -/
theorem Car.markPoison_eq (c : Car) (d : Dest) : c.markPoison d = { c with marks := (c.markPoison d).marks } := by
  cases d <;> rfl

theorem Car.fill_filled (c : Car) (f : Flight) : c.Filled (c.fill f) ∧ ∀ g ∈ (c.fill f).flight, g.id ≠ f.id := by
  obtain ⟨spad, pc, ctl, flight⟩ := Car.put_filled (c.without f) f.dest
  have kept : ∀ g ∈ ((c.without f).put f.dest).flight, g ∈ c.flight ∧ g.id ≠ f.id := by
    intro g hg
    obtain ⟨there, other⟩ := List.mem_filter.mp (flight g hg)
    exact ⟨there, by simpa using other⟩
  rw [Car.fill_eq]
  split
  · rw [Car.markPoison_eq]
    exact ⟨⟨spad, pc, ctl, fun g hg => (kept g hg).1⟩, fun g hg => (kept g hg).2⟩
  · exact ⟨⟨spad, pc, ctl, fun g hg => (kept g hg).1⟩, fun g hg => (kept g hg).2⟩

section
variable {c : Car} {f : Flight} {p : Nat}

theorem Car.fill_s {x : Word} (dest : f.dest = .s p x) (h : p < 72) :
    (c.fill f).regs.s[p] = x ∧ (c.fill f).marks.emptyS.getLsbD p = false ∧ (c.fill f).marks.poisonS.getLsbD p = f.poison ∧
      ∀ q (k : q < 72), q ≠ p → (c.fill f).regs.s[q] = c.regs.s[q] := by
  have kept (q) (k : q < 72) (other : q ≠ p) : (c.regs.s.set p x h)[q] = c.regs.s[q] := Vector.getElem_set_ne h k (Ne.symm other)
  rw [Car.fill_eq, dest, Car.put, dif_pos h]
  cases f.poison with
  | true => exact ⟨Vector.getElem_set_self h, getLsbD_clear _ h, getLsbD_marked _ h, kept⟩
  | false => exact ⟨Vector.getElem_set_self h, getLsbD_clear _ h, getLsbD_clear _ h, kept⟩

theorem Car.fill_v {x : VWord} (dest : f.dest = .v p x) :
    (c.fill f).rV p = x ∧ (p < 1024 → (c.fill f).marks.emptyV.getLsbD p = false ∧ (c.fill f).marks.poisonV.getLsbD p = f.poison) ∧
      (c.fill f).regs.s = c.regs.s ∧ ∀ q, q ≠ p → (c.fill f).rV q = c.rV q := by
  have same : (Tab.set c.regs.v p x).get 0#32768 p = x := Tab.get_set_self _ _ _ _
  have kept (q) (other : q ≠ p) : (Tab.set c.regs.v p x).get 0#32768 q = c.rV q := Tab.get_set_other _ _ _ other
  rw [Car.fill_eq, dest, Car.put]
  cases f.poison with
  | true => exact ⟨same, fun h => ⟨getLsbD_clear _ h, getLsbD_marked _ h⟩, rfl, kept⟩
  | false => exact ⟨same, fun h => ⟨getLsbD_clear _ h, getLsbD_clear _ h⟩, rfl, kept⟩

theorem Car.fill_k {x : Mask} (dest : f.dest = .k p x) (h : p < 16) (some_ : p ≠ 0) :
    (c.fill f).regs.k[p] = x ∧ (c.fill f).marks.emptyK.getLsbD p = false ∧ (c.fill f).marks.poisonK.getLsbD p = f.poison ∧
      (c.fill f).regs.s = c.regs.s := by
  have same : (c.regs.k.setIfInBounds p x)[p] = x := by simp
  rw [Car.fill_eq, dest, Car.put, Car.putK, if_neg some_]
  cases f.poison with
  | true => exact ⟨same, getLsbD_clear _ h, getLsbD_marked _ h, rfl⟩
  | false => exact ⟨same, getLsbD_clear _ h, getLsbD_clear _ h, rfl⟩

end

/-- The producer that fills its register: as it is, or with an error response (R134). -/
def Flight.ended (f : Flight) (err : Bool) : Flight := if f.due.isNone && err then f.failed else f

section
variable {f : Flight} {err : Bool} {p : Nat}

theorem Flight.ended_id : (f.ended err).id = f.id := by
  unfold Flight.ended
  split <;> rfl

theorem Flight.ended_poison : (f.ended err).poison = (f.poison || (f.due.isNone && err)) := by
  unfold Flight.ended
  split
  next bad => simp [bad, Flight.failed]
  next good => simp [Bool.eq_false_of_not_eq_true good]

theorem Flight.ended_s {x : Word} (dest : f.dest = .s p x) : (f.ended err).dest = .s p (if f.due.isNone && err then 0#64 else x) := by
  unfold Flight.ended
  split
  · cases h : f.onError <;> simp [Flight.failed, dest, h, Dest.zeroed]
  · exact dest

theorem Flight.ended_v {x : VWord} (dest : f.dest = .v p x) :
    (f.ended err).dest = .v p (if f.due.isNone && err then f.onError.getD 0#32768 else x) := by
  unfold Flight.ended
  split
  · cases h : f.onError <;> simp [Flight.failed, dest, h, Dest.zeroed]
  · exact dest

theorem Flight.ended_k {x : Mask} (dest : f.dest = .k p x) : (f.ended err).dest = .k p (if f.due.isNone && err then 0#4096 else x) := by
  unfold Flight.ended
  split
  · cases h : f.onError <;> simp [Flight.failed, dest, h, Dest.zeroed]
  · exact dest

end

/-- Counting an error that a walk meets writes no memory. -/
theorem Device.countWalk_mem (d : Device) (va : Nat) : (d.countWalk va).mem = d.mem := by
  unfold Device.countWalk
  split <;> rfl

/-- Writes that land leave the scalar registers and the control registers. -/
theorem Car.landDue_kept (c : Car) : c.landDue.late = c.late.filter (fun l => decide (l.age < l.what.delay)) ∧ c.landDue.regs.s = c.regs.s ∧
    c.landDue.ctl = c.ctl := by
  unfold Car.landDue
  refine List.foldlRecOn (motive := fun k => Car.late k = c.late.filter (fun l => decide (l.age < l.what.delay)) ∧ k.regs.s = c.regs.s ∧
    k.ctl = c.ctl) _ _ ⟨rfl, rfl, rfl⟩ ?_
  intro k kept l _
  cases h : l.what <;> exact kept

/-- The TLB of the focused car's core takes a translation. -/
theorem State.addTlb_car (s : State) (w : Walked) :
    (s.addTlb w).car = { s.car with eng := { s.car.eng with tlb := tlbAdd 256 s.car.eng.tlb w } } :=
  if_pos rfl

end Sys2Proof.Machine

namespace Sys2Proof.Proofs
open Sys2Proof.Machine Sys2Proof.Claims

/-- Settles O28: producers fill, delayed writes land, walks end. -/
theorem producersLand : Obligations.ProducersLand := by
  unfold Obligations.ProducersLand
  intro n err f s r bad
  have lands : exec (.fillDestination r n err) s = .next (s.land n err) := s.at_focused _
  refine ⟨fun found => ⟨fun early => ?_, fun due => ?_⟩, ⟨_, s.at_focused _, ?_, ?_, ?_, rfl, rfl⟩, fun va since walking => ?_⟩
  · rw [lands, State.land, found]
    rcases early with ⟨d, fixed, early⟩ | ⟨open_, owed⟩
    · simp only [fixed, if_neg (Nat.not_le.mpr early)]
    · simp only [open_, owed, if_true]
  · have fills : s.land n err = s.mapCar fun c => c.fill (f.ended err) := by
      rw [State.land, found]
      rcases due with ⟨d, fixed, due⟩ | ⟨open_, owed⟩
      · simp only [fixed, if_pos due, Flight.ended, Option.isNone_some, Bool.false_and, Bool.false_eq_true, if_false]
      · simp only [open_, owed, Flight.ended, Option.isNone_none, Bool.true_and, Bool.false_eq_true, if_false]
    have id : (f.ended err).id = n := Flight.ended_id.trans (eq_of_beq (List.find?_some (p := fun g : Flight => g.id == n) found))
    obtain ⟨⟨spad, pc, ctl, -⟩, gone⟩ := s.car.fill_filled (f.ended err)
    refine ⟨_, lands.trans (congrArg _ fills), rfl, rfl, spad, pc, ctl, fun g hg => id ▸ gone g hg, ?_⟩
    split
    next p x dest =>
      intro h
      rw [← Flight.ended_poison]
      exact Car.fill_s (Flight.ended_s dest) h
    next p x dest =>
      rw [← Flight.ended_poison]
      exact Car.fill_v (Flight.ended_v dest)
    next p x dest =>
      intro h some_
      rw [← Flight.ended_poison]
      exact Car.fill_k (Flight.ended_k dest) h some_
  · exact s.car.landDue_kept.1
  · exact s.car.landDue_kept.2.1
  · exact s.car.landDue_kept.2.2
  · have ends : exec (.xltWalkEnd r) s = .next s.walkEnds := s.at_focused _
    cases walk : s.dev.walk va.toNat with
    | some w =>
      have ended : s.walkEnds = (s.addTlb w).mapCar (fun c => { c with eng := { c.eng with walk := .none } }) := by
        rw [State.walkEnds, walking]
        simp only [walk]
      refine ⟨_, ends.trans (congrArg _ ended), ?_, rfl, fun v hv => ⟨rfl, ?_⟩, nofun⟩
      · exact (congrArg Car.regs (s.addTlb_car w) :)
      · cases hv
        refine ⟨⟨w.page, w.size, w.leaf⟩, ?_, rfl, rfl, rfl⟩
        have added := congrArg (fun c : Car => c.eng.tlb) (s.addTlb_car w)
        exact added ▸ List.mem_cons_self
    | none =>
      have ended : s.walkEnds = (s.mapDev (fun d => d.countWalk va.toNat)).mapCar (fun c => { c with eng := { c.eng with walk := .faulted va } }) := by
        rw [State.walkEnds, walking]
        simp only [walk]
      exact ⟨_, ends.trans (congrArg _ ended), rfl, s.dev.countWalk_mem _, nofun, fun _ => ⟨rfl, rfl⟩⟩

end Sys2Proof.Proofs

namespace Sys2Proof.Machine
open Sys2Proof.Claims

/-! Ports of the fabric (R401, R407, R409, R410). -/

theorem Device.port_mapPort (d : Device) (p : Nat) (f : Port → Port) : (d.mapPort p f).fab.port p = f (d.fab.port p) := Tab.get_set_self _ _ _ _

theorem Device.port_mapPort_ne (d : Device) {p q : Nat} (f : Port → Port) (other : q ≠ p) : (d.mapPort p f).fab.port q = d.fab.port q :=
  Tab.get_set_other _ _ _ other

/-- Where a packet goes depends on the routes and on the ports that are up. -/
theorem Fabric.egress_congr {f g : Fabric} (route : g.route = f.route) (up : ∀ q, (g.port q).up = (f.port q).up) (pkg : Nat) (esc : Bool) :
    g.egress pkg esc = f.egress pkg esc := by
  simp only [Fabric.egress, route, up]

/-- A port with flits more in its replay buffer. -/
def Port.resent (x : Port) (fs : List Flit) : Port := fs.foldl (fun x f => x.keepFlit f.pkg) x

theorem Port.resent_frame (x : Port) (fs : List Flit) : ∃ r n, x.resent fs = { x with replay := r, txSeq := n } := by
  refine List.foldlRecOn (motive := fun (y : Port) => ∃ r n, y = { x with replay := r, txSeq := n }) fs _ ⟨x.replay, x.txSeq, rfl⟩ ?_
  rintro _ ⟨r, n, rfl⟩ f _
  exact ⟨_, _, rfl⟩

theorem Port.resent_up (x : Port) (fs : List Flit) : (x.resent fs).up = x.up := by
  obtain ⟨r, n, eq⟩ := x.resent_frame fs
  rw [eq]
  rfl

/-- A buffer with room keeps every flit (R407). -/
theorem Port.resent_room (x : Port) (fs : List Flit) (room : x.replay.length + fs.length ≤ 2048) :
    (x.resent fs).replay.map Flit.pkg = (x.replay ++ fs).map Flit.pkg ∧ (x.resent fs).txSeq = x.txSeq + BitVec.ofNat 12 fs.length := by
  induction fs generalizing x with
  | nil => simp [Port.resent]
  | cons f fs ih =>
    rw [List.length_cons] at room
    have kept : (x.keepFlit f.pkg).replay = x.replay ++ [⟨x.txSeq, f.pkg⟩] := by
      have : x.replay.length - 2047 = 0 := by omega
      simp [Port.keepFlit, this]
    obtain ⟨replay, seq⟩ := ih (x.keepFlit f.pkg) (by rw [kept]; simp; omega)
    have step : x.resent (f :: fs) = (x.keepFlit f.pkg).resent fs := rfl
    rw [step, replay, seq, kept]
    constructor
    · simp
    · rw [show (x.keepFlit f.pkg).txSeq = x.txSeq + 1#12 from rfl, List.length_cons, BitVec.add_assoc, Nat.add_comm, BitVec.ofNat_add]

/-- A flit is sent again on its new route. -/
def Device.resendOne (d : Device) (f : Flit) : Device :=
  match d.fab.egress f.pkg true with
  | some (q, _) => d.sendFlits q f.pkg 1
  | none => d

/-- The flits that the escape channel takes to a port. -/
def Fabric.escapees (f : Fabric) (q : Nat) (fs : List Flit) : List Flit := fs.filter (fun x => (f.egress x.pkg true).map Prod.fst == some q)

theorem Device.port_resendOne (d : Device) (f : Flit) (q : Nat) :
    (d.resendOne f).fab.port q = (d.fab.port q).resent (d.fab.escapees q [f]) := by
  unfold Device.resendOne Fabric.escapees
  cases way : d.fab.egress f.pkg true with
  | none => simp [way, Port.resent]
  | some e =>
    obtain ⟨r, b⟩ := e
    by_cases same : r = q
    · subst same
      simp only [way, List.filter_cons, Option.map_some, beq_self_eq_true, if_true]
      exact (d.port_mapPort r (fun x => x.keepFlit f.pkg) :)
    · simp only [way, List.filter_cons, Option.map_some, Option.some_beq_some, beq_eq_false_iff_ne.mpr same]
      exact (d.port_mapPort_ne (fun x => x.keepFlit f.pkg) (Ne.symm same) :)

theorem Device.resendOne_frame (d : Device) (f : Flit) : (d.resendOne f).mem = d.mem ∧ (d.resendOne f).fab.route = d.fab.route := by
  unfold Device.resendOne
  split <;> exact ⟨rfl, rfl⟩

theorem Device.resend_spec (fs : List Flit) (d : Device) :
    let e := fs.foldl Device.resendOne d
    e.mem = d.mem ∧ e.fab.route = d.fab.route ∧ ∀ q, e.fab.port q = (d.fab.port q).resent (d.fab.escapees q fs) := by
  induction fs generalizing d with
  | nil => exact ⟨rfl, rfl, fun _ => rfl⟩
  | cons f fs ih =>
    obtain ⟨mem, route⟩ := d.resendOne_frame f
    obtain ⟨mem', route', ports⟩ := ih (d.resendOne f)
    refine ⟨mem'.trans mem, route'.trans route, fun q => (ports q).trans ?_⟩
    have same : (d.resendOne f).fab.escapees q fs = d.fab.escapees q fs := by
      unfold Fabric.escapees
      simp only [Fabric.egress_congr route (fun q => by rw [d.port_resendOne, Port.resent_up])]
    rw [same, d.port_resendOne]
    simp only [Fabric.escapees, List.filter_cons, List.filter_nil]
    split <;> rfl

/-- What a port that goes down leaves of the ports (R410). -/
theorem Device.escape_spec (d : Device) (before : Fabric) (p : Nat) :
    let e := d.escape before p
    e.mem = d.mem ∧ (∀ q, (e.fab.port q).up = (d.fab.port q).up) ∧
    (∃ r n, e.fab.port p = { d.fab.port p with replay := r, txSeq := n }) ∧
    ∀ q, q ≠ p → e.fab.port q = (d.fab.port q).resent (e.fab.escapees q (before.port p).replay) := by
  intro e
  let cut := { d with fab := d.fab.strand before p }.mapPort p (fun x => { x with replay := [] })
  let sent := (before.port p).replay.foldl Device.resendOne cut
  obtain ⟨mem, route, ports⟩ := Device.resend_spec (before.port p).replay cut
  have final : e.mem = sent.mem ∧ e.fab.route = sent.fab.route ∧ e.fab.ports = sent.fab.ports := by
    show (Device.escape d before p).mem = _ ∧ (Device.escape d before p).fab.route = _ ∧ (Device.escape d before p).fab.ports = _
    simp only [Device.escape]
    split <;> exact ⟨rfl, rfl, rfl⟩
  obtain ⟨mem', route', ports'⟩ := final
  have port (q : Nat) : e.fab.port q = (cut.fab.port q).resent (cut.fab.escapees q (before.port p).replay) := by
    rw [← ports q]
    exact congrArg (fun t => Tab.get ({} : Port) t q) ports'
  have cutOther (q : Nat) (other : q ≠ p) : cut.fab.port q = d.fab.port q := Device.port_mapPort_ne _ _ other
  have cutSame : cut.fab.port p = { d.fab.port p with replay := [] } := Device.port_mapPort _ _ _
  have up (q : Nat) : (e.fab.port q).up = (cut.fab.port q).up := by rw [port, Port.resent_up]
  have cutUp (q : Nat) : (cut.fab.port q).up = (d.fab.port q).up := by
    by_cases same : q = p
    · rw [same, cutSame]
      rfl
    · rw [cutOther q same]
  have ways (q : Nat) (fs : List Flit) : e.fab.escapees q fs = cut.fab.escapees q fs := by
    unfold Fabric.escapees
    simp only [Fabric.egress_congr (f := cut.fab) (g := e.fab) (route'.trans route) up]
  refine ⟨mem'.trans mem, fun q => (up q).trans (cutUp q), ?_, fun q other => ?_⟩
  · obtain ⟨r, n, eq⟩ := (cut.fab.port p).resent_frame (cut.fab.escapees p (before.port p).replay)
    exact ⟨r, n, by rw [port, eq, cutSame]⟩
  · rw [port, ways, cutOther q other]

section
variable (s : State) (p : Nat)

/-- Only a port changes. -/
theorem onlyPort_mapPort (f : Port → Port) : OnlyPort s (s.mapDev fun d => d.mapPort p f) p :=
  ⟨rfl, rfl, rfl, fun _ other => s.dev.port_mapPort_ne f other⟩

/-- A port that goes down leaves its flits to the escape channel (R410). -/
theorem escapes_mapPort (f : Port → Port) : Escapes s (s.mapDev fun d => (d.mapPort p f).escape d.fab p) p := by
  obtain ⟨mem, -, -, others⟩ := (s.dev.mapPort p f).escape_spec s.dev.fab p
  refine ⟨rfl, rfl, mem, fun q other => ?_⟩
  intro old mine
  have port : ((s.dev.mapPort p f).escape s.dev.fab p).fab.port q = old.resent mine :=
    (others q other).trans (by rw [s.dev.port_mapPort_ne f other]; rfl)
  refine ⟨fun none => ?_, ?_, fun room => ?_⟩
  · show ((s.dev.mapPort p f).escape s.dev.fab p).fab.port q = old
    rw [port, none]
    rfl
  · obtain ⟨r, n, eq⟩ := old.resent_frame mine
    exact ⟨r, n, port.trans eq⟩
  · show (((s.dev.mapPort p f).escape s.dev.fab p).fab.port q).replay.map Flit.pkg = _ ∧
      (((s.dev.mapPort p f).escape s.dev.fab p).fab.port q).txSeq = _
    rw [port]
    exact old.resent_room mine room

end

/-! Lanes of a port (R446 to R448). -/

section
variable (x : Port) (l : Nat)

theorem Port.failLane_eq : x.failLane l = if x.retrain = none ∧ l < 34 ∧ x.failed.getLsbD l = false
    then { x with failed := x.failed ||| (1#34 <<< l), failing := x.failing ++ [l] } else x := by
  unfold Port.failLane
  by_cases fails : x.retrain = none ∧ l < 34 ∧ x.failed.getLsbD l = false
  · obtain ⟨idle, inside, works⟩ := fails
    refine (if_neg ?_).trans (if_pos ⟨idle, inside, works⟩).symm
    simp [idle, inside, works, -BitVec.getLsbD_eq_getElem]
  · rw [if_neg fails, if_pos]
    simp only [Bool.or_eq_true, decide_eq_true_eq, Option.isSome_iff_ne_none]
    by_contra neither
    simp only [not_or, not_not, not_le, Bool.not_eq_true] at neither
    exact fails ⟨neither.1.1, neither.1.2, neither.2⟩

variable {x l}

theorem Port.remapLane_of_not_mem (works : l ∉ x.failing) : x.remapLane l = x := if_pos (by simpa using works)

/-- A failed lane is no longer in failure, and only a port without a spare loses a lane (R447). -/
theorem Port.remapLane_of_mem (fails : l ∈ x.failing) :
    l ∉ (x.remapLane l).failing ∧
    (l ∉ x.free → ∀ a rest, x.free = a :: rest → (x.remapLane l).free = rest ∧ (x.remapLane l).active = x.active) ∧
    (x.free = [] → (x.remapLane l).active = x.active - 1 ∧ (x.active - 1 < 16 → (x.remapLane l).down = true)) := by
  unfold Port.remapLane
  rw [if_neg (by simpa using fails)]
  refine ⟨?_, fun carries a rest free => ?_, fun free => ?_⟩
  · dsimp only
    split
    · simp
    · split <;> simp
  · have carries' : (x.free.contains l) = false := by simpa using carries
    dsimp only
    rw [carries', if_neg Bool.false_ne_true, free]
    exact ⟨rfl, rfl⟩
  · simp only [free, List.contains_nil, Bool.false_eq_true, if_false]
    exact ⟨trivial, fun few => by simp [few]⟩

/-- A forced lane (R446, R447). -/
def Port.forced (x : Port) (k : BitVec 6) : Port :=
  if k.toNat < 32 then ({ x with flane := k } : Port).failLane k.toNat else { x with flane := k }

theorem Port.flane_forced (x : Port) (k : BitVec 6) : (x.forced k).flane = k := by
  unfold Port.forced Port.failLane
  split
  · split <;> rfl
  · rfl

theorem Port.failed_forced_spare {k : BitVec 6} (spare : 32 ≤ k.toNat) : (x.forced k).failed = x.failed := by
  rw [Port.forced, if_neg (Nat.not_lt.mpr spare)]

theorem Port.failed_forced {k : BitVec 6} (active : k.toNat < 32) (idle : x.retrain = none) : (x.forced k).failed.getLsbD k.toNat = true := by
  rw [Port.forced, if_pos active, Port.failLane_eq]
  split
  · exact getLsbD_marked _ (by omega)
  next works =>
    by_contra good
    exact works ⟨idle, by omega, Bool.eq_false_of_not_eq_true good⟩

/-- A port at the end of a retrain (R448). -/
def Port.retrainEnds (now : Nat) (pass : BitVec 34) (x : Port) : Port :=
  match x.retrain with
  | some t => if t ≤ now then x.retrained pass else x
  | none => x

theorem exec_retrainComplete (s : State) (p : Fin 128) (pass : BitVec 34) :
    exec (.retrainComplete p pass) s = .next (s.mapDev fun d => d.mapPort p.val (Port.retrainEnds s.now pass)) := rfl

theorem Port.retrainEnds_due (x : Port) {now e : Nat} {pass : BitVec 34} (runs : x.retrain = some e) (due : e ≤ now) :
    x.retrainEnds now pass = x.retrained pass := by
  simp only [Port.retrainEnds, runs, if_pos due]

theorem Port.retrainEnds_early (x : Port) {now e : Nat} {pass : BitVec 34} (runs : x.retrain = some e) (early : now < e) :
    x.retrainEnds now pass = x := by
  simp only [Port.retrainEnds, runs, if_neg (Nat.not_le.mpr early)]

/-- A port that retrains until a cycle (R448). -/
def Port.retrains (e : Nat) (x : Port) : Port := { x with retrain := some e }

/-- LNK_RETRAIN: the port is down, and leaves its flits when it was not (R448, R410). -/
theorem exec_lnkRetrain (s : State) (p : Fin 128) :
    ∃ t, exec (.lnkRetrain p) s = .next t ∧ (t.dev.fab.port p.val).up = false ∧
      ((s.dev.fab.port p.val).retrain = none → Escapes s t p.val ∧ (t.dev.fab.port p.val).retrain = some (s.now + Config.msCycles)) := by
  generalize ms : Config.msCycles = k
  by_cases idle : (s.dev.fab.port p.val).retrain = none
  · have port := s.dev.port_mapPort p.val (Port.retrains (s.dev.now + k))
    obtain ⟨-, up, ⟨r, n, now⟩, -⟩ := (s.dev.mapPort p.val (Port.retrains (s.dev.now + k))).escape_spec s.dev.fab p.val
    have runs : exec (.lnkRetrain p) s = .next (s.mapDev fun d => (d.mapPort p.val (Port.retrains (s.dev.now + k))).escape d.fab p.val) := by
      rw [← ms]
      exact congrArg Host.Outcome.next (congrArg (fun d => { s with dev := d }) (if_neg (by simp [idle])))
    refine ⟨_, runs, (up _).trans ?_, fun _ => ⟨escapes_mapPort s p.val _, (congrArg Port.retrain now).trans ?_⟩⟩
    · rw [port]
      exact Bool.and_false _
    · rw [port]
      rfl
  · refine ⟨s, congrArg Host.Outcome.next (congrArg (fun d => { s with dev := d }) (if_pos (Option.isSome_iff_ne_none.mpr idle))), ?_,
      fun none => absurd none idle⟩
    show (!(s.dev.fab.port p.val).down && (s.dev.fab.port p.val).retrain.isNone) = false
    rw [Option.isNone_eq_false_iff.mpr (Option.isSome_iff_ne_none.mpr idle), Bool.and_false]

/-- A port one of whose lanes may be at a threshold (R447). -/
def Port.strained (now l : Nat) (x : Port) : Port := if x.laneBad now l then x.failLane l else x

theorem exec_laneFail (s : State) (p : Fin 128) (l : Nat) :
    exec (.laneFail p l) s = .next (s.mapDev fun d => d.mapPort p.val (Port.strained d.now l)) := rfl

theorem Port.strained_eq (x : Port) (now l : Nat) :
    x.strained now l = if x.laneBad now l = true ∧ x.retrain = none ∧ l < 34 ∧ x.failed.getLsbD l = false
      then { x with failed := x.failed ||| (1#34 <<< l), failing := x.failing ++ [l] } else x := by
  rw [Port.strained, Port.failLane_eq]
  by_cases bad : x.laneBad now l = true
  · simp only [bad, if_true, true_and]
  · rw [if_neg bad, if_neg fun h => bad h.1]

theorem port_laneFail (s : State) (p : Fin 128) (l : Nat) :
    let x := s.dev.fab.port p.val
    (s.mapDev fun d => d.mapPort p.val (Port.strained d.now l)).dev.fab.port p.val =
      if x.laneBad s.dev.now l = true ∧ x.retrain = none ∧ l < 34 ∧ x.failed.getLsbD l = false
        then { x with failed := x.failed ||| (1#34 <<< l), failing := x.failing ++ [l] } else x :=
  (s.dev.port_mapPort p.val (Port.strained s.dev.now l)).trans (Port.strained_eq _ s.dev.now l)

/-- LANE_FAIL (R447). -/
theorem laneFails (s : State) (p : Fin 128) (l : Nat) :
    let x := s.dev.fab.port p.val
    ∃ t, exec (.laneFail p l) s = .next t ∧ OnlyPort s t p.val ∧
      t.dev.fab.port p.val = if x.laneBad s.now l = true ∧ x.retrain = none ∧ l < 34 ∧ x.failed.getLsbD l = false
        then { x with failed := x.failed ||| (1#34 <<< l), failing := x.failing ++ [l] } else x := by
  intro x
  refine ⟨s.mapDev fun d => d.mapPort p.val (Port.strained d.now l), exec_laneFail s p l, ?_, ?_⟩
  · exact ⟨rfl, rfl, rfl, fun q other => (s.dev.port_mapPort_ne (Port.strained s.dev.now l) other :)⟩
  · exact port_laneFail s p l

/-- LANE_REMAP: the port with its lane moved, or the port that goes down and leaves its flits (R447, R409, R410). -/
theorem exec_laneRemap (s : State) (p : Fin 128) (l : Nat) :
    let x := s.dev.fab.port p.val
    ∃ t, exec (.laneRemap p l) s = .next t ∧ (x.up = true → (x.remapLane l).up = false → Escapes s t p.val) ∧
      (x.up = false ∨ (x.remapLane l).up = true → OnlyPort s t p.val) ∧
      ∃ r n, t.dev.fab.port p.val = { x.remapLane l with replay := r, txSeq := n } := by
  intro x
  have port := s.dev.port_mapPort p.val (fun x => x.remapLane l)
  by_cases falls : x.up = true ∧ (x.remapLane l).up = false
  · obtain ⟨r, n, now⟩ := ((s.dev.mapPort p.val (fun x => x.remapLane l)).escape_spec s.dev.fab p.val).2.2.1
    refine ⟨s.mapDev fun d => (d.mapPort p.val (fun x => x.remapLane l)).escape d.fab p.val,
      congrArg Host.Outcome.next (congrArg (fun d => { s with dev := d }) (if_pos ?_)), fun _ _ => escapes_mapPort s p.val _, ?_, r, n, ?_⟩
    · rw [port]
      simp only [Bool.and_eq_true, Bool.not_eq_true']
      exact falls
    · rintro (down | up)
      · simp [down] at falls
      · simp [up] at falls
    · exact now.trans (by rw [port])
  · refine ⟨s.mapDev fun d => d.mapPort p.val (fun x => x.remapLane l),
      congrArg Host.Outcome.next (congrArg (fun d => { s with dev := d }) (if_neg ?_)), fun was is => absurd ⟨was, is⟩ falls,
      fun _ => onlyPort_mapPort s p.val _, _, _, port⟩
    rw [port]
    simp only [Bool.and_eq_true, Bool.not_eq_true']
    exact falls

end

end Sys2Proof.Machine

namespace Sys2Proof.Proofs
open Sys2Proof.Machine Sys2Proof.Claims

/-- Lanes fail, move and retrain (R409, R410, R446 to R448). -/
theorem laneRepair : Sys2Proof.Claims.LaneRepair := by
  intro p l k pass s x good
  have port (f : Port → Port) : (s.mapDev fun d => d.mapPort p.val f).dev.fab.port p.val = f x := s.dev.port_mapPort p.val f
  have ms : Config.msCycles = 2000000 := rfl
  refine ⟨?_, ?_, ?_, ?_, ?_, ?_, ?_, ?_⟩
  · exact laneFails s p l
  · refine ⟨_, rfl, onlyPort_mapPort s p.val _, ?_, fun active idle => ?_, fun spare => ?_⟩
    all_goals rw [port]
    · exact Port.flane_forced x k
    · exact Port.failed_forced active idle
    · exact Port.failed_forced_spare spare
  · obtain ⟨t, runs, escapes, alone, r, n, now⟩ := exec_laneRemap s p l
    have up : (t.dev.fab.port p.val).up = (x.remapLane l).up := by rw [now]; rfl
    refine ⟨t, runs, fun was is => escapes was (up ▸ is), fun still => alone (up ▸ still), fun works => ?_, fun fails => ?_,
      fun fails carries a rest free => ?_, fun fails none => ?_⟩
    · rw [now, Port.remapLane_of_not_mem works]
    · rw [now]
      exact (Port.remapLane_of_mem fails).1
    · rw [now]
      exact (Port.remapLane_of_mem fails).2.1 carries a rest free
    · rw [now]
      exact (Port.remapLane_of_mem fails).2.2 none
  · refine ⟨_, rfl, onlyPort_mapPort s p.val _, ?_⟩
    rw [port]
    intro e he
    obtain ⟨k, -, rfl⟩ := List.mem_map.mp he
    exact ⟨rfl, rfl, rfl, rfl, rfl⟩
  · exact fun trains => congrArg Host.Outcome.next (congrArg (fun d => { s with dev := d }) (if_pos (Option.isSome_iff_ne_none.mpr trains)))
  · obtain ⟨t, runs, down, trains⟩ := exec_lnkRetrain s p
    refine ⟨t, runs, down, fun idle => ?_⟩
    obtain ⟨escapes, retrain⟩ := trains idle
    exact ⟨escapes, retrain.trans (congrArg (fun k => some (s.now + k)) ms)⟩
  · intro e runs due
    have now : (s.mapDev fun d => d.mapPort p.val (Port.retrainEnds s.now pass)).dev.fab.port p.val = x.retrained pass :=
      (port _).trans (x.retrainEnds_due runs due)
    refine ⟨_, exec_retrainComplete s p pass, onlyPort_mapPort s p.val _, ?_⟩
    rw [now]
    refine ⟨rfl, rfl, fun i inside => by simp [Port.retrained, inside], ?_⟩
    show decide (min 32 good < 16) = true ↔ good < 16
    rw [decide_eq_true_eq, Nat.min_def]
    split <;> omega
  · intro e runs early
    exact ⟨_, exec_retrainComplete s p pass, (port _).trans (x.retrainEnds_early runs early), onlyPort_mapPort s p.val _⟩

end Sys2Proof.Proofs

namespace Sys2Proof.Machine
open Sys2Proof.Claims

/-! Flits (R407). -/

section
variable (s : State) (p : Fin 128) (seq : BitVec 12) (good : Bool)

/-- Only a port changes when the package keeps its memory and the other ports. -/
theorem onlyPort_of {d : Device} (mem : d.mem = s.dev.mem) (others : ∀ q, q ≠ p.val → d.fab.port q = s.dev.fab.port q) :
    OnlyPort s { s with dev := d } p.val := ⟨rfl, rfl, mem, others⟩

/-- A flit meets its port: spoiled or not, it is the next of those that may be. -/
def Port.met (x : Port) : Port := { x with spoiled := x.spoiled.tail }

/-- Is the flit whole (R406, R418)? -/
def Port.fine (x : Port) (good : Bool) : Bool := good && x.spoiled.isEmpty

theorem Port.met_of_fine {x : Port} {good : Bool} (fine : x.fine good = true) : x.met = x := by
  have none : x.spoiled = [] := by simpa using (Bool.and_eq_true_iff.mp fine).2
  rw [Port.met, none, List.tail_nil, ← none]

/-- What FLIT_ARRIVAL makes of the package, at a port that is up. -/
def Device.flitComes (d : Device) (p : Nat) (seq : BitVec 12) (good : Bool) : Device :=
  let x := d.fab.port p
  if x.fine good && seq == x.rxNext then (d.mapPort p Port.met).mapPort p (fun x => { x with rxNext := x.rxNext + 1#12, awaiting := false })
  else if x.fine good && decide (2048 ≤ x.ahead seq) then d.mapPort p Port.met
  else if x.awaiting && (x.fine good || seq != x.rxNext) then d.mapPort p Port.met
  else (d.mapPort p Port.met).askReplay p x.spoiled.head?

theorem exec_flitArrival (up : (s.dev.fab.port p.val).up = true) :
    exec (.flitArrival p seq good) s = .next { s with dev := s.dev.flitComes p.val seq good } :=
  congrArg Host.Outcome.next (congrArg (fun d => { s with dev := d }) (if_neg (by simp [up])))

end

/-- Flits of a buffer from one on, and after it. -/
theorem fromFlit_append {seq : BitVec 12} {a b : List Flit} {f : Flit} (at_ : f.seq = seq) (first : ∀ y ∈ a, y.seq ≠ seq) :
    fromFlit seq (a ++ f :: b) = f :: b := by
  induction a with
  | nil => exact if_pos at_
  | cons y ys ih =>
    refine (if_neg (first y List.mem_cons_self)).trans (ih fun z hz => first z (List.mem_cons_of_mem _ hz))

theorem afterFlit_append {seq : BitVec 12} {a b : List Flit} {f : Flit} (at_ : f.seq = seq) (first : ∀ y ∈ a, y.seq ≠ seq) :
    afterFlit seq (a ++ f :: b) = b := by
  rw [afterFlit, fromFlit_append at_ first]

theorem toNat_satAdd48 (x : BitVec 48) (n : Nat) : (satAdd48 x n).toNat = min (2 ^ 48 - 1) (x.toNat + n) := by
  rw [satAdd48, BitVec.toNat_ofNat]
  exact Nat.mod_eq_of_lt (Nat.lt_of_le_of_lt (Nat.min_le_left _ _) (by decide))

section
variable (x : Port) (l : Nat)

/-- The port that asks for a replay on account of a lane. -/
def Port.asks (cause : Option Nat) : Port :=
  { (match cause with
    | some l => x.countReplay l
    | none => x) with awaiting := true }

theorem Port.asks_frame (cause : Option Nat) : ∃ lanes, x.asks cause = { x with awaiting := true, lanes := lanes } := by
  unfold Port.asks
  cases cause with
  | none => exact ⟨_, rfl⟩
  | some l =>
    unfold Port.countReplay
    dsimp only
    split <;> exact ⟨_, rfl⟩

theorem Port.asks_lane {l : Nat} (inside : l < 34) :
    (Tab.get ({} : Lane) (x.asks (some l)).lanes l).replay.toNat = min (2 ^ 48 - 1) ((Tab.get ({} : Lane) x.lanes l).replay.toNat + 1) := by
  have counted : (x.asks (some l)).lanes = Tab.set x.lanes l { (Tab.get {} x.lanes l : Lane) with
      replay := satAdd48 (Tab.get {} x.lanes l : Lane).replay 1 } := by
    unfold Port.asks Port.countReplay
    dsimp only
    rw [if_pos inside]
  rw [counted, Tab.get_set_self]
  exact toNat_satAdd48 _ _

end

section
variable (d : Device) (p : Nat) {seq : BitVec 12} {good : Bool}

theorem Device.met_frame : (d.mapPort p Port.met).fab.port p = (d.fab.port p).met ∧
    ∀ q, q ≠ p → (d.mapPort p Port.met).fab.port q = d.fab.port q :=
  ⟨d.port_mapPort p _, fun _ => d.port_mapPort_ne _⟩

/-- What a flit changes: its port, and what is sent. -/
theorem Device.flitComes_frame : (d.flitComes p seq good).mem = d.mem ∧ (∀ q, q ≠ p → (d.flitComes p seq good).fab.port q = d.fab.port q) ∧
    ((d.flitComes p seq good).fab.port p).spoiled = (d.fab.port p).spoiled.tail := by
  obtain ⟨met, others⟩ := d.met_frame p
  unfold Device.flitComes
  dsimp only
  split
  · refine ⟨rfl, fun q other => (Device.port_mapPort_ne _ _ other).trans (others q other), ?_⟩
    rw [Device.port_mapPort, met]
    rfl
  · split
    · exact ⟨rfl, others, congrArg Port.spoiled met⟩
    · split
      · exact ⟨rfl, others, congrArg Port.spoiled met⟩
      · refine ⟨rfl, fun q other => (Device.port_mapPort_ne _ (Port.asks · _) other).trans (others q other), ?_⟩
        have asks := (d.mapPort p Port.met).port_mapPort p (Port.asks · (d.fab.port p).spoiled.head?)
        obtain ⟨lanes, frame⟩ := ((d.mapPort p Port.met).fab.port p).asks_frame (d.fab.port p).spoiled.head?
        refine (congrArg Port.spoiled (asks.trans frame)).trans ?_
        rw [met]
        rfl

theorem Device.flitComes_next (fine : (d.fab.port p).fine good = true) (next : seq = (d.fab.port p).rxNext) :
    ((d.flitComes p seq good).fab.port p).rxNext = (d.fab.port p).rxNext + 1#12 ∧ ((d.flitComes p seq good).fab.port p).awaiting = false ∧
      (d.flitComes p seq good).outbox = d.outbox := by
  have came : d.flitComes p seq good = (d.mapPort p Port.met).mapPort p (fun x => { x with rxNext := x.rxNext + 1#12, awaiting := false }) :=
    if_pos (by simp [fine, next])
  rw [came, Device.port_mapPort, (d.met_frame p).1]
  exact ⟨rfl, rfl, rfl⟩

/-- A flit that its port only meets. -/
theorem Device.flitComes_ignored (other : ((d.fab.port p).fine good && seq == (d.fab.port p).rxNext) = false)
    (old : ((d.fab.port p).fine good && decide (2048 ≤ (d.fab.port p).ahead seq)) = true ∨
      ((d.fab.port p).awaiting && ((d.fab.port p).fine good || seq != (d.fab.port p).rxNext)) = true) :
    d.flitComes p seq good = d.mapPort p Port.met := by
  refine (if_neg (by simp [other])).trans ?_
  split
  · rfl
  next fresh => exact if_pos (old.resolve_left fresh)

theorem Device.flitComes_asks (other : ((d.fab.port p).fine good && seq == (d.fab.port p).rxNext) = false)
    (fresh : ((d.fab.port p).fine good && decide (2048 ≤ (d.fab.port p).ahead seq)) = false)
    (loud : ((d.fab.port p).awaiting && ((d.fab.port p).fine good || seq != (d.fab.port p).rxNext)) = false) :
    (d.flitComes p seq good).fab.port p = (d.fab.port p).met.asks (d.fab.port p).spoiled.head? ∧
      (d.flitComes p seq good).outbox = d.outbox ++ [.replay p (d.fab.port p).rxNext] := by
  have asked : d.flitComes p seq good = (d.mapPort p Port.met).askReplay p (d.fab.port p).spoiled.head? :=
    (if_neg (by simp [other])).trans ((if_neg (by simp [fresh])).trans (if_neg (by simp [loud])))
  have port : ((d.mapPort p Port.met).askReplay p (d.fab.port p).spoiled.head?).fab.port p =
      ((d.mapPort p Port.met).fab.port p).asks (d.fab.port p).spoiled.head? :=
    (d.mapPort p Port.met).port_mapPort p (Port.asks · (d.fab.port p).spoiled.head?)
  rw [asked, port, (d.met_frame p).1]
  exact ⟨rfl, (congrArg (fun x : Port => d.outbox ++ [Output.replay p x.rxNext]) (d.met_frame p).1 :)⟩

end

end Sys2Proof.Machine

namespace Sys2Proof.Proofs
open Sys2Proof.Machine Sys2Proof.Claims

/-- Flits come once and in order (R406, R407, R418, R446). -/
theorem flitsAreDeliveredInOrder : Sys2Proof.Claims.FlitsAreDeliveredInOrder := by
  intro p seq good s up x now fine next
  obtain ⟨mem, others, spoiled⟩ := s.dev.flitComes_frame p.val (seq := seq) (good := good)
  have runs := exec_flitArrival s p seq good up
  have only : OnlyPort s { s with dev := s.dev.flitComes p.val seq good } p.val := onlyPort_of s p mem others
  refine ⟨⟨_, runs, only, spoiled⟩, fun whole due => ⟨_, runs, only, s.dev.flitComes_next p.val whole due⟩, fun whole early old => ?_,
    fun late => ?_, fun a f b buffer at_ first => ⟨⟨_, rfl, rfl, rfl, rfl, ?_⟩, ⟨_, rfl, onlyPort_mapPort s p.val _, ?_, rfl⟩⟩⟩
  · have ignored : s.dev.flitComes p.val seq good = s.dev.mapPort p.val Port.met :=
      s.dev.flitComes_ignored p.val (by simp [x, early]) (.inl (Bool.and_eq_true_iff.mpr ⟨whole, decide_eq_true old⟩))
    have port := (s.dev.met_frame p.val).1.trans (Port.met_of_fine whole)
    rw [← ignored] at port
    exact ⟨_, runs, only, port, (congrArg Device.outbox ignored :)⟩
  · have other : (x.fine good && seq == x.rxNext) = false := by
      rcases late with bad | ⟨early, -⟩
      · simp [show x.fine good = false from bad]
      · simp [early]
    have fresh : (x.fine good && decide (2048 ≤ x.ahead seq)) = false := by
      rcases late with bad | ⟨-, near⟩
      · simp [show x.fine good = false from bad]
      · rw [Port.ahead, decide_eq_false (Nat.not_le.mpr near), Bool.and_false]
    refine ⟨_, runs, only, ?_⟩
    by_cases quiet : x.awaiting = true ∧ (fine = true ∨ seq ≠ x.rxNext)
    · have ignored : s.dev.flitComes p.val seq good = s.dev.mapPort p.val Port.met :=
        s.dev.flitComes_ignored p.val other (.inr (by
          simp only [Bool.and_eq_true, Bool.or_eq_true, bne_iff_ne]
          exact quiet))
      have port := (s.dev.met_frame p.val).1
      rw [← ignored] at port
      exact ⟨(congrArg Port.rxNext port :), (congrArg Port.awaiting port).trans quiet.1,
        fun _ => ⟨(congrArg Device.outbox ignored :), (congrArg Port.lanes port :)⟩, fun loud => absurd quiet loud⟩
    · obtain ⟨port, out⟩ := s.dev.flitComes_asks p.val other fresh (by
        rw [Bool.eq_false_iff]
        simp only [ne_eq, Bool.and_eq_true, Bool.or_eq_true, bne_iff_ne]
        exact quiet)
      obtain ⟨lanes, frame⟩ := x.met.asks_frame x.spoiled.head?
      refine ⟨(congrArg Port.rxNext (port.trans frame) :), (congrArg Port.awaiting (port.trans frame) :), fun still => absurd still quiet,
        fun _ => ⟨out, fun l rest spoiled inside => ?_, fun clean => ?_⟩⟩
      · rw [show x.spoiled = l :: rest from spoiled] at port
        refine (congrArg (fun y : Port => (Tab.get ({} : Lane) y.lanes l).replay.toNat) port).trans ?_
        exact x.met.asks_lane inside
      · rw [show x.spoiled = [] from clean] at port
        exact (congrArg Port.lanes port :)
  · show s.dev.outbox ++ _ = _
    rw [show (s.dev.fab.port p.val).replay = a ++ f :: b from buffer, fromFlit_append at_ first]
  · refine (congrArg Port.replay (s.dev.port_mapPort p.val _)).trans ?_
    rw [show (s.dev.fab.port p.val).replay = a ++ f :: b from buffer]
    exact afterFlit_append at_ first

/-- Settles O34: lanes and flits of a port. -/
theorem portsLanesAndFlits : Obligations.PortsLanesAndFlits := ⟨laneRepair, flitsAreDeliveredInOrder⟩

end Sys2Proof.Proofs

namespace Sys2Proof.Machine
open Sys2Proof.Claims

/-- The last bundle of a loop (R261). -/
theorem loopEnd_eq (pc : BitVec 17) (lend : BitVec 15) : loopEnd pc lend = pc + BitVec.ofNat 17 (4 * lend.toNat) := by
  have lt := lend.isLt
  refine congrArg (pc + ·) (BitVec.eq_of_toNat_eq ?_)
  rw [BitVec.toNat_shiftLeft, BitVec.toNat_setWidth, BitVec.toNat_ofNat, Nat.shiftLeft_eq]
  omega

section
variable {s : State} {x : Consist}

/-- The class of a consist's cars (R265). -/
def Consist.classed (x : Consist) (k : BitVec 2) (c : Car) : Car :=
  if x.holds c then { c with ctl := { c.ctl with pri := k } } else c

theorem Consist.classed_eq (x : Consist) (k : BitVec 2) (c : Car) :
    x.classed k c = { c with ctl := { c.ctl with pri := if x.holds c then k else c.ctl.pri } } := by
  unfold Consist.classed
  split <;> rfl

/-- The state in which a consist has a class (R265). -/
def State.reclass (s : State) (x : Consist) (k : BitVec 2) : State :=
  (s.mapConsist x (fun y => { y with pri := k })).mapCars (x.classed k)

/-- What no class changes of the cars. -/
theorem State.map_reclass {α : Type} (k : BitVec 2) (f : Car → α) (blind : ∀ c ctl, f { c with ctl := ctl } = f c) :
    (s.reclass x k).cars.map f = s.cars.map f := by
  rw [State.reclass, State.mapCars_cars, List.map_map]
  refine List.map_congr_left fun c _ => ?_
  simp only [Function.comp_apply, Consist.classed_eq]
  exact blind _ _

theorem State.cars_reclass (k : BitVec 2) : ∀ c ∈ (s.reclass x k).cars, x.holds c = true → c.ctl.pri = k := by
  rw [State.reclass, State.mapCars_cars]
  simp only [List.forall_mem_map]
  intro c _ held
  rw [Consist.classed_eq] at held ⊢
  exact if_pos held

theorem State.consists_reclass (k : BitVec 2) : ∀ y ∈ (s.reclass x k).dev.sig.consists, y.same x = true → y.pri = k := by
  show ∀ y : Consist, y ∈ s.dev.sig.consists.map _ → y.same x = true → y.pri = k
  simp only [List.forall_mem_map]
  intro y _ same
  split at same
  next its => rw [if_pos its]
  next other => exact absurd same other

/-- The class that YPRI gives (R265). -/
def State.newClass (s : State) (k : BitVec 2) : BitVec 2 :=
  let own := match s.serviceOf s.car with
    | some v => recPri v.record
    | none => 0#2
  if k < own then own else k

theorem exec_ypri_none (te : Bool) (k : BitVec 2) (alone : s.consistOf s.car = none) :
    exec (.ypri te k) s = .next (s.mapCar (fun c => { c with ctl := { c.ctl with pri := s.newClass k } })) := by
  refine (exec_needless (o := slotYpri te k s) rfl te rfl).trans (congrArg _ ?_)
  simp only [slotYpri, alone]
  rfl

theorem exec_ypri_some (te : Bool) (k : BitVec 2) (member : s.consistOf s.car = some x) :
    exec (.ypri te k) s = .next (s.reclass x (s.newClass k)) := by
  refine (exec_needless (o := slotYpri te k s) rfl te rfl).trans (congrArg _ ?_)
  simp only [slotYpri, member]
  rfl

end

end Sys2Proof.Machine

namespace Sys2Proof.Proofs
open Sys2Proof.Machine Sys2Proof.Claims

/-- Flags, barriers and banks (R28, R256, R258 to R260, R266). -/
theorem flagAndBarrierSlots : Sys2Proof.Claims.FlagAndBarrierSlots := by
  intro te f n b d a car ba bb s sent
  refine ⟨fun there => exec_ywait_taken te there, fun short => ?_, exec_needless (o := slotYpost te f n s) rfl te rfl, fun known => ?_, fun unknown => ?_,
    exec_needless (o := slotYbar te b s) rfl te rfl, fun room => ?_, fun user => ?_, fun handler reads => ?_,
    exec_needless (o := slotYbnk te ba bb s) rfl te rfl⟩
  · exact (exec_needless (o := slotYwait te f n s) rfl te rfl).trans (congrArg _ (if_neg (Nat.not_le.mpr short)))
  · exact exec_needless (o := slotYpostc te car f n s) rfl te (by simp [slotYpostc, known])
  · exact exec_illegal (o := slotYpostc te car f n s) rfl (decide_eq_true unknown)
  · exact exec_passes (o := slotYflr te d f s) rfl (planS_passes te (srcs := []) (dsts := [d]) s.readable_nil room)
  · exact exec_priv (o := slotYflw te f a s) rfl rfl (by simp [slotYflw, user])
  · have plan : (slotYflw te f a s).plan = planS te [a] [] := by simp [slotYflw, planS, handler]
    exact exec_passes (o := slotYflw te f a s) rfl (plan ▸ planS_passes te (srcs := [a]) (dsts := []) reads s.room_nil)

/-- The loop engine, park points and classes (R261, R264, R265). -/
theorem loopParkAndPrioritySlots : Sys2Proof.Claims.LoopParkAndPrioritySlots := by
  intro te a lend pro epi k s pc last first parks own new
  have ends : loopEnd s.src.pc lend = last := loopEnd_eq _ _
  refine ⟨fun reads early => ?_, fun reads late => ?_, fun elsewhere => ?_, fun here => ?_, fun live => ?_⟩
  · exact exec_illegal (o := slotYloop te a lend pro epi s) rfl (decide_eq_true (by rw [ends]; exact early))
  · have plan : (slotYloop te a lend pro epi s).plan = planS te [a] [] := by
      show { planS te [a] [] with illegal := decide ((loopEnd s.src.pc lend).toNat < first) } = _
      rw [ends, decide_eq_false (Nat.not_lt.mpr late)]
      rfl
    refine ⟨_, exec_passes (o := slotYloop te a lend pro epi s) rfl (plan ▸ planS_passes te (srcs := [a]) (dsts := []) reads s.room_nil),
      rfl, ?_, ends, rfl, rfl, rfl, fun fresh => ?_, fun resumed => ?_, ?_⟩
    · exact (BitVec.toNat_ofNat _ _).trans (Nat.mod_eq_of_lt (Nat.lt_of_le_of_lt late last.isLt))
    · exact ⟨(if_neg (by simp [fresh])).trans (BitVec.setWidth_eq_extractLsb' (by decide)).symm, if_neg (by simp [fresh])⟩
    · exact ⟨if_pos resumed, if_pos resumed⟩
    · rw [← ends]
      show (if _ && !s.car.taken then _ else _) = if _ ∧ _ then _ else _
      simp only [Bool.and_eq_true, decide_eq_true_eq, Bool.not_eq_true']
      rfl
  · exact exec_illegal (o := slotYpark te s) rfl (congrArg (! ·) elsewhere)
  · have plan : (slotYpark te s).plan = { te := te } := by
      show ({ te := te, illegal := !parks } : Plan) = _
      rw [here]
      rfl
    refine (exec_needless (o := slotYpark te s) rfl te plan).trans (congrArg _ ?_)
    show (if _ && !s.src.tr.handler then _ else _) = _
    simp only [Bool.and_eq_true, Bool.not_eq_true']
  · have class_ : s.newClass k = new := rfl
    cases member : s.consistOf s.car with
    | none =>
      refine ⟨_, exec_ypri_none te k member, rfl, ⟨fun _ => rfl, fun _ => rfl, fun _ => rfl, fun _ _ => rfl⟩, rfl, rfl, rfl, rfl, rfl,
        fun _ => rfl, nofun⟩
    | some x =>
      have held : x.holds s.car = true := by rw [State.consistOf_holds member, bne_iff_ne]; exact live
      have mine : (s.reclass x new).car = { s.car with ctl := { s.car.ctl with pri := new } } := if_pos held
      refine ⟨_, exec_ypri_some te k member, congrArg Car.ctl mine, ⟨fun _ => rfl, fun _ => rfl, fun a => ?_, fun _ a => ?_⟩,
        (congrArg Car.pc mine :), (congrArg Car.loop mine :), State.map_reclass _ _ (fun _ _ => rfl), State.map_reclass _ _ (fun _ _ => rfl),
        State.map_reclass _ _ (fun _ _ => rfl), nofun, fun y same => ?_⟩
      · exact (congrArg (fun c : Car => c.imem.read a) mine :)
      · exact (congrArg (fun c : Car => c.spad.read a) mine :)
      · cases same
        exact ⟨fun _ => ⟨(congrArg Car.regs mine :), State.mapCars_cars _ _⟩, State.cars_reclass new, State.consists_reclass new⟩

/-- Settles O25: flags, barriers, loops, park points and classes. -/
theorem flagLoopAndParkSlots : Obligations.FlagLoopAndParkSlots := ⟨flagAndBarrierSlots, loopParkAndPrioritySlots⟩

end Sys2Proof.Proofs

namespace Sys2Proof.Machine
open Sys2Proof.Claims

/-! Reads of the array (R112, R119, R221 to R224). -/

section
variable {s : State} {i : Instr}

/-- An M slot that fills registers issues when the array is free and they are full (R209). -/
theorem exec_mslot_fills {eff : State → State} {p : Plan} (slot : slotOf i s = some (s.mslot false p eff))
    (free : s.src.units.array ≤ s.now) (room : s.Room p.dsts) (rest : p = { dsts := p.dsts }) :
    exec i s = .next ((eff s).holdArray (s.now + 1)) := by
  rw [State.mslot, if_neg (by simp), rest] at slot
  exact exec_passes slot
    { legal := rfl, allowed := rfl, units := (s.unitsBusy_array rfl).trans (decide_eq_false (Nat.not_lt.mpr free)), still := rfl
      reads := s.readable_nil, room := room, cause := rfl, spec := rfl, mapped := rfl }

theorem exec_mslot_waits {eff : State → State} {p : Plan} (slot : slotOf i s = some (s.mslot false p eff)) (legal : p.illegal = false)
    (allowed : p.priv = false) (waits : p.wait = true) : exec i s = .next s.stays := by
  rw [State.mslot, if_neg (by simp)] at slot
  exact Proofs.exec_waits slot legal allowed waits

end

/-- Elements put side by side from the bottom of a register. -/
theorem lane_join (t : ETy) (xs : List Nat) (fits : t.bits * xs.length ≤ 32768) (i : Nat) :
    lane t (BitVec.ofNat 32768 (join t.bits xs)) i = xs.getD i 0 % 2 ^ t.bits := by
  have lt : join t.bits xs < 2 ^ 32768 := Nat.lt_of_lt_of_le (join_lt t.bits xs) (Nat.pow_le_pow_right Nat.two_pos fits)
  rw [lane, BitVec.toNat_ofNat, Nat.mod_eq_of_lt lt, join_element]

/-- The elements of a list that a function makes, by index. -/
theorem getD_map_range {α : Type} (f : Nat → α) (n i : Nat) (x : α) : ((List.range n).map f).getD i x = if i < n then f i else x := by
  rw [List.getD_eq_getElem?_getD, List.getElem?_map]
  by_cases inside : i < n
  · simp [inside]
  · simp [inside]

theorem pattern_lt (n : Nat) (x : Int) : pattern n x < 2 ^ n := by
  have low : 0 ≤ x % 2 ^ n := Int.emod_nonneg _ (by positivity)
  have high : x % 2 ^ n < 2 ^ n := Int.emod_lt_of_pos _ (by positivity)
  rw [pattern, Int.toNat_lt low]
  exact_mod_cast high

/-- The newest close of any group, as a fold over the groups. -/
theorem foldl_groups {α β : Type} (v : Vector α 16) (f : β → α → β) (b : β) :
    v.toList.foldl f b = (List.finRange 16).foldl (fun m g => f m v[g]) b := by
  have : v.toList = (List.finRange 16).map (fun g => v[g]) := by
    apply List.ext_getElem
    · simp
    · intro i _ _
      simp
  rw [this, List.foldl_map]

/-- Flags that no element sets. -/
theorem foldl_noFlags (xs : List (Nat × Fl)) (none : ∀ x ∈ xs, x.2 = 0#8) : xs.foldl (fun f r => f ||| r.2) 0#8 = 0#8 := by
  refine List.foldlRecOn (motive := fun f => f = 0#8) xs _ rfl ?_
  rintro _ rfl x hx
  rw [none x hx]
  rfl

section
variable (c : Car) (fmt : Fmt) (part : Nat)

/-- The code that element `i` of a part names (R112). -/
def Car.codeAt (i : Nat) : Int := (c.arr.groups.toList.getD (i % 64 / 4) {}).codes.getD ((i / 64 + 16 * part) * 4 + i % 4) 0

/-- Its value (R112). -/
def Car.valueAt (i : Nat) : Nat × Fl :=
  let g := c.arr.groups.toList.getD (i % 64 / 4) {}
  flt32.round fmt.rm fmt.fz (Q.scale (c.codeAt part i) (g.cgain + g.rowExp.getD (i / 64 + 16 * part) 0 + g.groupExp)) false

theorem Car.readout_raw : c.readout fmt part 1 = (List.range 1024).map (fun i => (pattern 16 (c.codeAt part i), 0#8)) := by
  simp [Car.readout, Car.codeAt]

theorem Car.readout_scaled : c.readout fmt part 0 = (List.range 1024).map (c.valueAt fmt part) := by
  simp [Car.readout, Car.codeAt, Car.valueAt]

end

/-- The fields of the status word (R224). -/
theorem Device.arrStatus_fields (d : Device) (c : Car) (now : Nat) :
    let x := d.arrStatus c now
    let a := c.arr
    let wins := a.groups.toList.filterMap Group.win
    let readable := (a.queue.filter (fun r => r.readable now)).length
    x.extractLsb' 0 5 = BitVec.ofNat 5 readable ∧ x.getLsbD 5 = decide (readable < a.queue.length) ∧ x.extractLsb' 6 16 = a.openMask ∧
    x.getLsbD 22 = a.split ∧ x.extractLsb' 23 4 = BitVec.ofNat 4 ((a.line.map Fin.val).getD 0) ∧ x.getLsbD 27 = a.line.isNone ∧
    x.getLsbD 28 = a.line.any c.coupledTo ∧ x.getLsbD 29 = a.cal.requested ∧ x.getLsbD 30 = a.cal.skew ∧
    x.getLsbD 31 = a.line.any d.laserBad ∧ x.getLsbD 32 = decide (0 < d.house.pacex) ∧
    x.extractLsb' 33 9 = BitVec.ofNat 9 ((wins.head?.map (fun w => w.beats - 1)).getD 0) ∧ x.extractLsb' 42 5 = 0#5 ∧
    x.getLsbD 47 = wins.any (fun w => w.lost now) ∧ x.extractLsb' 48 16 = a.seq := by
  unfold Device.arrStatus
  intro x a wins readable
  rw [getLsbD_eq_extract _ 5, getLsbD_eq_extract _ 22, getLsbD_eq_extract _ 27, getLsbD_eq_extract _ 28, getLsbD_eq_extract _ 29,
    getLsbD_eq_extract _ 30, getLsbD_eq_extract _ 31, getLsbD_eq_extract _ 32, getLsbD_eq_extract _ 47]
  dsimp only [x, a, wins, readable]
  simp (disch := decide) only [BitVec.extractLsb'_append_eq_of_add_le, BitVec.extractLsb'_append_eq_of_le, BitVec.extractLsb'_eq_self, Nat.reduceSub,
    BitVec.getLsbD_ofBool, and_self, decide_true, Bool.true_and]

section
variable {a : Arr}

/-- The mask of open windows bit by bit. -/
theorem Arr.getLsbD_openMask (g : Fin 16) : a.openMask.getLsbD g.val = a.groups[g].win.isSome := by
  have key (gs : List (Fin 16)) (m : BitVec 16) :
      (gs.foldl (fun m g => if a.groups[g].win.isSome then m ||| (1#16 <<< g.val) else m) m).getLsbD g.val =
        (m.getLsbD g.val || (gs.contains g && a.groups[g].win.isSome)) := by
    induction gs generalizing m with
    | nil => simp
    | cons h gs ih =>
      rw [List.foldl_cons, ih, List.contains_cons]
      by_cases same : g = h
      · subst same
        cases opened : a.groups[g].win.isSome <;> simp
      · have bit : (1#16 <<< h.val).getLsbD g.val = false := by
          have apart : g.val ≠ h.val := fun eq => same (Fin.ext eq)
          rw [BitVec.getLsbD_shiftLeft]
          by_cases below : g.val < h.val
          · simp [below]
          · have : g.val - h.val ≠ 0 := by omega
            simp [below, this]
        have other : (g == h) = false := beq_eq_false_iff_ne.mpr same
        rw [other, Bool.false_or]
        split
        · rw [BitVec.getLsbD_or, bit, Bool.or_false]
        · rfl
  refine (key _ _).trans ?_
  simp

/-- The lowest group with an open window. -/
theorem Arr.firstOpen {g : Fin 16} {w : Window} (opened : a.groups[g].win = some w) (first : ∀ h : Fin 16, h < g → a.groups[h].win = none) :
    (a.groups.toList.filterMap Group.win).head? = some w := by
  rw [List.head?_filterMap, List.findSome?_eq_some_iff]
  refine ⟨a.groups.toList.take g.val, a.groups[g], a.groups.toList.drop (g.val + 1), ?_, opened, fun x hx => ?_⟩
  · have inside : g.val < a.groups.toList.length := by simp
    rw [show a.groups[g] = a.groups.toList[g.val] by simp, ← List.drop_eq_getElem_cons inside, List.take_append_drop]
  · obtain ⟨i, inside, rfl⟩ := List.mem_iff_getElem.mp hx
    have below : i < g.val := Nat.lt_of_lt_of_le inside (List.length_take_le _ _)
    have closed := first ⟨i, below.trans g.isLt⟩ below
    simpa using closed

theorem Arr.noneOpen (closed : ∀ g : Fin 16, a.groups[g].win = none) : a.groups.toList.filterMap Group.win = [] := by
  rw [List.filterMap_eq_nil_iff]
  intro x hx
  obtain ⟨i, inside, rfl⟩ := List.mem_iff_getElem.mp hx
  have := closed ⟨i, by simpa using inside⟩
  simpa using this

end

/-- The first of a queue's entries that may be read. -/
theorem find?_first {α : Type} {p : α → Bool} {before after : List α} {r : α} (late : ∀ x ∈ before, p x = false) (ready : p r = true) :
    (before ++ r :: after).find? p = some r := by
  rw [List.find?_append, List.find?_eq_none.mpr (fun x hx => by simp [late x hx]), Option.none_or, List.find?_cons_of_pos ready]

theorem erase_first {α : Type} [BEq α] [LawfulBEq α] {before after : List α} {r : α} (absent : r ∉ before) :
    (before ++ r :: after).erase r = before ++ after := by
  rw [List.erase_append_right _ absent, List.erase_cons_head]

end Sys2Proof.Machine

namespace Sys2Proof.Proofs
open Sys2Proof.Machine Sys2Proof.Claims

/-- The status word, field by field (R224). -/
theorem arrayStatus_arrStatus (s : State) : ArrayStatus s (s.srcDev.arrStatus s.src s.now) := by
  obtain ⟨readable, more, masks, split, line, none, coupled, requested, skew, laser, pacex, beats, zeros, lost, seq⟩ :=
    s.srcDev.arrStatus_fields s.src s.now
  unfold ArrayStatus
  refine ⟨?_, more, fun g => ?_, split, line, none, coupled, requested, skew, laser, pacex, fun g w opened first => ?_, fun closed => ?_,
    zeros, ?_, seq⟩
  · rw [readable, BitVec.toNat_ofNat]
    rfl
  · have bit := congrArg (fun m => m.getLsbD g.val) masks
    simp only [BitVec.getLsbD_extractLsb', g.isLt, decide_true, Bool.true_and] at bit
    rw [bit, Arr.getLsbD_openMask]
  · rw [beats, Arr.firstOpen opened first, BitVec.toNat_ofNat]
    rfl
  · rw [beats, Arr.noneOpen closed]
    rfl
  · rw [lost, List.any_eq_true]
    simp only [List.mem_filterMap, Vector.mem_toList_iff, Vector.mem_iff_getElem]
    constructor
    · rintro ⟨w, ⟨_, ⟨i, inside, rfl⟩, opened⟩, gone⟩
      exact ⟨⟨i, inside⟩, w, opened, gone⟩
    · rintro ⟨g, w, opened, gone⟩
      exact ⟨w, ⟨_, ⟨g.val, g.isLt, rfl⟩, opened⟩, gone⟩

/-- Settles O19: what MRD, MREP and MSTAT read. -/
theorem arrayReadResults : Obligations.ArrayReadResults := by
  unfold Obligations.ArrayReadResults
  intro te v d part kind s free room a group row code value lat
  have roomV : s.Room [s.oA v] := fun o ho => room o (by simp_all)
  have roomS : s.Room [.s d] := fun o ho => room o (by simp_all)
  have latency : (s.src.arr.groups.toList.foldl (fun m g => match g.closed with
      | some t => Nat.max m (t + 16)
      | none => m) (s.now + 2)) - s.now = lat := by
    rw [foldl_groups] <;> rfl
  have mrd (low : part.toNat < 2) (small : kind.toNat < 2) : ∃ x,
      exec (.mrd te v part kind) s = .next (beatTaken ((s.writeV v true lat x).setFlags
        ((s.src.readout s.fmt part.toNat kind.toNat).foldl (fun f r => f ||| r.2) 0#8))) ∧
      x = BitVec.ofNat 32768 (join (if kind = 1#2 then 16 else 32) ((s.src.readout s.fmt part.toNat kind.toNat).map (·.1))) := by
    refine ⟨_, ?_, rfl⟩
    rw [exec_mslot_fills (i := .mrd te v part kind) rfl free roomV (by simp [low, small]), ← latency]
    rfl
  refine ⟨fun low raw => ?_, fun low scaled => ?_, fun bad => ?_, fun none => ?_, fun before r after queue late ready => ?_,
    fun some_ late => ?_, ?_⟩
  · subst raw
    obtain ⟨x, runs, is⟩ := mrd low (by decide)
    have raw := s.src.readout_raw s.fmt part.toNat
    rw [show (1#2).toNat = 1 from rfl, raw] at runs is
    refine ⟨x, ?_, fun i inside => ?_⟩
    · rw [runs, foldl_noFlags _ (by simp)]
    · rw [is, if_pos rfl, List.map_map, show (16 : Nat) = ETy.i16.bits from rfl,
        lane_join .i16 _ (by rw [List.length_map, List.length_range]; decide), getD_map_range]
      split
      next below => exact Nat.mod_eq_of_lt (pattern_lt 16 _)
      · rfl
  · have zero : kind = 0#2 := scaled
    subst zero
    obtain ⟨x, runs, is⟩ := mrd low (by decide)
    have values := s.src.readout_scaled s.fmt part.toNat
    rw [show (0#2).toNat = 0 from rfl, values] at runs is
    refine ⟨x, ?_, fun i inside => ?_⟩
    · rw [runs, List.foldl_map]
      rfl
    · rw [is, if_neg (by decide), List.map_map, show (32 : Nat) = ETy.f32.bits from rfl,
        lane_join .f32 _ (by rw [List.length_map, List.length_range]; decide), getD_map_range, if_pos inside]
      rfl
  · exact exec_mslot_illegal (i := .mrd te v part kind) rfl (by simp; omega)
  · have effect := exec_mslot_fills (i := .mrep te d) rfl free roomS (by simp [show s.src.arr.queue = [] from none])
    rw [effect]
    simp only [show s.src.arr.queue = [] from none, List.find?_nil]
    rfl
  · have found : s.src.arr.queue.find? (fun r => r.readable s.now) = some r := by
      rw [show s.src.arr.queue = _ from queue]
      exact find?_first (fun x hx => decide_eq_false (Nat.not_le.mpr (late x hx))) (decide_eq_true ready)
    have erased : s.src.arr.queue.erase r = before ++ after := by
      rw [show s.src.arr.queue = _ from queue]
      exact erase_first (fun there => absurd (late r there) (Nat.not_lt.mpr ready))
    have readable : s.src.arr.queue.any (fun r => r.readable s.now) = true :=
      List.any_eq_true.mpr ⟨r, List.mem_of_find?_eq_some found, decide_eq_true ready⟩
    rw [exec_mslot_fills (i := .mrep te d) rfl free roomS (by simp [readable])]
    simp only [found, erased]
    rfl
  · refine exec_mslot_waits (i := .mrep te d) rfl rfl rfl ?_
    simp only [Bool.and_eq_true, Bool.not_eq_true', List.any_eq_false, List.isEmpty_eq_false_iff]
    exact ⟨fun r hr => by simp [Report.readable, late r hr], some_⟩
  · exact ⟨_, exec_mslot_fills (i := .mstat te d) rfl free roomS rfl, arrayStatus_arrStatus s⟩

end Sys2Proof.Proofs

namespace Sys2Proof.Machine
open Sys2Proof.Claims

/-! Group entries (R419 to R421). -/

section
variable (s : State) (g : Fin 4096)

/-- The group table with another entry. -/
def State.putGroup (e : GroupEntry) : State :=
  s.mapDev (fun d => { d with fab := { d.fab with groups := Tab.set d.fab.groups g.val e } })

theorem State.group_putGroup (e : GroupEntry) : (s.putGroup g e).dev.group g.val = e := Tab.get_set_self _ _ _ _

theorem State.group_putGroup_ne (e : GroupEntry) {h : Nat} (other : h ≠ g.val) : (s.putGroup g e).dev.group h = s.dev.group h :=
  Tab.get_set_other _ _ _ other

/-- The entry that a commit makes of an entry: the old one stands while collectives are in flight (R421). -/
def GroupEntry.commit (e : GroupEntry) (flying : Bool) (l : List Nat) : GroupEntry :=
  if flying then { e with busy := true, pending := some (e.staged, l) }
  else { e with words := e.staged, plist := l, busy := true, pending := none }

/-- The entry with the staged words in the place of its own. -/
def GroupEntry.asStaged (e : GroupEntry) : GroupEntry := { e with words := e.staged }

/-- The group table once a commit has its package list. -/
def State.commits (l : List Nat) : State := s.putGroup g ((s.dev.group g.val).commit (s.groupInFlight g.val) l)

/-- GROUP_COMMIT by the kind of the staged entry (R419 to R421). -/
theorem exec_groupCommit :
    let x := (s.dev.group g.val).asStaged
    exec (.groupCommit g) s = .next (if x.kind = 3#2 then s
      else if x.kind = 1#2 then (if 1024 < x.ranks then s
        else match s.dev.readList (x.words[2]).toNat (x.npkg + 1) with
          | none => s.mapDev (fun d => d.setFabStat 16#8)
          | some l => s.commits g l)
      else s.commits g []) := by
  intro x
  have commits (l : List Nat) : (if s.groupInFlight g.val
      then s.putGroup g { s.dev.group g.val with busy := true, pending := some ((s.dev.group g.val).staged, l) }
      else s.putGroup g { s.dev.group g.val with words := (s.dev.group g.val).staged, plist := l, busy := true, pending := none }) =
      s.commits g l := by
    unfold State.commits GroupEntry.commit
    split <;> rfl
  show execGroupCommit g s = _
  unfold execGroupCommit
  dsimp only
  refine congrArg Host.Outcome.next ?_
  split
  next three => rw [if_pos (show x.kind = 3#2 from BitVec.eq_of_toNat_eq three)]
  next one =>
    have listed : x.kind = 1#2 := BitVec.eq_of_toNat_eq one
    have not3 : ¬ x.kind = 3#2 := by rw [listed]; decide
    refine Eq.trans ?_ ((if_neg not3).trans (if_pos listed)).symm
    by_cases many : 1024 < x.ranks
    · exact (if_pos many).trans (if_pos many).symm
    · refine (if_neg many).trans (Eq.trans ?_ (if_neg many).symm)
      show (match s.dev.readList (x.words[2]).toNat (x.npkg + 1) with | none => _ | some l => _) = _
      cases s.dev.readList (x.words[2]).toNat (x.npkg + 1) with
      | none => rfl
      | some l => exact commits l
  next not3 not1 =>
    rw [if_neg (fun three : x.kind = 3#2 => not3 (congrArg BitVec.toNat three)),
      if_neg (fun one : x.kind = 1#2 => not1 (congrArg BitVec.toNat one))]
    exact commits []

section
variable {s g}

theorem exec_groupCommit_refused (bad : (s.dev.group g.val).asStaged.kind = 3#2 ∨
    ((s.dev.group g.val).asStaged.kind = 1#2 ∧ 1024 < (s.dev.group g.val).asStaged.ranks)) : exec (.groupCommit g) s = .next s := by
  rw [exec_groupCommit]
  rcases bad with reserved | ⟨listed, many⟩
  · rw [if_pos reserved]
  · rw [if_neg (by rw [listed]; decide), if_pos listed, if_pos many]

theorem exec_groupCommit_unread (listed : (s.dev.group g.val).asStaged.kind = 1#2) (few : (s.dev.group g.val).asStaged.ranks ≤ 1024)
    (unread : s.dev.readList ((s.dev.group g.val).asStaged.words[2]).toNat ((s.dev.group g.val).asStaged.npkg + 1) = none) :
    exec (.groupCommit g) s = .next (s.mapDev (fun d => d.setFabStat 16#8)) := by
  rw [exec_groupCommit, if_neg (by rw [listed]; decide), if_pos listed, if_neg (Nat.not_lt.mpr few), unread]

theorem exec_groupCommit_listed {l : List Nat} (listed : (s.dev.group g.val).asStaged.kind = 1#2)
    (few : (s.dev.group g.val).asStaged.ranks ≤ 1024)
    (read : s.dev.readList ((s.dev.group g.val).asStaged.words[2]).toNat ((s.dev.group g.val).asStaged.npkg + 1) = some l) :
    exec (.groupCommit g) s = .next (s.commits g l) := by
  rw [exec_groupCommit, if_neg (by rw [listed]; decide), if_pos listed, if_neg (Nat.not_lt.mpr few), read]

theorem exec_groupCommit_plain (plain : (s.dev.group g.val).asStaged.kind = 0#2 ∨ (s.dev.group g.val).asStaged.kind = 2#2) :
    exec (.groupCommit g) s = .next (s.commits g []) := by
  have not3 : (s.dev.group g.val).asStaged.kind ≠ 3#2 := by rcases plain with is | is <;> rw [is] <;> decide
  have not1 : (s.dev.group g.val).asStaged.kind ≠ 1#2 := by rcases plain with is | is <;> rw [is] <;> decide
  rw [exec_groupCommit, if_neg not3, if_neg not1]

end

/-- A commit leaves everything but the entry of its group. -/
theorem State.commits_spec (l : List Nat) : (s.commits g l).dev.group g.val = (s.dev.group g.val).commit (s.groupInFlight g.val) l ∧
    ∀ h, h ≠ g.val → (s.commits g l).dev.group h = s.dev.group h :=
  ⟨s.group_putGroup g _, fun _ => s.group_putGroup_ne g _⟩

/-- GROUP_BUSY_CLEAR (R421). -/
theorem exec_groupBusyClear :
    let e := s.dev.group g.val
    exec (.groupBusyClear g) s = .next (if !e.busy || s.dev.fab.packets.any (fun p => p.group == g.val) ||
        (e.pending.isSome && s.groupInFlight g.val) then s
      else s.putGroup g (match e.pending with
        | some p => { e with words := p.1, plist := p.2, busy := false, pending := none }
        | none => { e with busy := false, pending := none })) := by
  intro e
  refine congrArg Host.Outcome.next ?_
  split
  next stands => exact congrArg (fun d => { s with dev := d }) (if_pos stands)
  next clears =>
    refine congrArg (fun d => { s with dev := d }) ((if_neg clears).trans ?_)
    show _ = ((s.putGroup g _).dev)
    cases h : e.pending <;> rfl

/-- A multicast packet of a multicast group (R421). -/
theorem Device.replicate_cast {d : Device} {g : Nat} {payload : List Byte} {beat : Option Nat} (cast : (d.group g).kind = 2#2) :
    (d.replicate g payload beat).mem = d.mem ∧
    (d.replicate g payload beat).outbox = d.outbox ++
      ((d.group g).ports.filter (fun p => (d.fab.port p).up)).map (fun p => Output.packet p payload) ∧
    (d.replicate g payload beat).fab.packets = d.fab.packets ++ (if (d.group g).words[0].getLsbD 61 then [⟨g, payload, beat⟩] else []) := by
  unfold Device.replicate
  rw [if_neg (by simp [cast])]
  dsimp only
  split
  · exact ⟨rfl, rfl, rfl⟩
  · exact ⟨rfl, rfl, (List.append_nil _).symm⟩

/-- A frame that replication let through reaches the line streams of its group (R425). -/
theorem exec_throughRunningFrame (payload : List Byte) (beat : Nat) {p : McPacket}
    (found : s.dev.fab.packets.find? (fun p => p.group == g.val && p.bytes == payload) = some p) :
    exec (.throughRunningFrame g beat payload) s = .next (s.mapDev fun d => { d with fab := { d.fab with
      packets := d.fab.packets.erase p
      frames := if d.streams.any (fun x => x.group == some g.val)
        then ⟨g.val, beat, payload⟩ :: d.fab.frames.filter (fun f => !(f.group == g.val && f.beat == beat)) else d.fab.frames } }) := by
  refine congrArg Host.Outcome.next (congrArg (fun d => { s with dev := d }) ?_)
  beta_reduce
  rw [found]

end

end Sys2Proof.Machine

namespace Sys2Proof.Proofs
open Sys2Proof.Machine Sys2Proof.Claims

/-- Settles O38: group commits, multicast and frames. -/
theorem groupsAndMulticast : Obligations.GroupsAndMulticast := by
  unfold Obligations.GroupsAndMulticast
  intro g payload beat s e x list now
  have clear := exec_groupBusyClear s g
  refine ⟨fun bad => ?_, fun listed few unread => ?_, fun l ok => ?_, fun busy sent idle => ?_, fun free => ?_, fun other => ?_, fun cast => ?_,
    fun absent => ?_, fun a p b packets group bytes first => ?_⟩
  · exact exec_groupCommit_refused bad
  · exact ⟨_, exec_groupCommit_unread listed few unread, rfl, rfl, rfl⟩
  · have runs : exec (.groupCommit g) s = .next (s.commits g l) := by
      rcases ok with ⟨listed, few, read⟩ | ⟨plain, rfl⟩
      · exact exec_groupCommit_listed listed few read
      · exact exec_groupCommit_plain plain
    obtain ⟨mine, others⟩ := s.commits_spec g l
    refine ⟨_, runs, rfl, rfl, rfl, ?_, fun idle => ?_, fun flies => ?_, others⟩
    · refine (congrArg GroupEntry.busy mine).trans ?_
      unfold GroupEntry.commit
      split <;> rfl
    · have entry : now (s.commits g l) = _ := mine
      rw [entry, idle]
      exact ⟨rfl, rfl, rfl⟩
    · have entry : now (s.commits g l) = _ := mine
      rw [entry, flies]
      exact ⟨rfl, rfl, rfl⟩
  · have clears : (!e.busy || s.dev.fab.packets.any (fun p => p.group == g.val) || (e.pending.isSome && s.groupInFlight g.val)) = false := by
      have quiet : (s.dev.fab.packets.any fun p => p.group == g.val) = false := by simpa using sent
      rw [busy, quiet, idle, Bool.and_false]
      rfl
    refine ⟨_, clear.trans (congrArg Host.Outcome.next (if_neg (by rw [Bool.not_eq_true]; exact clears))), rfl, ?_⟩
    have entry (y : GroupEntry) : now (s.putGroup g y) = y := s.group_putGroup g y
    rw [entry]
    cases h : e.pending with
    | none => exact ⟨rfl, rfl, fun _ => rfl, nofun⟩
    | some p =>
      refine ⟨rfl, rfl, nofun, fun w l same => ?_⟩
      cases same
      exact ⟨rfl, rfl⟩
  · exact clear.trans (congrArg Host.Outcome.next (if_pos (by simp [show (s.dev.group g.val).busy = false from free])))
  · exact congrArg Host.Outcome.next (congrArg (fun d => { s with dev := d }) (if_pos other))
  · obtain ⟨mem, out, packets⟩ := s.dev.replicate_cast (payload := payload) (beat := none) cast
    exact ⟨_, rfl, rfl, rfl, mem, out, packets⟩
  · refine congrArg Host.Outcome.next (congrArg (fun d => { s with dev := d }) ?_)
    have none : s.dev.fab.packets.find? (fun p => p.group == g.val && p.bytes == payload) = none := by
      rw [List.find?_eq_none]
      intro p hp same
      simp only [Bool.and_eq_true, beq_iff_eq] at same
      exact absent p hp same
    beta_reduce
    rw [none]
  · have found : s.dev.fab.packets.find? (fun p => p.group == g.val && p.bytes == payload) = some p := by
      rw [packets]
      refine find?_first (fun q hq => ?_) (by simp [group, bytes])
      rw [Bool.eq_false_iff]
      simp only [ne_eq, Bool.and_eq_true, beq_iff_eq]
      exact first q hq
    have erased : s.dev.fab.packets.erase p = a ++ b := by
      rw [packets]
      exact erase_first (fun there => first p there ⟨group, bytes⟩)
    have runs := exec_throughRunningFrame s g payload beat found
    refine ⟨_, runs, rfl, erased, fun ⟨y, hy, subscribed⟩ => ?_⟩
    have wanted : (s.dev.streams.any fun x => x.group == some g.val) = true := List.any_eq_true.mpr ⟨y, hy, by simp [subscribed]⟩
    exact (congrArg List.head? (if_pos wanted)).trans rfl

end Sys2Proof.Proofs

namespace Sys2Proof.Machine
open Sys2Proof.Claims

/-! Firmware updates and attestation over a path (R457, R459, R460, R462). -/

section
variable {s : State} {i3c : Bool} {f : State → State}

theorem State.over_unserved (band : i3c = false) (unlinked : ¬ s.dev.house.startRec.extractLsb' 14 2 = 1#2) : s.over i3c f = s :=
  band ▸ State.over_host_unserved _ unlinked

theorem State.over_served (served : i3c = true ∨ s.dev.house.startRec.extractLsb' 14 2 = 1#2) : s.over i3c f = f s := by
  cases i3c with
  | true => rfl
  | false => exact State.over_host_served _ (served.resolve_left nofun)

end

/-- An instruction sends one message of the update protocol and leaves the firmware state `fw`. -/
def State.Sends (s : State) (i : Instr) (code : BitVec 8) (fw : Firmware) : Prop :=
  ∃ t, exec i s = .next t ∧ Untouched s t ∧ t.dev.outbox = s.dev.outbox ++ [.pldm code] ∧ t.dev.house = { s.dev.house with fw := fw }

/-- An instruction sends an attestation message and leaves the number of requests that have been made. -/
def State.Attests (s : State) (i : Instr) (code : BitVec 8) (ws : List Word) (asked : Nat) : Prop :=
  ∃ t, exec i s = .next t ∧ Untouched s t ∧ t.dev.outbox = s.dev.outbox ++ [.spdm code ws] ∧ t.dev.house = { s.dev.house with spdm := asked }

section
variable {s : State} {i3c : Bool} {i : Instr} {f : State → State} {code : BitVec 8} {change : Firmware → Firmware}
  {ws : List Word} {need after : Nat}
variable (served : i3c = true ∨ s.dev.house.startRec.extractLsb' 14 2 = 1#2) (runs : exec i s = .next (s.over i3c f))
include served runs

theorem State.sends_of (does : f s = s.mapDev (fun d => (d.mapFw change).emit [.pldm code])) : s.Sends i code (change s.dev.house.fw) := by
  rw [State.over_served served, does] at runs
  exact ⟨_, runs, ⟨rfl, rfl, rfl⟩, rfl, rfl⟩

theorem State.sends_same (does : f s = s.mapDev (fun d => d.emit [.pldm code])) : s.Sends i code s.dev.house.fw := by
  rw [State.over_served served, does] at runs
  exact ⟨_, runs, ⟨rfl, rfl, rfl⟩, rfl, rfl⟩

/-- A command in its stage. -/
theorem State.sends_pldm {ok : Bool} (does : f s = s.pldm ok change) (inStage : ok = true) : s.Sends i 0x00#8 (change s.dev.house.fw) :=
  State.sends_of served runs (does.trans (congrArg s.mapDev (funext fun _ => if_pos inStage)))

/-- A command out of its stage. -/
theorem State.refuses_pldm {ok : Bool} (does : f s = s.pldm ok change) (outOfStage : ok = false) :
    s.Sends i (if s.dev.house.fw.stage = .idle then 0x80#8 else 0x84#8) s.dev.house.fw ∧ ∀ t, exec i s = .next t → t.dev.sig = s.dev.sig := by
  have refused : f s = s.mapDev (fun d => d.emit [.pldm (if d.house.fw.stage = .idle then 0x80#8 else 0x84#8)]) :=
    does.trans (congrArg s.mapDev (funext fun _ => if_neg (by rw [outOfStage]; decide)))
  rw [State.over_served served, refused] at runs
  refine ⟨⟨_, runs, ⟨rfl, rfl, rfl⟩, rfl, rfl⟩, fun t next => ?_⟩
  rw [runs] at next
  cases next
  rfl

/-- A request in its order. -/
theorem State.attests_spdm (does : f s = s.spdm need code ws after) (inOrder : ¬ s.dev.house.spdm < need) : s.Attests i code ws after := by
  rw [State.over_served served, does] at runs
  refine ⟨_, runs, ?_⟩
  have answer : s.spdm need code ws after = s.mapDev (fun d => (d.mapHouse (fun h => { h with spdm := after })).emit [.spdm code ws]) :=
    congrArg (fun d => { s with dev := d }) (if_neg inOrder)
  rw [answer]
  exact ⟨⟨rfl, rfl, rfl⟩, rfl, rfl⟩

theorem State.attests_error (does : f s = s.mapDev (fun d => d.emit [.spdm 0x7F#8 []])) : s.Attests i 0x7F#8 [] s.dev.house.spdm := by
  rw [State.over_served served, does] at runs
  exact ⟨_, runs, ⟨rfl, rfl, rfl⟩, rfl, rfl⟩

/-- A request before those that it needs. -/
theorem State.attests_early (does : f s = s.spdm need code ws after) (early : s.dev.house.spdm < need) :
    s.Attests i 0x7F#8 [] s.dev.house.spdm :=
  State.attests_error served runs (does.trans (congrArg (fun d => { s with dev := d }) (if_pos early)))

end

/-- A command of the update protocol, in its stage and out of it. -/
theorem State.sends_inStage {s : State} {i3c : Bool} (i : Instr) {ok : State → Bool} {change : Firmware → Firmware} (p : Prop) [Decidable p]
    (served : i3c = true ∨ s.dev.house.startRec.extractLsb' 14 2 = 1#2)
    (runs : exec i s = .next (s.over i3c (fun s => s.pldm (ok s) change))) (inStage : ok s = decide p) :
    if p then s.Sends i 0x00#8 (change s.dev.house.fw) else
      s.Sends i (if s.dev.house.fw.stage = .idle then 0x80#8 else 0x84#8) s.dev.house.fw ∧ ∀ t, exec i s = .next t → t.dev.sig = s.dev.sig := by
  split
  next here => exact State.sends_pldm served runs rfl (inStage.trans (decide_eq_true here))
  next elsewhere => exact State.refuses_pldm served runs rfl (inStage.trans (decide_eq_false elsewhere))

/-- A request in its order and before it. -/
theorem State.attests_inOrder {s : State} {i3c : Bool} {i : Instr} {code : BitVec 8} {ws : List Word} {need after : Nat}
    (served : i3c = true ∨ s.dev.house.startRec.extractLsb' 14 2 = 1#2)
    (runs : exec i s = .next (s.over i3c (fun s => s.spdm need code ws after))) :
    if s.dev.house.spdm < need then s.Attests i 0x7F#8 [] s.dev.house.spdm else s.Attests i code ws after := by
  split
  next early => exact State.attests_early served runs rfl early
  next inOrder => exact State.attests_spdm served runs rfl inOrder

theorem Device.missSpec_ends (d : Device) {p : Speculation} (mem : p ∈ (d.missSpec (fun _ => true)).sig.specs) (real : p.adopted = false) :
    p.cause.isSome = true := by
  obtain ⟨q, -, rfl⟩ := List.mem_map.mp mem
  revert real
  cases h : q.adopted with
  | true => simp [h]
  | false =>
    simp only [Bool.not_false, Bool.and_self, if_true, Speculation.ends]
    intro _
    cases q.cause with
    | none => rfl
    | some c =>
      dsimp only
      split <;> rfl

section
variable {s : State} {i3c : Bool} (served : i3c = true ∨ s.dev.house.startRec.extractLsb' 14 2 = 1#2)
include served

/-- VERIFY_COMPLETE (R459). -/
theorem exec_verifyComplete_stages {good : Bool} {ver : BitVec 16} :
    let f := s.dev.house.fw
    if f.stage = .download then
      (good = true → s.dev.house.fuse ≤ ver → s.Sends (.verifyComplete i3c good ver) 0x00#8
        { f.mark true with stage := .apply, inactiveVersion := ver }) ∧
      (good = false → s.Sends (.verifyComplete i3c good ver) 0x03#8 { f.mark false with stage := .ready }) ∧
      (good = true → ver < s.dev.house.fuse → s.Sends (.verifyComplete i3c good ver) 0x02#8 { f.mark false with stage := .ready })
    else s.Sends (.verifyComplete i3c good ver) (if f.stage = .idle then 0x80#8 else 0x84#8) f ∧
      ∀ t, exec (.verifyComplete i3c good ver) s = .next t → t.dev.sig = s.dev.sig := by
  intro f
  split
  next here =>
    refine ⟨fun signed allowed => ?_, fun unsigned => ?_, fun signed old => ?_⟩
    · refine State.sends_pldm (change := fun f => { f.mark true with stage := .apply, inactiveVersion := ver }) served rfl
        (if_neg ?_) (decide_eq_true here)
      simp [signed, allowed]
    · refine State.sends_of (change := fun f => { f.mark false with stage := .ready }) served rfl ((if_pos ?_).trans ?_)
      · simp [unsigned, here, f] at *
      · rw [unsigned]
        rfl
    · refine State.sends_of (change := fun f => { f.mark false with stage := .ready }) served rfl ((if_pos ?_).trans ?_)
      · simp [signed, f] at *
        exact ⟨here, old⟩
      · rw [signed]
        rfl
  next elsewhere =>
    refine State.refuses_pldm served rfl (if_neg ?_) (decide_eq_false elsewhere)
    simp only [Bool.and_eq_true, decide_eq_true_eq, not_and]
    exact fun here => absurd here elsewhere

/-- ACTIVATE_FIRMWARE (R460). -/
theorem exec_activateFirmware_stages :
    let f := s.dev.house.fw
    if f.stage = .activate then s.Sends (.activateFirmware i3c) 0x00#8 { f with stage := .idle, pending := true } ∧
      (∀ t, exec (.activateFirmware i3c) s = .next t → ∀ p ∈ t.dev.sig.specs, p.adopted = false → p.cause.isSome = true)
    else s.Sends (.activateFirmware i3c) (if f.stage = .idle then 0x80#8 else 0x84#8) f ∧
      ∀ t, exec (.activateFirmware i3c) s = .next t → t.dev.sig = s.dev.sig := by
  intro f
  split
  next here =>
    have runs : exec (.activateFirmware i3c) s = .next (s.mapDev (fun d =>
        ((d.mapFw (fun f => { f with stage := .idle, pending := true })).emit [.pldm 0x00#8]).missSpec (fun _ => true))) := by
      refine congrArg Host.Outcome.next ((State.over_served served).trans ?_)
      dsimp only
      rw [if_pos (decide_eq_true here), State.pldm]
      exact congrArg (fun d : Device => { s with dev := d.missSpec (fun _ => true) }) (if_pos (decide_eq_true here))
    refine ⟨⟨_, runs, ⟨rfl, rfl, rfl⟩, rfl, rfl⟩, fun t next p mem real => ?_⟩
    rw [runs] at next
    cases next
    exact Device.missSpec_ends _ mem real
  next elsewhere =>
    refine State.refuses_pldm (change := fun f => { f with stage := .idle, pending := true }) served rfl ?_ (decide_eq_false elsewhere)
    exact if_neg (by rw [decide_eq_false elsewhere]; decide)

/-- A request that an index or slot refuses besides. -/
theorem State.attests_unless {i : Instr} {no : Prop} [Decidable no] {f : State → State} {code : BitVec 8} {ws : List Word} {need after : Nat}
    (runs : exec i s = .next (s.over i3c f)) (does : f s = if no then s.mapDev (fun d => d.emit [.spdm 0x7F#8 []]) else s.spdm need code ws after) :
    if s.dev.house.spdm < need ∨ no then s.Attests i 0x7F#8 [] s.dev.house.spdm else s.Attests i code ws after := by
  by_cases refused : no
  · rw [if_pos (Or.inr refused)]
    exact State.attests_error served runs (does.trans (if_pos refused))
  · rw [if_neg refused] at does
    simp only [refused, or_false]
    split
    next early => exact State.attests_early served runs does early
    next inOrder => exact State.attests_spdm served runs does inOrder

end

end Sys2Proof.Machine

namespace Sys2Proof.Proofs
open Sys2Proof.Machine Sys2Proof.Claims

/-- Settles O49: each command is its stage's answer or a refusal, each request its place's answer or an error, and a device that serves the
side-band only answers no other. -/
theorem updatesAndAttestation : Obligations.UpdatesAndAttestation := by
  unfold Obligations.UpdatesAndAttestation
  intro i3c good chunk nonce ver slot index s f linked spare marked holding answers refused
  have served (h : i3c = true ∨ linked) := h
  refine ⟨fun band unlinked i named => ?_, fun served => ⟨fun idle => ?_, fun busy => ?_, ?_, ?_, ?_, ?_, ?_, ?_, ?_, ?_⟩⟩
  · simp only [List.mem_cons, List.not_mem_nil, or_false] at named
    rcases named with rfl | rfl | rfl | rfl | rfl | rfl | rfl | rfl | rfl | rfl | rfl | rfl | rfl | rfl | rfl <;>
      exact congrArg Host.Outcome.next (State.over_unserved band unlinked)
  · exact State.sends_of served rfl (change := fun f => { f with stage := .learn })
      (congrArg (fun d => { s with dev := d }) (if_pos idle))
  · exact State.sends_same served rfl (congrArg (fun d => { s with dev := d }) (if_neg busy))
  · exact State.sends_inStage (.passComponentTable i3c) (f.stage = .learn) served rfl rfl
  · have writes : { f.write [] with stage := .download } = { holding [] with stage := .download } := by
      simp only [holding, Firmware.write, Firmware.mark]
      split <;> rfl
    exact writes ▸ State.sends_inStage (.updateComponent i3c) (f.stage = .ready ∨ f.stage = .activate) served rfl rfl
  · have writes : f.write (f.spare ++ chunk) = holding (spare ++ chunk) := by
      simp only [holding, spare, Firmware.write, Firmware.mark, Firmware.spare]
      split <;> rfl
    exact writes ▸ State.sends_inStage (.requestFirmwareData i3c chunk) (f.stage = .download) served rfl rfl
  · exact exec_verifyComplete_stages served
  · exact State.sends_inStage (.applyComplete i3c) (f.stage = .apply) served rfl rfl
  · exact exec_activateFirmware_stages served
  · exact State.sends_inStage (.cancelUpdate i3c) (f.stage ≠ .idle) served rfl rfl
  · intro asked six image words all replies
    refine ⟨?_, ?_, ?_, ?_, ?_, ?_, ?_⟩
    · exact State.attests_spdm served rfl rfl (Nat.not_lt_zero _)
    · exact State.attests_inOrder (i := .getCapabilities i3c) served rfl
    · exact State.attests_inOrder (i := .negotiateAlgorithms i3c) served rfl
    · exact State.attests_inOrder (i := .getDigests i3c) served rfl
    · exact State.attests_unless (i := .getCertificate i3c slot) served rfl (ite_not ..).symm
    · exact State.attests_inOrder (i := .challenge i3c nonce) served rfl
    · refine State.attests_unless (i := .getMeasurements i3c index) served rfl ?_
      have image' (i : Nat) (inside : 1 ≤ i ∧ i ≤ 6) : s.dev.house.measured i = words i := by
        obtain ⟨low, high⟩ := inside
        interval_cases i <;> rfl
      by_cases zero : index = 0
      · subst zero
        rfl
      by_cases inside : 1 ≤ index ∧ index ≤ 6
      · have known : ¬ (6 < index ∧ index ≠ 0xFF) := by omega
        have one : index ≠ 0xFF := by omega
        simp only [zero, inside, known, one, if_false, and_self, if_true]
        rw [image' index inside]
        rfl
      · by_cases whole : index = 0xFF
        · subst whole
          rfl
        · have unknown : 6 < index ∧ index ≠ 0xFF := by omega
          simp only [zero, inside, unknown, if_false, if_true, ne_eq, not_false_eq_true, and_self]

end Sys2Proof.Proofs

namespace Sys2Proof.Machine
open Sys2Proof.Claims

/-! The Distant starts a speculation (R381, R384). -/

section
variable {d : Device} {q : BitVec 16}

theorem Device.distantReady_iff : d.distantReady q = true ↔ d.sig.spec.ctl.getLsbD 0 = true ∧ d.sig.spec.len ≠ 0#35 ∧ d.house.fw.pending = false ∧
    d.sig.specs.length < (d.sig.spec.ctl.extractLsb' 4 4).toNat ∧ d.sig.spec.used + 0x4000000 ≤ d.sig.spec.len.toNat ∧
    ∀ y ∈ d.sig.specs, y.svc.q ≠ q := by
  change _ ↔ _ ∧ _ ∧ _ ∧ d.sig.specs.length < d.sig.spec.maxSvc ∧ _
  simp only [Device.distantReady, Bool.and_eq_true, decide_eq_true_eq, bne_iff_ne, Bool.not_eq_true', List.any_eq_false, beq_iff_eq,
    and_assoc, ne_eq]

/-- Words of the predicted record (R381). -/
theorem History.predicted_word (h : History) {n : Nat} (inside : n < 16) :
    recWord h.predicted.1 n = if 5 ≤ n ∧ n ≤ 12 then recWord h.lrec n + h.strideA.getD (n - 5) 0#64
      else if n = 15 then 0#32 ++ (h.lseq + 1#32) else recWord h.lrec n :=
  (getD_map_range (fun i => if 5 ≤ i ∧ i ≤ 12 then recWord h.lrec i + h.strideA.getD (i - 5) 0#64
    else if i = 15 then 0#32 ++ (h.lseq + 1#32) else recWord h.lrec i) 16 n 0#64).trans (if_pos inside)

/-- A queue with a predicted service is mapped. -/
theorem Device.predictedService_mapped {v : Service} (predicted : d.predictedService q = some v) : ∃ k x, d.sig.slotOf q = some (k, x) := by
  unfold Device.predictedService at predicted
  cases mapped : d.sig.slotOf q with
  | none => rw [mapped] at predicted; cases predicted
  | some y => exact ⟨y.1, y.2, rfl⟩

/-- What a predicted service says of the history of its queue. -/
theorem Device.predictedService_some {k : Nat} {x : QSlot} {v : Service} (mapped : d.sig.slotOf q = some (k, x))
    (predicted : d.predictedService q = some v) :
    x.hist.valid = true ∧ 2 ≤ x.hist.conf.toNat ∧ x.head = x.tail ∧ recSpec x.hist.lrec = true ∧ recInd x.hist.lrec = false ∧
    v.q = q ∧ v.seq = x.hist.lseq + 1#32 ∧ v.record = x.hist.predicted.1 := by
  unfold Device.predictedService at predicted
  rw [mapped] at predicted
  cases read : d.ctx q with
  | absent => rw [read] at predicted; cases predicted
  | failed => rw [read] at predicted; cases predicted
  | ok c =>
    rw [read] at predicted
    dsimp only at predicted
    split at predicted
    · split at predicted
      · cases predicted
      next may =>
        cases predicted
        simp only [Bool.or_eq_true, Bool.not_eq_true', decide_eq_true_eq, not_or, Bool.not_eq_false, Bool.not_eq_true, bne_eq_false_iff_eq] at may
        obtain ⟨⟨⟨⟨⟨⟨⟨⟨⟨⟨-, -⟩, valid⟩, conf⟩, spec⟩, direct⟩, -⟩, -⟩, even⟩, -⟩, -⟩ := may
        exact ⟨valid, by omega, even.symm, spec, direct, rfl, rfl, rfl⟩
    · cases predicted

end

section
variable {s : State} {q : BitVec 16}

theorem exec_speculationStart_stays {v : Service}
    (stays : s.dev.distantReady q = false ∨ s.dev.predictedService q = none ∨ s.realWaits = true ∨
      (s.dev.predictedService q = some v ∧ v.count = some 0#32)) : exec (.speculationStart q) s = .next s := by
  refine congrArg Host.Outcome.next ?_
  by_cases ready : s.dev.distantReady q = true
  · rw [if_pos ready]
    cases predicted : s.dev.predictedService q with
    | none => rfl
    | some w =>
      dsimp only
      split
      · refine if_pos ?_
        rcases stays with unready | none | waits | ⟨some, zero⟩
        · rw [ready] at unready; cases unready
        · rw [predicted] at none; cases none
        · rw [waits]; rfl
        · rw [predicted] at some
          cases some
          rw [zero]
          exact Bool.or_true _
      · rfl
  · rw [if_neg ready]

variable {v : Service} {i : Image} (ready : s.dev.distantReady q = true) (predicted : s.dev.predictedService q = some v) (image : v.image = some i)
include ready predicted image

theorem exec_speculationStart_placeless (no : s.dev.regionsOf v.handles = none ∨ s.spot v.record i v.pri.toNat true = none) :
    exec (.speculationStart q) s = .next s := by
  refine congrArg Host.Outcome.next ?_
  rw [if_pos ready, predicted]
  dsimp only
  rw [image, Option.bind_some]
  rcases no with none | none <;> rw [none]
  cases s.dev.regionsOf v.handles <;> rfl

/-- A speculation starts. -/
theorem exec_speculationStart {ws : List Nat} (regions : s.dev.regionsOf v.handles = some ws) (fits : s.spot v.record i v.pri.toNat true ≠ none)
    (calm : s.realWaits = false) (some : v.count ≠ some 0#32) :
    exec (.speculationStart q) s = .next (s.mapDev (fun d =>
      ((d.mapSig (fun x => { x with specs := x.specs ++ [{ svc := v, watches := ws }] })).mapSpecRegs
        (fun r => { r with start := r.start + 1#64 })).mapSlot q (fun x => { x with tried := .some v.seq }))) := by
  refine congrArg Host.Outcome.next ?_
  obtain ⟨sp, fits⟩ := Option.ne_none_iff_exists'.mp fits
  rw [if_pos ready, predicted]
  dsimp only
  rw [image, Option.bind_some, regions, fits]
  refine if_neg ?_
  rw [calm, beq_eq_false_iff_ne.mpr some]
  decide

end

end Sys2Proof.Machine

namespace Sys2Proof.Machine
open Sys2Proof.Claims

/-! The service of a name after a change (R374, R394). -/

/-- The service of a name is what became of the one before. -/
theorem find_mapService {vs : List Service} {q : BitVec 16} {seq : BitVec 32} {v : Service} {f : Service → Service}
    (keeps : ∀ u, (f u).q = u.q ∧ (f u).seq = u.seq) (found : vs.find? (fun u => u.q == q && u.seq == seq) = some v) :
    (vs.map (fun u => if u.q == q && u.seq == seq then f u else u)).find? (fun u => u.q == q && u.seq == seq) = some (f v) := by
  have named : (fun u : Service => u.q == q && u.seq == seq) ∘ (fun u => if u.q == q && u.seq == seq then f u else u) =
      (fun u => u.q == q && u.seq == seq) := by
    funext u
    simp only [Function.comp]
    split
    · rw [(keeps u).1, (keeps u).2]
    · rfl
  have mine := List.find?_some found
  rw [List.find?_map, named, found]
  exact congrArg some (if_pos mine)

theorem Service.named {vs : List Service} {q : BitVec 16} {seq : BitVec 32} {v : Service}
    (found : vs.find? (fun u => u.q == q && u.seq == seq) = some v) : v ∈ vs ∧ v.q = q ∧ v.seq = seq := by
  have mine := List.find?_some found
  simp only [Bool.and_eq_true, beq_iff_eq] at mine
  exact ⟨List.mem_of_find?_eq_some found, mine.1, mine.2⟩

/-! Speculations end (R378, R388, R390, R396). -/

theorem Speculation.owns_iff {p : Speculation} {y : Consist} : p.owns y = true ↔ y.spec = true ∧ y.q = p.svc.q ∧ y.seq = p.svc.seq := by
  simp only [Speculation.owns, Bool.and_eq_true, beq_iff_eq, and_assoc]

section
variable {s : State} {p : Speculation} {k : SpecEnd}

/-- No car of a speculation stands after its discard (R396). -/
theorem State.discard_gone {y : Consist} (here : y ∈ s.dev.sig.consists) (owned : p.owns y = true) :
    ∀ c ∈ (s.discard p k).cars, y.holds c = false := by
  have stopped : ∀ c ∈ ((s.letGo (fun c => (s.dev.sig.consists.filter p.owns).any (fun x => x.holds c))).mapCars
      (fun c => if (s.dev.sig.consists.filter p.owns).any (fun x => x.holds c) then c.abort else c)).cars, y.holds c = false := by
    simp only [State.mapCars_cars, List.forall_mem_map]
    refine fun c _ => Consist.holds_ite_abort fun others => ?_
    rw [List.any_eq_true] at others
    exact Bool.eq_false_iff.mpr fun held => others ⟨y, List.mem_filter.mpr ⟨here, owned⟩, held⟩
  exact State.endStreams_gone stopped

theorem State.endStreams_outbox (s : State) : s.endStreams.dev.outbox = s.dev.outbox := rfl

/-- What the Signal box forgets of a speculation at its discard. -/
def Device.forgetSpec (d : Device) (p : Speculation) (k : SpecEnd) : Device :=
  ((d.mapSig (fun x => { x with
    consists := x.consists.filter (fun c => !p.owns c)
    specs := x.specs.filter (fun y => !(y.svc.q == p.svc.q && y.svc.seq == p.svc.seq)) })).mapSpecRegs (fun r =>
      ({ r with used := r.used - p.granules.length * 0x10000 }).count k)).sweepSets

theorem Device.forgetSpec_silent (d : Device) : (d.forgetSpec p k).mem = d.mem ∧ (d.forgetSpec p k).sig.services = d.sig.services ∧
    (d.forgetSpec p k).outbox = d.outbox := ⟨rfl, rfl, rfl⟩

/-- A discard is silent (R396). -/
theorem State.discard_silent : (s.discard p k).dev.mem = s.dev.mem ∧ (s.discard p k).dev.sig.services = s.dev.sig.services ∧
    (s.discard p k).dev.outbox = s.dev.outbox := by
  let stopped := (s.letGo (fun c => (s.dev.sig.consists.filter p.owns).any (fun x => x.holds c))).mapCars
    (fun c => if (s.dev.sig.consists.filter p.owns).any (fun x => x.holds c) then c.abort else c)
  have forgets : s.discard p k = stopped.endStreams.mapDev (fun d => d.forgetSpec p k) := rfl
  obtain ⟨mem, services, outbox⟩ := Device.forgetSpec_silent (p := p) (k := k) stopped.endStreams.dev
  rw [forgets]
  exact ⟨mem.trans stopped.endStreams_mem, services.trans (congrArg Signal.services stopped.endStreams_sig), outbox.trans stopped.endStreams_outbox⟩

theorem State.discard_consists (y : Consist) :
    y ∈ (s.discard p k).dev.sig.consists ↔ y ∈ s.dev.sig.consists ∧ ¬ (y.spec = true ∧ y.q = p.svc.q ∧ y.seq = p.svc.seq) := by
  rw [← Speculation.owns_iff, Bool.not_eq_true, ← Bool.not_eq_true']
  exact List.mem_filter

theorem State.discard_specs (y : Speculation) :
    y ∈ (s.discard p k).dev.sig.specs ↔ y ∈ s.dev.sig.specs ∧ ¬ (y.svc.q = p.svc.q ∧ y.svc.seq = p.svc.seq) := by
  refine List.mem_filter.trans (and_congr_right fun _ => ?_)
  rw [Bool.not_eq_true', ← Bool.not_eq_true, Bool.and_eq_true, beq_iff_eq, beq_iff_eq]

end

theorem SpecRegs.count_counts (r : SpecRegs) (k : SpecEnd) : (r.count k).used = r.used ∧
    (r.count k).doomed = r.doomed + (if k = .doomed then 1#64 else 0#64) ∧ (r.count k).miss = r.miss + (if k = .missed then 1#64 else 0#64) ∧
    (r.count k).yield = r.yield + (if k = .yielded then 1#64 else 0#64) := by
  cases k <;> simp [SpecRegs.count]

section
variable {s : State} {q : BitVec 16} {seq : BitVec 32} {p : Speculation}

theorem exec_speculationDiscard {why : SpecEnd} {since : Nat} (found : s.dev.sig.specs.find? (fun y => y.svc.q == q && y.svc.seq == seq) = some p)
    (cause : p.cause = some (why, since)) : exec (.speculationDiscard q seq) s = .next (s.discard p why) := by
  refine congrArg Host.Outcome.next ?_
  rw [found]
  dsimp only
  rw [cause]

theorem exec_speculationDiscard_stays (no : ∀ y, s.dev.sig.specs.find? (fun y => y.svc.q == q && y.svc.seq == seq) = some y → y.cause = none) :
    exec (.speculationDiscard q seq) s = .next s := by
  refine congrArg Host.Outcome.next ?_
  cases found : s.dev.sig.specs.find? (fun y => y.svc.q == q && y.svc.seq == seq) with
  | none => rfl
  | some y =>
    dsimp only
    rw [no y found]

theorem exec_specYield_stays (no : ∀ y, s.dev.sig.specOf q seq = some y → y.adopted = true ∨ s.mustYield y = false) :
    exec (.specYield q seq) s = .next s := by
  refine congrArg Host.Outcome.next ?_
  cases found : s.dev.sig.specOf q seq with
  | none => rfl
  | some y =>
    refine if_pos ?_
    rcases no y found with adopted | stays
    · rw [adopted]; rfl
    · rw [stays]; exact Bool.or_true _

theorem exec_specYield (found : s.dev.sig.specOf q seq = some p) (free : p.adopted = false) (must : s.mustYield p = true) :
    exec (.specYield q seq) s = .next (s.mapDev (fun d => d.mapSpec q seq (fun x => x.ends .yielded d.now))) := by
  refine congrArg Host.Outcome.next ?_
  rw [found]
  refine if_neg ?_
  rw [free, must]
  decide

theorem Signal.specOf_spec {x : Signal} (found : x.specOf q seq = some p) : p ∈ x.specs ∧ p.svc.q = q ∧ p.svc.seq = seq ∧ p.cause = none := by
  have mine := List.find?_some found
  simp only [Bool.and_eq_true, beq_iff_eq, Option.isNone_iff_eq_none] at mine
  exact ⟨List.mem_of_find?_eq_some found, mine.1.1, mine.1.2, mine.2⟩

end

/-- A speculation that yields stands with that cause. -/
theorem Device.yielded_mem {d : Device} {q : BitVec 16} {seq : BitVec 32} {p : Speculation} (here : p ∈ d.sig.specs)
    (named : p.svc.q = q ∧ p.svc.seq = seq) (going : p.cause = none) :
    { p with cause := some (.yielded, d.now) } ∈ (d.mapSpec q seq (fun x => x.ends .yielded d.now)).sig.specs := by
  have ends : p.ends .yielded d.now = { p with cause := some (.yielded, d.now) } := by
    unfold Speculation.ends
    rw [going]
  have mine : (p.svc.q == q && p.svc.seq == seq) = true := by simp [named]
  exact List.mem_map.mpr ⟨p, here, (if_pos mine).trans ends⟩

/-- A write is seen by the speculations that watch its region (R388). -/
theorem Device.watched_one (d : Device) (pa : Nat) :
    (∀ y ∈ d.sig.specs, pa / 0x200000 ∉ y.watches → y ∈ (d.watched none pa 1).sig.specs) ∧
    ∀ y ∈ (d.watched none pa 1).sig.specs, pa / 0x200000 ∈ y.watches → y.cause.isSome = true := by
  have region (r : Nat) : decide (pa / 0x200000 ≤ r ∧ r ≤ (pa + 1 - 1) / 0x200000) = true ↔ r = pa / 0x200000 := by
    rw [decide_eq_true_iff, Nat.add_sub_cancel]
    omega
  refine ⟨fun y here aside => List.mem_map.mpr ⟨y, here, if_neg ?_⟩, fun y here watches => ?_⟩
  · simp only [Bool.and_eq_true, List.any_eq_true, region, not_and]
    rintro - ⟨r, watched, rfl⟩
    exact aside watched
  · obtain ⟨z, -, rfl⟩ := List.mem_map.mp here
    revert watches
    split
    · exact fun _ => Speculation.ends_cause _ _ _
    next unseen =>
      intro watches
      refine absurd ?_ unseen
      simp only [Bool.and_eq_true, List.any_eq_true, region]
      exact ⟨rfl, _, watches, rfl⟩

/-! The Siding's control and the debugger (R378, R394, R397). -/

theorem Device.missSpec_cause {d : Device} {f : Speculation → Bool} {y : Speculation} (here : y ∈ (d.missSpec f).sig.specs)
    (real : y.adopted = false) (mine : ∀ z : Speculation, z.svc = y.svc → f z = true) : y.cause.isSome = true := by
  obtain ⟨z, -, rfl⟩ := List.mem_map.mp here
  revert real mine
  split
  · exact fun _ _ => Speculation.ends_cause _ _ _
  next no =>
    intro real mine
    refine absurd ?_ no
    rw [real, mine z rfl]
    rfl

theorem exec_sidingCopyBack {s : State} {q : BitVec 16} {seq : BitVec 32} {y : BitVec 16 × BitVec 32 × Nat}
    (found : s.dev.sig.backs.find? (fun y => y.1 == q && y.2.1 == seq) = some y) : exec (.sidingCopyBack q seq) s = .next (s.mapDev (fun d =>
      (d.mapSig (fun x => { x with backs := x.backs.erase y })).mapSpecRegs (fun r => { r with used := r.used - y.2.2 }))) := by
  refine congrArg Host.Outcome.next (congrArg (fun d => { s with dev := d }) ?_)
  beta_reduce
  rw [found]

theorem exec_sidingCopyBack_none {s : State} {q : BitVec 16} {seq : BitVec 32}
    (none : s.dev.sig.backs.find? (fun y => y.1 == q && y.2.1 == seq) = none) : exec (.sidingCopyBack q seq) s = .next s := by
  refine congrArg Host.Outcome.next (congrArg (fun d => { s with dev := d }) ?_)
  beta_reduce
  rw [none]

/-- SPEC_CTL as it stores a byte (R378). -/
theorem specCtl_fields (b : Byte) : (specCtl b).getLsbD 0 = b.getLsbD 0 ∧ (specCtl b).extractLsb' 1 3 = 0#3 ∧
    ((specCtl b).extractLsb' 4 4).toNat = min 8 (b.extractLsb' 4 4).toNat := by
  revert b
  decide

/-- SPEC_CTL_WRITE (R378, R379). -/
theorem exec_specCtlWrite (s : State) (b : Byte) : ∃ t, exec (.specCtlWrite b) s = .next t ∧ Untouched s t ∧
    t.dev.sig.spec.ctl = specCtl b ∧
    (s.dev.sig.spec.ctl.getLsbD 0 = true → b.getLsbD 0 = false → ∀ y ∈ t.dev.sig.specs, y.adopted = false → y.cause.isSome = true) ∧
    (s.dev.sig.spec.ctl.getLsbD 0 = false ∨ b.getLsbD 0 = true → t.dev.sig.specs = s.dev.sig.specs) := by
  let stored := s.dev.mapSpecRegs (fun r => { r with ctl := specCtl b })
  by_cases off : (s.dev.sig.spec.ctl.getLsbD 0 && !b.getLsbD 0) = true
  · have runs : exec (.specCtlWrite b) s = .next { s with dev := stored.missSpec (fun _ => true) } :=
      congrArg Host.Outcome.next (congrArg (fun d : Device => ({ s with dev := d } : State)) (if_pos off))
    refine ⟨_, runs, ⟨rfl, rfl, rfl⟩, rfl, fun _ _ y here real => Device.missSpec_cause here real fun _ _ => rfl, fun on => ?_⟩
    rcases on with on | on <;> rw [on] at off <;> simp at off
  · have runs : exec (.specCtlWrite b) s = .next { s with dev := stored } :=
      congrArg Host.Outcome.next (congrArg (fun d : Device => ({ s with dev := d } : State)) (if_neg off))
    refine ⟨_, runs, ⟨rfl, rfl, rfl⟩, rfl, fun was now => ?_, fun _ => rfl⟩
    rw [was, now] at off
    exact absurd rfl off

/-- DBG_ATTACH where the context can be read (R351, R397). -/
theorem exec_dbgAttach {s u : State} {q : BitVec 16} {c : Ctx} {w : Nat} (read : s.dev.ctx q = .ok c) (word : s.dev.wordVa (c.va + 8) = some w)
    (made : s.writeVa (c.va + 8) (wordBytes [BitVec.ofNat 64 w ||| 0x20000#64]) = some u) :
    exec (.dbgAttach q) s = .next (u.mapDev (fun d => d.seeDbg q)) := by
  refine congrArg Host.Outcome.next ?_
  rw [read]
  dsimp only
  rw [word]
  show ((s.writeVa (c.va + 8) (wordBytes [BitVec.ofNat 64 w ||| 0x20000#64])).getD s).mapDev _ = _
  rw [made]
  rfl

theorem exec_dbgAttach_unread {s : State} {q : BitVec 16} (unread : s.dev.ctx q = .absent ∨ s.dev.ctx q = .failed) :
    exec (.dbgAttach q) s = .next s := by
  refine congrArg Host.Outcome.next ?_
  rcases unread with unread | unread <;> rw [unread]

/-- What the device does when it sees DBG (R397). -/
theorem Device.seeDbg_eq (d : Device) (q : BitVec 16) : ∃ ps, d.seeDbg q = { d with sig := { d.sig with specs := ps } } ∧
    ∀ c, d.ctx q = .ok c → c.dbg = true → d.sig.slotOf q ≠ none → ∀ y ∈ ps, y.svc.q = q → y.adopted = false → y.cause.isSome = true := by
  unfold Device.seeDbg
  split
  next x c mapped read =>
    split
    next dbg =>
      refine ⟨_, rfl, fun _ _ _ _ y here mine real => Device.missSpec_cause (d := d) (f := fun p => p.svc.q == q) here real fun z same => ?_⟩
      rw [same, mine]
      exact beq_self_eq_true q
    next quiet =>
      refine ⟨_, rfl, fun c' same dbg => ?_⟩
      rw [read] at same
      cases same
      exact absurd dbg quiet
  next others =>
    refine ⟨_, rfl, fun c read _ mapped => ?_⟩
    obtain ⟨x, mapped⟩ := Option.ne_none_iff_exists'.mp mapped
    exact absurd read (others x c mapped)

end Sys2Proof.Machine

namespace Sys2Proof.Machine
open Sys2Proof.Claims

/-! A speculation commits (R394). -/

/-- A granule that is put into a memory stands in the place of the one there. -/
theorem Mem.read_putGranule (m x : Mem) (g a : Nat) (poison : List Nat) :
    (m.putGranule g { cells := x.cells.filter (fun c => decide (g * 0x10000 ≤ c.1 ∧ c.1 < (g + 1) * 0x10000)), poison }).read a =
      if a / 0x10000 = g then x.read a else m.read a := by
  have below : ∀ c ∈ m.cells.filter (fun c => decide (c.1 < g * 0x10000)), c.1 < g * 0x10000 := fun c hc => by
    simpa using (List.mem_filter.mp hc).2
  have within : ∀ c ∈ x.cells.filter (fun c => decide (g * 0x10000 ≤ c.1 ∧ c.1 < (g + 1) * 0x10000)),
      g * 0x10000 ≤ c.1 ∧ c.1 < (g + 1) * 0x10000 := fun c hc => by simpa using (List.mem_filter.mp hc).2
  have above : ∀ c ∈ m.cells.filter (fun c => decide ((g + 1) * 0x10000 ≤ c.1)), (g + 1) * 0x10000 ≤ c.1 := fun c hc => by
    simpa using (List.mem_filter.mp hc).2
  unfold Mem.read Mem.putGranule
  rcases Nat.lt_trichotomy (a / 0x10000) g with low | same | high
  · rw [if_neg low.ne, List.append_assoc, cells_read_left fun c hc => ?_, cells_read_filter _ (fun a => decide (a < g * 0x10000)), if_pos]
    · simp only [decide_eq_true_eq]; omega
    · rcases List.mem_append.mp hc with hc | hc
      · have := within c hc; omega
      · have := above c hc; omega
  · rw [if_pos same, cells_read_left fun c hc => ?_, cells_read_right fun c hc => ?_,
      cells_read_filter _ (fun a => decide (g * 0x10000 ≤ a ∧ a < (g + 1) * 0x10000)), if_pos]
    · simp only [decide_eq_true_eq]; omega
    · have := below c hc; omega
    · have := above c hc; omega
  · rw [if_neg high.ne', cells_read_right fun c hc => ?_, cells_read_filter _ (fun a => decide ((g + 1) * 0x10000 ≤ a)), if_pos]
    · simp only [decide_eq_true_eq]; omega
    · rcases List.mem_append.mp hc with hc | hc
      · have := below c hc; omega
      · have := within c hc; omega

section
variable {s : State} (noStash : ∀ c ∈ s.cars, c.eng.stash = [])

include noStash in
/-- A write passes cars without a stash. -/
theorem State.snoop_of_noStash (me : Option CarRef) (spec : Option Speculation) (t : Target) (n : Nat) : s.snoop me spec t n = s := by
  have empty : s.cars.all (fun c => c.eng.stash.isEmpty) = true := by simpa using noStash
  rw [State.snoop, State.snoopN, empty]
  rfl

/-- What commits of granules change: memory there, its errors that no access has met, and what watches the regions. -/
theorem State.commitGranules (p : Speculation) (noStash : ∀ c ∈ s.cars, c.eng.stash = []) (own : s.dev.fab.fwd = []) (gs : List Nat) :
    ∃ m ls ps, gs.foldl (fun s g => s.commitGranule p g) s =
        s.mapDev (fun d => { d with mem := m, latent := ls, sig := { d.sig with specs := ps } }) ∧
      ∀ a, m.read a = if a / 0x10000 ∈ gs then p.shadow.read a else s.dev.mem.read a := by
  induction gs generalizing s with
  | nil => exact ⟨s.dev.mem, s.dev.latent, s.dev.sig.specs, rfl, fun a => (if_neg List.not_mem_nil).symm⟩
  | cons g gs ih =>
    obtain ⟨m, ls, ps, one, read⟩ : ∃ m ls ps, s.commitGranule p g =
        s.mapDev (fun d => { d with mem := m, latent := ls, sig := { d.sig with specs := ps } }) ∧
        ∀ a, m.read a = if a / 0x10000 = g then p.shadow.read a else s.dev.mem.read a := by
      have empty : s.dev.fab.fwd.isEmpty = true := by rw [own]; rfl
      refine ⟨_, s.dev.latent.filter (fun a => decide (a / 0x10000 ≠ g)),
        (s.dev.watched (some (p.svc.q, p.svc.seq)) (g * 0x10000) 0x10000).sig.specs, ?_, fun a => Mem.read_putGranule s.dev.mem p.shadow g a
        (p.shadow.poison.filter (fun a => decide (g * 0x10000 ≤ a ∧ a < (g + 1) * 0x10000)))⟩
      rw [State.commitGranule, State.snoop_of_noStash noStash]
      simp only [State.mapDev, empty, if_true, Device.watched]
    obtain ⟨m', ls', ps', rest, read'⟩ := ih (s := s.commitGranule p g) (by rw [one]; exact noStash) (by rw [one]; exact own)
    refine ⟨m', ls', ps', ?_, fun a => ?_⟩
    · rw [List.foldl_cons, rest, one]
      rfl
    · rw [read', one]
      show (if _ then _ else m.read a) = _
      rw [read]
      by_cases later : a / 0x10000 ∈ gs
      · simp [later]
      · simp [later, eq_comm]

end

theorem Signal.commits_iff {x : Signal} {p : Speculation} {v : Service} (going : p.cause = none) : x.commits p v = true ↔
    p.adopted = true ∧ (∃ n, p.svc.count = some n ∧ n.toNat ≤ p.svc.finished) ∧ x.heldBack v = false ∧
      ∀ u ∈ x.services, u.q = v.q → v.order ≤ u.order := by
  unfold Signal.commits
  rw [going]
  cases count : p.svc.count with
  | none => simp
  | some n =>
    simp only [Option.isNone_none, Bool.and_true, Bool.and_eq_true, decide_eq_true_eq, Bool.not_eq_true', List.all_eq_true, Bool.or_eq_true,
      bne_iff_ne, Option.some.injEq, exists_eq_left', and_assoc, ne_eq, or_iff_not_imp_left, not_not]

section
variable {s : State} {q : BitVec 16} {seq : BitVec 32} {p : Speculation} {v : Service}

theorem exec_speculationCommit_stays (no : ∀ p v, s.dev.sig.specOf q seq = some p →
    s.dev.sig.services.find? (fun u => u.q == q && u.seq == seq) = some v → s.dev.sig.commits p v = false) :
    exec (.speculationCommit q seq) s = .next s := by
  refine congrArg Host.Outcome.next ?_
  cases spec : s.dev.sig.specOf q seq with
  | none => rfl
  | some p =>
    cases svc : s.dev.sig.services.find? (fun u => u.q == q && u.seq == seq) with
    | none => rfl
    | some v => exact if_pos (by rw [no p v spec svc]; rfl)

/-- The service of a speculation that commits has ended (R394). -/
def Service.claim (v : Service) (p : Speculation) (t : Word) : Service :=
  { v with claimed := true, tstart := p.svc.tstart, placed := p.svc.placed, finished := p.svc.finished, ended := true, tend := t }

/-- A speculation commits: its pages are in memory, and its service has ended. -/
theorem exec_speculationCommit (spec : s.dev.sig.specOf q seq = some p)
    (svc : s.dev.sig.services.find? (fun u => u.q == q && u.seq == seq) = some v) (may : s.dev.sig.commits p v = true)
    (noStash : ∀ c ∈ s.cars, c.eng.stash = []) (own : s.dev.fab.fwd = []) :
    ∃ (m : Mem) (ls : List Nat) (ps : List Speculation), exec (.speculationCommit q seq) s = .next (s.mapDev (fun d => { d with mem := m, latent := ls, sig := { d.sig with
        specs := ps.filter (fun y => !(y.svc.q == q && y.svc.seq == seq))
        backs := d.sig.backs ++ [(q, seq, p.granules.length * 0x10000)]
        spec := { d.sig.spec with hit := d.sig.spec.hit + 1#64 }
        services := d.sig.services.map (fun u => if u.q == q && u.seq == seq then u.claim p d.boxTime else u) } })) ∧
      ∀ a, m.read a = if a / 0x10000 ∈ p.granules then p.shadow.read a else s.dev.mem.read a := by
  obtain ⟨m, ls, ps, pages, read⟩ := State.commitGranules p noStash own p.granules
  refine ⟨m, ls, ps, congrArg Host.Outcome.next ?_, read⟩
  rw [spec, svc]
  refine (if_neg (by rw [may]; decide)).trans ?_
  rw [pages]
  rfl

end

end Sys2Proof.Machine

namespace Sys2Proof.Proofs
open Sys2Proof.Machine Sys2Proof.Claims

/-- Settles O46: how speculations start, are doomed, discarded and committed, and what the Siding's registers do. -/
theorem speculationsStartEndAndCommit : Obligations.SpeculationsStartEndAndCommit := by
  unfold Obligations.SpeculationsStartEndAndCommit
  intro q seq v p i b c pa k x s z regs
  refine ⟨Device.distantReady_iff, fun predicted mapped => ?_, exec_speculationStart_stays, fun ready predicted image => ⟨?_, ?_⟩, ?_, fun found => ⟨?_, ?_⟩,
    fun none => ?_, fun none => ⟨?_, ?_⟩, fun spec => ⟨?_, ?_, fun svc => ?_⟩, exec_sidingCopyBack_none, fun y found => ?_, ?_, ?_, ?_, ?_, ?_⟩
  · obtain ⟨valid, conf, even, spec, direct, vq, vseq, record⟩ := Device.predictedService_some mapped predicted
    refine ⟨valid, conf, even, spec, direct, vq, vseq, ?_, fun n low high => ?_, fun n other => ?_⟩
    · rw [record, History.predicted_word _ (by decide)]
      rfl
    · rw [record, History.predicted_word _ (by omega), if_pos ⟨low, high⟩]
    · rw [record, History.predicted_word _ (by omega), if_neg (by omega), if_neg (by omega)]
  · exact exec_speculationStart_placeless ready predicted image
  · intro ws regions fits calm some
    have named : v.q = q := by
      obtain ⟨k, x, mapped⟩ := Device.predictedService_mapped predicted
      obtain ⟨-, -, -, -, -, vq, -⟩ := Device.predictedService_some mapped predicted
      exact vq
    refine ⟨_, exec_speculationStart ready predicted image regions fits calm some, ⟨rfl, rfl, rfl⟩, rfl, rfl, fun y here mine => ?_⟩
    obtain ⟨z, -, rfl⟩ := List.mem_map.mp here
    revert mine
    split
    · exact fun _ => rfl
    next other => exact fun mine => absurd (beq_iff_eq.mpr mine) other
  · exact ⟨_, rfl, ⟨rfl, rfl, rfl⟩, s.dev.watched_one pa⟩
  · exact fun alive => exec_speculationDiscard_stays fun y other => by rw [found] at other; cases other; exact alive
  · intro why since cause
    have mine := List.find?_some found
    simp only [Bool.and_eq_true, beq_iff_eq] at mine
    obtain ⟨rfl, rfl⟩ := mine
    obtain ⟨used, doomed, miss, yield⟩ := SpecRegs.count_counts { s.dev.sig.spec with used := s.dev.sig.spec.used - p.granules.length * 0x10000 } why
    obtain ⟨mem, services, outbox⟩ := State.discard_silent (s := s) (p := p) (k := why)
    refine ⟨_, exec_speculationDiscard found cause, mem, services, outbox, fun y here spec yq yseq => ?_, State.discard_consists, State.discard_specs, used,
      doomed, miss, yield⟩
    exact State.discard_gone here (Speculation.owns_iff.mpr ⟨spec, yq, yseq⟩)
  · exact exec_speculationDiscard_stays fun y some => by rw [none] at some; cases some
  · exact exec_specYield_stays fun y some => by rw [none] at some; cases some
  · exact exec_speculationCommit_stays fun y v some => by rw [none] at some; cases some
  · exact fun stays => exec_specYield_stays fun y other => by rw [spec] at other; cases other; exact stays
  · intro free must
    obtain ⟨here, pq, pseq, going⟩ := Signal.specOf_spec spec
    exact ⟨_, exec_specYield spec free must, ⟨rfl, rfl, rfl⟩, Device.yielded_mem here ⟨pq, pseq⟩ going⟩
  · intro may
    obtain ⟨-, -, -, going⟩ := Signal.specOf_spec spec
    obtain ⟨-, vq, -⟩ := Service.named svc
    have commits : z.commits p v = true ↔ may := by rw [Signal.commits_iff going, vq]
    refine ⟨fun no => exec_speculationCommit_stays fun p' v' spec' svc' => ?_, fun may noStash own => ?_⟩
    · rw [spec] at spec'
      rw [svc] at svc'
      cases spec'
      cases svc'
      exact Bool.eq_false_iff.mpr (mt commits.mp no)
    · obtain ⟨m, ls, ps, runs, read⟩ := exec_speculationCommit spec svc (commits.mpr may) noStash.2 own
      refine ⟨_, runs, rfl, rfl, read, fun y here => ?_, rfl, rfl, find_mapService (fun _ => ⟨rfl, rfl⟩) svc⟩
      have kept := List.of_mem_filter here
      rw [Bool.not_eq_true', ← Bool.not_eq_true, Bool.and_eq_true, beq_iff_eq, beq_iff_eq] at kept
      exact kept
  · exact ⟨_, exec_sidingCopyBack found, ⟨rfl, rfl, rfl⟩, rfl, rfl⟩
  · obtain ⟨t, runs, untouched, ctl, off, on⟩ := exec_specCtlWrite s b
    obtain ⟨first, zeros, most⟩ := specCtl_fields b
    have ctl : (regs t).ctl = specCtl b := ctl
    refine ⟨t, runs, untouched, ?_, ?_, ?_, off, on⟩
    · rw [ctl]; exact first
    · rw [ctl]; exact zeros
    · rw [ctl]; exact most
  · rfl
  · exact ⟨_, rfl, ⟨rfl, rfl, rfl⟩, rfl⟩
  · exact exec_dbgAttach_unread
  · intro w u read word made
    obtain ⟨ps, sees, misses⟩ := u.dev.seeDbg_eq q
    have runs := exec_dbgAttach read word made
    rw [State.mapDev, sees] at runs
    exact ⟨_, runs, rfl, rfl, rfl, misses⟩

end Sys2Proof.Proofs

namespace Sys2Proof.Machine
open Sys2Proof.Claims

/-! Entries of a table that change in place. -/

section
variable {α : Type} {d : α} {t : Tab α} {r : Nat} {f : α → α}

theorem Tab.get_mapKey_other {k : Nat} (other : k ≠ r) :
    Tab.get d (t.map (fun e => if e.1 = r then (e.1, f e.2) else e)) k = t.get d k := by
  induction t with
  | nil => rfl
  | cons e t ih =>
    simp only [Tab.get, List.map_cons, List.find?_cons] at ih ⊢
    by_cases mine : e.1 = r
    · have no : (e.1 == k) = false := by simp [mine, Ne.symm other]
      simp only [if_pos mine, no]
      exact ih
    · simp only [if_neg mine]
      cases e.1 == k with
      | true => rfl
      | false => exact ih

/-- The entry of a key is changed; one that is not there stays away. -/
theorem Tab.get_mapKey_self : Tab.get d (t.map (fun e => if e.1 = r then (e.1, f e.2) else e)) r = f (t.get d r) ∨
    (t.get d r = d ∧ Tab.get d (t.map (fun e => if e.1 = r then (e.1, f e.2) else e)) r = d) := by
  induction t with
  | nil => exact .inr ⟨rfl, rfl⟩
  | cons e t ih =>
    simp only [Tab.get, List.map_cons, List.find?_cons] at ih ⊢
    by_cases mine : e.1 = r
    · have yes : (e.1 == r) = true := by simp [mine]
      simp only [if_pos mine, yes]
      exact .inl trivial
    · have no : (e.1 == r) = false := by simp [mine]
      simp only [if_neg mine, no]
      exact ih

end

/-! What a die's cache line gives its home (R302, R303). -/

section
variable {d : Device}

/-- Bytes that go home one by one. -/
theorem Device.foldl_hbmWrite (own : d.fab.fwd = []) (f : Nat → Byte) (ps : List (Nat × Byte)) (hf : ∀ p ∈ ps, p.2 = f p.1) :
    ∃ m ls, ps.foldl (fun d p => d.hbmWrite p.1 [p.2]) d = { d with mem := m, latent := ls } ∧
      ∀ a, m.read a = if a ∈ ps.map (fun p => p.1) then f a else d.mem.read a := by
  induction ps generalizing d with
  | nil => exact ⟨d.mem, d.latent, rfl, fun a => (if_neg List.not_mem_nil).symm⟩
  | cons p ps ih =>
    have one : d.hbmWrite p.1 [p.2] = { d with mem := d.mem.write p.1 [p.2]
                                               latent := d.latent.filter (fun x => decide (x < p.1 ∨ p.1 + [p.2].length ≤ x)) } :=
      if_pos (by rw [own]; rfl)
    obtain ⟨m, ls, rest, read⟩ := ih (d := d.hbmWrite p.1 [p.2]) (by rw [one]; exact own) fun q hq => hf q (List.mem_cons_of_mem _ hq)
    refine ⟨m, ls, ?_, fun a => ?_⟩
    · rw [List.foldl_cons, rest, one]
    · have written : (d.hbmWrite p.1 [p.2]).mem.read a = if a = p.1 then f a else d.mem.read a := by
        rw [one]
        show (d.mem.write p.1 [p.2]).read a = _
        split
        next same => rw [same, Mem.read_write, hf p List.mem_cons_self]; simp
        next other => exact Mem.read_write_other _ (by simp; omega)
      rw [read, written, List.map_cons]
      by_cases later : a ∈ ps.map (fun p => p.1)
      · simp only [later, if_true, List.mem_cons_of_mem]
      · simp only [later, if_false, List.mem_cons, or_false]

/-- Poison that goes home changes no byte. -/
theorem Device.foldl_hbmSpoil (own : d.fab.fwd = []) (p : Nat → Bool) (g : Nat → Nat) (is : List Nat) :
    ∃ m, is.foldl (fun d i => if p i then d.hbmSpoil (g i) else d) d = { d with mem := m } ∧ ∀ a, m.read a = d.mem.read a := by
  induction is generalizing d with
  | nil => exact ⟨d.mem, rfl, fun _ => rfl⟩
  | cons i is ih =>
    obtain ⟨m, one, read⟩ : ∃ m, (if p i then d.hbmSpoil (g i) else d) = { d with mem := m } ∧ ∀ a, m.read a = d.mem.read a := by
      split
      · refine ⟨d.mem.setPoison (g i) 1, ?_, fun a => Mem.read_setPoison ..⟩
        rw [Device.hbmSpoil, own]
        rfl
      · exact ⟨d.mem, rfl, fun _ => rfl⟩
    rw [List.foldl_cons, one]
    obtain ⟨m', rest, read'⟩ := ih (d := { d with mem := m }) own
    exact ⟨m', rest, fun a => (read' a).trans (read a)⟩

theorem CacheLine.mem_dirtyBytes {l : CacheLine} {a : Nat} : a ∈ l.dirtyBytes.map (fun p => p.1) ↔
    l.line * 64 ≤ a ∧ a < l.line * 64 + 64 ∧ l.dirty.getLsbD (a - l.line * 64) = true := by
  simp only [CacheLine.dirtyBytes, List.mem_map, List.mem_filterMap]
  constructor
  · rintro ⟨p, ⟨i, -, gives⟩, rfl⟩
    split at gives
    next dirty =>
      cases gives
      refine ⟨by omega, by omega, ?_⟩
      rw [Nat.add_sub_cancel_left]
      exact dirty
    · cases gives
  · rintro ⟨low, high, dirty⟩
    refine ⟨_, ⟨⟨a - l.line * 64, by omega⟩, List.mem_finRange _, if_pos dirty⟩, ?_⟩
    dsimp only
    omega

/-- A line's bytes as its home addresses name them. -/
def CacheLine.at (l : CacheLine) (a : Nat) : Byte := if h : a - l.line * 64 < 64 then l.bytes[a - l.line * 64] else 0#8

theorem CacheLine.dirtyBytes_at {l : CacheLine} : ∀ p ∈ l.dirtyBytes, p.2 = l.at p.1 := by
  intro p hp
  simp only [CacheLine.dirtyBytes, List.mem_filterMap] at hp
  obtain ⟨i, -, gives⟩ := hp
  split at gives
  · cases gives
    have sub : l.line * 64 + i.val - l.line * 64 = i.val := Nat.add_sub_cancel_left ..
    simp only [CacheLine.at, sub, i.isLt, dite_true]
    rfl
  · cases gives

/-- The memory of a home that holds what was dirty of a line. -/
def CacheLine.Home (l : CacheLine) (m m' : Mem) : Prop :=
  ∀ a, m'.read a = if l.line * 64 ≤ a ∧ a < l.line * 64 + 64 ∧ l.dirty.getLsbD (a - l.line * 64) = true then l.at a else m.read a

/-- A line goes home (R303). -/
theorem Device.writeBack_eq {die line : Nat} {l : CacheLine} (own : d.fab.fwd = [])
    (found : d.cache.find? (fun l => l.die == die && l.line == line) = some l) : ∃ m ls, d.writeBack die line = { d with
      mem := m, latent := ls
      cache := d.cache.map (fun x => if x.die == die && x.line == line then { x with dirty := 0#64 } else x) } ∧ l.Home d.mem m := by
  obtain ⟨m, ls, bytes, read⟩ := Device.foldl_hbmWrite own l.at l.dirtyBytes CacheLine.dirtyBytes_at
  obtain ⟨m', spoils, read'⟩ := Device.foldl_hbmSpoil (d := { d with mem := m, latent := ls }) own
    (fun i => (l.dirty &&& l.poison).getLsbD i) (fun i => line * 64 + i) (List.range 64)
  refine ⟨m', ls, ?_, fun a => (read' a).trans ((read a).trans ?_)⟩
  · unfold Device.writeBack
    rw [found]
    dsimp only
    rw [bytes, spoils]
  · simp only [CacheLine.mem_dirtyBytes]

/-- A line that is clean or goes home: its home holds what was dirty (R303, R388). -/
theorem Device.flushLine_eq {die line : Nat} {l : CacheLine} (own : d.fab.fwd = [])
    (found : d.cache.find? (fun l => l.die == die && l.line == line) = some l) : ∃ m ls ps, d.flushLine die line = { d with
      mem := m, latent := ls, sig := { d.sig with specs := ps }
      cache := d.cache.map (fun x => if x.die == die && x.line == line then (if l.dirty = 0#64 then x else { x with dirty := 0#64 }) else x) } ∧
      l.Home d.mem m := by
  unfold Device.flushLine
  rw [found]
  dsimp only
  split
  next clean =>
    refine ⟨d.mem, d.latent, d.sig.specs, ?_, fun a => ?_⟩
    · simp only [ite_self, List.map_id']
    · rw [if_neg]
      rintro ⟨-, -, dirty⟩
      rw [clean] at dirty
      simp at dirty
  next dirty =>
    obtain ⟨m, ls, back, home⟩ := Device.writeBack_eq own found
    exact ⟨m, ls, _, by rw [back]; rfl, home⟩

end

end Sys2Proof.Machine

namespace Sys2Proof.Machine
open Sys2Proof.Claims

/-! Caches and regions across hours (R300 to R303). -/

theorem Region.evict_spec (r : Region) (line die now : Nat) :
    (∀ y, y ∈ (r.evict line die now).lines ↔ y ∈ r.lines ∧ ¬ (y.1 = line ∧ y.2.1 = die)) ∧
    ((r.evict line die now).lines = [] → (r.evict line die now).mode = .shared) ∧
    ((r.evict line die now).lines ≠ [] → (r.evict line die now).mode = r.mode) := by
  refine ⟨fun y => List.mem_filter.trans (and_congr_right fun _ => ?_), fun empty => ?_, fun some => ?_⟩
  · rw [Bool.not_eq_true', ← Bool.not_eq_true, Bool.and_eq_true, beq_iff_eq, beq_iff_eq]
  · exact if_pos (List.isEmpty_iff.mpr empty)
  · exact if_neg (mt List.isEmpty_iff.mp some)

theorem Region.collapses_iff {r : Region} {die now : Nat} : r.collapses die now = true ↔
    r.mode = .fine ∧ r.lines ≠ [] ∧ (∀ y ∈ r.lines, y.2.1 = die) ∧ r.since + Config.msCycles ≤ now := by
  simp only [Region.collapses, Bool.and_eq_true, beq_iff_eq, decide_eq_true_eq, Bool.not_eq_true', List.isEmpty_eq_false_iff, List.all_eq_true,
    and_assoc, ne_eq]

section
variable (s : State) (die line : Nat)

/-- An eviction, from what it makes of the line. -/
theorem exec_dieCacheEvict {d : Device} (flushed : s.dev.flushLine die line = d) : exec (.dieCacheEvict die line) s = .next { s with dev := { d with
    cache := d.cache.filter (fun l => !(l.die == die && l.line == line))
    regions := d.regions.map (fun e => if e.1 = line / 0x8000 then (e.1, e.2.evict line die d.now) else e) } } := by
  subst flushed
  rfl

theorem Device.flushLine_absent {d : Device} (absent : ∀ y ∈ d.cache, ¬ (y.die = die ∧ y.line = line)) : d.flushLine die line = d := by
  have none : d.cache.find? (fun l => l.die == die && l.line == line) = none := by
    rw [List.find?_eq_none]
    intro y here
    rw [Bool.and_eq_true, beq_iff_eq, beq_iff_eq]
    exact absent y here
  unfold Device.flushLine
  rw [none]

/-- The directory takes note of an eviction (R300). -/
theorem regions_evict (t : Tab Region) (now : Nat) :
    let t' := t.map (fun e => if e.1 = line / 0x8000 then (e.1, e.2.evict line die now) else e)
    Tab.get {} t' (line / 0x8000) = (Tab.get {} t (line / 0x8000)).evict line die now ∧
    ∀ k, k ≠ line / 0x8000 → Tab.get ({} : Region) t' k = Tab.get {} t k := by
  refine ⟨?_, fun k other => Tab.get_mapKey_other (f := fun e : Region => e.evict line die now) other⟩
  rcases Tab.get_mapKey_self (d := ({} : Region)) (t := t) (r := line / 0x8000) (f := fun e => e.evict line die now) with same | ⟨none, gone⟩
  · exact same
  · rw [none]
    exact gone

end

/-- A region of one die alone goes back to it (R300). -/
theorem exec_regionToPrivate {s : State} {r die : Nat} (alone : (Tab.get ({} : Region) s.dev.regions r).collapses die s.now = true) :
    ∃ t, exec (.regionToPrivate r die) s = .next t ∧ Untouched s t ∧
      Tab.get {} t.dev.regions r = { (Tab.get ({} : Region) s.dev.regions r) with mode := .private_ die } ∧
      ∀ k, k ≠ r → Tab.get ({} : Region) t.dev.regions k = Tab.get {} s.dev.regions k := by
  refine ⟨_, congrArg Host.Outcome.next (if_pos alone), ⟨rfl, rfl, rfl⟩, ?_,
    fun k other => Tab.get_mapKey_other (f := fun x : Region => { x with mode := .private_ die }) other⟩
  rcases Tab.get_mapKey_self (d := ({} : Region)) (t := s.dev.regions) (r := r) (f := fun x => { x with mode := .private_ die }) with
    same | ⟨none, -⟩
  · exact same
  · rw [none] at alone
    cases alone

/-! Scrubbing (R455). -/

theorem Mem.poisoned_setPoison_one (m : Mem) (x a : Nat) : (m.setPoison x 1).poisoned a = (m.poisoned a || a == x) := by
  rw [Bool.eq_iff_iff]
  simp only [Mem.poisoned, Mem.setPoison, List.contains_iff_mem, List.mem_append, List.mem_filter, decide_eq_true_eq, List.mem_map, List.mem_range,
    Bool.or_eq_true, beq_iff_eq]
  constructor
  · rintro ((⟨here, -⟩ | ⟨i, inside, rfl⟩) | ⟨here, -⟩)
    · exact .inl here
    · exact .inr (by omega)
    · exact .inl here
  · rintro (here | rfl)
    · rcases Nat.lt_trichotomy a x with low | rfl | high
      · exact .inl (.inl ⟨here, low⟩)
      · exact .inl (.inr ⟨0, by omega, rfl⟩)
      · exact .inr ⟨here, high⟩
    · exact .inl (.inr ⟨0, by omega, rfl⟩)

theorem Mem.foldl_setPoison (xs : List Nat) (m : Mem) : (xs.foldl (fun m x => m.setPoison x 1) m).cells = m.cells ∧
    ∀ a, (xs.foldl (fun m x => m.setPoison x 1) m).poisoned a = (m.poisoned a || xs.contains a) := by
  induction xs generalizing m with
  | nil => exact ⟨rfl, fun a => by simp⟩
  | cons x xs ih =>
    obtain ⟨cells, poison⟩ := ih (m.setPoison x 1)
    refine ⟨cells, fun a => ?_⟩
    rw [List.foldl_cons, poison, Mem.poisoned_setPoison_one, List.contains_cons, Bool.or_assoc]

/-- Errors are counted in the long-lived state alone. -/
theorem Device.foldl_countUe (f : Nat → Nat) (ls : List Nat) (d : Device) :
    ∃ h, ls.foldl (fun d l => d.countUe (f l)) d = { d with house := h } := by
  induction ls generalizing d with
  | nil => exact ⟨d.house, rfl⟩
  | cons l ls ih =>
    obtain ⟨h, rest⟩ := ih (d.countUe (f l))
    exact ⟨h, rest⟩

/-- Accesses that meet errors poison their bytes. -/
theorem Device.meetErrors_spec (d : Device) (pa n : Nat) : ∃ m ls h, d.meetErrors pa n = { d with mem := m, latent := ls, house := h } ∧
    (∀ a, m.read a = d.mem.read a) ∧
    ∀ a, pa ≤ a → a < pa + n → a ∉ ls ∧ m.poisoned a = (d.mem.poisoned a || d.latent.contains a) := by
  let hit := d.latent.filter (fun a => decide (pa ≤ a ∧ a < pa + n))
  have mine (a : Nat) (low : pa ≤ a) (high : a < pa + n) : hit.contains a = d.latent.contains a := by
    rw [Bool.eq_iff_iff, List.contains_iff_mem, List.contains_iff_mem]
    simp [hit, low, high]
  by_cases none : hit.isEmpty = true
  · refine ⟨d.mem, d.latent, d.house, if_pos none, fun _ => rfl, fun a low high => ?_⟩
    have away : d.latent.contains a = false := by
      rw [← mine a low high, List.isEmpty_iff.mp none]
      rfl
    refine ⟨fun here => ?_, by rw [away, Bool.or_false]⟩
    rw [List.contains_iff_mem.mpr here] at away
    cases away
  · obtain ⟨cells, poison⟩ := Mem.foldl_setPoison hit d.mem
    obtain ⟨h, counted⟩ := Device.foldl_countUe (fun l => hit.foldl (fun m a => if a / 64 = l then Nat.min m a else m) (64 * l + 63))
      (hit.foldl (fun ls a => insertNat (a / 64) ls) []) { d with
        mem := hit.foldl (fun m x => m.setPoison x 1) d.mem, latent := d.latent.filter (fun x => !hit.contains x) }
    refine ⟨_, _, h, (if_neg none).trans counted, fun a => by simp only [Mem.read, cells], fun a low high => ⟨fun here => ?_, ?_⟩⟩
    · obtain ⟨here, left⟩ := List.mem_filter.mp here
      rw [mine a low high, List.contains_iff_mem.mpr here] at left
      cases left
    · rw [poison, mine a low high]

/-! Power (R464, R465). -/

/-- What the power manager does with a sample (R464). -/
theorem House.regulate_spec (h : House) (watts n : Nat) :
    let k := h.regulate watts n
    k.power.toNat = min watts 4095 ∧
      (h.cap.toNat < watts → (h.pacex < 14 → h.pacex < k.pacex ∧ k.pacex ≤ 14 ∧ k.thrp = h.thrp ∧ k.overCap = h.overCap) ∧
        (14 ≤ h.pacex → h.thrp < 192 → k.pacex = h.pacex ∧ h.thrp < k.thrp ∧ k.thrp ≤ 192 ∧ k.overCap = h.overCap) ∧
        (14 ≤ h.pacex → 192 ≤ h.thrp → k.pacex = h.pacex ∧ k.thrp = h.thrp ∧ k.overCap = (h.overCap || decide (h.cap.toNat < 2600)))) ∧
      (watts ≤ h.cap.toNat → k.overCap = h.overCap ∧ (0 < h.thrp → k.thrp ≤ h.thrp ∧ k.pacex = h.pacex) ∧
        (h.thrp = 0 → k.thrp = 0 ∧ k.pacex ≤ h.pacex)) := by
  intro k
  have power : (BitVec.ofNat 12 (Nat.min watts 4095)).toNat = min watts 4095 := by
    rw [BitVec.toNat_ofNat]
    exact Nat.mod_eq_of_lt (by show min watts 4095 < 2 ^ 12; omega)
  by_cases above : h.cap.toNat < watts
  · by_cases pace : h.pacex < 14
    · have is : k = { h with power := BitVec.ofNat 12 (Nat.min watts 4095), pacex := h.pacex + 1 + n % (14 - h.pacex) } :=
        (if_pos above).trans (if_pos pace)
      have := Nat.mod_lt n (show 0 < 14 - h.pacex by omega)
      rw [is]
      refine ⟨power, fun _ => ⟨fun _ => ⟨?_, ?_, rfl, rfl⟩, fun _ => ?_, fun _ => ?_⟩, fun _ => ?_⟩ <;> dsimp only <;> omega
    · by_cases throttle : h.thrp < 192
      · have is : k = { h with power := BitVec.ofNat 12 (Nat.min watts 4095), thrp := h.thrp + 1 + n % (192 - h.thrp) } :=
          (if_pos above).trans ((if_neg pace).trans (if_pos throttle))
        have := Nat.mod_lt n (show 0 < 192 - h.thrp by omega)
        rw [is]
        refine ⟨power, fun _ => ⟨fun _ => ?_, fun _ _ => ⟨rfl, ?_, ?_, rfl⟩, fun _ _ => ?_⟩, fun _ => ?_⟩ <;> dsimp only at * <;> omega
      · have is : k = { h with power := BitVec.ofNat 12 (Nat.min watts 4095), overCap := h.overCap || decide (h.cap.toNat < 2600) } :=
          (if_pos above).trans ((if_neg pace).trans (if_neg throttle))
        rw [is]
        exact ⟨power, fun _ => ⟨fun _ => absurd ‹_› pace, fun _ _ => absurd ‹_› throttle, fun _ _ => ⟨rfl, rfl, rfl⟩⟩, fun _ => absurd above (by omega)⟩
  · by_cases throttled : 0 < h.thrp
    · have is : k = { h with power := BitVec.ofNat 12 (Nat.min watts 4095), thrp := h.thrp - n % (h.thrp + 1) } :=
        (if_neg above).trans (if_pos throttled)
      rw [is]
      exact ⟨power, fun _ => absurd ‹_› above, fun _ => ⟨rfl, fun _ => ⟨Nat.sub_le .., rfl⟩, fun _ => by omega⟩⟩
    · have is : k = { h with power := BitVec.ofNat 12 (Nat.min watts 4095), pacex := h.pacex - n % (h.pacex + 1) } :=
        (if_neg above).trans (if_neg throttled)
      rw [is]
      exact ⟨power, fun _ => absurd ‹_› above, fun _ => ⟨rfl, fun _ => absurd ‹_› throttled, fun zero => ⟨zero, Nat.sub_le ..⟩⟩⟩

end Sys2Proof.Machine

namespace Sys2Proof.Proofs
open Sys2Proof.Machine Sys2Proof.Claims

/-- Caches, power and errors (R300 to R303, R455, R456, R463, R464). -/
theorem cachesPowerAndErrors : Sys2Proof.Claims.CachesPowerAndErrors := by
  intro die line r watts l s mem region home mine h
  refine ⟨fun found own => ?_, fun absent => ?_, fun alone => ?_, fun shared => ?_, ?_, ?_, rfl, ⟨_, rfl, ⟨rfl, rfl, rfl⟩, rfl⟩,
    ⟨_, rfl, ⟨rfl, rfl, rfl⟩, rfl⟩⟩
  · obtain ⟨m, ls, ps, flushed, goes⟩ := Device.flushLine_eq own found
    have named := List.find?_some found
    simp only [Bool.and_eq_true, beq_iff_eq] at named
    obtain ⟨-, rfl⟩ := named
    refine ⟨_, exec_dieCacheEvict s die l.line flushed, rfl, rfl, fun y here => ?_, fun i k => ?_, fun a away => ?_⟩
    · have kept := List.of_mem_filter here
      rw [Bool.not_eq_true', ← Bool.not_eq_true, Bool.and_eq_true, beq_iff_eq, beq_iff_eq] at kept
      exact kept
    · refine (goes (l.line * 64 + i)).trans ?_
      have sub : l.line * 64 + i - l.line * 64 = i := Nat.add_sub_cancel_left ..
      have inside : l.line * 64 ≤ l.line * 64 + i ∧ l.line * 64 + i < l.line * 64 + 64 := by omega
      simp only [sub, inside, true_and, CacheLine.at, k, dite_true]
      rfl
    · refine (goes a).trans (if_neg ?_)
      rintro ⟨low, high, -⟩
      omega
  · obtain ⟨here, others⟩ := regions_evict die line s.dev.regions s.dev.now
    obtain ⟨lines, shared, same⟩ := (Tab.get ({} : Region) s.dev.regions (line / 0x8000)).evict_spec line die s.dev.now
    rw [← here] at lines shared same
    refine ⟨_, exec_dieCacheEvict s die line (Device.flushLine_absent die line absent), ⟨rfl, rfl, rfl⟩, ?_, lines, shared, same, others⟩
    · refine List.filter_eq_self.mpr fun y here => ?_
      rw [Bool.not_eq_true', ← Bool.not_eq_true, Bool.and_eq_true, beq_iff_eq, beq_iff_eq]
      exact absent y here
  · obtain ⟨t, runs, untouched, here, others⟩ := exec_regionToPrivate (Region.collapses_iff.mpr alone)
    exact ⟨t, runs, untouched, (congrArg Region.mode here :), (congrArg Region.lines here :), others⟩
  · exact congrArg Host.Outcome.next (if_neg (mt Region.collapses_iff.mp shared))
  · obtain ⟨m, ls, k, meets, read, poison⟩ := s.dev.meetErrors_spec 0 Config.hbmSize
    refine ⟨{ s with dev := { s.dev with mem := m, latent := ls, house := k, scrubbed := s.dev.now } }, ?_, rfl, rfl, read,
      fun a inside => poison a (Nat.zero_le _) (by omega)⟩
    exact congrArg (fun d : Device => Host.Outcome.next ({ s with dev := { d with scrubbed := s.dev.now } } : State)) meets
  · exact ⟨_, rfl, ⟨rfl, rfl, rfl⟩, s.dev.house.regulate_spec watts _⟩

end Sys2Proof.Proofs

namespace Sys2Proof.Machine
open Sys2Proof.Claims

/-! Starts (R457, R458). -/

/-- The lines, circuits and ports that fail are all that they change. -/
theorem Device.broken_eq (d : Device) (lines circuits : List Ix16) (ports : List (Fin 128)) :
    ∃ ls ps, d.broken lines circuits ports = { d with lines := ls, fab := { d.fab with ports := ps } } := by
  have marks (f : LineState → LineState) (xs : List Ix16) (d : Device) : ∃ ls, xs.foldl (fun d l => d.mapLine l f) d = { d with lines := ls } := by
    induction xs generalizing d with
    | nil => exact ⟨d.lines, rfl⟩
    | cons x xs ih =>
      obtain ⟨ls, rest⟩ := ih (d.mapLine x f)
      exact ⟨ls, rest⟩
  have downs (xs : List (Fin 128)) (d : Device) : ∃ ps, xs.foldl (fun d p => d.mapPort p.val (fun x => { x with down := true })) d =
      { d with fab := { d.fab with ports := ps } } := by
    induction xs generalizing d with
    | nil => exact ⟨d.fab.ports, rfl⟩
    | cons x xs ih =>
      obtain ⟨ps, rest⟩ := ih (d.mapPort x.val (fun x => { x with down := true }))
      exact ⟨ps, rest⟩
  obtain ⟨l1, one⟩ := marks (fun x => { x with broken := true }) lines d
  obtain ⟨l2, two⟩ := marks (fun x => { x with cut := true }) circuits { d with lines := l1 }
  obtain ⟨ps, three⟩ := downs ports { d with lines := l2 }
  refine ⟨l2, ps, ?_⟩
  unfold Device.broken
  rw [one]
  dsimp only
  rw [two]
  exact three

/-- The long-lived state with what a start knows of its records. -/
def House.startsFrom (h : House) (powerOn : Bool) : House :=
  { h with recordsValid := h.recordsValid && !powerOn && !h.cond.newSerial }

/-- The long-lived state that a start gives, before it bins. -/
def House.started (h : House) (codes : List Nat) (count : Nat) : House :=
  ({ harv := h.harv, short := h.short, fw := h.fw, cond := h.cond, startRec := h.startRec, spdm := 0, fuse := h.fuse } : House).afterSteps codes
    count h.rootStep.2

/-- The long-lived state that a start gives. -/
def House.afterStart (h : House) (powerOn : Bool) : House :=
  let k := h.startsFrom powerOn
  let codes := k.outcomes 9 1
  let count := if powerOn then 1 else (k.startRec.extractLsb' 32 16).toNat + 1
  let base := k.started codes count
  if !(k.recordsValid && k.stepCode 4 != 0) && decide (4 ≤ codes.length) then
    ({ base with harv := base.harv.map (fun w => harvWord w false 0 []) }).bin k.cond.failDies
  else base

/-- The memory that a start leaves: at power-on HBM is empty. -/
def Mem.afterStart (m : Mem) (powerOn : Bool) : Mem :=
  if powerOn then { cells := m.cells.filter (fun c => decide (2 ^ 51 ≤ c.1)), poison := m.poison.filter (fun a => decide (2 ^ 51 ≤ a)) } else m

/-- The last steps of a start: HBM at power-on, and a failure that stops it. -/
def Mem.settle (m : Mem) (powerOn : Bool) (codes : List Nat) (d : Device) : Device :=
  let d := if powerOn then { d with mem := m.afterStart true, latent := [] } else d
  if codes.contains 3 then d.emit [.fatal codes.length] else d

/-- A start leaves the package as after a reset, but for what it keeps. -/
theorem State.start_eq (s : State) (powerOn : Bool) : ∃ ls ps la ob, s.start powerOn = { s with
    car := Car.reset, peers := [], old := none, dev := { s.dev.startFrom (s.dev.house.afterStart powerOn) with
    lines := ls, fab := { Device.reset.fab with ports := ps }, mem := s.dev.mem.afterStart powerOn, latent := la, outbox := ob } } := by
  let h := s.dev.house.startsFrom powerOn
  let codes := h.outcomes 9 1
  let reran := fun (k : Nat) => !(h.recordsValid && h.stepCode k != 0) && decide (k ≤ codes.length)
  obtain ⟨ls, ps, broken⟩ := (s.dev.startFrom (s.dev.house.afterStart powerOn)).broken_eq
    (if reran 5 then h.cond.failLines else (List.finRange 16).filter (fun l => (s.dev.lines[l]).broken))
    (if reran 7 then h.cond.failCircuits else (List.finRange 16).filter (fun l => (s.dev.lines[l]).cut))
    (if reran 6 then h.cond.failPorts else (List.finRange 128).filter (fun p => (s.dev.fab.port p.val).down))
  let ob := if codes.contains 3 then s.dev.outbox ++ [.fatal codes.length] else s.dev.outbox
  refine ⟨ls, ps, if powerOn then [] else s.dev.latent, ob, congrArg (fun d : Device =>
    ({ car := Car.reset, peers := [], old := none, inbox := s.inbox, fresh := s.fresh, dev := d } : State)) ?_⟩
  refine (congrArg (fun d : Device => s.dev.mem.settle powerOn codes d) broken).trans ?_
  cases powerOn <;> simp only [ob, Mem.settle] <;> split <;> rfl

theorem House.afterStart_fresh (h : House) (powerOn : Bool) : (h.afterStart powerOn).cap = 2600#12 ∧ (h.afterStart powerOn).hold = false ∧
    (h.afterStart powerOn).errUe = 0#64 ∧ (h.afterStart powerOn).startRec =
      ((h.startsFrom powerOn).started ((h.startsFrom powerOn).outcomes 9 1)
        (if powerOn then 1 else (h.startRec.extractLsb' 32 16).toNat + 1)).startRec := by
  unfold House.afterStart
  dsimp only
  split <;> exact ⟨rfl, rfl, rfl, rfl⟩

/-- The count of starts in START_REC (R457). -/
theorem startRec_count (image : Bool) (n : Nat) (low : BitVec 18) :
    ((BitVec.ofBool image ++ BitVec.ofNat 16 (Nat.min 65535 n) ++ 0#14 ++ low : BitVec 49).extractLsb' 32 16).toNat = min 65535 n := by
  have field : (BitVec.ofBool image ++ BitVec.ofNat 16 (Nat.min 65535 n) ++ 0#14 ++ low : BitVec 49).extractLsb' 32 16 =
      BitVec.ofNat 16 (Nat.min 65535 n) := by
    apply BitVec.eq_of_getLsbD_eq
    intro i inside
    simp only [BitVec.getLsbD_extractLsb', BitVec.getLsbD_append]
    have high : ¬ 32 + i < 18 := by omega
    have above : ¬ 32 + i - 18 < 14 := by omega
    have here : 32 + i - 18 - 14 < 16 := by omega
    have same : 32 + i - 18 - 14 = i := by omega
    simp [high, above, inside, same]
  rw [field, BitVec.toNat_ofNat]
  exact Nat.mod_eq_of_lt (by show min 65535 n < 2 ^ 16; omega)

/-- What stands of the machine after a start (R457). -/
theorem State.start_afresh (s : State) (powerOn : Bool) :
    let t := s.start powerOn
    (t.car = Car.reset ∧ t.peers = [] ∧ t.old = none ∧ t.inbox = s.inbox ∧ t.dev.now = 0 ∧ t.dev.cache = [] ∧
      t.dev.sig.regs = {} ∧ t.dev.sig.slots = [] ∧ t.dev.sig.services = [] ∧ t.dev.sig.consists = [] ∧ t.dev.sig.specs = [] ∧
      t.dev.fab.regs = {} ∧ t.dev.house.cap = 2600#12 ∧ t.dev.house.hold = false ∧ t.dev.house.errUe = 0#64) ∧
    (t.dev.house.startRec.extractLsb' 32 16).toNat = min 65535 (if powerOn then 1 else (s.dev.house.startRec.extractLsb' 32 16).toNat + 1) ∧
    t.dev.mem = s.dev.mem.afterStart powerOn ∧ t.dev.house = s.dev.house.afterStart powerOn := by
  intro t
  obtain ⟨ls, ps, la, ob, is⟩ := s.start_eq powerOn
  obtain ⟨cap, hold, errUe, record⟩ := s.dev.house.afterStart_fresh powerOn
  have is : t = _ := is
  rw [is]
  refine ⟨⟨rfl, rfl, rfl, rfl, rfl, rfl, rfl, rfl, rfl, rfl, rfl, rfl, cap, hold, errUe⟩, ?_, rfl, rfl⟩
  show ((s.dev.house.afterStart powerOn).startRec.extractLsb' 32 16).toNat = _
  rw [record]
  exact startRec_count ..

theorem Mem.read_afterStart (m : Mem) (a : Nat) : (m.afterStart true).read a = if 2 ^ 51 ≤ a then m.read a else 0#8 := by
  have kept := cells_read_filter m.cells (fun a => decide (2 ^ 51 ≤ a)) a
  simp only [decide_eq_true_eq] at kept
  exact kept

/-! A die that fails its test (R452, R457). -/

/-- FAIL of a HARV word. -/
theorem getLsbD_harvWord_fail (w : Word) (fail : Bool) (die : Nat) (on : List Nat) : (harvWord w fail die on).getLsbD 63 = fail := by
  unfold harvWord
  simp only [BitVec.getLsbD_append]
  simp

/-- No core of a die that failed is enabled. -/
theorem House.coreClass_bin_failed (h : House) {dies : List Nat} {k : Nat} (failed : k / 16 ∈ dies) : (h.bin dies).coreClass k = none := by
  unfold House.coreClass
  by_cases far : 336 ≤ k
  · exact if_pos (.inl far)
  · have inside : k / 16 < 21 := by omega
    refine if_pos (.inr (.inl ?_))
    rw [List.getD_eq_getElem?_getD, Vector.getElem?_toList, Vector.getElem?_eq_getElem inside, Option.getD_some]
    unfold House.bin
    dsimp only
    rw [Vector.getElem_mapFinIdx, getLsbD_harvWord_fail, Vector.getElem_mapFinIdx, getLsbD_harvWord_fail, List.contains_iff_mem.mpr failed,
      Bool.or_true]

/-- A start without a step that fails for good runs every step. -/
theorem House.outcomes_length {h : House} (fine : ∀ k, h.outcome k ≠ 3) (n k : Nat) : (h.outcomes n k).length = n := by
  induction n generalizing k with
  | zero => rfl
  | succ n ih =>
    rw [House.outcomes]
    exact (congrArg List.length (if_neg (fine k))).trans (congrArg Nat.succ (ih (k + 1)))

/-- Every test of the hardware that passes has code 1 in the pattern of steps. -/
theorem steps_passed (j : Nat) : ((0x15555#18).extractLsb' (2 * j) 2).toNat ≤ 1 := by
  by_cases inside : j < 9
  · interval_cases j <;> decide
  · rw [BitVec.extractLsb'_toNat, Nat.shiftRight_eq_div_pow, Nat.div_eq_of_lt]
    · decide
    · exact lt_of_lt_of_le (by decide : (0x15555#18).toNat < 2 ^ 18) (Nat.pow_le_pow_right (by decide) (by omega))

/-- The code of a step whose test failed or passed. -/
theorem outcome_of_passed (failed : Bool) {n k : Nat} (passed : n ≤ 1) :
    (if failed then 2 else match n with
      | 0 => 1
      | n => if k = 9 then 1 else if n = 2 ∧ k = 2 then 3 else if n = 3 ∧ 4 ≤ k then 2 else n) ≠ 3 := by
  cases failed
  · interval_cases n
    · exact (by decide : (1 : Nat) ≠ 3)
    · simp
  · exact (by decide : (2 : Nat) ≠ 3)

/-- A start whose tests pass, but for dies, has no step that fails for good. -/
theorem House.outcome_passes {h : House} (anew : h.recordsValid = false) (steps : h.cond.steps = 0x15555#18)
    (boots : h.bootable h.fw.active = true) (k : Nat) : h.outcome k ≠ 3 := by
  unfold House.outcome
  by_cases first : k = 1
  · have one : (h.cond.steps.extractLsb' 0 2).toNat = 1 := by rw [steps]; decide
    have root : h.rootStep = (1, h.fw.active) := by
      unfold House.rootStep
      dsimp only
      rw [one]
      exact if_pos boots
    rw [if_pos first, root]
    exact (by decide : (1 : Nat) ≠ 3)
  · rw [if_neg first, anew, Bool.false_and, if_neg Bool.false_ne_true]
    have passed := steps_passed (k - 1)
    rw [← steps] at passed
    exact outcome_of_passed _ passed

/-- After a loss of power a start whose tests pass, but for dies, bins without them. -/
theorem House.afterStart_failed {h : House} {k : Nat} (steps : h.cond.steps = 0x15555#18)
    (boots : h.bootable h.fw.active = true) (failed : k / 16 ∈ h.cond.failDies) : (h.afterStart true).coreClass k = none := by
  have fine : ∀ n, (h.startsFrom true).outcome n ≠ 3 :=
    House.outcome_passes (by simp [House.startsFrom]) steps boots
  have codes : ((h.startsFrom true).outcomes 9 1).length = 9 := House.outcomes_length fine 9 1
  have reran : (!((h.startsFrom true).recordsValid && (h.startsFrom true).stepCode 4 != 0) &&
      decide (4 ≤ ((h.startsFrom true).outcomes 9 1).length)) = true := by
    rw [codes]
    simp [House.startsFrom]
  unfold House.afterStart
  dsimp only
  rw [if_pos reran]
  exact House.coreClass_bin_failed _ failed

end Sys2Proof.Machine

namespace Sys2Proof.Machine
open Sys2Proof.Claims

/-! Requests for a start and the restart of an update (R458, R460). -/

theorem Device.mayStart_iff {d : Device} : d.mayStart = true ↔ d.sig.regs.enable = false ∧ ∀ x ∈ d.sig.consists, x.saved.isSome = true := by
  simp only [Device.mayStart, Bool.and_eq_true, Bool.not_eq_true', List.all_eq_true]

theorem Device.restarts_iff {d : Device} :
    (d.house.fw.pending && d.sig.consists.all (fun x => x.saved.isSome || (!x.released && !x.resumed))) = true ↔
    d.house.fw.pending = true ∧ ∀ x ∈ d.sig.consists, x.saved = none → x.released = false ∧ x.resumed = false := by
  simp only [Bool.and_eq_true, List.all_eq_true, Bool.or_eq_true, Bool.not_eq_true', ← Option.not_isSome_iff_eq_none, or_iff_not_imp_left]

/-- The count of starts that a restart notes. -/
theorem restartRec_count (image : Bool) (n : Nat) (codes : BitVec 16) (root : BitVec 2) :
    ((BitVec.ofBool image ++ BitVec.ofNat 16 (Nat.min 65535 n) ++ 0#14 ++ codes ++ root : BitVec 49).extractLsb' 32 16).toNat = min 65535 n := by
  rw [← startRec_count image n (codes ++ root)]
  refine congrArg (fun x : BitVec 49 => (x.extractLsb' 32 16).toNat) (BitVec.eq_of_getLsbD_eq fun i _ => ?_)
  simp only [BitVec.getLsbD_append]
  by_cases one : i < 2
  · have : i < 18 := by omega
    simp [one, this]
  · by_cases two : i < 18
    · have : i - 2 < 16 := by omega
      simp [one, two, this]
    · have : ¬ i - 2 < 16 := by omega
      have same : i - 2 - 16 = i - 18 := by omega
      simp [one, two, this, same]

/-- The restart of an update with the new image, and with the one in force (R460). -/
theorem House.reboot_spec (h : House) :
    h.reboot.fw.pending = false ∧
    (h.reboot.startRec.extractLsb' 32 16).toNat = min 65535 ((h.startRec.extractLsb' 32 16).toNat + 1) ∧
    (h.cond.steps.extractLsb' 0 2 = 1#2 → (if h.fw.active then h.fw.validA else h.fw.validB) = true → h.fuse ≤ h.fw.inactiveVersion →
      h.reboot.fw.active = !h.fw.active ∧ h.reboot.fw.version = h.fw.inactiveVersion ∧ h.reboot.fw.inactiveVersion = h.fw.version ∧
      h.reboot.fw.fellBack = false) ∧
    ((if h.fw.active then h.fw.validA else h.fw.validB) = false ∨ h.fw.inactiveVersion < h.fuse →
      h.reboot.fw.active = h.fw.active ∧ h.reboot.fw.version = h.fw.version ∧ h.reboot.fw.fellBack = true) := by
  have boots : h.bootable (!h.fw.active) = ((if h.fw.active then h.fw.validA else h.fw.validB) && decide (h.fuse ≤ h.fw.inactiveVersion)) := by
    unfold House.bootable
    cases h.fw.active <;> rfl
  let ok := h.bootable (!h.fw.active) && (h.cond.steps.extractLsb' 0 2 != 2#2 && h.cond.steps.extractLsb' 0 2 != 3#2)
  have fw : h.reboot.fw = { h.fw.boot (if ok then !h.fw.active else h.fw.active) with pending := false, fellBack := !ok } := rfl
  refine ⟨rfl, ?_, fun steps valid allowed => ?_, fun no => ?_⟩
  · exact restartRec_count ..
  · have yes : ok = true := by
      simp only [ok, boots, valid, steps, decide_eq_true allowed]
      decide
    rw [fw, yes]
    have swaps : h.fw.boot (!h.fw.active) = { h.fw with active := !h.fw.active, version := h.fw.inactiveVersion, inactiveVersion := h.fw.version } :=
      if_neg (by cases h.fw.active <;> decide)
    rw [if_pos rfl, swaps]
    exact ⟨rfl, rfl, rfl, rfl⟩
  · have not : ok = false := by
      simp only [ok, boots]
      rcases no with invalid | old
      · rw [invalid]; rfl
      · rw [decide_eq_false (BitVec.not_le.mpr old), Bool.and_false]; rfl
    rw [fw, not]
    have stays : h.fw.boot h.fw.active = h.fw := if_pos rfl
    rw [if_neg (by decide), stays]
    exact ⟨rfl, rfl, rfl⟩

end Sys2Proof.Machine

namespace Sys2Proof.Proofs
open Sys2Proof.Machine Sys2Proof.Claims

/-- Starts and restarts (R457, R458, R460). -/
theorem startsAndRestarts : Sys2Proof.Claims.StartsAndRestarts := by
  intro dies lines ports steps s h count afresh quiet
  refine ⟨?_, fun still i asked => ?_, fun busy => ⟨?_, ?_⟩, fun waits => ?_, fun pending parked => ?_⟩
  · obtain ⟨fresh, counted, mem, house⟩ := (s.mapDev (fun d => d.mapHouse (fun h => { h with cond :=
      { failDies := dies, failLines := if steps.extractLsb' 12 2 == 2#2 && steps.extractLsb' 8 2 == 1#2 then [] else lines, failPorts := ports
        failCircuits := if steps.extractLsb' 12 2 == 2#2 then lines else [], steps := steps } }))).start_afresh true
    refine ⟨_, rfl, fresh, counted, fun a => ?_, fun passes valid allowed k failed => ?_⟩
    · exact (congrArg (fun m : Mem => m.read a) mem).trans (Mem.read_afterStart ..)
    · refine (congrArg (fun h : House => h.coreClass k) house).trans (House.afterStart_failed passes ?_ failed)
      show h.bootable h.fw.active = true
      rw [House.bootable, valid, if_pos rfl, decide_eq_true allowed]
      rfl
  · have may := Device.mayStart_iff.mpr still
    simp only [List.mem_cons, List.not_mem_nil, or_false] at asked
    rcases asked with rfl | rfl
    · obtain ⟨fresh, counted, mem, -⟩ := s.start_afresh false
      exact ⟨_, congrArg Host.Outcome.next (if_pos may), fresh, mem, counted⟩
    · obtain ⟨fresh, counted, mem, -⟩ := (s.mapDev Device.forget).start_afresh false
      exact ⟨_, congrArg Host.Outcome.next (if_pos may), fresh, mem, counted⟩
  · exact congrArg Host.Outcome.next (if_neg (mt Device.mayStart_iff.mp busy))
  · exact congrArg Host.Outcome.next (if_neg (mt Device.mayStart_iff.mp busy))
  · refine congrArg Host.Outcome.next (if_neg ?_)
    rw [Device.restarts_iff]
    rintro ⟨pending, parked⟩
    rcases waits with none | ⟨x, here, unsaved, going⟩
    · rw [none] at pending
      cases pending
    · obtain ⟨held, first⟩ := parked x here unsaved
      rcases going with going | going
      · rw [held] at going; cases going
      · rw [first] at going; cases going
  · obtain ⟨idle, counted, takes, keeps⟩ := s.dev.house.reboot_spec
    refine ⟨s.mapDev (fun d => d.mapHouse House.reboot), congrArg Host.Outcome.next (if_pos ?_), ⟨rfl, rfl, rfl⟩, idle, counted, takes, keeps⟩
    exact Device.restarts_iff.mpr ⟨pending, parked⟩

/-- Settles O48: caches, errors and power across hours, and starts and restarts. -/
theorem longLivedState : Obligations.LongLivedState := ⟨cachesPowerAndErrors, startsAndRestarts⟩

end Sys2Proof.Proofs

namespace Sys2Proof.Machine
open Sys2Proof.Claims

/-! Writes of BAR0 and their masters (R457, R463). -/

section
variable {s : State} {host : Bool} {off : Nat} {v : Word}

theorem House.served_iff {h : House} : h.served (!host) = true ↔ host = false ∨ h.startRec.extractLsb' 14 2 = 1#2 := by
  cases host with
  | false => exact iff_of_true rfl (.inl rfl)
  | true => exact (House.served_host_iff h).trans (by simp)

theorem sharedReg_iff : sharedReg off = true ↔ (0x200000 ≤ off ∧ off < 0x203000 ∧ off % 0x200 = 0x30) ∨
    (0x300000 ≤ off ∧ off < 0x380000 ∧ off % 0x1000 = 0) ∨ off = 0x210000 ∨ off = 0x220310 ∨ off = 0x220600 := by
  simp only [sharedReg, Bool.or_eq_true, Bool.and_eq_true, decide_eq_true_eq, beq_iff_eq]
  tauto

theorem exec_registerWrite_nowhere (no : off % 8 ≠ 0 ∨ 0x400000 ≤ off ∨ (host = true ∧ ¬ s.dev.house.startRec.extractLsb' 14 2 = 1#2)) :
    exec (.registerWrite host off v) s = .next s := by
  refine if_pos (no.imp_right fun no => no.imp_right fun ⟨toHost, unlinked⟩ => ?_)
  rw [Bool.not_eq_true', Bool.eq_false_iff, ne_eq, House.served_iff]
  rintro (other | linked)
  · rw [toHost] at other; cases other
  · exact unlinked linked

/-- A write that its master may make. -/
theorem exec_registerWrite (served : host = false ∨ s.dev.house.startRec.extractLsb' 14 2 = 1#2) (aligned : off % 8 = 0) (inside : off < 0x400000)
    (allowed : s.dev.house.allows host off = true) :
    exec (.registerWrite host off v) s = if off < 0x100000 then s.actLow off v else s.actHigh host off v := by
  refine (if_neg ?_).trans (if_neg (by rw [allowed]; decide))
  rw [Bool.not_eq_true', House.served_iff.mpr served]
  rintro (skew | far | no)
  · exact skew aligned
  · omega
  · cases no

/-- A write that its master may not make. -/
theorem exec_registerWrite_denied (served : host = false ∨ s.dev.house.startRec.extractLsb' 14 2 = 1#2) (aligned : off % 8 = 0) (inside : off < 0x400000)
    (denied : s.dev.house.allows host off = false) :
    exec (.registerWrite host off v) s = .next (s.mapDev (fun d => d.mapHouse House.deny)) := by
  refine (if_neg ?_).trans (if_pos (by rw [denied]; rfl))
  rw [Bool.not_eq_true', House.served_iff.mpr served]
  rintro (skew | far | no)
  · exact skew aligned
  · omega
  · cases no

/-- What a master may write: anything, or what both may, or with HOLD clear all but the debug blocks. -/
theorem House.allows_free {h : House} (free : host = true ∨ h.hold = false) (plain : off < 0x100000 ∨ 0x115000 ≤ off) : h.allows host off = true := by
  unfold House.allows
  rcases free with master | open_
  · rw [master]; rfl
  · have : debugReg off = false := decide_eq_false (by omega)
    rw [open_, this]
    cases host <;> cases sharedReg off <;> rfl

theorem House.allows_shared {h : House} (shared : sharedReg off = true) : h.allows host off = true := by
  unfold House.allows
  rw [shared, Bool.or_true, Bool.true_or]

theorem House.deny_eq (h : House) : h.deny = { h with denied := BitVec.ofNat 16 (min 65535 (h.denied.toNat + 1)) } := by
  unfold House.deny
  congr 1
  have := h.denied.isLt
  apply BitVec.eq_of_toNat_eq
  split
  next full => rw [full]; rfl
  next room =>
    have : h.denied.toNat ≠ 65535 := fun same => room (BitVec.eq_of_toNat_eq same)
    rw [BitVec.toNat_add, BitVec.toNat_ofNat, Nat.min_eq_right (by omega)]
    rfl

/-- The registers that only store. -/
theorem State.actLow_stores (low : off < 0x300) (plain : off ≠ 0x100 ∧ off ≠ 0x150 ∧ off ≠ 0x218 ∧ off ≠ 0x240) :
    s.actLow off v = .next (s.mapDev (fun d => d.storeReg true off v)) := by
  unfold State.actLow
  have far : ¬ (0x21000 ≤ off ∧ off < 0x23000) ∧ ¬ (0xC0000 ≤ off ∧ off < 0xE0000) ∧ decide (0x40000 ≤ off ∧ off < 0x80000) = false := by
    refine ⟨by omega, by omega, decide_eq_false (by omega)⟩
  rw [if_neg (by omega), if_neg far.1, if_neg far.2.1, if_neg plain.1, if_neg plain.2.1, if_neg plain.2.2.1, if_neg plain.2.2.2, far.2.2]
  rfl

end

/-! Fields of a written word. -/

theorem setWidth_low_mod (v : Word) (n : Nat) : (v.extractLsb' 0 n).setWidth 64 = BitVec.ofNat 64 (v.toNat % 2 ^ n) := by
  apply BitVec.eq_of_toNat_eq
  rw [BitVec.toNat_setWidth, BitVec.extractLsb'_toNat, Nat.shiftRight_zero, BitVec.toNat_ofNat]

theorem setWidth_upTo (v : Word) (n lo : Nat) (order : lo ≤ n) :
    (v.extractLsb' lo (n - lo) ++ 0#lo).setWidth 64 = BitVec.ofNat 64 (v.toNat % 2 ^ n / 2 ^ lo * 2 ^ lo) := by
  apply BitVec.eq_of_toNat_eq
  rw [BitVec.toNat_setWidth, BitVec.toNat_append, BitVec.extractLsb'_toNat, BitVec.toNat_ofNat, BitVec.toNat_ofNat, Nat.zero_mod, Nat.or_zero,
    Nat.shiftLeft_eq, Nat.shiftRight_eq_div_pow]
  have whole : 2 ^ n = 2 ^ lo * 2 ^ (n - lo) := by rw [← Nat.pow_add, Nat.add_sub_cancel' order]
  rw [whole, Nat.mod_mul_right_div_self]

theorem setWidth_cleared (x : BitVec 8) (v : Word) : (x &&& ~~~(v.extractLsb' 0 8)).setWidth 64 = x.setWidth 64 &&& ~~~v := by
  apply BitVec.eq_of_getLsbD_eq
  intro i inside
  simp only [BitVec.getLsbD_setWidth, BitVec.getLsbD_and, BitVec.getLsbD_not, BitVec.getLsbD_extractLsb', inside, decide_true, Bool.true_and,
    Nat.zero_add]
  by_cases low : i < 8
  · simp [low]
  · simp [low, BitVec.getLsbD_of_ge x i (by omega)]

end Sys2Proof.Machine

namespace Sys2Proof.Machine
open Sys2Proof.Claims

/-! Registers that only store (R350, R378, R400, R464). -/

section
variable {s : State} {host : Bool} {off : Nat} {v x : Word}

theorem Device.storeReg_low_mem (d : Device) (low : off < 0x300) : (d.storeReg true off v).mem = d.mem := by
  unfold Device.storeReg
  by_cases one : off < 0x100
  · rw [if_pos one]; rfl
  · by_cases two : off < 0x200
    · rw [if_neg one, if_pos two]; rfl
    · rw [if_neg one, if_neg two, if_pos low]; rfl

/-- A register that only stores reads back. -/
theorem exec_registerWrite_reads (served : host = false ∨ s.dev.house.startRec.extractLsb' 14 2 = 1#2) (free : host = true ∨ s.dev.house.hold = false)
    (aligned : off % 8 = 0) (low : off < 0x300) (plain : off ≠ 0x100 ∧ off ≠ 0x150 ∧ off ≠ 0x218 ∧ off ≠ 0x240)
    (reads : (s.dev.storeReg true off v).readReg off = x) :
    ∃ t, exec (.registerWrite host off v) s = .next t ∧ Untouched s t ∧ t.dev.readReg off = x := by
  refine ⟨s.mapDev (fun d => d.storeReg true off v), ?_, ⟨rfl, rfl, s.dev.storeReg_low_mem low⟩, reads⟩
  rw [exec_registerWrite served aligned (by omega) (House.allows_free free (.inl (by omega))), if_pos (by omega), State.actLow_stores low plain]

end

theorem House.stepCode_nine {h : House} : h.stepCode 9 = 1 ↔ h.startRec.extractLsb' 16 2 = 1#2 := by
  rw [House.stepCode, BitVec.toNat_eq]
  rfl

theorem ofBool_setWidth_low (v : Word) : (BitVec.ofBool (v.getLsbD 0)).setWidth 64 = BitVec.ofNat 64 (v.toNat % 2 ^ 1) := by
  rw [← setWidth_low_mod]
  congr 1
  apply BitVec.eq_of_getLsbD_eq
  intro i inside
  have : i = 0 := by omega
  subst this
  simp

theorem byte_of_low (v : Word) {k : Nat} (inside : k ≤ 24) : (v.extractLsb' 0 32).extractLsb' k 8 = v.extractLsb' k 8 := by
  apply BitVec.eq_of_getLsbD_eq
  intro i small
  have : k + i < 32 := by omega
  simp [small, this]

/-- A register of the first 768 bytes that only stores, and what it reads after a write. -/
def State.Stores (s : State) (v : Word) (off : Nat) (x : Word) : Prop :=
  (off < 0x300 ∧ off % 8 = 0 ∧ off ≠ 0x100 ∧ off ≠ 0x150 ∧ off ≠ 0x218 ∧ off ≠ 0x240) ∧ (s.dev.storeReg true off v).readReg off = x

/-- What each of the registers reads after a write (R350, R378, R400). -/
theorem storedRegs_read (s : State) (v : Word) : ∀ e ∈ storedRegs s v,
    e = (0x220600, BitVec.ofNat 64 (min 2600 (max 1000 (v.toNat % 2 ^ 12)))) ∨ s.Stores v e.1 e.2 := by
  have low32 := setWidth_low_mod v 32
  have upTo52 (lo : Nat) (order : lo ≤ 52) := setWidth_upTo v 52 lo order
  simp only [storedRegs, List.forall_mem_cons]
  refine ⟨.inr ⟨by decide, ?_⟩, .inr ⟨by decide, ?_⟩, .inr ⟨by decide, rfl⟩, .inr ⟨by decide, setWidth_low_mod v 17⟩, .inr ⟨by decide, rfl⟩,
    .inr ⟨by decide, setWidth_upTo v 52 13 (by decide)⟩, .inr ⟨by decide, low32⟩, .inr ⟨by decide, setWidth_upTo v 52 16 (by decide)⟩,
    .inr ⟨by decide, setWidth_low_mod v 40⟩, .inr ⟨by decide, low32⟩, .inr ⟨by decide, rfl⟩, .inr ⟨by decide, setWidth_low_mod v 40⟩,
    .inr ⟨by decide, setWidth_low_mod v 52⟩, .inr ⟨by decide, setWidth_cleared s.dev.sig.regs.devStat v⟩,
    .inr ⟨by decide, setWidth_cleared s.dev.fab.regs.fabStat v⟩, .inr ⟨by decide, ?_⟩, .inr ⟨by decide, ?_⟩, .inr ⟨by decide, ?_⟩,
    .inr ⟨by decide, ?_⟩, .inr ⟨by decide, ?_⟩, .inl trivial, fun e none => absurd none List.not_mem_nil⟩
  · show (BitVec.ofBool (if decide (s.dev.house.stepCode 9 = 1) then { s.dev.sig.regs with enable := v.getLsbD 0 } else s.dev.sig.regs).enable).setWidth 64 = _
    by_cases ready : s.dev.house.stepCode 9 = 1
    · rw [if_pos (House.stepCode_nine.mp ready), if_pos (decide_eq_true ready)]
      exact ofBool_setWidth_low v
    · rw [if_neg (mt House.stepCode_nine.mpr ready), if_neg (by simpa using ready)]
  · show (if v.extractLsb' 0 32 = 0#32 then 1#32 else v.extractLsb' 0 32).setWidth 64 = _
    have zero : v.extractLsb' 0 32 = 0#32 ↔ BitVec.ofNat 64 (v.toNat % 2 ^ 32) = 0#64 := by
      rw [← low32]
      constructor
      · intro none; rw [none]; rfl
      · intro none
        apply BitVec.eq_of_toNat_eq
        have same : v.toNat % 2 ^ 32 % 2 ^ 64 = 0 := by simpa using congrArg BitVec.toNat none
        rw [BitVec.extractLsb'_toNat, Nat.shiftRight_zero]
        show v.toNat % 2 ^ 32 = 0
        omega
    by_cases none : v.extractLsb' 0 32 = 0#32
    · rw [if_pos none, if_pos (zero.mp none)]; rfl
    · rw [if_neg none, if_neg (mt zero.mpr none)]; exact low32
  · show (if 128 < classSum (v.extractLsb' 0 32) then s.dev.sig.regs else { s.dev.sig.regs with classMin := v.extractLsb' 0 32 }).classMin.setWidth 64 = _
    have sum : classSum (v.extractLsb' 0 32) = (v.extractLsb' 0 8).toNat + (v.extractLsb' 8 8).toNat + (v.extractLsb' 16 8).toNat +
        (v.extractLsb' 24 8).toNat := by
      simp only [classSum, byte_of_low v (show 0 ≤ 24 by decide), byte_of_low v (show 8 ≤ 24 by decide), byte_of_low v (show 16 ≤ 24 by decide),
        byte_of_low v (show 24 ≤ 24 by decide)]
    rw [sum]
    split
    · rfl
    · exact low32
  · show (if s.dev.sig.regs.enable then s.dev.sig.regs else { s.dev.sig.regs with ptRoot := v.extractLsb' 20 32 ++ 0#20 }).ptRoot.setWidth 64 = _
    split
    · rfl
    · exact setWidth_upTo v 52 20 (by decide)
  · show (if s.dev.sig.regs.enable then s.dev.fab.regs else { s.dev.fab.regs with pkgId := v.extractLsb' 0 10 }).pkgId.setWidth 64 = _
    split
    · rfl
    · exact setWidth_low_mod v 10
  · show (if s.dev.sig.regs.enable then s.dev.fab.regs else { s.dev.fab.regs with ttBase := v }).ttBase = _
    split <;> rfl
  · show (if s.dev.sig.regs.enable then s.dev.fab.regs else { s.dev.fab.regs with ttLen := v.extractLsb' 0 8 }).ttLen.setWidth 64 = _
    split
    · rfl
    · exact setWidth_low_mod v 8

end Sys2Proof.Machine

namespace Sys2Proof.Machine
open Sys2Proof.Claims

/-! Writes that act (R350, R389, R419, R446, R457). -/

section
variable {s : State} {v : Word}

theorem State.actLow_doorbell : s.actLow 0x20000 v = .next (s.doorbell v) := rfl

theorem State.actLow_mailbox (m : Fin 1024) : s.actLow (0x21000 + 8 * m.val) v = .next (s.mailbox m (v.extractLsb' 0 32)) := by
  have mine : (⟨(0x21000 + 8 * m.val - 0x21000) / 8 % 1024, by omega⟩ : Fin 1024) = m := Fin.ext (by have := m.isLt; dsimp only; omega)
  unfold State.actLow
  rw [if_neg (by omega), if_pos (by have := m.isLt; omega), mine]

theorem State.actLow_bht (h : Fin 4096) (w : Fin 4) : s.actLow (0xC0000 + 32 * h.val + 8 * w.val) v = execBhtWrite h w v s := by
  have hh := h.isLt
  have hw := w.isLt
  have entry : (⟨(0xC0000 + 32 * h.val + 8 * w.val - 0xC0000) / 32 % 4096, by omega⟩ : Fin 4096) = h := Fin.ext (by dsimp only; omega)
  have word : (⟨(0xC0000 + 32 * h.val + 8 * w.val) / 8 % 4, by omega⟩ : Fin 4) = w := Fin.ext (by dsimp only; omega)
  unfold State.actLow
  rw [if_neg (by omega), if_neg (by omega), if_pos (by omega), entry, word]

theorem State.actLow_group (g : Fin 4096) {j : Fin 8} (staged : j.val < 7) : s.actLow (0x40000 + 64 * g.val + 8 * j.val) v =
    .next (s.putGroup g ((s.dev.group g.val).stage j.val v)) := by
  have hg := g.isLt
  have entry : (0x40000 + 64 * g.val + 8 * j.val - 0x40000) / 64 = g.val := by omega
  have word : (0x40000 + 64 * g.val + 8 * j.val) / 8 % 8 = j.val := by omega
  have last : ((0x40000 + 64 * g.val + 8 * j.val) % 64 == 56) = false := beq_eq_false_iff_ne.mpr (by omega)
  unfold State.actLow
  rw [if_neg (by omega), if_neg (by omega), if_neg (by omega), if_neg (by omega), if_neg (by omega), if_neg (by omega), if_neg (by omega), last,
    Bool.and_false, if_neg Bool.false_ne_true]
  have stores : s.dev.storeReg true (0x40000 + 64 * g.val + 8 * j.val) v = (s.putGroup g ((s.dev.group g.val).stage j.val v)).dev := by
    unfold Device.storeReg
    rw [if_neg (by omega), if_neg (by omega), if_neg (by omega), if_pos (by omega)]
    dsimp only
    rw [entry, word]
    rfl
  exact congrArg (fun d => Host.Outcome.next ({ s with dev := d } : State)) stores

theorem groupFields_eq {j : Nat} (staged : j < 7) : Machine.groupFields j = Claims.groupFields j := by
  interval_cases j <;> rfl

variable {host : Bool}

theorem debugReg_far {off : Nat} (far : 0x115000 ≤ off) : debugReg off = false := decide_eq_false (by omega)

theorem State.actHigh_start : s.actHigh host 0x220208 v = if v.extractLsb' 0 2 = 3#2 then execStartFull s
    else if v.extractLsb' 0 2 = 1#2 then execStartWarm s
    else if v.extractLsb' 0 2 = 2#2 ∧ s.dev.mayStart then .next (s.mapDev Device.forget) else .next s := by
  unfold State.actHigh
  rw [debugReg_far (by decide)]
  rfl

theorem State.actHigh_errClear : s.actHigh host 0x220310 v = execErrClear (v.getLsbD 0) s := by
  unfold State.actHigh
  rw [debugReg_far (by decide)]
  rfl

theorem State.actHigh_cap : s.actHigh host 0x220600 v = .next (s.mapDev (fun d => d.mapHouse (fun h =>
    { h with cap := BitVec.ofNat 12 (Nat.min 2600 (Nat.max 1000 (v.extractLsb' 0 12).toNat)) }))) := by
  unfold State.actHigh
  rw [debugReg_far (by decide)]
  rfl

/-- A write of LNK_CTL without a command stores its fields (R446). -/
theorem State.actHigh_link (p : Fin 128) (quiet : v.extractLsb' 61 3 = 0#3) : s.actHigh host (0x300000 + 0x1000 * p.val) v =
    .next (s.mapDev (fun d => d.mapPort p.val (fun x => { x with
      csymThr := v.extractLsb' 16 16, uncThr := v.extractLsb' 0 16, flane := v.extractLsb' 32 6 }))) := by
  have hp := p.isLt
  have bit (i : Nat) (inside : i < 3) : v.getLsbD (61 + i) = false := by
    have := congrArg (fun x => x.getLsbD i) quiet
    simpa [inside] using this
  have b61 : v.getLsbD 61 = false := bit 0 (by decide)
  have b62 : v.getLsbD 62 = false := bit 1 (by decide)
  have b63 : v.getLsbD 63 = false := bit 2 (by decide)
  have port : (0x300000 + 0x1000 * p.val - 0x300000) / 0x1000 = p.val := by omega
  have first : (0x300000 + 0x1000 * p.val) % 0x1000 = 0 := by omega
  have stores : s.dev.storeReg true (0x300000 + 0x1000 * p.val) v = s.dev.mapPort p.val (fun x => { x with
      csymThr := v.extractLsb' 16 16, uncThr := v.extractLsb' 0 16, flane := v.extractLsb' 32 6 }) := by
    unfold Device.storeReg
    rw [if_neg (by omega), if_neg (by omega), if_neg (by omega), if_neg (by omega), if_neg (by omega), if_neg (by omega), if_neg (by omega),
      if_neg (by omega), if_neg (by omega), if_pos (by omega), if_pos first, port]
  unfold State.actHigh
  rw [debugReg_far (by omega), if_neg Bool.false_ne_true, if_pos (by omega)]
  unfold State.actLink
  rw [if_neg (by omega), b61, b62, b63]
  exact congrArg (fun d => Host.Outcome.next ({ s with dev := d } : State)) stores

end

/-! Debug halts and steps (R335, R336, R389). -/

/-- A halt that is asked for dooms the speculations with a car on the core (R389). -/
theorem State.doomCore_spec (s : State) (core : Nat) : Untouched s (s.doomCore core) ∧ (s.doomCore core).dev.debug = s.dev.debug ∧
    ∀ c ∈ s.cars, c.ident.coreId.toNat = core → c.place.spec = true → c.life ≠ .idle → ∀ y ∈ (s.doomCore core).dev.sig.specs,
      y.svc.q = c.ident.serviceId.extractLsb' 32 16 → y.svc.seq = c.ident.serviceId.extractLsb' 0 32 → y.cause.isSome = true := by
  have fold (cs : List Car) (s : State) :
      let t := cs.foldl (fun s c => s.doomSpec (c.ident.serviceId.extractLsb' 32 16) (c.ident.serviceId.extractLsb' 0 32)) s
      Untouched s t ∧ t.dev.debug = s.dev.debug ∧ (∀ y ∈ t.dev.sig.specs, ∃ x ∈ s.dev.sig.specs, x.svc = y.svc ∧ (x.cause.isSome = true → y.cause.isSome = true)) ∧
      ∀ c ∈ cs, ∀ y ∈ t.dev.sig.specs, y.svc.q = c.ident.serviceId.extractLsb' 32 16 → y.svc.seq = c.ident.serviceId.extractLsb' 0 32 →
        y.cause.isSome = true := by
    induction cs generalizing s with
    | nil => exact ⟨⟨rfl, rfl, rfl⟩, rfl, fun y here => ⟨y, here, rfl, id⟩, fun c none => absurd none List.not_mem_nil⟩
    | cons c cs ih =>
      obtain ⟨⟨car, peers, mem⟩, debug, kept, dooms⟩ := ih (s.doomSpec (c.ident.serviceId.extractLsb' 32 16) (c.ident.serviceId.extractLsb' 0 32))
      refine ⟨⟨car, peers, mem⟩, debug, fun y here => ?_, fun k hk y here yq yseq => ?_⟩
      · obtain ⟨x, hx, same, still⟩ := kept y here
        obtain ⟨z, hz, rfl⟩ := List.mem_map.mp hx
        refine ⟨z, hz, ?_, fun some => still ?_⟩
        · rw [← same]
          split <;> rfl
        · split
          · exact Speculation.ends_cause _ _ _
          · exact some
      · rcases List.mem_cons.mp hk with rfl | later
        · obtain ⟨x, hx, same, still⟩ := kept y here
          exact still (State.doomSpec_cause s _ _ x hx (by rw [same, yq]) (by rw [same, yseq]))
        · exact dooms k later y here yq yseq
  obtain ⟨untouched, debug, -, dooms⟩ := fold (s.cars.filter (fun c => c.ident.coreId.toNat == core && c.place.spec && c.life != .idle)) s
  refine ⟨untouched, debug, fun c here at_ spec alive => dooms c (List.mem_filter.mpr ⟨here, ?_⟩)⟩
  simp [at_, spec, alive]

end Sys2Proof.Machine

namespace Sys2Proof.Machine
open Sys2Proof.Claims

theorem Device.debug_mapDebug_self (d : Device) (core : Nat) (f : Debug → Debug) :
    Tab.get {} (d.mapDebug core f).debug core = f (Tab.get {} d.debug core) := Tab.get_set_self _ _ _ _

theorem Device.debug_mapDebug_other (d : Device) {core k : Nat} (f : Debug → Debug) (other : k ≠ core) :
    Tab.get ({} : Debug) (d.mapDebug core f).debug k = Tab.get {} d.debug k := Tab.get_set_other _ _ _ other

/-- What DBG_CTL.HALT does to a debug block (R336). -/
theorem Debug.setHalt_spec (b : Debug) (v : Bool) : (b.setHalt v).ctl.getLsbD 0 = v ∧ (b.setHalt v).pc = b.pc ∧ (b.setHalt v).ibp = b.ibp ∧
    (v = true → (b.setHalt v).stat = b.stat) ∧ (v = false → (b.setHalt v).stat.getLsbD 0 = false ∧ (b.setHalt v).stat.getLsbD 8 = false) := by
  cases v with
  | true =>
    refine ⟨?_, rfl, rfl, fun _ => rfl, nofun⟩
    show (b.ctl ||| 1#13).getLsbD 0 = true
    simp
  | false =>
    refine ⟨?_, rfl, rfl, nofun, fun _ => ⟨?_, ?_⟩⟩
    · show (b.ctl &&& ~~~(1#13)).getLsbD 0 = false
      simp
    · show (b.stat &&& ~~~(0x101#10)).getLsbD 0 = false
      simp
    · show (b.stat &&& ~~~(0x101#10)).getLsbD 8 = false
      rw [BitVec.getLsbD_and, show (~~~(0x101#10)).getLsbD 8 = false by decide, Bool.and_false]

/-- A debug block with a step in progress. -/
def Debug.steps (b : Debug) : Debug := { b with stat := b.stat ||| 0x100#10, stepped := false }

/-- A step begins on the cores that move together, and on no other. -/
theorem Device.foldl_steps (cs : List Nat) (d : Device) :
    let e := cs.foldl (fun d c => d.mapDebug c Debug.steps) d
    e.mem = d.mem ∧ (∀ k ∈ cs, (Tab.get ({} : Debug) e.debug k).stat.getLsbD 8 = true) ∧
    ∀ k, k ∉ cs → Tab.get ({} : Debug) e.debug k = Tab.get {} d.debug k := by
  have stays (cs : List Nat) (d : Device) (k : Nat) (stepping : (Tab.get ({} : Debug) d.debug k).stat.getLsbD 8 = true) :
      (Tab.get ({} : Debug) (cs.foldl (fun d c => d.mapDebug c Debug.steps) d).debug k).stat.getLsbD 8 = true := by
    induction cs generalizing d with
    | nil => exact stepping
    | cons c cs ih =>
      refine ih (d.mapDebug c Debug.steps) ?_
      by_cases here : k = c
      · rw [here, Device.debug_mapDebug_self]
        simp [Debug.steps]
      · rw [Device.debug_mapDebug_other _ _ here]
        exact stepping
  induction cs generalizing d with
  | nil => exact ⟨rfl, fun k none => absurd none List.not_mem_nil, fun _ _ => rfl⟩
  | cons c cs ih =>
    obtain ⟨mem, mine, others⟩ := ih (d.mapDebug c Debug.steps)
    refine ⟨mem, fun k here => ?_, fun k away => ?_⟩
    · rcases List.mem_cons.mp here with rfl | later
      · refine stays cs (d.mapDebug k Debug.steps) k ?_
        rw [Device.debug_mapDebug_self]
        simp [Debug.steps]
      · exact mine k later
    · rw [List.mem_cons, not_or] at away
      exact (others k away.2).trans (Device.debug_mapDebug_other _ _ away.1)

section
variable {e : GroupEntry} {j : Fin 8} {v : Word}

theorem GroupEntry.stage_same : (e.stage j.val v).staged[j] = v &&& Machine.groupFields j.val := by
  simp [GroupEntry.stage, Fin.getElem_fin]

theorem GroupEntry.stage_other {i : Fin 8} (other : i ≠ j) : (e.stage j.val v).staged[i] = e.staged[i] := by
  have apart : j.val ≠ i.val := fun same => other (Fin.ext same.symm)
  simp [GroupEntry.stage, Fin.getElem_fin, apart]

end

/-- A core alone in its domain, or without one, steps alone. -/
theorem State.stepCores_alone {s : State} {core : Nat} (alone : ∀ c ∈ s.cars, c.ident.coreId.toNat = core → c.place.domain = none) :
    s.stepCores core = [core] := by
  unfold State.stepCores
  split
  next c found =>
    have mine := List.find?_some found
    simp only [Bool.and_eq_true, beq_iff_eq] at mine
    rw [alone c (List.mem_of_find?_eq_some found) mine.1.1]
  · rfl

theorem bytesLE_eq_map (n x : Nat) : bytesLE n x = (List.range n).map (fun i => BitVec.ofNat 8 (x / 256 ^ i)) := by
  induction n generalizing x with
  | zero => rfl
  | succ n ih =>
    rw [bytesLE, ih, List.range_succ_eq_map, List.map_cons, List.map_map]
    refine congrArg₂ List.cons (by simp) (List.map_congr_left fun i _ => ?_)
    rw [Function.comp, Nat.pow_succ', Nat.div_div_eq_div_mul]

/-- 8 bytes of an aligned register are the register. -/
theorem Device.readReg8_aligned (d : Device) {off : Nat} (aligned : off % 8 = 0) : d.readReg8 off = d.readReg off := by
  have bytes : (List.range 8).map (fun i => d.regByte (off + i)) = bytesLE 8 (d.readReg off).toNat := by
    rw [bytesLE_eq_map]
    refine List.map_congr_left fun i here => ?_
    have inside : i < 8 := List.mem_range.mp here
    have word : (off + i) / 8 * 8 = off := by omega
    have byte : (off + i) % 8 = i := by omega
    rw [Device.regByte, word, byte]
    apply BitVec.eq_of_toNat_eq
    rw [BitVec.extractLsb'_toNat, BitVec.toNat_ofNat, Nat.shiftRight_eq_div_pow, Nat.pow_mul]
  rw [Device.readReg8, bytes, natLE_bytesLE, show 256 ^ 8 = 2 ^ 64 from rfl, Nat.mod_eq_of_lt (d.readReg off).isLt, BitVec.ofNat_toNat, BitVec.setWidth_eq]

end Sys2Proof.Machine

namespace Sys2Proof.Proofs
open Sys2Proof.Machine Sys2Proof.Claims

/-- Settles O47: what a write of BAR0 changes, by its master and its place; debug halts and steps, and reads of the management window. -/
theorem registersTakeWrites : Obligations.RegistersTakeWrites := by
  unfold Obligations.RegistersTakeWrites
  intro host off v core m h g w j p s write linked shared debug served free
  have allows {o : Nat} (free : free) (plain : o < 0x100000 ∨ 0x115000 ≤ o) : s.dev.house.allows host o = true := House.allows_free free.2 plain
  refine ⟨exec_registerWrite_nowhere, fun aligned inside soson apart denied => ?_, fun e here may => ?_, fun free => ?_, fun served => ?_, fun free staged => ?_,
    fun served quiet => ?_, fun b => ?_, ⟨fun still => ?_, fun halted calm => ?_⟩, fun pkg other => ?_, fun linked => ?_⟩
  · have no : s.dev.house.allows host off = false := by
      have unshared : sharedReg off = false := Bool.eq_false_iff.mpr (mt sharedReg_iff.mp apart)
      unfold House.allows
      rw [soson, unshared]
      rcases denied with blocks | hold
      · rw [show debugReg off = true from decide_eq_true blocks]; rfl
      · rw [hold]; cases debugReg off <;> rfl
    exact ⟨_, exec_registerWrite_denied (.inl soson) aligned inside no, ⟨rfl, rfl, rfl⟩, s.dev.house.deny_eq, rfl, rfl, rfl⟩
  · rcases storedRegs_read s v e here with rfl | ⟨⟨low, aligned, plain⟩, reads⟩
    · have served : served := may.elim And.left And.left
      have runs : write 0x220600 = _ :=
        (exec_registerWrite served (by decide) (by decide) (House.allows_shared (by decide))).trans State.actHigh_cap
      refine ⟨_, runs, ⟨rfl, rfl, rfl⟩, ?_⟩
      show (BitVec.ofNat 12 (Nat.min 2600 (Nat.max 1000 (v.extractLsb' 0 12).toNat))).setWidth 64 = BitVec.ofNat 64 (min 2600 (max 1000 (v.toNat % 2 ^ 12)))
      have small : min 2600 (max 1000 (v.toNat % 2 ^ 12)) < 2 ^ 12 := by omega
      rw [BitVec.extractLsb'_toNat, Nat.shiftRight_zero]
      apply BitVec.eq_of_toNat_eq
      rw [BitVec.toNat_setWidth, BitVec.toNat_ofNat, BitVec.toNat_ofNat]
      exact congrArg (· % 2 ^ 64) (Nat.mod_eq_of_lt small)
    · have free : free := may.resolve_right (by rintro ⟨-, far⟩; omega)
      exact exec_registerWrite_reads free.1 free.2 aligned low plain reads
  · have at_low {o : Nat} (aligned : o % 8 = 0) (low : o < 0x100000) : write o = s.actLow o v :=
      (exec_registerWrite free.1 aligned (by omega) (allows free (.inl low))).trans (if_pos (by omega))
    have starts : write 0x220208 = s.actHigh host 0x220208 v :=
      exec_registerWrite free.1 (by decide) (by decide) (allows free (.inr (by decide)))
    have hm := m.isLt
    have hh := h.isLt
    have hw := w.isLt
    refine ⟨fun linked => ⟨?_, ?_⟩, ?_, at_low (by decide) (by decide), at_low (by decide) (by decide), at_low (by decide) (by decide),
      at_low (by decide) (by decide), fun full => ?_, fun warm => ?_, fun none => ?_⟩
    · rw [at_low (by decide) (by decide), State.actLow_doorbell]
      exact congrArg Host.Outcome.next (State.over_host_served (fun s => s.doorbell v) linked).symm
    · rw [at_low (by omega) (by omega), State.actLow_mailbox]
      exact congrArg Host.Outcome.next (State.over_host_served (fun s => s.mailbox m (v.extractLsb' 0 32)) linked).symm
    · exact (at_low (by omega) (by omega)).trans (State.actLow_bht h w)
    · exact (starts.trans State.actHigh_start).trans (if_pos full)
    · exact (starts.trans State.actHigh_start).trans ((if_neg (by rw [warm]; decide)).trans (if_pos warm))
    · refine (starts.trans State.actHigh_start).trans ?_
      rw [none, if_neg (by decide), if_neg (by decide), if_neg (fun bad => absurd bad.1 (by decide))]
  · have runs : write 0x220310 = s.actHigh host 0x220310 v :=
      exec_registerWrite served (by decide) (by decide) (House.allows_shared (by decide))
    exact runs.trans State.actHigh_errClear
  · have hg := g.isLt
    have runs : write (0x40000 + 64 * g.val + 8 * j.val) = .next (s.putGroup g ((s.dev.group g.val).stage j.val v)) :=
      (exec_registerWrite free.1 (by omega) (by omega) (allows free (.inl (by omega)))).trans ((if_pos (by omega)).trans (s.actLow_group g staged))
    refine ⟨_, runs, ⟨rfl, rfl, rfl⟩, ?_, ?_, fun i other => ?_⟩
    · rw [State.group_putGroup]; rfl
    · rw [State.group_putGroup, ← groupFields_eq staged]
      exact GroupEntry.stage_same
    · rw [State.group_putGroup]
      exact GroupEntry.stage_other other
  · have hp := p.isLt
    have runs : write (0x300000 + 0x1000 * p.val) = _ :=
      (exec_registerWrite served (by omega) (by omega) (House.allows_shared (sharedReg_iff.mpr (by omega)))).trans
        ((if_neg (by omega)).trans (State.actHigh_link p quiet))
    exact ⟨_, runs, onlyPort_mapPort s p.val _, s.dev.port_mapPort p.val _⟩
  · obtain ⟨bit, pc, ibp, asked, freed⟩ := Debug.setHalt_spec (Tab.get {} s.dev.debug core.val) b
    have self := s.dev.debug_mapDebug_self core.val (fun x => x.setHalt b)
    have others (k : Nat) (other : k ≠ core.val) := s.dev.debug_mapDebug_other (fun x => x.setHalt b) other
    cases b with
    | true =>
      obtain ⟨untouched, debug, dooms⟩ := (s.mapDev (fun d => d.mapDebug core.val (fun x => x.setHalt true))).doomCore_spec core.val
      refine ⟨_, rfl, untouched, ?_⟩
      dsimp only
      rw [if_pos rfl, debug]
      refine ⟨?_, ?_, ?_, fun _ => ?_, nofun, others, fun _ => dooms⟩
      · exact (congrArg (fun x : Debug => x.ctl.getLsbD 0) self).trans bit
      · exact (congrArg Debug.pc self).trans pc
      · exact (congrArg Debug.ibp self).trans ibp
      · exact (congrArg Debug.stat self).trans (asked rfl)
    | false =>
      refine ⟨_, rfl, ⟨rfl, rfl, rfl⟩, ?_, ?_, ?_, nofun, fun _ => ⟨?_, ?_⟩, others, nofun⟩
      · exact (congrArg (fun x : Debug => x.ctl.getLsbD 0) self).trans bit
      · exact (congrArg Debug.pc self).trans pc
      · exact (congrArg Debug.ibp self).trans ibp
      · exact (congrArg (fun x : Debug => x.stat.getLsbD 0) self).trans (freed rfl).1
      · exact (congrArg (fun x : Debug => x.stat.getLsbD 8) self).trans (freed rfl).2
  · refine congrArg Host.Outcome.next (if_neg ?_)
    rw [Bool.and_eq_true, Bool.not_eq_true']
    rintro ⟨halted, calm⟩
    rcases still with still | still
    · exact absurd (halted.symm.trans still) (by decide)
    · exact absurd (calm.symm.trans still) (by decide)
  · obtain ⟨mem, mine, others⟩ := s.dev.foldl_steps (s.stepCores core.val)
    refine ⟨_, congrArg Host.Outcome.next (if_pos ?_), ⟨rfl, rfl, mem⟩, mine, others, State.stepCores_alone⟩
    rw [Bool.and_eq_true, Bool.not_eq_true']
    exact ⟨halted, calm⟩
  · rcases other with other | unlinked
    · exact congrArg Host.Outcome.next (if_pos other)
    · by_cases mine : pkg ≠ s.dev.fab.regs.pkgId
      · exact congrArg Host.Outcome.next (if_pos mine)
      · exact congrArg Host.Outcome.next ((if_neg mine).trans (State.over_host_unserved _ unlinked))
  · have runs : exec (.mgmtRead s.dev.fab.regs.pkgId off) s = .next (s.mapDev (fun d => d.emit
        [.mgmt (if 0x200000 ≤ off ∧ off ≤ 0x3FFFF8 then some (d.readReg8 off) else none)])) :=
      congrArg Host.Outcome.next ((if_neg (not_not.mpr rfl)).trans (State.over_host_served _ linked))
    refine ⟨_, runs, ⟨rfl, rfl, rfl⟩, fun away => ?_, fun low high aligned => ?_⟩
    · exact congrArg (fun x => s.dev.outbox ++ [Output.mgmt x]) (if_neg (by omega))
    · exact congrArg (fun x => s.dev.outbox ++ [Output.mgmt x]) ((if_pos ⟨low, high⟩).trans (congrArg some (s.dev.readReg8_aligned aligned)))

end Sys2Proof.Proofs

namespace Sys2Proof.Machine
open Sys2Proof.Claims

/-! Timetable sets (R403 to R405, R410). -/

/-- No record of a set names a slot that the base set assigns, or that another of these sets, loaded under another number, assigns (R404). -/
def TtSet.FreeBeside (m : BitVec 8) (y : TtSet) (others : List LoadedSet) : Prop :=
  ∀ r ∈ y.records, Config.baseCircuit r.junction r.port r.slot = none ∧
    ∀ z ∈ others, z.n ≠ m → ∀ q ∈ z.set.records, ¬ (q.junction = r.junction ∧ q.port = r.port ∧ q.slot = r.slot)

/-- A path of a set passes a link that is down. -/
def TtSet.Down (links : List (Nat × Nat)) (y : TtSet) : Prop := ∃ r ∈ y.records, (r.junction, r.port) ∈ links

theorem TtSet.passes_iff {y : TtSet} {link : Nat × Nat} : y.passes link = true ↔ ∃ r ∈ y.records, r.junction = link.1 ∧ r.port = link.2 := by
  simp only [TtSet.passes, List.any_eq_true, beq_iff_eq, Prod.ext_iff]

theorem TtSet.any_passes_iff {y : TtSet} {links : List (Nat × Nat)} : links.any y.passes = true ↔ y.Down links := by
  simp only [List.any_eq_true, TtSet.passes_iff, TtSet.Down]
  constructor
  · rintro ⟨⟨j, p⟩, here, r, mine, rfl, rfl⟩
    exact ⟨r, mine, here⟩
  · rintro ⟨r, mine, here⟩
    exact ⟨_, here, r, mine, rfl, rfl⟩

theorem Fabric.loadable_iff {f : Fabric} {m : BitVec 8} {y : TtSet} : f.loadable m y = true ↔ y.FreeBeside m f.sets := by
  simp only [Fabric.loadable, Bool.and_eq_true, List.all_eq_true, Bool.or_eq_true, beq_iff_eq, TtRecord.inBase, TtRecord.clash, Bool.not_eq_true',
    Option.isSome_eq_false_iff, Option.isNone_iff_eq_none, TtSet.FreeBeside, Bool.and_eq_false_iff, beq_eq_false_iff_ne]
  constructor
  · rintro ⟨base, apart⟩ r mine
    refine ⟨base r mine, fun z hz other q hq clash => ?_⟩
    rcases (apart z hz).resolve_left other r mine q hq with (no | no) | no
    · exact no clash.1.symm
    · exact no clash.2.1.symm
    · exact no clash.2.2.symm
  · refine fun free => ⟨fun r mine => (free r mine).1, fun z hz => or_iff_not_imp_left.mpr fun other r mine q hq => ?_⟩
    by_contra bad
    simp only [not_or, not_not] at bad
    exact (free r mine).2 z hz other q hq ⟨bad.1.1.symm, bad.1.2.symm, bad.2.symm⟩

/-- A set is suspended from its loading on while a link of its paths is down. -/
theorem Fabric.load_suspended (f : Fabric) (old serves n : BitVec 8) (y : TtSet) : n ∈ (f.load old serves n y).suspended ↔ y.Down f.linksDown := by
  rw [← TtSet.any_passes_iff]
  simp [Fabric.load]

/-- The number that a load replaces is no longer suspended. -/
theorem Fabric.load_released (f : Fabric) {old serves n : BitVec 8} (other : n ≠ old) (y : TtSet) : old ∉ (f.load old serves n y).suspended := by
  simp [Fabric.load, other.symm]

/-- The state after a set has been loaded. -/
def State.loadSet (s : State) (old serves n : BitVec 8) (y : TtSet) : State := s.mapDev (fun d => { d with fab := d.fab.load old serves n y })

section
variable {s : State} {n : BitVec 8} {y : TtSet}

theorem exec_timetableLoad (found : s.dev.ttSet n = some y) : exec (.timetableLoad n) s = .next
    (if n = 0#8 || s.dev.fab.hasSet n || !(s.dev.sig.consists.any (fun c => c.ttset == n && c.saved.isNone)) || !s.dev.fab.loadable n y
      || s.dev.now % 256 ≠ 0 then s else s.loadSet n n n y) := by
  show Host.Outcome.next (s.mapDev _) = _
  unfold State.mapDev State.loadSet
  dsimp only
  rw [found]
  dsimp only
  split <;> rfl

theorem exec_timetableLoad_nothing (no : s.dev.ttSet n = none ∨ n = 0#8 ∨ (∃ z ∈ s.dev.fab.sets, z.serves = n) ∨ s.now % 256 ≠ 0 ∨
    ∀ c ∈ s.dev.sig.consists, c.ttset ≠ n ∨ c.saved ≠ none) : exec (.timetableLoad n) s = .next s := by
  cases found : s.dev.ttSet n with
  | none =>
    show Host.Outcome.next (s.mapDev _) = _
    unfold State.mapDev
    dsimp only
    rw [found]
  | some y =>
    rw [exec_timetableLoad found, if_pos]
    simp only [Bool.or_eq_true, decide_eq_true_eq, Bool.not_eq_true', Fabric.hasSet, List.any_eq_true, List.any_eq_false]
    rcases no with no | zero | ⟨z, hz, serves⟩ | away | none
    · rw [found] at no; cases no
    · exact .inl (.inl (.inl (.inl zero)))
    · exact .inl (.inl (.inl (.inr ⟨z, hz, beq_iff_eq.mpr serves⟩)))
    · exact .inr away
    · refine .inl (.inl (.inr fun c hc both => ?_))
      rw [Bool.and_eq_true, beq_iff_eq, Option.isNone_iff_eq_none] at both
      rcases none c hc with no | no
      · exact no both.1
      · exact no both.2

/-- A set that may be loaded is loaded where no slot of it is taken, and else not (R404). -/
theorem exec_timetableLoad_may (found : s.dev.ttSet n = some y) (some_ : n ≠ 0#8) (new : ∀ z ∈ s.dev.fab.sets, z.serves ≠ n)
    (named : ∃ c ∈ s.dev.sig.consists, c.ttset = n ∧ c.saved = none) (boundary : s.now % 256 = 0) :
    (y.FreeBeside n s.dev.fab.sets → exec (.timetableLoad n) s = .next (s.loadSet n n n y) ∧
      (s.loadSet n n n y).dev.fab.sets = s.dev.fab.sets ++ [⟨n, n, y⟩]) ∧
    (¬ y.FreeBeside n s.dev.fab.sets → exec (.timetableLoad n) s = .next s) := by
  have has : s.dev.fab.hasSet n = false := by
    simp only [Fabric.hasSet, List.any_eq_false, beq_iff_eq]
    exact new
  have consist : s.dev.sig.consists.any (fun c => c.ttset == n && c.saved.isNone) = true := by
    obtain ⟨c, hc, named, awake⟩ := named
    simp only [List.any_eq_true, Bool.and_eq_true, beq_iff_eq, Option.isNone_iff_eq_none]
    exact ⟨c, hc, named, awake⟩
  have now : s.dev.now % 256 = 0 := boundary
  rw [exec_timetableLoad found, has, consist, now, decide_eq_false some_]
  refine ⟨fun free => ⟨?_, ?_⟩, fun taken => ?_⟩
  · rw [Fabric.loadable_iff.mpr free]; rfl
  · refine congrArg (· ++ [(⟨n, n, y⟩ : LoadedSet)]) (List.filter_eq_self.mpr fun z hz => ?_)
    simp [new z hz]
  · rw [Bool.eq_false_iff.mpr (mt Fabric.loadable_iff.mp taken)]; rfl

end

section
variable {s : State} {n : BitVec 8} {z : LoadedSet}

theorem exec_alternateSetLoad (suspended : n ∈ s.dev.fab.suspended) (some_ : n ≠ 0#8) (one : s.dev.fab.sets.filter (fun y => y.n == n) = [z]) :
    exec (.alternateSetLoad n) s = .next (s.mapDev (fun d => d.loadAlternate z)) := by
  show Host.Outcome.next (s.mapDev _) = _
  unfold State.mapDev
  dsimp only
  rw [List.contains_iff_mem.mpr suspended, one, if_neg (by simp), if_neg some_]
  rfl

theorem Device.loadAlternate_none {d : Device} (no : d.ttSet z.set.alt = none ∨ z.set.alt = 0#8) : d.loadAlternate z = d := by
  unfold Device.loadAlternate
  split
  · next y found =>
    have zero : z.set.alt = 0#8 := no.resolve_left (by rw [found]; nofun)
    rw [if_pos (by rw [zero]; rfl)]
  · rfl

/-- The sets that stand beside a set that is replaced. -/
theorem filter_replaced {sets : List LoadedSet} (one : sets.filter (fun y => y.n == n) = [z]) :
    sets.filter (fun y => !(y.n == z.n && y.serves == z.serves)) = sets.filter (fun y => y.n != n) := by
  have mine : z ∈ sets.filter (fun y => y.n == n) := by rw [one]; exact List.mem_singleton_self z
  have number : z.n = n := beq_iff_eq.mp (List.mem_filter.mp mine).2
  refine List.filter_congr fun y hy => ?_
  by_cases same : y.n = n
  · have : y = z := List.mem_singleton.mp (one ▸ List.mem_filter.mpr ⟨hy, beq_iff_eq.mpr same⟩)
    subst this
    simp [same]
  · rw [number, beq_eq_false_iff_ne.mpr same, bne, beq_eq_false_iff_ne.mpr same, Bool.false_and]

theorem Device.loadAlternate_some {d : Device} {y : TtSet} (one : d.fab.sets.filter (fun y => y.n == n) = [z]) (found : d.ttSet z.set.alt = some y)
    (some_ : z.set.alt ≠ 0#8) :
    let others := d.fab.sets.filter (fun y => y.n != n)
    (¬ y.FreeBeside z.set.alt others → d.loadAlternate z = d) ∧
    (y.FreeBeside z.set.alt others → d.loadAlternate z = { d with fab := d.fab.load n z.serves z.set.alt y } ∧
      (d.fab.load n z.serves z.set.alt y).sets = others ++ [⟨z.set.alt, z.serves, y⟩]) := by
  have mine : z ∈ d.fab.sets.filter (fun y => y.n == n) := by rw [one]; exact List.mem_singleton_self z
  have number : z.n = n := beq_iff_eq.mp (List.mem_filter.mp mine).2
  subst number
  have eq : d.loadAlternate z = if z.set.alt = 0#8 || !({ d.fab with sets := d.fab.sets.filter (fun x => x.n != z.n) } : Fabric).loadable z.set.alt y then d
      else { d with fab := d.fab.load z.n z.serves z.set.alt y } := by
    unfold Device.loadAlternate
    rw [found]
  rw [eq, decide_eq_false some_, Bool.false_or]
  refine ⟨fun taken => ?_, fun free => ⟨?_, ?_⟩⟩
  · rw [if_pos]
    rw [Bool.not_eq_true']
    exact Bool.eq_false_iff.mpr (mt Fabric.loadable_iff.mp taken)
  · rw [if_neg]
    rw [Bool.not_eq_true', Bool.not_eq_false]
    exact Fabric.loadable_iff.mpr free
  · exact congrArg (· ++ [(⟨z.set.alt, z.serves, y⟩ : LoadedSet)]) (filter_replaced one)

end

theorem basePasses_iff {j p : Nat} {l : Ix16} : basePasses j p l.val = true ↔ ∃ k < 256, Config.baseCircuit j p k = some l := by
  simp only [basePasses, List.any_eq_true, List.mem_range, Option.any_eq_true, beq_iff_eq]
  exact ⟨fun ⟨k, hk, x, found, same⟩ => ⟨k, hk, by rw [found, Fin.ext same]⟩, fun ⟨k, hk, found⟩ => ⟨k, hk, l, found, rfl⟩⟩

/-- The state after a link has gone down (R405, R410). -/
def State.linkFell (s : State) (link : Nat × Nat) : State :=
  let queued := !s.dev.fab.remote.isEmpty || s.cars.any (fun c => !c.eng.posted.isEmpty)
  let base := (List.range 16).any (fun l => basePasses link.1 link.2 l)
  s.mapDev (fun d =>
    let hit := (d.fab.sets.filter (fun y => y.set.passes link && !d.fab.suspended.contains y.n)).map (fun y => y.n)
    let d := if queued then d.setFabStat 2#8 else d
    { d with
      fab := { d.fab with
        linksDown := if d.fab.linksDown.contains link then d.fab.linksDown else d.fab.linksDown ++ [link]
        suspended := d.fab.suspended ++ hit ++ (if base && !d.fab.suspended.contains 0#8 then [0#8] else []) }
      lines := d.lines.mapFinIdx (fun i x _ => if basePasses link.1 link.2 i then { x with suspended := true } else x) })

section
variable (s : State) (link : Nat × Nat)

theorem exec_onPackageLinkDown (j : Fin 64) (p : Fin 8) : exec (.onPackageLinkDown j p) s = .next (s.linkFell (j.val, p.val)) := rfl

theorem State.linkFell_down : link ∈ (s.linkFell link).dev.fab.linksDown := by
  have eq : (s.linkFell link).dev.fab.linksDown = if s.dev.fab.linksDown.contains link then s.dev.fab.linksDown else s.dev.fab.linksDown ++ [link] := by
    unfold State.linkFell
    cases !s.dev.fab.remote.isEmpty || s.cars.any (fun c => !c.eng.posted.isEmpty) <;> rfl
  rw [eq]
  split
  · next here => exact List.contains_iff_mem.mp here
  · simp

theorem State.linkFell_suspended : (s.linkFell link).dev.fab.suspended = s.dev.fab.suspended ++
    (s.dev.fab.sets.filter (fun y => y.set.passes link && !s.dev.fab.suspended.contains y.n)).map (fun y => y.n) ++
    (if (List.range 16).any (fun l => basePasses link.1 link.2 l) && !s.dev.fab.suspended.contains 0#8 then [0#8] else []) := by
  unfold State.linkFell
  cases !s.dev.fab.remote.isEmpty || s.cars.any (fun c => !c.eng.posted.isEmpty) <;> rfl

theorem State.linkFell_keeps : ∀ m ∈ s.dev.fab.suspended, m ∈ (s.linkFell link).dev.fab.suspended := by
  intro m here
  rw [s.linkFell_suspended]
  simp [here]

theorem State.linkFell_sets : ∀ z ∈ s.dev.fab.sets, z.set.passes link = true → z.n ∈ (s.linkFell link).dev.fab.suspended := by
  intro z hz passes
  by_cases already : z.n ∈ s.dev.fab.suspended
  · exact s.linkFell_keeps link _ already
  · rw [s.linkFell_suspended]
    refine List.mem_append_left _ (List.mem_append_right _ (List.mem_map.mpr ⟨z, List.mem_filter.mpr ⟨hz, ?_⟩, rfl⟩))
    simp [passes, already]

theorem State.linkFell_lines (l : Ix16) :
    (s.linkFell link).dev.lines[l] = if basePasses link.1 link.2 l.val then { s.dev.lines[l] with suspended := true } else s.dev.lines[l] := by
  have eq : (s.linkFell link).dev.lines =
      s.dev.lines.mapFinIdx (fun i x _ => if basePasses link.1 link.2 i then { x with suspended := true } else x) := by
    unfold State.linkFell
    cases !s.dev.fab.remote.isEmpty || s.cars.any (fun c => !c.eng.posted.isEmpty) <;> rfl
  rw [eq, Fin.getElem_fin, Vector.getElem_mapFinIdx, Fin.getElem_fin]

theorem State.linkFell_base {l : Ix16} (passes : basePasses link.1 link.2 l.val = true) : 0#8 ∈ (s.linkFell link).dev.fab.suspended := by
  by_cases already : 0#8 ∈ s.dev.fab.suspended
  · exact s.linkFell_keeps link _ already
  · rw [s.linkFell_suspended, show (List.range 16).any (fun l => basePasses link.1 link.2 l) = true from
      List.any_eq_true.mpr ⟨l.val, List.mem_range.mpr l.isLt, passes⟩]
    simp [already]

theorem State.linkFell_queued (queued : s.dev.fab.remote ≠ [] ∨ ∃ c ∈ s.cars, c.eng.posted ≠ []) :
    (s.linkFell link).dev.fab.regs.fabStat = s.dev.fab.regs.fabStat ||| 2#8 := by
  have waits : (!s.dev.fab.remote.isEmpty || s.cars.any (fun c => !c.eng.posted.isEmpty)) = true := by
    simpa [List.isEmpty_iff] using queued
  unfold State.linkFell
  rw [waits]
  rfl

/-- What a link's failure leaves. -/
theorem State.linkFell_frame : (s.linkFell link).car = s.car ∧ (s.linkFell link).peers = s.peers ∧ (s.linkFell link).dev.mem = s.dev.mem := by
  refine ⟨rfl, rfl, ?_⟩
  unfold State.linkFell
  cases !s.dev.fab.remote.isEmpty || s.cars.any (fun c => !c.eng.posted.isEmpty) <;> rfl

end

end Sys2Proof.Machine

namespace Sys2Proof.Proofs
open Sys2Proof.Machine Sys2Proof.Claims

/-- Settles O39: Timetable sets and their alternates, links that fail, and the loss of synchronisation. -/
theorem timetablesLinksAndTime : Obligations.TimetablesLinksAndTime := by
  unfold Obligations.TimetablesLinksAndTime
  intro n j p s f passes free down
  refine ⟨fun y found some_ new named boundary => ?_, exec_timetableLoad_nothing, fun runs => ?_, fun z suspended some_ one => ⟨fun no => ?_,
    fun y found alt => ?_⟩, fun base => ?_, ?_, fun unsynced => ?_, fun synced => ?_, fun far => ?_, fun near => ?_⟩
  · obtain ⟨loads, stays⟩ := exec_timetableLoad_may found some_ new named boundary
    exact ⟨fun free => ⟨_, (loads free).1, rfl, rfl, rfl, (loads free).2, s.dev.fab.load_suspended n n n y⟩, stays⟩
  · show Host.Outcome.next (s.mapDev _) = _
    unfold State.mapDev
    dsimp only
    rw [if_pos (by simpa using runs)]
  · exact (exec_alternateSetLoad suspended some_ one).trans (congrArg (fun d => Host.Outcome.next ({ s with dev := d } : State)) (Device.loadAlternate_none no))
  · obtain ⟨stays, loads⟩ := Device.loadAlternate_some one found alt
    have runs := exec_alternateSetLoad suspended some_ one
    refine ⟨fun taken => ?_, fun free => ?_⟩
    · exact runs.trans (congrArg (fun d => Host.Outcome.next ({ s with dev := d } : State)) (stays taken))
    · obtain ⟨loaded, sets⟩ := loads free
      have runs : exec (.alternateSetLoad n) s = .next (s.loadSet n z.serves z.set.alt y) :=
        runs.trans (congrArg (fun d => Host.Outcome.next ({ s with dev := d } : State)) loaded)
      exact ⟨_, runs, rfl, rfl, sets, fun other => s.dev.fab.load_released other y, s.dev.fab.load_suspended n z.serves z.set.alt y⟩
  · have runs : exec (.alternateSetLoad 0#8) s = .next (s.mapDev (fun d => { d with
        fab := { d.fab with suspended := d.fab.suspended.filter (· != 0#8) }
        lines := d.lines.map (fun x => { x with suspended := false }) })) := by
      show Host.Outcome.next (s.mapDev _) = _
      unfold State.mapDev
      dsimp only
      rw [if_neg (by simpa using base), if_pos rfl]
    refine ⟨_, runs, fun here => ?_, fun l => Vector.getElem_map _ l.isLt⟩
    exact absurd (List.mem_filter.mp here).2 (by decide)
  · obtain ⟨car, peers, mem⟩ := s.linkFell_frame (j.val, p.val)
    refine ⟨_, exec_onPackageLinkDown s j p, car, peers, mem, s.linkFell_down _, fun m hm passes => s.linkFell_sets _ m hm (TtSet.passes_iff.mpr passes),
      s.linkFell_keeps _, fun l passes => ⟨?_, s.linkFell_base _ (basePasses_iff.mpr passes)⟩, fun l none => ?_, s.linkFell_queued _⟩
    · rw [s.linkFell_lines, if_pos (basePasses_iff.mpr passes)]
    · refine (s.linkFell_lines _ l).trans (if_neg (mt basePasses_iff.mp ?_))
      rintro ⟨k, hk, found⟩
      exact none k hk found
  · exact congrArg (fun d => Host.Outcome.next ({ s with dev := d } : State)) (if_neg (Bool.eq_false_iff.mp unsynced))
  · refine ⟨_, congrArg (fun d => Host.Outcome.next ({ s with dev := d } : State)) (if_pos synced), rfl, rfl, rfl, rfl, ?_⟩
    dsimp only
    split
    · next full => rw [full]; rfl
    · next room =>
      have below : s.dev.house.lostCnt.toNat ≠ 65535 := fun full => room (BitVec.eq_of_toNat_eq full)
      have := s.dev.house.lostCnt.isLt
      rw [BitVec.toNat_add, show (1#16).toNat = 1 from rfl]
      omega
  · exact congrArg Host.Outcome.next (if_neg (by omega))
  · exact ⟨_, congrArg Host.Outcome.next (if_pos near), rfl, rfl, fun _ => rfl⟩

end Sys2Proof.Proofs

namespace Sys2Proof.Machine
open Sys2Proof.Claims

/-! Invalidations (R320, R415). -/

/-- No translation and no valid handle of a page in a range. -/
def Car.Forgets (c : Car) (lo hi : Nat) : Prop :=
  (∀ e ∈ c.eng.tlb, meets lo hi e.page e.size = false) ∧ (∀ u : Fin 2, ∀ e ∈ c.eng.copyTlb[u], meets lo hi e.page e.size = false) ∧
    ∀ h : Fin 32, c.regs.h[h].v = true → meets lo hi c.regs.h[h].vpage c.regs.h[h].pageSize = false

theorem Car.invalidate_forgets (c : Car) (lo hi : Nat) : (c.invalidate lo hi).Forgets lo hi := by
  refine ⟨fun e here => ?_, fun u e here => ?_, fun h valid => ?_⟩
  · simpa using (List.mem_filter.mp here).2
  · have here : e ∈ (c.eng.copyTlb.map (fun t => t.filter (fun e => !meets lo hi e.page e.size)))[u] := here
    rw [Fin.getElem_fin, Vector.getElem_map] at here
    simpa using (List.mem_filter.mp here).2
  · have is : (c.invalidate lo hi).regs.h[h] =
        if meets lo hi c.regs.h[h].vpage c.regs.h[h].pageSize then { c.regs.h[h] with v := false } else c.regs.h[h] := Vector.getElem_map _ h.isLt
    rw [is] at valid ⊢
    split at valid
    · cases valid
    · next away => rw [if_neg away]; exact Bool.eq_false_iff.mpr away

section
variable {s : State} {len : BitVec 40} {lo hi : Nat} {rest : List (Nat × Nat)}

/-- An access through a range is on its way or stands in a store queue. -/
def State.Through (s : State) (lo hi : Nat) : Prop := (∃ x ∈ s.dev.fab.remote, meets lo hi x.vpage x.vsize = true) ∨
  ∃ c ∈ s.cars, ∃ x ∈ c.eng.queue, x.target.isLocal = false ∧ meets lo hi x.vpage x.vsize = true

/-- The state after the completion of the oldest invalidation. -/
def State.invalidated (s : State) (lo hi : Nat) (rest : List (Nat × Nat)) : State :=
  (s.mapCars (fun c => c.invalidate lo hi)).mapDev (fun d => { d with
    sig := { d.sig with consists := d.sig.consists.map (fun x => { x with saved := x.saved.map (fun cs => cs.map (fun c => c.invalidate lo hi)) }) }
    fab := { d.fab with invQ := rest, regs := { d.fab.regs with invDone := d.fab.regs.invDone + 1#32 } } })

theorem exec_invalidationComplete_none (none : s.dev.fab.invQ = []) : exec .invalidationComplete s = .next s := by
  show execInvalidationComplete s = _
  unfold execInvalidationComplete
  rw [none]

theorem exec_invalidationComplete (next : s.dev.fab.invQ = (lo, hi) :: rest) : (s.Through lo hi → exec .invalidationComplete s = .next s) ∧
    (¬ s.Through lo hi → exec .invalidationComplete s = .next (s.invalidated lo hi rest)) := by
  have through : (s.dev.fab.remote.any (fun r => meets lo hi r.vpage r.vsize) ||
      s.cars.any (fun c => c.eng.queue.any (fun x => !x.target.isLocal && meets lo hi x.vpage x.vsize))) = true ↔ s.Through lo hi := by
    simp only [Bool.or_eq_true, List.any_eq_true, Bool.and_eq_true, Bool.not_eq_true', State.Through]
  have eq : exec .invalidationComplete s = .next (if s.dev.fab.remote.any (fun r => meets lo hi r.vpage r.vsize) ||
      s.cars.any (fun c => c.eng.queue.any (fun x => !x.target.isLocal && meets lo hi x.vpage x.vsize)) then s else s.invalidated lo hi rest) := by
    show execInvalidationComplete s = _
    unfold execInvalidationComplete
    rw [next]
    rfl
  rw [eq]
  exact ⟨fun waits => by rw [if_pos (through.mpr waits)], fun free => by rw [if_neg (mt through.mp free)]⟩

end

/-! Migrations (R416, R417). -/

section
variable {s : State} {size : BitVec 31}

/-- A migration that is refused sets ERR. -/
def State.migRefused (s : State) : State := s.mapDev (fun d => { d with fab := { d.fab with regs := { d.fab.regs with migErr := true } } })

/-- A migration that starts with a forwarding entry. -/
def State.migStarted (s : State) (size : BitVec 31) (i : Nat) : State :=
  let src := s.dev.fab.regs.migSrc.toNat
  let dst := s.dev.fab.regs.migDst
  let a := (dst.extractLsb' 0 42).toNat
  s.mapDev (fun d => { d with fab := { d.fab with
    fwd := Tab.set d.fab.fwd i { new := dst, v := true, old := BitVec.ofNat 24 (src / 0x10000), len := BitVec.ofNat 16 (size.toNat / 0x10000 - 1) }
    gone := if dst.extractLsb' 42 10 == d.fab.regs.pkgId then cutRange d.fab.gone a (a + size.toNat) else d.fab.gone
    mig := some { entry := i, src := src, dst := dst.toNat, lines := size.toNat / 64, next := 0 }
    regs := { d.fab.regs with migErr := false } } })

theorem exec_migrate_busy (busy : s.dev.fab.mig.isSome = true) : exec (.migrate size) s = .next s :=
  congrArg (fun d => Host.Outcome.next ({ s with dev := d } : State)) (if_pos busy)

/-- What a request for a migration meets that is refused for its operands. -/
def Fabric.migBad (f : Fabric) (n : Nat) : Bool :=
  let a := (f.regs.migDst.extractLsb' 0 42).toNat
  n % 0x10000 != 0 || n == 0 || decide (0x40000000 < n) || f.regs.migSrc.toNat % 0x10000 != 0 || a % 0x10000 != 0
    || (f.regs.migDst.extractLsb' 42 10 == f.regs.pkgId && decide (a < f.regs.migSrc.toNat + n ∧ f.regs.migSrc.toNat < a + n))

theorem exec_migrate (idle : s.dev.fab.mig = none) : exec (.migrate size) s = .next
    (match if s.dev.fab.migBad size.toNat then none else s.dev.fab.freeFwd with
    | none => s.migRefused
    | some i => s.migStarted size i) := by
  have eq : exec (.migrate size) s = .next (s.mapDev (fun d =>
      if d.fab.mig.isSome then d
      else match if d.fab.migBad size.toNat then none else d.fab.freeFwd with
      | none => { d with fab := { d.fab with regs := { d.fab.regs with migErr := true } } }
      | some i =>
        { d with fab := { d.fab with
          fwd := Tab.set d.fab.fwd i { new := d.fab.regs.migDst, v := true, old := BitVec.ofNat 24 (d.fab.regs.migSrc.toNat / 0x10000)
                                       len := BitVec.ofNat 16 (size.toNat / 0x10000 - 1) }
          gone := if d.fab.regs.migDst.extractLsb' 42 10 == d.fab.regs.pkgId then
            cutRange d.fab.gone (d.fab.regs.migDst.extractLsb' 0 42).toNat ((d.fab.regs.migDst.extractLsb' 0 42).toNat + size.toNat) else d.fab.gone
          mig := some { entry := i, src := d.fab.regs.migSrc.toNat, dst := d.fab.regs.migDst.toNat, lines := size.toNat / 64, next := 0 }
          regs := { d.fab.regs with migErr := false } } })) := rfl
  have free : ¬ s.dev.fab.mig.isSome = true := by rw [idle]; decide
  refine eq.trans ((congrArg (fun d => Host.Outcome.next ({ s with dev := d } : State)) (if_neg free)).trans ?_)
  split <;> rfl

theorem exec_migrate_refused (idle : s.dev.fab.mig = none)
    (bad : size.toNat % 0x10000 ≠ 0 ∨ size.toNat = 0 ∨ 0x40000000 < size.toNat ∨ s.dev.fab.freeFwd = none) :
    exec (.migrate size) s = .next s.migRefused := by
  have no : (if s.dev.fab.migBad size.toNat then none else s.dev.fab.freeFwd) = none := by
    rcases bad with bad | bad | bad | full
    · exact if_pos (by simp [Fabric.migBad, bad])
    · exact if_pos (by simp [Fabric.migBad, bad])
    · exact if_pos (by simp [Fabric.migBad, bad])
    · rw [full, ite_self]
  rw [exec_migrate idle, no]

theorem exec_migrate_starts {i : Nat} (idle : s.dev.fab.mig = none) (free : s.dev.fab.freeFwd = some i) (whole : size.toNat % 0x10000 = 0)
    (some_ : 0 < size.toNat) (small : size.toNat ≤ 0x40000000) (src : s.dev.fab.regs.migSrc.toNat % 0x10000 = 0)
    (dst : s.dev.fab.regs.migDst.toNat % 0x10000 = 0) (away : s.dev.fab.regs.migDst.extractLsb' 42 10 ≠ s.dev.fab.regs.pkgId) :
    exec (.migrate size) s = .next (s.migStarted size i) := by
  have good : s.dev.fab.migBad size.toNat = false := by
    have large : decide (0x40000000 < size.toNat) = false := decide_eq_false (by omega)
    have zero : (size.toNat == 0) = false := beq_eq_false_iff_ne.mpr (by omega)
    simp [Fabric.migBad, whole, zero, src, dst, away, large]
  rw [exec_migrate idle, good, if_neg Bool.false_ne_true, free]

end

section
variable {d : Device} {m : Migration}

/-- A line that no die's cache holds leaves the directory, and no more changes. -/
theorem Device.purgeLine_absent {line : Nat} (absent : ∀ l ∈ d.cache, l.line ≠ line) : ∃ r, d.purgeLine line = { d with regions := r } := by
  have none : d.cache.filter (fun l => l.line == line) = [] := by
    rw [List.filter_eq_nil_iff]
    intro l here
    rw [beq_iff_eq]
    exact absent l here
  have evicts (xs : List (Nat × Nat × Bool)) (d : Device) : ∃ r, xs.foldl (fun d x => d.evictLine x.2.1 line) d = { d with regions := r } := by
    induction xs generalizing d with
    | nil => exact ⟨d.regions, rfl⟩
    | cons x xs ih => exact ih (d.evictLine x.2.1 line)
  unfold Device.purgeLine
  rw [none]
  exact evicts _ d

theorem Device.hbmByte_congr {e : Device} (fab : e.fab = d.fab) (mem : e.mem = d.mem) (remote : e.remote = d.remote) (a : Nat) :
    e.hbmByte a = d.hbmByte a := by
  simp only [Device.hbmByte, fab, mem, remote, Device.whereIs_congr fab]

/-- A line's bytes with what is spoiled of them, in another package. -/
def Device.lineAway (d : Device) (m : Migration) (bad : List Nat) : Mem :=
  let a := m.src + 64 * m.next
  bad.foldl (fun r i => r.setPoison (m.dst + 64 * m.next + i) 1) (d.remote.write (m.dst + 64 * m.next) ((List.range 64).map (fun i => d.hbmByte (a + i))))

theorem Device.read_lineAway (bad : List Nat) :
    (∀ i < 64, (d.lineAway m bad).read (m.dst + 64 * m.next + i) = d.hbmByte (m.src + 64 * m.next + i)) ∧
    ∀ a, a < m.dst + 64 * m.next ∨ m.dst + 64 * m.next + 64 ≤ a → (d.lineAway m bad).read a = d.remote.read a := by
  have read (a : Nat) : (d.lineAway m bad).read a =
      (d.remote.write (m.dst + 64 * m.next) ((List.range 64).map (fun i => d.hbmByte (m.src + 64 * m.next + i)))).read a := by
    have cells := (Mem.foldl_setPoison (bad.map (fun i => m.dst + 64 * m.next + i))
      (d.remote.write (m.dst + 64 * m.next) ((List.range 64).map (fun i => d.hbmByte (m.src + 64 * m.next + i))))).1
    rw [List.foldl_map] at cells
    unfold Device.lineAway
    simp only [Mem.read, cells]
  refine ⟨fun i inside => ?_, fun a away => ?_⟩
  · rw [read, Mem.read_write, List.length_map, List.length_range, if_pos (by omega), Nat.add_sub_cancel_left]
    simp [List.getD, inside]
  · rw [read, Mem.read_write_other _ (by rwa [List.length_map, List.length_range])]

/-- The fabric after the next line has been copied. -/
def Fabric.lineCopied (f : Fabric) (m : Migration) : Fabric :=
  if m.next + 1 = m.lines then { f with
    mig := none
    fwd := f.fwd.map (fun x => if x.1 == m.entry then (x.1, { x.2 with done := true }) else x) }
  else { f with mig := some { m with next := m.next + 1 } }

/-- The copy of a line to another package, from what stands once the caches and the shadows of it are gone. -/
theorem Device.copyLine_away {e : Device} (purged : (d.purgeLine ((m.src + 64 * m.next) / 64)).doomShadows ((m.src + 64 * m.next) / 0x10000) = e)
    (away : (m.dst + 64 * m.next) / 2 ^ 42 ≠ e.fab.regs.pkgId.toNat) (stands : e.hbmGone (m.src + 64 * m.next) = false) :
    ∃ bad, d.copyLine m = { e with remote := e.lineAway m bad, fab := e.fab.lineCopied m } := by
  refine ⟨(List.range 64).filter (fun i => e.hbmPoison (m.src + 64 * m.next + i)), ?_⟩
  unfold Device.copyLine Fabric.lineCopied
  dsimp only
  rw [purged]
  simp only [away, stands, Bool.false_eq_true, if_false]
  split <;> rfl

/-- What a purge of a line leaves that no cache holds. -/
theorem Device.purged_absent {line : Nat} (absent : ∀ l ∈ d.cache, l.line ≠ line) (g : Nat) :
    let e := (d.purgeLine line).doomShadows g
    e.mem = d.mem ∧ e.remote = d.remote ∧ e.fab = d.fab := by
  obtain ⟨r, purged⟩ := Device.purgeLine_absent absent
  rw [purged]
  exact ⟨rfl, rfl, rfl⟩

end

end Sys2Proof.Machine

namespace Sys2Proof.Proofs
open Sys2Proof.Machine Sys2Proof.Claims

/-- Settles O37: invalidations are queued and complete, migrations start, copy their lines and end. -/
theorem invalidationsAndMigrations : Obligations.InvalidationsAndMigrations := by
  unfold Obligations.InvalidationsAndMigrations
  intro len size s f lo
  refine ⟨fun room => ?_, fun full => ?_, exec_invalidationComplete_none, fun a b rest next => (exec_invalidationComplete next).1,
    fun a b rest next remote queues => ?_, exec_migrate_busy, fun idle bad => ?_, fun i idle free whole some_ small src dst away => ?_, fun none => ?_,
    fun m mig away stands _ absent => ?_⟩
  · exact ⟨_, congrArg (fun d => Host.Outcome.next ({ s with dev := d } : State)) (if_neg (Nat.not_le.mpr room)), rfl, rfl, rfl, rfl⟩
  · exact ⟨_, congrArg (fun d => Host.Outcome.next ({ s with dev := d } : State)) (if_pos full), rfl, rfl, rfl, rfl⟩
  · have free : ¬ s.Through a b := by
      rintro (⟨x, hx, through⟩ | ⟨c, hc, x, hx, abroad, through⟩)
      · rw [remote x hx] at through; cases through
      · rw [queues c hc x hx abroad] at through; cases through
    refine ⟨_, (exec_invalidationComplete next).2 free, rfl, rfl, rfl, ?_, fun c here => ?_⟩
    · show (s.cars.map (fun c => c.invalidate a b)).map (fun c => c.regs.s) = _
      rw [List.map_map]
      rfl
    · obtain ⟨x, -, rfl⟩ := List.mem_map.mp (show c ∈ s.cars.map (fun c => c.invalidate a b) from here)
      exact x.invalidate_forgets a b
  · exact ⟨_, exec_migrate_refused idle bad, rfl, idle, rfl, rfl⟩
  · refine ⟨_, _, exec_migrate_starts idle free whole some_ small src dst away, rfl, rfl, rfl, Tab.get_set_self _ _ _ _, rfl, rfl, rfl, ?_, ?_⟩
    · exact BitVec.toNat_ofNat ..
    · show (BitVec.ofNat 16 (size.toNat / 0x10000 - 1)).toNat + 1 = _
      rw [BitVec.toNat_ofNat]
      omega
  · show execMigrationLineCopy s = _
    unfold execMigrationLineCopy
    rw [none]
  · obtain ⟨mem, remote, fab⟩ := s.dev.purged_absent absent ((m.src + 64 * m.next) / 0x10000)
    generalize purged : (s.dev.purgeLine ((m.src + 64 * m.next) / 64)).doomShadows ((m.src + 64 * m.next) / 0x10000) = e at mem remote fab
    obtain ⟨bad, copies⟩ := Device.copyLine_away purged (by rw [fab]; exact away) ((Device.hbmGone_congr fab _).trans stands)
    have runs : exec .migrationLineCopy s = .next (s.mapDev (fun d => d.copyLine m)) := by
      show execMigrationLineCopy s = _
      unfold execMigrationLineCopy
      rw [show s.dev.fab.mig = some m from mig]
    obtain ⟨bytes, others⟩ := e.read_lineAway (m := m) bad
    simp only [Device.hbmByte_congr fab mem remote, remote] at bytes others
    refine ⟨_, runs.trans (congrArg (fun d => Host.Outcome.next ({ s with dev := d } : State)) copies), mem, rfl, rfl, bytes, others,
      fun more => congrArg Fabric.mig (if_neg more), fun last => ?_⟩
    have copied : e.fab.lineCopied m = _ := if_pos last
    refine ⟨congrArg Fabric.mig copied, fun x here mine => ?_⟩
    obtain ⟨y, -, rfl⟩ := List.mem_map.mp (show x ∈ _ from congrArg Fabric.fwd copied ▸ here)
    by_cases same : (y.1 == m.entry) = true
    · rw [if_pos same]
    · rw [if_neg same] at mine
      exact absurd (beq_iff_eq.mpr mine) same

end Sys2Proof.Proofs

namespace Sys2Proof.Machine
open Sys2Proof.Claims

/-! Bytes that come to a vector register (R180). -/

theorem natLE_lt (bs : List Byte) : natLE bs < 256 ^ bs.length := by
  induction bs with
  | nil => decide
  | cons b bs ih =>
    have := b.isLt
    rw [natLE, List.length_cons, Nat.pow_succ]
    omega

/-- A byte of what bytes stand for. -/
theorem natLE_byte (bs : List Byte) (k : Nat) : natLE bs / 256 ^ k % 256 = (bs.getD k 0#8).toNat := by
  induction bs generalizing k with
  | nil => simp [natLE]
  | cons b bs ih =>
    have := b.isLt
    cases k with
    | zero => rw [natLE, Nat.pow_zero, Nat.div_one, List.getD_cons_zero]; omega
    | succ k => rw [natLE, Nat.pow_succ', ← Nat.div_div_eq_div_mul, show (b.toNat + 256 * natLE bs) / 256 = natLE bs by omega, ih, List.getD_cons_succ]

/-- A byte of a number depends on the number below the next byte alone. -/
theorem byte_of_mod {x y j : Nat} (same : x % 256 ^ (j + 1) = y % 256 ^ (j + 1)) : x / 256 ^ j % 256 = y / 256 ^ j % 256 := by
  rw [← Nat.mod_mul_right_div_self, ← Nat.mod_mul_right_div_self, ← Nat.pow_succ, same]

theorem patchBytes_eq (i : Nat) (bs : List Byte) (x : Nat) :
    patchBytes i bs x = x % 256 ^ i + 256 ^ i * (natLE bs + 256 ^ bs.length * (x / 256 ^ (i + bs.length))) := by
  have pow (n : Nat) : 2 ^ (8 * n) = 256 ^ n := by rw [Nat.pow_mul]
  rw [patchBytes, pow, pow, Nat.pow_add]
  ring

/-- The bytes of a number with others in the place of some. -/
theorem patchBytes_byte (i : Nat) (bs : List Byte) (x j : Nat) : patchBytes i bs x / 256 ^ j % 256 =
    if i ≤ j ∧ j < i + bs.length then (bs.getD (j - i) 0#8).toNat else x / 256 ^ j % 256 := by
  rw [patchBytes_eq]
  have positive (n : Nat) : 0 < 256 ^ n := Nat.pow_pos (by decide)
  have above (y : Nat) : (x % 256 ^ i + 256 ^ i * y) / 256 ^ i = y := by
    rw [Nat.add_mul_div_left _ _ (positive i), Nat.div_eq_of_lt (Nat.mod_lt _ (positive i)), Nat.zero_add]
  by_cases below : j < i
  · obtain ⟨k, rfl⟩ : ∃ k, i = j + 1 + k := ⟨i - (j + 1), by omega⟩
    rw [if_neg (by omega)]
    refine byte_of_mod ?_
    rw [Nat.pow_add 256 (j + 1) k, Nat.mul_assoc, Nat.add_mul_mod_self_left, Nat.mod_mul_right_mod]
  · obtain ⟨k, rfl⟩ : ∃ k, j = i + k := ⟨j - i, by omega⟩
    rw [Nat.pow_add 256 i k, ← Nat.div_div_eq_div_mul, above]
    by_cases inside : k < bs.length
    · obtain ⟨l, same⟩ : ∃ l, bs.length = k + 1 + l := ⟨bs.length - (k + 1), by omega⟩
      rw [if_pos (by omega), Nat.add_sub_cancel_left, ← natLE_byte]
      refine byte_of_mod ?_
      rw [same, Nat.pow_add 256 (k + 1) l, Nat.mul_assoc, Nat.add_mul_mod_self_left]
    · obtain ⟨l, rfl⟩ : ∃ l, k = bs.length + l := ⟨k - bs.length, by omega⟩
      rw [if_neg (by omega), Nat.pow_add 256 bs.length l, ← Nat.div_div_eq_div_mul, Nat.add_mul_div_left _ _ (positive _),
        Nat.div_eq_of_lt (natLE_lt bs), Nat.zero_add, Nat.pow_add, ← Nat.div_div_eq_div_mul, ← Nat.div_div_eq_div_mul, ← Nat.div_div_eq_div_mul]

/-- A part of a vector register that has come. -/
theorem lane_patchBytes (i : Nat) (bs : List Byte) (x : VWord) {j : Nat} (inside : j < 4096) :
    lane .i8 (BitVec.ofNat 32768 (patchBytes i bs x.toNat)) j = if i ≤ j ∧ j < i + bs.length then (bs.getD (j - i) 0#8).toNat else lane .i8 x j := by
  have byte (y : Nat) : y / 2 ^ (ETy.i8.bits * j) % 2 ^ ETy.i8.bits = y / 256 ^ j % 256 := by
    rw [show ETy.i8.bits = 8 from rfl, Nat.pow_mul, show 2 ^ 8 = 256 from rfl]
  have small : 256 ^ (j + 1) ∣ 2 ^ 32768 := by
    rw [show (256 : Nat) = 2 ^ 8 from rfl, ← Nat.pow_mul]
    exact Nat.pow_dvd_pow 2 (by omega)
  rw [lane, lane, byte, byte, BitVec.toNat_ofNat, ← patchBytes_byte]
  exact byte_of_mod (Nat.mod_mod_of_dvd _ small)

end Sys2Proof.Machine

namespace Sys2Proof.Machine
open Sys2Proof.Claims

/-! Requests to other packages (R401, R414, R417). -/

section
variable {d : Device}

/-- Flits that leave change the ports and what has left, and no more. -/
theorem Device.sendFlits_eq (p pkg n : Nat) : ∃ ps os, d.sendFlits p pkg n = { d with fab := { d.fab with ports := ps }, outbox := os } := by
  induction n generalizing d with
  | zero => exact ⟨d.fab.ports, d.outbox, rfl⟩
  | succ n ih => exact ih (d := (d.mapPort p (fun x => x.keepFlit pkg)).emit [.flit p (d.fab.port p).txSeq])

/-- A packet that leaves changes the ports, FAB_STAT and what has left, and no more. -/
theorem Device.sendOut_eq (w : Way) (pkg n : Nat) (c : Bool) : ∃ ps stat os, d.sendOut w pkg n c = { d with
    fab := { d.fab with ports := ps, regs := { d.fab.regs with fabStat := stat } }, outbox := os } := by
  unfold Device.sendOut
  split
  next p _ =>
    cases c with
    | true =>
      obtain ⟨ps, os, sent⟩ := Device.sendFlits_eq (d := (d.noteWay (.go p ‹_›)).seal p) p pkg n
      exact ⟨ps, _, os, sent⟩
    | false =>
      obtain ⟨ps, os, sent⟩ := Device.sendFlits_eq (d := d.noteWay (.go p ‹_›)) p pkg n
      exact ⟨ps, _, os, sent⟩
  · exact ⟨_, _, _, rfl⟩

theorem Device.movedTo_none (none : d.fab.moved = []) (pa : BitVec 52) : d.movedTo pa = pa := by
  unfold Device.movedTo
  rw [none]
  rfl

theorem Device.homeTarget_away (none : d.fab.moved = []) {pa : BitVec 52} (away : pa.extractLsb' 42 10 ≠ d.fab.regs.pkgId) :
    d.homeTarget pa = .remote pa false := by
  unfold Device.homeTarget Device.decodePA
  rw [if_pos rfl, Device.movedTo_none none, if_neg away]

end

/-- The answer to a request reaches its producer, if it has one. -/
def State.answered (s : State) (flight : Option Nat) (f : Flight → Flight) : State :=
  match flight with
  | some n => s.mapCar (fun c => c.answer n s.now f)
  | none => s

section
variable {s t : State} {flight : Option Nat} {f : Flight → Flight} {g : Flight → Flight → Prop}

/-- An answer changes neither memory nor registers. -/
theorem State.answered_frame (n : Nat) : ((s.answered flight f).dropRemote n).dev.mem = s.dev.mem ∧
    ((s.answered flight f).dropRemote n).dev.remote = s.dev.remote ∧ ((s.answered flight f).dropRemote n).car.regs = s.car.regs := by
  cases flight <;> exact ⟨rfl, rfl, rfl⟩

theorem State.answered_spec (same : s.car.flight = t.car.flight) (now : s.now = t.now) (id : ∀ x, (f x).id = x.id)
    (good : ∀ x, g x { f x with eta := t.now }) : Answered t (s.answered flight f) flight g := by
  rintro n rfl x here mine
  refine ⟨{ f x with eta := s.now }, List.mem_map.mpr ⟨x, same ▸ here, if_pos (beq_iff_eq.mpr mine)⟩, (id x).trans mine, now, ?_⟩
  rw [now]
  exact good x

end

section
variable {s : State} {n : Nat} {q : Remote}

/-- The state after a request has left the package. -/
def State.departs (s : State) (q : Remote) : State :=
  s.mapDev (fun d => d.sendOut (s.dev.way q.pa q.confidential q.esc) (q.pa.extractLsb' 42 10).toNat q.op.flits q.confidential)

/-- What a request's way to its home leaves as it was. -/
theorem State.departs_frame (s : State) (q : Remote) : (s.departs q).car = s.car ∧ (s.departs q).peers = s.peers ∧ (s.departs q).now = s.now ∧
    (s.departs q).dev.mem = s.dev.mem ∧ (s.departs q).dev.remote = s.dev.remote ∧ (s.departs q).dev.fab.moved = s.dev.fab.moved ∧
    (s.departs q).dev.fab.regs.pkgId = s.dev.fab.regs.pkgId := by
  obtain ⟨ps, stat, os, sent⟩ := Device.sendOut_eq (d := s.dev) (s.dev.way q.pa q.confidential q.esc) (q.pa.extractLsb' 42 10).toNat q.op.flits
    q.confidential
  have is : s.departs q = { s with dev := { s.dev with
      fab := { s.dev.fab with ports := ps, regs := { s.dev.fab.regs with fabStat := stat } }, outbox := os } } :=
    congrArg (fun d => ({ s with dev := d } : State)) sent
  rw [is]
  exact ⟨rfl, rfl, rfl, rfl, rfl, rfl, rfl⟩

/-- A request that may perform goes its way. -/
theorem exec_remoteRequest (found : s.dev.fab.remote.find? (fun x => x.id == n) = some q) (mine : q.car = s.car.ref) (may : s.dev.mayPerform q = true)
    (none : s.dev.fab.moved = []) (away : q.pa.extractLsb' 42 10 ≠ s.dev.fab.regs.pkgId) : exec (.remoteRequest n) s = .next
      (match s.dev.way q.pa q.confidential q.esc with
      | .go p _ => if 2048 < (s.dev.fab.port p).replay.length + q.op.flits then s else ((s.departs q).performRemote q).dropRemote n
      | _ => ((s.departs q).remoteError q).dropRemote n) := by
  have focused (f : State → State) : (s.departs q).atCar q.car f = f (s.departs q) := if_pos mine.symm
  show execRemoteRequest n s = _
  unfold execRemoteRequest
  rw [found]
  dsimp only
  rw [may, Bool.not_true, if_neg Bool.false_ne_true, Device.movedTo_none none, if_neg away]
  have go := focused (fun s => s.performRemote q)
  have fail := focused (fun s => s.remoteError q)
  unfold State.departs at go fail ⊢
  generalize s.dev.way q.pa q.confidential q.esc = w at go fail ⊢
  cases w with
  | go p e => rw [go]
  | error => rw [fail]
  | noKey => rw [fail]

theorem exec_remoteRequest_waits (found : s.dev.fab.remote.find? (fun x => x.id == n) = some q) (no : s.dev.mayPerform q = false) :
    exec (.remoteRequest n) s = .next s := by
  show execRemoteRequest n s = _
  unfold execRemoteRequest
  rw [found]
  dsimp only
  rw [no]
  rfl

/-- MOVED keeps the line's new address and sends the request there (R417). -/
theorem exec_movedResponse (found : s.dev.fab.remote.find? (fun x => x.id == n) = some q) (new : BitVec 52) :
    exec (.movedResponse n new) s = .next (s.mapDev (fun d => { d with fab := { d.fab with
      moved := ((q.pa.toNat / 64, new.toNat / 64) :: d.fab.moved.filter (fun x => x.1 != q.pa.toNat / 64)).take 256
      remote := d.fab.remote.map (fun x => if x.id == n then
        { x with pa := BitVec.ofNat 52 (new.toNat / 64 * 64 + x.pa.toNat % 64) } else x) } })) := by
  show execMovedResponse n new s = _
  unfold execMovedResponse
  rw [found]

end

end Sys2Proof.Machine

namespace Sys2Proof.Machine
open Sys2Proof.Claims

/-! What requests do at their home (R414). -/

section
variable {u : State} {q : Remote} (still : u.dev.fab.moved = []) (away : q.pa.extractLsb' 42 10 ≠ u.dev.fab.regs.pkgId)
include still away

theorem State.performRemote_load {size : Nat} {sgn : Bool} (op : q.op = .load size sgn) : u.performRemote q =
    u.answered q.flight (Flight.withWord (loadedValue sgn size (u.dev.remote.readBytes q.pa.toNat size)) (u.dev.remote.anyPoison q.pa.toNat size)) := by
  unfold State.performRemote
  rw [op, Device.homeTarget_away still away]
  rfl

theorem State.performRemote_store {bs : List Byte} (op : q.op = .store bs) (noStash : ∀ c ∈ u.cars, c.eng.stash = []) : u.performRemote q =
    u.mapDev (fun d => { d with remote := d.remote.write q.pa.toNat bs }) := by
  unfold State.performRemote
  rw [op, Device.homeTarget_away still away]
  simp only [Device.readPhys, Bool.false_eq_true, if_false]
  rw [State.storeAt, State.snoop_of_noStash noStash]
  rfl

theorem State.performRemote_atomic {o : AtomicOp} {b c : Word} (op : q.op = .atomic o b c) (noStash : ∀ c ∈ u.cars, c.eng.stash = []) :
    let old := u.dev.remote.readWord q.pa.toNat
    u.performRemote q = (match o.result old b c with
      | some x => if u.dev.remote.anyPoison q.pa.toNat 8 && o.returns then u
        else u.mapDev (fun d => { d with remote := d.remote.write q.pa.toNat (bytesLE 8 x.toNat) })
      | none => u).answered q.flight (Flight.withWord old (u.dev.remote.anyPoison q.pa.toNat 8)) := by
  intro old
  unfold State.performRemote
  rw [op, Device.homeTarget_away still away]
  dsimp only
  have snoops : (if o.writes then u.snoop (some u.car.ref) none (.remote q.pa false) 8 else u) = u := by
    rw [State.snoop_of_noStash noStash, ite_self]
  have performs : u.performAtomic (some u.car.ref) none none q.ha o (.remote q.pa false) b c = (match o.result old b c with
      | some x => if u.dev.remote.anyPoison q.pa.toNat 8 && o.returns then u
        else u.mapDev (fun d => { d with remote := d.remote.write q.pa.toNat (bytesLE 8 x.toNat) })
      | none => u, { bytes := u.dev.remote.readBytes q.pa.toNat 8, poison := u.dev.remote.anyPoison q.pa.toNat 8 }) := by
    unfold State.performAtomic
    rw [snoops]
    simp only [Device.readPhys, Device.afterRead, Loaded.nat, State.mapDev, Bool.false_eq_true, if_false, Bool.or_false]
    rfl
  rw [performs]
  rfl

theorem State.performRemote_vload {parts : List (Nat × Nat × Nat)} {bits : Nat} (op : q.op = .vload parts bits) : u.performRemote q =
    u.answered q.flight (Flight.withBytes (parts.map (fun p => (p.1, u.dev.remote.readBytes (q.pa + BitVec.ofNat 52 p.2.1).toNat p.2.2))) bits
      (parts.any (fun p => u.dev.remote.anyPoison (q.pa + BitVec.ofNat 52 p.2.1).toNat p.2.2))) := by
  unfold State.performRemote
  rw [op, Device.homeTarget_away still away]
  simp only [Target.plus, Device.readPhys]
  refine (if_neg (by simp)).trans ?_
  rw [List.map_map, List.any_map]
  rfl

end

/-- The bytes of a word where it was written. -/
theorem stored_write (m : Mem) (a : Nat) (x : Word) : Stored m (m.write a (bytesLE 8 x.toNat)) a 8 x := by
  intro b
  rw [Mem.read_write, bytesLE_length]
  split
  · next inside =>
    rw [bytesLE_eq_map, getD_map_range, if_pos (by omega)]
    apply BitVec.eq_of_toNat_eq
    rw [byteAt, BitVec.extractLsb'_toNat, BitVec.toNat_ofNat, Nat.shiftRight_eq_div_pow, Nat.pow_mul]
  · rfl

section
variable {s : State} {q : Remote}

/-- An error response without a producer is pending, one with a producer poisons it (R134). -/
theorem State.remoteError_spec (s : State) (q : Remote) (own : s.car.place.spec = false) : (s.remoteError q).dev = s.dev ∧
    (q.flight = none → Async.uncorrectable q.ha ∈ (s.remoteError q).car.tr.pending) ∧
    Answered s (s.remoteError q) q.flight (fun f g => g.poison = true ∧ (f.onError = none → g.dest = f.dest.zeroed) ∧
      ∀ x p y, f.onError = some x → f.dest = .v p y → g.dest = .v p x) := by
  have eq : s.remoteError q = (match q.flight with
      | some n => s.answered (some n) Flight.failed
      | none => s.mapCar (fun c => c.pend (.uncorrectable q.ha))) := by
    unfold State.remoteError State.storeError
    rw [own]
    rfl
  rw [eq]
  cases flight : q.flight with
  | none => exact ⟨rfl, fun _ => mem_insertAsync.mpr (.inl rfl), nofun⟩
  | some n =>
    refine ⟨rfl, nofun, State.answered_spec rfl rfl (fun _ => rfl) fun f => ⟨rfl, fun all => ?_, fun x p y part dest => ?_⟩⟩
    · show (match f.onError, f.dest with | some x, .v p _ => Dest.v p x | _, d => d.zeroed) = _
      rw [all]
    · show (match f.onError, f.dest with | some x, .v p _ => Dest.v p x | _, d => d.zeroed) = _
      rw [part, dest]

theorem Flight.withWord_dest (x : Word) (poison : Bool) (f : Flight) : (f.withWord x poison).dest = wordCame x f.dest := by
  unfold Flight.withWord wordCame
  cases f.dest <;> rfl

/-- One part of a vector register comes (R180). -/
theorem Flight.withBytes_part (i bits : Nat) (bs : List Byte) (poison : Bool) {f : Flight} {p : Nat} {x : VWord} (dest : f.dest = .v p x) :
    ∃ y, (f.withBytes [(i, bs)] bits poison).dest = .v p y ∧
      ∀ j < 4096, lane .i8 y j = if i ≤ j ∧ j < i + bs.length then (bs.getD (j - i) 0#8).toNat else lane .i8 x j := by
  refine ⟨BitVec.ofNat 32768 (patchBytes i bs x.toNat), ?_, fun j inside => lane_patchBytes i bs x inside⟩
  unfold Flight.withBytes
  rw [dest]
  rfl

end

end Sys2Proof.Machine

namespace Sys2Proof.Proofs
open Sys2Proof.Machine Sys2Proof.Claims

/-- Settles O36: a request to another package performs at its home or ends with an error response, and a moved line is asked for anew. -/
theorem remoteRequestsPerform : Obligations.RemoteRequestsPerform := by
  unfold Obligations.RemoteRequestsPerform
  intro n new q s found mine ⟨_, noStash⟩ a
  refine ⟨⟨_, exec_movedResponse found new, rfl, rfl, rfl, rfl, fun x here named => ?_⟩, exec_remoteRequest_waits found, fun may still away => ⟨fun p e way => ⟨?_, ?_⟩, fun no own => ?_⟩⟩
  · obtain ⟨y, hy, rfl⟩ := List.mem_map.mp here
    have number : y.id = n := by
      by_cases same : (y.id == n) = true
      · exact beq_iff_eq.mp same
      · rwa [if_neg same] at named
    rw [if_pos (beq_iff_eq.mpr number)]
    refine ⟨y, hy, number, rfl, ?_⟩
    have := new.isLt
    show (BitVec.ofNat 52 (new.toNat / 64 * 64 + y.pa.toNat % 64)).toNat = _
    rw [BitVec.toNat_ofNat]
    omega
  · intro full
    rw [exec_remoteRequest found mine may still away, way]
    dsimp only
    rw [if_pos full]
  · intro room
    have runs : exec (.remoteRequest n) s = .next (((s.departs q).performRemote q).dropRemote n) := by
      rw [exec_remoteRequest found mine may still away, way]
      dsimp only
      rw [if_neg (by omega)]
    refine ⟨_, runs, ?_⟩
    obtain ⟨car, peers, now, mem, remote, moved, pkg⟩ := s.departs_frame q
    generalize s.departs q = u at car peers now mem remote moved pkg ⊢
    have still : u.dev.fab.moved = [] := moved.trans still
    have away : q.pa.extractLsb' 42 10 ≠ u.dev.fab.regs.pkgId := by rw [pkg]; exact away
    have noStash : ∀ c ∈ u.cars, c.eng.stash = [] := by rw [State.cars, car, peers]; exact noStash
    have gone (t : State) : ∀ x ∈ (t.dropRemote n).dev.fab.remote, x.id ≠ n := fun x here => bne_iff_ne.mp (List.mem_filter.mp here).2
    have answers {f : Flight → Flight} {g : Flight → Flight → Prop} (id : ∀ x, (f x).id = x.id) (good : ∀ x, g x { f x with eta := s.now }) :
        Answered s ((u.answered q.flight f).dropRemote n) q.flight g := State.answered_spec (congrArg Car.flight car) now id good
    rw [← remote, ← mem, ← congrArg Car.regs car]
    cases op : q.op with
    | load size sgn =>
      rw [State.performRemote_load still away op]
      obtain ⟨mem, remote, regs⟩ := u.answered_frame (flight := q.flight)
        (f := Flight.withWord (loadedValue sgn size (u.dev.remote.readBytes a size)) (u.dev.remote.anyPoison a size)) n
      exact ⟨mem, regs, gone _, remote, answers (fun _ => rfl) fun x => ⟨x.withWord_dest _ (u.dev.remote.anyPoison a size), rfl⟩⟩
    | store bs =>
      rw [State.performRemote_store still away op noStash]
      refine ⟨rfl, rfl, gone _, fun p => ?_⟩
      refine (Mem.read_write u.dev.remote a bs p).trans ?_
      split
      · next inside => simp [List.getD, List.getElem?_eq_getElem (show p - a < bs.length by omega)]
      · rfl
    | atomic o y c =>
      rw [State.performRemote_atomic still away op noStash]
      have performs : ∃ w : State, w = (match o.result (u.dev.remote.readWord a) y c with
          | some x => if u.dev.remote.anyPoison a 8 && o.returns then u
            else u.mapDev (fun d => { d with remote := d.remote.write a (bytesLE 8 x.toNat) })
          | none => u) ∧ w.dev.mem = u.dev.mem ∧ w.car = u.car ∧ w.now = u.now ∧ (u.dev.remote.anyPoison a 8 = false →
            match o.result (u.dev.remote.readWord a) y c with
            | some v => Stored u.dev.remote w.dev.remote a 8 v
            | none => w.dev.remote = u.dev.remote) := by
        refine ⟨_, rfl, ?_⟩
        cases o.result (u.dev.remote.readWord a) y c with
        | none => exact ⟨rfl, rfl, rfl, fun _ => rfl⟩
        | some v =>
          dsimp only
          split
          · next bad => exact ⟨rfl, rfl, rfl, fun clean => by rw [clean] at bad; cases bad⟩
          · exact ⟨rfl, rfl, rfl, fun _ => stored_write u.dev.remote a v⟩
      obtain ⟨w, is, memW, carW, nowW, written⟩ := performs
      dsimp only
      rw [← is]
      obtain ⟨mem, remote, regs⟩ := w.answered_frame (flight := q.flight)
        (f := Flight.withWord (u.dev.remote.readWord a) (u.dev.remote.anyPoison a 8)) n
      refine ⟨mem.trans memW, regs.trans (congrArg Car.regs carW), gone _, fun clean => ⟨?_, ?_⟩⟩
      · rw [remote]
        exact written clean
      · exact State.answered_spec (congrArg Car.flight (carW.trans car)) (nowW.trans now) (fun _ => rfl) fun x =>
          x.withWord_dest _ (u.dev.remote.anyPoison a 8)
    | vload parts bits =>
      rw [State.performRemote_vload still away op]
      obtain ⟨mem, remote, regs⟩ := u.answered_frame (flight := q.flight) (f := Flight.withBytes
        (parts.map (fun p => (p.1, u.dev.remote.readBytes (q.pa + BitVec.ofNat 52 p.2.1).toNat p.2.2))) bits
        (parts.any (fun p => u.dev.remote.anyPoison (q.pa + BitVec.ofNat 52 p.2.1).toNat p.2.2))) n
      refine ⟨mem, regs, gone _, remote, answers (fun _ => rfl) fun f p x i o m dest one fits => ?_⟩
      obtain ⟨y, comes, lanes⟩ := Flight.withBytes_part i bits (u.dev.remote.readBytes (q.pa + BitVec.ofNat 52 o).toNat m)
        (u.dev.remote.anyPoison (q.pa + BitVec.ofNat 52 o).toNat m || false) dest
      refine ⟨y, ?_, fun j inside => ?_⟩
      · rw [one]
        exact comes
      · rw [lanes j inside, Mem.readBytes, List.length_map, List.length_range, getD_map_range]
        by_cases here : i ≤ j ∧ j < i + m
        · rw [if_pos here, if_pos here, if_pos (by omega)]
        · rw [if_neg here, if_neg here]
  · have runs : exec (.remoteRequest n) s = .next (((s.departs q).remoteError q).dropRemote n) := by
      rw [exec_remoteRequest found mine may still away]
      rcases no with no | no <;> rw [no]
    obtain ⟨car, -, now, mem, remote, -, -⟩ := s.departs_frame q
    obtain ⟨dev, pends, answers⟩ := (s.departs q).remoteError_spec q (by rw [car]; exact own)
    refine ⟨_, runs, (congrArg Device.mem dev).trans mem, (congrArg Device.remote dev).trans remote,
      fun x here => bne_iff_ne.mp (List.mem_filter.mp here).2, pends, fun f flight x here same => ?_⟩
    obtain ⟨y, hy, rest⟩ := answers f flight x (by rw [car]; exact here) same
    rw [now] at rest
    exact ⟨y, hy, rest⟩

end Sys2Proof.Proofs

namespace Sys2Proof.Machine
open Sys2Proof.Claims

/-! Records of mapped queues (R357, R361, R362, R382). -/

section
variable {s : State} {q : BitVec 16} {k : Nat} {x : QSlot} {c : Ctx}

theorem exec_consumeRecord (mapped : s.dev.sig.slotOf q = some (k, x)) (fresh : x.failed = false) :
    exec (.consumeRecord q) s = .next (s.consider q) := by
  show execConsumeRecord q s = _
  unfold execConsumeRecord
  rw [mapped]
  dsimp only
  rw [fresh]
  rfl

theorem exec_recordReread (mapped : s.dev.sig.slotOf q = some (k, x)) (failed : x.failed = true) :
    exec (.recordReread q) s = .next (s.consider q) := by
  show execRecordReread q s = _
  unfold execRecordReread
  rw [mapped]
  dsimp only
  rw [failed]
  rfl

/-- A record is looked at by one of two events: the first after the other, the second after a failure (R361). -/
theorem exec_looks {i : Instr × Bool} (here : i ∈ [(Instr.consumeRecord q, false), (.recordReread q, true)]) :
    (s.dev.sig.slotOf q = none → exec i.1 s = .next s) ∧
    (s.dev.sig.slotOf q = some (k, x) → x.failed ≠ i.2 → exec i.1 s = .next s) ∧
    (s.dev.sig.slotOf q = some (k, x) → x.failed = i.2 → exec i.1 s = .next (s.consider q)) := by
  rcases List.mem_pair.mp here with rfl | rfl
  · refine ⟨fun none => ?_, fun mapped other => ?_, exec_consumeRecord⟩
    · show execConsumeRecord q s = _
      unfold execConsumeRecord
      rw [none]
    · show execConsumeRecord q s = _
      unfold execConsumeRecord
      rw [mapped]
      dsimp only
      rw [Bool.not_eq_false _ |>.mp other, if_pos rfl]
  · refine ⟨fun none => ?_, fun mapped other => ?_, exec_recordReread⟩
    · show execRecordReread q s = _
      unfold execRecordReread
      rw [none]
    · show execRecordReread q s = _
      unfold execRecordReread
      rw [mapped]
      dsimp only
      rw [Bool.not_eq_true _ |>.mp other, if_neg Bool.false_ne_true]

/-- Nothing of a queue may be consumed. -/
def State.Still (s : State) (x : QSlot) : Prop :=
  s.dev.sig.regs.enable = false ∨ s.dev.house.fw.pending = true ∨ x.unmapping = true ∨ x.head = x.tail

/-- The state after a look that fails (R357). -/
def State.lookFails (s : State) (q : BitVec 16) : State :=
  s.mapDev (fun d => (d.mapSlot q (fun y => { y with failed := true })).setDevStat 8#8)

/-- What a look at the head of a queue finds. -/
theorem State.consider_eq (mapped : s.dev.sig.slotOf q = some (k, x)) : (s.Still x → s.consider q = s) ∧
    (¬ s.Still x → s.consider q = match s.dev.ctx q with
      | .ok c =>
        if !c.sane then s.lookFails q
        else match s.dev.wordsVa (c.ring + 128 * (x.head.toNat % c.size)) 16 with
          | none => s.lookFails q
          | some r => if recSeq r = x.head then s.consume x c r else s.mapDev (fun d => d.mapSlot q (fun y => { y with failed := false }))
      | _ => s.lookFails q) := by
  have still : (!s.dev.sig.regs.enable || s.dev.house.fw.pending || x.unmapping || x.head == x.tail) = true ↔ s.Still x := by
    simp only [Bool.or_eq_true, Bool.not_eq_true', beq_iff_eq, State.Still, or_assoc]
  unfold State.consider
  rw [mapped]
  dsimp only
  exact ⟨fun yes => if_pos (still.mpr yes), fun no => if_neg (mt still.mp no)⟩

theorem State.lookFails_spec (mapped : s.dev.sig.slotOf q = some (k, x)) : Untouched s (s.lookFails q) ∧
    (s.lookFails q).dev.sig.services = s.dev.sig.services ∧ (s.lookFails q).dev.sig.regs.devStat = s.dev.sig.regs.devStat ||| 8#8 ∧
    (s.lookFails q).dev.sig.slotOf q = some (k, { x with failed := true }) :=
  ⟨⟨rfl, rfl, rfl⟩, rfl, rfl, Device.slotOf_mapSlot (f := fun y => { y with failed := true }) (fun _ => rfl) mapped⟩

/-- The service that a record makes (R362). -/
def State.serviceMade (s : State) (x : QSlot) (r : List Word) : Service :=
  let k := s.dev.check r
  let v : Service :=
    { q := x.q, seq := x.head, order := s.dev.sig.order, record := r, args := k.args, handles := k.entries.map handleOf
      image := k.image, err := k.err.map (fun e => (e, 0#9))
      count := if recInd r then none else some ((recCount r).extractLsb' 0 32)
      since := s.now, pri := recPri r }
  if v.err.isSome then { v with handles := [] } else v

theorem State.serviceMade_spec (s : State) (x : QSlot) (r : List Word) :
    let n := s.serviceMade x r
    n.q = x.q ∧ n.seq = x.head ∧ n.order = s.dev.sig.order ∧ n.record = r ∧ n.pri = recPri r ∧ n.placed = 0 ∧ n.finished = 0 ∧ n.ended = false ∧
      n.err = (s.dev.check r).err.map (fun e => (e, 0#9)) ∧ n.count = (if recInd r then none else some ((recCount r).extractLsb' 0 32)) ∧
      (n.err ≠ none → n.handles = []) ∧ (n.err = none → n.handles = (s.dev.check r).entries.map handleOf) := by
  unfold State.serviceMade
  dsimp only
  split
  · next failed => exact ⟨rfl, rfl, rfl, rfl, rfl, rfl, rfl, rfl, rfl, rfl, fun _ => rfl, fun fine => absurd fine (Option.isSome_iff_ne_none.mp failed)⟩
  · next fine =>
    exact ⟨rfl, rfl, rfl, rfl, rfl, rfl, rfl, rfl, rfl, rfl, fun some => absurd (Option.isSome_iff_ne_none.mpr some) fine, fun _ => rfl⟩

/-- The slot after its record has been consumed. -/
def QSlot.next (y : QSlot) (v : Service) : QSlot :=
  { y with head := y.head + 1#32, failed := false, hist := y.hist.learn v y.lhs, lhs := if v.err.isSome then y.lhs else some v.handles }

/-- The handle table after a service has taken its handles: it is the last writer of what it writes. -/
def noteWriter (handles : List (BitVec 12 × BitVec 2)) (name : Word) (t : Tab Bht) : Tab Bht :=
  handles.foldl (fun t h => if h.2.getLsbD 1 then Tab.set t h.1.toNat { Tab.get {} t h.1.toNat with lastw := name } else t) t

theorem noteWriter_lastw (name : Word) (handles : List (BitVec 12 × BitVec 2)) (t : Tab Bht) :
    ∀ h ∈ handles, h.2.getLsbD 1 = true → (Tab.get ({} : Bht) (noteWriter handles name t) h.1.toNat).lastw = name := by
  have stays (i : Nat) (hs : List (BitVec 12 × BitVec 2)) (t : Tab Bht) (named : (Tab.get ({} : Bht) t i).lastw = name) :
      (Tab.get ({} : Bht) (noteWriter hs name t) i).lastw = name := by
    induction hs generalizing t with
    | nil => exact named
    | cons h hs ih =>
      refine ih _ ?_
      dsimp only
      split
      · by_cases same : i = h.1.toNat
        · rw [same, Tab.get_set_self]
        · rw [Tab.get_set_other _ _ _ same]
          exact named
      · exact named
  induction handles generalizing t with
  | nil => exact fun h none => absurd none List.not_mem_nil
  | cons k ks ih =>
    intro h here writes
    rcases List.mem_cons.mp here with rfl | later
    · refine stays _ ks _ ?_
      dsimp only
      rw [if_pos writes, Tab.get_set_self]
    · exact ih _ h later writes

/-- What the device keeps of a consumed record. -/
def Device.consumed (d : Device) (x : QSlot) (v : Service) : Device :=
  let d := (d.meet v).mapSlot x.q (fun y => y.next v)
  d.mapSig (fun y => { y with order := y.order + 1, services := y.services ++ [v], bht := noteWriter v.handles (x.q.setWidth 32 ++ x.head) y.bht })

theorem State.consume_eq {u : State} {r : List Word} (head : s.writeVa (c.va + 24) (bytesLE 4 (x.head + 1#32).toNat) = some u) :
    s.consume x c r = (u.mapDev (fun d => d.consumed x (s.serviceMade x r))).adopt (s.serviceMade x r) := by
  unfold State.consume
  rw [head]
  rfl

theorem State.regs_mapCars (s : State) {f : Car → Car} (keeps : ∀ c, (f c).regs = c.regs) :
    (s.mapCars f).cars.map (fun a => a.regs) = s.cars.map (fun a => a.regs) := by
  show (s.cars.map f).map _ = _
  rw [List.map_map]
  exact List.map_congr_left fun a _ => keeps a

/-- Adoption changes classes alone (R392). -/
theorem State.adopt_keeps (s : State) (v : Service) : (s.adopt v).dev.mem = s.dev.mem ∧ (s.adopt v).cars.map (fun a => a.regs) = s.cars.map (fun a => a.regs) ∧
    (s.adopt v).dev.sig.services = s.dev.sig.services ∧ (s.adopt v).dev.sig.order = s.dev.sig.order ∧ (s.adopt v).dev.sig.bht = s.dev.sig.bht ∧
    (s.adopt v).dev.sig.slots = s.dev.sig.slots := by
  unfold State.adopt
  split
  · exact ⟨rfl, rfl, rfl, rfl, rfl, rfl⟩
  · split
    · exact ⟨rfl, rfl, rfl, rfl, rfl, rfl⟩
    · refine ⟨rfl, ?_, rfl, rfl, rfl, rfl⟩
      dsimp only
      refine State.regs_mapCars s (f := fun c => if s.dev.sig.consists.any (fun x => (x.spec && x.q == v.q && x.seq == v.seq) && x.holds c)
        then { c with ctl := { c.ctl with pri := recPri v.record } } else c) fun c => ?_
      split <;> rfl

/-- The write of the head leaves the queues as they were. -/
theorem State.writeVa_sig {u : State} {va : Nat} {bs : List Byte} (noStash : ∀ c ∈ s.cars, c.eng.stash = []) (made : s.writeVa va bs = some u) :
    u.car = s.car ∧ u.peers = s.peers ∧ u.now = s.now ∧ ∃ ps, u.dev.sig = { s.dev.sig with specs := ps } := by
  obtain ⟨t, rfl⟩ := State.writeVa_made noStash made
  obtain ⟨sig, now⟩ := s.dev.writePhys_sig_now t bs
  exact ⟨rfl, rfl, now, sig⟩

theorem History.learn_error (h : History) {v : Service} (lhs : Option (List (BitVec 12 × BitVec 2))) (failed : v.err ≠ none) :
    (h.learn v lhs).conf = 0#2 ∧ (h.learn v lhs).lrec = h.lrec := by
  have failed : v.err.isSome = true := Option.isSome_iff_ne_none.mpr failed
  unfold History.learn
  rw [failed]
  exact ⟨rfl, rfl⟩

theorem History.learn_service (h : History) {v : Service} (lhs : Option (List (BitVec 12 × BitVec 2))) (fine : v.err = none) :
    (h.learn v lhs).lrec = v.record ∧ (h.learn v lhs).lseq = v.seq ∧ (h.learn v lhs).valid = true := by
  unfold History.learn
  rw [fine]
  exact ⟨rfl, rfl, rfl⟩

end

/-! Indirect counts (R368). -/

section
variable {s : State} {q : BitVec 16} {seq : BitVec 32} {v : Service}

/-- The count of a service may be read: it stands in one of its handles, or every earlier service of the queue has ended. -/
def State.CountStands (s : State) (q : BitVec 16) (v : Service) : Prop :=
  (∃ h ∈ v.handles, (Tab.get ({} : Bht) s.dev.sig.bht h.1.toNat).base.toNat ≤ (recCount v.record).toNat ∧
    (recCount v.record).toNat + 4 ≤ (Tab.get ({} : Bht) s.dev.sig.bht h.1.toNat).base.toNat + (Tab.get ({} : Bht) s.dev.sig.bht h.1.toNat).len.toNat) ∨
  ∀ u ∈ s.dev.sig.services, u.q = q → u.order < v.order → u.ended = true

theorem exec_countRead (found : s.dev.sig.services.find? (fun u => u.q == q && u.seq == seq) = some v) :
    (v.count ≠ none ∨ v.err ≠ none ∨ s.dev.sig.atHead v = false ∨ s.dev.sig.heldBack v = true ∨ ¬ s.CountStands q v → exec (.countRead q seq) s = .next s) ∧
    (v.count = none → v.err = none → s.dev.sig.atHead v = true → s.dev.sig.heldBack v = false → s.CountStands q v →
      exec (.countRead q seq) s = .next (match s.dev.readVa (recCount v.record).toNat 4 with
        | some bs => s.mapService q seq (fun v => { v with count := some (BitVec.ofNat 32 (natLE bs)), since := s.now })
        | none => s.mapService q seq (fun v => { v with err := some (5#8, 0#9) }))) := by
  have stands : (s.dev.countInHandle v || s.dev.sig.services.all (fun u => u.q != q || decide (v.order ≤ u.order) || u.ended)) = true ↔
      s.CountStands q v := by
    simp only [Bool.or_eq_true, Device.countInHandle, List.any_eq_true, List.all_eq_true, decide_eq_true_eq, bne_iff_ne, State.CountStands]
    refine or_congr Iff.rfl (forall₂_congr fun u _ => ?_)
    rw [or_assoc, or_iff_not_imp_left, not_not, or_iff_not_imp_left, Nat.not_le]
  have eq : exec (.countRead q seq) s = .next (if v.count.isSome || v.err.isSome || !s.dev.sig.atHead v || s.dev.sig.heldBack v ||
      !(s.dev.countInHandle v || s.dev.sig.services.all (fun u => u.q != q || decide (v.order ≤ u.order) || u.ended)) then s
      else match s.dev.readVa (recCount v.record).toNat 4 with
        | some bs => s.mapService q seq (fun v => { v with count := some (BitVec.ofNat 32 (natLE bs)), since := s.now })
        | none => s.mapService q seq (fun v => { v with err := some (5#8, 0#9) })) := by
    show execCountRead q seq s = _
    unfold execCountRead
    rw [found] <;> rfl
  rw [eq]
  refine ⟨fun waits => ?_, fun count err head free may => ?_⟩
  · rw [if_pos]
    simp only [Bool.or_eq_true, Bool.not_eq_true', Option.isSome_iff_ne_none]
    rcases waits with count | err | head | held | no
    · exact .inl (.inl (.inl (.inl count)))
    · exact .inl (.inl (.inl (.inr err)))
    · exact .inl (.inl (.inr head))
    · exact .inl (.inr held)
    · exact .inr (Bool.eq_false_iff.mpr (mt stands.mp no))
  · refine congrArg Host.Outcome.next (if_neg ?_)
    rw [count, err, head, free, stands.mpr may]
    decide

end

end Sys2Proof.Machine

namespace Sys2Proof.Proofs
open Sys2Proof.Machine Sys2Proof.Claims

/-- A published record is consumed (R362). -/
theorem recordConsumed {s u : State} {q : BitVec 16} {k : Nat} {x : QSlot} {c : Ctx} {w : List Word} (mapped : s.dev.sig.slotOf q = some (k, x))
    (noStash : NoStash s) (head : s.writeVa (c.va + 24) (bytesLE 4 (x.head + 1#32).toNat) = some u) : ∃ y n,
      let t := s.consume x c w
      t.dev.mem = u.dev.mem ∧ t.cars.map (fun a => a.regs) = s.cars.map (fun a => a.regs) ∧
      t.dev.sig.services = s.dev.sig.services ++ [n] ∧ t.dev.sig.order = s.dev.sig.order + 1 ∧ n.q = q ∧ n.seq = x.head ∧
      n.order = s.dev.sig.order ∧ n.record = w ∧ n.pri = recPri w ∧ n.placed = 0 ∧ n.finished = 0 ∧ n.ended = false ∧
      n.err = (s.dev.check w).err.map (fun e => (e, 0#9)) ∧
      n.count = (if recInd w then none else some ((recCount w).extractLsb' 0 32)) ∧
      (n.err ≠ none → n.handles = []) ∧
      (n.err = none → n.handles = (s.dev.check w).entries.map (fun e => (e.extractLsb' 0 12, e.extractLsb' 12 2)) ∧
        ∀ h ∈ n.handles, h.2.getLsbD 1 = true → (Tab.get ({} : Bht) t.dev.sig.bht h.1.toNat).lastw = q.setWidth 32 ++ x.head) ∧
      t.dev.sig.slotOf q = some (k, y) ∧ y.head = x.head + 1#32 ∧ y.tail = x.tail ∧ y.failed = false ∧
      (n.err = none → y.hist.lrec = w ∧ y.hist.lseq = x.head ∧ y.hist.valid = true) ∧
      (n.err ≠ none → y.hist.conf = 0#2 ∧ y.hist.lrec = x.hist.lrec) := by
  have own : x.q = q := by simpa using List.find?_some mapped
  obtain ⟨car, peers, -, ps, sig⟩ := State.writeVa_sig noStash.2 head
  obtain ⟨nq, nseq, norder, nrecord, npri, nplaced, nfinished, nended, nerr, ncount, none, handles⟩ := s.serviceMade_spec x w
  generalize is : s.serviceMade x w = n at *
  obtain ⟨mem, regs, services, order, bht, slots⟩ := (u.mapDev (fun d => d.consumed x n)).adopt_keeps n
  have still : (u.dev.meet n).sig.slotOf x.q = some (k, x) := by
    rw [own]
    show (u.dev.sig.slots.find? _) = _
    rw [sig]
    exact mapped
  have slot : ((u.dev.meet n).mapSlot x.q (fun y => y.next n)).sig.slotOf x.q = some (k, x.next n) :=
    Device.slotOf_mapSlot (f := fun y => y.next n) (fun _ => rfl) still
  refine ⟨x.next n, n, ?_⟩
  dsimp only
  rw [State.consume_eq head, is]
  refine ⟨mem, ?_, ?_, ?_, nq.trans own, nseq, norder, nrecord, npri, nplaced, nfinished, nended, nerr, ncount, none, fun fine => ⟨handles fine, fun h here writes => ?_⟩,
    ?_, rfl, rfl, rfl, fun fine => ?_, fun failed => x.hist.learn_error x.lhs failed⟩
  · rw [regs]
    show (u.car :: u.peers).map _ = (s.car :: s.peers).map _
    rw [car, peers]
  · rw [services]
    show u.dev.sig.services ++ [n] = _
    rw [sig]
  · rw [order]
    show u.dev.sig.order + 1 = _
    rw [sig]
  · rw [bht, ← own]
    exact noteWriter_lastw _ n.handles _ h here writes
  · show List.find? _ _ = _
    rw [slots, ← own]
    exact slot
  · obtain ⟨lrec, lseq, valid⟩ := x.hist.learn_service x.lhs fine
    exact ⟨lrec.trans nrecord, lseq.trans nseq, valid⟩

/-- Settles O41: what a look at the head of a queue finds and does, and the reading of an indirect count. -/
theorem recordsAreConsumedInOrder : Obligations.RecordsAreConsumedInOrder := by
  unfold Obligations.RecordsAreConsumedInOrder
  intro q k c x seq v s r bad
  refine ⟨fun i here => ?_, fun none => ?_, fun found => ?_⟩
  · obtain ⟨unmapped, other, looks⟩ := exec_looks (s := s) (k := k) (x := x) here
    refine ⟨unmapped, other, fun mapped still => ?_, fun mapped turn enable calm stays some_ => ⟨fun no => ?_, fun ctx no => ?_,
      fun w ctx low high words => ⟨fun unpublished => ?_, fun u published noStash head => ?_⟩⟩⟩
    · by_cases turn : x.failed = i.2
      · rw [looks mapped turn, (State.consider_eq mapped).1 still]
      · exact other mapped turn
    all_goals
      have moves : ¬ s.Still x := by
        rintro (no | no | no | no)
        · rw [show s.dev.sig.regs.enable = true from enable] at no; cases no
        · rw [calm] at no; cases no
        · rw [stays] at no; cases no
        · exact some_ no
      have runs := (looks mapped turn).trans (congrArg Host.Outcome.next ((State.consider_eq mapped).2 moves))
    · refine ⟨s.lookFails q, runs.trans ?_, State.lookFails_spec mapped⟩
      rcases no with no | no <;> rw [no]
    · refine ⟨s.lookFails q, runs.trans ?_, State.lookFails_spec mapped⟩
      rw [ctx]
      dsimp only
      by_cases sane : c.sane = true
      · obtain ⟨low, high⟩ := Ctx.sane_iff.mp sane
        have unread : s.dev.wordsVa (c.ring + 128 * (x.head.toNat % c.size)) 16 = none := by
          rcases no with no | no | no
          · omega
          · omega
          · exact no
        rw [sane, unread]
        rfl
      · rw [Bool.not_eq_true _ |>.mp sane]
        rfl
    · refine ⟨s.mapDev (fun d => d.mapSlot q (fun y => { y with failed := false })), runs.trans ?_, ⟨rfl, rfl, rfl⟩, rfl,
        Device.slotOf_mapSlot (f := fun y => { y with failed := false }) (fun _ => rfl) mapped⟩
      rw [ctx]
      dsimp only
      rw [Ctx.sane_iff.mpr ⟨low, high⟩, show s.dev.wordsVa (c.ring + 128 * (x.head.toNat % c.size)) 16 = some w from words]
      exact congrArg Host.Outcome.next (if_neg unpublished)
    · obtain ⟨y, n, consumed⟩ := recordConsumed (c := c) (w := w) mapped noStash head
      refine ⟨s.consume x c w, y, n, runs.trans ?_, consumed⟩
      rw [ctx]
      dsimp only
      rw [Ctx.sane_iff.mpr ⟨low, high⟩, show s.dev.wordsVa (c.ring + 128 * (x.head.toNat % c.size)) 16 = some w from words]
      exact congrArg Host.Outcome.next (if_pos published)
  · show execCountRead q seq s = _
    unfold execCountRead
    rw [none]
  · obtain ⟨waits, reads⟩ := exec_countRead found
    refine ⟨fun no => waits ?_, fun count err head free may => ?_⟩
    · rcases no with no | no | no | no | ⟨out, early⟩
      · exact .inl no
      · exact .inr (.inl no)
      · exact .inr (.inr (.inl no))
      · exact .inr (.inr (.inr (.inl no)))
      · exact .inr (.inr (.inr (.inr (not_or.mpr ⟨out, early⟩))))
    · have runs := reads count err head free may
      cases bytes : s.dev.readVa (recCount v.record).toNat 4 with
      | none =>
        rw [bytes] at runs
        exact ⟨_, runs, ⟨rfl, rfl, rfl⟩, _, find_mapService (fun _ => ⟨rfl, rfl⟩) found, fun _ => ⟨rfl, count⟩, nofun⟩
      | some bs =>
        rw [bytes] at runs
        refine ⟨_, runs, ⟨rfl, rfl, rfl⟩, _, find_mapService (fun _ => ⟨rfl, rfl⟩) found, nofun, fun bs' same => ?_⟩
        cases same
        exact ⟨err, rfl⟩

end Sys2Proof.Proofs

namespace Sys2Proof.Machine
open Sys2Proof.Claims

/-! What writes of memory leave of a device: everything but the memories, the caches with their directory, the speculations, the error counters and
the debug blocks. -/

/-- A device without what accesses to memory may change. -/
def Device.rest (d : Device) : Device :=
  { d with mem := {}, remote := {}, latent := [], cache := [], regions := [], house := {}, debug := [], sig := { d.sig with specs := [], spec := {} } }

section
variable (d : Device)

theorem Device.rest_foldl {α : Type} {f : Device → α → Device} (keeps : ∀ d x, (f d x).rest = d.rest) (xs : List α) : (xs.foldl f d).rest = d.rest := by
  induction xs generalizing d with
  | nil => rfl
  | cons x xs ih => exact (ih (f d x)).trans (keeps d x)

theorem Device.rest_hbmPut (a : Nat) (b : Byte) : (d.hbmPut a b).rest = d.rest := by
  unfold Device.hbmPut
  split <;> rfl

theorem Device.rest_hbmWrite (a : Nat) (bs : List Byte) : (d.hbmWrite a bs).rest = d.rest := by
  unfold Device.hbmWrite
  split
  · rfl
  · exact d.rest_foldl (f := fun d (p : Byte × Nat) => d.hbmPut (a + p.2) p.1) (fun d p => d.rest_hbmPut _ _) _

theorem Device.rest_hbmSpoil (a : Nat) : (d.hbmSpoil a).rest = d.rest := by
  unfold Device.hbmSpoil
  split <;> rfl

theorem Device.rest_watched (me : Option (BitVec 16 × BitVec 32)) (pa n : Nat) : (d.watched me pa n).rest = d.rest := rfl

theorem Device.rest_writeBack (die line : Nat) : (d.writeBack die line).rest = d.rest := by
  unfold Device.writeBack
  split
  · rfl
  · next l _ =>
    refine Eq.trans (Device.rest_foldl _ (fun d i => ?_) (List.range 64)) (Device.rest_foldl d (fun d p => d.rest_hbmWrite p.1 [p.2]) l.dirtyBytes)
    split
    · exact d.rest_hbmSpoil _
    · rfl

theorem Device.rest_flushLine (die line : Nat) : (d.flushLine die line).rest = d.rest := by
  unfold Device.flushLine
  split
  · split
    · rfl
    · exact d.rest_writeBack die line
  · rfl

theorem Device.rest_makeRoom (die : Nat) : (d.makeRoom die).rest = d.rest := by
  unfold Device.makeRoom
  split
  · rfl
  · split
    · exact d.rest_flushLine die _
    · rfl
    · rfl

theorem Device.rest_cacheFill (die line : Nat) : (d.cacheFill die line).rest = d.rest := by
  unfold Device.cacheFill
  split
  · rfl
  · exact d.rest_makeRoom die

theorem Device.rest_cacheStores (die : Nat) (bs : List Byte) : ∀ (d : Device) (pa : Nat), (d.cacheStores die pa bs).rest = d.rest := by
  induction bs with
  | nil => exact fun _ _ => rfl
  | cons b bs ih => exact fun d pa => (ih (d.cacheStore die pa b) (pa + 1)).trans (d.rest_cacheFill die (pa / 64))

theorem Device.rest_touch (die pa n : Nat) (write : Bool) : (d.touch die pa n write).rest = d.rest := by
  unfold Device.touch
  split
  · rfl
  · exact d.rest_foldl (f := fun d i => d.touchLine die write (pa / 64 + i)) (fun _ _ => rfl) _

theorem Device.rest_writePhys (spec : Option Speculation) (die : Option Nat) (t : Target) (bs : List Byte) : (d.writePhys spec die t bs).rest = d.rest := by
  unfold Device.writePhys
  split
  · dsimp only
    split
    · split <;> rfl
    · split
      · exact Device.rest_cacheStores _ _ d _
      · exact ((Device.rest_watched _ none _ _).trans (Device.rest_touch _ _ _ _ _)).trans (d.rest_hbmWrite _ _)
      · exact (Device.rest_watched _ none _ _).trans (d.rest_hbmWrite _ _)
  · rfl
  · rfl
  · rfl

theorem Device.rest_spoilAt (spec : Option Speculation) (die : Option Nat) (t : Target) : (d.spoilAt spec die t).rest = d.rest := by
  unfold Device.spoilAt
  split
  · split
    · rfl
    · split
      · rfl
      · exact d.rest_hbmSpoil _
  · rfl
  · rfl
  · rfl

theorem Device.rest_noteForeign (c : Car) (m : Stash) (gs : List Nat) : (d.noteForeign c m gs).rest = d.rest := by
  unfold Device.noteForeign
  dsimp only
  split <;> rfl

/-- A byte that goes home, poisoned or not. -/
theorem Device.rest_marked (spec : Option Speculation) (die : Option Nat) (t : Target) (b : Byte) (bad : Prop) [Decidable bad] :
    Device.rest (if bad then (d.writePhys spec die t [b]).spoilAt spec die t else d.writePhys spec die t [b]) = d.rest := by
  split
  · exact (Device.rest_spoilAt _ _ _ _).trans (d.rest_writePhys _ _ _ _)
  · exact d.rest_writePhys _ _ _ _

end

theorem State.rest_foldl {α : Type} {f : State → α → State} (keeps : ∀ s x, (f s x).dev.rest = s.dev.rest) (xs : List α) (s : State) :
    (xs.foldl f s).dev.rest = s.dev.rest := by
  induction xs generalizing s with
  | nil => rfl
  | cons x xs ih => exact (ih (f s x)).trans (keeps s x)

/-- Stash granules that a foreign write reaches go home (R308). -/
theorem State.rest_snoopN (k : Nat) : ∀ (me : Option CarRef) (spec : Option Speculation) (t : Target) (n : Nat) (s : State),
    (State.snoopN k me spec t n s).dev.rest = s.dev.rest := by
  induction k with
  | zero => exact fun _ _ _ _ _ => rfl
  | succ k ih =>
    intro me spec t n s
    unfold State.snoopN
    split
    · rfl
    · refine State.rest_foldl (fun s c => State.rest_foldl (fun s m => ?_) _ s) _ s
      split
      · rfl
      · split
        · rfl
        · split
          · rfl
          · refine Eq.trans (State.rest_foldl (fun s p => ?_) _ _) (s.dev.rest_noteForeign _ _ _)
            split
            · rfl
            · exact (Device.rest_marked _ _ _ _ _ _).trans (ih _ _ _ _ s)

theorem State.rest_storeAt (s : State) (me : Option CarRef) (spec : Option Speculation) (die : Option Nat) (t : Target) (bs : List Byte) :
    (s.storeAt me spec die t bs).dev.rest = s.dev.rest :=
  (Device.rest_writePhys _ _ _ _ _).trans (State.rest_snoopN _ _ _ _ _ _)

theorem State.rest_writeVa {s u : State} {va : Nat} {bs : List Byte} (made : s.writeVa va bs = some u) : u.dev.rest = s.dev.rest := by
  unfold State.writeVa at made
  split at made
  · cases made
  · cases made
  · split at made
    · cases made
    · cases made
      exact State.rest_storeAt _ _ _ _ _ _

/-! What stands, by name. -/

section
variable {d e : Device} (same : e.rest = d.rest)
include same

theorem Device.services_of_rest : e.sig.services = d.sig.services := (congrArg (fun d : Device => d.sig.services) same :)

theorem Device.outbox_of_rest : e.outbox = d.outbox := (congrArg Device.outbox same :)

theorem Device.tstamp_of_rest (die : Nat) : e.tstamp die = d.tstamp die := (congrArg (fun d : Device => d.tstamp die) same :)

end

end Sys2Proof.Machine

namespace Sys2Proof.Machine
open Sys2Proof.Claims

/-! Cars finish and consists complete (R147, R289). -/

section
variable {s : State} {x : Consist}

theorem State.spent_iff (c : Car) : s.spent c = true ↔ c.life = .halted ∧ c.eng.copies = [] ∧ c.eng.ranges = [] ∧ c.eng.unmaps = [] ∧
    c.eng.releases = [] ∧ s.writesOut c = false ∧ ∀ y ∈ s.dev.streams, y.car ≠ c.ref := by
  simp only [State.spent, Bool.and_eq_true, beq_iff_eq, List.isEmpty_iff, Bool.not_eq_true', List.any_eq_false, and_assoc]

/-- The state after the focused car has finished, if nothing of it is outstanding. -/
def State.carEnds (s : State) : State := if s.spent s.car then s.mapCar (fun c => { c with life := .finished }) else s

theorem State.carEnds_frame (s : State) : s.carEnds.dev = s.dev ∧ s.carEnds.cars.map (fun c => c.regs) = s.cars.map (fun c => c.regs) ∧
    s.carEnds.car.ref = s.car.ref ∧ s.carEnds.consistOf s.carEnds.car = s.consistOf s.car := by
  unfold State.carEnds
  split <;> exact ⟨rfl, rfl, rfl, rfl⟩

theorem exec_carFinish : exec (.carFinish s.car.ref) s = .next (match s.consistOf s.car with
    | some x => s.carEnds.consistEnds x
    | none => s.carEnds) := by
  obtain ⟨-, -, ref, consist⟩ := s.carEnds_frame
  have focused : s.atCar s.car.ref (fun s => if s.spent s.car then s.mapCar (fun k => { k with life := .finished }) else s) = s.carEnds := if_pos rfl
  have found : s.carEnds.find s.car.ref = some s.carEnds.car := List.find?_cons_of_pos (beq_iff_eq.mpr ref)
  show execCarFinish s.car.ref s = _
  unfold execCarFinish
  dsimp only
  rw [focused, found, Option.bind_some, consist] <;> rfl

/-- Every car of a consist has finished. -/
def State.AllFinished (s : State) (x : Consist) : Prop :=
  x.released = true ∧ (s.cars.filter x.holds).length = x.image.consist ∧ ∀ c ∈ s.cars, x.holds c = true → c.life = .finished

/-- The state without a consist, its cores and its lines free. -/
def State.without (s : State) (x : Consist) : State :=
  ((s.letGo x.holds).mapCars (fun c => if x.holds c then c.leaveCore else c)).mapDev (fun d =>
    (d.mapSig (fun y => { y with consists := y.consists.filter (fun z => !z.same x) })).sweepSets)

theorem State.consistEnds_eq (s : State) (x : Consist) : (¬ s.AllFinished x → s.consistEnds x = s) ∧ (s.AllFinished x → s.consistEnds x =
    if x.spec then (s.without x).mapDev (fun d => d.mapSpec x.q x.seq (fun p => { p with svc := { p.svc with finished := p.svc.finished + 1 } }))
    else (s.without x).mapService x.q x.seq (fun v => { v with finished := v.finished + 1 })) := by
  have all : (!x.released || (s.cars.filter x.holds).length != x.image.consist || !(s.cars.filter x.holds).all (fun c => c.life == .finished)) = false ↔
      s.AllFinished x := by
    simp only [Bool.or_eq_false_iff, Bool.not_eq_false', bne_eq_false_iff_eq, List.all_eq_true, List.mem_filter, beq_iff_eq, and_imp, and_assoc,
      State.AllFinished]
  unfold State.consistEnds
  exact ⟨fun no => if_pos (by rw [← Bool.not_eq_false, all]; exact no), fun yes => (if_neg (by rw [all.mpr yes]; decide)).trans rfl⟩

theorem State.without_frame (s : State) (x : Consist) : (s.without x).dev.mem = s.dev.mem ∧
    (s.without x).cars = s.cars.map (fun c => if x.holds c then c.leaveCore else c) ∧
    (s.without x).dev.sig.consists = s.dev.sig.consists.filter (fun z => !z.same x) ∧
    (s.without x).dev.sig.services = s.dev.sig.services := ⟨rfl, rfl, rfl, rfl⟩

theorem State.mapService_frame (s : State) (q : BitVec 16) (seq : BitVec 32) (f : Service → Service) : (s.mapService q seq f).dev.mem = s.dev.mem ∧
    (s.mapService q seq f).cars = s.cars ∧ (s.mapService q seq f).dev.sig.consists = s.dev.sig.consists ∧
    (s.mapService q seq f).dev.sig.services = s.dev.sig.services.map (fun y => if y.q == q && y.seq == seq then f y else y) := ⟨rfl, rfl, rfl, rfl⟩

theorem State.mapSpec_frame (s : State) (q : BitVec 16) (seq : BitVec 32) (f : Speculation → Speculation) :
    (s.mapDev (fun d => d.mapSpec q seq f)).dev.mem = s.dev.mem ∧ (s.mapDev (fun d => d.mapSpec q seq f)).cars = s.cars ∧
    (s.mapDev (fun d => d.mapSpec q seq f)).dev.sig.consists = s.dev.sig.consists ∧
    (s.mapDev (fun d => d.mapSpec q seq f)).dev.sig.services = s.dev.sig.services := ⟨rfl, rfl, rfl, rfl⟩

theorem Consist.holds_leaveCore (c : Car) : x.holds (if x.holds c then c.leaveCore else c) = false := by
  split
  · exact Bool.and_false _
  · next no => exact Bool.eq_false_iff.mpr no

end

end Sys2Proof.Machine

namespace Sys2Proof.Machine
open Sys2Proof.Claims

/-! Services complete (R288, R366, R374 to R377). -/

theorem Device.rest_flushHandles (d : Device) (v : Service) : (d.flushHandles v).rest = d.rest :=
  d.rest_foldl (f := fun d (l : CacheLine) => d.flushLine l.die l.line) (fun d l => d.rest_flushLine l.die l.line) _

theorem State.rest_faultContext (s : State) (v : Service) : (s.faultContext v).dev.rest = s.dev.rest := by
  unfold State.faultContext
  split
  · split
    · next c _ _ _ ws _ =>
      cases made : s.writeVa (c.va + 32) (wordBytes ((History.ofWords ws).fault v).words) with
      | none => rfl
      | some u => exact State.rest_writeVa made
    · rfl
  · rfl

section
variable {s : State} {q : BitVec 16} {seq : BitVec 32} {v : Service}

/-- Every consist of a service has completed, or it has an error and no consist is left (R374). -/
def State.Done (s : State) (v : Service) : Prop :=
  (v.err ≠ none ∧ ∀ c ∈ s.dev.sig.consists, c.q = v.q → c.seq = v.seq → c.spec = true) ∨ ∃ n, v.count = some n ∧ n.toNat ≤ v.finished

/-- What an aborted car of a service issued has still to perform (R288, R366). -/
def State.Left (s : State) (v : Service) : Prop :=
  ∃ c ∈ s.cars, c.place.spec = false ∧ c.ident.serviceId = v.q.setWidth 32 ++ v.seq ∧ c.life = .idle ∧ (c.eng.posted ≠ [] ∨
    c.eng.queue ≠ [] ∨ c.eng.copies ≠ [] ∨ ∃ r ∈ s.dev.fab.remote, r.car = c.ref)

theorem State.over_iff : s.dev.sig.over v = true ↔ s.Done v := by
  have count : (match v.count with | some n => decide (n.toNat ≤ v.finished) | none => false) = true ↔ ∃ n, v.count = some n ∧ n.toNat ≤ v.finished := by
    cases v.count with
    | none => exact ⟨nofun, fun ⟨n, no, _⟩ => nomatch no⟩
    | some n => exact ⟨fun yes => ⟨n, rfl, of_decide_eq_true yes⟩, fun ⟨m, same, yes⟩ => by cases same; exact decide_eq_true yes⟩
  have ends : (v.err.isSome && !s.dev.sig.consists.any (fun c => c.q == v.q && c.seq == v.seq && !c.spec)) = true ↔
      v.err ≠ none ∧ ∀ c ∈ s.dev.sig.consists, c.q = v.q → c.seq = v.seq → c.spec = true := by
    simp only [Bool.and_eq_true, Option.isSome_iff_ne_none, Bool.not_eq_true', List.any_eq_false, beq_iff_eq, not_and, Bool.not_eq_false, and_imp]
  exact (Bool.or_eq_true _ _ ▸ or_congr ends count :)

theorem State.leftover_iff : s.leftover v = true ↔ s.Left v := by
  simp only [State.leftover, State.holdsCore, List.any_eq_true, Bool.and_eq_true, Bool.not_eq_true', beq_iff_eq, Bool.or_eq_true, bne_iff_ne,
    List.isEmpty_eq_false_iff, State.Left, and_assoc]
  refine exists_congr fun c => and_congr_right fun _ => and_congr_right fun _ => and_congr_right fun _ => and_congr_right fun idle => ?_
  simp only [idle, ne_eq, not_true_eq_false, false_or, or_assoc]

/-- A service that goes on, has ended, or leaves something behind stays as it is. -/
theorem State.serviceEnds_stays (stays : v.ended = true ∨ ¬ s.Done v ∨ s.Left v) : s.serviceEnds v = s := by
  refine if_pos ?_
  simp only [Bool.or_eq_true, Bool.not_eq_true']
  rcases stays with ended | goes | left
  · exact .inl (.inl ended)
  · exact .inl (.inr (Bool.eq_false_iff.mpr (mt State.over_iff.mp goes)))
  · exact .inr (State.leftover_iff.mpr left)

/-- A service that is over ends now. -/
theorem State.serviceEnds_ends (runs : v.ended = false) (over_ : s.Done v) (clean : ¬ s.Left v) : ∃ u : State,
    s.serviceEnds v = u.mapService v.q v.seq (fun w => { w with ended := true, tend := s.dev.tstamp 57 }) ∧
    u.dev.sig.services = s.dev.sig.services ∧ (v.err = none → u.car = s.car ∧ u.peers = s.peers) := by
  let a := s.mapDev (fun d => (d.flushHandles v).mapSlot v.q (fun x => { x with hist := x.hist.fault v }))
  have services : a.dev.sig.services = s.dev.sig.services :=
    show (s.dev.flushHandles v).sig.services = _ from Device.services_of_rest (s.dev.rest_flushHandles v)
  have now : a.dev.tstamp 57 = s.dev.tstamp 57 :=
    show (s.dev.flushHandles v).tstamp 57 = _ from Device.tstamp_of_rest (s.dev.rest_flushHandles v) 57
  have eq : s.serviceEnds v = (if v.err.isSome then a.faultContext v else a).mapService v.q v.seq (fun w => { w with
      ended := true, tend := (if v.err.isSome then a.faultContext v else a).dev.tstamp 57 }) := by
    refine if_neg ?_
    rw [runs, State.over_iff.mpr over_, Bool.eq_false_iff.mpr (mt State.leftover_iff.mp clean)]
    decide
  cases err : v.err with
  | none =>
    rw [err] at eq
    exact ⟨a, eq.trans (now ▸ rfl), services, fun _ => ⟨rfl, rfl⟩⟩
  | some e =>
    rw [err] at eq
    have rest := a.rest_faultContext v
    exact ⟨a.faultContext v, eq.trans ((Device.tstamp_of_rest rest 57).trans now ▸ rfl), (Device.services_of_rest rest).trans services, nofun⟩

/-- No earlier service of the queue is left. -/
def Signal.First (x : Signal) (v : Service) : Prop := ∀ w ∈ x.services, w.q = v.q → v.order ≤ w.order

theorem Signal.mayReport_iff {x : Signal} : x.mayReport v = true ↔ v.ended = true ∧ x.First v := by
  simp only [Signal.mayReport, Bool.and_eq_true, List.all_eq_true, Bool.or_eq_true, bne_iff_ne, decide_eq_true_eq, Signal.First, or_iff_not_imp_left, not_not]

/-- The state after a service's record has been written. -/
def State.reports (s : State) (v : Service) : State :=
  (s.writeCompletion v).mapDev (fun d =>
    let d := d.mapSig (fun x => { x with services := x.services.filter (fun u => !(u.q == v.q && u.seq == v.seq)) })
    if recMsixEn v.record then d.emit [.msix (recMsix v.record)] else d)

theorem Service.named_of_find {vs : List Service} (found : vs.find? (fun u => u.q == q && u.seq == seq) = some v) : v.q = q ∧ v.seq = seq := by
  simpa using List.find?_some found

theorem exec_serviceComplete_absent (none : s.dev.sig.services.find? (fun u => u.q == q && u.seq == seq) = none) :
    exec (.serviceComplete q seq) s = .next s := by
  show execServiceComplete q seq s = _
  unfold execServiceComplete
  simp only [none]

/-- A service that reports, once its end has been looked at. -/
theorem exec_serviceComplete {u : State} {w : Service} (found : s.dev.sig.services.find? (fun u => u.q == q && u.seq == seq) = some v)
    (ends : s.serviceEnds v = u) (then_ : u.dev.sig.services.find? (fun u => u.q == q && u.seq == seq) = some w) :
    exec (.serviceComplete q seq) s = .next (if u.dev.sig.mayReport w then u.reports w else u) := by
  obtain ⟨rfl, rfl⟩ := Service.named_of_find found
  obtain ⟨wq, wseq⟩ := Service.named_of_find then_
  show execServiceComplete v.q v.seq s = _
  unfold execServiceComplete
  simp only [found, ends, then_]
  cases u.dev.sig.mayReport w with
  | true =>
    unfold State.reports
    rw [wq, wseq]
    rfl
  | false => rfl

end

end Sys2Proof.Machine

namespace Sys2Proof.Machine
open Sys2Proof.Claims

section
variable {s a b : State} {v : Service}

/-- What the writes of a completion record leave. -/
def State.Wrote (s a : State) : Prop := a.car = s.car ∧ a.peers = s.peers ∧ a.dev.rest = s.dev.rest ∧ ∃ ps, a.dev.sig = { s.dev.sig with specs := ps }

theorem State.writeVa_wrote {va : Nat} {bs : List Byte} (noStash : ∀ c ∈ s.cars, c.eng.stash = []) (made : s.writeVa va bs = some a) : s.Wrote a := by
  obtain ⟨car, peers, -, sig⟩ := State.writeVa_sig noStash made
  exact ⟨car, peers, State.rest_writeVa made, sig⟩

theorem State.Wrote.trans (first : s.Wrote a) (second : a.Wrote b) : s.Wrote b := by
  obtain ⟨car, peers, rest, ps, sig⟩ := first
  obtain ⟨car', peers', rest', ps', sig'⟩ := second
  exact ⟨car'.trans car, peers'.trans peers, rest'.trans rest, ps', by rw [sig', sig]⟩

theorem State.Wrote.devStat (wrote : s.Wrote a) : a.dev.sig.regs.devStat = s.dev.sig.regs.devStat := by
  obtain ⟨-, -, -, ps, sig⟩ := wrote
  rw [sig]

/-- The service is gone, and its MSI-X sent (R374). -/
def State.Gone (s : State) (v : Service) (t : State) : Prop :=
  t.dev.sig.services = s.dev.sig.services.filter (fun w => !(w.q == v.q && w.seq == v.seq)) ∧ t.car = s.car ∧
    t.peers = s.peers ∧ t.dev.outbox = s.dev.outbox ++ (if recMsixEn v.record then [.msix (recMsix v.record)] else [])

/-- A record that is written, or fails to be, leaves the memory of its write, and DEV_STAT says when it failed (R377). -/
theorem State.reports_of (wrote : s.Wrote a) (failed : Bool)
    (writes : s.writeCompletion v = if failed then a.mapDev (fun d => d.setDevStat 16#8) else a) : s.Gone v (s.reports v) ∧
    (s.reports v).dev.mem = a.dev.mem ∧ (failed = true → (s.reports v).dev.sig.regs.devStat = s.dev.sig.regs.devStat ||| 16#8) := by
  have stat := wrote.devStat
  obtain ⟨car, peers, rest, -⟩ := wrote
  have services := Device.services_of_rest rest
  have outbox := Device.outbox_of_rest rest
  unfold State.reports State.Gone
  rw [writes, ← services, ← outbox, ← car, ← peers, ← stat]
  cases failed <;> cases recMsixEn v.record
  · exact ⟨⟨rfl, rfl, rfl, (List.append_nil _).symm⟩, rfl, nofun⟩
  · exact ⟨⟨rfl, rfl, rfl, rfl⟩, rfl, nofun⟩
  · exact ⟨⟨rfl, rfl, rfl, (List.append_nil _).symm⟩, rfl, fun _ => rfl⟩
  · exact ⟨⟨rfl, rfl, rfl, rfl⟩, rfl, fun _ => rfl⟩

theorem State.wrote_self (s : State) : s.Wrote s := ⟨rfl, rfl, rfl, s.dev.sig.specs, rfl⟩

theorem State.writeCompletion_nowhere (nowhere : recCompAddr v.record = 0#64) : s.writeCompletion v = s := if_pos nowhere

section
variable (somewhere : recCompAddr v.record ≠ 0#64)
include somewhere

theorem State.writeCompletion_unwritten
    (unwritten : s.writeVa (recCompAddr v.record).toNat (wordBytes [v.compWord, v.tstart.getD 0#64, v.tend]) = none) :
    s.writeCompletion v = s.mapDev (fun d => d.setDevStat 16#8) := by
  refine (if_neg somewhere).trans ?_
  dsimp only
  rw [unwritten]

theorem State.writeCompletion_half (one : s.writeVa (recCompAddr v.record).toNat (wordBytes [v.compWord, v.tstart.getD 0#64, v.tend]) = some a)
    (unwritten : a.writeVa ((recCompAddr v.record).toNat + 24) (wordBytes [recCompValue v.record]) = none) :
    s.writeCompletion v = a.mapDev (fun d => d.setDevStat 16#8) := by
  refine (if_neg somewhere).trans ?_
  dsimp only
  rw [one]
  dsimp only
  rw [unwritten]

theorem State.writeCompletion_whole (one : s.writeVa (recCompAddr v.record).toNat (wordBytes [v.compWord, v.tstart.getD 0#64, v.tend]) = some a)
    (two : a.writeVa ((recCompAddr v.record).toNat + 24) (wordBytes [recCompValue v.record]) = some b) : s.writeCompletion v = b := by
  refine (if_neg somewhere).trans ?_
  dsimp only
  rw [one]
  dsimp only
  rw [two]

end

/-- Whether a service is the first of its queue does not depend on which have ended. -/
theorem Signal.first_mapService {vs : List Service} {f : Service → Service} {w : Service} (q : BitVec 16) (seq : BitVec 32)
    (keeps : ∀ u, (f u).q = u.q ∧ (f u).order = u.order) (same : w.q = v.q ∧ w.order = v.order)
    (isFirst : ∀ x ∈ vs.map (fun u => if u.q == q && u.seq == seq then f u else u), x.q = w.q → w.order ≤ x.order) :
    ∀ x ∈ vs, x.q = v.q → v.order ≤ x.order := by
  intro x here own
  have mapped := isFirst _ (List.mem_map_of_mem here)
  split at mapped
  · rw [(keeps x).1, (keeps x).2, same.1, same.2] at mapped
    exact mapped own
  · rw [same.1, same.2] at mapped
    exact mapped own

end

end Sys2Proof.Machine

namespace Sys2Proof.Proofs
open Sys2Proof.Machine Sys2Proof.Claims

/-- A consist with its last car (R289). -/
theorem consistCompletes {s : State} {x : Consist} (consist : s.consistOf s.car = some x) (all : s.carEnds.AllFinished x) :
    ∃ t, exec (.carFinish s.car.ref) s = .next t ∧ t.dev.mem = s.dev.mem ∧
      t.cars.map (fun c => c.regs) = s.cars.map (fun c => c.regs) ∧ (∀ c ∈ t.cars, x.holds c = false) ∧
      (∀ y, y ∈ t.dev.sig.consists ↔ y ∈ s.dev.sig.consists ∧ y.same x = false) ∧
      (x.spec = false → t.dev.sig.services = s.dev.sig.services.map (fun w => if w.q = x.q ∧ w.seq = x.seq then
        { w with finished := w.finished + 1 } else w)) ∧ (x.spec = true → t.dev.sig.services = s.dev.sig.services) := by
  obtain ⟨dev, regs, -, -⟩ := s.carEnds_frame
  have runs := exec_carFinish (s := s)
  rw [consist] at runs
  dsimp only at runs
  rw [(s.carEnds.consistEnds_eq x).2 all] at runs
  rw [← regs, ← dev]
  generalize s.carEnds = u at runs ⊢
  obtain ⟨mem, cars, consists, services⟩ := u.without_frame x
  have registers : (u.without x).cars.map (fun c => c.regs) = u.cars.map (fun c => c.regs) := by
    rw [cars, List.map_map]
    refine List.map_congr_left fun c _ => ?_
    dsimp only [Function.comp]
    split <;> rfl
  have freed : ∀ c ∈ (u.without x).cars, x.holds c = false := by
    rw [cars, List.forall_mem_map]
    exact fun c _ => Consist.holds_leaveCore c
  have left : ∀ y, y ∈ (u.without x).dev.sig.consists ↔ y ∈ u.dev.sig.consists ∧ y.same x = false := by
    intro y
    rw [consists, List.mem_filter, Bool.not_eq_true']
  cases spec : x.spec with
  | true =>
    rw [spec, if_pos rfl] at runs
    obtain ⟨mem', cars', consists', services'⟩ :=
      (u.without x).mapSpec_frame x.q x.seq (fun p => { p with svc := { p.svc with finished := p.svc.finished + 1 } })
    refine ⟨_, runs, mem'.trans mem, ?_, ?_, ?_, nofun, fun _ => services'.trans services⟩
    · rw [cars', registers]
    · rw [cars']
      exact freed
    · rw [consists']
      exact left
  | false =>
    rw [spec, if_neg Bool.false_ne_true] at runs
    obtain ⟨mem', cars', consists', services'⟩ := (u.without x).mapService_frame x.q x.seq (fun v => { v with finished := v.finished + 1 })
    refine ⟨_, runs, mem'.trans mem, ?_, ?_, ?_, fun _ => ?_, nofun⟩
    · rw [cars', registers]
    · rw [cars']
      exact freed
    · rw [consists']
      exact left
    · rw [services', services]
      refine List.map_congr_left fun w _ => ?_
      simp only [Bool.and_eq_true, beq_iff_eq]

/-- Settles O44: cars finish, consists complete with their last car, and services end and write their records. -/
theorem carsConsistsAndServicesEnd : Obligations.CarsConsistsAndServicesEnd := by
  unfold Obligations.CarsConsistsAndServicesEnd
  intro q seq v x s r u all svc
  have finish := exec_carFinish (s := s)
  refine ⟨fun none => ?_, fun consist more => ?_, consistCompletes, s.spent_iff s.car, exec_serviceComplete_absent, fun found => ?_⟩
  · rw [none] at finish
    exact finish
  · rw [consist] at finish
    exact finish.trans (congrArg Host.Outcome.next ((s.carEnds.consistEnds_eq x).1 more))
  have found : s.dev.sig.services.find? (fun u => u.q == q && u.seq == seq) = some v := found
  obtain ⟨rfl, rfl⟩ := Service.named_of_find found
  intro done first e word0 addr left gone
  have stays (ended : v.ended = true ∨ ¬ s.Done v ∨ s.Left v) := exec_serviceComplete found (State.serviceEnds_stays ended) found
  have notYet (no : ¬ (v.ended = true ∧ s.dev.sig.First v)) : s.dev.sig.mayReport v = false := Bool.eq_false_iff.mpr (mt Signal.mayReport_iff.mp no)
  have ends (runs : v.ended = false) (over_ : s.Done v) (clean : ¬ s.Left v) (notFirst : ¬ first) : ∃ t, exec (.serviceComplete v.q v.seq) s = .next t ∧
      (v.err = none → t.car = s.car ∧ t.peers = s.peers) ∧ svc t = some { v with ended := true, tend := s.dev.tstamp 57 } := by
    obtain ⟨u, is, services, same⟩ := State.serviceEnds_ends runs over_ clean
    have now := find_mapService (f := fun w => { w with ended := true, tend := s.dev.tstamp 57 }) (fun _ => ⟨rfl, rfl⟩) (services ▸ found)
    have runs := exec_serviceComplete found is now
    have held : (u.mapService v.q v.seq (fun w => { w with ended := true, tend := s.dev.tstamp 57 })).dev.sig.mayReport
        { v with ended := true, tend := s.dev.tstamp 57 } = false := by
      refine Bool.eq_false_iff.mpr fun may => notFirst ?_
      show ∀ w ∈ s.dev.sig.services, w.q = v.q → v.order ≤ w.order
      rw [← services]
      exact Signal.first_mapService (f := fun w => { w with ended := true, tend := s.dev.tstamp 57 }) v.q v.seq (fun _ => ⟨rfl, rfl⟩) ⟨rfl, rfl⟩
        (Signal.mayReport_iff.mp may).2
    rw [held, if_neg Bool.false_ne_true] at runs
    exact ⟨_, runs, same, now⟩
  refine ⟨fun runs no => ?_, fun runs over_ clean fine notFirst => ?_, fun runs over_ clean failed notFirst => ?_, fun ended notFirst => ?_, fun ended isFirst noStash => ?_⟩
  · rw [stays (.inr no), notYet (fun bad => by rw [runs] at bad; cases bad.1)]
    rfl
  · obtain ⟨t, runs, same, now⟩ := ends runs over_ clean notFirst
    exact ⟨t, runs, (same fine).1, (same fine).2, now⟩
  · obtain ⟨t, runs, -, now⟩ := ends runs over_ clean notFirst
    exact ⟨t, runs, now⟩
  · rw [stays (.inl ended), notYet (fun both => notFirst both.2)]
    rfl
  · have runs : exec (.serviceComplete v.q v.seq) s = .next (s.reports v) := by
      rw [stays (.inl ended), Signal.mayReport_iff.mpr ⟨ended, isFirst⟩]
      rfl
    refine ⟨fun nowhere => ?_, fun somewhere unwritten => ?_, fun a b somewhere one two => ?_, fun a somewhere one unwritten => ?_⟩
    · obtain ⟨gone, mem, -⟩ := State.reports_of s.wrote_self false (State.writeCompletion_nowhere nowhere)
      exact ⟨_, runs, gone, mem⟩
    · obtain ⟨gone, mem, stat⟩ := State.reports_of s.wrote_self true (State.writeCompletion_unwritten somewhere unwritten)
      exact ⟨_, runs, gone, mem, stat rfl⟩
    · have first : s.Wrote a := State.writeVa_wrote noStash.2 one
      have second : a.Wrote b := State.writeVa_wrote (by rw [State.cars, first.1, first.2.1]; exact noStash.2) two
      obtain ⟨gone, mem, -⟩ := State.reports_of (first.trans second) false (State.writeCompletion_whole somewhere one two)
      exact ⟨_, runs, gone, mem⟩
    · have first : s.Wrote a := State.writeVa_wrote noStash.2 one
      obtain ⟨gone, mem, stat⟩ := State.reports_of first true (State.writeCompletion_half somewhere one unwritten)
      exact ⟨_, runs, gone, mem, stat rfl⟩

end Sys2Proof.Proofs

namespace Sys2Proof.Machine
open Sys2Proof.Claims

/-! The cars of a consist come to their cores (R269, R282). -/

section
variable {s : State}

theorem State.putCar_self (s : State) (c : Car) : c ∈ (s.putCar c).cars := by
  unfold State.putCar
  split
  · next there =>
    obtain ⟨k, hk, same⟩ := List.any_eq_true.mp there
    show c ∈ s.cars.map (fun k => if k.ref = c.ref then c else k)
    exact List.mem_map.mpr ⟨k, hk, if_pos (beq_iff_eq.mp same)⟩
  · exact List.mem_cons_of_mem _ (List.mem_append_right _ (List.mem_singleton_self c))

theorem State.putCar_other {c k : Car} (here : k ∈ s.cars) (other : k.ref ≠ c.ref) : k ∈ (s.putCar c).cars := by
  unfold State.putCar
  split
  · show k ∈ s.cars.map (fun k => if k.ref = c.ref then c else k)
    exact List.mem_map.mpr ⟨k, here, if_neg other⟩
  · rcases List.mem_cons.mp here with rfl | peer
    · exact List.mem_cons_self
    · exact List.mem_cons_of_mem _ (List.mem_append_left _ peer)

theorem State.putCar_dev (s : State) (c : Car) : (s.putCar c).dev = s.dev := by
  unfold State.putCar
  split <;> rfl

/-- The reference of a new car is that of its core (R283). -/
theorem State.newCar_ref (s : State) (p : Placement) (i : Nat) {core : Nat} (small : core < 336) :
    (s.newCar p i core).ref = 2 * core + (if p.secondary then 1 else 0) := by
  show (BitVec.ofNat 9 core).toNat * 2 + (if p.secondary then 1 else 0) = _
  rw [BitVec.toNat_ofNat, Nat.mod_eq_of_lt (by omega), Nat.mul_comm]

/-- Each of the cores of a placement holds its new car. -/
theorem State.mem_putCars (s : State) (p : Placement) {cores : List Nat} (distinct : cores.Nodup ∧ ∀ k ∈ cores, k < 336) :
    (s.putCars p cores).dev = s.dev ∧ ∀ i core, cores[i]? = some core → s.newCar p i core ∈ (s.putCars p cores).cars := by
  have stays (ks : List (Nat × Nat)) (t : State) (k : Car) (here : k ∈ t.cars) (others : ∀ e ∈ ks, k.ref ≠ (s.newCar p e.2 e.1).ref) :
      k ∈ (ks.foldl (fun t k => t.putCar (s.newCar p k.2 k.1)) t).cars := by
    induction ks generalizing t with
    | nil => exact here
    | cons e ks ih => exact ih _ (State.putCar_other here (others e List.mem_cons_self)) fun e' later => others e' (List.mem_cons_of_mem _ later)
  have dev (ks : List (Nat × Nat)) (t : State) : (ks.foldl (fun t k => t.putCar (s.newCar p k.2 k.1)) t).dev = t.dev := by
    induction ks generalizing t with
    | nil => rfl
    | cons e ks ih => exact (ih _).trans (State.putCar_dev t _)
  have comes (ks : List (Nat × Nat)) (once : (ks.map (fun e => e.1)).Nodup) (small : ∀ e ∈ ks, e.1 < 336) (t : State) :
      ∀ e ∈ ks, s.newCar p e.2 e.1 ∈ (ks.foldl (fun t k => t.putCar (s.newCar p k.2 k.1)) t).cars := by
    induction ks generalizing t with
    | nil => exact fun e none => absurd none List.not_mem_nil
    | cons e ks ih =>
      rw [List.map_cons, List.nodup_cons] at once
      intro e' here
      rcases List.mem_cons.mp here with rfl | later
      · refine stays ks _ _ (State.putCar_self t _) fun k hk same => once.1 (List.mem_map.mpr ⟨k, hk, ?_⟩)
        rw [State.newCar_ref s p _ (small _ List.mem_cons_self), State.newCar_ref s p _ (small _ (List.mem_cons_of_mem _ hk))] at same
        exact Nat.eq_of_mul_eq_mul_left (by decide) (Nat.add_right_cancel same).symm
      · exact ih once.2 (fun k hk => small k (List.mem_cons_of_mem _ hk)) _ e' later
  refine ⟨dev _ s, fun i core at_ => ?_⟩
  refine comes cores.zipIdx ?_ (fun e here => distinct.2 e.1 (List.fst_mem_of_mem_zipIdx here)) s (core, i) ?_
  · rw [show (fun e : Nat × Nat => e.1) = Prod.fst from rfl, List.zipIdx_map_fst]
    exact distinct.1
  · exact List.mk_mem_zipIdx_iff_getElem?.mpr at_

end

end Sys2Proof.Machine

namespace Sys2Proof.Machine
open Sys2Proof.Claims

/-! What a car has before its release (R12, R13, R269 to R272, R282). -/

section
variable {x : Image}

/-- Flags that an image does not preset are 0. -/
theorem Image.presetFlags_other {f : FlagIx} (none : ∀ p ∈ x.flags, p.1 ≠ f) : x.presetFlags[f] = 0#16 := by
  have fold (ps : List (FlagIx × BitVec 16)) (t : Vector (BitVec 16) 64) (none : ∀ p ∈ ps, p.1 ≠ f) :
      (ps.foldl (fun f p => f.set p.1.val p.2 p.1.isLt) t)[f] = t[f] := by
    induction ps generalizing t with
    | nil => rfl
    | cons p ps ih =>
      have other : p.1.val ≠ f.val := fun same => none p List.mem_cons_self (Fin.ext same)
      refine (ih _ fun q hq => none q (List.mem_cons_of_mem _ hq)).trans ?_
      rw [Fin.getElem_fin, Vector.getElem_set_ne _ _ other, Fin.getElem_fin]
  refine (fold x.flags _ none).trans ?_
  rw [Fin.getElem_fin, Vector.getElem_replicate]

/-- A flag that an image presets once has its value. -/
theorem Image.presetFlags_self {p : FlagIx × BitVec 16} (here : p ∈ x.flags) (once : ∀ q ∈ x.flags, q.1 = p.1 → q = p) : x.presetFlags[p.1] = p.2 := by
  have fold (ps : List (FlagIx × BitVec 16)) (t : Vector (BitVec 16) 64) (once : ∀ q ∈ ps, q.1 = p.1 → q = p) (there : p ∈ ps ∨ t[p.1] = p.2) :
      (ps.foldl (fun f p => f.set p.1.val p.2 p.1.isLt) t)[p.1] = p.2 := by
    induction ps generalizing t with
    | nil => exact there.resolve_left List.not_mem_nil
    | cons q ps ih =>
      refine ih _ (fun q hq => once q (List.mem_cons_of_mem _ hq)) ?_
      by_cases same : q.1 = p.1
      · have is : q = p := once q List.mem_cons_self same
        subst is
        exact .inr (by rw [Fin.getElem_fin, Vector.getElem_set_self])
      · rcases there with there | there
        · exact .inl ((List.mem_cons.mp there).resolve_left fun is => same (congrArg Prod.fst is.symm))
        · have other : q.1.val ≠ p.1.val := fun eq => same (Fin.ext eq)
          refine .inr ?_
          rw [Fin.getElem_fin, Vector.getElem_set_ne _ _ other]
          exact there
  exact fold x.flags _ once (.inl here)

theorem getD_take {α : Type} (xs : List α) {n i : Nat} (inside : i < n) (z : α) : (xs.take n).getD i z = xs.getD i z := by
  simp [List.getD, inside]

theorem Mem.read_empty (a : Nat) : Mem.empty.read a = 0#8 := rfl

/-- Bytes that are put into an empty memory from its start. -/
theorem read_loaded (bs : List Byte) {n a : Nat} (inside : a < n) : (Mem.empty.write 0 (bs.take n)).read a = bs.getD a 0#8 := by
  rw [Mem.read_write, Nat.sub_zero, getD_take bs inside]
  split
  · rfl
  · next out =>
    have beyond : bs.length ≤ a := by
      rw [List.length_take] at out
      omega
    rw [Mem.read_empty, List.getD_eq_getElem?_getD, List.getElem?_eq_none beyond]
    rfl

theorem bytesLE_getD (w : Word) {i : Nat} (inside : i < 8) : (bytesLE 8 w.toNat).getD i 0#8 = byteAt w i := by
  rw [bytesLE_eq_map, getD_map_range, if_pos inside]
  apply BitVec.eq_of_toNat_eq
  rw [byteAt, BitVec.extractLsb'_toNat, BitVec.toNat_ofNat, Nat.shiftRight_eq_div_pow, Nat.pow_mul]

/-- The bytes of words one after the other. -/
theorem wordBytes_getD (ws : List Word) (i : Nat) (inside : i < 8 * ws.length) : (wordBytes ws).getD i 0#8 = byteAt (ws.getD (i / 8) 0#64) (i % 8) := by
  induction ws generalizing i with
  | nil => simp at inside
  | cons w ws ih =>
    rw [wordBytes, List.flatMap_cons]
    by_cases first : i < 8
    · rw [List.getD_append _ _ _ _ (by rw [bytesLE_length]; exact first), bytesLE_getD w first, show i / 8 = 0 by omega, Nat.mod_eq_of_lt first]
      rfl
    · rw [List.getD_append_right _ _ _ _ (by rw [bytesLE_length]; omega), bytesLE_length, show i / 8 = (i - 8) / 8 + 1 by omega,
        show i % 8 = (i - 8) % 8 by omega, List.getD_cons_succ]
      rw [List.length_cons] at inside
      exact ih (i - 8) (by omega)

theorem wordBytes_length (ws : List Word) : (wordBytes ws).length = 8 * ws.length := by
  induction ws with
  | nil => rfl
  | cons w ws ih =>
    rw [wordBytes, List.flatMap_cons, List.length_append, bytesLE_length, List.length_cons]
    rw [wordBytes] at ih
    omega

theorem padTo_length (n : Nat) (ws : List Word) : (padTo n ws).length = n := by
  simp [padTo]

/-- The scratchpad holds `.data`, and the argument block at its end (R269). -/
theorem Image.read_spad (args : List Word) : (∀ a < 0x5FFC0, (x.spad args).read a = x.data.getD a 0#8) ∧
    ∀ i < 64, (x.spad args).read (0x5FFC0 + i) = byteAt (args.getD (i / 8) 0#64) (i % 8) := by
  have length : (wordBytes (padTo 8 args)).length = 64 := by rw [wordBytes_length, padTo_length]
  refine ⟨fun a below => ?_, fun i inside => ?_⟩
  · rw [Image.spad, Mem.read_write_other _ (.inl below)]
    exact read_loaded x.data (by show a < 0x60000; omega)
  · rw [Image.spad, Mem.read_write, if_pos (by omega), Nat.add_sub_cancel_left, wordBytes_getD _ _ (by rw [padTo_length]; omega),
      padTo_getD _ _ (by omega)]

theorem Image.read_imem {a : Nat} (inside : a < Config.imemSize) : x.imem.read a = x.code.getD a 0#8 := read_loaded x.code inside

end

/-- What stands once a consist has been placed (R269 to R272, R277, R282). -/
theorem State.placed_placeOn (s : State) (v : Service) (x : Image) (idx : BitVec 32) (spec : Bool) {sp : Spot}
    (distinct : sp.cores.Nodup ∧ ∀ k ∈ sp.cores, k < 336) : Placed s (s.placeOn v x idx spec sp) v x idx spec sp ∧
      (s.placeOn v x idx spec sp).dev.sig.services = s.dev.sig.services := by
  let p : Placement :=
    { svc := v, image := x, idx := idx, spec := spec, secondary := sp.secondary
      merge := if sp.secondary then 3#2 else if Config.mergeChoice s.fresh then 1#2 else 0#2
      lines := (List.finRange 16).zip sp.lines, base := s.dev.nextId, release := s.now + 256 }
  obtain ⟨dev, comes⟩ := s.mem_putCars p distinct
  let c : Consist :=
    { q := v.q, seq := v.seq, idx := idx, spec := spec, secondary := sp.secondary, image := x
      cars := sp.cores.map (fun k => 2 * k + (if sp.secondary then 1 else 0)), lines := (List.finRange 16).zip sp.lines
      release := s.now + 256, pri := v.pri, ttset := recTtset v.record }
  refine ⟨⟨?_, ⟨c, ?_, rfl, rfl, rfl, rfl, rfl, rfl, rfl, rfl, rfl, rfl, rfl, rfl, rfl⟩, fun k core at_ => ?_⟩, ?_⟩
  · show (s.putCars p sp.cores).dev.mem = _
    rw [dev]
  · show (s.putCars p sp.cores).dev.sig.consists ++ _ = _
    rw [dev]
    rfl
  · have small : core < 336 := distinct.2 core (List.mem_of_getElem? at_)
    refine ⟨s.newCar p k core, comes k core at_, s.newCar_ref p k small, rfl, rfl, rfl, rfl, rfl, rfl, rfl,
      fun i small => Vector.getElem_ofFn small, fun i small => Vector.getElem_replicate small, rfl, rfl, rfl, rfl, rfl, rfl,
      fun f none => Image.presetFlags_other none, fun q here once => Image.presetFlags_self here once, (Image.read_spad v.args).1, (Image.read_spad v.args).2,
      fun absent a inside => ?_, fun k holds found => ?_⟩
    · show (s.imemFor (2 * core + if sp.secondary then 1 else 0) x).read a = _
      unfold State.imemFor
      rw [absent]
      exact Image.read_imem inside
    · show s.imemFor (2 * core + if sp.secondary then 1 else 0) x = _
      unfold State.imemFor
      rw [holds, if_pos rfl, found]
  · show (s.putCars p sp.cores).dev.sig.services = _
    rw [dev]

end Sys2Proof.Machine

namespace Sys2Proof.Machine
open Sys2Proof.Claims

/-! Placement (R269, R369, R370, R385, R392). -/

section
variable {s : State} {q : BitVec 16} {seq idx : BitVec 32} {v : Service} {x img : Image} {sp : Spot} {p : Speculation}

theorem exec_placeConsist_absent (real : s.dev.sig.specOf q seq = none)
    (none : s.dev.sig.services.find? (fun u => u.q == q && u.seq == seq) = none) : exec (.placeConsist q seq idx) s = .next s := by
  show execPlaceConsist q seq idx s = _
  unfold execPlaceConsist
  rw [real]
  dsimp only
  rw [none]

theorem exec_placeConsist_real (real : s.dev.sig.specOf q seq = none)
    (found : s.dev.sig.services.find? (fun u => u.q == q && u.seq == seq) = some v) : exec (.placeConsist q seq idx) s = .next (s.placeReal v idx) := by
  show execPlaceConsist q seq idx s = _
  unfold execPlaceConsist
  rw [real]
  dsimp only
  rw [found]

theorem exec_placeConsist_spec (spec : s.dev.sig.specOf q seq = some p) : exec (.placeConsist q seq idx) s = .next (s.placeSpec p idx) := by
  show execPlaceConsist q seq idx s = _
  unfold execPlaceConsist
  rw [spec]

section
variable (image : v.image = some x)
include image

theorem State.placeReal_stays (no : s.dev.startable v = false ∨ idx.toNat ≠ v.placed) : s.placeReal v idx = s := by
  unfold State.placeReal
  rw [image]
  dsimp only
  rw [if_pos]
  rcases no with no | no
  · rw [no]; rfl
  · rw [bne_iff_ne.mpr no, Bool.or_true]

/-- The next consist of a service that may start it. -/
theorem State.placeReal_next (may : s.dev.startable v = true) (next : idx.toNat = v.placed) : s.placeReal v idx =
    if s.dev.ttBad (recTtset v.record) then s.failService v 3#8
    else match s.spot v.record x (s.classOf v) false with
      | none => s
      | some sp =>
        if !s.itsTurn v then s
        else match s.dev.imageNow x (s.dev.sig.loads sp x.id) true with
          | none => s.failService v 2#8
          | some img => ((s.placeOn v (x.reread img) idx false sp).mapService v.q v.seq
              (fun v => v.nowPlaced sp s.now)).mapDev (fun d => d.mapSig (fun y => y.served v)) := by
  unfold State.placeReal
  rw [image]
  dsimp only
  rw [may, next, bne_self_eq_false]
  exact (if_neg (by decide)).trans rfl

end

theorem Device.ttBad_iff {d : Device} {n : BitVec 8} : d.ttBad n = true ↔ n ≠ 0#8 ∧ d.ttSet n = none := by
  simp only [Device.ttBad, Bool.and_eq_true, bne_iff_ne, Option.isNone_iff_eq_none]

/-- A service ends with an error before a consist of it starts (R288, R375). -/
theorem State.failService_spec (found : s.dev.sig.services.find? (fun u => u.q == v.q && u.seq == v.seq) = some v) (cause : BitVec 8) :
    let t := s.failService v cause
    let waits := fun (y : Consist) => y.q = v.q ∧ y.seq = v.seq ∧ y.spec = false ∧ (y.saved ≠ none ∨ y.released = false)
    t.dev.mem = s.dev.mem ∧ (∃ u, t.dev.sig.services.find? (fun u => u.q == v.q && u.seq == v.seq) = some u ∧ u.err = some (cause, 0#9)) ∧
    (∀ y, y ∈ t.dev.sig.consists ↔ y ∈ s.dev.sig.consists ∧ ¬ waits y) ∧
    ∀ c ∈ s.cars, (∀ y ∈ s.dev.sig.consists, waits y → y.holds c = false) → c ∈ t.cars := by
  have waits (y : Consist) : (y.q == v.q && y.seq == v.seq && !y.spec && (y.saved.isSome || !y.released)) = true ↔
      y.q = v.q ∧ y.seq = v.seq ∧ y.spec = false ∧ (y.saved ≠ none ∨ y.released = false) := by
    simp only [Bool.and_eq_true, beq_iff_eq, Bool.not_eq_true', Bool.or_eq_true, Option.isSome_iff_ne_none, and_assoc]
  refine ⟨rfl, ⟨_, find_mapService (f := fun v => { v with err := some (cause, 0#9) }) (fun _ => ⟨rfl, rfl⟩) found, rfl⟩, fun y => ?_, fun c here away => ?_⟩
  · refine Iff.trans ?_ (and_congr_right fun _ => not_congr (waits y))
    exact List.mem_filter.trans (and_congr_right fun _ => by rw [Bool.not_eq_true', ← Bool.not_eq_true])
  · unfold State.failService State.dropWaiting
    simp only [mapDev_cars, mapCars_cars]
    refine List.mem_map.mpr ⟨c, here, if_neg fun held => ?_⟩
    obtain ⟨y, hy, holds⟩ := List.any_eq_true.mp held
    obtain ⟨hy, mine⟩ := List.mem_filter.mp hy
    rw [away y hy ((waits y).mp (Bool.and_eq_true _ _ ▸ mine :).1)] at holds
    cases holds

/-- A speculation that may not place its next consist. -/
theorem State.placeSpec_stays (no : s.dev.house.fw.pending = true ∨ (if p.adopted then s.before p.svc (s.specRank p) = false else s.realWaits = true)) :
    s.placeSpec p idx = s := by
  unfold State.placeSpec
  dsimp only
  split
  · refine if_pos ?_
    rcases no with pending | turn
    · rw [pending]; rfl
    · cases adopted : p.adopted with
      | true =>
        rw [adopted, if_pos rfl] at turn
        rw [turn, if_pos rfl]
        exact Bool.or_true _
      | false =>
        rw [adopted, if_neg Bool.false_ne_true] at turn
        rw [turn, if_neg Bool.false_ne_true]
        exact Bool.or_true _
  · rfl

/-- The next consist of a speculation that may place it. -/
theorem State.placeSpec_next {n : BitVec 32} (image : p.svc.image = some x) (count : p.svc.count = some n) (next : idx.toNat = p.svc.placed)
    (more : p.svc.placed < n.toNat) (calm : s.dev.house.fw.pending = false)
    (turn : if p.adopted then s.before p.svc (s.specRank p) = true else s.realWaits = false) : s.placeSpec p idx =
    match s.spot (s.specRecord p) x p.svc.pri.toNat true with
      | none => s
      | some sp =>
      match s.dev.imageNow x (s.dev.sig.loads sp x.id) true with
      | some img =>
        (s.placeOn p.svc (x.reread img) idx true sp).mapDev (fun d =>
          (d.mapSpec p.svc.q p.svc.seq (fun p => { p with svc := p.svc.nowPlaced sp s.now })).mapSig (fun y =>
            if p.adopted then y.served p.svc else y))
      | none => s.doomSpec p.svc.q p.svc.seq := by
  unfold State.placeSpec
  dsimp only
  rw [image, count]
  dsimp only
  have free : (if p.adopted then !s.before p.svc (s.specRank p) else s.realWaits) = false := by
    cases adopted : p.adopted with
    | true =>
      rw [adopted, if_pos rfl] at turn
      rw [turn, if_pos rfl]
      rfl
    | false =>
      rw [adopted, if_neg Bool.false_ne_true] at turn
      rw [turn, if_neg Bool.false_ne_true]
  refine (if_neg ?_).trans rfl
  rw [free, calm, next, bne_self_eq_false, decide_eq_false (by omega)]
  decide

end

/-! Release (R269, R270, R367, R374). -/

section
variable {s : State} {q : BitVec 16} {seq idx : BitVec 32} {v : Service} {y : Consist}

/-- A car at the release of its consist. -/
def Consist.starts (y : Consist) (now : Nat) (c : Car) : Car :=
  if y.holds c then (match c.life with
    | .held _ => { c with life := .running, ready := now, done := false }
    | _ => c) else c

theorem Consist.starts_frame (y : Consist) (now : Nat) (c : Car) : (y.starts now c).regs = c.regs ∧ (y.starts now c).pc = c.pc := by
  unfold Consist.starts
  split
  · split <;> exact ⟨rfl, rfl⟩
  · exact ⟨rfl, rfl⟩

/-- No car of a consist is held after its release. -/
theorem Consist.starts_runs (y : Consist) (now : Nat) (c : Car) (held : y.holds (y.starts now c) = true) : ∀ r, (y.starts now c).life ≠ .held r := by
  unfold Consist.starts at held ⊢
  split at held
  · next mine =>
    rw [if_pos mine]
    intro r
    split
    · nofun
    · next other => exact other r
  · next other => exact absurd held other

/-- The state after the release of a consist. -/
def State.freed (s : State) (q : BitVec 16) (seq : BitVec 32) (y : Consist) : State :=
  let t := (s.mapCars (y.starts s.now)).mapConsist y (fun z => { z with released := true, since := s.now })
  if y.spec then t.mapDev (fun d => d.mapSpec q seq (fun p => { p with svc := p.svc.started d.boxTime }))
  else t.mapService q seq (fun v => v.started s.dev.boxTime)

theorem exec_consistRelease : exec (.consistRelease q seq idx) s = .next (match s.toRelease q seq idx with
    | none => s
    | some y => s.freed q seq y) := rfl

/-- What the release of a consist requires. -/
theorem State.toRelease_spec (found : s.toRelease q seq idx = some y) : y.released = false ∧ y.release ≤ s.now ∧
    (y.ttset = 0#8 ∨ s.dev.fab.hasSet y.ttset = true) ∧ (s.dev.house.fw.pending = false ∨ y.resumed = true) ∧
    (y.resumed = false → ∀ z ∈ s.dev.sig.consists, z.q = q → z.seq = seq → z.spec = y.spec → z.idx < idx →
      z.released = true ∨ z.resumed = true ∨ z.saved ≠ none) ∧
    (y.spec = false → ∀ u ∈ s.dev.sig.services, u.q = q → u.seq = seq → u.err = none) := by
  have all := List.find?_some found
  simp only [Bool.and_eq_true, beq_iff_eq, Bool.not_eq_true', Option.isNone_iff_eq_none, decide_eq_true_eq, Bool.or_eq_true] at all
  obtain ⟨⟨⟨⟨⟨⟨⟨⟨⟨mq, mseq⟩, midx⟩, unreleased⟩, -⟩, due⟩, set⟩, order⟩, fine⟩, calm⟩ := all
  subst mq mseq midx
  refine ⟨unreleased, due, set, calm, fun first z hz zq zseq zspec before => ?_, fun real u hu uq useq => ?_⟩
  · simp only [Signal.earlierWaits, first, Bool.not_false, Bool.true_and, List.any_eq_false, Bool.and_eq_true, beq_iff_eq, decide_eq_true_eq,
      Bool.not_eq_true', Option.isNone_iff_eq_none, not_and] at order
    by_contra none
    rw [not_or, not_or, not_not, Bool.not_eq_true, Bool.not_eq_true] at none
    exact order z hz ⟨⟨⟨⟨⟨zq, zseq⟩, zspec⟩, before⟩, none.1⟩, none.2.1⟩ none.2.2
  · simp only [Signal.failedFor, real, Bool.not_false, Bool.true_and, List.any_eq_false, Bool.and_eq_true, beq_iff_eq, not_and, Bool.not_eq_true,
      Option.isSome_eq_false_iff, Option.isNone_iff_eq_none] at fine
    exact fine u hu ⟨uq, useq⟩

theorem State.freed_frame (s : State) (q : BitVec 16) (seq : BitVec 32) (y : Consist) : (s.freed q seq y).dev.mem = s.dev.mem ∧
    (s.freed q seq y).cars = s.cars.map (y.starts s.now) ∧
    (s.freed q seq y).dev.sig.consists = s.dev.sig.consists.map (fun z => if z.same y then { z with released := true, since := s.now } else z) := by
  unfold State.freed
  dsimp only
  split <;> exact ⟨rfl, rfl, rfl⟩

end

end Sys2Proof.Machine

namespace Sys2Proof.Machine
open Sys2Proof.Claims

/-- The rotation changes neither services nor consists (R370). -/
theorem Signal.served_keeps (y : Signal) (v : Service) : (y.served v).services = y.services ∧ (y.served v).consists = y.consists := by
  unfold Signal.served
  split
  · split <;> exact ⟨rfl, rfl⟩
  · exact ⟨rfl, rfl⟩

/-- The release of a real consist sets the TSTART of its service once (R374). -/
theorem State.freed_service {s : State} {q : BitVec 16} {seq : BitVec 32} {y : Consist} {v : Service} (real : y.spec = false)
    (found : s.dev.sig.services.find? (fun u => u.q == q && u.seq == seq) = some v) :
    (s.freed q seq y).dev.sig.services.find? (fun u => u.q == q && u.seq == seq) = some (v.started (s.dev.tstamp 57)) := by
  unfold State.freed
  dsimp only
  rw [real, if_neg Bool.false_ne_true]
  exact find_mapService (f := fun v => v.started (s.dev.tstamp 57)) (fun _ => ⟨rfl, rfl⟩) found

end Sys2Proof.Machine

namespace Sys2Proof.Proofs
open Sys2Proof.Machine Sys2Proof.Claims

/-- The next consist of a service is placed (R269, R369, R370). -/
theorem nextConsistPlaced {s : State} {q : BitVec 16} {seq idx : BitVec 32} {v : Service} {x img : Image} {sp : Spot}
    (found : s.dev.sig.services.find? (fun u => u.q == q && u.seq == seq) = some v) (fits : s.spot v.record x (s.classOf v) false = some sp) :
    let t := ((s.placeOn v (x.reread img) idx false sp).mapService v.q v.seq (fun v => v.nowPlaced sp s.now)).mapDev (fun d =>
      d.mapSig (fun y => y.served v))
    Placed s t v (x.reread img) idx false sp ∧ ∃ u, t.dev.sig.services.find? (fun u => u.q == q && u.seq == seq) = some u ∧
      u.placed = v.placed + 1 ∧ u.since = s.now := by
  obtain ⟨rfl, rfl⟩ := Service.named_of_find found
  obtain ⟨placed, services⟩ := s.placed_placeOn v (x.reread img) idx false (State.spot_cores fits)
  generalize s.placeOn v (x.reread img) idx false sp = u at placed services ⊢
  obtain ⟨mem, ⟨c, consists, rest⟩, cars⟩ := placed
  refine ⟨⟨mem, ⟨c, ?_, rest⟩, cars⟩, v.nowPlaced sp s.now, ?_, rfl, rfl⟩
  · exact (Signal.served_keeps _ v).2.trans consists
  · refine (congrArg (List.find? _) (Signal.served_keeps _ v).1).trans ?_
    exact find_mapService (f := fun v => v.nowPlaced sp s.now) (fun _ => ⟨rfl, rfl⟩) (services ▸ found)

/-- Settles O43: consists are placed in their turn with their cars initialised, and released. -/
theorem consistsArePlacedAndReleased : Obligations.ConsistsArePlacedAndReleased := by
  unfold Obligations.ConsistsArePlacedAndReleased
  intro q seq idx v x img sp p y s svc now waits failed
  refine ⟨exec_placeConsist_absent, fun real found image => ?_, fun spec => ?_, fun none => ?_, fun due => ?_⟩
  · have found : s.dev.sig.services.find? (fun u => u.q == q && u.seq == seq) = some v := found
    have runs := exec_placeConsist_real (idx := idx) real found
    refine ⟨fun no => runs.trans (congrArg Host.Outcome.next (State.placeReal_stays image no)), fun may next => ?_⟩
    have runs := runs.trans (congrArg Host.Outcome.next (State.placeReal_next image may next))
    obtain ⟨rfl, rfl⟩ := Service.named_of_find found
    refine ⟨fun names unread => ?_, fun set => ?_⟩
    · rw [if_pos (Device.ttBad_iff.mpr ⟨names, unread⟩)] at runs
      exact ⟨_, runs, State.failService_spec found 3#8⟩
    · have good : ¬ s.dev.ttBad (recTtset v.record) = true := fun bad => by
        obtain ⟨names, unread⟩ := Device.ttBad_iff.mp bad
        exact set.elim names (fun no => no unread)
      rw [if_neg good] at runs
      refine ⟨fun none => ?_, fun fits => ⟨fun waits => ?_, fun turn unread => ?_, fun turn read => ?_⟩⟩
      · rw [none] at runs
        exact runs
      all_goals
        rw [fits] at runs
        dsimp only at runs
      · rw [waits] at runs
        exact runs
      all_goals rw [turn, Bool.not_true, if_neg Bool.false_ne_true] at runs
      · rw [unread] at runs
        exact ⟨_, runs, State.failService_spec found 2#8⟩
      · rw [read] at runs
        obtain ⟨placed, u, is, count, since⟩ := nextConsistPlaced (img := img) (idx := idx) found fits
        exact ⟨_, u, runs, placed, is, count, since⟩
  · have runs := exec_placeConsist_spec (idx := idx) spec
    have stays {no : Prop} (h : no → s.dev.house.fw.pending = true ∨ (if p.adopted then s.before p.svc (s.specRank p) = false else s.realWaits = true))
        (yes : no) : exec (.placeConsist q seq idx) s = .next s := runs.trans (congrArg Host.Outcome.next (State.placeSpec_stays (h yes)))
    refine ⟨fun own => stays fun real => .inr ?_, fun adopted => stays fun later => .inr ?_, stays .inl, fun n image count next more calm turn => ?_⟩
    · rw [own]
      exact real
    · rw [adopted]
      exact later
    have runs := runs.trans (congrArg Host.Outcome.next (State.placeSpec_next image count next more calm turn))
    have own := List.find?_some spec
    simp only [Bool.and_eq_true, beq_iff_eq] at own
    obtain ⟨⟨rfl, rfl⟩, -⟩ := own
    refine ⟨fun none => ?_, fun fits => ⟨fun unread => ?_, fun read => ?_⟩⟩
    · rw [none] at runs
      exact runs
    all_goals
      rw [fits] at runs
      dsimp only at runs
    · rw [unread] at runs
      exact ⟨_, runs, ⟨rfl, rfl, rfl⟩, State.doomSpec_cause s _ _⟩
    · rw [read] at runs
      obtain ⟨placed, services⟩ := s.placed_placeOn p.svc (x.reread img) idx true (State.spot_cores fits)
      dsimp only at runs
      refine ⟨_, runs, ?_⟩
      generalize s.placeOn p.svc (x.reread img) idx true sp = u at placed services ⊢
      obtain ⟨mem, ⟨c, consists, rest⟩, cars⟩ := placed
      have keeps (y : Signal) : (if p.adopted then y.served p.svc else y).services = y.services ∧
          (if p.adopted then y.served p.svc else y).consists = y.consists := by
        split
        · exact y.served_keeps p.svc
        · exact ⟨rfl, rfl⟩
      exact ⟨⟨mem, ⟨c, (keeps _).2.trans consists, rest⟩, cars⟩, (keeps _).1.trans services⟩
  · rw [exec_consistRelease, none]
  · have runs := exec_consistRelease (s := s) (q := q) (seq := seq) (idx := idx)
    rw [due] at runs
    obtain ⟨unreleased, cycle, set, calm, order, fine⟩ := State.toRelease_spec due
    obtain ⟨mem, cars, consists⟩ := s.freed_frame q seq y
    refine ⟨_, runs, mem, ?_, ?_, unreleased, cycle, set, calm, order, fine, fun c here held => ?_, fun c here held r life => ?_, fun c here other => ?_,
      fun z here same => ?_, fun real found => ⟨_, State.freed_service real found, rfl, rfl⟩⟩
    · rw [cars, List.map_map]
      exact List.map_congr_left fun c _ => (y.starts_frame s.now c).1
    · rw [cars, List.map_map]
      exact List.map_congr_left fun c _ => (y.starts_frame s.now c).2
    · rw [cars] at here
      obtain ⟨k, -, rfl⟩ := List.mem_map.mp here
      exact y.starts_runs s.now k held
    · rw [cars]
      refine List.mem_map.mpr ⟨c, here, ?_⟩
      unfold Consist.starts
      rw [if_pos held, life]
    · rw [cars]
      refine List.mem_map.mpr ⟨c, here, if_neg ?_⟩
      rw [other]
      decide
    · rw [consists] at here
      obtain ⟨w, -, rfl⟩ := List.mem_map.mp here
      by_cases mine : w.same y = true
      · rw [if_pos mine]
        exact ⟨rfl, rfl⟩
      · rw [if_neg mine] at same
        exact absurd same mine

end Sys2Proof.Proofs

namespace Sys2Proof.Machine
open Sys2Proof.Claims

/-! A consist is asked to give way, and is stopped by force (R331, R333, R372). -/

section
variable {s : State} {q : BitVec 16} {seq idx : BitVec 32} {x : Consist}

/-- A chosen element of a list that was changed where it was chosen. -/
theorem mem_map_ite {α : Type} {p : α → Bool} {f : α → α} {xs : List α} {y : α} (here : y ∈ xs.map (fun z => if p z then f z else z))
    (chosen : p y = true) : ∃ z ∈ xs, p z = true ∧ y = f z := by
  obtain ⟨z, hz, rfl⟩ := List.mem_map.mp here
  by_cases mine : p z = true
  · exact ⟨z, hz, mine, if_pos mine⟩
  · rw [if_neg mine] at chosen
    exact absurd chosen mine

/-- An element that is not chosen stays. -/
theorem mem_map_ite_of_not {α : Type} {p : α → Bool} {f : α → α} {xs : List α} {y : α} (here : y ∈ xs) (other : p y = false) :
    y ∈ xs.map (fun z => if p z then f z else z) :=
  List.mem_map.mpr ⟨y, here, if_neg (by rw [other]; decide)⟩

theorem exec_preempt_absent (absent : s.dev.sig.consist q seq idx = none) :
    ∀ e, e = .preemptRequest q seq idx ∨ e = .consistPark q seq idx ∨ e = .forcedStop q seq idx ∨ e = .consistResume q seq idx →
      exec e s = .next s := by
  rintro e (rfl | rfl | rfl | rfl)
  · show execPreemptRequest q seq idx s = _
    rw [execPreemptRequest, absent]
  · show execConsistPark q seq idx s = _
    rw [execConsistPark, absent]
  · show execForcedStop q seq idx s = _
    rw [execForcedStop, absent]
  · show execConsistResume q seq idx s = _
    rw [execConsistResume, absent]

section
variable (found : s.dev.sig.consist q seq idx = some x)
include found

theorem Signal.consist_mem : x ∈ s.dev.sig.consists ∧ x.q = q ∧ x.seq = seq := by
  refine ⟨List.mem_of_find?_eq_some found, ?_⟩
  have named := List.find?_some found
  simp only [Bool.and_eq_true, beq_iff_eq] at named
  exact named.1

theorem exec_preemptRequest : exec (.preemptRequest q seq idx) s = .next (
    if x.spec then (if s.chosen x then s.doomSpec q seq else s)
    else if s.chosen x || s.noRoom x || (x.released && x.saved.isNone && s.lowSecondary x) then s.requestPreempt x else s) := by
  show execPreemptRequest q seq idx s = _
  rw [execPreemptRequest, found]

theorem exec_forcedStop_idle (idle : x.preempt = none) : exec (.forcedStop q seq idx) s = .next s := by
  show execForcedStop q seq idx s = _
  rw [execForcedStop, found]
  dsimp only
  rw [idle]

end

/-! The request. -/

/-- A car of a consist that is asked to give way. -/
def Car.asked (due : Nat) (c : Car) : Car := { (if c.tr.masked then c else c.endWadr) with preempt := some due }

theorem Car.asked_keeps (due : Nat) (c : Car) : (c.asked due).tr = c.tr ∧ (c.asked due).ident = c.ident ∧ (c.asked due).place = c.place ∧
    (c.asked due).life = c.life := by
  obtain ⟨tr, -, -, -, -, -, -, -, place, ident, life, -⟩ := Car.endWadr_keeps c
  unfold Car.asked
  dsimp only
  split
  · exact ⟨rfl, rfl, rfl, rfl⟩
  · exact ⟨tr, ident, place, life⟩

theorem State.requestPreempt_full (unasked : x.preempt = none) (full : s.dev.saveRoom x = false) :
    s.requestPreempt x = s.mapDev (fun d => { d with sig := { d.sig with regs := { d.sig.regs with devStat := d.sig.regs.devStat ||| 4#8 } } }) := by
  unfold State.requestPreempt
  rw [if_neg (by rw [unasked]; decide), if_pos (by rw [full]; decide)]

theorem State.requestPreempt_room (unasked : x.preempt = none) (room : s.dev.saveRoom x = true) :
    let due := s.now + s.dev.sig.regs.prdl.toNat * 2000
    s.requestPreempt x = (s.mapConsist x (fun y => { y with preempt := some due })).mapCars (fun c => if x.holds c then c.asked due else c) := by
  unfold State.requestPreempt
  rw [if_neg (by rw [unasked]; decide), if_neg (by rw [room]; decide)]
  rfl

/-- What a consist that is asked to give way becomes. -/
theorem State.requestPreempt_spec (unasked : x.preempt = none) (room : s.dev.saveRoom x = true) :
    let t := s.requestPreempt x
    let due := some (s.now + s.dev.sig.regs.prdl.toNat * 2000)
    t.dev.mem = s.dev.mem ∧ (∀ y ∈ t.dev.sig.consists, y.same x = true → y.preempt = due) ∧
      (∀ c ∈ t.cars, x.holds c = true → c.preempt = due ∧
        (c.tr.masked = false → ∀ w ∈ c.wait, ∀ a p b since limit, w ≠ .wadr a p b since limit)) ∧
      ∀ c ∈ s.cars, x.holds c = false → c ∈ t.cars := by
  intro t due
  have eq : t = _ := State.requestPreempt_room unasked room
  rw [eq]
  refine ⟨rfl, fun y hy same => ?_, fun c hc held => ?_, fun c hc away => ?_⟩
  · obtain ⟨z, -, -, rfl⟩ := mem_map_ite (p := fun z : Consist => z.same x) (f := fun z : Consist => { z with preempt := due }) hy same
    rfl
  · obtain ⟨k, -, -, rfl⟩ := mem_map_ite (p := x.holds) (xs := s.cars) (f := Car.asked _) hc held
    refine ⟨rfl, fun unmasked => ?_⟩
    rw [(Car.asked_keeps _ k).1] at unmasked
    unfold Car.asked
    rw [unmasked, if_neg Bool.false_ne_true]
    exact k.wait_endWadr
  · exact mem_map_ite_of_not (p := x.holds) (xs := s.cars) hc away

/-! The forced stop. -/

/-- A car that is stopped by force stands in the handler, with the snapshot of where it stood (R333). -/
theorem Car.forceStop_runs {c : Car} {now : Nat} (runs : c.life = .running) (unmasked : c.tr.masked = false) :
    let k := c.forceStop now
    k.ident = c.ident ∧ k.life = .parked ∧ k.tr.handler = true ∧ k.tr.masked = true ∧ k.ctl.tcause.extractLsb' 0 8 = 0x0F#8 ∧
      ∃ img, k.tr.snap = some img ∧ img[0] = BitVec.ofBool c.tr.handler ++ 0#46 ++ c.pc := by
  have stops : c.forceStop now = { c.enter { cause := .preemptForced, taddr := c.pc.setWidth 64 } c.pc c.tr.lastPc now now with life := .parked } :=
    if_pos ⟨runs, by rw [unmasked]; rfl⟩
  obtain ⟨tr, -, -, -, -, -, -, -, -, ident, -, -⟩ := Car.endWadr_keeps c
  have code : (0#6 ++ 0#7 ++ BitVec.ofBool false ++ Cause.code .preemptForced).extractLsb' 0 8 = 0x0F#8 := by decide
  intro k
  rw [show k = _ from stops]
  refine ⟨ident, rfl, rfl, rfl, code, _, rfl, ?_⟩
  refine (c.endWadr.image_words _ _ _).1.trans ?_
  rw [tr]

theorem Car.forceStop_stays {c : Car} {now : Nat} (still : c.life ≠ .running ∨ c.tr.masked = true) : c.forceStop now = c := by
  refine if_neg fun both => ?_
  rcases still with still | masked
  · exact still both.1
  · rw [masked] at both
    exact absurd both.2 (by decide)

/-- A car that still runs after the forced stop has its traps masked. -/
theorem Car.forceStop_still {c : Car} {now : Nat} (still : (c.forceStop now).life = .running) :
    c.life = .running ∧ c.tr.masked = true ∧ c.forceStop now = c := by
  by_cases stops : c.life = .running ∧ c.tr.masked = false
  · rw [(Car.forceStop_runs stops.1 stops.2).2.1] at still
    cases still
  · rw [not_and_or, Bool.not_eq_false] at stops
    have stays := Car.forceStop_stays (now := now) stops
    rw [stays] at still
    exact ⟨still, stops.resolve_left (not_not.mpr still), stays⟩

/-- The cars of a consist, stopped by force. -/
def State.stopAll (s : State) (x : Consist) : State := s.mapCars (fun c => if x.holds c then c.forceStop s.now else c)

theorem State.stopAll_spec (s : State) (x : Consist) :
    (∀ c ∈ s.cars, x.holds c = true → c.life = .running → c.tr.masked = false → ∃ k ∈ (s.stopAll x).cars, k.ident = c.ident ∧ k.life = .parked ∧
      k.tr.handler = true ∧ k.tr.masked = true ∧ k.ctl.tcause.extractLsb' 0 8 = 0x0F#8 ∧
      ∃ img, k.tr.snap = some img ∧ img[0] = BitVec.ofBool c.tr.handler ++ 0#46 ++ c.pc) ∧
    ∀ c ∈ s.cars, x.holds c = false ∨ c.life ≠ .running ∨ c.tr.masked = true → c ∈ (s.stopAll x).cars := by
  unfold State.stopAll
  rw [State.mapCars_cars]
  refine ⟨fun c here held runs unmasked => ⟨c.forceStop s.now, ?_, Car.forceStop_runs runs unmasked⟩, fun c here still => ?_⟩
  · exact List.mem_map.mpr ⟨c, here, if_pos held⟩
  · refine List.mem_map.mpr ⟨c, here, ?_⟩
    rcases still with away | still
    · exact if_neg (by rw [away]; decide)
    · rw [Car.forceStop_stays still, ite_self]

/-- A car of the consist that the forced stop leaves running, if there is one. -/
def State.stillRuns (s : State) (x : Consist) : Option Car := ((s.stopAll x).cars.filter x.holds).find? (fun c => c.life == .running)

/-- Whether a car of a consist runs with its traps masked. -/
def State.RunsMasked (s : State) (x : Consist) (c : Car) : Prop := c ∈ s.cars ∧ x.holds c = true ∧ c.life = .running ∧ c.tr.masked = true

theorem State.stillRuns_some {c : Car} (still : s.stillRuns x = some c) : s.RunsMasked x c := by
  unfold State.stillRuns at still
  have runs := List.find?_some still
  rw [beq_iff_eq] at runs
  obtain ⟨here, held⟩ := List.mem_filter.mp (List.mem_of_find?_eq_some still)
  obtain ⟨k, hk, mine, rfl⟩ := mem_map_ite (p := x.holds) (xs := s.cars) (f := fun c => c.forceStop s.now) here held
  obtain ⟨was, masked, same⟩ := Car.forceStop_still runs
  rw [same]
  exact ⟨hk, mine, was, masked⟩

theorem State.stillRuns_none : s.stillRuns x = none ↔ ∀ c, ¬ s.RunsMasked x c := by
  refine ⟨fun nobody c ⟨here, held, runs, masked⟩ => ?_, fun nobody => ?_⟩
  · have kept := (s.stopAll_spec x).2 c here (.inr (.inr masked))
    exact List.find?_eq_none.mp nobody c (List.mem_filter.mpr ⟨kept, held⟩) (beq_iff_eq.mpr runs)
  · cases still : s.stillRuns x with
    | none => rfl
    | some c => exact absurd (State.stillRuns_some still) (nobody c)

theorem exec_forcedStop {due : Nat} (found : s.dev.sig.consist q seq idx = some x) (asked : x.preempt = some due) :
    exec (.forcedStop q seq idx) s = .next (
      if (s.now < due ∧ !x.extended) ∨ x.forced ∨ x.saved.isSome then s
      else if x.spec then s.doomSpec q seq
      else match s.stillRuns x with
        | none => (s.stopAll x).mapConsist x (fun y => { y with forced := true })
        | some c =>
          if !x.extended then (s.stopAll x).mapConsist x (fun y =>
            { y with preempt := some (due + s.dev.sig.regs.prdl.toNat * 2000), extended := true })
          else if s.now < due then s.stopAll x
          else s.abortConsist x 9#8 c.ident.carId) := by
  show execForcedStop q seq idx s = _
  rw [execForcedStop, found]
  dsimp only
  rw [asked]
  rfl

end

end Sys2Proof.Machine

namespace Sys2Proof.Machine
open Sys2Proof.Claims

/-! A consist that stands at its park points is saved (R264, R332). -/

/-- Acting on a car by what changes no state with that car in focus changes nothing. -/
theorem State.atCar_id {s : State} {f : State → State} (r : CarRef) (id : ∀ t : State, t.car ∈ s.cars → f t = t) : s.atCar r f = s := by
  unfold State.atCar
  split
  · exact id s List.mem_cons_self
  · split
    · rfl
    · next i found =>
      obtain ⟨inside, -, -⟩ := List.findIdx?_eq_some_iff_getElem.mp found
      have peer : s.peers.getD i s.car = s.peers[i] := by rw [List.getD_eq_getElem?_getD, List.getElem?_eq_getElem inside, Option.getD_some]
      dsimp only
      rw [id _ (List.mem_cons_of_mem _ (by rw [peer]; exact List.getElem_mem inside))]
      have back : (s.peers.set i s.car).getD i (s.peers.getD i s.car) = s.car := by
        rw [List.getD_eq_getElem?_getD, List.getElem?_set_self inside, Option.getD_some]
      have peers : (s.peers.set i s.car).set i (s.peers.getD i s.car) = s.peers := by rw [List.set_set, peer, List.set_getElem_self]
      dsimp only
      rw [back, peers]

/-- A car without a stash mapping has nothing to put back. -/
theorem State.parkStash_of_none {s : State} (unmapped : s.car.eng.stash = []) : s.parkStash = s := by
  have kept : ({ s.car with eng := { s.car.eng with stash := [] } } : Car) = s.car := by rw [← unmapped]
  unfold State.parkStash
  rw [unmapped]
  simp only [List.foldl_nil, State.mapCar, unmapped, List.map_nil, kept]

section
variable {s : State} {x : Consist}

/-- The stream copies that end with their domain. -/
def State.keptCopies (s : State) (c : Car) : List Copy :=
  c.eng.copies.filter (fun k => !((s.dev.streams.filter (fun x => !s.cars.any (fun c => c.place.domain == some x.domain))).any
    (fun x => x.car == c.ref && x.num == k.num) && (k.op == .cls || k.op == .clsf)))

/-- The cars of a consist, out of their coupling domains. -/
def State.unbound (s : State) (x : Consist) : State :=
  s.mapCars (fun c => if x.holds c then { c with place := { c.place with domain := none } } else c)

/-- The state with the streams of a consist's domains ended. -/
def State.atRest (s : State) (x : Consist) : State := (s.unbound x).endStreams

/-- What ends with the domain of a car. -/
def State.rested (s : State) (x : Consist) (c : Car) : Car :=
  let k := if x.holds c then { c with place := { c.place with domain := none } } else c
  { k with eng := { k.eng with copies := (s.unbound x).keptCopies k } }

theorem State.rested_holds (c : Car) : x.holds (s.rested x c) = x.holds c := by
  unfold State.rested
  dsimp only
  split <;> rfl

theorem State.rested_stash (c : Car) : (s.rested x c).eng.stash = c.eng.stash := by
  unfold State.rested
  dsimp only
  split <;> rfl

theorem State.cars_atRest : (s.atRest x).cars = s.cars.map (s.rested x) := by
  unfold State.atRest State.endStreams
  simp only [mapCars_cars, mapDev_cars]
  show ((s.unbound x).cars.map _) = _
  unfold State.unbound
  rw [mapCars_cars, List.map_map]
  rfl

theorem State.mine_atRest : (s.atRest x).cars.filter x.holds = (s.cars.filter x.holds).map (s.rested x) := by
  rw [State.cars_atRest, List.filter_map]
  exact congrArg _ (List.filter_congr fun c _ => State.rested_holds c)

/-- The cars as they are saved, when nothing of them is in a stash. -/
def State.savedCars (s : State) (x : Consist) : List Car :=
  ((s.cars.filter x.holds).map (s.rested x)).zipIdx.map (fun p => p.1.saved x (s.fresh + p.2))

/-- The state after a consist is saved, but for consists that are dropped with it. -/
def State.stored (s : State) (x : Consist) : State :=
  let t := s.atRest x
  let cs := s.savedCars x
  (((({ t with fresh := t.fresh + cs.length }).letGo x.holds).mapCars (fun c => if x.holds c then c.leaveCore else c)).mapConsist x
    (fun y => { y with saved := some cs, cars := [], since := t.now })).mapDev Device.sweepSets

theorem State.save_eq (unmapped : NoStash s) : s.save x =
    if s.dev.sig.failedFor x then (s.stored x).dropWaiting x.q x.seq else s.stored x := by
  have still (rs : List Car) : rs.foldl (fun s c => s.atCar c.ref State.parkStash) (s.atRest x) = s.atRest x := by
    induction rs with
    | nil => rfl
    | cons r rs ih =>
      rw [List.foldl_cons, State.atCar_id _ fun t here => ?_]
      · exact ih
      · refine State.parkStash_of_none ?_
        rw [State.cars_atRest] at here
        obtain ⟨c, hc, same⟩ := List.mem_map.mp here
        rw [← same, State.rested_stash]
        exact unmapped.2 c hc
  have cars : ((s.atRest x).cars.filter x.holds).zipIdx.map (fun p => p.1.saved x ((s.atRest x).fresh + p.2)) = s.savedCars x := by
    rw [State.mine_atRest]
    rfl
  show (let t := ((s.atRest x).cars.filter x.holds).foldl (fun s c => s.atCar c.ref State.parkStash) (s.atRest x)
    let cs := (t.cars.filter x.holds).zipIdx.map (fun p => p.1.saved x (t.fresh + p.2))
    let u := (((({ t with fresh := t.fresh + cs.length }).letGo x.holds).mapCars (fun c => if x.holds c then c.leaveCore else c)).mapConsist x
      (fun y => { y with saved := some cs, cars := [], since := t.now })).mapDev Device.sweepSets
    if u.dev.sig.failedFor x then u.dropWaiting x.q x.seq else u) = _
  rw [still]
  dsimp only
  rw [cars]
  rfl

theorem State.dropWaiting_consists_eq (s : State) (q : BitVec 16) (seq : BitVec 32) : (s.dropWaiting q seq).dev.sig.consists =
    s.dev.sig.consists.filter (fun y => !(y.q == q && y.seq == seq && !y.spec && (y.saved.isSome || !y.released))) := rfl

theorem State.stored_frame (s : State) (x : Consist) : (s.stored x).dev.mem = s.dev.mem ∧
    (s.stored x).cars = (s.atRest x).cars.map (fun c => if x.holds c then c.leaveCore else c) ∧
    (s.stored x).dev.sig.consists = s.dev.sig.consists.map (fun y => if y.same x then
      { y with saved := some (s.savedCars x), cars := [], since := (s.atRest x).now } else y) := ⟨rfl, rfl, rfl⟩

/-- What stands in the package when a consist is saved. -/
theorem State.save_spec (unmapped : NoStash s) (main : x.spec = false) :
    let t := s.save x
    t.dev.mem = s.dev.mem ∧ (∀ c ∈ t.cars, x.holds c = false) ∧
      (∀ y ∈ t.dev.sig.consists, y.same x = true → y.saved = some (s.savedCars x) ∧ y.cars = []) ∧
      (s.dev.sig.failedFor x = true → ∀ y ∈ t.dev.sig.consists, y.same x = false) ∧
      (s.dev.sig.failedFor x = false → x ∈ s.dev.sig.consists → ∃ y ∈ t.dev.sig.consists, y.same x = true) := by
  have self : x.same x = true := by simp [Consist.same]
  have gone : ∀ c ∈ (s.stored x).cars, x.holds c = false := by
    rw [(s.stored_frame x).2.1, List.forall_mem_map]
    exact fun c _ => Consist.holds_leaveCore c
  have kept : ∀ y ∈ (s.stored x).dev.sig.consists, y.same x = true → y.saved = some (s.savedCars x) ∧ y.cars = [] := by
    intro y hy same
    rw [(s.stored_frame x).2.2] at hy
    obtain ⟨z, -, -, rfl⟩ := mem_map_ite (p := fun z : Consist => z.same x) (xs := s.dev.sig.consists)
      (f := fun z : Consist => { z with saved := some (s.savedCars x), cars := [], since := (s.atRest x).now }) hy same
    exact ⟨rfl, rfl⟩
  intro t
  cases failed : s.dev.sig.failedFor x with
  | true =>
    rw [show t = (s.stored x).dropWaiting x.q x.seq from (State.save_eq unmapped).trans (if_pos failed)]
    refine ⟨(s.stored_frame x).1, State.dropWaiting_gone gone _ _, fun y hy => kept y (State.dropWaiting_consists hy), fun _ y hy => ?_, nofun⟩
    refine Bool.eq_false_iff.mpr fun same => ?_
    rw [State.dropWaiting_consists_eq] at hy
    obtain ⟨here, other⟩ := List.mem_filter.mp hy
    simp only [(kept y here same).1, Option.isSome_some, Bool.true_or, Bool.and_true] at other
    simp only [Consist.same, Bool.and_eq_true, beq_iff_eq] at same
    simp [same, main] at other
  | false =>
    rw [show t = s.stored x from (State.save_eq unmapped).trans (if_neg (by rw [failed]; decide))]
    refine ⟨(s.stored_frame x).1, gone, kept, nofun, fun _ here => ?_⟩
    rw [(s.stored_frame x).2.2]
    refine ⟨{ x with saved := some (s.savedCars x), cars := [], since := (s.atRest x).now }, ?_, self⟩
    exact List.mem_map.mpr ⟨x, here, if_pos self⟩

/-! What is saved of a car (R264). -/

/-- A table that is written out key by key. -/
theorem Tab.get_range_map {α : Type} (d : α) {f : Nat → Nat × α} (key : ∀ i, (f i).1 = i) {n k : Nat} (inside : k < n) :
    Tab.get d ((List.range n).map f) k = (f k).2 := by
  have found : (List.range n).find? ((fun c : Nat × α => c.1 == k) ∘ f) = some k := by
    rw [List.find?_range_eq_some]
    refine ⟨by simp [key], List.mem_range.mpr inside, fun j before => ?_⟩
    simp [key, before.ne]
  unfold Tab.get
  rw [List.find?_map, found]
  rfl

theorem Car.bank_lt (c : Car) (b : BitVec 4) : c.bank b < 16 := by
  unfold Car.bank
  split <;> [split; skip] <;> omega

/-- A register that a park point names is saved with its value. -/
theorem Car.parkVecs_named {c : Car} {i : Image} {p : BitVec 17 × Word × BitVec 8} {n k : Nat}
    (point : i.parks.find? (fun p => p.1 == c.tr.lastPc) = some p) (small : n < 64) (named : p.2.1.getLsbD n = true) :
    Tab.get 0#32768 (c.parkVecs i k) (c.bank (p.2.2.extractLsb' 0 4) * 64 + n) = c.rV (c.bank (p.2.2.extractLsb' 0 4) * 64 + n) := by
  have bank := c.bank_lt (p.2.2.extractLsb' 0 4)
  unfold Car.parkVecs
  rw [point]
  dsimp only
  rw [Tab.get_range_map _ (fun i => by split <;> rfl) (by omega), if_pos]
  exact List.any_eq_true.mpr ⟨n, List.mem_range.mpr small, by rw [named, beq_self_eq_true]; rfl⟩

/-- Every car of a consist is saved, with all but the vectors that are not live. -/
theorem State.savedCars_spec (s : State) (x : Consist) : (s.savedCars x).length = (s.cars.filter x.holds).length ∧
    ∀ c ∈ s.cars.filter x.holds, ∃ n, (s.rested x c).saved x n ∈ s.savedCars x := by
  refine ⟨by simp [State.savedCars], fun c here => ?_⟩
  obtain ⟨j, inside, rfl⟩ := List.mem_iff_getElem.mp here
  refine ⟨s.fresh + j, List.mem_map.mpr ⟨(s.rested x _, j), ?_, rfl⟩⟩
  rw [List.mk_mem_zipIdx_iff_getElem?, List.getElem?_map, List.getElem?_eq_getElem inside]
  rfl

/-- What is saved of a car. -/
theorem State.saved_keeps (s : State) (x : Consist) (c : Car) (n : Nat) :
    let k := (s.rested x c).saved x n
    (k.ident = c.ident ∧ k.ctl = c.ctl ∧ k.pc = c.pc ∧ k.loop = c.loop ∧ k.spad = c.spad ∧ k.tr = c.tr) ∧
    k.regs = { c.regs with v := k.regs.v } ∧ (x.forced = true → k.regs.v = c.regs.v) ∧
    ∀ p, x.forced = false → x.image.parks.find? (fun p => p.1 == c.tr.lastPc) = some p → ∀ n < 64, p.2.1.getLsbD n = true →
      k.rV (c.bank (p.2.2.extractLsb' 0 4) * 64 + n) = c.rV (c.bank (p.2.2.extractLsb' 0 4) * 64 + n) := by
  have same : (s.rested x c).ident = c.ident ∧ (s.rested x c).ctl = c.ctl ∧ (s.rested x c).pc = c.pc ∧ (s.rested x c).loop = c.loop ∧
      (s.rested x c).spad = c.spad ∧ (s.rested x c).tr = c.tr ∧ (s.rested x c).regs = c.regs := by
    unfold State.rested
    dsimp only
    split <;> exact ⟨rfl, rfl, rfl, rfl, rfl, rfl, rfl⟩
  obtain ⟨ident, ctl, pc, loop, spad, tr, regs⟩ := same
  intro k
  refine ⟨⟨ident, ctl, pc, loop, spad, tr⟩, ?_, fun forced => ?_, fun p calm point m small named => ?_⟩
  · show (if x.forced then _ else _) = ({ c.regs with v := _ } : Regs)
    rw [regs]
    cases forced : x.forced <;> simp [k, Car.saved, forced, regs]
  · show (if x.forced then _ else _ : Regs).v = _
    rw [if_pos forced, regs]
  · have vecs : k.regs.v = (s.rested x c).parkVecs x.image n := by
      show (if x.forced then _ else _ : Regs).v = _
      rw [if_neg (by rw [calm]; decide)]
    have bank : (s.rested x c).bank (p.2.2.extractLsb' 0 4) = c.bank (p.2.2.extractLsb' 0 4) := by rw [Car.bank, Car.bank, ident]
    have val : (s.rested x c).rV = c.rV := by
      funext i
      rw [Car.rV, Car.rV, regs]
    have kept := Car.parkVecs_named (c := s.rested x c) (k := n) (tr ▸ point) small named
    rw [bank, val] at kept
    rw [Car.rV, vecs]
    exact kept

end

end Sys2Proof.Machine

namespace Sys2Proof.Machine
open Sys2Proof.Claims

/-! A saved consist comes back (R334, R373). -/

/-- Cars that come to cores of their own are there, and the device is as it was. -/
theorem State.foldl_putCar (cs : List Car) (t : State) : (cs.foldl State.putCar t).dev = t.dev ∧
    ((cs.map Car.ref).Nodup → ∀ c ∈ cs, c ∈ (cs.foldl State.putCar t).cars) := by
  have stays (cs : List Car) (t : State) (k : Car) (here : k ∈ t.cars) (others : ∀ c ∈ cs, k.ref ≠ c.ref) : k ∈ (cs.foldl State.putCar t).cars := by
    induction cs generalizing t with
    | nil => exact here
    | cons c cs ih => exact ih _ (State.putCar_other here (others c List.mem_cons_self)) fun c' later => others c' (List.mem_cons_of_mem _ later)
  induction cs generalizing t with
  | nil => exact ⟨rfl, fun _ c none => absurd none List.not_mem_nil⟩
  | cons c cs ih =>
    refine ⟨(ih _).1.trans (State.putCar_dev t c), fun once c' here => ?_⟩
    rw [List.map_cons, List.nodup_cons] at once
    rcases List.mem_cons.mp here with rfl | later
    · exact stays cs _ _ (State.putCar_self t _) fun k hk same => once.1 (List.mem_map.mpr ⟨k, hk, same.symm⟩)
    · exact (ih _).2 once.2 c' later

section
variable {s : State} {q : BitVec 16} {seq idx : BitVec 32} {x : Consist} {sp : Spot} {cars : List Car} {img : Image}

/-- Another consist or service comes before a resumption. -/
def State.RunsFirst (s : State) (x : Consist) : Prop :=
  (∃ v ∈ s.dev.sig.services, s.placeable v = true ∧ s.rankOf v < s.consistClass x) ∨
    (∃ p ∈ s.dev.sig.specs, s.specPlaceable p = true ∧ s.specRank p < s.consistClass x) ∨
    ∃ y ∈ s.dev.sig.consists, s.resumable y = true ∧ s.consistClass y < s.consistClass x

section
variable (found : s.dev.sig.consist q seq idx = some x)
include found

theorem exec_consistResume_unfit (no : x.saved = none ∨ s.resumable x = false) : exec (.consistResume q seq idx) s = .next s := by
  show execConsistResume q seq idx s = _
  rw [execConsistResume, found]
  dsimp only
  rcases no with unsaved | unfit
  · rw [unsaved]
  · split
    · rw [unfit]
      exact congrArg _ (if_pos rfl)
    · rfl

section
variable (saved : x.saved = some cars) (fits : s.spot (s.recordOf x) x.image (s.consistClass x) false = some sp)
include saved fits

theorem exec_consistResume_late (late : s.RunsFirst x) : exec (.consistResume q seq idx) s = .next s := by
  show execConsistResume q seq idx s = _
  rw [execConsistResume, found]
  dsimp only
  rw [saved, fits]
  refine congrArg _ (if_pos ?_)
  simp only [Bool.or_eq_true, List.any_eq_true, Bool.and_eq_true, decide_eq_true_eq]
  rcases late with v | p | y
  · exact .inl (.inl (.inr v))
  · exact .inl (.inr p)
  · exact .inr y

theorem exec_consistResume (first : ¬ s.RunsFirst x) (fit : s.resumable x = true) : exec (.consistResume q seq idx) s = .next (
    match s.dev.imageNow x.image (s.dev.sig.loads sp x.image.id) false, s.dev.sig.services.find? (fun v => v.q == q && v.seq == seq) with
    | some img, _ => s.restore x img cars sp
    | none, some v => s.failService v 2#8
    | none, none => s) := by
  show execConsistResume q seq idx s = _
  rw [execConsistResume, found]
  dsimp only
  rw [saved, fits]
  refine congrArg _ ((if_neg ?_).trans rfl)
  simp only [fit, Bool.not_true, Bool.false_or, Bool.or_eq_true, List.any_eq_true, Bool.and_eq_true, decide_eq_true_eq]
  rintro ((v | p) | y)
  · exact first (.inl v)
  · exact first (.inr (.inl p))
  · exact first (.inr (.inr y))

end

end

/-! The vector banks (R13, R14). -/

/-- A name below 8 selects the same register before and after a resumption in another MERGE role. -/
theorem Car.vecsFor_bank {c a : Car} {n : Nat} (vecs : a.regs.v = c.vecsFor a.ident.merge n) (b : BitVec 4)
    (named : b.toNat < 8 ∨ (c.ident.merge = 0#2 ∧ a.ident.merge = 0#2)) {i : Nat} (small : i < 64) :
    a.rV (a.bank b * 64 + i) = c.rV (c.bank b * 64 + i) := by
  unfold Car.rV
  rw [vecs, Car.vecsFor]
  by_cases same : a.ident.merge = c.ident.merge
  · rw [if_pos same, Car.bank, Car.bank, same]
  · have low : b.toNat < 8 := named.resolve_right fun zero => same (zero.2.trans zero.1.symm)
    have bank := a.bank_lt b
    rw [if_neg same]
    rw [Tab.get_range_map _ (fun i => by split <;> rfl) (by omega), show (a.bank b * 64 + i) / 64 = a.bank b by omega,
      show (a.bank b * 64 + i) % 64 = i by omega]
    have name : bankName a.ident.merge (a.bank b) = some b.toNat := by
      unfold bankName Car.bank
      cases a.ident.merge.getLsbD 0 <;> cases a.ident.merge.getLsbD 1 <;> simp <;> omega
    have bound : bankNamed c.ident.merge b.toNat = some (c.bank b) := by
      unfold bankNamed Car.bank
      cases c.ident.merge.getLsbD 0 <;> simp [low, Nat.mod_eq_of_lt low]
    rw [name, Option.bind_some, bound]
    dsimp only
    rw [Nat.mul_comm]
    rfl

/-! What a car and its consist have on the new spot. -/

/-- The placement of a consist that comes back. -/
def State.comingBack (s : State) (x : Consist) (img : Image) (sp : Spot) : Placement :=
  { svc := (s.dev.sig.services.find? (fun v => v.q == x.q && v.seq == x.seq)).getD
      { q := x.q, seq := x.seq, order := 0, record := s.recordOf x }
    image := x.image.reread img, idx := x.idx, spec := false, secondary := sp.secondary
    merge := if sp.secondary then 3#2 else if Config.mergeChoice s.fresh then 1#2 else 0#2
    lines := (List.finRange 16).zip sp.lines, base := s.dev.nextId, release := s.now + placeCycles }

/-- A saved car on its new core. -/
def State.back (s : State) (x : Consist) (img : Image) (sp : Spot) (cars : List Car) (c : Car) (core : Nat) : Car :=
  s.revive x (s.comingBack x img sp) (departed cars) (cars.map (fun c => c.ident.coreId)) sp.cores c core

theorem State.back_spec (s : State) (x : Consist) (img : Image) (sp : Spot) (cars : List Car) (c : Car) {core : Nat} (small : core < 336) :
    let a := s.back x img sp cars c core
    a.ref = 2 * core + (if sp.secondary then 1 else 0) ∧ a.regs = { c.regs with v := a.regs.v } ∧
    a.regs.v = c.vecsFor a.ident.merge (s.fresh + c.ident.carId.toNat) ∧ a.spad = c.spad ∧ a.ident.carId = c.ident.carId ∧
    a.ident.serviceId = c.ident.serviceId ∧ a.tr.snap = c.tr.snap ∧ a.tr.masked = c.tr.masked ∧ a.ctl.ccyc = 0#64 ∧
    a.pc = (if x.forced = false ∧ c.loop.redirected = true then c.loop.lpro else c.pc) ∧
    a.life = (if c.life = .finished then .finished else .held (s.now + 256)) := by
  have core' : (BitVec.ofNat 9 core).toNat = core := by rw [BitVec.toNat_ofNat, Nat.mod_eq_of_lt (by omega)]
  intro a
  refine ⟨?_, rfl, rfl, rfl, rfl, rfl, rfl, rfl, rfl, ?_, rfl⟩
  · show (BitVec.ofNat 9 core).toNat * 2 + (if sp.secondary then 1 else 0) = _
    rw [core', Nat.mul_comm]
  · show (if !x.forced && c.loop.redirected then c.loop.lpro else c.pc) = _
    simp only [Bool.and_eq_true, Bool.not_eq_true']

/-- The dies that are new to the service of a consist that comes back. -/
def State.newDies (s : State) (x : Consist) (img : Image) (sp : Spot) : List Nat :=
  ((sp.cores.map (fun k => k / 16)).filter (fun d => !(s.comingBack x img sp).svc.dies.contains d)).eraseDups

/-- The state once the cars of a consist stand on their cores. -/
def State.settled (t : State) (x : Consist) (p : Placement) (cars : List Car) (refs dies : List Nat) (fresh : Nat) : State :=
  let u := t.letGo (fun k => refs.contains k.ref && !p.secondary)
  (({ u with fresh := fresh + 2 + cars.length }).mapService x.q x.seq (fun v => { v with dies := v.dies ++ dies })).mapDev (fun d =>
    let d := d.cleanHandles p.svc dies
    { d with
      nextId := d.nextId + x.image.consist
      sig := { d.sig with
        consists := d.sig.consists.map (fun (y : Consist) => if y.same x then y.again p refs else y)
        loaded := refs.foldl (fun t r => Tab.set t r x.image.id) d.sig.loaded } })

theorem State.settled_frame (t : State) (x : Consist) (p : Placement) (cars : List Car) (refs dies : List Nat) (fresh : Nat) :
    (t.settled x p cars refs dies fresh).dev.mem = t.dev.mem ∧ (t.settled x p cars refs dies fresh).cars = t.cars ∧
    (t.settled x p cars refs dies fresh).dev.sig.consists = t.dev.sig.consists.map (fun y => if y.same x then y.again p refs else y) := ⟨rfl, rfl, rfl⟩

theorem State.restore_eq (s : State) (x : Consist) (img : Image) (cars : List Car) (sp : Spot) : s.restore x img cars sp =
    ((cars.zip sp.cores).foldl (fun t k => t.putCar (s.back x img sp cars k.1 k.2)) s).settled x (s.comingBack x img sp) cars
      (sp.cores.map (fun k => 2 * k + (if sp.secondary then 1 else 0))) (s.newDies x img sp) s.fresh := rfl

theorem map_snd_zip_sublist {α β : Type} (xs : List α) (ys : List β) : ((xs.zip ys).map Prod.snd).Sublist ys := by
  induction xs generalizing ys with
  | nil => exact List.nil_sublist ys
  | cons x xs ih =>
    cases ys with
    | nil => exact List.nil_sublist []
    | cons y ys => exact (ih ys).cons_cons y

/-- Each car comes back on its core, and the consist with them. -/
theorem State.restore_spec (distinct : sp.cores.Nodup ∧ ∀ k ∈ sp.cores, k < 336) (x : Consist) (img : Image) (cars : List Car) :
    let t := s.restore x img cars sp
    t.dev.mem = s.dev.mem ∧ (t.dev.sig.consists = s.dev.sig.consists.map (fun y => if y.same x then y.again (s.comingBack x img sp)
        (sp.cores.map (fun k => 2 * k + (if sp.secondary then 1 else 0))) else y)) ∧
    ∀ (k core : Nat) (c : Car), sp.cores[k]? = some core → cars[k]? = some c → s.back x img sp cars c core ∈ t.cars := by
  let w := fun k : Car × Nat => s.back x img sp cars k.1 k.2
  have fold : (cars.zip sp.cores).foldl (fun t k => t.putCar (s.back x img sp cars k.1 k.2)) s = ((cars.zip sp.cores).map w).foldl State.putCar s :=
    List.foldl_map.symm
  obtain ⟨dev, mem⟩ := State.foldl_putCar ((cars.zip sp.cores).map w) s
  have once : (((cars.zip sp.cores).map w).map Car.ref).Nodup := by
    have refs : ((cars.zip sp.cores).map w).map Car.ref =
        ((cars.zip sp.cores).map Prod.snd).map (fun k => 2 * k + (if sp.secondary then 1 else 0)) := by
      rw [List.map_map, List.map_map]
      exact List.map_congr_left fun k here => (s.back_spec x img sp cars k.1 (distinct.2 k.2 (List.of_mem_zip here).2)).1
    rw [refs]
    refine List.Nodup.map (fun a b same => by simpa using same) ?_
    exact distinct.1.sublist (map_snd_zip_sublist _ _)
  rw [State.restore_eq, fold]
  obtain ⟨hmem, hcars, hconsists⟩ := State.settled_frame (((cars.zip sp.cores).map w).foldl State.putCar s) x (s.comingBack x img sp) cars
    (sp.cores.map (fun k => 2 * k + (if sp.secondary then 1 else 0))) (s.newDies x img sp) s.fresh
  refine ⟨hmem.trans (congrArg Device.mem dev), hconsists.trans (by rw [dev]), fun k core c at_ of => ?_⟩
  rw [hcars]
  refine mem once _ (List.mem_map.mpr ⟨(c, core), ?_, rfl⟩)
  exact List.mem_of_getElem? (List.getElem?_zip_eq_some.mpr ⟨of, at_⟩)

end

end Sys2Proof.Machine

namespace Sys2Proof.Machine
open Sys2Proof.Claims

section
variable {s : State} {q : BitVec 16} {seq idx : BitVec 32} {x : Consist}

/-- A car has come to rest, finished or at its park point (R332). -/
def State.Rests (s : State) (c : Car) : Prop :=
  s.quiet c = true ∧ (c.life = .finished ∨ c.life = .parked ∨ (c.life = .running ∧ .park ∈ c.wait))

theorem State.rests_iff (s : State) (c : Car) :
    (s.quiet c && (c.life == .finished || c.life == .parked || (c.life == .running && c.parkedHere))) = true ↔ s.Rests c := by
  simp only [Bool.and_eq_true, Bool.or_eq_true, beq_iff_eq, Car.parkedHere, List.any_eq_true, exists_eq_right, or_assoc, State.Rests]

theorem exec_consistPark (found : s.dev.sig.consist q seq idx = some x) :
    let rest := s.cars.filter x.holds ≠ [] ∧ ∀ c ∈ s.cars.filter x.holds, s.Rests c
    let stopping := x.extended = true ∧ x.forced = false
    (x.saved ≠ none ∨ x.spec = true ∨ stopping ∨ ¬ rest → exec (.consistPark q seq idx) s = .next s) ∧
    (x.saved = none → x.spec = false → ¬ stopping → rest → exec (.consistPark q seq idx) s = .next (s.save x)) := by
  intro rest stopping
  have cond : (x.saved.isSome || x.spec || (s.cars.filter x.holds).isEmpty || (x.extended && !x.forced)
      || !(s.cars.filter x.holds).all (fun c => s.quiet c && (c.life == .finished || c.life == .parked || (c.life == .running && c.parkedHere)))) = true ↔
      (x.saved ≠ none ∨ x.spec = true ∨ stopping ∨ ¬ rest) := by
    have all : (s.cars.filter x.holds).all (fun c => s.quiet c && (c.life == .finished || c.life == .parked || (c.life == .running && c.parkedHere))) = true ↔
        ∀ c ∈ s.cars.filter x.holds, s.Rests c := List.all_eq_true.trans (forall₂_congr fun c _ => s.rests_iff c)
    rw [Bool.or_eq_true, Bool.or_eq_true, Bool.or_eq_true, Bool.or_eq_true, Option.isSome_iff_ne_none, List.isEmpty_iff, Bool.and_eq_true,
      Bool.not_eq_true', Bool.not_eq_true', ← Bool.not_eq_true (List.all _ _), all]
    simp only [rest, stopping, not_and_or, not_not, or_assoc, or_left_comm (a := s.cars.filter x.holds = [])]
  have runs : exec (.consistPark q seq idx) s = .next (if (x.saved.isSome || x.spec || (s.cars.filter x.holds).isEmpty || (x.extended && !x.forced)
      || !(s.cars.filter x.holds).all (fun c => s.quiet c && (c.life == .finished || c.life == .parked || (c.life == .running && c.parkedHere)))) = true
      then s else s.save x) := by
    show execConsistPark q seq idx s = _
    rw [execConsistPark, found]
  rw [runs]
  refine ⟨fun no => congrArg _ (if_pos (cond.mpr no)), fun unsaved main calm still => congrArg _ (if_neg fun no => ?_)⟩
  rcases cond.mp no with saved | spec | begun | moves
  · exact saved unsaved
  · exact absurd (main.symm.trans spec) Bool.false_ne_true
  · exact calm begun
  · exact moves still

end

end Sys2Proof.Machine

namespace Sys2Proof.Proofs
open Sys2Proof.Machine Sys2Proof.Claims

/-- Settles O45: a consist is asked to give way, is saved at rest, stopped by force or aborted, and comes back with what was saved. -/
theorem preemptionParksStopsAndResumes : Obligations.PreemptionParksStopsAndResumes := by
  unfold Obligations.PreemptionParksStopsAndResumes
  intro q seq idx x s names prdl
  refine ⟨fun e he absent => exec_preempt_absent absent e he, fun found => ?_⟩
  obtain ⟨here, hq, hseq⟩ := Signal.consist_mem found
  have asks (main : x.spec = false) (why : s.chosen x = true ∨ s.noRoom x = true ∨ (x.released = true ∧ x.saved = none ∧ s.lowSecondary x = true)) :
      exec (.preemptRequest q seq idx) s = .next (s.requestPreempt x) := by
    refine (exec_preemptRequest found).trans (congrArg _ ((if_neg (by rw [main]; decide)).trans (if_pos ?_)))
    rw [Bool.or_eq_true, Bool.or_eq_true, Bool.and_eq_true, Bool.and_eq_true, Option.isNone_iff_eq_none, or_assoc, and_assoc]
    exact why
  refine ⟨fun other idle => ?_, fun chosen spec => ?_, fun main why unasked => ⟨fun full => ?_, fun room => ?_⟩, ?_, fun due asked => ?_,
    exec_forcedStop_idle found, exec_consistResume_unfit found, fun cars sp saved fits => ?_⟩
  · rw [exec_preemptRequest found, other]
    rcases idle with spec | ⟨roomy, calm⟩
    · rw [if_pos spec, if_neg Bool.false_ne_true]
    · cases spec : x.spec with
      | true => rw [if_pos rfl, if_neg Bool.false_ne_true]
      | false =>
        rw [if_neg Bool.false_ne_true, roomy, if_neg]
        rcases calm with unreleased | saved | high
        · rw [unreleased]; simp
        · rw [Option.isNone_eq_false_iff.mpr (Option.isSome_iff_ne_none.mpr saved)]; simp
        · rw [high]; simp
  · refine ⟨_, (exec_preemptRequest found).trans (congrArg _ ((if_pos spec).trans (if_pos chosen))), ⟨rfl, rfl, rfl⟩, State.doomSpec_cause s q seq⟩
  · exact ⟨_, (asks main why).trans (congrArg _ (State.requestPreempt_full unasked full)), ⟨rfl, rfl, rfl⟩, rfl, rfl⟩
  · exact ⟨_, asks main why, State.requestPreempt_spec unasked room⟩
  · obtain ⟨stays, saves⟩ := exec_consistPark found
    refine ⟨stays, fun unsaved main calm rest unmapped => ?_⟩
    obtain ⟨mem, gone, saved, failed, kept⟩ := State.save_spec unmapped main
    obtain ⟨length, each⟩ := s.savedCars_spec x
    refine ⟨_, saves unsaved main calm rest, mem, gone, s.savedCars x, saved, length, failed, fun fine => kept fine here, fun c mine => ?_⟩
    obtain ⟨n, is⟩ := each c mine
    obtain ⟨⟨ident, ctl, pc, loop, spad, tr⟩, regs, forced, point⟩ := s.saved_keeps x c n
    exact ⟨_, is, ident, ctl, pc, loop, spad, tr, (congrArg Regs.s regs :), (congrArg Regs.k regs :), (congrArg Regs.h regs :), (congrArg Regs.f regs :),
      (congrArg Regs.w regs :), (congrArg Regs.e regs :), (congrArg Regs.fmt regs :), forced, point⟩
  · have runs := exec_forcedStop found asked
    obtain ⟨stops, others⟩ := s.stopAll_spec x
    intro early stopped masked
    have go (late : ¬ early) (unforced : x.forced = false) (unsaved : x.saved = none) :
        ¬ ((s.now < due ∧ !x.extended) ∨ x.forced ∨ x.saved.isSome) := by
      rw [unforced, unsaved, Bool.not_eq_true']
      rintro (soon | forced | saved)
      · exact late soon
      · exact Bool.false_ne_true forced
      · exact Bool.false_ne_true saved
    have acts (late : ¬ early) (unforced : x.forced = false) (unsaved : x.saved = none) (main : x.spec = false) :=
      runs.trans (congrArg _ ((if_neg (go late unforced unsaved)).trans (if_neg (by rw [main]; decide))))
    refine ⟨fun no => ?_, fun late unforced unsaved spec => ?_, fun late unforced unsaved main nobody => ?_,
      fun late unforced unsaved main ⟨c, hc⟩ => ?_⟩
    · refine runs.trans (congrArg _ (if_pos ?_))
      rw [Bool.not_eq_true', Option.isSome_iff_ne_none]
      exact no
    · refine ⟨_, runs.trans (congrArg _ ((if_neg (go late unforced unsaved)).trans (if_pos spec))), ⟨rfl, rfl, rfl⟩, ?_⟩
      rw [hq, hseq]
      exact State.doomSpec_cause s q seq
    · have acts := acts late unforced unsaved main
      rw [State.stillRuns_none.mpr nobody] at acts
      refine ⟨_, acts, ⟨rfl, stops, others⟩, fun y hy same => ?_⟩
      obtain ⟨z, -, -, rfl⟩ := mem_map_ite (p := fun z : Consist => z.same x) (xs := s.dev.sig.consists)
        (f := fun z : Consist => { z with forced := true }) hy same
      rfl
    · obtain ⟨k, still⟩ : ∃ k, s.stillRuns x = some k := by
        cases still : s.stillRuns x with
        | none => exact absurd hc (State.stillRuns_none.mp still c)
        | some k => exact ⟨k, rfl⟩
      have acts := acts late unforced unsaved main
      rw [still] at acts
      refine ⟨fun first => ?_, fun again soon => ?_, fun again over_ => ?_⟩
      · refine ⟨_, acts.trans (congrArg _ (if_pos (by rw [first]; decide))), ⟨rfl, stops, others⟩, fun y hy same => ?_⟩
        obtain ⟨z, -, -, rfl⟩ := mem_map_ite (p := fun z : Consist => z.same x) (xs := s.dev.sig.consists)
          (f := fun z : Consist => { z with preempt := some (due + s.dev.sig.regs.prdl.toNat * 2000), extended := true }) hy same
        exact ⟨rfl, rfl⟩
      · exact ⟨_, acts.trans (congrArg _ ((if_neg (by rw [again]; decide)).trans (if_pos soon))), ⟨rfl, stops, others⟩, rfl⟩
      · refine ⟨_, acts.trans (congrArg _ ((if_neg (by rw [again]; decide)).trans (if_neg (by omega)))), s.abortConsist_gone x _ _,
          s.abortConsist_consists x _ _, fun v hv vq vseq => ?_⟩
        obtain ⟨u, hu, order, err⟩ := s.abortConsist_services x _ _ v hv vq vseq
        exact ⟨u, hu, order, k, State.stillRuns_some still, err⟩
  · intro two late
    refine ⟨exec_consistResume_late found saved fits, ?_⟩
    intro img
    refine ⟨fun v first fit unread service => ?_, fun first fit read => ?_⟩
    · have runs := exec_consistResume found saved fits first fit
      rw [show s.dev.imageNow x.image (s.dev.sig.loads sp x.image.id) false = none from unread, service] at runs
      have named := List.find?_some service
      simp only [Bool.and_eq_true, beq_iff_eq] at named
      obtain ⟨rfl, rfl⟩ := named
      obtain ⟨mem, error, -⟩ := State.failService_spec service 2#8
      exact ⟨_, runs, mem, error⟩
    · obtain ⟨i, is⟩ := Option.isSome_iff_exists.mp read
      have runs := exec_consistResume found saved fits first fit
      rw [show s.dev.imageNow x.image (s.dev.sig.loads sp x.image.id) false = some i from is] at runs
      obtain ⟨mem, consists, back⟩ := State.restore_spec (State.spot_cores fits) x i cars
      refine ⟨_, runs, mem, fun y hy same => ?_, fun k core c at_ of => ?_⟩
      · rw [consists] at hy
        obtain ⟨z, -, -, rfl⟩ := mem_map_ite (p := fun z : Consist => z.same x) hy same
        exact ⟨rfl, rfl, rfl, rfl, rfl, rfl⟩
      · obtain ⟨ref, regs, vecs, spad, carId, serviceId, snap, masked, ccyc, pc, life⟩ :=
          s.back_spec x i sp cars c ((State.spot_cores fits).2 core (List.mem_of_getElem? at_))
        refine ⟨_, back k core c at_ of, ref, regs, fun same => ?_, fun b named n small => Car.vecsFor_bank vecs b named small, spad, carId, serviceId,
          snap, masked, ccyc, pc, fun live => life.trans (if_neg live), fun dead => life.trans (if_pos dead)⟩
        rw [vecs, Car.vecsFor, if_pos same]

end Sys2Proof.Proofs

namespace Sys2Proof.Machine
open Sys2Proof.Claims

/-! Line streams (R246). -/

section
variable {s : State} {id c : Nat} {x : Stream}

theorem exec_lineStream_absent (absent : s.dev.streams.find? (fun y => y.id == id) = none) :
    exec (.lineStreamRead id) s = .next s ∧ exec (.lineStreamBeat id) s = .next s := by
  constructor
  · show execLineStreamRead id s = _
    rw [execLineStreamRead, State.readBeat, absent]
  · show execLineStreamBeat id s = _
    rw [execLineStreamBeat, absent]

/-- The stream of a name after a change that leaves its name. -/
theorem find_mapStream {xs : List Stream} {f : Stream → Stream} (keeps : ∀ y, (f y).id = y.id) (found : xs.find? (fun y => y.id == id) = some x) :
    (xs.map (fun y => if y.id == id then f y else y)).find? (fun y => y.id == id) = some (f x) := by
  have named : (fun y : Stream => y.id == id) ∘ (fun y => if y.id == id then f y else y) = fun y => y.id == id := by
    funext y
    dsimp only [Function.comp]
    split
    · rw [keeps]
    · rfl
  have self := List.find?_some found
  rw [List.find?_map, named, found, Option.map_some, if_pos self]

section
variable (found : s.dev.streams.find? (fun y => y.id == id) = some x)
include found

theorem exec_lineStreamRead_early (early : s.mayRead x = false) : exec (.lineStreamRead id) s = .next s := by
  show execLineStreamRead id s = _
  rw [execLineStreamRead, State.readBeat, found]
  dsimp only
  rw [early]
  exact congrArg _ (if_pos rfl)

/-- A stream of a car reads its next beat. -/
theorem exec_lineStreamRead {bytes : List Byte} (may : s.mayRead x = true) (own : x.group = none) (got : s.beatBytes x x.nextRead = some bytes) :
    exec (.lineStreamRead id) s = .next (s.mapStream id (fun y => { y with
      nextRead := x.nextRead + 1, header := y.header, read := y.read ++ [(x.nextRead, bytes)] })) := by
  show execLineStreamRead id s = _
  rw [execLineStreamRead, State.readBeat, found]
  dsimp only
  rw [may, got, own]
  rfl

theorem exec_lineStreamBeat_early (early : s.mayDrive x = false) : exec (.lineStreamBeat id) s = .next s := by
  show execLineStreamBeat id s = _
  rw [execLineStreamBeat, found]
  dsimp only
  rw [early]
  exact congrArg _ (if_pos rfl)

end

theorem State.mayRead_iff (s : State) (x : Stream) : s.mayRead x = true ↔
    x.nextRead < x.beats ∧ ∃ c, s.domainCcyc x.domain = some c ∧ x.start + x.nextRead ≤ c + 20 := by
  unfold State.mayRead
  rw [Bool.and_eq_true, decide_eq_true_eq]
  cases s.domainCcyc x.domain with
  | none => simp
  | some c =>
    simp only [Option.some.injEq, exists_eq_left']
    exact and_congr_right fun _ => decide_eq_true_iff

theorem State.mayDrive_iff (s : State) (x : Stream) : s.mayDrive x = true ↔
    x.nextBeat < x.nextRead ∧ ∃ c, s.domainCcyc x.domain = some c ∧ x.start + x.nextBeat ≤ c := by
  unfold State.mayDrive
  rw [Bool.and_eq_true, decide_eq_true_eq]
  cases s.domainCcyc x.domain with
  | none => simp
  | some c => simp

/-! What a beat leaves. -/

/-- The beat of a stream comes on the line, and SAT where it has a code of 0x80. -/
def State.beatHeard (s : State) (x : Stream) (past late : Bool) (bytes : List Byte) : State :=
  let s := if past then s else s.mapDev (fun d => d.driveLine ⟨x.domain, x.line, x.start + x.nextBeat, 1, x.header, bytes, late, 0⟩)
  if !past && !late && bytes.any (fun b => b == 0x80#8) then s.mapAt x.car (fun c => c.setFlags SAT) else s

/-- The frames of a beat go to the groups that the line feeds. -/
def State.beatSent (s : State) (x : Stream) (past : Bool) (bytes : List Byte) : State :=
  let die := ((s.find x.car).map (fun c => dieOf c.ident.coreId)).getD 0
  if past || x.group.isSome then s else s.mapDev (fun d =>
    (d.fedBy x.line).foldl (fun d g => d.replicate g (d.frameOf x die x.nextBeat bytes) (some x.nextBeat)) d)

/-- The stream has driven its beat, and ends with its last. -/
def State.beatDone (s : State) (id : Nat) (x : Stream) : State :=
  let s := s.mapStream id (fun y => { y with nextBeat := x.nextBeat + 1, read := y.read.filter (fun r => r.1 != x.nextBeat) })
  if x.nextBeat + 1 = x.beats then s.endStream x else s

theorem exec_lineStreamBeat (found : s.dev.streams.find? (fun y => y.id == id) = some x) (may : s.mayDrive x = true)
    (ccyc : s.domainCcyc x.domain = some c) :
    let got := (x.read.find? (fun r => r.1 == x.nextBeat)).map (fun r => r.2)
    let late := (x.group.isNone && decide (x.start + x.nextBeat < x.issuedAt + 28)) || got.isNone
    let bytes := if late then List.replicate 256 0#8 else got.getD []
    let past := decide (x.start + x.nextBeat < c)
    exec (.lineStreamBeat id) s = .next (((s.beatHeard x past late bytes).beatSent x past bytes).beatDone id x) := by
  show execLineStreamBeat id s = _
  rw [execLineStreamBeat, found]
  dsimp only
  rw [may, ccyc]
  rfl

theorem Device.replicate_frame (d : Device) (g : Nat) (payload : List Byte) (beat : Option Nat) :
    (d.replicate g payload beat).mem = d.mem ∧ (d.replicate g payload beat).drives = d.drives ∧ (d.replicate g payload beat).streams = d.streams := by
  unfold Device.replicate
  dsimp only
  split
  · exact ⟨rfl, rfl, rfl⟩
  · split <;> exact ⟨rfl, rfl, rfl⟩

theorem State.beatSent_frame (s : State) (x : Stream) (past : Bool) (bytes : List Byte) :
    let t := s.beatSent x past bytes
    t.dev.mem = s.dev.mem ∧ t.dev.drives = s.dev.drives ∧ t.dev.streams = s.dev.streams ∧ t.car = s.car ∧ t.peers = s.peers := by
  have fold (die : Nat) (gs : List Nat) (d : Device) :
      let e := gs.foldl (fun d g => d.replicate g (d.frameOf x die x.nextBeat bytes) (some x.nextBeat)) d
      e.mem = d.mem ∧ e.drives = d.drives ∧ e.streams = d.streams := by
    induction gs generalizing d with
    | nil => exact ⟨rfl, rfl, rfl⟩
    | cons g gs ih =>
      obtain ⟨mem, drives, streams⟩ := ih (d.replicate g (d.frameOf x die x.nextBeat bytes) (some x.nextBeat))
      obtain ⟨mem', drives', streams'⟩ := d.replicate_frame g (d.frameOf x die x.nextBeat bytes) (some x.nextBeat)
      exact ⟨mem.trans mem', drives.trans drives', streams.trans streams'⟩
  unfold State.beatSent
  dsimp only
  split
  · exact ⟨rfl, rfl, rfl, rfl, rfl⟩
  · obtain ⟨mem, drives, streams⟩ := fold (((s.find x.car).map (fun c => dieOf c.ident.coreId)).getD 0) (s.dev.fedBy x.line) s.dev
    exact ⟨mem, drives, streams, rfl, rfl⟩

/-- The end of a stream touches of the cars their copies only. -/
theorem State.endStream_frame (s : State) (x : Stream) : (s.endStream x).dev.mem = s.dev.mem ∧ (s.endStream x).dev.drives = s.dev.drives ∧
    (s.endStream x).dev.streams = s.dev.streams.filter (fun y => y.id != x.id) ∧
    (s.endStream x).cars.map (fun k => k.regs) = s.cars.map (fun k => k.regs) ∧ (s.endStream x).car.ctl = s.car.ctl := by
  refine ⟨rfl, rfl, rfl, ?_, ?_⟩
  · refine State.regs_mapCars (s.mapDev _) fun k => ?_
    split <;> rfl
  · show (if s.car.ref = x.car then _ else s.car : Car).ctl = _
    split <;> rfl

theorem State.beatDone_frame (s : State) (id : Nat) (x : Stream) : (s.beatDone id x).dev.mem = s.dev.mem ∧ (s.beatDone id x).dev.drives = s.dev.drives ∧
    (s.beatDone id x).cars.map (fun k => k.regs) = s.cars.map (fun k => k.regs) ∧ (s.beatDone id x).car.ctl = s.car.ctl := by
  unfold State.beatDone
  dsimp only
  split
  · obtain ⟨mem, drives, -, regs, ctl⟩ := State.endStream_frame
      (s.mapStream id (fun y => { y with nextBeat := x.nextBeat + 1, read := y.read.filter (fun r => r.1 != x.nextBeat) })) x
    exact ⟨mem, drives, regs, ctl⟩
  · exact ⟨rfl, rfl, rfl, rfl⟩

/-- The last beat ends the stream; after another it waits for the next. -/
theorem State.beatDone_streams (found : s.dev.streams.find? (fun y => y.id == id) = some x) :
    (x.nextBeat + 1 = x.beats → ∀ y ∈ (s.beatDone id x).dev.streams, y.id ≠ id) ∧
    (x.nextBeat + 1 ≠ x.beats → ∃ y, (s.beatDone id x).dev.streams.find? (fun y => y.id == id) = some y ∧ y.nextBeat = x.nextBeat + 1) := by
  have self := List.find?_some found
  rw [beq_iff_eq] at self
  unfold State.beatDone
  dsimp only
  refine ⟨fun last y hy => ?_, fun more => ?_⟩
  · rw [if_pos last, (State.endStream_frame _ x).2.2.1, List.mem_filter, self, bne_iff_ne] at hy
    exact hy.2
  · rw [if_neg more]
    exact ⟨_, find_mapStream (f := fun y => { y with nextBeat := x.nextBeat + 1, read := y.read.filter (fun r => r.1 != x.nextBeat) })
      (fun _ => rfl) found, rfl⟩

theorem State.beatHeard_frame (s : State) (x : Stream) (past late : Bool) (bytes : List Byte) :
    let t := s.beatHeard x past late bytes
    t.dev.mem = s.dev.mem ∧ t.dev.streams = s.dev.streams ∧ t.cars.map (fun k => k.regs) = s.cars.map (fun k => k.regs) ∧
    t.dev.drives = (if past then s.dev.drives else
      (s.dev.driveLine ⟨x.domain, x.line, x.start + x.nextBeat, 1, x.header, bytes, late, 0⟩).drives) := by
  have line (d : Device) (y : Drive) : (d.driveLine y).mem = d.mem ∧ (d.driveLine y).streams = d.streams := by
    unfold Device.driveLine
    split <;> exact ⟨rfl, rfl⟩
  have marked (s : State) : (s.mapAt x.car (fun c => c.setFlags SAT)).cars.map (fun k => k.regs) = s.cars.map (fun k => k.regs) := by
    refine State.regs_mapCars s fun k => ?_
    split <;> rfl
  obtain ⟨mem, streams⟩ := line s.dev ⟨x.domain, x.line, x.start + x.nextBeat, 1, x.header, bytes, late, 0⟩
  unfold State.beatHeard
  cases past with
  | true => exact ⟨rfl, rfl, rfl, rfl⟩
  | false =>
    dsimp only
    split
    · exact ⟨mem, streams, marked _, rfl⟩
    · exact ⟨mem, streams, rfl, rfl⟩

/-- A line with one driver more of the beat, or with this one first (R116). -/
theorem Device.driveLine_drives (d : Device) (y : Drive) :
    ((∀ z ∈ d.drives, z.is y.domain y.line y.ccyc = false) → (d.driveLine y).drives.head? = some y ∧
      ∀ z, ¬ (z.domain = y.domain ∧ z.line = y.line) → (z ∈ (d.driveLine y).drives ↔ z ∈ d.drives)) ∧
    ∀ z ∈ d.drives, z.is y.domain y.line y.ccyc = true → { z with count := z.count + 1 } ∈ (d.driveLine y).drives := by
  unfold Device.driveLine
  refine ⟨fun alone => ?_, fun z hz same => ?_⟩
  · rw [if_neg fun there => ?_]
    · refine ⟨rfl, fun z other => ?_⟩
      simp only [List.mem_cons, List.mem_filter, Bool.not_eq_true', Bool.and_eq_false_iff, beq_eq_false_iff_ne]
      refine ⟨?_, fun here => .inr ⟨here, not_and_or.mp other⟩⟩
      rintro (rfl | ⟨here, -⟩)
      · exact absurd ⟨rfl, rfl⟩ other
      · exact here
    · obtain ⟨z, hz, is⟩ := List.any_eq_true.mp there
      exact absurd ((alone z hz).symm.trans is) Bool.false_ne_true
  · rw [if_pos (List.any_eq_true.mpr ⟨z, hz, same⟩)]
    exact List.mem_map.mpr ⟨z, hz, if_pos same⟩

end

end Sys2Proof.Machine

namespace Sys2Proof.Proofs
open Sys2Proof.Machine Sys2Proof.Claims

/-- Settles O40: a line stream reads its beats ahead, drives them at their cycles, and ends with the last. -/
theorem lineStreamsDriveTheirLine : Obligations.LineStreamsDriveTheirLine := by
  unfold Obligations.LineStreamsDriveTheirLine
  intro id x s i j got late bytes
  refine ⟨exec_lineStream_absent, fun found => ⟨fun no => ?_, fun c k more ccyc due own owner => ?_, fun no => ?_, fun c ready ccyc due => ?_⟩⟩
  · refine exec_lineStreamRead_early found (Bool.eq_false_iff.mpr fun may => ?_)
    obtain ⟨more, c, ccyc, due⟩ := (s.mayRead_iff x).mp may
    rcases no with all | idle | ⟨c', ccyc', early⟩
    · omega
    · cases idle.symm.trans ccyc
    · cases ccyc'.symm.trans ccyc
      omega
  · have bytes' : s.beatBytes x i = some (s.dev.streamBytes (s.dev.drained k) x.ws (32 + 256 * i) 256) := by
      rw [State.beatBytes, own]
      dsimp only
      rw [owner]
      rfl
    refine ⟨_, exec_lineStreamRead found ((s.mayRead_iff x).mpr ⟨more, c, ccyc, due⟩) own bytes', ⟨rfl, rfl, rfl⟩, _,
      find_mapStream (f := fun y => { y with nextRead := x.nextRead + 1, header := y.header, read := y.read ++ [(x.nextRead, _)] }) (fun _ => rfl) found,
      rfl, rfl, rfl, rfl⟩
  · refine exec_lineStreamBeat_early found (Bool.eq_false_iff.mpr fun may => ?_)
    obtain ⟨ready, c, ccyc, due⟩ := (s.mayDrive_iff x).mp may
    rcases no with all | idle | ⟨c', ccyc', early⟩
    · omega
    · cases idle.symm.trans ccyc
    · cases ccyc'.symm.trans ccyc
      omega
  · have runs : exec (.lineStreamBeat id) s = .next (((s.beatHeard x (decide (x.start + j < c)) late bytes).beatSent x (decide (x.start + j < c))
        bytes).beatDone id x) := exec_lineStreamBeat found ((s.mayDrive_iff x).mpr ⟨ready, c, ccyc, due⟩) ccyc
    obtain ⟨mem₁, streams₁, regs₁, drives₁⟩ := s.beatHeard_frame x (decide (x.start + j < c)) late bytes
    obtain ⟨mem₂, drives₂, streams₂, car₂, peers₂⟩ := (s.beatHeard x (decide (x.start + j < c)) late bytes).beatSent_frame x (decide (x.start + j < c)) bytes
    generalize held : s.beatHeard x (decide (x.start + j < c)) late bytes = u at *
    generalize sent : u.beatSent x (decide (x.start + j < c)) bytes = v at *
    obtain ⟨mem₃, drives₃, regs₃, ctl₃⟩ := v.beatDone_frame id x
    have found₂ : v.dev.streams.find? (fun y => y.id == id) = some x := by rw [streams₂, streams₁, found]
    have drives : (v.beatDone id x).dev.drives = _ := (drives₃.trans drives₂).trans drives₁
    obtain ⟨last, more⟩ := State.beatDone_streams found₂
    obtain ⟨alone, beside⟩ := s.dev.driveLine_drives ⟨x.domain, x.line, x.start + j, 1, x.header, bytes, late, 0⟩
    have on_time (now : x.start + j = c) : (v.beatDone id x).dev.drives =
        (s.dev.driveLine ⟨x.domain, x.line, x.start + j, 1, x.header, bytes, late, 0⟩).drives :=
      drives.trans (if_neg (by simp [now]))
    refine ⟨_, runs, (mem₃.trans mem₂).trans mem₁, ?_, fun past => drives.trans (if_pos (decide_eq_true past)), fun now first => ?_,
      fun now y hy same => ?_, fun now fine marked own => ?_, last, more⟩
    · rw [regs₃, ← regs₁, State.cars, State.cars, car₂, peers₂]
    · rw [on_time now, ← now]
      exact alone fun y hy => ((congrArg (y.is x.domain x.line) now).trans (first y hy))
    · rw [on_time now]
      exact beside y hy (now ▸ same)
    · rw [ctl₃, car₂, ← held]
      have sets : s.beatHeard x (decide (x.start + j < c)) late bytes =
          (s.mapDev (fun d => d.driveLine ⟨x.domain, x.line, x.start + j, 1, x.header, bytes, late, 0⟩)).mapAt x.car (fun c => c.setFlags SAT) := by
        have past : decide (x.start + j < c) = false := decide_eq_false (by omega)
        have code : bytes.any (fun b => b == 0x80#8) = true := List.any_eq_true.mpr ⟨_, marked, beq_self_eq_true _⟩
        rw [past, fine, State.beatHeard]
        exact if_pos code
      rw [sets]
      show (if s.car.ref = x.car then s.car.setFlags SAT else s.car).ctl.vflags = _
      rw [if_pos own]
      rfl

end Sys2Proof.Proofs

namespace Sys2Proof.Machine
open Sys2Proof.Claims

/-! The Platform bus (R243, R244). -/

/-- A slot that has operands and nothing else to meet issues (R88). -/
theorem exec_operands {s : State} {i : Instr} {te : Bool} {srcs dsts : List Opnd} {eff : State → State}
    (slot : slotOf i s = some (SlotOp.mk { te := te, srcs := srcs, dsts := dsts } eff)) (reads : s.Readable srcs) (room : s.Room dsts) :
    exec i s = .next (eff s) :=
  exec_passes slot
    { legal := rfl, allowed := rfl, units := by simp [State.unitsBusy], still := rfl, reads := reads, room := room, cause := rfl, spec := rfl,
      mapped := rfl }

section
variable {d : Device} {m c : Nat} {l : Ix16} {r : CarRef} {bytes : List Byte}

theorem BusDrive.is_iff (b : BusDrive) : b.is m l c = true ↔ b.domain = m ∧ b.line = l ∧ b.ccyc = c := by
  simp only [BusDrive.is, Bool.and_eq_true, beq_iff_eq, and_assoc]

theorem getD_zeros (n j : Nat) : (List.replicate n 0#8).getD j 0#8 = 0#8 := by
  rw [List.getD_eq_getElem?_getD, List.getElem?_replicate]
  split <;> rfl

/-- What the bus carries of the first drive of a CCYC. -/
theorem Device.busAt_getD (d : Device) (m : Nat) (l : Ix16) (c j : Nat) : (d.busAt (some m) (some l) c).getD j 0#8 =
    match d.bus.find? (fun b => b.is m l c) with
    | some b => if b.count = 1 then b.bytes.getD j 0#8 else 0#8
    | none => 0#8 := by
  unfold Device.busAt
  dsimp only
  cases d.bus.find? (fun b => b.is m l c) with
  | none => exact getD_zeros 256 j
  | some b =>
    dsimp only
    rw [apply_ite (fun bs : List Byte => bs.getD j 0#8), getD_zeros]

/-- A drive of a bus that none drives in its CCYC is what the bus carries. -/
theorem Device.busAt_driveBus_alone (alone : d.bus.find? (fun b => b.is m l c) = none) (j : Nat) :
    ((d.driveBus m l c r bytes).busAt (some m) (some l) c).getD j 0#8 = bytes.getD j 0#8 := by
  have absent : ¬ d.bus.any (fun b => b.is m l c) = true := fun any_ => by
    obtain ⟨b, hb, is⟩ := List.any_eq_true.mp any_
    exact List.find?_eq_none.mp alone b hb is
  have own : (⟨m, l, c, 1, bytes, r⟩ : BusDrive).is m l c = true := (BusDrive.is_iff _).mpr ⟨rfl, rfl, rfl⟩
  rw [Device.busAt_getD, Device.driveBus, if_neg absent]
  dsimp only
  rw [List.find?_cons_of_pos (p := fun b : BusDrive => b.is m l c) own]
  exact if_pos rfl

/-- A drive of a bus that is driven gives way to none but a lone earlier one of its own car (R244). -/
theorem Device.busAt_driveBus_beside {b : BusDrive} (beside : d.bus.find? (fun b => b.is m l c) = some b) (counts : 1 ≤ b.count) (j : Nat) :
    ((d.driveBus m l c r bytes).busAt (some m) (some l) c).getD j 0#8 = if b.car = r ∧ b.count = 1 then bytes.getD j 0#8 else 0#8 := by
  have driven : d.bus.any (fun b => b.is m l c) = true :=
    List.any_eq_true.mpr ⟨b, List.mem_of_find?_eq_some beside, List.find?_some (p := fun b : BusDrive => b.is m l c) beside⟩
  have self := List.find?_some (p := fun b : BusDrive => b.is m l c) beside
  have keys : (fun b : BusDrive => b.is m l c) ∘ (fun b : BusDrive => if b.is m l c then
      (if b.car = r then { b with bytes := bytes } else { b with count := b.count + 1 }) else b) = fun b : BusDrive => b.is m l c := by
    funext b
    dsimp only [Function.comp]
    split
    · next is =>
      split
      · rfl
      · rfl
    · rfl
  rw [Device.busAt_getD, Device.driveBus, if_pos driven]
  dsimp only
  rw [List.find?_map, keys, beside, Option.map_some, if_pos self]
  dsimp only
  by_cases mine : b.car = r
  · rw [if_pos mine]
    simp only [mine, true_and]
  · rw [if_neg mine]
    dsimp only
    rw [if_neg (show ¬ b.count + 1 = 1 by omega), if_neg (fun both : b.car = r ∧ b.count = 1 => mine both.1)]

theorem Device.busAt_length (full : ∀ b ∈ d.bus, b.bytes.length = 256) (dom : Option Nat) (line : Option Ix16) (c : Nat) :
    (d.busAt dom line c).length = 256 := by
  unfold Device.busAt
  split
  · split
    · next b found =>
      split
      · exact full b (List.mem_of_find?_eq_some found)
      · exact List.length_replicate
    · exact List.length_replicate
  · exact List.length_replicate

end

/-! A part of a vector register (R243). -/

theorem natLE_testBit (bs : List Byte) (n : Nat) : (natLE bs).testBit n = (bs.getD (n / 8) 0#8).getLsbD (n % 8) := by
  have small : n % 8 < 8 := Nat.mod_lt n (by decide)
  rw [BitVec.getLsbD, ← natLE_byte, show 256 = 2 ^ 8 from rfl, ← Nat.pow_mul, Nat.testBit_mod_two_pow, Nat.testBit_div_two_pow, Nat.mod_add_div,
    decide_eq_true small, Bool.true_and]

/-- 256 bytes put in the place of a part of a register. -/
theorem lane_part (old : VWord) {bs : List Byte} (full : bs.length = 256) (part : Ix16) {i : Nat} (inside : i < 4096) :
    let m := BitVec.ofNat 32768 ((2 ^ 2048 - 1) * 2 ^ (2048 * part.val))
    lane .i8 ((old &&& ~~~m) ||| BitVec.ofNat 32768 (natLE bs * 2 ^ (2048 * part.val))) i =
      if i / 256 = part.val then (bs.getD (i % 256) 0#8).toNat else lane .i8 old i := by
  have bit (v : VWord) (k : Nat) : (lane .i8 v i).testBit k = (decide (k < 8) && v.getLsbD (8 * i + k)) := by
    rw [lane, Nat.testBit_mod_two_pow, Nat.testBit_div_two_pow, BitVec.getLsbD, Nat.add_comm k]
    rfl
  intro m
  apply Nat.eq_of_testBit_eq
  intro k
  rw [bit]
  by_cases low : k < 8
  · have place : 8 * i + k < 32768 := by omega
    have mask : m.getLsbD (8 * i + k) = decide (i / 256 = part.val) := by
      rw [BitVec.getLsbD_ofNat, decide_eq_true place, Bool.true_and, Nat.testBit_mul_two_pow, Nat.testBit_two_pow_sub_one, Bool.eq_iff_iff]
      simp only [Bool.and_eq_true, decide_eq_true_eq]
      omega
    have byte : (natLE bs * 2 ^ (2048 * part.val)).testBit (8 * i + k) =
        (decide (2048 * part.val ≤ 8 * i + k) && (bs.getD (i - 256 * part.val) 0#8).getLsbD k) := by
      rw [Nat.testBit_mul_two_pow]
      by_cases above : 2048 * part.val ≤ 8 * i + k
      · rw [natLE_testBit, show (8 * i + k - 2048 * part.val) / 8 = i - 256 * part.val by omega,
          show (8 * i + k - 2048 * part.val) % 8 = k by omega]
      · rw [decide_eq_false above, Bool.false_and, Bool.false_and]
    rw [BitVec.getLsbD_or, BitVec.getLsbD_and, BitVec.getLsbD_not, mask, BitVec.getLsbD_ofNat, byte]
    simp only [decide_eq_true place, decide_eq_true low, Bool.true_and]
    by_cases here : i / 256 = part.val
    · rw [if_pos here, decide_eq_true here, decide_eq_true (show 2048 * part.val ≤ 8 * i + k by omega), show i - 256 * part.val = i % 256 by omega,
        Bool.not_true, Bool.and_false, Bool.false_or, Bool.true_and, BitVec.getLsbD]
    · rw [if_neg here, bit, decide_eq_false here, decide_eq_true low]
      have none : (decide (2048 * part.val ≤ 8 * i + k) && (bs.getD (i - 256 * part.val) 0#8).getLsbD k) = false := by
        by_cases above : 2048 * part.val ≤ 8 * i + k
        · rw [List.getD_eq_getElem?_getD, List.getElem?_eq_none (by omega), Option.getD_none, BitVec.getLsbD_zero, Bool.and_false]
        · rw [decide_eq_false above, Bool.false_and]
      rw [none, Bool.or_false, Bool.not_false, Bool.and_true, Bool.true_and]
  · rw [decide_eq_false low, Bool.false_and]
    by_cases here : i / 256 = part.val
    · rw [if_pos here]
      exact (BitVec.getLsbD_of_ge _ k (by omega)).symm
    · rw [if_neg here, bit, decide_eq_false low, Bool.false_and]

end Sys2Proof.Machine

namespace Sys2Proof.Proofs
open Sys2Proof.Machine Sys2Proof.Claims

/-- The slots of the Platform bus (R243, R244). -/
theorem platformBusResults : Sys2Proof.Claims.PlatformBusResults := by
  intro te v part s now
  refine ⟨fun reads => ?_, fun room full => ?_⟩
  · have runs : exec (.cpld te v part) s = .next (match s.src.place.domain, s.src.busLine with
      | some k, some l =>
        s.mapDev (fun d => d.driveBus k l s.src.ctl.ccyc.toNat s.src.ref (bytesLE 256 ((s.rVA v).toNat / 2 ^ (2048 * part.val))))
      | _, _ => s) := exec_operands (i := .cpld te v part) (te := te) rfl reads (by intro o none; cases none)
    refine ⟨fun off => ?_, fun l m bus domain counts => ?_⟩
    · rw [runs, off]
      cases s.src.place.domain <;> rfl
    · rw [bus, domain] at runs
      dsimp only at runs
      have byte {j : Nat} (inside : j < 256) : (bytesLE 256 ((s.rVA v).toNat / 2 ^ (2048 * part.val))).getD j 0#8 =
          BitVec.ofNat 8 (lane .i8 (s.rVA v) (256 * part.val + j)) := by
        rw [bytesLE_eq_map, getD_map_range, if_pos inside, lane, show ETy.i8.bits = 8 from rfl]
        apply BitVec.eq_of_toNat_eq
        rw [BitVec.toNat_ofNat, BitVec.toNat_ofNat, Nat.mod_mod, Nat.div_div_eq_div_mul, show 256 = 2 ^ 8 from rfl, ← Nat.pow_mul, ← Nat.pow_add]
        congr 3
        omega
      refine ⟨_, runs, rfl, rfl, ?_, fun j inside => ?_⟩
      · show (s.dev.driveBus ..).mem = _
        unfold Device.driveBus
        split <;> rfl
      · show ((s.dev.driveBus m l now s.src.ref _).busAt (some m) (some l) now).getD j 0#8 = _
        rw [show (fun b : BusDrive => b.domain == m && b.line == l && b.ccyc == now) = fun b => b.is m l now from rfl]
        cases found : s.dev.bus.find? (fun b => b.is m l now) with
        | none => exact (Device.busAt_driveBus_alone found j).trans (byte inside)
        | some b =>
          dsimp only
          rw [Device.busAt_driveBus_beside found (counts b (List.mem_of_find?_eq_some found)), byte inside]
  · let bytes := if now < 4 then List.replicate 256 0#8 else s.srcDev.busAt s.src.place.domain s.src.busLine (now - 4)
    have length : bytes.length = 256 := by
      unfold bytes
      split
      · exact List.length_replicate
      · exact Device.busAt_length full _ _ _
    refine ⟨_, exec_operands (i := .cplt te v part) (te := te) rfl (by intro o none; cases none) room, fun i inside => ?_⟩
    refine (lane_part (s.rVA v) length part inside).trans ?_
    by_cases here : i / 256 = part.val
    · rw [if_pos here, if_pos here]
      unfold bytes
      split
      · rw [getD_zeros]
        rfl
      · rfl
    · rw [if_neg here, if_neg here]

end Sys2Proof.Proofs

namespace Sys2Proof.Machine
open Sys2Proof.Claims

/-! Line streams that are issued late (R97, R116, R246). -/

section
variable {s : State} {m start n now : Nat} {l : Ix16} {header : List Byte}

theorem received_iff (last : Nat) (src : Option (Nat × Ix16)) (beats : List Nat) (z : Missed) (line : z.src = (m, l)) (lo : z.lo = start)
    (hi : z.hi = last) : beats.any (z.hits src) = received m l start last src beats := by
  have hits : z.hits src = fun c => (src == some (m, l)) && decide (start ≤ c ∧ c ≤ last) := by
    funext c
    rw [Missed.hits, line, lo, hi]
  rw [hits, received]
  cases src == some (m, l) with
  | true => rfl
  | false => simp

theorem Arr.missed_win (a : Arr) (z : Missed) (g : Fin 16) : (a.missed z).groups[g].win = a.groups[g].win.map (fun w => w.missed z) := by
  show (a.groups.map (fun g : Group => g.missed z))[g.val].win = _
  rw [Vector.getElem_map]
  rfl

/-- A beat that comes late on a line is driven late or collides. -/
theorem Device.driveLate_marks {d : Device} (counts : ∀ y ∈ d.drives, 1 ≤ y.count ∧ (y.awaits ≠ 0 → y.late = true ∨ 1 < y.count)) :
    ∃ y ∈ (d.driveLate ⟨m, l, now, 1, header, List.replicate 256 0#8, true, 0⟩).drives, y.is m l now = true ∧ (y.late = true ∨ 1 < y.count) := by
  unfold Device.driveLate
  split
  · next awaited =>
    obtain ⟨y, hy, both⟩ := List.any_eq_true.mp awaited
    rw [Bool.and_eq_true, bne_iff_ne] at both
    exact ⟨_, List.mem_map.mpr ⟨y, hy, if_pos both.1⟩, both.1, (counts y hy).2 both.2⟩
  · obtain ⟨alone, beside⟩ := d.driveLine_drives ⟨m, l, now, 1, header, List.replicate 256 0#8, true, 0⟩
    by_cases first : ∀ z ∈ d.drives, z.is m l now = false
    · refine ⟨_, List.mem_of_mem_head? (alone first).1, by simp [Drive.is], .inl rfl⟩
    · push Not at first
      obtain ⟨z, hz, is⟩ := first
      rw [Ne, Bool.not_eq_false] at is
      exact ⟨_, beside z hz is, is, .inr (Nat.lt_succ_of_le (counts z hz).1)⟩

/-- The line with a late beat on it, if it is one of the stream's. -/
def State.lateDriven (s : State) (m : Nat) (l : Ix16) (start n now : Nat) (header : List Byte) : State :=
  if now < start + n then s.mapDev (fun d => d.driveLate ⟨m, l, now, 1, header, List.replicate 256 0#8, true, 0⟩) else s

theorem State.lateBeats_eq (s : State) (m : Nat) (l : Ix16) (start n now : Nat) (header : List Byte) :
    s.lateBeats m l start n now header = if now < start || n = 0 then s else (s.lateDriven m l start n now header).missedBeats
      ⟨(m, l), start, Nat.min now (start + n - 1), now, (s.lateDriven m l start n now header).dev.drivenAlone m l now, header⟩ := rfl

theorem Device.driveLate_frame (d : Device) (y : Drive) : (d.driveLate y).mem = d.mem ∧ (d.driveLate y).remote = d.remote ∧
    (d.driveLate y).streams = d.streams := by
  unfold Device.driveLate Device.driveLine
  split
  · exact ⟨rfl, rfl, rfl⟩
  · split <;> exact ⟨rfl, rfl, rfl⟩

theorem State.lateDriven_frame (s : State) (m : Nat) (l : Ix16) (start n now : Nat) (header : List Byte) :
    let t := s.lateDriven m l start n now header
    t.car = s.car ∧ t.peers = s.peers ∧ t.dev.mem = s.dev.mem ∧ t.dev.remote = s.dev.remote ∧ t.dev.streams = s.dev.streams := by
  obtain ⟨mem, remote, streams⟩ := s.dev.driveLate_frame ⟨m, l, now, 1, header, List.replicate 256 0#8, true, 0⟩
  unfold State.lateDriven
  split
  · exact ⟨rfl, rfl, mem, remote, streams⟩
  · exact ⟨rfl, rfl, rfl, rfl, rfl⟩

/-- Copy numbers in use are known by the cars' cores and engines. -/
theorem State.freeNumber_congr {s t : State} (same : t.cars.map (fun c => (c.ident, c.eng)) = s.cars.map (fun c => (c.ident, c.eng))) :
    t.freeNumber = s.freeNumber := by
  have used (u : State) (core : BitVec 9) : u.numbersInUse core =
      ((u.cars.map (fun c => (c.ident, c.eng))).filter (fun p => p.1.coreId == core)).flatMap (fun p =>
        p.2.copies.map (fun k => k.num) ++ p.2.unmaps.map (fun u => u.num) ++ p.2.stash.map (fun m => m.num)) := by
    rw [List.filter_map, List.flatMap_map]
    rfl
  have ident : t.car.ident = s.car.ident := congrArg Prod.fst (List.cons.inj same).1
  rw [State.freeNumber, State.freeNumber, ident, used, used, same]

/-- Late beats change of the cars their arrays only. -/
theorem State.lateBeats_frame (s : State) (m : Nat) (l : Ix16) (start n now : Nat) (header : List Byte) :
    let t := s.lateBeats m l start n now header
    KeepsRegs s t ∧ SameBytes s t ∧ t.dev.streams = s.dev.streams ∧ t.car.eng = s.car.eng ∧ t.freeNumber = s.freeNumber ∧ t.car.ref = s.car.ref := by
  obtain ⟨car, peers, mem, remote, streams⟩ := s.lateDriven_frame m l start n now header
  rw [State.lateBeats_eq]
  split
  · exact ⟨⟨rfl, rfl, rfl, rfl⟩, ⟨fun _ => rfl, fun _ => rfl, fun _ => rfl, fun _ _ => rfl⟩, rfl, rfl, rfl, rfl⟩
  · generalize s.lateDriven m l start n now header = u at *
    generalize (⟨(m, l), start, Nat.min now (start + n - 1), now, u.dev.drivenAlone m l now, header⟩ : Missed) = z
    have cars : u.cars = s.cars := congrArg₂ List.cons car peers
    have kept : (u.missedBeats z).car = { s.car with arr := s.car.arr.missed z } := by rw [← car]; rfl
    refine ⟨?_, ⟨fun a => congrArg (Mem.read · a) mem, fun a => congrArg (Mem.read · a) remote, ?_, ?_⟩, streams, ?_, ?_, ?_⟩
    · unfold KeepsRegs
      rw [kept]
      exact ⟨rfl, rfl, rfl, rfl⟩
    · rw [kept]
      exact fun _ => rfl
    · rw [kept]
      exact fun _ _ => rfl
    · rw [kept]
    · refine State.freeNumber_congr ?_
      rw [← cars, State.missedBeats, mapCars_cars, List.map_map]
      rfl
    · rw [kept]
      rfl

/-- What late beats leave in the arrays and on the line. -/
theorem State.lateBeats_noted (domain : s.src.place.domain = some m) :
    LateBeatsNoted s (s.lateBeats m l start n now header) l start n now header := by
  intro due some_ m' domain'
  cases domain.symm.trans domain'
  intro last
  rw [State.lateBeats_eq, if_neg (by simp; omega)]
  obtain ⟨car, -, -, -, -⟩ := s.lateDriven_frame m l start n now header
  generalize driven : s.lateDriven m l start n now header = u at *
  generalize alone : u.dev.drivenAlone m l now = a at *
  let z : Missed := ⟨(m, l), start, Nat.min now (start + n - 1), now, a, header⟩
  have arr : (u.missedBeats z).car.arr = s.car.arr.missed z := by rw [← car]; rfl
  have any_ (src : Option (Nat × Ix16)) (beats : List Nat) : beats.any (z.hits src) = received m l start last src beats :=
    received_iff last src beats z rfl rfl rfl
  have one (w : Window) : z.hits w.opener.src w.opener.ccyc = received m l start last w.opener.src [w.opener.ccyc] := by
    rw [← any_]
    simp
  refine ⟨fun g w open_ => ⟨w.missed z, ?_, rfl, rfl, ?_, fun out => ?_, fun in_ past first => ?_⟩, ?_, fun more counts => ?_⟩
  · rw [arr, Arr.missed_win, open_]
    rfl
  · exact congrArg (w.line || ·) (any_ _ _)
  · exact if_neg (by rw [one, out]; decide)
  · show (if z.hits w.opener.src w.opener.ccyc then _ else _) = _
    rw [one, in_, if_pos rfl, if_neg (Nat.ne_of_lt past), if_pos (by rw [first]; rfl)]
  · rw [arr]
    exact List.map_congr_left fun r _ => by rw [any_]; rfl
  · have late : u.dev = s.dev.driveLate ⟨m, l, now, 1, header, List.replicate 256 0#8, true, 0⟩ := by
      rw [← driven, State.lateDriven, if_pos more]
      rfl
    show ∃ y ∈ u.dev.drives, _
    rw [late]
    exact Device.driveLate_marks counts

end

end Sys2Proof.Machine

namespace Sys2Proof.Machine
open Sys2Proof.Claims

section
variable {s : State} {l : Ix16}

/-- A line of the car's coupling is that of its domain (R245). -/
theorem State.domain_of_lineCause (fine : s.lineCause l = none) : ∃ m, s.src.place.domain = some m := by
  unfold State.lineCause at fine
  split at fine
  · next coupled =>
    rw [Car.coupledTo, Bool.and_eq_true] at coupled
    exact Option.isSome_iff_exists.mp coupled.1
  · cases fine

theorem orElse_none_iff {α : Type} {x : Option α} {f : Unit → Option α} : x.orElse f = none ↔ x = none ∧ f () = none := by
  cases x <;> simp [Option.orElse]

theorem streamBeats_eq {n : Nat} (fine : streamBeats n ≠ none) : streamBeats n = some ((n - 32) / 256) := by
  unfold streamBeats at fine ⊢
  split
  · rfl
  · next no => exact absurd (if_neg no) fine

/-- What a CLS that issues has met (R245). -/
theorem State.clsCause_none {ws : Ix16} (fine : s.clsCause l ws = none) (some_ : (s.waybill ws).empty = false) :
    s.lineCause l = none ∧
    streamBeats ((s.waybill ws).count * (s.waybill ws).esz) = some (((s.waybill ws).count * (s.waybill ws).esz - 32) / 256) := by
  unfold State.clsCause at fine
  dsimp only at fine
  rw [some_, if_neg Bool.false_ne_true] at fine
  simp only [orElse_none_iff] at fine
  obtain ⟨-, ⟨-, -, -, -, beats, -⟩, line⟩ := fine
  refine ⟨line, streamBeats_eq fun none => ?_⟩
  rw [none] at beats
  cases beats

theorem lateBeatsNoted_congr {t u : State} {start n now : Nat} {header : List Byte} (noted : LateBeatsNoted s t l start n now header)
    (arr : u.car.arr = t.car.arr) (drives : u.dev.drives = t.dev.drives) : LateBeatsNoted s u l start n now header := by
  unfold LateBeatsNoted at noted ⊢
  rw [arr, drives]
  exact noted

/-- A stream that enters a line takes a copy number (R235, R246). -/
theorem State.startStream_spec (s : State) (op : EngineOp) (x : Stream) (ws : Waybill) {n : Nat} (free : s.freeNumber = some n) :
    let t := s.startStream op x ws
    t.car.regs = s.car.regs ∧ t.car.ctl = s.car.ctl ∧ t.car.pc = s.car.pc ∧ t.car.loop = s.car.loop ∧ SameBytes s t ∧ t.car.arr = s.car.arr ∧
    t.dev.drives = s.dev.drives ∧ t.dev.streams = s.dev.streams ++ [{ x with id := s.dev.nextId, num := n }] ∧
    ∃ k, t.car.eng.copies = s.car.eng.copies ++ [k] ∧ k.num = n ∧ k.op = op := by
  have num : s.freeNumber.getD 0 = n := by rw [free]; rfl
  refine ⟨rfl, rfl, rfl, rfl, ⟨fun _ => rfl, fun _ => rfl, fun _ => rfl, fun _ _ => rfl⟩, rfl, rfl, ?_, _, rfl, num, rfl⟩
  show s.dev.streams ++ [{ x with id := s.dev.nextId, num := s.freeNumber.getD 0 }] = _
  rw [num]

/-- A stream that is issued: its late beats are noted, and what it has left to drive enters the line (R97, R246). -/
theorem State.streams_spec {m : Nat} (domain : s.src.place.domain = some m) (start n now : Nat) (header : List Byte) (op : EngineOp) (x : Stream)
    (ws : Waybill) {k : Nat} (free : s.freeNumber = some k) :
    let u := s.lateBeats m l start n now header
    let t := if start + n ≤ now then u else u.startStream op x ws
    KeepsRegs s t ∧ SameBytes s t ∧ LateBeatsNoted s t l start n now header ∧
    (start + n ≤ now → t.dev.streams = s.dev.streams ∧ t.car.eng = s.car.eng) ∧
    (now < start + n → ∃ id, t.dev.streams = s.dev.streams ++ [{ x with id := id, num := k }] ∧
      ∃ y, t.car.eng.copies = s.car.eng.copies ++ [y] ∧ y.num = k ∧ y.op = op) := by
  obtain ⟨regs, bytes, streams, eng, number, -⟩ := s.lateBeats_frame m l start n now header
  have noted := State.lateBeats_noted (l := l) (start := start) (n := n) (now := now) (header := header) domain
  intro u
  change KeepsRegs s u at regs
  change SameBytes s u at bytes
  change LateBeatsNoted s u l start n now header at noted
  change u.dev.streams = _ at streams
  change u.car.eng = _ at eng
  change u.freeNumber = _ at number
  by_cases done : start + n ≤ now
  · rw [if_pos done]
    exact ⟨regs, bytes, noted, fun _ => ⟨streams, eng⟩, fun more => by omega⟩
  · rw [if_neg done]
    obtain ⟨regs', ctl', pc', loop', bytes', arr', drives', streams', y, copies', num, is⟩ := u.startStream_spec op x ws (number.trans free)
    obtain ⟨hregs, hctl, hpc, hloop⟩ := regs
    refine ⟨⟨regs'.trans hregs, ctl'.trans hctl, pc'.trans hpc, loop'.trans hloop⟩, ?_, lateBeatsNoted_congr noted arr' drives',
      fun all => absurd all done, fun _ => ⟨u.dev.nextId, ?_, y, ?_, num, is⟩⟩
    · obtain ⟨mem, remote, code, pad⟩ := bytes
      obtain ⟨mem', remote', code', pad'⟩ := bytes'
      exact ⟨fun a => (mem' a).trans (mem a), fun a => (remote' a).trans (remote a), fun a => (code' a).trans (code a),
        fun none a => (pad' (eng.symm ▸ none) a).trans (pad none a)⟩
    · rw [streams', streams]
    · rw [copies', eng]

end

end Sys2Proof.Machine

namespace Sys2Proof.Proofs
open Sys2Proof.Machine Sys2Proof.Claims

/-- The slots of the line streams (R245 to R247). -/
theorem lineStreamsStart : Sys2Proof.Claims.LineStreamsStart := by
  intro te l ws a b s w now start n m
  refine ⟨fun issues => ?_, fun issues => ?_⟩
  · obtain ⟨k, free⟩ := State.freeNumber_of_issues (i := .cls te l ws b) rfl issues rfl
    have runs := exec_issues (i := .cls te l ws b) rfl issues
    obtain ⟨o, slot, passes⟩ := issues
    cases slot
    have cause : s.clsCause l ws = none := passes.cause
    refine ⟨fun empty => ?_, fun some_ => ?_⟩
    · rw [runs]
      exact congrArg _ (if_pos empty)
    · obtain ⟨line, beats⟩ := State.clsCause_none cause some_
      obtain ⟨dom, domain⟩ := State.domain_of_lineCause line
      have eff : (slotCls te l ws b s).eff s = if start + n ≤ now then s.lateBeats dom l start n now (s.dev.streamBytes (s.dev.drained s.car) w 0 32)
          else (s.lateBeats dom l start n now (s.dev.streamBytes (s.dev.drained s.car) w 0 32)).startStream .cls
            { id := 0, car := (s.lateBeats dom l start n now (s.dev.streamBytes (s.dev.drained s.car) w 0 32)).car.ref, num := 0, line := l
              start := start, beats := n, ws := w, header := s.dev.streamBytes (s.dev.drained s.car) w 0 32, domain := dom, issuedAt := now } w := by
        have beats' : (streamBeats (w.count * w.esz)).getD 0 = n := by rw [beats]; rfl
        unfold slotCls
        dsimp only
        rw [beats', domain]
        exact (if_neg (by rw [some_]; decide)).trans rfl
      obtain ⟨regs, bytes, noted, past, more⟩ := State.streams_spec (l := l) domain start n now (s.dev.streamBytes (s.dev.drained s.car) w 0 32) .cls
        { id := 0, car := (s.lateBeats dom l start n now (s.dev.streamBytes (s.dev.drained s.car) w 0 32)).car.ref, num := 0, line := l
          start := start, beats := n, ws := w, header := s.dev.streamBytes (s.dev.drained s.car) w 0 32, domain := dom, issuedAt := now } w free
      refine ⟨_, runs.trans (congrArg _ eff), regs, bytes, noted, past, fun left => ?_⟩
      obtain ⟨id, streams, y, copies, num, is⟩ := more left
      exact ⟨_, streams, rfl, rfl, rfl, rfl, rfl, domain.symm, free.symm, (s.lateBeats_frame dom l start n now _).2.2.2.2.2, rfl, y, copies, num, is⟩
  · obtain ⟨k, free⟩ := State.freeNumber_of_issues (i := .clsf te l a b) rfl issues rfl
    have runs := exec_issues (i := .clsf te l a b) rfl issues
    obtain ⟨o, slot, passes⟩ := issues
    cases slot
    have cause : s.clsfCause l a = none := passes.cause
    have line : s.lineCause l = none := by
      unfold State.clsfCause at cause
      dsimp only at cause
      split at cause
      · cases cause
      · exact cause
    obtain ⟨dom, domain⟩ := State.domain_of_lineCause line
    let x : Stream :=
      { id := 0, car := (s.lateBeats dom l start m now (List.replicate 32 0#8)).car.ref, num := 0, line := l, start := start, beats := m
        ws := Vector.replicate 8 0#64, header := [], domain := dom, issuedAt := now, group := some ((s.rS a).extractLsb' 0 12).toNat }
    have eff : (slotClsf te l a b s).eff s = if start + m ≤ now then s.lateBeats dom l start m now (List.replicate 32 0#8)
        else (s.lateBeats dom l start m now (List.replicate 32 0#8)).startStream .clsf x (Vector.replicate 8 0#64) := by
      unfold slotClsf
      dsimp only
      rw [domain]
    obtain ⟨regs, bytes, noted, past, more⟩ := State.streams_spec (l := l) domain start m now (List.replicate 32 0#8) .clsf x (Vector.replicate 8 0#64) free
    refine ⟨_, runs.trans (congrArg _ eff), regs, bytes, noted, past, fun left => ?_⟩
    obtain ⟨id, streams, y, copies, num, is⟩ := more left
    exact ⟨_, streams, rfl, rfl, rfl, rfl, domain.symm, free.symm, (s.lateBeats_frame dom l start m now _).2.2.2.2.2, y, copies, num, is⟩

/-- Settles O21: drives and reads of the Platform bus, and streams that enter their line with their late beats noted. -/
theorem busAndLineSlots : Obligations.BusAndLineSlots := ⟨platformBusResults, lineStreamsStart⟩

end Sys2Proof.Proofs

namespace Sys2Proof.Proofs
open Sys2Proof.Machine Sys2Proof.Claims

/-- The waybill of one byte at address 0 of the own scratchpad. -/
def oneByte : Waybill := #v[0#64, 0x0001000100010001#64, 0x400010001#64, 0#64, 0#64, 0#64, 0#64, 0#64]

/-- A mapping over the first granule of the scratchpad, which is not filled. -/
def unfilled : Stash := { num := 5, base := 0, len := 64, ws := Vector.replicate 8 0#64 }

/-- A copy that was issued while the mapping stood. -/
def waitingCopy : Copy := { num := 2, op := .ccpy, ws := oneByte, wd := oneByte, stash := [unfilled] }

/-- A running car with that mapping, that copy, and another copy whose destination lies in the granule. -/
def copiesOverStash : State :=
  { State.reset with
    car := { State.reset.car with
      eng := { State.reset.car.eng with
        stash := [unfilled]
        copies := [{ num := 1, op := .ccpy, ws := oneByte, wd := oneByte }, waitingCopy] } } }

/-- Refutes O20: the bytes that CABT leaves unspecified are written over a stash mapping and fill its granule, and that the granule is filled
comes into the record of every other copy that was issued before (R292): the record is not left alone. -/
theorem not_copySlots : ¬ Obligations.CopySlots := by
  unfold Obligations.CopySlots
  rintro ⟨-, ends⟩
  obtain ⟨-, valid⟩ := ends false 1#6 copiesOverStash
  obtain ⟨-, -, -, -, drops⟩ := valid (by decide)
  obtain ⟨t, runs, -, -, others⟩ := drops { num := 1, op := .ccpy, ws := oneByte, wd := oneByte } rfl (.inl rfl)
  have next : exec (.cabt false 1#6) copiesOverStash = .next ((slotCabt false 1#6 copiesOverStash).eff copiesOverStash) :=
    exec_passes (i := .cabt false 1#6) rfl
      { legal := by decide +kernel, allowed := rfl, units := by decide +kernel, still := rfl, reads := copiesOverStash.readable_nil
        room := copiesOverStash.room_nil, cause := rfl, spec := rfl, mapped := rfl }
  have same : t = (slotCabt false 1#6 copiesOverStash).eff copiesOverStash := Host.Outcome.next.inj (runs.symm.trans next)
  have kept : waitingCopy ∈ t.car.eng.copies := others waitingCopy (by simp [copiesOverStash]) (by decide)
  rw [same] at kept
  have filled : ((slotCabt false 1#6 copiesOverStash).eff copiesOverStash).car.eng.copies.all (fun k => k.stash.all (fun m => m.filled.contains 0)) = true := by
    decide +kernel
  exact absurd (List.all_eq_true.mp filled waitingCopy kept) (by decide)

end Sys2Proof.Proofs

namespace Sys2Proof.Machine
open Sys2Proof.Claims

/-! What the engines' accesses to memory leave of the cars: everything but scratchpads, stash mappings, pending causes and the TLBs of the
copy units. -/

/-- A copy without the scratchpad that it sees. -/
def Copy.outer (k : Copy) : Copy := { k with spad := {}, stash := [] }

/-- A car without what accesses of engines may change. -/
def Car.outer (c : Car) : Car :=
  { c with
    spad := {}
    tr := { c.tr with pending := [] }
    eng := { c.eng with stash := [], copyTlb := Vector.replicate 2 [], copies := c.eng.copies.map Copy.outer } }

/-- The cars so. -/
def State.outers (s : State) : List Car := s.cars.map Car.outer

section
variable {s t : State}

theorem State.outers_mapCar {f : Car → Car} (keeps : (f s.car).outer = s.car.outer) : (s.mapCar f).outers = s.outers :=
  congrArg (· :: s.peers.map Car.outer) keeps

theorem State.outers_mapCars {f : Car → Car} (keeps : ∀ c, (f c).outer = c.outer) : (s.mapCars f).outers = s.outers := by
  unfold State.outers
  rw [mapCars_cars, List.map_map]
  exact List.map_congr_left fun c _ => keeps c

theorem State.outers_mapAt {r : CarRef} {f : Car → Car} (keeps : ∀ c, (f c).outer = c.outer) : (s.mapAt r f).outers = s.outers :=
  State.outers_mapCars fun c => by
    split
    · exact keeps c
    · rfl

theorem State.outers_foldl {α : Type} {f : State → α → State} (keeps : ∀ s x, (f s x).outers = s.outers) (xs : List α) (s : State) :
    (xs.foldl f s).outers = s.outers := by
  induction xs generalizing s with
  | nil => rfl
  | cons x xs ih => exact (ih (f s x)).trans (keeps s x)

/-- Of the focused car only what such accesses change is another. -/
theorem State.outer_car (same : t.outers = s.outers) : t.car.outer = s.car.outer := (List.cons.inj same).1

theorem State.keepsRegs_of_outers (same : t.outers = s.outers) : KeepsRegs s t := by
  have car := State.outer_car same
  exact ⟨(congrArg Car.regs car :), (congrArg Car.ctl car :), (congrArg Car.pc car :), (congrArg Car.loop car :)⟩

theorem State.copies_of_outers (same : t.outers = s.outers) : t.car.eng.copies.map Copy.outer = s.car.eng.copies.map Copy.outer :=
  (congrArg (fun c : Car => c.eng.copies) (State.outer_car same) :)

/-- The copy of a number is the same one but for the scratchpad that it sees. -/
theorem State.copyOf_of_outers (same : t.outers = s.outers) (n : Nat) : (t.car.copyOf n).map Copy.outer = (s.car.copyOf n).map Copy.outer := by
  have named (c : Car) : (c.copyOf n).map Copy.outer = (c.eng.copies.map Copy.outer).find? (fun k => k.num == n) := by
    rw [List.find?_map]
    rfl
  rw [named, named, State.copies_of_outers same]

end

/-! Writes (R302, R306 to R308). -/

theorem State.outers_snoopN (k : Nat) : ∀ (me : Option CarRef) (spec : Option Speculation) (t : Target) (n : Nat) (s : State),
    (State.snoopN k me spec t n s).outers = s.outers := by
  induction k with
  | zero => exact fun _ _ _ _ _ => rfl
  | succ k ih =>
    intro me spec t n s
    unfold State.snoopN
    split
    · rfl
    · refine State.outers_foldl (fun s c => State.outers_foldl (fun s m => ?_) _ s) _ s
      split
      · rfl
      · split
        · rfl
        · split
          · rfl
          · refine Eq.trans (State.outers_foldl (fun s p => ?_) _ _) (State.outers_mapAt (s := s.mapDev _) fun _ => rfl)
            split
            · rfl
            · exact ih _ _ _ _ s

theorem State.outers_storeAt (s : State) (me : Option CarRef) (spec : Option Speculation) (die : Option Nat) (t : Target) (bs : List Byte) :
    (s.storeAt me spec die t bs).outers = s.outers := State.outers_snoopN _ _ _ _ _ s

theorem Car.outer_pend (c : Car) (a : Async) : (c.pend a).outer = c.outer := by
  rw [Car.pend_eq]
  rfl

theorem Car.outer_putFill (c : Car) (m : Stash) (g : Nat) (bytes : List Byte) (bad : List Nat) : (c.putFill m g bytes bad).outer = c.outer := by
  have copies : (c.putFill m g bytes bad).eng.copies.map Copy.outer = c.eng.copies.map Copy.outer := by
    unfold Car.putFill
    dsimp only
    rw [List.map_map]
    refine List.map_congr_left fun k _ => ?_
    dsimp only [Function.comp]
    split <;> rfl
  unfold Car.outer
  rw [copies]
  rfl

theorem Device.outer_fillGranule (d : Device) (c : Car) (m : Stash) (g : Nat) : (d.fillGranule c m g).outer = c.outer := by
  unfold Device.fillGranule
  split
  · rfl
  · exact c.outer_putFill _ _ _ _

theorem State.outers_fillOne (s : State) (m : Stash) (g : Nat) : (s.fillOne m g).outers = s.outers := by
  unfold State.fillOne
  split
  · rfl
  · split
    · next va _ =>
      have fault : (s.stashFault m.num va).tick.outers = s.outers :=
        State.outers_mapCar (s := s.mapDev (fun d => d.countWalk va)) (f := fun c => c.pend (.copyFault (BitVec.ofNat 6 m.num) (BitVec.ofNat 64 va)))
          (Car.outer_pend _ _)
      exact (State.outers_mapCar (s := (s.stashFault m.num va).tick) (Car.outer_putFill _ _ _ _ _)).trans fault
    · exact Eq.trans (State.outers_foldl (f := fun s u => s.mapDev (fun d => d.afterRead (d.specOf s.car) s.car.die u 64)) (fun s u => rfl) _ _)
        (State.outers_mapCar (s.dev.outer_fillGranule _ m g))

theorem State.outers_fillRange (s : State) (off n : Nat) : (s.fillRange off n).outers = s.outers := by
  unfold State.fillRange
  split
  · rfl
  · refine State.outers_foldl (fun s a => ?_) _ s
    split
    · split
      · exact s.outers_fillOne _ _
      · rfl
    · rfl

theorem Device.outer_fillRange (d : Device) (c : Car) (off n : Nat) : (d.fillRange c off n).outer = c.outer := by
  unfold Device.fillRange
  generalize (List.range (n / 64 + 2)).map (fun i => (off / 64 + i) * 64) = xs
  induction xs generalizing c with
  | nil => rfl
  | cons x xs ih =>
    rw [List.foldl_cons]
    refine (ih _).trans ?_
    split
    · split
      · exact d.outer_fillGranule _ _ _
      · rfl
    · rfl

theorem Device.outer_spadWrite (d : Device) (c : Car) (off : Nat) (bs : List Byte) : (d.spadWrite c off bs).outer = c.outer := by
  have first : (if c.eng.stash.isEmpty then c else d.fillRange c off bs.length).outer = c.outer := by
    split
    · rfl
    · exact d.outer_fillRange c off bs.length
  unfold Device.spadWrite
  generalize (if c.eng.stash.isEmpty then c else d.fillRange c off bs.length) = k at first ⊢
  dsimp only
  split <;> exact first

theorem State.outers_spadWrite (s : State) (off : Nat) (bs : List Byte) : (s.spadWrite off bs).outers = s.outers :=
  (State.outers_mapCar (s := s.fillRange off bs.length) (Device.outer_spadWrite _ _ _ _)).trans (s.outers_fillRange _ _)

theorem State.outers_poisonByte (s : State) (t : Target) : (s.poisonByte t).outers = s.outers := by
  unfold State.poisonByte
  split <;> rfl

theorem State.outers_writeMarked (s : State) (t : Target) (bs : List (Byte × Bool)) : (s.writeMarked t bs).outers = s.outers := by
  unfold State.writeMarked
  refine Eq.trans (State.outers_foldl (fun s p => ?_) _ _) ?_
  · split
    · exact s.outers_poisonByte _
    · rfl
  · split
    · exact s.outers_spadWrite _ _
    · exact s.outers_storeAt _ _ _ _ _

theorem State.outers_writePeer (s : State) (core : BitVec 9) (o : Nat) (bs : List (Byte × Bool)) : (s.writePeer core o bs).outers = s.outers := by
  unfold State.writePeer
  split
  · rfl
  · exact State.outers_mapAt fun _ => rfl

/-! Elements (R231, R240, R319). -/

theorem State.outers_engTarget (s : State) (u : Fin 2) (rd wr : Bool) (va : Word) : (s.engTarget u rd wr va).1.outers = s.outers := by
  unfold State.engTarget
  split
  · rfl
  · split
    · rfl
    · split
      · rfl
      · refine State.outers_mapCars fun c => ?_
        split <;> rfl

theorem State.outers_takeWay (s : State) (k : Copy) (t : Target) : (s.takeWay k t).outers = s.outers := by
  unfold State.takeWay
  split <;> rfl

theorem State.outers_sourceElem (s : State) (k : Copy) (m : Nat) : (s.sourceElem k m).1.outers = s.outers := by
  have target := s.outers_engTarget k.unit true false (k.ws.elem m)
  unfold State.sourceElem
  dsimp only
  split
  · rfl
  · split
    · exact target
    · split
      · exact (State.outers_takeWay _ _ _).trans target
      · exact (State.outers_takeWay _ _ _).trans target

theorem State.outers_putAt (s : State) (k : Copy) (sp : Bool) (a : Word) (bs : List (Byte × Bool)) : (s.putAt k sp a bs).1.outers = s.outers := by
  have target := s.outers_engTarget k.unit false true a
  unfold State.putAt
  split
  · split
    · exact s.outers_writeMarked _ _
    · exact s.outers_writePeer _ _ _
  · dsimp only
    split
    · exact target
    · exact target
    · split
      · exact (State.outers_takeWay _ _ _).trans target
      · exact ((State.outers_writeMarked _ _ _).trans (State.outers_takeWay _ _ _)).trans target

theorem State.outers_moveElems (k : Copy) (n : Nat) : ∀ (m : Nat) (s : State), (s.moveElems k n m).1.outers = s.outers := by
  induction n with
  | zero => exact fun _ _ => rfl
  | succ n ih =>
    intro m s
    have source := s.outers_sourceElem k m
    unfold State.moveElems
    dsimp only
    split
    · exact source
    · next bs _ =>
      have put := (State.outers_putAt (s.sourceElem k m).1 k k.wd.sp (k.wd.elem m) bs).trans source
      split
      · exact (ih _ _).trans put
      · exact put

theorem State.outers_smear (s : State) (k : Copy) (i n : Nat) : (s.smear k i n).outers = s.outers := by
  unfold State.smear
  refine State.outers_foldl (fun s j => ?_) _ s
  split
  · exact s.outers_putAt _ _ _ _
  · rfl

end Sys2Proof.Machine

namespace Sys2Proof.Machine
open Sys2Proof.Claims

/-! What reads leave of memory: lines of the die's cache may leave for their home (R300 to R303). -/

/-- A dirty byte of a die's cache. -/
def Device.DirtyAt (d : Device) (die line i : Nat) : Prop := ∃ l ∈ d.cache, l.die = die ∧ l.line = line ∧ l.dirty.getLsbD i = true

/-- Memory stands but for dirty bytes of a die's cache that went home, and no byte of that cache came to be dirty. -/
structure Device.Evicts (die : Nat) (d e : Device) : Prop where
  rest : e.rest = d.rest
  dirty : ∀ line i, e.DirtyAt die line i → d.DirtyAt die line i
  clean : (∀ line i, ¬ d.DirtyAt die line i) → (∀ a, e.mem.read a = d.mem.read a) ∧ ∀ a, e.remote.read a = d.remote.read a
  home : d.fab.fwd = [] → (∀ a, e.remote.read a = d.remote.read a) ∧ ∀ a, e.mem.read a = d.mem.read a ∨ d.DirtyAt die (a / 64) (a % 64)

section
variable {die : Nat} {d e f : Device}

theorem Device.fab_of_rest (same : e.rest = d.rest) : e.fab = d.fab := (congrArg Device.fab same :)

/-- A change that leaves memory, the caches and what no access changes. -/
theorem Device.Evicts.of_same (rest : e.rest = d.rest) (cache : e.cache = d.cache) (mem : ∀ a, e.mem.read a = d.mem.read a)
    (remote : e.remote = d.remote) : d.Evicts die e :=
  { rest := rest
    dirty := fun line i => by rw [Device.DirtyAt, cache]; exact id
    clean := fun _ => ⟨mem, fun a => by rw [remote]⟩
    home := fun _ => ⟨fun a => by rw [remote], fun a => .inl (mem a)⟩ }

theorem Device.Evicts.refl (die : Nat) (d : Device) : d.Evicts die d := .of_same rfl rfl (fun _ => rfl) rfl

theorem Device.Evicts.trans (h : d.Evicts die e) (g : e.Evicts die f) : d.Evicts die f where
  rest := g.rest.trans h.rest
  dirty line i at_ := h.dirty line i (g.dirty line i at_)
  clean none := by
    obtain ⟨mem, remote⟩ := h.clean none
    obtain ⟨mem', remote'⟩ := g.clean fun line i at_ => none line i (h.dirty line i at_)
    exact ⟨fun a => (mem' a).trans (mem a), fun a => (remote' a).trans (remote a)⟩
  home own := by
    obtain ⟨remote, mem⟩ := h.home own
    obtain ⟨remote', mem'⟩ := g.home ((congrArg Fabric.fwd (Device.fab_of_rest h.rest)).trans own)
    refine ⟨fun a => (remote' a).trans (remote a), fun a => ?_⟩
    rcases mem' a with same | at_
    · rw [same]
      exact mem a
    · exact .inr (h.dirty _ _ at_)

theorem Device.Evicts.foldl {α : Type} {g : Device → α → Device} (step : ∀ (d : Device) x, d.Evicts die (g d x)) (xs : List α) (d : Device) :
    d.Evicts die (xs.foldl g d) := by
  induction xs generalizing d with
  | nil => exact .refl die d
  | cons x xs ih => exact (step d x).trans (ih _)

theorem Device.cache_foldl {α : Type} {g : Device → α → Device} (step : ∀ (d : Device) x, (g d x).cache = d.cache) (xs : List α) (d : Device) :
    (xs.foldl g d).cache = d.cache := by
  induction xs generalizing d with
  | nil => rfl
  | cons x xs ih => exact (ih (g d x)).trans (step d x)

theorem Device.cache_hbmWrite (d : Device) (a : Nat) (bs : List Byte) : (d.hbmWrite a bs).cache = d.cache := by
  unfold Device.hbmWrite
  split
  · rfl
  · refine Device.cache_foldl (fun d p => ?_) _ d
    unfold Device.hbmPut
    split <;> rfl

theorem Device.cache_hbmSpoil (d : Device) (a : Nat) : (d.hbmSpoil a).cache = d.cache := by
  unfold Device.hbmSpoil
  split <;> rfl

/-- A line that goes home is clean after it (R303). -/
theorem Device.cache_flushLine (d : Device) (die line : Nat) : (d.flushLine die line).cache = d.cache ∨
    (d.flushLine die line).cache = d.cache.map (fun x => if x.die == die && x.line == line then { x with dirty := 0#64 } else x) := by
  unfold Device.flushLine
  split
  · next l found =>
    split
    · exact .inl rfl
    · refine .inr ?_
      show (d.writeBack die line).cache = _
      unfold Device.writeBack
      rw [found]
      dsimp only
      rw [Device.cache_foldl (fun d i => ?_), Device.cache_foldl (fun d p => d.cache_hbmWrite _ _)]
      split
      · exact d.cache_hbmSpoil _
      · rfl
  · exact .inl rfl

theorem Device.evicts_flushLine (d : Device) (die line : Nat) : d.Evicts die (d.flushLine die line) := by
  cases found : d.cache.find? (fun l => l.die == die && l.line == line) with
  | none =>
    have same : d.flushLine die line = d := by rw [Device.flushLine, found]
    rw [same]
    exact .refl die d
  | some l =>
    have here := List.mem_of_find?_eq_some found
    have named := List.find?_some found
    rw [Bool.and_eq_true, beq_iff_eq, beq_iff_eq] at named
    refine { rest := Device.rest_flushLine d die line, dirty := fun line' i at_ => ?_, clean := fun none => ?_, home := fun own => ?_ }
    · rcases d.cache_flushLine die line with same | cleaned
      · rw [Device.DirtyAt, same] at at_
        exact at_
      · rw [Device.DirtyAt, cleaned] at at_
        obtain ⟨x, hx, mine, line_, dirty⟩ := at_
        obtain ⟨y, hy, rfl⟩ := List.mem_map.mp hx
        by_cases this : (y.die == die && y.line == line) = true
        · rw [if_pos this] at dirty
          simp at dirty
        · rw [if_neg this] at mine line_ dirty
          exact ⟨y, hy, mine, line_, dirty⟩
    · have same : d.flushLine die line = d := by
        rw [Device.flushLine, found]
        refine if_pos (BitVec.eq_of_getLsbD_eq fun i _ => ?_)
        rw [BitVec.getLsbD_zero]
        exact Bool.eq_false_iff.mpr fun dirty => none l.line i ⟨l, here, named.1, rfl, dirty⟩
      rw [same]
      exact ⟨fun _ => rfl, fun _ => rfl⟩
    · obtain ⟨m, ls, ps, eq, home⟩ := Device.flushLine_eq own found
      rw [eq]
      refine ⟨fun _ => rfl, fun a => ?_⟩
      show m.read a = _ ∨ _
      rw [home a]
      split
      · next at_ =>
        obtain ⟨low, high, dirty⟩ := at_
        refine .inr ⟨l, here, named.1, by omega, ?_⟩
        rw [show a % 64 = a - l.line * 64 by omega]
        exact dirty
      · exact .inl rfl

theorem Device.evicts_dropLine (d : Device) (die line : Nat) : d.Evicts die (d.dropLine die line) where
  rest := rfl
  dirty _ _ := fun ⟨l, here, rest⟩ => ⟨l, List.mem_of_mem_filter here, rest⟩
  clean _ := ⟨fun _ => rfl, fun _ => rfl⟩
  home _ := ⟨fun _ => rfl, fun _ => .inl rfl⟩

theorem Device.evicts_cacheFill (d : Device) (die line : Nat) : d.Evicts die (d.cacheFill die line) := by
  have room : d.Evicts die (d.makeRoom die) := by
    unfold Device.makeRoom
    split
    · exact .refl die d
    · split
      · exact (d.evicts_flushLine die _).trans (Device.evicts_dropLine _ die _)
      · exact .of_same rfl rfl (fun _ => rfl) rfl
      · exact .refl die d
  unfold Device.cacheFill
  split
  · exact .refl die d
  · refine room.trans { rest := rfl, dirty := fun line' i => ?_, clean := fun _ => ⟨fun _ => rfl, fun _ => rfl⟩, home := fun _ => ⟨fun _ => rfl, fun _ => .inl rfl⟩ }
    rintro ⟨l, here, mine, at_, dirty⟩
    rcases List.mem_cons.mp here with rfl | old
    · simp at dirty
    · exact ⟨l, old, mine, at_, dirty⟩

theorem Device.evicts_meetErrors (d : Device) (die pa n : Nat) : d.Evicts die (d.meetErrors pa n) := by
  obtain ⟨m, ls, h, eq, read, -⟩ := d.meetErrors_spec pa n
  rw [eq]
  exact .of_same rfl rfl read rfl

theorem Device.evicts_touch (d : Device) (die die' pa n : Nat) (write : Bool) : d.Evicts die (d.touch die' pa n write) := by
  unfold Device.touch
  split
  · exact .refl die d
  · exact .foldl (g := fun d i => d.touchLine die' write (pa / 64 + i)) (fun d i => .of_same rfl rfl (fun _ => rfl) rfl) _ d

/-- A read by an agent of a die (R300, R302). -/
theorem Device.evicts_afterRead (d : Device) (die : Nat) (spec : Option Speculation) (t : Target) (n : Nat) :
    d.Evicts die (d.afterRead spec (some die) t n) := by
  unfold Device.afterRead
  split
  · next k same =>
    cases same
    exact ((d.evicts_cacheFill die _).trans (Device.evicts_cacheFill _ die _)).trans (Device.evicts_meetErrors _ die _ _)
  · exact (d.evicts_meetErrors die _ _).trans (Device.evicts_touch _ die _ _ _ _)
  · exact d.evicts_meetErrors die _ _
  · exact .refl die d

end

end Sys2Proof.Machine

namespace Sys2Proof.Machine
open Sys2Proof.Claims

/-! What a read of a car leaves (R132, R306). -/

/-- A state after reads of the focused car: of the cars only what engines' accesses change is another, and of memory what evictions change. -/
structure State.Fetched (s t : State) : Prop where
  outers : t.outers = s.outers
  dev : s.dev.Evicts (dieOf s.car.ident.coreId) t.dev
  spad : s.car.eng.stash = [] → t.car.eng.stash = [] ∧ t.car.spad = s.car.spad

section
variable {s t u : State}

theorem State.Fetched.refl (s : State) : s.Fetched s := ⟨rfl, .refl _ _, fun none => ⟨none, rfl⟩⟩

theorem State.ident_of_outers (same : t.outers = s.outers) : t.car.ident = s.car.ident := (congrArg Car.ident (State.outer_car same) :)

theorem State.Fetched.trans (h : s.Fetched t) (g : t.Fetched u) : s.Fetched u where
  outers := g.outers.trans h.outers
  dev := h.dev.trans (by rw [← State.ident_of_outers h.outers]; exact g.dev)
  spad none := by
    obtain ⟨none', spad⟩ := h.spad none
    obtain ⟨none'', spad'⟩ := g.spad none'
    exact ⟨none'', spad'.trans spad⟩

theorem State.Fetched.foldl {α : Type} {f : State → α → State} (step : ∀ (s : State) x, s.Fetched (f s x)) (xs : List α) (s : State) :
    s.Fetched (xs.foldl f s) := by
  induction xs generalizing s with
  | nil => exact .refl s
  | cons x xs ih => exact (step s x).trans (ih _)

/-- A read of memory by the die of the focused car. -/
theorem State.fetched_afterRead (s : State) (t : Target) (n : Nat) :
    s.Fetched (s.mapDev (fun d => d.afterRead (d.specOf s.car) s.car.die t n)) :=
  ⟨rfl, s.dev.evicts_afterRead _ _ t n, fun none => ⟨none, rfl⟩⟩

theorem Device.evicts_countWalk (d : Device) (die va : Nat) : d.Evicts die (d.countWalk va) := by
  unfold Device.countWalk
  split <;> exact .of_same rfl rfl (fun _ => rfl) rfl

theorem State.fetched_fillOne (s : State) (m : Stash) (g : Nat) (mapped : s.car.eng.stash ≠ []) : s.Fetched (s.fillOne m g) := by
  have outers := s.outers_fillOne m g
  refine ⟨outers, ?_, fun none => absurd none mapped⟩
  unfold State.fillOne at *
  split
  · exact .refl _ _
  · split
    · next va _ => exact s.dev.evicts_countWalk _ va
    · have ident : (s.mapCar (fun c => s.dev.fillGranule c m g)).car.ident = s.car.ident :=
        State.ident_of_outers (State.outers_mapCar (s.dev.outer_fillGranule _ m g))
      have fills := (State.Fetched.foldl (f := fun s u => s.mapDev (fun d => d.afterRead (d.specOf s.car) s.car.die u 64))
        (fun s u => s.fetched_afterRead u 64) (s.dev.tileLines m g) (s.mapCar (fun c => s.dev.fillGranule c m g))).dev
      rw [ident] at fills
      exact fills

theorem State.fetched_fillRange (s : State) (off n : Nat) : s.Fetched (s.fillRange off n) := by
  unfold State.fillRange
  split
  · exact .refl s
  · refine .foldl (fun s a => ?_) _ s
    split
    · split
      · next m found =>
        refine s.fetched_fillOne _ _ fun none => ?_
        rw [Car.stashOf, none] at found
        cases found
      · exact .refl s
    · exact .refl s

theorem State.fetched_afterFetch (s : State) (t : Target) (n : Nat) : s.Fetched (s.afterFetch t n) := by
  unfold State.afterFetch
  split
  · exact s.fetched_fillRange _ _
  · exact s.fetched_afterRead _ n

/-- The watchpoints that an access passes are no part of what the engines' accesses leave. -/
theorem Watched.fetched (h : Watched s t) : s.Fetched t := by
  have car : t.car.outer = s.car.outer := by rw [h.car]; rfl
  refine ⟨?_, ?_, fun none => ?_⟩
  · show t.car.outer :: t.peers.map Car.outer = s.car.outer :: s.peers.map Car.outer
    rw [car, h.peers]
  · rw [h.dev]
    exact .of_same rfl rfl (fun _ => rfl) rfl
  · rw [h.car]
    exact ⟨none, rfl⟩

theorem State.Fetched.now (h : s.Fetched t) : t.now = s.now := (congrArg (fun d : Device => d.now) h.dev.rest :)

/-- What such reads leave is what a load leaves. -/
theorem State.Fetched.sameRegs (h : s.Fetched t) : SameRegs s t := by
  have car := State.outer_car h.outers
  have peers : t.peers.map Car.outer = s.peers.map Car.outer := (List.cons.inj h.outers).2
  refine ⟨(congrArg Car.regs car :), (congrArg Car.ctl car :), (congrArg Car.loop car :), (congrArg Car.late car :), (congrArg Car.arr car :),
    (congrArg Car.ident car :), (congrArg Car.pc car :), (congrArg (fun c : Car => c.tr.handler) car :), (congrArg (fun c : Car => c.tr.masked) car :),
    (congrArg (fun c : Car => c.tr.snap) car :), ?_⟩
  have regs := congrArg (List.map Car.regs) peers
  rw [List.map_map, List.map_map] at regs
  exact regs

theorem State.Fetched.sameButEvicted (h : s.Fetched t) : SameButEvicted s t := by
  have imem : t.car.imem = s.car.imem := (congrArg Car.imem (State.outer_car h.outers) :)
  refine ⟨fun a => by rw [imem], fun none a => by rw [(h.spad none).2], fun clean => h.dev.clean fun line i at_ => ?_, fun own => ?_⟩
  · obtain ⟨l, here, mine, -, dirty⟩ := at_
    rw [clean l here mine] at dirty
    simp at dirty
  · obtain ⟨remote, mem⟩ := h.dev.home own
    exact ⟨remote, fun a => (mem a).imp_right fun ⟨l, here, mine, line, dirty⟩ => ⟨l, here, mine, line, dirty⟩⟩

end

end Sys2Proof.Machine

namespace Sys2Proof.Machine
open Sys2Proof.Claims

/-! Scalar loads (R132, R291). -/

section
variable {s t u : State}

/-- What leaves of a car and of memory no less than another state leaves. -/
theorem sameButEvicted_congr (h : SameButEvicted s t) (imem : u.car.imem = t.car.imem) (spad : u.car.spad = t.car.spad)
    (mem : u.dev.mem = t.dev.mem) (remote : u.dev.remote = t.dev.remote) : SameButEvicted s u := by
  unfold SameButEvicted at h ⊢
  rw [imem, spad, mem, remote]
  exact h

theorem Car.startS_bytes (c : Car) (now : Nat) (r : SReg) (x : Word) (due : Option Nat) (fixed poison : Bool) (ha : Word) (eta : Nat) :
    (c.startS now r x due fixed poison ha eta).imem = c.imem ∧ (c.startS now r x due fixed poison ha eta).spad = c.spad ∧
      (c.startS now r x due fixed poison ha eta).ref = c.ref := by
  unfold Car.startS
  split <;> exact ⟨rfl, rfl, rfl⟩

/-- A producer starts where reads have left off. -/
theorem State.Fetched.starts (h : s.Fetched t) (now : Nat) (r : SReg) (x : Word) (due : Option Nat) (fixed poison : Bool) (ha : Word) (eta : Nat) :
    SameRegs s (t.mapCar (fun c => c.startS now r x due fixed poison ha eta)) ∧
      SameButEvicted s (t.mapCar (fun c => c.startS now r x due fixed poison ha eta)) := by
  obtain ⟨imem, spad, -⟩ := t.car.startS_bytes now r x due fixed poison ha eta
  exact ⟨sameRegs_trans h.sameRegs (sameRegs_startS t now r x due fixed poison ha eta), sameButEvicted_congr h.sameButEvicted imem spad rfl rfl⟩

/-- A load that issues (R132). -/
theorem State.load_spec {i : Instr} {te sgn : Bool} {d a : SReg} {off : BitVec 36} {size : Nat} (slot : slotOf i s = some (s.load te d a off size sgn))
    (issues : s.Issues i) :
    let ha := s.rS a + off.signExtend 64 * BitVec.ofNat 64 size
    let got := s.fetchBytes (s.target ha) size
    ∃ t, exec i s = .next t ∧ SameRegs s t ∧ SameButEvicted s t ∧
      (match s.target ha with
       | .remote pa _ => (d ≠ 0 → t.car.emptyS d = true) ∧ ∃ r ∈ t.dev.fab.remote, r.car = s.car.ref ∧ r.pa = pa ∧ r.op = .load size sgn
       | x => got.err = false → Awaits t d (loadedValue sgn size got.bytes) (if x.isLocal then some (s.now + 4) else none)) := by
  intro ha got
  have runs : exec i s = .next (s.loadNow d ha size sgn) := Proofs.exec_issues slot issues
  have read : s.Fetched ((s.watch ha size true false).afterFetch (s.target ha) size) :=
    (State.watched_watch s ha size true false).fetched.trans (State.fetched_afterFetch _ _ _)
  have value (fine : got.err = false) : extend sgn size got.nat = loadedValue sgn size got.bytes := by
    rw [Loaded.nat, fine, if_neg Bool.false_ne_true]
    rfl
  unfold State.loadNow at runs
  dsimp only at runs
  generalize (s.watch ha size true false).afterFetch (s.target ha) size = v at read runs
  rw [show s.fetchBytes (s.target ha) size = got from rfl] at runs
  clear_value got
  have near : let t := v.mapCar (fun c => c.startS v.now d (extend sgn size got.nat) (some (v.now + 4)) true got.poison 0#64 0)
      SameRegs s t ∧ SameButEvicted s t ∧ (got.err = false → Awaits t d (loadedValue sgn size got.bytes) (some (s.now + 4))) := by
    obtain ⟨regs, bytes⟩ := read.starts v.now d (extend sgn size got.nat) (some (v.now + 4)) true got.poison 0#64 0
    refine ⟨regs, bytes, fun fine => ?_⟩
    rw [← value fine, ← read.now]
    exact awaits_startS v.now d _ _ _ _ _ _ v
  have far (eta : Nat) : let t := v.mapCar (fun c => c.startS v.now d (extend sgn size got.nat) none false (got.poison || got.err) ha eta)
      SameRegs s t ∧ SameButEvicted s t ∧ (got.err = false → Awaits t d (loadedValue sgn size got.bytes) none) := by
    obtain ⟨regs, bytes⟩ := read.starts v.now d (extend sgn size got.nat) none false (got.poison || got.err) ha eta
    refine ⟨regs, bytes, fun fine => ?_⟩
    rw [← value fine]
    exact awaits_startS v.now d _ _ _ _ _ _ v
  cases target : s.target ha with
  | remote pa c =>
    rw [target] at runs
    dsimp only at runs
    obtain ⟨regs, bytes⟩ := read.starts v.now d (extend sgn size got.nat) none false false ha 0
    obtain ⟨-, -, ref⟩ := v.car.startS_bytes v.now d (extend sgn size got.nat) none false false ha 0
    refine ⟨_, runs, regs, sameButEvicted_congr bytes rfl rfl rfl rfl, fun nonzero => ?_, ?_⟩
    · exact Car.emptyS_startS v.car _ _ _ _ _ _ _ _ nonzero
    · refine ⟨_, List.mem_append_right _ (List.mem_singleton_self _), ?_, rfl, rfl⟩
      exact ref.trans (congrArg Car.ref (State.outer_car read.outers) :)
  | spad o => rw [target] at runs; dsimp only at runs; exact ⟨_, runs, near⟩
  | imem o => rw [target] at runs; dsimp only at runs; exact ⟨_, runs, near⟩
  | peer w core o => rw [target] at runs; dsimp only at runs; exact ⟨_, runs, far _⟩
  | hbm pa sm => rw [target] at runs; dsimp only at runs; exact ⟨_, runs, far _⟩
  | host pa => rw [target] at runs; dsimp only at runs; exact ⟨_, runs, far _⟩
  | nowhere => rw [target] at runs; dsimp only at runs; exact ⟨_, runs, far _⟩

end

end Sys2Proof.Machine

namespace Sys2Proof.Proofs
open Sys2Proof.Machine Sys2Proof.Claims

/-- Loads of every width (R91, R132). -/
theorem loadsOfEveryWidth : Sys2Proof.Claims.LoadResults := by
  intro te d a off s l member issues
  simp only [loads, List.mem_cons, List.not_mem_nil, or_false] at member
  rcases member with rfl | rfl | rfl | rfl | rfl | rfl | rfl <;> exact State.load_spec rfl issues

/-- The bytes that loads read (R132, R291). -/
theorem loadedBytes : Sys2Proof.Claims.LoadedBytes := by
  intro s n pa
  refine ⟨fun unmapped => ⟨List.map_congr_left fun i _ => ?_, rfl⟩, ⟨rfl, rfl⟩, fun own main => ⟨List.map_congr_left fun i _ => ?_, rfl⟩, rfl, rfl⟩
  · have stand : s.srcDev.spadByte s.src (pa + i) = s.src.spad.read (pa + i) := by
      rw [Device.spadByte, Car.stashOf, unmapped]
      rfl
    unfold Device.ownByte Claims.own
    rw [stand]
    cases s.src.queuedByte (pa + i) <;> rfl
  · have spec : s.srcDev.specOf s.src = none := if_neg (by rw [main]; decide)
    rw [spec]
    show s.srcDev.hbmByte (pa + i) = _
    rw [Device.hbmByte, own]
    rfl

/-- Settles O3: loads of every width in every space, and the bytes that they read. -/
theorem loadResults : Obligations.LoadResults := ⟨loadsOfEveryWidth, loadedBytes⟩

end Sys2Proof.Proofs

namespace Sys2Proof.Machine
open Sys2Proof.Claims

/-! Atomics (R137, R139, R291, R312). -/

section
variable {s t u : State}

/-- Where an address leads rests on the car's name, its control registers and its handles. -/
theorem State.target_mapCar {f : Car → Car} (regs : (f s.car).regs = s.car.regs) (ctl : (f s.car).ctl = s.car.ctl)
    (ident : (f s.car).ident = s.car.ident) (ha : Word) : (s.mapCar f).target ha = s.target ha := by
  have dev : (s.mapCar f).srcDev = s.srcDev := rfl
  rw [State.target, State.target, dev]
  cases old : s.old with
  | some o =>
    have src : (s.mapCar f).src = s.src := by
      rw [State.src, State.src, State.mapCar, old]
    rw [src]
  | none =>
    have src : (s.mapCar f).src = f s.car ∧ s.src = s.car := by
      rw [State.src, State.src, State.mapCar, old]
      exact ⟨rfl, rfl⟩
    rw [src.1, src.2, Car.target, Car.target, Car.wmap, Car.wmap, Car.handle, Car.handle, regs, ctl, ident]

/-- An atomic's producer of a car: empty until its value comes, and noted as a write where it is one. -/
def Car.startA (c : Car) (o : AtomicOp) (n now : Nat) (r : SReg) (x : Word) (due : Option Nat) (fixed poison : Bool) (ha : Word) (eta : Nat) : Car :=
  (c.startS now r x due fixed poison ha eta).noteWrite o n

section
variable (c : Car) (o : AtomicOp) (n now : Nat) (r : SReg) (x : Word) (due : Option Nat) (fixed poison : Bool) (ha : Word) (eta : Nat)

theorem sameRegs_startA (s : State) : SameRegs s (s.mapCar (fun c => c.startA o n now r x due fixed poison ha eta)) :=
  sameRegs_startS s now r x due fixed poison ha eta

theorem awaits_startA (s : State) : Awaits (s.mapCar (fun c => c.startA o n now r x due fixed poison ha eta)) r x due := by
  intro nonzero
  obtain ⟨empty, f, hf, dest, due'⟩ := awaits_startS now r x due fixed poison ha eta s nonzero
  refine ⟨empty, _, List.mem_map.mpr ⟨f, hf, rfl⟩, ?_, ?_⟩
  · rw [apply_ite Flight.dest, ite_self]
    exact dest
  · rw [apply_ite Flight.due, ite_self]
    exact due'

theorem Car.startA_bytes : (c.startA o n now r x due fixed poison ha eta).imem = c.imem ∧ (c.startA o n now r x due fixed poison ha eta).spad = c.spad ∧
    (c.startA o n now r x due fixed poison ha eta).ref = c.ref ∧ (c.startA o n now r x due fixed poison ha eta).eng.stash = c.eng.stash ∧
    (c.startA o n now r x due fixed poison ha eta).regs = c.regs ∧ (c.startA o n now r x due fixed poison ha eta).ctl = c.ctl ∧
    (c.startA o n now r x due fixed poison ha eta).ident = c.ident := by
  unfold Car.startA Car.startS
  split <;> exact ⟨rfl, rfl, rfl, rfl, rfl, rfl, rfl⟩

end

/-- An atomic that stands in the store queue (R291, R312). -/
theorem State.atomicLater_spec (u : State) (o : AtomicOp) (d : SReg) (ha b cmp : Word) (ord : BitVec 2) :
    let t := u.atomicLater o d ha b cmp ord
    SameRegs u t ∧ SameBytes u t ∧
    (∃ q ∈ t.car.eng.queue, q.target = u.target ha ∧ q.atomic.isSome = true ∧ q.acquire = ord.getLsbD 0 ∧ q.ready ≤ u.now + 40) ∧
    (o.returns = true → d ≠ 0 → t.car.emptyS d = true) := by
  have ready (now : Nat) : (if ord.getLsbD 1 then now + 40 else now) ≤ now + 40 := by split <;> omega
  obtain ⟨imem, spad, -, -, regs, ctl, ident⟩ := u.car.startA_bytes o u.car.eng.nextId u.now d 0#64 none false false ha 0
  have same := sameRegs_startA o u.car.eng.nextId u.now d 0#64 none false false ha 0 u
  have target := State.target_mapCar (s := u) (f := fun k => { k.startA o u.car.eng.nextId u.now d 0#64 none false false ha 0 with
    eng := { (k.startA o u.car.eng.nextId u.now d 0#64 none false false ha 0).eng with nextId := u.car.eng.nextId + 1 } }) regs ctl ident ha
  unfold State.atomicLater
  cases returns : o.returns with
  | true =>
    refine ⟨same, ⟨fun _ => rfl, fun _ => rfl, fun a => congrArg (Mem.read · a) imem, fun _ a => congrArg (Mem.read · a) spad⟩,
      ⟨_, List.mem_append_right _ (List.mem_singleton_self _), target, rfl, rfl, ready _⟩, fun _ nonzero => ?_⟩
    exact (awaits_startA o u.car.eng.nextId u.now d 0#64 none false false ha 0 u nonzero).1
  | false =>
    exact ⟨⟨rfl, rfl, rfl, rfl, rfl, rfl, rfl, rfl, rfl, rfl, rfl⟩, ⟨fun _ => rfl, fun _ => rfl, fun _ => rfl, fun _ _ => rfl⟩,
      ⟨_, List.mem_append_right _ (List.mem_singleton_self _), rfl, rfl, rfl, ready _⟩, nofun⟩

/-- An atomic of a page of another package leaves as a request (R414). -/
theorem State.atomicRemote_spec (u : State) (o : AtomicOp) (d : SReg) (ha : Word) (pa : BitVec 52) (c : Bool) (b cmp : Word) (ord : BitVec 2) :
    let t := u.atomicRemote o d ha pa c b cmp ord
    SameRegs u t ∧ SameBytes u t ∧ (o.returns = true → d ≠ 0 → t.car.emptyS d = true) ∧
    ∃ r ∈ t.dev.fab.remote, r.car = u.car.ref ∧ r.pa = pa ∧ r.acquire = ord.getLsbD 0 := by
  obtain ⟨imem, spad, ref⟩ := u.car.startS_bytes u.now d 0#64 none false false ha 0
  unfold State.atomicRemote
  cases returns : o.returns with
  | true =>
    refine ⟨sameRegs_startS u u.now d 0#64 none false false ha 0, ⟨fun _ => rfl, fun _ => rfl, fun a => congrArg (Mem.read · a) imem,
      fun _ a => congrArg (Mem.read · a) spad⟩, fun _ nonzero => ?_, _, List.mem_append_right _ (List.mem_singleton_self _), ref, rfl, rfl⟩
    exact Car.emptyS_startS u.car _ _ _ _ _ _ _ _ nonzero
  | false =>
    exact ⟨⟨rfl, rfl, rfl, rfl, rfl, rfl, rfl, rfl, rfl, rfl, rfl⟩, ⟨fun _ => rfl, fun _ => rfl, fun _ => rfl, fun _ _ => rfl⟩, nofun, _,
      List.mem_append_right _ (List.mem_singleton_self _), rfl, rfl, rfl⟩

/-- A step that leaves every byte, behind an access that has passed its watchpoints. -/
theorem Watched.sameBytes_trans (h : Watched s t) (g : SameBytes t u) : SameBytes s u := by
  obtain ⟨mem, remote, code, pad⟩ := h.sameBytes
  obtain ⟨mem', remote', code', pad'⟩ := g
  exact ⟨fun a => (mem' a).trans (mem a), fun a => (remote' a).trans (remote a), fun a => (code' a).trans (code a),
    fun unmapped a => (pad' (by rw [h.eng]; exact unmapped) a).trans (pad unmapped a)⟩

/-- A write of the own scratchpad where nothing is mapped (R139). -/
theorem State.spadWrite_unmapped (u : State) (off : Nat) (bs : List Byte) (unmapped : u.car.eng.stash = []) :
    u.spadWrite off bs = u.mapCar (fun c => { c with spad := c.spad.write off bs }) := by
  have fills : u.fillRange off bs.length = u := by rw [State.fillRange, unmapped]; rfl
  rw [State.spadWrite, fills]
  show u.mapCar _ = u.mapCar _
  unfold State.mapCar Device.spadWrite
  simp only [unmapped, List.isEmpty_nil, if_true]

theorem Mem.poisoned_of_anyPoison {m : Mem} {a n i : Nat} (clean : m.anyPoison a n = false) (inside : i < n) : ¬ m.poisoned (a + i) = true := by
  intro bad
  rw [Mem.anyPoison, List.any_eq_false] at clean
  refine clean (a + i) (List.contains_iff_mem.mp bad) ?_
  rw [decide_eq_true_eq]
  omega

/-- An atomic on the own scratchpad changes no register but its destination (R139). -/
theorem State.sameRegs_atomicNear (u : State) (o : AtomicOp) (d : SReg) (off : Nat) (b cmp : Word) (unmapped : u.car.eng.stash = []) :
    SameRegs u (u.atomicNear o d off b cmp) := by
  have fills (n : Nat) : u.fillRange off n = u := by rw [State.fillRange, unmapped]; rfl
  have performs (l : Loaded) : SameRegs u (u.performNear o off l b cmp) := by
    unfold State.performNear State.afterFetch
    dsimp only
    rw [fills]
    split
    · split
      · exact (Watched.refl u).sameRegs
      · rw [State.spadWrite_unmapped _ _ _ unmapped]
        exact ⟨rfl, rfl, rfl, rfl, rfl, rfl, rfl, rfl, rfl, rfl, rfl⟩
    · exact (Watched.refl u).sameRegs
  unfold State.atomicNear
  dsimp only
  split
  · exact sameRegs_trans (performs _) (sameRegs_startS ..)
  · exact performs _

/-- An atomic on the own scratchpad, where nothing is mapped and its word is not poisoned (R139). -/
theorem State.atomicNear_spec (u : State) (o : AtomicOp) (d : SReg) (off : Nat) (b cmp : Word) (src : u.src.eng.stash = [])
    (unmapped : u.car.eng.stash = []) (clean : u.src.spad.anyPoison off 8 = false) :
    let t := u.atomicNear o d off b cmp
    let old := ownWord u.src off
    SameRegs u t ∧ (match o.result old b cmp with
      | some x => Stored u.car.spad t.car.spad off 8 x
      | none => t.car.spad = u.car.spad) ∧
    t.dev = u.dev ∧ (o.returns = true → Awaits t d old (some (u.now + 4))) := by
  have got : u.fetchBytes (.spad off) 8 = { bytes := (List.range 8).map (fun i => own u.src (off + i)) } := by
    have fine : (List.range 8).any (fun i => (u.src.queuedByte (off + i)).isNone && u.srcDev.spadPoison u.src (off + i)) = false := by
      rw [List.any_eq_false]
      intro i hi both
      rw [Bool.and_eq_true, Device.spadPoison, Car.stashOf, src] at both
      exact Mem.poisoned_of_anyPoison clean (List.mem_range.mp hi) both.2
    have bytes := ((Proofs.loadedBytes u 8 off).1 src).1
    show ({ bytes := _, poison := _, err := false } : Loaded) = _
    rw [fine]
    exact congrArg (fun bs => ({ bytes := bs } : Loaded)) bytes
  have fills (n : Nat) : u.fillRange off n = u := by rw [State.fillRange, unmapped]; rfl
  have performs : u.performNear o off { bytes := (List.range 8).map (fun i => own u.src (off + i)) } b cmp =
      match o.result (ownWord u.src off) b cmp with
      | some x => u.mapCar (fun c => { c with spad := c.spad.write off (bytesLE 8 x.toNat) })
      | none => u := by
    unfold State.performNear State.afterFetch
    dsimp only
    rw [fills]
    show (match o.result (ownWord u.src off) b cmp with
      | some x => if (false && o.returns) = true then u else u.spadWrite off (bytesLE 8 x.toNat)
      | none => u) = _
    cases o.result (ownWord u.src off) b cmp with
    | none => rfl
    | some x => exact u.spadWrite_unmapped _ _ unmapped
  intro t old
  let v := u.performNear o off { bytes := (List.range 8).map (fun i => own u.src (off + i)) } b cmp
  have eq : t = if o.returns then v.mapCar (fun k => k.startS v.now d old (some (v.now + 4)) true (false && o.returns) 0#64 0) else v := by
    unfold t State.atomicNear
    rw [got]
    rfl
  have same : SameRegs u v ∧ v.dev = u.dev ∧ (match o.result old b cmp with
      | some x => Stored u.car.spad v.car.spad off 8 x
      | none => v.car.spad = u.car.spad) := by
    rw [show v = _ from performs]
    cases o.result old b cmp with
    | none => exact ⟨⟨rfl, rfl, rfl, rfl, rfl, rfl, rfl, rfl, rfl, rfl, rfl⟩, rfl, rfl⟩
    | some x => exact ⟨⟨rfl, rfl, rfl, rfl, rfl, rfl, rfl, rfl, rfl, rfl, rfl⟩, rfl, stored_write u.car.spad off x⟩
  obtain ⟨regs, dev, stands⟩ := same
  have now : v.now = u.now := congrArg Device.now dev
  rw [eq]
  cases returns : o.returns with
  | false => exact ⟨regs, stands, dev, nofun⟩
  | true =>
    obtain ⟨-, spad, -⟩ := v.car.startS_bytes v.now d old (some (v.now + 4)) true (false && true) 0#64 0
    refine ⟨sameRegs_trans regs (sameRegs_startS v _ _ _ _ _ _ _ _), ?_, dev, fun _ => ?_⟩
    · show (match o.result old b cmp with
        | some x => Stored u.car.spad (v.car.startS v.now d old (some (v.now + 4)) true (false && true) 0#64 0).spad off 8 x
        | none => (v.car.startS v.now d old (some (v.now + 4)) true (false && true) 0#64 0).spad = u.car.spad)
      rw [spad]
      exact stands
    · rw [← now]
      exact awaits_startS v.now d old _ _ _ _ _ v

theorem State.sameRegs_storeError (u : State) (ha : Word) : SameRegs u (u.storeError ha) := by
  unfold State.storeError
  split <;> exact ⟨rfl, rfl, rfl, rfl, rfl, rfl, rfl, rfl, rfl, rfl, rfl⟩

section
variable (noStash : ∀ c ∈ u.cars, c.eng.stash = []) (me : Option CarRef) (spec : Option Speculation) (die : Option Nat) (ha : Word) (o : AtomicOp)
  (t : Target) (b cmp : Word)
include noStash

/-- The access of an atomic changes no register (R137). -/
theorem State.sameRegs_performAtomic : SameRegs u (u.performAtomic me spec die ha o t b cmp).1 := by
  have refl {v : State} (car : v.car = u.car) (peers : v.peers = u.peers) : SameRegs u v := by
    unfold SameRegs
    rw [car, peers]
    exact ⟨rfl, rfl, rfl, rfl, rfl, rfl, rfl, rfl, rfl, rfl, rfl⟩
  unfold State.performAtomic
  rw [State.snoop_of_noStash noStash, ite_self]
  dsimp only
  split
  · split
    · exact refl rfl rfl
    · split
      · exact sameRegs_trans (refl rfl rfl) (State.sameRegs_storeError _ ha)
      · exact refl rfl rfl
  · exact refl rfl rfl

/-- The access of an atomic that reads what is not poisoned (R137). -/
theorem State.performAtomic_clean {bytes : List Byte} (read : u.dev.readPhys spec die t 8 = { bytes := bytes }) :
    u.performAtomic me spec die ha o t b cmp = (match o.result (BitVec.ofNat 64 (natLE bytes)) b cmp with
      | some x => u.mapDev (fun d => (d.afterRead spec die t 8).writePhys spec die t (bytesLE 8 x.toNat))
      | none => u.mapDev (fun d => d.afterRead spec die t 8), { bytes := bytes }) := by
  unfold State.performAtomic
  rw [State.snoop_of_noStash noStash, ite_self]
  dsimp only
  rw [read]
  rfl

end

theorem Device.touch_regions (d : Device) (die pa n : Nat) (write : Bool) : ∃ r, d.touch die pa n write = { d with regions := r } := by
  unfold Device.touch
  split
  · exact ⟨d.regions, rfl⟩
  · generalize List.range ((pa + n - 1) / 64 - pa / 64 + 1) = lines
    induction lines generalizing d with
    | nil => exact ⟨d.regions, rfl⟩
    | cons x xs ih =>
      obtain ⟨r, eq⟩ := ih (d.touchLine die write (pa / 64 + x))
      exact ⟨r, eq⟩

/-- A coherent place: its addresses mean bytes of this package's HBM or of host memory. -/
inductive Coherent (pa : Nat) : Target → Prop
  | hbm (inside : pa + 8 ≤ Config.hbmSize) : Coherent pa (.hbm pa false)
  | host : Coherent pa (.host pa)

/-- Reading a coherent place changes no byte (R300, R454). -/
theorem Device.afterRead_reads {pa : Nat} {t : Target} (d : Device) (die : Nat) (at_ : Coherent pa t) :
    let e := d.afterRead none (some die) t 8
    (∀ a, e.mem.read a = d.mem.read a) ∧ e.remote = d.remote ∧ e.fab = d.fab := by
  cases at_ with
  | host => exact ⟨fun _ => rfl, rfl, rfl⟩
  | hbm =>
    obtain ⟨m, l, h, met, reads, -⟩ := d.meetErrors_spec pa 8
    obtain ⟨r, eq⟩ := (d.meetErrors pa 8).touch_regions die pa 8 false
    intro e
    rw [show e = _ from eq, met]
    exact ⟨reads, rfl, rfl⟩

/-- A word written to a coherent place (R302). -/
theorem Device.writePhys_stores {pa : Nat} {t : Target} (d : Device) (die : Nat) (at_ : Coherent pa t) (fwd : d.fab.fwd = []) (x : Word) :
    let e := d.writePhys none (some die) t (bytesLE 8 x.toNat)
    Stored d.mem e.mem pa 8 x ∧ e.remote = d.remote := by
  cases at_ with
  | host => exact ⟨stored_write d.mem pa x, rfl⟩
  | hbm inside =>
    have whole : (bytesLE 8 x.toNat).take (Config.hbmSize - pa) = bytesLE 8 x.toNat :=
      List.take_of_length_le (by rw [bytesLE_length]; omega)
    have wrote : d.hbmWrite pa (bytesLE 8 x.toNat) = { d with
        mem := d.mem.write pa (bytesLE 8 x.toNat)
        latent := d.latent.filter (fun y => decide (y < pa ∨ pa + (bytesLE 8 x.toNat).length ≤ y)) } := by
      rw [Device.hbmWrite, fwd]
      rfl
    obtain ⟨r, eq⟩ := (d.hbmWrite pa (bytesLE 8 x.toNat)).touch_regions die pa (bytesLE 8 x.toNat).length true
    intro e
    have left : e = ((d.hbmWrite pa (bytesLE 8 x.toNat)).touch die pa (bytesLE 8 x.toNat).length true).watched none pa (bytesLE 8 x.toNat).length := by
      show ((d.hbmWrite pa _).touch die pa _ true).watched none pa _ = _
      rw [whole]
    rw [left, eq, wrote]
    exact ⟨stored_write d.mem pa x, rfl⟩

/-- No byte of a place is poisoned (R134). -/
def Device.CleanAt (d : Device) (pa : Nat) (t : Target) : Prop :=
  match t with
  | .hbm .. => ∀ i < 8, d.hbmPoison (pa + i) = false
  | _ => d.mem.anyPoison pa 8 = false

/-- What a coherent place reads for a car that does not speculate, where no byte is poisoned. -/
theorem Device.readPhys_coherent {pa : Nat} {t : Target} (d : Device) (die : Nat) (at_ : Coherent pa t) (fwd : d.fab.fwd = [])
    (clean : d.CleanAt pa t) :
    d.readPhys none (some die) t 8 = { bytes := d.mem.readBytes pa 8 } := by
  cases at_ with
  | host =>
    show ({ bytes := _, poison := d.mem.anyPoison pa 8 } : Loaded) = _
    rw [show d.mem.anyPoison pa 8 = false from clean]
  | hbm inside =>
    have byte (i : Nat) : d.viewByte none (some die) false (pa + i) = d.mem.read (pa + i) := by
      show d.hbmByte (pa + i) = _
      rw [Device.hbmByte, fwd]
      rfl
    have fine : (List.range 8).any (fun i => d.viewPoison none (some die) false (pa + i)) = false := by
      rw [List.any_eq_false]
      intro i hi bad
      rw [show d.viewPoison none (some die) false (pa + i) = false from clean i (List.mem_range.mp hi)] at bad
      cases bad
    show ({ bytes := _, poison := (List.range 8).any (fun i => d.viewPoison none (some die) false (pa + i)) } : Loaded) = _
    rw [fine]
    exact congrArg (fun bs => ({ bytes := bs } : Loaded)) (List.map_congr_left fun i _ => byte i)

/-- What an atomic leaves of memory at a coherent place (R137). -/
theorem State.atomic_stores {pa : Nat} {t : Target} (die : Nat) (o : AtomicOp) (b cmp : Word) (fwd : u.dev.fab.fwd = []) (at_ : Coherent pa t)
    (old : Word) :
    let e := match o.result old b cmp with
      | some x => u.mapDev (fun d => (d.afterRead none (some die) t 8).writePhys none (some die) t (bytesLE 8 x.toNat))
      | none => u.mapDev (fun d => d.afterRead none (some die) t 8)
    (match o.result old b cmp with
      | some x => Stored u.dev.mem e.dev.mem pa 8 x
      | none => ∀ i, e.dev.mem.read i = u.dev.mem.read i) ∧ e.dev.remote = u.dev.remote ∧ e.car = u.car := by
  obtain ⟨reads, remote, fab⟩ := u.dev.afterRead_reads die at_
  cases o.result old b cmp with
  | none => exact ⟨reads, remote, rfl⟩
  | some x =>
    obtain ⟨stored, remote'⟩ := (u.dev.afterRead none (some die) t 8).writePhys_stores die at_ (fab ▸ fwd) x
    refine ⟨fun a => (stored a).trans ?_, remote'.trans remote, rfl⟩
    rw [reads]

/-- The place where an atomic performs keeps the registers. -/
theorem State.atomicHome_frame (u : State) (t : Target) : (u.atomicHome t).1.car = u.car ∧ (u.atomicHome t).1.peers = u.peers := by
  unfold State.atomicHome
  split <;> exact ⟨rfl, rfl⟩

/-- An atomic elsewhere (R137, R140). -/
theorem State.atomicFar_spec (u : State) (o : AtomicOp) (d : SReg) (ha b cmp : Word) (noStash : ∀ c ∈ u.cars, c.eng.stash = [])
    (plain : PlainHbm u) : let t := u.atomicFar o d ha b cmp
    SameRegs u t ∧ ∀ pa, Coherent pa (u.target ha) →
      u.dev.CleanAt pa (u.target ha) →
      let old := u.dev.mem.readWord pa
      (match o.result old b cmp with
       | some x => Stored u.dev.mem t.dev.mem pa 8 x
       | none => ∀ i, t.dev.mem.read i = u.dev.mem.read i) ∧
      t.dev.remote = u.dev.remote ∧ t.car.spad = u.car.spad ∧ (o.returns = true → Awaits t d old none) := by
  obtain ⟨fwd, main⟩ := plain
  have spec : u.dev.specOf u.car = none := if_neg (by rw [main]; decide)
  intro t
  let eta := u.now + u.latency (u.target ha)
  let r := (u.atomicHome (u.target ha)).1.performAtomic (some u.car.ref) none (u.atomicHome (u.target ha)).2.2 ha o
    (u.atomicHome (u.target ha)).2.1 b cmp
  have eq : t = if o.returns then r.1.mapCar (fun k => k.startA o k.eng.nextId u.now d (BitVec.ofNat 64 r.2.nat) none false (r.2.poison || r.2.err) ha eta)
      else r.1 := by
    unfold t State.atomicFar
    rw [spec]
    rfl
  have homes : ∀ c ∈ (u.atomicHome (u.target ha)).1.cars, c.eng.stash = [] := by
    obtain ⟨car, peers⟩ := u.atomicHome_frame (u.target ha)
    unfold State.cars
    rw [car, peers]
    exact noStash
  have regs : SameRegs u r.1 := by
    obtain ⟨car, peers⟩ := u.atomicHome_frame (u.target ha)
    refine sameRegs_trans ?_ (State.sameRegs_performAtomic homes _ _ _ _ _ _ _ _)
    unfold SameRegs
    rw [car, peers]
    exact ⟨rfl, rfl, rfl, rfl, rfl, rfl, rfl, rfl, rfl, rfl, rfl⟩
  clear_value eta t
  subst eq
  refine ⟨?_, fun pa at_ clean => ?_⟩
  · split
    · exact sameRegs_trans regs (sameRegs_startA ..)
    · exact regs
  · intro old
    have home : u.atomicHome (u.target ha) = (u, u.target ha, u.car.die) := by
      cases at_' : u.target ha <;> rw [at_'] at at_ <;> cases at_ <;> rfl
    have done := State.performAtomic_clean noStash (some u.car.ref) none u.car.die ha o (u.target ha) b cmp
      (u.dev.readPhys_coherent (dieOf u.car.ident.coreId) at_ fwd clean)
    have same : r = u.performAtomic (some u.car.ref) none u.car.die ha o (u.target ha) b cmp := by
      unfold r
      rw [home]
    rw [← same] at done
    obtain ⟨stored, remote, car⟩ := State.atomic_stores (u := u) (dieOf u.car.ident.coreId) o b cmp fwd at_ old
    let v := match o.result old b cmp with
      | some x => u.mapDev (fun d => (d.afterRead none u.car.die (u.target ha) 8).writePhys none u.car.die (u.target ha) (bytesLE 8 x.toNat))
      | none => u.mapDev (fun d => d.afterRead none u.car.die (u.target ha) 8)
    have first : r.1 = v := congrArg Prod.fst done
    have second : r.2 = { bytes := u.dev.mem.readBytes pa 8 } := congrArg Prod.snd done
    rw [first, second]
    by_cases returns : o.returns = true
    · rw [if_pos returns]
      refine ⟨stored, remote, ?_, fun _ => awaits_startA o v.car.eng.nextId u.now d old none false _ ha eta v⟩
      exact (Car.startA_bytes ..).2.1.trans (congrArg Car.spad car)
    · rw [if_neg returns]
      exact ⟨stored, remote, congrArg Car.spad car, fun yes => absurd yes returns⟩

end

end Sys2Proof.Machine

namespace Sys2Proof.Machine
open Sys2Proof.Claims

/-- What an atomic leaves at a coherent place, whose new value is `f` of the old one (R137). -/
def AtomicDone (s t : State) (pa : Nat) (d : SReg) (f : Word → Option Word) (returns : Bool) : Prop :=
  let old := s.dev.mem.readWord pa
  (match f old with
   | some x => Stored s.dev.mem t.dev.mem pa 8 x
   | none => ∀ i, t.dev.mem.read i = s.dev.mem.read i) ∧
  t.dev.remote = s.dev.remote ∧ t.car.spad = s.car.spad ∧ (returns = true → Awaits t d old none)

/-- An atomic that stands in the store queue (R291, R312). -/
def AtomicQueued (s t : State) (x : Target) (d : SReg) (ord : BitVec 2) (returns : Bool) : Prop :=
  SameBytes s t ∧ (∃ q ∈ t.car.eng.queue, q.target = x ∧ q.atomic.isSome = true ∧ q.acquire = ord.getLsbD 0 ∧ q.ready ≤ s.now + 40) ∧
  (returns = true → d ≠ 0 → t.car.emptyS d = true)

/-- What an atomic does, whose old value comes to sd where `returns` says so (R137, R139, R291, R312). -/
def AtomicGives (s t : State) (x : Target) (d : SReg) (ord : BitVec 2) (f : Word → Option Word) (returns : Bool) : Prop :=
  match x with
  | .spad o => if s.holds s.now then AtomicQueued s t x d ord returns else s.src.spad.anyPoison o 8 = false →
      let old := ownWord s.src o
      (match f old with
       | some x => Stored s.car.spad t.car.spad o 8 x
       | none => t.car.spad = s.car.spad) ∧
      t.dev.mem = s.dev.mem ∧ t.dev.remote = s.dev.remote ∧ (returns = true → Awaits t d old (some (s.now + 4)))
  | .hbm pa false => if s.holds s.now || ord.getLsbD 1 then AtomicQueued s t x d ord returns else
      (∀ i < 8, s.dev.hbmPoison (pa + i) = false) → pa + 8 ≤ Config.hbmSize → AtomicDone s t pa d f returns
  | .host pa => if s.holds s.now || ord.getLsbD 1 then AtomicQueued s t x d ord returns else s.dev.mem.anyPoison pa 8 = false → AtomicDone s t pa d f returns
  | .remote pa _ => SameBytes s t ∧ (returns = true → d ≠ 0 → t.car.emptyS d = true) ∧
      ∃ r ∈ t.dev.fab.remote, r.car = s.car.ref ∧ r.pa = pa ∧ r.acquire = ord.getLsbD 0
  | _ => True

/-- The destination of an atomic that returns nothing does not count. -/
theorem AtomicGives.of_noReturn {s t : State} {x : Target} {d : SReg} {ord : BitVec 2} {f : Word → Option Word} (d' : SReg)
    (h : AtomicGives s t x d ord f false) : AtomicGives s t x d' ord f false := by
  unfold AtomicGives AtomicQueued AtomicDone at h ⊢
  simpa only [Bool.false_eq_true, false_implies] using h

/-- An atomic that issues, in every space (R137, R139). -/
theorem State.atomic_spec {i : Instr} {s : State} {te : Bool} {o : AtomicOp} {d a : SReg} {b : Word} {srcs : List SReg} {ord : BitVec 2} {ok : Bool}
    (slot : slotOf i s = some (s.atomic te o d a b srcs ord ok)) (issues : s.Issues i) (noStash : NoStash s) (plain : PlainHbm s) :
    ∃ t, exec i s = .next t ∧ SameRegs s t ∧ AtomicGives s t (s.target (s.rS a)) d ord (fun old => o.result old b (s.rS d)) o.returns := by
  let ha := s.rS a
  have runs := Proofs.exec_issues slot issues
  replace runs : exec i s = .next (s.atomicNow o d ha b (s.rS d) ord) := runs
  have seen := State.watched_watch s ha 8 true true
  unfold State.atomicNow at runs
  dsimp only at runs
  generalize s.watch ha 8 true true = u at runs seen
  have held : u.holds u.now = s.holds s.now := by
    unfold State.holds State.now
    rw [seen.car, seen.dev]
    rfl
  have homes : ∀ c ∈ u.cars, c.eng.stash = [] := by
    intro c member
    rw [State.cars, seen.peers, List.mem_cons] at member
    rcases member with rfl | member
    · rw [seen.eng]
      exact noStash.2 _ (List.mem_cons_self ..)
    · exact noStash.2 _ (List.mem_cons_of_mem _ member)
  have empty : u.src.eng.stash = [] := by
    obtain ⟨p, eq⟩ := seen.src
    rw [eq]
    exact noStash.1
  have pads : u.src.spad = s.src.spad ∧ ∀ o', ownWord u.src o' = ownWord s.src o' := by
    obtain ⟨p, eq⟩ := seen.src
    rw [eq]
    exact ⟨rfl, fun _ => rfl⟩
  have views : PlainHbm u := by
    unfold PlainHbm
    rw [seen.dev, seen.car]
    exact plain
  have spads : u.car.spad = s.car.spad := by rw [seen.car]
  have poison (pa : Nat) (t : Target) : u.dev.CleanAt pa t ↔ s.dev.CleanAt pa t := by
    have bad (i : Nat) : u.dev.hbmPoison i = s.dev.hbmPoison i := by
      rw [Device.hbmPoison, Device.hbmPoison, plain.1, views.1, if_pos (List.isEmpty_nil ..), if_pos (List.isEmpty_nil ..), seen.dev]
    unfold Device.CleanAt
    simp only [bad, seen.mem]
  have goesLater (ord' : BitVec 2) (acquires : ord'.getLsbD 0 = ord.getLsbD 0) : let t := u.atomicLater o d ha b (s.rS d) ord'
      SameRegs s t ∧ AtomicQueued s t (s.target ha) d ord o.returns := by
    obtain ⟨regs, bytes, ⟨q, member, target, atomic, acquire, ready⟩, waits⟩ := u.atomicLater_spec o d ha b (s.rS d) ord'
    exact ⟨sameRegs_trans seen.sameRegs regs, seen.sameBytes_trans bytes, ⟨q, member, target.trans (seen.target ha), atomic,
      acquire.trans acquires, seen.now ▸ ready⟩, waits⟩
  have goesFar := u.atomicFar_spec o d ha b (s.rS d) homes views
  rw [seen.target] at runs goesFar
  obtain ⟨farRegs, farBytes⟩ := goesFar
  rw [held] at runs
  have far (pa : Nat) (at_ : Coherent pa (s.target ha)) (clean : s.dev.CleanAt pa (s.target ha)) :
      AtomicDone s (u.atomicFar o d ha b (s.rS d)) pa d (fun old => o.result old b (s.rS d)) o.returns := by
    obtain ⟨stored, remote, spad, waits⟩ := farBytes pa at_ ((poison pa _).mpr clean)
    rw [seen.mem] at stored waits
    rw [seen.remote] at remote
    exact ⟨stored, remote, spad.trans spads, waits⟩
  have elsewhere : exec i s = .next (if s.holds s.now || ord.getLsbD 1 then u.atomicLater o d ha b (s.rS d) ord else u.atomicFar o d ha b (s.rS d)) →
      ∃ t, exec i s = .next t ∧ SameRegs s t ∧ if s.holds s.now || ord.getLsbD 1 then AtomicQueued s t (s.target ha) d ord o.returns else
        ∀ pa, Coherent pa (s.target ha) → s.dev.CleanAt pa (s.target ha) → AtomicDone s t pa d (fun old => o.result old b (s.rS d)) o.returns := by
    intro runs
    refine ⟨_, runs, ?_⟩
    split
    · exact goesLater ord rfl
    · exact ⟨sameRegs_trans seen.sameRegs farRegs, far⟩
  clear far farBytes farRegs
  change ∃ t, exec i s = .next t ∧ SameRegs s t ∧ AtomicGives s t (s.target ha) d ord (fun old => o.result old b (s.rS d)) o.returns
  generalize s.target ha = x at runs goesLater elsewhere
  cases x with
  | remote pa c =>
    obtain ⟨regs, bytes, waits, r, member, car, place, acquire⟩ := u.atomicRemote_spec o d ha pa c b (s.rS d) ord
    exact ⟨_, runs, sameRegs_trans seen.sameRegs regs, seen.sameBytes_trans bytes, waits, r, member,
      car.trans (by rw [seen.car]; rfl), place, acquire⟩
  | spad o' =>
    replace runs : exec i s = .next (if s.holds s.now then u.atomicLater o d ha b (s.rS d) (ord &&& 1#2) else u.atomicNear o d o' b (s.rS d)) := runs
    refine ⟨_, runs, ?_⟩
    unfold AtomicGives
    dsimp only
    cases s.holds s.now with
    | true => exact goesLater (ord &&& 1#2) (by rw [BitVec.getLsbD_and]; simp)
    | false =>
      have unmapped : u.car.eng.stash = [] := homes _ (List.mem_cons_self ..)
      refine ⟨sameRegs_trans seen.sameRegs (u.sameRegs_atomicNear o d o' b (s.rS d) unmapped), fun clean => ?_⟩
      obtain ⟨-, stands, dev, waits⟩ := u.atomicNear_spec o d o' b (s.rS d) empty unmapped (by rw [pads.1]; exact clean)
      rw [pads.2, spads] at stands
      rw [pads.2, seen.now] at waits
      rw [if_neg Bool.false_ne_true, dev]
      exact ⟨stands, seen.mem, seen.remote, waits⟩
  | hbm pa sm =>
    obtain ⟨t, eq, regs, rest⟩ := elsewhere runs
    refine ⟨t, eq, regs, ?_⟩
    cases sm with
    | true => trivial
    | false =>
      unfold AtomicGives
      dsimp only
      split at rest
      · next yes => rwa [if_pos yes]
      · next no =>
        rw [if_neg no]
        exact fun clean inside => rest pa (.hbm inside) clean
  | host pa =>
    obtain ⟨t, eq, regs, rest⟩ := elsewhere runs
    refine ⟨t, eq, regs, ?_⟩
    unfold AtomicGives
    dsimp only
    split at rest
    · next yes => rwa [if_pos yes]
    · next no =>
      rw [if_neg no]
      exact rest pa .host
  | imem o' =>
    obtain ⟨t, eq, regs, -⟩ := elsewhere runs
    exact ⟨t, eq, regs, trivial⟩
  | peer w core o' =>
    obtain ⟨t, eq, regs, -⟩ := elsewhere runs
    exact ⟨t, eq, regs, trivial⟩
  | nowhere =>
    obtain ⟨t, eq, regs, -⟩ := elsewhere runs
    exact ⟨t, eq, regs, trivial⟩

end Sys2Proof.Machine

namespace Sys2Proof.Proofs
open Sys2Proof.Machine Sys2Proof.Claims

/-- Every atomic does what its row of the table says (R137). -/
theorem atomics_give {te : Bool} {sc : BitVec 2} {d a b : SReg} {ord : BitVec 2} {s : State}
    {l : Instr × (Word → Word → Word → Option Word) × Bool} (member : l ∈ atomics te sc d a b ord) (issues : s.Issues l.1)
    (noStash : NoStash s) (plain : PlainHbm s) : ∃ t, exec l.1 s = .next t ∧ SameRegs s t ∧
      AtomicGives s t (s.target (s.rS a)) d ord (fun old => l.2.1 old (s.rS b) (s.rS d)) l.2.2 := by
  have gives {te' : Bool} {o : AtomicOp} {d' : SReg} {y : Word} {srcs : List SReg} {ok : Bool}
      (slot : slotOf l.1 s = some (s.atomic te' o d' a y srcs ord ok)) :=
    State.atomic_spec slot issues noStash plain
  simp only [atomics, List.mem_cons, List.not_mem_nil, or_false] at member
  rcases member with rfl | rfl | rfl | rfl | rfl | rfl | rfl | rfl
  · exact gives (o := .ld) rfl
  · obtain ⟨t, runs, regs, result⟩ := gives (o := .st) rfl
    exact ⟨t, runs, regs, result.of_noReturn d⟩
  · exact gives (o := .add) rfl
  · exact gives (o := .maxu) rfl
  · exact gives (o := .or) rfl
  · exact gives (o := .and) rfl
  · exact gives (o := .swp) rfl
  · exact gives (o := .cas) rfl

/-- Settles O5: every atomic in every space. -/
theorem atomicResults : Obligations.AtomicResults := by
  intro te sc d a b ord s l member issues noStash plain ha coherent queued
  obtain ⟨t, runs, regs, gives⟩ := atomics_give member issues noStash plain
  refine ⟨t, runs, regs, ?_⟩
  unfold AtomicGives AtomicQueued AtomicDone at gives
  unfold coherent queued ha
  dsimp only at gives ⊢
  exact gives

end Sys2Proof.Proofs

namespace Sys2Proof.Machine
open Sys2Proof.Claims

/-! What reading the source of a collective leaves (R251, R302). -/

/-- Memory stands but for dirty bytes of a die's cache that went home, and the collectives stand; packets may have left. -/
structure Device.Drains (die : Nat) (d e : Device) : Prop where
  fwd : e.fab.fwd = d.fab.fwd
  colls : e.fab.colls = d.fab.colls
  dirty : ∀ line i, e.DirtyAt die line i → d.DirtyAt die line i
  clean : (∀ line i, ¬ d.DirtyAt die line i) → (∀ a, e.mem.read a = d.mem.read a) ∧ ∀ a, e.remote.read a = d.remote.read a
  home : d.fab.fwd = [] → (∀ a, e.remote.read a = d.remote.read a) ∧ ∀ a, e.mem.read a = d.mem.read a ∨ d.DirtyAt die (a / 64) (a % 64)

section
variable {die : Nat} {d e f : Device}

theorem Device.Evicts.drains (h : d.Evicts die e) : d.Drains die e where
  fwd := congrArg Fabric.fwd (Device.fab_of_rest h.rest)
  colls := congrArg Fabric.colls (Device.fab_of_rest h.rest)
  dirty := h.dirty
  clean := h.clean
  home := h.home

theorem Device.Drains.trans (h : d.Drains die e) (g : e.Drains die f) : d.Drains die f where
  fwd := g.fwd.trans h.fwd
  colls := g.colls.trans h.colls
  dirty line i at_ := h.dirty line i (g.dirty line i at_)
  clean none := by
    obtain ⟨mem, remote⟩ := h.clean none
    obtain ⟨mem', remote'⟩ := g.clean fun line i at_ => none line i (h.dirty line i at_)
    exact ⟨fun a => (mem' a).trans (mem a), fun a => (remote' a).trans (remote a)⟩
  home own := by
    obtain ⟨remote, mem⟩ := h.home own
    obtain ⟨remote', mem'⟩ := g.home (h.fwd.trans own)
    refine ⟨fun a => (remote' a).trans (remote a), fun a => ?_⟩
    rcases mem' a with same | at_
    · rw [same]
      exact mem a
    · exact .inr (h.dirty _ _ at_)

theorem Device.drains_sendOut (die : Nat) (d : Device) (w : Way) (pkg n : Nat) (c : Bool) : d.Drains die (d.sendOut w pkg n c) := by
  obtain ⟨ps, stat, os, eq⟩ := d.sendOut_eq w pkg n c
  rw [eq]
  exact ⟨rfl, rfl, fun _ _ => id, fun _ => ⟨fun _ => rfl, fun _ => rfl⟩, fun _ => ⟨fun _ => rfl, fun _ => .inl rfl⟩⟩

end

/-- A state after reads of the engine of the focused car. -/
structure State.Drawn (s t : State) : Prop where
  outers : t.outers = s.outers
  dev : s.dev.Drains (dieOf s.car.ident.coreId) t.dev
  spad : t.car.spad = s.car.spad ∧ t.car.eng.stash = s.car.eng.stash

section
variable {s t u : State}

theorem State.Drawn.refl (s : State) : s.Drawn s := ⟨rfl, (Device.Evicts.refl _ _).drains, rfl, rfl⟩

theorem State.Drawn.trans (h : s.Drawn t) (g : t.Drawn u) : s.Drawn u where
  outers := g.outers.trans h.outers
  dev := h.dev.trans (by rw [← State.ident_of_outers h.outers]; exact g.dev)
  spad := ⟨g.spad.1.trans h.spad.1, g.spad.2.trans h.spad.2⟩

theorem State.Drawn.sameButEvicted (h : s.Drawn t) : SameButEvicted s t := by
  have imem : t.car.imem = s.car.imem := (congrArg Car.imem (State.outer_car h.outers) :)
  refine ⟨fun a => by rw [imem], fun _ a => by rw [h.spad.1], fun clean => h.dev.clean fun line i at_ => ?_, fun own => ?_⟩
  · obtain ⟨l, here, mine, -, dirty⟩ := at_
    rw [clean l here mine] at dirty
    simp at dirty
  · obtain ⟨remote, mem⟩ := h.dev.home own
    exact ⟨remote, fun a => (mem a).imp_right fun ⟨l, here, mine, line, dirty⟩ => ⟨l, here, mine, line, dirty⟩⟩

theorem State.drawn_engTarget (s : State) (n : Fin 2) (rd wr : Bool) (va : Word) : s.Drawn (s.engTarget n rd wr va).1 := by
  have rest : s.dev.Drains (dieOf s.car.ident.coreId) (s.engTarget n rd wr va).1.dev ∧
      (s.engTarget n rd wr va).1.car.spad = s.car.spad ∧ (s.engTarget n rd wr va).1.car.eng.stash = s.car.eng.stash := by
    unfold State.engTarget
    split
    · exact ⟨(Device.Evicts.refl _ _).drains, rfl, rfl⟩
    · split
      · exact ⟨(Device.Evicts.refl _ _).drains, rfl, rfl⟩
      · split
        · exact ⟨(s.dev.evicts_countWalk _ _).drains, rfl, rfl⟩
        · next w _ =>
          have car : (s.addCopyTlb n w).car.spad = s.car.spad ∧ (s.addCopyTlb n w).car.eng.stash = s.car.eng.stash := by
            show (if s.car.ident.coreId = s.car.ident.coreId then _ else _ : Car).spad = _ ∧
              (if s.car.ident.coreId = s.car.ident.coreId then _ else _ : Car).eng.stash = _
            rw [if_pos rfl]
            exact ⟨rfl, rfl⟩
          exact ⟨(Device.Evicts.refl _ _).drains, car⟩
  exact ⟨s.outers_engTarget n rd wr va, rest.1, rest.2⟩

theorem State.drawn_takeWay (s : State) (k : Copy) (x : Target) : s.Drawn (s.takeWay k x) := by
  have rest : s.dev.Drains (dieOf s.car.ident.coreId) (s.takeWay k x).dev ∧
      (s.takeWay k x).car.spad = s.car.spad ∧ (s.takeWay k x).car.eng.stash = s.car.eng.stash := by
    unfold State.takeWay
    split
    · exact ⟨s.dev.drains_sendOut _ _ _ _ _, rfl, rfl⟩
    · exact ⟨(Device.Evicts.refl _ _).drains, rfl, rfl⟩
  exact ⟨s.outers_takeWay k x, rest.1, rest.2⟩

theorem State.drawn_sourceElem (s : State) (k : Copy) (m : Nat) : s.Drawn (s.sourceElem k m).1 := by
  have target := s.drawn_engTarget k.unit true false (k.ws.elem m)
  unfold State.sourceElem
  dsimp only
  split
  · exact .refl s
  · split
    · exact target
    · next x _ =>
      have way := target.trans (State.drawn_takeWay _ k x)
      split
      · exact way
      · exact way.trans ⟨rfl, (Device.evicts_afterRead _ _ _ _ _).drains, rfl, rfl⟩

/-- Two parts of one rank in one collective. -/
def Contribution.Same (p q : Contribution) : Prop :=
  q.rank = p.rank ∧ q.car = p.car ∧ q.op = p.op ∧ q.type = p.type ∧ q.lossy = p.lossy

/-- Reading the source changes no name of the part (R251). -/
theorem State.gatherSource_spec (k : Copy) (n : Nat) : ∀ (m : Nat) (p : Contribution) (s : State),
    s.Drawn (s.gatherSource k n m p).1 ∧ p.Same (s.gatherSource k n m p).2.1 := by
  induction n with
  | zero => exact fun _ _ s => ⟨.refl s, rfl, rfl, rfl, rfl, rfl⟩
  | succ n ih =>
    intro m p s
    have source := s.drawn_sourceElem k m
    unfold State.gatherSource
    dsimp only
    split
    · exact ⟨source, rfl, rfl, rfl, rfl, rfl⟩
    · next bs _ =>
      obtain ⟨drawn, same⟩ := ih (m + 1) (p.give m bs) (s.sourceElem k m).1
      exact ⟨source.trans drawn, same⟩

/-! A part in a collective (R251, R422). -/

/-- The fabric holds a part in the k-th collective of a group. -/
def Device.Holds (d : Device) (g k : Nat) (p : Contribution) : Prop := ∃ x ∈ d.fab.colls, x.group = g ∧ x.k = k ∧ p ∈ x.parts

theorem Coll.mem_take (x : Coll) (p : Contribution) : p ∈ (x.take p).parts := by
  unfold Coll.take
  dsimp only
  split
  · next there =>
    obtain ⟨q, member, same⟩ := List.any_eq_true.mp there
    exact List.mem_map.mpr ⟨q, member, if_pos same⟩
  · exact List.mem_append_right _ (List.mem_singleton_self p)

theorem Device.holds_contribute (d : Device) (g k : Nat) (p : Contribution) : ({ d with fab := d.fab.contribute g k p } : Device).Holds g k p := by
  unfold Device.Holds Fabric.contribute
  split
  · next there =>
    obtain ⟨x, member, same⟩ := List.any_eq_true.mp there
    have names := same
    rw [Bool.and_eq_true, beq_iff_eq, beq_iff_eq] at names
    exact ⟨x.take p, List.mem_map.mpr ⟨x, member, if_pos same⟩, names.1, names.2, x.mem_take p⟩
  · exact ⟨_, List.mem_append_right _ (List.mem_singleton_self _), rfl, rfl, List.mem_singleton_self p⟩

/-- A change of collectives that leaves their names and parts. -/
theorem Device.Holds.map {d e : Device} {g k : Nat} {p : Contribution} {f : Coll → Coll} (h : d.Holds g k p) (colls : e.fab.colls = d.fab.colls.map f)
    (keeps : ∀ x, (f x).group = x.group ∧ (f x).k = x.k ∧ (f x).parts = x.parts) : e.Holds g k p := by
  obtain ⟨x, member, group, place, part⟩ := h
  obtain ⟨group', place', parts⟩ := keeps x
  exact ⟨f x, colls ▸ List.mem_map_of_mem member, group'.trans group, place'.trans place, parts ▸ part⟩

theorem Device.sendAll_frame {α : Type} (w : Device → α → Way) (pkg n : α → Nat) (o : α → List Output) (xs : List α) (d : Device) :
    let e := xs.foldl (fun d x => (d.sendOut (w d x) (pkg x) (n x) false).emit (o x)) d
    e.fab.colls = d.fab.colls ∧ e.mem = d.mem ∧ e.remote = d.remote := by
  induction xs generalizing d with
  | nil => exact ⟨rfl, rfl, rfl⟩
  | cons x xs ih =>
    obtain ⟨ps, stat, os, eq⟩ := d.sendOut_eq (w d x) (pkg x) (n x) false
    obtain ⟨colls, mem, remote⟩ := ih ((d.sendOut (w d x) (pkg x) (n x) false).emit (o x))
    rw [eq] at colls mem remote
    rw [List.foldl_cons, eq]
    exact ⟨colls, mem, remote⟩

/-- What leaves for other packages changes no part and no byte (R422, R423). -/
theorem Device.flushColl_frame (d : Device) (g k : Nat) :
    (∃ f : Coll → Coll, (d.flushColl g k).fab.colls = d.fab.colls.map f ∧ ∀ x, (f x).group = x.group ∧ (f x).k = x.k ∧ (f x).parts = x.parts) ∧
    (d.flushColl g k).mem = d.mem ∧ (d.flushColl g k).remote = d.remote := by
  unfold Device.flushColl
  split
  · exact ⟨⟨id, (List.map_id _).symm, fun _ => ⟨rfl, rfl, rfl⟩⟩, rfl, rfl⟩
  · next x _ =>
    dsimp only
    obtain ⟨colls, mem, remote⟩ := Device.sendAll_frame (fun d m => d.wayTo m.1 false) (fun m : Nat × CollMsg => m.1)
      (fun m => m.2.flits (x.parts.any (fun p => p.lossy))) (fun m => [.coll g k m.2]) ((d.collOut x).filter (fun m => !x.sent.contains m.2))
      { d with fab := { d.fab with colls := d.fab.colls.map (fun y =>
        if y.group == g && y.k == k then { y with sent := y.sent ++ ((d.collOut x).filter (fun m => !x.sent.contains m.2)).map (fun m => m.2) } else y) } }
    refine ⟨⟨_, colls, fun y => ?_⟩, mem, remote⟩
    split <;> exact ⟨rfl, rfl, rfl⟩

/-- The part of a rank, and what reading it leaves; an acquire that waits leaves it unread, as stores in the queue do (R251, R292). -/
def State.readPart (s : State) (k : Copy) (nothing acq : Bool) (p : Contribution) : State × Contribution × Option (Nat × Word) :=
  if nothing then (s, p, none)
  else if s.engineHeld k || (acq && s.accessesOut s.car) then (s, { p with ready := false }, none)
  else s.gatherSource k k.ws.count 0 p

theorem State.readPart_spec (s : State) (k : Copy) (nothing acq : Bool) (p : Contribution) :
    s.Drawn (s.readPart k nothing acq p).1 ∧ p.Same (s.readPart k nothing acq p).2.1 ∧ (nothing = true → (s.readPart k nothing acq p).2.1 = p) := by
  unfold State.readPart
  split
  · exact ⟨.refl s, ⟨rfl, rfl, rfl, rfl, rfl⟩, fun _ => rfl⟩
  · next some =>
    split
    · exact ⟨.refl s, ⟨rfl, rfl, rfl, rfl, rfl⟩, fun all => absurd all some⟩
    · obtain ⟨drawn, same⟩ := State.gatherSource_spec k k.ws.count 0 p s
      exact ⟨drawn, same, fun all => absurd all some⟩

/-- A part joins its collective, and what may leave does (R251, R422). -/
def State.joinColl (s : State) (k : Copy) (p : Contribution) (r : Nat) : State :=
  s.mapDev (fun d => ({ d with fab := d.fab.contribute k.wd.group k.key p }.mapColl k (fun x => x.catchUp r)).flushColl k.wd.group k.key)

theorem State.joinColl_spec (s : State) (k : Copy) (p : Contribution) (r : Nat) : let t := s.joinColl k p r
    t.car = s.car ∧ t.peers = s.peers ∧ t.dev.mem = s.dev.mem ∧ t.dev.remote = s.dev.remote ∧ t.dev.Holds k.wd.group k.key p := by
  let d : Device := { s.dev with fab := s.dev.fab.contribute k.wd.group k.key p }
  obtain ⟨⟨f, colls, keeps⟩, mem, remote⟩ := (d.mapColl k (fun x => x.catchUp r)).flushColl_frame k.wd.group k.key
  have caught : (d.mapColl k (fun x => x.catchUp r)).Holds k.wd.group k.key p :=
    (s.dev.holds_contribute k.wd.group k.key p).map (d := d) rfl fun x => by split <;> exact ⟨rfl, rfl, rfl⟩
  exact ⟨rfl, rfl, mem, remote, caught.map colls keeps⟩

theorem List.find?_append_of_none {α : Type} {q : α → Bool} {xs : List α} {x : α} (away : ∀ y ∈ xs, ¬ q y = true) (here : q x = true) :
    (xs ++ [x]).find? q = some x := by
  rw [List.find?_append, List.find?_eq_none.mpr away, Option.none_or, List.find?_cons_of_pos here]

/-- A collective that starts (R251). -/
theorem State.startColl_spec (s : State) (op : EngineOp) (ws wd : Ix16) (f : FlagIx) (acq rel : Bool) (scope : BitVec 2) (lossy : Bool) {n r : Nat}
    (free : s.freeNumber = some n) (member : s.srcDev.rankOf s.src (s.waybill wd).group = some r) :
    let w := s.waybill wd
    let g := w.group
    let k := Tab.get 0 s.car.eng.colls g
    let void := w.empty || (!(op == .cbct && r != w.root) && (s.waybill ws).empty)
    let t := s.startColl op ws wd f acq rel scope lossy
    SameButEvicted s t ∧ KeepsRegs s t ∧ Tab.get 0 t.car.eng.colls g = k + 1 ∧
    (∃ p, t.dev.Holds g k p ∧ p.rank = r ∧ p.car = some s.car.ref ∧ p.op = op ∧ p.type = w.type ∧ p.lossy = lossy ∧
      (void = true → p.count = 0 ∧ p.data = [])) ∧
    ∃ y, t.car.copyOf n = some y ∧ y.op = op ∧ y.ws = s.waybill ws ∧ y.wd = w ∧ y.flag = f ∧ y.key = k ∧ y.state = .running ∧ y.void = void := by
  intro w g k void t
  obtain ⟨-, unused, -, -⟩ := State.freeNumber_spec free
  let k0 : Copy := ⟨n, s.car.eng.nextId, op, s.car.units.slot, void, 0, s.waybill ws, w, f, acq, rel, scope, lossy, s.src.ctl.lslack, .running, 0, s.now,
    k, s.src.eng.nextId, s.srcDev.fab.nextId, s.car.spad, s.car.eng.stash, s.src.ctl.wmap⟩
  let u := s.mapCar (fun c => { c with eng := { c.eng with
    copies := c.eng.copies ++ [k0], nextId := c.eng.nextId + 1, colls := Tab.set c.eng.colls g (k + 1) } })
  have mine : u.car.copyOf n = some k0 :=
    List.find?_append_of_none (fun x hx => by rw [beq_iff_eq]; exact unused x hx) (beq_self_eq_true n)
  let p : Contribution := ⟨r, some s.car.ref, op, if void then 0 else if op == .cbct then w.count else (s.waybill ws).count, w.type, lossy, [], [], true, true,
    none⟩
  let got := u.readPart k0 (void || (op == .cbct && r != w.root)) acq p
  have eq : t = got.1.joinColl k0 got.2.1 r := by
    unfold t State.startColl State.takeNumber
    dsimp only
    rw [member, free]
    show (match u.car.copyOf n with | none => u | some k1 => _) = _
    rw [mine]
    rfl
  obtain ⟨drawn, ⟨rank, car', op', type, lossy'⟩, whole⟩ := u.readPart_spec k0 (void || (op == .cbct && r != w.root)) acq p
  obtain ⟨car, peers, mem, remote, holds⟩ := got.1.joinColl_spec k0 got.2.1 r
  have copy := State.copyOf_of_outers drawn.outers n
  rw [mine] at copy
  clear_value t
  subst eq
  refine ⟨sameButEvicted_congr (s := s) (t := got.1) drawn.sameButEvicted (by rw [car]) (by rw [car]) mem remote, ?_, ?_, ?_, ?_⟩
  · have regs := State.keepsRegs_of_outers drawn.outers
    unfold KeepsRegs at regs ⊢
    rw [car]
    exact regs
  · have colls : got.1.car.eng.colls = u.car.eng.colls := (congrArg (fun c : Car => c.eng.colls) (State.outer_car drawn.outers) :)
    rw [car, colls]
    exact Tab.get_set_self _ _ _ _
  · refine ⟨got.2.1, holds, rank, car', op', type, lossy', fun empty => ?_⟩
    have all := whole (by rw [empty]; rfl)
    rw [show got.2.1 = p from all]
    exact ⟨if_pos empty, rfl⟩
  · rw [car]
    obtain ⟨y, found, outer⟩ := Option.map_eq_some_iff.mp copy
    exact ⟨y, found, (congrArg Copy.op outer :), (congrArg Copy.ws outer :), (congrArg Copy.wd outer :), (congrArg Copy.flag outer :),
      (congrArg Copy.key outer :), (congrArg Copy.state outer :), (congrArg Copy.void outer :)⟩

end

end Sys2Proof.Machine

namespace Sys2Proof.Machine
open Sys2Proof.Claims

section
variable {s : State}

/-- A collective that may issue is of a group that its car is a member of (R251). -/
theorem State.rank_of_pairCause {op : EngineOp} {rs rd : Ix16} {agree source : Bool} (fine : s.pairCause op rs rd (s.memberCause rd) agree source = none) :
    ∃ r, s.srcDev.rankOf s.src (s.waybill rd).group = some r := by
  unfold State.pairCause at fine
  have member := (orElse_none_iff.mp (orElse_none_iff.mp fine).2).1
  cases rank : s.srcDev.rankOf s.src (s.waybill rd).group with
  | some r => exact ⟨r, rfl⟩
  | none =>
    unfold State.memberCause at member
    dsimp only at member
    rw [rank] at member
    cases member

end

end Sys2Proof.Machine

namespace Sys2Proof.Proofs
open Sys2Proof.Machine Sys2Proof.Claims

/-- A collective slot that issues (R234, R251). -/
theorem collStarts {s : State} {i : Instr} {te acq rel lossy : Bool} {op : EngineOp} {ws wd : Ix16} {f : FlagIx} {scope : BitVec 2} {cause : Option Trap}
    (slot : slotOf i s = some (s.coll te op ws wd f acq rel scope lossy cause)) (issues : s.Issues i)
    (rank : cause = none → ∃ r, s.srcDev.rankOf s.src (s.waybill wd).group = some r) :
    let w := s.waybill wd
    let g := w.group
    let k := Tab.get 0 s.car.eng.colls g
    ∃ t r n, exec i s = .next t ∧ SameButEvicted s t ∧ t.car.ctl.ccyc = s.car.ctl.ccyc ∧ s.srcDev.rankOf s.src g = some r ∧
      s.freeNumber = some n ∧ Tab.get 0 t.car.eng.colls g = k + 1 ∧
      (∃ x ∈ t.dev.fab.colls, x.group = g ∧ x.k = k ∧ ∃ p ∈ x.parts, p.rank = r ∧ p.car = some s.car.ref ∧ p.op = op ∧ p.type = w.type ∧
        p.lossy = lossy) ∧
      (let source := op ≠ .cbct ∨ r = w.root
       let empty := w.empty || (decide source && (s.waybill ws).empty)
       t.car.regs = s.car.regs ∧ ∃ y, t.car.copyOf n = some y ∧ y.op = op ∧ y.ws = s.waybill ws ∧ y.wd = w ∧ y.flag = f ∧ y.key = k ∧
         y.state = .running ∧ y.void = empty ∧ (empty = true → ∃ x ∈ t.dev.fab.colls, x.group = g ∧ x.k = k ∧
           ∃ p ∈ x.parts, p.rank = r ∧ p.count = 0 ∧ p.data = [])) := by
  intro w g k
  have clean : cause = none := by
    obtain ⟨q, slot', passes⟩ := issues
    cases slot.symm.trans slot'
    exact passes.cause
  obtain ⟨r, member⟩ := rank clean
  obtain ⟨n, free⟩ := State.freeNumber_of_issues slot issues rfl
  obtain ⟨bytes, ⟨regs, ctl, -, -⟩, next, ⟨p, ⟨x, here, group, place, part⟩, rank', car, op', type, lossy', nothing⟩, y, found, names⟩ :=
    s.startColl_spec op ws wd f acq rel scope lossy free member
  obtain ⟨yop, yws, ywd, yflag, ykey, ystate, yvoid⟩ := names
  have empty : decide (op ≠ .cbct ∨ r = w.root) = !(op == .cbct && r != w.root) := by
    by_cases a : op = .cbct <;> by_cases b : r = w.root <;> simp [a, b]
  refine ⟨_, r, n, exec_issues slot issues, bytes, congrArg (·.ccyc) ctl, member, free, next, ⟨x, here, group, place, p, part, rank', car, op', type, lossy'⟩,
    regs, y, found, yop, yws, ywd, yflag, ykey, ystate, ?_, fun all => ⟨x, here, group, place, p, part, rank', nothing ?_⟩⟩
  · rw [empty]
    exact yvoid
  · rw [empty] at all
    exact all

/-- Settles O22: the three collectives. -/
theorem collectivesContribute : Obligations.CollectivesContribute := by
  intro te acq rel lossy ws wd f scope s w g k i member
  have illegal (a : acq = false) (b : rel = false) (bad : scope ≠ 0#2) : (!wfScope acq rel scope) = true := by
    rw [a, b, wfScope, Bool.false_or, Bool.false_or, Bool.not_eq_true', beq_eq_false_iff_ne]
    exact bad
  simp only [List.mem_cons, List.not_mem_nil, or_false] at member
  rcases member with rfl | rfl | rfl
  · exact ⟨fun a b bad => exec_illegal rfl (illegal a b bad), fun issues => collStarts rfl issues State.rank_of_pairCause⟩
  · exact ⟨fun a b bad => exec_illegal rfl (illegal a b bad), fun issues => collStarts rfl issues State.rank_of_pairCause⟩
  · exact ⟨fun a b bad => exec_illegal rfl (illegal a b bad), fun issues => collStarts rfl issues State.rank_of_pairCause⟩

end Sys2Proof.Proofs

namespace Sys2Proof.Machine
open Sys2Proof.Claims

/-! Exact values as rational numbers (R53). -/

/-- The number that a fraction stands for. -/
def Q.value (q : Q) : ℚ := (q.num : ℚ) / q.den

section
variable {a b q : Q}

theorem Q.value_eq_iff (pos : 0 < q.den) (x : ℚ) : q.value = x ↔ (q.num : ℚ) = x * q.den := by
  rw [Q.value, div_eq_iff (by exact_mod_cast pos.ne')]

theorem Q.value_ofInt (n : Int) : (Q.ofInt n).value = n := by simp [Q.value, Q.ofInt]

theorem Q.den_scale (n e : Int) : 0 < (Q.scale n e).den := by
  unfold Q.scale
  split
  · exact Nat.one_pos
  · exact Nat.two_pow_pos _

theorem Q.value_scale (n e : Int) : (Q.scale n e).value = n * 2 ^ e := by
  unfold Q.scale
  split
  · next nonneg =>
    obtain ⟨k, rfl⟩ := Int.eq_ofNat_of_zero_le nonneg
    simp [Q.value]
  · next neg =>
    obtain ⟨k, rfl⟩ : ∃ k : Nat, e = -k := ⟨(-e).toNat, by omega⟩
    simp [Q.value, div_eq_mul_inv]

theorem Q.den_mul (ha : 0 < a.den) (hb : 0 < b.den) : 0 < (a.mul b).den := Nat.mul_pos ha hb

theorem Q.value_mul (a b : Q) : (a.mul b).value = a.value * b.value := by
  simp [Q.value, Q.mul, mul_div_mul_comm]

theorem Q.den_add (ha : 0 < a.den) (hb : 0 < b.den) : 0 < (a.add b).den := Nat.mul_pos ha hb

theorem Q.value_add (ha : 0 < a.den) (hb : 0 < b.den) : (a.add b).value = a.value + b.value := by
  have ha' : (a.den : ℚ) ≠ 0 := by exact_mod_cast ha.ne'
  have hb' : (b.den : ℚ) ≠ 0 := by exact_mod_cast hb.ne'
  simp only [Q.value, Q.add]
  push_cast
  field_simp

theorem Q.den_neg (ha : 0 < a.den) : 0 < a.neg.den := ha

theorem Q.value_neg (a : Q) : a.neg.value = -a.value := by
  simp [Q.value, Q.neg, neg_div]

theorem Q.den_div (ha : 0 < a.den) (hb : b.num ≠ 0) : 0 < (a.div b).den := by
  have away : 0 < b.num.natAbs := Int.natAbs_pos.mpr hb
  unfold Q.div
  split <;> exact Nat.mul_pos ha away

theorem Q.value_div (ha : 0 < a.den) (hb : b.num ≠ 0) : (a.div b).value = a.value / b.value := by
  have ha' : (a.den : ℚ) ≠ 0 := by exact_mod_cast ha.ne'
  have hb' : (b.num : ℚ) ≠ 0 := by exact_mod_cast hb
  unfold Q.div
  split
  · next neg =>
    have abs : ((b.num.natAbs : ℕ) : ℚ) = -b.num := by
      rw [Nat.cast_natAbs, abs_of_neg neg]
      push_cast
      rfl
    simp only [Q.value]
    push_cast
    rw [abs]
    field_simp
  · next nonneg =>
    have abs : ((b.num.natAbs : ℕ) : ℚ) = b.num := by
      rw [Nat.cast_natAbs, abs_of_nonneg (by omega)]
    simp only [Q.value]
    push_cast
    rw [abs]
    field_simp

theorem Q.isZero_iff (pos : 0 < q.den) : q.isZero = true ↔ q.value = 0 := by
  rw [Q.value_eq_iff pos, zero_mul, Q.isZero, beq_iff_eq]
  exact_mod_cast Iff.rfl

theorem Q.isNeg_iff (pos : 0 < q.den) : q.isNeg = true ↔ q.value < 0 := by
  have pos' : (0 : ℚ) < q.den := by exact_mod_cast pos
  rw [Q.isNeg, decide_eq_true_eq, Q.value, div_lt_iff₀ pos', zero_mul]
  exact_mod_cast Iff.rfl

theorem Q.lt_iff (ha : 0 < a.den) (hb : 0 < b.den) : a.lt b = true ↔ a.value < b.value := by
  have ha' : (0 : ℚ) < a.den := by exact_mod_cast ha
  have hb' : (0 : ℚ) < b.den := by exact_mod_cast hb
  rw [Q.lt, decide_eq_true_eq, Q.value, Q.value, div_lt_div_iff₀ ha' hb']
  exact_mod_cast Iff.rfl

theorem Q.value_sign (q : Q) : q.value = (if q.isNeg then -1 else 1) * ((q.num.natAbs : ℚ) / q.den) := by
  unfold Q.value Q.isNeg
  by_cases neg : q.num < 0
  · rw [if_pos (decide_eq_true neg), Nat.cast_natAbs, abs_of_neg neg]
    push_cast
    ring
  · rw [if_neg (by simpa using neg), Nat.cast_natAbs, abs_of_nonneg (by omega), one_mul]

end

/-! Rounding to an integer (R31, R53). -/

section
variable {rm : BitVec 2} {neg : Bool} {a b : Nat}

/-- A magnitude rounded down, or up to the next integer. -/
def Below (m a b : Nat) : Prop := m * b ≤ a ∧ a < m * b + b
def Above (m a b : Nat) : Prop := a ≤ m * b ∧ m * b < a + b

/-- A magnitude rounded to the nearest integer, a tie to the even one. -/
def Nearest (m a b : Nat) : Prop := 2 * (m * b) ≤ 2 * a + b ∧ 2 * a ≤ 2 * (m * b) + b ∧
  (2 * (m * b) = 2 * a + b ∨ 2 * a = 2 * (m * b) + b → m % 2 = 0)

theorem below_div (pos : 0 < b) : Below (a / b) a b := by
  have parts := Nat.div_add_mod' a b
  have small := Nat.mod_lt a pos
  unfold Below
  omega

theorem above_div (pos : 0 < b) : Above (if a % b = 0 then a / b else a / b + 1) a b := by
  have parts := Nat.div_add_mod' a b
  have small := Nat.mod_lt a pos
  unfold Above
  split
  · omega
  · rw [Nat.add_mul, Nat.one_mul]
    omega

theorem divRound_nearest (pos : 0 < b) : Nearest (divRound 0#2 neg a b) a b := by
  have parts := Nat.div_add_mod' a b
  have small := Nat.mod_lt a pos
  have eq : divRound 0#2 neg a b = if b < 2 * (a % b) ∨ (b = 2 * (a % b) ∧ a / b % 2 = 1) then a / b + 1 else a / b := by
    simp [divRound]
  rw [eq]
  unfold Nearest
  split
  · rw [Nat.add_mul, Nat.one_mul]
    omega
  · omega

theorem divRound_up : divRound 2#2 neg a b = if neg then a / b else if a % b = 0 then a / b else a / b + 1 := by
  cases neg <;> by_cases exact_ : a % b = 0 <;> simp [divRound, exact_]

theorem divRound_down : divRound 3#2 neg a b = if neg then (if a % b = 0 then a / b else a / b + 1) else a / b := by
  cases neg <;> by_cases exact_ : a % b = 0 <;> simp [divRound, exact_]

section
variable {m : Nat} (pos : 0 < b)
include pos

theorem below_iff : Below m a b ↔ (m : ℚ) ≤ a / b ∧ (a : ℚ) / b < m + 1 := by
  have pos' : (0 : ℚ) < b := by exact_mod_cast pos
  rw [le_div_iff₀ pos', div_lt_iff₀ pos', add_mul, one_mul]
  exact_mod_cast Iff.rfl

theorem above_iff : Above m a b ↔ (a : ℚ) / b ≤ m ∧ (m : ℚ) < a / b + 1 := by
  have pos' : (0 : ℚ) < b := by exact_mod_cast pos
  have up : (m : ℚ) < a / b + 1 ↔ (m * b : ℚ) < a + b := by
    rw [← mul_lt_mul_iff_left₀ pos', add_mul, div_mul_cancel₀ _ pos'.ne', one_mul]
  rw [div_le_iff₀ pos', up]
  exact_mod_cast Iff.rfl

theorem nearest_iff : Nearest m a b ↔ 2 * |(m : ℚ) - a / b| ≤ 1 ∧ (2 * |(m : ℚ) - a / b| = 1 → m % 2 = 0) := by
  have pos' : (0 : ℚ) < b := by exact_mod_cast pos
  have times : (2 * ((m : ℚ) - a / b)) * b = 2 * (m * b) - 2 * a := by
    field_simp
  have double : 2 * |(m : ℚ) - a / b| = |2 * ((m : ℚ) - a / b)| := by rw [abs_mul, abs_two]
  rw [double]
  generalize 2 * ((m : ℚ) - a / b) = y at times
  have le_one : 2 * (m * b) ≤ 2 * a + b ↔ y ≤ 1 := by
    rw [← mul_le_mul_iff_left₀ pos', times, sub_le_iff_le_add, one_mul, add_comm (b : ℚ)]
    exact_mod_cast Iff.rfl
  have ge_one : 2 * a ≤ 2 * (m * b) + b ↔ -1 ≤ y := by
    rw [← mul_le_mul_iff_left₀ pos', times, le_sub_iff_add_le, neg_one_mul, neg_add_le_iff_le_add, add_comm (b : ℚ)]
    exact_mod_cast Iff.rfl
  have eq_one : 2 * (m * b) = 2 * a + b ↔ y = 1 := by
    rw [← mul_left_inj' pos'.ne', times, sub_eq_iff_eq_add, one_mul, add_comm (b : ℚ)]
    exact_mod_cast Iff.rfl
  have eq_minus : 2 * a = 2 * (m * b) + b ↔ y = -1 := by
    constructor
    · intro h
      have h' : (2 : ℚ) * a = 2 * (m * b) + b := by exact_mod_cast h
      apply mul_right_cancel₀ pos'.ne'
      rw [times]
      linarith
    · intro h
      rw [h] at times
      have h' : (2 : ℚ) * a = 2 * (m * b) + b := by linarith
      exact_mod_cast h'
  rw [Nearest, le_one, ge_one, eq_one, eq_minus, abs_le, abs_eq (by norm_num)]
  tauto

end

end

/-- A magnitude rounded toward 0, with its sign (R31). -/
theorem roundsInt_toZero {m : Nat} {x : ℚ} (low : (m : ℚ) ≤ x) (high : x < m + 1) (neg : Bool) :
    RoundsInt 1#2 (if neg then -x else x) (if neg then -(m : ℤ) else m) := by
  have nonneg : 0 ≤ x := le_trans (Nat.cast_nonneg m) low
  refine ⟨nofun, fun _ => ?_, nofun, nofun⟩
  cases neg with
  | false =>
    simp only [Bool.false_eq_true, if_false, Int.cast_natCast, Nat.abs_cast, abs_of_nonneg nonneg]
    refine ⟨low, high, fun less => absurd less (by omega), fun more => ?_⟩
    have : (0 : ℚ) < m := by exact_mod_cast more
    linarith
  | true =>
    simp only [if_true, Int.cast_neg, Int.cast_natCast, abs_neg, Nat.abs_cast, abs_of_nonneg nonneg]
    refine ⟨low, high, fun less => ?_, fun more => absurd more (by omega)⟩
    have : (0 : ℚ) < m := by exact_mod_cast (show 0 < m by omega)
    linarith

/-- A magnitude rounded to the nearest integer, with its sign (R31). -/
theorem roundsInt_nearest {m : Nat} {x : ℚ} (near : 2 * |(m : ℚ) - x| ≤ 1) (tie : 2 * |(m : ℚ) - x| = 1 → m % 2 = 0) (neg : Bool) :
    RoundsInt 0#2 (if neg then -x else x) (if neg then -(m : ℤ) else m) := by
  refine ⟨fun _ => ?_, nofun, nofun, nofun⟩
  cases neg with
  | false =>
    simp only [Bool.false_eq_true, if_false, Int.cast_natCast]
    exact ⟨near, fun h => by exact_mod_cast tie h⟩
  | true =>
    simp only [if_true, Int.cast_neg, Int.cast_natCast]
    rw [show (-(m : ℚ) - -x) = -((m : ℚ) - x) by ring, abs_neg]
    exact ⟨near, fun h => by have := tie h; omega⟩

/-- A fraction rounded in a mode (R31, R53). -/
theorem Q.round_rounds (rm : BitVec 2) {q : Q} (pos : 0 < q.den) : RoundsInt rm q.value (q.round rm) := by
  obtain ⟨low, high⟩ := (below_iff pos).mp (below_div (a := q.num.natAbs) pos)
  obtain ⟨low', high'⟩ := (above_iff pos).mp (above_div (a := q.num.natAbs) pos)
  obtain ⟨near, tie⟩ := (nearest_iff pos).mp (divRound_nearest (neg := q.isNeg) (a := q.num.natAbs) pos)
  have value : q.value = if q.isNeg then -((q.num.natAbs : ℚ) / q.den) else (q.num.natAbs : ℚ) / q.den := by
    rw [q.value_sign]
    split <;> ring
  rw [value, Q.round]
  generalize (q.num.natAbs : ℚ) / q.den = x at *
  have modes : rm = 0#2 ∨ rm = 1#2 ∨ rm = 2#2 ∨ rm = 3#2 := by revert rm; decide
  rcases modes with rfl | rfl | rfl | rfl
  · exact roundsInt_nearest near tie _
  · exact roundsInt_toZero low high _
  · refine ⟨nofun, nofun, fun _ => ?_, nofun⟩
    rw [divRound_up]
    cases q.isNeg with
    | false =>
      simp only [Bool.false_eq_true, if_false]
      exact_mod_cast And.intro low' high'
    | true =>
      simp only [if_true, Int.cast_neg, Int.cast_natCast]
      constructor <;> linarith
  · refine ⟨nofun, nofun, nofun, fun _ => ?_⟩
    rw [divRound_down]
    cases q.isNeg with
    | false =>
      simp only [Bool.false_eq_true, if_false]
      exact_mod_cast And.intro low high
    | true =>
      simp only [if_true, Int.cast_neg, Int.cast_natCast]
      constructor <;> linarith

/-- The nearest integer with ties to even is one. -/
theorem roundsInt_unique {v : ℚ} {n k : ℤ} (hn : RoundsInt 0#2 v n) (hk : RoundsInt 0#2 v k) : n = k := by
  obtain ⟨near, tie⟩ := hn.1 rfl
  obtain ⟨near', tie'⟩ := hk.1 rfl
  by_contra other
  have apart : (1 : ℚ) ≤ |(n : ℚ) - k| := by exact_mod_cast Int.one_le_abs (sub_ne_zero.mpr other)
  have parts : |(n : ℚ) - k| ≤ |(n : ℚ) - v| + |(k : ℚ) - v| := by
    rw [show (n : ℚ) - k = (n - v) - (k - v) by ring]
    exact abs_sub _ _
  have even := tie (by linarith)
  have even' := tie' (by linarith)
  have exact_ : |(n : ℚ) - k| = 1 := by linarith
  have one : |n - k| = 1 := by exact_mod_cast exact_
  rcases abs_eq (by norm_num) |>.mp one with h | h <;> omega

end Sys2Proof.Machine

namespace Sys2Proof.Machine
open Sys2Proof.Claims

/-! Modulator codes and delivered codes (R105, R109, R110). -/

theorem m8Mag_table : ∀ b < 128, m8Table.getD b 0 = (m8Mag b : ℚ) / 2 ^ 18 := by decide +kernel

/-- An M8 code but NaR means its table's value (R45, R46). -/
theorem m8Decode_value {c : Nat} (real : ¬ (c % 128 = 0 ∧ c / 128 % 2 = 1)) :
    ∃ q neg, m8Decode c = .num q neg ∧ 0 < q.den ∧ q.value = m8Value c ∧ neg = decide (c / 128 % 2 = 1) := by
  have table := m8Mag_table (c % 128) (Nat.mod_lt _ (by decide))
  unfold m8Decode m8Value
  rw [table]
  by_cases zero : c % 128 = 0
  · have plus : ¬ c / 128 % 2 = 1 := fun neg => real ⟨zero, neg⟩
    refine ⟨⟨0, 1⟩, false, ?_, Nat.one_pos, ?_, ?_⟩
    · rw [if_pos zero, decide_eq_false plus, if_neg Bool.false_ne_true]
    · rw [zero]
      simp [Q.value, m8Mag]
    · exact (decide_eq_false plus).symm
  · refine ⟨_, _, if_neg zero, Nat.two_pow_pos _, ?_, rfl⟩
    unfold Q.value
    by_cases neg : c / 128 % 2 = 1 <;> norm_num [neg, neg_div]

theorem clamp511_eq (x : Int) : clamp511 x = max (-511) (min 511 x) := by
  unfold clamp511
  split
  · omega
  · split <;> omega

/-- A weight's modulator code is the one that the spec tells (R105). -/
theorem modulate_eq {wf : BitVec 2} {e d : Int} {w : Nat} {z : Bool} (tells : Modulates wf e w d z) (legal : wf ≠ 3#2)
    (small : w < if wf = 1#2 then 16 else 256) : modulate wf e w = (d, z) := by
  have modes : wf = 0#2 ∨ wf = 1#2 ∨ wf = 2#2 := by
    clear tells small
    revert wf
    decide
  obtain ⟨m8, q4, l8⟩ := tells
  rcases modes with rfl | rfl | rfl
  · obtain ⟨nar, real⟩ := m8 rfl
    by_cases isNar : w = 0x80
    · obtain ⟨rfl, rfl⟩ := nar isNar
      subst isNar
      rfl
    · obtain ⟨n, rounds, rfl, sat⟩ := real isNar
      rw [if_neg (by decide)] at small
      obtain ⟨q, neg, decodes, pos, value, -⟩ := m8Decode_value (c := w) (by omega)
      have eq : (q.mul (Q.scale 1 (-e))).rne = n := by
        have own := Q.round_rounds 0#2 (Q.den_mul pos (Q.den_scale 1 (-e)))
        rw [Q.value_mul, Q.value_scale, Int.cast_one, one_mul, value] at own
        exact roundsInt_unique own rounds
      show (match m8Decode w with | .num q _ => _ | _ => _) = _
      rw [decodes]
      dsimp only
      rw [eq]
      split
      · rw [sat.mpr (.inl ‹_›), max_eq_left (by omega)]
      · split
        · rw [sat.mpr (.inr ‹_›), min_eq_left (by omega)]
          rfl
        · have calm : z = false := Bool.eq_false_iff.mpr fun h => by have := sat.mp h; omega
          rw [calm]
          congr 1
          omega
  · obtain ⟨least, other⟩ := q4 rfl
    rw [if_pos rfl] at small
    show (if signed 4 w = -8 then (-112, true) else (16 * signed 4 w, false)) = _
    by_cases isLeast : w = 8
    · obtain ⟨rfl, rfl⟩ := least isLeast
      subst isLeast
      rfl
    · obtain ⟨rfl, rfl⟩ := other isLeast
      have value : signed 4 w = if w < 8 then (w : Int) else w - 16 := by
        unfold signed
        split <;> split <;> omega
      rw [value, if_neg (by split <;> omega)]
  · obtain ⟨least, other⟩ := l8 rfl
    rw [if_neg (by decide)] at small
    show (if signed 8 w = -128 then (0, true) else (signed 8 w, false)) = _
    by_cases isLeast : w = 0x80
    · obtain ⟨rfl, rfl⟩ := least isLeast
      subst isLeast
      rfl
    · obtain ⟨rfl, rfl⟩ := other isLeast
      have value : signed 8 w = if w < 128 then (w : Int) else w - 256 := by
        unfold signed
        split <;> split <;> omega
      rw [value, if_neg (by split <;> omega)]

/-- What the converter delivers is what the spec allows (R109, R110). -/
theorem deliver_delivers {skew laser weak : Bool} (gain : Nat) (sum r : Int) (known : laser = true → weak = true) :
    Delivers gain skew weak sum (deliver skew laser gain sum r) := by
  have pos : 0 < 2 ^ gain := Nat.two_pow_pos gain
  have value : (⟨sum, 2 ^ gain⟩ : Q).value = sum / 2 ^ gain := by simp [Q.value]
  have rounds := Q.round_rounds 0#2 (q := ⟨sum, 2 ^ gain⟩) pos
  rw [value] at rounds
  unfold deliver Delivers
  dsimp only
  change RoundsInt 0#2 _ (Q.rne ⟨sum, 2 ^ gain⟩) at rounds
  generalize Q.rne ⟨sum, 2 ^ gain⟩ = n at rounds
  cases laser with
  | true =>
    rw [known rfl]
    refine ⟨?_, nofun, nofun⟩
    rw [if_pos rfl]
    omega
  | false =>
    rw [if_neg Bool.false_ne_true]
    cases skew with
    | true =>
      simp only [if_true, clamp511_eq]
      refine ⟨by omega, nofun, fun _ _ => ⟨n, rounds, by omega⟩⟩
    | false =>
      simp only [Bool.false_eq_true, if_false, clamp511_eq]
      have near := (rounds.1 rfl).1
      rw [abs_sub_comm] at near
      have pos' : (0 : ℚ) < 2 ^ gain := by positivity
      have close : (sum - n * 2 ^ gain).natAbs * 10 ≤ 3 * 2 ^ gain ↔ |(sum : ℚ) / 2 ^ gain - n| ≤ 3 / 10 := by
        have times : |(sum : ℚ) / 2 ^ gain - n| * 2 ^ gain = |(sum : ℚ) - n * 2 ^ gain| := by
          rw [← abs_of_pos pos', ← abs_mul, abs_of_pos pos', sub_mul, div_mul_cancel₀ _ pos'.ne']
        rw [← mul_le_mul_iff_left₀ pos', times, div_mul_eq_mul_div, le_div_iff₀ (by norm_num)]
        have cast : (((sum - n * 2 ^ gain).natAbs : ℕ) : ℚ) = |(sum : ℚ) - n * 2 ^ gain| := by
          rw [Nat.cast_natAbs]
          push_cast
          rfl
        rw [← cast]
        exact_mod_cast Iff.rfl
      have only (k : ℤ) (here : |(sum : ℚ) / 2 ^ gain - k| ≤ 3 / 10) : k = n := by
        by_contra other
        have apart : (1 : ℚ) ≤ |(k : ℚ) - n| := by exact_mod_cast Int.one_le_abs (sub_ne_zero.mpr other)
        have parts : |(k : ℚ) - n| ≤ |(sum : ℚ) / 2 ^ gain - n| + |(sum : ℚ) / 2 ^ gain - k| := by
          rw [show (k : ℚ) - n = ((sum : ℚ) / 2 ^ gain - n) - ((sum : ℚ) / 2 ^ gain - k) by ring]
          exact abs_sub _ _
        linarith
      have floor : ⌊(sum : ℚ) / 2 ^ gain⌋ = sum / 2 ^ gain := by
        have := Rat.floor_intCast_div_natCast sum (2 ^ gain)
        push_cast at this
        exact this
      split
      · refine ⟨by omega, fun _ _ => ⟨fun k here => by rw [only k here], ?_⟩, nofun⟩
        rcases le_total (n : ℚ) (sum / 2 ^ gain) with below | above
        · have : ⌊(sum : ℚ) / 2 ^ gain⌋ = n := by
            rw [abs_of_nonneg (by linarith)] at near
            exact Int.floor_eq_iff.mpr ⟨below, by linarith⟩
          exact .inl (by rw [this])
        · have : ⌈(sum : ℚ) / 2 ^ gain⌉ = n := by
            rw [abs_of_nonpos (by linarith)] at near
            exact Int.ceil_eq_iff.mpr ⟨by linarith, above⟩
          exact .inr (by rw [this])
      · next away =>
        rw [close] at away
        refine ⟨by omega, fun _ _ => ⟨fun k here => absurd (only k here ▸ here) away, ?_⟩, nofun⟩
        rcases Int.emod_two_eq_zero_or_one r with even | odd
        · exact .inl (by rw [floor, even, add_zero])
        · refine .inr ?_
          have ceil : ⌈(sum : ℚ) / 2 ^ gain⌉ = sum / 2 ^ gain + 1 := by
            rw [Int.ceil_eq_iff, ← floor]
            push_cast
            have whole : (⌊(sum : ℚ) / 2 ^ gain⌋ : ℚ) ≠ sum / 2 ^ gain := by
              intro same
              have here : |(sum : ℚ) / 2 ^ gain - ⌊(sum : ℚ) / 2 ^ gain⌋| ≤ 3 / 10 := by
                rw [same, sub_self, abs_zero]
                norm_num
              exact away (only _ here ▸ here)
            refine ⟨?_, (Int.lt_floor_add_one _).le⟩
            have := lt_of_le_of_ne (Int.floor_le ((sum : ℚ) / 2 ^ gain)) whole
            linarith
          rw [ceil, odd]

end Sys2Proof.Machine

namespace Sys2Proof.Machine
open Sys2Proof.Claims

/-! The light of a beat and its products (R102 to R106). -/

section
variable {s : State} {rows codes : Nat → Int} {fault : Bool}

theorem getD_replicate_zero (n k : Nat) : (List.replicate n (0 : Int)).getD k 0 = 0 := by
  simp only [List.getD, List.getElem?_replicate]
  split <;> rfl

/-- What the array meets is the light that the spec tells. -/
theorem State.light_meets (meets : Meets s rows codes fault) :
    (∀ k, s.light.rows.getD k 0 = rows k) ∧ (∀ i, s.light.codes.getD i 0 = codes i) ∧ s.light.fault = fault := by
  have dark {x : Light} {f : Bool} (h : (∀ k, rows k = 0) ∧ (∀ i, codes i = 0) ∧ fault = f) (none : x.rows = List.replicate 32 0)
      (blank : x.codes = List.replicate 256 0) (same : x.fault = f) :
      (∀ k, x.rows.getD k 0 = rows k) ∧ (∀ i, x.codes.getD i 0 = codes i) ∧ x.fault = fault := by
    obtain ⟨noRows, noCodes, told⟩ := h
    rw [none, blank, same, told]
    exact ⟨fun k => by rw [noRows, getD_replicate_zero], fun i => by rw [noCodes, getD_replicate_zero], rfl⟩
  obtain ⟨noLine, onLine⟩ := meets
  unfold State.light
  dsimp only
  cases line : s.src.arr.line with
  | none => exact dark (noLine line) rfl rfl rfl
  | some l =>
    dsimp only
    obtain ⟨foreign, here⟩ := onLine l line
    cases coupled : s.src.coupledTo l with
    | false => exact dark (foreign coupled) rfl rfl rfl
    | true =>
      obtain ⟨m, domain⟩ : ∃ m, s.src.place.domain = some m := by
        rw [Car.coupledTo, Bool.and_eq_true] at coupled
        exact Option.isSome_iff_exists.mp coupled.1
      obtain ⟨quiet, driven⟩ := here m coupled domain
      rw [Bool.not_true, if_neg Bool.false_ne_true]
      split
      · next pause =>
        rw [Bool.or_eq_true, Option.isSome_iff_ne_none] at pause
        exact dark (quiet (pause.elim .inl fun h => .inr (.inl h))) rfl rfl rfl
      · next calm =>
        rw [Bool.not_eq_true, Bool.or_eq_false_iff, Option.isSome_eq_false_iff, Option.isNone_iff_eq_none] at calm
        have same : (fun x : Drive => s.src.place.domain == some x.domain && x.line == l && x.ccyc == s.src.ctl.ccyc.toNat) =
            fun y => y.is m l s.src.ctl.ccyc.toNat := by
          funext y
          rw [domain, Drive.is, Option.some_beq_some, Bool.beq_comm (a := m)]
        rw [same]
        cases drive : s.srcDev.drives.find? (fun y => y.is m l s.src.ctl.ccyc.toNat) with
        | none => exact dark (quiet (.inr (.inr drive))) rfl rfl rfl
        | some y =>
          obtain ⟨many, one⟩ := driven calm.1 calm.2 y drive
          dsimp only
          split
          · next more => exact dark (many more) rfl rfl rfl
          · next less =>
            obtain ⟨told, header, beat⟩ := one (Nat.le_of_not_lt less)
            have read (k : Nat) : (y.header.map (fun b => b.toInt)).getD k 0 = rows k := by
              rw [header]
              exact List.getD_map (d := 0#8) ..
            split
            · next late =>
              refine ⟨read, fun i => ?_, told.symm ▸ late.symm⟩
              rw [beat, if_pos (.inl late)]
              exact getD_replicate_zero 256 i
            · next fresh =>
              refine ⟨read, fun i => ?_, ?_⟩
              · have code : (y.bytes.map actCode).getD i 0 = actCode (y.bytes.getD i 0#8) := List.getD_map (d := 0#8) ..
                show (y.bytes.map actCode).getD i 0 = codes i
                rw [code, beat, actCode]
                simp only [fresh, Bool.false_eq_true, false_or]
              · rw [told]
                exact (Bool.not_eq_true _ ▸ fresh).symm

/-- The modulator codes of a beat (R104, R105). -/
def State.beatCodes (s : State) (v : VReg) (seg : Nat) : List (Int × Bool) :=
  (weightBeat s.fmt.wf (s.rVA v) seg).zipIdx.map (fun p => modulate s.fmt.wf (s.src.regs.e.toList.getD (p.2 % 64 / 4) 0#8).toInt p.1)

/-- The weights of a beat, one by one (R104). -/
theorem weightBeat_getElem? {wf : BitVec 2} {v : VWord} {seg i : Nat} (inside : i < 512) :
    (weightBeat wf v seg)[i]? = some (if wf = 1#2 then v.toNat / 2 ^ (4 * (512 * seg + i)) % 16 else lane .i8 v (512 * seg + i)) := by
  unfold weightBeat
  split
  · rw [List.getElem?_eq_getElem (by rw [cut_length]; exact inside), cut_getElem, Nat.div_div_eq_div_mul, ← Nat.pow_add]
    congr 4
    omega
  · rw [List.getElem?_eq_getElem (by rw [cut_length]; exact inside), cut_getElem, Nat.div_div_eq_div_mul, ← Nat.pow_add, lane]
    congr 4
    show _ = 8 * (512 * seg + i)
    omega

/-- They are the codes that the spec tells. -/
theorem State.beatCodes_getD {w : Nat → Int} {z : Nat → Bool} {v : VReg} {seg : Nat} (legal : s.fmt.wf ≠ 3#2)
    (tells : ∀ i < 512, Modulates s.fmt.wf (s.src.regs.e.toList.getD (i % 64 / 4) 0#8).toInt
      (if s.fmt.wf = 1#2 then (s.rVA v).toNat / 2 ^ (4 * (512 * seg + i)) % 16 else lane .i8 (s.rVA v) (512 * seg + i)) (w i) (z i))
    (i : Nat) (inside : i < 512) : (s.beatCodes v seg).getD i (0, false) = (w i, z i) := by
  have here := weightBeat_getElem? (wf := s.fmt.wf) (v := s.rVA v) (seg := seg) inside
  unfold State.beatCodes
  rw [List.getD_eq_getElem?_getD, List.getElem?_map, List.getElem?_zipIdx, here]
  simp only [Option.map_some, Option.getD_some, Nat.zero_add]
  refine modulate_eq (tells i inside) legal ?_
  split
  · exact Nat.mod_lt _ (by decide)
  · exact Nat.mod_lt _ (by decide)

theorem State.beatCodes_length (s : State) (v : VReg) (seg : Nat) : (s.beatCodes v seg).length = 512 := by
  unfold State.beatCodes weightBeat
  rw [List.length_map, List.length_zipIdx]
  split <;> exact cut_length _ _ _

theorem getD_toArray {α : Type} (xs : List α) (i : Nat) (x : α) : xs.toArray.getD i x = xs.getD i x := by
  rw [Array.getD_eq_getD_getElem?, List.getElem?_toArray, List.getD_eq_getElem?_getD]

/-- The products of a receiver (R106). -/
theorem groupSums_getD {cs : List Int} {ds : List (Int × Bool)} {w : Nat → Int} {z : Nat → Bool} (neg : Bool) (told : ∀ i, cs.getD i 0 = codes i)
    (weights : ∀ i < 512, ds.getD i (0, false) = (w i, z i)) (g : Fin 16) {r : Nat} (inside : r < 128) :
    (groupSums neg cs.toArray ds.toArray g.val).getD r 0 =
      (if neg then -1 else 1) * ((List.range 8).map (fun i => codes (i * 32 + r / 4) * w (i * 64 + 4 * g.val + r % 4))).sum := by
  unfold groupSums
  rw [getD_map_range, if_pos inside]
  have sums : (List.range 8).foldl (fun (acc : Int) t => acc + cs.toArray.getD (t * 32 + r / 4) 0 *
      (ds.toArray.getD (t * 64 + (4 * g.val + r % 4)) (0, false)).1) 0 =
      ((List.range 8).map (fun i => codes (i * 32 + r / 4) * w (i * 64 + 4 * g.val + r % 4))).sum := by
    rw [List.sum_eq_foldl, List.foldl_map]
    refine List.foldl_ext _ _ _ fun acc t ht => ?_
    have far := List.mem_range.mp ht
    have product : cs.toArray.getD (t * 32 + r / 4) 0 = codes (t * 32 + r / 4) := (getD_toArray ..).trans (told _)
    have weight : ds.toArray.getD (t * 64 + (4 * g.val + r % 4)) (0, false) = (w (t * 64 + 4 * g.val + r % 4), z (t * 64 + 4 * g.val + r % 4)) := by
      rw [← weights _ (by omega), ← Nat.add_assoc, getD_toArray]
    rw [product, weight]
  dsimp only
  rw [sums]
  cases neg <;> simp

end

end Sys2Proof.Machine

namespace Sys2Proof.Machine
open Sys2Proof.Claims

/-! What a beat makes of the array (R107, R110, R215). -/

/-- What is found by its number among what a list gives, number by number. -/
theorem find?_filterMap_zipIdx {α β : Type} {f : Nat → α → Option β} {key : β → Nat} (numbered : ∀ i x y, f i x = some y → key y = i)
    (xs : List α) (i : Nat) : ∀ k, ((xs.zipIdx k).filterMap (fun p => f p.2 p.1)).find? (fun y => key y == k + i) = xs[i]?.bind (f (k + i)) := by
  induction xs generalizing i with
  | nil => exact fun _ => rfl
  | cons x xs ih =>
    intro k
    rw [List.zipIdx_cons, List.filterMap_cons]
    cases i with
    | zero =>
      have later : ((xs.zipIdx (k + 1)).filterMap (fun p => f p.2 p.1)).find? (fun y => key y == k + 0) = none := by
        rw [List.find?_eq_none]
        intro y hy here
        obtain ⟨p, hp, made⟩ := List.mem_filterMap.mp hy
        have place := List.le_snd_of_mem_zipIdx hp
        rw [beq_iff_eq, numbered _ _ _ made] at here
        omega
      cases made : f k x with
      | none => exact later.trans made.symm
      | some y =>
        rw [List.find?_cons_of_pos (by rw [numbered _ _ _ made]; exact beq_self_eq_true k)]
        exact made.symm
    | succ i =>
      have rest : ((xs.zipIdx (k + 1)).filterMap (fun p => f p.2 p.1)).find? (fun y => key y == k + (i + 1)) = xs[i]?.bind (f (k + (i + 1))) := by
        have := ih i (k + 1)
        rw [show k + 1 + i = k + (i + 1) by omega] at this
        exact this
      cases made : f k x with
      | none => exact rest
      | some y =>
        have other : key y ≠ k + (i + 1) := by rw [numbered _ _ _ made]; omega
        rw [List.find?_cons_of_neg (by rw [beq_iff_eq]; exact other)]
        exact rest

theorem Arr.report_groups (a : Arr) (cs : List Closed) (skew laser : Bool) (ready : Nat) :
    (a.report cs skew laser ready).groups = a.groups ∧ (a.report cs skew laser ready).beat = a.beat := by
  unfold Arr.report
  split
  · exact ⟨rfl, rfl⟩
  · dsimp only
    split <;> exact ⟨rfl, rfl⟩

section
variable (s : State) (v : VReg) (seg : Nat) (n a d : Bool)

/-- The laser of the array's line is out of tolerance (R444). -/
def State.laserNow : Bool :=
  match s.src.arr.line with
  | some l => s.srcDev.laserBad l
  | none => false

/-- The line of the array is in a remap (R117). -/
def State.pauseNow : Bool :=
  match s.src.arr.line with
  | some l => (s.srcDev.lines[l]).running.isSome
  | none => false

/-- A beat as a column group meets it. -/
def State.beatOf (g : Nat) : Beat :=
  ⟨groupSums n s.light.codes.toArray (s.beatCodes v seg).toArray g, s.light.rows, s.light.fault, s.laserNow,
    (List.range 32).any (fun i => ((s.beatCodes v seg).toArray.getD (i / 4 * 64 + 4 * g + i % 4) (0, false)).2), s.pauseNow, s.now,
    ⟨s.light.src, s.src.ctl.ccyc.toNat, s.light.count⟩⟩

/-- What it makes of the group. -/
def State.turnOf (g : Fin 16) : Turn :=
  match s.src.groupAct g a d with
  | none => { win := s.src.arr.groups[g].win }
  | some (x, y) => turn s.src.arr.groups[g].win x y (s.beatOf v seg n g.val)

/-- A group after a window of it has closed, and one where none has. -/
def Group.close (g : Group) (win : Option Window) (w : Window) (codes : List Int) (groupExp : Int) (closed : Nat) : Group :=
  { g with win := win, codes := codes, cgain := g.gain, rowExp := w.rowExp, opener := w.opener, groupExp := groupExp, closed := some closed }

/-- The turns of all groups. -/
def State.turns : List Turn := (List.finRange 16).map (s.turnOf v seg n a d)

/-- A beat closes two windows of one group. -/
def State.twice : Bool := (s.turns v seg n a d).any (fun t => t.old.isSome && t.one.isSome)

/-- A laser was out of tolerance in a window that shares a report (R110). -/
def State.weakNow (one : Bool) : Bool :=
  s.laserNow || (s.turns v seg n a d).any (fun t => ((if one && s.twice v seg n a d then none else t.old).any Window.laser)
    || ((if !one && s.twice v seg n a d then none else t.one).any Window.laser))

/-- A window of a group that closes. -/
def State.shut (s : State) (base : Nat) (weak : Bool) (i : Nat) (w : Option Window) : Option Closed :=
  w.map (fun w => ⟨i, (s.src.arr.groups.toList.getD i {}).gain, w,
    w.convert s.src.arr.cal.skew weak (s.src.arr.groups.toList.getD i {}).gain s.fresh (base + 128 * i)⟩)

theorem State.group_of_shut {s : State} {base : Nat} {weak : Bool} {i : Nat} {w : Option Window} {x : Closed} (made : s.shut base weak i w = some x) :
    x.group = i := by
  obtain ⟨w, -, rfl⟩ := Option.map_eq_some_iff.mp made
  rfl

theorem State.weak_of_weakNow {one : Bool} (weak : s.weakNow v seg n a d one = true) :
    s.laserNow = true ∨ ∃ h, (s.turnOf v seg n a d h).old.any Window.laser = true ∨ (s.turnOf v seg n a d h).one.any Window.laser = true := by
  rw [State.weakNow, Bool.or_eq_true] at weak
  refine weak.imp_right fun some => ?_
  obtain ⟨t, member, either⟩ := List.any_eq_true.mp some
  obtain ⟨h, -, rfl⟩ := List.mem_map.mp member
  have part (c : Bool) {w : Option Window} (here : (if c then none else w).any Window.laser = true) : w.any Window.laser = true := by
    cases c with
    | false => exact here
    | true => cases here
  rw [Bool.or_eq_true] at either
  exact ⟨h, either.imp (part _) (part _)⟩

/-- The windows that close, of those that were open and of those that the beat opens. -/
def State.olds : List Closed :=
  (s.turns v seg n a d).zipIdx.filterMap (fun p => s.shut 0 (s.weakNow v seg n a d false) p.2 p.1.old)
def State.ones : List Closed :=
  (s.turns v seg n a d).zipIdx.filterMap (fun p => s.shut 2048 (s.weakNow v seg n a d true) p.2 p.1.one)

/-- A group after its turn. -/
def State.regrouped (olds ones : List Closed) (p : (Turn × Group) × Nat) : Group :=
  let t := p.1.1
  let g := { p.1.2 with win := t.win }
  let last := match ones.find? (fun x => x.group == p.2) with
    | some x => some x
    | none => olds.find? (fun x => x.group == p.2)
  match last with
  | none => g
  | some x => { g with
      codes := x.codes
      cgain := x.gain
      rowExp := x.win.rowExp
      opener := x.win.opener
      groupExp := (s.src.regs.e.toList.getD p.2 0#8).toInt
      closed := some (if t.old.isSome && t.one.isSome then s.now + 2 else s.now) }

theorem State.integrate_groups : (s.integrate v seg n a d).car.arr.groups = Vector.ofFn (fun (i : Fin 16) =>
    (((s.turns v seg n a d).zip s.src.arr.groups.toList).zipIdx.map
      (s.regrouped (s.olds v seg n a d) (s.ones v seg n a d))).getD i.val {}) := by
  show (if s.twice v seg n a d then
    (Arr.report (Arr.report _ _ _ _ _) _ _ _ _) else Arr.report _ _ _ _ _ : Arr).groups = _
  split
  · rw [(Arr.report_groups _ _ _ _ _).1, (Arr.report_groups _ _ _ _ _).1]
    rfl
  · rw [(Arr.report_groups _ _ _ _ _).1]
    rfl

/-- The group of a number after a beat: what its turn left open, and the codes of the last window that its turn closed. -/
theorem State.integrate_group (g : Fin 16) : let new := (s.integrate v seg n a d).car.arr.groups[g]
    let tn := s.turnOf v seg n a d g
    match tn.one.or tn.old with
    | none => new = { s.src.arr.groups[g] with win := tn.win }
    | some w => ∃ weak base closed, new = s.src.arr.groups[g].close tn.win w
        (w.convert s.src.arr.cal.skew weak s.src.arr.groups[g].gain s.fresh base) (s.src.regs.e.toList.getD g.val 0#8).toInt closed ∧
        (weak = true → s.laserNow = true ∨ ∃ h, (s.turnOf v seg n a d h).old.any Window.laser = true ∨ (s.turnOf v seg n a d h).one.any Window.laser = true) := by
  intro new tn
  have place : (s.turns v seg n a d)[g.val]? = some tn := by
    unfold State.turns
    rw [List.getElem?_eq_getElem (by simp), List.getElem_map, List.getElem_finRange]
    rfl
  have group : s.src.arr.groups.toList[g.val]? = some s.src.arr.groups[g] := by
    rw [Vector.getElem?_toList]
    exact Vector.getElem?_eq_getElem g.isLt
  have old : (s.olds v seg n a d).find? (fun x => x.group == g.val) = s.shut 0 (s.weakNow v seg n a d false) g.val tn.old := by
    have := find?_filterMap_zipIdx (f := fun i (t : Turn) => s.shut 0 (s.weakNow v seg n a d false) i t.old) (key := Closed.group)
      (fun i x y made => State.group_of_shut made) (s.turns v seg n a d) g.val 0
    rw [Nat.zero_add, place] at this
    exact this
  have one : (s.ones v seg n a d).find? (fun x => x.group == g.val) = s.shut 2048 (s.weakNow v seg n a d true) g.val tn.one := by
    have := find?_filterMap_zipIdx (f := fun i (t : Turn) => s.shut 2048 (s.weakNow v seg n a d true) i t.one) (key := Closed.group)
      (fun i x y made => State.group_of_shut made) (s.turns v seg n a d) g.val 0
    rw [Nat.zero_add, place] at this
    exact this
  have eq : new = s.regrouped (s.olds v seg n a d) (s.ones v seg n a d) ((tn, s.src.arr.groups[g]), g.val) := by
    unfold new
    have both : (((s.turns v seg n a d).zip s.src.arr.groups.toList).zipIdx)[g.val]? = some ((tn, s.src.arr.groups[g]), g.val) := by
      rw [List.getElem?_zipIdx, List.getElem?_zip_eq_some (z := (tn, s.src.arr.groups[g])) |>.mpr ⟨place, group⟩]
      simp
    show (s.integrate v seg n a d).car.arr.groups[g.val] = _
    simp only [State.integrate_groups, Vector.getElem_ofFn]
    rw [List.getD_eq_getElem?_getD, List.getElem?_map, both]
    rfl
  have gain : (s.src.arr.groups.toList.getD g.val {}).gain = s.src.arr.groups[g].gain := by
    rw [List.getD_eq_getElem?_getD, group]
    rfl
  rw [eq]
  unfold State.regrouped State.shut at *
  dsimp only
  rw [one, old, gain]
  cases tn.one with
  | some w => exact ⟨_, _, _, rfl, s.weak_of_weakNow v seg n a d⟩
  | none =>
    cases tn.old with
    | some w => exact ⟨_, _, _, rfl, s.weak_of_weakNow v seg n a d⟩
    | none => rfl

end

end Sys2Proof.Machine

namespace Sys2Proof.Machine
open Sys2Proof.Claims

/-! Windows that a beat enters, opens and closes (R106, R107, R115). -/

/-- A window after a beat that enters it. -/
def Window.entered (w : Window) (b : Beat) : Window := ({ w with void := w.lost b.now }).enter b

section
variable (w : Window) (b : Beat)

theorem Window.entered_spec : (w.entered b).beats = w.beats + 1 ∧ (w.entered b).rowExp = w.rowExp ∧ (w.entered b).line = (w.line || b.line) ∧
    (w.entered b).wsat = (w.wsat || b.wsat) ∧ (w.entered b).laser = (w.laser || b.laser) ∧ (w.entered b).void = w.lost b.now ∧
    (w.entered b).sums = if w.lost b.now then w.sums else List.zipWith (· + ·) w.sums b.sums := by
  unfold Window.entered Window.enter
  simp only [Window.lost, Bool.or_assoc, Bool.or_self]
  rcases Bool.eq_false_or_eq_true (w.void || decide (w.last + Config.holdCycles < b.now)) with lost | lost
  · simp only [lost, if_true]
    exact ⟨trivial, trivial, trivial, trivial, trivial, trivial, trivial⟩
  · simp only [lost, Bool.false_eq_true, if_false]
    exact ⟨trivial, trivial, trivial, trivial, trivial, trivial, trivial⟩

/-- The sums of a window that a beat enters. -/
theorem Window.entered_sums {w : Window} {b : Beat} (whole : w.sums.length = 128) (beat : b.sums.length = 128) : (w.entered b).sums.length = 128 ∧
    ∀ r < 128, (w.entered b).sums.getD r 0 = w.sums.getD r 0 + if w.lost b.now then 0 else b.sums.getD r 0 := by
  obtain ⟨-, -, -, -, -, -, sums⟩ := w.entered_spec b
  rw [sums]
  split
  · exact ⟨whole, fun r _ => (Int.add_zero _).symm⟩
  · refine ⟨by rw [List.length_zipWith, whole, beat]; rfl, fun r inside => ?_⟩
    rw [List.getD_eq_getElem _ _ (by rw [List.length_zipWith, whole, beat]; exact inside), List.getElem_zipWith,
      List.getD_eq_getElem _ _ (whole.symm ▸ inside), List.getD_eq_getElem _ _ (beat.symm ▸ inside)]

theorem turn_enters (d : Bool) : turn (some w) false d b =
    if d || decide (512 ≤ (w.entered b).beats) then { old := some (w.entered b) } else { win := some (w.entered b) } := rfl

/-- D closes a window (R107). -/
theorem turn_closes (win : Option Window) (a : Bool) (b : Beat) : (turn win a true b).win = none ∧
    ∃ w, (turn win a true b).one.or (turn win a true b).old = some w := by
  cases win with
  | none => exact ⟨rfl, _, rfl⟩
  | some w =>
    cases a with
    | true => exact ⟨rfl, _, rfl⟩
    | false =>
      rw [turn_enters, Bool.true_or, if_pos rfl]
      exact ⟨rfl, _, rfl⟩

/-- A laser that is in tolerance, over windows that saw it so, gives windows that say so. -/
theorem turn_calm {win : Option Window} {a d : Bool} {b : Beat} (calm : b.laser = false) (before : win.any Window.laser = false) :
    (turn win a d b).old.any Window.laser = false ∧ (turn win a d b).one.any Window.laser = false := by
  cases win with
  | none =>
    cases d with
    | false => exact ⟨rfl, rfl⟩
    | true => exact ⟨rfl, calm⟩
  | some w =>
    cases a with
    | true =>
      cases d with
      | false => exact ⟨before, rfl⟩
      | true => exact ⟨before, calm⟩
    | false =>
      obtain ⟨-, -, -, -, laser, -, -⟩ := w.entered_spec b
      rw [turn_enters]
      split
      · exact ⟨laser.trans (by rw [calm, Bool.or_false]; exact before), rfl⟩
      · exact ⟨rfl, rfl⟩

/-- The codes of a window that closes (R110, R115). -/
theorem Window.convert_spec {w : Window} {skew weak told : Bool} {gain n base : Nat} (whole : w.sums.length = 128) (known : weak = true → told = true) :
    (w.void = true → ∀ r < 128, (w.convert skew weak gain n base).getD r 0 = 0) ∧
    (w.void = false → ∀ r < 128, Delivers gain skew told (w.sums.getD r 0) ((w.convert skew weak gain n base).getD r 0)) := by
  unfold Window.convert
  refine ⟨fun void r _ => ?_, fun fine r inside => ?_⟩
  · rw [if_pos void]
    exact getD_replicate_zero 128 r
  · rw [if_neg (by rw [fine]; decide), List.getD_eq_getElem (l := w.sums) _ (whole.symm ▸ inside),
      List.getD_eq_getElem _ _ (by rw [List.length_map, List.length_zipIdx, whole]; exact inside), List.getElem_map, List.getElem_zipIdx]
    exact deliver_delivers gain _ _ known

end

section
variable (s : State) (v : VReg) (seg : Nat) (n a d : Bool)

/-- A laser is out of tolerance on the array's line, or was in an open window of it (R110, R444). -/
def State.weakLight : Bool := s.src.arr.line.any s.srcDev.laserBad || s.src.arr.groups.toList.any (fun h => h.win.any Window.laser)

theorem State.laserNow_eq : s.laserNow = s.src.arr.line.any s.srcDev.laserBad := by
  unfold State.laserNow
  cases s.src.arr.line <;> rfl

theorem State.weakLight_of_turns (weak : s.laserNow = true ∨ ∃ h, (s.turnOf v seg n a d h).old.any Window.laser = true ∨
    (s.turnOf v seg n a d h).one.any Window.laser = true) : s.weakLight = true := by
  by_contra calm
  rw [State.weakLight, Bool.not_eq_true, Bool.or_eq_false_iff, ← s.laserNow_eq] at calm
  obtain ⟨laser, windows⟩ := calm
  rw [laser] at weak
  rcases weak with weak | ⟨h, weak⟩
  · cases weak
  · have before : s.src.arr.groups[h].win.any Window.laser = false := by
      have := List.any_eq_false.mp windows s.src.arr.groups[h] (Vector.mem_toList_iff.mpr (Vector.getElem_mem h.isLt))
      simpa using this
    have both : (s.turnOf v seg n a d h).old.any Window.laser = false ∧ (s.turnOf v seg n a d h).one.any Window.laser = false := by
      unfold State.turnOf
      split
      · exact ⟨rfl, rfl⟩
      · exact turn_calm laser before
    rw [both.1, both.2] at weak
    simp at weak

/-- The window of a group after a beat is what its turn left open. -/
theorem State.integrate_win (g : Fin 16) : (s.integrate v seg n a d).car.arr.groups[g].win = (s.turnOf v seg n a d g).win := by
  have group := s.integrate_group v seg n a d g
  dsimp only at group
  split at group
  · exact congrArg Group.win group
  · obtain ⟨_, _, _, new, -⟩ := group
    exact congrArg Group.win new

/-- What a group keeps of a window that closes at a beat. -/
theorem State.integrate_closed {g : Fin 16} {w : Window} (closes : (s.turnOf v seg n a d g).one.or (s.turnOf v seg n a d g).old = some w) :
    let new := (s.integrate v seg n a d).car.arr.groups[g]
    new.rowExp = w.rowExp ∧ new.groupExp = (s.src.regs.e.toList.getD g.val 0#8).toInt ∧ new.cgain = s.src.arr.groups[g].gain ∧
    (w.sums.length = 128 → (w.void = true → ∀ r < 128, new.codes.getD r 0 = 0) ∧
      (w.void = false → ∀ r < 128, Delivers s.src.arr.groups[g].gain s.src.arr.cal.skew s.weakLight (w.sums.getD r 0) (new.codes.getD r 0))) := by
  have group := s.integrate_group v seg n a d g
  dsimp only at group
  rw [closes] at group
  obtain ⟨weak, base, closed, new, known⟩ := group
  intro new'
  rw [show new' = _ from new]
  exact ⟨rfl, rfl, rfl, fun whole => Window.convert_spec whole fun h => s.weakLight_of_turns v seg n a d (known h)⟩

/-- A beat changes the array, the flags and how long the array is held, and no more. -/
theorem State.integrate_frame : let t := s.integrate v seg n a d
    t.car.regs = s.car.regs ∧ SameBytes s t ∧ t.peers = s.peers ∧ t.dev = s.dev ∧ t.car.arr.beat = some s.now ∧
    t.car.ctl.vflags = s.car.ctl.vflags ||| flIf ((s.beatCodes v seg).toArray.any (fun x => x.2)) WSAT := by
  refine ⟨rfl, ⟨fun _ => rfl, fun _ => rfl, fun _ => rfl, fun _ _ => rfl⟩, rfl, rfl, ?_, rfl⟩
  show (if s.twice v seg n a d then
    (Arr.report (Arr.report _ _ _ _ _) _ _ _ _) else Arr.report _ _ _ _ _ : Arr).beat = _
  split
  · rw [(Arr.report_groups _ _ _ _ _).2, (Arr.report_groups _ _ _ _ _).2]
  · rw [(Arr.report_groups _ _ _ _ _).2]

end

end Sys2Proof.Machine

namespace Sys2Proof.Proofs
open Sys2Proof.Machine Sys2Proof.Claims

/-- A beat that issues in user mode (R209, R214). -/
theorem exec_mbt {s : State} {te n a d : Bool} {v : VReg} {seg : BitVec 4} (user : s.src.tr.handler = false) (issues : s.Issues (.mbt te v seg n a d)) :
    exec (.mbt te v seg n a d) s = .next ((s.integrate v seg.toNat n a d).holdArray (s.now + 1)) ∧ s.fmt.wf ≠ 3#2 := by
  let bad := s.fmt.wf == 3#2 || (s.fmt.wf != 1#2 && decide (8 ≤ seg.toNat))
  let p : Plan := { te := te, illegal := bad, srcs := [s.oA v], unit := .array, wait := s.paced a d || s.src.arr.calWaits, dooms := s.foreignLine s.src.arr.line }
  have slot : slotOf (.mbt te v seg n a d) s = some (SlotOp.mk p
      (fun s => (s.integrate v seg.toNat n a d).holdArray (s.now + 1))) := by
    show some (s.mslot true _ _) = _
    rw [State.mslot, user]
    rfl
  refine ⟨exec_issues slot issues, fun three => ?_⟩
  obtain ⟨q, slot', passes⟩ := issues
  cases slot.symm.trans slot'
  have legal : (s.fmt.wf == 3#2 || (s.fmt.wf != 1#2 && decide (8 ≤ seg.toNat))) = false := passes.legal
  rw [three] at legal
  cases legal

/-- What a beat does to the windows of the groups (R106, R107, R215). -/
theorem beatsCountWindows : Sys2Proof.Claims.BeatsCountWindows := by
  intro te n a d v seg s user issues
  obtain ⟨runs, -⟩ := exec_mbt user issues
  obtain ⟨regs, bytes, peers, dev, beat, -⟩ := s.integrate_frame v seg.toNat n a d
  refine ⟨_, runs, regs, bytes, peers, dev, beat, fun g => ?_⟩
  have win : ((s.integrate v seg.toNat n a d).holdArray (s.now + 1)).car.arr.groups[g].win = _ := s.integrate_win v seg.toNat n a d g
  rw [win]
  refine ⟨fun ignores => ?_, fun x y acts => ?_⟩
  · rw [State.turnOf, ignores]
  · have turns : s.turnOf v seg.toNat n a d g = turn s.src.arr.groups[g].win x y (s.beatOf v seg.toNat n g.val) := by
      rw [State.turnOf, acts]
    rw [turns]
    refine ⟨?_, ?_, ?_⟩
    · rintro rfl
      obtain ⟨none, w, closes⟩ := turn_closes s.src.arr.groups[g].win x (s.beatOf v seg.toNat n g.val)
      rw [← turns] at closes
      obtain ⟨-, -, gain, -⟩ := s.integrate_closed v seg.toNat n a d closes
      exact ⟨none, gain⟩
    · rintro rfl empty
      rw [empty]
      exact ⟨_, rfl, rfl, rfl⟩
    · rintro rfl w there
      rw [there]
      obtain ⟨beats, -⟩ := w.entered_spec (s.beatOf v seg.toNat n g.val)
      refine ⟨?_, ?_, ?_⟩
      · rintro rfl
        exact ⟨_, rfl, rfl⟩
      · rintro rfl last
        rw [turn_enters, beats, Bool.false_or, if_pos (decide_eq_true (by omega))]
      · rintro rfl before
        rw [turn_enters, beats, Bool.false_or, if_neg (by rw [decide_eq_true_eq]; omega)]
        exact ⟨_, rfl, beats⟩

end Sys2Proof.Proofs

namespace Sys2Proof.Machine
open Sys2Proof.Claims

/-! The numbers of a beat (R102 to R107). -/

/-- A beat with A, or without an open window, opens one, which D closes (R107). -/
theorem turn_fresh {win : Option Window} {a : Bool} (b : Beat) (fresh : win = none ∨ a = true) :
    (turn win a false b).win = some b.opens ∧ (turn win a true b).one = some b.opens := by
  cases win with
  | none => exact ⟨rfl, rfl⟩
  | some w =>
    obtain rfl := fresh.resolve_left nofun
    exact ⟨rfl, rfl⟩

section
variable {s : State} {rows codes w : Nat → Int} {fault : Bool} {z : Nat → Bool} {v : VReg} {seg : Nat}

/-- What the spec tells of the beat of a segment (R102 to R105). -/
structure State.BeatTold (s : State) (v : VReg) (seg : Nat) (rows codes w : Nat → Int) (fault : Bool) (z : Nat → Bool) : Prop where
  light : Meets s rows codes fault
  legal : s.fmt.wf ≠ 3#2
  weights : ∀ i < 512, Modulates s.fmt.wf (s.src.regs.e.toList.getD (i % 64 / 4) 0#8).toInt
    (if s.fmt.wf = 1#2 then (s.rVA v).toNat / 2 ^ (4 * (512 * seg + i)) % 16 else lane .i8 (s.rVA v) (512 * seg + i)) (w i) (z i)

variable (told : s.BeatTold v seg rows codes w fault z)
include told

theorem State.BeatTold.codes_eq : s.beatCodes v seg = (List.range 512).map (fun i => (w i, z i)) := by
  generalize count : 512 = m
  have size : (s.beatCodes v seg).length = m := count ▸ s.beatCodes_length v seg
  refine List.ext_getElem (by rw [size, List.length_map, List.length_range]) fun i here _ => ?_
  have inside : i < 512 := by omega
  rw [List.getElem_map, List.getElem_range, ← State.beatCodes_getD told.legal told.weights i inside, List.getD_eq_getElem _ _ here]

theorem State.BeatTold.wsat_eq (g : Fin 16) (n : Bool) : (s.beatOf v seg n g.val).wsat =
    (List.range 8).any (fun i => (List.range 4).any (fun j => z (i * 64 + 4 * g.val + j))) := by
  have read (i : Nat) (inside : i < 512) : ((s.beatCodes v seg).toArray.getD i (0, false)).2 = z i := by
    rw [getD_toArray, State.beatCodes_getD told.legal told.weights i inside]
  rw [Bool.eq_iff_iff, State.beatOf, List.any_eq_true, List.any_eq_true]
  constructor
  · rintro ⟨i, far, here⟩
    rw [List.mem_range] at far
    rw [read _ (by omega)] at here
    refine ⟨i / 4, List.mem_range.mpr (by omega), List.any_eq_true.mpr ⟨i % 4, List.mem_range.mpr (by omega), here⟩⟩
  · rintro ⟨i, far, some⟩
    obtain ⟨j, near, here⟩ := List.any_eq_true.mp some
    rw [List.mem_range] at far near
    refine ⟨4 * i + j, List.mem_range.mpr (by omega), ?_⟩
    rw [read _ (by omega), show (4 * i + j) / 4 = i by omega, show (4 * i + j) % 4 = j by omega]
    exact here

/-- The beat of a group. -/
theorem State.BeatTold.beat_spec (g : Fin 16) (n : Bool) : let b := s.beatOf v seg n g.val
    b.sums.length = 128 ∧ (∀ r < 128, b.sums.getD r 0 =
      (if n then -1 else 1) * ((List.range 8).map (fun i => codes (i * 32 + r / 4) * w (i * 64 + 4 * g.val + r % 4))).sum) ∧
    (∀ k, b.rows.getD k 0 = rows k) ∧ b.line = fault ∧ b.now = s.now := by
  obtain ⟨read, beat, late⟩ := State.light_meets told.light
  refine ⟨?_, fun r inside => groupSums_getD n beat (State.beatCodes_getD told.legal told.weights) g inside, read, late, rfl⟩
  show (groupSums _ _ _ _).length = 128
  unfold groupSums
  rw [List.length_map, List.length_range]

end

end Sys2Proof.Machine

namespace Sys2Proof.Proofs
open Sys2Proof.Machine Sys2Proof.Claims

/-- The sums, exponents and codes of the windows that a beat opens, enters and closes (R102 to R115). -/
theorem beatSumsAndCodes : Sys2Proof.Claims.BeatSumsAndCodes := by
  intro te n a d v seg s rows codes w fault z user issues meets e weight weights
  obtain ⟨runs, legal⟩ := exec_mbt user issues
  have told : s.BeatTold v seg.toNat rows codes w fault z := ⟨meets, legal, weights⟩
  obtain ⟨-, -, -, -, -, flags⟩ := s.integrate_frame v seg.toNat n a d
  refine ⟨_, runs, ?_, fun g x y acts => ?_⟩
  · rw [told.codes_eq] at flags
    refine flags.trans ?_
    rw [List.any_toArray, List.any_map]
    rfl
  · intro old new lost adds wsat weak leaves
    obtain ⟨whole, sums, read, late, now⟩ := told.beat_spec g n
    have saturates := told.wsat_eq g n
    have turns : s.turnOf v seg.toNat n a d g = turn old.win x y (s.beatOf v seg.toNat n g.val) := by
      rw [State.turnOf, acts]
    have win : new.win = (s.turnOf v seg.toNat n a d g).win := s.integrate_win v seg.toNat n a d g
    have closes (q : Window) (full : q.sums.length = 128) (here : (s.turnOf v seg.toNat n a d g).one.or (s.turnOf v seg.toNat n a d g).old = some q) :
        leaves (fun r => q.sums.getD r 0) (fun k => q.rowExp.getD k 0) q.void := by
      obtain ⟨row, exponent, gain, values⟩ := s.integrate_closed v seg.toNat n a d here
      obtain ⟨zeros, delivers⟩ := values full
      have latch : e (4 * g.val) = (s.src.regs.e.toList.getD g.val 0#8).toInt := by
        unfold e
        rw [Nat.mul_div_cancel_left _ (by decide)]
      exact ⟨fun k _ => congrArg (fun l : List Int => l.getD k 0) row, exponent.trans latch.symm, gain, zeros, delivers⟩
    rw [turns] at win closes
    generalize s.beatOf v seg.toNat n g.val = b at *
    have shuts (here : (turn old.win x y b).one.or (turn old.win x y b).old = some b.opens) : leaves adds rows false := by
      obtain ⟨row, exponent, gain, -, delivers⟩ := closes _ whole here
      refine ⟨fun k inside => (row k inside).trans (read k), exponent, gain, nofun, fun _ r inside => ?_⟩
      rw [show adds r = b.sums.getD r 0 from (sums r inside).symm]
      exact delivers rfl r inside
    have opens (is : new.win = some b.opens) : ∃ u, new.win = some u ∧ u.sums.length = 128 ∧ (∀ r < 128, u.sums.getD r 0 = adds r) ∧
        (∀ k < 32, u.rowExp.getD k 0 = rows k) ∧ u.line = fault ∧ u.wsat = wsat ∧ u.void = false :=
      ⟨_, is, whole, sums, fun k _ => read k, late, saturates, rfl⟩
    refine ⟨fun fresh => ?_, fun u there full => ?_⟩
    · obtain ⟨opened, shut⟩ := turn_fresh b fresh
      refine ⟨?_, ?_⟩
      · rintro rfl
        exact opens (win.trans opened)
      · rintro rfl
        exact shuts (by rw [shut, Option.some_or])
    · have void : u.lost b.now = lost u := by rw [now]; rfl
      obtain ⟨beats, row, line, flag, -, gone, -⟩ := u.entered_spec b
      obtain ⟨long, adds'⟩ := Window.entered_sums full whole
      rw [there] at win closes
      refine ⟨?_, ?_, ?_⟩
      · rintro rfl rfl
        rw [← void]
        exact closes { u with void := u.lost b.now } full rfl
      · rintro rfl ends
        have over_ : (y || decide (512 ≤ (u.entered b).beats)) = true := by
          rw [beats, Bool.or_eq_true, decide_eq_true_eq]
          exact ends.imp_right fun _ => by omega
        rw [turn_enters, if_pos over_] at closes
        obtain ⟨row', exponent, gain, zeros, delivers⟩ := closes _ long rfl
        rw [gone, void] at zeros delivers
        refine ⟨fun k inside => (row' k inside).trans (by rw [row]), exponent, gain, zeros, fun fine r inside => ?_⟩
        have sum := adds' r inside
        rw [void, fine, if_neg Bool.false_ne_true, sums r inside] at sum
        show Delivers old.gain s.src.arr.cal.skew weak (u.sums.getD r 0 + adds r) (new.codes.getD r 0)
        rw [show u.sums.getD r 0 + adds r = (u.entered b).sums.getD r 0 from sum.symm]
        exact delivers fine r inside
      · rintro rfl rfl before
        rw [turn_enters, beats, Bool.false_or, if_neg (by rw [decide_eq_true_eq]; omega)] at win
        refine ⟨_, win, row, line.trans (by rw [late]), flag.trans (by rw [saturates]), gone.trans void, long, fun r inside => ?_⟩
        rw [adds' r inside, void, sums r inside]

/-- Settles O18: the windows that a beat opens, counts and closes, their sums, exponents and codes. -/
theorem beatOpensAndClosesWindows : Obligations.BeatOpensAndClosesWindows := ⟨beatsCountWindows, beatSumsAndCodes⟩

end Sys2Proof.Proofs

namespace Sys2Proof.Proofs
open Sys2Proof.Machine Sys2Proof.Claims

/-- The nearest integer to an integer is that integer. -/
theorem roundsInt_whole {n k : ℤ} (rounds : RoundsInt 0#2 (k : ℚ) n) : n = k :=
  roundsInt_unique rounds ⟨fun _ => by simp, nofun, nofun, nofun⟩

/-- A power of two above the range of F32 that is rounded to the nearest is infinite. -/
theorem roundsTo_infinite {y : Nat} {fl : Fl} (rounds : RoundsTo 8 23 0#2 false (2 ^ 200) y fl) : ¬ fin 8 23 y := by
  obtain ⟨e, n, low, high, nearest, overflow, -⟩ := rounds
  have size : |(2 : ℚ) ^ 200| = 2 ^ (200 : ℤ) := by norm_num
  rw [size] at low high
  have exponent : e = 200 := by
    have := (zpow_le_zpow_iff_right₀ (by norm_num : (1 : ℚ) < 2)).mp low
    have := (zpow_lt_zpow_iff_right₀ (by norm_num : (1 : ℚ) < 2)).mp high
    omega
  subst exponent
  have unit : (2 : ℚ) ^ (max 200 (1 - (2 ^ (8 - 1) - 1)) - (23 : ℕ) : ℤ) = 2 ^ 177 := by norm_num
  rw [unit] at nearest overflow
  have count : n = 2 ^ 23 := roundsInt_whole (k := 2 ^ 23) (by norm_num at nearest ⊢; exact nearest)
  obtain ⟨-, inf⟩ := overflow (by rw [count]; norm_num)
  rw [inf]
  unfold infinity signBit fin
  norm_num

/-- Refutes O15: a rescaled M8 element is told to pass through a finite F32 value for every RCNT, but a count of 2^200, which no
register holds, takes the code of 1 beyond the range of F32. -/
theorem not_vectorRearrangeAndBlocks : ¬ Obligations.VectorRearrangeAndBlocks := by
  unfold Obligations.VectorRearrangeAndBlocks
  rintro ⟨-, -, blocks⟩
  obtain ⟨-, m8, -⟩ := blocks .m8 8 23 (fmtOf 0#20) 0 0x40 0 (2 ^ 202) 1 (by decide) (by decide) (by decide) (by decide) (by positivity) (by decide)
  obtain ⟨real, -⟩ := m8 rfl
  obtain ⟨-, rescaled⟩ := real (by decide)
  obtain ⟨w, f, g, rounds, finite, -⟩ := rescaled (by decide)
  have one : m8Value 0x40 = 1 / 4 := by decide +kernel
  rw [one] at rounds
  refine roundsTo_infinite (y := w) (fl := f) ?_ finite
  norm_num at rounds ⊢
  exact rounds

end Sys2Proof.Proofs

namespace Sys2Proof.Machine
open Sys2Proof.Claims

/-! Patterns of binary formats and their values (R39). -/

section
variable {eb fb s E M x : Nat}

/-- A pattern from its sign, exponent and fraction. -/
def packed (eb fb s E M : Nat) : Nat := s * 2 ^ (eb + fb) + E * 2 ^ fb + M

theorem packed_frac (hM : M < 2 ^ fb) : packed eb fb s E M % 2 ^ fb = M := by
  have split : packed eb fb s E M = (s * 2 ^ eb + E) * 2 ^ fb + M := by unfold packed; ring
  rw [split, Nat.add_comm, Nat.add_mul_mod_self_right, Nat.mod_eq_of_lt hM]

theorem packed_high (hM : M < 2 ^ fb) : packed eb fb s E M / 2 ^ fb = s * 2 ^ eb + E := by
  have split : packed eb fb s E M = M + (s * 2 ^ eb + E) * 2 ^ fb := by unfold packed; ring
  rw [split, Nat.add_mul_div_right _ _ (Nat.two_pow_pos fb), Nat.div_eq_of_lt hM, Nat.zero_add]

theorem packed_exp (hE : E < 2 ^ eb) (hM : M < 2 ^ fb) : packed eb fb s E M / 2 ^ fb % 2 ^ eb = E := by
  rw [packed_high hM, Nat.add_comm, Nat.add_mul_mod_self_right, Nat.mod_eq_of_lt hE]

theorem packed_sign (hE : E < 2 ^ eb) (hM : M < 2 ^ fb) : packed eb fb s E M / 2 ^ (eb + fb) = s := by
  rw [Nat.add_comm eb, Nat.pow_add, ← Nat.div_div_eq_div_mul, packed_high hM, Nat.add_comm, Nat.add_mul_div_right _ _ (Nat.two_pow_pos eb),
    Nat.div_eq_of_lt hE, Nat.zero_add]

/-- Every pattern is one of its sign, exponent and fraction. -/
theorem packed_fields (x : Nat) : packed eb fb (x / 2 ^ (eb + fb)) (x / 2 ^ fb % 2 ^ eb) (x % 2 ^ fb) = x := by
  have low := Nat.div_add_mod' x (2 ^ fb)
  have high := Nat.div_add_mod' (x / 2 ^ fb) (2 ^ eb)
  rw [Nat.div_div_eq_div_mul, ← Nat.pow_add, Nat.add_comm fb] at high
  have parts : packed eb fb (x / 2 ^ (eb + fb)) (x / 2 ^ fb % 2 ^ eb) (x % 2 ^ fb) =
      (x / 2 ^ (eb + fb) * 2 ^ eb + x / 2 ^ fb % 2 ^ eb) * 2 ^ fb + x % 2 ^ fb := by unfold packed; ring
  rw [parts, high, low]

theorem packed_lt (hE : E < 2 ^ eb) (hM : M < 2 ^ fb) (hs : s < 2) : packed eb fb s E M < 2 ^ (eb + fb + 1) := by
  rw [Nat.pow_succ, Nat.mul_comm, ← Nat.div_lt_iff_lt_mul (Nat.two_pow_pos _), packed_sign hE hM]
  exact hs

/-- The sign as a factor. -/
def signOf (neg : Bool) : ℚ := if neg then -1 else 1

theorem fval_packed (neg fz : Bool) (hE : E < 2 ^ eb) (hM : M < 2 ^ fb) : fval eb fb fz (packed eb fb neg.toNat E M) =
    signOf neg * (if E = 0 then (if fz then 0 else (M : ℚ) * 2 ^ (1 - (2 ^ (eb - 1) - 1 : ℤ) - fb))
      else ((M : ℚ) + 2 ^ fb) * 2 ^ ((E : ℤ) - (2 ^ (eb - 1) - 1 : ℤ) - fb)) := by
  unfold fval
  dsimp only
  rw [packed_exp hE hM, packed_frac hM, packed_sign hE hM]
  cases neg <;> rfl

end

/-! Decoded patterns (R39, R41). -/

section
variable {f : Flt} {x : Nat}

theorem Flt.bias_eq (f : Flt) : (f.bias : ℤ) = 2 ^ (f.eb - 1) - 1 := by
  have one : 1 ≤ 2 ^ (f.eb - 1) := Nat.one_le_two_pow
  rw [Flt.bias, Nat.cast_sub one]
  push_cast
  rfl

/-- A finite pattern is decoded to its value, with its sign. -/
theorem Flt.decode_fin (fz : Bool) (finite : fin f.eb f.fb x) : ∃ q, f.decode fz x = .num q (decide (x / 2 ^ (f.eb + f.fb) % 2 = 1)) ∧ 0 < q.den ∧
    q.value = fval f.eb f.fb fz x := by
  unfold fin at finite
  unfold Flt.decode fval
  dsimp only
  rw [if_neg finite, ← f.bias_eq]
  generalize x / 2 ^ f.fb % 2 ^ f.eb = E
  generalize x % 2 ^ f.fb = M
  generalize x / 2 ^ (f.eb + f.fb) % 2 = S
  by_cases zero : E = 0
  · rw [if_pos zero, if_pos zero]
    by_cases flush : (decide (M = 0) || fz) = true
    · rw [if_pos (by simpa using flush)]
      refine ⟨_, rfl, Nat.one_pos, ?_⟩
      rw [Bool.or_eq_true, decide_eq_true_eq] at flush
      rcases flush with frac | flush
      · simp [frac, Q.value]
      · simp [flush, Q.value]
    · rw [if_neg (by simpa using flush)]
      refine ⟨_, rfl, Q.den_scale _ _, ?_⟩
      rw [Bool.or_eq_true, not_or] at flush
      rw [Q.value_scale, if_neg flush.2, Flt.emin]
      by_cases neg : S = 1 <;> simp [neg]
  · rw [if_neg zero, if_neg zero]
    refine ⟨_, rfl, Q.den_scale _ _, ?_⟩
    rw [Q.value_scale]
    by_cases neg : S = 1
    · simp only [neg, decide_true, if_true]
      push_cast
      ring
    · simp only [neg, decide_false, Bool.false_eq_true, if_false]
      push_cast
      ring

theorem Flt.decode_nan (fz : Bool) (nan : isNan f.eb f.fb x) : f.decode fz x = .nan (decide (x % 2 ^ f.fb < 2 ^ (f.fb - 1))) := by
  obtain ⟨top, frac⟩ := nan
  unfold Flt.decode
  dsimp only
  rw [if_pos top, if_neg frac]

theorem Flt.decode_inf (fz : Bool) (infinite : ¬ fin f.eb f.fb x) (number : ¬ isNan f.eb f.fb x) :
    f.decode fz x = .inf (decide (x / 2 ^ (f.eb + f.fb) % 2 = 1)) := by
  have top : x / 2 ^ f.fb % 2 ^ f.eb = 2 ^ f.eb - 1 := not_not.mp infinite
  have frac : x % 2 ^ f.fb = 0 := by
    by_contra frac
    exact number ⟨top, frac⟩
  unfold Flt.decode
  dsimp only
  rw [if_pos top, if_pos frac]

end

end Sys2Proof.Machine

namespace Sys2Proof.Machine
open Sys2Proof.Claims

/-! The binade of a fraction, and its multiples of a power of two (R53). -/

section
variable {a b : Nat}

theorem two_pow_log2_bounds (pos : 0 < a) : (2 : ℚ) ^ (Nat.log2 a : ℤ) ≤ a ∧ (a : ℚ) < 2 ^ ((Nat.log2 a : ℤ) + 1) := by
  constructor
  · rw [zpow_natCast]
    exact_mod_cast Nat.log2_self_le pos.ne'
  · rw [zpow_add_one₀ two_ne_zero, zpow_natCast, ← pow_succ]
    exact_mod_cast Nat.lt_log2_self

theorem ilog2_spec (ha : 0 < a) (hb : 0 < b) : (2 : ℚ) ^ ilog2 a b ≤ a / b ∧ (a : ℚ) / b < 2 ^ (ilog2 a b + 1) := by
  have hb' : (0 : ℚ) < b := by exact_mod_cast hb
  obtain ⟨lowA, highA⟩ := two_pow_log2_bounds ha
  obtain ⟨lowB, highB⟩ := two_pow_log2_bounds hb
  have reaches : (if 0 ≤ (Nat.log2 a : ℤ) - Nat.log2 b then decide (b * 2 ^ ((Nat.log2 a : ℤ) - Nat.log2 b).toNat ≤ a)
      else decide (b ≤ a * 2 ^ (-((Nat.log2 a : ℤ) - Nat.log2 b)).toNat)) = true ↔ (2 : ℚ) ^ ((Nat.log2 a : ℤ) - Nat.log2 b) ≤ a / b := by
    rw [le_div_iff₀ hb']
    generalize (Nat.log2 a : ℤ) - Nat.log2 b = k
    split
    · next nonneg =>
      obtain ⟨n, rfl⟩ := Int.eq_ofNat_of_zero_le nonneg
      rw [decide_eq_true_eq, Int.toNat_natCast, zpow_natCast, mul_comm]
      exact_mod_cast Iff.rfl
    · next neg =>
      obtain ⟨n, rfl⟩ : ∃ n : Nat, k = -n := ⟨(-k).toNat, by omega⟩
      rw [decide_eq_true_eq, neg_neg, Int.toNat_natCast, zpow_neg, zpow_natCast, inv_mul_le_iff₀ (by positivity), mul_comm]
      exact_mod_cast Iff.rfl
  have below : (2 : ℚ) ^ ((Nat.log2 a : ℤ) - Nat.log2 b - 1) ≤ a / b := by
    rw [le_div_iff₀ hb']
    calc (2 : ℚ) ^ ((Nat.log2 a : ℤ) - Nat.log2 b - 1) * b ≤ 2 ^ ((Nat.log2 a : ℤ) - Nat.log2 b - 1) * 2 ^ ((Nat.log2 b : ℤ) + 1) := by gcongr
      _ = 2 ^ (Nat.log2 a : ℤ) := by rw [← zpow_add₀ two_ne_zero]; congr 1; ring
      _ ≤ a := lowA
  have above : (a : ℚ) / b < 2 ^ ((Nat.log2 a : ℤ) - Nat.log2 b + 1) := by
    rw [div_lt_iff₀ hb']
    calc (a : ℚ) < 2 ^ ((Nat.log2 a : ℤ) + 1) := highA
      _ = 2 ^ ((Nat.log2 a : ℤ) - Nat.log2 b + 1) * 2 ^ (Nat.log2 b : ℤ) := by rw [← zpow_add₀ two_ne_zero]; congr 1; ring
      _ ≤ 2 ^ ((Nat.log2 a : ℤ) - Nat.log2 b + 1) * b := by gcongr
  unfold ilog2
  dsimp only
  by_cases yes : (2 : ℚ) ^ ((Nat.log2 a : ℤ) - Nat.log2 b) ≤ a / b
  · rw [if_pos (reaches.mpr yes)]
    exact ⟨yes, above⟩
  · rw [if_neg fun h => yes (reaches.mp h), sub_add_cancel]
    exact ⟨below, lt_of_not_ge yes⟩

theorem shiftFrac_spec (hb : 0 < b) (u : Int) : 0 < (shiftFrac a b u).2 ∧
    ((shiftFrac a b u).1 : ℚ) / (shiftFrac a b u).2 = (a : ℚ) / b / 2 ^ u := by
  unfold shiftFrac
  split
  · next nonneg =>
    obtain ⟨n, rfl⟩ := Int.eq_ofNat_of_zero_le nonneg
    refine ⟨Nat.mul_pos hb (Nat.two_pow_pos _), ?_⟩
    rw [Int.toNat_natCast, zpow_natCast, div_div]
    push_cast
    rfl
  · next neg =>
    obtain ⟨n, rfl⟩ : ∃ n : Nat, u = -n := ⟨(-u).toNat, by omega⟩
    refine ⟨hb, ?_⟩
    rw [neg_neg, Int.toNat_natCast, zpow_neg, zpow_natCast, div_inv_eq_mul]
    push_cast
    ring

end

/-! Bounds of a rounded magnitude. -/

theorem rm_cases : ∀ rm : BitVec 2, rm = 0#2 ∨ rm = 1#2 ∨ rm = 2#2 ∨ rm = 3#2 := by decide

section
variable {rm : BitVec 2} {neg : Bool} {a b X : Nat}

theorem divRound_cases (rm : BitVec 2) (neg : Bool) (a b : Nat) (pos : 0 < b) : Below (divRound rm neg a b) a b ∨ Above (divRound rm neg a b) a b := by
  have down : Below (a / b) a b := below_div pos
  have up : Above (if a % b = 0 then a / b else a / b + 1) a b := above_div pos
  rcases rm_cases rm with rfl | rfl | rfl | rfl
  · have near := divRound_nearest (neg := neg) (a := a) pos
    unfold Nearest Below Above at *
    omega
  · exact .inl down
  · rw [divRound_up]
    cases neg with
    | true => exact .inl down
    | false => exact .inr up
  · rw [divRound_down]
    cases neg with
    | true => exact .inr up
    | false => exact .inl down

theorem divRound_le (pos : 0 < b) (bound : a ≤ X * b) : divRound rm neg a b ≤ X := by
  have cases_ := divRound_cases rm neg a b pos
  generalize divRound rm neg a b = m at *
  by_contra above
  have far : (X + 1) * b ≤ m * b := Nat.mul_le_mul_right b (by omega)
  rw [Nat.add_mul, Nat.one_mul] at far
  unfold Below Above at cases_
  omega

theorem le_divRound (pos : 0 < b) (bound : X * b ≤ a) : X ≤ divRound rm neg a b := by
  have cases_ := divRound_cases rm neg a b pos
  generalize divRound rm neg a b = m at *
  by_contra below
  have far : (m + 1) * b ≤ X * b := Nat.mul_le_mul_right b (by omega)
  rw [Nat.add_mul, Nat.one_mul] at far
  unfold Below Above at cases_
  omega

/-- A magnitude that rounds up to an even number of units rounds up to half as many of units twice as large. -/
theorem divRound_half (pos : 0 < b) (below : a < 2 * X * b) (rounds : divRound rm neg a b = 2 * X) : divRound rm neg a (2 * b) = X := by
  have pos' : 0 < 2 * b := by omega
  have product : X * (2 * b) = 2 * X * b := by ring
  have few (m : Nat) (less : m < X) : m * (2 * b) + 2 * b ≤ X * (2 * b) := by
    have := Nat.mul_le_mul_right (2 * b) (show m + 1 ≤ X by omega)
    rwa [Nat.add_mul, Nat.one_mul] at this
  have many (m : Nat) (more : X < m) : X * (2 * b) + 2 * b ≤ m * (2 * b) := by
    have := Nat.mul_le_mul_right (2 * b) (show X + 1 ≤ m by omega)
    rwa [Nat.add_mul, Nat.one_mul] at this
  have only (m : Nat) (lower : ¬ m < X) (upper : ¬ X < m) : m = X := by omega
  rcases rm_cases rm with rfl | rfl | rfl | rfl
  · have near := divRound_nearest (neg := neg) (a := a) pos
    have near' := divRound_nearest (neg := neg) (a := a) pos'
    rw [rounds] at near
    unfold Nearest at near near'
    refine only _ (fun less => ?_) (fun more => ?_)
    · have := few _ less
      omega
    · have := many _ more
      omega
  · have down : Below (divRound 1#2 neg a b) a b := below_div pos
    rw [rounds] at down
    unfold Below at down
    omega
  · rw [divRound_up] at rounds ⊢
    cases neg with
    | true =>
      have down : Below (a / b) a b := below_div pos
      rw [show a / b = 2 * X from rounds] at down
      unfold Below at down
      omega
    | false =>
      have up := above_div (a := a) pos
      have up' := above_div (a := a) pos'
      rw [show (if a % b = 0 then a / b else a / b + 1) = 2 * X from rounds] at up
      unfold Above at up up'
      generalize (if a % (2 * b) = 0 then a / (2 * b) else a / (2 * b) + 1) = m at *
      show m = X
      refine only _ (fun less => ?_) (fun more => ?_)
      · have := few _ less
        omega
      · have := many _ more
        omega
  · rw [divRound_down] at rounds ⊢
    cases neg with
    | false =>
      have down : Below (a / b) a b := below_div pos
      rw [show a / b = 2 * X from rounds] at down
      unfold Below at down
      omega
    | true =>
      have up := above_div (a := a) pos
      have up' := above_div (a := a) pos'
      rw [show (if a % b = 0 then a / b else a / b + 1) = 2 * X from rounds] at up
      unfold Above at up up'
      generalize (if a % (2 * b) = 0 then a / (2 * b) else a / (2 * b) + 1) = m at *
      show m = X
      refine only _ (fun less => ?_) (fun more => ?_)
      · have := few _ less
        omega
      · have := many _ more
        omega

theorem divRound_scaled {k : Nat} (scale : 0 < k) : divRound rm neg (a * k) (b * k) = divRound rm neg a b := by
  unfold divRound
  dsimp only
  rw [Nat.mul_div_mul_right _ _ scale, Nat.mul_mod_mul_right]
  have less : b * k < 2 * (a % b * k) ↔ b < 2 * (a % b) := by
    rw [← Nat.mul_assoc, Nat.mul_lt_mul_right scale]
  have same : b * k = 2 * (a % b * k) ↔ b = 2 * (a % b) := by
    rw [← Nat.mul_assoc, Nat.mul_left_inj scale.ne']
  have rest : a % b * k ≠ 0 ↔ a % b ≠ 0 := by
    rw [Nat.mul_ne_zero_iff]
    exact and_iff_left scale.ne'
  simp only [less, same, rest]

/-- Equal fractions round to one integer. -/
theorem divRound_congr {a' b' : Nat} (pos : 0 < b) (pos' : 0 < b') (same : a * b' = a' * b) : divRound rm neg a b = divRound rm neg a' b' := by
  rw [← divRound_scaled (a := a) pos', same, ← divRound_scaled (a := a') (b := b') pos, Nat.mul_comm b b']

end

end Sys2Proof.Machine

namespace Sys2Proof.Machine
open Sys2Proof.Claims

/-! A value rounded to a binary format (R40, R41). -/

section
variable {f : Flt} {q : Q} {rm : BitVec 2}

/-- A number with a sign. -/
def withSign (neg : Bool) (n : Nat) : ℤ := if neg then -(n : ℤ) else n

theorem withSign_abs (neg : Bool) (n : Nat) : |withSign neg n| = n := by
  cases neg <;> simp [withSign]

theorem withSign_cast (neg : Bool) (n : Nat) : ((withSign neg n : ℤ) : ℚ) = signOf neg * n := by
  cases neg <;> simp [withSign, signOf]

theorem signOf_abs (neg : Bool) : |signOf neg| = 1 := by cases neg <;> simp [signOf]

theorem signOf_mul_self (neg : Bool) : signOf neg * signOf neg = 1 := by cases neg <;> norm_num [signOf]

/-- A magnitude rounded in units of a power of two, with its sign. -/
theorem divRound_roundsInt {a b : Nat} (ha : 0 < a) (hb : 0 < b) (neg : Bool) :
    RoundsInt rm (signOf neg * (a / b)) (withSign neg (divRound rm neg a b)) := by
  have rounds := Q.round_rounds rm (q := ⟨withSign neg a, b⟩) hb
  have sign : (Q.mk (withSign neg a) b).isNeg = neg := by
    cases neg <;> simp [Q.isNeg, withSign, ha]
  have abs : (withSign neg a).natAbs = a := by cases neg <;> simp [withSign]
  have value : (Q.mk (withSign neg a) b).value = signOf neg * (a / b) := by
    rw [Q.value, withSign_cast, mul_div_assoc]
  rw [value, Q.round, sign, abs] at rounds
  exact rounds

/-- The largest exponent's pattern, counted by the bias. -/
theorem Flt.top_eq (wide : 1 ≤ f.eb) : 2 ^ f.eb - 1 = 2 * f.bias + 1 := by
  obtain ⟨k, eq⟩ : ∃ k, f.eb = k + 1 := ⟨f.eb - 1, by omega⟩
  have one : 1 ≤ 2 ^ k := Nat.one_le_two_pow
  rw [Flt.bias, eq, Nat.add_sub_cancel, Nat.pow_succ]
  omega

/-- How a value that is not 0 is rounded: in units of its binade, or of the subnormal numbers. -/
structure RoundedIn (f : Flt) (rm : BitVec 2) (q : Q) (e : ℤ) (n : Nat) (inexact tiny : Bool) : Prop where
  low : (2 : ℚ) ^ e ≤ |q.value|
  high : |q.value| < 2 ^ (e + 1)
  rounds : RoundsInt rm (q.value / 2 ^ (Max.max e f.emin - f.fb)) (withSign q.isNeg n)
  most : n ≤ 2 ^ (f.fb + 1)
  normal : f.emin ≤ e → 2 ^ f.fb ≤ n ∧ tiny = false
  small : e < f.emin → n ≤ 2 ^ f.fb
  subnormal : n < 2 ^ f.fb → tiny = true
  inexact_iff : inexact = true ↔ withSign q.isNeg n * (2 : ℚ) ^ (Max.max e f.emin - f.fb) ≠ q.value

/-- Whether a value that overflows in a mode is infinite, or the greatest finite one. -/
def toInfinity (rm : BitVec 2) (neg : Bool) : Bool :=
  match rm.toNat with
  | 0 => true
  | 1 => false
  | 2 => !neg
  | _ => neg

/-- The biased exponent of a rounded value. -/
def Flt.biased (f : Flt) (e : ℤ) (n : Nat) : Nat := (Max.max e f.emin + f.bias).toNat + (if n = 2 ^ (f.fb + 1) then 1 else 0)

theorem Q.value_abs (q : Q) : |q.value| = (q.num.natAbs : ℚ) / q.den := by
  rw [Q.value, abs_div, Nat.abs_cast, Nat.cast_natAbs, Int.cast_abs]

theorem Q.value_signOf (q : Q) : q.value = signOf q.isNeg * |q.value| := by
  rw [Q.value_abs]
  exact q.value_sign

theorem roundedIn_of_fractions {e : ℤ} {a0 b0 a1 b1 : Nat} (away : q.value ≠ 0) (low : (2 : ℚ) ^ e ≤ |q.value|) (high : |q.value| < 2 ^ (e + 1))
    (finePos : 0 < b0) (fine : (a0 : ℚ) / b0 = |q.value| / 2 ^ (e - f.fb))
    (coarsePos : 0 < b1) (coarse : (a1 : ℚ) / b1 = |q.value| / 2 ^ (Max.max e f.emin - f.fb)) :
    RoundedIn f rm q e (divRound rm q.isNeg a1 b1) (decide (divRound rm q.isNeg a1 b1 * b1 ≠ a1))
      (decide (e < f.emin) && !(decide (e = f.emin - 1) && decide (divRound rm q.isNeg a0 b0 = 2 ^ (f.fb + 1)))) := by
  have b0Pos : (0 : ℚ) < b0 := by exact_mod_cast finePos
  have b1Pos : (0 : ℚ) < b1 := by exact_mod_cast coarsePos
  have upTo (k : ℤ) : |q.value| / 2 ^ (k - f.fb) < 2 ^ (e + 1 - k + f.fb) := by
    rw [div_lt_iff₀ (by positivity), ← zpow_add₀ two_ne_zero]
    calc |q.value| < 2 ^ (e + 1) := high
      _ = _ := by congr 1; ring
  have downTo (k : ℤ) : (2 : ℚ) ^ (e - k + f.fb) ≤ |q.value| / 2 ^ (k - f.fb) := by
    rw [le_div_iff₀ (by positivity), ← zpow_add₀ two_ne_zero]
    calc _ = (2 : ℚ) ^ e := by congr 1; ring
      _ ≤ |q.value| := low
  have fineBelow : a0 < 2 ^ (f.fb + 1) * b0 := by
    have := upTo e
    rw [← fine, show e + 1 - e + (f.fb : ℤ) = ((f.fb + 1 : ℕ) : ℤ) by push_cast; ring, zpow_natCast, div_lt_iff₀ b0Pos] at this
    exact_mod_cast this
  have numPos : 0 < a1 := by
    have : (0 : ℚ) < a1 / b1 := by rw [coarse]; positivity
    rw [lt_div_iff₀ b1Pos, zero_mul] at this
    exact_mod_cast this
  have atMost (k : ℕ) (fits : e + 1 - Max.max e f.emin + f.fb ≤ k) : a1 ≤ 2 ^ k * b1 := by
    have := (upTo (Max.max e f.emin)).le.trans (zpow_le_zpow_right₀ one_le_two fits)
    rw [← coarse, zpow_natCast, div_le_iff₀ b1Pos] at this
    exact_mod_cast this
  have full (normal : f.emin ≤ e) : 2 ^ f.fb ≤ divRound rm q.isNeg a1 b1 := by
    have := downTo e
    rw [sub_self, zero_add, zpow_natCast, show e - (f.fb : ℤ) = Max.max e f.emin - f.fb by omega, ← coarse, le_div_iff₀ b1Pos] at this
    exact le_divRound coarsePos (by exact_mod_cast this)
  refine ⟨low, high, ?_, divRound_le coarsePos (atMost _ (by push_cast; omega)), fun normal => ⟨?_, ?_⟩,
    fun small => divRound_le coarsePos (atMost _ (by omega)), fun few => ?_, ?_⟩
  · have rounds := divRound_roundsInt (rm := rm) numPos coarsePos q.isNeg
    rwa [coarse, ← mul_div_assoc, ← q.value_signOf] at rounds
  · exact full normal
  · rw [decide_eq_false (by omega), Bool.false_and]
  · have tiny : e < f.emin := by
      by_contra normal
      exact absurd (full (not_lt.mp normal)) (not_le.mpr few)
    rw [decide_eq_true tiny, Bool.true_and, Bool.not_eq_true', Bool.and_eq_false_iff, or_iff_not_imp_left, Bool.not_eq_false, decide_eq_true_eq,
      decide_eq_false_iff_not]
    intro next fills
    have half : divRound rm q.isNeg a0 (2 * b0) = 2 ^ f.fb :=
      divRound_half finePos (by rw [Nat.pow_succ, Nat.mul_comm _ 2] at fineBelow; exact fineBelow) (by rw [fills, Nat.pow_succ, Nat.mul_comm])
    have same : a1 * (2 * b0) = a0 * b1 := by
      have exponent : (2 : ℚ) ^ (Max.max e f.emin - f.fb) = 2 * 2 ^ (e - f.fb) := by
        rw [show Max.max e f.emin - (f.fb : ℤ) = 1 + (e - f.fb) by omega, zpow_add₀ two_ne_zero, zpow_one]
      have : (a1 : ℚ) / b1 = a0 / (2 * b0) := by
        rw [coarse, exponent, mul_comm (2 : ℚ), ← div_div, ← fine, div_div, mul_comm (2 : ℚ)]
      rw [div_eq_div_iff b1Pos.ne' (by positivity)] at this
      exact_mod_cast this
    rw [divRound_congr coarsePos (Nat.mul_pos two_pos finePos) same, half] at few
    exact lt_irrefl _ few
  · have unitPos : (0 : ℚ) < 2 ^ (Max.max e f.emin - f.fb) := by positivity
    rw [decide_eq_true_eq, ne_eq, ne_eq, not_iff_not, withSign_cast]
    rw [div_eq_div_iff b1Pos.ne' unitPos.ne'] at coarse
    generalize divRound rm q.isNeg a1 b1 = n
    generalize (2 : ℚ) ^ (Max.max e f.emin - f.fb) = unit at *
    rw [q.value_signOf, mul_assoc]
    have cancel : signOf q.isNeg * (n * unit) = signOf q.isNeg * |q.value| ↔ (n : ℚ) * unit = |q.value| :=
      mul_right_inj' fun zero => by have := signOf_mul_self q.isNeg; rw [zero, zero_mul] at this; exact zero_ne_one this
    rw [cancel]
    constructor
    · intro eq
      have eq' : (n : ℚ) * b1 = a1 := by exact_mod_cast eq
      apply mul_right_cancel₀ b1Pos.ne'
      rw [← coarse, ← eq']
      ring
    · intro eq
      have : (a1 : ℚ) * unit = n * b1 * unit := by rw [coarse, ← eq]; ring
      exact_mod_cast (mul_right_cancel₀ unitPos.ne' this).symm

theorem Flt.round_parts (pos : 0 < q.den) (away : q.value ≠ 0) (fz z : Bool) : ∃ e n inexact tiny, RoundedIn f rm q e n inexact tiny ∧
    f.round rm fz q z =
      if 2 ^ f.fb ≤ n then
        if 2 ^ f.eb - 1 ≤ f.biased e n then
          ((if toInfinity rm q.isNeg then f.inf q.isNeg else f.max q.isNeg), OF ||| NX)
        else (packed f.eb f.fb q.isNeg.toNat (f.biased e n) (n % 2 ^ f.fb), flIf inexact NX ||| flIf (tiny && inexact) UF)
      else if fz then (f.zero q.isNeg, UF ||| NX)
      else (packed f.eb f.fb q.isNeg.toNat 0 n, flIf inexact NX ||| flIf (tiny && inexact) UF) := by
  have numPos : 0 < q.num.natAbs := Int.natAbs_pos.mpr fun zero => away (by rw [Q.value, zero, Int.cast_zero, zero_div])
  have notZero : q.isZero = false := by
    rw [← Bool.not_eq_true, Q.isZero_iff pos]
    exact away
  obtain ⟨low, high⟩ := ilog2_spec numPos pos
  rw [← q.value_abs] at low high
  have zeroEq : f.zero q.isNeg = q.isNeg.toNat * 2 ^ (f.eb + f.fb) := by
    cases q.isNeg <;> simp [Flt.zero]
  unfold Flt.round
  dsimp only
  rw [notZero, if_neg Bool.false_ne_true]
  generalize ilog2 q.num.natAbs q.den = e at low high ⊢
  have unit : (if e - f.fb < f.emin - f.fb then f.emin - f.fb else e - f.fb) = Max.max e f.emin - (f.fb : ℤ) := by
    split <;> omega
  obtain ⟨finePos, fine⟩ := shiftFrac_spec (a := q.num.natAbs) pos (e - f.fb)
  obtain ⟨coarsePos, coarse⟩ := shiftFrac_spec (a := q.num.natAbs) pos (Max.max e f.emin - f.fb)
  rw [← q.value_abs] at fine coarse
  rw [unit, sub_add_cancel]
  generalize (shiftFrac q.num.natAbs q.den (e - f.fb)).1 = a0 at fine ⊢
  generalize (shiftFrac q.num.natAbs q.den (e - f.fb)).2 = b0 at finePos fine ⊢
  generalize (shiftFrac q.num.natAbs q.den (Max.max e f.emin - f.fb)).1 = a1 at coarse ⊢
  generalize (shiftFrac q.num.natAbs q.den (Max.max e f.emin - f.fb)).2 = b1 at coarsePos coarse ⊢
  refine ⟨e, divRound rm q.isNeg a1 b1, _, _, roundedIn_of_fractions (rm := rm) away low high finePos fine coarsePos coarse, ?_⟩
  rw [zeroEq]
  unfold packed Flt.biased
  rw [Nat.zero_mul, Nat.add_zero]
  rfl
end
end Sys2Proof.Machine

namespace Sys2Proof.Machine
open Sys2Proof.Claims

/-! The pattern that a rounded value is delivered as (R40, R41). -/

section
variable {f : Flt} {q : Q} {rm : BitVec 2} {e : ℤ} {n : Nat} {inexact tiny : Bool}

/-- The unit in which a value of a binade is rounded. -/
def Flt.unit (f : Flt) (e : ℤ) : ℚ := 2 ^ (Max.max e f.emin - f.fb)

theorem Flt.unit_pos (f : Flt) (e : ℤ) : 0 < f.unit e := by
  unfold Flt.unit
  positivity

theorem Flt.two_pow_unit (f : Flt) (e : ℤ) (k : Nat) : (2 : ℚ) ^ (f.fb + k) * f.unit e = 2 ^ (Max.max e f.emin + k) := by
  rw [Flt.unit, ← zpow_natCast, ← zpow_add₀ two_ne_zero]
  congr 1
  push_cast
  ring

theorem Flt.full_iff (e : ℤ) (n : Nat) : 2 ^ f.fb ≤ n ↔ (2 : ℚ) ^ Max.max e f.emin ≤ n * f.unit e := by
  have whole := f.two_pow_unit e 0
  rw [Nat.cast_zero, add_zero, add_zero] at whole
  rw [← whole, mul_le_mul_iff_left₀ (f.unit_pos e)]
  exact_mod_cast Iff.rfl

theorem Flt.carry_iff (e : ℤ) (n : Nat) : 2 ^ (f.fb + 1) ≤ n ↔ (2 : ℚ) ^ (Max.max e f.emin + 1) ≤ n * f.unit e := by
  have whole := f.two_pow_unit e 1
  rw [Nat.cast_one] at whole
  rw [← whole, mul_le_mul_iff_left₀ (f.unit_pos e)]
  exact_mod_cast Iff.rfl

/-- The biased exponent is that of the rounded value. -/
theorem Flt.biased_bounds (most : n ≤ 2 ^ (f.fb + 1)) (full : 2 ^ f.fb ≤ n) :
    (2 : ℚ) ^ ((f.biased e n : ℤ) - f.bias) ≤ n * f.unit e ∧ (n : ℚ) * f.unit e < 2 ^ ((f.biased e n : ℤ) - f.bias + 1) := by
  have top : ((Max.max e f.emin + f.bias).toNat : ℤ) = Max.max e f.emin + f.bias := Int.toNat_of_nonneg (by unfold Flt.emin; omega)
  unfold Flt.biased
  split
  · next carry =>
    push_cast
    rw [top, show Max.max e f.emin + (f.bias : ℤ) + 1 - f.bias = Max.max e f.emin + 1 by ring]
    refine ⟨(Flt.carry_iff e n).mp carry.ge, ?_⟩
    have whole := f.two_pow_unit e 1
    rw [Nat.cast_one] at whole
    rw [carry]
    push_cast
    rw [whole]
    exact zpow_lt_zpow_right₀ one_lt_two (by omega)
  · next same =>
    push_cast
    rw [top, add_zero, add_sub_cancel_right]
    exact ⟨(Flt.full_iff e n).mp full, lt_of_not_ge fun h => same (le_antisymm most ((Flt.carry_iff e n).mpr h))⟩

/-- A value overflows where its exponent is beyond the greatest. -/
theorem Flt.overflow_iff (wide : 1 ≤ f.eb) (most : n ≤ 2 ^ (f.fb + 1)) (full : 2 ^ f.fb ≤ n) :
    2 ^ f.eb - 1 ≤ f.biased e n ↔ (2 : ℚ) ^ ((f.bias : ℤ) + 1) ≤ n * f.unit e := by
  obtain ⟨low, high⟩ := Flt.biased_bounds (e := e) most full
  rw [f.top_eq wide]
  constructor
  · intro beyond
    exact (zpow_le_zpow_right₀ one_le_two (by omega)).trans low
  · intro beyond
    have := (zpow_lt_zpow_iff_right₀ (one_lt_two : (1 : ℚ) < 2)).mp (beyond.trans_lt high)
    omega

theorem Flt.least_le (full : 2 ^ f.fb ≤ n) : (2 : ℚ) ^ f.emin ≤ n * f.unit e :=
  (zpow_le_zpow_right₀ one_le_two (le_max_right _ _)).trans ((Flt.full_iff e n).mp full)

theorem Flt.lt_least (binade : f.emin ≤ e → 2 ^ f.fb ≤ n) (few : n < 2 ^ f.fb) : (n : ℚ) * f.unit e < 2 ^ f.emin := by
  have small : e < f.emin := lt_of_not_ge fun normal => absurd (binade normal) (not_le.mpr few)
  have := lt_of_not_ge fun h => absurd ((Flt.full_iff (f := f) e n).mpr h) (not_le.mpr few)
  rwa [max_eq_right small.le] at this

/-- The pattern of a normal number has the rounded value. -/
theorem Flt.fval_normal (neg : Bool) (most : n ≤ 2 ^ (f.fb + 1)) (full : 2 ^ f.fb ≤ n) (fits : f.biased e n < 2 ^ f.eb - 1) (fz : Bool) :
    fval f.eb f.fb fz (packed f.eb f.fb neg.toNat (f.biased e n) (n % 2 ^ f.fb)) = signOf neg * (n * f.unit e) := by
  have top : ((Max.max e f.emin + f.bias).toNat : ℤ) = Max.max e f.emin + f.bias := Int.toNat_of_nonneg (by unfold Flt.emin; omega)
  have positive : f.biased e n ≠ 0 := by
    unfold Flt.biased
    unfold Flt.emin at top ⊢
    omega
  rw [fval_packed _ _ (by omega) (Nat.mod_lt _ (Nat.two_pow_pos _)), if_neg positive, ← f.bias_eq]
  congr 1
  unfold Flt.biased Flt.unit
  split
  · next carry =>
    rw [carry, Nat.pow_succ, Nat.mul_mod_right]
    push_cast
    rw [top, show Max.max e f.emin + (f.bias : ℤ) + 1 - f.bias - f.fb = Max.max e f.emin - f.fb + 1 by ring, zpow_add₀ two_ne_zero]
    ring
  · next same =>
    have frac : n % 2 ^ f.fb + 2 ^ f.fb = n := by
      rw [Nat.pow_succ] at most same
      rw [Nat.mod_eq_sub_mod full, Nat.mod_eq_of_lt (by omega)]
      omega
    have frac' : ((n % 2 ^ f.fb : ℕ) : ℚ) + 2 ^ f.fb = n := by exact_mod_cast frac
    rw [frac', Nat.add_zero, top, add_sub_cancel_right]

theorem Flt.fval_subnormal (neg : Bool) (few : n < 2 ^ f.fb) (small : e < f.emin) :
    fval f.eb f.fb false (packed f.eb f.fb neg.toNat 0 n) = signOf neg * (n * f.unit e) := by
  rw [fval_packed _ _ (Nat.two_pow_pos _) few, if_pos rfl, ← f.bias_eq, Flt.unit, max_eq_right small.le]
  rfl

end

/-! The flags of a rounded value. -/

section
variable (inexact tiny : Bool)

/-- The flags of a result that does not overflow. -/
def roundFlags : Fl := flIf inexact NX ||| flIf (tiny && inexact) UF

theorem roundFlags_only : roundFlags inexact tiny &&& ~~~(NX ||| UF) = 0#8 := by revert inexact tiny; decide
theorem roundFlags_inexact : roundFlags inexact tiny &&& NX = NX ↔ inexact = true := by revert inexact tiny; decide
theorem roundFlags_tiny : inexact = true → tiny = true → roundFlags inexact tiny &&& UF = UF := by revert inexact tiny; decide
theorem roundFlags_normal : tiny = false → roundFlags inexact tiny &&& UF = 0#8 := by revert inexact tiny; decide
theorem roundFlags_exact : roundFlags false tiny = 0#8 := by revert tiny; decide

end

section
variable {f : Flt} {q : Q} {rm : BitVec 2} {e : ℤ} {n : Nat} {inexact tiny : Bool}

theorem infinity_eq (f : Flt) (neg : Bool) (p : Prop) [Decidable p] (iff_ : neg = true ↔ p) : infinity f.eb f.fb p = f.inf neg := by
  unfold infinity signBit Flt.inf
  simp only [iff_]

theorem signBit_eq (f : Flt) (neg : Bool) (p : Prop) [Decidable p] (iff_ : neg = true ↔ p) : signBit f.eb f.fb p = f.zero neg := by
  unfold signBit Flt.zero
  simp only [iff_]

theorem Flt.max_eq (f : Flt) (neg : Bool) : f.max neg = f.inf neg - 1 := rfl

/-- Which values that overflow are infinite (R40). -/
theorem toInf_iff (rm : BitVec 2) (neg : Bool) (v : ℚ) (away : v ≠ 0) (sign : neg = true ↔ v < 0) :
    toInfinity rm neg = true ↔ rm = 0#2 ∨ (rm = 2#2 ∧ 0 < v) ∨ (rm = 3#2 ∧ v < 0) := by
  have positive : neg = false ↔ 0 < v := by
    rw [← Bool.not_eq_true, sign, not_lt]
    exact ⟨fun h => lt_of_le_of_ne h away.symm, le_of_lt⟩
  rcases rm_cases rm with rfl | rfl | rfl | rfl
  · simp [toInfinity]
  · simp [toInfinity]
  · simp [toInfinity, positive]
  · simp [toInfinity, sign]

theorem packed_neg_iff {eb fb E M : Nat} (neg : Bool) (hE : E < 2 ^ eb) (hM : M < 2 ^ fb) :
    packed eb fb neg.toNat E M / 2 ^ (eb + fb) = 1 ↔ neg = true := by
  rw [packed_sign hE hM]
  cases neg <;> decide

theorem packed_fin {eb fb s E M : Nat} (hE : E < 2 ^ eb - 1) (hM : M < 2 ^ fb) : fin eb fb (packed eb fb s E M) := by
  unfold fin
  rw [packed_exp (by omega) hM]
  omega

end

/-- What a finite pattern that a value is rounded to has. -/
structure Flt.Delivers (f : Flt) (neg : Bool) (r : ℚ) (y : Nat) : Prop where
  finite : fin f.eb f.fb y
  fits : y < 2 ^ (f.eb + f.fb + 1)
  value : fval f.eb f.fb false y = signOf neg * r
  sign : y / 2 ^ (f.eb + f.fb) = 1 ↔ neg = true

section
variable {f : Flt} {q : Q} {rm : BitVec 2} {e : ℤ} {n : Nat} {inexact tiny : Bool}

theorem Flt.delivers_normal (neg : Bool) (most : n ≤ 2 ^ (f.fb + 1)) (full : 2 ^ f.fb ≤ n) (fits : f.biased e n < 2 ^ f.eb - 1) :
    f.Delivers neg (n * f.unit e) (packed f.eb f.fb neg.toNat (f.biased e n) (n % 2 ^ f.fb)) :=
  have frac := Nat.mod_lt n (Nat.two_pow_pos f.fb)
  ⟨packed_fin fits frac, packed_lt (by omega) frac neg.toNat_lt, Flt.fval_normal neg most full fits false, packed_neg_iff neg (by omega) frac⟩

theorem Flt.delivers_subnormal (neg : Bool) (wide : 1 ≤ f.eb) (few : n < 2 ^ f.fb) (small : e < f.emin) :
    f.Delivers neg (n * f.unit e) (packed f.eb f.fb neg.toNat 0 n) :=
  ⟨packed_fin (by have := f.top_eq wide; omega) few, packed_lt (Nat.two_pow_pos _) few neg.toNat_lt, Flt.fval_subnormal neg few small,
    packed_neg_iff neg (Nat.two_pow_pos _) few⟩

/-- A finite result as the claims put it. -/
theorem RoundedIn.finite_clauses {y : Nat} (parts : RoundedIn f rm q e n inexact tiny) (sign : q.isNeg = true ↔ q.value < 0)
    (gives : f.Delivers q.isNeg (n * f.unit e) y) (few : (n : ℚ) * f.unit e < 2 ^ f.emin → n < 2 ^ f.fb) :
    fin f.eb f.fb y ∧ y < 2 ^ (f.eb + f.fb + 1) ∧ fval f.eb f.fb false y = withSign q.isNeg n * f.unit e ∧
      (y / 2 ^ (f.eb + f.fb) = 1 ↔ q.value < 0) ∧ roundFlags inexact tiny &&& ~~~(NX ||| UF) = 0#8 ∧
      (roundFlags inexact tiny &&& NX = NX ↔ withSign q.isNeg n * f.unit e ≠ q.value) ∧
      ((n : ℚ) * f.unit e < 2 ^ f.emin → withSign q.isNeg n * f.unit e ≠ q.value → roundFlags inexact tiny &&& UF = UF) ∧
      ((2 : ℚ) ^ f.emin ≤ |q.value| → roundFlags inexact tiny &&& UF = 0#8) := by
  refine ⟨gives.finite, gives.fits, ?_, gives.sign.trans sign, roundFlags_only _ _, (roundFlags_inexact _ _).trans parts.inexact_iff,
    fun less differs => roundFlags_tiny _ _ (parts.inexact_iff.mpr differs) (parts.subnormal (few less)),
    fun normal => roundFlags_normal _ _ (parts.normal ?_).2⟩
  · rw [gives.value, withSign_cast, mul_assoc]
  · have := (zpow_lt_zpow_iff_right₀ (one_lt_two : (1 : ℚ) < 2)).mp (normal.trans_lt parts.high)
    omega

/-- A value that is not 0 is rounded once to a binary format (R40, R41). -/
theorem Flt.round_roundsTo (wide : 1 ≤ f.eb) (pos : 0 < q.den) (away : q.value ≠ 0) (rm : BitVec 2) (fz z : Bool) :
    RoundsTo f.eb f.fb rm fz q.value (f.round rm fz q z).1 (f.round rm fz q z).2 := by
  obtain ⟨e, n, inexact, tiny, parts, eq⟩ := Flt.round_parts (f := f) (rm := rm) pos away fz z
  have sign := Q.isNeg_iff pos
  refine ⟨e, withSign q.isNeg n, ?_⟩
  dsimp only
  rw [← f.bias_eq, show (1 : ℤ) - f.bias = f.emin from rfl, ← show f.unit e = 2 ^ (Max.max e f.emin - f.fb) from rfl]
  have size : |(withSign q.isNeg n : ℚ) * f.unit e| = n * f.unit e := by
    rw [withSign_cast, abs_mul, abs_mul, signOf_abs, one_mul, Nat.abs_cast, abs_of_pos (f.unit_pos e)]
  rw [size]
  have few (less : (n : ℚ) * f.unit e < 2 ^ f.emin) : n < 2 ^ f.fb := lt_of_not_ge fun full => absurd (Flt.least_le full) (not_le.mpr less)
  refine ⟨parts.low, parts.high, parts.rounds, ?_⟩
  by_cases full : 2 ^ f.fb ≤ n
  · rw [if_pos full] at eq
    have least := Flt.least_le (e := e) full
    by_cases beyond : 2 ^ f.eb - 1 ≤ f.biased e n
    · rw [if_pos beyond] at eq
      have large := (Flt.overflow_iff wide parts.most full).mp beyond
      refine ⟨fun _ => ?_, fun less => absurd least (not_le.mpr less), fun less => absurd large (not_le.mpr less)⟩
      rw [eq, infinity_eq f q.isNeg _ sign]
      refine ⟨rfl, ?_⟩
      dsimp only
      have inf := toInf_iff rm q.isNeg q.value away sign
      by_cases toInf : toInfinity rm q.isNeg = true
      · rw [if_pos toInf, if_pos (inf.mp toInf), Nat.sub_zero]
      · rw [if_neg toInf, if_neg fun h => toInf (inf.mpr h), Flt.max_eq]
    · rw [if_neg beyond] at eq
      refine ⟨fun large => absurd ((Flt.overflow_iff wide parts.most full).mpr large) beyond, fun less => absurd least (not_le.mpr less), fun _ _ => ?_⟩
      rw [eq]
      exact parts.finite_clauses sign (Flt.delivers_normal _ parts.most full (by omega)) few
  · rw [if_neg full] at eq
    have less := Flt.lt_least (fun normal => (parts.normal normal).1) (not_le.mp full)
    have small : e < f.emin := lt_of_not_ge fun normal => full (parts.normal normal).1
    refine ⟨fun large => absurd large (not_le.mpr (less.trans_le (zpow_le_zpow_right₀ one_le_two (by unfold Flt.emin; omega)))), fun _ flush => ?_,
      fun _ kept => ?_⟩
    · rw [eq, if_pos flush, signBit_eq f q.isNeg _ sign]
      exact ⟨rfl, rfl⟩
    · have noFlush : fz = false := kept.resolve_left (not_le.mpr less)
      rw [eq, noFlush, if_neg Bool.false_ne_true]
      exact parts.finite_clauses sign (Flt.delivers_subnormal _ wide (not_le.mp full) small) few

/-- A zero keeps the sign that it is given. -/
theorem Flt.round_zero (pos : 0 < q.den) (zero : q.value = 0) (rm : BitVec 2) (fz z : Bool) : f.round rm fz q z = (f.zero z, 0#8) := by
  unfold Flt.round
  rw [(Q.isZero_iff pos).mpr zero, if_pos rfl]

/-- An integer is rounded to itself in every mode. -/
theorem roundsInt_integer {k m : ℤ} (rounds : RoundsInt rm (k : ℚ) m) : m = k := by
  obtain ⟨nearest, toZero, up, down⟩ := rounds
  rcases rm_cases rm with rfl | rfl | rfl | rfl
  · exact roundsInt_unique ⟨fun _ => nearest rfl, nofun, nofun, nofun⟩ ⟨fun _ => by simp, nofun, nofun, nofun⟩
  · obtain ⟨low, high, neg, positive⟩ := toZero rfl
    have low' : |m| ≤ |k| := by exact_mod_cast low
    have high' : |k| < |m| + 1 := by exact_mod_cast high
    have neg' : m < 0 → k < 0 := fun h => by exact_mod_cast neg h
    have positive' : 0 < m → 0 < k := fun h => by exact_mod_cast positive h
    rcases abs_cases m with h | h <;> rcases abs_cases k with h' | h' <;> omega
  · obtain ⟨low, high⟩ := up rfl
    have low' : k ≤ m := by exact_mod_cast low
    have high' : m < k + 1 := by exact_mod_cast high
    omega
  · obtain ⟨low, high⟩ := down rfl
    have low' : m ≤ k := by exact_mod_cast low
    have high' : k < m + 1 := by exact_mod_cast high
    omega

/-- A value that is a whole number of units is rounded to itself. -/
theorem RoundedIn.exact_ (parts : RoundedIn f rm q e n inexact tiny) {k : Nat} {j : ℤ} (value : |q.value| = k * 2 ^ j) (short : k < 2 ^ (f.fb + 1))
    (fine : f.emin - f.fb ≤ j) : n * f.unit e = |q.value| ∧ inexact = false := by
  have unitLe : Max.max e f.emin - f.fb ≤ j := by
    have shortQ : (k : ℚ) < 2 ^ (f.fb + 1) := by exact_mod_cast short
    have : (2 : ℚ) ^ e < 2 ^ ((f.fb : ℤ) + 1 + j) := by
      calc (2 : ℚ) ^ e ≤ |q.value| := parts.low
        _ = k * 2 ^ j := value
        _ < 2 ^ (f.fb + 1) * 2 ^ j := by gcongr
        _ = _ := by rw [zpow_add₀ two_ne_zero, ← zpow_natCast]; rfl
    have := (zpow_lt_zpow_iff_right₀ (one_lt_two : (1 : ℚ) < 2)).mp this
    omega
  obtain ⟨c, hc⟩ : ∃ c : ℕ, j = c + (Max.max e f.emin - f.fb) := ⟨(j - (Max.max e f.emin - f.fb)).toNat, by omega⟩
  have size : |q.value| = ((k * 2 ^ c : ℕ) : ℚ) * f.unit e := by
    rw [value, hc, zpow_add₀ two_ne_zero, zpow_natCast, Flt.unit]
    push_cast
    ring
  have count : withSign q.isNeg n = withSign q.isNeg (k * 2 ^ c) := by
    apply roundsInt_integer (rm := rm)
    have rounds := parts.rounds
    rw [show (2 : ℚ) ^ (Max.max e f.emin - f.fb) = f.unit e from rfl, q.value_signOf, size, ← mul_assoc,
      mul_div_cancel_right₀ _ (f.unit_pos e).ne', ← withSign_cast] at rounds
    exact rounds
  have same : n = k * 2 ^ c := by
    have := congrArg abs count
    rw [withSign_abs, withSign_abs] at this
    exact_mod_cast this
  refine ⟨by rw [size, same], ?_⟩
  rw [← Bool.not_eq_true, parts.inexact_iff, not_not, withSign_cast, same, mul_assoc, show (2 : ℚ) ^ (Max.max e f.emin - f.fb) = f.unit e from rfl, ← size, ← q.value_signOf]

/-- A value that the format has is delivered as it is. -/
theorem Flt.round_exact (wide : 1 ≤ f.eb) (pos : 0 < q.den) (away : q.value ≠ 0) (rm : BitVec 2) (fz z : Bool) {k : Nat} {j : ℤ}
    (value : |q.value| = k * 2 ^ j) (short : k < 2 ^ (f.fb + 1)) (fine : f.emin - f.fb ≤ j) (fits : |q.value| < 2 ^ ((f.bias : ℤ) + 1))
    (normal : fz = false ∨ (2 : ℚ) ^ f.emin ≤ |q.value|) :
    f.Delivers q.isNeg |q.value| (f.round rm fz q z).1 ∧ (f.round rm fz q z).2 = 0#8 := by
  obtain ⟨e, n, inexact, tiny, parts, eq⟩ := Flt.round_parts (f := f) (rm := rm) pos away fz z
  obtain ⟨same, noFlag⟩ := parts.exact_ value short fine
  have noFlags : flIf inexact NX ||| flIf (tiny && inexact) UF = 0#8 := by
    rw [noFlag]
    exact roundFlags_exact tiny
  rw [noFlags] at eq
  rw [← same] at fits normal ⊢
  by_cases full : 2 ^ f.fb ≤ n
  · have inRange : ¬ 2 ^ f.eb - 1 ≤ f.biased e n := fun beyond => absurd ((Flt.overflow_iff wide parts.most full).mp beyond) (not_le.mpr fits)
    rw [if_pos full, if_neg inRange] at eq
    rw [eq]
    exact ⟨Flt.delivers_normal _ parts.most full (by omega), rfl⟩
  · have small : e < f.emin := lt_of_not_ge fun normal => full (parts.normal normal).1
    have less := Flt.lt_least (fun normal => (parts.normal normal).1) (not_le.mp full)
    have noFlush : fz = false := normal.resolve_right (not_le.mpr less)
    rw [if_neg full, noFlush, if_neg Bool.false_ne_true] at eq
    rw [noFlush, eq]
    exact ⟨Flt.delivers_subnormal _ wide (not_le.mp full) small, rfl⟩

end

end Sys2Proof.Machine

namespace Sys2Proof.Machine
open Sys2Proof.Claims

/-! Patterns as the values that they have (R39). -/

section
variable {f : Flt} {E M : Nat}

/-- The magnitude of an exponent and a fraction. -/
def Flt.magnitude (f : Flt) (E M : Nat) : ℚ :=
  if E = 0 then (M : ℚ) * 2 ^ (f.emin - f.fb) else ((M : ℚ) + 2 ^ f.fb) * 2 ^ ((E : ℤ) - f.bias - f.fb)

theorem Flt.fval_eq (neg : Bool) (hE : E < 2 ^ f.eb) (hM : M < 2 ^ f.fb) :
    fval f.eb f.fb false (packed f.eb f.fb neg.toNat E M) = signOf neg * f.magnitude E M := by
  rw [fval_packed _ _ hE hM, ← f.bias_eq]
  rfl

theorem Flt.magnitude_subnormal (hM : M < 2 ^ f.fb) : f.magnitude 0 M < 2 ^ f.emin := by
  have hM' : (M : ℚ) < 2 ^ f.fb := by exact_mod_cast hM
  rw [Flt.magnitude, if_pos rfl]
  calc (M : ℚ) * 2 ^ (f.emin - f.fb) < 2 ^ f.fb * 2 ^ (f.emin - f.fb) := by gcongr
    _ = 2 ^ f.emin := by rw [← zpow_natCast, ← zpow_add₀ two_ne_zero]; congr 1; ring

theorem Flt.magnitude_normal (away : E ≠ 0) (hM : M < 2 ^ f.fb) :
    (2 : ℚ) ^ ((E : ℤ) - f.bias) ≤ f.magnitude E M ∧ f.magnitude E M < 2 ^ ((E : ℤ) - f.bias + 1) := by
  have hM' : (M : ℚ) < 2 ^ f.fb := by exact_mod_cast hM
  have scale (k : ℕ) : (2 : ℚ) ^ (f.fb + k) * 2 ^ ((E : ℤ) - f.bias - f.fb) = 2 ^ ((E : ℤ) - f.bias + k) := by
    rw [← zpow_natCast, ← zpow_add₀ two_ne_zero]
    congr 1
    push_cast
    ring
  rw [Flt.magnitude, if_neg away]
  constructor
  · have whole := scale 0
    rw [Nat.cast_zero, add_zero, add_zero] at whole
    rw [← whole]
    gcongr
    exact le_add_of_nonneg_left (Nat.cast_nonneg M)
  · have whole := scale 1
    rw [Nat.cast_one] at whole
    rw [← whole, pow_succ]
    gcongr
    linarith

theorem Flt.magnitude_nonneg (f : Flt) (E M : Nat) : 0 ≤ f.magnitude E M := by
  unfold Flt.magnitude
  split <;> positivity

theorem Flt.magnitude_eq_zero : f.magnitude E M = 0 ↔ E = 0 ∧ M = 0 := by
  unfold Flt.magnitude
  split
  · next zero =>
    rw [mul_eq_zero, or_iff_left (by positivity), Nat.cast_eq_zero, and_iff_right zero]
  · next away => exact ⟨fun h => absurd h (by positivity), fun h => absurd h.1 away⟩

/-- The exponent and the fraction of a magnitude are unique. -/
theorem Flt.magnitude_inj {E' M' : Nat} (hM : M < 2 ^ f.fb) (hM' : M' < 2 ^ f.fb) (same : f.magnitude E M = f.magnitude E' M') : E = E' ∧ M = M' := by
  have order {A B : ℤ} (h : (2 : ℚ) ^ A < 2 ^ B) : A < B := (zpow_lt_zpow_iff_right₀ one_lt_two).mp h
  have exponent : E = E' := by
    by_cases zero : E = 0 <;> by_cases zero' : E' = 0
    · rw [zero, zero']
    · rw [zero] at same
      have := order (((Flt.magnitude_normal zero' hM').1.trans_eq same.symm).trans_lt (Flt.magnitude_subnormal hM))
      unfold Flt.emin at this
      omega
    · rw [zero'] at same
      have := order (((Flt.magnitude_normal zero hM).1.trans_eq same).trans_lt (Flt.magnitude_subnormal hM'))
      unfold Flt.emin at this
      omega
    · have low := Flt.magnitude_normal zero hM
      have low' := Flt.magnitude_normal zero' hM'
      rw [same] at low
      have := order (low.1.trans_lt low'.2)
      have := order (low'.1.trans_lt low.2)
      omega
  subst exponent
  refine ⟨rfl, ?_⟩
  unfold Flt.magnitude at same
  split at same
  · have := mul_right_cancel₀ (by positivity) same
    exact_mod_cast this
  · have := add_right_cancel (mul_right_cancel₀ (by positivity) same)
    exact_mod_cast this

theorem signOf_mul_abs (neg : Bool) (x : ℚ) : |signOf neg * x| = |x| := by rw [abs_mul, signOf_abs, one_mul]

/-- The parts of a pattern of the format's width. -/
theorem Flt.exists_packed {x : Nat} (fits : x < 2 ^ (f.eb + f.fb + 1)) : ∃ (neg : Bool) (E M : Nat), E < 2 ^ f.eb ∧ M < 2 ^ f.fb ∧
    x = packed f.eb f.fb neg.toNat E M := by
  refine ⟨decide (x / 2 ^ (f.eb + f.fb) = 1), x / 2 ^ f.fb % 2 ^ f.eb, x % 2 ^ f.fb, Nat.mod_lt _ (Nat.two_pow_pos _), Nat.mod_lt _ (Nat.two_pow_pos _), ?_⟩
  have small : x / 2 ^ (f.eb + f.fb) < 2 := by
    rw [Nat.div_lt_iff_lt_mul (Nat.two_pow_pos _), ← Nat.pow_succ']
    exact fits
  have sign : (decide (x / 2 ^ (f.eb + f.fb) = 1)).toNat = x / 2 ^ (f.eb + f.fb) := by
    generalize x / 2 ^ (f.eb + f.fb) = s at *
    interval_cases s <;> rfl
  rw [sign, packed_fields]

/-- A value that a pattern has is rounded to that pattern; a zero with its sign. -/
theorem Flt.round_packed {q : Q} {neg : Bool} (wide : 1 ≤ f.eb) (hE : E < 2 ^ f.eb - 1) (hM : M < 2 ^ f.fb) (pos : 0 < q.den)
    (value : q.value = signOf neg * f.magnitude E M) {fz z : Bool} (normal : fz = false ∨ E ≠ 0 ∨ M = 0) (zero : q.value = 0 → z = neg) (rm : BitVec 2) :
    f.round rm fz q z = (packed f.eb f.fb neg.toNat E M, 0#8) := by
  have nonneg := f.magnitude_nonneg E M
  by_cases away : q.value = 0
  · have none_ : f.magnitude E M = 0 := by
      rw [← abs_of_nonneg nonneg, ← signOf_mul_abs neg, ← value, away, abs_zero]
    obtain ⟨rfl, rfl⟩ := Flt.magnitude_eq_zero.mp none_
    rw [Flt.round_zero pos away, zero away]
    cases neg <;> simp [Flt.zero, packed]
  · have size : |q.value| = f.magnitude E M := by rw [value, signOf_mul_abs, abs_of_nonneg nonneg]
    have sign : q.isNeg = neg := by
      have positive : 0 < f.magnitude E M := by
        rw [← size]
        exact abs_pos.mpr away
      rw [Bool.eq_iff_iff, Q.isNeg_iff pos, value]
      cases neg with
      | true => exact iff_of_true (by simpa [signOf] using positive) rfl
      | false => exact iff_of_false (by simpa [signOf] using nonneg) Bool.false_ne_true
    obtain ⟨k, j, eq, short, fine, fits, least⟩ : ∃ (k : ℕ) (j : ℤ), |q.value| = k * 2 ^ j ∧ k < 2 ^ (f.fb + 1) ∧ f.emin - f.fb ≤ j ∧
        |q.value| < 2 ^ ((f.bias : ℤ) + 1) ∧ (fz = false ∨ (2 : ℚ) ^ f.emin ≤ |q.value|) := by
      rw [size]
      by_cases subnormal : E = 0
      · subst subnormal
        refine ⟨M, f.emin - f.fb, by rw [Flt.magnitude, if_pos rfl], by rw [Nat.pow_succ]; omega, le_rfl,
          (Flt.magnitude_subnormal hM).trans_le (zpow_le_zpow_right₀ one_le_two (by unfold Flt.emin; omega)), .inl ?_⟩
        refine normal.resolve_right fun h => h.elim (fun h => h rfl) fun h => away ?_
        rw [value, h, Flt.magnitude_eq_zero.mpr ⟨rfl, rfl⟩, mul_zero]
      · obtain ⟨low, high⟩ := Flt.magnitude_normal subnormal hM
        have top := f.top_eq wide
        refine ⟨M + 2 ^ f.fb, (E : ℤ) - f.bias - f.fb, by rw [Flt.magnitude, if_neg subnormal]; push_cast; rfl, by rw [Nat.pow_succ]; omega,
          by unfold Flt.emin; omega, high.trans_le (zpow_le_zpow_right₀ one_le_two (by omega)),
          .inr ((zpow_le_zpow_right₀ one_le_two (by unfold Flt.emin; omega)).trans low)⟩
    obtain ⟨gives, noFlags⟩ := Flt.round_exact wide pos away rm fz z eq short fine fits least
    generalize f.round rm fz q z = r at *
    obtain ⟨y, fl⟩ := r
    obtain ⟨neg', E', M', hE', hM', rfl⟩ := Flt.exists_packed gives.fits
    have sameSign : neg' = neg := by
      rw [← sign, Bool.eq_iff_iff, ← gives.sign, packed_neg_iff neg' hE' hM']
    have same := gives.value
    rw [Flt.fval_eq _ hE' hM', sameSign, sign, size] at same
    have cancel := congrArg abs same
    rw [signOf_mul_abs, signOf_mul_abs, abs_of_nonneg (f.magnitude_nonneg _ _), abs_of_nonneg nonneg] at cancel
    obtain ⟨rfl, rfl⟩ := Flt.magnitude_inj hM' hM cancel
    rw [sameSign]
    exact Prod.ext rfl noFlags

end

end Sys2Proof.Machine

namespace Sys2Proof.Machine
open Sys2Proof.Claims

/-! Exact results with NaNs (R42). -/

/-- An exact result is a NaN, and one of an invalid operation. -/
def Ex.isNaN : Ex → Bool
  | .nan _ => true
  | _ => false

def Ex.invalid : Ex → Bool
  | .nan nv => nv
  | _ => false

section
variable {x y : Ex}

theorem Ex.add_nan (rm : BitVec 2) (either : x.isNaN = true ∨ y.isNaN = true) : Ex.add rm x y = .nan (x.invalid || y.invalid) := by
  rcases x with _ | _ | _ <;> rcases y with _ | _ | _ <;> simp [Ex.isNaN] at either <;> simp [Ex.add, Ex.join, Ex.invalid]

theorem Ex.mul_nan (either : x.isNaN = true ∨ y.isNaN = true) : Ex.mul x y = .nan (x.invalid || y.invalid) := by
  rcases x with _ | _ | _ <;> rcases y with _ | _ | _ <;> simp [Ex.isNaN] at either <;> simp [Ex.mul, Ex.join, Ex.invalid]

theorem Ex.neg_isNaN (x : Ex) : x.neg.isNaN = x.isNaN := by cases x <;> rfl
theorem Ex.neg_invalid (x : Ex) : x.neg.invalid = x.invalid := by cases x <;> rfl

end

/-- The exact result of an operation whose rounding sets its flags. -/
def VArith.rounded (o : VArith) : Bool := o != .max && o != .min

section
variable {t : ETy} {eb fb : Nat} (float : (t, eb, fb) ∈ formats)
include float

/-- What the formats of R39 are in the model. -/
theorem formats_spec : t.bits = eb + fb + 1 ∧ 1 ≤ eb ∧ 1 ≤ fb ∧ t.isReal = true ∧ t.flt = ⟨eb, fb⟩ ∧ t ≠ .m8 := by
  simp only [formats, List.mem_cons, Prod.mk.injEq, List.not_mem_nil, or_false] at float
  rcases float with ⟨rfl, rfl, rfl⟩ | ⟨rfl, rfl, rfl⟩ | ⟨rfl, rfl, rfl⟩ <;> decide

theorem readReal_float (fz : Bool) (x : Nat) : t.readReal fz x = ((Flt.mk eb fb).decode fz x).ex := by
  obtain ⟨-, -, -, -, flt, other⟩ := formats_spec float
  rw [← flt]
  cases t with
  | m8 => exact absurd rfl other
  | _ => rfl

theorem putReal_float (fmt : Fmt) (x : Ex) : t.putReal fmt x = x.round ⟨eb, fb⟩ fmt.rm fmt.fz := by
  obtain ⟨-, -, -, -, flt, other⟩ := formats_spec float
  rw [← flt]
  cases t with
  | m8 => exact absurd rfl other
  | _ => rfl

theorem readReal_fin (fz : Bool) {x : Nat} (finite : fin eb fb x) :
    ∃ q, t.readReal fz x = .val q (decide (x / 2 ^ (eb + fb) % 2 = 1)) ∧ 0 < q.den ∧ q.value = fval eb fb fz x := by
  obtain ⟨q, eq, pos, value⟩ := Flt.decode_fin (f := ⟨eb, fb⟩) fz finite
  exact ⟨q, by rw [readReal_float float, eq]; rfl, pos, value⟩

theorem readReal_nan (fz : Bool) {x : Nat} (nan : isNan eb fb x) : t.readReal fz x = .nan (decide (x % 2 ^ fb < 2 ^ (fb - 1))) := by
  rw [readReal_float float, Flt.decode_nan (f := ⟨eb, fb⟩) fz nan]
  rfl

theorem readReal_inf (fz : Bool) {x : Nat} (infinite : ¬ fin eb fb x) (number : ¬ isNan eb fb x) :
    t.readReal fz x = .inf (decide (x / 2 ^ (eb + fb) % 2 = 1)) := by
  rw [readReal_float float, Flt.decode_inf (f := ⟨eb, fb⟩) fz infinite number]
  rfl

/-- An element of a float type (R172). -/
theorem VArith.elem_float (o : VArith) (fmt : Fmt) (a b d : Nat) :
    let r := o.real fmt (t.readReal fmt.fz a) (t.readReal fmt.fz b) (t.readReal fmt.fz d)
    o.elem t fmt a b d = ((r.1.round ⟨eb, fb⟩ fmt.rm fmt.fz).1, (r.1.round ⟨eb, fb⟩ fmt.rm fmt.fz).2 ||| r.2) := by
  obtain ⟨-, -, -, real, -⟩ := formats_spec float
  dsimp only
  unfold VArith.elem
  rw [if_pos real]
  dsimp only
  rw [putReal_float float]

theorem signElem_float (abs : Bool) (fmt : Fmt) (x : Nat) :
    let e := t.readReal fmt.fz x
    signElem abs t fmt x = (if abs then (if e.sign then e.neg else e) else e.neg).round ⟨eb, fb⟩ fmt.rm fmt.fz := by
  obtain ⟨-, -, -, real, flt, other⟩ := formats_spec float
  dsimp only
  unfold signElem
  rw [if_pos real, ← flt]
  cases t with
  | m8 => exact absurd rfl other
  | _ => rfl

end

/-- A result that a value gives: a zero without flags, or the value rounded once. -/
def Gives (eb fb bits : Nat) (rm : BitVec 2) (fz : Bool) (p : Nat × Fl) (v : ℚ) : Prop :=
  (v = 0 → p.1 % 2 ^ (eb + fb) = 0 ∧ p.1 < 2 ^ bits ∧ p.2 = 0#8) ∧ (v ≠ 0 → RoundsTo eb fb rm fz v p.1 p.2)

theorem Flt.zero_spec (f : Flt) (neg : Bool) : f.zero neg % 2 ^ (f.eb + f.fb) = 0 ∧ f.zero neg < 2 ^ (f.eb + f.fb + 1) := by
  have := Nat.two_pow_pos (f.eb + f.fb)
  rw [Nat.pow_succ]
  unfold Flt.zero
  split
  · exact ⟨Nat.mod_self _, by omega⟩
  · exact ⟨Nat.zero_mod _, by omega⟩

theorem gives_round {f : Flt} {q : Q} (wide : 1 ≤ f.eb) (pos : 0 < q.den) (rm : BitVec 2) (fz z : Bool) :
    Gives f.eb f.fb (f.eb + f.fb + 1) rm fz (f.round rm fz q z) q.value := by
  refine ⟨fun zero => ?_, fun away => Flt.round_roundsTo wide pos away rm fz z⟩
  rw [Flt.round_zero pos zero]
  exact ⟨(f.zero_spec z).1, (f.zero_spec z).2, rfl⟩

section
variable {t : ETy} {eb fb : Nat} (float : (t, eb, fb) ∈ formats)
include float

/-- An operation with an exact value is that value rounded once. -/
theorem VArith.elem_gives {o : VArith} {fmt : Fmt} {a b d : Nat} {q : Q} {v : ℚ} (pos : 0 < q.den) (value : q.value = v)
    (real : ∃ z, o.real fmt (t.readReal fmt.fz a) (t.readReal fmt.fz b) (t.readReal fmt.fz d) = (.val q z, 0#8)) :
    Gives eb fb t.bits fmt.rm fmt.fz (o.elem t fmt a b d) v := by
  obtain ⟨width, wide, -⟩ := formats_spec float
  obtain ⟨z, real⟩ := real
  rw [VArith.elem_float float, real, width, ← value]
  dsimp only
  rw [BitVec.or_zero]
  exact gives_round (f := ⟨eb, fb⟩) wide pos fmt.rm fmt.fz z

/-- Sums, differences and products of finite lanes. -/
theorem plain_gives (fmt : Fmt) {a b : Nat} (d : Nat) (ha : fin eb fb a) (hb : fin eb fb b) :
    Gives eb fb t.bits fmt.rm fmt.fz (VArith.add.elem t fmt a b d) (fval eb fb fmt.fz a + fval eb fb fmt.fz b) ∧
    Gives eb fb t.bits fmt.rm fmt.fz (VArith.sub.elem t fmt a b d) (fval eb fb fmt.fz a - fval eb fb fmt.fz b) ∧
    Gives eb fb t.bits fmt.rm fmt.fz (VArith.mul.elem t fmt a b d) (fval eb fb fmt.fz a * fval eb fb fmt.fz b) := by
  obtain ⟨p, readA, posA, valA⟩ := readReal_fin float fmt.fz ha
  obtain ⟨q, readB, posB, valB⟩ := readReal_fin float fmt.fz hb
  refine ⟨VArith.elem_gives float (Q.den_add posA posB) ?_ ?_, VArith.elem_gives float (Q.den_add posA (Q.den_neg posB)) ?_ ?_,
    VArith.elem_gives float (Q.den_mul posA posB) ?_ ?_⟩
  · exact (Q.value_add posA posB).trans (by rw [valA, valB])
  · rw [readA, readB]
    exact ⟨_, rfl⟩
  · exact (Q.value_add posA (Q.den_neg posB)).trans (by rw [Q.value_neg, valA, valB, sub_eq_add_neg])
  · rw [readA, readB]
    exact ⟨_, rfl⟩
  · exact (Q.value_mul p q).trans (by rw [valA, valB])
  · rw [readA, readB]
    exact ⟨_, rfl⟩

theorem fused_gives (fmt : Fmt) {a b d : Nat} (ha : fin eb fb a) (hb : fin eb fb b) (hd : fin eb fb d) :
    Gives eb fb t.bits fmt.rm fmt.fz (VArith.fma.elem t fmt a b d) (fval eb fb fmt.fz d + fval eb fb fmt.fz a * fval eb fb fmt.fz b) ∧
    Gives eb fb t.bits fmt.rm fmt.fz (VArith.fms.elem t fmt a b d) (fval eb fb fmt.fz d - fval eb fb fmt.fz a * fval eb fb fmt.fz b) := by
  obtain ⟨p, readA, posA, valA⟩ := readReal_fin float fmt.fz ha
  obtain ⟨q, readB, posB, valB⟩ := readReal_fin float fmt.fz hb
  obtain ⟨r, readD, posD, valD⟩ := readReal_fin float fmt.fz hd
  have posM := Q.den_mul posA posB
  refine ⟨VArith.elem_gives float (Q.den_add posD posM) ?_ ?_, VArith.elem_gives float (Q.den_add posD (Q.den_neg posM)) ?_ ?_⟩
  · exact (Q.value_add posD posM).trans (by rw [Q.value_mul, valA, valB, valD])
  · rw [readA, readB, readD]
    exact ⟨_, rfl⟩
  · exact (Q.value_add posD (Q.den_neg posM)).trans (by rw [Q.value_neg, Q.value_mul, valA, valB, valD, sub_eq_add_neg])
  · rw [readA, readB, readD]
    exact ⟨_, rfl⟩

end

/-- The NaN of the operands: canonical, and invalid when one of them is signalling. -/
def nanOf (eb fb : Nat) (xs : List Nat) : Nat × Fl :=
  (quiet eb fb, if xs.any (fun x => decide (x / 2 ^ fb % 2 ^ eb = 2 ^ eb - 1 ∧ x % 2 ^ fb ≠ 0 ∧ x % 2 ^ fb < 2 ^ (fb - 1))) then NV else (0#8 : Fl))

section
variable {t : ETy} {eb fb : Nat} (float : (t, eb, fb) ∈ formats)
include float

theorem readReal_isNaN (fz : Bool) (x : Nat) : (t.readReal fz x).isNaN = true ↔ isNan eb fb x := by
  by_cases nan : isNan eb fb x
  · rw [readReal_nan float fz nan]
    exact iff_of_true rfl nan
  · refine iff_of_false ?_ nan
    by_cases finite : fin eb fb x
    · obtain ⟨q, eq, -⟩ := readReal_fin float fz finite
      rw [eq]
      exact Bool.false_ne_true
    · rw [readReal_inf float fz finite nan]
      exact Bool.false_ne_true

theorem readReal_invalid (fz : Bool) (x : Nat) :
    (t.readReal fz x).invalid = decide (x / 2 ^ fb % 2 ^ eb = 2 ^ eb - 1 ∧ x % 2 ^ fb ≠ 0 ∧ x % 2 ^ fb < 2 ^ (fb - 1)) := by
  by_cases nan : isNan eb fb x
  · rw [readReal_nan float fz nan]
    obtain ⟨top, frac⟩ := nan
    simp [Ex.invalid, top, frac]
  · have no : ¬ (x / 2 ^ fb % 2 ^ eb = 2 ^ eb - 1 ∧ x % 2 ^ fb ≠ 0 ∧ x % 2 ^ fb < 2 ^ (fb - 1)) := fun ⟨top, frac, _⟩ => nan ⟨top, frac⟩
    rw [decide_eq_false no]
    by_cases finite : fin eb fb x
    · obtain ⟨q, eq, -⟩ := readReal_fin float fz finite
      rw [eq]
      rfl
    · rw [readReal_inf float fz finite nan]
      rfl

/-- A NaN result, delivered. -/
theorem round_nan_two (fmt : Fmt) (a b : Nat) :
    (Ex.nan ((t.readReal fmt.fz a).invalid || (t.readReal fmt.fz b).invalid)).round ⟨eb, fb⟩ fmt.rm fmt.fz = nanOf eb fb [a, b] := by
  rw [readReal_invalid float, readReal_invalid float]
  simp only [nanOf, List.any_cons, List.any_nil, Bool.or_false]
  rfl

theorem round_nan_one (fmt : Fmt) (a : Nat) :
    (Ex.nan (t.readReal fmt.fz a).invalid).round ⟨eb, fb⟩ fmt.rm fmt.fz = nanOf eb fb [a] := by
  rw [readReal_invalid float]
  simp only [nanOf, List.any_cons, List.any_nil, Bool.or_false]
  rfl

theorem nan_gives (fmt : Fmt) {a b : Nat} (d : Nat) (nan : isNan eb fb a ∨ isNan eb fb b) :
    ∀ o ∈ [VArith.add, .sub, .mul], o.elem t fmt a b d = nanOf eb fb [a, b] := by
  have either : (t.readReal fmt.fz a).isNaN = true ∨ (t.readReal fmt.fz b).isNaN = true := by
    rw [readReal_isNaN float, readReal_isNaN float]
    exact nan
  have real (o : VArith) (member : o ∈ [VArith.add, .sub, .mul]) :
      o.real fmt (t.readReal fmt.fz a) (t.readReal fmt.fz b) (t.readReal fmt.fz d) =
        (.nan ((t.readReal fmt.fz a).invalid || (t.readReal fmt.fz b).invalid), 0#8) := by
    simp only [List.mem_cons, List.not_mem_nil, or_false] at member
    rcases member with rfl | rfl | rfl
    · exact Prod.ext (Ex.add_nan fmt.rm either) rfl
    · refine Prod.ext ((Ex.add_nan fmt.rm (by rwa [Ex.neg_isNaN])).trans ?_) rfl
      rw [Ex.neg_invalid]
    · exact Prod.ext (Ex.mul_nan either) rfl
  intro o member
  rw [VArith.elem_float float, real o member]
  dsimp only
  rw [round_nan_two float, BitVec.or_zero]

theorem sign_nan (fmt : Fmt) {a : Nat} (nan : isNan eb fb a) (abs : Bool) : signElem abs t fmt a = nanOf eb fb [a] := by
  rw [signElem_float float, ← round_nan_one float, readReal_nan float fmt.fz nan]
  cases abs <;> rfl

end

end Sys2Proof.Machine

namespace Sys2Proof.Machine
open Sys2Proof.Claims

/-! Maxima, minima, infinities and signs of float lanes (R42, R198). -/

theorem inf_eq_packed (eb fb : Nat) (neg : Bool) : (Flt.mk eb fb).inf neg = packed eb fb neg.toNat (2 ^ eb - 1) 0 := by
  cases neg <;> simp [Flt.inf, packed]

/-- A pattern as it is read: a subnormal one is a zero with `fz` (R41). -/
def flushed (eb fb : Nat) (fz : Bool) (x : Nat) : Nat :=
  if fz = true ∧ x / 2 ^ fb % 2 ^ eb = 0 then x / 2 ^ (eb + fb) * 2 ^ (eb + fb) else x

section
variable {eb fb E M s : Nat}

theorem flushed_packed (fz : Bool) (hE : E < 2 ^ eb) (hM : M < 2 ^ fb) :
    flushed eb fb fz (packed eb fb s E M) = packed eb fb s E (if fz = true ∧ E = 0 then 0 else M) := by
  unfold flushed
  rw [packed_exp hE hM, packed_sign hE hM]
  split
  · next flush => simp [packed, flush.2]
  · rfl

theorem packed_low (hE : E < 2 ^ eb) (hM : M < 2 ^ fb) : packed eb fb s E M % 2 ^ (eb + fb) = packed eb fb 0 E M := by
  have parts := Nat.div_add_mod' (packed eb fb s E M) (2 ^ (eb + fb))
  rw [packed_sign hE hM] at parts
  unfold packed at parts ⊢
  omega

theorem packed_succ : packed eb fb s E M + 2 ^ (eb + fb) = packed eb fb (s + 1) E M := by
  unfold packed
  ring

theorem packed_flip (neg : Bool) (hE : E < 2 ^ eb) (hM : M < 2 ^ fb) :
    (packed eb fb neg.toNat E M + 2 ^ (eb + fb)) % 2 ^ (eb + fb + 1) = packed eb fb (!neg).toNat E M := by
  rw [packed_succ]
  cases neg with
  | false => exact Nat.mod_eq_of_lt (packed_lt hE hM (by decide))
  | true =>
    have wrap : packed eb fb (true.toNat + 1) E M = packed eb fb 0 E M + 2 ^ (eb + fb + 1) := by
      simp only [packed, Bool.toNat_true, Nat.pow_succ]
      ring
    rw [wrap, Nat.add_mod_right]
    exact Nat.mod_eq_of_lt (packed_lt hE hM (by decide))

end

section
variable {t : ETy} {eb fb : Nat} (float : (t, eb, fb) ∈ formats)

/-- A lane of a float type as a number: its sign, its magnitude as it is read, and the pattern that this has. -/
structure ReadsAs (eb fb : Nat) (fz : Bool) (x : Nat) (q : Q) (neg : Bool) (E M : Nat) : Prop where
  expFits : E < 2 ^ eb - 1
  fracFits : M < 2 ^ fb
  normal : fz = false ∨ E ≠ 0 ∨ M = 0
  pos : 0 < q.den
  value : q.value = signOf neg * (Flt.mk eb fb).magnitude E M
  reads : q.value = fval eb fb fz x
  sign : x / 2 ^ (eb + fb) = 1 ↔ neg = true
  pattern : flushed eb fb fz x = packed eb fb neg.toNat E M

include float

theorem readReal_as (fz : Bool) {x : Nat} (finite : fin eb fb x) (fits : x < 2 ^ t.bits) :
    ∃ q neg E M, t.readReal fz x = .val q neg ∧ ReadsAs eb fb fz x q neg E M := by
  obtain ⟨width, -⟩ := formats_spec float
  rw [width] at fits
  obtain ⟨q, read, pos, value⟩ := readReal_fin float fz finite
  obtain ⟨neg, E, M, hE, hM, rfl⟩ := Flt.exists_packed (f := ⟨eb, fb⟩) fits
  dsimp only at *
  have inRange : E < 2 ^ eb - 1 := by
    unfold fin at finite
    rw [packed_exp hE hM] at finite
    omega
  have sign : packed eb fb neg.toNat E M / 2 ^ (eb + fb) = 1 ↔ neg = true := packed_neg_iff neg hE hM
  have sign' : decide (packed eb fb neg.toNat E M / 2 ^ (eb + fb) % 2 = 1) = neg := by
    rw [packed_sign hE hM]
    cases neg <;> rfl
  have frac : (if fz = true ∧ E = 0 then 0 else M) < 2 ^ fb := by
    split
    · exact Nat.two_pow_pos _
    · exact hM
  refine ⟨q, neg, E, _, by rw [read, sign'], inRange, frac, ?_, pos, ?_, value, sign, flushed_packed fz hE hM⟩
  · by_cases flush : fz = true ∧ E = 0
    · exact .inr (.inr (if_pos flush))
    · rw [not_and_or] at flush
      rcases flush with keep | away
      · exact .inl (Bool.eq_false_iff.mpr keep)
      · exact .inr (.inl away)
  · rw [value, fval_packed _ _ hE hM, Flt.magnitude, Flt.emin, Flt.bias_eq]
    by_cases zero : E = 0 <;> cases fz <;> simp [zero]

end

section
variable {eb fb x E M : Nat} {fz neg : Bool} {q : Q}

/-- A lane as it is read, delivered. -/
theorem ReadsAs.round (as : ReadsAs eb fb fz x q neg E M) (wide : 1 ≤ eb) (rm : BitVec 2) :
    (Ex.val q neg).round ⟨eb, fb⟩ rm fz = (flushed eb fb fz x, 0#8) := by
  rw [as.pattern]
  exact Flt.round_packed (f := ⟨eb, fb⟩) wide as.expFits as.fracFits as.pos as.value as.normal (fun _ => rfl) rm

/-- A lane with the other sign. -/
theorem ReadsAs.round_neg (as : ReadsAs eb fb fz x q neg E M) (wide : 1 ≤ eb) (rm : BitVec 2) :
    (Ex.val q.neg !neg).round ⟨eb, fb⟩ rm fz = (packed eb fb (!neg).toNat E M, 0#8) := by
  refine Flt.round_packed (f := ⟨eb, fb⟩) (q := q.neg) (neg := !neg) (z := !neg) wide as.expFits as.fracFits as.pos ?_ as.normal (fun _ => rfl) rm
  rw [Q.value_neg, as.value]
  cases neg <;> simp [signOf]

theorem ReadsAs.fval_flushed (as : ReadsAs eb fb fz x q neg E M) : fval eb fb false (flushed eb fb fz x) = fval eb fb fz x := by
  have := as.expFits
  rw [as.pattern, Flt.fval_eq (f := ⟨eb, fb⟩) neg (by dsimp only; omega) as.fracFits, ← as.value, as.reads]

theorem ReadsAs.flushed_sign (as : ReadsAs eb fb fz x q neg E M) : flushed eb fb fz x / 2 ^ (eb + fb) = 1 ↔ neg = true := by
  have := as.expFits
  rw [as.pattern]
  exact packed_neg_iff neg (by omega) as.fracFits

end

section
variable {t : ETy} {eb fb : Nat} (float : (t, eb, fb) ∈ formats) {fmt : Fmt} {a b d : Nat}
include float

/-- A maximum or a minimum that is one of the operands. -/
theorem pick_elem {o : VArith} {x : Ex} {c : Nat} {fl : Fl} (real : o.real fmt (t.readReal fmt.fz a) (t.readReal fmt.fz b) (t.readReal fmt.fz d) = (x, fl))
    (rounds : x.round ⟨eb, fb⟩ fmt.rm fmt.fz = (c, 0#8)) : o.elem t fmt a b d = (c, fl) := by
  rw [VArith.elem_float float, real]
  dsimp only
  rw [rounds, BitVec.zero_or]

/-- Maximum and minimum of finite lanes. -/
theorem picks_gives (ha : fin eb fb a) (hb : fin eb fb b) (fitsA : a < 2 ^ t.bits) (fitsB : b < 2 ^ t.bits) :
    let V := fval eb fb fmt.fz
    let neg := fun (x : Nat) => x / 2 ^ (eb + fb) = 1
    fval eb fb false (VArith.max.elem t fmt a b d).1 = Max.max (V a) (V b) ∧ (VArith.max.elem t fmt a b d).2 = 0#8 ∧
      fval eb fb false (VArith.min.elem t fmt a b d).1 = Min.min (V a) (V b) ∧ (VArith.min.elem t fmt a b d).2 = 0#8 ∧
      (V a = 0 → V b = 0 → (neg (VArith.max.elem t fmt a b d).1 ↔ neg a ∧ neg b) ∧ (neg (VArith.min.elem t fmt a b d).1 ↔ neg a ∨ neg b)) := by
  obtain ⟨-, wide, -⟩ := formats_spec float
  obtain ⟨p, m, E, M, readA, asA⟩ := readReal_as float fmt.fz ha fitsA
  obtain ⟨q, n, E', M', readB, asB⟩ := readReal_as float fmt.fz hb fitsB
  have roundA := asA.round wide fmt.rm
  have roundB := asB.round wide fmt.rm
  have lower : Ex.lt true (.val p m) (.val q n) = true ↔ p.value < q.value ∨ (p.value = 0 ∧ q.value = 0 ∧ m = true ∧ n = false) := by
    simp only [Ex.lt, Bool.or_eq_true, Bool.true_and, Bool.and_eq_true, Bool.not_eq_true', Q.lt_iff asA.pos asB.pos, Q.isZero_iff asA.pos,
      Q.isZero_iff asB.pos, and_assoc]
  have big : VArith.max.real fmt (t.readReal fmt.fz a) (t.readReal fmt.fz b) (t.readReal fmt.fz d) =
      (if Ex.lt true (.val p m) (.val q n) = true then .val q n else .val p m, 0#8) := by
    rw [readA, readB]
    cases less : Ex.lt true (.val p m) (.val q n) <;> simp [VArith.real, Ex.pick, less]
  have small : VArith.min.real fmt (t.readReal fmt.fz a) (t.readReal fmt.fz b) (t.readReal fmt.fz d) =
      (if Ex.lt true (.val p m) (.val q n) = true then .val p m else .val q n, 0#8) := by
    rw [readA, readB]
    cases less : Ex.lt true (.val p m) (.val q n) <;> simp [VArith.real, Ex.pick, less]
  dsimp only
  rw [← asA.reads, ← asB.reads, asA.sign, asB.sign]
  by_cases less : Ex.lt true (.val p m) (.val q n) = true
  · rw [if_pos less] at big small
    rw [lower] at less
    rw [pick_elem float big roundB, pick_elem float small roundA]
    dsimp only
    rw [asA.fval_flushed, asB.fval_flushed, ← asA.reads, ← asB.reads, asA.flushed_sign, asB.flushed_sign]
    have order : p.value ≤ q.value := less.elim le_of_lt fun h => by rw [h.1, h.2.1]
    refine ⟨(max_eq_right order).symm, rfl, (min_eq_left order).symm, rfl, fun zeroA zeroB => ?_⟩
    obtain ⟨-, -, neg, positive⟩ := less.resolve_left (by rw [zeroA, zeroB]; exact lt_irrefl 0)
    simp [neg, positive]
  · rw [if_neg less] at big small
    rw [lower, not_or] at less
    rw [pick_elem float big roundA, pick_elem float small roundB]
    dsimp only
    rw [asA.fval_flushed, asB.fval_flushed, ← asA.reads, ← asB.reads, asA.flushed_sign, asB.flushed_sign]
    refine ⟨(max_eq_left (not_lt.mp less.1)).symm, rfl, (min_eq_right (not_lt.mp less.1)).symm, rfl, fun zeroA zeroB => ?_⟩
    have signs : ¬ (m = true ∧ n = false) := fun h => less.2 ⟨zeroA, zeroB, h⟩
    revert signs
    cases m <;> cases n <;> decide

/-- Maximum and minimum where one or both lanes are a NaN. -/
theorem pick_nan_two (o : VArith) (member : o ∈ [VArith.max, .min]) (nanA : isNan eb fb a) (nanB : isNan eb fb b) :
    o.elem t fmt a b d = nanOf eb fb [a, b] := by
  have readA := readReal_nan float fmt.fz nanA
  have readB := readReal_nan float fmt.fz nanB
  have real : o.real fmt (t.readReal fmt.fz a) (t.readReal fmt.fz b) (t.readReal fmt.fz d) =
      (.nan false, flIf ((t.readReal fmt.fz a).invalid || (t.readReal fmt.fz b).invalid) NV) := by
    rw [readA, readB]
    simp only [List.mem_cons, List.not_mem_nil, or_false] at member
    rcases member with rfl | rfl <;> rfl
  rw [VArith.elem_float float, real, ← round_nan_two float fmt]
  simp [Ex.round, flIf]

theorem pick_nan_left (o : VArith) (member : o ∈ [VArith.max, .min]) (nanA : isNan eb fb a) (hb : fin eb fb b) (fitsB : b < 2 ^ t.bits) :
    fval eb fb false (o.elem t fmt a b d).1 = fval eb fb fmt.fz b ∧ (o.elem t fmt a b d).2 = (nanOf eb fb [a]).2 := by
  obtain ⟨-, wide, -⟩ := formats_spec float
  obtain ⟨q, n, E', M', readB, asB⟩ := readReal_as float fmt.fz hb fitsB
  have real : o.real fmt (t.readReal fmt.fz a) (t.readReal fmt.fz b) (t.readReal fmt.fz d) = (.val q n, flIf (t.readReal fmt.fz a).invalid NV) := by
    rw [readReal_nan float fmt.fz nanA, readB]
    simp only [List.mem_cons, List.not_mem_nil, or_false] at member
    rcases member with rfl | rfl <;> rfl
  rw [pick_elem float real (asB.round wide fmt.rm), ← round_nan_one float fmt a]
  exact ⟨asB.fval_flushed, rfl⟩

theorem pick_nan_right (o : VArith) (member : o ∈ [VArith.max, .min]) (ha : fin eb fb a) (nanB : isNan eb fb b) (fitsA : a < 2 ^ t.bits) :
    fval eb fb false (o.elem t fmt a b d).1 = fval eb fb fmt.fz a ∧ (o.elem t fmt a b d).2 = (nanOf eb fb [b]).2 := by
  obtain ⟨-, wide, -⟩ := formats_spec float
  obtain ⟨p, m, E, M, readA, asA⟩ := readReal_as float fmt.fz ha fitsA
  have real : o.real fmt (t.readReal fmt.fz a) (t.readReal fmt.fz b) (t.readReal fmt.fz d) = (.val p m, flIf (t.readReal fmt.fz b).invalid NV) := by
    rw [readReal_nan float fmt.fz nanB, readA]
    simp only [List.mem_cons, List.not_mem_nil, or_false] at member
    rcases member with rfl | rfl <;> rfl
  rw [pick_elem float real (asA.round wide fmt.rm), ← round_nan_one float fmt b]
  exact ⟨asA.fval_flushed, rfl⟩

/-- An infinite pattern, from its sign. -/
theorem infinite_packed {x : Nat} (infinite : ¬ fin eb fb x) (number : ¬ isNan eb fb x) (fits : x < 2 ^ t.bits) :
    ∃ neg : Bool, x = packed eb fb neg.toNat (2 ^ eb - 1) 0 ∧ (∀ fz, t.readReal fz x = .inf neg) ∧ (x / 2 ^ (eb + fb) = 1 ↔ neg = true) := by
  obtain ⟨width, wide, -⟩ := formats_spec float
  rw [width] at fits
  have read (fz : Bool) := readReal_inf float fz infinite number
  obtain ⟨neg, E, M, hE, hM, rfl⟩ := Flt.exists_packed (f := ⟨eb, fb⟩) fits
  dsimp only at *
  unfold fin at infinite
  rw [packed_exp hE hM, not_not] at infinite
  unfold isNan at number
  rw [packed_exp hE hM, packed_frac hM, not_and, not_not] at number
  subst infinite
  have zero := number rfl
  subst zero
  rw [packed_sign hE hM] at read
  refine ⟨neg, rfl, fun fz => ?_, packed_neg_iff neg hE (Nat.two_pow_pos _)⟩
  rw [read fz]
  cases neg <;> rfl

end

end Sys2Proof.Machine

namespace Sys2Proof.Machine
open Sys2Proof.Claims

theorem differ_iff {p q : Prop} {m n : Bool} (hp : p ↔ m = true) (hq : q ↔ n = true) : (m != n) = true ↔ ¬ (p ↔ q) := by
  rw [hp, hq]
  cases m <;> cases n <;> decide

section
variable {t : ETy} {eb fb : Nat} (float : (t, eb, fb) ∈ formats) {fmt : Fmt} {a b d : Nat}
include float

/-- An operation with an exact result that its rounding alone delivers. -/
theorem VArith.elem_of_real {o : VArith} {x : Ex} (real : o.real fmt (t.readReal fmt.fz a) (t.readReal fmt.fz b) (t.readReal fmt.fz d) = (x, 0#8)) :
    o.elem t fmt a b d = x.round ⟨eb, fb⟩ fmt.rm fmt.fz := by
  rw [VArith.elem_float float, real]
  dsimp only
  rw [BitVec.or_zero]

/-- An infinity with a finite lane. -/
theorem infinite_finite (infA : ¬ fin eb fb a ∧ ¬ isNan eb fb a) (hb : fin eb fb b) (fitsA : a < 2 ^ t.bits) (fitsB : b < 2 ^ t.bits) :
    VArith.add.elem t fmt a b d = (a, 0#8) ∧
    VArith.mul.elem t fmt a b d = (if fval eb fb fmt.fz b = 0 then (quiet eb fb, NV) else
      (infinity eb fb (¬ (a / 2 ^ (eb + fb) = 1 ↔ b / 2 ^ (eb + fb) = 1)), 0#8)) := by
  obtain ⟨m, eq, readA, signA⟩ := infinite_packed float infA.1 infA.2 fitsA
  obtain ⟨q, n, E, M, readB, asB⟩ := readReal_as float fmt.fz hb fitsB
  constructor
  · have real : VArith.add.real fmt (t.readReal fmt.fz a) (t.readReal fmt.fz b) (t.readReal fmt.fz d) = (.inf m, 0#8) := by
      rw [readA, readB]
      rfl
    rw [VArith.elem_of_real float real, Ex.round, inf_eq_packed, ← eq]
  · have real : VArith.mul.real fmt (t.readReal fmt.fz a) (t.readReal fmt.fz b) (t.readReal fmt.fz d) =
        (if q.isZero = true then .nan true else .inf (m != n), 0#8) := by
      rw [readA, readB]
      rfl
    rw [VArith.elem_of_real float real, infinity_eq ⟨eb, fb⟩ (m != n) _ (differ_iff signA asB.sign), ← asB.reads]
    by_cases zero : q.value = 0
    · rw [if_pos ((Q.isZero_iff asB.pos).mpr zero), if_pos zero]
      rfl
    · rw [if_neg (fun h => zero ((Q.isZero_iff asB.pos).mp h)), if_neg zero]
      rfl

/-- Two infinities. -/
theorem infinite_infinite (infA : ¬ fin eb fb a ∧ ¬ isNan eb fb a) (infB : ¬ fin eb fb b ∧ ¬ isNan eb fb b) (fitsA : a < 2 ^ t.bits)
    (fitsB : b < 2 ^ t.bits) : VArith.add.elem t fmt a b d = (if a = b then (a, 0#8) else (quiet eb fb, NV)) ∧
      VArith.mul.elem t fmt a b d = (infinity eb fb (¬ (a / 2 ^ (eb + fb) = 1 ↔ b / 2 ^ (eb + fb) = 1)), 0#8) := by
  obtain ⟨m, eqA, readA, signA⟩ := infinite_packed float infA.1 infA.2 fitsA
  obtain ⟨n, eqB, readB, signB⟩ := infinite_packed float infB.1 infB.2 fitsB
  have same : a = b ↔ m = n := by
    constructor
    · intro eq
      rw [Bool.eq_iff_iff, ← signA, ← signB, eq]
    · intro eq
      rw [eqA, eqB, eq]
  constructor
  · have real : VArith.add.real fmt (t.readReal fmt.fz a) (t.readReal fmt.fz b) (t.readReal fmt.fz d) =
        (if (m == n) = true then .inf m else .nan true, 0#8) := by
      rw [readA, readB]
      rfl
    rw [VArith.elem_of_real float real]
    by_cases eq : m = n
    · rw [if_pos (beq_iff_eq.mpr eq), if_pos (same.mpr eq), Ex.round, inf_eq_packed, ← eqA]
    · rw [if_neg (fun h => eq (beq_iff_eq.mp h)), if_neg (fun h => eq (same.mp h))]
      rfl
  · have real : VArith.mul.real fmt (t.readReal fmt.fz a) (t.readReal fmt.fz b) (t.readReal fmt.fz d) = (.inf (m != n), 0#8) := by
      rw [readA, readB]
      rfl
    rw [VArith.elem_of_real float real, infinity_eq ⟨eb, fb⟩ (m != n) _ (differ_iff signA signB)]
    rfl

/-- The sign operations change the sign of the pattern that a lane is read as. -/
theorem sign_pattern {neg : Bool} {E M : Nat} (hE : E < 2 ^ eb) (hM : M < 2 ^ fb) (pattern : flushed eb fb fmt.fz a = packed eb fb neg.toNat E M)
    (plain : (t.readReal fmt.fz a).round ⟨eb, fb⟩ fmt.rm fmt.fz = (packed eb fb neg.toNat E M, 0#8))
    (flips : (t.readReal fmt.fz a).neg.round ⟨eb, fb⟩ fmt.rm fmt.fz = (packed eb fb (!neg).toNat E M, 0#8))
    (sign : (t.readReal fmt.fz a).sign = true → neg = true) (unsigned : neg = true → (t.readReal fmt.fz a).sign = true) :
    signElem true t fmt a = (flushed eb fb fmt.fz a % 2 ^ (eb + fb), 0#8) ∧
    signElem false t fmt a = ((flushed eb fb fmt.fz a + 2 ^ (eb + fb)) % 2 ^ t.bits, 0#8) := by
  obtain ⟨width, -⟩ := formats_spec float
  rw [width, pattern, packed_low hE hM, packed_flip neg hE hM, signElem_float float, signElem_float float]
  refine ⟨?_, flips⟩
  rw [if_pos rfl]
  cases neg with
  | true =>
    rw [if_pos (unsigned rfl), flips]
    rfl
  | false =>
    rw [if_neg fun h => Bool.false_ne_true (sign h), plain]
    rfl

/-- The sign operations on a lane that is no NaN. -/
theorem sign_number (number : ¬ isNan eb fb a) (fits : a < 2 ^ t.bits) :
    signElem true t fmt a = (flushed eb fb fmt.fz a % 2 ^ (eb + fb), 0#8) ∧
    signElem false t fmt a = ((flushed eb fb fmt.fz a + 2 ^ (eb + fb)) % 2 ^ t.bits, 0#8) := by
  obtain ⟨-, wide, -⟩ := formats_spec float
  by_cases finite : fin eb fb a
  · obtain ⟨q, neg, E, M, read, reads⟩ := readReal_as float fmt.fz finite fits
    have top := reads.expFits
    have away (zero : ¬ q.isZero = true) : q.isNeg = true ↔ neg = true := by
      rw [Q.isZero_iff reads.pos] at zero
      have nonneg := (Flt.mk eb fb).magnitude_nonneg E M
      have positive : 0 < (Flt.mk eb fb).magnitude E M := lt_of_le_of_ne nonneg fun h => zero (by rw [reads.value, ← h, mul_zero])
      rw [Q.isNeg_iff reads.pos, reads.value]
      cases neg with
      | true => exact iff_of_true (by simpa [signOf] using positive) rfl
      | false => exact iff_of_false (by simpa [signOf] using nonneg) Bool.false_ne_true
    have sign : (Ex.val q neg).sign = neg := by
      by_cases zero : q.isZero = true
      · exact if_pos zero
      · exact (if_neg zero).trans (Bool.eq_iff_iff.mpr (away zero))
    refine sign_pattern float (by omega) reads.fracFits reads.pattern ?_ ?_ (fun h => ?_) (fun h => ?_)
    · rw [read, reads.round wide, reads.pattern]
    · rw [read]
      exact reads.round_neg wide fmt.rm
    · rwa [read, sign] at h
    · rw [read, sign]
      exact h
  · obtain ⟨neg, eq, read, sign⟩ := infinite_packed float finite number fits
    have some_ : 2 ^ eb - 1 ≠ 0 := by
      have := Nat.pow_le_pow_right two_pos wide
      omega
    refine sign_pattern float (neg := neg) (E := 2 ^ eb - 1) (M := 0) (by have := Nat.two_pow_pos eb; omega) (Nat.two_pow_pos _) ?_ ?_ ?_ (fun h => ?_) (fun h => ?_)
    · rw [eq, flushed_packed _ (by have := Nat.two_pow_pos eb; omega) (Nat.two_pow_pos _), if_neg fun h => some_ h.2]
    · rw [read, Ex.round, inf_eq_packed]
    · rw [read, Ex.neg, Ex.round, inf_eq_packed]
    · rwa [read] at h
    · rw [read]
      exact h

end

/-- Float lanes are rounded once (R40 to R42, R58, R172, R198). -/
theorem floatLanesRoundOnce : FloatLanesRoundOnce := by
  intro t eb fb fmt a b d float fitsA fitsB fitsD
  dsimp only
  refine ⟨fun ⟨ha, hb⟩ => plain_gives float fmt d ha hb, fun ⟨ha, hb⟩ hd => fused_gives float fmt ha hb hd,
    fun ⟨ha, hb⟩ => picks_gives float ha hb fitsA fitsB, nan_gives float fmt d, fun o member => ⟨pick_nan_two float o member, ?_, ?_⟩,
    fun infA hb => infinite_finite float infA hb fitsA fitsB, fun infA infB => infinite_infinite float infA infB fitsA fitsB,
    fun nan abs => sign_nan float fmt nan abs, fun number => sign_number float number fitsA⟩
  · exact fun nanA hb => pick_nan_left float o member nanA hb fitsB
  · exact fun ha nanB => pick_nan_right float o member ha nanB fitsA

end Sys2Proof.Machine

namespace Sys2Proof.Machine
open Sys2Proof.Claims

/-! Integer and code lanes (R43, R49, R50). -/

/-- The types whose elements are integers, or codes that stand for them. -/
def exactTypes : List ETy := [.i32, .i16, .i8, .l8, .c10]

section
variable {t : ETy}

theorem exactTypes_of_isInt (int : t.isInt = true) : t ∈ exactTypes := by
  revert int
  cases t <;> decide

theorem exactTypes_of_code (code : t ∈ [ETy.l8, .c10]) : t ∈ exactTypes := by
  revert code
  cases t <;> decide

theorem isReal_exact (exact_ : t ∈ exactTypes) : t.isReal = false := by
  revert exact_
  cases t <;> decide

theorem range_eq_ends (exact_ : t ∈ exactTypes) : t.range = Claims.ends t := by
  revert exact_
  cases t <;> decide

theorem ends_le (exact_ : t ∈ exactTypes) : (Claims.ends t).1 ≤ (Claims.ends t).2 := by
  revert exact_
  cases t <;> decide

/-- A result is held to the range of its type. -/
theorem putInt_held (exact_ : t ∈ exactTypes) (v : Int) : t.putInt v = held t v := by
  have order := ends_le exact_
  unfold ETy.putInt held sat pattern
  rw [range_eq_ends exact_]
  dsimp only
  by_cases low : v < (Claims.ends t).1
  · rw [if_pos low, if_pos (.inl low), min_eq_right (by omega), max_eq_left low.le]
  · by_cases high : (Claims.ends t).2 < v
    · rw [if_neg low, if_pos high, if_pos (.inr high), min_eq_left high.le, max_eq_right order]
    · rw [if_neg low, if_neg high, if_neg (by omega), min_eq_right (by omega), max_eq_right (by omega)]

/-- An integer type saturates to its limits. -/
theorem held_delivered (int : t.isInt = true) (v : Int) : held t v = delivered t v := by
  have order := ends_le (exactTypes_of_isInt int)
  have limits : Claims.ends t = (intLow t, intHigh t) := by
    revert int
    cases t <;> decide
  rw [limits] at order
  unfold held delivered
  rw [limits]
  dsimp only at *
  by_cases low : v < intLow t
  · rw [if_pos low, if_pos (.inl low), min_eq_right (by omega), max_eq_left low.le]
  · by_cases high : intHigh t < v
    · rw [if_neg low, if_pos high, if_pos (.inr high), min_eq_left high.le, max_eq_right order]
    · rw [if_neg low, if_neg high, if_neg (by omega), min_eq_right (by omega), max_eq_right (by omega)]

theorem readInt_signed (int : t.isInt = true) (x : Nat) : t.readInt x = (signed t.bits x, 0#8) := by
  revert int
  cases t with
  | i32 => exact fun _ => rfl
  | i16 => exact fun _ => rfl
  | i8 => exact fun _ => rfl
  | _ => exact fun h => absurd h (by decide)

/-- A code is read within its limits (R49, R50). -/
theorem readInt_readCode (code : t ∈ [ETy.l8, .c10]) (x : Nat) : t.readInt x = readCode t x := by
  simp only [List.mem_cons, List.not_mem_nil, or_false] at code
  rcases code with rfl | rfl
  · rfl
  · have limit : readCode .c10 x = (Max.max (-511) (Min.min 511 (signed 16 x)), if signed 16 x < -511 ∨ 511 < signed 16 x then SAT else 0#8) := rfl
    rw [limit, ETy.readInt, sat]
    split
    · next low => rw [if_pos (.inl low), min_eq_right (by omega), max_eq_left low.le]
    · next low =>
      split
      · next high => rw [if_pos (.inr high), min_eq_left high.le, max_eq_right (by decide)]
      · next high => rw [if_neg (by omega), min_eq_right (by omega), max_eq_right (by omega)]

/-- An element of an integer or code type (R172). -/
theorem VArith.elem_exact (exact_ : t ∈ exactTypes) (o : VArith) (fmt : Fmt) (a b d : Nat) :
    let v := o.int (t.readInt a).1 (t.readInt b).1 (t.readInt d).1
    o.elem t fmt a b d = ((held t v).1, (held t v).2 ||| (t.readInt a).2 ||| (t.readInt b).2 ||| (if o.reads then (t.readInt d).2 else 0#8)) := by
  unfold VArith.elem
  rw [if_neg (show ¬ t.isReal = true by rw [isReal_exact exact_]; exact Bool.false_ne_true)]
  dsimp only
  rw [putInt_held exact_]

theorem signElem_exact (exact_ : t ∈ exactTypes) (abs : Bool) (fmt : Fmt) (x : Nat) :
    let v : Int := if abs then (t.readInt x).1.natAbs else -(t.readInt x).1
    signElem abs t fmt x = ((held t v).1, (held t v).2 ||| (t.readInt x).2) := by
  unfold signElem
  rw [if_neg (show ¬ t.isReal = true by rw [isReal_exact exact_]; exact Bool.false_ne_true)]
  dsimp only
  rw [putInt_held exact_]

end

/-- Integer lanes are exact and saturate once (R43, R172). -/
theorem integerLanesSaturateOnce : IntegerLanesSaturateOnce := by
  intro t fmt a b d int
  have exact_ := exactTypes_of_isInt int
  have eq (o : VArith) (v : Int) (value : o.int (signed t.bits a) (signed t.bits b) (signed t.bits d) = v) : o.elem t fmt a b d = delivered t v := by
    rw [VArith.elem_exact exact_, readInt_signed int, readInt_signed int, readInt_signed int, ← held_delivered int, ← value]
    cases o.reads <;> simp
  exact ⟨eq _ _ rfl, eq _ _ rfl, eq _ _ rfl, eq _ _ rfl, eq _ _ rfl⟩

/-- Code lanes are read, computed exactly, and saturate once (R49 to R51, R172). -/
theorem codeLanes_give {t : ETy} (code : t ∈ [ETy.l8, .c10]) (fmt : Fmt) (a b d : Nat) :
    let x := readCode t a
    let y := readCode t b
    let z := readCode t d
    let gives := fun (p : Nat × Fl) (v : Int) (f : Fl) => p = ((held t v).1, (held t v).2 ||| f)
    gives (VArith.add.elem t fmt a b d) (x.1 + y.1) (x.2 ||| y.2) ∧ gives (VArith.sub.elem t fmt a b d) (x.1 - y.1) (x.2 ||| y.2) ∧
    gives (VArith.mul.elem t fmt a b d) (x.1 * y.1) (x.2 ||| y.2) ∧ gives (VArith.max.elem t fmt a b d) (max x.1 y.1) (x.2 ||| y.2) ∧
    gives (VArith.min.elem t fmt a b d) (min x.1 y.1) (x.2 ||| y.2) ∧
    gives (VArith.fma.elem t fmt a b d) (z.1 + x.1 * y.1) (x.2 ||| y.2 ||| z.2) ∧
    gives (VArith.fms.elem t fmt a b d) (z.1 - x.1 * y.1) (x.2 ||| y.2 ||| z.2) ∧
    gives (signElem true t fmt a) |x.1| x.2 ∧ gives (signElem false t fmt a) (-x.1) x.2 := by
  have exact_ := exactTypes_of_code code
  dsimp only
  have two (o : VArith) (plain : o.reads = false) : o.elem t fmt a b d =
      ((held t (o.int (readCode t a).1 (readCode t b).1 (readCode t d).1)).1,
        (held t (o.int (readCode t a).1 (readCode t b).1 (readCode t d).1)).2 ||| ((readCode t a).2 ||| (readCode t b).2)) := by
    rw [VArith.elem_exact exact_, readInt_readCode code, readInt_readCode code, readInt_readCode code, plain, if_neg Bool.false_ne_true, BitVec.or_zero,
      BitVec.or_assoc]
  have three (o : VArith) (fused : o.reads = true) : o.elem t fmt a b d =
      ((held t (o.int (readCode t a).1 (readCode t b).1 (readCode t d).1)).1,
        (held t (o.int (readCode t a).1 (readCode t b).1 (readCode t d).1)).2 ||| ((readCode t a).2 ||| (readCode t b).2 ||| (readCode t d).2)) := by
    rw [VArith.elem_exact exact_, readInt_readCode code, readInt_readCode code, readInt_readCode code, fused, if_pos rfl, BitVec.or_assoc, BitVec.or_assoc,
      BitVec.or_assoc]
  have sign (abs : Bool) : signElem abs t fmt a = _ := signElem_exact exact_ abs fmt a
  refine ⟨two _ rfl, two _ rfl, two _ rfl, two _ rfl, two _ rfl, three _ rfl, three _ rfl, ?_, ?_⟩
  · rw [sign, readInt_readCode code, if_pos rfl, Int.natCast_natAbs]
  · rw [sign, readInt_readCode code, if_neg Bool.false_ne_true]

end Sys2Proof.Machine

namespace Sys2Proof.Machine
open Sys2Proof.Claims

/-! The code that a value is put into M8 as (R47). -/

/-- A fold that keeps the better of two ends with one that is as good as every other. -/
theorem foldl_best {α : Type} {R : α → α → Prop} {f : α → α → α} (refl : ∀ x, R x x) (trans : ∀ x y z, R x y → R y z → R x z)
    (left : ∀ x y, R (f x y) x) (right : ∀ x y, R (f x y) y) (l : List α) (x : α) : R (l.foldl f x) x ∧ ∀ c ∈ l, R (l.foldl f x) c := by
  induction l generalizing x with
  | nil => exact ⟨refl x, nofun⟩
  | cons y l ih =>
    obtain ⟨first, rest⟩ := ih (f x y)
    refine ⟨trans _ _ _ first (left x y), fun c member => ?_⟩
    rcases List.mem_cons.mp member with rfl | later
    · exact trans _ _ _ first (right x c)
    · exact rest c later

theorem foldl_mem {α : Type} {f : α → α → α} (one : ∀ x y, f x y = x ∨ f x y = y) (l : List α) (x : α) : l.foldl f x = x ∨ l.foldl f x ∈ l := by
  induction l generalizing x with
  | nil => exact .inl rfl
  | cons y l ih =>
    rcases ih (f x y) with eq | later
    · rcases one x y with h | h
      · exact .inl (eq.trans h)
      · exact .inr (List.mem_cons.mpr (.inl (eq.trans h)))
    · exact .inr (List.mem_cons.mpr (.inr later))

/-- How far a body is from a magnitude a/b in units of 2^-18, times b. -/
def m8Far (a b x : Nat) : Nat := ((m8Mag x * b : Nat) - (a : Int)).natAbs

/-- A body is nearer than another, or as near and preferred. -/
def M8Best (a b x y : Nat) : Prop :=
  m8Far a b x < m8Far a b y ∨ (m8Far a b x = m8Far a b y ∧ (x % 2 < y % 2 ∨ (x % 2 = y % 2 ∧ m8Mag y ≤ m8Mag x)))

section
variable {a b : Nat}

theorem M8Best.refl (x : Nat) : M8Best a b x x := .inr ⟨rfl, .inr ⟨rfl, le_rfl⟩⟩

theorem M8Best.trans (x y z : Nat) (xy : M8Best a b x y) (yz : M8Best a b y z) : M8Best a b x z := by
  unfold M8Best at *
  omega

theorem m8Better_cases (x y : Nat) : (m8Better a b x y = x ∧ M8Best a b x y) ∨ (m8Better a b x y = y ∧ M8Best a b y x) := by
  unfold m8Better M8Best
  dsimp only
  rw [← show m8Far a b x = ((m8Mag x * b : Nat) - (a : Int)).natAbs from rfl, ← show m8Far a b y = ((m8Mag y * b : Nat) - (a : Int)).natAbs from rfl]
  generalize m8Far a b x = dx
  generalize m8Far a b y = dy
  by_cases near : dx < dy
  · exact .inl ⟨if_pos near, .inl near⟩
  · rw [if_neg near]
    by_cases far : dy < dx
    · exact .inr ⟨if_pos far, .inl far⟩
    · rw [if_neg far]
      have tie : dx = dy := by omega
      by_cases parity : x % 2 = y % 2
      · rw [if_neg (not_not.mpr parity)]
        by_cases less : m8Mag x < m8Mag y
        · exact .inr ⟨if_pos less, .inr ⟨tie.symm, .inr ⟨parity.symm, less.le⟩⟩⟩
        · exact .inl ⟨if_neg less, .inr ⟨tie, .inr ⟨parity, not_lt.mp less⟩⟩⟩
      · rw [if_pos parity]
        by_cases even : x % 2 = 0
        · exact .inl ⟨if_pos even, .inr ⟨tie, .inl (by omega)⟩⟩
        · exact .inr ⟨if_neg even, .inr ⟨tie.symm, .inl (by omega)⟩⟩

theorem m8Better_left (x y : Nat) : M8Best a b (m8Better a b x y) x := by
  rcases m8Better_cases (a := a) (b := b) x y with ⟨eq, best⟩ | ⟨eq, best⟩
  · rw [eq]
    exact M8Best.refl x
  · rw [eq]
    exact best

theorem m8Better_right (x y : Nat) : M8Best a b (m8Better a b x y) y := by
  rcases m8Better_cases (a := a) (b := b) x y with ⟨eq, best⟩ | ⟨eq, best⟩
  · rw [eq]
    exact best
  · rw [eq]
    exact M8Best.refl y

/-- The body that is found is the best one. -/
theorem m8_search (a b : Nat) : (List.range 128).foldl (fun best c => m8Better a b best c) 0 < 128 ∧
    ∀ c < 128, M8Best a b ((List.range 128).foldl (fun best c => m8Better a b best c) 0) c := by
  constructor
  · rcases foldl_mem (f := fun best c => m8Better a b best c) (fun x y => (m8Better_cases x y).imp And.left And.left) (List.range 128) 0 with eq | member
    · rw [eq]
      decide
    · exact List.mem_range.mp member
  · intro c fits
    exact (foldl_best (R := M8Best a b) M8Best.refl M8Best.trans m8Better_left m8Better_right (List.range 128) 0).2 c (List.mem_range.mpr fits)

end

/-- The bodies in the order of their magnitudes. -/
def m8Order : List Nat := (List.range 128).insertionSort (fun x y => m8Mag x ≤ m8Mag y)

theorem mem_m8Order {b : Nat} : b ∈ m8Order ↔ b < 128 := by
  rw [m8Order, List.mem_insertionSort, List.mem_range]

/-- A body and the next greater one: the parities differ, but for two pairs (R45, R47). -/
abbrev M8Next (p b : Nat) : Prop := m8Mag p < m8Mag b ∧ (p % 2 ≠ b % 2 ∨ (b = 0x03 ∧ p = 0x07) ∨ (b = 0x16 ∧ p = 0x08))

theorem m8Order_chain : m8Order.IsChain M8Next := by decide +kernel

theorem m8Order_sorted : m8Order.Pairwise (fun p b => m8Mag p < m8Mag b) := by
  have chain : m8Order.IsChain (fun p b => m8Mag p < m8Mag b) := m8Order_chain.imp fun _ _ next => next.1
  have : IsTrans Nat (fun p b => m8Mag p < m8Mag b) := ⟨fun _ _ _ => Nat.lt_trans⟩
  exact chain.pairwise

/-- Of two bodies of one parity that no third one lies between there are two pairs. -/
theorem m8_tie {b c : Nat} (hb : b < 128) (hc : c < 128) (other : c ≠ b) (parity : b % 2 = c % 2) (order : m8Mag c ≤ m8Mag b) :
    (b = 0x03 ∧ c = 0x07) ∨ (b = 0x16 ∧ c = 0x08) ∨ ∃ d < 128, m8Mag c < m8Mag d ∧ m8Mag d < m8Mag b := by
  obtain ⟨j, hj, rfl⟩ := List.getElem_of_mem (mem_m8Order.mpr hb)
  obtain ⟨i, hi, rfl⟩ := List.getElem_of_mem (mem_m8Order.mpr hc)
  have sorted := List.pairwise_iff_getElem.mp m8Order_sorted
  have before : i < j := by
    rcases Nat.lt_trichotomy i j with less | rfl | more
    · exact less
    · exact absurd rfl other
    · exact absurd (sorted j i hj hi more) (not_lt.mpr order)
  obtain ⟨above, alternate⟩ := List.isChain_iff_getElem.mp m8Order_chain i (by omega)
  by_cases last : i + 1 = j
  · subst last
    rcases alternate with odd | pair | pair
    · exact absurd parity.symm odd
    · exact .inl pair
    · exact .inr (.inl pair)
  · exact .inr (.inr ⟨_, mem_m8Order.mp (List.getElem_mem (by omega)), above, sorted (i + 1) j (by omega) hj (by omega)⟩)

theorem m8Mag_pos : ∀ b < 128, b = 0 ∨ 0 < m8Mag b := by decide +kernel

/-- Two bodies of one parity are never both best, but for two pairs. -/
theorem M8Best.tie {a b x y : Nat} (hb : 0 < b) (hx : x < 128) (hy : y < 128) (best : ∀ z < 128, M8Best a b x z) (other : y ≠ x)
    (same : m8Far a b y = m8Far a b x) : (x % 2 = 0 ∧ y % 2 = 1) ∨ (x = 0x03 ∧ y = 0x07) ∨ (x = 0x16 ∧ y = 0x08) := by
  rcases best y hy with near | ⟨-, even | ⟨parity, order⟩⟩
  · omega
  · exact .inl (by omega)
  · rcases m8_tie hx hy other parity order with pair | pair | ⟨z, hz, below, above⟩
    · exact .inr (.inl pair)
    · exact .inr (.inr pair)
    · have far := best z hz
      have low := Nat.mul_lt_mul_of_pos_right below hb
      have high := Nat.mul_lt_mul_of_pos_right above hb
      unfold M8Best m8Far at far
      unfold m8Far at same
      omega

end Sys2Proof.Machine

namespace Sys2Proof.Machine
open Sys2Proof.Claims

/-! Values put into M8, and M8 lanes (R45 to R48). -/

section
variable {q : Q} {b : Nat}

theorem abs_div_of_pos {x y : ℚ} (pos : 0 < y) : |x / y| = |x| / y := by rw [abs_div, abs_of_pos pos]

theorem m8Far_value (pos : 0 < q.den) (hb : b < 128) :
    abs (m8Table.getD b 0 - abs q.value) = (m8Far (q.num.natAbs * 2 ^ 18) q.den b : ℚ) / (2 ^ 18 * q.den) := by
  have pos' : (0 : ℚ) < q.den := by exact_mod_cast pos
  have far : (m8Far (q.num.natAbs * 2 ^ 18) q.den b : ℚ) = |(m8Mag b : ℚ) * q.den - ((q.num.natAbs : ℕ) : ℚ) * 2 ^ 18| := by
    rw [m8Far, Nat.cast_natAbs, Int.cast_abs, Int.cast_sub, Int.cast_natCast, Int.cast_natCast, Nat.cast_mul, Nat.cast_mul, Nat.cast_pow, Nat.cast_ofNat]
  rw [m8Mag_table b hb, q.value_abs, far, ← abs_div_of_pos (show (0 : ℚ) < 2 ^ 18 * q.den by positivity)]
  congr 1
  field_simp

theorem m8Far_le (pos : 0 < q.den) {c : Nat} (hb : b < 128) (hc : c < 128) :
    abs (m8Table.getD b 0 - abs q.value) ≤ abs (m8Table.getD c 0 - abs q.value) ↔ m8Far (q.num.natAbs * 2 ^ 18) q.den b ≤ m8Far (q.num.natAbs * 2 ^ 18) q.den c := by
  have pos' : (0 : ℚ) < 2 ^ 18 * q.den := by
    have : (0 : ℚ) < q.den := by exact_mod_cast pos
    positivity
  rw [m8Far_value pos hb, m8Far_value pos hc, div_le_div_iff_of_pos_right pos']
  exact_mod_cast Iff.rfl

theorem m8_same (pos : 0 < q.den) (hb : b < 128) : m8Table.getD b 0 = |q.value| ↔ m8Mag b * q.den = q.num.natAbs * 2 ^ 18 := by
  have pos' : (q.den : ℚ) ≠ 0 := by exact_mod_cast pos.ne'
  rw [m8Mag_table b hb, q.value_abs, div_eq_div_iff (by positivity) pos']
  exact_mod_cast Iff.rfl

theorem m8_beyond (pos : 0 < q.den) : 65536 < |q.value| ↔ q.den * 2 ^ 34 < q.num.natAbs * 2 ^ 18 := by
  have pos' : (0 : ℚ) < q.den := by exact_mod_cast pos
  rw [q.value_abs, lt_div_iff₀ pos']
  constructor
  · intro h
    have : 65536 * q.den < q.num.natAbs := by exact_mod_cast h
    omega
  · intro h
    have : 65536 * q.den < q.num.natAbs := by omega
    exact_mod_cast this

/-- A value is put into M8 as its nearest code (R47). -/
theorem m8Encode_encodes (pos : 0 < q.den) (z : Bool) : EncodesM8 q.value (m8Encode (.val q z)).1 (m8Encode (.val q z)).2 := by
  have sign := Q.isNeg_iff pos
  unfold m8Encode
  dsimp only
  by_cases large : q.den * 2 ^ 34 < q.num.natAbs * 2 ^ 18
  · rw [if_pos large]
    refine ⟨fun _ => ⟨?_, rfl⟩, fun small => absurd ((m8_beyond pos).mpr large) (not_lt.mpr small)⟩
    simp only [sign]
  · rw [if_neg large]
    obtain ⟨fits, best⟩ := m8_search (q.num.natAbs * 2 ^ 18) q.den
    generalize (List.range 128).foldl (fun best c => m8Better (q.num.natAbs * 2 ^ 18) q.den best c) 0 = b at *
    have body : (if b = 0 then 0 else if q.isNeg = true then 128 + b else b) % 128 = b := by
      split
      · next zero => exact zero.symm
      · split
        · omega
        · omega
    refine ⟨fun beyond => absurd ((m8_beyond pos).mp beyond) large, fun _ => ⟨?_, ?_, ?_, fun d hd => ⟨?_, fun other same => ?_⟩⟩⟩
    · dsimp only
      split
      · decide
      · split <;> omega
    · rw [body, ← sign]
      by_cases zero : b = 0
      · simp [zero]
      · cases q.isNeg <;> simp [zero] <;> omega
    · rw [body]
      simp only [m8_same pos fits]
      by_cases whole : m8Mag b * q.den = q.num.natAbs * 2 ^ 18 <;> simp [flIf, whole]
    · rw [body, m8Far_le pos fits hd]
      rcases best d hd with near | ⟨same, -⟩
      · exact near.le
      · exact same.le
    · rw [body] at other same ⊢
      refine M8Best.tie pos fits hd best other (le_antisymm ?_ ?_)
      · exact (m8Far_le pos hd fits).mp same.le
      · exact (m8Far_le pos fits hd).mp same.ge

end

section
variable {v : ℚ} {c : Nat} {fl : Fl}

theorem m8Mag_le : ∀ b < 128, m8Mag b ≤ 2 ^ 34 := by decide +kernel

/-- A value that M8 has is put into it as it is. -/
theorem encodesM8_exact (encodes : EncodesM8 v c fl) {b : Nat} (hb : b < 128) (value : |v| = m8Table.getD b 0) : m8Value c = v ∧ fl = 0#8 := by
  have small : |v| ≤ 65536 := by
    have le : (m8Mag b : ℚ) ≤ 2 ^ 34 := by exact_mod_cast m8Mag_le b hb
    rw [value, m8Mag_table b hb, div_le_iff₀ (by positivity)]
    linarith
  obtain ⟨fits, sign, flags, near⟩ := encodes.2 small
  have zero := (near b hb).1
  dsimp only at zero
  rw [← value, sub_self, abs_zero] at zero
  have same : m8Table.getD (c % 128) 0 = |v| := by
    have := abs_nonpos_iff.mp zero
    linarith
  rw [if_pos same] at flags
  refine ⟨?_, flags⟩
  have high : c / 128 % 2 = 1 ↔ 128 ≤ c := by omega
  unfold m8Value
  rw [same]
  simp only [high, sign]
  by_cases neg : v < 0
  · by_cases none_ : c % 128 = 0
    · rw [none_] at same
      have : |v| = 0 := same.symm
      rw [abs_eq_zero.mp this, abs_zero, mul_zero]
    · rw [if_pos ⟨neg, none_⟩, abs_of_neg neg]
      ring
  · rw [if_neg fun h => neg h.1, abs_of_nonneg (not_lt.mp neg), one_mul]

theorem encodesM8_zero (encodes : EncodesM8 0 c fl) : c = 0 ∧ fl = 0#8 := by
  obtain ⟨-, noFlags⟩ := encodesM8_exact (b := 0) encodes (by decide) (by rw [abs_zero]; rfl)
  refine ⟨?_, noFlags⟩
  obtain ⟨fits, sign, -, near⟩ := encodes.2 (by norm_num)
  have zero := (near 0 (by decide)).1
  dsimp only at zero
  have body : c % 128 = 0 := by
    rcases m8Mag_pos (c % 128) (Nat.mod_lt _ (by decide)) with none_ | some_
    · exact none_
    · have some' : (0 : ℚ) < m8Mag (c % 128) := by exact_mod_cast some_
      rw [show m8Table.getD 0 0 = 0 from rfl, abs_zero, sub_zero, sub_zero, abs_zero, abs_nonpos_iff, m8Mag_table _ (Nat.mod_lt _ (by decide)),
        div_eq_zero_iff] at zero
      rcases zero with zero | zero
      · exact absurd zero some'.ne'
      · exact absurd zero (by norm_num)
  have low : ¬ 128 ≤ c := fun h => absurd (sign.mp h).1 (lt_irrefl 0)
  omega

theorem abs_m8Value (c : Nat) : |m8Value c| = m8Table.getD (c % 128) 0 := by
  have nonneg : 0 ≤ m8Table.getD (c % 128) 0 := by
    rw [m8Mag_table _ (Nat.mod_lt _ (by decide))]
    positivity
  unfold m8Value
  rw [abs_mul, abs_of_nonneg nonneg]
  split
  · rw [abs_neg, abs_one, one_mul]
  · rw [abs_one, one_mul]

/-- Every magnitude is a short number times a power of two. -/
theorem m8Mag_short : ∀ b < 128, ∃ j < 36, m8Mag b / 2 ^ j * 2 ^ j = m8Mag b ∧ m8Mag b / 2 ^ j < 2 ^ 24 := by decide +kernel

end

end Sys2Proof.Machine

namespace Sys2Proof.Machine
open Sys2Proof.Claims

/-! M8 lanes (R45 to R48, R172). -/

theorem Flt.zero_fin (f : Flt) (wide : 1 ≤ f.eb) (neg : Bool) : fin f.eb f.fb (f.zero neg) := by
  have zero : f.zero neg = packed f.eb f.fb neg.toNat 0 0 := by cases neg <;> simp [Flt.zero, packed]
  rw [zero]
  exact packed_fin (by have := f.top_eq wide; omega) (Nat.two_pow_pos _)

/-- A value well inside the range is rounded to a finite pattern. -/
theorem Flt.round_fin {f : Flt} {q : Q} (wide : 1 ≤ f.eb) (ranged : 1 ≤ f.bias) (pos : 0 < q.den) (inside : |q.value| < 2 ^ (f.bias : ℤ)) (rm : BitVec 2) (fz z : Bool) :
    fin f.eb f.fb (f.round rm fz q z).1 := by
  by_cases zero : q.value = 0
  · rw [Flt.round_zero pos zero]
    exact f.zero_fin wide z
  obtain ⟨e, n, inexact, tiny, parts, eq⟩ := Flt.round_parts (f := f) (rm := rm) pos zero fz z
  by_cases full : 2 ^ f.fb ≤ n
  · have exponent : e < f.bias := (zpow_lt_zpow_iff_right₀ (one_lt_two : (1 : ℚ) < 2)).mp (parts.low.trans_lt inside)
    have low := (Flt.biased_bounds (e := e) parts.most full).1
    have high : (n : ℚ) * f.unit e ≤ 2 ^ (Max.max e f.emin + 1) := by
      have whole := f.two_pow_unit e 1
      rw [Nat.cast_one] at whole
      rw [← whole, mul_le_mul_iff_left₀ (f.unit_pos e)]
      exact_mod_cast parts.most
    have bound := (zpow_le_zpow_iff_right₀ (one_lt_two : (1 : ℚ) < 2)).mp (low.trans high)
    have fits : ¬ 2 ^ f.eb - 1 ≤ f.biased e n := by
      rw [f.top_eq wide]
      unfold Flt.emin at bound
      omega
    rw [if_pos full, if_neg fits] at eq
    rw [eq]
    exact packed_fin (by omega) (Nat.mod_lt _ (Nat.two_pow_pos _))
  · rw [if_neg full] at eq
    cases fz with
    | true =>
      rw [if_pos rfl] at eq
      rw [eq]
      exact f.zero_fin wide _
    | false =>
      rw [if_neg Bool.false_ne_true] at eq
      rw [eq]
      exact packed_fin (by have := f.top_eq wide; omega) (not_le.mp full)

theorem FVal.ex_num (q : Q) (neg : Bool) : (FVal.num q neg).ex = .val q neg := rfl

/-- A value rounded in a format and put into M8. -/
def Flt.toM8 (f : Flt) (fmt : Fmt) (q : Q) (z : Bool) : Nat × Fl :=
  ((m8Encode (f.decode false (f.round fmt.rm fmt.fz q z).1).ex).1,
    (f.round fmt.rm fmt.fz q z).2 ||| (m8Encode (f.decode false (f.round fmt.rm fmt.fz q z).1).ex).2)

theorem Flt.toM8_eq (f : Flt) (fmt : Fmt) (q : Q) (z : Bool) : f.toM8 fmt q z =
    ((m8Encode (f.decode false ((Ex.val q z).round f fmt.rm fmt.fz).1).ex).1,
      ((Ex.val q z).round f fmt.rm fmt.fz).2 ||| (m8Encode (f.decode false ((Ex.val q z).round f fmt.rm fmt.fz).1).ex).2) := rfl

theorem putReal_m8_round (fmt : Fmt) (x : Ex) : ETy.m8.putReal fmt x = ((m8Encode (flt32.decode false (x.round flt32 fmt.rm fmt.fz).1).ex).1,
    (x.round flt32 fmt.rm fmt.fz).2 ||| (m8Encode (flt32.decode false (x.round flt32 fmt.rm fmt.fz).1).ex).2) := rfl

theorem putReal_m8_eq (fmt : Fmt) (q : Q) (z : Bool) : ETy.m8.putReal fmt (.val q z) = flt32.toM8 fmt q z := by
  rw [putReal_m8_round, Flt.toM8_eq]

theorem Flt.toM8_of_decode {f : Flt} {fmt : Fmt} {q p : Q} {z neg : Bool} (eq : f.decode false (f.round fmt.rm fmt.fz q z).1 = .num p neg) :
    f.toM8 fmt q z = ((m8Encode (.val p neg)).1, (f.round fmt.rm fmt.fz q z).2 ||| (m8Encode (.val p neg)).2) := by
  rw [Flt.toM8, eq, FVal.ex_num]

/-- The parts of a pair that is made of the parts of another. -/
theorem fst_snd_of_eq {r m : Nat × Fl} {u : Fl} (eq : r = (m.1, u ||| m.2)) : r.1 = m.1 ∧ r.2 = u ||| m.2 := by
  rw [eq]
  exact ⟨rfl, rfl⟩

/-- A finite pattern is put into M8 as its value. -/
theorem Flt.toM8_of_fin {f : Flt} {fmt : Fmt} {q : Q} {z : Bool} (finite : fin f.eb f.fb (f.round fmt.rm fmt.fz q z).1) :
    ∃ g, EncodesM8 (fval f.eb f.fb false (f.round fmt.rm fmt.fz q z).1) (f.toM8 fmt q z).1 g ∧
      (f.toM8 fmt q z).2 = (f.round fmt.rm fmt.fz q z).2 ||| g := by
  obtain ⟨p, eq, posP, valP⟩ := f.decode_fin false finite
  obtain ⟨code, flags⟩ := fst_snd_of_eq (Flt.toM8_of_decode eq)
  have encodes := m8Encode_encodes posP (decide ((f.round fmt.rm fmt.fz q z).1 / 2 ^ (f.eb + f.fb) % 2 = 1))
  rw [valP, ← code] at encodes
  exact ⟨_, encodes, flags⟩

section
variable {f : Flt} {fmt : Fmt} {q : Q} (wide : 1 ≤ f.eb) (ranged : 1 ≤ f.bias) (pos : 0 < q.den) (inside : |q.value| < 2 ^ (f.bias : ℤ))
include wide ranged pos inside

theorem Flt.toM8_encodes (z : Bool) : fin f.eb f.fb (f.round fmt.rm fmt.fz q z).1 ∧
    ∃ g, EncodesM8 (fval f.eb f.fb false (f.round fmt.rm fmt.fz q z).1) (f.toM8 fmt q z).1 g ∧
      (f.toM8 fmt q z).2 = (f.round fmt.rm fmt.fz q z).2 ||| g :=
  have finite := Flt.round_fin wide ranged pos inside fmt.rm fmt.fz z
  ⟨finite, Flt.toM8_of_fin finite⟩

theorem Flt.toM8_zero (zero : q.value = 0) (z : Bool) : f.toM8 fmt q z = (0, 0#8) := by
  obtain ⟨-, g, encodes, flags⟩ := Flt.toM8_encodes (fmt := fmt) wide ranged pos inside z
  have packs : f.zero z = packed f.eb f.fb z.toNat 0 0 := by cases z <;> simp [Flt.zero, packed]
  have none_ : fval f.eb f.fb false (f.zero z) = 0 := by
    rw [packs, Flt.fval_eq z (Nat.two_pow_pos _) (Nat.two_pow_pos _), Flt.magnitude_eq_zero.mpr ⟨rfl, rfl⟩, mul_zero]
  rw [Flt.round_zero pos zero] at encodes flags
  rw [none_] at encodes
  obtain ⟨code, clear⟩ := encodesM8_zero encodes
  refine Prod.ext code (flags.trans ?_)
  rw [clear, BitVec.or_zero]

theorem Flt.toM8_through (away : q.value ≠ 0) (z : Bool) : ∃ y u g, RoundsTo f.eb f.fb fmt.rm fmt.fz q.value y u ∧ fin f.eb f.fb y ∧
    EncodesM8 (fval f.eb f.fb false y) (f.toM8 fmt q z).1 g ∧ (f.toM8 fmt q z).2 = u ||| g := by
  obtain ⟨finite, g, encodes, flags⟩ := Flt.toM8_encodes (fmt := fmt) wide ranged pos inside z
  exact ⟨_, _, g, Flt.round_roundsTo wide pos away fmt.rm fmt.fz z, finite, encodes, flags⟩

/-- A value that M8 and the format have is delivered as it is. -/
theorem Flt.toM8_exact {b k : Nat} {j : ℤ} (hb : b < 128) (value : |q.value| = m8Table.getD b 0) (short : k < 2 ^ (f.fb + 1))
    (parts : |q.value| = k * 2 ^ j) (fine : f.emin - f.fb ≤ j) (normal : q.value ≠ 0 → (2 : ℚ) ^ f.emin ≤ |q.value|) (z : Bool) :
    m8Value (f.toM8 fmt q z).1 = q.value := by
  by_cases zero : q.value = 0
  · rw [Flt.toM8_zero wide ranged pos inside zero, zero]
    norm_num [m8Value, m8Table]
  · obtain ⟨-, g, encodes, -⟩ := Flt.toM8_encodes (fmt := fmt) wide ranged pos inside z
    have fits := inside.trans (zpow_lt_zpow_right₀ (one_lt_two : (1 : ℚ) < 2) (show (f.bias : ℤ) < f.bias + 1 by omega))
    obtain ⟨gives, -⟩ := Flt.round_exact wide pos zero fmt.rm fmt.fz z parts short fine fits (.inr (normal zero))
    rw [gives.value, ← q.value_signOf] at encodes
    exact (encodesM8_exact encodes hb value).1

end

section
variable {fmt : Fmt} {q : Q}

theorem flt32_bias : flt32.bias = 127 := by decide

/-- A value of the exponents of F32 is delivered in M8 through F32 (R48). -/
theorem putReal_m8 (pos : 0 < q.den) (inside : |q.value| < 2 ^ (127 : ℤ)) (z : Bool) :
    (q.value = 0 → ETy.m8.putReal fmt (.val q z) = (0, 0#8)) ∧
    (q.value ≠ 0 → ∃ y f g, RoundsTo 8 23 fmt.rm fmt.fz q.value y f ∧ fin 8 23 y ∧
      EncodesM8 (fval 8 23 false y) (ETy.m8.putReal fmt (.val q z)).1 g ∧ (ETy.m8.putReal fmt (.val q z)).2 = f ||| g) := by
  have inside' : |q.value| < 2 ^ (flt32.bias : ℤ) := by
    rw [flt32_bias]
    exact inside
  rw [putReal_m8_eq]
  exact ⟨fun zero => Flt.toM8_zero (by decide) (by decide) pos inside' zero z,
    fun away => Flt.toM8_through (f := flt32) (by decide) (by decide) pos inside' away z⟩

theorem m8Table_le {b : Nat} (hb : b < 128) : m8Table.getD b 0 ≤ 65536 := by
  have le : (m8Mag b : ℚ) ≤ 2 ^ 34 := by exact_mod_cast m8Mag_le b hb
  rw [m8Mag_table b hb, div_le_iff₀ (by positivity)]
  linarith

/-- A value that M8 has is delivered as it is. -/
theorem putReal_m8_exact (pos : 0 < q.den) {b : Nat} (hb : b < 128) (value : |q.value| = m8Table.getD b 0) (z : Bool) :
    m8Value (ETy.m8.putReal fmt (.val q z)).1 = q.value := by
  obtain ⟨j, hj, parts, short⟩ := m8Mag_short b hb
  have partsQ : (m8Mag b : ℚ) = (m8Mag b / 2 ^ j : ℕ) * 2 ^ (j : ℤ) := by
    rw [zpow_natCast]
    exact_mod_cast parts.symm
  rw [putReal_m8_eq]
  refine Flt.toM8_exact (f := flt32) (k := m8Mag b / 2 ^ j) (j := (j : ℤ) - 18) (by decide) (by decide) pos ?_ hb value short ?_ ?_ ?_ z
  · rw [flt32_bias, value]
    exact (m8Table_le hb).trans_lt (by norm_num)
  · rw [value, m8Mag_table b hb, partsQ, zpow_sub₀ two_ne_zero, mul_div_assoc]
    rfl
  · rw [Flt.emin, flt32_bias]
    change (1 : ℤ) - (127 : ℕ) - (23 : ℕ) ≤ _
    omega
  · intro away
    rw [value, m8Mag_table b hb, Flt.emin, flt32_bias]
    rcases m8Mag_pos b hb with none_ | some_
    · rw [none_] at value
      exact absurd (abs_eq_zero.mp value) away
    · have one : (1 : ℚ) ≤ m8Mag b := by exact_mod_cast some_
      rw [le_div_iff₀ (by positivity)]
      exact le_trans (by norm_num) one

end

end Sys2Proof.Machine

namespace Sys2Proof.Machine
open Sys2Proof.Claims

/-! M8 lanes (R45 to R48, R172, R198). -/

/-- An M8 element but NaR is read as its table's value. -/
theorem readReal_m8 {c : Nat} (fits : c < 256) (number : c ≠ 0x80) (fz : Bool) :
    ∃ q neg, ETy.m8.readReal fz c = .val q neg ∧ 0 < q.den ∧ q.value = m8Value c := by
  obtain ⟨q, neg, eq, pos, value, -⟩ := m8Decode_value (c := c) (by omega)
  refine ⟨q, neg, ?_, pos, value⟩
  rw [show ETy.m8.readReal fz c = (m8Decode c).ex from rfl, eq, FVal.ex_num]

theorem m8Value_le (c : Nat) : |m8Value c| ≤ 65536 := by
  rw [abs_m8Value]
  exact m8Table_le (Nat.mod_lt _ (by decide))

/-- An M8 element of an exact value (R48, R172). -/
theorem VArith.elem_m8 {o : VArith} {fmt : Fmt} {a b d : Nat} {x : Ex} {fl : Fl}
    (real : o.real fmt (ETy.m8.readReal fmt.fz a) (ETy.m8.readReal fmt.fz b) (ETy.m8.readReal fmt.fz d) = (x, fl)) :
    o.elem .m8 fmt a b d = ((ETy.m8.putReal fmt x).1, (ETy.m8.putReal fmt x).2 ||| fl) := by
  unfold VArith.elem
  rw [if_pos (show ETy.m8.isReal = true from rfl)]
  dsimp only
  rw [real]

/-- A value taken through F32 and put into M8. -/
def Through (fmt : Fmt) (p : Nat × Fl) (v : ℚ) : Prop :=
  (v = 0 → p = (0, 0#8)) ∧
  (v ≠ 0 → ∃ y f g, RoundsTo 8 23 fmt.rm fmt.fz v y f ∧ fin 8 23 y ∧ EncodesM8 (fval 8 23 false y) p.1 g ∧ p.2 = f ||| g)

theorem elem_through {o : VArith} {fmt : Fmt} {a b d : Nat} {q : Q} {v : ℚ} (pos : 0 < q.den) (value : q.value = v) (inside : |v| ≤ 2 ^ 40)
    (real : ∃ z, o.real fmt (ETy.m8.readReal fmt.fz a) (ETy.m8.readReal fmt.fz b) (ETy.m8.readReal fmt.fz d) = (.val q z, 0#8)) :
    Through fmt (o.elem .m8 fmt a b d) v := by
  obtain ⟨z, real⟩ := real
  have delivers := putReal_m8 (fmt := fmt) pos (by rw [value]; exact inside.trans_lt (by norm_num)) z
  rw [VArith.elem_m8 real, BitVec.or_zero, ← value]
  exact delivers

section
variable {fmt : Fmt} {a b d : Nat} (fitsA : a < 256) (fitsB : b < 256) (numberA : a ≠ 0x80) (numberB : b ≠ 0x80)
include fitsA fitsB numberA numberB

/-- Sums, differences and products of M8 lanes. -/
theorem m8_plain (d : Nat) : Through fmt (VArith.add.elem .m8 fmt a b d) (m8Value a + m8Value b) ∧
    Through fmt (VArith.sub.elem .m8 fmt a b d) (m8Value a - m8Value b) ∧ Through fmt (VArith.mul.elem .m8 fmt a b d) (m8Value a * m8Value b) := by
  obtain ⟨p, m, readA, posA, valA⟩ := readReal_m8 fitsA numberA fmt.fz
  obtain ⟨q, n, readB, posB, valB⟩ := readReal_m8 fitsB numberB fmt.fz
  have leA := m8Value_le a
  have leB := m8Value_le b
  refine ⟨elem_through (Q.den_add posA posB) ?_ ?_ ?_, elem_through (Q.den_add posA (Q.den_neg posB)) ?_ ?_ ?_, elem_through (Q.den_mul posA posB) ?_ ?_ ?_⟩
  · exact (Q.value_add posA posB).trans (by rw [valA, valB])
  · exact (abs_add_le _ _).trans (by linarith)
  · rw [readA, readB]
    exact ⟨_, rfl⟩
  · exact (Q.value_add posA (Q.den_neg posB)).trans (by rw [Q.value_neg, valA, valB, sub_eq_add_neg])
  · exact (abs_sub _ _).trans (by linarith)
  · rw [readA, readB]
    exact ⟨_, rfl⟩
  · exact (Q.value_mul p q).trans (by rw [valA, valB])
  · rw [abs_mul]
    exact (mul_le_mul leA leB (abs_nonneg _) (by norm_num)).trans (by norm_num)
  · rw [readA, readB]
    exact ⟨_, rfl⟩

theorem m8_fused (fitsD : d < 256) (numberD : d ≠ 0x80) : Through fmt (VArith.fma.elem .m8 fmt a b d) (m8Value d + m8Value a * m8Value b) ∧
    Through fmt (VArith.fms.elem .m8 fmt a b d) (m8Value d - m8Value a * m8Value b) := by
  obtain ⟨p, m, readA, posA, valA⟩ := readReal_m8 fitsA numberA fmt.fz
  obtain ⟨q, n, readB, posB, valB⟩ := readReal_m8 fitsB numberB fmt.fz
  obtain ⟨r, l, readD, posD, valD⟩ := readReal_m8 fitsD numberD fmt.fz
  have posM := Q.den_mul posA posB
  have leD := m8Value_le d
  have leM : |m8Value a * m8Value b| ≤ 65536 * 65536 := by
    rw [abs_mul]
    exact mul_le_mul (m8Value_le a) (m8Value_le b) (abs_nonneg _) (by norm_num)
  refine ⟨elem_through (Q.den_add posD posM) ?_ ?_ ?_, elem_through (Q.den_add posD (Q.den_neg posM)) ?_ ?_ ?_⟩
  · exact (Q.value_add posD posM).trans (by rw [Q.value_mul, valA, valB, valD])
  · exact (abs_add_le _ _).trans (by linarith)
  · rw [readA, readB, readD]
    exact ⟨_, rfl⟩
  · exact (Q.value_add posD (Q.den_neg posM)).trans (by rw [Q.value_neg, Q.value_mul, valA, valB, valD, sub_eq_add_neg])
  · exact (abs_sub _ _).trans (by linarith)
  · rw [readA, readB, readD]
    exact ⟨_, rfl⟩

/-- Maximum and minimum of M8 lanes. -/
theorem m8_picks : m8Value (VArith.max.elem .m8 fmt a b d).1 = Max.max (m8Value a) (m8Value b) ∧
    m8Value (VArith.min.elem .m8 fmt a b d).1 = Min.min (m8Value a) (m8Value b) := by
  obtain ⟨p, m, readA, posA, valA⟩ := readReal_m8 fitsA numberA fmt.fz
  obtain ⟨q, n, readB, posB, valB⟩ := readReal_m8 fitsB numberB fmt.fz
  have putA : m8Value (ETy.m8.putReal fmt (.val p m)).1 = m8Value a :=
    (putReal_m8_exact posA (b := a % 128) (Nat.mod_lt _ (by decide)) (by rw [valA, abs_m8Value]) m).trans valA
  have putB : m8Value (ETy.m8.putReal fmt (.val q n)).1 = m8Value b :=
    (putReal_m8_exact posB (b := b % 128) (Nat.mod_lt _ (by decide)) (by rw [valB, abs_m8Value]) n).trans valB
  have lower : Ex.lt true (.val p m) (.val q n) = true ↔ p.value < q.value ∨ (p.value = 0 ∧ q.value = 0 ∧ m = true ∧ n = false) := by
    simp only [Ex.lt, Bool.or_eq_true, Bool.true_and, Bool.and_eq_true, Bool.not_eq_true', Q.lt_iff posA posB, Q.isZero_iff posA, Q.isZero_iff posB, and_assoc]
  have big : VArith.max.real fmt (ETy.m8.readReal fmt.fz a) (ETy.m8.readReal fmt.fz b) (ETy.m8.readReal fmt.fz d) =
      (if Ex.lt true (.val p m) (.val q n) = true then .val q n else .val p m, 0#8) := by
    rw [readA, readB]
    cases less : Ex.lt true (.val p m) (.val q n) <;> simp [VArith.real, Ex.pick, less]
  have small : VArith.min.real fmt (ETy.m8.readReal fmt.fz a) (ETy.m8.readReal fmt.fz b) (ETy.m8.readReal fmt.fz d) =
      (if Ex.lt true (.val p m) (.val q n) = true then .val p m else .val q n, 0#8) := by
    rw [readA, readB]
    cases less : Ex.lt true (.val p m) (.val q n) <;> simp [VArith.real, Ex.pick, less]
  rw [VArith.elem_m8 big, VArith.elem_m8 small]
  dsimp only
  by_cases less : Ex.lt true (.val p m) (.val q n) = true
  · rw [if_pos less, if_pos less, putA, putB]
    have order : m8Value a ≤ m8Value b := by
      rw [← valA, ← valB]
      exact (lower.mp less).elim le_of_lt fun h => by rw [h.1, h.2.1]
    exact ⟨(max_eq_right order).symm, (min_eq_left order).symm⟩
  · rw [if_neg less, if_neg less, putA, putB]
    rw [lower, not_or, valA, valB] at less
    exact ⟨(max_eq_left (not_lt.mp less.1)).symm, (min_eq_right (not_lt.mp less.1)).symm⟩

end

theorem decode_qnan : flt32.decode false flt32.qnan = .nan false := by decide +kernel

theorem Ex.round_nan (f : Flt) (rm : BitVec 2) (fz nv : Bool) : (Ex.nan nv).round f rm fz = (f.qnan, flIf nv NV) := rfl

theorem m8Encode_nan (nv : Bool) : m8Encode (.nan nv) = (0x80, NAR) := rfl

theorem putReal_m8_nan (fmt : Fmt) : ETy.m8.putReal fmt (.nan false) = (0x80, NAR) := by
  have ex : (FVal.nan false).ex = .nan false := rfl
  rw [putReal_m8_round, Ex.round_nan, decode_qnan, ex, m8Encode_nan]
  rfl

theorem readReal_m8_nar (fz : Bool) : ETy.m8.readReal fz 0x80 = .nan false := rfl

/-- No M8 element is signalling. -/
theorem readReal_m8_invalid {c : Nat} (fits : c < 256) (fz : Bool) : (ETy.m8.readReal fz c).invalid = false := by
  by_cases nar : c = 0x80
  · rw [nar]
    rfl
  · obtain ⟨q, neg, read, -⟩ := readReal_m8 fits nar fz
    rw [read]
    rfl

/-- NaR gives NaR. -/
theorem m8_nar {fmt : Fmt} {a b : Nat} (d : Nat) (fitsA : a < 256) (fitsB : b < 256) (nar : a = 0x80 ∨ b = 0x80) :
    ∀ o ∈ [VArith.add, .sub, .mul], o.elem .m8 fmt a b d = (0x80, NAR) := by
  have either : (ETy.m8.readReal fmt.fz a).isNaN = true ∨ (ETy.m8.readReal fmt.fz b).isNaN = true := by
    rcases nar with rfl | rfl
    · exact .inl rfl
    · exact .inr rfl
  have validA := readReal_m8_invalid fitsA fmt.fz
  have validB := readReal_m8_invalid fitsB fmt.fz
  have eq {o : VArith} (real : o.real fmt (ETy.m8.readReal fmt.fz a) (ETy.m8.readReal fmt.fz b) (ETy.m8.readReal fmt.fz d) = (.nan false, 0#8)) :
      o.elem .m8 fmt a b d = (0x80, NAR) := by
    rw [VArith.elem_m8 real, putReal_m8_nan, BitVec.or_zero]
  intro o member
  simp only [List.mem_cons, List.not_mem_nil, or_false] at member
  rcases member with rfl | rfl | rfl
  · exact eq (Prod.ext ((Ex.add_nan fmt.rm either).trans (by rw [validA, validB]; rfl)) rfl)
  · exact eq (Prod.ext ((Ex.add_nan fmt.rm (by rwa [Ex.neg_isNaN])).trans (by rw [Ex.neg_invalid, validA, validB]; rfl)) rfl)
  · exact eq (Prod.ext ((Ex.mul_nan either).trans (by rw [validA, validB]; rfl)) rfl)

theorem signElem_m8 (abs : Bool) (fmt : Fmt) (x : Nat) : signElem abs .m8 fmt x =
    m8Encode (if abs then (if (ETy.m8.readReal fmt.fz x).sign then (ETy.m8.readReal fmt.fz x).neg else ETy.m8.readReal fmt.fz x)
      else (ETy.m8.readReal fmt.fz x).neg) := by
  unfold signElem
  rw [if_pos (show ETy.m8.isReal = true from rfl)]

/-- The sign operations on M8 lanes. -/
theorem m8_signs {fmt : Fmt} {a : Nat} (fits : a < 256) (number : a ≠ 0x80) :
    m8Value (signElem true .m8 fmt a).1 = |m8Value a| ∧ m8Value (signElem false .m8 fmt a).1 = -m8Value a := by
  obtain ⟨q, n, read, pos, value⟩ := readReal_m8 fits number fmt.fz
  have body := Nat.mod_lt a (show 0 < 128 by decide)
  have plain (z : Bool) : m8Value (m8Encode (.val q z)).1 = m8Value a :=
    (encodesM8_exact (m8Encode_encodes pos z) body (by rw [value, abs_m8Value])).1.trans value
  have flips (z : Bool) : m8Value (m8Encode (.val q.neg z)).1 = -m8Value a :=
    (encodesM8_exact (m8Encode_encodes (Q.den_neg pos) z) body (by rw [Q.value_neg, abs_neg, value, abs_m8Value])).1.trans (by rw [Q.value_neg, value])
  have neg : (Ex.val q n).neg = .val q.neg (!n) := rfl
  rw [signElem_m8, signElem_m8, read, if_pos rfl, if_neg Bool.false_ne_true, neg]
  refine ⟨?_, flips _⟩
  have sign : (Ex.val q n).sign = if q.isZero then n else q.isNeg := rfl
  rw [sign]
  by_cases zero : q.isZero = true
  · have none_ : m8Value a = 0 := by
      rw [← value]
      exact (Q.isZero_iff pos).mp zero
    rw [if_pos zero]
    cases n with
    | true => rw [if_pos rfl, flips, none_, neg_zero, abs_zero]
    | false => rw [if_neg Bool.false_ne_true, plain, none_, abs_zero]
  · rw [if_neg zero]
    by_cases less : q.isNeg = true
    · rw [if_pos less, flips, abs_of_neg]
      rw [← value]
      exact (Q.isNeg_iff pos).mp less
    · rw [if_neg less, plain, abs_of_nonneg]
      rw [← value, ← not_lt, ← Q.isNeg_iff pos]
      exact less

theorem m8_sign_nar (fmt : Fmt) (abs : Bool) : signElem abs .m8 fmt 0x80 = (0x80, NAR) := by
  rw [signElem_m8, readReal_m8_nar]
  cases abs <;> rfl

/-- M8 lanes and lanes of codes (R45 to R51, R172). -/
theorem codeLanesSaturate : CodeLanesSaturate := by
  intro fmt a b d
  refine ⟨fun fitsA fitsB fitsD => ⟨fun numberA numberB => ?_, fun nar => m8_nar d fitsA fitsB nar, fun number => m8_signs fitsA number, m8_sign_nar fmt⟩,
    fun t code _ _ _ => codeLanes_give code fmt a b d⟩
  obtain ⟨sum, difference, product⟩ := m8_plain (fmt := fmt) fitsA fitsB numberA numberB d
  obtain ⟨most, least⟩ := m8_picks (fmt := fmt) (d := d) fitsA fitsB numberA numberB
  exact ⟨sum, difference, product, fun numberD => m8_fused fitsA fitsB numberA numberB fitsD numberD, most, least⟩

end Sys2Proof.Machine

namespace Sys2Proof.Machine
open Sys2Proof.Claims

/-! Element-wise instructions lane by lane (R168, R172, R175). -/

theorem zip3_length (f : Nat → Nat → Nat → Nat × Fl) : ∀ (xs ys zs : List Nat), xs.length = ys.length → ys.length = zs.length →
    (zip3 f xs ys zs).length = xs.length
  | [], [], [], _, _ => rfl
  | _ :: xs, _ :: ys, _ :: zs, hy, hz => congrArg (· + 1) (zip3_length f xs ys zs (by simpa using hy) (by simpa using hz))

theorem zip3_getD (f : Nat → Nat → Nat → Nat × Fl) : ∀ (xs ys zs : List Nat), xs.length = ys.length → ys.length = zs.length → ∀ i < xs.length,
    (zip3 f xs ys zs).getD i (0, 0#8) = f (xs.getD i 0) (ys.getD i 0) (zs.getD i 0)
  | [], _, _, _, _, _, inside => nomatch inside
  | x :: xs, y :: ys, z :: zs, hy, hz, i, inside => by
    cases i with
    | zero => rfl
    | succ i => exact zip3_getD f xs ys zs (by simpa using hy) (by simpa using hz) i (by simpa using inside)

theorem zip_getD {xs ys : List Nat} {i : Nat} (hx : i < xs.length) (hy : i < ys.length) :
    (xs.zip ys).getD i (0, 0) = (xs.getD i 0, ys.getD i 0) := by
  rw [List.getD_eq_getElem _ _ (by simpa using ⟨hx, hy⟩), List.getElem_zip, List.getD_eq_getElem _ _ hx, List.getD_eq_getElem _ _ hy]

section
variable {j : Instr} {s : State} {te : Bool} {d a b : VReg} {x : SReg} {k : KLow} {srcs : List Opnd}

/-- An instruction that merges its results into vd, lane by lane (R168). -/
theorem exec_vmerge {lat : Nat} {rs : List (Nat × Fl)} {f : Nat → Nat × Fl} (slot : slotOf j s = some (s.vmerge te d k lat srcs true rs))
    (goes : VecGoes s (srcs ++ [.k k.toK]) [s.oA d]) (length : rs.length = s.fmt.ety.count)
    (results : ∀ i < s.fmt.ety.count, rs.getD i (0, 0#8) = f i) : ∃ u, exec j s = .next u ∧ LanesBecome s u d k lat f :=
  ⟨_, exec_vslot slot goes, lanesBecome_merge length (fun i inside => by rw [results i inside]) (fun i inside => by rw [results i inside])⟩

/-- Arithmetic with a vector operand. -/
theorem exec_varith {o : VArith} (slot : slotOf j s = some (s.varith o te d a b k))
    (goes : VecGoes s [s.oA a, s.oB b, .s x, s.oA d, .k k.toK] [s.oA d]) :
    ∃ u, exec j s = .next u ∧ LanesBecome s u d k 12 (fun i => o.elem s.fmt.ety s.fmt (laneA s a i) (laneB s b i) (laneA s d i)) := by
  refine exec_vmerge slot (vecGoes_of_subset goes ?_) ((zip3_length _ _ _ _ (by simp) (by simp)).trans (by simp)) fun i inside => ?_
  · cases o.reads <;> simp
  · rw [zip3_getD _ _ _ _ (by simp) (by simp) i (by simpa using inside), s.eA_getD, s.eB_getD, s.eA_getD]

/-- Arithmetic with a scalar operand. -/
theorem exec_varithS {o : VArith} (slot : slotOf j s = some (s.varithS o te d a x k))
    (goes : VecGoes s [s.oA a, s.oB b, .s x, s.oA d, .k k.toK] [s.oA d]) :
    ∃ u, exec j s = .next u ∧ LanesBecome s u d k 12 (fun i => o.elem s.fmt.ety s.fmt (laneA s a i) ((s.rS x).toNat % 2 ^ s.fmt.ety.bits) (laneA s d i)) := by
  refine exec_vmerge slot (vecGoes_of_subset goes ?_) (by simp) fun i inside => ?_
  · cases o.reads <;> simp
  · rw [getD_map _ (by simpa using inside) (0, 0), zip_getD (by simpa using inside) (by simpa using inside), s.eA_getD, s.eA_getD]
    rfl

end

end Sys2Proof.Machine

namespace Sys2Proof.Proofs
open Sys2Proof.Machine Sys2Proof.Claims

/-- Vector arithmetic lane by lane (R172, R175). -/
theorem vectorArithmeticLanes : Claims.VectorArithmeticResults := by
  intro te d a b k x s goes
  exact ⟨exec_varith rfl goes, exec_varith rfl goes, exec_varith rfl goes, exec_varith rfl goes, exec_varith rfl goes, exec_varith rfl goes,
    exec_varith rfl goes, exec_varithS rfl goes, exec_varithS rfl goes, exec_varithS rfl goes, exec_varithS rfl goes, exec_varithS rfl goes⟩

/-- Settles O12: the lanes of an element-wise instruction are merged under its mask; a float value is rounded once in units of its binade, an
integer is held to its range, and an M8 result goes through F32 to its nearest code. -/
theorem vectorArithmeticResults : Obligations.VectorArithmeticResults := by
  unfold Obligations.VectorArithmeticResults
  exact ⟨vectorArithmeticLanes, integerLanesSaturateOnce, floatLanesRoundOnce, codeLanesSaturate⟩

end Sys2Proof.Proofs

namespace Sys2Proof.Machine
open Sys2Proof.Claims

/-! Masks written by compares and mask logic (R20, R174, R196, R205). -/

/-- A bit of a mask that is made of its bits. -/
theorem maskOf_getLsbD {bs : List Bool} {i : Nat} (inside : i < 4096) : (maskOf bs).getLsbD i = bs.getD i false := by
  have bit := join_element 1 (bs.map (fun b => if b then 1 else 0)) i
  rw [Nat.one_mul, Nat.pow_one] at bit
  rw [maskOf, BitVec.getLsbD_ofNat, decide_eq_true inside, Bool.true_and, Nat.testBit_eq_decide_div_mod_eq, bit]
  rcases Nat.lt_or_ge i bs.length with some_ | past
  · rw [getD_map _ some_ false]
    cases bs.getD i false <;> rfl
  · rw [List.getD_eq_default _ _ (by simpa using past), List.getD_eq_default _ _ past]
    rfl

section
variable {o : VCmp} {t : ETy} {fmt : Fmt}

/-- The results of a compare as elements with their flags. -/
def cmpResults (o : VCmp) (t : ETy) (fmt : Fmt) (xs ys : List Nat) : List (Nat × Fl) :=
  (xs.zip ys).map (fun p => (0, (o.elem t fmt p.1 p.2).2))

theorem cmpBits_flags : ∀ (ks : List Bool) (xs ys : List Nat), ks.length = xs.length → xs.length = ys.length →
    (cmpBits o t fmt ks xs ys).2 = (merge ks (cmpResults o t fmt xs ys) xs).2
  | [], [], [], _, _ => rfl
  | k :: ks, x :: xs, y :: ys, hx, hy => by
    have rest := cmpBits_flags ks xs ys (by simpa using hx) (by simpa using hy)
    cases k with
    | true => exact congrArg ((o.elem t fmt x y).2 ||| ·) rest
    | false => exact rest

theorem cmpBits_length : ∀ (ks : List Bool) (xs ys : List Nat), ks.length = xs.length → xs.length = ys.length → (cmpBits o t fmt ks xs ys).1.length = ks.length
  | [], [], [], _, _ => rfl
  | k :: ks, x :: xs, y :: ys, hx, hy => by
    have rest := cmpBits_length ks xs ys (by simpa using hx) (by simpa using hy)
    cases k with
    | true => exact congrArg (· + 1) rest
    | false => exact congrArg (· + 1) rest

theorem cmpBits_getD : ∀ (ks : List Bool) (xs ys : List Nat), ks.length = xs.length → xs.length = ys.length → ∀ i < ks.length,
    (cmpBits o t fmt ks xs ys).1.getD i false = (ks.getD i false && (o.elem t fmt (xs.getD i 0) (ys.getD i 0)).1)
  | [], _, _, _, _, _, inside => nomatch inside
  | k :: ks, x :: xs, y :: ys, hx, hy, i, inside => by
    cases i with
    | zero => cases k <;> rfl
    | succ i =>
      have rest := cmpBits_getD ks xs ys (by simpa using hx) (by simpa using hy) i (by simpa using inside)
      cases k with
      | true => exact rest
      | false => exact rest

end

/-- The flags that merging leaves are those of the active lanes. -/
theorem merge_laneFlags {s : State} {k : KLow} {rs : List (Nat × Fl)} {os : List Nat} {f : Nat → Fl} (length : rs.length = s.fmt.ety.count)
    (olds : os.length = s.fmt.ety.count) (flags : ∀ i < s.fmt.ety.count, (rs.getD i (0, 0#8)).2 = f i) : (merge (s.act k) rs os).2 = laneFlags s k f := by
  have merged := foldl_flags_eq_merge (s.act k) rs os (by simp [olds]) (length.trans olds.symm) 0#8
  rw [BitVec.zero_or, olds] at merged
  rw [← merged, laneFlags]
  refine List.foldl_ext _ _ _ fun g i hi => ?_
  have inside := List.mem_range.mp hi
  rw [State.act_getD k inside, flags i inside]

section
variable {s : State} {a b : VReg} {k : KLow} {o : VCmp}

theorem cmp_flags : (cmpBits o s.fmt.ety s.fmt (s.act k) (s.eA a) (s.eB b)).2 =
    laneFlags s k (fun i => (o.elem s.fmt.ety s.fmt (laneA s a i) (laneB s b i)).2) := by
  rw [cmpBits_flags _ _ _ (by simp) (by simp)]
  refine merge_laneFlags (by simp [cmpResults]) (by simp) fun i inside => ?_
  rw [cmpResults, getD_map _ (by simpa using inside) (0, 0), zip_getD (by simpa using inside) (by simpa using inside), s.eA_getD, s.eB_getD]

theorem cmp_bits (i : Nat) (inside : i < 4096) : (maskOf (cmpBits o s.fmt.ety s.fmt (s.act k) (s.eA a) (s.eB b)).1).getLsbD i =
    (decide (i < s.fmt.ety.count) && (on s k i && (o.elem s.fmt.ety s.fmt (laneA s a i) (laneB s b i)).1)) := by
  have length := cmpBits_length (o := o) (t := s.fmt.ety) (fmt := s.fmt) (s.act k) (s.eA a) (s.eB b) (by simp) (by simp)
  rw [s.act_length] at length
  rw [maskOf_getLsbD inside]
  by_cases lane_ : i < s.fmt.ety.count
  · rw [cmpBits_getD _ _ _ (by simp) (by simp) i (by simpa using lane_), State.act_getD k lane_, s.eA_getD, s.eB_getD, decide_eq_true lane_, Bool.true_and]
  · rw [List.getD_eq_default _ _ (by omega), decide_eq_false lane_, Bool.false_and]

end

/-- A slot with fewer sources and destinations goes when one with more of them does. -/
theorem vecGoes_mono {s : State} {srcs more dsts all : List Opnd} (goes : VecGoes s more all) (fewer : ∀ o ∈ srcs, o ∈ more ∨ o = .k 0)
    (into : dsts ⊆ all) : VecGoes s srcs dsts := by
  obtain ⟨ready, reads, room⟩ := goes
  refine ⟨ready, fun o ho => ?_, fun o ho => room o (into ho)⟩
  rcases fewer o ho with known | rfl
  · exact reads o known
  · exact ⟨rfl, rfl⟩

section
variable {j : Instr} {s : State} {te : Bool} {d p q : KReg} {a b : VReg} {k : KLow}

/-- An instruction that writes a whole mask (R20). -/
theorem exec_vmask {whole : Bool} {srcs : List Opnd} {busy : Nat} {bs : List Bool} {fl : Fl} (slot : slotOf j s = some (s.vmask te d k whole srcs busy bs fl))
    (goes : VecGoes s (srcs ++ [.k k.toK]) [.k d]) :
    exec j s = .next (((s.writeK d whole 12 (maskOf bs)).setFlags fl).takeVec busy) := exec_vslot slot goes

theorem exec_vcmp {c : KLow} {o : VCmp} (slot : slotOf j s = some (s.vcmp o te c a b k)) (goes : VecGoes s [s.oA a, s.oB b, .k k.toK] [.k c.toK]) :
    ∃ u, exec j s = .next u ∧ MaskBecomes s u c.toK 8 (fun i => on s k i && (o.elem s.fmt.ety s.fmt (laneA s a i) (laneB s b i)).1)
      (laneFlags s k (fun i => (o.elem s.fmt.ety s.fmt (laneA s a i) (laneB s b i)).2)) := by
  refine ⟨_, exec_vmask slot goes, _, ?_, cmp_bits⟩
  rw [cmp_flags]
  rfl

/-- Mask logic. -/
theorem exec_vlogic {srcs : List KReg} {x : Mask} {f : Nat → Bool} (slot : slotOf j s = some (s.vlogic te d srcs x))
    (goes : VecGoes s (srcs.map Opnd.k ++ [.k 0]) [.k d]) (bits : ∀ i < 4096, x.getLsbD i = f i) :
    ∃ u, exec j s = .next u ∧ MaskBecomes s u d 1 f 0#8 := by
  refine ⟨_, exec_vmask (k := 0) slot goes, _, rfl, fun i inside => ?_⟩
  rw [maskOf_getLsbD inside]
  by_cases lane_ : i < s.fmt.ety.count
  · rw [active_getD x lane_, decide_eq_true lane_, Bool.true_and, bits i inside]
  · rw [List.getD_eq_default _ _ (by rw [active_length]; omega), decide_eq_false lane_, Bool.false_and]

theorem exec_vv2k (goes : VecGoes s [s.oA a, .k k.toK] [.k d]) :
    ∃ x : Mask, exec (.vv2k te d a k) s = .next (((s.writeK d (k == 0) 12 x).setFlags 0#8).takeVec 8) ∧
      ∀ i < 4096, x.getLsbD i = (decide (i < s.fmt.ety.count) && on s k i && laneA s a i != 0) := by
  refine ⟨_, exec_vmask rfl goes, fun i inside => ?_⟩
  have length : (((s.act k).zip (s.eA a)).map (fun p => p.1 && p.2 != 0)).length = s.fmt.ety.count := by simp
  rw [maskOf_getLsbD inside]
  by_cases lane_ : i < s.fmt.ety.count
  · have ha : i < (s.act k).length := by simpa using lane_
    have hb : i < (s.eA a).length := by simpa using lane_
    rw [List.getD_eq_getElem _ _ (by rw [length]; exact lane_), List.getElem_map, List.getElem_zip, decide_eq_true lane_, Bool.true_and]
    dsimp only
    rw [← List.getD_eq_getElem _ false ha, ← List.getD_eq_getElem _ 0 hb, State.act_getD k lane_, s.eA_getD]
  · rw [List.getD_eq_default _ _ (by rw [length]; omega), decide_eq_false lane_, Bool.false_and, Bool.false_and]

end

/-- Compares of integers. -/
theorem VCmp.elem_int {t : ETy} (int : t.isInt = true) (fmt : Fmt) (x y : Nat) :
    VCmp.eq.elem t fmt x y = (decide (signed t.bits x = signed t.bits y), 0#8) ∧
    VCmp.lt.elem t fmt x y = (decide (signed t.bits x < signed t.bits y), 0#8) ∧
    VCmp.le.elem t fmt x y = (decide (signed t.bits x ≤ signed t.bits y), 0#8) := by
  have real := isReal_exact (exactTypes_of_isInt int)
  unfold VCmp.elem
  rw [real]
  simp only [Bool.false_eq_true, if_false, readInt_signed int]
  exact ⟨rfl, rfl, rfl⟩

/-- Compares, VV2K and mask logic write whole masks (R20, R174, R180, R196, R205). -/
theorem vectorMaskResults : VectorMaskResults := by
  intro te c d p q a b k s goes
  have compares : VecGoes s [s.oA a, s.oB b, .k k.toK] [.k c.toK] := vecGoes_mono goes (by simp) (by simp)
  have logic {srcs : List Opnd} (few : ∀ o ∈ srcs, o = .k p ∨ o = .k q ∨ o = .k 0) : VecGoes s srcs [.k d] :=
    vecGoes_mono goes (fun o ho => by rcases few o ho with h | h | h <;> simp [h]) (by simp)
  refine ⟨exec_vcmp rfl compares, exec_vcmp rfl compares, exec_vcmp rfl compares, fun int x y => VCmp.elem_int int s.fmt x y,
    exec_vv2k (vecGoes_mono goes (by simp) (by simp)), fun x clean => ?_, exec_vlogic (srcs := [p, q]) rfl (logic (by simp)) fun i _ => BitVec.getLsbD_and,
    exec_vlogic (srcs := [p, q]) rfl (logic (by simp)) fun i _ => BitVec.getLsbD_or, exec_vlogic (srcs := [p]) rfl (logic (by simp)) fun i inside => ?_⟩
  · unfold State.writeK State.produceK
    rcases clean with rfl | clean
    · rfl
    · rw [clean, Bool.and_false]
  · rw [BitVec.getLsbD_not, decide_eq_true inside, Bool.true_and]

end Sys2Proof.Machine

namespace Sys2Proof.Machine
open Sys2Proof.Claims

/-! Functions, counts and conversions lane by lane (R197 to R204). -/

section
variable {j : Instr} {s : State} {te : Bool} {d a : VReg} {k : KLow}

/-- An operation of one operand. -/
theorem exec_vmap {lat : Nat} {f : Nat → Nat × Fl} (slot : slotOf j s = some (s.vmerge te d k lat [s.oA a] true ((s.eA a).map f)))
    (goes : VecGoes s [s.oA a, .k k.toK] [s.oA d]) : ∃ t, exec j s = .next t ∧ LanesBecome s t d k lat (fun i => f (laneA s a i)) := by
  refine exec_vmerge slot goes (by simp) fun i inside => ?_
  rw [getD_map _ (by simpa using inside) 0, s.eA_getD]

/-- A function of the float types and M8. -/
theorem exec_vfun {f : VxFn} (slot : slotOf j s = some (s.vfun f te d a k)) (goes : VecGoes s [s.oA a, .k k.toK] [s.oA d]) :
    (s.fmt.ety.isReal = true → ∃ t, exec j s = .next t ∧ LanesBecome s t d k 16 (fun i => f.elem s.fmt.ety s.fmt (laneA s a i))) ∧
    (s.fmt.ety.isReal = false → exec j s = .next (s.preciseTrap (s.here .illegalInsn))) := by
  constructor
  · intro real
    refine exec_vmap (f := fun x => f.elem s.fmt.ety s.fmt x) (te := te) ?_ goes
    rw [slot, State.vfun, real]
  · intro other
    refine exec_illegal slot ?_
    simp [State.vfun, State.vmerge, State.vslot, other]

/-- An operation that every type has. -/
theorem exec_vx {f : ETy → Fmt → Nat → Nat × Fl} (slot : slotOf j s = some (s.vx te d a k f)) (goes : VecGoes s [s.oA a, .k k.toK] [s.oA d]) :
    ∃ t, exec j s = .next t ∧ LanesBecome s t d k 12 (fun i => f s.fmt.ety s.fmt (laneA s a i)) := exec_vmap slot goes

end

/-- What a conversion gives, by its parts. -/
theorem convertAll_eq (fmt : Fmt) (t u : ETy) (ks : List Bool) (xs old : List Nat) : convertAll fmt t u ks xs old =
    ((merge (ks.take (Nat.min t.count u.count)) ((xs.take (Nat.min t.count u.count)).map (convert fmt t u)) (old.take (Nat.min t.count u.count))).1 ++
      List.replicate (u.count - Nat.min t.count u.count) 0,
     (merge (ks.take (Nat.min t.count u.count)) ((xs.take (Nat.min t.count u.count)).map (convert fmt t u)) (old.take (Nat.min t.count u.count))).2) := rfl

section
variable {fmt : Fmt} {t u : ETy} {ks : List Bool} {xs old : List Nat} (masks : ks.length = Nat.min t.count u.count) (news : xs.length = t.count)
  (olds : old.length = u.count)
include masks news olds

/-- The lengths of what a conversion merges. -/
theorem convert_lengths : (ks.take (Nat.min t.count u.count)).length = (old.take (Nat.min t.count u.count)).length ∧
    ((xs.take (Nat.min t.count u.count)).map (convert fmt t u)).length = (old.take (Nat.min t.count u.count)).length ∧
    (old.take (Nat.min t.count u.count)).length = Nat.min t.count u.count := by
  have left := Nat.min_le_left t.count u.count
  have right := Nat.min_le_right t.count u.count
  change Nat.min t.count u.count ≤ _ at left right
  simp only [List.length_take, List.length_map, masks, news, olds]
  omega

theorem convertAll_length : (convertAll fmt t u ks xs old).1.length = u.count := by
  obtain ⟨-, -, both⟩ := convert_lengths (fmt := fmt) masks news olds
  have right := Nat.min_le_right t.count u.count
  change Nat.min t.count u.count ≤ _ at right
  rw [convertAll_eq]
  dsimp only
  rw [List.length_append, merge_length, List.length_replicate, both]
  omega

theorem convertAll_flags : (convertAll fmt t u ks xs old).2 =
    (List.range (Nat.min t.count u.count)).foldl (fun g i => if ks.getD i false then g ||| (convert fmt t u (xs.getD i 0)).2 else g) 0#8 := by
  obtain ⟨bits, results, both⟩ := convert_lengths (fmt := fmt) masks news olds
  have left := Nat.min_le_left t.count u.count
  change Nat.min t.count u.count ≤ _ at left
  have merged := foldl_flags_eq_merge _ _ _ bits results 0#8
  rw [BitVec.zero_or, both] at merged
  refine merged.symm.trans (List.foldl_ext _ _ _ fun g i hi => ?_)
  have inside := List.mem_range.mp hi
  rw [getD_take _ inside, getD_map _ (by rw [List.length_take]; omega) 0, getD_take _ inside]

theorem convertAll_getD {i : Nat} (inside : i < Nat.min t.count u.count) : (convertAll fmt t u ks xs old).1.getD i 0 =
    if ks.getD i false then (convert fmt t u (xs.getD i 0)).1 else old.getD i 0 := by
  obtain ⟨bits, results, both⟩ := convert_lengths (fmt := fmt) masks news olds
  have left := Nat.min_le_left t.count u.count
  change Nat.min t.count u.count ≤ _ at left
  have merged := merge_getElem _ _ _ bits results i (by rw [both]; exact inside)
  rw [convertAll_eq]
  dsimp only
  rw [List.getD_append _ _ _ _ (by rw [merge_length, both]; exact inside), merged, getD_take _ inside, getD_map _ (by rw [List.length_take]; omega) 0,
    getD_take _ inside, getD_take _ inside]

theorem convertAll_past {i : Nat} (past : Nat.min t.count u.count ≤ i) : (convertAll fmt t u ks xs old).1.getD i 0 = 0 := by
  obtain ⟨-, -, both⟩ := convert_lengths (fmt := fmt) masks news olds
  rw [convertAll_eq]
  dsimp only
  rw [List.getD_append_right _ _ _ _ (by rw [merge_length, both]; exact past)]
  simp

end

section
variable {j : Instr} {s : State} {te : Bool} {d a : VReg} {k : KLow}

/-- A conversion writes the elements that both types have, and zeros past the source's (R202). -/
theorem exec_vconvert {t u : ETy} {ok : Bool} (slot : slotOf j s = some (s.vconvert te d a k t u ok)) (goes : VecGoes s [s.oA a, .k k.toK] [s.oA d])
    (good : ok = true) :
    ∃ (x : VWord) (fl : Fl), exec j s = .next (((s.writeV d (k == 0) 12 x).setFlags fl).takeVec 8) ∧
      fl = (List.range (Nat.min t.count u.count)).foldl (fun g i => if on s k i then g ||| (convert s.fmt t u (lane t (s.rVA a) i)).2 else g) 0#8 ∧
      (∀ i, Nat.min t.count u.count ≤ i → i < u.count → lane u x i = 0) ∧
      ∀ i < Nat.min t.count u.count, lane u x i =
        if on s k i then (convert s.fmt t u (lane t (s.rVA a) i)).1 % 2 ^ u.bits else lane u (s.rVA d) i := by
  subst good
  have issues := exec_vslot slot goes
  have masks : (active (Nat.min t.count u.count) (s.rK k.toK)).length = Nat.min t.count u.count := active_length _ _
  have news := elems_length t (s.rVA a)
  have olds := elems_length u (s.rVA d)
  have element (i : Nat) := lane_ofElems u _ (convertAll_length (fmt := s.fmt) masks news olds) i
  refine ⟨_, _, issues, ?_, fun i past inside => ?_, fun i inside => ?_⟩
  · refine (convertAll_flags (fmt := s.fmt) masks news olds).trans (List.foldl_ext _ _ _ fun g i hi => ?_)
    rw [active_getD _ (List.mem_range.mp hi), elems_getD]
    rfl
  · rw [element, convertAll_past masks news olds past, Nat.zero_mod]
  · rw [element, convertAll_getD masks news olds inside, active_getD _ inside, elems_getD, elems_getD]
    change (if on s k i = true then _ else _) % _ = _
    split
    · rfl
    · exact Nat.mod_eq_of_lt (lane_lt u _ i)

end

theorem laneA_lt (s : State) (r : VReg) (i : Nat) : laneA s r i < 2 ^ s.fmt.ety.bits := lane_lt _ _ _

/-- Functions, roundings, counts and conversions of one operand (R197 to R204). -/
theorem vectorFunctionResults : VectorFunctionResults := by
  intro te d a k s goes
  have plain {j : Instr} {f : ETy → Fmt → Nat → Nat × Fl} (slot : slotOf j s = some (s.vx te d a k f)) :
      (True → ∃ t, exec j s = .next t ∧ LanesBecome s t d k 12 (fun i => f s.fmt.ety s.fmt (laneA s a i))) ∧
      (true = false → exec j s = .next (s.preciseTrap (s.here .illegalInsn))) := ⟨fun _ => exec_vx slot goes, nofun⟩
  refine ⟨?_, ?_, ?_, ?_⟩
  · simp only [vxForms, List.forall_mem_cons, List.not_mem_nil, false_implies, implies_true, and_true]
    exact ⟨plain (f := signElem true) rfl, plain (f := signElem false) rfl, exec_vfun rfl goes, exec_vfun rfl goes, exec_vfun rfl goes, exec_vfun rfl goes,
      exec_vfun rfl goes, exec_vfun rfl goes, exec_vfun rfl goes, exec_vfun rfl goes, plain (f := integralElem 3#2) rfl,
      plain (f := integralElem s.fmt.rm) rfl⟩
  · obtain ⟨t, runs, becomes⟩ := exec_vx (j := .vclz te d a k) (f := fun t _ x => (clzNat t.bits x, 0#8)) (te := te) rfl goes
    refine ⟨t, runs, _, becomes, fun i => ?_⟩
    have counts := countsLeading_clzNat s.fmt.ety.bits (BitVec.ofNat _ (laneA s a i))
    rwa [BitVec.toNat_ofNat, Nat.mod_eq_of_lt (laneA_lt s a i)] at counts
  · obtain ⟨t, runs, becomes⟩ := exec_vx (j := .vpopc te d a k) (f := fun t _ x => (popNat t.bits x, 0#8)) (te := te) rfl goes
    have counts (i : Nat) : ones s.fmt.ety.bits (BitVec.ofNat _ (laneA s a i)) = popNat s.fmt.ety.bits (laneA s a i) := by
      rw [← opPopc_toNat, BitVec.toNat_ofNat, Nat.mod_eq_of_lt (laneA_lt s a i)]
    simp only [counts]
    exact ⟨t, runs, becomes⟩
  · refine ⟨fun good => exec_vconvert rfl goes good, fun bad => exec_illegal rfl ?_, exec_vconvert rfl goes rfl, exec_vconvert rfl goes rfl⟩
    simp [slotVcvt, State.vconvert, State.vslot, bad]

end Sys2Proof.Machine

namespace Sys2Proof.Machine
open Sys2Proof.Claims

/-! Compared lanes (R174). -/

section
variable {t : ETy} {fmt : Fmt} {a b : Nat}

/-- What a compare says of numbers, from which of them is less. -/
def VCmp.holds (o : VCmp) (less more : Bool) : Bool :=
  match o with
  | .eq => !less && !more
  | .lt => less
  | .le => !more

theorem VCmp.elem_number (real : t.isReal = true) (o : VCmp) (numbers : (t.readReal fmt.fz a).join (t.readReal fmt.fz b) = none) : o.elem t fmt a b =
    (o.holds (Ex.lt false (t.readReal fmt.fz a) (t.readReal fmt.fz b)) (Ex.lt false (t.readReal fmt.fz b) (t.readReal fmt.fz a)), 0#8) := by
  unfold VCmp.elem
  rw [if_pos real]
  dsimp only
  rw [numbers]
  cases o <;> rfl

theorem VCmp.elem_nan (real : t.isReal = true) (o : VCmp) {nv : Bool} (nan : (t.readReal fmt.fz a).join (t.readReal fmt.fz b) = some (.nan nv)) :
    o.elem t fmt a b = (false, flIf (nv || o != .eq) NV) := by
  unfold VCmp.elem
  rw [if_pos real]
  dsimp only
  rw [nan]

/-- What the compares give for values. -/
def ComparesBy (t : ETy) (fmt : Fmt) (a b : Nat) (x y : ℚ) (f : Fl) : Prop :=
  VCmp.eq.elem t fmt a b = (decide (x = y), f) ∧ VCmp.lt.elem t fmt a b = (decide (x < y), f) ∧ VCmp.le.elem t fmt a b = (decide (x ≤ y), f)

/-- Numbers are compared by their values. -/
theorem compares_values (real : t.isReal = true) {p q : Q} {m n : Bool} (readA : t.readReal fmt.fz a = .val p m) (readB : t.readReal fmt.fz b = .val q n)
    (posA : 0 < p.den) (posB : 0 < q.den) : ComparesBy t fmt a b p.value q.value 0#8 := by
  have numbers : (Ex.val p m).join (.val q n) = none := rfl
  have less : Ex.lt false (.val p m) (.val q n) = decide (p.value < q.value) := by
    rw [Bool.eq_iff_iff, decide_eq_true_eq, ← Q.lt_iff posA posB]
    simp [Ex.lt]
  have more : Ex.lt false (.val q n) (.val p m) = decide (q.value < p.value) := by
    rw [Bool.eq_iff_iff, decide_eq_true_eq, ← Q.lt_iff posB posA]
    simp [Ex.lt]
  have none_ : (t.readReal fmt.fz a).join (t.readReal fmt.fz b) = none := by rw [readA, readB, numbers]
  unfold ComparesBy
  rw [VCmp.elem_number real _ none_, VCmp.elem_number real _ none_, VCmp.elem_number real _ none_, readA, readB, less, more]
  refine ⟨Prod.ext ?_ rfl, rfl, Prod.ext ?_ rfl⟩
  · have same : (p.value = q.value) ↔ ¬ p.value < q.value ∧ ¬ q.value < p.value := by
      rw [not_lt, not_lt, and_comm]
      exact le_antisymm_iff
    simp only [VCmp.holds, same, ← decide_not, Bool.decide_and]
  · simp only [VCmp.holds, ← decide_not, not_lt]

theorem Ex.join_nan {x y : Ex} (either : x.isNaN = true ∨ y.isNaN = true) : x.join y = some (.nan (x.invalid || y.invalid)) := by
  rcases x with _ | _ | _ <;> rcases y with _ | _ | _ <;> simp [Ex.isNaN] at either <;> simp [Ex.join, Ex.invalid]

/-- A NaN compares false. -/
theorem compares_nan (real : t.isReal = true) (either : (t.readReal fmt.fz a).isNaN = true ∨ (t.readReal fmt.fz b).isNaN = true) :
    VCmp.eq.elem t fmt a b = (false, flIf ((t.readReal fmt.fz a).invalid || (t.readReal fmt.fz b).invalid) NV) ∧
    VCmp.lt.elem t fmt a b = (false, NV) ∧ VCmp.le.elem t fmt a b = (false, NV) := by
  have nan := Ex.join_nan either
  rw [VCmp.elem_nan real _ nan, VCmp.elem_nan real _ nan, VCmp.elem_nan real _ nan]
  generalize ((t.readReal fmt.fz a).invalid || (t.readReal fmt.fz b).invalid) = nv
  cases nv with
  | true => exact ⟨rfl, rfl, rfl⟩
  | false => exact ⟨rfl, rfl, rfl⟩

theorem compares_codes (code : t ∈ [ETy.l8, .c10]) :
    ComparesBy t fmt a b (readCode t a).1 (readCode t b).1 ((readCode t a).2 ||| (readCode t b).2) := by
  have real := isReal_exact (exactTypes_of_code code)
  unfold ComparesBy VCmp.elem
  rw [real, if_neg Bool.false_ne_true, if_neg Bool.false_ne_true, if_neg Bool.false_ne_true, readInt_readCode code, readInt_readCode code]
  dsimp only
  simp only [Int.cast_inj, Int.cast_lt, Int.cast_le]
  exact ⟨trivial, trivial, trivial⟩

end

theorem isSig_iff {eb fb x : Nat} : isSig eb fb x ↔ (x / 2 ^ fb % 2 ^ eb = 2 ^ eb - 1 ∧ x % 2 ^ fb ≠ 0 ∧ x % 2 ^ fb < 2 ^ (fb - 1)) := by
  unfold isSig isNan
  exact and_assoc

theorem flIf_NV_iff (c : Bool) : (flIf c NV = NV ↔ c = true) ∧ (flIf c NV ≠ NV → flIf c NV = 0#8) := by cases c <;> decide

theorem code_of_isCode {t : ETy} (code : t.isCode = true) : t ∈ [ETy.l8, .c10] := by
  revert code
  cases t <;> decide

/-- Compares go by value (R49, R50, R174). -/
theorem comparedLanes : ComparedLanes := by
  intro t eb fb fmt a b fitsA fitsB
  refine ⟨fun float => ?_, fun m8 => ?_, fun code => compares_codes (code_of_isCode code)⟩
  · obtain ⟨-, -, -, real, -⟩ := formats_spec float
    refine ⟨fun ha hb => ?_, fun nan => ?_⟩
    · obtain ⟨p, readA, posA, valA⟩ := readReal_fin float fmt.fz ha
      obtain ⟨q, readB, posB, valB⟩ := readReal_fin float fmt.fz hb
      change ComparesBy t fmt a b _ _ _
      rw [← valA, ← valB]
      exact compares_values real readA readB posA posB
    · rw [← readReal_isNaN float fmt.fz, ← readReal_isNaN float fmt.fz] at nan
      obtain ⟨eq, lt, le⟩ := compares_nan real nan
      refine ⟨⟨_, eq, ?_, (flIf_NV_iff _).2⟩, lt, le⟩
      rw [(flIf_NV_iff _).1, readReal_invalid float, readReal_invalid float, Bool.or_eq_true, decide_eq_true_eq, decide_eq_true_eq, isSig_iff, isSig_iff]
  · subst m8
    have real : ETy.m8.isReal = true := rfl
    refine ⟨fun numberA numberB => ?_, fun nar => ?_⟩
    · obtain ⟨p, m, readA, posA, valA⟩ := readReal_m8 fitsA numberA fmt.fz
      obtain ⟨q, n, readB, posB, valB⟩ := readReal_m8 fitsB numberB fmt.fz
      change ComparesBy .m8 fmt a b _ _ _
      rw [← valA, ← valB]
      exact compares_values real readA readB posA posB
    · have either : (ETy.m8.readReal fmt.fz a).isNaN = true ∨ (ETy.m8.readReal fmt.fz b).isNaN = true := by
        rcases nar with rfl | rfl
        · exact .inl rfl
        · exact .inr rfl
      obtain ⟨eq, lt, le⟩ := compares_nan real either
      rw [readReal_m8_invalid fitsA, readReal_m8_invalid fitsB] at eq
      exact ⟨eq, lt, le⟩

end Sys2Proof.Machine

namespace Sys2Proof.Machine
open Sys2Proof.Claims

/-! Converted lanes (R45 to R52). -/

section
variable {t u : ETy} {fmt : Fmt} {a : Nat}

theorem exactTypes_iff : t ∈ exactTypes ↔ t.isInt = true ∨ t.isCode = true := by cases t <;> decide

theorem readInt_exact (exact_ : t ∈ exactTypes) (x : Nat) : t.readInt x = readCode t x := by
  rcases exactTypes_iff.mp exact_ with int | code
  · have plain : t ≠ .l8 ∧ t ≠ .c10 := by
      revert int
      cases t <;> decide
    rw [readInt_signed int, readCode, if_neg plain.1, if_neg plain.2]
  · exact readInt_readCode (code_of_isCode code) x

/-- A number within the range of its type is held to itself. -/
theorem held_within {v : Int} (low : (Claims.ends t).1 ≤ v) (high : v ≤ (Claims.ends t).2) : held t v = ((v % 2 ^ t.bits).toNat, 0#8) := by
  unfold held
  rw [min_eq_right high, max_eq_right low, if_neg (by omega)]

/-- The result of a conversion from a float type or M8. -/
def convertReal (t : ETy) (fmt : Fmt) (x : Ex) : Nat × Fl :=
  if t = .m8 then m8Encode x else if t.isReal then x.round t.flt fmt.rm fmt.fz else toIntTy t fmt.rm x

theorem convert_real (real : u.isReal = true) : convert fmt u t a = ((convertReal t fmt (u.readReal fmt.fz a)).1,
    (convertReal t fmt (u.readReal fmt.fz a)).2 ||| flIf (u.readReal fmt.fz a).invalid NV) := by
  unfold convert convertReal
  rw [if_pos real]
  generalize u.readReal fmt.fz a = x
  have none_ : flIf false NV = 0#8 := rfl
  cases t <;> cases x <;> simp [ETy.isReal, ETy.isFloat, ETy.flt, Ex.invalid, none_]

/-- The result of a conversion from an integer or code type. -/
def convertExact (t : ETy) (fmt : Fmt) (v : Int) : Nat × Fl :=
  if t = .m8 then m8Encode (.val (Q.ofInt v) false) else if t.isReal then t.flt.round fmt.rm fmt.fz (Q.ofInt v) false else t.putInt v

theorem convert_exact (exact_ : u ∈ exactTypes) : convert fmt u t a = ((convertExact t fmt (readCode u a).1).1,
    (readCode u a).2 ||| (convertExact t fmt (readCode u a).1).2) := by
  unfold convert
  rw [if_neg (show ¬ u.isReal = true by rw [isReal_exact exact_]; exact Bool.false_ne_true), readInt_exact exact_]
  unfold convertExact
  cases t <;> simp [ETy.isReal, ETy.isFloat, ETy.flt]

theorem convertReal_float {eb fb : Nat} (float : (t, eb, fb) ∈ formats) (x : Ex) : convertReal t fmt x = x.round ⟨eb, fb⟩ fmt.rm fmt.fz := by
  obtain ⟨-, -, -, real, flt, other⟩ := formats_spec float
  rw [convertReal, if_neg other, if_pos real, flt]

theorem convertExact_float {eb fb : Nat} (float : (t, eb, fb) ∈ formats) (v : Int) :
    convertExact t fmt v = (Flt.mk eb fb).round fmt.rm fmt.fz (Q.ofInt v) false := by
  obtain ⟨-, -, -, real, flt, other⟩ := formats_spec float
  rw [convertExact, if_neg other, if_pos real, flt]

theorem convertReal_int (exact_ : t ∈ exactTypes) (x : Ex) : convertReal t fmt x = toIntTy t fmt.rm x := by
  have real := isReal_exact exact_
  have other : t ≠ .m8 := fun m8 => by rw [m8] at real; cases real
  rw [convertReal, if_neg other, real, if_neg Bool.false_ne_true]

theorem convertExact_int (exact_ : t ∈ exactTypes) (v : Int) : convertExact t fmt v = held t v := by
  have real := isReal_exact exact_
  have other : t ≠ .m8 := fun m8 => by rw [m8] at real; cases real
  rw [convertExact, if_neg other, real, if_neg Bool.false_ne_true, putInt_held exact_]

/-- A result that a value gives a float type, beside flags of its reading. -/
def ToFloat (eb fb : Nat) (fmt : Fmt) (p : Nat × Fl) (v : ℚ) (f : Fl) : Prop :=
  ∃ g, p.2 = f ||| g ∧ (v = 0 → p.1 % 2 ^ (eb + fb) = 0 ∧ g = 0#8) ∧ (v ≠ 0 → RoundsTo eb fb fmt.rm fmt.fz v p.1 g)

/-- A result that a value gives an integer or code type. -/
def ToInt (t : ETy) (fmt : Fmt) (p : Nat × Fl) (v : ℚ) : Prop :=
  ∃ n : ℤ, RoundsInt fmt.rm v n ∧ p.1 = (held t n).1 ∧ p.2 &&& (SAT ||| NV) = (held t n).2

theorem toFloat_round {eb fb : Nat} (float : (t, eb, fb) ∈ formats) {q : Q} (pos : 0 < q.den) {v : ℚ} (value : q.value = v) (z : Bool) {p : Nat × Fl} {f : Fl}
    (pattern : p.1 = ((Flt.mk eb fb).round fmt.rm fmt.fz q z).1) (flags : p.2 = f ||| ((Flt.mk eb fb).round fmt.rm fmt.fz q z).2) :
    ToFloat eb fb fmt p v f := by
  obtain ⟨-, wide, -⟩ := formats_spec float
  obtain ⟨zero, away⟩ := gives_round (f := ⟨eb, fb⟩) wide pos fmt.rm fmt.fz z
  rw [value] at zero away
  refine ⟨_, flags, fun none_ => ?_, fun some_ => ?_⟩
  · obtain ⟨low, -, clear⟩ := zero none_
    rw [pattern]
    exact ⟨low, clear⟩
  · rw [pattern]
    exact away some_

/-- A conversion of what is read, unless it is a signalling NaN. -/
theorem convert_valid (real : u.isReal = true) {x : Ex} (read : u.readReal fmt.fz a = x) (valid : x.invalid = false) :
    convert fmt u t a = convertReal t fmt x := by
  have none_ : flIf false NV = 0#8 := rfl
  rw [convert_real real, read, valid, none_, BitVec.or_zero]

theorem convert_toFloat {eb fb : Nat} (float : (t, eb, fb) ∈ formats) (real : u.isReal = true) {q : Q} {z : Bool} (read : u.readReal fmt.fz a = .val q z)
    (pos : 0 < q.den) {v : ℚ} (value : q.value = v) : ToFloat eb fb fmt (convert fmt u t a) v 0#8 := by
  rw [convert_valid real read rfl, convertReal_float float]
  exact toFloat_round float pos value z rfl (BitVec.zero_or).symm

theorem held_flags (v : Int) (f : Fl) (inexact : f = 0#8 ∨ f = NX) : ((held t v).2 ||| f) &&& (SAT ||| NV) = (held t v).2 := by
  unfold held
  dsimp only
  rcases inexact with rfl | rfl
  · split <;> decide
  · split <;> decide

theorem convert_toInt (exact_ : t ∈ exactTypes) (real : u.isReal = true) {q : Q} {z : Bool} (read : u.readReal fmt.fz a = .val q z)
    (pos : 0 < q.den) {v : ℚ} (value : q.value = v) : ToInt t fmt (convert fmt u t a) v := by
  rw [convert_valid real read rfl, convertReal_int exact_]
  refine ⟨q.round fmt.rm, value ▸ Q.round_rounds fmt.rm pos, ?_, ?_⟩
  · rw [toIntTy, putInt_held exact_]
  · rw [toIntTy, putInt_held exact_]
    refine held_flags _ _ ?_
    cases q.isInt with
    | true => exact .inl rfl
    | false => exact .inr rfl

theorem NV_invalid (nv : Bool) : NV ||| flIf nv NV = NV := by cases nv <;> decide

theorem m8Encode_inf (neg : Bool) : m8Encode (.inf neg) = (if neg = true then 0x83 else 0x03, SAT) := rfl

theorem toIntTy_inf (exact_ : t ∈ exactTypes) (rm : BitVec 2) (neg : Bool) :
    toIntTy t rm (.inf neg) = ((held t (if neg = true then (Claims.ends t).1 else (Claims.ends t).2)).1, NV) := by
  have order := ends_le exact_
  rw [toIntTy, range_eq_ends exact_]
  refine Prod.ext ?_ rfl
  cases neg with
  | true =>
    simp only [if_true, held_within le_rfl order]
    rfl
  | false =>
    simp only [Bool.false_eq_true, if_false, held_within order le_rfl]
    rfl

end

section
variable {t u : ETy} {eb fb : Nat} {fmt : Fmt} {a : Nat}

/-- To a float type. -/
theorem converted_float (float : (t, eb, fb) ∈ formats) (fits : a < 2 ^ u.bits) :
    (∀ ub uf, (u, ub, uf) ∈ formats → fin ub uf a → ToFloat eb fb fmt (convert fmt u t a) (fval ub uf fmt.fz a) 0#8) ∧
    (∀ ub uf, (u, ub, uf) ∈ formats → isNan ub uf a → (convert fmt u t a).1 = quiet eb fb) ∧
    (u = .m8 → (a ≠ 0x80 → ToFloat eb fb fmt (convert fmt u t a) (m8Value a) 0#8) ∧ (a = 0x80 → convert fmt u t a = (quiet eb fb, 0#8))) ∧
    (u.isInt = true ∨ u.isCode = true → ToFloat eb fb fmt (convert fmt u t a) (readCode u a).1 (readCode u a).2) := by
  refine ⟨fun ub uf source finite => ?_, fun ub uf source nan => ?_, fun m8 => ⟨fun number => ?_, fun nar => ?_⟩, fun exact_ => ?_⟩
  · obtain ⟨q, read, pos, value⟩ := readReal_fin source fmt.fz finite
    exact convert_toFloat float (formats_spec source).2.2.2.1 read pos value
  · rw [convert_real (formats_spec source).2.2.2.1, readReal_nan source fmt.fz nan, convertReal_float float]
    rfl
  · subst m8
    obtain ⟨q, z, read, pos, value⟩ := readReal_m8 fits number fmt.fz
    exact convert_toFloat float rfl read pos value
  · subst m8 nar
    rw [convert_valid rfl (readReal_m8_nar fmt.fz) rfl, convertReal_float float]
    rfl
  · rw [convert_exact (exactTypes_iff.mpr exact_), convertExact_float float]
    exact toFloat_round float Nat.one_pos (Q.value_ofInt _) false rfl rfl

/-- To an integer or code type. -/
theorem converted_int (exact_ : t ∈ exactTypes) (fits : a < 2 ^ u.bits) :
    ((u, eb, fb) ∈ formats → (fin eb fb a → ToInt t fmt (convert fmt u t a) (fval eb fb fmt.fz a)) ∧ (isNan eb fb a → convert fmt u t a = (0, NV)) ∧
      (¬ fin eb fb a ∧ ¬ isNan eb fb a →
        convert fmt u t a = ((held t (if a / 2 ^ (eb + fb) = 1 then (Claims.ends t).1 else (Claims.ends t).2)).1, NV))) ∧
    (u = .m8 → (a ≠ 0x80 → ToInt t fmt (convert fmt u t a) (m8Value a)) ∧ (a = 0x80 → convert fmt u t a = (0, NV))) ∧
    (u.isInt = true ∨ u.isCode = true → convert fmt u t a = ((held t (readCode u a).1).1, (held t (readCode u a).1).2 ||| (readCode u a).2)) := by
  refine ⟨fun source => ⟨fun finite => ?_, fun nan => ?_, fun ⟨infinite, number⟩ => ?_⟩, fun m8 => ⟨fun number => ?_, fun nar => ?_⟩, fun from_ => ?_⟩
  · obtain ⟨q, read, pos, value⟩ := readReal_fin source fmt.fz finite
    exact convert_toInt exact_ (formats_spec source).2.2.2.1 read pos value
  · rw [convert_real (formats_spec source).2.2.2.1, readReal_nan source fmt.fz nan, convertReal_int exact_]
    generalize decide (a % 2 ^ fb < 2 ^ (fb - 1)) = nv
    rw [show toIntTy t fmt.rm (.nan nv) = (0, NV) from rfl, show (Ex.nan nv).invalid = nv from rfl, NV_invalid]
  · obtain ⟨neg, -, read, sign⟩ := infinite_packed source infinite number fits
    rw [convert_valid (formats_spec source).2.2.2.1 (read fmt.fz) rfl, convertReal_int exact_, toIntTy_inf exact_]
    simp only [sign]
  · subst m8
    obtain ⟨q, z, read, pos, value⟩ := readReal_m8 fits number fmt.fz
    exact convert_toInt exact_ rfl read pos value
  · subst m8 nar
    rw [convert_valid rfl (readReal_m8_nar fmt.fz) rfl, convertReal_int exact_]
    rfl
  · rw [convert_exact (exactTypes_iff.mpr from_), convertExact_int exact_, BitVec.or_comm]

/-- To M8. -/
theorem converted_m8 (fits : a < 2 ^ u.bits) :
    ((u, eb, fb) ∈ formats → (fin eb fb a → EncodesM8 (fval eb fb fmt.fz a) (convert fmt u .m8 a).1 (convert fmt u .m8 a).2) ∧
      (isNan eb fb a → convert fmt u .m8 a = (0x80, NAR ||| (if a / 2 ^ fb % 2 ^ eb = 2 ^ eb - 1 ∧ a % 2 ^ fb ≠ 0 ∧ a % 2 ^ fb < 2 ^ (fb - 1) then NV else 0#8))) ∧
      (¬ fin eb fb a ∧ ¬ isNan eb fb a → convert fmt u .m8 a = ((if a / 2 ^ (eb + fb) = 1 then 0x83 else 0x03), SAT))) ∧
    (u.isInt = true ∨ u.isCode = true → ∃ g, EncodesM8 (readCode u a).1 (convert fmt u .m8 a).1 g ∧ (convert fmt u .m8 a).2 = g ||| (readCode u a).2) := by
  have encode (x : Ex) : convertReal .m8 fmt x = m8Encode x := if_pos rfl
  refine ⟨fun source => ⟨fun finite => ?_, fun nan => ?_, fun ⟨infinite, number⟩ => ?_⟩, fun from_ => ?_⟩
  · obtain ⟨q, read, pos, value⟩ := readReal_fin source fmt.fz finite
    rw [convert_valid (formats_spec source).2.2.2.1 read rfl, encode, ← value]
    exact m8Encode_encodes pos _
  · have invalid := readReal_invalid source fmt.fz a
    rw [convert_real (formats_spec source).2.2.2.1, invalid, readReal_nan source fmt.fz nan, encode, m8Encode_nan]
    simp only [flIf, decide_eq_true_eq]
  · obtain ⟨neg, -, read, sign⟩ := infinite_packed source infinite number fits
    rw [convert_valid (formats_spec source).2.2.2.1 (read fmt.fz) rfl, encode, m8Encode_inf]
    simp only [sign]
  · have exact_ : convertExact .m8 fmt (readCode u a).1 = m8Encode (.val (Q.ofInt (readCode u a).1) false) := if_pos rfl
    have encodes := m8Encode_encodes (q := Q.ofInt (readCode u a).1) Nat.one_pos false
    rw [Q.value_ofInt] at encodes
    obtain ⟨code, flags⟩ := fst_snd_of_eq (convert_exact (t := .m8) (fmt := fmt) (a := a) (exactTypes_iff.mpr from_))
    rw [exact_] at code flags
    rw [← code] at encodes
    exact ⟨_, encodes, flags.trans (BitVec.or_comm _ _)⟩

end

/-- A conversion takes the exact value of an element (R45 to R52). -/
theorem convertedLanes : ConvertedLanes := by
  intro t eb fb u fmt a fits
  refine ⟨fun float => converted_float float fits, fun exact_ => converted_int (exactTypes_iff.mpr exact_) fits, fun m8 => ?_⟩
  subst m8
  exact converted_m8 fits

end Sys2Proof.Machine

namespace Sys2Proof.Proofs
open Sys2Proof.Machine Sys2Proof.Claims

/-- Settles O13: masks and lanes are taken one by one; a compare goes by the values of its lanes, and a conversion rounds a value once. -/
theorem vectorMaskAndFunctionResults : Obligations.VectorMaskAndFunctionResults := by
  unfold Obligations.VectorMaskAndFunctionResults
  exact ⟨vectorMaskResults, vectorFunctionResults, comparedLanes, convertedLanes⟩

end Sys2Proof.Proofs

namespace Sys2Proof.Machine
open Sys2Proof.Claims

/-! Rounding goes by the value alone (R53). -/

theorem ilog2_unique {a b : Nat} (ha : 0 < a) (hb : 0 < b) {e : ℤ} (low : (2 : ℚ) ^ e ≤ a / b) (high : (a : ℚ) / b < 2 ^ (e + 1)) : ilog2 a b = e := by
  obtain ⟨low', high'⟩ := ilog2_spec ha hb
  have up := (zpow_lt_zpow_iff_right₀ (one_lt_two : (1 : ℚ) < 2)).mp (low.trans_lt high')
  have down := (zpow_lt_zpow_iff_right₀ (one_lt_two : (1 : ℚ) < 2)).mp (low'.trans_lt high)
  omega

section
variable {p q : Q} (posP : 0 < p.den) (posQ : 0 < q.den) (same : p.value = q.value)
include posP posQ same

theorem Q.isZero_congr : p.isZero = q.isZero := by
  rw [Bool.eq_iff_iff, Q.isZero_iff posP, Q.isZero_iff posQ, same]

theorem Q.isNeg_congr : p.isNeg = q.isNeg := by
  rw [Bool.eq_iff_iff, Q.isNeg_iff posP, Q.isNeg_iff posQ, same]

theorem Q.ilogb_congr (away : p.value ≠ 0) : ilog2 p.num.natAbs p.den = ilog2 q.num.natAbs q.den := by
  have natAbs_pos {r : Q} (h : r.value ≠ 0) : 0 < r.num.natAbs := Int.natAbs_pos.mpr fun zero => h (by rw [Q.value, zero, Int.cast_zero, zero_div])
  obtain ⟨low, high⟩ := ilog2_spec (natAbs_pos (same ▸ away : q.value ≠ 0)) posQ
  rw [← q.value_abs, ← same, p.value_abs] at low high
  exact ilog2_unique (natAbs_pos away) posP low high

/-- Magnitudes of one value in one unit round alike. -/
theorem shiftFrac_congr (rm : BitVec 2) (neg : Bool) (u : ℤ) :
    let x := shiftFrac p.num.natAbs p.den u
    let y := shiftFrac q.num.natAbs q.den u
    divRound rm neg x.1 x.2 = divRound rm neg y.1 y.2 ∧ (divRound rm neg x.1 x.2 * x.2 = x.1 ↔ divRound rm neg y.1 y.2 * y.2 = y.1) := by
  obtain ⟨posX, valX⟩ := shiftFrac_spec (a := p.num.natAbs) posP u
  obtain ⟨posY, valY⟩ := shiftFrac_spec (a := q.num.natAbs) posQ u
  rw [← p.value_abs, same, q.value_abs, ← valY] at valX
  dsimp only
  generalize shiftFrac p.num.natAbs p.den u = x at *
  generalize shiftFrac q.num.natAbs q.den u = y at *
  have posX' : (0 : ℚ) < x.2 := by exact_mod_cast posX
  have posY' : (0 : ℚ) < y.2 := by exact_mod_cast posY
  have cross : x.1 * y.2 = y.1 * x.2 := by
    rw [div_eq_div_iff posX'.ne' posY'.ne'] at valX
    exact_mod_cast valX
  have rounds := divRound_congr (rm := rm) (neg := neg) posX posY cross
  refine ⟨rounds, ?_⟩
  rw [rounds]
  have whole {n : Nat} {z : Nat × Nat} (pos : (0 : ℚ) < z.2) : n * z.2 = z.1 ↔ (n : ℚ) = z.1 / z.2 := by
    rw [eq_div_iff pos.ne']
    exact_mod_cast Iff.rfl
  rw [whole posX', whole posY', valX]

/-- A value has one rounding. -/
theorem Flt.round_congr (f : Flt) (rm : BitVec 2) (fz : Bool) {y z : Bool} (zero : p.value = 0 → y = z) : f.round rm fz p y = f.round rm fz q z := by
  by_cases none_ : p.value = 0
  · rw [Flt.round_zero posP none_, Flt.round_zero posQ (same ▸ none_), zero none_]
  · have isZero : p.isZero = false := Bool.eq_false_iff.mpr fun h => none_ ((Q.isZero_iff posP).mp h)
    have binade := Q.ilogb_congr posP posQ same none_
    have fine := (shiftFrac_congr posP posQ same rm q.isNeg (ilog2 q.num.natAbs q.den - f.fb)).1
    have coarse (u : ℤ) := shiftFrac_congr posP posQ same rm q.isNeg u
    unfold Flt.round
    dsimp only at *
    rw [← Q.isZero_congr posP posQ same, isZero, if_neg Bool.false_ne_true, if_neg Bool.false_ne_true, Q.isNeg_congr posP posQ same, binade, fine]
    generalize (if (ilog2 q.num.natAbs q.den : ℤ) - f.fb < f.emin - f.fb then f.emin - (f.fb : ℤ) else ilog2 q.num.natAbs q.den - f.fb) = u
    obtain ⟨rounds, whole⟩ := coarse u
    have inexact : decide (divRound rm q.isNeg (shiftFrac p.num.natAbs p.den u).1 (shiftFrac p.num.natAbs p.den u).2 * (shiftFrac p.num.natAbs p.den u).2 ≠
        (shiftFrac p.num.natAbs p.den u).1) = decide (divRound rm q.isNeg (shiftFrac q.num.natAbs q.den u).1 (shiftFrac q.num.natAbs q.den u).2 *
          (shiftFrac q.num.natAbs q.den u).2 ≠ (shiftFrac q.num.natAbs q.den u).1) := by
      rw [decide_eq_decide]
      exact not_congr whole
    rw [inexact, rounds]

end

end Sys2Proof.Machine

namespace Sys2Proof.Machine
open Sys2Proof.Claims

/-! Exact results that stand for the same number (R53, R55). -/

/-- Two results are the same number, or both a NaN. -/
def Ex.Same : Ex → Ex → Prop
  | .nan _, .nan _ => True
  | .inf m, .inf n => m = n
  | .val p m, .val q n => 0 < p.den ∧ 0 < q.den ∧ p.value = q.value ∧ (p.value = 0 → m = n)
  | _, _ => False

section
variable {x x' y y' : Ex}

/-- How two results can be the same. -/
theorem Ex.Same.cases (same : x.Same x') : (∃ a b, x = .nan a ∧ x' = .nan b) ∨ (∃ n, x = .inf n ∧ x' = .inf n) ∨
    ∃ p m q n, x = .val p m ∧ x' = .val q n ∧ 0 < p.den ∧ 0 < q.den ∧ p.value = q.value ∧ (p.value = 0 → m = n) := by
  cases x with
  | nan a =>
    cases x' with
    | nan b => exact .inl ⟨a, b, rfl, rfl⟩
    | inf n => exact same.elim
    | val q n => exact same.elim
  | inf m =>
    cases x' with
    | nan b => exact same.elim
    | inf n =>
      obtain rfl : m = n := same
      exact .inr (.inl ⟨m, rfl, rfl⟩)
    | val q n => exact same.elim
  | val p m =>
    cases x' with
    | nan b => exact same.elim
    | inf n => exact same.elim
    | val q n => exact .inr (.inr ⟨p, m, q, n, rfl, rfl, same⟩)

theorem Ex.Same.isNaN (same : x.Same x') : x.isNaN = x'.isNaN := by
  rcases same.cases with ⟨a, b, rfl, rfl⟩ | ⟨n, rfl, rfl⟩ | ⟨p, m, q, n, rfl, rfl, -⟩
  · rfl
  · rfl
  · rfl

theorem Ex.same_of_nan (hx : x.isNaN = true) (hy : y.isNaN = true) : x.Same y := by
  cases x with
  | nan a =>
    cases y with
    | nan b => trivial
    | inf n => cases hy
    | val q n => cases hy
  | inf n => cases hx
  | val q n => cases hx

theorem Ex.isNaN_add_of (rm : BitVec 2) (either : x.isNaN = true ∨ y.isNaN = true) : (Ex.add rm x y).isNaN = true := by
  rw [Ex.add_nan rm either]
  rfl

/-- Sums of the same numbers. -/
theorem Ex.Same.add (rm : BitVec 2) (hx : x.Same x') (hy : y.Same y') : (Ex.add rm x y).Same (Ex.add rm x' y') := by
  by_cases either : x.isNaN = true ∨ y.isNaN = true
  · exact Ex.same_of_nan (Ex.isNaN_add_of rm either) (Ex.isNaN_add_of rm (by rwa [← hx.isNaN, ← hy.isNaN]))
  · rw [not_or] at either
    rcases hx.cases with ⟨a, b, rfl, rfl⟩ | ⟨m, rfl, rfl⟩ | ⟨p, m, p', m', rfl, rfl, posP, posP', sameP, signP⟩
    · exact absurd rfl either.1
    · rcases hy.cases with ⟨a, b, rfl, rfl⟩ | ⟨n, rfl, rfl⟩ | ⟨q, n, q', n', rfl, rfl, -⟩
      · exact absurd rfl either.2
      · cases m <;> cases n <;> trivial
      · exact (rfl : m = m)
    · rcases hy.cases with ⟨a, b, rfl, rfl⟩ | ⟨n, rfl, rfl⟩ | ⟨q, n, q', n', rfl, rfl, posQ, posQ', sameQ, signQ⟩
      · exact absurd rfl either.2
      · exact (rfl : n = n)
      · refine ⟨Q.den_add posP posQ, Q.den_add posP' posQ', ?_, fun _ => ?_⟩
        · rw [Q.value_add posP posQ, Q.value_add posP' posQ', sameP, sameQ]
        · rw [Q.isZero_congr posP posP' sameP, Q.isZero_congr posQ posQ' sameQ]
          by_cases zeros : p'.isZero = true ∧ q'.isZero = true
          · rw [signP (by rw [sameP, ← Q.isZero_iff posP']; exact zeros.1), signQ (by rw [sameQ, ← Q.isZero_iff posQ']; exact zeros.2)]
          · have no : (p'.isZero && q'.isZero) = false := by
              rw [← Bool.not_eq_true, Bool.and_eq_true]
              exact zeros
            simp only [no, Bool.false_and, Bool.false_eq_true, if_false]

/-- Which of two numbers is less. -/
theorem Ex.Same.lt (hx : x.Same x') (hy : y.Same y') : Ex.lt true x y = Ex.lt true x' y' := by
  rcases hx.cases with ⟨a, b, rfl, rfl⟩ | ⟨m, rfl, rfl⟩ | ⟨p, m, p', m', rfl, rfl, posP, posP', sameP, signP⟩
  · rcases hy.cases with ⟨c, d, rfl, rfl⟩ | ⟨n, rfl, rfl⟩ | ⟨q, n, q', n', rfl, rfl, -⟩
    · rfl
    · rfl
    · rfl
  · rcases hy.cases with ⟨c, d, rfl, rfl⟩ | ⟨n, rfl, rfl⟩ | ⟨q, n, q', n', rfl, rfl, -⟩
    · rfl
    · rfl
    · rfl
  · rcases hy.cases with ⟨c, d, rfl, rfl⟩ | ⟨n, rfl, rfl⟩ | ⟨q, n, q', n', rfl, rfl, posQ, posQ', sameQ, signQ⟩
    · rfl
    · rfl
    · have less : p.lt q = p'.lt q' := by
        rw [Bool.eq_iff_iff, Q.lt_iff posP posQ, Q.lt_iff posP' posQ', sameP, sameQ]
      have zeroP := Q.isZero_congr posP posP' sameP
      have zeroQ := Q.isZero_congr posQ posQ' sameQ
      simp only [Ex.lt, Bool.true_and]
      rw [less, zeroP, zeroQ]
      by_cases zeros : p'.isZero = true ∧ q'.isZero = true
      · rw [signP (by rw [sameP, ← Q.isZero_iff posP']; exact zeros.1), signQ (by rw [sameQ, ← Q.isZero_iff posQ']; exact zeros.2)]
      · have no : (p'.isZero && q'.isZero) = false := by
          rw [← Bool.not_eq_true, Bool.and_eq_true]
          exact zeros
        simp only [no, Bool.false_and]

/-- What a maximum or a minimum picks of numbers. -/
theorem Ex.pick_number (big : Bool) (hx : x.isNaN = false) (hy : y.isNaN = false) : Ex.pick big x y = (if Ex.lt true x y == big then y else x, 0#8) := by
  cases x with
  | nan a => cases hx
  | inf m =>
    cases y with
    | nan b => cases hy
    | inf n => rfl
    | val q n => rfl
  | val p m =>
    cases y with
    | nan b => cases hy
    | inf n => rfl
    | val q n => rfl

/-- A maximum or a minimum is one of its operands, or the NaN that is not invalid. -/
theorem Ex.pick_cases (big : Bool) (x y : Ex) : (Ex.pick big x y).1 = x ∨ (Ex.pick big x y).1 = y ∨ (Ex.pick big x y).1 = .nan false := by
  by_cases hx : x.isNaN = false
  · by_cases hy : y.isNaN = false
    · rw [Ex.pick_number big hx hy]
      dsimp only
      split
      · exact .inr (.inl rfl)
      · exact .inl rfl
    · cases y with
      | nan b =>
        cases x with
        | nan a => cases hx
        | inf m => exact .inl rfl
        | val p m => exact .inl rfl
      | inf n => exact absurd rfl hy
      | val q n => exact absurd rfl hy
  · cases x with
    | nan a =>
      cases y with
      | nan b => exact .inr (.inr rfl)
      | inf n => exact .inr (.inl rfl)
      | val q n => exact .inr (.inl rfl)
    | inf m => exact absurd rfl hx
    | val p m => exact absurd rfl hx

/-- Maxima and minima of the same numbers. -/
theorem Ex.Same.pick (big : Bool) (hx : x.Same x') (hy : y.Same y') : (Ex.pick big x y).1.Same (Ex.pick big x' y').1 := by
  have less := hx.lt hy
  have nanX := hx.isNaN
  have nanY := hy.isNaN
  by_cases numX : x.isNaN = false
  · by_cases numY : y.isNaN = false
    · rw [Ex.pick_number big numX numY, Ex.pick_number big (nanX ▸ numX) (nanY ▸ numY), less]
      dsimp only
      split
      · exact hy
      · exact hx
    · rcases hy.cases with ⟨c, d, rfl, rfl⟩ | ⟨n, rfl, rfl⟩ | ⟨q, n, q', n', rfl, rfl, -⟩
      · rcases hx.cases with ⟨a, b, rfl, rfl⟩ | ⟨m, rfl, rfl⟩ | ⟨p, m, p', m', rfl, rfl, -⟩
        · cases numX
        · exact hx
        · exact hx
      · exact absurd rfl numY
      · exact absurd rfl numY
  · rcases hx.cases with ⟨a, b, rfl, rfl⟩ | ⟨m, rfl, rfl⟩ | ⟨p, m, p', m', rfl, rfl, -⟩
    · rcases hy.cases with ⟨c, d, rfl, rfl⟩ | ⟨n, rfl, rfl⟩ | ⟨q, n, q', n', rfl, rfl, -⟩
      · trivial
      · exact hy
      · exact hy
    · exact absurd rfl numX
    · exact absurd rfl numX

/-- The same number is delivered as the same pattern. -/
theorem Ex.Same.round (same : x.Same x') (f : Flt) (rm : BitVec 2) (fz : Bool) : (x.round f rm fz).1 = (x'.round f rm fz).1 := by
  rcases same.cases with ⟨a, b, rfl, rfl⟩ | ⟨n, rfl, rfl⟩ | ⟨p, m, q, n, rfl, rfl, posP, posQ, value, sign⟩
  · rfl
  · rfl
  · rw [Ex.round, Ex.round, Flt.round_congr posP posQ value f rm fz sign]

end

/-! A value has one M8 code (R47). -/

theorem encodesM8_unique {v : ℚ} {c d : Nat} {fl gl : Fl} (hc : EncodesM8 v c fl) (hd : EncodesM8 v d gl) : c = d ∧ fl = gl := by
  by_cases large : 65536 < |v|
  · obtain ⟨codeC, flagsC⟩ := hc.1 large
    obtain ⟨codeD, flagsD⟩ := hd.1 large
    exact ⟨codeC.trans codeD.symm, flagsC.trans flagsD.symm⟩
  · obtain ⟨fitsC, signC, flagsC, bestC⟩ := hc.2 (not_lt.mp large)
    obtain ⟨fitsD, signD, flagsD, bestD⟩ := hd.2 (not_lt.mp large)
    have body : c % 128 = d % 128 := by
      by_contra other
      obtain ⟨le, tieC⟩ := bestC (d % 128) (Nat.mod_lt _ (by decide))
      obtain ⟨ge, tieD⟩ := bestD (c % 128) (Nat.mod_lt _ (by decide))
      have far := le_antisymm le ge
      have one := tieC (fun h => other h.symm) far.symm
      have two := tieD other far
      omega
    rw [body] at signC flagsC
    refine ⟨?_, flagsC.trans flagsD.symm⟩
    have high : 128 ≤ c ↔ 128 ≤ d := signC.trans signD.symm
    omega

theorem Ex.Same.m8 {x y : Ex} (same : x.Same y) : (m8Encode x).1 = (m8Encode y).1 := by
  rcases same.cases with ⟨a, b, rfl, rfl⟩ | ⟨n, rfl, rfl⟩ | ⟨p, m, q, n, rfl, rfl, posP, posQ, value, -⟩
  · rw [m8Encode_nan, m8Encode_nan]
  · rfl
  · have hp := m8Encode_encodes posP m
    rw [value] at hp
    exact (encodesM8_unique hp (m8Encode_encodes posQ n)).1

end Sys2Proof.Machine

namespace Sys2Proof.Machine
open Sys2Proof.Claims

/-! Results that F32 holds as they are (R55). -/

theorem float32 : (ETy.f32, 8, 23) ∈ formats := by decide

/-- A result that F32 has, as `fz` leaves it. -/
def Ex.Fits (fz : Bool) : Ex → Prop
  | .val q _ => 0 < q.den ∧ (q.value ≠ 0 → ∃ (k : ℕ) (j : ℤ), |q.value| = k * 2 ^ j ∧ k < 2 ^ 24 ∧ -149 ≤ j ∧ |q.value| < 2 ^ (128 : ℤ) ∧
      (fz = false ∨ (2 : ℚ) ^ (-126 : ℤ) ≤ |q.value|))
  | _ => True

theorem Flt.zero_packed (f : Flt) (neg : Bool) : f.zero neg = packed f.eb f.fb neg.toNat 0 0 := by cases neg <;> simp [Flt.zero, packed]

section
variable {f : Flt} {fz : Bool} {y : Nat}

/-- A pattern that is delivered for a value is read as that value. -/
theorem decode_delivered {neg : Bool} {r : ℚ} (gives : f.Delivers neg r y) (nonneg : 0 ≤ r) (normal : fz = false ∨ (2 : ℚ) ^ f.emin ≤ r) :
    ∃ q, f.decode fz y = .num q neg ∧ 0 < q.den ∧ q.value = signOf neg * r := by
  obtain ⟨q, eq, pos, value⟩ := f.decode_fin fz gives.finite
  obtain ⟨neg', E, M, hE, hM, rfl⟩ := Flt.exists_packed gives.fits
  have sign : neg' = neg := by
    rw [Bool.eq_iff_iff, ← gives.sign, packed_neg_iff neg' hE hM]
  subst sign
  have bit : decide (packed f.eb f.fb neg'.toNat E M / 2 ^ (f.eb + f.fb) % 2 = 1) = neg' := by
    rw [packed_sign hE hM]
    cases neg' <;> rfl
  rw [bit] at eq
  refine ⟨q, eq, pos, ?_⟩
  rw [value, ← gives.value]
  rcases normal with rfl | large
  · rfl
  · have given := gives.value
    have size : f.magnitude E M = r := by
      rw [Flt.fval_eq _ hE hM] at given
      have cancel := congrArg abs given
      rwa [signOf_mul_abs, signOf_mul_abs, abs_of_nonneg (f.magnitude_nonneg _ _), abs_of_nonneg nonneg] at cancel
    have normal_ : E ≠ 0 := by
      intro zero
      rw [zero] at size
      exact absurd (Flt.magnitude_subnormal hM) (not_lt.mpr (size ▸ large))
    rw [fval_packed _ _ hE hM, fval_packed _ _ hE hM, if_neg normal_, if_neg normal_]

theorem decode_zero (wide : 1 ≤ f.eb) (neg : Bool) : ∃ q, f.decode fz (f.zero neg) = .num q neg ∧ 0 < q.den ∧ q.value = 0 := by
  obtain ⟨q, eq, pos, value⟩ := f.decode_fin fz (f.zero_fin wide neg)
  have bit : decide (f.zero neg / 2 ^ (f.eb + f.fb) % 2 = 1) = neg := by
    rw [Flt.zero_packed, packed_sign (Nat.two_pow_pos _) (Nat.two_pow_pos _)]
    cases neg <;> rfl
  rw [bit] at eq
  refine ⟨q, eq, pos, ?_⟩
  rw [value, Flt.zero_packed, fval_packed _ _ (Nat.two_pow_pos _) (Nat.two_pow_pos _)]
  cases fz <;> simp

end

section
variable {fmt : Fmt} {x : Ex}

theorem decode_inf32 : ∀ (fz neg : Bool), ETy.f32.readReal fz (flt32.inf neg) = .inf neg := by decide +kernel

theorem decode_nan32 : ∀ fz : Bool, ETy.f32.readReal fz flt32.qnan = .nan false := by decide +kernel

theorem readReal_f32 (fz : Bool) (y : Nat) : ETy.f32.readReal fz y = ((Flt.mk 8 23).decode fz y).ex := rfl

theorem emin32 : (Flt.mk 8 23).emin = -126 ∧ (Flt.mk 8 23).bias = 127 := by decide

/-- A result that F32 has is delivered and read again as it is. -/
theorem Ex.Fits.same {fz : Bool} (fits : x.Fits fz) (rm : BitVec 2) : x.Same (ETy.f32.readReal fz (x.round ⟨8, 23⟩ rm fz).1) := by
  cases x with
  | nan nv =>
    rw [show (Ex.nan nv).round ⟨8, 23⟩ rm fz = (flt32.qnan, flIf nv NV) from rfl, decode_nan32]
    trivial
  | inf neg =>
    rw [show (Ex.inf neg).round ⟨8, 23⟩ rm fz = (flt32.inf neg, 0#8) from rfl, decode_inf32]
    exact (rfl : neg = neg)
  | val q z =>
    obtain ⟨pos, exact_⟩ := fits
    rw [Ex.round, readReal_f32]
    by_cases zero : q.value = 0
    · obtain ⟨p, eq, posP, valP⟩ := decode_zero (f := ⟨8, 23⟩) (fz := fz) (by decide) z
      rw [Flt.round_zero pos zero, eq, FVal.ex_num]
      exact ⟨pos, posP, zero.trans valP.symm, fun _ => rfl⟩
    · obtain ⟨k, j, parts, short, fine, inside, normal⟩ := exact_ zero
      have bias : (((Flt.mk 8 23).bias : ℕ) : ℤ) + 1 = 128 := by rw [emin32.2]; rfl
      have least : (2 : ℚ) ^ (Flt.mk 8 23).emin = 2 ^ (-126 : ℤ) := by rw [emin32.1]
      obtain ⟨gives, -⟩ := Flt.round_exact (f := ⟨8, 23⟩) (by decide) pos zero rm fz z parts short (by rw [emin32.1]; exact fine) (by rw [bias]; exact inside)
        (by rw [least]; exact normal)
      obtain ⟨p, eq, posP, valP⟩ := decode_delivered gives (abs_nonneg _) (by rw [least]; exact normal)
      rw [eq, FVal.ex_num]
      exact ⟨pos, posP, q.value_signOf.trans valP.symm, fun h => absurd h zero⟩

end

section
variable {t : ETy} {eb fb : Nat}

theorem formats_small (float : (t, eb, fb) ∈ formats) : (Flt.mk eb fb).bias ≤ 127 ∧ fb ≤ 23 := by
  simp only [formats, List.mem_cons, Prod.mk.injEq, List.not_mem_nil, or_false] at float
  rcases float with ⟨-, rfl, rfl⟩ | ⟨-, rfl, rfl⟩ | ⟨-, rfl, rfl⟩ <;> decide

/-- A magnitude of a format of at most F32's exponents and fraction. -/
theorem ReadsAs.fits {fz : Bool} {x : Nat} {q : Q} {neg : Bool} {E M : Nat} (as : ReadsAs eb fb fz x q neg E M) (wide : 1 ≤ eb)
    (small : (Flt.mk eb fb).bias ≤ 127 ∧ fb ≤ 23) : (Ex.val q neg).Fits fz := by
  obtain ⟨bias, short⟩ := small
  have size : |q.value| = (Flt.mk eb fb).magnitude E M := by
    rw [as.value, signOf_mul_abs, abs_of_nonneg (Flt.magnitude_nonneg _ _ _)]
  have top := (Flt.mk eb fb).top_eq wide
  have inside := as.expFits
  have few : 2 ^ fb ≤ 2 ^ 23 := Nat.pow_le_pow_right two_pos short
  have frac := as.fracFits
  refine ⟨as.pos, fun away => ?_⟩
  rw [size]
  by_cases zero : E = 0
  · subst zero
    have whole : M ≠ 0 := by
      rintro rfl
      exact away (by rw [as.value, Flt.magnitude_eq_zero.mpr ⟨rfl, rfl⟩, mul_zero])
    refine ⟨M, (Flt.mk eb fb).emin - fb, by rw [Flt.magnitude, if_pos rfl], by omega, by unfold Flt.emin; omega,
      (Flt.magnitude_subnormal frac).trans_le (zpow_le_zpow_right₀ one_le_two (by unfold Flt.emin; omega)), .inl ?_⟩
    exact as.normal.resolve_right fun h => h.elim (fun h => h rfl) whole
  · obtain ⟨low, high⟩ := Flt.magnitude_normal (f := ⟨eb, fb⟩) zero frac
    dsimp only at *
    refine ⟨M + 2 ^ fb, (E : ℤ) - (Flt.mk eb fb).bias - fb, by rw [Flt.magnitude, if_neg zero]; push_cast; rfl, by omega, by omega,
      high.trans_le (zpow_le_zpow_right₀ one_le_two (by omega)), .inr ((zpow_le_zpow_right₀ one_le_two (by omega)).trans low)⟩

/-- An element of a float type fits F32. -/
theorem readReal_fits (float : (t, eb, fb) ∈ formats) (fz : Bool) {x : Nat} (fits : x < 2 ^ t.bits) : (t.readReal fz x).Fits fz := by
  by_cases finite : fin eb fb x
  · obtain ⟨q, neg, E, M, read, as⟩ := readReal_as float fz finite fits
    rw [read]
    exact as.fits (formats_spec float).2.1 (formats_small float)
  · by_cases nan : isNan eb fb x
    · rw [readReal_nan float fz nan]
      trivial
    · rw [readReal_inf float fz finite nan]
      trivial

/-- An M8 element fits F32. -/
theorem readReal_m8_fits (fz : Bool) {x : Nat} (fits : x < 256) : (ETy.m8.readReal fz x).Fits fz := by
  by_cases nar : x = 0x80
  · rw [nar]
    trivial
  · obtain ⟨q, neg, read, pos, value⟩ := readReal_m8 fits nar fz
    rw [read]
    refine ⟨pos, fun away => ?_⟩
    have inside := Nat.mod_lt x (show 0 < 128 by decide)
    have size : |q.value| = (m8Mag (x % 128) : ℚ) / 2 ^ 18 := by rw [value, abs_m8Value, m8Mag_table _ inside]
    obtain ⟨j, -, parts, short⟩ := m8Mag_short (x % 128) inside
    have partsQ : (m8Mag (x % 128) : ℚ) = (m8Mag (x % 128) / 2 ^ j : ℕ) * 2 ^ (j : ℤ) := by
      rw [zpow_natCast]
      exact_mod_cast parts.symm
    have some_ : (1 : ℚ) ≤ m8Mag (x % 128) := by
      rcases m8Mag_pos (x % 128) inside with none_ | some_
      · rw [none_] at size
        exact absurd (abs_eq_zero.mp (size.trans (zero_div _))) away
      · exact_mod_cast some_
    refine ⟨_, (j : ℤ) - 18, ?_, short, by omega, ?_, .inr ?_⟩
    · rw [size, partsQ, zpow_sub₀ two_ne_zero, mul_div_assoc]
      rfl
    · exact (value ▸ m8Value_le x).trans_lt (by norm_num)
    · rw [size, le_div_iff₀ (by positivity)]
      exact le_trans (by norm_num) some_

end

end Sys2Proof.Machine

namespace Sys2Proof.Machine
open Sys2Proof.Claims

/-! The pairwise tree on patterns of F32 (R55, R56). -/

/-- A result and the F32 pattern that stands for it. -/
def Carries (fz : Bool) (x : Ex) (y : Nat) : Prop := y < 2 ^ 32 ∧ x.Same (ETy.f32.readReal fz y)

section
variable {fmt : Fmt} {x x' : Ex} {y y' : Nat}

theorem VArith.elem_f32 (o : VArith) (y y' : Nat) : (o.elem .f32 fmt y y' 0).1 =
    ((o.real fmt (ETy.f32.readReal fmt.fz y) (ETy.f32.readReal fmt.fz y') (ETy.f32.readReal fmt.fz 0)).1.round ⟨8, 23⟩ fmt.rm fmt.fz).1 := by
  rw [VArith.elem_float float32]

/-- A pattern of F32 that is read with and without `fz` alike. -/
def Unflushed (fz : Bool) (y : Nat) : Prop := y < 2 ^ 32 ∧ (Flt.mk 8 23).decode fz y = (Flt.mk 8 23).decode false y

theorem packed_unflushed {fz neg : Bool} {E M : Nat} (hE : E < 2 ^ 8) (hM : M < 2 ^ 23) (normal : fz = false ∨ E ≠ 0 ∨ M = 0) :
    Unflushed fz (packed 8 23 neg.toNat E M) := by
  refine ⟨packed_lt hE hM neg.toNat_lt, ?_⟩
  rcases normal with rfl | normal
  · rfl
  · unfold Flt.decode
    dsimp only
    rw [packed_exp hE hM, packed_frac hM]
    rcases normal with away | none_
    · rw [if_neg away, if_neg away]
    · simp only [none_, decide_true, Bool.true_or]

theorem unflushed_limits : ∀ fz neg : Bool, Unflushed fz (flt32.inf neg) ∧ Unflushed fz (flt32.max neg) ∧ Unflushed fz flt32.qnan := by
  unfold Unflushed
  decide +kernel

theorem Flt.biased_ne_zero (f : Flt) (e : ℤ) (n : Nat) : f.biased e n ≠ 0 := by
  unfold Flt.biased Flt.emin
  omega

/-- What is delivered in F32 is read again as it is. -/
theorem Flt.round_unflushed {q : Q} (pos : 0 < q.den) (rm : BitVec 2) (fz z : Bool) : Unflushed fz ((Flt.mk 8 23).round rm fz q z).1 := by
  by_cases zero : q.value = 0
  · rw [Flt.round_zero pos zero, Flt.zero_packed]
    exact packed_unflushed (by decide) (by decide) (.inr (.inr rfl))
  · obtain ⟨e, n, inexact, tiny, parts, eq⟩ := Flt.round_parts (f := ⟨8, 23⟩) (rm := rm) pos zero fz z
    rw [eq]
    by_cases full : 2 ^ 23 ≤ n
    · rw [if_pos full]
      by_cases beyond : 2 ^ 8 - 1 ≤ (Flt.mk 8 23).biased e n
      · rw [if_pos beyond]
        obtain ⟨inf, most, -⟩ := unflushed_limits fz q.isNeg
        dsimp only
        split
        · exact inf
        · exact most
      · rw [if_neg beyond]
        exact packed_unflushed (by omega) (Nat.mod_lt _ (Nat.two_pow_pos _)) (.inr (.inl (Flt.biased_ne_zero _ _ _)))
    · rw [if_neg full]
      cases fz with
      | true =>
        rw [if_pos rfl, Flt.zero_packed]
        exact packed_unflushed (by decide) (by decide) (.inr (.inr rfl))
      | false => exact packed_unflushed (by decide) (not_le.mp full) (.inl rfl)

/-- Whether a result may be rounded. -/
def Ex.Sound : Ex → Prop
  | .val q _ => 0 < q.den
  | _ => True

theorem Ex.round_unflushed (sound : x.Sound) (rm : BitVec 2) (fz : Bool) : Unflushed fz (x.round ⟨8, 23⟩ rm fz).1 := by
  cases x with
  | nan nv => exact (unflushed_limits fz true).2.2
  | inf neg => exact (unflushed_limits fz neg).1
  | val q z => exact Flt.round_unflushed sound rm fz z

theorem Ex.Same.sound (same : x.Same x') : x.Sound := by
  rcases same.cases with ⟨a, b, rfl, rfl⟩ | ⟨n, rfl, rfl⟩ | ⟨p, m, q, n, rfl, rfl, posP, -⟩
  · trivial
  · trivial
  · exact posP

/-- Every F32 pattern reads as a number that has F32's digits. -/
theorem readReal_f32_fits (fz : Bool) (y : Nat) (fits : y < 2 ^ 32) : (ETy.f32.readReal fz y).Fits fz := readReal_fits float32 fz fits

theorem readReal_sound (fz : Bool) (y : Nat) : (ETy.f32.readReal fz y).Sound := by
  by_cases finite : fin 8 23 y
  · obtain ⟨q, read, pos, -⟩ := readReal_fin float32 fz finite
    rw [read]
    exact pos
  · by_cases nan : isNan 8 23 y
    · rw [readReal_nan float32 fz nan]
      trivial
    · rw [readReal_inf float32 fz finite nan]
      trivial

theorem Ex.Same.refl (sound : x.Sound) : x.Same x := by
  cases x with
  | nan nv => trivial
  | inf neg => exact (rfl : neg = neg)
  | val q z => exact ⟨sound, sound, rfl, fun _ => rfl⟩

theorem Ex.Same.trans {z : Ex} (xy : x.Same x') (yz : x'.Same z) : x.Same z := by
  rcases xy.cases with ⟨a, b, rfl, rfl⟩ | ⟨n, rfl, rfl⟩ | ⟨p, m, q, n, rfl, rfl, posP, posQ, value, sign⟩
  · rcases yz.cases with ⟨c, d, -, rfl⟩ | ⟨n, none_, -⟩ | ⟨q, n, q', n', none_, -⟩
    · trivial
    · cases none_
    · cases none_
  · exact yz
  · rcases yz.cases with ⟨c, d, none_, -⟩ | ⟨n, none_, -⟩ | ⟨q', n', r, l, eq, rfl, -, posR, value', sign'⟩
    · cases none_
    · cases none_
    · cases eq
      exact ⟨posP, posR, value.trans value', fun zero => (sign zero).trans (sign' (value ▸ zero))⟩

/-- A sum in the tree and its pattern. -/
theorem Carries.sum (hx : Carries fmt.fz x y) (hx' : Carries fmt.fz x' y') :
    Carries fmt.fz (sumF32 fmt x x').1 (VArith.add.elem .f32 fmt y y' 0).1 := by
  have same := Ex.Same.add fmt.rm hx.2 hx'.2
  have rounds := same.round ⟨8, 23⟩ fmt.rm fmt.fz
  have plain := Ex.round_unflushed same.sound fmt.rm fmt.fz
  have pattern : (VArith.add.elem .f32 fmt y y' 0).1 = ((Ex.add fmt.rm x x').round ⟨8, 23⟩ fmt.rm fmt.fz).1 := by
    rw [VArith.elem_f32, rounds]
    rfl
  have node : (sumF32 fmt x x').1 = ETy.f32.readReal fmt.fz ((Ex.add fmt.rm x x').round ⟨8, 23⟩ fmt.rm fmt.fz).1 := by
    rw [readReal_f32, plain.2]
    rfl
  unfold Carries
  rw [pattern, node]
  exact ⟨plain.1, Ex.Same.refl (readReal_sound _ _)⟩

/-- A maximum or a minimum in the tree and its pattern. -/
theorem Carries.pick {o : VArith} {big : Bool} (picks : ∀ a b d, o.real fmt a b d = Ex.pick big a b) (hx : Carries fmt.fz x y) (hx' : Carries fmt.fz x' y') :
    Carries fmt.fz (Ex.pick big x x').1 (o.elem .f32 fmt y y' 0).1 := by
  have same := Ex.Same.pick big hx.2 hx'.2
  rw [Carries, VArith.elem_f32, picks]
  have held : (Ex.pick big (ETy.f32.readReal fmt.fz y) (ETy.f32.readReal fmt.fz y')).1.Fits fmt.fz := by
    rcases Ex.pick_cases big (ETy.f32.readReal fmt.fz y) (ETy.f32.readReal fmt.fz y') with eq | eq | eq
    · rw [eq]
      exact readReal_f32_fits _ _ hx.1
    · rw [eq]
      exact readReal_f32_fits _ _ hx'.1
    · rw [eq]
      trivial
  have rounds := same.round ⟨8, 23⟩ fmt.rm fmt.fz
  exact ⟨rounds ▸ (Ex.round_unflushed same.sound fmt.rm fmt.fz).1, same.trans (held.same fmt.rm)⟩

end

end Sys2Proof.Machine

namespace Sys2Proof.Machine
open Sys2Proof.Claims

/-! The tree of a reduction on results and on patterns (R55, R186, R187). -/

section
variable {op : Ex → Ex → Ex × Fl} {g : Nat → Nat → Nat} {R : Ex → Nat → Prop}
  (step : ∀ {x x' y y'}, R x y → R x' y' → R (op x x').1 (g y y'))
include step

/-- One level combines neighbours alike. -/
theorem treeLevel_pairs {xs : List (Option Ex)} {ys : List (Option Nat)} (leaves : List.Forall₂ (Option.Rel R) xs ys) :
    List.Forall₂ (Option.Rel R) (treeLevel op xs).1 (pairs g ys) := by
  match xs, ys, leaves with
  | [], [], .nil => exact .nil
  | [_], [_], .cons (.some _) .nil => exact .nil
  | [_], [_], .cons .none .nil => exact .nil
  | _ :: _ :: _, _ :: _ :: _, .cons (.some hx) (.cons (.some hy) rest) => exact .cons (.some (step hx hy)) (treeLevel_pairs rest)
  | _ :: _ :: _, _ :: _ :: _, .cons (.some hx) (.cons .none rest) => exact .cons (.some hx) (treeLevel_pairs rest)
  | _ :: _ :: _, _ :: _ :: _, .cons .none (.cons hy rest) => exact .cons hy (treeLevel_pairs rest)

theorem tree_pairwise (k : Nat) {xs : List (Option Ex)} {ys : List (Option Nat)} (leaves : List.Forall₂ (Option.Rel R) xs ys) :
    Option.Rel R (tree op k xs).1 (pairwise g k ys) := by
  induction k generalizing xs ys with
  | zero =>
    cases leaves with
    | nil => exact .none
    | cons first rest => exact first
  | succ k ih => exact ih (treeLevel_pairs step leaves)

end

theorem pairs_none {g : Nat → Nat → Nat} : ∀ {ys : List (Option Nat)}, (∀ y ∈ ys, y = none) → ∀ y ∈ pairs g ys, y = none
  | [], _ => nofun
  | [y], absent => by
    rw [absent y (by simp)]
    exact nofun
  | y :: y' :: rest, absent => by
    have tail := pairs_none (g := g) (ys := rest) fun z member => absent z (by simp [member])
    rw [absent y (by simp), absent y' (by simp)]
    intro z member
    rcases List.mem_cons.mp member with rfl | later
    · rfl
    · exact tail z later

/-- Without elements there is no root. -/
theorem pairwise_none {g : Nat → Nat → Nat} (k : Nat) {ys : List (Option Nat)} (absent : ∀ y ∈ ys, y = none) : pairwise g k ys = none := by
  induction k generalizing ys with
  | zero =>
    cases ys with
    | nil => rfl
    | cons y rest => exact absent y (by simp)
  | succ k ih => exact ih (pairs_none absent)

section
variable {t : ETy} {fmt : Fmt}

/-- The types that are computed in floating point have elements that F32 holds. -/
theorem readReal_real_fits (real : t.isReal = true) (fz : Bool) {x : Nat} (fits : x < 2 ^ t.bits) : (t.readReal fz x).Fits fz := by
  cases t with
  | f32 => exact readReal_fits (eb := 8) (fb := 23) (by decide) fz fits
  | f16 => exact readReal_fits (eb := 5) (fb := 10) (by decide) fz fits
  | bf16 => exact readReal_fits (eb := 8) (fb := 7) (by decide) fz fits
  | m8 => exact readReal_m8_fits fz fits
  | _ => exact absurd real (by decide)

theorem Ex.Fits.sound {fz : Bool} {x : Ex} (fits : x.Fits fz) : x.Sound := by
  cases x with
  | nan nv => trivial
  | inf neg => trivial
  | val q z => exact fits.1

/-- An element and its pattern in F32. -/
theorem carries_leaf (real : t.isReal = true) {x : Nat} (fits : x < 2 ^ t.bits) : Carries fmt.fz (t.readReal fmt.fz x) (convert fmt t .f32 x).1 := by
  have holds := readReal_real_fits real fmt.fz fits
  rw [convert_real real, convertReal_float float32]
  exact ⟨(Ex.round_unflushed holds.sound fmt.rm fmt.fz).1, holds.same fmt.rm⟩

theorem flt32_eq : flt32 = ⟨8, 23⟩ := rfl

/-- The root and its pattern are put into the type alike. -/
theorem carries_put (real : t.isReal = true) {x : Ex} {y : Nat} (carries : Carries fmt.fz x y) : (t.putReal fmt x).1 = (convert fmt .f32 t y).1 := by
  obtain ⟨fits, same⟩ := carries
  have float {eb fb : Nat} (member : (t, eb, fb) ∈ formats) : (t.putReal fmt x).1 = (convert fmt .f32 t y).1 := by
    rw [putReal_float member, convert_real rfl, convertReal_float member]
    exact same.round _ _ _
  cases t with
  | f32 => exact float (eb := 8) (fb := 23) (by decide)
  | f16 => exact float (eb := 5) (fb := 10) (by decide)
  | bf16 => exact float (eb := 8) (fb := 7) (by decide)
  | m8 =>
    have rounds := same.round ⟨8, 23⟩ fmt.rm fmt.fz
    have again := (readReal_f32_fits fmt.fz y fits).same fmt.rm
    have plain := (Ex.round_unflushed (readReal_sound fmt.fz y) fmt.rm fmt.fz).2
    rw [readReal_f32 fmt.fz (Ex.round _ _ _ _).1, plain] at again
    have encode : convertReal .m8 fmt (ETy.f32.readReal fmt.fz y) = m8Encode (ETy.f32.readReal fmt.fz y) := if_pos rfl
    rw [putReal_m8_round, convert_real rfl, encode, flt32_eq]
    dsimp only
    rw [rounds]
    exact again.m8.symm
  | _ => exact absurd real (by decide)

end

/-- The elements of a group in F32, those masked off absent. -/
def widened (fmt : Fmt) (t : ETy) (ks : List Bool) (xs : List Nat) : List (Option Nat) :=
  (ks.zip xs).map (fun p => if p.1 then some (convert fmt t .f32 p.2).1 else none)

/-- The elements of a group that are active. -/
def chosen (ks : List Bool) (xs : List Nat) : List Nat := ((ks.zip xs).filter (fun p => p.1)).map (fun p => p.2)

section
variable {t : ETy} {fmt : Fmt} {ks : List Bool} {xs : List Nat} {k : Nat} (real : t.isReal = true) (masks : ks.length = 2 ^ k) (elements : xs.length = 2 ^ k)
  (fits : ∀ x ∈ xs, x < 2 ^ t.bits)

theorem mem_zip_right {p : Bool × Nat} (member : p ∈ ks.zip xs) : p.2 ∈ xs := (List.of_mem_zip member).2

include real fits in
theorem leaves_carry : List.Forall₂ (Option.Rel (Carries fmt.fz)) (presentReal t fmt ks xs) (widened fmt t ks xs) := by
  unfold presentReal widened
  rw [List.forall₂_map_left_iff, List.forall₂_map_right_iff, List.forall₂_same]
  intro p member
  cases p.1 with
  | true => exact .some (carries_leaf real (fits p.2 (mem_zip_right member)))
  | false => exact .none

include masks elements in
theorem present_log2 : Nat.log2 (presentReal t fmt ks xs).length = k := by
  rw [presentReal, List.length_map, List.length_zip, masks, elements, Nat.min_self, Nat.log2_two_pow]

/-- What a reduction's root is put into the type as. -/
theorem put_root {x : Option Ex} {y : Option Nat} (carries : Option.Rel (Carries fmt.fz) x y) (real : t.isReal = true) {absent : Ex} {c : Nat}
    (none_ : (t.putReal fmt absent).1 = c) : (t.putReal fmt (x.getD absent)).1 = (y.map (fun z => (convert fmt .f32 t z).1)).getD c := by
  cases carries with
  | some h => exact carries_put real h
  | none => exact none_

end

end Sys2Proof.Machine

namespace Sys2Proof.Machine
open Sys2Proof.Claims

/-! Rounding stays within a bound that the format has (R40). -/

/-- An integer that a value is rounded to is within every integer bound of the value. -/
theorem roundsInt_abs_le {rm : BitVec 2} {v : ℚ} {n : ℤ} (rounds : RoundsInt rm v n) {X : Nat} (bound : |v| ≤ X) : |n| ≤ X := by
  obtain ⟨low, high⟩ := abs_le.mp bound
  obtain ⟨nearest, toZero, up, down⟩ := rounds
  rw [abs_le]
  have both (below : (-(X : ℤ) : ℚ) - 1 < n) (above : (n : ℚ) < X + 1) : -(X : ℤ) ≤ n ∧ n ≤ X := by
    have below' : -(X : ℤ) - 1 < n := by exact_mod_cast below
    have above' : n < (X : ℤ) + 1 := by exact_mod_cast above
    omega
  rcases rm_cases rm with rfl | rfl | rfl | rfl
  · obtain ⟨left, right⟩ := abs_le.mp (show |(n : ℚ) - v| ≤ 1 / 2 by linarith [(nearest rfl).1])
    exact both (by push_cast; linarith) (by linarith)
  · obtain ⟨near, -⟩ := toZero rfl
    obtain ⟨left, right⟩ := abs_le.mp (near.trans bound)
    exact both (by push_cast; linarith) (by linarith)
  · obtain ⟨left, right⟩ := up rfl
    exact both (by push_cast; linarith) (by linarith)
  · obtain ⟨left, right⟩ := down rfl
    exact both (by push_cast; linarith) (by linarith)

section
variable {f : Flt}

/-- The greatest finite magnitude. -/
def Flt.most (f : Flt) : ℚ := ((2 ^ (f.fb + 1) - 1 : ℕ) : ℚ) * 2 ^ ((f.bias : ℤ) - f.fb)

theorem Flt.magnitude_le_most (wide : 1 ≤ f.eb) (ranged : 1 ≤ f.bias) {E M : Nat} (hE : E < 2 ^ f.eb - 1) (hM : M < 2 ^ f.fb) : f.magnitude E M ≤ f.most := by
  rw [f.top_eq wide] at hE
  unfold Flt.magnitude Flt.most Flt.emin
  have digits : M + 2 ^ f.fb ≤ 2 ^ (f.fb + 1) - 1 := by
    rw [Nat.pow_succ]
    omega
  split
  · have few : (M : ℚ) ≤ ((2 ^ (f.fb + 1) - 1 : ℕ) : ℚ) := by
      exact_mod_cast (show M ≤ 2 ^ (f.fb + 1) - 1 by omega)
    exact mul_le_mul few (zpow_le_zpow_right₀ one_le_two (by omega)) (by positivity) (by positivity)
  · have few : (M : ℚ) + 2 ^ f.fb ≤ ((2 ^ (f.fb + 1) - 1 : ℕ) : ℚ) := by exact_mod_cast digits
    exact mul_le_mul few (zpow_le_zpow_right₀ one_le_two (by omega)) (by positivity) (by positivity)

theorem Flt.most_lt (f : Flt) : f.most < 2 ^ ((f.bias : ℤ) + 1) := by
  have digits : ((2 ^ (f.fb + 1) - 1 : ℕ) : ℚ) < 2 ^ (f.fb + 1) := by
    have : 2 ^ (f.fb + 1) - 1 < 2 ^ (f.fb + 1) := by
      have := Nat.two_pow_pos (f.fb + 1)
      omega
    exact_mod_cast this
  calc f.most < 2 ^ (f.fb + 1) * 2 ^ ((f.bias : ℤ) - f.fb) := by unfold Flt.most; gcongr
    _ = 2 ^ ((f.bias : ℤ) + 1) := by rw [← zpow_natCast, ← zpow_add₀ two_ne_zero]; congr 1; push_cast; ring

/-- A value within the greatest finite magnitude is rounded to a finite pattern. -/
theorem Flt.round_fin_of_le (wide : 1 ≤ f.eb) (ranged : 1 ≤ f.bias) {q : Q} (pos : 0 < q.den) (bound : |q.value| ≤ f.most) (rm : BitVec 2) (fz z : Bool) :
    fin f.eb f.fb (f.round rm fz q z).1 := by
  by_cases zero : q.value = 0
  · rw [Flt.round_zero pos zero]
    exact f.zero_fin wide z
  obtain ⟨e, n, inexact, tiny, parts, eq⟩ := Flt.round_parts (f := f) (rm := rm) pos zero fz z
  rw [eq]
  by_cases full : 2 ^ f.fb ≤ n
  · have fits : ¬ 2 ^ f.eb - 1 ≤ f.biased e n := by
      intro beyond
      have large := (Flt.overflow_iff wide parts.most full).mp beyond
      have exponent : e ≤ f.bias := by
        have := (zpow_lt_zpow_iff_right₀ (one_lt_two : (1 : ℚ) < 2)).mp ((parts.low.trans bound).trans_lt f.most_lt)
        omega
      by_cases coarse : Max.max e f.emin = f.bias
      · have same : f.unit e = 2 ^ ((f.bias : ℤ) - f.fb) := by rw [Flt.unit, coarse]
        have rounds := parts.rounds
        rw [show (2 : ℚ) ^ (Max.max e f.emin - f.fb) = f.unit e from rfl] at rounds
        have few := roundsInt_abs_le rounds (X := 2 ^ (f.fb + 1) - 1) (by
          rw [abs_div, abs_of_pos (f.unit_pos e), div_le_iff₀ (f.unit_pos e), same]
          exact bound)
        rw [withSign_abs] at few
        have count : (n : ℚ) * f.unit e ≤ f.most := by
          have : (n : ℚ) ≤ ((2 ^ (f.fb + 1) - 1 : ℕ) : ℚ) := by exact_mod_cast few
          rw [same, Flt.most]
          gcongr
        exact absurd (large.trans count) (not_le.mpr f.most_lt)
      · have low := (Flt.biased_bounds (e := e) parts.most full).1
        have high : (n : ℚ) * f.unit e ≤ 2 ^ (Max.max e f.emin + 1) := by
          have whole := f.two_pow_unit e 1
          rw [Nat.cast_one] at whole
          rw [← whole, mul_le_mul_iff_left₀ (f.unit_pos e)]
          exact_mod_cast parts.most
        have := (zpow_le_zpow_iff_right₀ (one_lt_two : (1 : ℚ) < 2)).mp (large.trans high)
        unfold Flt.emin at *
        omega
    rw [if_pos full, if_neg fits]
    exact packed_fin (by omega) (Nat.mod_lt _ (Nat.two_pow_pos _))
  · rw [if_neg full]
    cases fz with
    | true =>
      rw [if_pos rfl]
      exact f.zero_fin wide _
    | false =>
      rw [if_neg Bool.false_ne_true]
      exact packed_fin (by have := f.top_eq wide; omega) (not_le.mp full)

end

end Sys2Proof.Machine

namespace Sys2Proof.Machine
open Sys2Proof.Claims

/-! What a group of a reduction gives (R55 to R57, R186, R187). -/

/-- The active elements are as many as the mask's ones. -/
theorem chosen_length : ∀ {ks : List Bool} {xs : List Nat}, ks.length = xs.length → (chosen ks xs).length = (ks.filter id).length
  | [], [], _ => rfl
  | k :: ks, x :: xs, same => by
    have rest := chosen_length (ks := ks) (xs := xs) (by simpa using same)
    unfold chosen at *
    cases k with
    | true => exact congrArg (· + 1) rest
    | false => exact rest

/-- Counting over the active elements. -/
theorem count_chosen {α : Type} (f : Bool × Nat → α) (p : α → Bool) (g : Nat → Bool) (L : List (Bool × Nat)) (same : ∀ e ∈ L, p (f e) = (e.1 && g e.2)) :
    ((L.map f).filter p).length = (((L.filter (fun e => e.1)).map (fun e => e.2)).filter g).length := by
  induction L with
  | nil => rfl
  | cons e L ih =>
    have rest := ih fun e member => same e (List.mem_cons_of_mem _ member)
    have first := same e (List.mem_cons_self ..)
    rw [List.map_cons, List.filter_cons, first, List.filter_cons]
    obtain ⟨b, x⟩ := e
    cases b with
    | false => simpa using rest
    | true =>
      cases hg : g x with
      | true => simp [hg, rest]
      | false => simp [hg, rest]

section
variable {t : ETy} {fmt : Fmt} {ks : List Bool} {xs : List Nat} {k : Nat}

/-- The roots of the trees. -/
def rootOf (fmt : Fmt) (t : ETy) (o : VArith) (k : Nat) (ks : List Bool) (xs : List Nat) : Option Nat :=
  pairwise (fun x y => (o.elem .f32 fmt x y 0).1) k (widened fmt t ks xs)

theorem putReal_zero (real : t.isReal = true) : (t.putReal fmt (.val ⟨0, 1⟩ false)).1 = 0 := by
  have zero : (Q.mk 0 1).value = 0 := by simp [Q.value]
  have float {eb fb : Nat} (member : (t, eb, fb) ∈ formats) : (t.putReal fmt (.val ⟨0, 1⟩ false)).1 = 0 := by
    rw [putReal_float member, Ex.round, Flt.round_zero Nat.one_pos zero]
    rfl
  cases t with
  | f32 => exact float (eb := 8) (fb := 23) (by decide)
  | f16 => exact float (eb := 5) (fb := 10) (by decide)
  | bf16 => exact float (eb := 8) (fb := 7) (by decide)
  | m8 => rw [(putReal_m8 (fmt := fmt) (q := ⟨0, 1⟩) Nat.one_pos (by rw [zero]; norm_num) false).1 zero]
  | _ => exact absurd real (by decide)

/-- An infinity in the type. -/
theorem putReal_inf {eb fb : Nat} (kind : (t, eb, fb) ∈ formats ∨ t = .m8) (neg : Bool) :
    (t.putReal fmt (.inf neg)).1 = if t = .m8 then (if neg = true then 0x83 else 0x03) else infinity eb fb (neg = true) := by
  rcases kind with float | rfl
  · obtain ⟨-, -, -, -, -, other⟩ := formats_spec float
    rw [if_neg other, putReal_float float, infinity_eq ⟨eb, fb⟩ neg _ Iff.rfl]
    rfl
  · have read := decode_inf32 false neg
    rw [if_pos rfl, putReal_m8_round, show (Ex.inf neg).round flt32 fmt.rm fmt.fz = (flt32.inf neg, 0#8) from rfl]
    rw [show ETy.f32.readReal false (flt32.inf neg) = (flt32.decode false (flt32.inf neg)).ex from rfl] at read
    rw [read, m8Encode_inf]

variable (real : t.isReal = true) (masks : ks.length = 2 ^ k) (elements : xs.length = 2 ^ k) (fits : ∀ x ∈ xs, x < 2 ^ t.bits)

include real fits in
/-- The tree of sums and its pattern. -/
theorem sums_carry : Option.Rel (Carries fmt.fz) (tree (sumF32 fmt) k (presentReal t fmt ks xs)).1 (rootOf fmt t .add k ks xs) :=
  tree_pairwise (fun hx hy => hx.sum hy) k (leaves_carry real fits)

include real masks elements fits

theorem reduced_sum : (VRed.sum.real t fmt ks xs).1 = ((rootOf fmt t .add k ks xs).map (fun y => (convert fmt .f32 t y).1)).getD 0 := by
  have root := put_root (sums_carry (fmt := fmt) (k := k) (ks := ks) real fits) real (putReal_zero real)
  rw [← root]
  unfold VRed.real
  dsimp only
  rw [present_log2 masks elements]

theorem reduced_pick {eb fb : Nat} (kind : (t, eb, fb) ∈ formats ∨ t = .m8) (r : VRed) (o : VArith) (big : Bool)
    (picks : ∀ a b d, o.real fmt a b d = Ex.pick big a b)
    (is : (r.real t fmt ks xs).1 = (t.putReal fmt ((tree (Ex.pick big) (Nat.log2 (presentReal t fmt ks xs).length) (presentReal t fmt ks xs)).1.getD (.inf big))).1) :
    (r.real t fmt ks xs).1 = ((rootOf fmt t o k ks xs).map (fun y => (convert fmt .f32 t y).1)).getD
      (if t = .m8 then (if big = true then 0x83 else 0x03) else infinity eb fb (big = true)) := by
  have carries : Option.Rel (Carries fmt.fz) (tree (Ex.pick big) k (presentReal t fmt ks xs)).1 (rootOf fmt t o k ks xs) :=
    tree_pairwise (fun hx hy => hx.pick picks hy) k (leaves_carry real fits)
  rw [is, present_log2 masks elements]
  exact put_root carries real (putReal_inf kind big)

end

end Sys2Proof.Machine

namespace Sys2Proof.Machine
open Sys2Proof.Claims

/-! Counts and means of a group (R57, R186, R187). -/

/-- An element that is counted: it is no zero. -/
def Ex.counts : Option Ex → Bool
  | none => false
  | some (.val q _) => !q.isZero
  | some _ => true

section
variable {t : ETy} {fmt : Fmt} {ks : List Bool} {xs : List Nat} {k : Nat}

/-- The number of elements that are no zero. -/
theorem counted_length (g : Nat → Bool) (same : ∀ x ∈ xs, Ex.counts (some (t.readReal fmt.fz x)) = g x) :
    ((presentReal t fmt ks xs).filter Ex.counts).length = ((chosen ks xs).filter g).length := by
  refine count_chosen _ _ g _ fun e member => ?_
  obtain ⟨b, x⟩ := e
  cases b with
  | true => exact same x (mem_zip_right member)
  | false => rfl

theorem reduced_count : (VRed.cnt.real t fmt ks xs).1 =
    (t.putReal fmt (.val (Q.ofInt ((presentReal t fmt ks xs).filter Ex.counts).length) false)).1 := by
  unfold VRed.real
  dsimp only
  rfl

theorem counts_float {eb fb : Nat} (float : (t, eb, fb) ∈ formats) (x : Nat) : Ex.counts (some (t.readReal fmt.fz x)) =
    decide (¬ (x / 2 ^ fb % 2 ^ eb ≠ 2 ^ eb - 1 ∧ fval eb fb fmt.fz x = 0)) := by
  by_cases finite : fin eb fb x
  · obtain ⟨q, read, pos, value⟩ := readReal_fin float fmt.fz finite
    rw [read, ← value, Bool.eq_iff_iff, decide_eq_true_eq]
    have zero := Q.isZero_iff pos
    have top : x / 2 ^ fb % 2 ^ eb ≠ 2 ^ eb - 1 := finite
    simp only [Ex.counts, Bool.not_eq_true', ← Bool.not_eq_true, zero, top, ne_eq, not_false_eq_true, true_and]
  · have counted : ¬ (x / 2 ^ fb % 2 ^ eb ≠ 2 ^ eb - 1 ∧ fval eb fb fmt.fz x = 0) := fun h => finite h.1
    rw [decide_eq_true counted]
    by_cases nan : isNan eb fb x
    · rw [readReal_nan float fmt.fz nan]
      rfl
    · rw [readReal_inf float fmt.fz finite nan]
      rfl

theorem counts_m8 {x : Nat} (fits : x < 256) : Ex.counts (some (ETy.m8.readReal fmt.fz x)) = decide (x ≠ 0) := by
  by_cases nar : x = 0x80
  · rw [nar]
    rfl
  · obtain ⟨q, neg, read, pos, value⟩ := readReal_m8 fits nar fmt.fz
    have zero : q.isZero = true ↔ x = 0 := by
      rw [Q.isZero_iff pos, value, ← abs_eq_zero, abs_m8Value, m8Mag_table _ (Nat.mod_lt _ (by decide)), div_eq_zero_iff, or_iff_left (by norm_num),
        Nat.cast_eq_zero]
      constructor
      · intro none_
        rcases m8Mag_pos (x % 128) (Nat.mod_lt _ (by decide)) with body | some_
        · omega
        · omega
      · rintro rfl
        rfl
    rw [read, Bool.eq_iff_iff, decide_eq_true_eq]
    simp only [Ex.counts, Bool.not_eq_true', ← Bool.not_eq_true, zero, ne_eq]

theorem m8_limits : (m8Encode ((Flt.mk 8 23).decode false ((Flt.mk 8 23).inf false)).ex).1 = 0x03 ∧
    (m8Encode ((Flt.mk 8 23).decode false ((Flt.mk 8 23).max false)).ex).1 = 0x03 := by decide +kernel

/-- A value far beyond M8's range is its greatest code. -/
theorem toM8_large {q : Q} (pos : 0 < q.den) (large : (2 : ℚ) ^ (24 : ℤ) ≤ q.value) (z : Bool) : ((Flt.mk 8 23).toM8 fmt q z).1 = 0x03 := by
  have positive : 0 < q.value := lt_of_lt_of_le (by positivity) large
  have sign : q.isNeg = false := by
    rw [← Bool.not_eq_true, Q.isNeg_iff pos]
    exact not_lt.mpr positive.le
  obtain ⟨e, n, inexact, tiny, parts, eq⟩ := Flt.round_parts (f := ⟨8, 23⟩) (rm := fmt.rm) pos positive.ne' fmt.fz z
  have exponent : 24 ≤ e := by
    have := (zpow_lt_zpow_iff_right₀ (one_lt_two : (1 : ℚ) < 2)).mp ((abs_of_pos positive ▸ large).trans_lt parts.high)
    omega
  have full := (parts.normal (by rw [emin32.1]; omega)).1
  rw [sign, if_pos full] at eq
  by_cases beyond : 2 ^ 8 - 1 ≤ (Flt.mk 8 23).biased e n
  · rw [if_pos beyond] at eq
    obtain ⟨inf, most⟩ := m8_limits
    rw [Flt.toM8, eq]
    dsimp only
    split
    · exact inf
    · exact most
  · rw [if_neg beyond] at eq
    have gives := Flt.delivers_normal (f := ⟨8, 23⟩) (e := e) false parts.most full (not_le.mp beyond)
    have size : (2 : ℚ) ^ (24 : ℤ) ≤ n * (Flt.mk 8 23).unit e :=
      (zpow_le_zpow_right₀ one_le_two (by omega)).trans ((Flt.full_iff e n).mp full)
    obtain ⟨g, encodes, -⟩ := Flt.toM8_of_fin (f := ⟨8, 23⟩) (fmt := fmt) (q := q) (z := z) (by rw [eq]; exact gives.finite)
    have value := gives.value
    rw [signOf, if_neg Bool.false_ne_true, one_mul] at value
    rw [eq, value] at encodes
    have positive' : (0 : ℚ) < n * (Flt.mk 8 23).unit e := lt_of_lt_of_le (by positivity) size
    obtain ⟨code, -⟩ := encodes.1 (by rw [abs_of_pos positive']; exact lt_of_lt_of_le (by norm_num) size)
    rw [code, if_neg (not_lt.mpr positive'.le)]

/-- A count that is put into M8 is its nearest code. -/
theorem count_encodes (n : Nat) : ∃ g, EncodesM8 n (ETy.m8.putReal fmt (.val (Q.ofInt n) false)).1 g := by
  have pos : 0 < (Q.ofInt n).den := Nat.one_pos
  have value : (Q.ofInt n).value = n := by rw [Q.value_ofInt, Int.cast_natCast]
  rw [putReal_m8_eq, flt32_eq]
  by_cases few : n < 2 ^ 24
  · have fewQ : (n : ℚ) < 2 ^ (24 : ℤ) := by exact_mod_cast few
    by_cases zero : n = 0
    · subst zero
      obtain ⟨g, encodes, -⟩ := Flt.toM8_of_fin (f := ⟨8, 23⟩) (fmt := fmt) (q := Q.ofInt (0 : ℕ)) (z := false)
        (by rw [Flt.round_zero pos value]; exact Flt.zero_fin ⟨8, 23⟩ (by decide) false)
      have none_ : fval 8 23 false ((Flt.mk 8 23).zero false) = 0 := by norm_num [fval, Flt.zero]
      rw [Flt.round_zero pos value, none_] at encodes
      exact ⟨g, by rw [Nat.cast_zero]; exact encodes⟩
    · have size : |(Q.ofInt n).value| = n := by rw [value, Nat.abs_cast]
      have one : (1 : ℚ) ≤ n := by exact_mod_cast Nat.one_le_iff_ne_zero.mpr zero
      have away : (Q.ofInt n).value ≠ 0 := by
        rw [value]
        exact_mod_cast zero
      have bias : (((Flt.mk 8 23).bias : ℕ) : ℤ) + 1 = 128 := by rw [emin32.2]; rfl
      obtain ⟨gives, -⟩ := Flt.round_exact (f := ⟨8, 23⟩) (k := n) (j := 0) (by decide) pos away fmt.rm fmt.fz false (by rw [size, zpow_zero, mul_one]) few
        (by rw [emin32.1]; decide) (by rw [size, bias]; exact fewQ.trans (by norm_num)) (.inr (by rw [size, emin32.1]; exact le_trans (by norm_num) one))
      obtain ⟨g, encodes, -⟩ := Flt.toM8_of_fin (f := ⟨8, 23⟩) (fmt := fmt) (q := Q.ofInt n) (z := false) gives.finite
      rw [gives.value, ← Q.value_signOf, value] at encodes
      exact ⟨g, encodes⟩
  · have large : (2 : ℚ) ^ (24 : ℤ) ≤ n := by exact_mod_cast not_lt.mp few
    have beyond : (65536 : ℚ) < |(n : ℚ)| := by
      rw [Nat.abs_cast]
      exact lt_of_lt_of_le (by norm_num) large
    refine ⟨SAT ||| NX, fun _ => ⟨?_, rfl⟩, fun small => absurd beyond (not_lt.mpr small)⟩
    rw [toM8_large pos (value ▸ large), if_neg (not_lt.mpr (Nat.cast_nonneg n))]

end

/-! Means. -/

section
variable {t : ETy} {fmt : Fmt} {ks : List Bool} {xs : List Nat} {k : Nat}

theorem widened_absent (none_ : chosen ks xs = []) : ∀ y ∈ widened fmt t ks xs, y = none := by
  intro y member
  obtain ⟨p, there, rfl⟩ := List.mem_map.mp member
  have inactive : p ∉ (ks.zip xs).filter (fun p => p.1) := by
    rw [List.map_eq_nil_iff.mp none_]
    exact List.not_mem_nil
  rw [List.mem_filter, not_and] at inactive
  exact if_neg (inactive there)

variable (real : t.isReal = true) (masks : ks.length = 2 ^ k) (elements : xs.length = 2 ^ k) (fits : ∀ x ∈ xs, x < 2 ^ t.bits)
include masks elements

theorem mean_empty (none_ : chosen ks xs = []) : VRed.mean.real t fmt ks xs = (0, 0#8) := by
  have count := chosen_length (masks.trans elements.symm)
  rw [none_, List.length_nil] at count
  unfold VRed.real
  dsimp only
  rw [if_pos count.symm]

include real fits in
/-- The mean of a finite root: the root divided by the number of elements, delivered. -/
theorem mean_value {y : Nat} (root : rootOf fmt t .add k ks xs = some y) (finite : fin 8 23 y) : ∃ q z, 0 < q.den ∧
    q.value = fval 8 23 fmt.fz y / (chosen ks xs).length ∧ (VRed.mean.real t fmt ks xs).1 = (t.putReal fmt (.val q z)).1 ∧
    (chosen ks xs).length ≠ 0 ∧ y < 2 ^ 32 := by
  have some_ : chosen ks xs ≠ [] := by
    intro none_
    rw [rootOf, pairwise_none k (widened_absent none_)] at root
    cases root
  have away : (chosen ks xs).length ≠ 0 := fun h => some_ (List.length_eq_zero_iff.mp h)
  have carries := sums_carry (fmt := fmt) (k := k) (ks := ks) real fits
  have count := chosen_length (masks.trans elements.symm)
  obtain ⟨q', read, posY, valY⟩ := readReal_fin float32 fmt.fz finite
  rw [root] at carries
  generalize hx : (tree (sumF32 fmt) k (presentReal t fmt ks xs)).1 = x at carries
  cases carries with
  | some h =>
    obtain ⟨bits, same⟩ := h
    rw [read] at same
    rcases same.cases with ⟨a, b, -, none_⟩ | ⟨n, -, none_⟩ | ⟨p, m, r, n, rfl, eq, posP, -, value, -⟩
    · cases none_
    · cases none_
    · cases eq
      have divisor : (Q.ofInt (chosen ks xs).length).num ≠ 0 := by
        change ((chosen ks xs).length : ℤ) ≠ 0
        exact_mod_cast away
      refine ⟨p.div (Q.ofInt (chosen ks xs).length), m, Q.den_div posP divisor, ?_, ?_, away, bits⟩
      · rw [Q.value_div posP divisor, value, valY, Q.value_ofInt, Int.cast_natCast]
      · unfold VRed.real
        dsimp only
        rw [← count, if_neg away, present_log2 masks elements, hx]
        rfl

end

end Sys2Proof.Machine

namespace Sys2Proof.Machine
open Sys2Proof.Claims

/-! A group of a reduction in every class (R55 to R57, R186, R187). -/

section
variable {t : ETy} {fmt : Fmt} {ks : List Bool} {xs : List Nat} {k : Nat}

theorem fval32_le {fz : Bool} {y : Nat} (finite : fin 8 23 y) (fits : y < 2 ^ 32) : |fval 8 23 fz y| ≤ (Flt.mk 8 23).most := by
  obtain ⟨q, neg, E, M, -, as⟩ := readReal_as float32 fz finite fits
  rw [← as.reads, as.value, signOf_mul_abs, abs_of_nonneg (Flt.magnitude_nonneg _ _ _)]
  exact Flt.magnitude_le_most (by decide) (by decide) as.expFits as.fracFits

/-- A value divided by a count is no greater. -/
theorem abs_div_count_le {v : ℚ} {n : Nat} (away : n ≠ 0) : |v / n| ≤ |v| := by
  have one : (1 : ℚ) ≤ n := by exact_mod_cast Nat.one_le_iff_ne_zero.mpr away
  rw [abs_div, Nat.abs_cast]
  exact div_le_self (abs_nonneg v) one

/-- The elements of a group that are integers or codes. -/
theorem presentInt_eq (t : ETy) : ∀ (ks : List Bool) (xs : List Nat), presentInt t ks xs = (chosen ks xs).map t.readInt
  | [], _ => rfl
  | _ :: _, [] => rfl
  | k :: ks, x :: xs => by
    have rest := presentInt_eq t ks xs
    unfold presentInt chosen at *
    cases k with
    | true => exact congrArg (t.readInt x :: ·) rest
    | false => exact rest

/-- Integers and codes of a group: all is exact and held to the range once. -/
theorem reduced_exact (exact_ : t ∈ exactTypes) :
    let vs := (chosen ks xs).map (fun x => (readCode t x).1)
    let read := (chosen ks xs).foldl (fun f x => f ||| (readCode t x).2) 0#8
    let gives := fun (p : Nat × Fl) (v : Int) => p = ((held t v).1, (held t v).2 ||| read)
    gives (VRed.sum.int t fmt ks xs) vs.sum ∧ gives (VRed.cnt.int t fmt ks xs) (vs.filter (fun v => v != 0)).length ∧
    gives (VRed.max.int t fmt ks xs) (vs.foldl max (Claims.ends t).1) ∧ gives (VRed.min.int t fmt ks xs) (vs.foldl min (Claims.ends t).2) ∧
    (vs = [] → VRed.mean.int t fmt ks xs = (0, 0#8)) ∧
    (vs ≠ [] → ∃ m, RoundsInt fmt.rm ((vs.sum : ℚ) / vs.length) m ∧ gives (VRed.mean.int t fmt ks xs) m) := by
  have reads : t.readInt = readCode t := funext (readInt_exact exact_)
  have es := presentInt_eq t ks xs
  rw [reads] at es
  have values : (presentInt t ks xs).map (·.1) = (chosen ks xs).map (fun x => (readCode t x).1) := by
    rw [es, List.map_map]
    rfl
  have flags : (presentInt t ks xs).foldl (fun f e => f ||| e.2) 0#8 = (chosen ks xs).foldl (fun f x => f ||| (readCode t x).2) 0#8 := by
    rw [es, List.foldl_map]
  have total (vs : List Int) : vs.foldl (· + ·) 0 = vs.sum := List.sum_eq_foldl.symm
  dsimp only
  unfold VRed.int
  dsimp only
  rw [values, flags, total, putInt_held exact_, putInt_held exact_, putInt_held exact_, putInt_held exact_, range_eq_ends exact_]
  have counted (vs : List Int) : vs.filter (· ≠ 0) = vs.filter (fun v => v != 0) := by
    refine List.filter_congr fun v _ => ?_
    rw [Bool.eq_iff_iff, decide_eq_true_eq, bne_iff_ne]
  refine ⟨rfl, ?_, rfl, rfl, fun none_ => ?_, fun some_ => ?_⟩
  · rw [counted]
  · rw [if_pos (List.isEmpty_iff.mpr none_), List.map_eq_nil_iff.mp none_, List.foldl_nil, BitVec.or_zero]
  · have length : ((chosen ks xs).map (fun x => (readCode t x).1)).length ≠ 0 := fun h => some_ (List.length_eq_zero_iff.mp h)
    rw [if_neg fun h => some_ (List.isEmpty_iff.mp h)]
    generalize (chosen ks xs).map (fun x => (readCode t x).1) = vs at *
    have divisor : (Q.ofInt vs.length).num ≠ 0 := by
      change (vs.length : ℤ) ≠ 0
      exact_mod_cast length
    have value : ((Q.ofInt vs.sum).div (Q.ofInt vs.length)).value = (vs.sum : ℚ) / vs.length := by
      rw [Q.value_div Nat.one_pos divisor, Q.value_ofInt, Q.value_ofInt, Int.cast_natCast]
    exact ⟨_, value ▸ Q.round_rounds fmt.rm (Q.den_div Nat.one_pos divisor), by rw [putInt_held exact_]⟩

variable (real : t.isReal = true) (masks : ks.length = 2 ^ k) (elements : xs.length = 2 ^ k) (fits : ∀ x ∈ xs, x < 2 ^ t.bits)
include masks elements fits

/-- Sums, maxima and minima of float and M8 groups. -/
theorem reduced_roots {eb fb : Nat} (kind : (t, eb, fb) ∈ formats ∨ t = .m8) :
    (VRed.sum.real t fmt ks xs).1 = ((rootOf fmt t .add k ks xs).map (fun y => (convert fmt .f32 t y).1)).getD 0 ∧
    (VRed.max.real t fmt ks xs).1 = ((rootOf fmt t .max k ks xs).map (fun y => (convert fmt .f32 t y).1)).getD
      (if t = .m8 then (if true = true then 0x83 else 0x03) else infinity eb fb (true = true)) ∧
    (VRed.min.real t fmt ks xs).1 = ((rootOf fmt t .min k ks xs).map (fun y => (convert fmt .f32 t y).1)).getD
      (if t = .m8 then (if false = true then 0x83 else 0x03) else infinity eb fb (false = true)) ∧
    (chosen ks xs = [] → VRed.mean.real t fmt ks xs = (0, 0#8)) := by
  have real : t.isReal = true := by
    rcases kind with float | rfl
    · exact (formats_spec float).2.2.2.1
    · rfl
  exact ⟨reduced_sum real masks elements fits, reduced_pick real masks elements fits kind .max .max true (fun _ _ _ => rfl) rfl,
    reduced_pick real masks elements fits kind .min .min false (fun _ _ _ => rfl) rfl, mean_empty masks elements⟩

/-- Counts and means of float groups. -/
theorem reduced_float {eb fb : Nat} (float : (t, eb, fb) ∈ formats) :
    (let c : ℕ := ((chosen ks xs).filter (fun x => decide (¬ (x / 2 ^ fb % 2 ^ eb ≠ 2 ^ eb - 1 ∧ fval eb fb fmt.fz x = 0)))).length
     (c = 0 → (VRed.cnt.real t fmt ks xs).1 = 0) ∧ (c ≠ 0 → ∃ g, RoundsTo eb fb fmt.rm fmt.fz c (VRed.cnt.real t fmt ks xs).1 g)) ∧
    (∀ y, rootOf fmt t .add k ks xs = some y → fin 8 23 y → fval 8 23 fmt.fz y ≠ 0 →
      ∃ g, RoundsTo eb fb fmt.rm fmt.fz (fval 8 23 fmt.fz y / (chosen ks xs).length) (VRed.mean.real t fmt ks xs).1 g) := by
  obtain ⟨-, wide, -, real, -⟩ := formats_spec float
  refine ⟨?_, fun y root finite away => ?_⟩
  · have counts := counted_length (t := t) (fmt := fmt) (ks := ks) (xs := xs) _ fun x _ => counts_float float x
    dsimp only
    rw [reduced_count, counts, putReal_float float, Ex.round]
    generalize ((chosen ks xs).filter (fun x => decide (¬ (x / 2 ^ fb % 2 ^ eb ≠ 2 ^ eb - 1 ∧ fval eb fb fmt.fz x = 0)))).length = c
    have value : (Q.ofInt c).value = c := by rw [Q.value_ofInt, Int.cast_natCast]
    refine ⟨fun zero => ?_, fun some_ => ⟨_, value ▸ Flt.round_roundsTo (f := ⟨eb, fb⟩) wide Nat.one_pos ?_ fmt.rm fmt.fz false⟩⟩
    · subst zero
      rw [Flt.round_zero Nat.one_pos value]
      rfl
    · rw [value]
      exact_mod_cast some_
  · obtain ⟨q, z, pos, value, mean, count, -⟩ := mean_value real masks elements fits root finite
    rw [mean, putReal_float float, ← value]
    refine ⟨_, Flt.round_roundsTo (f := ⟨eb, fb⟩) wide pos ?_ fmt.rm fmt.fz z⟩
    rw [value]
    exact div_ne_zero away (by exact_mod_cast count)

/-- Counts and means of M8 groups. -/
theorem reduced_m8 (m8 : t = .m8) :
    (∃ g, EncodesM8 (((chosen ks xs).filter (fun x => decide (x ≠ 0))).length : ℕ) (VRed.cnt.real t fmt ks xs).1 g) ∧
    (∀ y, rootOf fmt t .add k ks xs = some y → fin 8 23 y → fval 8 23 fmt.fz y ≠ 0 → ∃ w f g,
      RoundsTo 8 23 fmt.rm fmt.fz (fval 8 23 fmt.fz y / (chosen ks xs).length) w f ∧ fin 8 23 w ∧
        EncodesM8 (fval 8 23 false w) (VRed.mean.real t fmt ks xs).1 g) := by
  subst m8
  refine ⟨?_, fun y root finite away => ?_⟩
  · have counts := counted_length (t := .m8) (fmt := fmt) (ks := ks) (xs := xs) _ fun x member => counts_m8 (fits x member)
    rw [reduced_count, counts]
    exact count_encodes _
  · obtain ⟨q, z, pos, value, mean, count, bits⟩ := mean_value (t := .m8) rfl masks elements fits root finite
    have bound : |q.value| ≤ (Flt.mk 8 23).most := by
      rw [value]
      exact (abs_div_count_le count).trans (fval32_le finite bits)
    have delivers := Flt.round_fin_of_le (f := ⟨8, 23⟩) (by decide) (by decide) pos bound fmt.rm fmt.fz z
    obtain ⟨g, encodes, -⟩ := Flt.toM8_of_fin delivers
    have some_ : q.value ≠ 0 := by
      rw [value]
      exact div_ne_zero away (by exact_mod_cast count)
    rw [mean, putReal_m8_eq, flt32_eq, ← value]
    exact ⟨_, _, g, Flt.round_roundsTo (f := ⟨8, 23⟩) (by decide) pos some_ fmt.rm fmt.fz z, delivers, encodes⟩

end

/-- What a group gives (R55 to R57, R186, R187). -/
theorem reducedLanes : ReducedLanes := by
  intro t eb fb k fmt ks xs masks elements fits
  exact ⟨reduced_roots masks elements fits, reduced_float masks elements fits, reduced_m8 masks elements fits,
    fun kind => reduced_exact (exactTypes_iff.mpr kind)⟩

end Sys2Proof.Machine

namespace Sys2Proof.Machine
open Sys2Proof.Claims

/-! The groups of a reduction (R185). -/

theorem groupsOf_length {α : Type} (g n : Nat) (xs : List α) : (groupsOf g n xs).length = n := by
  induction n generalizing xs with
  | zero => rfl
  | succ n ih => exact congrArg (· + 1) (ih _)

theorem groupsOf_getElem {α : Type} (g n : Nat) (xs : List α) (i : Nat) (inside : i < (groupsOf g n xs).length) :
    (groupsOf g n xs)[i] = (xs.drop (i * g)).take g := by
  induction n generalizing xs i with
  | zero => exact absurd inside (Nat.not_lt_zero _)
  | succ n ih =>
    cases i with
    | zero => simp [groupsOf]
    | succ i =>
      have rest := ih (xs.drop g) i (by simpa [groupsOf] using inside)
      simp only [groupsOf, List.getElem_cons_succ]
      rw [rest, List.drop_drop, Nat.succ_mul, Nat.add_comm g]

/-- A group's elements by their numbers. -/
theorem take_drop_eq_map {α : Type} (xs : List α) (i g : Nat) (z : α) (inside : i * g + g ≤ xs.length) :
    (xs.drop (i * g)).take g = (List.range g).map (fun j => xs.getD (i * g + j) z) := by
  apply List.ext_getElem
  · rw [List.length_take, List.length_drop, List.length_map, List.length_range]
    omega
  · intro j left right
    rw [List.length_map, List.length_range] at right
    rw [List.getElem_take, List.getElem_drop, List.getElem_map, List.getElem_range, List.getD_eq_getElem _ _ (by omega)]

/-- The groups of a register. -/
def groupLength (s : State) : Nat := if 1 ≤ s.fmt.rg ∧ 2 ^ s.fmt.rg < s.fmt.ety.count then 2 ^ s.fmt.rg else s.fmt.ety.count

section
variable {s : State} {a : VReg} {k : KLow}

theorem groupLength_eq : groupSize s.fmt s.fmt.ety.count = groupLength s := rfl

theorem group_inside {g : Nat} (inside : g < s.fmt.ety.count / groupLength s) : g * groupLength s + groupLength s ≤ s.fmt.ety.count := by
  have := Nat.mul_le_mul_right (groupLength s) (show g + 1 ≤ s.fmt.ety.count / groupLength s by omega)
  rw [Nat.succ_mul] at this
  exact this.trans (Nat.div_mul_le_self _ _)

/-- The mask bits and the lanes of a group. -/
def groupBits (s : State) (k : KLow) (g : Nat) : List Bool := (List.range (groupLength s)).map (fun j => on s k (g * groupLength s + j))
def groupLanes (s : State) (a : VReg) (g : Nat) : List Nat := (List.range (groupLength s)).map (fun j => laneA s a (g * groupLength s + j))

theorem groupBits_eq {g : Nat} (inside : g < s.fmt.ety.count / groupLength s) :
    ((s.act k).drop (g * groupLength s)).take (groupLength s) = groupBits s k g := by
  have fits := group_inside inside
  rw [take_drop_eq_map _ _ _ false (by rw [s.act_length]; exact fits)]
  refine List.map_congr_left fun j member => ?_
  rw [State.act_getD k (by have := List.mem_range.mp member; omega)]

theorem groupLanes_eq {g : Nat} (inside : g < s.fmt.ety.count / groupLength s) :
    ((s.eA a).drop (g * groupLength s)).take (groupLength s) = groupLanes s a g := by
  have fits := group_inside inside
  rw [take_drop_eq_map _ _ _ 0 (by rw [s.eA_length]; exact fits)]
  refine List.map_congr_left fun j _ => ?_
  rw [s.eA_getD]

/-- What a group of a reduction gives. -/
def groupResult (s : State) (a : VReg) (k : KLow) (o : VRed) (g : Nat) : Nat × Fl :=
  if s.fmt.ety.isReal then o.real s.fmt.ety s.fmt (groupBits s k g) (groupLanes s a g) else o.int s.fmt.ety s.fmt (groupBits s k g) (groupLanes s a g)

/-- A reduction by its groups. -/
theorem reduce_eq (o : VRed) : reduce o s.fmt.ety s.fmt (s.act k) (s.eA a) =
    ((List.range (s.fmt.ety.count / groupLength s)).map (fun g => (groupResult s a k o g).1) ++
      List.replicate (s.fmt.ety.count - s.fmt.ety.count / groupLength s) 0,
     (List.range (s.fmt.ety.count / groupLength s)).foldl (fun f g => f ||| (groupResult s a k o g).2) 0#8) := by
  have groups : ((groupsOf (groupLength s) (s.fmt.ety.count / groupLength s) (s.act k)).zip
      (groupsOf (groupLength s) (s.fmt.ety.count / groupLength s) (s.eA a))).map (fun p =>
        if s.fmt.ety.isReal then o.real s.fmt.ety s.fmt p.1 p.2 else o.int s.fmt.ety s.fmt p.1 p.2) =
      (List.range (s.fmt.ety.count / groupLength s)).map (groupResult s a k o) := by
    apply List.ext_getElem
    · simp [groupsOf_length]
    · intro g left right
      rw [List.length_map, List.length_range] at right
      rw [List.getElem_map, List.getElem_zip, List.getElem_map, List.getElem_range, groupsOf_getElem, groupsOf_getElem, groupBits_eq right,
        groupLanes_eq right]
      rfl
  unfold reduce
  dsimp only
  rw [groupLength_eq, groups, List.map_map, List.length_map, List.length_range, List.foldl_map]
  rfl

end

section
variable {j : Instr} {s : State} {te : Bool} {d a : VReg} {k : KLow}

/-- A reduction writes the results of its groups, and zeros after them (R185). -/
theorem exec_vreduce {o : VRed} (slot : slotOf j s = some (s.vreduce o te d a k)) (goes : VecGoes s [s.oA a, .k k.toK] [s.oA d]) :
    ∃ u, exec j s = .next u ∧ WholeBecomes s u d k 16 s.fmt.ety
      (fun g => if g < s.fmt.ety.count / groupLength s then (groupResult s a k o g).1 else 0)
      ((List.range (s.fmt.ety.count / groupLength s)).foldl (fun f g => f ||| (groupResult s a k o g).2) 0#8) := by
  have issues := exec_vslot slot goes
  rw [reduce_eq] at issues
  have few := Nat.div_le_self s.fmt.ety.count (groupLength s)
  refine ⟨_, issues, _, rfl, fun i inside => ?_⟩
  rw [lane_ofElems _ _ (by simp; omega)]
  congr 1
  dsimp only
  split
  · next group =>
    rw [List.getD_append _ _ _ _ (by simpa using group), List.getD_eq_getElem _ _ (by simpa using group), List.getElem_map, List.getElem_range]
  · next past =>
    rw [List.getD_append_right _ _ _ _ (by simpa using past)]
    simp

end

/-- Element g of a reduction is what its group gives (R185). -/
theorem reducedElements : ReducedElements := by
  intro te d a k s goes
  exact ⟨exec_vreduce rfl goes, exec_vreduce rfl goes, exec_vreduce rfl goes, exec_vreduce rfl goes, exec_vreduce rfl goes⟩

/-! Groups of integers. -/

/-- The numbers of the active lanes of a group. -/
def groupMine (s : State) (k : KLow) (g : Nat) : List Nat :=
  ((List.range (groupLength s)).map (fun j => g * groupLength s + j)).filter (fun i => on s k i)

section
variable {s : State} {a : VReg} {k : KLow} {g : Nat}

theorem chosen_maps (L : List Nat) (b : Nat → Bool) (f : Nat → Nat) : chosen (L.map b) (L.map f) = (L.filter b).map f := by
  induction L with
  | nil => rfl
  | cons x L ih =>
    unfold chosen at *
    rw [List.map_cons, List.map_cons, List.zip_cons_cons, List.filter_cons, List.filter_cons]
    cases hb : b x with
    | true => simpa [hb] using ih
    | false => simpa [hb] using ih

/-- The chosen elements of a group are its active lanes. -/
theorem chosen_group : chosen (groupBits s k g) (groupLanes s a g) = (groupMine s k g).map (fun i => laneA s a i) := by
  have bits : groupBits s k g = ((List.range (groupLength s)).map (fun j => g * groupLength s + j)).map (fun i => on s k i) := by
    rw [List.map_map]
    rfl
  have lanes : groupLanes s a g = ((List.range (groupLength s)).map (fun j => g * groupLength s + j)).map (fun i => laneA s a i) := by
    rw [List.map_map]
    rfl
  rw [bits, lanes, chosen_maps]
  rfl

theorem groupResult_int (int : s.fmt.ety.isInt = true) (o : VRed) :
    groupResult s a k o g = o.int s.fmt.ety s.fmt (groupBits s k g) (groupLanes s a g) := by
  rw [groupResult, isReal_exact (exactTypes_of_isInt int), if_neg Bool.false_ne_true]

/-- The values of a group of integers. -/
theorem group_values (int : s.fmt.ety.isInt = true) : (chosen (groupBits s k g) (groupLanes s a g)).map (fun x => (readCode s.fmt.ety x).1) =
    (groupMine s k g).map (fun i => signed s.fmt.ety.bits (laneA s a i)) := by
  have reads (x : Nat) : readCode s.fmt.ety x = (signed s.fmt.ety.bits x, 0#8) := by
    rw [← readInt_exact (exactTypes_of_isInt int), readInt_signed int]
  rw [chosen_group, List.map_map]
  exact List.map_congr_left fun i _ => by rw [Function.comp_apply, reads]

theorem ends_int {t : ETy} (int : t.isInt = true) : Claims.ends t = (intLow t, intHigh t) := by
  revert int
  cases t <;> decide

/-- A pattern of a type's width is 0 when its value is. -/
theorem signed_eq_zero {t : ETy} {x : Nat} (fits : x < 2 ^ t.bits) : signed t.bits x = 0 ↔ x = 0 := by
  have wide : 2 ^ (t.bits - 1) ≠ 0 := (Nat.two_pow_pos _).ne'
  have fits' : (x : ℤ) < 2 ^ t.bits := by exact_mod_cast fits
  unfold signed
  generalize 2 ^ (t.bits - 1) = half at *
  split <;> omega

/-- Sums, counts, maxima and minima of a group of integers (R57, R186). -/
theorem group_int (int : s.fmt.ety.isInt = true) :
    (groupResult s a k .sum g).1 = (delivered s.fmt.ety ((groupMine s k g).map (fun i => signed s.fmt.ety.bits (laneA s a i))).sum).1 ∧
    (groupResult s a k .cnt g).1 = (delivered s.fmt.ety (((groupMine s k g).filter (fun i => laneA s a i != 0)).length)).1 ∧
    (groupResult s a k .max g).1 =
      (delivered s.fmt.ety ((groupMine s k g).foldl (fun m i => max m (signed s.fmt.ety.bits (laneA s a i))) (intLow s.fmt.ety))).1 ∧
    (groupResult s a k .min g).1 =
      (delivered s.fmt.ety ((groupMine s k g).foldl (fun m i => min m (signed s.fmt.ety.bits (laneA s a i))) (intHigh s.fmt.ety))).1 := by
  obtain ⟨sum, count, most, least, -⟩ := reduced_exact (fmt := s.fmt) (ks := groupBits s k g) (xs := groupLanes s a g) (exactTypes_of_isInt int)
  have counted : (((groupMine s k g).map (fun i => signed s.fmt.ety.bits (laneA s a i))).filter (fun v => v != 0)).length =
      ((groupMine s k g).filter (fun i => laneA s a i != 0)).length := by
    rw [List.filter_map, List.length_map]
    congr 1
    refine List.filter_congr fun i _ => ?_
    rw [Function.comp_apply, Bool.eq_iff_iff, bne_iff_ne, bne_iff_ne, ne_eq, ne_eq, signed_eq_zero (laneA_lt s a i)]
  rw [group_values int] at sum count most least
  rw [counted] at count
  rw [List.foldl_map, ends_int int] at most least
  rw [groupResult_int int, groupResult_int int, groupResult_int int, groupResult_int int, sum, count, most, least, held_delivered int, held_delivered int,
    held_delivered int, held_delivered int]
  exact ⟨rfl, rfl, rfl, rfl⟩

/-- A group without active lanes has the mean 0. -/
theorem group_mean_empty (none_ : groupMine s k g = []) : (groupResult s a k .mean g).1 = 0 := by
  have empty : chosen (groupBits s k g) (groupLanes s a g) = [] := by
    rw [chosen_group, none_]
    rfl
  have lengths : (groupBits s k g).length = (groupLanes s a g).length := by simp [groupBits, groupLanes]
  unfold groupResult
  split
  · have count := chosen_length lengths
    rw [empty, List.length_nil] at count
    unfold VRed.real
    dsimp only
    rw [if_pos count.symm]
  · next other =>
    have exact_ : s.fmt.ety ∈ exactTypes := by
      revert other
      cases s.fmt.ety <;> decide
    obtain ⟨-, -, -, -, mean, -⟩ := reduced_exact (fmt := s.fmt) (ks := groupBits s k g) (xs := groupLanes s a g) exact_
    rw [mean (by rw [empty]; rfl)]

end

/-- Reductions of integers (R57, R185 to R187). -/
theorem reductionGroups : ReductionGroups := by
  intro te d a k s goes
  obtain ⟨sum, most, least, count, mean⟩ := reducedElements te d a k s goes
  have next {j : Instr} {o : VRed} (runs : ∃ u, exec j s = .next u ∧ WholeBecomes s u d k 16 s.fmt.ety
      (fun g => if g < s.fmt.ety.count / groupLength s then (groupResult s a k o g).1 else 0)
      ((List.range (s.fmt.ety.count / groupLength s)).foldl (fun f g => f ||| (groupResult s a k o g).2) 0#8)) :
      ∃ u fl, exec j s = .next u ∧ WholeBecomes s u d k 16 s.fmt.ety
        (fun g => if g < s.fmt.ety.count / groupLength s then (groupResult s a k o g).1 else 0) fl := by
    obtain ⟨u, runs, becomes⟩ := runs
    exact ⟨u, _, runs, becomes⟩
  exact ⟨⟨_, next sum, fun int g _ => (group_int int).1⟩, ⟨_, next count, fun int g _ => (group_int int).2.1⟩,
    ⟨_, next most, fun int g _ => (group_int int).2.2.1⟩, ⟨_, next least, fun int g _ => (group_int int).2.2.2⟩,
    ⟨_, next mean, fun g _ none_ => group_mean_empty none_⟩⟩

end Sys2Proof.Machine

namespace Sys2Proof.Proofs
open Sys2Proof.Machine Sys2Proof.Claims

/-- Settles O14: a register's groups are reduced one by one; the tree on exact results and the tree on F32 patterns carry the same numbers at
every level, because rounding goes by the value alone. -/
theorem vectorReductionResults : Obligations.VectorReductionResults := by
  unfold Obligations.VectorReductionResults
  exact ⟨reductionGroups, reducedElements, reducedLanes⟩

end Sys2Proof.Proofs

namespace Sys2Proof.Machine
open Sys2Proof.Claims

/-! Copies (R236 to R240, R292). -/

/-- What a post does to the registers rests on the flags and on what the cycle's YWAIT took. -/
theorem Car.post_regs_congr {c e : Car} (regs : e.regs = c.regs) (took : e.took = c.took) (f : FlagIx) (n : Nat) :
    (e.post f n).regs = (c.post f n).regs := by
  have taken : e.tookOf f = c.tookOf f := by unfold Car.tookOf; rw [took]
  unfold Car.post
  rw [taken, regs]
  dsimp only
  split
  · rfl
  · rfl

theorem Car.copyOf_dropCopy (c : Car) (n : Nat) : (c.dropCopy n).copyOf n = none := by
  refine List.find?_eq_none.mpr fun k hk => ?_
  have other := (List.mem_filter.mp hk).2
  simpa using other

/-- Putting a record back leaves one of its number, where there was one. -/
theorem Car.copyOf_setCopy {c : Car} {k : Copy} (held : (c.copyOf k.num).isSome = true) : (c.setCopy k).copyOf k.num = some k := by
  have number (x : Copy) : (if x.num == k.num then k else x).num = x.num := by
    split
    · next same => exact (beq_iff_eq.mp same).symm
    · rfl
  unfold Car.copyOf Car.setCopy at *
  dsimp only
  rw [List.find?_map]
  rw [show ((fun x : Copy => x.num == k.num) ∘ fun x => if x.num == k.num then k else x) = fun x => x.num == k.num from
    funext fun x => congrArg (· == k.num) (number x)]
  obtain ⟨x, hx⟩ := Option.isSome_iff_exists.mp held
  rw [hx, Option.map_some, if_pos (List.find?_some (p := fun x : Copy => x.num == k.num) hx)]

theorem Car.num_of_copyOf {c : Car} {n : Nat} {k : Copy} (found : c.copyOf n = some k) : k.num = n :=
  beq_iff_eq.mp (List.find?_some (p := fun x : Copy => x.num == n) found)

section
variable (s : State) (k : Copy)

/-- The watchpoints of an engine change pending causes and the device alone. -/
theorem State.watchEngine_spec : (s.watchEngine k).car.regs = s.car.regs ∧ (s.watchEngine k).car.took = s.car.took ∧
    (s.watchEngine k).car.spad = s.car.spad ∧ (s.watchEngine k).dev.mem = s.dev.mem := by
  unfold State.watchEngine
  dsimp only
  split
  · exact ⟨rfl, rfl, rfl, rfl⟩
  · split
    · exact ⟨rfl, rfl, rfl, rfl⟩
    · split <;> exact ⟨rfl, rfl, rfl, rfl⟩

theorem Device.closeRank_mem (d : Device) (c : CarRef) : (d.closeRank k c).mem = d.mem := by
  unfold Device.closeRank
  split <;> rfl

/-- A copy that ends posts its flag and frees its number. -/
theorem State.endCopy_spec : (s.endCopy k).car.copyOf k.num = none ∧ (s.endCopy k).car.regs = (s.car.post k.flag 1).regs ∧
    (s.endCopy k).car.spad = s.car.spad ∧ (s.endCopy k).dev.mem = s.dev.mem := by
  obtain ⟨regs, took, spad, mem⟩ := s.watchEngine_spec k
  refine ⟨?_, ?_, ?_, ?_⟩
  · show (((s.watchEngine k).car.dropCopy k.num).post k.flag 1).copyOf k.num = none
    rw [Car.copyOf, Car.post_eng]
    exact Car.copyOf_dropCopy _ _
  · exact Car.post_regs_congr (c := s.car) (e := (s.watchEngine k).car.dropCopy k.num) regs took k.flag 1
  · show (((s.watchEngine k).car.dropCopy k.num).post k.flag 1).spad = s.car.spad
    rw [Car.post_spad]
    exact spad
  · exact (Device.closeRank_mem k _ _).trans mem

/-! Elements of the own scratchpad. -/

/-- A write to the own scratchpad, where nothing is mapped. -/
theorem State.writeMarked_own (o : Nat) (bs : List (Byte × Bool)) (unmapped : s.car.eng.stash = []) :
    ∃ m : Mem, s.writeMarked (.spad o) bs = s.mapCar (fun c => { c with spad := m }) ∧
      ∀ a, m.read a = (s.car.spad.write o (bs.map Prod.fst)).read a := by
  have poisons (xs : List ((Byte × Bool) × Nat)) (m : Mem) : ∃ m' : Mem,
      xs.foldl (fun s p => if p.1.2 then s.poisonByte ((Target.spad o).plus p.2) else s) (s.mapCar (fun c => { c with spad := m })) =
        s.mapCar (fun c => { c with spad := m' }) ∧ ∀ a, m'.read a = m.read a := by
    induction xs generalizing m with
    | nil => exact ⟨m, rfl, fun _ => rfl⟩
    | cons x xs ih =>
      rw [List.foldl_cons]
      split
      · obtain ⟨m', eq, read⟩ := ih (m.setPoison (o + x.2) 1)
        exact ⟨m', eq, read⟩
      · exact ih m
  unfold State.writeMarked
  dsimp only
  rw [State.spadWrite_unmapped _ _ _ unmapped]
  exact poisons bs.zipIdx (s.car.spad.write o (bs.map Prod.fst))

/-- A source element of the own scratchpad, where nothing was mapped. -/
theorem State.sourceElem_own (m : Nat) (own : k.ws.sp = true) (unmapped : k.stash = []) : ∃ bs : List (Byte × Bool),
    s.sourceElem k m = (s, some bs) ∧ bs.map Prod.fst = (List.range k.ws.esz).map (fun i => k.spad.read (haByte (k.ws.elem m) + i)) := by
  unfold State.sourceElem
  rw [if_pos own, unmapped]
  refine ⟨_, rfl, ?_⟩
  rw [List.map_map]
  rfl

end

section
variable {k : Copy} {z : Nat} (source : k.ws.sp = true) (unmapped : k.stash = []) (dest : k.wd.sp = true) (size : k.ws.esz = z)
include source unmapped dest size

/-- Elements that move within the own scratchpad: the destination holds what the source held, and other bytes stand. -/
theorem State.moveElems_own (n m : Nat) (s : State) (free : s.car.eng.stash = []) (near : ∀ j, m ≤ j → j < m + n → haWindow (k.wd.elem j) = 0)
    (apart : ∀ i, m ≤ i → i < m + n → ∀ j, m ≤ j → j < m + n → i ≠ j → haByte (k.wd.elem i) + z ≤ haByte (k.wd.elem j) ∨ haByte (k.wd.elem j) + z ≤ haByte (k.wd.elem i)) :
    ∃ x : Mem, s.moveElems k n m = (s.mapCar (fun c => { c with spad := x }), none) ∧
      (∀ j, m ≤ j → j < m + n → ∀ b < z, x.read (haByte (k.wd.elem j) + b) = k.spad.read (haByte (k.ws.elem j) + b)) ∧
      ∀ a, (∀ j, m ≤ j → j < m + n → a < haByte (k.wd.elem j) ∨ haByte (k.wd.elem j) + z ≤ a) → x.read a = s.car.spad.read a := by
  induction n generalizing m s with
  | zero => exact ⟨s.car.spad, rfl, fun j _ _ => by omega, fun _ _ => rfl⟩
  | succ n ih =>
    obtain ⟨bs, got, bytes⟩ := s.sourceElem_own k m source unmapped
    obtain ⟨y, wrote, read⟩ := s.writeMarked_own (haByte (k.wd.elem m)) bs free
    have put : s.putElem k m bs = (s.mapCar (fun c => { c with spad := y }), true) := by
      rw [State.putElem, State.putAt, if_pos dest, if_pos (near m (by omega) (by omega)), wrote]
    rw [show m + (n + 1) = m + 1 + n by omega] at near apart ⊢
    obtain ⟨x, moved, holds, stands⟩ := ih (m + 1) (s.mapCar (fun c => { c with spad := y })) free (fun j low high => near j (by omega) high)
      (fun i low high j low' high' => apart i (by omega) high j (by omega) high')
    have written (a : Nat) : y.read a = if haByte (k.wd.elem m) ≤ a ∧ a < haByte (k.wd.elem m) + z then
        k.spad.read (haByte (k.ws.elem m) + (a - haByte (k.wd.elem m))) else s.car.spad.read a := by
      rw [read, Mem.read_write, bytes, List.length_map, List.length_range, size]
      split
      · next inside =>
        rw [List.getD_eq_getElem?_getD, List.getElem?_map, List.getElem?_range (by omega)]
        rfl
      · rfl
    refine ⟨x, ?_, fun j low high b inside => ?_, fun a outside => ?_⟩
    · rw [State.moveElems, got]
      dsimp only
      rw [put]
      exact moved
    · by_cases first : j = m
      · subst first
        rw [stands _ fun i hi hlt => by
          have := apart j (by omega) (by omega) i (by omega) (by omega) (by omega)
          omega]
        show y.read _ = _
        rw [written, if_pos (by omega), Nat.add_sub_cancel_left]
      · exact holds j (by omega) (by omega) b inside
    · rw [stands a fun j hj hlt => outside j (by omega) (by omega)]
      show y.read a = _
      rw [written, if_neg (by have := outside m (by omega) (by omega); omega)]

end

/-- A copy that meets a fault keeps its number, and has COPY_FAULT pending (R240). -/
theorem State.faultCopy_spec {s u : State} {k : Copy} (same : u.outers = s.outers) (found : s.car.copyOf k.num = some k) (row : Nat) (a : Word) :
    KeepsRegs s (u.faultCopy k row a) ∧ ((u.faultCopy k row a).car.copyOf k.num).map Copy.state = some (.faulted row a) ∧
      .copyFault (BitVec.ofNat 6 k.num) a ∈ (u.faultCopy k row a).car.tr.pending := by
  have smeared := (u.outers_smear k row 64).trans same
  unfold State.faultCopy
  generalize u.smear k row 64 = v at smeared
  obtain ⟨regs, ctl, pc, loop⟩ := State.keepsRegs_of_outers smeared
  have held := State.copyOf_of_outers smeared k.num
  rw [found] at held
  have some : (v.car.copyOf k.num).isSome = true := by
    cases h : v.car.copyOf k.num with
    | none => rw [h] at held; cases held
    | some _ => rfl
  have set := Car.copyOf_setCopy (c := v.car) (k := { k with state := .faulted row a, iter := row, reported := Nat.max k.reported row }) some
  exact ⟨⟨regs, ctl, pc, loop⟩, congrArg (Option.map Copy.state) set, mem_insertAsync.mpr (.inl rfl)⟩

end Sys2Proof.Machine

namespace Sys2Proof.Machine
open Sys2Proof.Claims

section
variable {s : State} {k : Copy}

/-- An empty copy posts its flag and moves nothing (R234). -/
theorem State.endVoid_of_ccpy (op : k.op = .ccpy) : s.endVoid k = (s.endCopy k).sweepColls := by
  unfold State.endVoid
  rw [op]
  rfl

/-- A copy that has no mask to write and meets no fault ends with its elements moved. -/
theorem State.finishCopy_of_moved {t : State} (full : k.void = false) (strict : k.lossy = false) (first : k.iter = 0)
    (moved : s.moveElems k k.wd.count 0 = (t, none)) : s.finishCopy k = t.endCopy k := by
  unfold State.finishCopy
  rw [full, first, Nat.zero_mul]
  dsimp only
  rw [Nat.sub_zero, moved, strict]
  rfl

/-- A running copy that meets a fault keeps its number. -/
theorem State.copyFaults_spec {n : Nat} (i : Nat) (va : Word) (found : s.car.copyOf n = some k) (op : k.op = .ccpy) (running : k.state = .running)
    (full : k.void = false) (on : s.enginesPaused = false) : ∃ row a, KeepsRegs s (s.copyFaults n i va) ∧
      ((s.copyFaults n i va).car.copyOf n).map Copy.state = some (.faulted row a) ∧
      .copyFault (BitVec.ofNat 6 n) a ∈ (s.copyFaults n i va).car.tr.pending := by
  obtain rfl := Car.num_of_copyOf found
  have shape : ∃ (u : State) (row : Nat) (a : Word), u.outers = s.outers ∧ s.copyFaults k.num i va = u.faultCopy k row a := by
    unfold State.copyFaults
    rw [found]
    dsimp only
    rw [running, full, on, op]
    simp only [bne_self_eq_false, Bool.or_self, beq_self_eq_true, Bool.true_or, Bool.not_true, Bool.false_eq_true, if_false]
    have same := State.outers_moveElems k ((Nat.min (Nat.max i k.iter) (k.rows - 1) - k.iter) * k.wd.rowLen) (k.iter * k.wd.rowLen) s
    rw [if_neg (by decide)]
    split
    · exact ⟨_, _, _, same, rfl⟩
    · exact ⟨_, _, _, same, rfl⟩
  obtain ⟨u, row, a, same, eq⟩ := shape
  rw [eq]
  exact ⟨row, a, State.faultCopy_spec same found row a⟩

end

end Sys2Proof.Machine

namespace Sys2Proof.Proofs
open Sys2Proof.Machine Sys2Proof.Claims

/-- Settles O30: a copy that may end moves its elements one by one and posts its flag; a fault leaves its number and is pending. -/
theorem copiesEndOrFault : Obligations.CopiesEndOrFault := by
  intro n i va k s found op r src dst z
  have number := Car.num_of_copyOf found
  have complete (live : s.car.life ≠ .idle) : exec (.copyComplete r n) s = .next (if !s.copyMayEnd k then s
      else if k.void then (s.endCopy k).sweepColls else s.finishCopy k) := by
    refine (State.at_focused s _).trans (congrArg Host.Outcome.next ?_)
    unfold State.copyEnds
    rw [found]
    dsimp only
    rw [if_neg (by simpa using live), State.endVoid_of_ccpy op, op]
    rfl
  refine ⟨fun early live => ?_, fun may void live => ?_, fun may full live free unmapped own dest size counts first strict near apart => ?_,
    fun running full on => ?_, fun off => ?_⟩
  · rw [complete live, early]
    rfl
  · obtain ⟨gone, regs, spad, mem⟩ := s.endCopy_spec k
    refine ⟨_, complete live, ?_⟩
    rw [may, void]
    exact ⟨number ▸ gone, regs, spad, mem⟩
  · obtain ⟨x, moved, holds, stands⟩ := State.moveElems_own own unmapped dest size k.wd.count 0 s free (fun m _ hm => near m (by omega))
      (fun m _ hm j _ hj => apart m (by omega) j (by omega))
    obtain ⟨gone, regs, spad, mem⟩ := (s.mapCar (fun c => { c with spad := x })).endCopy_spec k
    refine ⟨_, complete live, ?_⟩
    rw [may, full, State.finishCopy_of_moved full strict first moved]
    refine ⟨number ▸ gone, regs.trans (Car.post_regs_congr (c := s.car) (e := { s.car with spad := x }) rfl rfl _ _), mem, fun m hm j hj => ?_, fun a outside => ?_⟩
    · exact (congrArg (Mem.read · _) spad).trans (holds m (by omega) (by omega) j hj)
    · exact (congrArg (Mem.read · _) spad).trans (stands a fun m _ hm => outside m (by omega))
  · obtain ⟨row, a, ⟨regs, ctl, pc, loop⟩, state, pending⟩ := State.copyFaults_spec i va found op running full on
    exact ⟨_, row, a, State.at_focused s _, regs, ctl, state, pending⟩
  · refine (State.at_focused s _).trans (congrArg Host.Outcome.next ?_)
    unfold State.copyFaults
    rw [found]
    dsimp only
    rw [if_pos]
    rcases off with stopped | void
    · simp [stopped]
    · simp [void]

end Sys2Proof.Proofs

namespace Sys2Proof.Machine
open Sys2Proof.Claims

/-! Range operations (R248). -/

/-- A line is that of a die at a line number. -/
def CacheLine.Is (die line : Nat) (l : CacheLine) : Prop := l.die = die ∧ l.line = line

/-- What a range operation has done once it has met the lines of `P`: those have gone, or stay clean when it only writes back, the home
holds what was dirty in them, and the other lines stand. -/
structure Device.Ranged (kind : RangeKind) (die : Nat) (d : Device) (P : List Nat) (e : Device) : Prop where
  own : e.fab.fwd = []
  other : ∀ l ∈ d.cache, ¬ (l.die = die ∧ l.line ∈ P) → l ∈ e.cache
  mine : ∀ l ∈ e.cache, (l.die = die ∧ l.line ∈ P → kind = .wb ∧ l.dirty = 0#64) ∧ (¬ (l.die = die ∧ l.line ∈ P) → l ∈ d.cache)
  home : kind ≠ .inv → ∀ l ∈ d.cache, l.die = die → l.line ∈ P → ∀ j : Fin 64, l.dirty.getLsbD j.val = true →
    e.mem.read (l.line * 64 + j.val) = l.bytes[j]
  stands : kind = .inv → e.mem = d.mem

/-- What a range operation does to a line. -/
def Device.rangeLine (d : Device) (kind : RangeKind) (die line : Nat) : Device :=
  match kind with
  | .wb => d.flushLine die line
  | .inv => d.dropLine die line
  | .wbinv => (d.flushLine die line).dropLine die line

theorem Device.rangeOp_eq (d : Device) (kind : RangeKind) (die lo hi : Nat) : d.rangeOp kind die lo hi =
    (d.cache.filter (fun l => l.die == die && decide (lo ≤ l.line ∧ l.line < hi))).foldl (fun d l => d.rangeLine kind die l.line) d := rfl

theorem CacheLine.at_byte (l : CacheLine) (j : Fin 64) : l.at (l.line * 64 + j.val) = l.bytes[j] := by
  have sub : l.line * 64 + j.val - l.line * 64 = j.val := Nat.add_sub_cancel_left ..
  simp only [CacheLine.at, sub, j.isLt, dite_true]
  rfl

section
variable {die : Nat} {d e : Device}

/-- A line that is written back is clean, its home holds what was dirty in it, and the other lines stand. -/
theorem Device.flushLine_spec {y : CacheLine} {line : Nat} (own : e.fab.fwd = []) (here : y ∈ e.cache) (is : y.Is die line)
    (only : ∀ l ∈ e.cache, l.Is die line → l = y) :
    (e.flushLine die line).fab.fwd = [] ∧ (∀ l ∈ e.cache, ¬ l.Is die line → l ∈ (e.flushLine die line).cache) ∧
    (∀ l ∈ (e.flushLine die line).cache, (l.Is die line → l.dirty = 0#64) ∧ (¬ l.Is die line → l ∈ e.cache)) ∧
    y.Home e.mem (e.flushLine die line).mem := by
  have named (l : CacheLine) : (l.die == die && l.line == line) = true ↔ l.Is die line := by
    rw [Bool.and_eq_true, beq_iff_eq, beq_iff_eq]
    rfl
  have found : e.cache.find? (fun l => l.die == die && l.line == line) = some y := by
    cases got : e.cache.find? (fun l => l.die == die && l.line == line) with
    | none => exact absurd ((named y).mpr is) (List.find?_eq_none.mp got y here)
    | some x => rw [only x (List.mem_of_find?_eq_some got) ((named x).mp (List.find?_some (p := fun l : CacheLine => l.die == die && l.line == line) got))]
  obtain ⟨m, ls, ps, eq, home⟩ := Device.flushLine_eq own found
  rw [eq]
  refine ⟨own, fun l hl aside => List.mem_map.mpr ⟨l, hl, if_neg (mt (named l).mp aside)⟩, fun l hl => ?_, home⟩
  obtain ⟨x, hx, rfl⟩ := List.mem_map.mp hl
  by_cases this : x.Is die line
  · rw [if_pos ((named x).mpr this)]
    obtain rfl := only x hx this
    split
    · next clean => exact ⟨fun _ => clean, fun _ => hx⟩
    · exact ⟨fun _ => rfl, fun aside => absurd this aside⟩
  · rw [if_neg (mt (named x).mp this)]
    exact ⟨fun is => absurd is this, fun _ => hx⟩

theorem Device.dropLine_spec (line : Nat) (l : CacheLine) : l ∈ (e.dropLine die line).cache ↔ l ∈ e.cache ∧ ¬ l.Is die line := by
  refine List.mem_filter.trans (and_congr_right fun _ => ?_)
  rw [Bool.not_eq_true', ← Bool.not_eq_true, Bool.and_eq_true, beq_iff_eq, beq_iff_eq]
  rfl

section
variable {kind : RangeKind} {P : List Nat} {y : CacheLine} (keys : (d.cache.map (fun l => (l.die, l.line))).Nodup)
include keys

theorem CacheLine.eq_of_is {line : Nat} {x : CacheLine} (hx : x ∈ d.cache) (hy : y ∈ d.cache) (same : x.Is die line) (is : y.Is die line) : x = y :=
  List.inj_on_of_nodup_map keys hx hy (Prod.ext (same.1.trans is.1.symm) (same.2.trans is.2.symm))

/-- One more line of a range operation. -/
theorem Device.Ranged.next (h : d.Ranged kind die P e) (hy : y ∈ d.cache) (at_ : y.die = die) (new : y.line ∉ P) :
    d.Ranged kind die (y.line :: P) (e.rangeLine kind die y.line) := by
  have is : y.Is die y.line := ⟨at_, rfl⟩
  have fresh {x : CacheLine} (this : x.Is die y.line) : ¬ (x.die = die ∧ x.line ∈ P) := fun inside => new (this.2 ▸ inside.2)
  have here : y ∈ e.cache := h.other y hy (fresh is)
  have only (l : CacheLine) (hl : l ∈ e.cache) (this : l.Is die y.line) : l = y :=
    CacheLine.eq_of_is keys ((h.mine l hl).2 (fresh this)) hy this is
  have aside {l : CacheLine} : ¬ (l.die = die ∧ l.line ∈ y.line :: P) ↔ ¬ l.Is die y.line ∧ ¬ (l.die = die ∧ l.line ∈ P) := by
    rw [List.mem_cons, CacheLine.Is]
    tauto
  obtain ⟨own, other, mine, home⟩ := Device.flushLine_spec h.own here is only
  have went {u : Device} (mem : u.mem = (e.flushLine die y.line).mem) (back : kind ≠ .inv) (l : CacheLine) (hl : l ∈ d.cache) (mine : l.die = die)
      (met : l.line ∈ y.line :: P) (j : Fin 64) (dirty : l.dirty.getLsbD j.val = true) : u.mem.read (l.line * 64 + j.val) = l.bytes[j] := by
    have low := j.isLt
    rw [mem, home]
    by_cases this : l.line = y.line
    · obtain rfl := CacheLine.eq_of_is keys hl hy ⟨mine, this⟩ is
      rw [if_pos ⟨by omega, by omega, by rwa [Nat.add_sub_cancel_left]⟩]
      exact l.at_byte j
    · rw [if_neg (by omega)]
      exact h.home back l hl mine ((List.mem_cons.mp met).resolve_left this) j dirty
  cases kind with
  | wb =>
    refine { own, other := fun l hl apart => ?_, mine := fun l hl => ⟨fun inside => ⟨rfl, ?_⟩, fun apart => ?_⟩, home := went rfl, stands := nofun }
    · exact other l (h.other l hl (aside.mp apart).2) (aside.mp apart).1
    · by_cases this : l.Is die y.line
      · exact (mine l hl).1 this
      · exact ((h.mine l ((mine l hl).2 this)).1 ⟨inside.1, (List.mem_cons.mp inside.2).resolve_left fun same => this ⟨inside.1, same⟩⟩).2
    · exact (h.mine l ((mine l hl).2 (aside.mp apart).1)).2 (aside.mp apart).2
  | inv =>
    refine { own := h.own, other := fun l hl apart => ?_, mine := fun l hl => ?_, home := fun other => absurd rfl other, stands := h.stands }
    · exact (Device.dropLine_spec _ _).mpr ⟨h.other l hl (aside.mp apart).2, (aside.mp apart).1⟩
    · obtain ⟨stays, apart⟩ := (Device.dropLine_spec _ _).mp hl
      refine ⟨fun inside => ?_, fun out => (h.mine l stays).2 (aside.mp out).2⟩
      exact (h.mine l stays).1 ⟨inside.1, (List.mem_cons.mp inside.2).resolve_left fun same => apart ⟨inside.1, same⟩⟩
  | wbinv =>
    refine { own, other := fun l hl apart => ?_, mine := fun l hl => ?_, home := went rfl, stands := nofun }
    · exact (Device.dropLine_spec _ _).mpr ⟨other l (h.other l hl (aside.mp apart).2) (aside.mp apart).1, (aside.mp apart).1⟩
    · obtain ⟨stays, apart⟩ := (Device.dropLine_spec _ _).mp hl
      have was := (mine l stays).2 apart
      refine ⟨fun inside => ?_, fun out => (h.mine l was).2 (aside.mp out).2⟩
      exact (h.mine l was).1 ⟨inside.1, (List.mem_cons.mp inside.2).resolve_left fun same => apart ⟨inside.1, same⟩⟩

/-- The lines of a range operation, one after the other. -/
theorem Device.Ranged.foldl (xs : List CacheLine) (h : d.Ranged kind die P e) (lines : ∀ x ∈ xs, x ∈ d.cache ∧ x.die = die)
    (distinct : (P.reverse ++ xs.map CacheLine.line).Nodup) : d.Ranged kind die ((xs.map CacheLine.line).reverse ++ P)
      (xs.foldl (fun d l => d.rangeLine kind die l.line) e) := by
  induction xs generalizing P e with
  | nil => exact h
  | cons x xs ih =>
    obtain ⟨hx, at_⟩ := lines x List.mem_cons_self
    have new : x.line ∉ P := fun old => (List.disjoint_of_nodup_append distinct (List.mem_reverse.mpr old)) List.mem_cons_self
    have rest := ih (P := x.line :: P) (h.next keys hx at_ new) (fun y hy => lines y (List.mem_cons_of_mem _ hy)) (by simpa using distinct)
    rw [List.foldl_cons, List.map_cons, List.reverse_cons, List.append_assoc]
    exact rest

/-- A range operation (R248). -/
theorem Device.ranged_rangeOp (own : d.fab.fwd = []) (lo hi : Nat) : ∃ P, d.Ranged kind die P (d.rangeOp kind die lo hi) ∧
    ∀ l ∈ d.cache, l.die = die → lo ≤ l.line → l.line < hi → l.line ∈ P := by
  have start : d.Ranged kind die [] d := { own, other := fun l hl _ => hl, mine := fun l hl => ⟨fun inside => absurd inside.2 List.not_mem_nil, fun _ => hl⟩, home := fun _ _ _ _ inside => absurd inside List.not_mem_nil, stands := fun _ => rfl }
  have picked (l : CacheLine) : l ∈ d.cache.filter (fun l => l.die == die && decide (lo ≤ l.line ∧ l.line < hi)) ↔
      l ∈ d.cache ∧ l.die = die ∧ lo ≤ l.line ∧ l.line < hi := by
    rw [List.mem_filter, Bool.and_eq_true, beq_iff_eq, decide_eq_true_eq]
  rw [Device.rangeOp_eq]
  refine ⟨_, start.foldl keys (d.cache.filter (fun l => l.die == die && decide (lo ≤ l.line ∧ l.line < hi)))
    (fun x hx => ⟨((picked x).mp hx).1, ((picked x).mp hx).2.1⟩) ?_, fun l hl at_ low high => ?_⟩
  · refine List.Nodup.map_on (fun x hx y hy same => ?_) ((List.Nodup.of_map _ keys).filter _)
    obtain ⟨x_in, x_at, -⟩ := (picked x).mp hx
    obtain ⟨y_in, y_at, -⟩ := (picked y).mp hy
    exact CacheLine.eq_of_is keys x_in y_in ⟨x_at, same⟩ ⟨y_at, rfl⟩
  · rw [List.append_nil, List.mem_reverse]
    exact List.mem_map_of_mem ((picked l).mpr ⟨hl, at_, low, high⟩)

end

end

end Sys2Proof.Machine

namespace Sys2Proof.Machine
open Sys2Proof.Claims

/-! The stash (R249, R250, R306 to R308). -/

/-- The scratchpads of the cars. -/
def State.spads (s : State) : List Mem := s.cars.map Car.spad

section
variable {s : State}

theorem State.spads_foldl {α : Type} {f : State → α → State} (keeps : ∀ s x, (f s x).spads = s.spads) (xs : List α) (s : State) :
    (xs.foldl f s).spads = s.spads := by
  induction xs generalizing s with
  | nil => rfl
  | cons x xs ih => exact (ih (f s x)).trans (keeps s x)

theorem State.spads_mapAt {r : CarRef} {f : Car → Car} (keeps : ∀ c, (f c).spad = c.spad) : (s.mapAt r f).spads = s.spads := by
  unfold State.spads State.mapAt
  rw [mapCars_cars, List.map_map]
  refine List.map_congr_left fun c _ => ?_
  dsimp only [Function.comp]
  split
  · exact keeps c
  · rfl

theorem State.spad_of_spads {t : State} (same : t.spads = s.spads) : t.car.spad = s.car.spad := (List.cons.inj same).1

/-- A write that passes the stash mappings changes no scratchpad (R308). -/
theorem State.spads_snoopN (k : Nat) : ∀ (me : Option CarRef) (spec : Option Speculation) (t : Target) (n : Nat) (s : State),
    (State.snoopN k me spec t n s).spads = s.spads := by
  induction k with
  | zero => exact fun _ _ _ _ _ => rfl
  | succ k ih =>
    intro me spec t n s
    unfold State.snoopN
    split
    · rfl
    · refine State.spads_foldl (fun s c => State.spads_foldl (fun s m => ?_) _ s) _ s
      split
      · rfl
      · split
        · rfl
        · split
          · rfl
          · refine Eq.trans (State.spads_foldl (fun s p => ?_) _ _) (State.spads_mapAt (s := s.mapDev _) fun _ => rfl)
            split
            · rfl
            · exact ih _ _ _ _ s

theorem State.spads_storeAt (s : State) (me : Option CarRef) (spec : Option Speculation) (die : Option Nat) (t : Target) (bs : List Byte) :
    (s.storeAt me spec die t bs).spads = s.spads := State.spads_snoopN _ _ _ _ _ s

/-- A state whose cars differ in their mappings and pending causes alone. -/
structure State.Backed (s t : State) : Prop where
  spads : t.spads = s.spads
  outers : t.outers = s.outers

theorem State.Backed.refl (s : State) : s.Backed s := ⟨rfl, rfl⟩

theorem State.Backed.foldl {α : Type} {f : State → α → State} (step : ∀ s x, State.Backed s (f s x)) (xs : List α) (s : State) :
    s.Backed (xs.foldl f s) :=
  ⟨State.spads_foldl (fun s x => (step s x).spads) xs s, State.outers_foldl (fun s x => (step s x).outers) xs s⟩

theorem State.Backed.ite {s t u : State} {p : Prop} [Decidable p] (yes : s.Backed t) (no : s.Backed u) : s.Backed (if p then t else u) := by
  split
  · exact yes
  · exact no

/-- A byte that an engine writes to a tile. -/
theorem State.backed_tileWrite (s : State) (t : Target) (b : Byte) (bad : Bool) : s.Backed (s.tileWrite t b bad) := by
  unfold State.tileWrite
  dsimp only
  exact .ite ⟨rfl, rfl⟩ ⟨s.spads_storeAt (some s.car.ref) (s.dev.specOf s.car) s.car.die t [b],
    s.outers_storeAt (some s.car.ref) (s.dev.specOf s.car) s.car.die t [b]⟩

/-- A write-back leaves no dirty byte of its granules (R307). -/
theorem State.backGranules_spec (s : State) (m : Stash) (gs : List Nat) : (s.backGranules m gs).car.regs = s.car.regs ∧
    (s.backGranules m gs).car.spad = s.car.spad ∧
    ∀ y ∈ (s.backGranules m gs).car.eng.stash, y.num = m.num → ∀ p ∈ y.dirty, p / 64 ∉ gs := by
  have step (me : Car) (s : State) (p : Nat) : s.Backed (match s.dev.stashTarget m p with
      | none => s
      | some t => s.tileWrite t (me.spad.read (m.base + p)) (me.spad.poisoned (m.base + p))) := by
    split
    · exact .refl s
    · exact s.backed_tileWrite _ _ _
  have back := State.Backed.foldl (step s.car) (m.dirty.filter (fun p => gs.contains (p / 64))) s
  unfold State.backGranules
  dsimp only
  refine ⟨(State.keepsRegs_of_outers back.outers).1, State.spad_of_spads back.spads, fun y hy named p dirty => ?_⟩
  obtain ⟨x, -, rfl⟩ := List.mem_map.mp hy
  by_cases this : (x.num == m.num) = true
  · rw [if_pos this] at dirty
    simpa using (List.mem_filter.mp dirty).2
  · rw [if_neg this] at named
    exact absurd (beq_iff_eq.mpr named) this

end

/-- What an address that the stash engine does not reach leaves: COPY_FAULT, and memory and registers as they were (R240, R318). -/
theorem State.stashFault_spec (s : State) (num va : Nat) : (s.stashFault num va).dev.mem = s.dev.mem ∧
    .copyFault (BitVec.ofNat 6 num) (BitVec.ofNat 64 va) ∈ (s.stashFault num va).car.tr.pending :=
  ⟨s.dev.countWalk_mem va, mem_insertAsync.mpr (.inl rfl)⟩

/-- Bytes come into a granule of a mapping, and other bytes stand (R306). -/
theorem Car.putFill_spec {c : Car} {m : Stash} (mapped : m ∈ c.eng.stash) (g : Nat) (bytes : List Byte) (bad : List Nat) (whole : bytes.length = 64) :
    (∃ y ∈ (c.putFill m g bytes bad).eng.stash, y.num = m.num ∧ g ∈ y.filled) ∧
    (∀ a, a < m.base + g * 64 ∨ m.base + g * 64 + 64 ≤ a → (c.putFill m g bytes bad).spad.read a = c.spad.read a) ∧
    ∀ j < 64, (c.putFill m g bytes bad).spad.read (m.base + g * 64 + j) = bytes.getD j 0#8 := by
  have read (a : Nat) : (c.putFill m g bytes bad).spad.read a = (c.spad.write (m.base + g * 64) bytes).read a := by
    show ((c.spad.write (m.base + g * 64) bytes) |> fun w => bad.foldl (fun sp i => sp.setPoison (m.base + g * 64 + i) 1) w).read a = _
    generalize c.spad.write (m.base + g * 64) bytes = w
    induction bad generalizing w with
    | nil => rfl
    | cons i bad ih => exact ih _
  refine ⟨⟨m.fill g, List.mem_map.mpr ⟨m, mapped, if_pos (beq_self_eq_true _)⟩, rfl, List.mem_cons_self⟩, fun a outside => ?_, fun j inside => ?_⟩
  · rw [read, Mem.read_write_other _ (by omega)]
  · rw [read, Mem.read_write, if_pos (by omega), Nat.add_sub_cancel_left]

section
variable (s : State) (m : Stash) (g : Nat)

theorem State.fillOne_of_filled (filled : g ∈ m.filled) : s.fillOne m g = s :=
  if_pos (List.contains_iff_mem.mpr filled)

/-- A fill of a granule whose tile the engine reaches (R306). -/
theorem State.fillOne_of_reached (mapped : m ∈ s.car.eng.stash) (unfilled : g ∉ m.filled)
    (reached : s.dev.tileFault m true false (granulePlaces g) = none) :
    (s.fillOne m g).peers = s.peers ∧ (∃ y ∈ (s.fillOne m g).car.eng.stash, y.num = m.num ∧ g ∈ y.filled) ∧
    (∀ a, a < m.base + g * 64 ∨ m.base + g * 64 + 64 ≤ a → (s.fillOne m g).car.spad.read a = s.car.spad.read a) ∧
    ∀ j < 64, (s.fillOne m g).car.spad.read (m.base + g * 64 + j) = s.dev.spadByte s.car (m.base + g * 64 + j) := by
  have held (xs : List Target) (u : State) : (xs.foldl (fun s t => s.mapDev (fun d => d.afterRead (d.specOf s.car) s.car.die t 64)) u).cars = u.cars := by
    induction xs generalizing u with
    | nil => rfl
    | cons x xs ih => exact ih _
  have apart : ¬ m.filled.contains g = true := mt List.contains_iff_mem.mp unfilled
  unfold State.fillOne
  rw [if_neg apart, reached]
  dsimp only
  obtain ⟨car, peers⟩ := List.cons.inj (held (s.dev.tileLines m g) (s.mapCar (fun c => s.dev.fillGranule c m g)))
  rw [car, peers]
  have fill : (s.mapCar (fun c => s.dev.fillGranule c m g)).car = s.car.putFill m g
      ((List.range 64).map (fun i => s.dev.spadByte s.car (m.base + g * 64 + i)))
      ((List.range 64).filter (fun i => s.dev.spadPoison s.car (m.base + g * 64 + i))) := by
    show s.dev.fillGranule s.car m g = _
    rw [Device.fillGranule, if_neg apart]
  rw [fill]
  obtain ⟨filled, outside, inside⟩ := Car.putFill_spec mapped g ((List.range 64).map (fun i => s.dev.spadByte s.car (m.base + g * 64 + i)))
    ((List.range 64).filter (fun i => s.dev.spadPoison s.car (m.base + g * 64 + i))) (by simp)
  refine ⟨rfl, filled, outside, fun j low => ?_⟩
  rw [inside j low, getD_map_range, if_pos low]

/-- A fill of a granule whose tile the engine does not reach (R318). -/
theorem State.fillOne_of_unreached {va : Nat} (mapped : m ∈ s.car.eng.stash) (unfilled : g ∉ m.filled)
    (unreached : s.dev.tileFault m true false (granulePlaces g) = some va) :
    (s.fillOne m g).dev.mem = s.dev.mem ∧ .copyFault (BitVec.ofNat 6 m.num) (BitVec.ofNat 64 va) ∈ (s.fillOne m g).car.tr.pending ∧
    (∃ y ∈ (s.fillOne m g).car.eng.stash, y.num = m.num ∧ g ∈ y.filled) ∧
    ∀ a, a < m.base + g * 64 ∨ m.base + g * 64 + 64 ≤ a → (s.fillOne m g).car.spad.read a = s.car.spad.read a := by
  obtain ⟨mem, pending⟩ := s.stashFault_spec m.num va
  unfold State.fillOne
  rw [if_neg (mt List.contains_iff_mem.mp unfilled), unreached]
  obtain ⟨filled, outside, -⟩ := Car.putFill_spec (c := (s.stashFault m.num va).car) mapped g ((List.range 64).map (fun i => Config.anyByte s.fresh i)) [] (by simp)
  exact ⟨mem, pending, filled, outside⟩

/-- A write to coherent memory by an agent that is no car is in memory (R308). -/
theorem State.storeAt_home (pa : Nat) (bytes : List Byte) (own : s.dev.fab.fwd = []) (fits : pa + bytes.length ≤ Config.hbmSize) :
    ∀ (j : Nat) (h : j < bytes.length), (s.storeAt none none none (.hbm pa false) bytes).dev.mem.read (pa + j) = bytes[j] := by
  intro j inside
  have fab : (s.snoop none none (.hbm pa false) bytes.length).dev.fab = s.dev.fab := Device.fab_of_rest (State.rest_snoopN _ _ _ _ _ s)
  have wrote : (s.storeAt none none none (.hbm pa false) bytes).dev.mem = (s.snoop none none (.hbm pa false) bytes.length).dev.mem.write pa bytes := by
    unfold State.storeAt
    generalize s.snoop none none (.hbm pa false) bytes.length = u at fab
    show (((u.dev.hbmWrite pa (bytes.take (Config.hbmSize - pa))).watched none pa _)).mem = _
    rw [List.take_of_length_le (by omega)]
    show (u.dev.hbmWrite pa bytes).mem = _
    unfold Device.hbmWrite
    rw [fab, own]
    rfl
  rw [wrote, Mem.read_write, if_pos (by omega), Nat.add_sub_cancel_left, List.getD_eq_getElem _ _ inside]

end

end Sys2Proof.Machine

namespace Sys2Proof.Machine
open Sys2Proof.Claims

/-! Unmappings (R250). -/

section
variable (s : State) (n : Nat) (u : Unmap)

/-- The mapping that an unmapping takes away, as its dirty bytes go to the tile. -/
def Unmap.mapping (u : Unmap) : Stash := { num := u.num, base := 0, len := u.ws.stashLen, ws := u.ws }

theorem exec_cunmComplete (found : s.car.eng.unmaps.find? (fun y => y.num == n) = some u) : exec (.cunmComplete s.car.ref n) s = .next
    (if s.enginesPaused || u.faulted then s
     else match s.dev.tileFault u.mapping false true (u.bytes.map (·.1)) with
      | some va => (s.stashFault n va).mapCar (fun k => { k with eng := { k.eng with unmaps := k.eng.unmaps.map (fun x =>
          if x.num == n then { x with faulted := true } else x) } })
      | none =>
        let s := u.bytes.foldl (fun s b =>
          match s.dev.stashTarget u.mapping b.1 with
          | some t => s.tileWrite t b.2 (u.poison.contains b.1)
          | none => s) s
        s.mapCar (fun k => { k with eng := { k.eng with unmaps := k.eng.unmaps.filter (fun x => x.num != n) } }.post u.flag 1)) := by
  refine (State.at_focused s _).trans (congrArg Host.Outcome.next ?_)
  dsimp only
  rw [found] <;> rfl

variable {s n u}

/-- An unmapping whose tile the engine reaches ends with its flag. -/
theorem exec_cunmComplete_of_reached (found : s.car.eng.unmaps.find? (fun y => y.num == n) = some u) (on : s.enginesPaused = false)
    (sound : u.faulted = false) (reached : s.dev.tileFault u.mapping false true (u.bytes.map (·.1)) = none) : ∃ t, exec (.cunmComplete s.car.ref n) s = .next t ∧
      t.car.regs = (s.car.post u.flag 1).regs ∧ (∀ y ∈ t.car.eng.unmaps, y.num ≠ n) ∧ (u.bytes = [] → t.dev = s.dev) := by
  refine ⟨_, exec_cunmComplete s n u found, ?_⟩
  rw [on, sound, reached, Bool.or_self, if_neg (by decide)]
  have back := State.Backed.foldl (f := fun s b => match s.dev.stashTarget u.mapping b.1 with
      | some t => s.tileWrite t b.2 (u.poison.contains b.1)
      | none => s) (fun s b => by
    split
    · exact s.backed_tileWrite _ _ _
    · exact .refl s) u.bytes s
  refine ⟨?_, fun y hy => ?_, fun none => ?_⟩
  · dsimp only
    generalize u.bytes.foldl _ s = v at back
    have car := State.outer_car back.outers
    exact Car.post_regs_congr (c := s.car) (e := { v.car with eng := { v.car.eng with unmaps := v.car.eng.unmaps.filter (fun x => x.num != n) } })
      (congrArg Car.regs car :) (congrArg Car.took car :) u.flag 1
  · rw [State.mapCar, Car.post_eng] at hy
    simpa using (List.mem_filter.mp hy).2
  · rw [none]
    rfl

/-- An unmapping that meets an address that the engine does not reach stands, faulted (R318). -/
theorem exec_cunmComplete_of_unreached {va : Nat} (found : s.car.eng.unmaps.find? (fun y => y.num == n) = some u) (on : s.enginesPaused = false)
    (sound : u.faulted = false) (unreached : s.dev.tileFault u.mapping false true (u.bytes.map (·.1)) = some va) :
    ∃ t, exec (.cunmComplete s.car.ref n) s = .next t ∧ t.car.regs = s.car.regs ∧ t.dev.mem = s.dev.mem ∧
      .copyFault (BitVec.ofNat 6 n) (BitVec.ofNat 64 va) ∈ t.car.tr.pending ∧ { u with faulted := true } ∈ t.car.eng.unmaps := by
  refine ⟨_, exec_cunmComplete s n u found, ?_⟩
  rw [on, sound, unreached, Bool.or_self, if_neg (by decide)]
  obtain ⟨mem, pending⟩ := s.stashFault_spec n va
  exact ⟨rfl, mem, pending, List.mem_map.mpr ⟨u, List.mem_of_find?_eq_some found,
    if_pos (List.find?_some (p := fun y : Unmap => y.num == n) found)⟩⟩

end

/-! The events of a granule (R306 to R308). -/

section
variable (s : State) {addr : Nat} {m : Stash} (mapped : s.car.stashOf addr = some m)
include mapped

theorem exec_stashFill : exec (.stashFill s.car.ref addr) s = .next (if s.enginesPaused then s else s.fillOne m ((addr - m.base) / 64)) := by
  refine (State.at_focused s _).trans (congrArg Host.Outcome.next ?_)
  rw [mapped]

theorem exec_stashWriteback : exec (.stashWriteback s.car.ref addr) s = .next
    (match s.dev.tileFault m false true (m.dirty.filter (fun p => p / 64 == (addr - m.base) / 64)) with
     | some va => s.stashFault m.num va
     | none => s.backGranules m [(addr - m.base) / 64]) := by
  refine (State.at_focused s _).trans (congrArg Host.Outcome.next ?_)
  dsimp only
  rw [mapped] <;> rfl

theorem exec_stashForeignWrite {pa : Nat} (bytes : List Byte) (home : s.dev.stashTarget m (addr - m.base) = some (.hbm pa false)) :
    exec (.stashForeignWrite s.car.ref addr bytes) s = .next (s.storeAt none none none (.hbm pa false) bytes) := by
  refine (State.at_focused s _).trans (congrArg Host.Outcome.next ?_)
  rw [mapped]
  dsimp only
  rw [home] <;> rfl

end

end Sys2Proof.Machine

namespace Sys2Proof.Proofs
open Sys2Proof.Machine Sys2Proof.Claims

/-- Settles O31: range operations line by line, unmappings, fills, write-backs and foreign writes by what each leaves. -/
theorem rangesAndStashesComplete : Obligations.RangesAndStashesComplete := by
  intro n addr bytes s own r die faulted
  refine ⟨fun x found held => ?_, fun on x found free keys => ?_, fun u found => ?_, fun none => ?_, fun m mapped => ?_⟩
  · refine (State.at_focused s _).trans (congrArg Host.Outcome.next ?_)
    dsimp only
    rw [found]
    exact if_pos (by simpa using held)
  · obtain ⟨P, done, all⟩ := Device.ranged_rangeOp (kind := x.kind) (die := die) keys own x.lo x.hi
    refine ⟨_, State.at_focused s _, ?_⟩
    dsimp only
    rw [found]
    dsimp only
    rw [on, free, Bool.or_self, if_neg (by decide)]
    refine ⟨Car.post_regs_congr (c := s.car) (e := { s.car with eng := { s.car.eng with ranges := s.car.eng.ranges.filter (fun x => x.id != n) } }) rfl rfl _ _,
      Car.post_spad _ _ _, fun y hy => ?_, fun l hl at_ low high => ?_, fun back l hl at_ low high => ?_, fun drop => done.stands drop⟩
    · rw [State.mapCar, Car.post_eng] at hy
      simpa using (List.mem_filter.mp hy).2
    · refine (done.mine l hl).1 ⟨at_, ?_⟩
      by_contra unmet
      exact unmet (all l ((done.mine l hl).2 fun inside => unmet inside.2) at_ low high)
    · exact done.home back l hl at_ (all l hl at_ low high)
  · refine ⟨fun held => ?_, fun on sound => exec_cunmComplete_of_reached found on sound, fun va on sound unreached => ?_⟩
    · refine (exec_cunmComplete s n u found).trans (congrArg Host.Outcome.next (if_pos ?_))
      rwa [Bool.or_eq_true]
    · obtain ⟨t, run, regs, mem, pending, stands⟩ := exec_cunmComplete_of_unreached found on sound unreached
      exact ⟨t, run, ⟨regs, mem, pending⟩, stands⟩
  · refine ⟨?_, ?_, ?_⟩ <;>
    · refine (State.at_focused s _).trans (congrArg Host.Outcome.next ?_)
      rw [none]
  · intro g unread unwritten filled
    have here : m ∈ s.car.eng.stash := List.mem_of_find?_eq_some mapped
    refine ⟨fun there => ?_, fun off => ?_, fun unfilled on reached => ?_, fun va unfilled on unreached => ?_, fun reached => ?_, fun va unreached => ?_,
      fun pa home fits => ?_⟩
    · rw [exec_stashFill s mapped, s.fillOne_of_filled m _ there, ite_self]
    · rw [exec_stashFill s mapped, if_pos off]
    · obtain ⟨peers, full, outside, inside⟩ := s.fillOne_of_reached m g here unfilled reached
      refine ⟨_, (exec_stashFill s mapped).trans (congrArg Host.Outcome.next (if_neg (by rw [on]; decide))), peers,
        (State.keepsRegs_of_outers (s.outers_fillOne m g)).1, ⟨full, outside⟩, inside⟩
    · obtain ⟨mem, pending, full, outside⟩ := s.fillOne_of_unreached m g here unfilled unreached
      refine ⟨_, (exec_stashFill s mapped).trans (congrArg Host.Outcome.next (if_neg (by rw [on]; decide))),
        ⟨(State.keepsRegs_of_outers (s.outers_fillOne m g)).1, mem, pending⟩, full, outside⟩
    · obtain ⟨regs, spad, clean⟩ := s.backGranules_spec m [g]
      refine ⟨_, exec_stashWriteback s mapped, ?_⟩
      rw [show s.dev.tileFault m false true (m.dirty.filter (fun p => p / 64 == (addr - m.base) / 64)) = none from reached]
      exact ⟨regs, spad, fun y hy named p dirty same => clean y hy named p dirty (List.mem_singleton.mpr same)⟩
    · obtain ⟨mem, pending⟩ := s.stashFault_spec m.num va
      refine ⟨_, exec_stashWriteback s mapped, ?_⟩
      rw [show s.dev.tileFault m false true (m.dirty.filter (fun p => p / 64 == (addr - m.base) / 64)) = some va from unreached]
      exact ⟨⟨rfl, mem, pending⟩, rfl⟩
    · exact ⟨_, exec_stashForeignWrite s mapped bytes home, (State.keepsRegs_of_outers (s.outers_storeAt _ _ _ _ _)).1,
        s.storeAt_home pa bytes own fits⟩

end Sys2Proof.Proofs

namespace Sys2Proof.Machine
open Sys2Proof.Claims

/-! What writes to scratchpads leave: of the cars what engines' accesses change, and of the device what accesses to memory change. -/

structure State.Placed (s t : State) : Prop where
  outers : t.outers = s.outers
  rest : t.dev.rest = s.dev.rest

section
variable {s t u : State}

theorem State.Placed.refl (s : State) : s.Placed s := ⟨rfl, rfl⟩

theorem State.Placed.trans (h : s.Placed t) (g : t.Placed u) : s.Placed u := ⟨g.outers.trans h.outers, g.rest.trans h.rest⟩

theorem State.Placed.foldl {α : Type} {f : State → α → State} (step : ∀ s x, State.Placed s (f s x)) (xs : List α) (s : State) :
    s.Placed (xs.foldl f s) := by
  induction xs generalizing s with
  | nil => exact .refl s
  | cons x xs ih => exact (step s x).trans (ih _)

theorem State.Placed.fab (h : s.Placed t) : t.dev.fab = s.dev.fab := Device.fab_of_rest h.rest

theorem State.Placed.regs (h : s.Placed t) : t.car.regs = s.car.regs := (State.keepsRegs_of_outers h.outers).1

theorem State.Placed.took (h : s.Placed t) : t.car.took = s.car.took := (congrArg Car.took (State.outer_car h.outers) :)

theorem State.Placed.ref (h : s.Placed t) : t.car.ref = s.car.ref := (congrArg Car.ref (State.outer_car h.outers) :)

/-- Bytes that come into the own scratchpad. -/
theorem State.placed_writeMarked (s : State) (o : Nat) (bs : List (Byte × Bool)) : s.Placed (s.writeMarked (.spad o) bs) := by
  have wrote : s.Placed (s.spadWrite o (bs.map Prod.fst)) := by
    have fills := s.fetched_fillRange o (bs.map Prod.fst).length
    exact ⟨s.outers_spadWrite _ _, fills.dev.rest⟩
  refine wrote.trans (State.Placed.foldl (f := fun s p => if p.1.2 then s.poisonByte ((Target.spad o).plus p.2) else s) (fun s p => ?_) bs.zipIdx _)
  split
  · exact ⟨s.outers_poisonByte _, rfl⟩
  · exact .refl s

theorem State.placed_writePeer (s : State) (core : BitVec 9) (o : Nat) (bs : List (Byte × Bool)) : s.Placed (s.writePeer core o bs) := by
  refine ⟨s.outers_writePeer core o bs, ?_⟩
  unfold State.writePeer
  split <;> rfl

/-- Bytes that an engine writes to a scratchpad meet no fault. -/
theorem State.placed_putAt (s : State) (k : Copy) (a : Word) (bs : List (Byte × Bool)) :
    s.Placed (s.putAt k true a bs).1 ∧ (s.putAt k true a bs).2 = true := by
  unfold State.putAt
  rw [if_pos rfl]
  split
  · exact ⟨s.placed_writeMarked _ _, rfl⟩
  · exact ⟨s.placed_writePeer _ _ _, rfl⟩

section
variable {k : Copy} (place : k.wd.sp = true)
include place

theorem State.placed_putElem (s : State) (m : Nat) (bs : List (Byte × Bool)) : s.Placed (s.putElem k m bs).1 ∧ (s.putElem k m bs).2 = true := by
  rw [State.putElem, place]
  exact s.placed_putAt k _ bs

theorem State.placed_putVals (vs : List (Nat × BitVec 8)) (m : Nat) (s : State) : s.Placed (s.putVals k m vs).1 ∧ (s.putVals k m vs).2 = none := by
  induction vs generalizing m s with
  | nil => exact ⟨.refl s, rfl⟩
  | cons v vs ih =>
    obtain ⟨put, well⟩ := State.placed_putElem place s m ((bytesLE k.wd.esz v.1).zipIdx.map (fun b => (b.1, v.2.getLsbD b.2)))
    unfold State.putVals
    dsimp only
    rw [if_pos well]
    exact ⟨put.trans (ih _ _).1, (ih _ _).2⟩

theorem State.placed_zeroBlocks (bs : List Nat) (s : State) : s.Placed (s.zeroBlocks k bs).1 ∧ (s.zeroBlocks k bs).2 = none := by
  induction bs generalizing s with
  | nil => exact ⟨.refl s, rfl⟩
  | cons b bs ih =>
    obtain ⟨put, well⟩ := State.placed_putVals place (List.replicate (k.blockElems b).2 (0, 0#8)) (k.blockElems b).1 s
    unfold State.zeroBlocks
    dsimp only
    rw [well]
    exact ⟨put.trans (ih _).1, (ih _).2⟩

theorem State.placed_moveElems (source : k.ws.sp = true) (n m : Nat) (s : State) : s.Placed (s.moveElems k n m).1 ∧ (s.moveElems k n m).2 = none := by
  induction n generalizing m s with
  | zero => exact ⟨.refl s, rfl⟩
  | succ n ih =>
    have got : ∃ bs, s.sourceElem k m = (s, some bs) := by
      unfold State.sourceElem
      rw [if_pos source]
      exact ⟨_, rfl⟩
    obtain ⟨bs, got⟩ := got
    obtain ⟨put, well⟩ := State.placed_putElem place s m bs
    rw [State.moveElems, got]
    dsimp only
    rw [if_pos well]
    exact ⟨put.trans (ih _ _).1, (ih _ _).2⟩

/-- The bytes of an area at AUX in a scratchpad. -/
theorem State.putAux_eq (s : State) (bs : List Byte) : s.putAux k bs =
    (bs.zipIdx.foldl (fun s p => (s.putAt k true (k.wd.aux + BitVec.ofNat 64 p.2) [(p.1, false)]).1) s, none) := by
  have may : (List.range bs.length).find? (fun i => !s.mayPut k k.wd.sp (k.wd.aux + BitVec.ofNat 64 i)) = none := by
    rw [List.find?_eq_none]
    intro i _
    rw [State.mayPut, place, Bool.true_or]
    decide
  unfold State.putAux
  dsimp only
  rw [may, place]

theorem State.placed_putAux (s : State) (bs : List Byte) : s.Placed (s.putAux k bs).1 ∧ (s.putAux k bs).2 = none := by
  rw [State.putAux_eq place]
  exact ⟨State.Placed.foldl (f := fun s (p : Byte × Nat) => (s.putAt k true (k.wd.aux + BitVec.ofNat 64 p.2) [(p.1, false)]).1)
    (fun s p => (s.placed_putAt k _ _).1) _ s, rfl⟩

end

/-! Transfers that end. -/

theorem State.endCopy_lossy (s : State) (k : Copy) : (s.endCopy k).dev.fab.lossy = s.dev.fab.lossy := by
  have watch : (s.watchEngine k).dev.fab = s.dev.fab := by
    unfold State.watchEngine
    dsimp only
    split
    · rfl
    · split
      · rfl
      · split <;> rfl
  unfold State.endCopy
  generalize s.watchEngine k = u at watch
  show (Device.closeRank u.dev k s.car.ref).fab.lossy = _
  rw [← watch]
  unfold Device.closeRank
  split <;> rfl

/-- A transfer that ends where registers and flags stand as they did. -/
theorem State.endCopy_of_same {c : Car} (k : Copy) (regs : t.car.regs = c.regs) (took : t.car.took = c.took) :
    (t.endCopy k).car.regs = (c.post k.flag 1).regs ∧ (t.endCopy k).car.copyOf k.num = none := by
  obtain ⟨gone, posted, -⟩ := t.endCopy_spec k
  exact ⟨posted.trans (Car.post_regs_congr regs took _ _), gone⟩

section
variable (s : State) (k : Copy) (x : Lossy)

/-- The mask and the flag of a lossy transfer between scratchpads. -/
theorem State.endLossy_spec (place : k.wd.sp = true) : ∃ u, s.Placed u ∧
    (u = if k.wd.auxen then (s.putAux k (maskBytes x.mask)).1 else s) ∧
    (s.endLossy k x).car.regs = (s.car.post k.flag 1).regs ∧ (s.endLossy k x).car.copyOf k.num = none ∧
    (s.endLossy k x).car.spad = u.car.spad ∧ (s.endLossy k x).dev.lossyOf x.car x.num = none := by
  have ends (u : State) (placed : s.Placed u) : let t := (u.mapDev (fun d => d.dropLossy x.car x.num)).endCopy k
      t.car.regs = (s.car.post k.flag 1).regs ∧ t.car.copyOf k.num = none ∧ t.car.spad = u.car.spad ∧ t.dev.lossyOf x.car x.num = none := by
    obtain ⟨regs, gone⟩ := State.endCopy_of_same (t := u.mapDev (fun d => d.dropLossy x.car x.num)) k placed.regs placed.took
    refine ⟨regs, gone, ((u.mapDev _).endCopy_spec k).2.2.1, ?_⟩
    unfold Device.lossyOf
    rw [State.endCopy_lossy]
    refine List.find?_eq_none.mpr fun y hy => ?_
    have other := (List.mem_filter.mp hy).2
    exact fun this => by
      rw [this] at other
      cases other
  obtain ⟨put, well⟩ := State.placed_putAux place s (maskBytes x.mask)
  unfold State.endLossy
  dsimp only
  cases k.wd.auxen with
  | true =>
    rw [if_pos rfl, if_pos rfl, well]
    exact ⟨_, put, rfl, ends _ put⟩
  | false => exact ⟨s, .refl s, rfl, ends s (.refl s)⟩

end

/-- The record of a lossy transfer that is changed. -/
theorem Device.lossyOf_setLossy {d : Device} {x y : Lossy} (found : d.lossyOf x.car x.num = some y) : (d.setLossy x).lossyOf x.car x.num = some x := by
  unfold Device.lossyOf Device.setLossy at *
  dsimp only
  have number (z : Lossy) : ((if z.car == x.car && z.num == x.num then x else z).car == x.car && (if z.car == x.car && z.num == x.num then x else z).num == x.num) =
      (z.car == x.car && z.num == x.num) := by
    split
    · next same => simpa using same
    · rfl
  rw [List.find?_map]
  rw [show ((fun z : Lossy => z.car == x.car && z.num == x.num) ∘ fun z => if z.car == x.car && z.num == x.num then x else z) =
    fun z => z.car == x.car && z.num == x.num from funext number, found, Option.map_some, if_pos]
  exact List.find?_some (p := fun z : Lossy => z.car == x.car && z.num == x.num) found

theorem Device.lossyOf_name {d : Device} {c : CarRef} {n : Nat} {x : Lossy} (found : d.lossyOf c n = some x) : x.car = c ∧ x.num = n := by
  have named := List.find?_some (p := fun z : Lossy => z.car == c && z.num == n) found
  rwa [Bool.and_eq_true, beq_iff_eq, beq_iff_eq] at named

theorem Device.lossyOf_congr {d e : Device} (same : e.fab = d.fab) (c : CarRef) (n : Nat) : e.lossyOf c n = d.lossyOf c n := by
  unfold Device.lossyOf
  rw [same]

end

end Sys2Proof.Machine

namespace Sys2Proof.Machine
open Sys2Proof.Claims

/-! What writes to the own scratchpad leave in it, where nothing is mapped. -/

/-- A memory with a list of writes done. -/
def Mem.puts (m : Mem) (ws : List (Nat × List Byte)) : Mem := ws.foldl (fun m w => m.write w.1 w.2) m

section
variable {m m' : Mem} {ws : List (Nat × List Byte)} {a : Nat}

theorem Mem.puts_congr (same : ∀ a, m.read a = m'.read a) : ∀ a, (m.puts ws).read a = (m'.puts ws).read a := by
  induction ws generalizing m m' with
  | nil => exact same
  | cons w ws ih => exact ih fun a => by rw [Mem.read_write, Mem.read_write, same]

theorem Mem.puts_outside (outside : ∀ w ∈ ws, a < w.1 ∨ w.1 + w.2.length ≤ a) : (m.puts ws).read a = m.read a := by
  induction ws generalizing m with
  | nil => rfl
  | cons w ws ih =>
    refine (ih fun v hv => outside v (List.mem_cons_of_mem _ hv)).trans (Mem.read_write_other _ ?_)
    exact outside w List.mem_cons_self

/-- Of writes that do not meet each one stands. -/
theorem Mem.puts_apart (apart : ws.Pairwise fun v w => v.1 + v.2.length ≤ w.1 ∨ w.1 + w.2.length ≤ v.1) {w : Nat × List Byte} (hw : w ∈ ws)
    {j : Nat} (inside : j < w.2.length) : (m.puts ws).read (w.1 + j) = w.2.getD j 0#8 := by
  induction ws generalizing m with
  | nil => cases hw
  | cons v ws ih =>
    obtain ⟨first, rest⟩ := List.pairwise_cons.mp apart
    rcases List.mem_cons.mp hw with rfl | later
    · refine (Mem.puts_outside (m := m.write w.1 w.2) (ws := ws) fun x hx => ?_).trans ?_
      · have := first x hx
        omega
      · rw [Mem.read_write, if_pos (by omega), Nat.add_sub_cancel_left]
    · exact ih rest later

/-- Zeros that are written stand, whatever else is zeroed. -/
theorem Mem.puts_zero (zeros : ∀ w ∈ ws, ∀ b ∈ w.2, b = 0#8)
    (covered : m.read a = 0#8 ∨ ∃ w ∈ ws, w.1 ≤ a ∧ a < w.1 + w.2.length) : (m.puts ws).read a = 0#8 := by
  induction ws generalizing m with
  | nil => exact covered.elim id fun ⟨w, hw, _⟩ => absurd hw List.not_mem_nil
  | cons v ws ih =>
    refine ih (fun w hw => zeros w (List.mem_cons_of_mem _ hw)) ?_
    rw [Mem.read_write]
    by_cases here : v.1 ≤ a ∧ a < v.1 + v.2.length
    · rw [if_pos here, List.getD_eq_getElem _ _ (by omega)]
      exact .inl (zeros v List.mem_cons_self _ (List.getElem_mem _))
    · rw [if_neg here]
      rcases covered with was | ⟨w, hw, inside⟩
      · exact .inl was
      · rcases List.mem_cons.mp hw with rfl | later
        · exact absurd inside here
        · exact .inr ⟨w, later, inside⟩

end

/-- A state is another one with writes done in the own scratchpad. -/
def State.Writes (s : State) (ws : List (Nat × List Byte)) (t : State) : Prop :=
  ∃ m : Mem, t = s.mapCar (fun c => { c with spad := m }) ∧ ∀ a, m.read a = (s.car.spad.puts ws).read a

section
variable {s t u : State} {ws vs : List (Nat × List Byte)}

theorem State.Writes.refl (s : State) : s.Writes [] s := ⟨s.car.spad, rfl, fun _ => rfl⟩

theorem State.Writes.trans (h : s.Writes ws t) (g : t.Writes vs u) : s.Writes (ws ++ vs) u := by
  obtain ⟨x, rfl, read⟩ := h
  obtain ⟨y, rfl, read'⟩ := g
  refine ⟨y, rfl, fun a => (read' a).trans ?_⟩
  have both : s.car.spad.puts (ws ++ vs) = (s.car.spad.puts ws).puts vs := List.foldl_append ..
  rw [both]
  exact Mem.puts_congr read a

theorem State.Writes.unmapped (h : s.Writes ws t) (none : s.car.eng.stash = []) : t.car.eng.stash = [] := by
  obtain ⟨x, rfl, -⟩ := h
  exact none

theorem State.Writes.read (h : s.Writes ws t) (a : Nat) : t.car.spad.read a = (s.car.spad.puts ws).read a := by
  obtain ⟨x, rfl, read⟩ := h
  exact read a

section
variable {k : Copy} (unmapped : s.car.eng.stash = [])
include unmapped

theorem State.writes_putAt {a : Word} (near : haWindow a = 0) (bs : List (Byte × Bool)) :
    s.Writes [(haByte a, bs.map Prod.fst)] (s.putAt k true a bs).1 := by
  obtain ⟨m, wrote, read⟩ := s.writeMarked_own (haByte a) bs unmapped
  refine ⟨m, ?_, read⟩
  rw [State.putAt, if_pos rfl, if_pos near]
  exact wrote

theorem State.writes_foldl {α : Type} {f : State → α → State} {w : α → Nat × List Byte} (xs : List α)
    (step : ∀ s : State, s.car.eng.stash = [] → ∀ x ∈ xs, s.Writes [w x] (f s x)) : s.Writes (xs.map w) (xs.foldl f s) := by
  induction xs generalizing s with
  | nil => exact .refl s
  | cons x xs ih =>
    have first := step s unmapped x List.mem_cons_self
    exact first.trans (ih (first.unmapped unmapped) fun s none y hy => step s none y (List.mem_cons_of_mem _ hy))

/-- The area at AUX in the own scratchpad (R239, R252). -/
theorem State.writes_putAux (place : k.wd.sp = true) (bs : List Byte) (near : ∀ i < bs.length, haWindow (k.wd.aux + BitVec.ofNat 64 i) = 0) :
    s.Writes (bs.zipIdx.map (fun p => (haByte (k.wd.aux + BitVec.ofNat 64 p.2), [p.1]))) (s.putAux k bs).1 := by
  rw [State.putAux_eq place]
  refine State.writes_foldl unmapped bs.zipIdx fun s none p hp => State.writes_putAt none (near p.2 ?_) [(p.1, false)]
  have := (List.mem_zipIdx hp).2.1
  omega

variable (place : k.wd.sp = true)
include place

theorem State.writes_putElem {m : Nat} (near : haWindow (k.wd.elem m) = 0) (bs : List (Byte × Bool)) :
    s.Writes [(haByte (k.wd.elem m), bs.map Prod.fst)] (s.putElem k m bs).1 := by
  rw [State.putElem, place]
  exact State.writes_putAt unmapped near bs

/-- Elements of the own scratchpad. -/
theorem State.writes_putVals (vs : List (Nat × BitVec 8)) (m : Nat) (near : ∀ j, m ≤ j → j < m + vs.length → haWindow (k.wd.elem j) = 0) :
    s.Writes ((vs.zipIdx m).map (fun v => (haByte (k.wd.elem v.2), bytesLE k.wd.esz v.1.1))) (s.putVals k m vs).1 := by
  induction vs generalizing m s with
  | nil => exact .refl s
  | cons v vs ih =>
    rw [List.length_cons] at near
    have put := State.writes_putElem unmapped place (near m (by omega) (by omega)) ((bytesLE k.wd.esz v.1).zipIdx.map (fun b => (b.1, v.2.getLsbD b.2)))
    have well := (State.placed_putElem place s m ((bytesLE k.wd.esz v.1).zipIdx.map (fun b => (b.1, v.2.getLsbD b.2)))).2
    have bytes : ((bytesLE k.wd.esz v.1).zipIdx.map (fun b => (b.1, v.2.getLsbD b.2))).map Prod.fst = bytesLE k.wd.esz v.1 := by
      rw [List.map_map]
      exact List.zipIdx_map_fst 0 _
    rw [bytes] at put
    unfold State.putVals
    dsimp only
    rw [if_pos well]
    exact put.trans (ih (put.unmapped unmapped) (m + 1) fun j low high => near j (by omega) (by omega))

end

end

/-! Elements and blocks of a destination (R231, R239). -/

section
variable {k : Copy}

theorem Waybill.esz_pos (w : Waybill) : 0 < w.esz := Nat.two_pow_pos _

theorem Waybill.esz_le (w : Waybill) : w.esz ≤ 8 :=
  Nat.pow_le_pow_right (n := 2) (by decide) (show (w[2].extractLsb' 32 2).toNat ≤ 3 by omega)

theorem Waybill.perBlock_pos (w : Waybill) : 0 < 256 / w.esz :=
  Nat.div_pos (w.esz_le.trans (by decide)) w.esz_pos

theorem Copy.blockElems_eq (k : Copy) (b : Nat) :
    k.blockElems b = (b * (256 / k.wd.esz), min (256 / k.wd.esz) (k.wd.count - b * (256 / k.wd.esz))) := rfl

theorem Copy.mem_blockElems {b m : Nat} (inside : m < k.wd.count) : m / (256 / k.wd.esz) = b ↔
    (k.blockElems b).1 ≤ m ∧ m < (k.blockElems b).1 + (k.blockElems b).2 := by
  rw [Copy.blockElems_eq]
  have pos := k.wd.perBlock_pos
  generalize 256 / k.wd.esz = per at pos
  rw [Nat.div_eq_iff pos]
  omega

theorem Copy.blockElems_le {b m : Nat} (low : (k.blockElems b).1 ≤ m) (high : m < (k.blockElems b).1 + (k.blockElems b).2) : m < k.wd.count := by
  rw [Copy.blockElems_eq] at low high
  omega

theorem bytesLE_zero (n : Nat) : ∀ b ∈ bytesLE n 0, b = 0#8 := by
  induction n with
  | zero => exact fun _ hb => absurd hb List.not_mem_nil
  | succ n ih =>
    intro b hb
    rcases List.mem_cons.mp hb with rfl | later
    · rfl
    · exact ih b later

/-- Blocks of the own scratchpad that are zeroed (R412). -/
theorem State.writes_zeroBlocks (place : k.wd.sp = true) (near : ∀ m < k.wd.count, haWindow (k.wd.elem m) = 0) (bs : List Nat) (s : State)
    (unmapped : s.car.eng.stash = []) : ∃ ws, s.Writes ws (s.zeroBlocks k bs).1 ∧ (∀ w ∈ ws, ∀ b ∈ w.2, b = 0#8) ∧
      ∀ m < k.wd.count, m / (256 / k.wd.esz) ∈ bs → ∃ w ∈ ws, w.1 = haByte (k.wd.elem m) ∧ w.2.length = k.wd.esz := by
  induction bs generalizing s with
  | nil => exact ⟨[], .refl s, fun _ hw => absurd hw List.not_mem_nil, fun _ _ hb => absurd hb List.not_mem_nil⟩
  | cons b bs ih =>
    have put := State.writes_putVals unmapped place (List.replicate (k.blockElems b).2 (0, 0#8)) (k.blockElems b).1
      fun j low high => near j (k.blockElems_le low (by rwa [List.length_replicate] at high))
    have well := (State.placed_putVals place (List.replicate (k.blockElems b).2 (0, 0#8)) (k.blockElems b).1 s).2
    obtain ⟨ws, rest, zeros, covers⟩ := ih _ (put.unmapped unmapped)
    unfold State.zeroBlocks
    dsimp only
    rw [well]
    refine ⟨_, put.trans rest, fun w hw => ?_, fun m hm hb => ?_⟩
    · rcases List.mem_append.mp hw with first | later
      · obtain ⟨v, hv, rfl⟩ := List.mem_map.mp first
        obtain ⟨-, -, value⟩ := List.mem_zipIdx hv
        rw [value, List.getElem_replicate]
        exact bytesLE_zero _
      · exact zeros w later
    · rcases List.mem_cons.mp hb with here | later
      · obtain ⟨low, high⟩ := (k.mem_blockElems hm).mp here
        refine ⟨(haByte (k.wd.elem m), bytesLE k.wd.esz 0), List.mem_append_left _ (List.mem_map.mpr ⟨((0, 0#8), m), ?_, rfl⟩), rfl, bytesLE_length _ _⟩
        rw [List.mk_mem_zipIdx_iff_le_and_getElem?_sub]
        exact ⟨low, by rw [List.getElem?_replicate, if_pos (by omega)]⟩
      · obtain ⟨w, hw, which⟩ := covers m hm later
        exact ⟨w, List.mem_append_right _ hw, which⟩

/-- Zeroed blocks hold zeros. -/
theorem State.zeroBlocks_read (place : k.wd.sp = true) (near : ∀ m < k.wd.count, haWindow (k.wd.elem m) = 0) (bs : List Nat) (s : State)
    (unmapped : s.car.eng.stash = []) {m : Nat} (inside : m < k.wd.count) (zeroed : m / (256 / k.wd.esz) ∈ bs) {j : Nat} (low : j < k.wd.esz) :
    (s.zeroBlocks k bs).1.car.spad.read (haByte (k.wd.elem m) + j) = 0#8 := by
  obtain ⟨ws, wrote, zeros, covers⟩ := State.writes_zeroBlocks place near bs s unmapped
  obtain ⟨w, hw, start, length⟩ := covers m inside zeroed
  rw [wrote.read]
  exact Mem.puts_zero zeros (.inr ⟨w, hw, by omega, by omega⟩)

/-- Elements put into the own scratchpad, apart from each other: each is there. -/
theorem State.putVals_read {s : State} (unmapped : s.car.eng.stash = []) (place : k.wd.sp = true) (vs : List (Nat × BitVec 8))
    (near : ∀ j < vs.length, haWindow (k.wd.elem j) = 0)
    (apart : ∀ i < vs.length, ∀ j < vs.length, i ≠ j →
      haByte (k.wd.elem i) + k.wd.esz ≤ haByte (k.wd.elem j) ∨ haByte (k.wd.elem j) + k.wd.esz ≤ haByte (k.wd.elem i))
    {m : Nat} (inside : m < vs.length) {j : Nat} (low : j < k.wd.esz) :
    (s.putVals k 0 vs).1.car.spad.read (haByte (k.wd.elem m) + j) = (bytesLE k.wd.esz vs[m].1).getD j 0#8 := by
  have wrote := State.writes_putVals unmapped place vs 0 fun j _ high => near j (by omega)
  rw [wrote.read]
  refine Mem.puts_apart (w := (haByte (k.wd.elem m), bytesLE k.wd.esz vs[m].1)) ?_ (List.mem_map.mpr ⟨(vs[m], m), ?_, rfl⟩) (by rwa [bytesLE_length])
  · rw [List.pairwise_map, List.pairwise_iff_getElem]
    intro i j hi hj before
    rw [List.length_zipIdx] at hi hj
    rw [List.getElem_zipIdx, List.getElem_zipIdx, bytesLE_length, bytesLE_length, Nat.zero_add, Nat.zero_add]
    exact apart i hi j hj (by omega)
  · rw [List.mk_mem_zipIdx_iff_getElem?]
    exact List.getElem?_eq_getElem inside

end

end Sys2Proof.Machine

namespace Sys2Proof.Machine
open Sys2Proof.Claims

/-! Masks and their area in the own scratchpad (R239). -/

/-- Addresses that follow one in its window. -/
theorem haByte_add {a : Word} {i : Nat} (fits : haByte a + i < 2 ^ 19) :
    haByte (a + BitVec.ofNat 64 i) = haByte a + i ∧ haWindow (a + BitVec.ofNat 64 i) = haWindow a := by
  have low : haByte a = a.toNat % 524288 := by rw [haByte, BitVec.extractLsb'_toNat, Nat.shiftRight_zero]
  have bound := a.isLt
  have sum : (a + BitVec.ofNat 64 i).toNat = a.toNat + i := by
    rw [BitVec.toNat_add, BitVec.toNat_ofNat]
    omega
  constructor
  · rw [low, haByte, BitVec.extractLsb'_toNat, Nat.shiftRight_zero, sum]
    omega
  · refine Fin.ext ?_
    show ((a + BitVec.ofNat 64 i).extractLsb' 19 4).toNat = (a.extractLsb' 19 4).toNat
    rw [BitVec.extractLsb'_toNat, BitVec.extractLsb'_toNat, sum, Nat.shiftRight_eq_div_pow, Nat.shiftRight_eq_div_pow]
    omega

theorem maskBytes_length (bs : List Bool) : (maskBytes bs).length = (bs.length + 7) / 8 := bytesLE_length _ _

/-- A bit of a mask. -/
theorem maskBytes_getLsbD {bs : List Bool} {i : Nat} (inside : i < bs.length) :
    ((maskBytes bs).getD (i / 8) 0#8).getLsbD (i % 8) = bs[i] := by
  have bit : (join 1 (bs.map fun b => if b then 1 else 0)).testBit i = bs[i] := by
    have element := join_element 1 (bs.map fun b => if b then 1 else 0) i
    rw [List.getD_eq_getElem _ _ (by rwa [List.length_map]), List.getElem_map, Nat.one_mul, Nat.pow_one] at element
    rw [Nat.testBit_eq_decide_div_mod_eq, element]
    cases bs[i] <;> rfl
  unfold maskBytes
  rw [bytesLE_eq_map, getD_map_range, if_pos (by omega), BitVec.getLsbD_ofNat, show (256 : Nat) = 2 ^ 8 from rfl, ← Nat.pow_mul, ← Nat.shiftRight_eq_div_pow,
    Nat.testBit_shiftRight, show 8 * (i / 8) + i % 8 = i by omega, bit]
  rw [decide_eq_true (by omega : i % 8 < 8), Bool.true_and]

section
variable {s : State} {k : Copy}

/-- The bytes of an area at AUX in the own scratchpad. -/
theorem State.putAux_read (unmapped : s.car.eng.stash = []) (place : k.wd.sp = true) (bs : List Byte) (near : haWindow k.wd.aux = 0)
    (fits : haByte k.wd.aux + bs.length ≤ 2 ^ 19) {i : Nat} (inside : i < bs.length) :
    (s.putAux k bs).1.car.spad.read (haByte k.wd.aux + i) = bs.getD i 0#8 := by
  have wrote := State.writes_putAux unmapped place bs fun i hi => (haByte_add (by omega)).2.trans near
  rw [wrote.read]
  refine Mem.puts_apart (w := (haByte k.wd.aux + i, [bs[i]])) (j := 0) ?_ (List.mem_map.mpr ⟨(bs[i], i), ?_, ?_⟩) (by simp) |>.trans ?_
  · rw [List.pairwise_map, List.pairwise_iff_getElem]
    intro i j hi hj before
    rw [List.length_zipIdx] at hi hj
    rw [List.getElem_zipIdx, List.getElem_zipIdx, Nat.zero_add, Nat.zero_add]
    dsimp only [List.length_singleton]
    rw [(haByte_add (by omega)).1, (haByte_add (by omega)).1]
    omega
  · rw [List.mk_mem_zipIdx_iff_getElem?]
    exact List.getElem?_eq_getElem inside
  · dsimp only
    rw [(haByte_add (by omega)).1]
  · rw [List.getD_eq_getElem _ _ inside]
    rfl

end

theorem Lossy.mem_missing {x : Lossy} {i : Nat} : i ∈ x.missing ↔ i < x.blocks ∧ i ∉ x.arrived := by
  rw [Lossy.missing, List.mem_filter, List.mem_range, Bool.not_eq_true', List.contains_eq_mem, decide_eq_false_iff_not]

/-- When a transfer closes (R411, R412). -/
theorem Copy.closes_iff {k : Copy} {x : Lossy} {now : Nat} : k.closes x now = true ↔ (∀ i < x.blocks, i ∈ x.arrived) ∨
    ((∃ m, x.marker = some m ∧ m + k.lslack.toNat * 2000 ≤ now) ∧ ∀ i < x.blocks, i ∉ x.arrived → ∃ e ∈ x.crosses, e.1 = i) := by
  unfold Copy.closes
  rw [Bool.or_eq_true, Bool.and_eq_true]
  refine or_congr ?_ (and_comm.trans (and_congr ?_ ?_))
  · rw [List.isEmpty_iff, List.eq_nil_iff_forall_not_mem]
    exact forall_congr' fun i => by rw [Lossy.mem_missing]; tauto
  · cases x.marker with
    | none => simp
    | some t =>
      refine Iff.trans decide_eq_true_iff ?_
      simp only [Copy.deadline, Config.usCycles, Option.some.injEq, exists_eq_left']
  · simp only [List.all_eq_true, List.any_eq_true, beq_iff_eq, Lossy.mem_missing, and_imp]

section
variable {s : State} {k : Copy} {x : Lossy} {n : Nat} (found : s.car.copyOf n = some k) (lossy : s.dev.lossyOf s.car.ref n = some x)
  (op : k.op = .ccpy) (running : k.state = .running)

theorem State.lossyOpen_of_ccpy (op : k.op = .ccpy) (s : State) : s.lossyOpen k = s := by
  have own : k.lossyMove = false := by rw [Copy.lossyMove, op]; simp
  rw [State.lossyOpen, own, Bool.and_false]
  rfl

include found lossy

theorem exec_completionNotice : exec (.completionNotice s.car.ref n) s = .next
    (if !x.closed || k.op != .ccpy || k.state != .running || s.enginesPaused || !s.relReady k then s else s.endLossy k x) := by
  refine (State.at_focused s _).trans (congrArg Host.Outcome.next ?_)
  rw [found]
  dsimp only
  rw [lossy]

theorem exec_lossyClose : exec (.lossyClose s.car.ref n) s = .next
    (if x.closed || !k.closes x s.now || k.state != .running || k.void || s.enginesPaused then s
     else match (s.zeroBlocks k x.missing).2 with
       | some f => (s.zeroBlocks k x.missing).1.faultCopy k (k.rowOf f.1) f.2
       | none => (s.zeroBlocks k x.missing).1.mapDev (fun d => d.setLossy { x with closed := true })) := by
  refine (State.at_focused s _).trans (congrArg Host.Outcome.next ?_)
  rw [found]
  dsimp only
  rw [lossy] <;> rfl

include op running

theorem exec_endMarkerArrival (strict : k.lossy = true) : exec (.endMarkerArrival s.car.ref n) s = .next
    (if !s.acqReady k || x.marker.isSome then s else s.mapDev (fun d => d.setLossy { x with marker := some d.now, count := some x.blocks })) := by
  refine (State.at_focused s _).trans (congrArg Host.Outcome.next ?_)
  rw [found]
  dsimp only
  rw [strict, running, op, State.lossyOpen_of_ccpy op]
  cases s.acqReady k with
  | false => rfl
  | true =>
    show (match s.dev.lossyOf s.car.ref n with
      | none => s
      | some x => if x.marker.isSome then s else s.mapDev (fun d => d.setLossy { x with marker := some d.now, count := some x.blocks })) = _
    rw [lossy] <;> rfl

theorem exec_lossyBlockArrival (some_ : k.void = false) (on : s.enginesPaused = false) (b : Nat) : exec (.lossyBlockArrival s.car.ref n b) s = .next
    (if x.closed || x.arrived.contains b || x.lost.contains b || decide (x.blocks ≤ b) || !s.acqReady k then s
     else match (s.moveElems k (k.blockElems b).2 (k.blockElems b).1).2 with
       | none => (s.moveElems k (k.blockElems b).2 (k.blockElems b).1).1.mapDev (fun d => d.setLossy { x with arrived := x.arrived ++ [b] })
       | some f =>
         let q := (s.moveElems k (k.blockElems b).2 (k.blockElems b).1).1.blocksArrive k (x.missing.filter (fun c => decide (c < b)))
         (q.1.mapDev (fun d => d.setLossy { x with arrived := x.arrived ++ x.missing.filter (fun c => decide (c < b)) })).faultCopy k
           (k.rowOf (q.2.getD f).1) (q.2.getD f).2) := by
  have sent : s.blockSent k b = true := by rw [State.blockSent, op]; rfl
  have arrives : s.blockArrives k b = s.moveElems k (k.blockElems b).2 (k.blockElems b).1 := if_pos op
  refine (State.at_focused s _).trans (congrArg Host.Outcome.next ?_)
  rw [found]
  dsimp only
  rw [State.lossyOpen_of_ccpy op, lossy]
  dsimp only
  rw [sent, running, some_, on, arrives]
  simp only [Bool.not_true, Bool.or_false, bne_self_eq_false] <;> rfl

end

end Sys2Proof.Machine

namespace Sys2Proof.Machine
open Sys2Proof.Claims

/-! Lossy transfers between scratchpads (R236, R239, R411 to R413). -/

section
variable {n : Nat} {k : Copy} {x : Lossy} {s : State}

/-- The record that a placed state holds of a transfer, once it is changed. -/
theorem State.Placed.lossyOf_setLossy {t : State} {y : Lossy} (h : s.Placed t) (lossy : s.dev.lossyOf s.car.ref n = some x)
    (car : y.car = x.car) (num : y.num = x.num) : (t.dev.setLossy y).lossyOf s.car.ref n = some y := by
  obtain ⟨mine, number⟩ := Device.lossyOf_name lossy
  rw [← mine, ← number, ← car, ← num]
  refine Device.lossyOf_setLossy (y := x) ?_
  rw [car, num, mine, number, Device.lossyOf_congr h.fab, lossy]

end

section
variable {n b : Nat} {k : Copy} {x : Lossy} {s : State} (found : s.car.copyOf n = some k) (lossy : s.dev.lossyOf s.car.ref n = some x)
  (op : k.op = .ccpy) (running : k.state = .running) (full : k.void = false) (on : s.enginesPaused = false)
include found lossy op running full on

/-- A block that comes is written and noted. -/
theorem exec_lossyBlockArrival_of_comes (source : k.ws.sp = true) (dest : k.wd.sp = true) (ready : s.acqReady k = true) (opened : x.closed = false)
    (new : b ∉ x.arrived) (kept : b ∉ x.lost) (real : b < x.blocks) :
    exec (.lossyBlockArrival s.car.ref n b) s = .next ((s.moveElems k (k.blockElems b).2 (k.blockElems b).1).1.mapDev
      (fun d => d.setLossy { x with arrived := x.arrived ++ [b] })) := by
  rw [exec_lossyBlockArrival found lossy op running full on, if_neg, (State.placed_moveElems dest source _ _ s).2]
  simp [ready, opened, new, kept, real]

end

theorem lossyTransfersClose : LossyTransfersClose := by
  intro n b k x s found lossy op strict running full on source dest r z per src dst inside ripe
  have number := Car.num_of_copyOf found
  obtain ⟨mine, named⟩ := Device.lossyOf_name lossy
  refine ⟨fun ready opened new kept real => ?_, fun stops => ?_, fun ready unmarked => ?_, fun stops => ?_, fun opened due => ?_, fun stops => ?_,
    fun shut ready => ?_, fun stops => ?_⟩
  · have moved := (State.placed_moveElems dest source (k.blockElems b).2 (k.blockElems b).1 s).1
    refine ⟨_, exec_lossyBlockArrival_of_comes found lossy op running full on source dest ready opened new kept real, moved.regs,
      moved.lossyOf_setLossy lossy rfl rfl, fun ⟨free, near⟩ unmapped size apart => ?_⟩
    obtain ⟨y, eq, holds, stands⟩ := State.moveElems_own source unmapped dest size (k.blockElems b).2 (k.blockElems b).1 s free
      (fun m low high => near m (k.blockElems_le low high))
      (fun i low high j low' high' => apart i (k.blockElems_le low high) j (k.blockElems_le low' high'))
    rw [eq]
    refine ⟨fun m hm here j hj => ?_, fun a outside => stands a fun m low high => ?_⟩
    · obtain ⟨low, high⟩ := (k.mem_blockElems hm).mp here
      exact holds m low high j hj
    · have hm := k.blockElems_le low high
      exact outside m hm ((k.mem_blockElems hm).mpr ⟨low, high⟩)
  · rw [exec_lossyBlockArrival found lossy op running full on, if_pos]
    simp only [Bool.or_eq_true, decide_eq_true_eq, List.contains_iff_mem, Bool.not_eq_true']
    tauto
  · refine ⟨_, (exec_endMarkerArrival found lossy op running strict).trans (congrArg Host.Outcome.next (if_neg ?_)), rfl, rfl, rfl,
      (State.Placed.refl s).lossyOf_setLossy lossy rfl rfl⟩
    rw [ready, unmarked]
    decide
  · rw [exec_endMarkerArrival found lossy op running strict, if_pos]
    rcases stops with early | marked
    · rw [early]
      rfl
    · rw [Option.isSome_iff_ne_none.mpr marked, Bool.or_true]
  · obtain ⟨zeroed, well⟩ := State.placed_zeroBlocks dest x.missing s
    have run : exec (.lossyClose r n) s = .next ((s.zeroBlocks k x.missing).1.mapDev (fun d => d.setLossy { x with closed := true })) := by
      rw [exec_lossyClose found lossy, if_neg, well]
      rw [opened, Copy.closes_iff.mpr due, running, full, on]
      decide
    refine ⟨_, run, zeroed.regs, zeroed.lossyOf_setLossy lossy rfl rfl, fun ⟨free, near⟩ i hi away m hm here j hj => ?_⟩
    exact State.zeroBlocks_read dest near x.missing s free hm (here ▸ Lossy.mem_missing.mpr ⟨hi, away⟩) hj
  · rw [exec_lossyClose found lossy, if_pos]
    rcases stops with shut | early
    · rw [shut]
      rfl
    · rw [Bool.eq_false_iff.mpr (mt Copy.closes_iff.mp early)]
      simp
  · obtain ⟨u, placed, is, regs, gone, spad, dropped⟩ := s.endLossy_spec k x dest
    rw [number] at gone
    rw [mine, named] at dropped
    have run : exec (.completionNotice r n) s = .next (s.endLossy k x) := by
      rw [exec_completionNotice found lossy, if_neg]
      rw [shut, op, running, on, ready]
      decide
    refine ⟨_, run, regs, gone, dropped, fun writes free near fits i hi => ?_⟩
    have length : x.mask.length = x.blocks := by rw [Lossy.mask, List.length_map, List.length_range]
    rw [writes, if_pos rfl] at is
    rw [spad, is, State.putAux_read free dest _ near (by rwa [maskBytes_length, length]) (by rw [maskBytes_length, length]; omega),
      maskBytes_getLsbD (by omega)]
    unfold Lossy.mask
    rw [List.getElem_map, List.getElem_range, List.contains_eq_mem]
  · rw [exec_completionNotice found lossy, if_pos]
    rcases stops with opened | early
    · rw [opened]
      rfl
    · rw [early]
      simp

end Sys2Proof.Machine

namespace Sys2Proof.Machine
open Sys2Proof.Claims

/-! Notices of issue (R422). -/

section
variable (d : Device) (g k : Nat)

/-- What has left stays so. -/
theorem Device.outbox_sendFlits (p pkg n : Nat) (d : Device) : ∀ y ∈ d.outbox, y ∈ (d.sendFlits p pkg n).outbox := by
  induction n generalizing d with
  | zero => exact fun _ => id
  | succ n ih => exact fun y hy => ih ((d.mapPort p (fun x => x.keepFlit pkg)).emit [.flit p (d.fab.port p).txSeq]) y (List.mem_append_left _ hy)

theorem Device.outbox_sendOut (w : Way) (pkg n : Nat) (c : Bool) (d : Device) : ∀ y ∈ d.outbox, y ∈ (d.sendOut w pkg n c).outbox := by
  intro y hy
  unfold Device.sendOut
  split
  · refine Device.outbox_sendFlits _ _ _ _ y ?_
    split
    · exact List.mem_append_left _ hy
    · exact hy
  · exact hy

theorem Device.sendAll_outbox {α : Type} (w : Device → α → Way) (pkg n : α → Nat) (o : α → Output) (xs : List α) (d : Device) :
    let e := xs.foldl (fun d x => (d.sendOut (w d x) (pkg x) (n x) false).emit [o x]) d
    (∀ y ∈ d.outbox, y ∈ e.outbox) ∧ ∀ x ∈ xs, o x ∈ e.outbox := by
  induction xs generalizing d with
  | nil => exact ⟨fun _ => id, fun _ hx => absurd hx List.not_mem_nil⟩
  | cons x xs ih =>
    obtain ⟨old, sent⟩ := ih ((d.sendOut (w d x) (pkg x) (n x) false).emit [o x])
    have keeps (y : Output) (hy : y ∈ d.outbox) : y ∈ ((d.sendOut (w d x) (pkg x) (n x) false).emit [o x]).outbox :=
      List.mem_append_left _ (d.outbox_sendOut _ _ _ _ y hy)
    refine ⟨fun y hy => old y (keeps y hy), fun y hy => ?_⟩
    rcases List.mem_cons.mp hy with rfl | later
    · exact old _ (List.mem_append_right _ (List.mem_singleton_self _))
    · exact sent y later

/-- A collective is the k-th one on a group. -/
def Coll.is (g k : Nat) (x : Coll) : Bool := x.group == g && x.k == k

theorem Coll.is_iff {g k : Nat} {x : Coll} : x.is g k = true ↔ x.group = g ∧ x.k = k := by
  rw [Coll.is, Bool.and_eq_true, beq_iff_eq, beq_iff_eq]

/-- What may leave for other packages leaves, and is noted as sent; else nothing changes of the collectives (R422, R423). -/
theorem Device.flushColl_spec : (∃ l, (d.flushColl g k).fab.colls = d.fab.colls.map (fun y => if y.is g k then { y with sent := y.sent ++ l } else y)) ∧
    (d.flushColl g k).mem = d.mem ∧ (∀ o ∈ d.outbox, o ∈ (d.flushColl g k).outbox) ∧
    ∀ x, d.fab.colls.find? (fun y => y.is g k) = some x → ∀ m ∈ d.collOut x, m.2 ∉ x.sent → .coll g k m.2 ∈ (d.flushColl g k).outbox := by
  have mem := (d.flushColl_frame g k).2.1
  have named : (fun y : Coll => y.is g k) = fun y : Coll => y.group == g && y.k == k := rfl
  unfold Device.flushColl at mem ⊢
  rw [named]
  split at mem
  · next none =>
    rw [none]
    refine ⟨⟨[], (List.map_id _).symm.trans (List.map_congr_left fun y _ => ?_)⟩, mem, fun _ => id, fun x found => by cases found⟩
    split
    · rw [List.append_nil]
      rfl
    · rfl
  · next x found =>
    rw [found]
    dsimp only at mem ⊢
    obtain ⟨old, sent⟩ := Device.sendAll_outbox (fun d m => d.wayTo m.1 false) (fun m : Nat × CollMsg => m.1)
      (fun m => m.2.flits (x.parts.any (fun p => p.lossy))) (fun m => .coll g k m.2) ((d.collOut x).filter (fun m => !x.sent.contains m.2))
      { d with fab := { d.fab with colls := d.fab.colls.map (fun y =>
        if y.group == g && y.k == k then { y with sent := y.sent ++ ((d.collOut x).filter (fun m => !x.sent.contains m.2)).map (fun m => m.2) } else y) } }
    obtain ⟨colls, -, -⟩ := Device.sendAll_frame (fun d m => d.wayTo m.1 false) (fun m : Nat × CollMsg => m.1)
      (fun m => m.2.flits (x.parts.any (fun p => p.lossy))) (fun m => [.coll g k m.2]) ((d.collOut x).filter (fun m => !x.sent.contains m.2))
      { d with fab := { d.fab with colls := d.fab.colls.map (fun y =>
        if y.group == g && y.k == k then { y with sent := y.sent ++ ((d.collOut x).filter (fun m => !x.sent.contains m.2)).map (fun m => m.2) } else y) } }
    refine ⟨⟨_, colls⟩, mem, old, fun y this m out new => sent m (List.mem_filter.mpr ?_)⟩
    obtain rfl := Option.some.inj this
    exact ⟨out, by rw [List.contains_eq_mem, decide_eq_false new]; rfl⟩

end

/-- A collective with a notice of a rank kept. -/
def Coll.noted (n : Nat × Nat × Bool) (x : Coll) : Coll := { x with notices := x.notices.filter (fun m => m.1 != n.1) ++ [n] }

theorem Coll.mem_noted (n : Nat × Nat × Bool) (x : Coll) : n ∈ (x.noted n).notices := List.mem_append_right _ (List.mem_singleton_self n)

/-- The fabric with a collective of a name. -/
def Fabric.withColl (f : Fabric) (g k : Nat) : Fabric :=
  if f.colls.any (fun x => x.group == g && x.k == k) then f else { f with colls := f.colls ++ [{ group := g, k := k }] }

/-- The fabric with a notice kept. -/
def Fabric.noted (f : Fabric) (g k : Nat) (n : Nat × Nat × Bool) : Fabric :=
  { f.withColl g k with colls := (f.withColl g k).colls.map (fun x => if x.group == g && x.k == k then x.noted n else x) }

theorem exec_noticeOfIssue (g k rank count : Nat) (lossy : Bool) (s : State) : exec (.noticeOfIssue g k rank count lossy) s =
    .next (s.mapDev (fun d => { d with fab := d.fab.noted g k (rank, count, lossy) }.flushColl g k)) := rfl

section
variable {f : Fabric} {g k : Nat}

theorem Fabric.exists_withColl (f : Fabric) (g k : Nat) : ∃ y ∈ (f.withColl g k).colls, y.is g k = true := by
  unfold Fabric.withColl
  split
  · next there =>
    obtain ⟨x, member, same⟩ := List.any_eq_true.mp there
    exact ⟨x, member, same⟩
  · exact ⟨_, List.mem_append_right _ (List.mem_singleton_self _), Coll.is_iff.mpr ⟨rfl, rfl⟩⟩

theorem Fabric.withColl_of_found {x : Coll} (found : f.colls.find? (fun y => y.is g k) = some x) : f.withColl g k = f :=
  if_pos (List.any_eq_true.mpr ⟨x, List.mem_of_find?_eq_some found, List.find?_some (p := fun y : Coll => y.is g k) found⟩)

theorem Fabric.noted_groups (n : Nat × Nat × Bool) : (f.noted g k n).groups = f.groups := by
  unfold Fabric.noted Fabric.withColl
  split <;> rfl

theorem Fabric.mem_withColl {y : Coll} (hy : y ∈ (f.withColl g k).colls) (other : ¬ y.is g k = true) : y ∈ f.colls := by
  unfold Fabric.withColl at hy
  split at hy
  · exact hy
  · rcases List.mem_append.mp hy with old | new
    · exact old
    · exact absurd (Coll.is_iff.mpr (by rw [List.mem_singleton.mp new]; exact ⟨rfl, rfl⟩)) other

/-- The collective of a name after a change that keeps names. -/
theorem find?_mapColl {xs : List Coll} {x : Coll} {h : Coll → Coll} (found : xs.find? (fun y => y.is g k) = some x)
    (names : ∀ y, y.is g k = true → (h y).is g k = true) :
    (xs.map (fun y => if y.is g k then h y else y)).find? (fun y => y.is g k) = some (h x) := by
  have same (y : Coll) : (if y.is g k then h y else y).is g k = y.is g k := by
    split
    · next this => rw [names y this, this]
    · rfl
  have names' : ((fun y : Coll => y.is g k) ∘ fun y => if y.is g k = true then h y else y) = fun y => y.is g k := funext same
  rw [List.find?_map, names', found, Option.map_some, if_pos (List.find?_some (p := fun y : Coll => y.is g k) found)]

end

/-! What is held back for a rank that has issued (R422, R423). -/

section
variable {d : Device} {x : Coll} {p : Contribution} {rank pkg : Nat}

theorem Device.mem_collOut (hp : p ∈ x.parts) (own : p.car.isSome = true) (given : p.given = true) (opened : p.reach = none)
    (issued : rank ∈ x.notices.map (fun n => n.1)) (to_ : (d.group x.group).pkgOf rank = some pkg) :
    (p.op ≠ .crdx → p.data ≠ [] → (pkg, CollMsg.part p.rank rank 0 p.data) ∈ d.collOut x) ∧
    (p.op = .crdx → ∀ b, 32 * b < p.count → b % (d.group x.group).ranks = rank →
      (pkg, CollMsg.part p.rank rank b ((p.data.drop (32 * b)).take 32)) ∈ d.collOut x) := by
  have far : rank ∈ (x.notices.map (fun n => n.1) ++ (x.parts.filter (fun p => p.car.isNone)).map Contribution.rank).eraseDups :=
    List.mem_eraseDups.mpr (List.mem_append_left _ issued)
  have part {m : Nat × CollMsg} (out : m ∈ (if !p.given || p.reach.isSome then [] else if p.op = .crdx then
          (List.range ((p.count + 31) / 32)).filterMap (fun b =>
            if (x.notices.map (fun n => n.1) ++ (x.parts.filter (fun p => p.car.isNone)).map Contribution.rank).eraseDups.contains (b % (d.group x.group).ranks) then
              ((d.group x.group).pkgOf (b % (d.group x.group).ranks)).map (fun q => (q, CollMsg.part p.rank (b % (d.group x.group).ranks) b ((p.data.drop (32 * b)).take 32)))
            else none)
        else if p.data.isEmpty then [] else
          (x.notices.map (fun n => n.1) ++ (x.parts.filter (fun p => p.car.isNone)).map Contribution.rank).eraseDups.filterMap
            (fun r => ((d.group x.group).pkgOf r).map (fun q => (q, CollMsg.part p.rank r 0 p.data))))) : m ∈ d.collOut x :=
    List.mem_append_left _ (List.mem_flatMap.mpr ⟨p, List.mem_filter.mpr ⟨hp, own⟩, List.mem_append_right _ out⟩)
  have free : ¬ (!p.given || p.reach.isSome) = true := by rw [given, opened]; decide
  refine ⟨fun other full => part ?_, fun crdx b inside owner => part ?_⟩
  · rw [if_neg free, if_neg other, if_neg (by rwa [List.isEmpty_iff])]
    exact List.mem_filterMap.mpr ⟨rank, far, by rw [to_]; rfl⟩
  · rw [if_neg free, if_pos crdx]
    refine List.mem_filterMap.mpr ⟨b, List.mem_range.mpr (by omega), ?_⟩
    rw [owner, if_pos (List.contains_iff_mem.mpr far), to_]
    rfl

end

theorem noticesOfIssueRelease : NoticesOfIssueRelease := by
  intro g kth rank count lossy s
  let e : Device := { s.dev with fab := s.dev.fab.noted g kth (rank, count, lossy) }
  obtain ⟨⟨l, colls⟩, mem, old, sent⟩ := e.flushColl_spec g kth
  have isKept (y : Coll) : ((if y.is g kth then { y with sent := y.sent ++ l } else y).is g kth) = y.is g kth := by split <;> rfl
  refine ⟨_, exec_noticeOfIssue g kth rank count lossy s, rfl, rfl, mem, ?_, fun y hy other => ?_, old, fun x p found hp own present ready opened to_ => ?_⟩
  · obtain ⟨y, hy, is⟩ := s.dev.fab.exists_withColl g kth
    refine ⟨{ y.noted (rank, count, lossy) with sent := y.sent ++ l }, ?_, (Coll.is_iff.mp is).1, (Coll.is_iff.mp is).2, y.mem_noted _⟩
    show _ ∈ (e.flushColl g kth).fab.colls
    rw [colls]
    exact List.mem_map.mpr ⟨y.noted (rank, count, lossy), List.mem_map.mpr ⟨y, hy, if_pos is⟩, if_pos is⟩
  · change y ∈ (e.flushColl g kth).fab.colls at hy
    rw [colls] at hy
    obtain ⟨v, hv, rfl⟩ := List.mem_map.mp hy
    obtain ⟨w, hw, rfl⟩ := List.mem_map.mp hv
    have apart : ¬ w.is g kth = true := fun is => by
      refine other (Coll.is_iff.mp ?_)
      rw [isKept]
      show (if w.is g kth then w.noted _ else w).is g kth = true
      rw [if_pos is]
      exact is
    show (if (if w.is g kth then w.noted _ else w).is g kth then _ else (if w.is g kth then w.noted _ else w)) ∈ _
    rw [if_neg apart, if_neg apart]
    exact Fabric.mem_withColl hw apart
  · have is := Coll.is_iff.mp (List.find?_some (p := fun y : Coll => y.is g kth) found)
    have noted : e.fab.colls.find? (fun y => y.is g kth) = some (x.noted (rank, count, lossy)) := by
      show (((s.dev.fab.withColl g kth).colls.map (fun x => if x.is g kth then x.noted (rank, count, lossy) else x))).find? _ = _
      rw [Fabric.withColl_of_found found]
      exact find?_mapColl (h := Coll.noted (rank, count, lossy)) found fun y hy => hy
    obtain ⟨pkg, to_⟩ := Option.isSome_iff_exists.mp to_
    have given : p.given = true := by rw [Contribution.given, present, ready]; rfl
    have issued : rank ∈ (x.noted (rank, count, lossy)).notices.map (fun n => n.1) := List.mem_map.mpr ⟨_, x.mem_noted _, rfl⟩
    have group : e.group g = s.dev.group g := congrArg (fun t => Tab.get _ t g) (Fabric.noted_groups (rank, count, lossy))
    have route : (e.group (x.noted (rank, count, lossy)).group).pkgOf rank = some pkg := by
      rw [show (x.noted (rank, count, lossy)).group = g from is.1, group]
      exact to_
    obtain ⟨moves, reduces⟩ := Device.mem_collOut (d := e) (x := x.noted (rank, count, lossy)) hp own given opened issued route
    refine ⟨fun other full new => sent _ noted _ (moves other full) new, fun crdx b inside owner new => sent _ noted _ (reduces crdx b inside ?_) new⟩
    rw [show (x.noted (rank, count, lossy)).group = g from is.1, group]
    exact owner

end Sys2Proof.Machine

namespace Sys2Proof.Machine
open Sys2Proof.Claims

/-! Blocks of a reduction (R252, R423). -/

theorem filterMap_isSome {α β : Type} (f : α → Option β) (xs : List α) : (xs.filter (fun x => (f x).isSome)).filterMap f = xs.filterMap f := by
  rw [List.filterMap_filter]
  refine List.filterMap_congr fun x _ => ?_
  cases f x <;> rfl

theorem length_filter_isSome {α β : Type} (f : α → Option β) (xs : List α) : (xs.filter (fun x => (f x).isSome)).length = (xs.filterMap f).length := by
  rw [List.length_filterMap_eq_countP, List.countP_eq_length_filter]

section
variable (d : Device) (k : Copy) {x : Coll}

theorem Device.collOf_eq : d.collOf k = d.fab.colls.find? (fun y => y.is k.wd.group k.key) := rfl

/-- A collective that is changed under its name. -/
theorem Device.collOf_mapColl {f : Coll → Coll} (found : d.collOf k = some x) (names : ∀ y : Coll, y.is k.wd.group k.key = true → (f y).is k.wd.group k.key = true) :
    (d.mapColl k f).collOf k = some (f x) :=
  find?_mapColl (h := f) found names

/-- Of a collective only what has been sent changes when messages leave. -/
theorem Device.collOf_flushColl (found : d.collOf k = some x) : ∃ l, (d.flushColl k.wd.group k.key).collOf k = some { x with sent := x.sent ++ l } := by
  obtain ⟨l, colls⟩ := (d.flushColl_spec k.wd.group k.key).1
  refine ⟨l, ?_⟩
  rw [Device.collOf_eq, colls]
  exact find?_mapColl (h := fun y => { y with sent := y.sent ++ l }) found fun y hy => hy

end

/-- What an owner's close does to a collective: the block stands closed, and has come to ranks. -/
def Coll.withBlock (z : Reduced) (to_ : List Nat) (b : Nat) (x : Coll) : Coll :=
  { x with closed := x.closed ++ [z], blocks := x.blocks ++ to_.map (fun q => (q, b)) }

/-- A block closes, and its result leaves for other packages. -/
def State.blockCloses (s : State) (k : Copy) (mine : Bool) (fl : Fl) (z : Reduced) (to_ : List Nat) (b : Nat) : State :=
  (s.mapCar (fun c => if mine then c.setFlags fl else c)).mapDev (fun d => (d.mapColl k (Coll.withBlock z to_ b)).flushColl k.wd.group k.key)

section
variable {s : State} {k : Copy} {x : Coll}

theorem State.blockCloses_spec (coll : s.dev.collOf k = some x) (mine : Bool) (fl : Fl) (z : Reduced) (to_ : List Nat) (b : Nat) :
    let t := s.blockCloses k mine fl z to_ b
    t.car.regs = s.car.regs ∧ t.peers = s.peers ∧ t.dev.mem = s.dev.mem ∧
    t.car.ctl.vflags = (if mine then s.car.ctl.vflags ||| fl else s.car.ctl.vflags) ∧
    ∃ y, t.dev.collOf k = some y ∧ y.parts = x.parts ∧ y.closed = x.closed ++ [z] ∧ ∀ q ∈ to_, (q, b) ∈ y.blocks := by
  have changed := s.dev.collOf_mapColl k (f := Coll.withBlock z to_ b) coll fun y hy => hy
  obtain ⟨l, left⟩ := Device.collOf_flushColl (s.dev.mapColl k (Coll.withBlock z to_ b)) k changed
  have mem := ((s.dev.mapColl k (Coll.withBlock z to_ b)).flushColl_spec k.wd.group k.key).2.1
  have car : (if mine then s.car.setFlags fl else s.car).regs = s.car.regs ∧
      (if mine then s.car.setFlags fl else s.car).ctl.vflags = (if mine then s.car.ctl.vflags ||| fl else s.car.ctl.vflags) := by
    cases mine <;> exact ⟨rfl, rfl⟩
  refine ⟨car.1, rfl, mem, car.2, _, left, rfl, rfl, fun q hq => List.mem_append_right _ (List.mem_map_of_mem hq)⟩

variable {n b me : Nat} {ps : List (Nat × List Word)} (found : s.car.copyOf n = some k) (coll : s.dev.collOf k = some x) (running : k.state = .running)
  (op : k.op = .crdx) (full : k.void = false) (on : s.enginesPaused = false) (ready : s.acqReady k = true) (rank : s.myRank k = me)
  (inside : 32 * b < k.wd.count)

/-- The ranks of a package whose parts an owner may take (R420). -/
def State.ranksOfHere (s : State) (k : Copy) (q : Nat) : Bool := (s.dev.group k.wd.group).pkgOf q == some s.dev.fab.regs.pkgId.toNat

/-- What the owner of a block has of a rank (R423). -/
def State.givenTo (s : State) (k : Copy) (x : Coll) (b : Nat) (ps : List (Nat × List Word)) : Nat → Option (List Nat) :=
  x.given (s.ranksOfHere k) (b % (s.dev.group k.wd.group).ranks) b (min 32 (k.wd.count - 32 * b)) ps

/-- All that the owner of a block has. -/
def State.gotFor (s : State) (k : Copy) (x : Coll) (b : Nat) (ps : List (Nat × List Word)) : List (List Nat) :=
  (List.range (s.dev.group k.wd.group).ranks).filterMap (s.givenTo k x b ps)

/-- The owner of a block may close it. -/
def State.blockDue (s : State) (k : Copy) (x : Coll) (b : Nat) (ps : List (Nat × List Word)) : Bool :=
  s.ownerCloses k x (s.dev.group k.wd.group).ranks (b % (s.dev.group k.wd.group).ranks) (s.gotFor k x b ps).length
    (s.ranksOfHere k (b % (s.dev.group k.wd.group).ranks)) (s.givenTo k x b ps (b % (s.dev.group k.wd.group).ranks)).isSome

/-- The result of a block and its flags. -/
def State.blockResult (s : State) (k : Copy) (x : Coll) (b : Nat) (ps : List (Nat × List Word)) : Reduced × Fl :=
  x.closeBlock (fmtOf s.car.regs.fmt) ((ETy.ofCode k.wd.type).getD .f32) (b % (s.dev.group k.wd.group).ranks) b (min 32 (k.wd.count - 32 * b))
    (s.givenTo k x b ps) (s.dev.group k.wd.group).ranks

theorem State.blockResult_spec (s : State) (k : Copy) (x : Coll) (b : Nat) (ps : List (Nat × List Word)) :
    let res := crdxBlock (fmtOf s.car.regs.fmt) ((ETy.ofCode k.wd.type).getD .f32) (min 32 (k.wd.count - 32 * b)) (s.gotFor k x b ps)
    let z := (s.blockResult k x b ps).1
    z.owner = b % (s.dev.group k.wd.group).ranks ∧ z.block = b ∧ z.vals = res.1.map (fun v => BitVec.ofNat 64 v) ∧
    z.count = (s.gotFor k x b ps).length ∧ (s.blockResult k x b ps).2 = res.2 := by
  have got : ((List.range (s.dev.group k.wd.group).ranks).filter (fun r => (s.givenTo k x b ps r).isSome)).filterMap (s.givenTo k x b ps) =
      s.gotFor k x b ps := filterMap_isSome _ _
  unfold State.blockResult Coll.closeBlock
  dsimp only
  rw [got]
  exact ⟨rfl, rfl, rfl, rfl, rfl⟩

include found coll running op full on ready rank inside

/-- A block of a reduction that is told to close. -/
theorem exec_crdxBlockClose : exec (.crdxBlockClose s.car.ref n b ps) s = .next
    (if x.blocks.contains (me, b) then s
     else if x.closed.any (fun y => y.block == b) then
       (if s.ranksOfHere k (b % (s.dev.group k.wd.group).ranks) then s
        else s.mapDev (fun d => d.mapColl k (fun x => { x with blocks := x.blocks ++ [(me, b)] })))
     else if !s.blockDue k x b ps then s
     else s.blockCloses k (s.ranksOfHere k (b % (s.dev.group k.wd.group).ranks)) (s.blockResult k x b ps).2 (s.blockResult k x b ps).1
       (if s.ranksOfHere k (b % (s.dev.group k.wd.group).ranks) then x.localRanks else [me]) b) := by
  have held := length_filter_isSome (s.givenTo k x b ps) (List.range (s.dev.group k.wd.group).ranks)
  have some_ : decide (k.wd.count ≤ 32 * b) = false := decide_eq_false (by omega)
  refine (State.at_focused s _).trans (congrArg Host.Outcome.next ?_)
  rw [found]
  dsimp only
  rw [coll]
  dsimp only
  rw [op, running, some_, full, on, ready, rank]
  simp only [bne_self_eq_false, Bool.or_false, Bool.not_true, Bool.false_or]
  unfold State.blockDue
  rw [← show _ = (s.gotFor k x b ps).length from held]
  rfl

end

theorem reductionBlocksClose : ReductionBlocksClose := by
  intro n b ps k x me s found coll running op full on ready rank local_ inside r e owner here len given got res closes
  have mine : s.myRank k = me := by rw [State.myRank, rank]; rfl
  have run := exec_crdxBlockClose (ps := ps) found coll running op full on ready mine inside
  have met : x.blocks.contains (me, b) = true ↔ (me, b) ∈ x.blocks := List.contains_iff_mem
  have stands : x.closed.any (fun y => y.block == b) = true ↔ ∃ y ∈ x.closed, y.block = b := by simp [List.any_eq_true]
  refine ⟨fun came => ?_, fun new closed away => ?_, fun new unclosed due => ?_, fun unclosed early => ?_, fun home all some_ own => ?_⟩
  · rw [run, if_pos (met.mpr came)]
  · rw [run, if_neg (mt met.mp new), if_pos (stands.mpr closed), if_neg (by rw [show s.ranksOfHere k _ = false from away]; decide)]
    exact ⟨_, rfl, rfl, rfl, rfl, _, s.dev.collOf_mapColl k (f := fun x => { x with blocks := x.blocks ++ [(me, b)] }) coll fun y hy => hy, rfl, rfl⟩
  · have apart : ¬ x.closed.any (fun y => y.block == b) = true := fun is => by
      obtain ⟨y, hy, same⟩ := stands.mp is
      exact unclosed y hy same
    rw [run, if_neg (mt met.mp new), if_neg apart, if_neg (by rw [show s.blockDue k x b ps = true from due]; decide)]
    obtain ⟨regs, peers, mem, flags, y, after, parts, closed, came⟩ := State.blockCloses_spec coll (s.ranksOfHere k (b % (s.dev.group k.wd.group).ranks))
      (s.blockResult k x b ps).2 (s.blockResult k x b ps).1 (if s.ranksOfHere k (b % (s.dev.group k.wd.group).ranks) then x.localRanks else [me]) b
    obtain ⟨isOwner, isBlock, vals, count, fl⟩ := s.blockResult_spec k x b ps
    refine ⟨_, rfl, regs, peers, mem,
      flags.trans (congrArg (fun fl => if here owner then s.car.ctl.vflags ||| fl else s.car.ctl.vflags) fl), y, _, after, parts, closed, isOwner, isBlock, vals, count, came me ?_, fun home q hq => came q ?_⟩
    · split
      · exact local_
      · exact List.mem_singleton_self me
    · rw [if_pos (show s.ranksOfHere k owner = true from home)]
      exact hq
  · by_cases came : (me, b) ∈ x.blocks
    · rw [run, if_pos (met.mpr came)]
    · have apart : ¬ x.closed.any (fun y => y.block == b) = true := fun is => by
        obtain ⟨y, hy, same⟩ := stands.mp is
        exact unclosed y hy same
      rw [run, if_neg (mt met.mp came), if_neg apart, if_pos (by rw [show s.blockDue k x b ps = false from early]; decide)]
  · have each : ∀ q ∈ List.range e.ranks, (given q).isSome = true := fun q hq => by
      obtain ⟨p, part, near⟩ := all q (List.mem_range.mp hq)
      show (x.given here owner b len ps q).isSome = true
      unfold Coll.given
      rw [part]
      dsimp only
      rw [near, home, if_pos (by rfl)]
      rfl
    have length : got.length = e.ranks := by
      rw [show got.length = _ from (length_filter_isSome given _).symm, List.filter_eq_self.mpr each, List.length_range]
    refine ⟨?_, length⟩
    show s.ownerCloses k x e.ranks owner got.length (here owner) (given owner).isSome = true
    unfold State.ownerCloses
    rw [if_neg (by omega), if_pos home, mine, own, length]
    simp

end Sys2Proof.Machine

namespace Sys2Proof.Machine
open Sys2Proof.Claims

/-! How a collective ends at a rank whose destination is a scratchpad (R251 to R254). -/

section
variable {s : State} {k : Copy} {x : Coll}

/-- A result that is written to scratchpads: the flag is posted and the number is free. -/
theorem State.writeOutcome_spec (place : k.wd.sp = true) (s : State) (o : Outcome) :
    (s.writeOutcome k o).car.regs = (s.car.post k.flag 1).regs ∧ (s.writeOutcome k o).car.copyOf k.num = none ∧
    (k.wd.auxen = false → (s.writeOutcome k o).car.spad = (s.putVals k 0 o.vals).1.car.spad) := by
  obtain ⟨put, well⟩ := State.placed_putVals place o.vals 0 s
  unfold State.writeOutcome
  dsimp only
  rw [well]
  generalize (s.putVals k 0 o.vals).1 = u at put
  dsimp only
  cases area : (if k.wd.auxen then o.aux else none) with
  | none =>
    obtain ⟨regs, gone⟩ := State.endCopy_of_same (c := s.car) (t := u.mapCar (fun c => c.setFlags o.flags)) k put.regs put.took
    exact ⟨regs, gone, fun _ => ((u.mapCar (fun c => c.setFlags o.flags)).endCopy_spec k).2.2.1⟩
  | some bs =>
    obtain ⟨aux, filled⟩ := State.placed_putAux place (u.mapCar (fun c => c.setFlags o.flags)) bs
    dsimp only
    rw [filled]
    obtain ⟨regs, gone⟩ := State.endCopy_of_same (c := s.car) (t := ((u.mapCar (fun c => c.setFlags o.flags)).putAux k bs).1) k
      (aux.regs.trans put.regs) (aux.took.trans put.took)
    refine ⟨regs, gone, fun none => ?_⟩
    rw [none] at area
    cases area

/-- A member that agrees among members that agree (R251). -/
theorem State.disagrees_of_agreed (agree : ∀ p ∈ x.parts, x.agrees p = true) (accord : x.discord = false) : s.disagrees k x = none := by
  have mine : (x.parts.filter (fun p => p.car == some s.car.ref)).all x.agrees = true :=
    List.all_eq_true.mpr fun p hp => agree p (List.mem_of_mem_filter hp)
  unfold State.disagrees
  dsimp only
  rw [mine, accord]
  rfl

theorem Coll.not_all_mine {r : CarRef} (wrong : ∃ p ∈ x.parts, p.car = some r ∧ x.agrees p = false) :
    (x.parts.filter (fun p => p.car == some r)).all x.agrees = false := by
  obtain ⟨p, hp, own, other⟩ := wrong
  rw [List.all_eq_false]
  exact ⟨p, List.mem_filter.mpr ⟨hp, beq_iff_eq.mpr own⟩, by rw [other]; decide⟩

/-- What a collective brings to a rank whose members all have given their parts (R252, R253). -/
def State.broughtTo (s : State) (k : Copy) (x : Coll) : Outcome :=
  match k.op with
  | .crdx => x.reduction (fmtOf s.car.regs.fmt) ((ETy.ofCode k.wd.type).getD .f32) k.wd.count
  | _ => x.motion k (s.myRank k)

theorem State.finishColl_of_agreed (agree : ∀ p ∈ x.parts, x.agrees p = true) (accord : x.discord = false) (there : ∀ p ∈ x.parts, p.present = true) :
    s.finishColl k x = s.writeOutcome k (s.broughtTo k x) := by
  have whole : x.parts.any (fun p => !p.present) = false := List.any_eq_false.mpr fun p hp => by rw [there p hp]; decide
  unfold State.finishColl State.broughtTo
  rw [State.disagrees_of_agreed agree accord, whole, Bool.and_false, Option.getD_none, if_neg (by decide)]
  cases k.op <;> rfl

/-- A member that disagrees has COPY_FAULT pending (R251). -/
theorem State.collFault_spec (found : s.car.copyOf k.num = some k) : (s.collFault k).car.regs = s.car.regs ∧
    ∃ row a, ((s.collFault k).car.copyOf k.num).map Copy.state = some (.faulted row a) ∧
      .copyFault (BitVec.ofNat 6 k.num) a ∈ (s.collFault k).car.tr.pending := by
  obtain ⟨regs, state, pending⟩ := State.faultCopy_spec (u := s) rfl found 0 (freeWord s.fresh 0)
  exact ⟨regs.1, 0, _, state, pending⟩

theorem State.finishColl_of_wrong (wrong : ∃ p ∈ x.parts, p.car = some s.car.ref ∧ x.agrees p = false) : s.finishColl k x = s.collFault k := by
  unfold State.finishColl State.disagrees
  dsimp only
  rw [Coll.not_all_mine wrong]
  rfl

/-- An empty member that disagrees gives its flag and has COPY_FAULT pending (R251). -/
theorem State.endVoid_of_wrong (coll : s.dev.collOf k = some x) (kind : k.op.isColl = true) (found : s.car.copyOf k.num = some k)
    (wrong : ∃ p ∈ x.parts, p.car = some s.car.ref ∧ x.agrees p = false) :
    (s.endVoid k).car.regs = (if k.iter = 0 then (s.car.post k.flag 1).regs else s.car.regs) ∧
    ∃ row a, ((s.endVoid k).car.copyOf k.num).map Copy.state = some (.faulted row a) ∧
      .copyFault (BitVec.ofNat 6 k.num) a ∈ (s.endVoid k).car.tr.pending := by
  have eq : s.endVoid k = ((if k.iter = 0 then s.mapCar (fun c => c.post k.flag 1) else s).faultCopy k 1 (freeWord s.fresh 0)).tick := by
    unfold State.endVoid
    dsimp only
    refine if_pos ?_
    rw [coll, kind]
    dsimp only
    rw [Coll.not_all_mine wrong] <;> rfl
  rw [eq]
  by_cases first : k.iter = 0
  · rw [if_pos first, if_pos first]
    have held : (s.mapCar (fun c => c.post k.flag 1)).car.copyOf k.num = some k := by
      rw [State.mapCar, Car.copyOf, Car.post_eng]
      exact found
    obtain ⟨regs, state, pending⟩ := State.faultCopy_spec (u := s.mapCar (fun c => c.post k.flag 1)) rfl held 1 (freeWord s.fresh 0)
    exact ⟨regs.1, 1, _, state, pending⟩
  · rw [if_neg first, if_neg first]
    obtain ⟨regs, state, pending⟩ := State.faultCopy_spec (u := s) rfl found 1 (freeWord s.fresh 0)
    exact ⟨regs.1, 1, _, state, pending⟩

/-- An empty member that agrees gives its flag (R251). -/
theorem State.endVoid_of_agreed (coll : s.dev.collOf k = some x) (agree : ∀ p ∈ x.parts, x.agrees p = true) :
    s.endVoid k = (s.endCopy k).sweepColls := by
  have mine : (x.parts.filter (fun p => p.car == some s.car.ref)).all x.agrees = true :=
    List.all_eq_true.mpr fun p hp => agree p (List.mem_of_mem_filter hp)
  unfold State.endVoid
  dsimp only
  refine if_neg ?_
  rw [coll]
  dsimp only
  rw [mine, Bool.not_true, Bool.and_false]
  decide

end

/-! The elements that come (R252, R253). -/

theorem bytesLE_word {n j : Nat} (w : Word) (inside : j < n) : (bytesLE n w.toNat).getD j 0#8 = byteAt w j := by
  rw [bytesLE_eq_map, getD_map_range, if_pos inside]
  apply BitVec.eq_of_toNat_eq
  rw [byteAt, BitVec.extractLsb'_toNat, BitVec.toNat_ofNat, Nat.shiftRight_eq_div_pow, Nat.pow_mul]

theorem bytesLE_nothing (n j : Nat) : (bytesLE n 0).getD j 0#8 = 0#8 := by
  by_cases inside : j < (bytesLE n 0).length
  · rw [List.getD_eq_getElem _ _ inside]
    exact bytesLE_zero n _ (List.getElem_mem _)
  · rw [List.getD_eq_default _ _ (by omega)]

/-- A mask of blocks whose elements all are there. -/
theorem Copy.blockMask_all {k : Copy} {f : Nat → Bool} (all : ∀ m < k.wd.count, f m = true) {m : Nat} (inside : m < k.wd.count) :
    (k.blockMask f).getD (m * k.wd.esz / 256) false = true := by
  have block : m * k.wd.esz / 256 < k.wd.blocks := by
    have grows : (m + 1) * k.wd.esz ≤ k.wd.count * k.wd.esz := Nat.mul_le_mul_right _ inside
    have pos := k.wd.esz_pos
    rw [Nat.add_mul] at grows
    unfold Waybill.blocks
    omega
  unfold Copy.blockMask
  rw [getD_map_range, if_pos block, List.all_eq_true]
  intro i _
  rw [Bool.or_eq_true, decide_eq_true_eq]
  rcases Nat.lt_or_ge (m * k.wd.esz / 256 * (256 / k.wd.esz) + i) k.wd.count with low | high
  · exact .inr (all _ low)
  · exact .inl high

/-- The elements of a gather from ranks that are all there (R253). -/
theorem Coll.motion_gather {k : Copy} {x : Coll} {me : Nat} (op : k.op = .cagt) (all : ∀ m < k.wd.count, (x.moved k me m).isSome = true)
    {m : Nat} (inside : m < k.wd.count) {p : Contribution} (part : x.part (m / k.ws.count) me = some p) :
    ∃ h : m < (x.motion k me).vals.length, ((x.motion k me).vals[m]).1 = (p.data.getD (m % k.ws.count) 0#64).toNat := by
  have length : (x.motion k me).vals.length = k.wd.count := by rw [Coll.motion, List.length_map, List.length_range]
  refine ⟨by omega, ?_⟩
  have origin : k.origin m = (m / k.ws.count, m % k.ws.count) := by rw [Copy.origin, op]
  unfold Coll.motion
  dsimp only
  rw [List.getElem_map, List.getElem_range, if_pos (Copy.blockMask_all all inside), Coll.carried, Coll.moved, origin]
  dsimp only
  rw [part]
  rfl

/-- Blocks of up to 32 elements one after the other: an element of one. -/
theorem flatMap_blocks {α : Type} {f : Nat → List α} {n : Nat} (full : ∀ b, b + 1 < n → (f b).length = 32) {b j : Nat} (block : b < n)
    (inside : j < (f b).length) : ((List.range n).flatMap f)[32 * b + j]? = some (f b)[j] := by
  have length (m : Nat) (all : ∀ b < m, (f b).length = 32) : ((List.range m).flatMap f).length = 32 * m := by
    induction m with
    | zero => rfl
    | succ m ih =>
      rw [List.range_succ, List.flatMap_append, List.length_append, ih fun b hb => all b (by omega), List.flatMap_singleton, all m (by omega)]
      omega
  induction n with
  | zero => omega
  | succ n ih =>
    rw [List.range_succ, List.flatMap_append, List.flatMap_singleton]
    rcases Nat.lt_succ_iff_lt_or_eq.mp block with before | rfl
    · have got := ih (fun b hb => full b (by omega)) before
      obtain ⟨low, -⟩ := List.getElem?_eq_some_iff.mp got
      rw [List.getElem?_append_left low]
      exact got
    · rw [List.getElem?_append_right (by rw [length b fun c hc => full c (by omega)]; omega), length b fun c hc => full c (by omega),
        Nat.add_sub_cancel_left]
      exact List.getElem?_eq_getElem inside

/-- The elements of a block that has reached a rank, or its zeros (R252). -/
def Coll.blockAt (x : Coll) (rank count b : Nat) : List (Nat × BitVec 8) × Nat :=
  match (if x.blocks.contains (rank, b) then x.closed.find? (fun y : Reduced => y.block == b) else none) with
  | some y => (y.vals.zipIdx.map (fun (w : Word × Nat) => (w.1.toNat, if y.marks.contains w.2 then 0xFF#8 else 0#8)), y.count)
  | none => (List.replicate (Nat.min 32 (count - 32 * b)) (0, 0#8), 0)

theorem Coll.closedBlocks_vals (x : Coll) (rank count : Nat) :
    (x.closedBlocks rank count).vals = (List.range ((count + 31) / 32)).flatMap (fun b => (x.blockAt rank count b).1) := by
  unfold Coll.closedBlocks
  exact List.flatMap_map ..

/-- An element of a block. -/
theorem Coll.blockAt_spec {x : Coll} {count : Nat} (whole : ∀ y ∈ x.closed, y.vals.length = min 32 (count - 32 * y.block)) (rank b : Nat) :
    (x.blockAt rank count b).1.length = min 32 (count - 32 * b) ∧
    ∀ j (h : j < (x.blockAt rank count b).1.length), ((x.blockAt rank count b).1[j]).1 =
      (match (if (rank, b) ∈ x.blocks then x.closed.find? (fun y : Reduced => y.block == b) else none) with
      | some y => y.vals.getD j 0#64
      | none => 0#64).toNat := by
  have same : (if x.blocks.contains (rank, b) then x.closed.find? (fun y : Reduced => y.block == b) else none) =
      (if (rank, b) ∈ x.blocks then x.closed.find? (fun y : Reduced => y.block == b) else none) :=
    if_congr List.contains_iff_mem rfl rfl
  unfold Coll.blockAt
  rw [same]
  cases got : (if (rank, b) ∈ x.blocks then x.closed.find? (fun y : Reduced => y.block == b) else none) with
  | none =>
    refine ⟨List.length_replicate, fun j h => ?_⟩
    dsimp only
    rw [List.getElem_replicate]
    rfl
  | some y =>
    have there : x.closed.find? (fun y : Reduced => y.block == b) = some y := by
      split at got
      · exact got
      · cases got
    have length : y.vals.length = min 32 (count - 32 * b) := by
      rw [whole y (List.mem_of_find?_eq_some there), beq_iff_eq.mp (List.find?_some (p := fun z : Reduced => z.block == b) there)]
    refine ⟨by rw [List.length_map, List.length_zipIdx, length], fun j h => ?_⟩
    dsimp only at h ⊢
    rw [List.length_map, List.length_zipIdx] at h
    rw [List.getElem_map, List.getElem_zipIdx, List.getD_eq_getElem _ _ h]

/-- An element of the blocks that have reached a rank. -/
theorem Coll.closedBlocks_spec {x : Coll} {count : Nat} (whole : ∀ y ∈ x.closed, y.vals.length = min 32 (count - 32 * y.block)) (rank : Nat)
    {b j : Nat} (inside : 32 * b + j < count) (low : j < 32) :
    ∃ h : 32 * b + j < (x.closedBlocks rank count).vals.length, ((x.closedBlocks rank count).vals[32 * b + j]).1 =
      (match (if (rank, b) ∈ x.blocks then x.closed.find? (fun y : Reduced => y.block == b) else none) with
      | some y => y.vals.getD j 0#64
      | none => 0#64).toNat := by
  have length (b : Nat) := (Coll.blockAt_spec whole rank b).1
  have got := flatMap_blocks (f := fun b => (x.blockAt rank count b).1) (n := (count + 31) / 32) (b := b) (j := j) (fun b hb => by rw [length]; omega)
    (by omega) (by rw [length]; omega)
  rw [← Coll.closedBlocks_vals] at got
  obtain ⟨h, eq⟩ := List.getElem?_eq_some_iff.mp got
  exact ⟨h, by rw [eq]; exact (Coll.blockAt_spec whole rank b).2 j _⟩

theorem Coll.closedBlocks_length {x : Coll} {count : Nat} (whole : ∀ y ∈ x.closed, y.vals.length = min 32 (count - 32 * y.block)) (rank : Nat) :
    (x.closedBlocks rank count).vals.length ≤ count := by
  rw [Coll.closedBlocks_vals, List.length_flatMap]
  have sums (n : Nat) : ((List.range n).map (fun b => (x.blockAt rank count b).1.length)).sum ≤ count - (count - 32 * n) := by
    induction n with
    | zero => simp
    | succ n ih =>
      rw [List.range_succ, List.map_append, List.sum_append, List.map_singleton, List.sum_singleton, (Coll.blockAt_spec whole rank n).1]
      omega
  exact (sums _).trans (Nat.sub_le _ _)

end Sys2Proof.Machine

namespace Sys2Proof.Machine
open Sys2Proof.Claims

/-! Collectives that end (R236, R251 to R254, R424). -/

section
variable {s : State} {k : Copy} {x : Coll} {n : Nat} (found : s.car.copyOf n = some k) (coll : s.dev.collOf k = some x) (kind : k.op.isColl = true)
include found coll kind

theorem exec_copyComplete_coll (live : s.car.life ≠ .idle) (may : s.copyMayEnd k = true) : exec (.copyComplete s.car.ref n) s = .next
    (if k.void then s.endVoid k else (s.finishColl k x).sweepColls) := by
  refine (State.at_focused s _).trans (congrArg Host.Outcome.next ?_)
  unfold State.copyEnds
  rw [found]
  dsimp only
  rw [if_neg (by simpa using live), may, kind, coll]
  rfl

/-- What a lossy collective brings to a rank when it ends by its deadline (R252 to R254). -/
def State.deadlineEnd (s : State) (k : Copy) (x : Coll) (l : Option Lossy) : State :=
  match k.op, l with
  | .crdx, _ => s.writeOutcome k (x.closedBlocks (s.myRank k) k.wd.count)
  | _, some y => s.closeMotion k y
  | _, none => s.writeOutcome k (x.motion k (s.myRank k))

theorem exec_collectiveDeadline (running : k.state = .running) (strict : k.lossy = true) (full : k.void = false) (on : s.enginesPaused = false)
    (due : s.collDue k x (s.myRank k) = true) (acq : s.acqReady k = true) (rel : s.relReady k = true)
    (agree : ∀ p ∈ x.parts, x.agrees p = true) (accord : x.discord = false) :
    exec (.collectiveDeadline s.car.ref n) s = .next (s.deadlineEnd k x (s.dev.lossyOf s.car.ref n)).sweepColls := by
  refine (State.at_focused s _).trans (congrArg Host.Outcome.next ?_)
  rw [found]
  dsimp only
  rw [coll]
  dsimp only
  rw [kind, strict, full, running, on, due, acq, rel, State.disagrees_of_agreed agree accord, Bool.true_or, if_neg (by decide), Option.getD_none]
  unfold State.deadlineEnd
  cases k.op <;> cases s.dev.lossyOf s.car.ref n <;> rfl

omit kind in
theorem exec_collectiveDeadline_early (early : s.collDue k x (s.myRank k) = false) (none_ : s.dev.lossyOf s.car.ref n = none) :
    exec (.collectiveDeadline s.car.ref n) s = .next s := by
  refine (State.at_focused s _).trans (congrArg Host.Outcome.next ?_)
  rw [found]
  dsimp only
  rw [coll]
  dsimp only
  rw [early, none_]
  refine if_pos ?_
  simp

end

/-- The blocks that have not come to a lossy gather or broadcast are zeros at its end (R254). -/
theorem State.closeMotion_spec {s : State} {k : Copy} (place : k.wd.sp = true) (y : Lossy) :
    (s.closeMotion k y).car.regs = (s.car.post k.flag 1).regs ∧ (s.closeMotion k y).car.copyOf k.num = none ∧
    (s.closeMotion k y).dev.lossyOf y.car y.num = none ∧
    (k.wd.auxen = false → (s.closeMotion k y).car.spad = (s.zeroBlocks k (if y.closed then [] else y.missing)).1.car.spad) := by
  obtain ⟨zeroed, well⟩ := State.placed_zeroBlocks place (if y.closed then [] else y.missing) s
  unfold State.closeMotion
  dsimp only
  rw [well]
  generalize (s.zeroBlocks k (if y.closed then [] else y.missing)).1 = u at zeroed
  obtain ⟨v, placed, is, regs, gone, spad, dropped⟩ := (u.mapDev (fun d => d.setLossy { y with closed := true })).endLossy_spec k y place
  refine ⟨regs.trans (Car.post_regs_congr zeroed.regs zeroed.took _ _), gone, dropped, fun none => ?_⟩
  rw [none, if_neg (by decide)] at is
  rw [spad, is]
  rfl

/-- When a lossy collective is due at a rank (R254, R424). -/
theorem State.collDue_iff {s : State} {k : Copy} {x : Coll} {me : Nat} : s.collDue k x me = true ↔
    (k.op = .crdx ∧ ∀ b, 32 * b < k.wd.count → (me, b) ∈ x.blocks) ∨ ∃ m ∈ x.finals, m.1 = me ∧ m.2 + k.lslack.toNat * 2000 ≤ s.now := by
  unfold State.collDue
  rw [Bool.or_eq_true]
  refine or_congr ?_ ?_
  · have blocks : ((List.range ((k.wd.count + 31) / 32)).all (fun b => x.blocks.contains (me, b))) = true ↔ ∀ b, 32 * b < k.wd.count → (me, b) ∈ x.blocks := by
      rw [List.all_eq_true]
      refine forall_congr' fun b => ?_
      rw [List.mem_range, List.contains_iff_mem]
      exact imp_congr_left (by omega)
    cases k.op with
    | crdx => exact blocks.trans (and_iff_right rfl).symm
    | _ => exact iff_of_false Bool.false_ne_true fun both => nomatch both.1
  · rw [List.any_eq_true]
    refine exists_congr fun m => and_congr_right fun _ => ?_
    rw [Bool.and_eq_true, beq_iff_eq, decide_eq_true_eq]
    exact Iff.rfl

theorem collectivesComplete : CollectivesComplete := by
  intro n k x me s found coll running place kind rank r agreed ended inside apart faulted
  obtain rfl := Car.num_of_copyOf found
  have mine : s.myRank k = me := by rw [State.myRank, rank]; rfl
  refine ⟨fun live may ⟨agree, accord⟩ there => ?_, fun live may wrong => ?_, fun strict full on due acq rel ⟨agree, accord⟩ => ⟨fun op => ?_, fun y op lossy => ?_⟩,
    fun early none_ => ?_, State.collDue_iff⟩
  · have run := exec_copyComplete_coll found coll kind live may
    cases void : k.void with
    | true =>
      rw [void, if_pos rfl, State.endVoid_of_agreed coll agree] at run
      obtain ⟨gone, regs, -, -⟩ := s.endCopy_spec k
      exact ⟨_, run, ⟨regs, gone⟩, fun _ full => nomatch full⟩
    | false =>
      rw [void, if_neg (by decide), State.finishColl_of_agreed agree accord there] at run
      obtain ⟨regs, gone, spad⟩ := State.writeOutcome_spec place s (s.broughtTo k x)
      refine ⟨_, run, ⟨regs, gone⟩, fun op _ none_ ⟨free, near⟩ far all m hm p part j hj => ?_⟩
      have brought : s.broughtTo k x = x.motion k me := by rw [State.broughtTo, op, ← mine]
      obtain ⟨h, value⟩ := Coll.motion_gather op all hm part
      have length : (x.motion k me).vals.length = k.wd.count := by rw [Coll.motion, List.length_map, List.length_range]
      show ((s.writeOutcome k (s.broughtTo k x)).car.spad).read _ = _
      rw [spad none_, brought, State.putVals_read free place _ (fun j hj => near j (by omega))
        (fun i hi j hj => far i (by omega) j (by omega)) h hj, value]
      exact bytesLE_word _ hj
  · have run := exec_copyComplete_coll found coll kind live may
    cases void : k.void with
    | true =>
      rw [void, if_pos rfl] at run
      obtain ⟨regs, row, a, state, pending⟩ := State.endVoid_of_wrong coll kind found wrong
      refine ⟨_, run, ⟨row, a, state, pending⟩, regs.trans ?_⟩
      simp only [true_and]
    | false =>
      rw [void, if_neg (by decide), State.finishColl_of_wrong wrong] at run
      obtain ⟨regs, row, a, state, pending⟩ := State.collFault_spec found
      refine ⟨_, run, ⟨row, a, state, pending⟩, regs.trans (if_neg ?_).symm⟩
      exact fun both => nomatch both.1
  · have run := exec_collectiveDeadline found coll kind running strict full on (mine ▸ due) acq rel agree accord
    have brought (l : Option Lossy) : s.deadlineEnd k x l = s.writeOutcome k (x.closedBlocks me k.wd.count) := by
      unfold State.deadlineEnd
      rw [op, mine]
    rw [brought] at run
    obtain ⟨regs, gone, spad⟩ := State.writeOutcome_spec place s (x.closedBlocks me k.wd.count)
    refine ⟨_, run, ⟨regs, gone⟩, fun none_ ⟨free, near⟩ far whole b j hm low i hi => ?_⟩
    obtain ⟨h, value⟩ := Coll.closedBlocks_spec whole me hm low
    have length := Coll.closedBlocks_length whole me
    show ((s.writeOutcome k (x.closedBlocks me k.wd.count)).car.spad).read _ = _
    rw [spad none_, State.putVals_read free place _ (fun j hj => near j (by omega)) (fun i hi j hj => far i (by omega) j (by omega)) h hi, value]
    generalize (if (me, b) ∈ x.blocks then x.closed.find? (fun y : Reduced => y.block == b) else none) = came
    cases came with
    | some y => exact bytesLE_word _ hi
    | none => exact bytesLE_nothing _ _
  · have run := exec_collectiveDeadline found coll kind running strict full on (mine ▸ due) acq rel agree accord
    have brought : s.deadlineEnd k x (s.dev.lossyOf s.car.ref k.num) = s.closeMotion k y := by
      rw [show s.dev.lossyOf s.car.ref k.num = some y from lossy]
      unfold State.deadlineEnd
      split
      · next crdx => exact absurd crdx op
      · next same _ => rw [Option.some.inj same]
      · next none_ _ => cases none_
    rw [brought] at run
    obtain ⟨regs, gone, dropped, spad⟩ := State.closeMotion_spec (s := s) place y
    obtain ⟨car, num⟩ := Device.lossyOf_name lossy
    rw [car, num] at dropped
    refine ⟨_, run, ⟨regs, gone⟩, dropped, fun none_ opened ⟨free, near⟩ _ m hm block away j hj => ?_⟩
    show ((s.closeMotion k y).car.spad).read _ = _
    rw [spad none_, opened, if_neg (by decide)]
    exact State.zeroBlocks_read place near y.missing s free hm (Lossy.mem_missing.mpr ⟨block, away⟩) hj
  · exact exec_collectiveDeadline_early found coll (mine ▸ early) none_

end Sys2Proof.Machine

namespace Sys2Proof.Proofs
open Sys2Proof.Machine Sys2Proof.Claims

/-- Settles O35: lossy transfers close with zeros and their mask, notices let go what was held back, blocks of reductions close once, and
collectives end by what has come. -/
theorem transfersClose : Obligations.TransfersClose :=
  ⟨lossyTransfersClose, noticesOfIssueRelease, reductionBlocksClose, collectivesComplete⟩

end Sys2Proof.Proofs
